-- ==== Sys2Proof/Word.lean ====
section
/-! DEFINITION. The numeric types of the model and its sparse tables: a table is a list of pairs of a number and a value, its numbers strictly rising, so that equal tables are equal data. -/

namespace Sys2Proof

/-- A byte. -/
abbrev Byte := BitVec 8

/-- A sparse table: pairs of a key and a value, keys strictly rising. -/
abbrev KV (α : Type) := List (Nat × α)

namespace KV

/-- The canonical order of a table: keys strictly rising. -/
abbrev WF {α : Type} (m : KV α) : Prop := m.Pairwise (fun a b => a.1 < b.1)

/-- The value listed under a key. -/
def find {α : Type} : KV α → Nat → Option α
  | [], _ => none
  | (k', v) :: m, k => if k' = k then some v else find m k

/-- The value under a key, or the given one where the table lists none. -/
def findD {α : Type} (m : KV α) (k : Nat) (d : α) : α := (find m k).getD d

/-- List a value under a key, in place of any listed before. -/
def set {α : Type} : KV α → Nat → α → KV α
  | [], k, v => [(k, v)]
  | (k', v') :: m, k, v =>
    if k < k' then (k, v) :: (k', v') :: m
    else if k = k' then (k, v) :: m
    else (k', v') :: set m k v

/-- Take a key out of the table. -/
def del {α : Type} : KV α → Nat → KV α
  | [], _ => []
  | (k', v') :: m, k => if k' = k then m else (k', v') :: del m k

/-- Change the value under a key, starting from `d` where none is listed. -/
def upd {α : Type} (m : KV α) (k : Nat) (d : α) (f : α → α) : KV α := set m k (f (findD m k d))

/-- Change the value under a key if one is listed. -/
def adj {α : Type} (m : KV α) (k : Nat) (f : α → α) : KV α := m.map (fun p => if p.1 = k then (p.1, f p.2) else p)

/-- Change every value. -/
def mapVals {α : Type} (m : KV α) (f : Nat → α → α) : KV α := m.map (fun p => (p.1, f p.1 p.2))

/-- Keep the entries that satisfy a test. -/
def keep {α : Type} (m : KV α) (p : Nat → α → Bool) : KV α := m.filter (fun x => p x.1 x.2)

/-- Store a value where an unlisted key reads as `d`: storing `d` takes the key out. -/
def put {α : Type} [DecidableEq α] (d : α) (m : KV α) (k : Nat) (v : α) : KV α :=
  if v = d then del m k else set m k v

/-- The canonical form of a memory whose unlisted keys read as `d`. -/
abbrev Canon {α : Type} (d : α) (m : KV α) : Prop := WF m ∧ ∀ p ∈ m, p.2 ≠ d

end KV

/-- The value at a position of a list of numbers, 0 beyond its end. -/
def nth (l : List Nat) (i : Nat) : Nat := l.getD i 0

/-- Change the value at a position of a list. -/
def modAt {α : Type} (l : List α) (i : Nat) (f : α → α) : List α := l.modify i f

end Sys2Proof
end

