-- ==== Sys2Proof/Syntax.lean ====
section
/-! DEFINITION. The commands of the block: one constructor of `Instr` per row of the spec's table of operations and events, with the row's operands. -/

namespace Sys2Proof

/-- An admin submission entry: the function whose admin queue it was fetched from, its identifier, its NSID and dwords 10 to 15 (NVMe 2.0; chapters 3 and 14), and the bytes of its data buffer. -/
structure Sqe where
  func : Nat
  cid : Nat
  nsid : Nat := 0
  cdw10 : BitVec 32 := 0
  cdw11 : BitVec 32 := 0
  cdw12 : BitVec 32 := 0
  cdw13 : BitVec 32 := 0
  cdw14 : BitVec 32 := 0
  cdw15 : BitVec 32 := 0
  data : List Nat := []
  /-- the total length of the SGL that DPTR holds; none for PRPs (R411). -/
  sgl : Option Nat := none
  deriving DecidableEq, Repr

/-- An I/O submission entry: its queue, NSID, first LBA and number of LBAs; the Key Per I/O tag of a command that carries one (R389); the time from the doorbell stamp to the verdict in ns (R84); the data a write brings, one number per LBA; the zone-management fields. -/
structure Io where
  func : Nat
  sqid : Nat
  cid : Nat
  nsid : Nat
  slba : Nat := 0
  nlb : Nat := 1
  keyTag : Option Nat := none
  tv : Nat := 1200
  data : List Nat := []
  numd : Nat := 0
  action : Nat := 0
  partialBit : Bool := false
  option : Nat := 0
  ext : List Nat := []
  deriving DecidableEq, Repr

/-- A firmware image (R356): version, security version number, the digest and size of each of its six stages as measured and as its manifest names them, and whether its manifest signature verifies. -/
structure Image where
  major : Nat := 1
  minor : Nat := 0
  build : Nat := 0
  svn : Nat := 0
  digests : List Nat := [1, 2, 3, 4, 5, 6]
  named : List Nat := [1, 2, 3, 4, 5, 6]
  sizes : List Nat := [0, 0, 0, 0, 0, 0]
  signedOk : Bool := true
  bytes : Nat := 4096
  deriving DecidableEq, Repr

/-- R472: who may own a scratchpad bank or reach for it: all processors, a processor, the request cores as a group, the host DMA engines, or the memory test engine. -/
inductive Owner where
  | all | core (n : Nat) | requestCores | hostDma | testEngine
  deriving DecidableEq, Repr

/-- An access to the scratchpad (R472 to R475): who makes it, itself or through a DMA engine that it programmed, the byte of the bank it starts at, its 1 to 8 bytes, and what it writes. -/
structure PadAccess where
  who : Owner
  dma : Bool := false
  addr : Nat
  len : Nat := 8
  write : Option Nat := none
  deriving DecidableEq, Repr

/-- The header of a Deroft message (R297, Table 10.6): type, tag, the sender's PEPOCH and the key phase. -/
structure MsgHdr where
  typ : Nat := 0
  tag : Nat := 0
  pepoch : Nat := 0
  phase : Bool := false
  /-- the authentication tag and padding verify (R302). -/
  authOk : Bool := true
  deriving DecidableEq, Repr

/-- The body of a mirror record (R267, Table 9.1): the header fields of a Vigil record and one number per LBA of data. -/
structure MirrorBody where
  typ : Nat := 1
  oseq : Nat := 0
  pepoch : Nat := 0
  nsid : Nat := 0
  zone : Nat := 0xFFFFFFFF
  slba : Nat := 0
  nlb : Nat := 0
  func : Nat := 0
  stamp : Nat := 0
  key : Nat := 0
  forwarded : Bool := false
  action : Nat := 0
  arg : Nat := 0
  data : List Nat := []
  deriving DecidableEq, Repr

/-- A Pairing table entry (R314, Table 10.13). -/
structure PtEntry where
  nsid : Nat
  mirrored : Bool := false
  here : Bool := false
  cont : Bool := false
  fenced : Bool := false
  yielded : Bool := false
  deleted : Bool := false
  ploss : Bool := false
  sepPepoch : Nat := 0
  zones : Nat := 0
  deriving DecidableEq, Repr

/-- The HELLO body (R312, Table 10.11). -/
structure Hello where
  proto : Nat := 1
  part : Nat := 1
  slot0 : Bool := false
  unpaired : Bool := false
  mode : Nat := 0
  fwMajor : Nat := 1
  fwMinor : Nat := 0
  fwBuild : Nat := 0
  pairId : Nat := 0
  serial : List Nat := []
  lastTwin : List Nat := []
  pepoch : Nat := 0
  features : Nat := 0
  deriving DecidableEq, Repr

/-- A heartbeat record (R303, Table 10.9). -/
structure Beat where
  mode : Nat := 0
  senseOut : Bool := true
  senseIn : Bool := true
  senseFault : Bool := false
  flags : Nat := 0
  count : Nat := 0
  pepoch : Nat := 0
  dtb : Nat := 0
  echo : Nat := 0
  echoAt : Nat := 0
  deriving DecidableEq, Repr

/-- An entry of a resync summary (R321): the zone, its state code, its write pointer, RESET_ID and the ordering key applied. -/
structure SumEntry where
  zone : Nat
  state : Nat := 0
  wp : Nat := 0
  resetId : Nat := 0
  oseq : Nat := 0
  pepoch : Nat := 0
  deriving DecidableEq, Repr

/-- A Resync frame or a Reshape copy (R321, Table 10.17): its body header, and the data as a value and a key for each LBA. -/
structure FrameBody where
  kind : Nat
  nsid : Nat := 0
  unit : Nat := 0
  nlb : Nat := 0
  slba : Nat := 0
  oseq : Nat := 0
  resetId : Nat := 0
  zstate : Nat := 0
  wp : Nat := 0
  pepoch : Nat := 0
  data : List (Nat × Nat) := []
  entries : List SumEntry := []
  deriving DecidableEq, Repr

/-- The twin's evidence of step 4 of pairing (R310, R311): whether its chain ends at the device root, whether its measurements verify, M0 to M5, and the major version they name. -/
structure Evidence where
  chainOk : Bool := true
  verified : Bool := true
  digests : List Nat := []
  major : Nat := 1
  deriving DecidableEq, Repr

/-- A setting that a package passes its training at (R190), by the codes of Table 7.14: data rate, termination, drive strength. -/
structure ChanSetting where
  rate : Nat
  odt : Nat
  drive : Nat
  deriving DecidableEq, Repr

/-- One sample of the supply, 1 µs apart (R329, R495): the feeds in 0.1 V, the PWRDIS pin, the mate pin in mV. -/
structure SupplySample where
  feedA : Nat := 480
  feedB : Nat := 480
  pwrdis : Bool := false
  mateMv : Nat := 580
  deriving DecidableEq, Repr

/-- What the backplane presents with the feeds (R489, R495): SLOTID, PWRDIS, and whether the mate is sensed. -/
structure Backplane where
  slotid : Nat := 0
  pwrdis : Bool := false
  mated : Bool := true
  deriving DecidableEq, Repr

/-- How the host link came up (R58): in flit mode, and with its lanes reversed. -/
structure LinkMode where
  flit : Bool := true
  reversed : Bool := false
  deriving DecidableEq, Repr

/-- The end of a program pass (R189, R215): the die's status, and whether the last confirmed word line of the set still reads back. -/
structure PassEnd where
  ok : Bool
  last : Bool
  deriving DecidableEq, Repr

/-- What recovery found on the media (R349, R350): the records whose integrity fails; the block sets whose header is absent or unreadable, each with the outcome of its erased-page check. -/
structure Scan where
  bad : List Nat := []
  headers : List (Nat × Bool) := []
  deriving DecidableEq, Repr

/-- Accesses that meet a bank of the scratchpad while it is lent (R477). -/
structure BankUse where
  bank : Nat
  accesses : List PadAccess := []
  deriving DecidableEq, Repr

/-- The commands of the block: the rows of the spec's table of operations and events, in its order. -/
inductive Instr where
  /-- R489. A feed at or above 36 V, PWRDIS deasserted and mate sensed have held together for 10 ms, so the module leaves off and enters Measure. -/
  | powerGood (feedA feedB : Nat) (plane : Backplane)
  /-- R491. A feed crosses 36 V or 75 V, is reversed, or one feed stays below 33 V for 100 µs while another holds; the OK bits are updated and the event is recorded, with no Harvest. -/
  | supplyEvent (kind feedA feedB : Nat)
  /-- R329. Every feed has been below 33 V for 100 samples, or PWRDIS has been asserted for 5 samples, in a mode that enters Harvest; admission stops and the Harvest sequence begins. -/
  | harvestTrigger (feeds : List (Nat × Nat)) (pwrdis : List Bool) (mateMv : List Nat) (ticks : Nat)
  /-- R330. The seal record is made durable after landing; the module then enters Measure if feeds are present, or otherwise switches off its rails and discharges the bank. -/
  | harvestSeal (vEnd feedA feedB : Nat) (pwrdis mated : Bool) (shifts : List Nat)
  /-- R344. The bank reaches its floor before the seal, so the rails fall with no seal and the next Recovery takes the unclean path. -/
  | harvestBankExhausted (step landed : Nat)
  /-- R62. PERST_N is asserted, which resets every function of the module and disposes of accepted commands under R63. -/
  | perstAsserted
  /-- R62. PERST_N is deasserted, and host link training starts within 1 ms. -/
  | perstDeasserted
  /-- R62. A surprise link down, or a link down after an uncorrectable link error, resets every function and restarts link training. -/
  | linkDown
  /-- R62. Training sets carrying hot reset are received, and every function of the module is reset. -/
  | hotReset
  /-- R62. Initiate Function Level Reset is written for the PF, which resets every VF and clears VF Enable, or for one VF, which resets that VF's controller. -/
  | functionLevelReset (func : Nat)
  /-- R58. The host link reaches L0 at a rate, width and encoding; the host crossing credits and the pricing rate are set from Table 3.1. -/
  | hostLinkUp (rate width : Nat) (how : LinkMode)
  /-- R61. After 1 ms with no outstanding command and no doorbell, with L1 enabled by the host, the port requests ASPM L1. -/
  | l1Entry
  /-- R463. The link leaves L1; in Holiday the host island restarts from retention to answer configuration requests and capture doorbells. -/
  | l1Exit
  /-- R70. CC.EN is written to 1; the CC fields are checked, and CSTS.RDY is set at the point R52 gives, or CSTS.CFS is set. -/
  | ccEnable (func : Nat) (cc : BitVec 32)
  /-- R62. CC.EN is written from 1 to 0; that controller is reset, its commands are disposed of and CSTS.CFS clears. -/
  | ccDisable (func : Nat)
  /-- R66. CC.SHN is written to 01b; the controller stops fetching, completes accepted commands and reports SHST 10b within 1 s. -/
  | normalShutdown (func : Nat)
  /-- R66. An Unbound command is still open 900 ms after a normal shutdown notification and is disposed of under R63. -/
  | shutdownUnboundTimeout (func : Nat)
  /-- R66. CC.SHN is written to 10b; the controller disposes of its commands at once and reports SHST 10b within 10 ms. -/
  | abruptShutdown (func : Nat)
  /-- R345. Every enabled controller has reached SHST 10b, so the module writes a checkpoint, lands live records and writes a seal record. -/
  | shutdownSeal (shifts : List Nat)
  /-- R65. 4E564D65h is written to NSSR, resetting every controller of the module, or of both modules in Service. -/
  | nvmSubsystemReset (func : Nat)
  /-- R72. SU_PWRBUD.LIMIT is written on the PF; the limit is rounded, and the power state in force, the cap and the flash budget are recomputed. -/
  | suPwrbudWrite (func : Nat) (value : BitVec 32)
  /-- R73. A read of SU_DTB_LO returns the low half of the device time base and latches the upper half for SU_DTB_HI. -/
  | suDtbLoRead (func : Nat)
  /-- R69. A write to a controller or set-up register without behaviour of its own is taken or ignored by its size, alignment and access code. -/
  | registerWrite (func bar offset size : Nat) (value : BitVec 64)
  /-- R82. A submission queue tail doorbell write makes entries visible and stamps them, is ignored as invalid, or wakes the module from Holiday. -/
  | sqTailDoorbell (func qid size value : Nat)
  /-- R82. A completion queue head doorbell write frees completion slots, or is rejected when it passes the last posted entry; in Holiday it is captured. -/
  | cqHeadDoorbell (func qid size value : Nat)
  /-- R464. The Holiday exit completes in Solo or Pairing; held doorbells are stamped, the calendar and any rebuild resume and the 2 ms rejection window opens. -/
  | holidayExitComplete (ticks : Nat)
  /-- R460. Once the PS4 request's preparation is done, the module stops its calendar, puts its memories into retention, latches time, stops its clocks and enters Holiday. -/
  | holidayEntry (tick : Nat)
  /-- R50. 10 ms after the last admin completion of a wake caused by admin doorbells alone, the module re-enters Holiday if the entry is still permitted. -/
  | holidayReentry (tick : Nat)
  /-- R93. Identify returns controller, namespace or capability data. -/
  | identify (e : Sqe)
  /-- R418. Get Log Page returns a log as the reading function may see it; when RAE is cleared it also clears that log's pending event. -/
  | getLogPage (e : Sqe)
  /-- R430. Get Log Page 07h with Create Telemetry Host-Initiated Data forms a capture of areas 1 and 3 within 10 ms. -/
  | telemetryHostInitiatedCreate (e : Sqe)
  /-- R412. Get Features returns the current, default, saved or supported value of a feature. -/
  | getFeatures (e : Sqe)
  /-- R94. Abort aborts a command that holds no die operation and no Vigil record, or it is carried to the home or owner for a forwarded command. -/
  | abort (e : Sqe)
  /-- R428. An Asynchronous Event Request is held until a pending event completes it. -/
  | asynchronousEventRequest (e : Sqe)
  /-- R94. Keep Alive restarts the keep-alive timer. -/
  | keepAlive (e : Sqe)
  /-- R94. The keep-alive timer expires; the event is recorded and the controller stays enabled. -/
  | keepAliveExpiry (func : Nat)
  /-- R78. Create I/O Submission Queue creates an unbound submission queue of 2 to 4,096 entries. -/
  | createIoSubmissionQueue (e : Sqe)
  /-- R76. Create I/O Completion Queue creates a queue on an assigned vector, or completes with Invalid Interrupt Vector. -/
  | createIoCompletionQueue (e : Sqe)
  /-- R81. Delete I/O Submission Queue stops fetching and disposes of the queue's commands with completions, waiting for any forwarded command's disposal on the twin. -/
  | deleteIoSubmissionQueue (e : Sqe)
  /-- R78. Delete I/O Completion Queue removes a completion queue. -/
  | deleteIoCompletionQueue (e : Sqe)
  /-- R75. A Virtualization Management Primary Flexible Allocation completes at once and stays pending until the PF's next controller-level reset. -/
  | virtPrimaryFlexibleAllocation (e : Sqe)
  /-- R76. Virtualization Management takes a secondary controller offline. -/
  | virtSecondaryOffline (e : Sqe)
  /-- R76. Virtualization Management assigns flexible queue pairs or vectors to a secondary controller. -/
  | virtSecondaryAssign (e : Sqe)
  /-- R76. Virtualization Management brings a secondary controller online if it holds at least one queue pair and one vector. -/
  | virtSecondaryOnline (e : Sqe)
  /-- R72. Set Features Power Management selects PS0 to PS3, which leaves Holiday where it applies and recomputes the state in force. -/
  | setPowerManagement (e : Sqe)
  /-- R48. Set Features Power Management selecting PS4 is judged for permission and prepares Holiday entry, or completes with C4h. -/
  | setPowerManagementPs4 (e : Sqe)
  /-- R80. Set Features C0h binds an unlocked submission queue to a latency class. -/
  | setQueueClassBinding (e : Sqe)
  /-- R178. Set Features C1h sets one function's allotments, zone limits and journal share after checks against the reservation limits. -/
  | setTenantBudget (e : Sqe)
  /-- R413. Set Features C2h sets the integrator power limit that is shared with SU_PWRBUD.LIMIT. -/
  | setPowerBudget (e : Sqe)
  /-- R414. Set Features C3h sets the offsets of the controller and flash warn and throttle thresholds. -/
  | setThermalPolicy (e : Sqe)
  /-- R381. Set Features C4h validates the policy, saves it in three copies and reports HOLD_NEXT. -/
  | setMeasurementPolicy (e : Sqe)
  /-- R251. Set Features C5h sets the default twin policy, or the policy of a namespace that holds no data. -/
  | setTwinPolicy (e : Sqe)
  /-- R415. Set Features C6h sets whether Holiday is permitted while mirrored namespaces are attached. -/
  | setHolidayDegradationPermit (e : Sqe)
  /-- R182. Set Features C7h dedicates a stripe group to a function or releases it. -/
  | setGroupDedication (e : Sqe)
  /-- R437. Set Features Timestamp records host time, clears time discontinuity and sets SOURCE to 001b. -/
  | setTimestamp (e : Sqe)
  /-- R78. Set Features Number of Queues reports the queue pairs assigned to the function. -/
  | setNumberOfQueues (e : Sqe)
  /-- R88. Set Features Interrupt Coalescing sets aggregation, which applies to Bulk and Unbound completions only. -/
  | setInterruptCoalescing (e : Sqe)
  /-- R88. Set Features Interrupt Vector Configuration configures coalescing for a vector. -/
  | setInterruptVectorConfiguration (e : Sqe)
  /-- R428. Set Features 0Bh enables or disables SMART and notice asynchronous events. -/
  | setAsyncEventConfiguration (e : Sqe)
  /-- R447. Set Features Temperature Threshold sets the over- or under-temperature threshold of the composite temperature. -/
  | setTemperatureThreshold (e : Sqe)
  /-- R97. Namespace Management create allocates zone slots, zone numbers, an NSID and keys, or completes with a capacity or field error. -/
  | namespaceCreate (e : Sqe)
  /-- R97. Namespace Management delete removes a namespace and releases its slots, zones and list entries. -/
  | namespaceDelete (e : Sqe)
  /-- R90. Namespace Attachment attaches a namespace to controllers. -/
  | namespaceAttach (e : Sqe)
  /-- R90. Namespace Attachment detaches a namespace from controllers. -/
  | namespaceDetach (e : Sqe)
  /-- R402. Format NVM with SES 000b empties the namespace's zones or LBAs and queues its old block sets for erase. -/
  | formatNvm (e : Sqe)
  /-- R403. Format NVM with SES 001b or 010b replaces the namespace's generated key, zeroizes its injected keys and empties it. -/
  | formatNvmCryptoErase (e : Sqe)
  /-- R403. Sanitize crypto erase replaces the keys of every namespace in scope and empties them. -/
  | sanitizeCryptoErase (e : Sqe)
  /-- R402. Sanitize block erase also erases every zone, staging, metadata and landing block set before it ends. -/
  | sanitizeBlockErase (e : Sqe)
  /-- R402. Sanitize overwrite completes with Invalid Field in Command. -/
  | sanitizeOverwrite (e : Sqe)
  /-- R404. Sanitize with Exit Failure Mode leaves the sanitize failure state. -/
  | sanitizeExitFailureMode (e : Sqe)
  /-- R404. The last command accepted before a Format NVM or Sanitize completes, so the erasure operation starts. -/
  | formatSanitizeStart
  /-- R374. Firmware Image Download holds an image piece in DRAM, or begins a new image at offset 0. -/
  | firmwareImageDownload (e : Sqe) (img : Image)
  /-- R375. Firmware Commit CA 000b verifies the image, writes it into the slot and reads it back. -/
  | firmwareCommitReplace (e : Sqe)
  /-- R376. Firmware Commit CA 001b writes the image, appends a selector word and begins activation through Measure. -/
  | firmwareCommitReplaceActivate (e : Sqe)
  /-- R376. Firmware Commit CA 010b verifies the slot, appends a selector word and begins activation through Measure. -/
  | firmwareCommitActivate (e : Sqe)
  /-- R376. Once the bound commands have completed after an activating Commit, the module departs, completes the Commit, writes the activation seal and enters Measure. -/
  | activationSeal
  /-- R392. Security Send delivers a TCG Key Per I/O method on protocol 00h or 01h. -/
  | securitySend (e : Sqe)
  /-- R392. Security Receive returns discovery or method results, including the KPIO transport certificate. -/
  | securityReceive (e : Sqe)
  /-- R394. A wrapped media key is injected into a tag; a key already there becomes the retiring key, and a mirrored namespace's key is carried to the twin. -/
  | mediaKeyInjection (e : Sqe) (tag kek key : Nat) (ok : Bool)
  /-- R392. A tenant KEK, wrapped under an ECDH-derived key, is injected into a KEK slot. -/
  | kekInjection (e : Sqe) (kek key : Nat) (ok : Bool)
  /-- R388. Key Per I/O is enabled on an empty namespace: the generated key is zeroized and N slots are taken. -/
  | keyPerIoEnable (e : Sqe) (tags : Nat)
  /-- R388. Key Per I/O is disabled on an empty namespace: the injected keys are zeroized and a new key is generated. -/
  | keyPerIoDisable (e : Sqe)
  /-- R324. Pair Control join clears the unpaired state and the link lock, and wakes a twin that is in Holiday. -/
  | pairControlJoin (e : Sqe)
  /-- R324. Pair Control unpair clears the pair identifier and sets the unpaired state, departing or dropping namespaces by mode. -/
  | pairControlUnpair (e : Sqe)
  /-- R318. Pair Control transfer hands ownership of a mirrored namespace to the twin through the handover exchange. -/
  | pairControlTransfer (e : Sqe)
  /-- R324. Pair Control yield marks this module's copy of a mirrored namespace as YIELDED, in Solo. -/
  | pairControlYield (e : Sqe)
  /-- R324. Pair Control take takes ownership of fenced namespaces as they stood at the fence and sets CONT. -/
  | pairControlTake (e : Sqe)
  /-- R337. Hold-up Test ACTION 0h starts or joins a hold-up test and completes with its result. -/
  | holdUpTestRun (e : Sqe)
  /-- R337. Hold-up Test ACTION 1h returns the stored result of the latest completed test. -/
  | holdUpTestReport (e : Sqe)
  /-- R254. Reshape ACTION 0h starts a change of a namespace between single and mirrored beside the old layout. -/
  | reshapeTwinPolicy (e : Sqe)
  /-- R257. Reshape ACTION 1h starts moving zones into groups permitted by a new affinity mask. -/
  | reshapeGroupMove (e : Sqe)
  /-- R258. Reshape ACTION 2h cancels the namespace's running reshape once the unit in progress has been switched or abandoned. -/
  | reshapeCancel (e : Sqe)
  /-- R184. Calendar Query ACTION 0h returns a group report taken in one slot. -/
  | calendarQueryGroupReport (e : Sqe)
  /-- R186. Calendar Query ACTION 1h takes a die snapshot into log C7h. -/
  | calendarQueryDieSnapshot (e : Sqe)
  /-- R138. A Read is judged and priced, its die claims are placed, and it is read locally, from the journal, around a die or forwarded. -/
  | read (e : Io)
  /-- R266. A Write is judged, priced and checked at the zone's owning core, and forms a Vigil record, or is forwarded to the owner or home. -/
  | write (e : Io)
  /-- R266. Write Zeroes is handled as a write with no data transferred. -/
  | writeZeroes (e : Io)
  /-- R116. Zone Append is assigned its LBA from the write pointer at the owning core and forms a record. -/
  | zoneAppend (e : Io)
  /-- R132. Flush is accepted if no earlier open write has a later deadline, and completes when the last of those writes completes. -/
  | flush (e : Io)
  /-- R137. Zone Management Receive Report Zones returns zone descriptors. -/
  | reportZones (e : Io)
  /-- R105. Zone Management Receive Extended Report Zones returns zone descriptors with their extensions. -/
  | extendedReportZones (e : Io)
  /-- R99. Open Zone moves a zone to Explicitly Opened. -/
  | openZone (e : Io)
  /-- R99. Close Zone moves an open zone to Closed, or to Empty if nothing has been written. -/
  | closeZone (e : Io)
  /-- R101. Finish Zone makes the zone Full, with its last row completed and its staged data folded, once the map change is durable. -/
  | finishZone (e : Io)
  /-- R118. Reset Zone empties the zone at a durable map change and queues its old block sets for erase. -/
  | resetZone (e : Io)
  /-- R99. Offline Zone moves a Read Only zone to Offline. -/
  | offlineZone (e : Io)
  /-- R106. Set Zone Descriptor Extension places an Empty zone, stores its extension and capacity, and moves it to Closed. -/
  | setZoneDescriptorExtension (e : Io)
  /-- R120. A Zone Management Send with Select All acts on every eligible zone in turn and records the results in log C9h. -/
  | zoneSendSelectAll (e : Io)
  /-- R25. Write data arrives from host memory through protection checking and XTS into the buffer pool. -/
  | hostDataReceived (slot pi : Nat)
  /-- R264. A record's headers, data and CRCs are in DRAM; a write that needs no acknowledgement advances its write pointer and completes. -/
  | recordDurable (seq : Nat)
  /-- R86. The last data of a read is written to host memory; its completion entry and MSI-X message follow. -/
  | readDataDelivered (slot : Nat)
  /-- R471. Buffers freed let a waiting Unbound allocation proceed within its quota. -/
  | unboundBufferGrant (slot : Nat)
  /-- R145. Retirements free enough journal share or allowance for a waiting Unbound write, which is then charged and fetched. -/
  | unboundWriteShareGrant (slot : Nat)
  /-- R159. At each 8 µs boundary the calendar releases the claims that start there, suspends or resumes passes, and releases programs, erases and just-in-time claims. -/
  | slotBoundary
  /-- R157. At each 8.192 ms boundary tokens renew, Bulk and throttle factors and rest slots are set, allotment grants and standing claims are placed, and waiting rebuilds start. -/
  | periodBoundary
  /-- R30. A command's deadline timer expires; a miss is counted and the command runs on. -/
  | deadlineTimerExpiry (slot : Nat)
  /-- R31. A command's rescue point arrives, and its owner core is declared hung if the core's beat is more than 4 µs old. -/
  | rescuePoint (slot : Nat)
  /-- R31. A request core stamps its progress beat into the calendar island. -/
  | progressBeat (core : Nat)
  /-- R35. A request core has not serviced its 1 ms watchdog and is reset, its commands moving under R32. -/
  | requestCoreWatchdog (core : Nat)
  /-- R35. A reset request core returns to service, gets its zones back and receives descriptors again. -/
  | coreReturnToService (core : Nat)
  /-- R466. A management core misses its 10 ms watchdog and is reset; its duties resume from durable state. -/
  | managementCoreWatchdog (core : Nat)
  /-- R466. The security core's watchdog in the always-on island expires and the core is reset with its keys kept. -/
  | securityCoreWatchdog
  /-- R21. An island's local copy of the device time base is corrected against the master, holding rather than moving backward. -/
  | timeCorrection (copy reading : Nat)
  /-- R484. A crossing handshake unanswered for 2 µs is an island fault; it is recorded and captured, and the island is reset or the module quarantined. -/
  | islandFault (island crossing stallAt channel : Nat)
  /-- R484. A faulted island finishes its reset from retention and its commands resume or are disposed of. -/
  | islandResetComplete (island channel : Nat)
  /-- R167. A die acknowledges the suspension of its program or erase, and the claim's array operation starts. -/
  | suspendAcknowledge (die ackNs : Nat)
  /-- R170. A die neither completes nor acknowledges suspension for 50 ms of running time and is failed. -/
  | dieOperationWatchdog (die : Nat)
  /-- R201. A page read and its transfer end, and the hard decoder corrects the codewords or flags a failure. -/
  | dieReadComplete (slot : Option Nat) (die fails errs : Nat)
  /-- R202. A soft read is decoded in the buffer island, or fails and turns the codeword into an erasure. -/
  | softRetryComplete (slot : Option Nat) (die page plane : Nat) (ok : Bool)
  /-- R226. Every survivor claim has returned, and the parity engine rebuilds the erasures or marks codewords lost. -/
  | stripeReconstructionComplete (slot : Option Nat) (die erasures nsid : Nat) (lost : List Nat)
  /-- R213. A block set's read count reaches its threshold, 64 sample pages are read and the set is queued for refresh or its count is halved. -/
  | readDisturbCheck (die bset : Nat) (errs : Bool)
  /-- R189. A program pass ends on a die; a final pass may confirm a word line, retire records, switch copies or rebuilt sets, or fail. -/
  | programComplete (die plane : Nat) (pass : PassEnd)
  /-- R352. An erase ends, an erase-done record is formed, and the set joins its role's free sets or finishes a zeroization or block erase. -/
  | eraseComplete (die plane : Nat) (ok : Bool)
  /-- R273. A zone's oldest held record of an incomplete word line has been held for 20 ms, so the zone's held data is staged into SLC. -/
  | stagingThreshold (nsid zone : Nat)
  /-- R274. 2 ms after its first unit, a staging row or metadata log row is released with missing pages filled with zeros. -/
  | stagingRowTimeout (group : Nat)
  /-- R205. The retention clock advances a sixteenth of a day; it is saved, reference shifts are measured and aged sets are queued for refresh. -/
  | retentionClockIncrement (shifts worn : List Nat)
  /-- R210. Percentage Used is recomputed from zone-role and SLC-role wear at least once an hour. -/
  | percentageUsedUpdate
  /-- R347. 30 s into an open session, a checkpoint of the whole map is written to the next group's system area. -/
  | checkpointInterval
  /-- R104. A zone active for 604,800 s gets Finish Zone Recommended, is added to the Changed Zone List and may raise a notice. -/
  | zoneOpenAgeExpiry (nsid zone : Nat)
  /-- R333. LAST_TEST reaches 1,440 minutes, and a test starts once the module is in Service or Solo, the bank is charged and no sensor is at warn. -/
  | holdUpTestDue
  /-- R334. The bank has fallen 0.5 V under the test sink; capacitance is estimated and V_stop is set. -/
  | holdUpInitialFall (tUs : Nat)
  /-- R334. The bank reaches V_stop; C and ESR are measured, U and V are set, and the charger is switched on. -/
  | holdUpStopVoltage (tUs stepMv : Nat)
  /-- R278. The bank reaches 70 V, which sets V from the stored measurement, clears write-through where it applies and ends a test. -/
  | bankCharged
  /-- R332. Every 10 ms the bank voltage is compared with 66 V; below it, U and V are recomputed and a charger fault is recorded. -/
  | bankVoltageCheck (mv pIn : Nat)
  /-- R443. A sensor class is sampled, and crossings, band changes, throttling, rate exceedance and shut-down are acted on. -/
  | thermalSample (cls : Nat) (first : Int) (rest : List Int)
  /-- R455. After each further 2 s at or above throttle, the imposed state deepens by one, to at most PS3. -/
  | throttleDeepen
  /-- R455. After each 10 s with every reading 3 °C below throttle, the imposed state relaxes by one. -/
  | throttleRelax
  /-- R456. At least 2 s after a rate exceedance, with the rate at half its limit or below, the hold ends. -/
  | rateHoldEnd (cls : Nat)
  /-- R457. At 3.0 ms into the shut-down sequence, passes not yet ended are aborted and the flush begins. -/
  | shutdownPassDeadline
  /-- R457. Every earlier command has completed and the flush seal is durable, so the module enters Quarantine 1. -/
  | thermalQuarantineEntry (shifts : List Nat)
  /-- R39. Every sensor has read below warn for 60 s, and the module leaves Quarantine 1 for Recovery. -/
  | quarantineThermalExit
  /-- R427. Each minute of powered life writes a thermal minute record and updates the minute counters. -/
  | minuteRecord (powerA powerB : Nat)
  /-- R419. Management firmware drains ring entries into the DRAM buffer and writes a loss summary after losses. -/
  | eventDrain
  /-- R420. After 512 entries, or 1 s after the first unwritten one, the DRAM event buffer is written to the persistent journal. -/
  | eventJournalWrite
  /-- R423. A type's bucket regains one entry every 15,625 µs and writes a suppression summary after suppressions. -/
  | eventBucketRefill (typ : Nat)
  /-- R357. The hash engine writes a stage's digest into its measurement register and the stage record is written. -/
  | stageMeasured (stage : Nat) (train : List (List (List ChanSetting))) (badBlobs : List Nat)
  /-- R348. Recovery ends after replay and checkpoint, and the module enters Pairing or Solo. -/
  | recoveryComplete (ckpt : Nat) (mapOk : Bool) (rises shifts : List Nat) (found : Scan)
  /-- R368. Within 40 ms of the first entry into Service, Solo or Quarantine, the time fields and signature of the present Almanac entry are written. -/
  | almanacSigning
  /-- R369. Within 1 s of signing, the present entry is copied into the three body copies. -/
  | almanacBodyCopy
  /-- R476. The hourly round lends a scratchpad bank to the memory test engine, which marches over it chunk by chunk. -/
  | memoryTestRound (bank chunks failing : Nat)
  /-- R477. The owner's access to a lent bank cancels the test, the displaced words are restored and the bank is handed back. -/
  | memoryTestCancel (use : BankUse)
  /-- R479. A background patrol scrub reads all of DRAM once every 24 h. -/
  | patrolScrub (corrected : Nat)
  /-- R284. A DRAM read finds an uncorrectable error, and the journal header, data or region is recovered or its units are listed lost. -/
  | dramUncorrectableError (channel part seq : Nat) (ok : Bool)
  /-- R309. Every 100 ms where permitted, a module begins Deroft link training. -/
  | deroftTrainingAttempt
  /-- R290. A training step overruns its limit, and training restarts from step 1. -/
  | deroftTrainingStepTimeout
  /-- R290. 16 consecutive valid flits have crossed each way, the link is up, credits follow Table 10.1, and a module in Solo enters Pairing. -/
  | deroftLinkUp (sets : List (Nat × List (BitVec 8))) (lanes64 lanes32 lanes16 : Nat)
  /-- R291. A lane loses lock, corrects too often or stalls a replay, so both modules quick-retrain to a narrower width, or make a full retrain. -/
  | laneFailure (lane : Nat)
  /-- R294. A flit is FEC-corrected and CRC-checked, then accepted in order, or answered with NAK. -/
  | flitReceived (bytes : List (BitVec 8))
  /-- R294. ACKSEQ has not advanced for 2 µs, so the sender replays from ACKSEQ + 1. -/
  | replayTimeout
  /-- R295. At least once every 1 µs a heartbeat flit carrying the heartbeat record is sent. -/
  | heartbeatSend
  /-- R297. 32 credits have accumulated, or 200 ns have passed since the first unreturned credit, so a Credit message is sent. -/
  | creditReturn
  /-- R268. A share update for each changing function share is sent to the owner at least every 64 µs. -/
  | shareUpdateSend (func : Nat)
  /-- R302. A message counter reaches 2^32, or 24 h have passed, so rank 0 sends SPDM KEY_UPDATE. -/
  | keyUpdateDue
  /-- R306. 16 µs pass in Service without a valid flit, the peer is declared lost and the sense check begins. -/
  | peerLost
  /-- R306. The 4 µs sense check decides peer dead or link fault; the module enters Solo, advances PEPOCH and treats each namespace as Table 10.15 gives. -/
  | lossDecision (samples : List Bool)
  /-- R305. PAIRSENSE_IN has disagreed with the twin's SENSE_OUT for 10 µs, so SENSE_FAULT is set. -/
  | senseFaultSet
  /-- R305. Agreement for 1 s clears SENSE_FAULT. -/
  | senseFaultClear
  /-- R310. Pairing reaches 2 s, or overruns a step bound, without a decision; it is refused and both modules go to Solo. -/
  | pairingTimeout (step : Nat)
  /-- R267. A received mirror record is checked for epoch and duplicates, stored with COPY = 1 and acknowledged once durable. -/
  | mirrorRecord (h : MsgHdr) (b : MirrorBody)
  /-- R267. A mirror acknowledgement updates the mirror credit and lets the acknowledged write complete. -/
  | mirrorAcknowledgement (h : MsgHdr) (oseq func share : Nat)
  /-- R268. A share update message sets a function's mirror credit and drain rate. -/
  | shareUpdate (h : MsgHdr) (func share drain : Nat)
  /-- R316. The home or owner carries out a forwarded command without judging it again and returns a Forwarded completion. -/
  | forwardedCommand (h : MsgHdr) (op : Nat) (e : Io) (cls stamp deadline claim : Nat) (all : Bool)
  /-- R316. The receiving module posts the completion of a forwarded command when its Forwarded completion arrives. -/
  | forwardedCompletion (h : MsgHdr) (status dw0 dw1 : Nat) (data : List Nat)
  /-- R123. A zone confirmation settles one zone of a forwarded multi-zone command in its record. -/
  | zoneConfirmation (h : MsgHdr) (zone status : Nat)
  /-- R146. An allotment grant sets the delegated fractions for the next period. -/
  | allotmentGrant (h : MsgHdr) (period : Nat) (grants : List (Nat × Nat × Nat))
  /-- R318. Handover offer makes the receiving module owner of the namespace and it replies Handover taken. -/
  | handoverOffer (h : MsgHdr) (nsid oseq epoch : Nat)
  /-- R318. Handover taken completes a transfer and the new PEPOCH is taken. -/
  | handoverTaken (h : MsgHdr) (nsid oseq epoch : Nat)
  /-- R318. Handover depart hands over every mirrored namespace of the departing twin, and the receiver sets CONT and enters Solo. -/
  | handoverDepart (h : MsgHdr) (kind oseq epoch : Nat)
  /-- R318. Handover depart taken lets the departing module proceed to Holiday, activation, unpair or shut-down. -/
  | handoverDepartTaken (h : MsgHdr) (kind oseq epoch : Nat)
  /-- R306. A Notice of Harvest counts at once as a peer-dead decision. -/
  | noticeHarvest (h : MsgHdr)
  /-- R306. A Notice of Quarantine counts at once as a peer-dead decision. -/
  | noticeQuarantine (h : MsgHdr)
  /-- R326. A carried NVM Subsystem Reset resets this module's controllers with no change of mode. -/
  | noticeNvmSubsystemReset (h : MsgHdr)
  /-- R310. The pairing commit Notice has rank 1 make its pair record durable and answer, and both modules enter Service and start resync. -/
  | noticePairingCommit (h : MsgHdr)
  /-- R280. A Drop removes the mirror record with that OSEQ on the twin. -/
  | drop (h : MsgHdr) (oseq : Nat)
  /-- R63. A Dispose message has the home or owner dispose of a forwarded command under R63. -/
  | dispose (h : MsgHdr) (tag : Nat)
  /-- R315. An Admin sync message carries out an admin command, an Abort or a key wrap on the twin. -/
  | adminSync (h : MsgHdr) (op nsid : Nat) (args : List Nat)
  /-- R314. A Pairing table message confirms the HELLO and supplies the entries for the ownership agreement, its result and its confirmation. -/
  | pairingTable (h : MsgHdr) (copy : Option Hello) (entries : List PtEntry) (result : Option Bool)
  /-- R312. A HELLO message is received and the pairing admission checks are made. -/
  | hello (h : MsgHdr) (b : Hello)
  /-- R303. A heartbeat record updates the twin's mode, flags, sense level and time offset. -/
  | heartbeat (h : MsgHdr) (b : Beat)
  /-- R297. A Credit message returns priority and bulk credits to the sender. -/
  | credit (h : MsgHdr) (pri bulk : Nat)
  /-- R322. A resync frame brings a zone, map unit or extent of the target level with the source, or summarises or ends the resync. -/
  | resyncFrame (h : MsgHdr) (f : FrameBody)
  /-- R240. A fetch request is answered with the data of the named LBAs. -/
  | fetchRequest (h : MsgHdr) (nsid slba nlb oseq : Nat)
  /-- R240. Fetched data repairs lost codewords or a journal record and completes the waiting read. -/
  | fetchData (h : MsgHdr) (data : List (Option (Nat × Nat)))
  /-- R254. A reshape copy frame programs a unit of a namespace becoming mirrored on the twin. -/
  | reshapeCopy (h : MsgHdr) (f : FrameBody)
  /-- R372. SPDM GET_VERSION negotiates version 1.2 or 1.1. -/
  | spdmGetVersion (transport : Nat)
  /-- R372. SPDM GET_CAPABILITIES reports the certificate, challenge and measurement capabilities. -/
  | spdmGetCapabilities (transport version : Nat)
  /-- R372. SPDM NEGOTIATE_ALGORITHMS selects P-384 and SHA-384. -/
  | spdmNegotiateAlgorithms (transport : Nat) (p384 sha384 : Bool)
  /-- R372. SPDM GET_DIGESTS returns the digest of the slot 0 chain. -/
  | spdmGetDigests (transport : Nat)
  /-- R362. SPDM GET_CERTIFICATE returns the chain from the device root to the alias certificate. -/
  | spdmGetCertificate (transport slot offset length : Nat)
  /-- R373. SPDM CHALLENGE returns a signed response with measurement summary hashes. -/
  | spdmChallenge (transport slot summary nonce : Nat)
  /-- R373. SPDM GET_MEASUREMENTS returns signed measurement blocks of indices 1 to 10. -/
  | spdmGetMeasurements (transport index nonce : Nat) (signed : Bool) (twin : Option Evidence)
  /-- R310. SPDM KEY_EXCHANGE opens the twin session on the Deroft link, and is refused with UnsupportedRequest elsewhere. -/
  | spdmKeyExchange (transport : Nat) (ok : Bool)
  /-- R310. SPDM FINISH completes the mutually authenticated twin session, and the Deroft keys are derived. -/
  | spdmFinish (transport : Nat) (ok : Bool)
  /-- R302. SPDM KEY_UPDATE renews every link and pair wrap key, which is followed by a toggle of KEYPHASE. -/
  | spdmKeyUpdate (transport : Nat)
  /-- R372. SPDM PSK_EXCHANGE receives ERROR UnsupportedRequest. -/
  | spdmPskExchange (transport : Nat)
  /-- R432. Read NVMe-MI Data Structure returns subsystem, port or controller data. -/
  | readNvmeMiDataStructure (port typ id : Nat)
  /-- R432. The subsystem health poll returns the composite temperature, Percentage Used and controller status. -/
  | nvmSubsystemHealthStatusPoll (port : Nat) (clear : Bool)
  /-- R432. The controller health poll returns the health of the PF and each enabled VF. -/
  | controllerHealthStatusPoll (port start count : Nat) (clear : Bool)
  /-- R434. Configuration Set sets the bus frequency or transmission unit, or clears health status bits and releases ALERT_N. -/
  | configurationSet (port id arg value : Nat)
  /-- R432. Configuration Get returns a management endpoint configuration value. -/
  | configurationGet (port id arg : Nat)
  /-- R432. VPD Read returns 256 bytes of part number, serial number and date. -/
  | vpdRead (port offset length : Nat)
  /-- R432. The MI Reset command performs an NVM Subsystem Reset under R65. -/
  | miReset (port kind : Nat)
  /-- R432. A tunnelled admin command acts as a PF command within the limits of Table 14.16, or completes with C4h. -/
  | tunnelledAdminCommand (port opcode : Nat) (e : Sqe)
  /-- R431. The basic management command over the two-wire port returns the composite temperature and status. -/
  | basicManagementCommand (code : Nat)
  /-- R44. Every feed leaves its range, or PWRDIS or a mate loss is seen, in Measure, Recovery or Pairing with PAIR_SERVING = 0. -/
  | powerLoss
  /-- R304. PAIRSENSE_IN changes level. -/
  | pairsenseInChange (level : Bool) (heldNs : Nat)
  /-- R464. The core PLL locks after power good or during a Holiday exit. -/
  | pllLock
  /-- R375. A boot-store program of a firmware image, selector word or saved Measurement Policy ends, which can take up to 240 s. -/
  | bootStoreWriteComplete (ok : Bool)
  /-- R493. An I3C controller issues SETAASA or ENTDAA on the sideband, and the module takes static address 1Dh or a dynamic address, after which it answers as an I3C target. -/
  | i3cAddressAssignment (dynamic : Option Nat)
  deriving DecidableEq, Repr

end Sys2Proof
end

