-- ==== Sys2Proof/Config.lean ====
section
/-! DEFINITION. The values the spec leaves open: constants with no body, so that no proof can see them. -/

namespace Sys2Proof.Config

/-- A fresh free value: the n-th value that the spec leaves open in a run. -/
opaque freeValue : Nat → Nat

/-- The plaintext that ciphertext of `val`, enciphered under key `k`, deciphers to under another key `k'` (R398, R399). -/
opaque wrongKey : (val k k' : Nat) → Nat

/-- SHA-384 over a message, as one number (R356, R367). -/
opaque sha384 : List Nat → Nat

/-- HMAC-SHA-384 of a key over a message (R361). -/
opaque hmac : Nat → Nat → Nat

/-- HKDF-SHA-384 key derivation of a key pair: the public half as one number (R361). -/
opaque publicKey : (secret label : Nat) → Nat

/-- ECDSA P-384 signature under a key over a digest (R362, R368). -/
opaque sign : (key digest : Nat) → Nat

/-- The unique device secret, fused at manufacture (R361). -/
opaque uds : Nat

/-- The digest of the mask ROM, fused at manufacture (R365). -/
opaque romDigest : Nat

/-- A fresh 256-bit key of the random generator (R382): the n-th drawn. -/
opaque freshKey : Nat → Nat

/-- The 64 bytes of the configuration record M7 for a part, a slot identifier and a minimum SVN (Table 12.1): the spec names its content and not its layout. -/
opaque configRecord : (part slotid minSvn : Nat) → List Nat

/-- The certificates in the boot store, as bytes (R362, Table 12.6). -/
opaque chain : List Nat

/-- The VPD of a part with a serial number, as bytes (R432): part number, serial number and date of manufacture; the spec names its content and not its layout. -/
opaque vpd : (part : Nat) → (serial : List Nat) → List Nat

/-- The stripe group that holds a metadata namespace's map unit (R125): the spec leaves the choice open. -/
opaque metaGroup : (nsid unit : Nat) → Nat

/-- The stripe group of the twin that holds a zone or a map unit of a namespace that is read there: the spec does not say how the receiving module knows it. -/
opaque twinGroup : (nsid unit : Nat) → Nat

/-- The bytes of protection information that format k carries, 8 or 16 (Table 3.11): the spec leaves the guard of the 64-byte formats open. -/
opaque guard64 : (flbas : Nat) → Bool

/-- A byte that a standard NVMe structure or a telemetry area returns and that the spec gives no value: the n-th such structure returned, and the byte's offset. -/
opaque reportByte : (draw offset : Nat) → Nat

/-- CRC-32 over bytes (Tables 7.4 and 9.1): the spec names no polynomial. -/
opaque crc32 : List Nat → Nat

/-- The ciphertext of an LBA's data and metadata under a key, and a byte of the LDPC parity of a codeword (R193): the spec gives the sizes, not the code. -/
opaque cipherText : (key lba plain : Nat) → Nat
opaque ldpc : (data : List Nat) → (i : Nat) → Nat

end Sys2Proof.Config
end

