-- ==== Sys2Proof/Machine/State.lean ====
section
/-! DEFINITION. The state of the block, holding all the spec gives the machine, its reset, and the names of its stops. Every structure is plain data. A docstring names the rule of the spec a field or a group of fields comes from; INVENTORY.md lists each with its width and reset value. -/

namespace Sys2Proof.Machine

/-- R38, Table 2.1: the eight operating modes. -/
inductive Mode where
  | measure | recovery | pairing | service | solo | holiday | harvest | quarantine
  deriving DecidableEq, Repr

/-- Table 2.1: the mode code shown in SU_MODE, in DW0 of C4h and in the logs. -/
def Mode.code : Mode → Nat
  | .measure => 0 | .recovery => 1 | .pairing => 2 | .service => 3
  | .solo => 4 | .holiday => 5 | .harvest => 6 | .quarantine => 7

/-- R5, Table 0.2: the two ordering parts. -/
inductive Part where
  | szm780 | szm360
  deriving DecidableEq, Repr

/-- R129, Table 5.1: the latency classes. -/
inductive LClass where
  | express | standard | bulk | unbound
  deriving DecidableEq, Repr

/-- Table 3.7: the CLASS code. -/
def LClass.code : LClass → Nat
  | .express => 0 | .standard => 1 | .bulk => 2 | .unbound => 3

/-- R99: the zone states of the Zoned Namespace command set. -/
inductive ZState where
  | empty | implOpen | explOpen | closed | full | readOnly | offline
  deriving DecidableEq, Repr

/-- R91, Table 3.9: ANA states. -/
inductive Ana where
  | optimized | nonOptimized | inaccessible | persistentLoss | change
  deriving DecidableEq, Repr

/-- Completion statuses: the standard ones the spec names, and the vendor ones of Table 14.6 (R416). -/
inductive Status where
  | success | invalidOpcode | invalidField | sequenceError | invalidQueueId | invalidQueueSize
  | invalidVector | invalidQueueDeletion | completionQueueInvalid | invalidNamespace
  | featureNotSaveable | featureNotChangeable | invalidLogPage | sglLengthInvalid
  | abortLimitExceeded | aerLimitExceeded | aborted | abortedSqDeletion | namespaceNotReady
  | anaInaccessible | anaPersistentLoss | anaTransition | insufficientCapacity
  | nsidUnavailable | controllerListInvalid | nsAlreadyAttached | nsNotAttached | invalidControllerId | invalidSecondaryState | invalidResourceCount
  | formatInProgress | sanitizeInProgress | sanitizeFailed | invalidFirmwareSlot | invalidFirmwareImage | overlappingRange
  | zoneIsFull | zoneIsReadOnly | zoneIsOffline | zoneInvalidWrite | zoneBoundaryError
  | tooManyActive | tooManyOpen | zoneInvalidTransition | capacityExceeded | lbaOutOfRange
  | dataTransferError | unrecoveredRead | guardCheck | appTagCheck | refTagCheck
  | invalidFormat
  | c0 | c1 | c2 | c3 | c4 | c5 | c6 | c7
  deriving DecidableEq, Repr

/-- One row of the Latency Ledger (Table 5.10). -/
structure Ledger where
  admitted : Nat := 0
  completed : Nat := 0
  rejTokens : Nat := 0
  rejPlace : Nat := 0
  rejJournal : Nat := 0
  rejOther : Nat := 0
  rejBudget : Nat := 0
  misses : Nat := 0
  /-- the longest time itself; the log saturates it. -/
  worstNs : Nat := 0
  worstSqid : Nat := 0
  worstCid : Nat := 0
  worstAt : Nat := 0
  sumUs : Nat := 0
  deriving DecidableEq, Repr

/-! ### Host port: queues, controllers, the link (chapters 2, 3, 14) -/

/-- An I/O or admin completion queue (R78, R85, R87). -/
structure Cq where
  size : Nat
  head : Nat := 0
  tail : Nat := 0
  reserved : Nat := 0
  vector : Nat := 0
  ien : Bool := true
  phase : Bool := true
  /-- R88: completions held for aggregation, and since when. -/
  held : Nat := 0
  heldAt : Nat := 0
  /-- Table 3.8: a head written in Holiday. -/
  captured : Option Nat := none
  deriving DecidableEq, Repr

/-- An I/O or admin submission queue (R78 to R83). `stamps` holds one doorbell stamp for each visible entry not yet fetched, oldest first. -/
structure Sq where
  size : Nat
  cqid : Nat
  head : Nat := 0
  tail : Nat := 0
  stamps : List Nat := []
  cls : Option LClass := none
  locked : Bool := false
  deleting : Option Nat := none
  captured : Option Nat := none
  deriving DecidableEq, Repr

/-- An asynchronous event: type and information value, with the log page it names (R428, Table 14.14). -/
structure Aen where
  typ : Nat
  info : Nat
  log : Nat
  deriving DecidableEq, Repr

/-- One failed zone of a multi-zone command (Table 4.8, entries e). -/
structure ZopEntry where
  zone : Nat
  status : Status
  deriving DecidableEq, Repr

/-- The result of one zone of a multi-zone command (R120 to R123): a change whose record is not yet durable, or settled. -/
inductive ZRes where
  | change (seq : Nat) | acted | skipped | failed (st : Status)
  deriving DecidableEq, Repr

/-- A record of the Zone Operation Results log (R122, Table 4.8). -/
structure ZopRec where
  seq : Nat
  nsid : Nat := 0
  sqid : Nat := 0
  cid : Nat := 0
  action : Nat := 0
  done : Bool := false
  forwarded : Bool := false
  harvested : Bool := false
  unconfirmed : Bool := false
  status : Option Status := none
  acted : Nat := 0
  skipped : Nat := 0
  failed : Nat := 0
  lastZone : Nat := 0xFFFFFFFF
  /-- R123: the last zone changed. -/
  lastActed : Nat := 0xFFFFFFFF
  entries : List ZopEntry := []
  start : Nat := 0
  finish : Nat := 0
  deriving DecidableEq, Repr

/-- An entry of the Error Information log (R417). -/
structure ErrEntry where
  sqid : Nat
  cid : Nat
  status : Status
  dw0 : Nat
  deriving DecidableEq, Repr

/-- A vector of the MSI-X table (R67): its message address and data, and its mask bit. The layout of an entry, and the mask bit set at a reset, are those of PCIe (PRESUMED, log 112). -/
structure Msix where
  addr : Nat := 0
  data : Nat := 0
  masked : Bool := true
  deriving DecidableEq, Repr

/-- The controller of one function: NVMe registers (Table 3.4), the per-function set-up fields (Table 3.5), and what NVMe 2.0 keeps per controller. -/
structure Ctrl where
  /-- Table 3.4 0014h. -/
  cc : BitVec 32 := 0
  /-- Table 3.4 001Ch. -/
  rdy : Bool := false
  cfs : Bool := false
  shst : Nat := 0
  nssro : Bool := false
  /-- Table 3.4 0024h, 0028h, 0030h. -/
  aqa : BitVec 32 := 0
  asq : BitVec 64 := 0
  acq : BitVec 64 := 0
  /-- Table 3.5 0090h. -/
  ioq : Nat := 0
  vec : Nat := 0
  online : Bool := false
  /-- Table 3.5 00A0h (R82). -/
  dbCount : BitVec 16 := 0
  dbLast : BitVec 16 := 0
  /-- R75: a Primary Flexible Allocation not yet applied (pairs, vectors). -/
  pendVq : Option Nat := none
  pendVi : Option Nat := none
  /-- R428: outstanding Asynchronous Event Requests (their CIDs, oldest first), events waiting, events not yet cleared. -/
  aers : List Nat := []
  waiting : List Aen := []
  masked : List Aen := []
  /-- Feature 0Bh. -/
  aec : BitVec 32 := 0x1F
  /-- Feature 08h, Feature 09h (R88). -/
  coalesce : BitVec 16 := 0
  vecNoCoalesce : List Nat := []
  /-- Keep Alive (R94): interval in ms, 0 off; the instant of the last restart. -/
  kato : Nat := 0
  kaAt : Nat := 0
  /-- R66: the instant of a normal shutdown notification in progress. -/
  shutAt : Option Nat := none
  /-- R122. -/
  zopSeq : Nat := 0
  zops : List ZopRec := []
  /-- R417. -/
  errCount : Nat := 0
  errs : List ErrEntry := []
  /-- R104: Changed Zone List, and the ANA log's change count (R92). -/
  changedNs : List Nat := []
  /-- R67, R76: the MSI-X table, and the vectors whose bit of the pending-bit array is set. -/
  msix : KV Msix := []
  pba : List Nat := []
  /-- R63: the controller's resets so far; a command accepted before the latest one gets no completion. -/
  life : Nat := 0
  deriving DecidableEq, Repr

/-- A completion queue entry the module has posted (R86), with the data it returned. The queue's memory is the host's; this is the module's side of the write. -/
structure Cqe where
  func : Nat
  sqid : Nat
  cid : Nat
  status : Status
  dw0 : Nat := 0
  dw1 : Nat := 0
  sqhd : Nat := 0
  at_ : Nat := 0
  /-- R86: the phase tag, inside the same write. -/
  phase : Bool := true
  data : List Nat := []
  deriving DecidableEq, Repr

/-- The I/O commands (Table 5.2). -/
inductive IoOp where
  | read | write | writeZeroes | append | flush | zmr | zms
  deriving DecidableEq, Repr

/-- The last stage a command's context records (R25, R33). -/
inductive Stage where
  | admitted | buffered | dataIn | journalled | acked | dieRequested | dieDone | waiting | forwarded
  deriving DecidableEq, Repr

/-- R280: the users of a command's buffers, each of which holds one reference to every buffer of it. `transfer` is a read's, until its data is in host memory. -/
inductive BufUser where
  | journal | mirror | forward | parity | transfer
  deriving DecidableEq, Repr

/-- A command's context in the command table (R25): one of 65,536 slots. -/
structure Cmd where
  func : Nat
  sqid : Nat
  cid : Nat
  op : IoOp
  nsid : Nat
  slba : Nat
  nlb : Nat
  cls : LClass
  stamp : Nat
  /-- R29: the deadline timer's expiry; none for Unbound. -/
  deadline : Option Nat := none
  armed : Bool := false
  expired : Bool := false
  /-- R31: the rescue point. -/
  rescue : Option Nat := none
  /-- R26, R32: the owner core. -/
  core : Nat := 0
  stage : Stage := .admitted
  /-- zone index, for a zoned namespace. -/
  zone : Option Nat := none
  /-- R389: key identity in use. -/
  key : Nat := 0
  data : List Nat := []
  /-- R468: the buffers held, as pool × 2,048 + number in the pool. -/
  bufs : List Nat := []
  /-- R280: the users that still hold a reference to each of them. -/
  users : List BufUser := []
  /-- R17: its descriptor still takes a place of the host → core crossing. -/
  descr : Bool := true
  /-- R383: the key-store slot its transfers name. -/
  keySlot : Nat := 0
  /-- R389: the key tag it carried. -/
  keyTag : Option Nat := none
  /-- R317: the start of the first standing claim it was placed on. -/
  claim : Nat := 0
  /-- R471: bytes of it in the forward spill area. -/
  spilled : Nat := 0
  /-- R471: bytes of buffers it still waits for; R145: the bytes of share it still waits for. -/
  needBytes : Nat := 0
  needShare : Nat := 0
  /-- R270, R316: the command is carried out by the twin. -/
  fwd : Bool := false
  tag : Nat := 0
  /-- R316: the twin's command, carried out here. -/
  fromTwin : Bool := false
  /-- SEQ of the Vigil record formed for it. -/
  seq : Option Nat := none
  credit : Nat := 0
  /-- dies whose data is still awaited (R28). -/
  dies : List Nat := []
  /-- Flush (R132): slots awaited. -/
  awaits : List Nat := []
  /-- zone management: action; R122: the number of its multi-zone record, and the results of its zones not yet settled, in ascending index. -/
  action : Nat := 0
  zop : Nat := 0
  zres : List (Nat × ZRes) := []
  result : Status := .success
  /-- R63: its controller was reset; it runs on without a completion. R81: its queue is being deleted. -/
  quiet : Bool := false
  deriving DecidableEq, Repr

/-- The host port and queue state (chapter 3). -/
structure Port where
  /-- Table 3.5 0020h: RATE code, flit, WIDTH code (R58). -/
  rate : Nat := 0
  flit : Bool := false
  width : Nat := 0
  /-- Table 3.5 0020h HOST_CREDITS (R59). -/
  credits : Nat := 0
  /-- Table 3.5 0024h. -/
  retrains : BitVec 16 := 0
  downs : BitVec 16 := 0
  /-- R61: the link is in ASPM L1; L1 enabled by the host; lane reversal in use (Table 10.22). -/
  inL1 : Bool := false
  l1Enabled : Bool := false
  reversed : Bool := false
  /-- R62: link training under way. -/
  training : Bool := false
  /-- the link has come up since power good (Table 3.5 RETRAINS). -/
  everUp : Bool := false
  /-- the instant of the last doorbell or command end (R61). -/
  quietAt : Nat := 0
  /-- R494: the instant LED_ACT_N was last set low. -/
  ledActAt : Nat := 0
  /-- PERST_N asserted (pin). -/
  perst : Bool := true
  /-- R74: VF Enable and NumVFs of the SR-IOV capability. -/
  vfEnable : Bool := false
  numVfs : Nat := 0
  /-- controllers by function number, unlisted functions as at reset. -/
  ctrls : KV Ctrl := []
  /-- queues by func × 65,536 + queue identifier. -/
  sqs : KV Sq := []
  cqs : KV Cq := []
  /-- R25, R29: the command table by slot. -/
  cmds : KV Cmd := []
  /-- R83: turn number, queue of the turn, entries taken in it, and the last queue served on each level. -/
  turn : Nat := 0
  turnKey : Option Nat := none
  turnUsed : Nat := 0
  lastServed : List Nat := [0, 0, 0, 0, 0]
  /-- R83: the queue served last of each function at each level, by level × 128 + function. -/
  lastQueue : KV Nat := []
  /-- completions and MSI-X messages sent to the host (model's outbox). -/
  posted : List Cqe := []
  msgs : List Nat := []
  /-- R73: SU_DTB_HI as latched; the value of the latest register read. -/
  dtbHi : BitVec 32 := 0
  readOut : BitVec 64 := 0
  /-- SU_FUNC read etc. answers of functions come from ctrls. R155: the Latency Ledger rows, by func × 8 + row. -/
  ledger : KV Ledger := []
  modAdmitted : List Nat := List.replicate 8 0
  modRefused : List Nat := List.replicate 8 0
  deriving DecidableEq, Repr

/-! ### Namespaces and zones (chapters 4, 8, 10, 13) -/

/-- The zone descriptor extension (R105, Table 4.4). -/
structure Ext where
  density : Nat := 0
  heat : Nat := 1
  lifetime : Nat := 0
  tag : Nat := 0
  affinity : Nat := 0
  deriving DecidableEq, Repr

/-- A zone (R99 to R106). An unlisted zone of a namespace is Empty with the default extension. -/
structure Zone where
  st : ZState := .empty
  /-- LBAs written from ZSLBA. -/
  wp : Nat := 0
  /-- LBAs taken by writes and appends from ZSLBA, those not yet durable included (R115, R116). -/
  taken : Nat := 0
  ext : Ext := {}
  extValid : Bool := false
  /-- writable LBAs once the zone has left Empty (R95, R106). -/
  cap : Nat := 0
  group : Option Nat := none
  /-- R113. -/
  activeFunc : Option Nat := none
  openFunc : Option Nat := none
  lastWrite : Nat := 0
  /-- R104: the time base and the retention clock when the zone left Empty. -/
  leftAt : Nat := 0
  leftDay : Nat := 0
  /-- R104, R102. -/
  finishRec : Bool := false
  finishedByCtrl : Bool := false
  resetRec : Bool := false
  /-- R267: the highest ordering key applied (PEPOCH, OSEQ); R321: RESET_ID. -/
  keyEpoch : Nat := 0
  keyOseq : Nat := 0
  resetId : Nat := 0
  /-- R273: the zone is staging; data members of its layout. -/
  staging : Bool := false
  members : Nat := 30
  /-- R189: word lines whose final pass is confirmed on every member, in stripe word lines. -/
  confirmed : Nat := 0
  /-- R272: complete word lines whose programs have been queued. -/
  queued : Nat := 0
  /-- R255: the module zone number that pages already written keep, beside the new one, until the next reset. -/
  oldNum : Option Nat := none
  deriving DecidableEq, Repr

/-- A running Reshape (R252 to R258). -/
structure Reshape where
  move : Bool
  toMirrored : Bool := false
  homeTwin : Bool := false
  next : Nat := 0
  last : Nat := 0
  affinity : Nat := 0
  owner : Nat := 0
  zopSeq : Nat := 0
  paused : Bool := false
  mirroring : Bool := false
  cancelCid : Option (Nat × Nat) := none
  /-- the tag of a cancel the twin asked for. -/
  cancelTag : Option Nat := none
  /-- R253: carried out by the twin, which confirms its zones under a tag; for the twin (owner 65,536) the tag to confirm them under. -/
  remote : Bool := false
  tag : Nat := 0
  /-- R255: the module zone numbers the zones take once the twin has placed them. -/
  nums : List Nat := []
  deriving DecidableEq, Repr

/-- A namespace (R90, R96, R97, R124, R250, R313, R387). -/
structure Ns where
  zoned : Bool
  nsze : Nat
  flbas : Nat := 0
  mirrored : Bool := false
  /-- owner (mirrored) or home (single) is this module. -/
  here : Bool := true
  attached : List Nat := []
  /-- R48: the twin's functions it is attached to, as this module knows them. -/
  attachedTwin : List Nat := []
  /-- R96: module zone numbers, by zone index. -/
  znums : List Nat := []
  zones : KV Zone := []
  /-- R313, R320, R314. -/
  cont : Bool := false
  fenced : Bool := false
  yielded : Bool := false
  diverged : Bool := false
  ploss : Bool := false
  sepPepoch : Nat := 0
  /-- R321: not yet resynced, progress of the resync, zones already level. -/
  resyncPending : Bool := false
  resyncPct : Nat := 0
  levelled : List Nat := []
  /-- R318: a handover offer of it is in flight, sent from here or received. -/
  offered : Bool := false
  /-- R387, R389: data slots by tag (one slot for a generated key); Key Per I/O tag count (0: generated key). -/
  kpio : Nat := 0
  slots : List Nat := []
  keyLost : Bool := false
  /-- R404: an erasure of it waits (some false) or runs (some true); as a Sanitize. -/
  erasing : Option Bool := none
  sanitizing : Bool := false
  /-- R92: the state last shown in log 0Ch. -/
  anaShown : Ana := .change
  /-- R92: changes shown in log 0Ch. -/
  anaCount : Nat := 0
  /-- R92: path states that entries not yet fetched were stamped under, each with the instant it ended. -/
  paths : List (Nat × Ana) := []
  /-- R125, R126: units of 4 KiB in each of the four log units (oldest first), and whether a merge runs. -/
  logUsed : List Nat := [0, 0, 0, 0]
  /-- R126: log units freed so far, which numbers the oldest. -/
  logBase : Nat := 0
  merging : Bool := false
  reshape : Option Reshape := none
  /-- R104: zones in the Changed Zone List. -/
  changed : List Nat := []
  /-- the namespace has held data (R251). -/
  written : Bool := false
  /-- Table 3.11: the protection settings the namespace was created with. -/
  dps : Nat := 0
  deriving DecidableEq, Repr

/-- One LBA's stored content (R398): the plaintext the host wrote as one number, and the key that enciphered it. Lost LBAs are marked (R227). -/
structure Blk where
  val : Nat := 0
  key : Nat := 0
  lost : Bool := false
  epoch : Nat := 0
  oseq : Nat := 0
  deriving DecidableEq, Repr

/-- Namespaces of the module. -/
structure Zn where
  ns : KV Ns := []
  /-- the content of written LBAs, by nsid × 2^64 + LBA; an unlisted LBA reads as zeros (R101). -/
  store : KV Blk := []
  /-- R313: tombstones of namespaces deleted while separated (NSID). -/
  tombs : List Nat := []
  /-- Feature C5h default (R250) and its saved copy. -/
  defMirrored : Bool := false
  defMirroredSaved : Bool := false
  /-- R92: change count of log 0Ch. -/
  anaCount : Nat := 0
  deriving DecidableEq, Repr

/-! ### The die calendar and tenant budgets (chapters 5, 6) -/

/-- Die allotments on one stripe group (Table 6.6). -/
structure Allot where
  e : Nat := 0
  s : Nat := 0
  b : Nat := 0
  p : Nat := 0xFFFF
  deriving DecidableEq, Repr

/-- A Tenant Budget (R177, Table 6.6); groups not listed hold `rest`. -/
structure Budget where
  active : Nat := 0
  open_ : Nat := 0
  share : Nat := 0
  chE : Nat := 0
  chS : Nat := 0
  chB : Nat := 0
  groups : KV Allot := []
  rest : Allot := {}
  deriving DecidableEq, Repr

/-- Holders of die time that are placed as claims (Table 6.1). -/
inductive ClaimKind where
  | read | around | rebuild | background | unbound | resume | wtProgram | soft | standing
  deriving DecidableEq, Repr

/-- A claim [start, start + len) on a die (R159), in ns. -/
structure Claim where
  die : Nat
  start : Nat
  len : Nat
  kind : ClaimKind
  cls : LClass := .express
  func : Nat := 0
  slot : Option Nat := none
  released : Bool := false
  deriving DecidableEq, Repr

/-- Tokens drawn (R143): by function, class and period, on a die or on a channel. -/
structure Draw where
  func : Nat
  cls : LClass
  period : Nat
  onChannel : Bool
  unit : Nat
  amount : Nat
  deriving DecidableEq, Repr

/-- The work a program belongs to: a zone's own word line (R272), a staging or log row (R274), a copy (R215), a rebuild (R232), the reference sets (R208). -/
inductive Job where
  | zone | row (id : Nat) | copy (id : Nat) | rebuild (group : Nat) | reference
  deriving DecidableEq, Repr

/-- Programs, erases (R166) and their passes (R189). -/
inductive DieOpKind where
  | slc | qlcCoarse | qlcFine | plcCoarse | plcFine | erase
  deriving DecidableEq, Repr

/-- The program or erase of a die, running or suspended (R166 to R170). -/
structure DieOp where
  kind : DieOpKind
  bset : Nat
  wl : Nat := 0
  /-- array time left, ns. -/
  remNs : Nat := 0
  suspends : Nat := 0
  suspended : Bool := false
  /-- the instant it last began to run, and the time it has run unanswered (R170). -/
  since : Nat := 0
  ranNs : Nat := 0
  /-- the suspension has been asked for and not acknowledged (R167). -/
  asked : Option Nat := none
  /-- end of the last claim or rest slot it was held suspended under. -/
  heldEnd : Nat := 0
  /-- what it carries: the SEQs of the records of the row; the copy or rebuild it belongs to. -/
  seqs : List Nat := []
  job : Job := .zone
  nsid : Nat := 0
  zone : Nat := 0
  deriving DecidableEq, Repr

/-- A program waiting for a die (R171), with the step of R171 it belongs to. -/
structure Prog where
  die : Nat
  kind : DieOpKind
  bset : Nat
  wl : Nat := 0
  step : Nat
  func : Nat := 0
  seqs : List Nat := []
  job : Job := .zone
  nsid : Nat := 0
  zone : Nat := 0
  deriving DecidableEq, Repr

/-- What a background read is for, where no copy asks for it (R160): a fold into a word line of a zone, the rows of a merge or a compaction, the pages of the reference sets (R206), the daily calibration of a set (R204). -/
inductive BackJob where
  | fold (nsid zone wl : Nat) | row (id : Nat) | reference | calibration (set : Nat)
  deriving DecidableEq, Repr

/-- A background read asked for (R160): its die and cell mode, what it is for, and the end of its claim once that is placed. -/
structure BackRead where
  die : Nat
  mode : Nat
  job : BackJob
  endAt : Option Nat := none
  /-- reads still to make on the die, this one with them. -/
  left : Nat := 1
  deriving DecidableEq, Repr

/-- R146, R317: delegated sixteenths and standing claims. -/
structure Grant where
  func : Nat
  group : Nat
  sixteenths : Nat
  period : Nat
  deriving DecidableEq, Repr

/-- The calendar (chapter 6). -/
structure Cal where
  /-- R158: the calendar runs. -/
  running : Bool := true
  /-- the number of the slot and of the period last begun, counted on the device time base (R157). -/
  slot : Nat := 0
  period : Nat := 0
  claims : List Claim := []
  /-- R176: rest slots by die (absolute slot numbers). -/
  rests : KV (List Nat) := []
  draws : List Draw := []
  /-- die-µs drawn on the background reserve, rebuild budget, fold budget in the period (die, amount). -/
  backUsed : KV Nat := []
  rebuildUsed : KV Nat := []
  foldUsed : KV Nat := []
  /-- R232: array time of rebuilt pages on each spare in this period, µs. -/
  spareUsed : KV Nat := []
  /-- R177: budgets in force (next period's when set since), saved copies. -/
  budgets : KV Budget := []
  nextBudgets : KV Budget := []
  savedBudgets : KV Budget := []
  /-- R181: dedications (group to function), and those in force in the calendar since the period boundary (R182). -/
  dedicated : KV Nat := []
  dedicatedNow : KV Nat := []
  /-- R175, R453: factors in 256ths by group; unlisted groups hold 256. -/
  bulkScale : KV Nat := []
  capBulk : KV Nat := []
  stdScale : KV Nat := []
  expScale : KV Nat := []
  chBulkScale : Nat := 256
  /-- R163: bytes drawn in the period on the background reserve (by channel) and on the rebuild traffic (by group × 32 + channel). -/
  chBackUsed : KV Nat := []
  chRebuildUsed : KV Nat := []
  /-- R175: the groups whose rebuild budget and traffic are in force in the period. -/
  rebuilding : List Nat := []
  /-- R176: rest slots asked of each die in the period, and by group the die-µs that found no place. -/
  restN : Nat := 0
  restShort : KV Nat := []
  /-- R146: a pairing has reached Service since the last period boundary. -/
  newPair : Bool := false
  /-- background reads asked for (R160). -/
  backReads : List BackRead := []
  /-- programs waiting (R171). -/
  progs : List Prog := []
  /-- functions served last under step 4 of R171, per die. -/
  rr : KV Nat := []
  /-- R146: grants received for use here, grants given for the twin; the claims that arrived through the twin in the period (func, count) and all claims. -/
  grantsIn : List Grant := []
  grantsOut : List Grant := []
  viaTwin : KV Nat := []
  viaAll : KV Nat := []
  /-- R170: late suspensions in the period, by die. -/
  late : KV Nat := []
  /-- Table 6.12: what ran or was held suspended in the slots of this period: (die, slot, OP_RUN + 2 × SUSP). -/
  opHist : List (Nat × Nat × Nat) := []
  /-- R186: the snapshot taken (log C7h), as bytes. -/
  snapshot : List Nat := []
  deriving DecidableEq, Repr

/-! ### Flash media and rebuild (chapters 7, 8) -/

/-- Table 7.12 STATE. -/
inductive DieState where
  | healthy | spareFree | spareWriting | failed
  deriving DecidableEq, Repr

/-- A die (R157 naming, Table 7.12). An unlisted die is as built. -/
structure Die where
  state : DieState := .healthy
  cause : Nat := 0
  group : Option Nat := none
  pos : Option Nat := none
  /-- R164: the position whose window it holds. -/
  winGroup : Option Nat := none
  op : Option DieOp := none
  /-- R139: the write-through program running under its claim. -/
  claimOp : Option DieOp := none
  failedBoot : Nat := 0
  softRetries : Nat := 0
  erasures : Nat := 0
  grownBad : Nat := 0
  retired : Nat := 0
  repl : List Nat := [40, 40, 40, 40]
  staging : Nat := 64
  deriving DecidableEq, Repr

/-- Roles of Table 7.3 (Table 7.4 ROLE codes). -/
inductive Role where
  | zone | staging | metaMap | metaLog | system | landing | reference | retired
  deriving DecidableEq, Repr

/-- Table 7.15 STATE. -/
inductive SetState where
  | free | inUse | awaitErase | copying | continued
  deriving DecidableEq, Repr

/-- A block set (R187, R192, R194, R209, R213). An unlisted set is as at manufacture. -/
structure BSet where
  role : Role
  state : SetState := .free
  erases : Nat := 0
  wear : Nat := 0
  /-- Table 7.5: MODE code, LAYOUT, NSID, ZONE, TENANT_TAG, OPEN_SEQ, OPEN_DAY, BAND, CONT_OF, CONT_ROW. -/
  mode : Nat := 2
  layout : Nat := 30
  nsid : Nat := 0
  zone : Nat := 0xFFFFFFFF
  tag : Nat := 0
  openSeq : Nat := 0
  openDay : Nat := 0
  band : Nat := 0
  contOf : Nat := 0xFFFFFFFF
  contRow : Nat := 0
  headed : Bool := false
  /-- word lines whose coarse and whose final pass has completed. -/
  coarse : Nat := 0
  final : Nat := 0
  /-- R351: the retention clock at the latest coarse pass. -/
  coarseDay : Nat := 0
  reads : Nat := 0
  /-- R204: learned offsets, one for each age class. -/
  learned : List Int := [0, 0, 0, 0, 0]
  unknownAge : Bool := false
  replaced : Bool := false
  bad : List Nat := []
  softFails : List (Nat × Nat) := []
  erasedAt : Nat := 0
  /-- an erase-intent record is durable (R352). -/
  intent : Bool := false
  deriving DecidableEq, Repr

/-- A stripe group (R222, R246, R198). -/
structure Grp where
  dead : Option Nat := none
  retired : Bool := false
  unfilled : List Nat := []
  /-- R198, R200: erased staging stripes; the row being filled: its units' SEQs and when its first unit came. -/
  stagingFree : Nat := 64
  rowUnits : List Nat := []
  rowSeqs : List Nat := []
  rowAt : Option Nat := none
  /-- R198: the open staging stripe and its next row. -/
  openStripe : Nat := 0
  nextRow : Nat := 0
  deriving DecidableEq, Repr

/-- A rebuild of a group, running or waiting (R231 to R237, Table 8.5). -/
structure Rebuild where
  group : Nat
  positions : List Nat
  spares : List Nat
  running : Bool := false
  tail : Bool := false
  /-- block sets still to rebuild in the order of R231, and those switched. -/
  todo : List Nat := []
  done : List Nat := []
  tailTodo : List Nat := []
  total : Nat := 0
  /-- the failed dies, in the order of `positions`; of the set in progress: the pass begun, whether its data is rebuilt, the spares still programming it. -/
  old : List Nat := []
  pass : Nat := 0
  asked : Bool := false
  reads : List Nat := []
  ready : Bool := false
  busy : List Nat := []
  boot : Nat := 0
  start : Nat := 0
  deriving DecidableEq, Repr

/-- A copy under R215. -/
inductive CopyKind where
  | refresh | relocation | fold | compaction | merge | move
  deriving DecidableEq, Repr

structure Copy where
  id : Nat
  kind : CopyKind
  die : Nat
  src : Nat
  dst : Nat
  cont : List Nat := []
  nsid : Nat := 0
  zone : Nat := 0
  /-- R257: the die the copy is made on; that of the source but for a move. -/
  dstDie : Nat := 0
  /-- passes confirmed in the order of R189, of so many. -/
  pass : Nat := 0
  passes : Nat := 1024
  /-- the row's data is read and a program of it is queued. -/
  busy : Bool := false
  /-- source reads of the pass asked for, to place and to return. -/
  asked : Bool := false
  toPlace : Nat := 0
  toReturn : Nat := 0
  complete : Bool := false
  deriving DecidableEq, Repr

/-- An entry of the refresh queue (R214). -/
structure Refresh where
  die : Nat
  bset : Nat
  prio : Nat
  deriving DecidableEq, Repr

/-- A lost extent (R239, Table 8.6). -/
structure Extent where
  nsid : Nat
  slba : Nat
  count : Nat
  cause : Nat
  repairable : Bool := false
  group : Nat := 0x3F
  boot : Nat := 0
  found : Nat := 0
  deriving DecidableEq, Repr

/-- A channel's training (R190, Table 7.14). -/
structure Chan where
  rate : Nat := 0
  pkgOk : Nat := 0
  odt : List Nat := [0, 0, 0]
  drive : List Nat := [0, 0, 0]
  refShift : Nat := 0
  refShiftSaved : Nat := 0
  /-- R208: which of the two reference sets is the newer, and their days of programming. -/
  refDays : List Nat := [0, 0]
  refReprogrammed : Bool := false
  deriving DecidableEq, Repr

/-- A staging row or log row being programmed (R198, R274, R279). -/
structure RowJob where
  id : Nat
  group : Nat
  stripe : Nat := 0
  row : Nat := 0
  /-- its data: unit keys (NSID × 2^64 + 4 KiB unit), in the order of the row, and the records they came from. -/
  units : List Nat := []
  seqs : List Nat := []
  /-- a row of a metadata namespace's log. -/
  log : Bool := false
  /-- R126: a map unit, of this number, written by the merge of this namespace. -/
  merge : Option Nat := none
  num : Nat := 0
  /-- R200: the staging stripe whose live data a compaction copies into it. -/
  compacts : Option Nat := none
  /-- dies whose page of it is not yet programmed. -/
  left : List Nat := []
  deriving DecidableEq, Repr

/-- A map unit of a metadata namespace that a merge has written (R125, R126): its number, and the first row of the SLC set that holds it; `building` while it is written beside the old one. -/
structure MetaUnit where
  nsid : Nat
  num : Nat
  group : Nat
  set : Nat
  row : Nat
  building : Bool := false
  deriving DecidableEq, Repr

/-- The metadata that a programmed page carries (R193, Table 7.4): the fields beside the magic, the revision and the CRC. -/
structure PageMeta where
  role : Nat
  density : Nat := 3
  parity : Bool := false
  q : Bool := false
  nsid : Nat := 0
  tag : Nat := 0
  zone : Nat := 0
  units : List Nat := List.replicate 4 0xFFFFFFFF
  seq : Nat := 0
  row : Nat := 0
  group : Nat := 0x3F
  pos : Nat := 0
  copySeq : Nat := 0
  deriving DecidableEq, Repr

/-- A landing row (R340): its group, landing set and row, the records landed in it, and the bytes it has room for. -/
structure LandRow where
  group : Nat
  set : Nat
  row : Nat
  seqs : List Nat := []
  left : Nat := 0
  deriving DecidableEq, Repr

structure Media where
  dies : KV Die := []
  /-- block sets by die index × 2,048 + b. -/
  sets : KV BSet := []
  groups : KV Grp := []
  chans : KV Chan := []
  rebuilds : List Rebuild := []
  copies : List Copy := []
  copyCtr : Nat := 1
  rows : List RowJob := []
  refresh : List Refresh := []
  /-- R119, R171: block sets awaiting erase (die × 2,048 + b), in order. -/
  eraseQ : List Nat := []
  /-- R347: the staging directory, by nsid × 2^64 + 4 KiB unit: the staging stripe, row, page and codeword as one number. -/
  stagingDir : KV Nat := []
  /-- R125: where map units lie, and the log's directory by nsid × 2^64 + 4 KiB unit: the number of the log unit, and once its row is programmed the group, set, row and place in the row, as one number. -/
  units : List MetaUnit := []
  logDir : KV Nat := []
  /-- R125: the metadata set being filled of a group and its next row, by group × 2, + 1 for log rows. -/
  metaOpen : KV (Nat × Nat) := []
  /-- R193: the metadata of the pages programmed, by block set × 32,768 + row of the set. -/
  pages : KV PageMeta := []
  /-- R340: the landing rows that are not erased, the stripe of each group being appended to and its next row, and the next group in turn. -/
  landing : List LandRow := []
  landOpen : KV (Nat × Nat) := []
  landTurn : Nat := 0
  extents : List Extent := []
  extentGen : Nat := 0
  /-- R220 counters. -/
  pctUsed : Nat := 0
  hostGib : List Nat := [0, 0, 0, 0]
  progKib : Nat := 0
  refDisturb : Nat := 0
  refRetention : Nat := 0
  refError : Nat := 0
  relocWear : Nat := 0
  copyFails : Nat := 0
  foldKib : Nat := 0
  /-- R210. -/
  wz : Nat := 0
  ws : Nat := 0
  deriving DecidableEq, Repr

/-! ### The Vigil journal (chapter 9) -/

/-- A record of the Vigil journal (R261, Tables 9.1 and 9.2). -/
structure VRec where
  typ : Nat
  mirrored : Bool := false
  copy : Bool := false
  forwarded : Bool := false
  wt : Bool := false
  func : Nat := 0
  pages : Nat := 0
  oseq : Nat := 0
  pepoch : Nat := 0
  boot : Nat := 0
  nsid : Nat := 0
  zone : Nat := 0xFFFFFFFF
  slba : Nat := 0
  nlb : Nat := 0
  stamp : Nat := 0
  page0 : Nat := 0
  /-- record size of R145. -/
  bytes : Nat := 256
  /-- zone index (the payload of types 10h, 11h and 20h: ACTION, state, value, extension). -/
  zidx : Nat := 0
  action : Nat := 0
  arg : Nat := 0
  ext : Ext := {}
  data : List Nat := []
  key : Nat := 0
  /-- R269: its data is in, so its mirror record can be sent. -/
  dataIn : Bool := true
  durable : Bool := false
  acked : Bool := true
  sent : Bool := false
  completed : Bool := false
  /-- R273: given to staging; R275: units whose row is programmed. -/
  staged : Bool := false
  onFlash : Nat := 0
  landed : Bool := false
  /-- R118: its zone was emptied after it was formed. -/
  stale : Bool := false
  /-- R271: what the LBAs of a copy held before it, for a Drop. -/
  old : List Blk := []
  slot : Option Nat := none
  deriving DecidableEq, Repr

/-- A segment of the journal region (R260). -/
structure Seg where
  core : Option Nat := none
  headers : Nat := 0
  pages : Nat := 0
  seqs : List Nat := []
  closed : Bool := false
  deriving DecidableEq, Repr

structure Journal where
  /-- R262: the next SEQ. -/
  seq : Nat := 1
  /-- R263. -/
  pepoch : BitVec 32 := 0
  /-- the records held, by SEQ. -/
  recs : KV VRec := []
  segs : KV Seg := []
  /-- R276, R347: checkpoint number, lowest SEQ it does not cover, its time; session open and since when. -/
  ckpt : Nat := 0
  ckptSeq : Nat := 0
  ckptAt : Nat := 0
  /-- R347: the checkpoints kept, newest first: number and group. -/
  ckpts : List (Nat × Nat) := []
  session : Bool := false
  /-- Table 5.7: bytes retired in the last complete and in the present period, by function. -/
  drainLast : KV Nat := []
  drainNow : KV Nat := []
  /-- R268: mirror credit and twin's drain rate by function. -/
  credit : KV Nat := []
  twinDrain : KV Nat := []
  /-- R268: free shares last told to the twin. -/
  told : KV Nat := []
  deltaMib : Nat := 0
  deriving DecidableEq, Repr

/-! ### The twin and the Deroft link (chapter 10) -/

/-- A message sent to the twin: header and body fields in the order of Table 10.7, and its bytes as the cipher engine takes them (R11, R296). -/
structure Out where
  hdr : MsgHdr
  body : List Nat := []
  image : List Nat := []
  /-- R300: the nonce of a protected message. -/
  nonce : Nat := 0
  deriving DecidableEq, Repr

/-- An admin command or an Abort carried to the twin and waiting for its answer (R315, R316): `kind` 0 an Abort, 1 a command with nothing to undo, 2 a create, 3 an erasure whose switch waits for the new key to be durable on the twin (R403), 4 a policy change, 5 a Reshape to mirrored, 6 a key injection, 13 an enabling (`arg` its key tags) or disabling of Key Per I/O, 7 a command the twin carries out alone, 8 a Sanitize, 9 a transfer asked of the owner, 10 a Reshape the twin carries out, 11 the switch of a Reshape to single, 12 a namespace or a key brought to the twin before a pairing commit. -/
structure AdminWait where
  tag : Nat
  func : Nat
  cid : Nat
  kind : Nat := 1
  dw0 : Nat := 0
  nsid : Nat := 0
  arg : Nat := 0
  key : Nat := 0
  /-- R97: the namespace to create once the twin has it too, or one as it was before a policy change. -/
  ns : Option Ns := none
  deriving DecidableEq, Repr

/-- A range of resync or of a reshape copy still to send (R322, R254): KIND of Table 10.17, zone or map unit, first LBA and LBAs. -/
structure Work where
  kind : Nat
  nsid : Nat
  unit : Nat := 0
  slba : Nat := 0
  nlb : Nat := 0
  /-- the zone's RESET_ID when it began to be sent. -/
  resetId : Nat := 0
  reshape : Bool := false
  deriving DecidableEq, Repr

/-- A frame sent and not yet confirmed (R322). -/
structure Frame where
  tag : Nat
  nsid : Nat
  unit : Nat
  kind : Nat := 1
  bytes : Nat
  reshape : Bool := false
  deriving DecidableEq, Repr

structure Twin where
  /-- Table 3.5 0030h, pins. -/
  senseIn : Bool := false
  senseOut : Bool := true
  senseFault : Bool := false
  linkUp : Bool := false
  dWidth : Nat := 0
  dRate : Nat := 0
  lanes : Nat := 0
  failedLanes : Nat := 0
  fec : Bool := false
  proto : Nat := 0
  trainStep : Nat := 0
  trainedAt : Nat := 0
  paired : Bool := false
  unpaired : Bool := false
  locked : Bool := false
  peerMode : Nat := 0
  peerFlags : Nat := 0
  peerSenseOut : Bool := false
  peerAt : Option Nat := none
  peerOffset : Int := 0
  peerDtb : Nat := 0
  hbCount : BitVec 16 := 0
  /-- R294: sequence numbers and the replay buffer. -/
  fseqNext : Nat := 0
  rxExpect : Nat := 0
  acked : Nat := 1023
  /-- R294: the replay buffer: the FSEQs of the payload flits sent and not acknowledged, at most 512; when ACKSEQ last advanced. -/
  replay : List Nat := []
  ackAt : Nat := 0
  /-- R295, R297: payload flits formed and not sent yet, by KIND (priority, bulk, link), and the flits sent since the last bulk one while bulk ones were ready. -/
  waits : List Nat := [0, 0, 0]
  sinceBulk : Nat := 0
  /-- R289: the training sets that the lanes carry. -/
  trainSets : List (List Nat) := []
  /-- R290 step 2: the lane order learnt is reversed. -/
  reversed : Bool := false
  /-- R305: when PAIRSENSE_IN and the twin's SENSE_OUT last began or ceased to agree. -/
  senseAt : Nat := 0
  lastFlitAt : Nat := 0
  nakOwed : Bool := false
  /-- R297: credits held for sending, credits owed to the twin, by class. -/
  crPri : Nat := 0
  crBulk : Nat := 0
  owePri : Nat := 0
  oweBulk : Nat := 0
  lostPending : Bool := false
  /-- messages sent to the twin and not taken yet (outbox, oldest first). -/
  out : List Out := []
  tagCtr : Nat := 1
  /-- R308, R310: pair record. -/
  pairId : Nat := 0
  twinSerial : List Nat := []
  twinFw : Nat := 0
  step : Nat := 0
  pairAt : Nat := 0
  hello : Option Hello := none
  table : List PtEntry := []
  /-- R310 step 7: what the twin lacks has been sent; its entries have come; its result or the own one is known. -/
  pairAcc : List Bool := [false, false, false]
  refuse : Nat := 0
  refuseAt : Nat := 0
  refuseBoot : Nat := 0
  holdTraining : Bool := false
  lossKind : Nat := 0
  lossAt : Nat := 0
  lossBoot : Nat := 0
  pairings : Nat := 0
  losses : Nat := 0
  linkFaults : Nat := 0
  quick : Nat := 0
  full : Nat := 0
  integrity : Nat := 0
  integrityAt : List Nat := []
  replays : Nat := 0
  everPaired : Bool := false
  twinDeparted : Bool := false
  /-- R302: the key phase last seen on the priority and the bulk class. -/
  rxPhase : List Bool := [false, false]
  /-- R302: key phase, message counters (pri tx, bulk tx, pri rx, bulk rx), updates, time of the last. -/
  keyPhase : Bool := false
  counters : List Nat := [0, 0, 0, 0]
  keyUpdates : Nat := 0
  keyAt : Nat := 0
  spdmVer : Nat := 0
  /-- Table 10.22 D_FEATURES: the FEATURES both modules named (R312). -/
  features : Nat := 0
  /-- R318: departure: reason code and namespaces handed over, waiting for depart taken. -/
  departing : Option Nat := none
  departSent : Bool := false
  transfer : Option Nat := none
  transferCmd : Option (Nat × Nat × Nat) := none
  /-- R324: the Pair Control unpair that waits for the departure: function, queue, CID. -/
  unpairCmd : Option (Nat × Nat × Nat) := none
  /-- R304: wake requests sent on PAIRSENSE_OUT since power good (1 µs low pulses). -/
  wakes : Nat := 0
  /-- R315, R316. -/
  adminWait : List AdminWait := []
  /-- R316: Aborts kept for forwarded commands not yet arrived (tags). -/
  keptAborts : List Nat := []
  /-- R321 to R323. -/
  resyncTotal : Nat := 0
  resyncDone : Nat := 0
  resyncStart : Nat := 0
  /-- R322, R254: what is still to send, in order, and the frames sent and not confirmed. -/
  work : List Work := []
  frames : List Frame := []
  /-- R322: zones of namespaces being resynced that have had mirror records since the commit, in the order of their first. -/
  firstMirror : List (Nat × Nat) := []
  /-- fetches asked of the twin (R240): tag, slot of the read that waits (65,536 none), NSID, first LBA, LBAs. -/
  fetches : List (Nat × Nat × Nat × Nat × Nat) := []
  deriving DecidableEq, Repr

/-! ### Supply, bank, Harvest, recovery (chapters 11, 17) -/

/-- The hold-up test's progress (R334). -/
inductive TestPhase where
  | idle | waiting | falling | discharging | recharging
  deriving DecidableEq, Repr

/-- The result of a hold-up test (Table 11.3). -/
structure HoldResult where
  result : Nat := 3
  capUf : Nat := 0
  esrMohm : Nat := 0
  vStart : Nat := 0
  vStop : Nat := 0
  tDis : Nat := 0
  usableCj : Nat := 0
  needCj : Nat := 0
  vigilBefore : Nat := 0
  vigilAfter : Nat := 0
  bankTemp : Nat := 0
  boot : Nat := 0
  at_ : Nat := 0
  tests : Nat := 0
  capFirst : Nat := 0
  deriving DecidableEq, Repr

/-- What a seal record names (R341, R345) and what the Harvest report gives (Table 11.9). -/
structure Seal where
  kind : Nat
  fromMode : Nat := 0
  trigger : Nat := 0
  boot : Nat := 0
  ckpt : Nat := 0
  highSeq : Nat := 0
  pepoch : Nat := 0
  rd : Nat := 0
  at_ : Nat := 0
  durationUs : Nat := 0
  vStart : Nat := 0
  vEnd : Nat := 0
  records : Nat := 0
  landedMib : Nat := 0
  deltaMib : Nat := 0
  drained : Nat := 0
  aborted : Nat := 0
  sealed : Bool := true
  manifest : Bool := true
  deriving DecidableEq, Repr

structure Sup where
  /-- the rails are on (R330, R492). -/
  rails : Bool := true
  /-- Table 3.5 0044h: feeds in 0.1 V units, pins. -/
  feedA : Nat := 480
  feedB : Nat := 480
  aOk : Bool := true
  bOk : Bool := true
  pwrdis : Bool := false
  mated : Bool := true
  slotid : BitVec 3 := 0
  /-- Table 3.5 0048h, 0.1 W units. -/
  pIn : Nat := 0
  /-- the bank, mV; the charger is connected. -/
  bankMv : Nat := 0
  charger : Bool := true
  first70 : Bool := false
  belowSixtySix : Bool := false
  /-- the latest completed measurement (R331): valid, C in µF, ESR in mΩ. -/
  measured : Bool := false
  capUf : Nat := 0
  esrMohm : Nat := 0
  usableDj : Nat := 0
  /-- V in 0.25 GiB units (R259). -/
  vigil : Nat := 0
  test : TestPhase := .idle
  capEst : Nat := 0
  vStopDv : Nat := 0
  testVigil : Nat := 0
  testTDis : Nat := 0
  /-- R334: the result of the test in recharge, stored at its end. -/
  testResult : HoldResult := {}
  pendCap : Nat := 0
  pendEsr : Nat := 0
  testWaiters : List (Nat × Nat × Nat) := []
  lastTest : Nat := 0xFFFF
  lastResult : HoldResult := {}
  /-- Harvest in progress: from mode, trigger code, start. -/
  hvFrom : Nat := 0
  hvTrigger : Nat := 0
  hvAt : Nat := 0
  hvVStart : Nat := 0
  hvDrained : Nat := 0
  hvAborted : Nat := 0
  hvStep : Nat := 0
  /-- the newest seal, and an unsealed Harvest since. -/
  sealRec : Option Seal := none
  unsealed : Option Seal := none
  /-- R351: records that the manifest of an unsealed Harvest lists and that did not land. -/
  missing : List Nat := []
  /-- R493: the I3C address taken; R431: the SMBus frequency set, kHz. -/
  i3cAddr : Option Nat := none
  smbusKhz : Nat := 100
  deriving DecidableEq, Repr

/-! ### Measured boot (chapter 12), keys (chapter 13) -/

/-- A stage record (Table 12.5) and the digest in its register. -/
structure StageRec where
  stage : Nat
  slot : Nat
  size : Nat
  digest : Nat
  deriving DecidableEq, Repr

/-- An Almanac entry (Table 12.4), its time fields and signature once written. -/
structure Alm where
  boot : Nat
  cause : Nat := 0
  minSvn : Nat := 0
  prevDigest : Nat := 0
  signer : Bool := false
  fallback : Bool := false
  tail : Bool := false
  verdict : Nat := 0
  slotSel : Nat := 0
  slotRun : Nat := 0
  fw : Nat := 0
  svn : Nat := 0
  stages : List StageRec := []
  aliasPub : Nat := 0
  endorsed : Bool := false
  endorse : Nat := 0
  signed : Bool := false
  timeMs : Nat := 0
  timeSrc : Nat := 0
  disc : Bool := false
  unit : Nat := 0
  uncert : Nat := 0
  retDay : Nat := 0
  gapEst : Nat := 0
  signedDtb : Nat := 0
  signature : Nat := 0
  deriving DecidableEq, Repr

/-- The Measurement Policy (Table 12.11). -/
structure Policy where
  enforce : Bool := false
  entries : List (Nat × Nat) := []
  deriving DecidableEq, Repr

/-- A write of the boot store (R375, R380): an image into slot `slot` for the Commit action `ca`, or a policy (`ca` 8) with `slot` copies durable. -/
structure BootWrite where
  ca : Nat
  func : Nat
  cid : Nat
  slot : Nat := 0
  image : Option Image := none
  policy : Policy := {}
  gen : Nat := 0
  dw0 : Nat := 0
  deriving DecidableEq, Repr

/-- A sector of the boot store written by appending (R364): whether its header stands, and its words or records in order. -/
structure AppendSector where
  headed : Bool := false
  words : List Nat := []
  deriving DecidableEq, Repr

/-- A pair of sectors written by appending (R363, R364), and which of them is continued. -/
structure AppendPair where
  a : AppendSector := {}
  b : AppendSector := {}
  inB : Bool := false
  deriving DecidableEq, Repr

structure Boot where
  /-- R364, R366: the boot counter. -/
  boot : Nat := 1
  cause : Nat := 0
  /-- M0 to M7 as written, in order (R357). -/
  regs : List StageRec := []
  verdict : Option Nat := none
  policy : Policy := {}
  /-- R380: the three saved copies, each with its generation. -/
  policyCopies : List (Nat × Policy) := [(0, {}), (0, {}), (0, {})]
  slotSel : Nat := 1
  /-- R364: the selector sectors; at manufacture the word for slot 1 with count 0. -/
  selectors : AppendPair := { a := { headed := true, words := [9] } }
  /-- R364, R366: the counter sectors; the record of BOOT 1. -/
  counters : AppendPair := { a := { headed := true, words := [18446744065119617025] } }
  slotRun : Nat := 0
  selCount : Nat := 0
  fallback : Bool := false
  slot1 : Option Image := some {}
  slot2 : Option Image := some {}
  minSvn : Nat := 0
  minSvnDone : Bool := false
  /-- R366 to R371: ring and body by BOOT, lost count. -/
  ring : KV Alm := [(1, { boot := 1 })]
  body : KV Alm := []
  /-- R369: the stripe groups whose system areas hold the body's copies. -/
  bodyGroups : List Nat := [0, 1, 2]
  lost : Nat := 0
  signPending : Bool := true
  firstReady : Option Nat := none
  signDead : Bool := false
  /-- R361, R362: gates. -/
  udsOpen : Bool := true
  devidOpen : Bool := true
  cdi : Nat := 0
  /-- R374: pieces held (offset, length) and the image they make. -/
  pieces : List (Nat × Nat) := []
  staged : Option Image := none
  /-- writes of the boot store under way, the first one running (R375, R380). -/
  writing : List BootWrite := []
  /-- R154: activation pending: the Commit to complete. -/
  activating : Option (Nat × Nat) := none
  /-- R375: further Commits accepted before the Measure entry, which complete with it. -/
  alsoActivating : List (Nat × Nat) := []
  /-- Serial number (20 ASCII characters). -/
  serial : List Nat := List.replicate 20 0x20
  /-- SPDM responder (R372): version negotiated per transport (0 host, 1 sideband, 2 Deroft), algorithms chosen, session. -/
  spdmVer : List Nat := [0, 0, 0]
  spdmCaps : List Bool := [false, false, false]
  spdmAlgs : List Bool := [false, false, false]
  spdmSession : Nat := 0
  spdmOut : List (Nat × List Nat) := []
  deriving DecidableEq, Repr

/-- A data slot of the key store (R382, R394): key identities, 0 empty. -/
structure KeySlot where
  cur : Nat := 0
  retiring : Nat := 0
  tenant : Nat := 0
  generated : Bool := true
  deriving DecidableEq, Repr

/-- An injection that waits for its slot's retiring key (R394): the command that waits, or the twin's (function 65,536 and its tag), and what it injects. -/
structure KeyWait where
  func : Nat
  cid : Nat
  nsid : Nat
  keyTag : Nat
  key : Nat
  tenant : Nat
  deriving DecidableEq, Repr

structure Keys where
  slots : KV KeySlot := []
  /-- KEK slots: (tenant, key). -/
  keks : KV (Nat × Nat) := []
  /-- blobs in the system area by data slot (R384): the key wrapped. -/
  blobs : KV Nat := []
  keyCtr : Nat := 1
  /-- link keys held (phase present, next) and pair wrap key (R301, R385). -/
  linkKeys : List Nat := []
  /-- R301: the IV salts beside the link keys, in the same order. -/
  linkSalts : List Nat := []
  wrapKeys : List Nat := []
  /-- zeroizations waiting for their erases (R386): block sets. -/
  zeroing : List (Nat × List Nat) := []
  /-- injections waiting for a retiring key (R394), oldest first. -/
  waiting : List KeyWait := []
  deriving DecidableEq, Repr

/-! ### Administration and events (chapter 14) -/

/-- An event entry (Table 14.8): payload fields in order. -/
structure Ev where
  seq : Nat
  dtb : Nat
  boot : Nat
  typ : Nat
  sev : Nat
  vfAll : Bool := false
  timeSrc : Nat := 0
  mode : Nat := 0
  func : Option Nat := none
  nsid : Nat := 0
  payload : List Nat := []
  deriving DecidableEq, Repr

/-- Rate limit and counts of one event TYPE (R423, R425). -/
structure EvType where
  bucket : Nat := 64
  total : Nat := 0
  suppressed : Nat := 0
  lost : Nat := 0
  pend : Nat := 0
  pendFirst : Nat := 0
  pendLast : Nat := 0
  /-- when the bucket next regains an entry. -/
  regainAt : Nat := 0
  deriving DecidableEq, Repr

structure Events where
  seq : Nat := 1
  ring : List Ev := []
  buf : List Ev := []
  journal : List Ev := []
  types : KV EvType := []
  lossPending : Bool := false
  lossCount : Nat := 0
  lossFirst : Nat := 0
  lossLast : Nat := 0
  lostTotal : Nat := 0
  suppressedTotal : Nat := 0
  firstUnwritten : Option Nat := none
  mounted : Bool := false
  deriving DecidableEq, Repr

/-- Sanitize progress (R404). -/
structure Sanitize where
  running : Bool := false
  pending : Bool := false
  block : Bool := false
  failed : Bool := false
  ever : Bool := false
  /-- the command's dword 10 (NVMe 2.0 SCDW10). -/
  cdw10 : Nat := 0
  cmd : Option (Nat × Nat) := none
  /-- the twin asked for it: the tag its answer carries, and the new keys it drew, by NSID (R315, R403). -/
  tag : Option Nat := none
  keys : List (Nat × Nat) := []
  setsLeft : List Nat := []
  deriving DecidableEq, Repr

/-- A Format NVM accepted and not ended (R404): the namespace, whether a crypto erase, the command, the LBA format and protection it sets, the new key drawn. -/
structure Fmt where
  nsid : Nat
  crypto : Bool
  func : Nat
  cid : Nat
  flbas : Nat := 0
  dps : Nat := 0
  key : Nat := 0
  /-- the twin asked for it: the tag its answer carries (R315). -/
  tag : Option Nat := none
  deriving DecidableEq, Repr

structure Admin where
  sanitize : Sanitize := {}
  /-- R404. -/
  formats : List Fmt := []
  /-- R429, R430. -/
  telHost : Nat := 0
  telHostAt : Nat := 0
  telCtrlAvail : Bool := false
  telCtrlAt : Option Nat := none
  telCtrlReason : Nat × Nat := (0, 0)
  telGen : Nat := 0
  /-- R434: Composite Controller Status bits; responses of the MI endpoint (outbox). -/
  ccs : BitVec 16 := 0
  miOut : List (List Nat) := []
  mctpUnit : Nat := 64
  /-- Feature C6h and its saved copy. -/
  permit : Bool := false
  permitSaved : Bool := false
  /-- R336, R245, R447: Critical Warning as last evaluated. -/
  critWarn : BitVec 8 := 0
  /-- KPIO methods' results waiting for Security Receive, by function. -/
  tcgOut : KV (List Nat) := []
  deriving DecidableEq, Repr

/-! ### Time, temperature, power (chapter 15) -/

structure Time where
  /-- R21, R435: the master counter, ns. -/
  dtb : Nat := 0
  /-- R21, R22: the local copies of the master: the islands of Table 16.5 in its order, 32 channel islands under code 6. The calendar's entry stands for the master itself. -/
  copies : List Nat := List.replicate 40 0
  /-- R437 to R439: SOURCE; host time in ms at `hostAt`; uncertainty in µs at `uncAt`. -/
  src : Nat := 0
  hostMs : Nat := 0
  hostAt : Nat := 0
  unc : Nat := 0
  uncAt : Nat := 0
  setAt : Option Nat := none
  bootDtb : Nat := 0
  /-- R441: Holiday latch. -/
  latchDtb : Nat := 0
  latchTick : Nat := 0
  pllLocked : Bool := false
  coreMhz : Nat := 400
  waitStates : Nat := 16
  /-- R205 to R207: retention clock, saved copies, gap estimate. -/
  rd : BitVec 32 := 0
  rdSaved : BitVec 32 := 0
  hostSaved : Option (Nat × Nat) := none
  sealedSave : Bool := false
  gap : Option Nat := none
  gapUnc : Nat := 0
  gapOver : Bool := false
  /-- R207: the gap of this power good is still to be measured. -/
  gapDue : Bool := true
  deriving DecidableEq, Repr

/-- One sensor class's readings and crossings (R443 to R446). -/
structure Sensor where
  now : List Int
  /-- readings 1 s earlier (R445), and the samples of the last second with the one before them, oldest first. -/
  prev : List Int := []
  hist : List (Nat × List Int) := []
  overS : Nat := 0
  exceeding : Bool := false
  maxLife : Int := 0
  deriving DecidableEq, Repr

/-- A minute record (Table 14.13). -/
structure Minute where
  ctrl : Int := 0
  flash : Int := 0
  dram : Int := 0
  bank : Int := 0
  thrS : Nat := 0
  psDeep : Nat := 0
  band : Nat := 0
  holiday : Bool := false
  pAvg : Nat := 0
  boot : Nat := 0
  minute : Nat := 0
  deriving DecidableEq, Repr

/-- A crossing record (R427). -/
structure Crossing where
  cls : Nat
  idx : Nat
  level : Nat
  up : Bool
  reading : Int
  boot : Nat
  secs : Nat
  deriving DecidableEq, Repr

structure Thermal where
  ctrl : Sensor := { now := List.replicate 12 0 }
  flash : Sensor := { now := List.replicate 96 0 }
  dram : Sensor := { now := List.replicate 40 0 }
  bank : Sensor := { now := [0] }
  bands : List Nat := List.replicate 96 0
  hot : List Bool := List.replicate 40 false
  sampleMs : List Nat := [100, 100, 100, 100]
  ctrlOff : Nat := 0
  flashOff : Nat := 0
  /-- R414: the offsets in force, taken over at the next sample of each class. -/
  ctrlUse : Nat := 0
  flashUse : Nat := 0
  offSaved : Nat × Nat := (0, 0)
  overK : Nat := 343
  underK : Nat := 0
  /-- R455, R456: the state thermal policy imposes; throttling; rate holds. -/
  imposed : Nat := 0
  throttling : Bool := false
  /-- since when a reading has stayed at or above the throttle threshold, or policy last deepened; since when every reading has stayed 3 °C or more below it, or policy last relaxed. -/
  hotSince : Option Nat := none
  coolSince : Option Nat := none
  /-- R427: time throttled in the minute, ns, and since when it is. -/
  thrNs : Nat := 0
  thrFrom : Option Nat := none
  rateHold : List Bool := [false, false]
  rateAt : List Nat := [0, 0]
  /-- R457: step of the shut-down sequence, 0 none; its start. -/
  shut : Nat := 0
  shutAt : Nat := 0
  /-- R46: the cause of an internal fault that waits for the sequence to end. -/
  laterCause : Nat := 0
  paused : Bool := false
  belowSince : Option Nat := none
  /-- R427 counters. -/
  minutes : List Minute := []
  crossings : List Crossing := []
  nMin : Nat := 0
  bootMin : Nat := 0
  nCross : Nat := 0
  mins : List Nat := List.replicate 12 0
  throttles : Nat := 0
  rateTrips : Nat := 0
  shutdowns : Nat := 0
  pkgMax : List Int := List.replicate 96 0
  pkgB4 : List Nat := List.replicate 96 0
  pkgB0 : List Nat := List.replicate 96 0
  dchMax : List Int := List.replicate 4 0
  dchHot : List Nat := List.replicate 4 0
  minNow : Minute := { ctrl := -128, flash := -128, dram := -128, bank := -128 }
  deriving DecidableEq, Repr

structure Power where
  /-- R72: selected through Power Management; LIMIT, saved LIMIT. -/
  sel : Nat := 0
  limit : Nat := 0
  limitSaved : Nat := 0
  now : Nat := 0
  /-- program and erase releases bind to this budget, mW. -/
  flashMw : Nat := 26000
  deriving DecidableEq, Repr

/-! ### Internals (chapter 16) -/

/-- A processor (R465, R31, R35). -/
structure Proc where
  beat : Nat := 0
  hung : Bool := false
  inReset : Bool := false
  /-- the core that owns its zones (R32); itself normally. -/
  zones : Option Nat := none
  deriving DecidableEq, Repr

/-- R472, R475: a fault that an access to the scratchpad raises on the agent that made it. -/
inductive PadFault where
  | access | alignment
  deriving DecidableEq, Repr

/-- A scratchpad bank (R472, R476 to R478): its owner, and the owner that lent it to the memory test engine. -/
structure Bank where
  lent : Bool := false
  chunk : Nat := 0
  spares : Nat := 0
  /-- R476: the words of the chunk under test, saved in the shadow register. -/
  shadow : List Nat := []
  displaced : Bool := false
  cancels : Nat := 0
  /-- R472: the owner register after a hand-over; none: the owner at reset (Table 16.3). -/
  owner : Option Owner := none
  /-- R476: who lent it to the memory test engine, and when its latest test began. -/
  lender : Option Owner := none
  testedAt : Option Nat := none
  deriving DecidableEq, Repr

/-- A buffer pool (R467, R469): its free buffers in the order in which they were freed, oldest first, and how many of them the chip caches; the others lie in the ring in DRAM. -/
structure Pool where
  free : List Nat
  cached : Nat
  deriving DecidableEq, Repr

/-- A pool with every buffer free. -/
def Pool.full (n : Nat) : Pool := { free := List.range n, cached := min n 256 }

/-- R481: the power state of a DRAM rank. -/
inductive RankState where
  | active | powerDown | selfRefresh
  deriving DecidableEq, Repr

/-- R479, R481: the rank of a DRAM channel, and the instant of its latest access. -/
structure Rank where
  state : RankState := .active
  at_ : Nat := 0
  deriving DecidableEq, Repr

/-- R395 to R397: what a request of the cipher engine works on: a data slot of the key store, or a link key. -/
inductive KeyName where
  | slot (k : Nat) | link
  deriving DecidableEq, Repr

/-- A request of the cipher engine (R396, R397): the command or message it belongs to, its level, the slot it names, its bytes, and the work done on it in fifths of a byte; `gcm` tells a GCM request from an XTS one, `saved` that its context is in the context store. -/
structure CReq where
  id : Nat
  slot : Option Nat := none
  level : Nat := 0
  key : KeyName := .link
  gcm : Bool := false
  bytes : Nat := 0
  work : Nat := 0
  saved : Bool := false
  deriving DecidableEq, Repr

/-- An AES core (R383, R396): its request, the key it has loaded for it, the number of its starts, and when it started, counted in starts of the engine. -/
structure ACore where
  req : Option CReq := none
  key : Option KeyName := none
  starts : Nat := 0
  startedAt : Nat := 0
  deriving DecidableEq, Repr

/-- The cipher engine (R395 to R397): the one queue, oldest first, the 16 cores, and its counters of requests and starts. -/
structure Engine where
  queue : List CReq := []
  cores : List ACore := List.replicate 16 {}
  nextId : Nat := 1
  starts : Nat := 0
  deriving DecidableEq, Repr

structure Internal where
  /-- request cores not listed are as at reset. -/
  cores : KV Proc := []
  /-- R32: the core that took the round-robin's last command. -/
  rrCore : Nat := 23
  banks : KV Bank := []
  /-- R467, R469: the pools. -/
  pools : List Pool := [Pool.full 2048, Pool.full 512, Pool.full 128, Pool.full 32]
  /-- R470: the reference counts of the buffers in use, by pool × 2,048 + number. -/
  refs : KV Nat := []
  /-- R470: a decrement below zero was refused, and its fault of the buffer island is due. -/
  decFault : Bool := false
  /-- R473: the scratchpad's words, by bank × 65,536 + word; an unlisted word reads as 0. -/
  pad : KV Nat := []
  /-- R473: what the latest accesses to the scratchpad returned; R472, R475: the faults raised on agents, in order. -/
  padOut : List Nat := []
  padFaults : List (Owner × PadFault) := []
  /-- R481: the rank of each DRAM channel. -/
  ranks : List Rank := List.replicate 4 {}
  /-- R395 to R397: the cipher engine. -/
  engine : Engine := {}
  /-- R471: bytes in the forward spill area. -/
  spill : Nat := 0
  /-- R484: islands in reset, fault times (island × 32 + channel, instants). -/
  faulted : List Nat := []
  faults : KV (List Nat) := []
  scrubs : Nat := 0
  dramCorrected : Nat := 0
  deriving DecidableEq, Repr

/-- The mode and what it carries (chapter 2). -/
structure ModeSt where
  /-- Table 2.3. -/
  mode : Mode := .measure
  prev : Mode := .measure
  capped : Bool := false
  rebuilding : Bool := false
  resyncing : Bool := false
  writeThrough : Bool := true
  timeDisc : Bool := true
  qcause : Nat := 0
  pairServing : Bool := false
  recoveryScan : Bool := false
  seq : BitVec 8 := 0
  /-- R46, R48, R460: Holiday entry under way: the Set Features to complete, or a re-entry; mode to come back to. -/
  ps4 : Option (Nat × Nat) := none
  entering : Bool := false
  holidayFrom : Mode := .solo
  selBefore : Nat := 0
  /-- R49, R50. -/
  waking : Bool := false
  adminWake : Bool := false
  lastAdminAt : Nat := 0
  /-- R51: end of the rejection window. -/
  rejectUntil : Nat := 0
  /-- R348: path of the present or latest Recovery; R346: the last power-off was clean. -/
  path : Nat := 0
  cleanOff : Bool := true
  recoveryAt : Nat := 0
  deriving DecidableEq, Repr

/-- What a telemetry capture is taken from (R429, R430): the parts of the state that the logs report, at one instant; no user data and no key. -/
structure TelSnap where
  md : ModeSt
  port : Port
  zn : Zn
  cal : Cal
  media : Media
  tw : Twin
  sup : Sup
  boot : Boot
  ev : Events
  adm : Admin
  time : Time
  th : Thermal
  pw : Power
  free : Nat
  deriving DecidableEq, Repr

/-- The telemetry captures held: the host's and the controller's own (R430). -/
structure Tel where
  host : Option TelSnap := none
  ctrl : Option TelSnap := none
  deriving DecidableEq, Repr

/-- The state of one module (R16, R38 and the chapters the parts name), the model's free-value counter, and the queue of waiting commands. -/
structure State where
  /-- R5: the ordering part. -/
  part : Part := .szm780
  /-- Chapter 2: mode, flags. -/
  md : ModeSt := {}
  /-- Chapter 3: host port, functions, queues, command table. -/
  port : Port := {}
  /-- Chapters 4, 8, 13: namespaces, zones, content. -/
  zn : Zn := {}
  /-- Chapters 5, 6: budgets, calendar. -/
  cal : Cal := {}
  /-- Chapters 7, 8: flash media, rebuild, losses. -/
  media : Media := {}
  /-- Chapter 9: the Vigil journal. -/
  jr : Journal := {}
  /-- Chapter 10: Deroft link and twin. -/
  tw : Twin := {}
  /-- Chapters 11, 17: supply, bank, Harvest, pins. -/
  sup : Sup := {}
  /-- Chapter 12: measured boot, Almanac, firmware, SPDM. -/
  boot : Boot := {}
  /-- Chapter 13: key store. -/
  keys : Keys := {}
  /-- Chapter 14: events. -/
  ev : Events := {}
  /-- Chapter 14: administration. -/
  adm : Admin := {}
  /-- Chapter 15: time. -/
  time : Time := {}
  /-- Chapter 15: temperature. -/
  th : Thermal := {}
  /-- Chapter 15: power. -/
  pw : Power := {}
  /-- Chapter 16: internals. -/
  it : Internal := {}
  /-- R430: telemetry captures. -/
  tel : Tel := {}
  /-- R54: modes and flags that entries not yet fetched were stamped under, each with the instant it ended. -/
  hist : List (Nat × ModeSt) := []
  /-- The model's own field, not the spec's: the number of free values drawn so far. -/
  free : Nat := 0
  /-- The commands waiting, first in, first out. -/
  pending : List Instr := []
  deriving DecidableEq, Repr

/-- Reasons a step stops with a fault. -/
inductive Fault where
  /-- Raised by a supply event whose feed voltage exceeds the absolute maximum of Table 17.3, beyond which the spec states no behaviour. Safe: nothing is claimed of what follows. -/
  | overAbsoluteMaximum
  deriving DecidableEq, Repr

/-- Reasons a command is refused. -/
inductive Refusal where
  /-- Raised by an arm of `exec` whose command has no meaning in the model yet. Safe: nothing is claimed of it. -/
  | notModelled (mnemonic : String)
  deriving DecidableEq, Repr

/-- The primary controller as reset leaves it (R75, Table 3.6). -/
def Ctrl.resetPf : Ctrl := { ioq := 64, vec := 65, online := true }

/-- The module right after its first power good (R41, R71, R489): mode Measure, write-through and time discontinuity raised, both feeds at 48 V. -/
def State.reset : State := { port := { ctrls := [(0, Ctrl.resetPf)] } }

end Sys2Proof.Machine
end

