-- ==== Sys2Proof/Machine/Cipher.lean ====
section
/-! DEFINITION. The cipher engine: its one queue, its levels, the 16 AES cores, suspension and the time it takes (R383, R395 to R397). -/

namespace Sys2Proof.Machine

/-- Fifths of a byte a core processes in 1 ns: 32 bytes a cycle at 800 MHz (R395). -/
def aesRate : Nat := 128

/-- Work left on a request, in fifths of a byte. -/
def CReq.left (r : CReq) : Nat := 5 * r.bytes - r.work

/-- The unit at whose end a request can be suspended (R397): a 4,096-byte data unit under XTS, a 16-byte block under GCM. -/
def CReq.unit (r : CReq) : Nat := if r.gcm then 16 else 4096

/-- The request as its context is saved (R397): the unit begun is finished first. -/
def CReq.save (r : CReq) : CReq :=
  let u := 5 * r.unit
  { r with work := min (5 * r.bytes) ((r.work + u - 1) / u * u), saved := true }

/-- A core takes a request and loads its key over the private key bus (R383). -/
def ACore.take (c : ACore) (r : CReq) (now : Nat) : ACore :=
  { req := some { r with saved := false }, key := some r.key, starts := c.starts + 1, startedAt := now }

/-- A core's request ends or is suspended: the core clears the key (R383). -/
def ACore.clear (c : ACore) : ACore := { c with req := none, key := none }

/-- Put a request back into the queue at the place its age gives it. -/
def queueByAge (r : CReq) : List CReq → List CReq
  | [] => [r]
  | x :: l => if r.id < x.id then r :: x :: l else x :: queueByAge r l

/-- The waiting request a core starts next (R396): of the lowest level, but at every 64th start of the core of the highest-numbered one, and of that level the oldest. -/
def nextReq (q : List CReq) (starts : Nat) : Option CReq :=
  let ls := q.map (·.level)
  let l := if (starts + 1) % 64 = 0 then ls.foldl max 0 else ls.foldl min 4
  q.find? (fun r => r.level == l)

/-- Start a waiting request on one core, if the core is free. -/
def Engine.startOn (e : Engine) (i : Nat) : Engine :=
  match e.cores[i]? with
  | none => e
  | some c =>
    if c.req.isSome then e
    else match nextReq e.queue c.starts with
      | none => e
      | some r => { e with queue := e.queue.filter (fun x => x.id != r.id), cores := e.cores.set i (c.take r e.starts), starts := e.starts + 1 }

/-- Start waiting requests on the free cores (R396). The spec names no order among free cores: the lowest-numbered first (DESIGN CHOICE, log 103). -/
def Engine.fill (e : Engine) : Engine := (List.range 16).foldl Engine.startOn e

/-- The core whose request is suspended for one of level `l` (R397): of the highest-numbered level above it, the one that started last. -/
def Engine.victim (e : Engine) (l : Nat) : Option Nat :=
  (List.range 16).foldl (fun v i =>
    match (e.cores[i]?).bind (fun c => c.req.map (fun r => (r.level, c.startedAt))) with
    | none => v
    | some x =>
      if x.1 ≤ l then v
      else match v.bind (fun j => (e.cores[j]?).bind (fun c => c.req.map (fun r => (r.level, c.startedAt)))) with
        | none => some i
        | some y => if y.1 < x.1 ∨ (y.1 = x.1 ∧ y.2 < x.2) then some i else v) none

/-- Contexts in the context store, which holds 64 (R397). -/
def Engine.stored (e : Engine) : Nat := e.queue.countP (·.saved)

/-- Suspend a core's request (R397): its context is saved, and it waits again at its level and age. -/
def Engine.suspend (e : Engine) (i : Nat) : Engine :=
  match e.cores[i]? with
  | none => e
  | some c => match c.req with
    | none => e
    | some r => { e with queue := queueByAge r.save e.queue, cores := e.cores.set i c.clear }

/-- A request of level 0 or 1 that finds no free core preempts one of a higher-numbered level, while the context store has room (R397). -/
def Engine.preempt (e : Engine) : Engine :=
  match e.queue.find? (fun r => r.level ≤ 1 && !r.saved) with
  | none => e
  | some r =>
    if 64 ≤ e.stored then e
    else (e.victim r.level).elim e (fun i => (e.suspend i).fill)

/-- A request enters the queue (R396). -/
def Engine.submit (e : Engine) (r : CReq) : Engine :=
  (Engine.fill { e with queue := e.queue ++ [{ r with id := e.nextId }], nextId := e.nextId + 1 }).preempt

/-- Take the requests that a test names out of the engine: their cores clear their keys and take the next. -/
def Engine.drop (e : Engine) (p : CReq → Bool) : Engine :=
  Engine.fill { e with
    queue := e.queue.filter (fun r => !p r)
    cores := e.cores.map (fun c => if c.req.any p then c.clear else c) }

/-- The shortest time to the end of a running request, ns. -/
def Engine.soonest (e : Engine) : Option Nat :=
  (e.cores.filterMap (·.req)).foldl (fun m r =>
    let t := (r.left + aesRate - 1) / aesRate
    some ((m.map (min t)).getD t)) none

/-- Let the cores work for a time during which at most the shortest requests end. -/
def Engine.work (e : Engine) (ns : Nat) : Engine :=
  Engine.fill { e with cores := e.cores.map (fun c =>
    let r := c.req.map (fun r => { r with work := min (5 * r.bytes) (r.work + aesRate * ns) })
    if r.any (fun x => x.left == 0) then c.clear else { c with req := r }) }

/-- Let a time pass (R395): requests end as their bytes are done, and the next ones start. Each round ends a request or uses up the time. -/
def Engine.pass : Nat → Nat → Engine → Engine
  | 0, _, e => e
  | fuel + 1, ns, e =>
    match e.soonest with
    | none => e
    | some m => if ns ≤ m then e.work ns else Engine.pass fuel (ns - m) (e.work m)

/-- Let the engine run for a time. -/
def Engine.run (e : Engine) (ns : Nat) : Engine := Engine.pass (e.queue.length + 17) ns e

end Sys2Proof.Machine
end

