-- ==== Sys2Proof/Machine/Ops.lean ====
section
/-! DEFINITION. The shared operations: power state and flags, events and asynchronous events, completions, mode changes, path states, messages to the twin. -/

namespace Sys2Proof.Machine

/-- The number of functions: one physical and 127 virtual (R74). -/
def funcs : Nat := 128

/-- The key of a queue in the queue tables. -/
def qkey (func qid : Nat) : Nat := func * 65536 + qid

/-- Dies per channel, stripe groups, spare dies per channel of the part (R5, Table 0.2). -/
def Part.diesPerChannel : Part → Nat
  | .szm780 => 42
  | .szm360 => 21

def Part.groups : Part → Nat
  | .szm780 => 40
  | .szm360 => 20

def Part.spares : Part → Nat
  | .szm780 => 2
  | .szm360 => 1

/-- SU_IDENT.PART (Table 3.5). -/
def Part.code : Part → Nat
  | .szm780 => 1
  | .szm360 => 2

/-- Active zones per module (R5, Table 4.5). -/
def Part.activeZones : Part → Nat
  | .szm780 => 4096
  | .szm360 => 2560

/-- Zones per module (R5). -/
def Part.zones : Part → Nat
  | .szm780 => 77440
  | .szm360 => 38720

/-! ### Power state in force (R72) -/

/-- The cap of a power state in watts (Table 15.5); PS4 is shown as 5 W rounded up from 4.5 W by the field's whole watts. -/
def psCap (ps : Nat) : Nat :=
  if ps = 0 then 60 else if ps = 1 then 45 else if ps = 2 then 30 else if ps = 3 then 18 else 5

/-- R72: the lowest-numbered state whose cap is at or below the limit. -/
def limitState (limit : Nat) : Nat :=
  if limit = 0 then 0 else if 60 ≤ limit then 0 else if 45 ≤ limit then 1 else if 30 ≤ limit then 2 else 3

/-- R72: the state in force. In Holiday it is PS4; a module woken from it by admin doorbells alone runs in the operational state held before (R50). -/
def psNow (s : State) : Nat :=
  if s.md.mode = .holiday then 4 else max (min (if s.pw.sel = 4 then s.md.selBefore else s.pw.sel) 3) (max (limitState s.pw.limit) s.th.imposed)

/-- R72: the value taken for a limit written. -/
def roundLimit (v : Nat) : Nat := if v = 0 then 0 else if v < 18 then 18 else if 60 < v then 60 else v

/-- The flash budget under a power state, mW (R36, Table 0.2). -/
def flashBudget (p : Part) (ps : Nat) : Nat :=
  match p with
  | .szm780 => if ps = 0 then 26000 else if ps = 1 then 16000 else if ps = 2 then 8000 else if ps = 3 then 4800 else 0
  | .szm360 => if ps = 0 then 23400 else if ps = 1 then 14400 else if ps = 2 then 7200 else if ps = 3 then 4300 else 0

/-- Table 2.5: capped is raised in PS1 to PS3 and under throttling, and falls in PS0 without throttling: PS4 leaves it as it is. -/
def cappedNow (s : State) : Bool := (1 ≤ psNow s && psNow s ≤ 3) || s.th.throttling || (psNow s == 4 && s.md.capped)

/-! ### SU_MODE (Table 2.3) -/

/-- The bit of a Bool. -/
def bit (b : Bool) : Nat := if b then 1 else 0

/-- SU_MODE as the register reads. -/
def suMode (m : ModeSt) : Nat :=
  m.mode.code + m.prev.code * 2^4 + bit m.capped * 2^8 + bit m.rebuilding * 2^9 + bit m.resyncing * 2^10
    + bit m.writeThrough * 2^11 + bit m.timeDisc * 2^12 + m.qcause * 2^16 + bit m.pairServing * 2^20
    + bit m.recoveryScan * 2^21 + m.seq.toNat * 2^24

/-- The flags in the order of SU_MODE [12:8] (Table 14.9, 0011h). -/
def flagsCode (m : ModeSt) : Nat :=
  bit m.capped + bit m.rebuilding * 2 + bit m.resyncing * 4 + bit m.writeThrough * 8 + bit m.timeDisc * 16

/-! ### Controllers -/

/-- The controller of a function; an unlisted one is as at reset. -/
def ctrl (s : State) (f : Nat) : Ctrl := KV.findD s.port.ctrls f {}

/-- Change the controller of a function. -/
def setCtrl (s : State) (f : Nat) (g : Ctrl → Ctrl) : State :=
  { s with port := { s.port with ctrls := KV.upd s.port.ctrls f {} g } }

/-- CC.EN and CC.CRIME. -/
def Ctrl.en (c : Ctrl) : Bool := c.cc.getLsbD 0
def Ctrl.crime (c : Ctrl) : Bool := c.cc.getLsbD 24

/-! ### Asynchronous events (R428) -/

/-- Whether Feature 0Bh lets an event through (R428; the bits are those of NVMe 2.0, PRESUMED). -/
def aenEnabled (aec : BitVec 32) (typ info : Nat) : Bool :=
  if typ = 1 then
    (if info = 0 then aec.getLsbD 2 || aec.getLsbD 4 else if info = 1 then aec.getLsbD 1 else aec.getLsbD 0)
  else if typ = 2 then
    (if info = 0 then aec.getLsbD 8 else if info = 2 then aec.getLsbD 10
     else if info = 3 then aec.getLsbD 11 else aec.getLsbD 27)
  else true

/-- The same event type and information value. -/
def Aen.same (a : Aen) (typ info : Nat) : Bool := a.typ == typ && a.info == info

/-! ### Completions (R86 to R88, R417) -/

/-- The class of a queue's binding. -/
def sqClass (s : State) (func qid : Nat) : Option LClass :=
  match KV.find s.port.sqs (qkey func qid) with
  | some q => q.cls
  | none => none

/-- R417: statuses that take an Error Information entry. -/
def Status.logged : Status → Bool
  | .success | .c0 | .c2 => false
  | _ => true

/-- Status values of the Error Information entry: type and code (Table 14.6 for the vendor values; NVMe 2.0 for the others, PRESUMED). -/
def Status.code : Status → Nat
  | .success => 0x000 | .invalidOpcode => 0x001 | .invalidField => 0x002 | .dataTransferError => 0x004
  | .aborted => 0x007 | .abortedSqDeletion => 0x008 | .invalidNamespace => 0x00B | .sequenceError => 0x00C
  | .sglLengthInvalid => 0x00F | .sanitizeFailed => 0x01C | .sanitizeInProgress => 0x01D
  | .lbaOutOfRange => 0x080 | .capacityExceeded => 0x081 | .namespaceNotReady => 0x082 | .formatInProgress => 0x084
  | .completionQueueInvalid => 0x100 | .invalidQueueId => 0x101 | .invalidQueueSize => 0x102
  | .abortLimitExceeded => 0x103 | .aerLimitExceeded => 0x105 | .invalidFirmwareSlot => 0x106
  | .invalidFirmwareImage => 0x107 | .invalidVector => 0x108 | .invalidLogPage => 0x109 | .invalidFormat => 0x10A
  | .invalidQueueDeletion => 0x10C | .featureNotSaveable => 0x10D | .featureNotChangeable => 0x10E
  | .overlappingRange => 0x114 | .insufficientCapacity => 0x115 | .nsidUnavailable => 0x116 | .controllerListInvalid => 0x11C | .nsAlreadyAttached => 0x118
  | .nsNotAttached => 0x11A | .invalidControllerId => 0x11F | .invalidSecondaryState => 0x120
  | .invalidResourceCount => 0x121
  | .zoneBoundaryError => 0x1B8 | .zoneIsFull => 0x1B9 | .zoneIsReadOnly => 0x1BA | .zoneIsOffline => 0x1BB
  | .zoneInvalidWrite => 0x1BC | .tooManyActive => 0x1BD | .tooManyOpen => 0x1BE | .zoneInvalidTransition => 0x1BF
  | .unrecoveredRead => 0x281 | .guardCheck => 0x282 | .appTagCheck => 0x283 | .refTagCheck => 0x284
  | .anaPersistentLoss => 0x301 | .anaInaccessible => 0x302 | .anaTransition => 0x303
  | .c0 => 0x0C0 | .c1 => 0x0C1 | .c2 => 0x0C2 | .c3 => 0x0C3 | .c4 => 0x0C4 | .c5 => 0x0C5 | .c6 => 0x0C6 | .c7 => 0x0C7

/-- The entry of a vector in the MSI-X table. -/
def Ctrl.entry (c : Ctrl) (v : Nat) : Msix := KV.findD c.msix v {}

/-- Send a vector's message (R67, R76): none beyond the vectors assigned; a masked vector's bit of the pending-bit array is set instead. -/
def sendMsix (s : State) (func vec : Nat) : State :=
  let c := ctrl s func
  if c.vec ≤ vec then s
  else if (c.entry vec).masked then setCtrl s func (fun c => { c with pba := if c.pba.contains vec then c.pba else c.pba ++ [vec] })
  else { s with port := { s.port with msgs := s.port.msgs ++ [func * 65536 + vec] } }

/-- The completion queues of a function that a vector serves. -/
def onVector (func vec key : Nat) (q : Cq) : Bool := key / 65536 == func && q.vector == vec

/-- The completions held for aggregation on a vector (R88). -/
def heldOn (s : State) (func vec : Nat) : Nat := s.port.cqs.foldl (fun n p => if onVector func vec p.1 p.2 then n + p.2.held else n) 0

/-- Send a vector's message: it covers every completion held for aggregation on the vector (R88). -/
def sendVector (s : State) (func vec : Nat) : State :=
  sendMsix { s with port := { s.port with cqs := KV.mapVals s.port.cqs (fun k q => if onVector func vec k q then { q with held := 0 } else q) } } func vec

/-- A completion was posted on a completion queue (R88): its message is sent, or it is held until the threshold of the vector is reached. THR and TIME are 0's based and in 100 µs as NVMe 2.0 has them (PRESUMED). -/
def notify (s : State) (func cqid : Nat) (atOnce : Bool) : State :=
  match KV.find s.port.cqs (qkey func cqid) with
  | none => s
  | some q =>
    let c := ctrl s func
    if !q.ien then s
    else if atOnce || c.coalesce.toNat / 256 == 0 || c.coalesce.toNat % 256 ≤ heldOn s func q.vector then sendVector s func q.vector
    else { s with port := { s.port with
      cqs := KV.set s.port.cqs (qkey func cqid) { q with held := q.held + 1, heldAt := if q.held = 0 then s.time.dtb else q.heldAt } } }

/-- Completions held for the aggregation time are announced (R88). -/
def flushHeld (s : State) : State :=
  s.port.cqs.foldl (fun s p =>
    if (KV.find s.port.cqs p.1).any (fun q => q.held != 0 && q.heldAt + 100000 * ((ctrl s (p.1 / 65536)).coalesce.toNat / 256) ≤ s.time.dtb)
    then sendVector s (p.1 / 65536) p.2.vector else s) s

/-- Advance a completion queue past a posted entry: the tail, the phase at a wrap, one reservation used (R85 to R87). -/
def Cq.post (q : Cq) : Cq :=
  { q with
    tail := if q.tail + 1 = q.size then 0 else q.tail + 1
    phase := if q.tail + 1 = q.size then !q.phase else q.phase
    reserved := q.reserved - 1 }

/-- Post a completion queue entry for a command of a function's queue (R54, R60, R64, R86, R88, R417): nothing is posted in Measure or Harvest, or for a controller that is not ready, or where the queue no longer exists; a link in L1 is brought back to L0 first. Only Bulk and Unbound completions are held for aggregation. -/
def complete (s : State) (func sqid cid : Nat) (st : Status) (dw0 : Nat := 0) (dw1 : Nat := 0)
    (data : List Nat := []) : State :=
  if s.md.mode = .measure ∨ s.md.mode = .harvest then s
  else if (ctrl s func).rdy = false then s
  else
    match KV.find s.port.sqs (qkey func sqid) with
    | none => s
    | some sq =>
      match KV.find s.port.cqs (qkey func sq.cqid) with
      | none => s
      | some cq =>
        let c := ctrl s func
        let atOnce := !(sq.cls == some .bulk || sq.cls == some .unbound) || sqid == 0 || c.vecNoCoalesce.contains cq.vector
        let e : Cqe := { func := func, sqid := sqid, cid := cid, status := st, dw0 := dw0, dw1 := dw1,
                         sqhd := sq.head, at_ := s.time.dtb, phase := cq.phase, data := data }
        let s := notify { s with
          port := { s.port with
            cqs := KV.set s.port.cqs (qkey func sq.cqid) cq.post
            posted := s.port.posted ++ [e]
            quietAt := s.time.dtb
            inL1 := false }
          md := if sqid = 0 then { s.md with lastAdminAt := s.time.dtb } else s.md } func sq.cqid atOnce
        if st.logged then
          setCtrl s func (fun c => { c with
            errCount := c.errCount + 1
            errs := (⟨sqid, cid, st, dw0⟩ :: c.errs).take 256 })
        else s

/-- Complete an admin command. -/
def adminDone (s : State) (e : Sqe) (st : Status) (dw0 : Nat := 0) (data : List Nat := []) : State :=
  complete s e.func 0 e.cid st dw0 0 data

/-- Who waits for an admin command that goes on after its step (R63): the function, and the resets its controller has had. -/
def ownerOf (s : State) (func : Nat) : Nat := func + 2^17 * (ctrl s func).life

/-- The function of such an owner. -/
def ownerFunc (owner : Nat) : Nat := owner % 2^17

/-- The owner's controller has not been reset since. -/
def ownerLives (s : State) (owner : Nat) : Bool := (ctrl s (ownerFunc owner)).life == owner / 2^17

/-- Complete an admin command that went on after its step: none is posted once its controller has been reset (R63). -/
def completeFor (s : State) (owner cid : Nat) (st : Status) (dw0 : Nat := 0) (data : List Nat := []) : State :=
  if ownerLives s owner then complete s (ownerFunc owner) 0 cid st dw0 0 data else s

/-- Raise an asynchronous event on one controller (R428): enabled, not pending already; it completes the oldest outstanding request, or waits for one. -/
def raiseAen (s : State) (func typ info log : Nat) : State :=
  let c := ctrl s func
  if !c.rdy || !aenEnabled c.aec typ info || (c.waiting ++ c.masked).any (fun a => a.same typ info) then s
  else
    match c.aers with
    | [] => setCtrl s func (fun c => { c with waiting := c.waiting ++ [⟨typ, info, log⟩] })
    | cid :: rest =>
      complete (setCtrl s func (fun c => { c with aers := rest, masked := c.masked ++ [⟨typ, info, log⟩] }))
        func 0 cid .success (typ + info * 2^8 + log * 2^16)

/-- Raise an asynchronous event on every controller. -/
def raiseAll (s : State) (typ info log : Nat) : State :=
  s.port.ctrls.foldl (fun s p => raiseAen s p.1 typ info log) s

/-! ### The event journal (R419 to R424) -/

/-- Severity of an event type (Table 14.9); `a` is the first or deciding payload value. -/
def evSeverity (typ a : Nat) : Nat :=
  if typ = 0x10 then (if a = 7 then 3 else 1)
  else if typ = 0x36 then (if a = 1 then 1 else 3)
  else if typ = 0x50 then (if a = 3 then 3 else 2)
  else if [0x13, 0x22, 0x33, 0x64, 0x71].contains typ then 3
  else if [0x01, 0x20, 0x21, 0x30, 0x39, 0x41, 0x51, 0x60, 0x62].contains typ then 2
  else 1

/-- VF_ALL of an event type (Table 14.9). -/
def evVfAll (typ : Nat) : Bool := [0x10, 0x11, 0x13, 0x43, 0x50, 0x51, 0x60, 0x72].contains typ

/-- R423: the types no bucket limits. -/
def evExempt (typ : Nat) : Bool := [0x01, 0x02, 0x10, 0x43].contains typ

/-- R423: the time in which a bucket regains one entry. -/
def bucketNs : Nat := 15625000

/-- R424: entries of the ring that ordinary events may fill; one stays free for the loss summary. -/
def ringRoom : Nat := 1023

/-- Append an entry to the ring and take its sequence number (R419, R421). -/
def pushEvent (s : State) (typ sev : Nat) (func : Option Nat) (nsid : Nat) (payload : List Nat) : State :=
  let e : Ev := { seq := s.ev.seq, dtb := s.time.dtb, boot := s.boot.boot, typ := typ, sev := sev,
                  vfAll := evVfAll typ, timeSrc := s.time.src, mode := s.md.mode.code, func := func,
                  nsid := nsid, payload := payload }
  { s with ev := { s.ev with seq := s.ev.seq + 1, ring := s.ev.ring ++ [e] } }

/-- Record an event (R422 to R425): counted; suppressed where its bucket is empty; lost where the ring has no room; else written, and the event of log C5h raised where Table 14.14 says so. -/
def record (s : State) (typ : Nat) (payload : List Nat := []) (func : Option Nat := none) (nsid : Nat := 0)
    (key : Nat := 0) : State :=
  let t := KV.findD s.ev.types typ {}
  let t := { t with total := min (t.total + 1) (2^64 - 1) }
  if !evExempt typ && t.bucket == 0 then
    { s with ev := { s.ev with
      suppressedTotal := s.ev.suppressedTotal + 1
      types := KV.set s.ev.types typ { t with
        suppressed := min (t.suppressed + 1) (2^32 - 1)
        pend := t.pend + 1
        pendFirst := if t.pend = 0 then s.time.dtb else t.pendFirst
        pendLast := s.time.dtb } } }
  else if ringRoom ≤ s.ev.ring.length then
    let first := !s.ev.lossPending
    let s := { s with ev := { s.ev with
      lossPending := true
      lostTotal := s.ev.lostTotal + 1
      lossCount := s.ev.lossCount + 1
      lossFirst := if s.ev.lossCount = 0 then s.time.dtb else s.ev.lossFirst
      lossLast := s.time.dtb
      types := KV.set s.ev.types typ { t with lost := min (t.lost + 1) (2^32 - 1) } } }
    if first then raiseAll s 7 0xC5 0xC5 else s
  else
    let t := if evExempt typ then t else { t with bucket := t.bucket - 1, regainAt := if t.bucket = 64 then s.time.dtb + bucketNs else t.regainAt }
    let sev := evSeverity typ key
    let s := pushEvent { s with ev := { s.ev with types := KV.set s.ev.types typ t } } typ sev func nsid payload
    if 2 ≤ sev || typ == 0x10 then raiseAll s 7 0xC5 0xC5 else s

/-- Record a change of the flags between two states (R47, 0011h). -/
def noteFlags (before s : State) : State :=
  if flagsCode before.md = flagsCode s.md then s
  else record s 0x11 [flagsCode before.md, flagsCode s.md]

/-- The doorbell stamps of the entries not yet fetched. -/
def waitingStamps (s : State) : List Nat := s.port.sqs.flatMap (fun p => p.2.stamps)

/-- Keep the present mode and flags for the entries stamped under them (R54). -/
def keepMode (s : State) : State :=
  let w := waitingStamps s
  { s with hist := (s.hist ++ [(s.time.dtb, s.md)]).filter (fun h => w.any (fun t => t < h.1)) }

/-- The mode and flags in force at a doorbell stamp (R54). -/
def modeAt (s : State) (stamp : Nat) : ModeSt := ((s.hist.find? (fun h => stamp < h.1)).map (fun h => h.2)).getD s.md

/-- Change the flags and record the change (R42, R47). -/
def setFlags (s : State) (f : ModeSt → ModeSt) : State :=
  noteFlags s { (if flagsCode (f s.md) = flagsCode s.md then s else keepMode s) with md := f s.md }

/-- Recompute the power state in force, the flash budget and capped (R72, R42). -/
def refreshPower (s : State) : State :=
  let s := { s with
    pw := { s.pw with now := psNow s, flashMw := flashBudget s.part (psNow s) }
    th := { s.th with minNow := { s.th.minNow with psDeep := max s.th.minNow.psDeep (psNow s) } } }
  setFlags s (fun m => { m with capped := cappedNow s })

/-! ### Namespaces and path states (R91) -/

/-- The namespace of an NSID. -/
def nsOf (s : State) (nsid : Nat) : Option Ns := KV.find s.zn.ns nsid

/-- The twin shows write-through raised (Table 10.8 FLAGS). -/
def twinWt (s : State) : Bool := s.tw.peerFlags / 8 % 2 == 1

/-- Change a namespace. -/
def setNs (s : State) (nsid : Nat) (g : Ns → Ns) : State :=
  { s with zn := { s.zn with ns := KV.adj s.zn.ns nsid g } }

/-- The ANA state of a namespace on this controller side (R40, R45, Table 3.9; a copy fenced after a link fault is Inaccessible by R91 and R320). A namespace with lost LBAs that is to be deleted reads Persistent Loss in every mode, where R40 and Table 2.9 give Inaccessible for single namespaces in Quarantine (DEDUCED from Table 10.14, log 114). -/
def anaOf (s : State) (n : Ns) : Ana :=
  let solo : Ana := if n.here then .optimized else .inaccessible
  let service : Ana := if n.here then .optimized else .nonOptimized
  let fenced (a : Ana) : Ana := if n.mirrored && n.fenced then .inaccessible else a
  if n.ploss then .persistentLoss
  else if s.th.shut != 0 then .inaccessible
  else match s.md.mode with
    | .measure | .recovery => .change
    | .pairing => if s.md.pairServing then fenced solo else .change
    | .service => service
    | .solo => fenced solo
    | .holiday =>
      if s.md.holidayFrom == .service then
        (if n.mirrored then .inaccessible else service)
      else fenced solo
    | .harvest => n.anaShown
    | .quarantine =>
      if s.md.qcause = 4 && !n.mirrored && n.here then n.anaShown else .inaccessible

/-- Show a namespace's new path state, and keep the one it leaves for the entries stamped under it (R92). -/
def Ns.showAna (n : Ns) (a : Ana) (now count : Nat) (stamps : List Nat) : Ns :=
  { n with anaShown := a, anaCount := count, paths := (n.paths ++ [(now, n.anaShown)]).filter (fun h => stamps.any (fun t => t < h.1)) }

/-- The path state of a namespace at a doorbell stamp, of the states shown since (R92). -/
def Ns.pathAt (n : Ns) (stamp : Nat) : Option Ana := (n.paths.find? (fun h => stamp < h.1)).map (fun h => h.2)

/-- Bring the ANA log up to date and raise the change event on the controllers a changed namespace is attached to (R92). -/
def updateAna (s : State) : State :=
  s.zn.ns.foldl (fun s p =>
    let a := anaOf s p.2
    if a = p.2.anaShown then s
    else
      let s := { s with zn := { s.zn with anaCount := s.zn.anaCount + 1 } }
      p.2.attached.foldl (fun s f => raiseAen s f 2 3 0x0C) (setNs s p.1 (fun n => n.showAna a s.time.dtb s.zn.anaCount (waitingStamps s)))) s

/-! ### Readiness and mode changes (R41, R43, R52) -/

/-- R52: whether an enabled controller is ready under a mode it has reached. -/
def readyNow (s : State) (c : Ctrl) : Bool :=
  c.en && !c.cfs && s.md.mode != .measure &&
    (c.crime || c.rdy || s.boot.firstReady.isSome || s.md.mode == .service || s.md.mode == .solo || s.md.mode == .quarantine)

/-- A bit of the Composite Controller Status becomes set (R434; the places are those of NVMe-MI 1.2, PRESUMED): 0 RDY, 9 composite temperature, 10 Percentage Used, 11 spare, 12 Critical Warning. -/
def ccsSet (s : State) (k : Nat) : State := { s with adm := { s.adm with ccs := s.adm.ccs ||| BitVec.ofNat 16 (2^k) } }

/-- Set CSTS.RDY of every controller whose point of R52 has come. -/
def updateReady (s : State) : State :=
  let r := { s with port := { s.port with ctrls := KV.mapVals s.port.ctrls (fun _ c => { c with rdy := c.rdy || readyNow s c }) } }
  if r.port.ctrls = s.port.ctrls then r else ccsSet r 0

/-- Change the mode (R38, R41): PREV_MODE, MODE_SEQ, the cause; the event 0010h; readiness; path states. -/
def enterMode (s : State) (m : Mode) (qcause : Nat := 0) (serving : Bool := false) : State :=
  let md := { s.md with mode := m, prev := s.md.mode, qcause := qcause, pairServing := serving, seq := s.md.seq + 1 }
  let s1 := { keepMode s with md := md }
  let s2 := record s1 0x10 [s.md.mode.code, m.code, qcause, (s.md.seq + 1).toNat] none 0 m.code
  updateAna (refreshPower (updateReady s2))

/-! ### Sizes of an LBA (Table 3.11) -/

/-- 4 KiB units of one LBA of a format: 1 in formats 0 to 2, 4 in formats 3 to 5. -/
def unitsPerLba (flbas : Nat) : Nat := if flbas < 3 then 1 else 4

/-- Metadata bytes of one LBA of a format (Table 3.11). -/
def metaBytes (flbas : Nat) : Nat := if flbas % 3 = 0 then 0 else if flbas % 3 = 1 then 8 else 64

/-- Bytes of one LBA that a command carries, host metadata included (R259). -/
def lbaBytes (flbas : Nat) : Nat := 4096 * unitsPerLba flbas

/-- LBA bytes of a namespace, host metadata included. -/
def nsLba (s : State) (nsid : Nat) : Nat := (nsOf s nsid).elim 4096 (fun n => lbaBytes n.flbas + metaBytes n.flbas)

/-! ### Free values -/

/-- Draw the next free value: a value the spec leaves open. -/
def drawFree (s : State) : Nat × State := (Config.freeValue s.free, { s with free := s.free + 1 })

/-! ### Islands and the device time base (R16, R21, R22, Table 16.5) -/

/-- The island codes of Table 16.5. -/
def islands : Nat := 9

/-- Where an island's copy of the time base is kept: by its code, the channel islands one after another. -/
def copyIx (island channel : Nat) : Nat := if island < 6 then island else if island = 6 then 6 + channel else island + 31

/-- The reading of the host island's copy (R21, R73). -/
def hostTime (s : State) : Nat := nth s.time.copies 0

/-- A rank with no access for 2 µs enters power-down (R481). -/
def Rank.idle (r : Rank) (now : Nat) : Rank := if r.state = .active ∧ r.at_ + 2000 ≤ now then { r with state := .powerDown } else r

/-- Every rank enters a power state (R481, Table 15.11, Table 16.5). -/
def setRanks (s : State) (r : RankState) : State := { s with it := { s.it with ranks := s.it.ranks.map (fun _ => { state := r, at_ := s.time.dtb }) } }

/-- An access to DRAM wakes the ranks (R481). The spec does not say which channel holds which data: every rank is taken as accessed (DESIGN CHOICE, log 104). -/
def touchDram (s : State) : State :=
  { s with it := { s.it with ranks := s.it.ranks.map (fun r => if r.state = .selfRefresh then r else { state := .active, at_ := s.time.dtb }) } }

/-- The time base moves on to an instant (R21, R22): each island's copy advances with it, and one that was ahead stands still until the master has caught up; the cipher engine works, and idle ranks power down. -/
def passTime (s : State) (t : Nat) : State :=
  { s with
    time := { s.time with dtb := t, copies := s.time.copies.map (fun c => max c t) }
    it := { s.it with engine := s.it.engine.run (t - s.time.dtb), ranks := s.it.ranks.map (fun r => r.idle t) } }

end Sys2Proof.Machine
end

