-- ==== Sys2Proof/Machine/Clock.lean ====
section
/-! DEFINITION. The master counter of the device time base (R21). -/

namespace Sys2Proof.Machine

/-- Whether the master counter runs: powered and not in Holiday, where the always-on clock keeps time instead (R435, R441). -/
def counterRuns (s : State) : Bool := s.sup.rails && s.md.mode != .holiday

/-- One tick of 8 ns of the 125 MHz reference (R21). -/
def tick (s : State) : State :=
  if counterRuns s then passTime s ((s.time.dtb + 8) % 2^64) else s

end Sys2Proof.Machine
end

