-- ==== Sys2Proof/Machine/Operands.lean ====
section
/-! DEFINITION. Operand forms: fields of submission dwords and of data buffers, LBA geometry, the place of a unit in a stripe, array times. -/

namespace Sys2Proof.Machine

/-- Bits lo to lo + n − 1 of a dword. -/
def fld (w : BitVec 32) (lo n : Nat) : Nat := w.toNat / 2^lo % 2^n

/-- A little-endian number of `n` bytes at offset `o` of a data buffer (R11). -/
def le (d : List Nat) (o n : Nat) : Nat :=
  (List.range n).foldl (fun a i => a + nth d (o + i) * 2^(8*i)) 0

/-- The bytes of a number, little-endian (R11). -/
def leBytes (n v : Nat) : List Nat := (List.range n).map (fun i => v / 2^(8*i) % 256)

/-- Byte `i` of a little-endian number. -/
def byteOf (v i : Nat) : Nat := v / 2^(8*i) % 256

/-- All bytes of `d` in a range are zero. -/
def zeroRange (d : List Nat) (lo hi : Nat) : Bool := (List.range (hi - lo)).all (fun i => nth d (lo + i) == 0)

/-- Division rounded up. -/
def ceilDiv (a b : Nat) : Nat := (a + b - 1) / b

/-! ### LBA geometry (Table 3.11, R95, R188) -/

/-- ZSZE in LBAs (R95). -/
def zoneSize (flbas : Nat) : Nat := 4194304 / unitsPerLba flbas

/-- Bits per cell of a density: QLC 4, PLC 5, SLC-resident 1 (Table 7.1). -/
def cellBits (density : Nat) : Nat := if density = 0 then 4 else if density = 1 then 5 else 1

/-- 4 KiB units of one stripe word line: 4 planes × levels × data members × 4 codewords (R188). -/
def wordLineUnits (density members : Nat) : Nat := 16 * cellBits density * members

/-- Word lines of a block set (R187). -/
def wordLines : Nat := 1024

/-- Zone capacity in LBAs (Table 4.1). -/
def zoneCap (density members flbas : Nat) : Nat := wordLines * wordLineUnits density members / unitsPerLba flbas

/-- A Reshape to mirrored runs: both modules hold the namespace's slots (R97, R253). -/
def Ns.becoming (n : Ns) : Bool := n.reshape.any (fun r => r.toMirrored)

/-- This module holds the namespace's zones or map units. -/
def Ns.held (n : Ns) : Bool := n.mirrored || n.here || n.becoming

/-- The twin holds them. -/
def Ns.heldByTwin (n : Ns) : Bool := n.mirrored || !n.here || n.becoming

/-- It is attached to a function of this module or of the twin (R48). -/
def Ns.attachedOnPair (n : Ns) : Bool := !n.attached.isEmpty || !n.attachedTwin.isEmpty

/-- Zones of a zoned namespace. -/
def Ns.zoneCount (n : Ns) : Nat := n.nsze / zoneSize n.flbas

/-- The zone at an index; an unlisted zone is Empty (R99). -/
def Ns.zone (n : Ns) (i : Nat) : Zone := KV.findD n.zones i {}

/-- The capacity a zone reports: fixed once it has left Empty, else the QLC capacity with 30 members (R106). -/
def Ns.zoneCapNow (n : Ns) (i : Nat) : Nat :=
  let z := n.zone i
  if z.st = .empty then zoneCap 0 30 n.flbas else z.cap

/-- The module zone number of a zone (R96). -/
def Ns.znum (n : Ns) (i : Nat) : Nat := nth n.znums i

/-- The key of an LBA in the content store. -/
def lbaKey (nsid lba : Nat) : Nat := nsid * 2^64 + lba

/-! ### Where a unit lies (R188, R222) -/

/-- A unit's place: stripe row, data page and codeword. -/
structure Place where
  row : Nat
  page : Nat
  cw : Nat
  deriving DecidableEq, Repr

/-- R188: the place of 4 KiB unit `u` of a zone with a layout of `members` data members. -/
def placeOf (members u : Nat) : Place :=
  { row := u / (4 * members), page := u % (4 * members) / 4, cw := u % 4 }

/-- R222: the layout's positions, the dead one left out in the contracted layout. -/
def layoutPos (members : Nat) (dead : Option Nat) : List Nat :=
  if members = 30 then List.range 32 else (List.range 32).filter (fun p => some p != dead)

/-- R222: the position of data page k of row r. -/
def dataPos (members : Nat) (dead : Option Nat) (r k : Nat) : Nat :=
  let l := layoutPos members dead
  nth l ((r / 4 + 2 + k) % l.length)

/-- R222: the positions of P and Q of row r. -/
def pPos (members : Nat) (dead : Option Nat) (r : Nat) : Nat :=
  let l := layoutPos members dead
  nth l (r / 4 % l.length)

def qPos (members : Nat) (dead : Option Nat) (r : Nat) : Nat :=
  let l := layoutPos members dead
  nth l ((r / 4 + 1) % l.length)

/-! ### GF(2^8) parity (R223) -/

/-- Multiplication by the generator 02h in GF(2^8) with polynomial 11Dh. -/
def gfDouble (a : Nat) : Nat := if 128 ≤ a then (2 * a) ^^^ 0x11D else 2 * a

/-- P of the data bytes at one offset. -/
def parityP (ds : List Nat) : Nat := ds.foldl (· ^^^ ·) 0

/-- Q of the data bytes at one offset, page 0 first. -/
def parityQ (ds : List Nat) : Nat := ds.reverse.foldl (fun a d => gfDouble a ^^^ d) 0

/-! ### Dies (R157, R164, R220) -/

/-- The die index d = c × dies per channel + i (R220). -/
def dieIx (p : Part) (c i : Nat) : Nat := c * p.diesPerChannel + i

/-- Channel and ordinal of a die index. -/
def dieCh (p : Part) (d : Nat) : Nat := d / p.diesPerChannel
def dieOrd (p : Part) (d : Nat) : Nat := d % p.diesPerChannel

/-- A die as built: a member of group i at position c, or a free spare. -/
def dieBuilt (p : Part) (d : Nat) : Die :=
  if dieOrd p d < p.groups then { group := some (dieOrd p d), pos := some (dieCh p d) }
  else { state := .spareFree }

/-- The die of an index. -/
def dieOf (s : State) (d : Nat) : Die := KV.findD s.media.dies d (dieBuilt s.part d)

/-- Change a die. -/
def setDie (s : State) (d : Nat) (g : Die → Die) : State :=
  { s with media := { s.media with dies := KV.upd s.media.dies d (dieBuilt s.part d) g } }

/-- Number of dies. -/
def dieCount (p : Part) : Nat := 32 * p.diesPerChannel

/-- The die that holds position p of group g now: a spare that has taken it over, else the die as built. -/
def memberDie (s : State) (g p : Nat) : Nat :=
  match s.media.dies.find? (fun x => x.2.group == some g && x.2.pos == some p && x.2.state != .failed) with
  | some x => x.1
  | none => dieIx s.part p g

/-! ### Block sets (R187, Table 7.3) -/

/-- The key of block set b of die d. -/
def setKey (d b : Nat) : Nat := d * 2048 + b

/-- The role of an index at manufacture (Table 7.3). -/
def roleAt (b : Nat) : Role :=
  if b < 1936 then .zone else if b < 2000 then .staging else if b < 2016 then .metaMap
  else if b < 2030 then .system else if b < 2032 then .reference else .landing

/-- A block set as at manufacture: erased and free, the reference sets programmed. -/
def setBuilt (k : Nat) : BSet :=
  if roleAt (k % 2048) = .reference then { role := .reference, state := .inUse, mode := 0, headed := true, coarse := 1024, final := 1024 }
  else { role := roleAt (k % 2048) }

def bsetOf (s : State) (k : Nat) : BSet := KV.findD s.media.sets k (setBuilt k)

/-- A block set is the destination of a copy not yet switched: reads keep to the source (R215). -/
def copyDest (s : State) (k : Nat) : Bool := s.media.copies.any (fun c => setKey c.dstDie c.dst == k || c.cont.contains k)

/-- The set in use for a zone on a die, the newest where others continue it (R217). -/
def zoneSet (s : State) (d nsid i : Nat) : Option Nat :=
  let l := s.media.sets.filter (fun x => x.1 / 2048 == d && x.2.role == .zone && x.2.nsid == nsid && x.2.zone == i
    && (x.2.state == .inUse || x.2.state == .copying || x.2.state == .continued) && !copyDest s x.1)
  (l.find? (fun x => !l.any (fun y => y.2.contOf == x.1 % 2048))).map (·.1)

/-- A die that a rebuild still writes, or that cannot be read: failed and not taken over, or its channel island is in reset after a fault (R225, R484). -/
def dieUnreadable (s : State) (d : Nat) : Bool :=
  match (dieOf s d).state with
  | .healthy => s.it.faulted.contains (6 * 32 + dieCh s.part d)
  | _ => true

/-- The block set of a die that a unit lies in: that of a zone, or one of an SLC role by its index. -/
inductive SetRef where
  | zone (nsid i : Nat) | slc (b : Nat)
  deriving DecidableEq, Repr

/-- The block set of a die that a reference names, if the die has one in use. -/
def refSet (s : State) (d : Nat) : SetRef → Option Nat
  | .zone nsid i => zoneSet s d nsid i
  | .slc b =>
    let x := bsetOf s (setKey d b)
    -- the partial copy of a set on a spare is never read (R233)
    if x.state = .free || (x.state == .copying && (dieOf s d).state == .spareWriting) then none else some (setKey d b)

/-- A member that is an erasure for a block set (R172, R225): a die that cannot be read, or a spare being written on which that set is not yet in use; a set that has been switched (R233), or was bound on the spare, reads there. -/
def setUnreadable (s : State) (d : Nat) (ref : SetRef) : Bool :=
  if (dieOf s d).state = .spareWriting then s.it.faulted.contains (6 * 32 + dieCh s.part d) || (refSet s d ref).isNone
  else dieUnreadable s d

/-- A group's record. -/
def grpOf (s : State) (g : Nat) : Grp := KV.findD s.media.groups g {}

def setGrp (s : State) (g : Nat) (f : Grp → Grp) : State :=
  { s with media := { s.media with groups := KV.upd s.media.groups g {} f } }

/-- Data members of a group's present layout (R95, R222). -/
def groupMembers (s : State) (g : Nat) : Nat := if (grpOf s g).dead.isSome then 29 else 30

/-- First slot of a die's closed window (R164): a taken-over position keeps its window from the period boundary on. -/
def windowOf (p : Part) (d : Nat) (x : Die) : Nat :=
  match x.winGroup, x.group, x.pos with
  | some g, _, some q => 32 * ((q + g + 5) % 32)
  | _, some g, some q => if x.state = .spareWriting then 32 * ((dieCh p d + dieOrd p d + 5) % 32) else 32 * ((q + g + 5) % 32)
  | _, _, _ => 32 * ((dieCh p d + dieOrd p d + 5) % 32)

/-- The package of a die: three per channel (R190, Table 14.12). -/
def packageOf (p : Part) (d : Nat) : Nat := 3 * dieCh p d + min 2 (dieOrd p d / (p.diesPerChannel / 3))

/-- The band of a die is that of its package (R195). -/
def bandOf (s : State) (d : Nat) : Nat := nth s.th.bands (packageOf s.part d)

/-! ### Array times, ns (Tables 7.6 and 7.7) -/

/-- Cell modes by code: 0 QLC, 1 PLC, 2 SLC (Table 7.5 MODE). -/
def tRead (mode band : Nat) : Nat :=
  1000 * (if mode = 2 then nth [32, 26, 25, 27, 30] band
    else if mode = 0 then nth [86, 72, 70, 75, 82] band
    else nth [124, 100, 96, 103, 114] band)

/-- Array time of a program or erase; 0 where the operation is not released in the band. -/
def tOp (k : DieOpKind) (band : Nat) : Nat :=
  1000 * (match k with
    | .slc => nth [240, 190, 180, 185, 200] band
    | .qlcCoarse => nth [2200, 1850, 1800, 1840] band
    | .qlcFine => nth [3800, 3200, 3100, 3150, 3400] band
    | .plcCoarse => nth [2900, 2550, 2500, 2540] band
    | .plcFine => nth [6300, 5250, 5100, 5200, 5600] band
    | .erase => nth [7600, 5900, 5600, 5700, 6100] band)

/-! ### The host link (Table 3.1) -/

/-- Row of Table 3.1: 0 for 64 GT/s x8; each halving of rate × width is one row on. RATE code 1 to 4, width 1, 2, 4 or 8. -/
def linkRow (rate width : Nat) : Option Nat :=
  if rate = 0 ∨ 4 < rate then none
  else match width with
    | 8 => some (4 - rate)
    | 4 => some (5 - rate)
    | 2 => some (6 - rate)
    | 1 => some (7 - rate)
    | _ => none

/-- Usable port rate, bytes per µs (Table 3.1). -/
def portRate (rate width : Nat) : Nat :=
  match linkRow rate width with
  | some r => nth [60000, 30000, 15000, 7500, 3750, 1875, 940] r
  | none => 0

/-- Host crossing credits (Table 3.1). -/
def hostCredits (rate width : Nat) : Nat :=
  match linkRow rate width with
  | some r => nth [2048, 1024, 512, 256, 128, 64, 32] r
  | none => 0

/-- Time to move `bytes` at a rate of bytes per µs, ns, rounded up. -/
def xferNs (bytes rate : Nat) : Nat := if rate = 0 then 0 else ceilDiv (bytes * 1000) rate

/-- r_port of the present link. -/
def rPort (s : State) : Nat := portRate s.port.rate s.port.width

/-- r_link of the present Deroft link: 60,000 bytes per µs at x8 64 GT/s, in proportion to rate and width (R137, Table 10.1). -/
def rLink (s : State) : Nat := portRate s.tw.dRate s.tw.dWidth

end Sys2Proof.Machine
end

