-- ==== Sys2Proof/Machine/Buffers.lean ====
section
/-! DEFINITION. The buffer pool: free rings and their caches, allocation by segments, reference counts (R280, R467 to R471). -/

namespace Sys2Proof.Machine

/-! ### Pools (R467, R469) -/

/-- Take the buffer freed longest ago (R469); the cache refills 128 entries from the ring when it holds fewer than 64. -/
def Pool.take (p : Pool) : Option (Nat × Pool) :=
  match p.free with
  | [] => none
  | b :: r =>
    let c := p.cached - 1
    some (b, { free := r, cached := if c < 64 then min r.length (c + 128) else c })

/-- Free a buffer (R469); the cache spills 128 entries to the ring when it holds more than 224. -/
def Pool.give (p : Pool) (b : Nat) : Pool :=
  let c := p.cached + 1
  { free := p.free ++ [b], cached := if 224 < c then c - 128 else c }

/-- Free buffers of a pool. -/
def poolLen (p : List Pool) (i : Nat) : Nat := (p[i]?).elim 0 (fun x => x.free.length)

/-- Bytes of one buffer of a pool (Table 16.2). -/
def poolBytes (i : Nat) : Nat := 4096 * 4 ^ i

/-- Free bytes of the buffer pool. -/
def freeBytes (p : List Pool) : Nat := (List.range 4).foldl (fun a i => a + poolLen p i * poolBytes i) 0

/-- Bytes of a set of buffers, each named by pool × 2,048 + number. -/
def bufBytes (b : List Nat) : Nat := b.foldl (fun a x => a + poolBytes (x / 2048)) 0

/-! ### Allocation (R468) -/

/-- The pool that serves a segment: its own, else the next larger that has a free buffer. -/
def poolFor (p : List Pool) (lvl : Nat) : Option Nat := (List.range 4).find? (fun i => lvl ≤ i && 0 < poolLen p i)

/-- Take one buffer of a pool. -/
def takeFrom (p : List Pool) (i : Nat) : Option (Nat × List Pool) :=
  ((p[i]?).bind Pool.take).map (fun x => (i * 2048 + x.1, p.set i x.2))

/-- Allocate one segment of a pool's size; one that finds every larger pool empty is divided into four (R468). -/
def allocSeg : Nat → List Pool × List Nat → Option (List Pool × List Nat)
  | 0, (p, u) => (poolFor p 0).bind (fun i => (takeFrom p i).map (fun x => (x.2, u ++ [x.1])))
  | l + 1, (p, u) =>
    match poolFor p (l + 1) with
    | some i => (takeFrom p i).map (fun x => (x.2, u ++ [x.1]))
    | none => (allocSeg l (p, u)).bind (fun x => (allocSeg l x).bind (fun x => (allocSeg l x).bind (allocSeg l)))

/-- Allocate n segments of one size. -/
def allocMany (l : Nat) : Nat → List Pool × List Nat → Option (List Pool × List Nat)
  | 0, x => some x
  | k + 1, x => (allocSeg l x).bind (allocMany l k)

/-- Divide a command's data into segments and allocate them (R468): the pools left and the buffers taken. -/
def allocBufs (p : List Pool) (bytes : Nat) : Option (List Pool × List Nat) :=
  let u := ceilDiv bytes 4096
  ((((allocMany 3 (u / 64) (p, [])).bind (allocMany 2 (u % 64 / 16))).bind (allocMany 1 (u % 16 / 4))).bind (allocMany 0 (u % 4)))

/-! ### References (R280, R470) -/

/-- Give a buffer back to its pool. -/
def giveBuf (s : State) (b : Nat) : State :=
  { s with it := { s.it with pools := s.it.pools.modify (b / 2048) (fun p => p.give (b % 2048)), refs := KV.del s.it.refs b } }

/-- Set the reference count of each buffer of an allocation (R470). -/
def holdBufs (s : State) (bufs : List Nat) (n : Nat) : State :=
  { s with it := { s.it with refs := bufs.foldl (fun m b => KV.set m b n) s.it.refs } }

/-- Decrement a buffer's reference count (R470): at zero it is freed; below zero the decrement is refused, and a fault of the buffer island is due. -/
def decBuf (s : State) (b : Nat) : State :=
  match KV.findD s.it.refs b 0 with
  | 0 => { s with it := { s.it with decFault := true } }
  | 1 => giveBuf s b
  | n + 2 => { s with it := { s.it with refs := KV.set s.it.refs b (n + 1) } }

/-- One user drops its reference to each buffer of a command (R280); the last frees them. -/
def dropUser (s : State) (slot : Nat) (u : BufUser) : State :=
  match KV.find s.port.cmds slot with
  | none => s
  | some c =>
    if !c.users.contains u then s
    else
      let s := c.bufs.foldl decBuf s
      let left := c.users.erase u
      { s with port := { s.port with cmds := KV.set s.port.cmds slot { c with users := left, bufs := if left.isEmpty then [] else c.bufs } } }

/-- A command ends: every reference still held is dropped, and its part of the forward spill area is free again (R470, R471). -/
def freeBufs (s : State) (c : Cmd) : State :=
  let s := c.users.foldl (fun s _ => c.bufs.foldl decBuf s) s
  { s with it := { s.it with spill := s.it.spill - c.spilled } }

end Sys2Proof.Machine
end

