-- ==== Sys2Proof/Machine/Calendar.lean ====
section
/-! DEFINITION. The die calendar: budgets, tokens, claims, closed windows, rest slots, the reservation floor (chapter 6, R143, R151). -/

namespace Sys2Proof.Machine

/-- A slot is 8,000 ns; a period is 1,024 slots (R157). -/
def slotNs : Nat := 8000
def periodNs : Nat := 8192000

/-- The budget of a function that has none saved (R180). -/
def defaultBudget (f : Nat) : Budget :=
  if f = 0 then { chS := 2949120, rest := { s := 1024 } } else {}

/-- The budget in force for a function in a period: one set since the last boundary applies from the next (R179). -/
def budgetAt (s : State) (f period : Nat) : Budget :=
  let now := KV.findD s.cal.budgets f (defaultBudget f)
  if period ≤ s.cal.period then now else KV.findD s.cal.nextBudgets f now

/-- The number that stands for no group: a spare not yet in one holds no function's allotments. -/
def noGroup : Nat := 63

/-- Allotments of a budget on a group. -/
def Budget.on (b : Budget) (g : Nat) : Allot := if g = noGroup then {} else KV.findD b.groups g b.rest

/-- The stored allotment of a class on a group. -/
def Allot.ofClass (a : Allot) : LClass → Nat
  | .express => a.e
  | .standard => a.s
  | .bulk => a.b
  | .unbound => 0

def Budget.chOf (b : Budget) : LClass → Nat
  | .express => b.chE
  | .standard => b.chS
  | .bulk => b.chB
  | .unbound => 0

/-- The sum of a class's allotments on a group over all functions (Table 6.2). -/
def classSum (s : State) (cls : LClass) (g period : Nat) : Nat :=
  (List.range funcs).foldl (fun a f => a + ((budgetAt s f period).on g).ofClass cls) 0

def classChSum (s : State) (cls : LClass) (period : Nat) : Nat :=
  (List.range funcs).foldl (fun a f => a + (budgetAt s f period).chOf cls) 0

/-- The factor of throttling on a class in force in a period, in 256ths (R151, R453); periods not begun count in full (R143). -/
def throttleScale (s : State) (cls : LClass) (g period : Nat) : Nat :=
  if s.cal.period < period then 256
  else match cls with
    | .express => KV.findD s.cal.expScale g 256
    | .standard => KV.findD s.cal.stdScale g 256
    | .bulk => KV.findD s.cal.capBulk g 256
    | .unbound => 256

/-- The rebuild factor on Bulk in force in a period (R175). -/
def rebuildScale (s : State) (cls : LClass) (g period : Nat) : Nat :=
  if cls = .bulk ∧ period ≤ s.cal.period then KV.findD s.cal.bulkScale g 256 else 256

/-- The allotment of a class in force on a group's dies for a period, die-µs (R143, R175, R151). -/
def allotDie (s : State) (f : Nat) (cls : LClass) (g period : Nat) : Nat :=
  let a := ((budgetAt s f period).on g).ofClass cls
  a * rebuildScale s cls g period / 256 * throttleScale s cls g period / 256

/-! ### Channels (R163, R191) -/

/-- Trained rate of a channel, MT/s, by its code (Table 7.14); an unlisted channel is at full rate. -/
def chanRate (s : State) (c : Nat) : Nat :=
  match KV.find s.media.chans c with
  | none => 3600
  | some x => nth [0, 800, 1600, 2400, 3200, 3600] x.rate

/-- Period budget of a channel, bytes (R191). -/
def chanBudget (s : State) (c : Nat) : Nat := 29491200 * chanRate s c / 3600

def rebuildRuns (s : State) : Nat := s.media.rebuilds.countP (fun r => r.running)

/-- Channel bytes of a budget of a full-rate channel, in proportion to the channel's trained rate (R191). -/
def chPart (s : State) (c bytes : Nat) : Nat := bytes * chanRate s c / 3600

/-- The allotment factor of a degraded channel in 256ths (R191). -/
def chanFactor (s : State) (c period : Nat) : Nat :=
  if 3600 ≤ chanRate s c then 256
  else
    let b := classChSum s .express period + classChSum s .standard period + classChSum s .bulk period
    let a := chanBudget s c - chPart s c 2949120 - (if s.cal.rebuilding.isEmpty then 0 else chPart s c 5898240)
    if b = 0 then 256 else min 256 (256 * a / b)

/-- The channel allotment of a class in force on a channel for a period, bytes. -/
def allotCh (s : State) (f : Nat) (cls : LClass) (c period : Nat) : Nat :=
  let a := (budgetAt s f period).chOf cls * chanFactor s c period / 256
  if cls = .bulk ∧ period ≤ s.cal.period then a * s.cal.chBulkScale / 256 else a

/-! ### Tokens drawn (R143) -/

/-- Amount drawn by a function's class on a die or a channel in a period. -/
def drawn (s : State) (f : Nat) (cls : LClass) (period : Nat) (onCh : Bool) (unit : Nat) : Nat :=
  s.cal.draws.foldl (fun a d =>
    if d.func = f ∧ d.cls = cls ∧ d.period = period ∧ d.onChannel = onCh ∧ d.unit = unit then a + d.amount else a) 0

/-- The group whose allotments hold on a die: that of its window's position, or its own; a free spare is in none. -/
def dieGroup (s : State) (d : Nat) : Nat :=
  match (dieOf s d).winGroup with
  | some g => g
  | none => (dieOf s d).group.getD noGroup

/-- Sixteenths of a function's tokens on a group granted to the twin for a period (R146). -/
def lentOn (s : State) (f g period : Nat) : Nat :=
  s.cal.grantsOut.foldl (fun a x => if x.func = f ∧ x.group = g ∧ x.period = period then x.sixteenths else a) 0

/-- Tokens left on a die for the commands this module receives: the part granted to the twin is the twin's (R146); a period whose claims exceed its allotment has none left (R179). -/
def dieLeft (s : State) (f : Nat) (cls : LClass) (d period : Nat) : Nat :=
  allotDie s f cls (dieGroup s d) period * (16 - lentOn s f (dieGroup s d) period) / 16 - drawn s f cls period false d

def chLeft (s : State) (f : Nat) (cls : LClass) (c period : Nat) : Nat :=
  allotCh s f cls c period - drawn s f cls period true c

/-- The read-around reserve of a member in a period, die-µs (R173, Table 6.2). -/
def aroundReserve (s : State) (g period : Nat) : Nat := 15 * classSum s .express g period / 31

/-- Draws on the read-around reserve and share stand under this number, which is no function's (R173). -/
def aroundFunc : Nat := 128

/-- Read-around reserve left on a member in a period. -/
def aroundLeft (s : State) (d period : Nat) : Nat :=
  aroundReserve s (dieGroup s d) period - drawn s aroundFunc .express period false d

/-- Read-around share left on a channel in a period (Table 6.3). -/
def aroundChLeft (s : State) (c period : Nat) : Nat :=
  15 * classChSum s .express period / 31 - drawn s aroundFunc .express period true c

/-- What a die has used in a period of a budget counted for the present one. -/
def usedIn (s : State) (m : KV Nat) (key period : Nat) : Nat := if period = s.cal.period then KV.findD m key 0 else 0

/-- Background reserve left on a die in a period, die-µs (Table 6.2). -/
def backLeft (s : State) (d period : Nat) : Nat := 512 - usedIn s s.cal.backUsed d period

/-- Whether a rebuild runs on a group. -/
def groupRebuilding (s : State) (g : Nat) : Bool := s.media.rebuilds.any (fun r => r.running && r.group == g)

/-- The groups with a rebuild budget in a period: those set at its boundary (R175), or for one not begun those that rebuild now. -/
def rebuildsIn (s : State) (period : Nat) : List Nat :=
  if period ≤ s.cal.period then s.cal.rebuilding else (s.media.rebuilds.filter (fun r => r.running)).map (fun r => r.group)

/-- Rebuild budget left on a die in a period, die-µs (R162, R174). -/
def rebuildLeft (s : State) (d period : Nat) : Nat :=
  if (rebuildsIn s period).contains (dieGroup s d) && (dieOf s d).state == .healthy then 2048 - usedIn s s.cal.rebuildUsed d period else 0

/-- Codeword bytes of one array read of all four planes (R188). -/
def planeBytes : Nat := 16 * 4480

/-- Background reserve left on a channel in a period, bytes (Table 6.3). -/
def chBackLeft (s : State) (c period : Nat) : Nat := chPart s c 2949120 - usedIn s s.cal.chBackUsed c period

/-- Rebuild traffic left for one group on a channel in a period: an equal share of it (Table 6.3). -/
def chRebuildLeft (s : State) (g c period : Nat) : Nat :=
  let l := rebuildsIn s period
  if l.contains g then chPart s c 5898240 / l.length - usedIn s s.cal.chRebuildUsed (g * 32 + c) period else 0

/-! ### Free intervals (R159) -/

/-- Two intervals [a, b) and [c, d) overlap. -/
def overlaps (a b c d : Nat) : Bool := a < d && c < b

/-- The closed window of a die in a period (R164). -/
def windowStart (s : State) (d period : Nat) : Nat := period * periodNs + windowOf s.part d (dieOf s d) * slotNs

/-- [a, b) meets the closed window of die d in the period of a or of b. -/
def inWindow (s : State) (d a b : Nat) : Bool :=
  let w (k : Nat) := overlaps a b (windowStart s d k) (windowStart s d k + 256000)
  w (a / periodNs) || w (b / periodNs)

/-- [a, b) is free of the die's claims. -/
def claimFree (s : State) (d a b : Nat) : Bool :=
  s.cal.claims.all (fun c => c.die != d || !overlaps a b c.start (c.start + c.len))

/-- [a, b) is free of the die's rest slots. -/
def restFree (s : State) (d a b : Nat) : Bool :=
  (KV.findD s.cal.rests d []).all (fun n => !overlaps a b (n * slotNs) ((n + 1) * slotNs))

/-- [a, b) is free of claims, the closed window and rest slots of die d (R138, R159). -/
def freeAt (s : State) (d a b : Nat) : Bool := claimFree s d a b && restFree s d a b && !inWindow s d a b

/-- The first slot boundary at or after a time. -/
def nextSlot (t : Nat) : Nat := ceilDiv t slotNs * slotNs

/-- The earliest slot boundary in [t, tl] at which a test holds. -/
def firstSlot (ok : Nat → Bool) (tl : Nat) : Nat → Nat → Option Nat
  | 0, _ => none
  | fuel + 1, t => if tl < t then none else if ok t then some t else firstSlot ok tl fuel (t + slotNs)

/-- Slots a window of the longest bound spans. -/
def windowFuel (te tl : Nat) : Nat := (tl - te) / slotNs + 1

/-! ### The reservation floor (R161) -/

/-- Time of the period after `a` not held on a die, ns. -/
def unheld (s : State) (d a : Nat) : Nat :=
  let k := a / periodNs
  let e := (k + 1) * periodNs
  let within (x y : Nat) : Nat := min y e - max x a
  let held := (s.cal.claims.filter (fun c => c.die == d)).foldl (fun t c => t + within c.start (c.start + c.len)) 0
    + within (windowStart s d k) (windowStart s d k + 256000)
    + (KV.findD s.cal.rests d []).foldl (fun t n => t + within (n * slotNs) ((n + 1) * slotNs)) 0
  (e - a) - held

/-- Unspent tokens of a class on a die in a period, all functions, die-µs. -/
def unspent (s : State) (cls : LClass) (d period : Nat) : Nat :=
  (List.range funcs).foldl (fun a f => a + dieLeft s f cls d period) 0

/-- H: what the period must still hold on a die, ns (R161). -/
def floorH (s : State) (d period : Nat) : Nat :=
  1000 * (ceilDiv (16 * unspent s .express d period) 31 + unspent s .standard d period + unspent s .bulk d period
    + aroundLeft s d period + backLeft s d period + rebuildLeft s d period)

/-- The reservation floor holds after a claim [a, a + c) on die d. -/
def floorHolds (s : State) (d a c : Nat) : Bool :=
  floorH s d (a / periodNs) ≤ unheld s d a - c

/-- Place a claim. -/
def addClaim (s : State) (c : Claim) : State := { s with cal := { s.cal with claims := s.cal.claims ++ [c] } }

/-- Draw tokens. -/
def addDraw (s : State) (d : Draw) : State := { s with cal := { s.cal with draws := s.cal.draws ++ [d] } }

/-! ### Power weights (R36, R452; Table 15.7), mW -/

/-- Weight of an operation: read 17, program 60 (SLC), 65 (QLC, PLC), erase 55. -/
def weightOp : DieOpKind → Nat
  | .slc => 60
  | .erase => 55
  | _ => 65

def weightRead : Nat := 17

/-- The weight a claim carries from its start (R166): an array read, or a write-through program; a resume claim and an unused standing claim carry none of their own. -/
def ClaimKind.weight : ClaimKind → Nat
  | .resume | .standing => 0
  | .wtProgram => weightOp .slc
  | _ => weightRead

/-- Weight of what runs on all dies at a time, mW: the claims, and programs and erases not suspended (R36, R166). -/
def runningWeight (s : State) (t : Nat) : Nat :=
  (s.cal.claims.filter (fun c => c.start ≤ t && t < c.start + c.len)).foldl (fun a c => a + c.kind.weight) 0
    + s.media.dies.foldl (fun a p => match p.2.op with
        | some o => if o.suspended then a else a + weightOp o.kind
        | none => a) 0

/-- A die holds the window that begins at slot 32w: as built, or now. -/
def windowAt (s : State) (d w : Nat) : Bool := (dieOf s d).state != .failed && windowOf s.part d (dieOf s d) == 32 * w

/-- Dies in their closed windows at a time (R165): as built one on each ordinal, less those that left theirs or failed, and those that took one over. -/
def openWindows (s : State) (t : Nat) : Nat :=
  let w := t / slotNs % 1024 / 32
  let built (d : Nat) : Bool := (dieCh s.part d + dieOrd s.part d + 5) % 32 == w
  s.part.diesPerChannel - s.media.dies.countP (fun x => built x.1 && !windowAt s x.1 w)
    + s.media.dies.countP (fun x => !built x.1 && windowAt s x.1 w)

/-- The weight of a program held for each die then in its closed window (R165); none while the calendar is stopped. -/
def heldWeight (s : State) (t : Nat) : Nat := if s.cal.running then openWindows s t * 65 else 0

end Sys2Proof.Machine
end

