-- ==== Sys2Proof/Machine/Wire.lean ====
section
/-! DEFINITION. Messages to the twin: their bytes, flits, credits and counters, and the header of a journal record, which a mirror record carries (R11, R261, R292, R296 to R298, Tables 9.1 and 10.4 to 10.17). -/

namespace Sys2Proof.Machine

/-! ### Bytes (R11) -/

/-- Fields laid one after another, each of so many bytes, little-endian (R11); reserved fields are zero. -/
def layBytes (l : List (Nat × Nat)) : List Nat := l.flatMap (fun x => leBytes x.1 x.2)

/-- Zero bytes. -/
def zeroBytes (n : Nat) : List Nat := List.replicate n 0

/-- A zone descriptor extension, 64 bytes (Table 4.4). -/
def extBytes (e : Ext) : List Nat :=
  [e.density, e.heat, e.lifetime, 0] ++ leBytes 4 e.tag ++ leBytes 8 e.affinity ++ zeroBytes 48

/-! ### The header of a record (R261, Tables 9.1 and 9.2) -/

/-- The payload of a record's type (Table 9.2), 120 bytes. -/
def recPayload (s : State) (r : VRec) : List Nat :=
  let b := match r.typ with
    | 0x10 =>
      let v := if r.action = 9 then r.arg else (nsOf s r.nsid).elim 0 (fun n => (n.zone r.zidx).cap)
      [r.action, if r.action = 9 then 0 else r.arg, 0, 0] ++ leBytes 4 v ++ extBytes r.ext
    | 0x11 => [r.action, 0, 0, 0] ++ leBytes 4 r.arg
    | 0x20 => [r.action, 0, 0, 0] ++ leBytes 4 r.arg
    | 0x21 => [r.action, r.arg]
    | 0x30 | 0x31 => [dieCh s.part (r.action / 2048), dieOrd s.part (r.action / 2048)] ++ leBytes 2 (r.action % 2048) ++ leBytes 4 r.arg
    | 0x40 => leBytes 8 r.action ++ leBytes 8 r.arg
    | _ => []
  b ++ zeroBytes (120 - b.length)

/-- The bytes of a record's data pages: its LBAs with their host metadata. -/
def recData (s : State) (r : VRec) : List Nat := r.data.flatMap (leBytes (nsLba s r.nsid))

/-- The 256-byte header (Table 9.1). -/
def recHeader (s : State) (seq : Nat) (r : VRec) : List Nat :=
  let b := layBytes [(2, 0x564A), (1, 1), (1, r.typ), (1, bit r.mirrored + 2 * bit r.copy + 4 * bit r.forwarded + 8 * bit r.wt), (1, r.func), (2, r.pages),
      (8, seq), (8, r.oseq), (4, r.pepoch), (4, r.boot), (4, r.nsid), (4, r.zone), (8, r.slba), (4, r.nlb),
      (4, if r.pages = 0 then 0 else Config.crc32 (recData s r)), (8, r.stamp), (4, r.page0)]
    ++ zeroBytes 60 ++ recPayload s r
  b ++ leBytes 4 (Config.crc32 b) ++ zeroBytes 4

/-! ### Message bodies (Tables 10.7 to 10.17)

The model lists a body as field values; here it is laid out as bytes. -/

/-- A mirror record: the header of the record formed here, then its data. -/
def mirrorBytes (s : State) (b : List Nat) : List Nat :=
  match s.jr.recs.find? (fun p => !p.2.copy && p.2.oseq == nth b 1) with
  | some (q, r) => recHeader s q r ++ recData s r
  | none => []

/-- The submission entry in a forwarded command, its PRP and SGL fields zero (Table 10.8, NVMe 2.0). -/
def sqeBytes (b : List Nat) : List Nat :=
  let f (i : Nat) : Nat := nth b i
  let d12 := if f 0 = 0x7A then f 15 else if f 0 = 0x79 then 0 else f 3 - 1 + (if f 11 = 0 then 0 else 2^16)
  let d13 := if f 0 = 0x7A then f 12 + f 14 * 2^8 + f 13 * 2^16 else if f 0 = 0x79 then f 12 + f 14 * 2^8 else f 11 - 1
  layBytes [(1, f 0), (1, 0), (2, f 7), (4, f 1)] ++ zeroBytes 32 ++ layBytes [(8, f 2), (4, d12), (4, d13), (8, 0)]

/-- A forwarded command (Table 10.8): 128 bytes, then a write's data. -/
def forwardBytes (s : State) (b : List Nat) : List Nat :=
  let f (i : Nat) : Nat := nth b i
  sqeBytes b ++ layBytes [(1, f 4), (1, f 5), (2, f 6), (4, 0), (8, f 8), (8, f 9), (8, f 10)] ++ zeroBytes 32
    ++ (if f 0 = 1 ∨ f 0 = 0x7D then (b.drop 17).flatMap (leBytes (nsLba s (f 1))) else [])

/-- A HELLO body (Table 10.11), from its fields in their order. -/
def helloBytes (b : List Nat) : List Nat :=
  layBytes [(1, nth b 0), (1, nth b 1), (1, nth b 2), (1, nth b 3), (4, nth b 4), (8, nth b 5)] ++ (b.drop 6).take 40 ++ layBytes [(4, nth b 46), (4, nth b 47)]

/-- Pairing table entries (Table 10.13). -/
def entryBytes : List Nat → List Nat
  | nsid :: fl :: sep :: zones :: l => layBytes [(4, nsid), (1, fl), (3, 0), (4, sep), (4, zones), (16, 0)] ++ entryBytes l
  | _ => []

/-- The entries of a summary frame (R321), 40 bytes each. -/
def summaryBytes : List Nat → List Nat
  | z :: st :: wp :: reset :: oseq :: epoch :: l => layBytes [(4, z), (1, st), (3, 0), (8, wp), (8, reset), (8, oseq), (4, epoch), (4, 0)] ++ summaryBytes l
  | _ => []

/-- Values that stand with their keys: the values' bytes. -/
def pairBytes (n : Nat) : List Nat → List Nat
  | v :: _ :: l => leBytes n v ++ pairBytes n l
  | _ => []

/-- A resync or reshape frame (Table 10.17), then its data. -/
def frameBytes (s : State) (b : List Nat) : List Nat :=
  let f (i : Nat) : Nat := nth b i
  layBytes [(1, f 0), (3, 0), (4, f 1), (4, f 2), (4, f 3), (8, f 4), (8, f 5), (8, f 6), (1, f 7), (7, 0), (8, f 8), (4, f 9), (4, 0)]
    ++ (if f 0 = 7 then summaryBytes (b.drop 10) else pairBytes (nsLba s (f 1)) (b.drop 10))

/-- Fetch data: of each LBA, whether it is lost and its content. -/
def fetchBytes : List Nat → List Nat
  | _ :: v :: l => leBytes 4096 v ++ fetchBytes l
  | _ => []

/-- A heartbeat record (Table 10.9). -/
def beatBytes (b : List Nat) : List Nat :=
  let f (i : Nat) : Nat := nth b i
  layBytes [(1, f 0 + 8 * f 1 + 16 * f 2 + 32 * f 3), (1, f 4), (2, f 5), (4, f 6), (8, f 7), (8, f 8), (8, f 9)]

/-- Every third of a list. -/
def thirds : List Nat → List Nat
  | _ :: _ :: x :: l => x :: thirds l
  | _ => []

/-- The body of a message (Table 10.7). The spec gives no layout for the namespace of an Admin sync or for the result of the agreement: they follow the fields it names (DESIGN CHOICE, log 126). -/
def bodyBytes (s : State) (typ : Nat) (b : List Nat) : List Nat :=
  let f (i : Nat) : Nat := nth b i
  match typ with
  | 0x01 => mirrorBytes s b
  | 0x02 => layBytes [(8, f 0), (1, f 1), (8, f 2)]
  | 0x03 => layBytes [(1, f 0), (8, f 1), (4, f 2)]
  | 0x04 | 0x21 => forwardBytes s b
  | 0x05 | 0x22 => layBytes [(4, f 1), (4, f 2), (4, 0), (2, 0), (2, 2 * f 0)] ++ (b.drop 3).flatMap (leBytes 4096)
  | 0x06 => layBytes [(4, f 0), (2, f 1)]
  | 0x07 => leBytes 8 (f 0) ++ thirds (b.drop 1)
  | 0x08 => layBytes [(4, f 0), (1, f 1), (8, f 2), (4, f 3)]
  | 0x09 => leBytes 1 (f 0)
  | 0x0A => leBytes 8 (f 0)
  | 0x0B => leBytes 4 (f 0)
  | 0x0C => leBytes 1 (f 0) ++ layBytes ((List.range 6).map (fun i => (4, f (i + 2)))) ++ leBytes 4 (f 1) ++ (b.drop 8).flatMap (leBytes 4)
  | 0x0D => if f 0 = 0 then helloBytes (b.drop 1) else if f 0 = 1 then entryBytes (b.drop 1) else leBytes 1 (f 1)
  | 0x23 | 0x26 => frameBytes s b
  | 0x24 => layBytes [(4, f 0), (8, f 1), (4, f 2), (8, f 3)]
  | 0x25 => fetchBytes b
  | 0x41 => layBytes [(2, f 0), (2, f 1)]
  | 0x42 => beatBytes b
  | 0x43 => helloBytes b
  | _ => b

/-- LEN of a message: its body's bytes, padding and tag excluded. -/
def msgLen (s : State) (typ : Nat) (b : List Nat) : Nat :=
  let f (i : Nat) : Nat := nth b i
  match typ with
  | 0x01 => 256 + (if f 0 = 1 ∨ f 0 = 3 then f 6 * nsLba s (f 3) else 0)
  | 0x02 => 17 | 0x03 => 13
  | 0x04 | 0x21 => 128 + (if f 0 = 1 ∨ f 0 = 0x7D then f 3 * nsLba s (f 1) else 0)
  | 0x05 | 0x22 => 16 + (b.length - 3) * 4096
  | 0x06 => 6
  | 0x07 => 8 + (b.length - 1) / 3
  | 0x08 => 17 | 0x09 => 1 | 0x0A => 8 | 0x0B => 4
  | 0x0C => 29 + 4 * (b.length - 8)
  | 0x0D => if f 0 = 0 then 64 else if f 0 = 1 then 32 * ((b.length - 1) / 4) else 1
  | 0x23 | 0x26 => 64 + (if f 0 = 7 then 40 * ((b.length - 10) / 6) else f 3 * nsLba s (f 1))
  | 0x24 => 24
  | 0x25 => b.length / 2 * 4096
  | 0x41 => 4 | 0x42 => 32 | 0x43 => 64
  | _ => b.length

/-- A message as the cipher engine takes it (R296, R300, Table 10.6): the header, the body, zeros up to the next 16-byte boundary. -/
def msgImage (s : State) (typ tag : Nat) (b : List Nat) : List Nat :=
  let n := msgLen s typ b
  layBytes [(1, typ), (1, bit s.tw.keyPhase), (2, 0), (4, n), (4, tag), (4, s.jr.pepoch.toNat)] ++ bodyBytes s typ b ++ zeroBytes ((16 - n % 16) % 16)

/-! ### Flits, credits and counters (R292, R294, R296, R297, R302) -/

/-- Flits a message fills: header, body, padding and tag in flits of 240 bytes (R292, R296). -/
def msgFlits (len : Nat) : Nat := (16 + (len + 15) / 16 * 16 + 16 + 239) / 240

/-- The class of a message: 0 priority, 1 bulk, 2 link. -/
def msgClass (typ : Nat) : Nat := if typ < 0x20 then 0 else if typ < 0x40 then 1 else 2

/-- The KIND of the next payload flit (R294, R295, R297): link flits, then priority, then bulk, with at least one bulk flit in every 16 while bulk ones are ready; a priority or bulk flit needs a credit, and there is never a 513th unacknowledged flit. -/
def nextKind (t : Twin) : Option Nat :=
  let pri := nth t.waits 0 != 0 && t.crPri != 0
  let bulk := nth t.waits 1 != 0 && t.crBulk != 0
  if 512 ≤ t.replay.length then none
  else if bulk && 15 ≤ t.sinceBulk then some 1
  else if nth t.waits 2 ≠ 0 then some 2
  else if pri then some 0
  else if bulk then some 1
  else none

/-- Send one payload flit of a KIND: it takes the next FSEQ and a credit of its class, and is held for replay (R294, R297). -/
def sendFlit (t : Twin) (k : Nat) : Twin :=
  let ready := nth t.waits 1 != 0 && t.crBulk != 0
  { t with
    waits := modAt t.waits k (· - 1)
    fseqNext := (t.fseqNext + 1) % 1024
    replay := t.replay ++ [t.fseqNext]
    sinceBulk := if k = 1 ∨ !ready then 0 else t.sinceBulk + 1
    crPri := if k = 0 then t.crPri - 1 else t.crPri
    crBulk := if k = 1 then t.crBulk - 1 else t.crBulk }

/-- Send what may be sent, at most so many flits. -/
def sendFlits : Nat → Twin → Twin
  | 0, t => t
  | n + 1, t => (nextKind t).elim t (fun k => sendFlits n (sendFlit t k))

/-- Send the flits that wait, as far as the replay buffer and the credits allow. -/
def pumpFlits (t : Twin) : Twin := sendFlits 512 t

/-- Form the payload flits of a message of a class (R296). -/
def formFlits (t : Twin) (cls k : Nat) : Twin := pumpFlits { t with waits := modAt t.waits cls (· + k) }

/-- When the levels of the sense pair begin or cease to agree, the instant is kept (R305). -/
def noteSense (t : Twin) (here there : Bool) (now : Nat) : Twin :=
  { t with senseIn := here, peerSenseOut := there, senseAt := if (t.senseIn == t.peerSenseOut) = (here == there) then t.senseAt else now }

/-- The class of the command that a message's tag names, as a level of Table 13.3. -/
def tagLevel (s : State) (tag : Nat) : Nat :=
  match s.port.cmds.find? (fun p => (p.2.fromTwin || p.2.fwd) && p.2.tag == tag) with
  | some p => p.2.cls.code
  | none => 0

/-- The level of a message's GCM request (Table 13.3): a forwarded command and its answers by class, a mirror record that of its write. Messages that the table does not name, and records of no command, take level 0 (DESIGN CHOICE, log 103). -/
def msgLevel (s : State) (typ tag : Nat) (b : List Nat) : Nat :=
  match typ with
  | 0x01 => ((s.jr.recs.find? (fun p => p.2.oseq == nth b 1 && !p.2.copy)).bind (fun p => p.2.slot.bind (fun sl => KV.find s.port.cmds sl))).elim 0 (fun c => c.cls.code)
  | 0x04 | 0x21 => nth b 5
  | 0x05 | 0x06 | 0x22 => tagLevel s tag
  | _ => if typ < 0x23 then 0 else 4

/-- A message of the priority or the bulk class is one GCM request on the engine (R401). -/
def sealMsg (s : State) (typ tag : Nat) (body : List Nat) : State :=
  if msgClass typ = 2 then s
  else { s with it := { s.it with engine := s.it.engine.submit { id := 0, level := msgLevel s typ tag body, gcm := true, bytes := 16 + msgLen s typ body } } }

/-- The nonce of a message (R300): the IV salt of its class with the message counter XORed, as eight bytes, into bytes 4 to 11; link messages have none. -/
def msgNonce (s : State) (typ : Nat) : Nat :=
  if msgClass typ = 2 ∨ s.keys.linkSalts.isEmpty then 0
  else nth s.keys.linkSalts (msgClass typ) ^^^ (nth s.tw.counters (msgClass typ) % 2^64 * 2^32)

/-- Send a message to the twin over the link, if the link is up (Table 10.7 names the types): its image, flits, the message counter of its class. A heartbeat (42h) is a flit of its own kind and takes no FSEQ. -/
def send (s : State) (typ tag : Nat) (body : List Nat) : State :=
  if s.tw.linkUp then
    let t := if typ = 0x42 then s.tw else formFlits s.tw (msgClass typ) (msgFlits (msgLen s typ body))
    { sealMsg s typ tag body with tw := { t with
      counters := if msgClass typ = 2 then t.counters else modAt t.counters (msgClass typ) (· + 1)
      out := t.out ++ [{ hdr := { typ := typ, tag := tag, pepoch := s.jr.pepoch.toNat, phase := t.keyPhase }, body := body
                         image := msgImage s typ tag body, nonce := msgNonce s typ }] } }
  else s

end Sys2Proof.Machine
end

