-- ==== Sys2Proof/Machine/Parity.lean ====
section
/-! DEFINITION. What a physical page holds: its codewords, its system codeword with the page metadata and the block-set header, and the P and Q of a stripe row with the rebuilding of its erasures (R193, R194, R223, R224, R226, Tables 7.4 and 7.5). -/

namespace Sys2Proof.Machine

/-! ### The field GF(2^8) (R223, R293) -/

/-- Multiplication in GF(2^8) with polynomial 11Dh. -/
def gfMul (a b : Nat) : Nat :=
  ((List.range 8).foldl (fun (x : Nat × Nat) i =>
    (if b.testBit i then x.1 ^^^ x.2 else x.1, if 128 ≤ x.2 then (2 * x.2) ^^^ 0x11D else 2 * x.2)) (0, a)).1

/-- The n-th power of an element. -/
def gfPow (a : Nat) : Nat → Nat
  | 0 => 1
  | n + 1 => gfMul a (gfPow a n)

/-- The inverse of a nonzero element. -/
def gfInv (a : Nat) : Nat := gfPow a 254

/-- The generator's n-th power. -/
def gfGen (n : Nat) : Nat := gfPow 2 n

/-! ### P and Q (R223) -/

/-- P of the bytes at one offset of a row's data pages. -/
def pByte (d : List Nat) : Nat := d.foldl (· ^^^ ·) 0

/-- Q of them: data page k weighs g^k. -/
def qByte (d : List Nat) : Nat := d.zipIdx.foldl (fun a x => a ^^^ gfMul (gfGen x.2) x.1) 0

/-- The data bytes at one offset as a rebuild has them: an erasure weighs nothing. -/
def knownBytes (d : List (Option Nat)) : List Nat := d.map (·.getD 0)

/-- The data pages of a row that are erasures. -/
def lostPages (d : List (Option Nat)) : List Nat := (d.zipIdx.filter (fun x => x.1.isNone)).map (·.2)

/-- The erasures among a row's data pages rebuilt at one offset (R226): one by P, or by Q where P is an erasure as well; two by P and Q; none past that. -/
def rebuildBytes (d : List (Option Nat)) (p q : Option Nat) : Option (List Nat) :=
  let k := knownBytes d
  match lostPages d, p, q with
  | [], _, _ => some k
  | [i], some p, _ => some (modAt k i (fun _ => pByte k ^^^ p))
  | [i], none, some q => some (modAt k i (fun _ => gfMul (gfInv (gfGen i)) (qByte k ^^^ q)))
  | [i, j], some p, some q =>
    let a := pByte k ^^^ p
    let b := qByte k ^^^ q
    let x := gfMul (gfInv (gfGen i ^^^ gfGen j)) (b ^^^ gfMul (gfGen j) a)
    some (modAt (modAt k i (fun _ => x)) j (fun _ => a ^^^ x))
  | _, _, _ => none

/-! ### Codewords (R193) -/

/-- Data and host metadata of a user codeword: the ciphertext of its unit, and the metadata of the LBA that the unit lies in, its unused bytes zero. -/
def codewordData (s : State) (nsid : Nat) (n : Ns) (unit : Nat) : List Nat :=
  let u := unitsPerLba n.flbas
  let b := (KV.findD s.zn.store (nsid * 2^64 + unit / u) {})
  let c := Config.cipherText b.key (unit / u) b.val
  ((leBytes (lbaBytes n.flbas) c).drop (unit % u * 4096)).take 4096
    ++ leBytes (metaBytes n.flbas) (c / 2^(8 * lbaBytes n.flbas)) ++ zeroBytes (64 - metaBytes n.flbas)

/-- A user codeword as it lies on the page: 4,160 bytes and 320 bytes of LDPC parity. -/
def codeword (d : List Nat) : List Nat := d ++ (List.range 320).map (Config.ldpc d)

/-- The data pages of a row, by place: each codeword index and byte offset has one byte of each (R223, R224); a page without data holds zeros. -/
def parityData (f : List Nat → Nat) (pages : List (List Nat)) : List Nat :=
  (List.range 4160).map (fun b => f (pages.map (fun p => nth p b)))

/-! ### The system codeword (R193, R194) -/

/-- Page metadata, 128 bytes (Table 7.4). -/
def metaFields (x : PageMeta) : List Nat :=
  let b := layBytes [(2, 0x5A50), (1, 1), (1, x.role + 16 * x.density + 64 * bit x.parity + 128 * bit x.q), (4, x.nsid), (4, x.tag), (4, x.zone)]
    ++ x.units.flatMap (leBytes 4) ++ layBytes [(8, x.seq), (4, x.row), (1, x.group), (1, x.pos), (2, 0), (8, x.copySeq)]
  b ++ leBytes 4 (Config.crc32 b) ++ zeroBytes 68

/-- Role code of a set (Table 7.4). -/
def Role.code : Role → Nat
  | .zone => 0 | .staging => 1 | .metaMap => 2 | .metaLog => 3 | .system => 4 | .landing => 5 | .reference => 6 | .retired => 15

/-- Block-set header, 128 bytes (Table 7.5). -/
def headerFields (s : State) (k : Nat) : List Nat :=
  let x := bsetOf s k
  let d := dieOf s (k / 2048)
  let zone := if x.role = .zone then (nsOf s x.nsid).elim x.zone (fun n => (n.zone x.zone).oldNum.getD (n.znum x.zone)) else x.zone
  let b := layBytes [(2, 0x5A48), (1, 1), (1, x.role.code), (1, x.mode), (1, x.layout), (1, d.group.getD 0x3F), (1, d.pos.getD 0),
    (2, k % 2048), (2, 0), (4, x.erases), (8, x.openSeq), (4, x.openDay), (1, x.band), (3, 0), (4, x.nsid), (4, zone), (4, x.tag),
    (4, x.contOf), (4, x.contRow), (4, 0)]
  b ++ leBytes 4 (Config.crc32 b) ++ zeroBytes 68

/-- A page's key in the table of page metadata. -/
def pageKey (k row : Nat) : Nat := k * 32768 + row

/-- The fields of a page's system codeword: its metadata, and on word line 0 a copy of the header; erased where it is not programmed (R194). -/
def systemFields (s : State) (k row : Nat) : List Nat :=
  match KV.find s.media.pages (pageKey k row) with
  | none => List.replicate 256 0xFF
  | some x => metaFields x ++ (if row < 4 * cellBits (bsetOf s k).mode then headerFields s k else zeroBytes 128)

/-- The 18,432 bytes of a physical page: four user codewords, and the system codeword with its 256 bytes of parity. A data page's codewords hold their units; those of P and Q hold the parity of the row's data pages. -/
def pageBytes (s : State) (k row : Nat) (rowData : Nat → List (List Nat)) : List Nat :=
  let sys := systemFields s k row
  let tail := sys ++ (List.range 256).map (Config.ldpc sys)
  match KV.find s.media.pages (pageKey k row) with
  | none => List.replicate 18432 0xFF
  | some x => (List.range 4).flatMap (fun j =>
      if x.parity then codeword (parityData (if x.q then qByte else pByte) (rowData j))
      else match nsOf s x.nsid, nth x.units j with
        | _, 0xFFFFFFFF => codeword (zeroBytes 4160)
        | none, _ => codeword (zeroBytes 4160)
        | some n, u => codeword (codewordData s x.nsid n (if n.zoned then ((List.range n.zoneCount).find? (fun i => n.znum i == x.zone)).getD 0 * zoneSize n.flbas * unitsPerLba n.flbas + u else u))) ++ tail

end Sys2Proof.Machine
end

