-- ==== Sys2Proof/Machine/Places.lean ====
section
/-! DEFINITION. Where a 4 KiB unit lies on the media: in a zone's stripe, a staging or log row, a map unit (R125, R137, R188, R198, R222). -/

namespace Sys2Proof.Machine

/-- Where one 4 KiB unit of a namespace lies now. -/
inductive Src where
  | zeros | journal | die (d : Nat) (level row group members mode : Nat) (ref : SetRef)
  deriving DecidableEq, Repr

/-- A unit in a zone's stripe: the die that holds it. -/
def stripeSrc (s : State) (g members u mode : Nat) (ref : SetRef) : Src :=
  let p := placeOf members u
  .die (memberDie s g (dataPos members (grpOf s g).dead p.row p.page)) (p.row / 4) p.row g members mode ref

/-- The data members of an SLC set's layout in a group, by its set on a position that holds a die (R222, R247). -/
def slcLayout (s : State) (g b : Nat) : Nat :=
  (bsetOf s (setKey (memberDie s g (if (grpOf s g).dead = some 0 then 1 else 0)) b)).layout

/-- The `i`-th unit of a row of an SLC set (R188, R198). -/
def slcSrc (s : State) (g b row i : Nat) : Src :=
  let m := slcLayout s g b
  .die (memberDie s g (dataPos m (grpOf s g).dead row (i / 4))) (row / 4) row g m 2 (.slc b)

/-- An entry of the log's directory as a number: the log unit and the place; the log unit and the place of an entry. -/
def logCode (num g b row i : Nat) : Nat := num * 2^50 + ((g * 2048 + b) * 4096 + row) * 120 + i
def logNum (v : Nat) : Nat := v / 2^50
def logSrc (s : State) (v : Nat) : Src :=
  let w := v % 2^50
  slcSrc s (w / 120 / 4096 / 2048) (w / 120 / 4096 % 2048) (w / 120 % 4096) (w % 120)

/-- Where unit `u` of a metadata namespace lies in its map unit. A map unit that no merge has written has no place that the spec names: it is taken to start its set (DESIGN CHOICE, log 14). -/
def mapSrc (s : State) (nsid u : Nat) : Src :=
  match s.media.units.find? (fun x => x.nsid == nsid && !x.building && x.num == u / 4096) with
  | some x =>
    let m := 4 * slcLayout s x.group x.set
    slcSrc s x.group x.set (x.row + u % 4096 / m) (u % 4096 % m)
  | none => stripeSrc s (Config.metaGroup nsid (u / 4096) % s.part.groups) 30 (u % 4096) 2 (.slc 2000)

/-- 4 KiB units of a log unit of 256 MiB (R125). -/
def logUnits : Nat := 65536

/-- The group that holds the log of a metadata namespace: the spec names none (DESIGN CHOICE, log 14). -/
def logGroup (s : State) (nsid : Nat) : Nat := Config.metaGroup nsid (2^32) % s.part.groups

/-- The dies that hold the members of a group's present layout (R246, R247). -/
def groupDies (s : State) (g : Nat) : List Nat := (layoutPos (groupMembers s g) (grpOf s g).dead).map (fun p => memberDie s g p)

/-- A list with a value in it once. -/
def addOnce {α : Type} [DecidableEq α] (l : List α) (x : α) : List α := if x ∈ l then l else l ++ [x]

/-- The array reads that fetch units from the places they lie in: one for each die, set and page level (R137). -/
def arrayReads (l : List Src) : List (Nat × Nat) :=
  ((l.filterMap (fun x => match x with
    | .die d level _ _ _ mode ref => some (d, mode, ref, level)
    | _ => none)).foldl addOnce []).map (fun x => (x.1, x.2.1))

/-- Ask for background reads (R160). -/
def askReads (s : State) (job : BackJob) (l : List (Nat × Nat)) : State :=
  { s with cal := { s.cal with backReads := s.cal.backReads ++ l.map (fun x => { die := x.1, mode := x.2, job := job }) } }

end Sys2Proof.Machine
end

