-- ==== Sys2Proof/Machine/Journal.lean ====
section
/-! DEFINITION. The Vigil journal: size, shares, forming a record, settling a zone's records in order, completing a command, retirement (chapter 9, R145, R86). -/

namespace Sys2Proof.Machine

def mib : Nat := 1048576
def gib : Nat := 1073741824

/-! ### Size and shares (R259, R145, R277) -/

/-- V in bytes. -/
def vigilBytes (s : State) : Nat := s.sup.vigil * (gib / 4)

/-- Live bytes: the record sizes of the records held (R259). -/
def liveBytes (s : State) : Nat := s.jr.recs.foldl (fun a p => a + p.2.bytes) 0

/-- Functions' shares in MiB, all together. -/
def shareSum (s : State) : Nat :=
  (List.range funcs).foldl (fun a f => a + (budgetAt s f s.cal.period).share) 0

/-- Whether a function draws on the common share (R145). -/
def onCommon (s : State) (f : Nat) : Bool := (budgetAt s f s.cal.period).share == 0

/-- A function's share, or the common share, scaled by the present size (R145). -/
def shareBytes (s : State) (f : Nat) : Nat :=
  let m := if onCommon s f then 3072 - shareSum s else (budgetAt s f s.cal.period).share
  m * mib * s.sup.vigil / 12

/-- Bytes charged to a function's share, or by every function to the common one. -/
def shareUsed (s : State) (f : Nat) : Nat :=
  s.jr.recs.foldl (fun a p =>
    if !p.2.wt && p.2.nsid != 0 && (p.2.func == f || (onCommon s f && onCommon s p.2.func)) then a + p.2.bytes else a) 0

/-- Free share of a function. -/
def shareFree (s : State) (f : Nat) : Nat := shareBytes s f - shareUsed s f

/-- Sixteenths of a function's journal share granted to the twin for the present period (R146). -/
def lentSixteenths (s : State) (f : Nat) : Nat := s.cal.grantsOut.foldl (fun a x => if x.func = f then max a x.sixteenths else a) 0

/-- What the twin may still charge of a share: the part granted, less the records of forwarded commands. -/
def lentLeft (s : State) (f : Nat) : Nat :=
  shareBytes s f * lentSixteenths s f / 16 - s.jr.recs.foldl (fun a p => if p.2.forwarded && !p.2.copy && p.2.func == f then a + p.2.bytes else a) 0

/-- Free share of a function for the commands that this module receives (R146). -/
def shareOwn (s : State) (f : Nat) : Nat := shareFree s f - lentLeft s f

/-- Bytes of the write-through allowance held by a function, and by all (R145). -/
def wtUsed (s : State) (f : Option Nat) : Nat :=
  s.jr.recs.foldl (fun a p => if p.2.wt && !p.2.durable && (f == none || f == some p.2.func) then a + p.2.bytes else a) 0

/-- A record fits the write-through allowance. -/
def wtFits (s : State) (f bytes : Nat) : Bool :=
  wtUsed s (some f) + bytes ≤ 64 * mib && wtUsed s none + bytes ≤ 512 * mib

/-- Bytes by which a record does not fit the write-through allowance. -/
def wtShort (s : State) (f bytes : Nat) : Nat := max (wtUsed s (some f) + bytes - 64 * mib) (wtUsed s none + bytes - 512 * mib)

/-- Mirror credit of a function: the twin's free share as last reported (R268). -/
def mirrorCredit (s : State) (f : Nat) : Nat := KV.findD s.jr.credit f 0

/-- Energy need at a size in 0.25 GiB units, 0.01 J units (R277). -/
def needCj (v : Nat) : Nat := 230 + 25 * v

/-- SU_HOLDUP.NEED: 0.1 J units rounded up; 0 while V is 0 (R277). -/
def needField (v : Nat) : Nat := if v = 0 then 0 else ceilDiv (needCj v) 10

/-- R277: the largest size of Table 9.3 whose need with the factor 1.25 the usable energy (0.1 J units) covers. -/
def sizeFor (usableDj : Nat) : Nat :=
  ((List.range 13).filter (fun v => 2 ≤ v && needCj v * 125 ≤ usableDj * 1000)).foldl max 0

/-! ### Segments (R260) -/

/-- The open segment's owner that takes module records and compaction copies. -/
def mgmtCore : Nat := 24

/-- The lowest free segment. -/
def freeSeg (s : State) : Option Nat := (List.range 240).find? (fun i => (KV.find s.jr.segs i).isNone)

/-- The open segment of a core that still fits a record of `pages` pages. -/
def openSeg (s : State) (core pages : Nat) : Option (Nat × Seg) :=
  s.jr.segs.find? (fun p => p.2.core == some core && !p.2.closed && p.2.headers + 1 ≤ 4096 && p.2.pages + pages ≤ 3840)

/-- Place a record in its core's open segment, closing one it does not fit and opening the lowest free one; PAGE0 of the record. -/
def placeRec (s : State) (core pages seq : Nat) : State × Nat :=
  match openSeg s core pages with
  | some (i, g) =>
    ({ s with jr := { s.jr with segs := KV.set s.jr.segs i { g with headers := g.headers + 1, pages := g.pages + pages, seqs := g.seqs ++ [seq] } } },
      i * 3840 + g.pages)
  | none =>
    let segs := KV.keep (KV.mapVals s.jr.segs (fun _ g => if g.core == some core then { g with closed := true } else g)) (fun _ g => !(g.closed && g.seqs.isEmpty))
    match freeSeg s with
    | some i => ({ s with jr := { s.jr with segs := KV.set segs i { core := some core, headers := 1, pages := pages, seqs := [seq] } } }, i * 3840)
    | none => ({ s with jr := { s.jr with segs := segs } }, 0)

/-- Take a retired record out of its segment and free a closed segment that holds none (R260). -/
def unplace (j : Journal) (seq : Nat) : Journal :=
  let segs := KV.mapVals j.segs (fun _ g => { g with seqs := g.seqs.filter (· != seq) })
  { j with segs := KV.keep segs (fun _ g => !(g.closed && g.seqs.isEmpty)) }

/-- Live bytes of a segment. -/
def segBytes (s : State) (g : Seg) : Nat := g.seqs.foldl (fun a q => a + ((KV.find s.jr.recs q).elim 0 (fun r => r.bytes))) 0

/-- The closed segment with the fewest live bytes, with its number. -/
def leastSeg (s : State) : Option (Nat × Seg) :=
  (s.jr.segs.filter (fun p => p.2.closed)).foldl (fun a p => match a with
    | none => some p
    | some x => if segBytes s p.2 < segBytes s x.2 then some p else some x) none

/-- Copy a live record into the management segment: PAGE0 changes, and nothing else. -/
def movePlace (s : State) (q : Nat) : State :=
  match KV.find s.jr.recs q with
  | none => s
  | some r =>
    let x := placeRec s mgmtCore r.pages q
    { x.1 with jr := { x.1.jr with recs := KV.adj x.1.jr.recs q (fun r => { r with page0 := x.2 }) } }

/-- Compaction (R260): while fewer than 16 segments are free, the least-live closed segment is emptied into the management segment and freed. -/
def compactSegs : Nat → State → State
  | 0, s => s
  | k + 1, s =>
    if s.jr.segs.length ≤ 224 then s
    else match leastSeg s with
      | none => s
      | some (i, g) => compactSegs k (g.seqs.foldl movePlace { s with jr := { s.jr with segs := KV.del s.jr.segs i } })

/-! ### Forming records (R262, R346) -/

/-- Open a session at the first map change after a seal or Recovery (R346): none opens in Measure, Recovery, or Pairing entered from Recovery; a later power-off without a seal is then unclean. -/
def openSession (s : State) : State :=
  if s.jr.session || s.md.mode == .measure || s.md.mode == .recovery || (s.md.mode == .pairing && !s.md.pairServing) then s
  else { s with jr := { s.jr with session := true, ckptAt := s.time.dtb }, md := { s.md with cleanOff := false } }

/-- Form a record: the next SEQ, its place in the region, PEPOCH and BOOT (R261, R262). -/
def formRecord (s : State) (core : Nat) (r : VRec) : State × Nat :=
  let s := openSession s
  let seq := s.jr.seq
  let (s, p0) := placeRec s core r.pages seq
  let r := { r with
    oseq := if r.copy then r.oseq else seq
    pepoch := if r.copy then r.pepoch else s.jr.pepoch.toNat
    stamp := if r.durable then s.time.dtb else r.stamp
    boot := s.boot.boot, page0 := p0 }
  (compactSegs 240 { s with jr := { s.jr with seq := seq + 1, recs := KV.set s.jr.recs seq r } }, seq)

/-- A record is durable on this module from now on (R264, Table 9.1). -/
def makeDurable (s : State) (seq : Nat) : State :=
  { s with jr := { s.jr with recs := KV.adj s.jr.recs seq (fun r => { r with durable := true, stamp := s.time.dtb }) } }

/-- Acknowledge a mirror record (R267): its OSEQ, the function and its free share here. -/
def ackMirror (s : State) (oseq func : Nat) : State := send s 0x02 0 [oseq, func, shareFree s func]

/-- Change a record. -/
def setRec (s : State) (seq : Nat) (f : VRec → VRec) : State :=
  { s with jr := { s.jr with recs := KV.adj s.jr.recs seq f } }

/-- Retire a record: its share is released and the drain rate of its function counted (R275, R276, Table 5.7). -/
def retire (s : State) (seq : Nat) : State :=
  match KV.find s.jr.recs seq with
  | none => s
  | some r =>
    let j := { s.jr with
      recs := KV.del s.jr.recs seq
      drainNow := KV.upd s.jr.drainNow r.func 0 (· + r.bytes) }
    { s with jr := unplace j seq }

/-- A module record (types 20h to 40h), durable at once on this module (R265). -/
def moduleRecord (s : State) (typ action arg : Nat) : State :=
  (formRecord s mgmtCore { typ := typ, action := action, arg := arg, durable := true, acked := true, completed := true }).1

/-! ### Content (R271, R398) -/

/-- Store one LBA's content; content equal to an unwritten LBA's is not listed. -/
def storeLba (s : State) (nsid lba : Nat) (b : Blk) : State :=
  { s with zn := { s.zn with store := KV.put {} s.zn.store (lbaKey nsid lba) b } }

/-- The content of an LBA (R101). -/
def readLba (s : State) (nsid lba : Nat) : Blk := KV.findD s.zn.store (lbaKey nsid lba) {}

/-- Clear the content of a range of LBAs. -/
def clearRange (s : State) (nsid lo hi : Nat) : State :=
  { s with zn := { s.zn with store := KV.keep s.zn.store (fun k _ => !(lbaKey nsid lo ≤ k && k < lbaKey nsid hi)) } }

/-- An ordering key (PEPOCH, OSEQ) is no higher than another, PEPOCH compared first (R267). -/
def keyLe (e q e' q' : Nat) : Bool := e < e' || (e == e' && q ≤ q')

/-- Store a record's units (R271): all of them; in a metadata namespace a unit of which a copy with an equal or higher ordering key is held keeps it (R267, R271). -/
def storeRec (s : State) (r : VRec) : State :=
  (List.range r.nlb).foldl (fun s i =>
    let b := readLba s r.nsid (r.slba + i)
    if r.zone = 0xFFFFFFFF ∧ b ≠ {} ∧ keyLe r.pepoch r.oseq b.epoch b.oseq then s
    else
      let v := if r.typ = 2 then 0 else nth r.data i
      storeLba s r.nsid (r.slba + i) { val := v, key := if v = 0 then 0 else r.key, epoch := r.pepoch, oseq := r.oseq }) s

/-- The plaintext of stored content read under a key (R398, R399): zeros where nothing is stored. -/
def plain (b : Blk) (key : Nat) : Nat := if b.val = 0 then 0 else if b.key = key then b.val else Config.wrongKey b.val b.key key

/-! ### Commands -/

/-- Class bounds, ns (Table 5.1). -/
def bound (c : LClass) (write : Bool) : Nat :=
  match c with
  | .express => if write then 80000 else 400000
  | .standard => if write then 500000 else 2000000
  | .bulk => if write then 10000000 else 25000000
  | .unbound => 0

/-- Write-bound commands (Table 5.2). -/
def IoOp.isWrite : IoOp → Bool
  | .read | .zmr => false
  | _ => true

/-- The ledger row of a command: CLASS × 2 + TYPE (R155). -/
def ledgerRow (c : LClass) (op : IoOp) : Nat := c.code * 2 + bit op.isWrite

def ledgerKey (func row : Nat) : Nat := func * 8 + row

/-- Change a ledger row. -/
def setLedger (s : State) (func row : Nat) (f : Ledger → Ledger) : State :=
  { s with port := { s.port with ledger := KV.upd s.port.ledger (ledgerKey func row) {} f } }

/-- Count a completed command in its row (Table 5.10). -/
def Ledger.done (l : Ledger) (sqid cid ns at_ : Nat) : Ledger :=
  { l with
    completed := (l.completed + 1) % 2^64
    sumUs := (l.sumUs + ns / 1000) % 2^64
    worstNs := max l.worstNs ns
    worstSqid := if l.worstNs < ns then sqid else l.worstSqid
    worstCid := if l.worstNs < ns then cid else l.worstCid
    worstAt := if l.worstNs < ns then at_ else l.worstAt }

/-- The event of an expired deadline (R30, 0020h); a disposal without completion reads all ones. -/
def missEvent (s : State) (c : Cmd) (late : Nat) : State :=
  if c.expired then
    record s 0x20 [c.sqid, c.cid, c.cls.code, bit c.op.isWrite, c.stamp, late] (some c.func) c.nsid
  else s

/-- A command's transfer enters the cipher engine at the level of its class, naming its slot of the key store (R383, R396). -/
def startXts (s : State) (slot : Nat) (c : Cmd) (bytes : Nat) : State :=
  { s with it := { s.it with engine := s.it.engine.submit { id := 0, slot := some slot, level := c.cls.code, key := .slot c.keySlot, bytes := bytes } } }

/-- A command's transfer has ended: the core clears its key and takes the next request (R383, R396). -/
def endXts (s : State) (slot : Nat) : State :=
  { s with it := { s.it with engine := s.it.engine.drop (fun r => r.slot == some slot) } }

/-- Take a command out of the table, with what it still has in the cipher engine. -/
def dropCmd (s : State) (slot : Nat) : State :=
  let s := endXts s slot
  { s with port := { s.port with cmds := KV.del s.port.cmds slot } }

/-- The completion that a core posts for a command (R29, R30, R34, R86): it is discarded where the core is not the owner that the command's context names. Else the timer stops, its row is counted, its buffers are freed, its completion entry is posted, or the Forwarded completion is sent for a command of the twin (R316). -/
def postFrom (core : Nat) (s : State) (slot : Nat) (st : Status) (dw0 dw1 : Nat) (data : List Nat) : State :=
  match KV.find s.port.cmds slot with
  | none => s
  | some c =>
    if c.core ≠ core then s
    else
    let s := dropCmd (freeBufs s c) slot
    if c.quiet then missEvent s c 0xFFFFFFFFFFFFFFFF
    else if c.fromTwin then
      send s (if c.cls == .express || c.cls == .standard then 0x05 else 0x22) c.tag ([st.code, dw0, dw1] ++ data)
    else
      let s := setLedger s c.func (ledgerRow c.cls c.op) (fun l => l.done c.sqid c.cid (s.time.dtb - c.stamp) s.time.dtb)
      let s := complete s c.func c.sqid c.cid st dw0 dw1 data
      missEvent s c (s.time.dtb - c.deadline.getD 0)

/-- End a command: the core that owns it now posts its completion (R34). -/
def endCmd (s : State) (slot : Nat) (st : Status) (dw0 dw1 : Nat) (data : List Nat) : State :=
  match KV.find s.port.cmds slot with
  | none => s
  | some c => postFrom c.core s slot st dw0 dw1 data

/-- Flushes whose last awaited write has ended complete (R132). -/
def wakeFlushes (s : State) (slot : Nat) : State :=
  let cmds := KV.mapVals s.port.cmds (fun _ c => { c with awaits := c.awaits.filter (· != slot) })
  let ready := cmds.filter (fun p => p.2.op == .flush && p.2.awaits.isEmpty && p.2.stage == .waiting)
  ready.foldl (fun s p => endCmd s p.1 .success 0 0 []) { s with port := { s.port with cmds := cmds } }

/-- The owners of the admin commands accepted and not completed; Asynchronous Event Requests are none of them (R66). -/
def adminOpen (s : State) : List Nat :=
  s.sup.testWaiters.map (·.1) ++ s.adm.formats.map (fun f => f.func) ++ s.adm.sanitize.cmd.toList.map (·.1) ++ s.boot.writing.map (fun w => w.func)
    ++ s.boot.activating.toList.map (·.1) ++ s.boot.alsoActivating.map (·.1) ++ s.tw.adminWait.map (fun w => w.func) ++ s.tw.transferCmd.toList.map (·.1) ++ s.tw.unpairCmd.toList.map (·.1)
    ++ s.keys.waiting.map (fun w => w.func) ++ s.md.ps4.toList.map (·.1) ++ s.zn.ns.flatMap (fun p => p.2.reshape.toList.flatMap (fun r => r.cancelCid.toList.map (·.1)))

/-- A function has accepted commands that still run (R66). -/
def openOf (s : State) (func : Nat) : Bool :=
  s.port.cmds.any (fun p => p.2.func == func && !p.2.fromTwin && !p.2.quiet) || (adminOpen s).contains (ownerOf s func)

/-- The function has commands in the command table. -/
def cmdsOpen (s : State) (func : Nat) : Bool := s.port.cmds.any (fun p => p.2.func == func && !p.2.fromTwin && !p.2.quiet)

/-- A Delete I/O Submission Queue completes, and the queue goes, once none of its commands is left (R81). -/
def endDelete (s : State) (func sqid : Nat) : State :=
  match KV.find s.port.sqs (qkey func sqid) with
  | none => s
  | some q =>
    match q.deleting with
    | none => s
    | some cid =>
      if s.port.cmds.any (fun p => p.2.func == func && p.2.sqid == sqid && !p.2.fromTwin && !p.2.quiet) then s
      else complete { s with port := { s.port with sqs := KV.del s.port.sqs (qkey func sqid) } } func 0 cid .success

/-- A normal shutdown notification ends once no accepted command is left (R66). -/
def endShutdown (s : State) (func : Nat) : State :=
  if (ctrl s func).shst == 1 && !openOf s func then setCtrl s func (fun c => { c with shst := 2, shutAt := none }) else s

/-- Normal shutdowns whose last admin command has ended (R66). -/
def settleShutdowns (s : State) : State := s.port.ctrls.foldl (fun s p => endShutdown s p.1) s

/-! ### Injected keys in use (R394) -/

/-- An open command uses a slot's key. -/
def keyInUse (s : State) (slot key : Nat) : Bool :=
  s.port.cmds.any (fun p => p.2.key == key && (nsOf s p.2.nsid).any (fun n => n.slots.contains slot))

/-- Make an injected key current: the key it replaces retires where a command uses it. -/
def putInjected (s : State) (slot key tenant : Nat) : State :=
  let x := KV.findD s.keys.slots slot {}
  let old := if x.cur = key ∨ !keyInUse s slot x.cur then 0 else x.cur
  { s with keys := { s.keys with slots := KV.set s.keys.slots slot { cur := key, retiring := old, tenant := tenant, generated := false } } }

/-- The result of a Key Per I/O method: 0 success, 9 INSUFFICIENT_SPACE, 0Ch INVALID_PARAMETER (PRESUMED codes). Security Send succeeds and Security Receive returns it. -/
def tcgResult (s : State) (func cid result : Nat) : State :=
  complete { s with adm := { s.adm with tcgOut := KV.set s.adm.tcgOut func [result] } } func 0 cid .success

/-- The result of a method that went on after its step (R63). -/
def tcgFor (s : State) (owner cid result : Nat) : State := if ownerLives s owner then tcgResult s (ownerFunc owner) cid result else s

/-- End an injection: its method's result, or the answer to the twin. -/
def endInjection (s : State) (func cid : Nat) (ok : Bool) : State :=
  if func = 65536 then send s 0x05 cid [if ok then 0 else Status.invalidField.code, 0, 0]
  else tcgFor s func cid (if ok then 0 else 0x0C)

/-- Inject a key into a tag (R394): it waits while the slot's retiring key is in use. -/
def inject (s : State) (w : KeyWait) : State :=
  match nsOf s w.nsid with
  | none => endInjection s w.func w.cid false
  | some n =>
    if n.kpio ≤ w.keyTag then endInjection s w.func w.cid false
    else if (KV.findD s.keys.slots (nth n.slots w.keyTag) {}).retiring ≠ 0 then { s with keys := { s.keys with waiting := s.keys.waiting ++ [w] } }
    else endInjection (putInjected s (nth n.slots w.keyTag) w.key w.tenant) w.func w.cid true

/-- Zeroize the retiring keys that no command uses, and make the injections that waited for them. -/
def settleKeys (s : State) : State :=
  if s.keys.waiting.isEmpty && s.keys.slots.all (fun p => p.2.retiring == 0) then s
  else
    let w := s.keys.waiting
    let s := { s with keys := { s.keys with
      waiting := [], slots := KV.mapVals s.keys.slots (fun k x => if keyInUse s k x.retiring then x else { x with retiring := 0 }) } }
    w.foldl inject s

/-- What the end of a command lets happen: flushes, a queue's deletion, a shutdown, injections. -/
def afterEnd (s : State) (slot func sqid : Nat) : State := settleKeys (endShutdown (endDelete (wakeFlushes s slot) func sqid) func)

/-- End a command with a completion, and what waited for it. -/
def finish (s : State) (slot : Nat) (st : Status) (dw0 : Nat := 0) (dw1 : Nat := 0) (data : List Nat := []) : State :=
  match KV.find s.port.cmds slot with
  | none => s
  | some c => afterEnd (endCmd s slot st dw0 dw1 data) slot c.func c.sqid

/-- End a command without a completion (R63): its expired deadline is recorded (R30). -/
def disposeQuiet (s : State) (slot : Nat) : State :=
  match KV.find s.port.cmds slot with
  | none => s
  | some c => afterEnd (missEvent (dropCmd (freeBufs s c) slot) c 0xFFFFFFFFFFFFFFFF) slot c.func c.sqid

/-- Change a command's context. -/
def setCmd (s : State) (slot : Nat) (f : Cmd → Cmd) : State :=
  { s with port := { s.port with cmds := KV.adj s.port.cmds slot f } }

/-! ### Zones -/

/-- Change a zone. -/
def setZone (s : State) (nsid i : Nat) (f : Zone → Zone) : State :=
  setNs s nsid (fun n => { n with zones := KV.upd n.zones i {} f })

/-- A zone that is Implicitly Opened, Explicitly Opened or Closed (R112). -/
def Zone.active (z : Zone) : Bool := z.st == .implOpen || z.st == .explOpen || z.st == .closed
def Zone.opened (z : Zone) : Bool := z.st == .implOpen || z.st == .explOpen

/-- A zone leaves the active states for Full: its charges end (R113). -/
def Zone.toFull (z : Zone) : Zone := { z with st := .full, activeFunc := none, openFunc := none }

/-- Queue the programs of one pass of a stripe word line on every member (R189, R272): host work at step 4 of R171, folds at step 3. -/
def queuePass (s : State) (nsid i : Nat) (z : Zone) (kind : DieOpKind) (wl func step : Nat) : State :=
  match z.group with
  | none => s
  | some g =>
    let ps := (layoutPos z.members (grpOf s g).dead).map (fun p =>
      ({ die := memberDie s g p, kind := kind, bset := 0, wl := wl, step := step, func := func, nsid := nsid, zone := i } : Prog))
    { s with cal := { s.cal with progs := s.cal.progs ++ ps } }

/-- The passes that become releasable when word line `wl` of a zone is complete (R189): SLC one pass; QLC and PLC the coarse pass of it and the fine pass of the one before. -/
def queueLine (s : State) (nsid i : Nat) (z : Zone) (wl func step : Nat) : State :=
  if z.ext.density = 2 then queuePass s nsid i z .slc wl func step
  else
    let coarse := if z.ext.density = 0 then DieOpKind.qlcCoarse else .plcCoarse
    let fine := if z.ext.density = 0 then DieOpKind.qlcFine else .plcFine
    let s := queuePass s nsid i z coarse wl func step
    let s := if wl = 0 then s else queuePass s nsid i z fine (wl - 1) func step
    if wl + 1 = wordLines then queuePass s nsid i z fine wl func step else s

/-- Complete stripe word lines up to a write pointer. -/
def linesTo (z : Zone) (flbas wp : Nat) : Nat := wp * unitsPerLba flbas / wordLineUnits z.ext.density z.members

/-- Bytes written into zones of a density are counted in GiB (Table 7.11): here in KiB of the running total. -/
def countHost (s : State) (density kib : Nat) : State :=
  { s with media := { s.media with hostGib := modAt s.media.hostGib density (· + kib) } }

/-- Queue a zone's word lines up to line `upTo` (R272, R199). -/
def queueTo (s : State) (nsid i upTo func step : Nat) : State :=
  match nsOf s nsid with
  | none => s
  | some n =>
    let z := n.zone i
    let s := setZone s nsid i (fun z => { z with queued := max z.queued upTo })
    (List.range (upTo - z.queued)).foldl (fun s k => queueLine s nsid i z (z.queued + k) func step) s

/-- The 4 KiB units of a zone that its write pointer has passed lie in staging or in a word line already queued (R199). -/
def stagedTo (s : State) (nsid i lo hi : Nat) : Bool :=
  (List.range (hi - lo)).all (fun k => (KV.find s.media.stagingDir (nsid * 2^64 + i * 4194304 + (lo + k))).isSome)

/-- Ask for the reads of the staged units that folds of word lines `lo` to `hi` of a zone take (R199, R215). -/
def foldReads (s : State) (nsid i lo hi : Nat) : State :=
  match nsOf s nsid with
  | none => s
  | some n =>
    let z := n.zone i
    let u := wordLineUnits z.ext.density z.members
    (List.range (hi - lo)).foldl (fun s k =>
      askReads s (.fold nsid i (lo + k)) (arrayReads ((List.range u).filterMap (fun x =>
        (KV.find s.media.stagingDir (nsid * 2^64 + i * 4194304 + ((lo + k) * u + x))).map (fun v =>
          slcSrc s (z.group.getD 0) (1936 + v / 491520) (v % 491520 / 120) (v % 120)))))) s

/-- Fold a staging zone's word lines up to one: their reads, then their programs (R199, R171 step 3). -/
def foldTo (s : State) (nsid i upTo func : Nat) : State :=
  match nsOf s nsid with
  | none => s
  | some n => queueTo (foldReads s nsid i (n.zone i).queued upTo) nsid i upTo func 3

/-- Queue the word lines a zone now has complete: at once where it is not staging (R272); under R199, the fold of two staged word lines, or of all at capacity or Finish, where it is. -/
def queueReady (s : State) (nsid i func : Nat) : State :=
  match nsOf s nsid with
  | none => s
  | some n =>
    let z := n.zone i
    let l := linesTo z n.flbas z.wp
    let u := wordLineUnits z.ext.density z.members
    if !z.staging then queueTo s nsid i (if z.st == .full then ceilDiv (z.wp * unitsPerLba n.flbas) u else l) func 4
    else if z.queued + 2 ≤ l && stagedTo s nsid i (z.queued * u) ((z.queued + 2) * u) then foldTo s nsid i (z.queued + 2) func
    else if z.st == .full && stagedTo s nsid i (z.queued * u) (z.wp * unitsPerLba n.flbas) then
      foldTo s nsid i (ceilDiv (z.wp * unitsPerLba n.flbas) u) func
    else s

/-- Advance a zone's write pointer past a completed write (R266), make the zone Full at its capacity (Table 4.3), and queue the word lines it completes (R272). -/
def advance (s : State) (nsid i endOff func : Nat) : State :=
  match nsOf s nsid with
  | none => s
  | some n =>
    let z := n.zone i
    let wp := max z.wp endOff
    let z' := { z with wp := wp }
    queueReady (setZone s nsid i (fun _ => if wp = z.cap ∧ z.active then z'.toFull else z')) nsid i func

/-- A record of a host command that changes a namespace (R313): writes, and zone sends. -/
def VRec.byHost (r : VRec) : Bool := !r.copy && ((1 ≤ r.typ && r.typ ≤ 3) || (r.typ == 0x10 && [1, 2, 3, 4, 5, 7].contains r.action))

/-- CONT is set where a module completes a host command on a mirrored namespace while separated (R313). -/
def markCont (s : State) (r : VRec) : State :=
  if r.byHost && (s.md.mode == .solo || s.md.mode == .pairing) then setNs s r.nsid (fun n => { n with cont := n.cont || n.mirrored }) else s

/-- Apply a record whose change is durable (R265, R266): its units, the write pointer, the completion of its command. -/
def applyRec (s : State) (seq : Nat) : State :=
  match KV.find s.jr.recs seq with
  | none => s
  | some r =>
    let s := markCont (setRec s seq (fun r => { r with completed := true })) r
    let s := if r.stale then retire s seq
      else if r.zone = 0xFFFFFFFF ∨ 0x20 ≤ r.typ then s else setZone s r.nsid r.zidx (fun z => { z with keyEpoch := r.pepoch, keyOseq := r.oseq })
    let s := if 1 ≤ r.typ ∧ r.typ ≤ 3 ∧ !r.stale then
        let s := storeRec s r
        let s := setNs s r.nsid (fun n => { n with written := true })
        match nsOf s r.nsid with
        | some n =>
          if n.zoned then
            countHost (advance s r.nsid r.zidx (r.slba - r.zidx * zoneSize n.flbas + r.nlb) r.func)
              (n.zone r.zidx).ext.density (r.nlb * lbaBytes n.flbas / 1024)
          else countHost s 3 (r.nlb * lbaBytes n.flbas / 1024)
        | none => s
      else s
    match r.slot with
    | some slot => if r.typ = 3 then finish s slot .success (r.slba % 2^32) (r.slba / 2^32) else finish s slot .success
    | none => s

/-- Whether a record's change is durable (R265). -/
def VRec.ready (r : VRec) : Bool := r.durable && r.acked

/-- The records of one zone not yet applied, in SEQ order (R262). -/
def zonePending (s : State) (nsid i : Nat) : List (Nat × VRec) :=
  s.jr.recs.filter (fun p => p.2.nsid == nsid && p.2.zidx == i && p.2.zone != 0xFFFFFFFF && !p.2.completed && p.2.typ < 0x20)

/-- Apply a zone's records in SEQ order as far as they are durable (R262, R266). -/
def settleZone (s : State) (nsid i : Nat) : State :=
  ((zonePending s nsid i).takeWhile (fun p => p.2.ready)).foldl (fun s p => applyRec s p.1) s

/-- Apply what a record's durability or acknowledgement allows: its zone in order, or the record alone for a metadata namespace. -/
def settle (s : State) (seq : Nat) : State :=
  match KV.find s.jr.recs seq with
  | none => s
  | some r =>
    if r.completed then s
    else if r.zone = 0xFFFFFFFF then (if r.ready then applyRec s seq else s)
    else settleZone s r.nsid r.zidx

/-- Whether a namespace's records go to the twin now (R254, R265, R266): in Service, of a mirrored namespace or of one becoming mirrored. -/
def mirrors (s : State) (n : Ns) : Bool := (n.mirrored || n.reshape.any (fun r => r.mirroring)) && s.md.mode == .service

/-- The fields of a zone descriptor extension. -/
def Ext.fields (x : Ext) : List Nat := [x.density, x.heat, x.lifetime, x.tag, x.affinity]

/-- Send one record's mirror copy (R267); a zone change carries the capacity and the extension (Table 9.2). -/
def sendRec (s : State) (seq : Nat) : State :=
  match KV.find s.jr.recs seq with
  | none => s
  | some r =>
    if r.sent || r.acked || !r.mirrored then s
    else
      let x := (r.nsid, r.zidx)
      let s := if (nsOf s r.nsid).any (fun n => n.resyncPending) && r.zone != 0xFFFFFFFF && !s.tw.firstMirror.contains x then
          { s with tw := { s.tw with firstMirror := s.tw.firstMirror ++ [x] } } else s
      let s := setRec (send s 0x01 0 ([r.typ, r.oseq, r.pepoch, r.nsid, r.zone, r.slba, r.nlb, r.func, r.stamp, r.key,
        bit r.forwarded, r.action, r.arg] ++ r.data ++ (if r.typ = 0x10 then r.ext.fields else []))) seq (fun r => { r with sent := true })
      r.slot.elim s (fun sl => dropUser s sl .mirror)

/-- A record's data is in: the mirror records of its zone that are ready are sent in SEQ order (R269). -/
def sendMirror (s : State) (seq : Nat) : State :=
  let s := setRec s seq (fun r => { r with dataIn := true })
  match KV.find s.jr.recs seq with
  | none => s
  | some r =>
    if r.zone = 0xFFFFFFFF then sendRec s seq
    else ((zonePending s r.nsid r.zidx).takeWhile (fun p => p.2.dataIn)).foldl (fun s p => sendRec s p.1) s

end Sys2Proof.Machine
end

