-- ==== Sys2Proof/Machine/Zones.lean ====
section
/-! DEFINITION. Zones: counts and limits, placement, the state machine, and the checks of the owning core (chapter 4). -/

namespace Sys2Proof.Machine

/-! ### Counting (R112, R113) -/

/-- Every zone listed on the module that it holds: (NSID, zone index, zone). -/
def allZones (s : State) : List (Nat × Nat × Zone) :=
  s.zn.ns.flatMap (fun p => if p.2.zoned && p.2.held then p.2.zones.map (fun z => (p.1, z.1, z.2)) else [])

def countZones (s : State) (p : Zone → Bool) : Nat := (allZones s).countP (fun z => p z.2.2)

/-- The function's limits (Table 4.5, R177). -/
def activeLimit (s : State) (f : Nat) : Nat :=
  let a := (budgetAt s f s.cal.period).active
  if a = 0 then s.part.activeZones else a

def openLimit (s : State) (f : Nat) : Nat :=
  let o := (budgetAt s f s.cal.period).open_
  if o = 0 then min 2048 (activeLimit s f) else o

/-- Active zones bound to a group, and zones bound to it (R108). -/
def groupActive (s : State) (g : Nat) : Nat := countZones s (fun z => z.group == some g && z.active)
def groupBound (s : State) (g : Nat) : Nat := countZones s (fun z => z.group == some g)

/-! ### Placement (R108, R109) -/

/-- Conditions 1 to 4 of R108. -/
def groupAllows (s : State) (f g affinity : Nat) : Bool :=
  !(grpOf s g).retired
    && (affinity == 0 || affinity / 2^g % 2 == 1)
    && (match KV.find s.cal.dedicated g with
        | some o => o == f
        | none => !s.cal.dedicated.any (fun d => d.2 == f))
    && groupBound s g < 1936

/-- Erases of the free zone-role sets of a die, and their number (R109): a set not listed is as built, erased 0 times. -/
def freeWear (s : State) (d : Nat) : Nat × Nat :=
  let l := s.media.sets.filter (fun b => b.1 / 2048 == d)
  let free (b : Nat × BSet) : Bool := b.2.role == .zone && b.2.state == .free
  ((l.filter free).foldl (fun t b => t + b.2.erases) 0,
    1936 + l.countP (fun b => free b && roleAt (b.1 % 2048) != .zone) - l.countP (fun b => !free b && roleAt (b.1 % 2048) == .zone))

/-- Mean erase count over a group's free zone-role block sets (R109), in 2^-40, fine enough to tell any two means apart. -/
def groupWear (s : State) (g : Nat) : Nat :=
  let w := (layoutPos (groupMembers s g) (grpOf s g).dead).foldl (fun a p =>
    let x := freeWear s (memberDie s g p)
    (a.1 + x.1, a.2 + x.2)) (0, 0)
  w.1 * 2^40 / max 1 w.2

/-- Keep the members of a list that do best (least) on a measure. -/
def keepLeast (l : List Nat) (f : Nat → Nat) : List Nat :=
  l.filter (fun g => l.all (fun h => f g ≤ f h))

/-- R109: the group chosen among those allowed. -/
def chooseGroup (s : State) (ok : List Nat) (e : Ext) : Option Nat :=
  let l := if e.tag = 0 then ok
    else keepLeast ok (fun g => bit ((allZones s).any (fun z => z.2.2.group == some g && z.2.2.active && z.2.2.ext.tag != 0 && z.2.2.ext.tag != e.tag)))
  let l := if e.heat = 3 then keepLeast l (fun g => countZones s (fun z => z.group == some g && z.active && z.ext.heat == 3))
    else keepLeast l (groupActive s)
  (keepLeast l (groupWear s)).head?

/-- Place a zone (R108): the group, or the status of the refusal. -/
def place (s : State) (f : Nat) (e : Ext) : Except Status Nat :=
  let four := (List.range s.part.groups).filter (fun g => groupAllows s f g e.affinity)
  let five := four.filter (fun g => groupActive s g < 128)
  match chooseGroup s five e with
  | some g => .ok g
  | none =>
    if e.affinity ≠ 0 then .error .c3
    else if four.isEmpty then .error .capacityExceeded
    else .error .tooManyActive

/-! ### Closing (R99, R100) -/

/-- Close an open zone: to Closed, or to Empty where nothing has been written and no extension is valid (Table 4.3). -/
def Zone.close (z : Zone) : Zone :=
  if z.wp = 0 ∧ z.taken = 0 ∧ !z.extValid then { keyEpoch := z.keyEpoch, keyOseq := z.keyOseq, resetId := z.resetId } else { z with st := .closed, openFunc := none }

/-- The function's Implicitly Opened zone with the oldest last write (R100). -/
def oldestImplicit (s : State) (f : Nat) : Option (Nat × Nat) :=
  let l := (allZones s).filter (fun z => z.2.2.st == .implOpen && z.2.2.openFunc == some f)
  match l.filter (fun z => l.all (fun y => z.2.2.lastWrite ≤ y.2.2.lastWrite)) with
  | [] => none
  | z :: _ => some (z.1, z.2.1)

/-- An open resource is free for a function (Table 4.5). -/
def openFree (s : State) (f : Nat) : Bool :=
  countZones s Zone.opened < 2048 && countZones s (fun z => z.opened && z.openFunc == some f) < openLimit s f

def activeFree (s : State) (f : Nat) : Bool :=
  countZones s Zone.active < s.part.activeZones && countZones s (fun z => z.active && z.activeFunc == some f) < activeLimit s f

/-- Get an open resource for a write (R100): free already, or freed by the implicit close. -/
def getOpen (s : State) (f : Nat) : Except Status State :=
  if openFree s f then .ok s
  else match oldestImplicit s f with
    | none => .error .tooManyOpen
    | some (nsid, i) =>
      let s' := setZone s nsid i Zone.close
      if openFree s' f then .ok s' else .error .tooManyOpen

/-! ### Leaving Empty -/

/-- Place an Empty zone under an extension: group, capacity by its layout (R95, R106), charge of its active resource (R113). -/
def leaveEmpty (s : State) (f nsid i : Nat) (n : Ns) (e : Ext) (valid : Bool) : Except Status State :=
  if !activeFree s f then .error .tooManyActive
  else match place s f e with
    | .error st => .error st
    | .ok g =>
      let m := groupMembers s g
      .ok (setZone s nsid i (fun z => { z with
        ext := e, extValid := valid, group := some g, members := m, cap := zoneCap e.density m n.flbas
        activeFunc := some f, leftAt := s.time.dtb, leftDay := s.time.rd.toNat, wp := 0, taken := 0, confirmed := 0, queued := 0, staging := false }))

/-- Open a zone for a function in a state (R99, R113). -/
def openAs (s : State) (f nsid i : Nat) (st : ZState) : State :=
  setZone s nsid i (fun z => { z with st := st, openFunc := some f })

/-- The status a zone's state gives a command (R114 step 1). -/
def stateRefusal (z : Zone) (write : Bool) : Option Status :=
  match z.st with
  | .offline => some .zoneIsOffline
  | .readOnly => if write then some .zoneIsReadOnly else none
  | .full => if write then some .zoneIsFull else none
  | _ => none

/-- A write's zone is ready for it: open already, or opened now with the resources of R100 and R113 (R114 steps 4 and 5). -/
def openForWrite (s : State) (f nsid i : Nat) (n : Ns) : Except Status State :=
  let z := n.zone i
  if z.opened then .ok s
  else match getOpen s f with
    | .error st => .error st
    | .ok s1 =>
      if z.st = .empty then
        match leaveEmpty s1 f nsid i n {} false with
        | .error st => .error st
        | .ok s2 => .ok (openAs s2 f nsid i .implOpen)
      else .ok (openAs s1 f nsid i .implOpen)

/-! ### The end of a zone's data (R118, R119) -/

/-- Send the block sets of a zone to the erase queue of their dies, if any were bound (R119). -/
def queueErase (s : State) (nsid i : Nat) : State :=
  let bs := (s.media.sets.filter (fun b => b.2.role == .zone && b.2.nsid == nsid && b.2.zone == i && b.2.state != .free && b.2.state != .awaitErase)).map (·.1)
  { s with media := { s.media with
    sets := KV.mapVals s.media.sets (fun k b => if bs.contains k then { b with state := .awaitErase } else b)
    eraseQ := s.media.eraseQ ++ bs } }

/-- Retire a zone's data records without programming them (R118); one not yet durable completes first. -/
def retireZone (s : State) (nsid i : Nat) : State :=
  let s := { s with jr := { s.jr with recs := KV.mapVals s.jr.recs (fun _ r =>
    if r.nsid == nsid && r.zidx == i && r.zone != 0xFFFFFFFF && 1 ≤ r.typ && r.typ ≤ 3 && !r.completed then { r with stale := true } else r) } }
  (s.jr.recs.filter (fun p => p.2.nsid == nsid && p.2.zidx == i && p.2.zone != 0xFFFFFFFF && 1 ≤ p.2.typ && p.2.typ ≤ 3 && p.2.completed)).foldl
    (fun s p => retire s p.1) s

/-- Drop what is planned for a zone: its programs, copies, staged data, refreshes (R118, R216). -/
def dropWork (s : State) (nsid i : Nat) : State :=
  { s with
    cal := { s.cal with
      progs := s.cal.progs.filter (fun p => !(p.nsid == nsid && p.zone == i && (match p.job with
        | .row _ | .reference => false
        | _ => true)))
      backReads := s.cal.backReads.filter (fun x => match x.job with
        | .fold k j _ => !(k == nsid && j == i)
        | _ => true) }
    media := { s.media with
      copies := s.media.copies.filter (fun c => !(c.nsid == nsid && c.zone == i))
      stagingDir := KV.keep s.media.stagingDir (fun k _ => !(k / 2^64 == nsid && k % 2^64 / 4194304 == i))
      extents := s.media.extents } }

/-- Lost extents inside a range no longer hold data (R242). -/
def clearExtents (s : State) (nsid lo hi : Nat) : State :=
  let keepE (e : Extent) : List Extent :=
    if e.nsid ≠ nsid ∨ hi ≤ e.slba ∨ e.slba + e.count ≤ lo then [e]
    else (if e.slba < lo then [{ e with count := lo - e.slba }] else [])
      ++ (if hi < e.slba + e.count then [{ e with slba := hi, count := e.slba + e.count - hi }] else [])
  let ex := s.media.extents.flatMap keepE
  { s with media := { s.media with extents := ex, extentGen := if ex = s.media.extents then s.media.extentGen else s.media.extentGen + 1 } }

/-- Empty a zone at its map change (R118): records retired, data released, block sets queued for erase, extension and attributes cleared (R106). -/
def emptyZone (s : State) (nsid i : Nat) : State :=
  match nsOf s nsid with
  | none => s
  | some n =>
    let zs := zoneSize n.flbas
    let s := retireZone s nsid i
    let s := queueErase s nsid i
    let s := dropWork s nsid i
    let s := clearExtents (clearRange s nsid (i * zs) ((i + 1) * zs)) nsid (i * zs) ((i + 1) * zs)
    setZone s nsid i (fun z => { keyEpoch := z.keyEpoch, keyOseq := z.keyOseq, resetId := z.resetId })

/-- Make a zone Full by Finish (R101): an Empty one unplaced with no media (R108); another keeps its data, its last row is completed. -/
def finishZone (s : State) (nsid i : Nat) (byCtrl : Bool) : State :=
  match nsOf s nsid with
  | none => s
  | some n =>
    let z := n.zone i
    if z.st = .empty then setZone s nsid i (fun z => { z with st := .full, cap := zoneCap 0 30 n.flbas, group := none, wp := 0, taken := 0 })
    else
      let u := z.wp * unitsPerLba n.flbas
      let l := linesTo z n.flbas z.wp
      let s := setZone s nsid i (fun z => { z.toFull with finishedByCtrl := byCtrl, finishRec := false })
      if z.staging then queueReady s nsid i (z.activeFunc.getD 0)
      else queueTo s nsid i (if u = l * wordLineUnits z.ext.density z.members then l else l + 1) (z.activeFunc.getD 0) 4

/-- Raise the Zone Descriptor Changed notice and list the zone (R104). -/
def noteZone (s : State) (nsid i : Nat) : State :=
  let s := setNs s nsid (fun n => { n with changed := if n.changed.contains i then n.changed else n.changed ++ [i] })
  match nsOf s nsid with
  | none => s
  | some n => n.attached.foldl (fun s f => raiseAen s f 2 0xEF 0xBF) s

/-- Zone Management Send actions by code (Table 4.8 and the Zoned Namespace command set): 1 close, 2 finish, 3 open, 4 reset, 5 offline. -/
def zoneAction (s : State) (f nsid i action : Nat) : Except Status State :=
  match nsOf s nsid with
  | none => .error .invalidNamespace
  | some n =>
    let z := n.zone i
    if z.st = .offline then .error .zoneIsOffline
    else match action with
      | 1 => match z.st with
        | .implOpen | .explOpen => .ok (setZone s nsid i Zone.close)
        | .closed => .ok s
        | _ => .error .zoneInvalidTransition
      | 2 => match z.st with
        | .full => .ok s
        | .readOnly => .error .zoneInvalidTransition
        | _ => .ok (finishZone s nsid i false)
      | 3 => match z.st with
        | .explOpen => .ok s
        | .implOpen => .ok (setZone s nsid i (fun z => { z with st := .explOpen }))
        | .closed => match getOpen s f with
          | .error e => .error e
          | .ok s1 => .ok (openAs s1 f nsid i .explOpen)
        | .empty => match getOpen s f with
          | .error e => .error e
          | .ok s1 => match leaveEmpty s1 f nsid i n {} false with
            | .error e => .error e
            | .ok s2 => .ok (openAs s2 f nsid i .explOpen)
        | _ => .error .zoneInvalidTransition
      | 4 => match z.st with
        | .empty => .ok s
        | .readOnly => .error .zoneInvalidTransition
        | _ => .ok (emptyZone s nsid i)
      | _ => match z.st with
        | .readOnly => .ok (setZone s nsid i (fun z => { z with st := .offline, activeFunc := none, openFunc := none }))
        | _ => .error .zoneInvalidTransition

/-- Eligibility of a zone for a Select All action (R120, the Zoned Namespace command set). -/
def zoneEligible (z : Zone) (action : Nat) : Bool :=
  match action with
  | 1 => z.opened
  | 2 => z.active
  | 3 => z.st == .closed
  | 4 => z.active || z.st == .full
  | _ => z.st == .readOnly

/-- One zone's result is settled in the record of its command (R121, R122): counted, the last zone so far, the status of the first that failed. -/
def ZopRec.settle (z : ZopRec) (i : Nat) (r : ZRes) : ZopRec :=
  match r with
  | .change _ => z
  | .acted => { z with acted := z.acted + 1, lastZone := i, lastActed := i }
  | .skipped => { z with skipped := z.skipped + 1, lastZone := i }
  | .failed st => { z with
      failed := z.failed + 1, lastZone := i, status := z.status.orElse (fun _ => some st)
      entries := if z.entries.length < 504 then z.entries ++ [⟨i, st⟩] else z.entries }

/-- The zone descriptor extension of a data buffer (Table 4.4), none where R105 calls it invalid. -/
def extOf (part : Part) (d : List Nat) : Option Ext :=
  let e : Ext := { density := nth d 0, heat := nth d 1 % 4, lifetime := nth d 2, tag := le d 4 4, affinity := le d 8 5 }
  if 2 < e.density ∨ 4 ≤ nth d 1 ∨ 6 < e.lifetime ∨ nth d 3 ≠ 0 ∨ !zeroRange d 0x0D 0x40
    ∨ 2 ^ part.groups ≤ e.affinity then none
  else some e

/-- Change the state of open zones at Recovery and resets of the function charged (Table 4.3). -/
def closeZonesOf (s : State) (p : Zone → Bool) : State :=
  { s with zn := { s.zn with ns := KV.mapVals s.zn.ns (fun _ n =>
    { n with zones := KV.mapVals n.zones (fun _ z => if z.opened && p z then z.close else z) }) } }

end Sys2Proof.Machine
end

