-- ==== Sys2Proof/Machine/Admission.lean ====
section
/-! DEFINITION. The admission unit: the price of a command, the placement of a read, the checks of a write, retry-after (chapter 5). -/

namespace Sys2Proof.Machine

/-! ### Paths (R136, R315) -/

/-- The path of a command (Table 5.4). -/
inductive Path where
  | local_ | forwarded
  deriving DecidableEq, Repr

/-- A region of a copy being resynced that is not level yet (Table 3.9): its zone, or the whole of a metadata namespace. -/
def notLevel (n : Ns) (slba : Nat) : Bool := n.resyncPending && !(n.zoned && n.levelled.contains (slba / zoneSize n.flbas))

/-- Whether a command of a namespace is forwarded (R315): every command of a single namespace homed on the twin; writes and zone sends of a mirrored one the twin owns, and reads of regions not yet resynced (Table 3.9). -/
def pathOf (n : Ns) (op : IoOp) (slba : Nat := 0) : Path :=
  if n.here then .local_
  else if n.mirrored && (op == .flush || (!op.isWrite && !notLevel n slba)) then .local_
  else .forwarded

/-- K_pre and K_post of a read, ns (Table 5.4). -/
def kRead (p : Path) (c : LClass) : Nat × Nat :=
  match p with
  | .local_ => (8000, 28400)
  | .forwarded => if c = .bulk then (23300, 43700) else (10200, 30600)

/-- K of a write-bound command, ns (Table 5.4); the mirror rows apply in Service. -/
def kWrite (s : State) (n : Ns) (p : Path) (c : LClass) (op : IoOp) : Nat :=
  let m := mirrors s n
  let k := match p, m with
    | .local_, false => 21700
    | .local_, true => 26100
    | .forwarded, false => if c = .bulk then 52300 else 26100
    | .forwarded, true => if c = .bulk then 56700 else 30500
  if op = .write ∨ op = .append then k else k - 8700

/-- Zones a Zone Management Send acts on (R137). -/
def zonesActed (n : Ns) (all : Bool) : Nat := if all then n.zoneCount else 1

/-- S: the service term of a write-bound command, ns (Table 5.5). -/
def sWrite (s : State) (n : Ns) (p : Path) (op : IoOp) (bytes : Nat) (all : Bool) : Nat :=
  let l := if op = .write ∨ op = .append then bytes else 0
  let base := match op with
    | .zms => 2500 + 4000 * zonesActed n all
    | .flush => 2500
    | _ => 2500 + xferNs l (rPort s)
  let mirror := if mirrors s n ∧ op ≠ .flush then 3000 + xferNs l (rLink s) else 0
  let fwd := match p with
    | .local_ => 0
    | .forwarded => 1000 + xferNs l (rLink s)
  base + mirror + fwd

/-- What a Bulk mirrored write adds to S in write-through (R279): the twin's SLC program time of Table 7.7. Its bands are not known here, so it is that of the slowest (DESIGN CHOICE, log 110). -/
def twinSlc (s : State) (n : Ns) (cls : LClass) (op : IoOp) : Nat :=
  if (s.md.writeThrough || twinWt s) && mirrors s n && cls == .bulk && (op == .write || op == .append) then tOp .slc 0 else 0

/-- F of a write-bound command, ns (R140). -/
def fWrite (s : State) (n : Ns) (op : IoOp) : Nat := if mirrors s n ∧ op ≠ .flush then 28000 else 0

/-- c_x: what a moved command still meets, ns (R141). -/
def cx (s : State) (n : Ns) (p : Path) : Nat :=
  match p with
  | .forwarded => 5000
  | .local_ => if mirrors s n then 5000 else 3000

/-! ### Where a read's data lies (R137, R188, R222) -/

/-- What a read needs of one die: its array reads, each a cell mode, a block set and a page level of it; its codewords; the rows and sets they lie in, and the layout they are read around in (R172). -/
structure Need where
  reads : List (Nat × SetRef × Nat) := []
  cws : Nat := 0
  rows : List Nat := []
  refs : List SetRef := []
  group : Nat := 0
  members : Nat := 30
  deriving DecidableEq, Repr

/-- A live record holds the LBA (R125, R271). -/
def inJournal (s : State) (nsid lba : Nat) : Bool :=
  s.jr.recs.any (fun p => p.2.nsid == nsid && 1 ≤ p.2.typ && p.2.typ ≤ 3 && p.2.completed && p.2.slba ≤ lba && lba < p.2.slba + p.2.nlb)

/-- Where a unit of a namespace lies (R137, R125): above the write pointer, in the journal, staged, in the log, or on its die. -/
def srcOf (s : State) (nsid : Nat) (n : Ns) (lba k : Nat) : Src :=
  let upl := unitsPerLba n.flbas
  if n.zoned then
    let i := lba / zoneSize n.flbas
    let z := n.zone i
    let off := lba % zoneSize n.flbas
    let u := off * upl + k
    if z.wp ≤ off then .zeros
    else match z.group with
      | none => .zeros
      | some g =>
        if u < z.confirmed * wordLineUnits z.ext.density z.members then
          stripeSrc s g z.members u (if z.ext.density = 0 then 0 else if z.ext.density = 1 then 1 else 2) (.zone nsid i)
        else match KV.find s.media.stagingDir (nsid * 2^64 + i * 4194304 + u) with
          | some v => slcSrc s g (1936 + v / 491520) (v % 491520 / 120) (v % 120)
          | none => .journal
  else if inJournal s nsid lba then .journal
  else if (KV.find s.zn.store (lbaKey nsid lba)).isNone then .zeros
  else match KV.find s.media.logDir (nsid * 2^64 + lba * upl + k) with
    | some v => logSrc s v
    | none => mapSrc s nsid (lba * upl + k)

/-- Where the twin keeps a unit of a namespace that is read there: the spec does not say how the receiver knows it, so the group is left open, in the full layout of the density that a zone has by default (DESIGN CHOICE, log 14). -/
def twinSrc (s : State) (nsid : Nat) (n : Ns) (lba k : Nat) : Src :=
  let u := lba * unitsPerLba n.flbas + k
  let z := if n.zoned then u / 4194304 else u / 4096
  let v := if n.zoned then u % 4194304 else u % 4096
  let p := placeOf 30 v
  let g := Config.twinGroup nsid z % s.part.groups
  .die (dieIx s.part (dataPos 30 none p.row p.page) g) (p.row / 4) p.row g 30 (if n.zoned then 0 else 2) (if n.zoned then .zone nsid z else .slc 2000)

/-- The units of a range of LBAs. -/
def readUnits (n : Ns) (slba nlb : Nat) : List (Nat × Nat) :=
  (List.range nlb).flatMap (fun i => (List.range (unitsPerLba n.flbas)).map (fun k => (slba + i, k)))

/-- A read's needs with one unit more (R137): pages of one level on different planes share an array read. -/
def addNeed (m : KV Need) : Src → KV Need
  | .die d level row g mem mode ref => KV.upd m d {} (fun x =>
      { reads := addOnce x.reads (mode, ref, level), cws := x.cws + 1, rows := addOnce x.rows row, refs := addOnce x.refs ref, group := g, members := mem })
  | _ => m

/-- What a read needs of each die. -/
def needsOf (s : State) (nsid : Nat) (n : Ns) (slba nlb : Nat) : KV Need :=
  (readUnits n slba nlb).foldl (fun m p => addNeed m (srcOf s nsid n p.1 p.2)) []

/-- What a forwarded read needs of each die of the twin. -/
def twinNeeds (s : State) (nsid : Nat) (n : Ns) (slba nlb : Nat) : KV Need :=
  (readUnits n slba nlb).foldl (fun m p => addNeed m (twinSrc s nsid n p.1 p.2)) []

/-- A die is an erasure for what a read needs of it. -/
def needLost (s : State) (d : Nat) (x : Need) : Bool := x.refs.any (setUnreadable s d)

/-! ### Pricing and placing a read (R137 to R144) -/

/-- Array time of a need's reads on a die, ns: n_d × t_R, each read in the t_R of its own cell mode. -/
def needNs (s : State) (d : Nat) (x : Need) : Nat := x.reads.foldl (fun a r => a + tRead r.1 (bandOf s d)) 0

/-- The longest t_R among them (R140). -/
def needTr (s : State) (d : Nat) (x : Need) : Nat := x.reads.foldl (fun a r => max a (tRead r.1 (bandOf s d))) 0

/-- c_d, ns (Table 5.5). -/
def claimLen (s : State) (d : Nat) (x : Need) : Nat := 20000 + needNs s d x

/-- Die charge in die-µs and channel charge in bytes (R142): Express pays 30/32 of each again. -/
def dieCharge (s : State) (cls : LClass) (d : Nat) (x : Need) : Nat :=
  if cls = .express then ceilDiv (needNs s d x * 62) 32000 else ceilDiv (needNs s d x) 1000

def chCharge (cls : LClass) (x : Need) : Nat :=
  if cls = .express then ceilDiv (4480 * x.cws * 62) 32 else 4480 * x.cws

/-- b_max ÷ the trained rate, ns: the longest transfer on one channel (R137, R191). -/
def bMaxNs (s : State) (needs : KV Need) : Nat :=
  (List.range 32).foldl (fun a c =>
    let b := (needs.filter (fun x => dieCh s.part x.1 == c)).foldl (fun t x => t + 4480 * x.2.cws) 0
    max a (xferNs b (chanRate s c))) 0

/-- Why a read cannot be placed. -/
inductive Why where
  | tokens | place | budget | throttled | time | journal | other
  deriving DecidableEq, Repr

/-- A window for a claim of a length (R138). -/
structure Win where
  te : Nat
  tl : Nat
  deriving DecidableEq, Repr

/-- Place a claim on its target die on a function's tokens, at the earliest slot of its window (R138, R143). -/
def placeTarget (s : State) (f : Nat) (cls : LClass) (slot : Nat) (d : Nat) (x : Need) (w : Win) : Except Why State :=
  let len := claimLen s d x
  let c := dieCh s.part d
  let free (t : Nat) : Bool := freeAt s d t (t + len)
  let paid (t : Nat) : Bool := dieCharge s cls d x ≤ dieLeft s f cls d (t / periodNs) && chCharge cls x ≤ chLeft s f cls c (t / periodNs)
  match firstSlot (fun t => free t && paid t) w.tl (windowFuel w.te w.tl) w.te with
  | some t =>
    let k := t / periodNs
    .ok (addDraw (addDraw (addClaim s { die := d, start := t, len := len, kind := .read, cls := cls, func := f, slot := some slot })
      ⟨f, cls, k, false, d, dieCharge s cls d x⟩) ⟨f, cls, k, true, c, chCharge cls x⟩)
  | none => if (firstSlot free w.tl (windowFuel w.te w.tl) w.te).isSome then .error .tokens else .error .place

/-- The dead position of a group that a layout spans all the same: an erasure in every row of it (R247). -/
def deadIn (s : State) (x : Need) (p : Nat) : Bool := x.members == 30 && (grpOf s x.group).dead == some p

/-- A position is an erasure for what a read needs. -/
def posLost (s : State) (x : Need) (p : Nat) : Bool := needLost s (memberDie s x.group p) x || deadIn s x p

/-- The positions a read around a member claims for one row (R172): the other data members and P, with Q in the place of an erasure. -/
def aroundRow (s : State) (x : Need) (self row : Nat) : List Nat :=
  let dead := (grpOf s x.group).dead
  let l := (layoutPos x.members dead).filter (fun p => memberDie s x.group p != self)
  let noQ := l.filter (fun p => p != qPos x.members dead row)
  if noQ.any (posLost s x) then l.filter (fun p => !posLost s x p) else noQ

/-- The positions a read around a member claims. -/
def aroundPos (s : State) (x : Need) (self : Nat) : List Nat := (x.rows.flatMap (aroundRow s x self)).dedup

/-- Place one claim of a read around on a survivor: on the read-around reserve (R144), or on the function's tokens where the target is failed (R142). -/
def placeSurvivor (s : State) (f : Nat) (cls : LClass) (slot : Nat) (d : Nat) (x : Need) (w : Win) (onReserve : Bool) :
    Except Why State :=
  let len := claimLen s d x
  let c := dieCh s.part d
  let us := ceilDiv (needNs s d x) 1000
  let bytes := 4480 * x.cws
  let free (t : Nat) : Bool := freeAt s d t (t + len)
  let paid (t : Nat) : Bool :=
    if onReserve then us ≤ aroundLeft s d (t / periodNs) && bytes ≤ aroundChLeft s c (t / periodNs)
    else us ≤ dieLeft s f cls d (t / periodNs) && bytes ≤ chLeft s f cls c (t / periodNs)
  match firstSlot (fun t => free t && paid t) w.tl (windowFuel w.te w.tl) w.te with
  | some t =>
    let k := t / periodNs
    let who := if onReserve then aroundFunc else f
    let cl := if onReserve then LClass.express else cls
    .ok (addDraw (addDraw (addClaim s { die := d, start := t, len := len, kind := .around, cls := cls, func := f, slot := some slot })
      ⟨who, cl, k, false, d, us⟩) ⟨who, cl, k, true, c, bytes⟩)
  | none => if (firstSlot free w.tl (windowFuel w.te w.tl) w.te).isSome then .error .tokens else .error .place

/-- Place every claim of a read around. -/
def placeAround (s : State) (f : Nat) (cls : LClass) (slot d : Nat) (x : Need) (w : Win) (onReserve : Bool) : Except Why State :=
  (aroundPos s x d).foldl (fun r p =>
    match r with
    | .error e => .error e
    | .ok s => placeSurvivor s f cls slot (memberDie s x.group p) x w onReserve) (.ok s)

/-- Erasures a read around would meet in its row, the die read around included (R226). -/
def rowErasures (s : State) (x : Need) : Nat := (layoutPos x.members (grpOf s x.group).dead).countP (posLost s x)

/-- Only the closed window keeps a claim from its target inside the read's window (R144). -/
def windowBars (s : State) (d : Nat) (x : Need) (w : Win) : Bool :=
  let len := claimLen s d x
  (firstSlot (fun t => claimFree s d t (t + len) && restFree s d t (t + len)) w.tl (windowFuel w.te w.tl) w.te).isSome

/-- Place an Express read around its healthy target in one part of its window, and draw what the target costs (R142) in the period in which its first claim is placed (R143). -/
def aroundIn (s : State) (f : Nat) (cls : LClass) (slot d : Nat) (x : Need) (w : Win) : Except Why State :=
  match placeAround s f cls slot d x w true with
  | .error e => .error e
  | .ok s' =>
    let k := ((s'.cal.claims.drop s.cal.claims.length).map (fun c => c.start)).foldl min w.tl / periodNs
    let c := dieCh s.part d
    if dieCharge s cls d x ≤ dieLeft s f cls d k ∧ chCharge cls x ≤ chLeft s f cls c k then
      .ok (addDraw (addDraw s' ⟨f, cls, k, false, d, dieCharge s cls d x⟩) ⟨f, cls, k, true, c, chCharge cls x⟩)
    else .error .tokens

/-- The part of a window that lies in the period after the one in which it begins. -/
def Win.next (w : Win) : Win := { w with te := max w.te ((w.te / periodNs + 1) * periodNs) }

/-- Place one die's share of a read (R142, R144, R172). -/
def placeNeed (s : State) (f : Nat) (cls : LClass) (slot d : Nat) (x : Need) (w : Win) : Except Why State :=
  if needLost s d x then placeAround s f cls slot d x w false
  else match placeTarget s f cls slot d x w with
    | .ok s' => .ok s'
    | .error .tokens => .error .tokens
    | .error e =>
      if cls = .express ∧ windowBars s d x w ∧ rowErasures s x < 2 then
        match aroundIn s f cls slot d x w with
        | .ok s' => .ok s'
        | .error e' => if w.next.te ≤ w.tl then aroundIn s f cls slot d x w.next else .error e'
      else .error e

/-- A class's stored allotment on a die or its channel is zero in every period (R148). -/
def noAllotment (s : State) (f : Nat) (cls : LClass) (needs : KV Need) : Bool :=
  let now := budgetAt s f s.cal.period
  let nxt := budgetAt s f (s.cal.period + 1)
  !needs.isEmpty && ((now.chOf cls == 0 && nxt.chOf cls == 0)
    || needs.any (fun x => (now.on (dieGroup s x.1)).ofClass cls == 0 && (nxt.on (dieGroup s x.1)).ofClass cls == 0))

/-- A class whose allotment, held by the function, throttling has scaled to zero on a group the read needs (R151, R453). -/
def scaledToZero (s : State) (f : Nat) (cls : LClass) (needs : KV Need) : Bool :=
  needs.any (fun x =>
    let g := dieGroup s x.1
    let k := s.cal.period
    throttleScale s cls g k != 256 && allotDie s f cls g k == 0
      && ((budgetAt s f k).on g).ofClass cls * rebuildScale s cls g k / 256 != 0)

/-- The largest of a measure over a read's dies. -/
def maxNeed (needs : KV Need) (f : Nat → Need → Nat) : Nat := needs.foldl (fun a x => max a (f x.1 x.2)) 0

/-- The rescue check of a read (R141): Standard and Bulk; a read that claims no die has no largest claim. -/
def readRescue (s : State) (p : Path) (cls : LClass) (needs : KV Need) (tOut : Nat) : Bool :=
  !(cls == .standard || cls == .bulk) || 6000 + (if p = .forwarded then 5000 else 3000) + 8000 + maxNeed needs (claimLen s) + tOut ≤ bound cls false / 4

/-- Judge a local read stamped at s0 with its verdict tv later (R138, R141 to R144): the state with its claims and draws, or why not. -/
def placeRead (s : State) (f : Nat) (cls : LClass) (slot : Nat) (needs : KV Need) (bytes s0 tv : Nat) : Except Why State :=
  let k := kRead .local_ cls
  let b := bound cls false
  let tOut := 3000 + bMaxNs s needs + xferNs bytes (rPort s)
  if noAllotment s f cls needs then .error .budget
  else if scaledToZero s f cls needs then .error .throttled
  else if !readRescue s .local_ cls needs tOut then .error .time
  else if needs.isEmpty then (if tv + k.1 + k.2 + 800 + tOut ≤ b then .ok s else .error .time)
  else
    let fault := maxNeed needs (needTr s) + 25000
    needs.foldl (fun r x =>
      match r with
      | .error e => .error e
      | .ok s' =>
        let used := claimLen s x.1 x.2 + tOut + k.2 + fault
        if b < used then .error .time
        else placeNeed s' f cls slot x.1 x.2 { te := nextSlot (s0 + tv + k.1 + 800), tl := s0 + b - used }) (.ok s)

/-- The least Δ ≥ 1 at which a check passes, FFFF_FFFFh where none is found within the reach of any claim (R149). -/
def leastDelta (ok : Nat → Bool) : Nat → Nat → Nat
  | 0, _ => 0xFFFFFFFF
  | fuel + 1, d => if ok d then d else leastDelta ok fuel (d + 1)

/-- The reach of the search of R149 in µs: one bound and two periods. -/
def deltaFuel : Nat := 25000 + 3 * 8192

/-- Retry-after of a read (R149): the same command stamped Δ after the verdict. -/
def retryRead (s : State) (f : Nat) (cls : LClass) (slot : Nat) (needs : KV Need) (bytes s0 tv : Nat) : Nat :=
  leastDelta (fun d => match placeRead s f cls slot needs bytes (s0 + tv + d * 1000) tv with
    | .ok _ => true
    | .error _ => false) deltaFuel 1

/-- Time from an instant to the next period boundary, µs rounded up (R151). -/
def toBoundary (t : Nat) : Nat := ceilDiv ((t / periodNs + 1) * periodNs - t) 1000

/-! ### Forwarded reads (R146, R317) -/

/-- Delegated sixteenths of a function on a group of the twin in the present period. -/
def sixteenths (s : State) (f g : Nat) : Nat :=
  s.cal.grantsIn.foldl (fun a x => if x.func = f ∧ x.group = g then x.sixteenths else a) 0

/-- Die-µs of one standing claim (R317): t_R, with the surcharge for Express. The spec names no density: that of a zone by default (DESIGN CHOICE, log 14). -/
def standingPrice (s : State) (cls : LClass) (d : Nat) : Nat :=
  let tr := tRead 0 (bandOf s d)
  if cls = .express then ceilDiv (tr * 62) 32000 else ceilDiv tr 1000

/-- Standing claims of a function's class on one die of the twin in a period (R317). -/
def standingCount (s : State) (f : Nat) (cls : LClass) (g : Nat) (period charge : Nat) : Nat :=
  allotDie s f cls g period * sixteenths s f g / 16 / max 1 charge

/-- Mark of the j-th standing claim on a die of the twin among the draws. -/
def standingUnit (d j : Nat) : Nat := 1000000 + d * 1024 + j

/-- Use an unused standing claim of period `k` on a die of the twin whose start lies in the window. -/
def useStandingIn (s : State) (f : Nat) (cls : LClass) (d g : Nat) (charge : Nat) (w : Win) (k : Nat) : Option State :=
  let n := standingCount s f cls g k charge
  match (List.range n).find? (fun j =>
    let t := k * periodNs + (2 * j + 1) * 512 / n * slotNs
    w.te ≤ t && t ≤ w.tl && drawn s f cls k false (standingUnit d j) == 0) with
  | some j => some (addDraw s ⟨f, cls, k, false, standingUnit d j, k * periodNs + (2 * j + 1) * 512 / n * slotNs⟩)
  | none => none

/-- Use an unused standing claim on a die of the twin whose start lies in the window (R317). -/
def useStanding (s : State) (f : Nat) (cls : LClass) (d g : Nat) (charge : Nat) (w : Win) : Option State :=
  match useStandingIn s f cls d g charge w (w.te / periodNs) with
  | some s' => some s'
  | none => useStandingIn s f cls d g charge w (w.tl / periodNs)

/-- The start of the first standing claim used since a state (Table 10.8 CLAIM); 0 if none. -/
def claimSince (before s : State) : Nat :=
  (((s.cal.draws.drop before.cal.draws.length).find? (fun d => 1000000 ≤ d.unit)).map (fun d => d.amount)).getD 0

/-- Use one standing claim for each array read a command needs on a die of the twin. -/
def useClaims (s : State) (f : Nat) (cls : LClass) (d : Nat) (x : Need) (price : Nat) (w : Win) : Except Why State :=
  x.reads.foldl (fun r _ =>
    match r with
    | .error e => .error e
    | .ok s => match useStanding s f cls d x.group price w with
      | some s => .ok s
      | none => .error .tokens) (.ok s)

/-- Judge a read that is forwarded to its home (R146, R317). -/
def placeForwarded (s : State) (f : Nat) (cls : LClass) (needs : KV Need) (bytes s0 tv : Nat) : Except Why State :=
  let k := kRead .forwarded cls
  let b := bound cls false
  let tOut := 3000 + bMaxNs s needs + xferNs bytes (rPort s) + 1000 + xferNs bytes (rLink s)
  if noAllotment s f cls needs then .error .budget
  else if scaledToZero s f cls needs then .error .throttled
  else if !readRescue s .forwarded cls needs tOut then .error .time
  else if needs.isEmpty then (if tv + k.1 + k.2 + 800 + tOut ≤ b then .ok s else .error .time)
  else
    let fault := maxNeed needs (needTr s) + 25000
    needs.foldl (fun r x =>
      match r with
      | .error e => .error e
      | .ok s' =>
        let used := claimLen s x.1 x.2 + tOut + k.2 + fault
        if b < used then .error .time
        else useClaims s' f cls x.1 x.2 (standingPrice s cls x.1) { te := nextSlot (s0 + tv + k.1 + 800), tl := s0 + b - used }) (.ok s)

/-- Retry-after of a forwarded read (R149), judged as its verdict was. -/
def retryForwarded (s : State) (f : Nat) (cls : LClass) (needs : KV Need) (bytes s0 tv : Nat) : Nat :=
  leastDelta (fun d => match placeForwarded s f cls needs bytes (s0 + tv + d * 1000) tv with
    | .ok _ => true
    | .error _ => false) deltaFuel 1

/-! ### Writes (R139, R141, R145, R153, R268) -/

/-- Time check and rescue check of a write-bound command. -/
def writeTimes (s : State) (n : Ns) (cls : LClass) (op : IoOp) (bytes tv : Nat) (all : Bool) : Bool :=
  let p := pathOf n op
  let b := bound cls true
  let S := sWrite s n p op bytes all + twinSlc s n cls op
  tv + kWrite s n p cls op + S + fWrite s n op ≤ b && 6000 + cx s n p + S ≤ b / 4

/-- Retry-after for a full share: shortfall ÷ drain rate, FFFF_FFFFh at rate 0 (Table 5.7). -/
def shareRetry (short drained : Nat) : Nat := if drained = 0 then 0xFFFFFFFF else ceilDiv (short * 8192) drained

/-- A journal share of no bytes in any period: no share of its own and no common share (R148). -/
def noShare (s : State) (f : Nat) : Bool := onCommon s f && shareSum s == 3072

/-- The record size of a write (R145). -/
def recBytes (n : Ns) (op : IoOp) (nlb : Nat) : Nat :=
  (if op = .write ∨ op = .append then nlb * (lbaBytes n.flbas + metaBytes n.flbas) else 0) + 256

/-- Free part of the share that the twin granted: the part granted, less the forwarded writes still open (R146). -/
def shareGranted (s : State) (f : Nat) : Nat :=
  shareBytes s f * s.cal.grantsIn.foldl (fun a x => if x.func = f then max a x.sixteenths else a) 0 / 16
    - s.port.cmds.foldl (fun a p =>
      if p.2.fwd && p.2.func == f && (p.2.op == .write || p.2.op == .append || p.2.op == .writeZeroes) && p.2.cls != .unbound then
        a + (nsOf s p.2.nsid).elim 0 (fun n => recBytes n p.2.op p.2.nlb) else a) 0

/-- The write-through program claims of a Bulk write on its group's members (R139): the state with them placed. -/
def placeWt (s : State) (n : Ns) (f slot nlb s0 tv : Nat) (g : Nat) (op : IoOp) (bytes : Nat) : Option State :=
  let wls := ceilDiv (ceilDiv (nlb * unitsPerLba n.flbas) (4 * groupMembers s g)) 4
  let p := pathOf n op
  let k := kWrite s n p .bulk op
  let S := sWrite s n p op bytes false
  let te := nextSlot (s0 + tv + k + S)
  let endBy := s0 + bound .bulk true - (k + 3000 + fWrite s n op)
  (layoutPos (groupMembers s g) (grpOf s g).dead).foldl (fun r q =>
    match r with
    | none => none
    | some s' =>
      let d := memberDie s' g q
      let len := wls * tOp .slc (bandOf s' d)
      if endBy < te + len then none
      else match firstSlot (fun t => freeAt s' d t (t + len) && floorHolds s' d t len
          && runningWeight s' t + weightOp .slc + heldWeight s' t ≤ s'.pw.flashMw) (endBy - len) (windowFuel te endBy) te with
        | some t => some (addClaim s' { die := d, start := t, len := len, kind := .wtProgram, cls := .bulk, func := f, slot := some slot })
        | none => none) (some s)

end Sys2Proof.Machine
end

