-- ==== Sys2Proof/Machine/Front.lean ====
section
/-! DEFINITION. The front end: fetch order, the fetch of an entry, legality by mode and path, keys, buffers, dispatch to a core, acceptance and refusal. -/

namespace Sys2Proof.Machine

/-! ### Fetch order (R83, R85) -/

/-- The level of a queue (R83). -/
def levelOf (qid : Nat) (q : Sq) : Nat :=
  if qid = 0 then 0
  else match q.cls with
    | some .express => 1
    | some .standard => 2
    | some .bulk => 3
    | _ => 4

/-- An entry of the queue can be fetched (R54, R64, R66, R85, R154, R460): the controller is ready and fetching, a command slot is free, and the completion queue has an entry to reserve. -/
def fetchable (s : State) (key : Nat) (q : Sq) : Bool :=
  let c := ctrl s (key / 65536)
  s.md.mode != .measure && s.md.mode != .harvest && s.md.mode != .holiday && c.rdy && c.shst == 0
    && !q.stamps.isEmpty && q.deleting.isNone && s.port.cmds.length < 65536
    && !(s.boot.activating.isSome && key % 65536 != 0 && q.cls == some .unbound)
    && !((s.md.ps4.isSome || s.md.entering) && key % 65536 != 0)
    && (match KV.find s.port.cqs (qkey (key / 65536) q.cqid) with
        | some cq => cq.reserved + (cq.tail + cq.size - cq.head) % cq.size + 1 < cq.size
        | none => false)

/-- Queues with an entry that can be fetched: key and level. -/
def waitingQueues (s : State) : List (Nat × Nat) :=
  (s.port.sqs.filter (fun p => fetchable s p.1 p.2)).map (fun p => (p.1, levelOf (p.1 % 65536) p.2))

/-- The member of a rising list after a given value, going round. -/
def nextRound (l : List Nat) (last : Nat) : Option Nat :=
  match l.find? (fun x => last < x) with
  | some x => some x
  | none => l.head?

/-- The queue a new turn at a level goes to: round-robin over functions, then over the function's queues (R83). -/
def turnQueue (s : State) (ws : List (Nat × Nat)) (lvl : Nat) : Option Nat :=
  let keys := (ws.filter (fun w => w.2 == lvl)).map (·.1)
  match nextRound ((keys.map (· / 65536)).dedup) (nth s.port.lastServed lvl) with
  | none => none
  | some f => nextRound (keys.filter (fun k => k / 65536 == f)) (KV.findD s.port.lastQueue (lvl * 128 + f) 0)

/-- The queue whose entry is judged next, and whether that begins a new turn (R83). -/
def nextServed (s : State) : Option (Nat × Bool) :=
  let ws := waitingQueues s
  let cont := match s.port.turnKey with
    | some k => s.port.turnUsed < 8 && ws.any (fun w => w.1 == k)
    | none => false
  if cont then s.port.turnKey.map (fun k => (k, false))
  else
    let lvls := ws.map (·.2)
    let lvl := if (s.port.turn + 1) % 16 = 0 then lvls.foldl max 0 else lvls.foldl min 4
    (turnQueue s ws lvl).map (fun k => (k, true))

/-- Fetch the entry at the head of a queue (R83, R85, R147): its doorbell stamp and the state with the entry consumed and a completion entry reserved; none where this queue is not the one served now. -/
def fetch (s : State) (func qid : Nat) : Option (Nat × State) :=
  let key := qkey func qid
  match nextServed s, KV.find s.port.sqs key with
  | some (k, newTurn), some q =>
    if k ≠ key then none
    else match q.stamps with
      | [] => none
      | st :: rest =>
        let lvl := levelOf qid q
        let q' := { q with stamps := rest, head := if q.head + 1 = q.size then 0 else q.head + 1 }
        some (st, { s with port := { s.port with
          sqs := KV.set s.port.sqs key q'
          cqs := KV.adj s.port.cqs (qkey func q.cqid) (fun c => { c with reserved := c.reserved + 1 })
          turn := if newTurn then s.port.turn + 1 else s.port.turn
          turnKey := some key
          turnUsed := if newTurn then 1 else s.port.turnUsed + 1
          lastServed := if newTurn then modAt s.port.lastServed lvl (fun _ => func) else s.port.lastServed
          lastQueue := if newTurn then KV.set s.port.lastQueue (lvl * 128 + func) key else s.port.lastQueue } })
  | _, _ => none

/-! ### Legality of I/O (R53, R55, Tables 2.8 and 2.9) -/

/-- The state as an entry stamped before the thermal shut-down sequence began sees it (R457 step 1). -/
def asStamped (s : State) (stamp : Nat) : State :=
  if s.th.shut ≠ 0 ∧ stamp < s.th.shutAt then { s with th := { s.th with shut := 0 } } else s

/-- Steps 3 to 5 of R53 for an I/O command: the refusal of the mode and the path state in force at its stamp (R54, R92), and of the namespace's state. In Quarantine a namespace that reads Persistent Loss is refused with it, whatever the cause (DEDUCED, log 114). -/
def ioRefusal (s : State) (n : Ns) (write : Bool) (stamp : Nat) : Option (Status × Nat) :=
  let m := modeAt s stamp
  let a := (n.pathAt stamp).getD (anaOf { asStamped s stamp with md := m } n)
  match m.mode with
  | .measure | .recovery => some (.namespaceNotReady, 0)
  | .pairing => if !m.pairServing then some (.namespaceNotReady, 0) else pathRefusal a
  | .quarantine =>
    if a = .persistentLoss then some (.anaPersistentLoss, 0)
    else if m.qcause ≠ 4 ∨ a = .inaccessible then some (.anaInaccessible, 0)
    else if write then some (.c4, Mode.quarantine.code) else pathRefusal a
  | _ => pathRefusal a
where
  pathRefusal (a : Ana) : Option (Status × Nat) :=
    match a with
    | .inaccessible => some (.anaInaccessible, 0)
    | .persistentLoss => some (.anaPersistentLoss, 0)
    | .change => some (.anaTransition, 0)
    | _ => if n.erasing = some true then some (if n.sanitizing then (.sanitizeInProgress, 0) else (.formatInProgress, 0)) else none

/-! ### Keys (R387 to R390) -/

/-- The key identity of a data slot: 0 where it is empty. -/
def slotKey (s : State) (k : Nat) : Nat := (KV.findD s.keys.slots k {}).cur

/-- The key a command uses, or its refusal (R389, R390); a namespace held by the twin alone has its keys there, and only the number of tags is known here. -/
def keyFor (s : State) (n : Ns) (f : Nat) (tag : Option Nat) (write : Bool) : Except Status Nat :=
  if !n.held then (if n.kpio ≠ 0 ∧ n.kpio ≤ tag.getD 0 then .error .invalidField else .ok 0)
  else if n.kpio = 0 then
    (if n.keyLost ∨ slotKey s (nth n.slots 0) = 0 then (if write then .error .invalidField else .error .unrecoveredRead)
     else .ok (slotKey s (nth n.slots 0)))
  else
    let t := tag.getD 0
    let ks := KV.findD s.keys.slots (nth n.slots t) {}
    if n.kpio ≤ t ∨ ks.cur = 0 ∨ ks.tenant ≠ f then .error .invalidField else .ok ks.cur

/-! ### Buffers (R468, R471) -/

/-- The quotas of Unbound commands hold with further buffers (R471). -/
def quotaFits (s : State) (f : Nat) (b : List Nat) : Bool :=
  let un := s.port.cmds.filter (fun c => c.2.cls == .unbound)
  let mine := (un.filter (fun c => c.2.func == f)).foldl (fun a c => a + bufBytes c.2.bufs) 0
  let all := un.foldl (fun a c => a + bufBytes c.2.bufs) 0
  let cnt := un.foldl (fun a c => a + c.2.bufs.length) 0
  mine + bufBytes b ≤ mib && all + bufBytes b ≤ 8 * mib && cnt + b.length ≤ 512

/-- R471: while fewer than 4 MiB of buffers are free, the buffers held only for a forward send move to the spill area, which holds 512 MiB: the reference goes to the copy. -/
def spillSends (s : State) : State :=
  if 4194304 ≤ freeBytes s.it.pools then s
  else (s.port.cmds.filter (fun p => p.2.users == [.forward] && p.2.stage == .forwarded && !p.2.bufs.isEmpty)).foldl (fun s p =>
    let n := bufBytes p.2.bufs
    if 536870912 < s.it.spill + n then s
    else
      let s := p.2.bufs.foldl decBuf s
      setCmd { s with it := { s.it with spill := s.it.spill + n } } p.1 (fun c => { c with bufs := [], users := [], spilled := c.spilled + n })) s

/-- Give a command its buffers, each with a reference for every user, or leave it waiting for them (R280, R468, R471); data from the host enters the cipher engine on its way in (R25). -/
def takeBufs (s : State) (slot bytes : Nat) (users : List BufUser) : State :=
  match KV.find s.port.cmds slot, allocBufs s.it.pools bytes with
  | some c, some (p, b) =>
    if c.cls = .unbound ∧ !quotaFits s c.func b then setCmd s slot (fun c => { c with needBytes := bytes, users := users })
    else
      let s := holdBufs { s with it := { s.it with pools := p } } b users.length
      let s := if c.op.isWrite then startXts s slot c bytes else s
      spillSends (setCmd s slot (fun c => { c with bufs := b, needBytes := 0, users := users }))
  | some _, none => setCmd s slot (fun c => { c with needBytes := bytes, users := users })
  | none, _ => s

/-! ### Dispatch to a core (R26, R32) -/

/-- A core in service: not hung, not in reset; in Measure the security core alone runs, and the others are held in reset to its end (R357). -/
def coreRuns (s : State) (c : Nat) : Bool :=
  let x := KV.findD s.it.cores c {}
  !x.hung && !x.inReset && (s.md.mode != .measure || c == 28)

/-- The core that owns a zone number: z mod 24, or the core its zones have moved to (R26, R32). -/
def zoneCore (s : State) (z : Nat) : Nat :=
  let c := z % 24
  match (KV.findD s.it.cores c {}).zones with
  | some c' => c'
  | none => c

/-- R17, Table 1.2: the crossings between islands. -/
inductive IslandCrossing where
  | hostCore | coreHost | coreCalendar | calendarChannel | writeData | readData | programData | channelData | dram
  | peerPriority | peerBulk | alwaysOn | placement | control | timeSamples
  deriving DecidableEq, Repr

/-- Table 1.2: the credits of each, per core, channel, direction or island where it says so. A step of the model places and frees the entries of the other crossings within itself; those of the first and the third wait (log 107). -/
def IslandCrossing.credits : IslandCrossing → Nat
  | .hostCore | .coreHost | .placement => 64
  | .coreCalendar => 256
  | .calendarChannel => 16
  | .writeData | .readData => 2048
  | .programData | .dram => 128
  | .channelData => 64
  | .peerPriority => 512
  | .peerBulk => 3584
  | .alwaysOn | .control => 32
  | .timeSamples => 1

/-- Free host → core credits of a core (R17, R26, Table 1.2): each descriptor it has not taken yet holds one of 64. -/
def coreCredits (s : State) (c : Nat) : Nat := IslandCrossing.hostCore.credits - s.port.cmds.countP (fun p => p.2.core == c && p.2.descr)

/-- A core takes the descriptors that wait in its crossing (R17): their credits return. -/
def takeDescr (s : State) (p : Nat → Bool) : State :=
  { s with port := { s.port with cmds := KV.mapVals s.port.cmds (fun _ c => if p c.core then { c with descr := false } else c) } }

/-- The running core with the most free credits, the lowest on a tie (R26). -/
def freeCore (s : State) : Nat :=
  ((List.range 24).filter (coreRuns s)).foldl (fun a c => if coreCredits s a < coreCredits s c ∨ !coreRuns s a then c else a) 0

/-- Commands that R26 binds to the core of their zone. -/
def IoOp.zoneBound : IoOp → Bool
  | .write | .writeZeroes | .append | .zms => true
  | _ => false

/-- The core an entry is dispatched to (R26): the zone's for a command that reads or changes its write pointer, else the one with the most free credits. The zone of a namespace that the twin alone holds has no number in this module, so no core owns it here. -/
def dispatchCore (s : State) (n : Ns) (op : IoOp) (slba : Nat) : Nat :=
  if op.zoneBound && n.zoned && n.held then zoneCore s (n.znum (slba / zoneSize n.flbas)) else freeCore s

/-! ### Acceptance and refusal (R147, R155) -/

/-- The lowest free command-table slot. -/
def freeSlot (s : State) : Nat := ((List.range 65536).find? (fun i => (KV.find s.port.cmds i).isNone)).getD 0

/-- Put an accepted command into the table with its timer (R29, R31), counted in the ledger (R155). -/
def accept (s : State) (slot : Nat) (c : Cmd) : State :=
  let b := bound c.cls c.op.isWrite
  let c := if c.cls = .unbound then c
    else { c with deadline := some (c.stamp + b), armed := true, rescue := some (c.stamp + b - b / 4) }
  let row := ledgerRow c.cls c.op
  let s := setLedger s c.func row (fun l => { l with admitted := (l.admitted + 1) % 2^64 })
  { s with
    port := { s.port with
      cmds := KV.set s.port.cmds slot c
      modAdmitted := modAt s.port.modAdmitted row (· + 1)
      ledActAt := if s.port.cmds.isEmpty then s.time.dtb else s.port.ledActAt } }

/-- Count the claims placed for a command among its function's of the period, and among those that came through the twin (R146). -/
def countClaims (s : State) (slot func : Nat) (twin : Bool) : State :=
  let n := s.cal.claims.countP (fun c => c.slot == some slot)
  { s with cal := { s.cal with
    viaAll := KV.upd s.cal.viaAll func 0 (· + n), viaTwin := if twin then KV.upd s.cal.viaTwin func 0 (· + n) else s.cal.viaTwin } }

/-- Complete an entry that is refused before it takes a command slot. -/
def refuse (s : State) (e : Io) (st : Status) (dw0 : Nat := 0) : State := complete s e.func e.sqid e.cid st dw0

/-- Refuse an entry with C0h or C2h and count it (R148, R155). -/
def refuseWhy (s : State) (e : Io) (cls : LClass) (op : IoOp) (why : Why) (dw0 : Nat) : State :=
  let row := ledgerRow cls op
  let s := setLedger s e.func row (fun l => match why with
    | .tokens => { l with rejTokens := (l.rejTokens + 1) % 2^32 }
    | .place => { l with rejPlace := (l.rejPlace + 1) % 2^32 }
    | .journal => { l with rejJournal := (l.rejJournal + 1) % 2^32 }
    | .budget => { l with rejBudget := (l.rejBudget + 1) % 2^32 }
    | _ => { l with rejOther := (l.rejOther + 1) % 2^32 })
  let s := { s with port := { s.port with modRefused := modAt s.port.modRefused row (· + 1) } }
  if why = .budget then complete s e.func e.sqid e.cid .c2 0 else complete s e.func e.sqid e.cid .c0 dw0

/-- The retry hint of the causes that refuse a bound command before its price: the Holiday window (R51), whose time left R51 gives whatever else refuses, and a pending activation (R154). -/
def earlyRefusal (s : State) (cls : LClass) (stamp tv : Nat) : Option Nat :=
  if cls = .unbound then none
  else if (cls = .express ∨ cls = .standard) ∧ stamp + tv < s.md.rejectUntil then
    some (ceilDiv (s.md.rejectUntil - (stamp + tv)) 1000)
  else if s.boot.activating.isSome then some 0xFFFFFFFF
  else none

/-- A time of this module in the twin's time base (R303). -/
def twinTime (s : State) (t : Nat) : Nat := (Int.ofNat t + s.tw.peerOffset).toNat

/-- The NVMe opcode of an I/O command (NVMe 2.0 and the Zoned Namespace command set, PRESUMED). -/
def IoOp.code : IoOp → Nat
  | .read => 2 | .write => 1 | .writeZeroes => 8 | .append => 0x7D | .flush => 0 | .zmr => 0x7A | .zms => 0x79

/-- The message that carries a command to the twin, with the fields of Table 10.8 (R270, R315, R316); a write's data goes with the key it was enciphered under (R25, R398). -/
def sendForwarded (s : State) (e : Io) (c : Cmd) : State :=
  send s (if c.cls == .express || c.cls == .standard then 0x04 else 0x21) c.tag ([c.op.code, c.nsid, c.slba, c.nlb, c.func, c.cls.code, c.sqid, c.cid, c.stamp,
    if c.cls = .unbound then 0 else twinTime s (c.stamp + bound c.cls c.op.isWrite), c.claim, c.keyTag.elim 0 (· + 1), e.action, bit e.partialBit, e.option, e.numd, c.key] ++ c.data)

/-- A command carries host data to the module. -/
def IoOp.bringsData : IoOp → Bool
  | .write | .append => true
  | _ => false

/-- Forward an accepted command to the twin (R270, R315, R316): `claim` the start of a read's first standing claim. A write's data is first taken in here, into buffers held for the forward send (R24, R25, R280); one stamped before the twin was lost ends as R319 ends those forwarded already. -/
def forward (s : State) (slot : Nat) (e : Io) (c : Cmd) (claim : Nat := 0) : State :=
  let tag := s.tw.tagCtr
  let c := { c with fwd := true, tag := tag, claim := claim, stage := if c.op.bringsData then Stage.buffered else .forwarded }
  let s := accept s slot c
  if s.md.mode ≠ .service then finish s slot .anaInaccessible else
  let s := { s with tw := { s.tw with tagCtr := (tag + 1) % 2^31 } }
  if c.op.bringsData then takeBufs s slot (c.nlb * (nsOf s c.nsid).elim 4096 (fun n => lbaBytes n.flbas)) [.forward]
  else sendForwarded s e c

end Sys2Proof.Machine
end

