-- ==== Sys2Proof/Machine/Io.lean ====
section
/-! DEFINITION. The I/O commands: reads, writes, appends, flush, zone management (chapters 4, 5 and 9). -/

namespace Sys2Proof.Machine

/-- What the front end knows of an entry that passed steps 1 to 6 of R53. -/
structure Judged where
  st : State
  ns : Ns
  key : Nat
  cls : LClass
  stamp : Nat

/-- A command carries host data. -/
def IoOp.hasData : IoOp → Bool
  | .read | .write | .append => true
  | _ => false

/-- Step 2 of R53 for an I/O entry: the standard status of an invalid field; `all` with Select All, whose action is one of Table 4.8 (R120). -/
def ioField (s : State) (e : Io) (n : Ns) (op : IoOp) (all : Bool) : Option Status :=
  if !n.attached.contains e.func then some .invalidField
  else if op = .flush then none
  else if all then (if e.action = 0 ∨ 5 < e.action then some .invalidField else none)
  else if op = .zms ∧ e.slba % zoneSize n.flbas ≠ 0 then some .invalidField
  else if op.hasData ∧ 2 * mib < e.nlb * lbaBytes n.flbas then some .invalidField
  else if op = .writeZeroes ∧ 2 * mib < e.nlb * lbaBytes n.flbas then some .invalidField
  else if n.nsze ≤ e.slba ∨ ((op = .read ∨ op = .write ∨ op = .writeZeroes) ∧ n.nsze < e.slba + e.nlb) then some .lbaOutOfRange
  else if op = .read ∧ n.zoned ∧ zoneSize n.flbas < e.slba % zoneSize n.flbas + e.nlb then some .zoneBoundaryError
  else if op.hasData ∨ op = .writeZeroes then
    match keyFor s n e.func e.keyTag (op != .read) with
    | .error st => some st
    | .ok _ => none
  else none

/-- The core an entry would be dispatched to has no host → core credit left (R17, R18): no further entry is judged until it takes one. -/
def noCredit (s : State) (e : Io) (op : IoOp) : Bool :=
  coreCredits s ((nsOf s e.nsid).elim (freeCore s) (fun n => dispatchCore s n op e.slba)) == 0

/-- Fetch an entry and judge steps 1 to 6 of R53; an error carries the state with the entry refused, or the state itself where the entry is not the one served. -/
def ioFront (s : State) (e : Io) (op : IoOp) (all : Bool := false) : Except State Judged :=
  if e.sqid = 0 || noCredit s e op then .error s
  else if (nsOf s e.nsid).any (fun n => n.erasing == some false) then .error s
  else match fetch s e.func e.sqid with
    | none => .error s
    | some (stamp, s) =>
      match nsOf s e.nsid with
      | none => .error (refuse s e .invalidNamespace)
      | some n =>
        if !n.zoned ∧ (op = .append ∨ op = .zmr ∨ op = .zms) then .error (refuse s e .invalidOpcode)
        else match ioField s e n op all with
          | some st => .error (refuse s e st)
          | none =>
            match ioRefusal s n op.isWrite stamp with
            | some (st, d) => .error (refuse s e st d)
            | none =>
              match sqClass s e.func e.sqid with
              | none => .error (refuse s e .c1)
              | some cls =>
                let key := match keyFor s n e.func e.keyTag op.isWrite with
                  | .ok k => k
                  | .error _ => 0
                .ok { st := s, ns := n, key := key, cls := cls, stamp := stamp }

/-- The context of an accepted entry. -/
def newCmd (e : Io) (op : IoOp) (j : Judged) (core : Nat) : Cmd :=
  { func := e.func, sqid := e.sqid, cid := e.cid, op := op, nsid := e.nsid, slba := e.slba, nlb := e.nlb, cls := j.cls,
    stamp := j.stamp, core := core, key := j.key, keySlot := nth j.ns.slots (e.keyTag.getD 0), keyTag := e.keyTag, data := if op = .zms then e.ext else e.data, action := e.action,
    zone := if j.ns.zoned then some (e.slba / zoneSize j.ns.flbas) else none }

/-! ### Read (R138 to R144, R172) -/

/-- A lost unit lies in the range (R227, R239). -/
def lostIn (s : State) (nsid lba : Nat) : Bool :=
  s.media.extents.any (fun x => x.nsid == nsid && x.slba ≤ lba && lba < x.slba + x.count)

/-- The content of a deallocated LBA (R101): zeros, and where protection information is enabled FFh in each byte of it, at the place in the metadata that DPS gives (NVMe 2.0, PRESUMED, log 122). -/
def deallocated (n : Ns) : Nat :=
  if n.dps % 8 = 0 then 0
  else
    let pi := if n.flbas % 3 = 2 && Config.guard64 n.flbas then 16 else 8
    (2^(8 * pi) - 1) * 2^(8 * (lbaBytes n.flbas + (if 8 ≤ n.dps then 0 else metaBytes n.flbas - pi)))

/-- The data of a read as dispatched now (R101, R118, R400): an LBA at or above the write pointer, or never written, as deallocated; zeros for lost LBAs. -/
def readData (s : State) (nsid : Nat) (n : Ns) (slba nlb key : Nat) : List Nat :=
  (List.range nlb).map (fun i =>
    let lba := slba + i
    if n.zoned ∧ (n.zone (lba / zoneSize n.flbas)).wp ≤ lba % zoneSize n.flbas then deallocated n
    else if lostIn s nsid lba then 0
    else if readLba s nsid lba = {} then deallocated n
    else plain (readLba s nsid lba) key)

/-- The status a read ends with: Unrecovered Read Error where an LBA is lost (R239). -/
def readStatus (s : State) (nsid slba nlb : Nat) : Status :=
  if (List.range nlb).any (fun i => lostIn s nsid (slba + i)) then .unrecoveredRead else .success

/-- The C0h hint of a read that is not placed (Table 5.7). -/
def readHint (s : State) (p : Path) (e : Io) (cls : LClass) (needs : KV Need) (bytes stamp : Nat) (why : Why) : Nat :=
  match why, p with
  | .throttled, _ => toBoundary (stamp + e.tv)
  | _, .local_ => retryRead s e.func cls 65536 needs bytes stamp e.tv
  | _, .forwarded => retryForwarded s e.func cls needs bytes stamp e.tv

/-- A Read dispatched here: its data as it stands, the dies it waits for, its buffers. -/
def startRead (s : State) (slot : Nat) (e : Io) (j : Judged) (needs : KV Need) : State :=
  let c := { newCmd e .read j (freeCore s) with
    data := readData s e.nsid j.ns e.slba e.nlb j.key, result := readStatus s e.nsid e.slba e.nlb
    dies := needs.map (·.1), stage := if needs.isEmpty then .dieDone else .dieRequested }
  let s := takeBufs (accept s slot c) slot (e.nlb * lbaBytes j.ns.flbas) [.transfer]
  if needs.isEmpty then startXts s slot c (e.nlb * lbaBytes j.ns.flbas) else s

/-- A read's zone is Offline (R103, R114). -/
def readOffline (e : Io) (n : Ns) : Bool := n.zoned && (n.zone (e.slba / zoneSize n.flbas)).st == .offline

/-- What a read needs where it is carried out. -/
def pathNeeds (s : State) (e : Io) (n : Ns) : Path → KV Need
  | .local_ => needsOf s e.nsid n e.slba e.nlb
  | .forwarded => twinNeeds s e.nsid n e.slba e.nlb

/-- A Read whose claims are placed: one of an Offline zone ends there with its tokens returned (R114), another is read. -/
def admitRead (s placed : State) (slot : Nat) (e : Io) (j : Judged) (needs : KV Need) : State :=
  if readOffline e j.ns then finish (accept s slot (newCmd e .read j (freeCore s))) slot .zoneIsOffline
  else countClaims (startRead placed slot e j needs) slot e.func false

/-- READ (R138): judged at steps 7 and 8 of R53, priced, its claims placed; read here, or forwarded. -/
def execRead (e : Io) (s : State) : Host.Outcome State Fault Refusal :=
  match ioFront s e .read with
  | .error s' => .next s'
  | .ok j =>
    let s := j.st
    let slot := freeSlot s
    let p := pathOf j.ns .read e.slba
    let needs := pathNeeds s e j.ns p
    let bytes := e.nlb * lbaBytes j.ns.flbas
    let no (why : Why) : State := refuseWhy s e j.cls .read why (readHint s p e j.cls needs bytes j.stamp why)
    if j.cls ≠ .unbound ∧ noAllotment s e.func j.cls needs then .next (refuseWhy s e j.cls .read .budget 0)
    else match earlyRefusal s j.cls j.stamp e.tv with
    | some d => .next (refuseWhy s e j.cls .read .other d)
    | none =>
      match p with
      | .forwarded =>
        if j.cls = .unbound then .next (forward s slot e (newCmd e .read j (freeCore s)))
        else match placeForwarded s e.func j.cls needs bytes j.stamp e.tv with
          | .ok s' => .next (forward s' slot e (newCmd e .read j (freeCore s)) (claimSince s s'))
          | .error why => .next (no why)
      | .local_ =>
        if j.cls = .unbound then .next (admitRead s s slot e j needs)
        else match placeRead s e.func j.cls slot needs bytes j.stamp e.tv with
          | .ok s' => .next (admitRead s s' slot e j needs)
          | .error why => .next (no why)

/-! ### Zone Management Receive (R105, R137) -/

/-- The state code of a zone descriptor (Zoned Namespace command set, PRESUMED). -/
def ZState.code : ZState → Nat
  | .empty => 1 | .implOpen => 2 | .explOpen => 3 | .closed => 4 | .readOnly => 0xD | .full => 0xE | .offline => 0xF

/-- The reporting option's filter (Zoned Namespace command set, PRESUMED). -/
def zoneListed (z : Zone) (option : Nat) : Bool :=
  match option with
  | 0 => true
  | 1 => z.st == .empty
  | 2 => z.st == .implOpen
  | 3 => z.st == .explOpen
  | 4 => z.st == .closed
  | 5 => z.st == .full
  | 6 => z.st == .readOnly
  | _ => z.st == .offline

/-- Zone attributes: bit 0 finished by the controller, 1 finish recommended, 2 reset recommended, 7 extension valid. -/
def Zone.attrs (z : Zone) : Nat := bit z.finishedByCtrl + bit z.finishRec * 2 + bit z.resetRec * 4 + bit z.extValid * 128

/-- A zone descriptor, 64 bytes (Zoned Namespace command set, PRESUMED; R95, R99, R104). -/
def zoneDesc (n : Ns) (i : Nat) : List Nat :=
  let z := n.zone i
  let zs := zoneSize n.flbas
  [2, z.st.code * 16, z.attrs, 0, 0, 0, 0, 0] ++ leBytes 8 (n.zoneCapNow i) ++ leBytes 8 (i * zs)
    ++ leBytes 8 (i * zs + z.wp) ++ List.replicate 32 0

/-- The full report from the command's starting LBA to the end of the namespace. -/
def zoneReport (n : Ns) (first option : Nat) (extended : Bool) : List Nat :=
  let zs := (List.range (n.zoneCount - first)).map (· + first) |>.filter (fun i => zoneListed (n.zone i) option)
  leBytes 8 zs.length ++ List.replicate 56 0
    ++ zs.flatMap (fun i => zoneDesc n i ++ (if extended then extBytes (n.zone i).ext else []))

/-- Zone Management Receive of either action: priced by the bytes transferred (Table 5.5). The spec names no row of Table 5.4 for it: it is priced on the read row of its path, without t_front, which is a read's before placement (DESIGN CHOICE, log 106). -/
def zoneReceive (e : Io) (s : State) (extended : Bool) : State :=
  match ioFront s e .zmr with
  | .error s' => s'
  | .ok j =>
    let s := j.st
    let slot := freeSlot s
    let d := (zoneReport j.ns (e.slba / zoneSize j.ns.flbas) e.option extended).take (4 * (e.numd + 1))
    match earlyRefusal s j.cls j.stamp e.tv with
    | some dw => refuseWhy s e j.cls .zmr .other dw
    | none =>
      let p := pathOf j.ns .zmr e.slba
      let k := kRead p j.cls
      let t := 3000 + xferNs d.length (rPort s) + (if p = .forwarded then 1000 + xferNs d.length (rLink s) else 0)
      if j.cls ≠ .unbound ∧ bound j.cls false < e.tv + k.1 + k.2 + t then
        refuseWhy s e j.cls .zmr .time 0xFFFFFFFF
      else if p = .forwarded then forward s slot { e with action := bit extended } (newCmd e .zmr j (freeCore s))
      else accept s slot { newCmd e .zmr j (freeCore s) with data := d, stage := .dieDone }

/-- REPORT_ZONES (R137). -/
def execReportZones (e : Io) (s : State) : Host.Outcome State Fault Refusal := .next (zoneReceive e s false)

/-- EXTENDED_REPORT_ZONES (R105). -/
def execExtendedReportZones (e : Io) (s : State) : Host.Outcome State Fault Refusal := .next (zoneReceive e s true)

/-! ### Write-bound commands: steps 7 and 8 of R53 -/

/-- The metadata log is full (R127). -/
def logFull (n : Ns) : Bool := !n.zoned && n.logUsed.all (fun u => logUnits ≤ u)

/-- Write-through acts on a namespace as an entry's stamp found it: raised here, or on the twin for a mirrored one (R279). -/
def wtOn (s : State) (n : Ns) (stamp : Nat) : Bool := (modeAt s stamp).writeThrough || (mirrors s n && twinWt s)

/-- Write-through acts on a namespace's records now (R279). -/
def wtNow (s : State) (n : Ns) : Bool := s.md.writeThrough || (mirrors s n && twinWt s)

/-- The bank is charging after power good or after a test (R153). -/
def bankCharging (s : State) : Bool := s.sup.charger && !s.sup.first70 || s.sup.test == .recharging

/-- Judge steps 7 and 8 of R53 for a write-bound command (R139 to R154): the state with its claims and draws, or the refusal. -/
def writeFront (s : State) (e : Io) (j : Judged) (op : IoOp) (slot : Nat) (all : Bool) : Except State State :=
  let n := j.ns
  let bytes := e.nlb * lbaBytes n.flbas
  let no (why : Why) (d : Nat) : Except State State := .error (refuseWhy s e j.cls op why d)
  let noFree (why : Why) (f : Nat → Nat) : Except State State :=
    .error (refuseWhy (drawFree s).2 e j.cls op why (f (drawFree s).1))
  let write := op == .write || op == .append || op == .writeZeroes
  let rb := recBytes n op e.nlb
  let wt := wtNow s n
  if j.cls = .unbound then .ok s
  else if write && noShare s e.func && !wt then no .budget 0
  else match earlyRefusal s j.cls j.stamp e.tv with
    | some d => no .other d
    | none =>
      if wtOn s n j.stamp && j.cls != .bulk && op != .flush then
        (if bankCharging s then noFree .other (fun v => v % 2^32) else no .other 0xFFFFFFFF)
      else if n.offered && op != .flush then noFree .other (fun v => v % 51)
      else if write && logFull n then noFree .other (fun v => v % 2^32)
      else if !writeTimes s n j.cls op bytes e.tv all then no .time 0xFFFFFFFF
      else if write && pathOf n op == .local_ then
        (if wt then
          (if !wtFits s e.func rb then no .journal (shareRetry (wtShort s e.func rb) (KV.findD s.jr.drainLast e.func 0))
           else if op = .writeZeroes then .ok s
           else match (match n.zoned, (n.zone (e.slba / zoneSize n.flbas)).group with
              | true, some g => some g
              | true, none => (match place s e.func {} with
                | .ok g => some g
                | .error _ => none)
              | false, _ => some (logGroup s e.nsid)) with
            | none => .ok s
            | some g => match placeWt s n e.func slot e.nlb j.stamp e.tv g op bytes with
              | some s' => .ok s'
              | none => no .place (leastDelta (fun d => (placeWt s n e.func slot e.nlb (j.stamp + e.tv + d * 1000) e.tv g op bytes).isSome) deltaFuel 1))
         else if shareOwn s e.func < rb then no .journal (shareRetry (rb - shareOwn s e.func) (KV.findD s.jr.drainLast e.func 0))
         else if mirrors s n && mirrorCredit s e.func < rb then
           no .journal (shareRetry (rb - mirrorCredit s e.func) (KV.findD s.jr.twinDrain e.func 0 * 8192))
         else .ok s)
      else if write && !wt && pathOf n op == .forwarded && shareGranted s e.func < rb then
        no .journal (shareRetry (rb - shareGranted s e.func) (KV.findD s.jr.twinDrain e.func 0 * 8192))
      else .ok s

/-- The checks of the owning core on a write or append to a zone (R114), in order: the offset it goes to and the state with its zone opened. -/
def zoneChecks (s : State) (e : Io) (n : Ns) (op : IoOp) : Except Status (Nat × State) :=
  let zs := zoneSize n.flbas
  let i := e.slba / zs
  let z := n.zone i
  match stateRefusal z true with
  | some st => .error st
  | none =>
    if op = .append ∧ (e.slba % zs ≠ 0 ∨ mib < e.nlb * lbaBytes n.flbas) then .error .invalidField
    else if op ≠ .append ∧ e.slba % zs ≠ z.taken then .error .zoneInvalidWrite
    else
      let cap := if z.st = .empty then
          (match place s e.func {} with
            | .ok g => zoneCap 0 (groupMembers s g) n.flbas
            | .error _ => zoneCap 0 30 n.flbas)
        else z.cap
      if cap < z.taken + e.nlb then .error .zoneBoundaryError
      else match openForWrite s e.func e.nsid i n with
        | .error st => .error st
        | .ok s' => .ok (z.taken, s')

/-- Form the record of a write on the module that orders its namespace (R262, R266, R268). -/
def formWrite (s : State) (slot : Nat) (e : Io) (j : Judged) (op : IoOp) (off core : Nat) : State :=
  let n := j.ns
  let i := e.slba / zoneSize n.flbas
  let m := mirrors s n
  let slba := if op = .append then i * zoneSize n.flbas + off else e.slba
  let typ := match op with
    | .writeZeroes => 2
    | .append => 3
    | _ => 1
  let rb := recBytes n op e.nlb
  let pages := if op = .writeZeroes then 0 else ceilDiv (e.nlb * (lbaBytes n.flbas + metaBytes n.flbas)) 4096
  let (s, seq) := formRecord s core
    { typ := typ, mirrored := m, wt := wtNow s n, func := e.func, pages := pages, nsid := e.nsid,
      zone := if n.zoned then n.znum i else 0xFFFFFFFF, slba := slba, nlb := e.nlb, bytes := rb, zidx := if n.zoned then i else 0,
      data := e.data, key := j.key, acked := !m, dataIn := op == .writeZeroes, slot := some slot }
  let s := if n.zoned then setZone s e.nsid i (fun z => { z with taken := off + e.nlb, lastWrite := s.time.dtb }) else s
  let s := if m && !wtNow s n then { s with jr := { s.jr with credit := KV.upd s.jr.credit e.func 0 (· - rb) } } else s
  let s := setCmd s slot (fun c => { c with seq := some seq, slba := slba })
  if op = .writeZeroes ∧ m then sendMirror s seq else s

/-- A write an Unbound queue brought waits for its share (R145), or for room in its namespace's log (R127); one that came through the twin has the share granted there too. -/
def mustWait (s : State) (e : Io) (j : Judged) (op : IoOp) (twin : Bool := false) : Bool :=
  let rb := recBytes j.ns op e.nlb
  j.cls == .unbound &&
    (logFull j.ns || (if wtNow s j.ns then !wtFits s e.func rb
      else (if twin then shareFree s e.func else shareOwn s e.func) < rb || (mirrors s j.ns && mirrorCredit s e.func < rb)))

/-- An Unbound write waits for its share: its record is not yet charged (R145). -/
def deferShare (s : State) (slot bytes : Nat) : State :=
  match KV.find s.port.cmds slot with
  | none => s
  | some c =>
    let s := match c.seq with
      | none => s
      | some q =>
        let m := (KV.find s.jr.recs q).any (fun r => r.mirrored && !r.wt)
        let s := setRec s q (fun r => { r with bytes := 0, dataIn := false })
        if m then { s with jr := { s.jr with credit := KV.upd s.jr.credit c.func 0 (· + bytes) } } else s
    setCmd s slot (fun c => { c with needShare := bytes, stage := .waiting })

/-- The users of a local write's buffers (R280): the journal copy, and the mirror send of a mirrored write in Service. The parity engine takes no reference: a record is applied, and its word line complete, only after its copies are made and its buffers free. -/
def writeUsers (mirrored : Bool) : List BufUser := if mirrored then [.journal, .mirror] else [.journal]

/-- Write, Write Zeroes and Zone Append (R114, R116, R266, R270). -/
def writeCmd (e : Io) (s : State) (op : IoOp) : State :=
  match ioFront s e op with
  | .error s' => s'
  | .ok j =>
    let s := j.st
    let slot := freeSlot s
    match writeFront s e j op slot false with
    | .error s' => s'
    | .ok s =>
      match pathOf j.ns op with
      | .forwarded => forward s slot e (newCmd e op j (dispatchCore s j.ns op e.slba))
      | .local_ =>
        let i := e.slba / zoneSize j.ns.flbas
        let core := if j.ns.zoned then zoneCore s (j.ns.znum i) else freeCore s
        let s := accept s slot (newCmd e op j core)
        match (if j.ns.zoned then zoneChecks s e j.ns op else .ok (0, s)) with
        | .error st => finish { s with cal := { s.cal with claims := s.cal.claims.filter (fun c => c.slot != some slot) } } slot st
        | .ok (off, s) =>
          let wait := mustWait s e j op
          let s := formWrite s slot e j op off core
          if wait then deferShare s slot (recBytes j.ns op e.nlb)
          else if op = .writeZeroes then setCmd s slot (fun c => { c with stage := .dataIn })
          else takeBufs (setCmd s slot (fun c => { c with stage := .buffered })) slot (e.nlb * lbaBytes j.ns.flbas) (writeUsers (mirrors s j.ns))

/-- WRITE (R266). -/
def execWrite (e : Io) (s : State) : Host.Outcome State Fault Refusal := .next (writeCmd e s .write)

/-- WRITE_ZEROES (R266): a write with no data transferred. -/
def execWriteZeroes (e : Io) (s : State) : Host.Outcome State Fault Refusal := .next (writeCmd e s .writeZeroes)

/-- ZONE_APPEND (R116). -/
def execZoneAppend (e : Io) (s : State) : Host.Outcome State Fault Refusal := .next (writeCmd e s .append)

/-! ### Flush (R132) -/

/-- Earlier writes of a namespace still open on this module: Write, Zone Append and Write Zeroes. -/
def openWrites (s : State) (nsid : Nat) : List (Nat × Cmd) :=
  s.port.cmds.filter (fun c => c.2.nsid == nsid && [IoOp.write, .append, .writeZeroes].contains c.2.op)

/-- FLUSH (R132). -/
def execFlush (e : Io) (s : State) : Host.Outcome State Fault Refusal :=
  match ioFront s e .flush with
  | .error s' => .next s'
  | .ok j =>
    let s := j.st
    let slot := freeSlot s
    let ws := openWrites s e.nsid
    let mine := j.stamp + bound j.cls true
    let latest := ws.foldl (fun a c => max a (c.2.deadline.getD 0)) 0
    match earlyRefusal s j.cls j.stamp e.tv with
    | some d => .next (refuseWhy s e j.cls .flush .other d)
    | none =>
    if j.cls ≠ .unbound ∧ ws.any (fun c => c.2.cls == .unbound) then .next (refuseWhy s e j.cls .flush .other 0xFFFFFFFF)
    else if j.cls ≠ .unbound ∧ mine < latest then
      .next (refuseWhy s e j.cls .flush .other (max 1 (ceilDiv (latest - (j.stamp + e.tv) - bound j.cls true) 1000)))
    else match writeFront s e j .flush slot false with
      | .error s' => .next s'
      | .ok s =>
        match pathOf j.ns .flush with
        | .forwarded => .next (forward s slot e (newCmd e .flush j (freeCore s)))
        | .local_ =>
          let s := accept s slot { newCmd e .flush j (freeCore s) with awaits := ws.map (·.1), stage := .waiting }
          .next (if ws.isEmpty then finish s slot .success else s)

/-! ### Zone Management Send (R99, R106, R120 to R123) -/

/-- RESET_ID (R321): the OSEQ of the reset record with bit 63 replaced by the rank of the module that formed it. -/
def resetIdOf (oseq rank : Nat) : Nat := oseq % 2^63 + rank * 2^63

/-- The change record of one zone (Table 9.2, type 10h): action code, the state it reached, its capacity and extension; a reset gives the zone its RESET_ID (R321). -/
def zoneRecord (s : State) (e : Io) (n : Ns) (i action core : Nat) (slot : Option Nat) : State × Nat :=
  let z := (match nsOf s e.nsid with
    | some n => n.zone i
    | none => {})
  let m := mirrors s n
  let (s, seq) := formRecord s core
    { typ := 0x10, mirrored := m, func := e.func, nsid := e.nsid, zone := n.znum i, zidx := i, action := action,
      arg := z.st.code, ext := z.ext, slba := i * zoneSize n.flbas, data := [z.cap], acked := !m, slot := slot }
  let s := if action = 1 then setZone s e.nsid i (fun z => { z with resetId := resetIdOf seq (bit (s.sup.slotid.getLsbD 0)) }) else s
  (if m then sendMirror s seq else s, seq)

/-- The ACTION of a zone-change record for a send action: 1 close, 2 finish, 3 open, 4 reset, 5 offline (Table 9.2). -/
def recAction (a : Nat) : Nat :=
  match a with
  | 1 => 4
  | 2 => 2
  | 3 => 3
  | 4 => 1
  | _ => 7

/-- An action that succeeded has changed nothing of its zone (R99): it needs no record. -/
def sameZone (s : State) (nsid i : Nat) (z : Zone) : Bool := (nsOf s nsid).any (fun n => n.zone i == z)

/-- A single-zone Zone Management Send: judged, priced, carried out by the zone's core; it completes when its record is durable. -/
def zoneSend (e : Io) (s : State) (action : Nat) (run : State → Ns → Nat → Except Status State) (recAct : Nat) : State :=
  match ioFront s { e with action := action } .zms with
  | .error s' => s'
  | .ok j =>
    let s := j.st
    let slot := freeSlot s
    match writeFront s e j .zms slot false with
    | .error s' => s'
    | .ok s =>
      let i := e.slba / zoneSize j.ns.flbas
      match pathOf j.ns .zms with
      | .forwarded => forward s slot { e with action := action } (newCmd { e with action := action } .zms j (dispatchCore s j.ns .zms e.slba))
      | .local_ =>
        let core := zoneCore s (j.ns.znum i)
        let s := accept s slot (newCmd { e with action := action } .zms j core)
        match run s j.ns i with
        | .error st => finish s slot st
        | .ok s' =>
          if sameZone s' e.nsid i (j.ns.zone i) then finish s' slot .success
          else
            let (s, seq) := zoneRecord s' e j.ns i recAct core (some slot)
            setCmd s slot (fun c => { c with seq := some seq, stage := .dataIn })

/-- OPEN_ZONE (R99). -/
def execOpenZone (e : Io) (s : State) : Host.Outcome State Fault Refusal :=
  .next (zoneSend e s 3 (fun s _ i => zoneAction s e.func e.nsid i 3) 3)

/-- CLOSE_ZONE (R99). -/
def execCloseZone (e : Io) (s : State) : Host.Outcome State Fault Refusal :=
  .next (zoneSend e s 1 (fun s _ i => zoneAction s e.func e.nsid i 1) 4)

/-- FINISH_ZONE (R101). -/
def execFinishZone (e : Io) (s : State) : Host.Outcome State Fault Refusal :=
  .next (zoneSend e s 2 (fun s _ i => zoneAction s e.func e.nsid i 2) 2)

/-- RESET_ZONE (R118). -/
def execResetZone (e : Io) (s : State) : Host.Outcome State Fault Refusal :=
  .next (zoneSend e s 4 (fun s _ i => zoneAction s e.func e.nsid i 4) 1)

/-- OFFLINE_ZONE (R99). -/
def execOfflineZone (e : Io) (s : State) : Host.Outcome State Fault Refusal :=
  .next (zoneSend e s 5 (fun s _ i => zoneAction s e.func e.nsid i 5) 7)

/-- R106: place an Empty zone under the extension, store it, fix the capacity, move the zone to Closed. -/
def setExtension (e : Io) (s : State) (n : Ns) (i : Nat) : Except Status State :=
  match extOf s.part e.ext with
  | none => .error .invalidField
  | some x =>
    match (n.zone i).st with
    | .offline => .error .zoneIsOffline
    | .empty =>
      match leaveEmpty s e.func e.nsid i n x true with
      | .error st => .error st
      | .ok s' => .ok (setZone s' e.nsid i (fun z => { z with st := .closed }))
    | _ => .error .zoneInvalidTransition

/-- SET_ZONE_DESCRIPTOR_EXTENSION (R106). -/
def execSetZoneDescriptorExtension (e : Io) (s : State) : Host.Outcome State Fault Refusal :=
  .next (zoneSend e s 0x10 (setExtension e) 5)

/-- One zone of a Select All (R120), handed to its own core: skipped where it is not eligible when reached, else acted on. -/
def selectOne (e : Io) (n : Ns) (r : State × List (Nat × ZRes)) (i : Nat) : State × List (Nat × ZRes) :=
  let (s, l) := r
  let zone := (match nsOf s e.nsid with
    | some m => m.zone i
    | none => {})
  if !zoneEligible zone e.action then (s, (i, .skipped) :: l)
  else match zoneAction s e.func e.nsid i e.action with
    | .error st => (s, (i, .failed st) :: l)
    | .ok s' =>
      let (s'', seq) := zoneRecord s' e n i (recAction e.action) (zoneCore s (n.znum i)) none
      (s'', (i, .change seq) :: l)

/-- Take the zones of a Select All from one on, in ascending index (R120): the results in that order. -/
def selectFrom (s : State) (e : Io) (n : Ns) (first : Nat) : State × List (Nat × ZRes) :=
  let r := ((List.range n.zoneCount).drop first).foldl (selectOne e n) (s, [])
  (r.1, r.2.reverse)

/-- The start of a multi-zone record (R122): the controller's next sequence number. -/
def newZop (s : State) (e : Io) (fwd : Bool) : ZopRec :=
  { seq := (ctrl s e.func).zopSeq + 1, nsid := e.nsid, sqid := e.sqid, cid := e.cid, action := e.action, forwarded := fwd,
    start := s.time.dtb }

/-- Keep a multi-zone record as the newest of 16 (R122). -/
def keepZop (s : State) (f : Nat) (z : ZopRec) : State :=
  setCtrl s f (fun c => { c with zopSeq := z.seq, zops := (z :: c.zops).take 16 })

/-- Change the record with a sequence number. -/
def setZop (s : State) (f seq : Nat) (g : ZopRec → ZopRec) : State :=
  setCtrl s f (fun c => { c with zops := c.zops.map (fun z => if z.seq = seq then g z else z) })

/-- A multi-zone command ends: the record is DONE and the completion carries its number (R121). -/
def endZop (s : State) (slot : Nat) (c : Cmd) : State :=
  let z := ((ctrl s c.func).zops.find? (fun z => z.seq == c.zop)).getD { seq := c.zop }
  let st := z.status.getD .success
  let s := setZop s c.func c.zop (fun z => { z with done := true, finish := s.time.dtb, status := some st })
  finish s slot st (c.zop % 2^32)

/-- One zone's result is settled: in the record, or confirmed to the twin that asked (R123); a zone skipped is not confirmed. -/
def settleRes (s : State) (slot : Nat) (c : Cmd) (i : Nat) (r : ZRes) : State :=
  if !c.fromTwin then setZop s c.func c.zop (fun z => z.settle i r)
  else match r with
    | .acted => send s 0x06 c.tag [i, 0]
    | .failed st => setCmd (send s 0x06 c.tag [i, st.code]) slot (fun c => { c with result := if c.result = .success then st else c.result })
    | _ => s

/-- Settle results in ascending index as far as their changes are durable: what is left. -/
def settleHead (slot : Nat) (c : Cmd) : List (Nat × ZRes) → State → State × List (Nat × ZRes)
  | [], s => (s, [])
  | (i, .change q) :: l, s => (s, (i, .change q) :: l)
  | (i, r) :: l, s => settleHead slot c l (settleRes s slot c i r)

/-- Settle what can be settled of a multi-zone command, and end it with its last zone (R121 to R123). -/
def settleZop (s : State) (slot : Nat) (l : List (Nat × ZRes)) : State :=
  match KV.find s.port.cmds slot with
  | none => s
  | some c =>
    let (s, left) := settleHead slot c l s
    let s := setCmd s slot (fun c => { c with zres := left })
    if !left.isEmpty then s
    else if c.fromTwin then (KV.find s.port.cmds slot).elim s (fun c => finish s slot c.result)
    else endZop s slot c

/-- A zone change of a multi-zone command has a result: that of its record. -/
def zopResult (s : State) (seq : Nat) (r : ZRes) : State :=
  (s.port.cmds.filter (fun p => p.2.zres.any (fun x => x.2 == .change seq))).foldl (fun s p =>
    settleZop s p.1 (p.2.zres.map (fun x => if x.2 = .change seq then (x.1, r) else x))) s

/-- A zone change of a multi-zone command is durable (R122, R123). -/
def wakeZops (s : State) (seq : Nat) : State := zopResult s seq .acted

/-- ZONE_SEND_SELECT_ALL (R120, R121). -/
def execZoneSendSelectAll (e : Io) (s : State) : Host.Outcome State Fault Refusal :=
  match ioFront s e .zms true with
  | .error s' => .next s'
  | .ok j =>
    let s := j.st
    let slot := freeSlot s
    match writeFront s e j .zms slot true with
    | .error s' => .next s'
    | .ok s =>
      match pathOf j.ns .zms with
      | .forwarded =>
        let z := newZop s e true
        let s := keepZop s e.func z
        .next (setCmd (forward s slot e (newCmd e .zms j (dispatchCore s j.ns .zms 0))) slot (fun c => { c with zop := z.seq }))
      | .local_ =>
        let s := accept s slot (newCmd e .zms j (zoneCore s (j.ns.znum 0)))
        let z := newZop s e false
        let s := setCmd (keepZop s e.func z) slot (fun c => { c with zop := z.seq, stage := .dataIn })
        let r := selectFrom s e j.ns 0
        .next (settleZop r.1 slot r.2)

end Sys2Proof.Machine
end

