-- ==== Sys2Proof/Machine/Health.lean ====
section
/-! DEFINITION. Thresholds in force, the composite temperature, spare dies, the Critical Warning and telemetry captures (R245, R336, R414, R430, R447). -/

namespace Sys2Proof.Machine

/-- Warn and throttle thresholds in force, °C (Table 15.3, R414). -/
def warnCtrl (s : State) : Int := 100 - s.th.ctrlUse
def warnFlash (s : State) : Int := 70 - s.th.flashUse
def throttleCtrl (s : State) : Int := 103 - s.th.ctrlUse
def throttleFlash (s : State) : Int := 75 - s.th.flashUse

/-- The highest of a list of readings. -/
def hottest (l : List Int) : Int := l.foldl max (l.headD 0)

/-- R447: the composite temperature, kelvin. -/
def composite (s : State) : Int :=
  343 + max (hottest s.th.ctrl.now - warnCtrl s) (hottest s.th.flash.now - warnFlash s)

/-- Free spares of a channel, lowest ordinal first. -/
def freeSparesOn (s : State) (c : Nat) : List Nat :=
  ((List.range s.part.spares).map (fun j => dieIx s.part c (s.part.groups + j))).filter (fun d => (dieOf s d).state == .spareFree)

def freeSpares (s : State) : Nat := (List.range 32).foldl (fun a c => a + (freeSparesOn s c).length) 0

/-- R245: Available Spare. -/
def availableSpare (s : State) : Nat := 100 * freeSpares s / (32 * s.part.spares)

/-- R447: Critical Warning bit 1, with its hysteresis. -/
def tempBit (s : State) (old : Bool) : Bool :=
  let c := composite s
  if c ≥ s.th.overK ∨ c < s.th.underK then true
  else if old then !(c ≤ (s.th.overK : Int) - 2 && c > s.th.underK) else false

/-- R336: write-through raised and the bank not charging. -/
def bankBit (s : State) (old : Bool) : Bool :=
  s.md.writeThrough && (old || (s.sup.measured && s.sup.usableDj < 35 && s.sup.first70))

/-- The Critical Warning now: bits 0, 1, 2 and 4. -/
def critNow (s : State) : Nat :=
  bit (decide (availableSpare s < 10)) + 2 * bit (tempBit s (s.adm.critWarn.getLsbD 1))
    + 4 * bit (s.media.groups.any (fun g => g.2.dead.isSome || g.2.retired) || !s.media.extents.isEmpty)
    + 16 * bit (bankBit s (s.adm.critWarn.getLsbD 4))

/-- Bring the Critical Warning up to date and raise the events of bits that become set (Table 14.14). -/
def refreshCrit (s : State) : State :=
  let old := s.adm.critWarn
  let new := BitVec.ofNat 8 (critNow s)
  let rise (k : Nat) : Bool := new.getLsbD k && !old.getLsbD k
  let s := { s with adm := { s.adm with critWarn := new } }
  let s := if new = old then s else ccsSet s 12
  let s := if rise 0 then ccsSet s 11 else s
  let s := if rise 2 || rise 4 then raiseAll s 1 0 2 else s
  let s := if rise 1 then raiseAll s 1 1 2 else s
  if rise 0 then raiseAll s 1 2 2 else s

/-! ### Telemetry captures (R430) -/

/-- The parts of the state that a capture keeps (R429): no user data. -/
def snapOf (s : State) : TelSnap :=
  ⟨s.md, s.port, { s.zn with store := [] }, s.cal, s.media, s.tw, s.sup, s.boot, s.ev, s.adm, s.time, s.th, s.pw, s.free⟩

/-- The sequence number of the newest entry of a type in the ring, which recorded a capture's trigger; 0 where that entry was suppressed or lost. -/
def triggerSeq (s : State) (typ : Nat) : Nat := (s.ev.ring.reverse.find? (fun e => e.typ == typ)).elim 0 (fun e => e.seq)

/-- Take a controller-initiated capture for the event just recorded (R430). -/
def capture (s : State) (typ : Nat) : State :=
  let soon := s.adm.telCtrlAt.any (fun t => s.time.dtb < t + 60000000000)
  if s.adm.telCtrlAvail || soon then s
  else raiseAen { s with
    adm := { s.adm with telCtrlAvail := true, telCtrlAt := some s.time.dtb, telCtrlReason := (typ, triggerSeq s typ), telGen := s.adm.telGen + 1 }
    tel := { s.tel with ctrl := some (snapOf s) } } 0 2 2 8

end Sys2Proof.Machine
end

