-- ==== Sys2Proof/Machine/Media.lean ====
section
/-! DEFINITION. Flash media: block sets and their binding, staging rows, copies, spares, rebuild, contraction and loss (chapters 7, 8; R271 to R275). -/

namespace Sys2Proof.Machine

/-! ### Block sets (R187, R192, R209) -/

def setBset (s : State) (k : Nat) (f : BSet → BSet) : State :=
  { s with media := { s.media with sets := KV.upd s.media.sets k (setBuilt k) f } }

/-- Table 7.15 STATE. -/
def SetState.code : SetState → Nat
  | .free => 0 | .inUse => 1 | .awaitErase => 2 | .copying => 3 | .continued => 4

/-- A set of a spare that the rebuild of its position will write: the one at the index of a set still to rebuild (R231). -/
def rebuildsTo (s : State) (d b : Nat) : Bool :=
  s.media.rebuilds.any (fun r => (r.spares.zip r.old).any (fun x => x.1 == d && (r.todo ++ r.tailTodo).contains (setKey x.2 b)))

/-- Erased free sets of a role on a die. -/
def freeOf (s : State) (d : Nat) (r : Role) : List Nat :=
  (List.range 2048).filter (fun b => (bsetOf s (setKey d b)).role == r && (bsetOf s (setKey d b)).state == .free && !rebuildsTo s d b)

/-- Sets of a role on a die. -/
def countRole (s : State) (d : Nat) (r : Role) : Nat :=
  (List.range 2048).countP (fun b => (bsetOf s (setKey d b)).role == r)

/-- The member of a list with the least of a measure, the earliest on a tie. -/
def leastBy (l : List Nat) (f : Nat → Nat) : Option Nat := (keepLeast l f).head?

/-- Spread of wear among the zone-role sets of a die (R211). -/
def wearSpread (s : State) (d : Nat) : Nat :=
  let ws := ((List.range 2048).filter (fun b => (bsetOf s (setKey d b)).role == .zone)).map (fun b => (bsetOf s (setKey d b)).wear)
  ws.foldl max 0 - ws.foldl min (ws.foldl max 0)

/-- The erased free set a binding takes (R109, R211): by LIFETIME, or the least worn where the spread exceeds 90,000 units. -/
def chooseSet (s : State) (d lifetime : Nat) : Option Nat :=
  let l := freeOf s d .zone
  let b (x : Nat) := bsetOf s (setKey d x)
  if 90000 < wearSpread s d then leastBy l (fun x => (b x).wear)
  else if lifetime = 5 ∨ lifetime = 6 then leastBy l (fun x => 2^24 - (b x).erases)
  else if 1 ≤ lifetime ∧ lifetime ≤ 3 then leastBy l (fun x => (b x).erases)
  else leastBy l (fun x => (b x).erasedAt)

/-- The MODE code of a density and the density of a mode. -/
def modeOfDensity (density : Nat) : Nat := if density = 0 then 0 else if density = 1 then 1 else 2

/-- Bind an erased set to a use: its header is written at its first program (R194). -/
def bindSet (s : State) (k : Nat) (f : BSet → BSet) : State :=
  setBset s k (fun b => f { b with state := .inUse, openSeq := s.jr.seq, openDay := s.time.rd.toNat,
                                   band := bandOf s (k / 2048), headed := true, coarse := 0, final := 0, reads := 0
                                   contOf := 0xFFFFFFFF, contRow := 0 })

/-- Bind a set of a die to a zone if it has none (R119): none where the die has no erased free set. -/
def bindZone (s : State) (d nsid i : Nat) (z : Zone) : Option (State × Nat) :=
  match zoneSet s d nsid i with
  | some k => some (s, k)
  | none => (chooseSet s d z.ext.lifetime).map (fun b =>
      (bindSet s (setKey d b) (fun x => { x with mode := modeOfDensity z.ext.density, layout := z.members, nsid := nsid, zone := i, tag := z.ext.tag }), setKey d b))

/-- Put a block set on the erase queue of its die (R119). -/
def toErase (s : State) (k : Nat) : State :=
  let s := setBset s k (fun b => { b with state := .awaitErase })
  if s.media.eraseQ.contains k then s else { s with media := { s.media with eraseQ := s.media.eraseQ ++ [k] } }

/-- The sets of the die of `k` that continue it (R217). -/
def contsOf (s : State) (k : Nat) : List Nat :=
  (s.media.sets.filter (fun x => x.1 / 2048 == k / 2048 && x.2.contOf == k % 2048 && x.2.state != .free && x.2.state != .awaitErase)).map (·.1)

/-- A set and those that continue it, in their order (R217). -/
def setChain : Nat → State → Nat → List Nat
  | 0, _, k => [k]
  | n + 1, s, k => k :: (contsOf s k).head?.elim [] (setChain n s)

/-- The first of the sets that a set continues. -/
def headOf : Nat → State → Nat → Nat
  | 0, _, k => k
  | n + 1, s, k => if (bsetOf s k).contOf = 0xFFFFFFFF then k else headOf n s (setKey (k / 2048) (bsetOf s k).contOf)

/-- Erase a set with those that continue it: they are released together (R217). -/
def toEraseAll (s : State) (k : Nat) : State := (setChain 3 s k).foldl toErase s

/-- First word line of a member's data that a set holds (CONT_ROW). -/
def baseLine (b : BSet) : Nat := if b.contOf = 0xFFFFFFFF then 0 else b.contRow / (4 * cellBits b.mode)

/-- Word lines of a set that hold data. -/
def heldLines (b : BSet) : Nat := max b.coarse b.final

/-- Word lines that a set and those that continue it hold. -/
def chainLines (s : State) (k : Nat) : Nat := (setChain 3 s k).foldl (fun a x => a + heldLines (bsetOf s x)) 0

/-- A member's data goes on in another erased set from a word line on, whose header names the old set and the row (R217); what the old set held past it counts no more. -/
def continueIn (s : State) (k c first : Nat) : State :=
  let b := bsetOf s k
  let s := setBset s k (fun x => { x with state := if b.state = .copying then .copying else .continued, coarse := first - baseLine b, final := first - baseLine b })
  bindSet s c (fun x => { x with
    state := if b.state = .copying then .copying else .continued, mode := b.mode, layout := b.layout, nsid := b.nsid, zone := b.zone, tag := b.tag
    contOf := k % 2048, contRow := 4 * cellBits b.mode * first })

/-- Wear of one erase by the mode programmed in the cycle it ends (R209). -/
def wearOf (b : BSet) : Nat := if !b.headed then 12 else if b.mode = 0 then 400 else if b.mode = 1 then 1500 else 12

/-- Insert by a measure, after those not greater. -/
def insertBy (f : Nat → Nat) (x : Nat) : List Nat → List Nat
  | [] => [x]
  | y :: l => if f x < f y then x :: y :: l else y :: insertBy f x l

def sortBy (f : Nat → Nat) (l : List Nat) : List Nat := l.foldl (fun a x => insertBy f x a) []

/-! ### Pass order (R189) -/

/-- Passes of a set of `wls` word lines in a mode. -/
def passCount (mode wls : Nat) : Nat := if mode = 2 then wls else 2 * wls

/-- Pass k of a set of `wls` word lines: C0, C1, F0, C2, F1, … for two-pass modes. -/
def passAt (mode wls k : Nat) : DieOpKind × Nat :=
  if mode = 2 then (.slc, k)
  else
    let c := if mode = 0 then DieOpKind.qlcCoarse else .plcCoarse
    let f := if mode = 0 then DieOpKind.qlcFine else .plcFine
    if k = 0 then (c, 0) else if k + 1 = 2 * wls then (f, wls - 1)
    else if k % 2 = 1 then (c, (k + 1) / 2) else (f, k / 2 - 1)

/-- A final pass: the one that confirms a word line. -/
def DieOpKind.isFinal : DieOpKind → Bool
  | .slc | .qlcFine | .plcFine => true
  | _ => false

def DieOpKind.isCoarse : DieOpKind → Bool
  | .qlcCoarse | .plcCoarse => true
  | _ => false

/-! ### Retirement of data records (R275) -/

/-- The unit keys of a record. -/
def recUnits (n : Ns) (r : VRec) : List Nat :=
  (List.range (r.nlb * unitsPerLba n.flbas)).map (fun k =>
    r.nsid * 2^64 + (if n.zoned then r.zidx * 4194304 + (r.slba - r.zidx * zoneSize n.flbas) * unitsPerLba n.flbas + k else r.slba * unitsPerLba n.flbas + k))

/-- Every unit of a data record lies in a fully programmed row, or holds data no more (R275). -/
def onFlash (s : State) (n : Ns) (r : VRec) : Bool :=
  if r.typ = 2 then r.completed
  else if n.zoned then
    let z := n.zone r.zidx
    let base := r.nsid * 2^64 + r.zidx * 4194304
    (recUnits n r).all (fun u => u - base < z.confirmed * wordLineUnits z.ext.density z.members || (KV.find s.media.stagingDir u).isSome)
  else r.nlb * unitsPerLba n.flbas ≤ r.onFlash

/-- Retire the completed data records of a namespace that lie on flash (R275). -/
def retireNs (s : State) (nsid : Nat) : State :=
  match nsOf s nsid with
  | none => s
  | some n =>
    (s.jr.recs.filter (fun p => p.2.nsid == nsid && 1 ≤ p.2.typ && p.2.typ ≤ 3 && p.2.completed && onFlash s n p.2)).foldl
      (fun s p => retire s p.1) s

/-! ### Staging and log rows (R198, R273, R274, R279) -/

/-- The group a record's rows go to: its zone's, or that of its namespace's log. -/
def recGroup (s : State) (n : Ns) (r : VRec) : Nat :=
  if n.zoned then ((n.zone r.zidx).group.getD 0) else logGroup s r.nsid

/-- Data units of one row of a group's present layout. -/
def rowUnitsMax (s : State) (g : Nat) : Nat := 4 * groupMembers s g

/-- The entry that holds the row being filled: the group's own for staging rows, one of its own for the log rows of a namespace. -/
def fillKey (g : Nat) : Option Nat → Nat
  | none => g
  | some nsid => 64 + nsid

/-- A set index at which no member of a group holds anything: erased and free on all, and open for nothing. -/
def setFree (s : State) (g : Nat) (r : Role) (b : Nat) : Bool :=
  (groupDies s g).all (fun d => (bsetOf s (setKey d b)).state == .free && (bsetOf s (setKey d b)).role == r)
    && !s.media.metaOpen.any (fun x => x.1 / 2 == g && x.2.1 == b)
    && !s.media.rows.any (fun r => r.group == g && r.stripe == (if b < 2000 then b - 1936 else b))

/-- The free metadata set of a group that has worn least: its sets rotate (R211). -/
def nextMeta (s : State) (g : Nat) : Option Nat :=
  leastBy (((List.range 16).map (2000 + ·)).filter (setFree s g .metaMap)) (fun b => (groupDies s g).foldl (fun a d => a + (bsetOf s (setKey d b)).wear) 0)

/-- Take rows of a metadata set of a group for its log, or for a map unit: in the set being filled, or in the next free one (R125). -/
def takeRows (s : State) (g : Nat) (log : Bool) (n : Nat) : Option (State × Nat × Nat) :=
  let key := 2 * g + bit log
  let put (b r : Nat) : State × Nat × Nat := ({ s with media := { s.media with metaOpen := KV.set s.media.metaOpen key (b, r + n) } }, b, r)
  match KV.find s.media.metaOpen key with
  | some (b, r) =>
    if r + n ≤ 4096 then some (put b r)
    else (nextMeta s g).map (fun b => put b 0)
  | none => (nextMeta s g).map (fun b => put b 0)

/-- The place of the next row: staging stripe and row of a group, set and row of a namespace's log (R198, R274). -/
def rowPlace (s : State) (g : Nat) : Option Nat → Option (State × Nat × Nat)
  | some _ => takeRows s g true 1
  | none =>
    let x := grpOf s g
    let next := (((List.range 64).map (fun k => (x.openStripe + 1 + k) % 64)).find? (fun t => setFree s g .staging (1936 + t))).getD ((x.openStripe + 1) % 64)
    some (setGrp s g (fun x => { x with
      nextRow := if x.nextRow + 1 = 4096 then 0 else x.nextRow + 1
      openStripe := if x.nextRow + 1 = 4096 then next else x.openStripe
      stagingFree := if x.nextRow = 0 then x.stagingFree - 1 else x.stagingFree }), x.openStripe, x.nextRow)

/-- Queue the programs of a row on every member: module work, at step 3 (R171, R274). -/
def queueRow (s : State) (j : RowJob) (base lines : Nat) : State :=
  let dies := groupDies s j.group
  { s with
    media := { s.media with rows := s.media.rows ++ [{ j with left := (List.range lines).flatMap (fun _ => dies) }], copyCtr := j.id + 1 }
    cal := { s.cal with progs := s.cal.progs ++ (List.range lines).flatMap (fun w => dies.map (fun d =>
      ({ die := d, kind := .slc, bset := setKey d base, wl := j.row / 4 + w, step := 3, seqs := j.seqs, job := .row j.id } : Prog))) } }

/-- Release the row being filled (R274): of a group's staging, or of a namespace's log. A log row that finds no free set waits. -/
def releaseRow (s : State) (g : Nat) (ns : Option Nat) : State :=
  let x := grpOf s (fillKey g ns)
  if x.rowUnits.isEmpty then s
  else match rowPlace s g ns with
    | none => s
    | some (s, b, row) =>
      let s := queueRow s { id := s.media.copyCtr, group := g, stripe := b, row := row, units := x.rowUnits, seqs := x.rowSeqs, log := ns.isSome }
        (if ns.isSome then b else 1936 + b) 1
      setGrp s (fillKey g ns) (fun x => { x with rowUnits := [], rowSeqs := [], rowAt := none })

/-- R200: no row of a group is staged while it has 2 or fewer erased staging stripes. -/
def stagingStopped (s : State) (g : Nat) : Bool := (grpOf s g).stagingFree ≤ 2

/-- Put one unit into the row being filled, releasing the row when full. -/
def putUnit (s : State) (g : Nat) (ns : Option Nat) (seq u : Nat) : State :=
  let s := setGrp s (fillKey g ns) (fun x => { x with
    rowUnits := x.rowUnits ++ [u]
    rowSeqs := if x.rowSeqs.contains seq then x.rowSeqs else x.rowSeqs ++ [seq]
    rowAt := if x.rowAt.isNone then some s.time.dtb else x.rowAt })
  if rowUnitsMax s g ≤ (grpOf s (fillKey g ns)).rowUnits.length then releaseRow s g ns else s

/-- Units of 4 KiB for which the log of a namespace has room (R125). -/
def logRoom (n : Ns) : Nat := n.logUsed.foldl (fun a u => a + (logUnits - u)) 0

/-- Append one unit to a namespace's log (R125): in its first log unit with room. -/
def appendUnit (nsid : Nat) (s : State) (u : Nat) : State :=
  match nsOf s nsid with
  | none => s
  | some n =>
    let i := ((List.range 4).find? (fun i => nth n.logUsed i < logUnits)).getD 3
    let s := setNs s nsid (fun n => { n with logUsed := modAt n.logUsed i (· + 1) })
    { s with media := { s.media with logDir := KV.set s.media.logDir u (logCode (n.logBase + i) 0 0 0 0) } }

/-- Rows of a map unit of 16 MiB: 35 of 120 units, in whole word lines. -/
def mapLines : Nat := 9

/-- The map units that hold a valid entry in the oldest log unit of a namespace (R126). -/
def oldestUnits (s : State) (nsid : Nat) (n : Ns) : List Nat :=
  ((s.media.logDir.filter (fun e => e.1 / 2^64 == nsid && logNum e.2 == n.logBase)).map (fun e => e.1 % 2^64 / 4096)).dedup

/-- Where the newest data of a map unit is read for a merge: the old copy, and every log unit (R126). -/
def mergeSources (s : State) (nsid u : Nat) : List Src :=
  (List.range 4096).filterMap (fun k => match KV.find s.media.logDir (nsid * 2^64 + u * 4096 + k) with
    | some v => some (logSrc s v)
    | none => if s.media.units.any (fun x => x.nsid == nsid && x.num == u && !x.building) then some (mapSrc s nsid (u * 4096 + k)) else none)

/-- Build a new copy of a map unit beside the old one (R126): its reads, then its programs. Where no metadata set is free, it waits for the next period. -/
def mergeUnit (nsid : Nat) (s : State) (u : Nat) : State :=
  if s.media.rows.any (fun r => r.merge == some nsid && r.num == u) then s
  else
    let g := Config.metaGroup nsid u % s.part.groups
    match takeRows s g false (4 * mapLines) with
    | none => s
    | some (s, b, row) =>
      let id := s.media.copyCtr
      let s := askReads s (.row id) (arrayReads (mergeSources s nsid u))
      let s := { s with media := { s.media with units := s.media.units ++ [⟨nsid, u, g, b, row, true⟩] } }
      queueRow s { id := id, group := g, stripe := b, row := row, log := true, merge := some nsid, num := u } b mapLines

/-- A metadata set of a group that holds nothing any more is erased (R119, R126). -/
def staleMeta (s : State) (g : Nat) : State :=
  (((List.range 16).map (2000 + ·)).filter (fun b =>
    (groupDies s g).any (fun d => (bsetOf s (setKey d b)).state == .inUse)
      && !s.media.metaOpen.any (fun x => x.1 / 2 == g && x.2.1 == b)
      && !s.media.units.any (fun x => x.group == g && x.set == b)
      && !s.media.rows.any (fun r => r.group == g && r.log && r.stripe == b)
      && !s.media.logDir.any (fun e => e.2 % 2^50 / 120 / 4096 == g * 2048 + b))).foldl (fun s b =>
    (groupDies s g).foldl (fun s d => toEraseAll s (setKey d b)) s) s

/-- The merge of a namespace has nothing left in the oldest log unit: it is freed (R126). -/
def freeLog (s : State) (nsid : Nat) : State :=
  match nsOf s nsid with
  | none => s
  | some n =>
    if !n.merging || !(oldestUnits s nsid n).isEmpty then s
    else
      let s := moduleRecord s 0x20 2 nsid
      staleMeta (setNs s nsid (fun n => { n with merging := false, logUsed := n.logUsed.tail ++ [0], logBase := n.logBase + 1 })) (logGroup s nsid)

/-- R126: once three of the four log units are full, merge every map unit with a valid entry in the oldest. -/
def startMerge (s : State) (nsid : Nat) : State :=
  match nsOf s nsid with
  | none => s
  | some n =>
    if !n.merging && n.logUsed.countP (fun u => logUnits ≤ u) < 3 then s
    else
      let s := (oldestUnits s nsid n).foldl (mergeUnit nsid) (setNs s nsid (fun n => { n with merging := true }))
      freeLog s nsid

/-- Give a record to staging, or to its namespace's log (R273, R274): there only once the log has room for it (R127). A record of write-through has its row released at once (R279). -/
def stageRec (s : State) (seq : Nat) : State :=
  match KV.find s.jr.recs seq with
  | none => s
  | some r =>
    match nsOf s r.nsid with
    | none => s
    | some n =>
      let g := recGroup s n r
      if r.staged || r.stale || !(1 ≤ r.typ && r.typ ≤ 3) || r.typ == 2 || (n.zoned && stagingStopped s g)
        || (!n.zoned && logRoom n < (recUnits n r).length) then s
      else
        let ns := if n.zoned then none else some r.nsid
        let s := setRec s seq (fun r => { r with staged := true })
        let s := if n.zoned then s else startMerge ((recUnits n r).foldl (appendUnit r.nsid) s) r.nsid
        let s := (recUnits n r).foldl (fun s u => putUnit s g ns seq u) s
        if r.wt then releaseRow s g ns else s

/-- Append the records of a namespace that waited for room in its log (R127). -/
def stageWaiting (s : State) (nsid : Nat) : State :=
  (s.jr.recs.filter (fun p => p.2.nsid == nsid && p.2.zone == 0xFFFFFFFF && !p.2.staged && (p.2.completed || (p.2.wt && p.2.dataIn)))).foldl (fun s p => stageRec s p.1) s

/-- Stage a zone (R273): every held record of it, in ascending SEQ; its later data is staged meanwhile. -/
def stageZone (s : State) (nsid i : Nat) : State :=
  match nsOf s nsid with
  | none => s
  | some n =>
    if stagingStopped s ((n.zone i).group.getD 0) then s
    else
      let rs := s.jr.recs.filter (fun p => p.2.nsid == nsid && p.2.zidx == i && p.2.zone != 0xFFFFFFFF && p.2.completed && !p.2.staged && p.2.typ ≤ 3)
      rs.foldl (fun s p => stageRec s p.1) (setZone s nsid i (fun z => { z with staging := true }))

/-- Place a record applied to its zone or log (R272 to R274): staged where its zone is staging, its die is in B4 (R197), or it belongs to a metadata namespace. -/
def afterApply (s : State) (seq : Nat) : State :=
  match KV.find s.jr.recs seq with
  | none => s
  | some r =>
    if !r.completed || r.staged || 3 < r.typ then s
    else match nsOf s r.nsid with
      | none => s
      | some n =>
        if !n.zoned then retireNs (stageRec s seq) r.nsid
        else
          let z := n.zone r.zidx
          let g := z.group.getD 0
          let b4 := z.ext.density != 2 && (List.range 32).any (fun p => bandOf s (memberDie s g p) == 4)
          let waits := s.media.rebuilds.any (fun x => x.group == g)
          if z.staging then stageRec s seq
          else if b4 || waits then stageZone s r.nsid r.zidx
          else retireNs s r.nsid

/-- Bytes of live records of zones not yet given to staging (R273). -/
def unstagedBytes (s : State) : Nat := s.jr.recs.foldl (fun a p => if p.2.staged then a else a + p.2.bytes) 0

/-- R273: stage the zone with the oldest held data, again and again, until the live bytes of zones not staging fall below 70% of V. -/
def relieve : Nat → State → State
  | 0, s => s
  | k + 1, s =>
    if unstagedBytes s * 10 < vigilBytes s * 7 then s
    else match s.jr.recs.find? (fun p => !p.2.staged && p.2.completed && 1 ≤ p.2.typ && p.2.typ ≤ 3 && p.2.zone != 0xFFFFFFFF) with
      | none => s
      | some p => relieve k (stageZone s p.2.nsid p.2.zidx)

/-- R273: the live bytes have reached 75% of V. -/
def checkRelief (s : State) : State :=
  if vigilBytes s * 3 ≤ liveBytes s * 4 && !s.jr.recs.isEmpty then relieve s.jr.recs.length s else s

/-- Take the staging of a zone back once its own sets have caught up (R199, R273). -/
def settleStaging (s : State) (nsid i : Nat) : State :=
  match nsOf s nsid with
  | none => s
  | some n =>
    let z := n.zone i
    let lim := z.confirmed * wordLineUnits z.ext.density z.members
    let base := nsid * 2^64 + i * 4194304
    let gone := KV.keep s.media.stagingDir (fun k _ => base ≤ k && k < base + lim)
    let s := { s with media := { s.media with
      stagingDir := KV.keep s.media.stagingDir (fun k _ => !(base ≤ k && k < base + lim))
      foldKib := s.media.foldKib + 4 * gone.length } }
    if z.staging && z.wp * unitsPerLba n.flbas ≤ lim then setZone s nsid i (fun z => { z with staging := false }) else s

/-- Units of a staging stripe that are live, in the order of their places. -/
def stripeUnits (s : State) (g t : Nat) : KV Nat :=
  s.media.stagingDir.filter (fun e => e.2 / 491520 == t
    && (nsOf s (e.1 / 2^64)).any (fun n => (n.zone (e.1 % 2^64 / 4194304)).group == some g))

/-- A staging stripe of a group holds programmed rows, and is not the one being filled. -/
def stripeFull (s : State) (g t : Nat) : Bool :=
  t != (grpOf s g).openStripe && (groupDies s g).any (fun d => (bsetOf s (setKey d (1936 + t))).state == .inUse)
    && !s.media.rows.any (fun r => r.group == g && !r.log && r.stripe == t && !r.left.isEmpty)

/-- A staging stripe whose data is all stale goes to the erase queue (R200). -/
def staleStripes (s : State) (g : Nat) : State :=
  ((List.range 64).filter (fun t => stripeFull s g t && (stripeUnits s g t).isEmpty)).foldl (fun s t =>
    (groupDies s g).foldl (fun s d => toEraseAll s (setKey d (1936 + t))) s) s

/-- Units in chunks of `n`, with fuel. -/
def chunks (n : Nat) : Nat → List Nat → List (List Nat)
  | 0, _ => []
  | k + 1, l => if l.isEmpty then [] else l.take n :: chunks n k (l.drop n)

/-- R200: while a group has 4 or fewer erased staging stripes, the live data of the stripe with the least of it is copied into the open one. -/
def compact (s : State) (g : Nat) : State :=
  if 4 < (grpOf s g).stagingFree || s.media.rows.any (fun r => r.group == g && r.compacts.isSome) then s
  else match (keepLeast ((List.range 64).filter (stripeFull s g)) (fun t => (stripeUnits s g t).length)).head? with
    | none => s
    | some t =>
      let us := (sortBy (fun u => KV.findD s.media.stagingDir u 0) ((stripeUnits s g t).map (·.1)))
      (chunks (rowUnitsMax s g) us.length us).foldl (fun s l =>
        match rowPlace s g none with
        | none => s
        | some (s, b, row) =>
          let id := s.media.copyCtr
          let s := askReads s (.row id) (arrayReads (l.map (fun u =>
            let v := KV.findD s.media.stagingDir u 0
            slcSrc s g (1936 + t) (v % 491520 / 120) (v % 120))))
          queueRow s { id := id, group := g, stripe := b, row := row, units := l, compacts := some t } (1936 + b) 1) s

/-- The staging directory once a row is programmed (R347): the units of records still held (R118), or those a compaction has moved that lie where it read them. -/
def rowDir (s : State) (j : RowJob) : KV Nat :=
  (j.units.zipIdx).foldl (fun m x =>
    let live : Bool := match j.compacts with
      | some t => (KV.find m x.1).any (fun v => v / 491520 == t)
      | none => j.seqs.any (fun q => (KV.find s.jr.recs q).any (fun r => !r.stale && (nsOf s r.nsid).any (fun n => (recUnits n r).contains x.1)))
    if live then KV.set m x.1 (j.stripe * 491520 + j.row * 120 + x.2) else m) s.media.stagingDir

/-- The log's directory once a row of it is programmed: its units whose newest copy went into the log with it have their place. -/
def rowLog (s : State) (j : RowJob) : KV Nat :=
  (j.units.zipIdx).foldl (fun m x => KV.adj m x.1 (fun v => logCode (logNum v) j.group j.stripe j.row x.2)) s.media.logDir

/-- The new copy of a map unit is complete: the map is switched to it, and the old copy and the unit's entries in the oldest log unit hold nothing any more (R126). -/
def mergeDone (s : State) (j : RowJob) (nsid : Nat) : State :=
  match nsOf s nsid with
  | none => s
  | some n =>
    let mine (x : MetaUnit) : Bool := x.nsid == nsid && x.num == j.num
    let old := s.media.units.filter (fun x => mine x && !x.building)
    let s := moduleRecord s 0x20 2 j.num
    let s := { s with media := { s.media with
      units := (s.media.units.filter (fun x => !(mine x && !x.building))).map (fun x => if mine x then { x with building := false } else x)
      logDir := KV.keep s.media.logDir (fun k v => !(k / 2^64 == nsid && k % 2^64 / 4096 == j.num && logNum v == n.logBase)) } }
    let s := old.foldl (fun s x => staleMeta s x.group) s
    stageWaiting (startMerge (freeLog s nsid) nsid) nsid

/-- A row's last page has completed: its units are on flash, its write-through records durable, what it allows retires (R199, R275, R279). -/
def rowDone (s : State) (j : RowJob) : State :=
  let s := { s with media := { s.media with rows := s.media.rows.filter (fun r => r.id != j.id) } }
  match j.merge with
  | some nsid => mergeDone s j nsid
  | none =>
  let s := { s with media := { s.media with
    stagingDir := if j.log then s.media.stagingDir else rowDir s j
    logDir := if j.log then rowLog s j else s.media.logDir } }
  let s := j.seqs.foldl (fun s q => match KV.find s.jr.recs q with
    | none => s
    | some r => match nsOf s r.nsid with
      | none => s
      | some n =>
        let mine := (recUnits n r).countP (fun u => j.units.contains u)
        let s := setRec s q (fun r => { r with onFlash := r.onFlash + mine })
        let s := if r.wt && r.onFlash + mine ≥ r.nlb * unitsPerLba n.flbas then
            settle (makeDurable (if r.copy then ackMirror s r.oseq r.func else s) q) q else s
        match n.zoned with
        | true => queueReady (retireNs s r.nsid) r.nsid r.zidx r.func
        | false => retireNs s r.nsid) s
  staleStripes s j.group

/-! ### Zone word lines (R189, R272) -/

/-- Word lines of a zone confirmed on every position that holds a die: the least over its members. -/
def zoneConfirmed (s : State) (nsid i : Nat) (z : Zone) : Nat :=
  match z.group with
  | none => 0
  | some g =>
    ((layoutPos z.members (grpOf s g).dead).map (fun p =>
      let d := memberDie s g p
      if (dieOf s d).state == .failed then wordLines
      else match zoneSet s d nsid i with
        | some k => baseLine (bsetOf s k) + (bsetOf s k).final
        | none => 0)).foldl min wordLines

/-- Bring a zone's confirmed word lines up to date and retire what they allow. -/
def confirmZone (s : State) (nsid i : Nat) : State :=
  match nsOf s nsid with
  | none => s
  | some n =>
    let z := n.zone i
    let c := zoneConfirmed s nsid i z
    if c ≤ z.confirmed then s
    else staleStripes (settleStaging (retireNs (setZone s nsid i (fun z => { z with confirmed := c })) nsid) nsid i) (z.group.getD 0)

/-! ### Refresh and copies (R203, R211, R214, R215) -/

/-- Queue a block set for refresh, or raise its priority (R214). -/
def queueRefresh (s : State) (k prio : Nat) : State :=
  let q := s.media.refresh
  if q.any (fun r => r.die == k / 2048 && r.bset == k % 2048) then
    { s with media := { s.media with refresh := q.map (fun r => if r.die = k / 2048 ∧ r.bset = k % 2048 then { r with prio := min r.prio prio } else r) } }
  else { s with media := { s.media with refresh := q ++ [⟨k / 2048, k % 2048, prio⟩] } }

/-- Start a copy of a set, with those that continue it, into a destination of the same role on a die (R215). -/
def startCopy (s : State) (kind : CopyKind) (src dstDie dst : Nat) : State :=
  let b := bsetOf s src
  let id := s.media.copyCtr
  let c : Copy := { id := id, kind := kind, die := src / 2048, src := src % 2048, dst := dst, dstDie := dstDie, nsid := b.nsid, zone := b.zone, passes := passCount b.mode (chainLines s src) }
  let s := bindSet s (setKey dstDie dst) (fun x => { x with state := .copying, mode := b.mode, layout := b.layout, nsid := b.nsid, zone := b.zone, tag := b.tag })
  let s := (setChain 3 s src).foldl (fun s k => setBset s k (fun x => { x with state := .copying })) s
  { s with media := { s.media with copies := s.media.copies ++ [c], copyCtr := id + 1 } }

/-- The state of a source again its own, once its copy is dropped (R216). -/
def sourceBack (s : State) (c : Copy) : State :=
  let l := setChain 3 s (setKey c.die c.src)
  l.foldl (fun s k => setBset s k (fun x => { x with state := if l.length = 1 then .inUse else .continued })) s

/-- The next refresh of a die: by priority, oldest first (R214). -/
def nextRefresh (s : State) (d : Nat) : Option Refresh :=
  let q := s.media.refresh.filter (fun r => r.die == d)
  (q.filter (fun r => q.all (fun x => r.prio ≤ x.prio))).head?

/-- Start the work of a die that runs no copy (R211, R214): its next refresh, or the relocation its wear spread asks for. -/
def startDieCopy (s : State) (d : Nat) : State :=
  if s.media.copies.any (fun c => c.die == d && !c.complete) || (dieOf s d).state != .healthy then s
  else match nextRefresh s d with
    | some r =>
      let src := headOf 3 s (setKey d r.bset)
      let b := bsetOf s src
      let s' := { s with media := { s.media with refresh := s.media.refresh.filter (fun x => !(x.die == d && x.bset == r.bset)) } }
      if b.state != .inUse && b.state != .continued then s'
      else match (if b.role = .zone then chooseSet s d 0 else (freeOf s d b.role).head?) with
        | none => s
        | some dst =>
          let s' := { s' with media := { s'.media with
            refDisturb := s'.media.refDisturb + bit (r.prio == 3)
            refRetention := s'.media.refRetention + bit (r.prio == 4)
            refError := s'.media.refError + bit (r.prio ≤ 2) } }
          startCopy s' .refresh src d dst
    | none =>
      if wearSpread s d ≤ 60000 then s
      else
        let used := (List.range 2048).filter (fun b => (bsetOf s (setKey d b)).role == .zone && (bsetOf s (setKey d b)).state == .inUse)
        let least := keepLeast used (fun b => (bsetOf s (setKey d b)).wear)
        match leastBy least (fun b => (bsetOf s (setKey d b)).openDay), leastBy (freeOf s d .zone) (fun b => 2^40 - (bsetOf s (setKey d b)).wear) with
        | some src, some dst =>
          let s := { s with media := { s.media with relocWear := s.media.relocWear + 1 } }
          startCopy s .relocation (setKey d src) d dst
        | _, _ => s

/-- The pass that a copy is at: its kind and word line. A continuation starts at its own first line (R217). -/
def copyPass (s : State) (c : Copy) : DieOpKind × Nat :=
  let first := baseLine (bsetOf s (setKey c.dstDie c.dst))
  let p := passAt (bsetOf s (setKey c.die c.src)).mode (chainLines s (setKey c.die c.src) - first) c.pass
  (p.1, first + p.2)

/-- Queue a copy's next pass (R215, R171 step 3; a move's programs at step 5, R257). -/
def queueCopyPass (s : State) (c : Copy) : State :=
  if c.busy || c.complete || c.passes ≤ c.pass then s
  else
    let p := copyPass s c
    { s with
      media := { s.media with copies := s.media.copies.map (fun x => if x.id = c.id then { x with busy := true } else x) }
      cal := { s.cal with progs := s.cal.progs ++ [{ die := c.dstDie, kind := p.1, bset := setKey c.dstDie c.dst, wl := p.2, step := (if c.kind = .move then 5 else 3), job := .copy c.id, nsid := c.nsid, zone := c.zone }] } }

/-- A pass of a zone that its set on the die holds already. -/
def doneBefore (s : State) (p : Prog) : Bool :=
  p.job == .zone && (zoneSet s p.die p.nsid p.zone).any (fun k =>
    let b := bsetOf s k
    if p.kind.isFinal then p.wl < baseLine b + b.final else p.wl < baseLine b + heldLines b)

/-- Passes already made on a die are not made again. -/
def dropDone (s : State) : State := { s with cal := { s.cal with progs := s.cal.progs.filter (fun p => !doneBefore s p) } }

/-- The map switch of a copy (R215): a durable record; the source goes to the erase queue. -/
def switchCopy (s : State) (c : Copy) : State :=
  let s := moduleRecord s 0x20 0 c.zone
  let s := (setKey c.dstDie c.dst :: c.cont).foldl (fun s k => setBset s k (fun x => { x with state := if c.cont.isEmpty then .inUse else .continued })) s
  let s := toEraseAll s (setKey c.die c.src)
  dropDone { s with media := { s.media with copies := s.media.copies.filter (fun x => x.id != c.id) } }

/-- Count a grown bad block of a set (R218) and record it. -/
def grownBad (s : State) (k : Nat) (plane cont : Nat) : State :=
  let d := k / 2048
  let s := setBset s k (fun b => { b with bad := if b.bad.contains plane then b.bad else b.bad ++ [plane] })
  let s := setDie s d (fun x => { x with grownBad := x.grownBad + 1 })
  record s 0x35 [dieCh s.part d, dieOrd s.part d, plane, k % 2048, cont]

/-- The first word line of a set not confirmed (R217): past its final passes, or the last of them where its read-back fails. -/
def unconfirmed (b : BSet) (last : Bool) : Nat := baseLine b + (b.final - bit (!last))

/-- A destination word line fails (R217): the bad block is marked, a continuation is bound, the copy goes on at the first unconfirmed row. -/
def copyFailed (s : State) (c : Copy) (plane : Nat) (last : Bool) : State :=
  let old := setKey c.dstDie c.dst
  let b := bsetOf s old
  let s := { s with media := { s.media with copyFails := s.media.copyFails + 1 } }
  let again (s : State) (d first : Nat) (cont : List Nat) : State :=
    { s with media := { s.media with copies := s.media.copies.map (fun x => if x.id = c.id then
      { x with dst := d, cont := cont, pass := 0, busy := false, passes := passCount b.mode (chainLines s (setKey c.die c.src) - first) } else x) } }
  match (if b.role = .zone then chooseSet s c.dstDie 0 else (freeOf s c.dstDie b.role).head?) with
  | none => grownBad s old plane 0xFFFF
  | some d =>
    let s := grownBad s old plane d
    if 3 ≤ c.cont.length then
      -- a fourth continuation: the data is relocated whole into one erased set
      let s := (old :: c.cont).foldl toErase s
      again (bindSet s (setKey c.dstDie d) (fun x => { x with state := .copying, mode := b.mode, layout := b.layout, nsid := b.nsid, zone := b.zone, tag := b.tag })) d 0 []
    else again (continueIn s old (setKey c.dstDie d) (unconfirmed b last)) d (unconfirmed b last) (c.cont ++ [old])

/-- A zone's member goes on from a word line in the set `c` of its die (R217, R351): a continuation, or where it has three already its data is relocated whole into that set. -/
def goOn (s : State) (k c first : Nat) : State :=
  let b := bsetOf s k
  let head := headOf 3 s k
  if (setChain 3 s head).length ≤ 3 then continueIn s k (setKey (k / 2048) c) first
  else startCopy (setBset s k (fun x => { x with coarse := first - baseLine b, final := first - baseLine b })) .relocation head (k / 2048) c

/-! ### Lost data (R227, R239 to R242) -/

/-- Attached controllers see the notice of a newly lost extent (R239). -/
def lossNotice (s : State) (nsid : Nat) (a : List Nat) : State :=
  match nsOf s nsid with
  | none => s
  | some n => refreshCrit (n.attached.foldl (fun s f => raiseAen s f 7 0xC4 0xC4) (record s 0x36 a none nsid))

/-- The runs of LBAs in a range that no extent lists yet: first LBA and count, with the LBAs left to look at. -/
def unlisted (ex : List Extent) (nsid : Nat) : Nat → Nat → List (Nat × Nat)
  | _, 0 => []
  | lba, n + 1 =>
    if ex.any (fun x => x.nsid == nsid && x.slba ≤ lba && lba < x.slba + x.count) then unlisted ex nsid (lba + 1) n
    else match unlisted ex nsid (lba + 1) n with
      | (a, k) :: l => if a = lba + 1 then (lba, k + 1) :: l else (lba, 1) :: (a, k) :: l
      | [] => [(lba, 1)]

/-- Adjoining extents of the same kind are one; it keeps the boot and the instant of the first. -/
def joinExtents : List Extent → List Extent
  | [] => []
  | x :: l => match joinExtents l with
    | [] => [x]
    | y :: m => if x.nsid = y.nsid ∧ x.slba + x.count = y.slba ∧ x.cause = y.cause ∧ x.repairable = y.repairable ∧ x.group = y.group
        then { x with count := x.count + y.count } :: m else x :: y :: m

/-- List one extent, in its place (R239, R243), with its event and notice. -/
def listExtent (s : State) (e : Extent) : State :=
  let ex := s.media.extents
  let before := ex.filter (fun x => x.nsid < e.nsid || (x.nsid == e.nsid && x.slba < e.slba))
  let after := ex.filter (fun x => !(x.nsid < e.nsid || (x.nsid == e.nsid && x.slba < e.slba)))
  let s := { s with media := { s.media with extents := joinExtents (before ++ e :: after), extentGen := s.media.extentGen + 1 } }
  lossNotice s e.nsid [e.slba, e.count, e.cause, bit e.repairable, 0]

/-- List the LBAs of a range of one namespace that are newly found lost (R239). -/
def listLost (s : State) (nsid slba count cause group : Nat) (repairable : Bool) : State :=
  (unlisted s.media.extents nsid slba count).foldl (fun s x =>
    listExtent s { nsid := nsid, slba := x.1, count := x.2, cause := cause, repairable := repairable, group := group, boot := s.boot.boot, found := s.time.dtb }) s

/-- The module can fetch lost data of a namespace from the twin now (R240). -/
def canFetch (s : State) (n : Ns) : Bool := n.mirrored && s.md.mode == .service && !n.resyncPending

/-- Ask the twin for LBAs (R240, R284, message 24h of Table 10.7), for a waiting read, a repair, or a record by its OSEQ. -/
def fetchFromTwin (s : State) (nsid slba count slot : Nat) (oseq : Nat := 0) : State :=
  let tag := s.tw.tagCtr
  let s := send s 0x24 tag [nsid, slba, count, oseq]
  { s with tw := { s.tw with tagCtr := (tag + 1) % 2^31, fetches := s.tw.fetches ++ [(tag, slot, nsid, slba, count)] } }

/-- Lost units (R227, R239, R240): fetched from the twin where it can be, else listed. -/
def loseLba (s : State) (nsid slba group cause slot : Nat) : State :=
  match nsOf s nsid with
  | none => s
  | some n => if canFetch s n then fetchFromTwin s nsid slba 1 slot else listLost s nsid slba 1 cause group n.mirrored

/-! ### Spares, rebuild, contraction (R228 to R237, R246 to R248) -/

/-- Distance between channels by number. -/
def chDist (a b : Nat) : Nat := if a ≤ b then b - a else a - b

/-- R228: the spare that takes over a position. -/
def chooseSpare (s : State) (c : Nat) : Option Nat :=
  match (freeSparesOn s c).head? with
  | some d => some d
  | none =>
    let cs := (List.range 32).filter (fun x => !(freeSparesOn s x).isEmpty)
    let most := keepLeast cs (fun x => 2 - (freeSparesOn s x).length)
    match (keepLeast most (chDist c)).head? with
    | some x => (freeSparesOn s x).head?
    | none => none

/-- Whether a set holds data a rebuild must rewrite (R231). -/
def needsRebuild (b : BSet) : Bool := (b.state == .inUse || b.state == .copying || b.state == .continued) && b.role != .reference && b.role != .retired

/-- The rank of a set in the order of R231; zone sets by whether their zone is active, then by module zone number. -/
def rebuildRank (s : State) (b : BSet) : Nat :=
  match b.role with
  | .system => 0
  | .metaMap | .metaLog => 1
  | .staging => 2
  | .landing => 3
  | _ => match nsOf s b.nsid with
    | some n => if (n.zone b.zone).active then 10 + n.znum b.zone else 1000000 + n.znum b.zone
    | none => 2000000

/-- A landing set holds landed records not yet retired (R231). -/
def landLive (s : State) (k : Nat) : Bool :=
  s.media.landing.any (fun x => x.set == k % 2048 && (dieOf s (k / 2048)).group == some x.group && x.seqs.any (fun q => (KV.find s.jr.recs q).isSome))

/-- The sets of a failed die to rebuild, in the order of R231. -/
def rebuildOrder (s : State) (d : Nat) : List Nat :=
  sortBy (fun k => rebuildRank s (bsetOf s k))
    ((s.media.sets.filter (fun x => x.1 / 2048 == d && needsRebuild x.2 && (x.2.role != .landing || landLive s x.1))).map (·.1))

/-- The set of another failed die that goes with a set in the combined pass (R236): same index of an SLC role, same zone else. -/
def mateOf (s : State) (k d : Nat) : Option Nat :=
  let b := bsetOf s k
  (s.media.sets.find? (fun x => x.1 / 2048 == d && needsRebuild x.2 && x.2.role == b.role &&
    (if b.role == .zone then x.2.nsid == b.nsid && x.2.zone == b.zone else x.1 % 2048 == k % 2048))).map (·.1)

def setRebuild (s : State) (g : Nat) (f : Rebuild → Rebuild) : State :=
  { s with media := { s.media with rebuilds := s.media.rebuilds.map (fun r => if r.group = g then f r else r) } }

/-- Raise or clear the rebuilding flag as rebuilds run or wait (Table 2.5). -/
def refreshRebuilding (s : State) : State :=
  setFlags s (fun m => { m with rebuilding := !s.media.rebuilds.isEmpty })

/-- Finish the zones of a contracted group (R102). -/
def contractZones (s : State) (g : Nat) : State :=
  (allZones s).foldl (fun s x =>
    let (nsid, i, z) := x
    if z.group ≠ some g then s
    else if z.active then noteZone (setZone (finishZone s nsid i true) nsid i (fun z => { z with finishedByCtrl := true })) nsid i
    else if z.st = .full then noteZone (setZone s nsid i (fun z => { z with resetRec := true })) nsid i
    else s) s

/-- Slots of the module after retirements (R97): 1,936 per group not retired. -/
def zoneSlots (s : State) : Nat := 1936 * (s.part.groups - s.media.groups.countP (fun g => g.2.retired))

/-- Namespaces being created here and on the twin: they hold what they will need (R97). -/
def awaited (s : State) : List (Nat × Ns) := s.tw.adminWait.filterMap (fun w => if w.kind = 2 then w.ns.map (fun n => (w.nsid, n)) else none)

/-- Zones held by the module that are not Offline (R97, R103). -/
def zonesHeld (s : State) : Nat :=
  (s.zn.ns ++ awaited s).foldl (fun a p => if p.2.zoned && p.2.held then
    a + p.2.zoneCount - p.2.zones.countP (fun z => z.2.st == .offline) else a) 0

/-- Empty zones of a namespace. -/
def emptyZones (n : Ns) : List Nat := (List.range n.zoneCount).filter (fun i => (n.zone i).st == .empty)

/-- R103: move Empty zones to Offline until the module's zones fit its slots. -/
def trimZones : Nat → State → State
  | 0, s => s
  | k + 1, s =>
    if zonesHeld s ≤ zoneSlots s then s
    else
      let l := (s.zn.ns.filter (fun p => p.2.zoned && p.2.held && !(emptyZones p.2).isEmpty)).map (·.1)
      match leastBy l (fun nsid => 1000000 - ((nsOf s nsid).map (fun n => (emptyZones n).length)).getD 0) with
      | none => s
      | some nsid =>
        let i := (((nsOf s nsid).map emptyZones).getD []).getLastD 0
        trimZones k (noteZone (setZone s nsid i (fun z => { z with st := .offline })) nsid i)

/-- R103: a zone of a retired group is placed anew and its content fetched from the twin, which is programmed as it comes. -/
def copyZone (s : State) (nsid i g : Nat) (n : Ns) (z : Zone) : State :=
  let s := queueErase s nsid i
  let s := setZone s nsid i (fun z => { z with group := some g, members := groupMembers s g, confirmed := 0, queued := 0, staging := false })
  fetchFromTwin s nsid (i * zoneSize n.flbas) z.wp 65536

/-- A fetch for a zone placed anew has brought its content: its word lines are queued (R103). -/
def zoneFetched (s : State) (nsid slba count : Nat) : State :=
  match nsOf s nsid with
  | none => s
  | some n =>
    let i := slba / zoneSize n.flbas
    let z := n.zone i
    if n.zoned ∧ slba % zoneSize n.flbas = 0 ∧ z.confirmed = 0 ∧ z.queued = 0 ∧ z.wp = count then
      queueTo s nsid i (if z.st = .full then ceilDiv (z.wp * unitsPerLba n.flbas) (wordLineUnits z.ext.density z.members) else linesTo z n.flbas z.wp) 0 5
    else s

/-- R103: zones of a retired group go to Read Only, or are copied from the twin in Service. A zone that is charged to no function is placed under the dedications of function 0 (R108 condition 3), as the spec names none (DESIGN CHOICE, log 108). -/
def retireGroupZones (s : State) (g : Nat) : State :=
  let s := (allZones s).foldl (fun s x =>
    let (nsid, i, z) := x
    if z.group ≠ some g || z.st == .empty || z.st == .offline then s
    else match nsOf s nsid with
      | none => s
      | some n =>
        if n.mirrored ∧ s.md.mode = .service then
          match place s (z.activeFunc.getD 0) z.ext with
          | .ok g' => if z.cap ≤ zoneCap z.ext.density (groupMembers s g') n.flbas then copyZone s nsid i g' n z
            else noteZone (setZone s nsid i (fun z => { z with st := .readOnly, activeFunc := none, openFunc := none })) nsid i
          | .error _ => noteZone (setZone s nsid i (fun z => { z with st := .readOnly, activeFunc := none, openFunc := none })) nsid i
        else noteZone (setZone s nsid i (fun z => { z with st := .readOnly, activeFunc := none, openFunc := none })) nsid i) s
  trimZones (zonesHeld s) s

/-- A copy of the Almanac body on a group that retires is rewritten in the system area of another (R369): the lowest-numbered group in service that holds none (DESIGN CHOICE, log 130). -/
def moveBody (s : State) (g : Nat) : State :=
  if !s.boot.bodyGroups.contains g then s
  else match (List.range s.part.groups).find? (fun k => !s.boot.bodyGroups.contains k && !(grpOf s k).retired) with
    | some k => { s with boot := { s.boot with bodyGroups := s.boot.bodyGroups.map (fun x => if x = g then k else x) } }
    | none => s

/-- A position fails with no spare (R246): the group contracts, or is retired where it has another unfilled position. -/
def unfilled (s : State) (g p : Nat) : State :=
  let x := grpOf s g
  if x.unfilled.isEmpty ∧ x.dead.isNone then
    let s := setGrp s g (fun x => { x with dead := some p, unfilled := [p] })
    let s := moduleRecord s 0x21 3 g
    contractZones (record s 0x33 [g, 1, p]) g
  else
    let s := moveBody (setGrp s g (fun x => { x with retired := true, unfilled := x.unfilled ++ [p] })) g
    let s := moduleRecord s 0x21 4 g
    retireGroupZones (record s 0x33 [g, 2, p]) g

/-- A new position joins or starts the rebuild of its group (R235, R236). -/
def joinRebuild (s : State) (g p spare old : Nat) : State :=
  let mine := rebuildOrder s old
  match s.media.rebuilds.find? (fun r => r.group == g) with
  | none =>
    { s with media := { s.media with rebuilds := s.media.rebuilds ++
      [{ group := g, positions := [p], spares := [spare], old := [old], todo := mine, total := mine.length, boot := s.boot.boot }] } }
  | some r =>
    let isDone (k : Nat) : Bool := r.done.any (fun x => mateOf s k (x / 2048) == some x ||
      ((bsetOf s x).role == (bsetOf s k).role && (bsetOf s x).nsid == (bsetOf s k).nsid && (bsetOf s x).zone == (bsetOf s k).zone && (if (bsetOf s k).role == .zone then true else x % 2048 == k % 2048)))
    let tail := mine.filter isDone
    let extra := (mine.filter (fun k => !isDone k)).filter (fun k => !r.todo.any (fun x => mateOf s k (x / 2048) == some x))
    setRebuild { s with cal := { s.cal with progs := s.cal.progs.filter (fun q => q.job != .rebuild g) } } g (fun r => { r with
      positions := r.positions ++ [p], spares := r.spares ++ [spare], old := r.old ++ [old]
      todo := r.todo ++ extra, tailTodo := r.tailTodo ++ tail, total := r.total + mine.length, pass := 0, asked := false, reads := [], ready := false, busy := [] })

/-- Take a position over by a spare (R228 to R230). -/
def takeOver (s : State) (g p old : Nat) : State :=
  match chooseSpare s (dieCh s.part old) with
  | none => refreshCrit (unfilled s g p)
  | some d =>
    let s := moduleRecord s 0x21 1 g
    let s := setDie s d (fun x => { x with state := .spareWriting, group := some g, pos := some p })
    let s := record s 0x31 [g, p, dieCh s.part d, dieOrd s.part d, 0]
    refreshCrit (refreshRebuilding (joinRebuild s g p d old))

/-- Drop what a die was doing: its operation, its programs, its copies (R216). -/
def dropDie (s : State) (d : Nat) : State :=
  let gone := s.media.copies.filter (fun c => c.die == d || c.dstDie == d)
  let s := { s with
    cal := { s.cal with progs := s.cal.progs.filter (fun p => p.die != d || (match p.job with
      | .zone | .row _ => true
      | _ => false)) }
    media := { s.media with copies := s.media.copies.filter (fun c => c.die != d && c.dstDie != d) } }
  let s := gone.foldl (fun s c => (setKey c.dstDie c.dst :: c.cont).foldl toErase (sourceBack s c)) s
  setDie s d (fun x => { x with op := none })

/-- R216: a program waiting on a failed position goes to the spare that took it; where none did, the page is not programmed. -/
def moveProgs (s : State) (old : Nat) (spare : Option Nat) : State :=
  { s with
    cal := { s.cal with progs := s.cal.progs.filterMap (fun p =>
      if p.die ≠ old then some p else spare.map (fun d => { p with die := d, bset := setKey d (p.bset % 2048) })) }
    media := { s.media with rows := s.media.rows.map (fun r =>
      { r with left := r.left.filterMap (fun d => if d ≠ old then some d else spare) }) } }

/-- R216: a copy from another die whose destination die failed starts again on the spare that replaces it. -/
def restartCopy (s : State) (spare : Option Nat) (c : Copy) : State :=
  match spare with
  | none => s
  | some d => (chooseSet s d 0).elim s (startCopy s c.kind (setKey c.die c.src) d)

/-- Rows whose last awaited page is programmed end. -/
def endRows (s : State) : State :=
  (s.media.rows.filter (fun r => r.left.isEmpty)).foldl (fun s r => rowDone s r) s

/-- A die fails for a cause of Table 7.13 (R228, R230, R246). -/
def failDie (s : State) (d cause : Nat) : State :=
  let x := dieOf s d
  if x.state = .failed then s
  else
    let s := record s 0x30 [dieCh s.part d, dieOrd s.part d, cause, x.group.getD 0xFF, x.pos.getD 0xFF]
    let away := s.media.copies.filter (fun c => c.dstDie == d && c.die != d)
    let s := dropDie s d
    match x.state, x.group, x.pos with
    | .spareFree, _, _ => setDie s d (fun x => { x with state := .failed, cause := cause, failedBoot := s.boot.boot })
    | _, some g, some p =>
      let s := setDie s d (fun x => { x with state := .failed, cause := cause, failedBoot := s.boot.boot })
      -- a spare that fails while being written: its position is rebuilt from its first set (Table 8.2)
      let r := s.media.rebuilds.find? (fun r => r.group == g && r.spares.contains d)
      let origin := (r.bind (fun r => ((r.spares.zip r.old).find? (fun y => y.1 == d)).map (·.2))).getD d
      let s := match r with
        | some r =>
          if r.positions.length ≤ 1 then { s with media := { s.media with rebuilds := s.media.rebuilds.filter (fun y => y.group != g) } }
          else setRebuild s g (fun r => { r with positions := r.positions.filter (· != p), spares := r.spares.filter (· != d), old := r.old.filter (· != origin) })
        | none => s
      let s := takeOver s g p origin
      let sp := (s.media.dies.find? (fun y => y.2.group == some g && y.2.pos == some p && y.2.state == .spareWriting)).map (·.1)
      endRows (away.foldl (fun s c => restartCopy s sp c) (moveProgs (refreshRebuilding s) d sp))
    | _, _, _ => setDie s d (fun x => { x with state := .failed, cause := cause, failedBoot := s.boot.boot })

/-- The set in progress of a rebuild and its mates: source keys, each with the spare it goes to. -/
def rebuildItems (s : State) (r : Rebuild) : List (Nat × Nat) :=
  match r.todo, r.tailTodo with
  | k :: _, _ =>
    (r.old.zip r.spares).filterMap (fun x => if x.1 = k / 2048 then some (k, x.2) else (mateOf s k x.1).map (fun m => (m, x.2)))
  | [], k :: _ => ((r.old.zip r.spares).filter (fun x => x.1 == k / 2048)).map (fun x => (k, x.2))
  | [], [] => []

/-- Start the rebuilds allowed at a period boundary (R174, R230, R235): at most two in the module. -/
def startRebuilds (s : State) : State :=
  if s.md.mode = .measure ∨ s.md.mode = .recovery then s
  else
    (s.media.rebuilds.filter (fun r => !r.running)).foldl (fun s r =>
      if rebuildRuns s < 2 then
        record (setRebuild s r.group (fun r => { r with running := true, start := s.time.dtb })) 0x32 [r.group, 1, r.done.length, r.total]
      else s) s

/-- A rebuild whose sets are all switched ends (R236): its spares are healthy members. -/
def endRebuild (s : State) (g : Nat) : State :=
  match s.media.rebuilds.find? (fun r => r.group == g) with
  | none => s
  | some r =>
    if !r.todo.isEmpty || !r.tailTodo.isEmpty then s
    else
      let s := r.spares.foldl (fun s d => setDie s d (fun x => { x with state := .healthy })) s
      let s := record s 0x32 [g, 3, r.done.length, r.total]
      refreshRebuilding { s with media := { s.media with rebuilds := s.media.rebuilds.filter (fun x => x.group != g) } }

/-- The partial copies of the set in progress on the spares go to the erase queue (R237, R238). -/
def dropPartial (s : State) (r : Rebuild) : State :=
  (rebuildItems s r).foldl (fun s x =>
    let k := setKey x.2 (x.1 % 2048)
    if (bsetOf s k).state = .copying then toErase { s with cal := { s.cal with progs := s.cal.progs.filter (fun p => !(p.job == .rebuild r.group && p.bset == k)) } } k else s) s

/-- Skip sets whose data is gone (R231, Table 8.2); the one in progress is abandoned, its partial copy erased. -/
def skipGone (s : State) (g : Nat) : State :=
  match s.media.rebuilds.find? (fun r => r.group == g) with
  | none => s
  | some r =>
    let cut := (rebuildItems s r).any (fun x => !needsRebuild (bsetOf s x.1))
    let s := if cut then dropPartial s r else s
    endRebuild (setRebuild s g (fun r => { r with
      todo := r.todo.filter (fun k => needsRebuild (bsetOf s k))
      tailTodo := r.tailTodo.filter (fun k => needsRebuild (bsetOf s k))
      pass := if cut then 0 else r.pass, asked := r.asked && !cut, reads := if cut then [] else r.reads, ready := r.ready && !cut, busy := if cut then [] else r.busy })) g

/-- Queue the spares' programs of the pass whose data is rebuilt (R232): ahead of all other work. -/
def queueRebuildPass (s : State) (r : Rebuild) : State :=
  let items := rebuildItems s r
  let ps := items.map (fun x =>
    let b := bsetOf s x.1
    let p := passAt b.mode b.final r.pass
    ({ die := x.2, kind := p.1, bset := setKey x.2 (x.1 % 2048), wl := p.2, step := 0, job := .rebuild r.group, nsid := b.nsid, zone := b.zone } : Prog))
  -- its first pass binds the set on the spare
  let s := if r.pass = 0 then items.foldl (fun s x =>
      let b := bsetOf s x.1
      bindSet s (setKey x.2 (x.1 % 2048)) (fun y => { y with state := .copying, role := b.role, mode := b.mode, layout := b.layout })) s else s
  setRebuild { s with cal := { s.cal with progs := s.cal.progs ++ ps } } r.group (fun r => { r with ready := true, busy := items.map (·.2) })

/-- Switch a rebuilt set and its mates to the spares (R233). -/
def switchSets (s : State) (r : Rebuild) : State :=
  let items := rebuildItems s r
  let s := items.foldl (fun s x =>
    let b := bsetOf s x.1
    let s := moduleRecord s 0x21 2 r.group
    let s := setBset s (setKey x.2 (x.1 % 2048)) (fun y => { b with erases := y.erases, wear := y.wear, headed := true, coarse := b.final, reads := y.reads })
    -- coarse passes made on the failed die past its confirmed word lines are made again on the spare (R234)
    let s := { s with cal := { s.cal with progs := ((List.range (b.coarse - b.final)).map (fun i =>
      ({ die := x.2, kind := if b.mode = 0 then .qlcCoarse else .plcCoarse, bset := setKey x.2 (x.1 % 2048), wl := baseLine b + b.final + i, step := 4, nsid := b.nsid, zone := b.zone } : Prog))) ++ s.cal.progs } }
    record (setBset s x.1 (fun y => { y with state := .free })) 0x31
      [r.group, ((dieOf s x.2).pos.getD 0), dieCh s.part x.2, dieOrd s.part x.2, r.done.length + 1]) s
  endRebuild (setRebuild s r.group (fun r => { r with
    todo := r.todo.tail, tailTodo := if r.todo.isEmpty then r.tailTodo.tail else r.tailTodo
    tail := r.todo.tail.isEmpty && !r.tailTodo.isEmpty
    done := r.done ++ items.map (·.1), pass := 0, asked := false, reads := [], ready := false, busy := [] })) r.group

end Sys2Proof.Machine
end

