-- ==== Sys2Proof/Machine/Resync.lean ====
section
/-! DEFINITION. The source of a resync and of a reshape copy: what is still to send, in order, and the frames that carry it (R254, R321 to R323). -/

namespace Sys2Proof.Machine

/-- LBAs of one frame: at most 1 MiB of data (R321). -/
def frameLbas (n : Ns) : Nat := max 1 (mib / lbaBytes n.flbas)

/-- LBAs of a map unit: 16 MiB of a metadata namespace (R125). -/
def unitLbas (n : Ns) : Nat := 16 * frameLbas n

/-- Map units of a metadata namespace. -/
def mapUnits (n : Ns) : Nat := ceilDiv n.nsze (unitLbas n)

/-- The content of an LBA as a frame carries it: its number and its key; (1, 0) is a unit marked lost. -/
def frameLba (s : State) (nsid lba : Nat) : Nat × Nat :=
  let b := readLba s nsid lba
  if b.lost then (1, 0) else (b.val, b.key)

/-- The highest ordering key among a range of LBAs: PEPOCH and OSEQ (Table 10.17). -/
def rangeKey (s : State) (nsid lo n : Nat) : Nat × Nat :=
  (List.range n).foldl (fun k i =>
    let b := readLba s nsid (lo + i)
    if keyLe b.epoch b.oseq k.1 k.2 then k else (b.epoch, b.oseq)) (0, 0)

/-- Send a frame (23h, or 26h for a reshape copy) under a tag of its own and remember it until it is confirmed. -/
def sendFrame (s : State) (reshape : Bool) (kind nsid unit slba nlb : Nat) (key : Nat × Nat) (resetId zstate wp : Nat) (bytes : Nat) : State :=
  let t := s.tw.tagCtr
  let data := (List.range nlb).flatMap (fun i => [(frameLba s nsid (slba + i)).1, (frameLba s nsid (slba + i)).2])
  send { s with tw := { s.tw with tagCtr := (t + 1) % 2^31, frames := s.tw.frames ++ [{ tag := t, nsid := nsid, unit := unit, kind := kind, bytes := bytes, reshape := reshape }] } }
    (if reshape then 0x26 else 0x23) t ([kind, nsid, unit, nlb, slba, key.2, resetId, zstate, wp, key.1] ++ data)

/-- Work that may be sent: that of a reshape waits while a rebuild pauses it (R258). -/
def sendable (s : State) (w : Work) : Bool := !w.reshape || !(nsOf s w.nsid).any (fun n => n.reshape.any (fun r => r.paused))

/-- The next piece of work (R322): ascending NSID; in a namespace the zones with mirror records since the commit first, in the order of their first record, then ascending units. -/
def nextWork (s : State) : Option Work :=
  let l := s.tw.work.filter (sendable s)
  match leastBy (l.map (fun w => w.nsid)) (fun x => x) with
  | none => none
  | some nsid =>
    let mine := l.filter (fun w => w.nsid == nsid)
    ((s.tw.firstMirror.filter (fun x => x.1 == nsid)).findSome? (fun x => mine.find? (fun w => w.kind == 1 && w.unit == x.2))).or mine.head?

/-- Put a piece of work back as it now stands, or take it out. -/
def setWork (s : State) (w : Work) (w' : Option Work) : State :=
  { s with tw := { s.tw with work := s.tw.work.flatMap (fun x => if x = w then w'.toList else [x]) } }

/-- Send the next frame of a zone: a range up to its write pointer, then its state alone; a zone reset meanwhile is sent again from its first LBA (R254). -/
def sendZone (s : State) (w : Work) (n : Ns) : State :=
  let z := n.zone w.unit
  let base := w.unit * zoneSize n.flbas
  let w' : Work := if w.resetId = z.resetId then w else { w with slba := base, resetId := z.resetId }
  let off := w'.slba - base
  if off < z.wp then
    let k := min (frameLbas n) (z.wp - off)
    sendFrame (setWork s w (some { w' with slba := w'.slba + k })) w.reshape 1 w.nsid w.unit w'.slba k (rangeKey s w.nsid w'.slba k)
      z.resetId z.st.code (off + k) (k * lbaBytes n.flbas)
  else sendFrame (setWork s w none) w.reshape 2 w.nsid w.unit base 0 (z.keyEpoch, z.keyOseq) z.resetId z.st.code z.wp 0

/-- Send the next frame of a map unit. -/
def sendUnit (s : State) (w : Work) (n : Ns) : State :=
  let k := min (frameLbas n) w.nlb
  sendFrame (setWork s w (if w.nlb ≤ k then none else some { w with slba := w.slba + k, nlb := w.nlb - k })) w.reshape 3 w.nsid w.unit w.slba k
    (rangeKey s w.nsid w.slba k) 0 0 0 (k * lbaBytes n.flbas)

/-- Send one frame of the next piece of work; none while 16 are unconfirmed (R322). -/
def pumpOne (s : State) : Option State :=
  if 16 ≤ s.tw.frames.length ∨ s.md.mode ≠ .service then none
  else match nextWork s with
    | none => none
    | some w =>
      match nsOf s w.nsid with
      | none => some (setWork s w none)
      | some n =>
        some (match w.kind with
          | 1 => sendZone s w n
          | 3 => sendUnit s w n
          | _ => sendFrame (setWork s w none) false w.kind w.nsid 0 0 0 (0, 0) 0 0 0 0)

/-- Send frames while there are some to send and the window is open. -/
def pumpFor : Nat → State → State
  | 0, s => s
  | k + 1, s => match pumpOne s with
    | none => s
    | some s' => pumpFor k s'

def pump (s : State) : State := pumpFor 64 s

/-- A zone's work: from an LBA of it on. -/
def zoneWork (nsid : Nat) (n : Ns) (i off : Nat) (reshape : Bool) : Work :=
  { kind := 1, nsid := nsid, unit := i, slba := i * zoneSize n.flbas + off, resetId := (n.zone i).resetId, reshape := reshape }

/-- Every non-Empty zone of a namespace from its first LBA, or every map unit of a metadata namespace (R254, R322). -/
def wholeWork (nsid : Nat) (n : Ns) (reshape : Bool) : List Work :=
  if n.zoned then (n.zones.filter (fun z => z.2.st != .empty)).map (fun z => zoneWork nsid n z.1 0 reshape)
  else (List.range (mapUnits n)).map (fun u =>
    { kind := 3, nsid := nsid, unit := u, slba := u * unitLbas n, nlb := min (unitLbas n) (n.nsze - u * unitLbas n), reshape := reshape })

/-- Bytes a piece of work still has to send. -/
def workBytes (s : State) (w : Work) : Nat :=
  match nsOf s w.nsid with
  | none => 0
  | some n => lbaBytes n.flbas * (if w.kind = 1 then (n.zone w.unit).wp - (w.slba - w.unit * zoneSize n.flbas) else w.nlb)

/-- Begin to send: the work joins the list, and frames go. -/
def addWork (s : State) (l : List Work) : State := pump { s with tw := { s.tw with work := s.tw.work ++ l } }

end Sys2Proof.Machine
end

