-- ==== Sys2Proof/Machine/Moves.lean ====
section
/-! DEFINITION. Reshapes: their records and their end, and group moves zone by zone (R252, R257, R258). -/

namespace Sys2Proof.Machine

/-- The owner of a Reshape carried out for the twin: no function of this module. -/
def twinAsked : Nat := 65536

/-- Change the record of a Reshape on the controller that asked for it (R252). -/
def setReshapeZop (s : State) (r : Reshape) (f : ZopRec → ZopRec) : State :=
  setCtrl s r.owner (fun c => { c with zops := c.zops.map (fun z => if z.seq = r.zopSeq then f z else z) })

/-- Settle one zone of a group move: in the record, or for a move the twin asked for by a Zone confirmation; a zone skipped is not confirmed. -/
def noteMove (s : State) (r : Reshape) (i : Nat) (m : ZRes) : State :=
  if r.owner ≠ twinAsked then setReshapeZop s r (fun z => z.settle i m)
  else match m with
    | .acted => send s 0x06 r.tag [i, 0]
    | .failed st => send s 0x06 r.tag [i, st.code]
    | _ => s

/-- Nothing of a Reshape is left to send. -/
def dropReshapeWork (s : State) (nsid : Nat) : State :=
  { s with tw := { s.tw with
    work := s.tw.work.filter (fun w => !(w.reshape && w.nsid == nsid))
    frames := s.tw.frames.filter (fun w => !(w.reshape && w.nsid == nsid)) } }

/-- A cancel of the Reshape waits (R258). -/
def Reshape.cancelled (r : Reshape) : Bool := r.cancelCid.isSome || r.cancelTag.isSome

/-- Complete the cancels that wait for a Reshape's end. -/
def endCancel (s : State) (r : Reshape) : State :=
  let s := r.cancelCid.elim s (fun x => completeFor s x.1 x.2 .success)
  r.cancelTag.elim s (fun t => send s 0x05 t [0, 0, 0])

/-- End a Reshape (R252): DONE and its status, the event 0073h, the notice; a cancel that waits for it completes. One carried out for the twin is reported to it. -/
def endReshape (s : State) (nsid : Nat) (st : Status) : State :=
  match (nsOf s nsid).bind (·.reshape) with
  | none => s
  | some r =>
    let s := endCancel (setNs (dropReshapeWork s nsid) nsid (fun n => { n with reshape := none })) r
    if r.owner = twinAsked then send s 0x0C 0 [0xC5, nsid, st.code]
    else
      let s := setReshapeZop s r (fun z => { z with done := true, finish := s.time.dtb, status := some st })
      let s := record s 0x73 [if r.move then 6 else 7, st.code % 256, st.code / 256, r.zopSeq] none nsid
      raiseAen s r.owner 7 0xC9 0xC9

/-- The group a moved zone goes to (R257): under R108 with the new mask, among layouts that hold the zone's capacity; for a zone charged to no function, under the dedications of function 0 (DESIGN CHOICE, log 108). -/
def moveGroup (s : State) (z : Zone) (affinity flbas : Nat) : Except Status Nat :=
  let ok := (List.range s.part.groups).filter (fun g =>
    groupAllows s (z.activeFunc.getD 0) g affinity && z.cap ≤ zoneCap z.ext.density (groupMembers s g) flbas
      && (!z.active || groupActive s g < 128))
  match chooseGroup s ok { z.ext with affinity := affinity } with
  | some g => .ok g
  | none => place s (z.activeFunc.getD 0) { z.ext with affinity := affinity } |>.bind (fun _ => .error .c3)

/-- Switch a moved zone into its new group (R249, R257); CONT where the module is separated (R313). -/
def switchMove (s : State) (nsid i g affinity : Nat) : State :=
  let s := setZone s nsid i (fun z => { z with group := some g, ext := { z.ext with affinity := affinity } })
  let s := if s.md.mode = .solo ∨ s.md.mode = .pairing then setNs s nsid (fun n => { n with cont := n.cont || n.mirrored }) else s
  moduleRecord s 0x20 0 i

/-- Start the copies of a zone's member sets into the dies of a group. -/
def moveCopies (s : State) (nsid i g : Nat) (z : Zone) : State :=
  match z.group with
  | none => s
  | some g0 => (layoutPos z.members none).foldl (fun s p =>
      match zoneSet s (memberDie s g0 p) nsid i, chooseSet s (memberDie s g p) z.ext.lifetime with
      | some src, some dst => startCopy s .move src (memberDie s g p) dst
      | _, _ => s) s

/-- A group move carried out by this module. -/
def Reshape.movesHere (r : Reshape) : Bool := r.move && (!r.remote || r.owner == twinAsked)

/-- Take a group move on from its next zone to one that needs a copy, or to its end (R257). -/
def moveOn : Nat → State → Nat → State
  | 0, s, _ => s
  | k + 1, s, nsid =>
    match nsOf s nsid with
    | none => s
    | some n =>
      match n.reshape with
      | none => s
      | some r =>
        if !r.movesHere || r.paused then s
        else if r.cancelled then endReshape s nsid .aborted
        else if r.last < r.next then endReshape s nsid .success
        else
          let i := r.next
          let z := n.zone i
          let on (s : State) : State := setNs s nsid (fun n => { n with reshape := some { r with next := i + 1 } })
          let permitted : Bool := match z.group with
            | some g => r.affinity == 0 || r.affinity / 2^g % 2 == 1
            | none => true
          if z.st == .empty || permitted then
            moveOn k (on (noteMove (setZone s nsid i (fun z => { z with ext := { z.ext with affinity := r.affinity } })) r i .skipped)) nsid
          else match moveGroup s z r.affinity n.flbas with
            | .error st => moveOn k (on (noteMove s r i (.failed st))) nsid
            | .ok g =>
              let s' := moveCopies s nsid i g z
              if s'.media.copies.length = s.media.copies.length then
                moveOn k (on (noteMove (switchMove s nsid i g r.affinity) r i .acted)) nsid
              else s'

/-- Zones of a namespace at most, and one step more. -/
def moveFuel : Nat := 100000

/-- A group move with no copy under way goes on (R258). -/
def resumeMoves (s : State) : State :=
  s.zn.ns.foldl (fun s p =>
    if p.2.reshape.any (fun r => r.movesHere) && !s.media.copies.any (fun c => c.kind == .move && c.nsid == p.1) then moveOn moveFuel s p.1 else s) s

/-- A Reshape to mirrored that begins to mirror at this boundary: the first after its completion (R254). -/
def beginsMirror (r : Reshape) : Bool := r.toMirrored && !r.remote && !r.mirroring

/-- Reshapes at a period boundary: one to mirrored begins to mirror and its copy starts (R254); rebuilding pauses them, and they go on when it clears (R258). -/
def reshapeBoundary (s : State) : State :=
  let begun := s.zn.ns.filter (fun p => p.2.reshape.any beginsMirror)
  let s := { s with zn := { s.zn with ns := KV.mapVals s.zn.ns (fun _ n =>
    { n with reshape := n.reshape.map (fun r => { r with mirroring := r.mirroring || beginsMirror r, paused := s.md.rebuilding }) }) } }
  resumeMoves (addWork s (begun.flatMap (fun p => wholeWork p.1 p.2 true)))

end Sys2Proof.Machine
end

