-- ==== Sys2Proof/Machine/Slots.lean ====
section
/-! DEFINITION. The boundaries of the die calendar: slots, periods, suspension and the watchdogs of the dies (chapter 6, R146, R317, R453). -/

namespace Sys2Proof.Machine

/-! ### Suspension (R167, R168, R170) -/

/-- A claim or rest slot that ends at `endAt` begins on a die (R167): a running operation is asked to suspend, which costs one suspension; one suspended already costs none. -/
def suspendAt (s : State) (d t endAt : Nat) : State :=
  match (dieOf s d).op with
  | none => s
  | some o =>
    if o.suspended then setDie s d (fun x => { x with op := some { o with heldEnd := max o.heldEnd endAt } })
    else setDie s d (fun x => { x with op := some { o with
      suspended := true, suspends := o.suspends + 1, asked := some t, remNs := o.remNs - (t - o.since)
      ranNs := o.ranNs + (t - o.since), heldEnd := endAt } })

/-- R168: the required run, rounded up to 8 µs. -/
def requiredRun (o : DieOp) : Nat := ceilDiv o.remNs ((32 - o.suspends) * slotNs) * slotNs

/-- A suspended operation resumes. -/
def resumeOp (s : State) (d t : Nat) : State :=
  match (dieOf s d).op with
  | none => s
  | some o => setDie s d (fun x => { x with op := some { o with suspended := false, asked := none, since := t } })

/-- A closed window begins on die d at t. -/
def windowOpens (s : State) (d t : Nat) : Bool := windowStart s d (t / periodNs) == t

/-- Dies with an operation. -/
def busyDies (s : State) : List Nat := (s.media.dies.filter (fun p => p.2.op.isSome)).map (·.1)

/-! ### Claims released at a boundary (R159, R161, R202) -/

/-- A claim that stands for an array read, or a write-through program. -/
def ClaimKind.holdsDie : ClaimKind → Bool
  | .resume | .standing => false
  | _ => true

/-- The record that a command's write-through claims serve. -/
def claimSeq (s : State) (c : Claim) : Option Nat := c.slot.bind (fun sl => (KV.find s.port.cmds sl).bind (fun x => x.seq))

/-- A program of a row that carries the record of a claim's command, on the claim's die. -/
def wtProg (s : State) (c : Claim) (p : Prog) : Bool :=
  p.die == c.die && (match p.job, claimSeq s c with
    | .row _, some q => p.seqs.contains q
    | _, _ => false)

/-- The next row of a write-through claim runs under it (R139, R166). -/
def startWt (s : State) (c : Claim) (t : Nat) : State :=
  match s.cal.progs.find? (wtProg s c) with
  | none => s
  | some p =>
    let s := { s with cal := { s.cal with progs := s.cal.progs.erase p } }
    let s := if (bsetOf s p.bset).state = .free then bindSet s p.bset (fun x => { x with mode := 2, layout := groupMembers s (dieGroup s p.die) }) else s
    setDie s c.die (fun x => { x with claimOp := some { kind := p.kind, bset := p.bset % 2048, wl := p.wl, remNs := tOp p.kind (bandOf s p.die), since := t, job := p.job, nsid := p.nsid, zone := p.zone, seqs := p.seqs } })

/-- A program under a write-through claim has ended: the claim's next row runs (R139). -/
def nextWt (s : State) (d : Nat) : State :=
  match s.cal.claims.find? (fun c => c.die == d && c.kind == .wtProgram && c.released && s.time.dtb < c.start + c.len) with
  | none => s
  | some c => startWt s c s.time.dtb

/-- A program that a write-through claim not yet begun will release (R139, R171). -/
def wtPending (s : State) (p : Prog) : Bool := s.cal.claims.any (fun c => c.kind == .wtProgram && !c.released && wtProg s c p)

/-- Release the claims that start at t. -/
def releaseClaims (s : State) (t : Nat) : State :=
  (s.cal.claims.filter (fun c => c.start == t && c.kind.holdsDie)).foldl (fun s c =>
    let s := suspendAt s c.die t (t + c.len)
    if c.kind = .wtProgram then startWt s c t else s)
    { s with cal := { s.cal with claims := s.cal.claims.map (fun c => if c.start = t then { c with released := true } else c) } }

/-- Drop claims of past periods that are over: those of commands that have ended or that no command holds, and standing claims unused at their start (R317). -/
def expireClaims (s : State) (t : Nat) : State :=
  { s with cal := { s.cal with claims := s.cal.claims.filter (fun c =>
      t / periodNs * periodNs < c.start + c.len && !(c.kind == .standing && c.start ≤ t)
        || (match c.slot with
            | some sl => (KV.find s.port.cmds sl).any (fun x => !x.dies.isEmpty)
            | none => false)) } }

/-- Place a just-in-time claim for immediate start (R161): free, and on its budget or under the reservation floor. -/
def jit (s : State) (d t len : Nat) (kind : ClaimKind) (slot : Option Nat) (paid : Bool) : Option State :=
  if freeAt s d t (t + len) && (paid || floorHolds s d t len) then
    let s := addClaim s { die := d, start := t, len := len, kind := kind, slot := slot, cls := .unbound, released := true }
    some (if kind = .resume then s else suspendAt s d t (t + len))
  else none

/-- Charge a background read: die-µs on the reserve of its die, bytes on that of its channel (R162, R163). -/
def chargeBack (s : State) (d us : Nat) : State :=
  { s with cal := { s.cal with
    backUsed := KV.upd s.cal.backUsed d 0 (· + us), chBackUsed := KV.upd s.cal.chBackUsed (dieCh s.part d) 0 (· + planeBytes) } }

/-- Charge a rebuild read: die-µs on the rebuild budget, bytes on the group's share of the channel's rebuild traffic. -/
def chargeRebuild (s : State) (g d us : Nat) : State :=
  { s with cal := { s.cal with
    rebuildUsed := KV.upd s.cal.rebuildUsed d 0 (· + us)
    chRebuildUsed := KV.upd s.cal.chRebuildUsed (g * 32 + dieCh s.part d) 0 (· + planeBytes) } }

/-- The background reserves have enough left for a read of so many die-µs (R161). -/
def backPaid (s : State) (d us : Nat) : Bool := us ≤ backLeft s d s.cal.period && planeBytes ≤ chBackLeft s (dieCh s.part d) s.cal.period

/-- The rebuild budget and traffic have enough left for a read (R161, R174). -/
def rebuildPaid (s : State) (g d us : Nat) : Bool := us ≤ rebuildLeft s d s.cal.period && planeBytes ≤ chRebuildLeft s g (dieCh s.part d) s.cal.period

/-- Place a background read at a boundary: on the reserves, or under the reservation floor (R161, R174). -/
def placeBack (s : State) (d t tr : Nat) : Option State :=
  (jit s d t (20000 + tr) .background none (backPaid s d (tr / 1000))).map (fun s' => chargeBack s' d (tr / 1000))

/-! ### Rebuild reads (R174, R232) -/

/-- The survivors that a rebuild reads for the set in progress (R225, R231). -/
def survivors (s : State) (r : Rebuild) : List Nat :=
  match rebuildItems s r with
  | [] => []
  | x :: _ =>
    let b := bsetOf s x.1
    let ref : SetRef := if b.role = .zone then .zone b.nsid b.zone else .slc (x.1 % 2048)
    ((List.range 32).map (memberDie s r.group)).filter (fun d => !setUnreadable s d ref)

/-- The pass a rebuild is at: its mode, kind and word line. -/
def rebuildPass (s : State) (r : Rebuild) : Option (Nat × DieOpKind × Nat) :=
  match rebuildItems s r with
  | [] => none
  | x :: _ =>
    let b := bsetOf s x.1
    if passCount b.mode b.final ≤ r.pass then none
    else some (b.mode, passAt b.mode b.final r.pass)

/-- Ask for the survivor reads of a word line, or queue the fine pass of one whose data waits in DRAM already (R232). -/
def beginPass (s : State) (r : Rebuild) : State :=
  match rebuildPass s r with
  | none => if (rebuildItems s r).isEmpty then skipGone s r.group else switchSets s r
  | some (mode, kind, _) =>
    if kind = .qlcFine ∨ kind = .plcFine then queueRebuildPass s r
    else
      let m := if mode = 0 then 4 else if mode = 1 then 5 else 1
      setRebuild s r.group (fun r => { r with asked := true, reads := (List.range m).flatMap (fun _ => survivors s r) })

/-- Place a rebuild's survivor reads at a boundary, one on each die. -/
def placeRebuildReads (s : State) (t : Nat) (r : Rebuild) : State :=
  let mode := ((rebuildPass s r).map (·.1)).getD 2
  r.reads.dedup.foldl (fun s d =>
    let tr := tRead mode (bandOf s d)
    match jit s d t (20000 + tr) .rebuild none (rebuildPaid s r.group d (tr / 1000)) with
    | none => s
    | some s' => setRebuild (chargeRebuild s' r.group d (tr / 1000)) r.group (fun r => { r with reads := r.reads.erase d })) s

/-- The rebuilds' part of a boundary. -/
def rebuildSlot (s : State) (t : Nat) : State :=
  s.media.rebuilds.foldl (fun s r0 =>
    match s.media.rebuilds.find? (fun r => r.group == r0.group) with
    | none => s
    | some r =>
      if !r.running then s
      else
        let s := if (rebuildItems s r).any (fun x => !needsRebuild (bsetOf s x.1)) then skipGone s r.group else s
        let s := (s.media.rebuilds.find? (fun r => r.group == r0.group)).elim s (fun r => if !r.asked && !r.ready then beginPass s r else s)
        match s.media.rebuilds.find? (fun r => r.group == r0.group) with
        | none => s
        | some r => placeRebuildReads s t r) s

/-! ### Background reads of copies (R215) -/

def setCopy (s : State) (id : Nat) (f : Copy → Copy) : State :=
  { s with media := { s.media with copies := s.media.copies.map (fun c => if c.id = id then f c else c) } }

/-- Ask for the source reads of a copy's pass, or queue the fine pass of a word line read already. -/
def beginCopyPass (s : State) (c : Copy) : State :=
  let b := bsetOf s (setKey c.die c.src)
  if c.passes ≤ c.pass ∨ c.busy ∨ c.asked then s
  else
    let k := (copyPass s c).1
    if k = .qlcFine ∨ k = .plcFine then queueCopyPass s c
    else
      let m := cellBits b.mode
      setCopy s c.id (fun c => { c with asked := true, toPlace := m, toReturn := m })

/-- Place a copy's next source read (R161, R174). -/
def placeCopyRead (s : State) (t : Nat) (c : Copy) : State :=
  if c.toPlace = 0 then s
  else
    let tr := tRead (bsetOf s (setKey c.die c.src)).mode (bandOf s c.die)
    match placeBack s c.die t tr with
    | none => s
    | some s' => setCopy s' c.id (fun c => { c with toPlace := c.toPlace - 1 })

def copySlot (s : State) (t : Nat) : State :=
  s.media.copies.foldl (fun s c0 =>
    let s := (s.media.copies.find? (fun c => c.id == c0.id)).elim s (beginCopyPass s)
    (s.media.copies.find? (fun c => c.id == c0.id)).elim s (placeCopyRead s t)) s

/-- Place the background reads asked for that can begin at a boundary (R160): those of folds, of merges and compactions, of calibration. -/
def backSlot (s : State) (t : Nat) : State :=
  s.cal.backReads.foldl (fun s x =>
    if x.endAt.isSome then s
    else
      let tr := tRead x.mode (bandOf s x.die)
      match placeBack s x.die t tr with
      | none => s
      | some s' => { s' with cal := { s'.cal with
          backReads := s'.cal.backReads.erase x ++ [{ x with endAt := some (t + 20000 + tr) }] } }) s

/-- A background read has returned from a die: the first placed there. -/
def backRead (s : State) (d : Nat) : State :=
  match s.cal.backReads.find? (fun x => x.die == d && x.endAt.isSome) with
  | none => s
  | some x => { s with cal := { s.cal with
      backReads := s.cal.backReads.erase x ++ (if x.left ≤ 1 then [] else [{ x with endAt := none, left := x.left - 1 }]) } }

/-- The reads of a job are still to return. -/
def backWaits (s : State) (j : BackJob) : Bool := s.cal.backReads.any (fun x => x.job == j)

/-! ### Unbound reads (R133, R161, R471) -/

/-- The dies an awaited die of a read stands for: itself, or the survivors where it cannot be read (R172). -/
def readDies (s : State) (x : Need) (d : Nat) : List Nat :=
  if needLost s d x then (aroundPos s x d).map (fun p => memberDie s x.group p) else [d]

/-- Place the claims an Unbound read still lacks on the dies a test allows. -/
def unboundRead (s : State) (t slot : Nat) (c : Cmd) (ok : Nat → Bool) : State :=
  match nsOf s c.nsid with
  | none => s
  | some n =>
    let needs := needsOf s c.nsid n c.slba c.nlb
    c.dies.foldl (fun s d =>
      let x := KV.findD needs d {}
      ((readDies s x d).filter ok).foldl (fun s q =>
        if s.cal.claims.any (fun y => y.slot == some slot && y.die == q) then s
        else match jit s q t (claimLen s q x) .unbound (some slot) false with
          | some s' => s'
          | none => s) s) s

/-- The Unbound reads' part of a boundary: on the dies of a dedicated group those of its owner come first (R182). -/
def unboundSlot (s : State) (t : Nat) : State :=
  let l := s.port.cmds.filter (fun p => p.2.cls == .unbound && p.2.op == .read && !p.2.fwd && !p.2.dies.isEmpty && p.2.needBytes == 0)
  let own (f d : Nat) : Bool := KV.find s.cal.dedicatedNow (dieGroup s d) == some f
  l.foldl (fun s p => unboundRead s t p.1 p.2 (fun _ => true)) (l.foldl (fun s p => unboundRead s t p.1 p.2 (own p.2.func)) s)

/-- Weight of what runs fits the flash budget less the weight held (R165, R166). -/
def powerFits (s : State) (t : Nat) (k : DieOpKind) : Bool :=
  runningWeight s t + weightOp k + heldWeight s t ≤ s.pw.flashMw

/-! ### Resumption (R168) -/

def resumeSlot (s : State) (t : Nat) : State :=
  (busyDies s).foldl (fun s d =>
    match (dieOf s d).op with
    | none => s
    | some o =>
      if !o.suspended then s
      else if windowOpens s d t then resumeOp s d t
      else
        let g := requiredRun o
        if g ≤ 64000 && o.asked.isNone && powerFits s t o.kind then
          match jit s d t g .resume none false with
          | some s' => resumeOp s' d t
          | none => s
        else s) s

/-! ### Release of programs and erases (R166, R171, R197) -/

/-- The role's erased free sets on the die are fewer than 2, or data waits for one (R171 step 2). -/
def eraseUrgent (s : State) (k : Nat) : Bool :=
  let b := bsetOf s k
  (freeOf s (k / 2048) b.role).length < 2
    || ((freeOf s (k / 2048) b.role).isEmpty
        && (s.cal.progs.any (fun p => p.die == k / 2048) || s.media.refresh.any (fun r => r.die == k / 2048) || s.media.rebuilds.any (fun r => r.spares.contains (k / 2048))))

/-- An erase may not be issued yet (R119): a read still references the set, or the map change that emptied its zone is not durable. -/
def eraseHeld (s : State) (k : Nat) : Bool :=
  let b := bsetOf s k
  s.port.cmds.any (fun p => p.2.op == .read && p.2.nsid == b.nsid && p.2.dies.contains (k / 2048) && (b.role != .zone || p.2.zone == some b.zone))
    || (b.role == .zone && s.jr.recs.any (fun p => p.2.typ == 0x10 && p.2.action == 1 && p.2.nsid == b.nsid && p.2.zidx == b.zone && !p.2.ready))

/-- Program tokens a function has left on a die (R171, R177). -/
def programLeft (s : State) (f d : Nat) : Nat :=
  let p := ((budgetAt s f s.cal.period).on (dieGroup s d)).p
  if p = 0xFFFF then 0xFFFF else p - drawn s f .unbound s.cal.period false d

/-- A program can be released now: its data is read and its set can be bound, the band allows it, a set being rebuilt has reached it, no copy of its zone's set runs on the die, and no write-through claim is to release it (R119, R139, R160, R197, R216, R234). -/
def releasable (s : State) (p : Prog) : Bool :=
  let b4 := bandOf s p.die == 4
  !(b4 && (p.kind.isCoarse || (p.step == 3 && p.job == .zone)))
    && (match p.job with
        | .zone => match nsOf s p.nsid with
          | some n => (bindZone s p.die p.nsid p.zone (n.zone p.zone)).isSome
              && !(p.step == 3 && backWaits s (.fold p.nsid p.zone p.wl))
              && !s.media.copies.any (fun c => c.die == p.die && c.nsid == p.nsid && c.zone == p.zone)
              && !s.media.rebuilds.any (fun r => r.spares.contains p.die && (r.todo ++ r.tailTodo).any (fun k => (bsetOf s k).nsid == p.nsid && (bsetOf s k).zone == p.zone && (bsetOf s k).role == .zone))
          | none => false
        | .row id => !backWaits s (.row id) && !wtPending s p
        | _ => true)

/-- Reads asked of a channel's dies whose claims have not begun. -/
def readRequests (s : State) (c : Nat) : Nat :=
  s.cal.claims.countP (fun x => !x.released && x.slot.isSome && dieCh s.part x.die == c)

/-- The program requests of a channel that the calendar holds (R17, R18, Table 1.2): the reads' aside, the first of those that can be released, as many as the crossing has credits. A request past them waits with its core. -/
def requests (s : State) (c : Nat) : List Prog :=
  (s.cal.progs.filter (fun p => dieCh s.part p.die == c && releasable s p)).take (IslandCrossing.coreCalendar.credits - readRequests s c)

/-- The oldest journal record whose data a program carries (R171 step 1). -/
def oldestSeq (s : State) (p : Prog) : Nat :=
  let l : List Nat := match p.job, nsOf s p.nsid with
    | .zone, some n =>
      let z := n.zone p.zone
      let u := wordLineUnits z.ext.density z.members
      let lo (r : VRec) : Nat := (r.slba - p.zone * zoneSize n.flbas) * unitsPerLba n.flbas
      (s.jr.recs.filter (fun x => x.2.nsid == p.nsid && x.2.zidx == p.zone && x.2.zone != 0xFFFFFFFF && 1 ≤ x.2.typ && x.2.typ ≤ 3
        && lo x.2 < (p.wl + 1) * u && p.wl * u < lo x.2 + x.2.nlb * unitsPerLba n.flbas)).map (·.1)
    | _, _ => p.seqs
  l.foldl min (2^64)

/-- The program or erase a die releases next, with the step of R171 under which it goes; 0 a rebuild's. -/
inductive Pick where
  | prog (p : Prog) (step : Nat)
  | erase (k : Nat)

/-- A program of a stripe row held in the journal: host rows, and staging and log rows (R171, R274). -/
def Prog.ofJournal (p : Prog) : Bool := (p.job == .zone && p.step == 4) || (match p.job with
  | .row _ => !p.seqs.isEmpty
  | _ => false)

/-- The choice of R171 on one die. On a spare being written its own stream goes first (R232): rebuilt pages up to their 2,048 µs of the period, then its pages of rows, then rebuilt pages again; that the share is taken first is the model's choice (DESIGN CHOICE, log 127). -/
def pick (s : State) (d : Nat) : Option Pick :=
  let ps := (requests s (dieCh s.part d)).filter (fun p => p.die == d)
  let es := s.media.eraseQ.filter (fun k => k / 2048 == d && !eraseHeld s k)
  let heavy := vigilBytes s * 3 ≤ liveBytes s * 4 && !s.jr.recs.isEmpty
  let go (l : List Prog) (step : Nat) : Option Pick := l.head?.map (fun p => .prog p step)
  let mine := ps.filter Prog.ofJournal
  let host := ps.filter (fun p => p.step == 4 && 0 < programLeft s p.func d)
  let owner := KV.find s.cal.dedicatedNow (dieGroup s d)
  let rebuilt := ps.filter (fun p => p.step == 0)
  let rows := ps.filter (fun p => (dieOf s d).state == .spareWriting && p.step != 0)
  (go (if KV.findD s.cal.spareUsed d 0 < 2048 then rebuilt ++ rows else rows ++ rebuilt) 0).orElse fun _ =>
  (if heavy then go (mine.filter (fun p => mine.all (fun q => oldestSeq s p ≤ oldestSeq s q))) 1 else none).orElse fun _ =>
  ((es.find? (eraseUrgent s)).map Pick.erase).orElse fun _ =>
  (if KV.findD s.cal.foldUsed d 0 < 2048 then go (ps.filter (fun p => p.step == 3)) 3 else none).orElse fun _ =>
  (owner.bind (fun f => go (host.filter (fun p => p.func == f)) 4)).orElse fun _ =>
  ((nextRound ((List.range funcs).filter (fun f => host.any (fun p => p.func == f))) (KV.findD s.cal.rr d 0)).bind
    (fun f => go (host.filter (fun p => p.func == f)) 4)).orElse fun _ =>
  (go (ps.filter (fun p => 3 ≤ p.step)) 5).orElse fun _ => es.head?.map Pick.erase

/-- The set of a die that continues a set whose block has failed (R217): the newest of its continuations, or itself. -/
def contSet (s : State) (k : Nat) : Nat := (setChain 3 s k).getLastD k

/-- The block set a program goes to, bound at its first program (R119, R194). -/
def bindProg (s : State) (p : Prog) : State × Nat :=
  match p.job with
  | .zone => match nsOf s p.nsid with
    | some n => match bindZone s p.die p.nsid p.zone (n.zone p.zone) with
      | some (s', k) => (s', k % 2048)
      | none => (s, 0)
    | none => (s, 0)
  | .row _ =>
    let k := contSet s p.bset
    (if (bsetOf s k).state = .free then bindSet s k (fun x => { x with mode := 2, layout := groupMembers s (dieGroup s p.die) }) else s, k % 2048)
  | _ => (s, p.bset % 2048)

/-- What a release draws (R171): the function's program tokens and its turn under step 4; the fold budget for a fold, merge, refresh or staging program under steps 3 and 5. -/
def chargeProg (s : State) (p : Prog) (step us : Nat) : State :=
  if step = 4 then
    let s := addDraw s ⟨p.func, .unbound, s.cal.period, false, p.die, us⟩
    { s with cal := { s.cal with rr := KV.set s.cal.rr p.die p.func } }
  else if p.step = 0 then { s with cal := { s.cal with spareUsed := KV.upd s.cal.spareUsed p.die 0 (· + us) } }
  else if p.step = 3 ∧ 3 ≤ step then { s with cal := { s.cal with foldUsed := KV.upd s.cal.foldUsed p.die 0 (· + us) } }
  else s

/-- Release a program on its die. -/
def releaseProg (s : State) (t : Nat) (p : Prog) (step : Nat) : State :=
  let s := { s with cal := { s.cal with progs := s.cal.progs.erase p } }
  let x := bindProg s p
  setDie (chargeProg x.1 p step (tOp p.kind (bandOf s p.die) / 1000)) p.die (fun d => { d with op := some {
    kind := p.kind, bset := x.2, wl := p.wl, remNs := tOp p.kind (bandOf s p.die), since := t, job := p.job, nsid := p.nsid, zone := p.zone, seqs := p.seqs } })

/-- Issue an erase (R119, R209, R352): the erase-intent record, one count. -/
def releaseErase (s : State) (t k : Nat) : State :=
  let s := moduleRecord s 0x30 k (bsetOf s k).erases
  let s := setBset s k (fun b => { b with intent := true })
  let s := { s with media := { s.media with eraseQ := s.media.eraseQ.filter (· != k) } }
  setDie s (k / 2048) (fun x => { x with op := some { kind := .erase, bset := k % 2048, remNs := tOp .erase (bandOf s (k / 2048)), since := t } })

/-- Dies with program work or erases waiting. -/
def workDies (s : State) : List Nat := ((s.cal.progs.map (fun p : Prog => p.die)) ++ (s.media.eraseQ.map (fun k => k / 2048))).dedup

/-- Whether flash work may be released at all: not in Measure or Recovery (R350), nor while a thermal pause or the shut-down sequence holds it (R457). -/
def releasesRun (s : State) : Bool := s.md.mode != .measure && s.md.mode != .recovery && !s.th.paused && s.th.shut == 0

/-- Release at most one program or erase on each die that may take one: in open time (R160, R166). -/
def releaseSlot (s : State) (t : Nat) : State :=
  if !releasesRun s then s
  else (workDies s).foldl (fun s d =>
    let x := dieOf s d
    if x.op.isSome || x.claimOp.isSome || x.state == .failed || !freeAt s d t (t + 1) then s
    else match pick s d with
      | some (.prog p step) => if powerFits s t p.kind then releaseProg s t p step else s
      | some (.erase k) => if powerFits s t .erase then releaseErase s t k else s
      | none => s) s

/-! ### The boundary commands -/

/-- Suspensions that rest slots and claims of this slot force. -/
def restSlot (s : State) (t : Nat) : State :=
  (busyDies s).foldl (fun s d => if (KV.findD s.cal.rests d []).contains (t / slotNs) then suspendAt s d t (t + slotNs) else s) s

/-- Move the device time base up to an instant. -/
def timeTo (s : State) (t : Nat) : State := passTime s (max s.time.dtb t)

/-- Remember which dies run or hold an operation in the slot that begins (Table 6.12). -/
def noteOps (s : State) (t : Nat) : State :=
  { s with cal := { s.cal with opHist := s.cal.opHist ++ ((s.media.dies.filter (fun p => p.2.op.isSome || p.2.claimOp.isSome)).map (·.1)).map (fun d =>
      let x := dieOf s d
      let runs := x.claimOp.isSome || x.op.any (fun o => !o.suspended || o.asked == some t)
      (d, t / slotNs, bit runs + 2 * bit (x.op.any (fun o => o.suspended)))) } }

/-! ### Rest slots (R176, R452) -/

/-- R452: rest slots of a die in a period under the state in force. -/
def restCount (s : State) : Nat :=
  992 - ((flashBudget s.part (psNow s) - s.part.diesPerChannel * 65) * 1024 / (dieCount s.part * weightRead))

/-- R176: place the rest slots of one die in what is left of a period from slot `now` on, beside those that are over. -/
def restsOf (s : State) (d k n now : Nat) : List Nat :=
  let h := floorH s d k
  (List.range n).foldl (fun l j =>
    let first := k * 1024 + (2 * j + 1) * 512 / n
    let ok (q : Nat) : Bool := !l.contains q && claimFree s d (q * slotNs) ((q + 1) * slotNs)
      && !inWindow s d (q * slotNs) ((q + 1) * slotNs) && h ≤ unheld s d (q * slotNs) - slotNs
    if first < now then l
    else match ((List.range ((k + 1) * 1024 - first)).map (· + first)).find? ok with
      | some q => l ++ [q]
      | none => l) ((KV.findD s.cal.rests d []).filter (fun q => k * 1024 ≤ q && q < now))

/-- Place the rest slots of every die for a period from a slot on; what finds no place is kept by group, as the most of any die (R151, R176). -/
def placeRests (s : State) (k now : Nat) : State :=
  let n := restCount s
  let s := { s with cal := { s.cal with rests := if n = 0 then [] else (List.range (dieCount s.part)).map (fun d => (d, restsOf s d k n now)), restN := n } }
  { s with cal := { s.cal with restShort := if n = 0 then [] else (List.range s.part.groups).map (fun g =>
      (g, (List.range 32).foldl (fun a p => max a (8 * (n - (KV.findD s.cal.rests (memberDie s g p) []).length))) 0)) } }

/-- Rest slots required from within a period are placed then, around the claims there are (R176). -/
def checkRests (s : State) (t : Nat) : State := if restCount s = s.cal.restN then s else placeRests s s.cal.period (t / slotNs)

/-- The next slot begins (R159, R161, R166 to R168); claims are released, suspended passes resume, just-in-time claims and programs are placed. Completions held for the aggregation time are announced, and shutdowns that waited for admin commands end (R66, R88). -/
def nextBoundary (s : State) : State :=
  let t := (s.cal.slot + 1) * slotNs
  let s := settleShutdowns (flushHeld (timeTo { s with cal := { s.cal with slot := s.cal.slot + 1 } } t))
  if !s.cal.running then s
  else
    let s := restSlot (releaseClaims (expireClaims (checkRests (takeDescr s (coreRuns s)) t) t) t) t
    let s := unboundSlot (backSlot (copySlot (rebuildSlot s t) t) t) t
    noteOps (releaseSlot (resumeSlot s t) t) t

/-- R175: the Bulk factor of a group being rebuilt. -/
def bulkFactor (s : State) (g k : Nat) : Nat :=
  let b := classSum s .bulk g k
  let a := 8192 - 256 - 512 - 2048 - (classSum s .express g k + classSum s .standard g k)
  if b = 0 then 256 else min 256 (256 * a / b)

/-- R175: the channel factor while a rebuild runs. -/
def chBulkFactor (s : State) (k : Nat) : Nat :=
  let b := classChSum s .bulk k
  let a := 29491200 - 2949120 - 5898240 - (classChSum s .express k + classChSum s .standard k)
  if b = 0 then 256 else min 256 (256 * a / b)

/-- R453: the factor of one class against a shortfall, and the shortfall left. -/
def yieldClass (sum x : Nat) : Nat × Nat :=
  if sum = 0 then (256, x) else (256 * (sum - x) / sum, x - sum)

/-- R453: the factors of Bulk, Standard and Express on a group. -/
def throttleFactors (s : State) (g k bulk : Nat) : Nat × Nat × Nat :=
  let e := classSum s .express g k
  let st := classSum s .standard g k
  let b := classSum s .bulk g k * bulk / 256
  let f := 8192 - 256 - 512 - (if s.cal.rebuilding.contains g then 2048 else 0) - (e + st + b)
  let x := 8 * restCount s + KV.findD s.cal.restShort g 0 - f
  if x = 0 then (256, 256, 256)
  else
    let rb := yieldClass b x
    let rs := yieldClass st rb.2
    let re := yieldClass e rs.2
    (rb.1, rs.1, re.1)

/-- The fraction of a function's claims that came through the twin, in sixteenths; a sixteenth at the first boundary after a pairing (R146). -/
def delegated (s : State) (f : Nat) : Nat :=
  let all := KV.findD s.cal.viaAll f 0
  if s.cal.newPair ∨ all = 0 then 1 else max 1 (min 15 (ceilDiv (16 * KV.findD s.cal.viaTwin f 0) all))

/-- Standing claims of one function and class on one die for a period (R317). -/
def standingClaims (s : State) (f : Nat) (cls : LClass) (g d k sixt : Nat) : State :=
  let tr := tRead 0 (bandOf s d)
  let price := if cls = .express then ceilDiv (tr * 62) 32000 else ceilDiv tr 1000
  let n := allotDie s f cls g k * sixt / 16 / price
  (List.range n).foldl (fun s j =>
    let first := k * periodNs + (2 * j + 1) * 512 / n * slotNs
    match firstSlot (fun t => freeAt s d t (t + 20000 + tr)) ((k + 1) * periodNs) 1024 first with
    | some t => addClaim s { die := d, start := t, len := 20000 + tr, kind := .standing, cls := cls, func := f }
    | none => s) s

/-- Grant the twin its share of each function's tokens and place the standing claims (R146, R317): in Service. -/
def grantTwin (s : State) (k : Nat) : State :=
  if s.md.mode ≠ .service then s
  else
    let gs := (List.range funcs).flatMap (fun f => (List.range s.part.groups).map (fun g => ({ func := f, group := g, sixteenths := delegated s f, period := k } : Grant)))
    let s := { s with cal := { s.cal with grantsOut := gs, viaTwin := [], viaAll := [], newPair := false } }
    let s := send s 0x07 0 (k :: gs.flatMap (fun x => [x.func, x.group, x.sixteenths]))
    gs.foldl (fun s x =>
      (List.range 32).foldl (fun s p =>
        let d := memberDie s x.group p
        [LClass.express, .standard, .bulk].foldl (fun s c => standingClaims s x.func c x.group d k x.sixteenths) s) s) s

/-- Allotments and dedications set since the last boundary apply (R179, R182). -/
def adoptBudgets (s : State) : State :=
  { s with cal := { s.cal with
    budgets := s.cal.nextBudgets.foldl (fun m p => KV.set m p.1 p.2) s.cal.budgets, nextBudgets := [], dedicatedNow := s.cal.dedicated } }

/-- Nothing is drawn on the budgets of a period that begins. -/
def clearUsed (s : State) : State :=
  { s with cal := { s.cal with backUsed := [], rebuildUsed := [], foldUsed := [], spareUsed := [], chBackUsed := [], chRebuildUsed := [], late := [], opHist := [] } }

/-- Renew what a period renews (R143, R151, R162, R175, R179, R229, Table 5.7). -/
def renewPeriod (s : State) (k : Nat) : State :=
  let s := adoptBudgets (clearUsed s)
  let s : State := { s with
    cal := { s.cal with period := k, draws := s.cal.draws.filter (fun d => k ≤ d.period) }
    jr := { s.jr with drainLast := s.jr.drainNow, drainNow := [] }
    media := { s.media with dies := KV.mapVals s.media.dies (fun _ x =>
      { x with winGroup := if x.state = .spareWriting then x.group else x.winGroup }) } }
  let rb := s.media.rebuilds.filter (fun (r : Rebuild) => r.running)
  let bulk := (List.range s.part.groups).filter (fun g => rb.any (fun r => r.group == g))
  let s := { s with cal := { s.cal with rebuilding := bulk } }
  let bs : KV Nat := bulk.map (fun g => (g, bulkFactor s g k))
  let th := (List.range s.part.groups).map (fun g => (g, throttleFactors s g k (KV.findD bs g 256)))
  { s with cal := { s.cal with
    bulkScale := bs, chBulkScale := if rb.isEmpty then 256 else chBulkFactor s k
    capBulk := (th.filter (fun x => x.2.1 != 256)).map (fun x => (x.1, x.2.1))
    stdScale := (th.filter (fun x => x.2.2.1 != 256)).map (fun x => (x.1, x.2.2.1))
    expScale := (th.filter (fun x => x.2.2.2 != 256)).map (fun x => (x.1, x.2.2.2)) } }

/-- Dies that hold work of R211 and R214. -/
def copyDies (s : State) : List Nat := ((s.media.refresh.map (fun r : Refresh => r.die)) ++ (s.media.sets.map (fun x : Nat × BSet => x.1 / 2048))).dedup

/-- Merges and compactions that can go on at a boundary (R126, R200). -/
def mediaBoundary (s : State) : State :=
  let s := ((s.zn.ns.filter (fun p => p.2.merging)).map (fun p => p.1)).foldl startMerge s
  ((s.media.groups.filter (fun p => p.1 < s.part.groups)).map (fun p => p.1)).foldl compact s

/-- The calendar runs again (R158): in the period that holds the time, with every allotment full; no claim, draw or rest slot is left from before. -/
def startCalendar (s : State) : State :=
  let k := s.time.dtb / periodNs
  let s := adoptBudgets (clearUsed s)
  placeRests { s with cal := { s.cal with running := true, slot := s.time.dtb / slotNs, period := k, claims := [], draws := [], rests := [], restShort := []
                                          backReads := s.cal.backReads.map (fun x => { x with endAt := none }) } } k (s.time.dtb / slotNs + 1)

/-- The next period begins (R157, R146, R151, R175, R176, R229, R235). -/
def periodBoundary (s : State) : State :=
  let k := s.cal.period + 1
  let s := timeTo s (k * periodNs)
  if !s.cal.running then { s with cal := { s.cal with period := k } }
  else
    let s := startRebuilds s
    let s := renewPeriod s k
    let s := reshapeBoundary (placeRests s k (k * 1024))
    let s := grantTwin s k
    if releasesRun s then (copyDies s).foldl startDieCopy (mediaBoundary s) else s

/-- SUSPEND_ACKNOWLEDGE (R167, R170): a die acknowledges a suspension after so many ns; later than 20 µs it is recorded, and the third time in a period the die is failed. -/
def execSuspendAcknowledge (die ackNs : Nat) (s : State) : Host.Outcome State Fault Refusal :=
  match (dieOf s die).op with
  | none => .next s
  | some o =>
    match o.asked with
    | none => .next s
    | some _ =>
      let s := setDie s die (fun x => { x with op := some { o with asked := none, ranNs := 0 } })
      if ackNs ≤ 20000 then .next s
      else
        let s := { s with cal := { s.cal with late := KV.upd s.cal.late die 0 (· + 1) } }
        let s := record s 0x34 [dieCh s.part die, dieOrd s.part die, ackNs]
        .next (if KV.findD s.cal.late die 0 < 3 then s else failDie s die 2)

/-- Time for which a die's operation has run unanswered (R170). -/
def ranFor (s : State) (d : Nat) : Nat :=
  let x := dieOf s d
  let run (o : DieOp) : Nat := o.ranNs + (if o.suspended then 0 else s.time.dtb - o.since)
  max (x.op.elim 0 run) (x.claimOp.elim 0 run)

/-- DIE_OPERATION_WATCHDOG (R170): the operation of a die has run 50 ms unanswered. -/
def execDieOperationWatchdog (die : Nat) (s : State) : Host.Outcome State Fault Refusal :=
  if ranFor s die < 50000000 then .next s else .next (failDie s die 1)

end Sys2Proof.Machine
end

