-- ==== Sys2Proof/Machine/MediaOps.lean ====
section
/-! DEFINITION. What the dies and the media timers report: reads, retries, reconstruction, programs, erases, staging, retention and wear (chapters 7 and 8, R104, R273, R274, R347, R352). -/

namespace Sys2Proof.Machine

/-! ### Reads (R201 to R204, R213, R226) -/

/-- The block set a read of a command touched on a die, where it is a zone's. -/
def readSet (s : State) (c : Cmd) (d : Nat) : Option Nat := c.zone.bind (fun i => zoneSet s d c.nsid i)

/-- Count array reads of a set (R213). -/
def countReads (s : State) (k n : Nat) : State := setBset s k (fun b => { b with reads := b.reads + n })

/-- An awaited die of a command has answered; with the last one its data goes through the cipher engine to the host (R383). -/
def dieAnswered (s : State) (slot d : Nat) : State :=
  match KV.find s.port.cmds slot with
  | none => s
  | some c =>
    let left := c.dies.filter (· != d)
    let done := left.isEmpty && c.stage == .dieRequested
    let s := setCmd s slot (fun c => { c with dies := left, stage := if done then .dieDone else c.stage })
    if done && !c.fromTwin then startXts s slot c (c.nlb * (nsOf s c.nsid).elim 4096 (fun n => lbaBytes n.flbas)) else s

/-- A read carried out for the twin ends once every die has answered and nothing is fetched for it (R316). -/
def endTwinRead (s : State) (slot : Nat) : State :=
  match KV.find s.port.cmds slot with
  | none => s
  | some c =>
    if c.fromTwin && c.op == .read && c.stage == .dieDone && c.dies.isEmpty && !s.tw.fetches.any (fun f => f.2.1 == slot) then
      finish s slot c.result 0 0 (if c.result = .success then c.data else [])
    else s

/-- Place a soft read, or the claims of a rebuild from the stripe (R202): at the first boundary after the failure, only where free. -/
def placeSoft (s : State) (slot : Option Nat) (d tr : Nat) : Option State :=
  let t := nextSlot (s.time.dtb + 1)
  if freeAt s d t (t + tr + 12000) then
    let s := addClaim s { die := d, start := t, len := tr + 12000, kind := .soft, slot := slot }
    let us := ceilDiv (tr + 12000) 1000
    some (if us ≤ aroundLeft s d (t / periodNs) then addDraw s ⟨aroundFunc, .express, t / periodNs, false, d, us⟩
      else if backPaid s d us then chargeBack s d us else s)
  else none

/-- The three sweeps of a soft read move three times the codeword's bytes on the channel, from the read-around share of it where that has them (R163, R202). -/
def drawSoft (s : State) (d : Nat) : State :=
  let p := nextSlot (s.time.dtb + 1) / periodNs
  if 13440 ≤ aroundChLeft s (dieCh s.part d) p then addDraw s ⟨aroundFunc, .express, p, true, dieCh s.part d, 13440⟩ else s

/-- Claims on the survivors of a read that is rebuilt from its stripe (R172, R202). -/
def placeStripe (s : State) (slot d : Nat) (x : Need) : State :=
  let t := nextSlot (s.time.dtb + 1)
  (aroundPos s x d).foldl (fun s p =>
    let q := memberDie s x.group p
    match firstSlot (fun u => freeAt s q u (u + claimLen s q x)) (t + 2 * periodNs) 2048 t with
    | some u => addClaim s { die := q, start := u, len := claimLen s q x, kind := .around, slot := some slot }
    | none => s) s

/-- What a command needs of a die. -/
def needOn (s : State) (c : Cmd) (d : Nat) : Need :=
  match nsOf s c.nsid with
  | none => {}
  | some n => KV.findD (needsOf s c.nsid n c.slba c.nlb) d {}

/-- The first copy whose source read on a die is awaited. -/
def copyOnDie (s : State) (d : Nat) : Option Copy := s.media.copies.find? (fun c => c.die == d && c.asked && 0 < c.toReturn)

/-- A copy's source read has returned; the last one queues the pass. -/
def copyRead (s : State) (c : Copy) : State :=
  let s := setCopy s c.id (fun c => { c with toReturn := c.toReturn - 1, asked := c.toReturn != 1 })
  if c.toReturn = 1 then (s.media.copies.find? (fun x => x.id == c.id)).elim s (queueCopyPass s) else s

/-- Age class of a set (R204, Table 7.8), at least A3 while its age is unknown (R207). -/
def ageClass (s : State) (b : BSet) : Nat :=
  let days := (s.time.rd.toNat - b.openDay) / 16
  let a := if days < 1 then 0 else if days < 7 then 1 else if days < 30 then 2 else if days < 90 then 3 else 4
  if b.unknownAge then max 3 a else a

/-- A learned offset takes a new value, which the spec does not give (R204). -/
def learn (s : State) (k : Nat) : State :=
  let r := drawFree s
  setBset r.2 k (fun b => { b with learned := modAt b.learned (ageClass s b) (fun _ => (r.1 : Int)) })

/-- The daily calibration read of a set has returned (R204): its offset is learned anew. -/
def calibrate (s : State) (d : Nat) : State :=
  match s.cal.backReads.find? (fun x => x.die == d && x.endAt.isSome) with
  | some { job := .calibration k, .. } => learn s k
  | _ => s

/-- DIE_READ_COMPLETE (R201 to R203, R213): a page read of a command, or with no slot of a copy or of other background work, ends on a die with so many codewords failing the hard decoder and the most bits corrected in one. -/
def execDieReadComplete (slot : Option Nat) (die fails errs : Nat) (s : State) : Host.Outcome State Fault Refusal :=
  match slot with
  | none =>
    match copyOnDie s die with
    | none => .next (backRead (calibrate s die) die)
    | some c =>
      let k := setKey c.die c.src
      let s := countReads s k 1
      .next (copyRead (if 96 < errs then queueRefresh s k 2 else s) c)
  | some sl =>
    match KV.find s.port.cmds sl with
    | none => .next s
    | some c =>
      if c.dies.isEmpty then .next s
      else
        let x := needOn s c die
        let s := match readSet s c die with
          | some k => countReads (if 96 < errs then queueRefresh s k 2 else s) k (max 1 x.reads.length)
          | none => s
        if fails = 0 then .next (endTwinRead (dieAnswered s sl die) sl)
        else match placeSoft s (some sl) die (needTr s die x) with
          | some s' => .next (drawSoft s' die)
          | none => .next (placeStripe s sl die x)

/-- A codeword on a page of a set failed soft decoding (R203, R218): the second page within 30 days makes the block a grown bad block. -/
def softFailed (s : State) (k page plane : Nat) : State :=
  let b := bsetOf s k
  let day := s.time.rd.toNat
  let recent := b.softFails.filter (fun f => day ≤ f.2 + 480)
  let s := setBset s k (fun b => { b with softFails := recent ++ [(page, day)] })
  let s := setDie s (k / 2048) (fun x => { x with erasures := x.erasures + 1 })
  let s := queueRefresh s k 1
  if recent.any (fun f => f.1 != page) && !b.bad.contains plane then grownBad s k plane 0xFFFF else s

/-- SOFT_RETRY_COMPLETE (R202 to R204): the soft read of a codeword of a page is decoded or fails. -/
def execSoftRetryComplete (slot : Option Nat) (die page plane : Nat) (ok : Bool) (s : State) : Host.Outcome State Fault Refusal :=
  let c := slot.bind (KV.find s.port.cmds)
  let k := match c, copyOnDie s die with
    | some c, _ => readSet s c die
    | none, some y => some (setKey y.die y.src)
    | none, none => none
  let s := setDie s die (fun x => { x with softRetries := x.softRetries + 1 })
  let s := k.elim s (fun k => learn s k)
  if ok then
    let s := k.elim s (fun k => queueRefresh s k 2)
    match slot, c with
    | some sl, some _ => .next (endTwinRead (dieAnswered s sl die) sl)
    | _, _ => .next s
  else
    let s := k.elim s (fun k => softFailed s k page plane)
    match slot, c with
    | some sl, some c => .next (placeStripe s sl die (needOn s c die))
    | _, _ => .next s

/-- STRIPE_RECONSTRUCTION_COMPLETE (R226, R227, R232): every survivor claim of a read around a die, or of a rebuild's word line, has returned; with more than two erasures the data units among them are lost. -/
def execStripeReconstructionComplete (slot : Option Nat) (die erasures nsid : Nat) (lost : List Nat) (s : State) :
    Host.Outcome State Fault Refusal :=
  let g := dieGroup s die
  let lose (s : State) (sl : Nat) : State := if erasures ≤ 2 then s else lost.foldl (fun s l => loseLba s nsid l g 1 sl) s
  match slot with
  | some sl =>
    match KV.find s.port.cmds sl with
    | none => .next s
    | some c =>
      let hit := 2 < erasures && c.nsid == nsid && lost.any (fun l => c.slba ≤ l && l < c.slba + c.nlb)
      let s := dieAnswered (lose s sl) sl die
      .next (endTwinRead (if hit && !s.tw.fetches.any (fun f => f.2.1 == sl) then setCmd s sl (fun c => { c with result := .unrecoveredRead }) else s) sl)
  | none =>
    let s := lose s 65536
    match s.media.rebuilds.find? (fun r => r.group == g && r.asked && r.reads.isEmpty && !r.ready) with
    | some r => .next (queueRebuildPass s r)
    | none => .next s

/-- Threshold of a mode's read count (R213). -/
def readLimit (mode : Nat) : Nat := if mode = 2 then 5000000 else if mode = 0 then 1000000 else 400000

/-- READ_DISTURB_CHECK (R213): the 64 sample pages of a set whose count has reached its threshold are read; `errs` when a codeword corrected more than 96 bits. -/
def execReadDisturbCheck (die bset : Nat) (errs : Bool) (s : State) : Host.Outcome State Fault Refusal :=
  let k := setKey die bset
  let b := bsetOf s k
  if b.reads < readLimit b.mode then .next s
  else if errs then .next (queueRefresh s k 3)
  else .next (setBset s k (fun b => { b with reads := readLimit b.mode / 2 }))

/-! ### Group moves (R257) -/

/-- A copy of a move has programmed its last pass: the zone switches when all of its copies have (R257). -/
def moveCopied (s : State) (c : Copy) : State :=
  let s := setCopy s c.id (fun c => { c with complete := true })
  let mine := s.media.copies.filter (fun x => x.kind == .move && x.nsid == c.nsid && x.zone == c.zone)
  if !mine.all (fun x => x.complete) then s
  else
    let g := dieGroup s c.dstDie
    let s := mine.foldl switchCopy s
    match (nsOf s c.nsid).bind (·.reshape) with
    | none => s
    | some r =>
      let s := switchMove s c.nsid c.zone g r.affinity
      let s := noteMove s r c.zone .acted
      moveOn moveFuel (setNs s c.nsid (fun n => { n with reshape := some { r with next := c.zone + 1 } })) c.nsid

/-! ### Programs (R189, R215, R217, R233, R275) -/

/-- KiB of array programming of one pass (Table 7.1). -/
def passKib : DieOpKind → Nat
  | .slc => 64
  | .qlcCoarse | .qlcFine => 256
  | .plcCoarse | .plcFine => 320
  | .erase => 0

/-- Count a pass on its block set. -/
def countPass (s : State) (k : Nat) (o : DieOp) : State :=
  let first := baseLine (bsetOf s k)
  setBset s k (fun b => { b with
    coarse := if o.kind.isCoarse then max b.coarse (o.wl + 1 - first) else b.coarse
    coarseDay := if o.kind.isCoarse then s.time.rd.toNat else b.coarseDay
    final := if o.kind.isFinal then max b.final (o.wl + 1 - first) else b.final })

/-! ### What a programmed page carries (R107, R188, R193) -/

/-- SEQ of a unit's data: the highest of the records held with it (R193, R261). -/
def unitSeq (s : State) (u : Nat) : Nat :=
  (s.jr.recs.filter (fun p => 1 ≤ p.2.typ && p.2.typ ≤ 3 && !p.2.stale && p.2.nsid == u / 2^64
    && (nsOf s p.2.nsid).any (fun n => (recUnits n p.2).contains u))).foldl (fun a p => max a p.1) 0

/-- The page at a position of a stripe row whose units are given by their place in the row: a data page with its four units, as offsets from ZSLBA or LBA 0, or P or Q. A parity page carries the highest SEQ of its row, which the spec does not name (DESIGN CHOICE, log 109). -/
def rowPage (s : State) (base : PageMeta) (m : Nat) (dead : Option Nat) (row p : Nat) (unit : Nat → Option Nat) : PageMeta :=
  let off (u : Nat) : Nat := if base.role ≤ 1 then u % 4194304 else u % 2^64
  let top (l : List (Option Nat)) : Nat := l.foldl (fun a x => max a (x.elim 0 (unitSeq s))) 0
  match (List.range m).find? (fun k => dataPos m dead row k == p) with
  | some k =>
    let us := (List.range 4).map (fun c => unit (4 * k + c))
    { base with units := us.map (fun x => x.elim 0xFFFFFFFF off), seq := top us }
  | none => { base with parity := true, q := qPos m dead row == p, seq := top ((List.range (4 * m)).map unit) }

/-- The fields that name a zone on its pages: namespace, tenant tag, module zone number, density. -/
def zoneMeta (s : State) (role nsid i : Nat) : PageMeta :=
  match nsOf s nsid with
  | none => { role := role, nsid := nsid }
  | some n => { role := role, nsid := nsid, zone := n.znum i, tag := (n.zone i).ext.tag, density := (n.zone i).ext.density }

/-- The position and group of a die, on a page's metadata. -/
def placeMeta (s : State) (d row : Nat) (x : PageMeta) : PageMeta :=
  { x with row := row, group := (dieOf s d).group.getD 0x3F, pos := (dieOf s d).pos.getD 0 }

/-- The rows of a set that a word line of its mode holds. -/
def lineRows (b : BSet) (wl : Nat) : List Nat := (List.range (4 * cellBits b.mode)).map (4 * cellBits b.mode * wl + ·)

/-- A page of a zone's own set. -/
def zonePage (s : State) (d : Nat) (b : BSet) (o : DieOp) (row : Nat) : PageMeta :=
  let n := (nsOf s o.nsid).getD { zoned := true, nsze := 0 }
  let z := n.zone o.zone
  let r := b.contRow + row
  placeMeta s d row (rowPage s (zoneMeta s 0 o.nsid o.zone) b.layout (grpOf s (z.group.getD 0)).dead r ((dieOf s d).pos.getD 0)
    (fun i => let u := r * 4 * b.layout + i; if u < z.wp * unitsPerLba n.flbas then some (o.nsid * 2^64 + o.zone * 4194304 + u) else none))

/-- A page of a staging, log or map row. -/
def rowJobPage (s : State) (d : Nat) (b : BSet) (j : RowJob) (row : Nat) : PageMeta :=
  let p := (dieOf s d).pos.getD 0
  let dead := (grpOf s j.group).dead
  let first := ((List.range b.layout).find? (fun k => dataPos b.layout dead row k == p)).elim (j.units.head?) (fun k => j.units[4 * k]?)
  let u := first.getD 0
  let base : PageMeta := match j.merge with
    | some nsid => { role := 2, nsid := nsid, zone := j.num }
    | none => if j.log then { role := 3, nsid := u / 2^64, zone := (KV.find s.media.logDir u).elim 0 logNum }
      else zoneMeta s 1 (u / 2^64) (u % 2^64 / 4194304)
  placeMeta s d row (rowPage s base b.layout dead row p (fun i => match j.merge with
    | some nsid =>
      let k := (row - j.row) * 4 * b.layout + i
      if k < 4096 then some (nsid * 2^64 + j.num * 4096 + k) else none
    | none => j.units[i]?))

/-- The page that holds a stripe row of a member whose data begins in a set: there, or in the set that continues it from that row on (R217). -/
def pageOf (s : State) (k row : Nat) : Option PageMeta :=
  let x := ((setChain 3 s k).filter (fun x => (bsetOf s x).contRow ≤ row)).getLastD k
  KV.find s.media.pages (pageKey x (row - (bsetOf s x).contRow))

/-- The metadata of the pages that a final pass programs, by row of the set: a zone's, a row's, those of a copy's source with a new SEQ and COPY_SEQ (R215), those of the lost member (R232), the reference set's. -/
def passPages (s : State) (d : Nat) (o : DieOp) : List (Nat × PageMeta) :=
  let k := setKey d o.bset
  let b := bsetOf s k
  let rows := lineRows b (o.wl - baseLine b)
  let from_ (src : Nat) : List (Nat × PageMeta) := rows.filterMap (fun r =>
    (pageOf s src (b.contRow + r)).map (fun x => (r, { x with row := r })))
  match o.job with
  | .zone => rows.map (fun r => (r, zonePage s d b o r))
  | .row id => match s.media.rows.find? (fun j => j.id == id) with
    | none => []
    | some j => (if j.merge.isSome then rows else [j.row - b.contRow]).map (fun r => (r, rowJobPage s d b j (b.contRow + r)))
  | .copy id => match s.media.copies.find? (fun c => c.id == id) with
    | none => []
    | some c => (from_ (setKey c.die c.src)).zipIdx.map (fun x =>
        (x.1.1, placeMeta s d x.1.1 { x.1.2 with copySeq := x.1.2.seq, seq := s.jr.seq + x.2 }))
  | .rebuild g => match (s.media.rebuilds.find? (fun r => r.group == g)).bind (fun r => (rebuildItems s r).find? (fun x => x.2 == d)) with
    | none => []
    | some x => rows.filterMap (fun r => (KV.find s.media.pages (pageKey x.1 r)).map (fun y => (r, y)))
  | .reference => rows.map (fun r => (r, placeMeta s d r { role := 6 }))

/-- A final pass has programmed its pages; the pages of a copy take new sequence numbers (R215, R262). -/
def putPages (s : State) (d : Nat) (o : DieOp) : State :=
  if !o.kind.isFinal then s
  else
    let l := passPages s d o
    let fresh := match o.job with
      | .copy _ => l.length
      | _ => 0
    { s with jr := { s.jr with seq := s.jr.seq + fresh }, media := { s.media with pages := l.foldl (fun m x => KV.set m (pageKey (setKey d o.bset) x.1) x.2) s.media.pages } }

/-- The pages of an erased set carry nothing. -/
def clearPages (s : State) (k : Nat) : State :=
  { s with media := { s.media with pages := KV.keep s.media.pages (fun key _ => key / 32768 != k) } }

/-! ### Passes that end -/

/-- Put a pass back at the head of its die's work. -/
def requeuePass (s : State) (d : Nat) (o : DieOp) (kind : DieOpKind) (wl bset : Nat) : State :=
  let step := match o.job with
    | .rebuild _ => 0
    | .zone => 4
    | .reference => 5
    | _ => 3
  let p : Prog := { die := d, kind := kind, bset := setKey d bset, wl := wl, step := step, seqs := o.seqs, job := o.job, nsid := o.nsid, zone := o.zone }
  { s with cal := { s.cal with progs := p :: s.cal.progs } }

/-- Put a failed program back at the head of its die's work. -/
def requeue (s : State) (d : Nat) (o : DieOp) (bset : Nat) : State := requeuePass s d o o.kind o.wl bset

/-- The passes of a zone's member to make again from its first unconfirmed word line, in the order of R189: coarse passes up to the latest made, fine passes up to the one that failed. -/
def redoPasses (mode first held : Nat) (o : DieOp) : List (DieOpKind × Nat) :=
  let lines := (List.range (max held (o.wl + 1) - first)).map (first + ·)
  if mode = 2 then lines.map (fun w => (.slc, w))
  else
    let c := if mode = 0 then DieOpKind.qlcCoarse else .plcCoarse
    let f := if mode = 0 then DieOpKind.qlcFine else .plcFine
    let fines := lines.filter (fun w => if o.kind.isFinal then decide (w ≤ o.wl) else decide (w + 2 ≤ o.wl))
    (sortBy id (lines.map (2 * ·) ++ fines.map (2 * · + 3))).map (fun x => if x % 2 = 0 then (c, x / 2) else (f, (x - 3) / 2))

/-- A program of a zone's own row failed (R217): the data goes on from the first unconfirmed row in a continuation set, chosen as under LIFETIME 0, the erased longest ago (the spec names no rule for it; DESIGN CHOICE, log 108). -/
def zoneFailed (s : State) (d plane : Nat) (last : Bool) (o : DieOp) : State :=
  let k := setKey d o.bset
  let b := bsetOf s k
  match chooseSet s d 0 with
  | none => requeue (grownBad s k plane 0xFFFF) d o o.bset
  | some c =>
    let first := unconfirmed b last
    let s := goOn (grownBad s k plane c) k c first
    ((redoPasses b.mode first (baseLine b + heldLines b) o).reverse).foldl (fun s p => requeuePass s d o p.1 p.2 c) s

/-- A program of a staging, log or map row failed (R217): the member's data goes on in a continuation set of the same role on its die. -/
def rowFailed (s : State) (d plane : Nat) (o : DieOp) : State :=
  let k := setKey d o.bset
  let b := bsetOf s k
  match ((freeOf s d b.role).filter (fun x => (dieOf s d).group.all (fun g => setFree s g b.role x))).getLast? with
  | none => requeue (grownBad s k plane 0xFFFF) d o o.bset
  | some c =>
    requeue (continueIn (grownBad s k plane c) k (setKey d c) o.wl) d o o.bset

/-- Queue the next pass of a reference set, or once its last is made the set is valid from now on (R206, R208). -/
def queueReference (s : State) (k : Nat) : State :=
  let b := bsetOf s k
  if b.role != .reference then s
  else if b.final < wordLines then
    let p := passAt 0 wordLines (b.coarse + b.final)
    { s with cal := { s.cal with progs := s.cal.progs ++ [{ die := k / 2048, kind := p.1, bset := k, wl := p.2, step := 5, job := .reference }] } }
  else
    let s := setBset s k (fun b => { b with state := .inUse })
    { s with media := { s.media with chans := KV.upd s.media.chans (dieCh s.part (k / 2048)) { rate := 5, pkgOk := 7 } (fun x =>
      { x with refDays := modAt x.refDays (k % 2048 - 2030) (fun _ => s.time.rd.toNat) }) } }

/-- The programming of a reference set begins once it is erased (R208). -/
def startReference (s : State) (k : Nat) : State :=
  if (bsetOf s k).role = .reference then queueReference (bindSet s k (fun b => { b with mode := 0, state := .copying })) k else s

/-- A pass has ended on a die with success. -/
def passDone (s : State) (d : Nat) (o : DieOp) : State :=
  let k := setKey d o.bset
  let s := putPages (countPass { s with media := { s.media with progKib := s.media.progKib + passKib o.kind } } k o) d o
  match o.job with
  | .zone => if o.kind.isFinal then confirmZone s o.nsid o.zone else s
  | .row id =>
    let s := { s with media := { s.media with rows := s.media.rows.map (fun r => if r.id = id then { r with left := r.left.erase d } else r) } }
    endRows s
  | .copy id =>
    let s := setCopy s id (fun c => { c with pass := c.pass + 1, busy := false })
    match s.media.copies.find? (fun c => c.id == id) with
    | none => s
    | some c => if c.pass < c.passes then s else if c.kind = .move then moveCopied s c else switchCopy s c
  | .rebuild g =>
    let s := setRebuild s g (fun r => { r with busy := r.busy.erase d })
    match s.media.rebuilds.find? (fun r => r.group == g) with
    | none => s
    | some r =>
      if !r.busy.isEmpty then s
      else
        let s := setRebuild s g (fun r => { r with pass := r.pass + 1, asked := false, ready := false })
        match s.media.rebuilds.find? (fun r => r.group == g) with
        | none => s
        | some r => if (rebuildPass s r).isNone then switchSets s r else s
  | .reference => queueReference s k

/-- A pass has ended on a die with a failure, in a plane (R217, R218); `last` whether the last confirmed word line of the set still reads back. -/
def passFailed (s : State) (d plane : Nat) (last : Bool) (o : DieOp) : State :=
  match o.job with
  | .zone => zoneFailed s d plane last o
  | .copy id => (s.media.copies.find? (fun c => c.id == id)).elim s (fun c => copyFailed s c plane last)
  | .row _ => rowFailed s d plane o
  | _ => requeue (grownBad s (setKey d o.bset) plane 0xFFFF) d o o.bset

/-- A pass has ended: that of a zone emptied since is discarded, as its set awaits erase (R118). -/
def passEnded (s : State) (d plane : Nat) (ok last : Bool) (o : DieOp) : State :=
  if o.job = .zone ∧ (bsetOf s (setKey d o.bset)).state = .awaitErase then s
  else if ok then passDone s d o else passFailed s d plane last o

/-- PROGRAM_COMPLETE (R189, R215, R217, R233, R275): the program running on a die ends; a failure names its plane, and tells whether the last confirmed word line of the set still reads back. -/
def execProgramComplete (die plane : Nat) (pass : PassEnd) (s : State) : Host.Outcome State Fault Refusal :=
  let x := dieOf s die
  match x.claimOp, x.op with
  | some o, _ =>
    let s := setDie s die (fun x => { x with claimOp := none })
    .next (nextWt (passEnded s die plane pass.ok pass.last o) die)
  | none, some o =>
    if o.suspended || o.kind == .erase then .next s
    else
      let s := setDie s die (fun x => { x with op := none })
      .next (passEnded s die plane pass.ok pass.last o)
  | none, none => .next s

/-! ### Erases (R200, R209, R211, R218, R219, R352, R386) -/

/-- R211: a staging set too worn exchanges roles with the least-worn erased landing set of its die. -/
def levelSlc (s : State) (k : Nat) : State :=
  let d := k / 2048
  let land := (List.range 2048).filter (fun b => (bsetOf s (setKey d b)).role == .landing)
  let mean := land.foldl (fun a b => a + (bsetOf s (setKey d b)).wear) 0 / max 1 land.length
  if (bsetOf s k).role != .staging || (bsetOf s k).wear ≤ mean + 6000 then s
  else match leastBy (freeOf s d .landing) (fun b => (bsetOf s (setKey d b)).wear) with
    | none => s
    | some b => setBset (setBset s k (fun x => { x with role := .landing })) (setKey d b) (fun x => { x with role := .staging })

/-- R218, R219: replacement blocks stand in for the bad blocks of an erased set; a set without one is retired and its role given to an erased staging set, or the die fails. -/
def replaceBad (s : State) (k : Nat) : State :=
  let d := k / 2048
  let b := bsetOf s k
  if b.bad.isEmpty then s
  else
    let x := dieOf s d
    if b.bad.all (fun p => 0 < nth x.repl p) then
      let s := setDie s d (fun x => { x with repl := b.bad.foldl (fun r p => modAt r p (· - 1)) x.repl })
      setBset s k (fun b => { b with bad := [], replaced := true, softFails := [] })
    else if x.staging ≤ 48 then failDie s d 4
    else
      let s := setBset s k (fun b => { b with role := .retired, state := .inUse })
      let s := setDie s d (fun x => { x with retired := x.retired + 1, staging := x.staging - 1 })
      match (freeOf s d .staging).head? with
      | some r => if b.role = .staging then s else setBset s (setKey d r) (fun y => { y with role := b.role })
      | none => s

/-- A staging stripe is erased on every member: it is free again (R198, R200). -/
def stagingErased (s : State) (k : Nat) : State :=
  let g := dieGroup s (k / 2048)
  let t := k % 2048 - 1936
  if (bsetOf s k).role == .staging && (List.range 32).all (fun p => (bsetOf s (setKey (memberDie s g p) (1936 + t))).state == .free) then
    setGrp s g (fun x => { x with stagingFree := min 64 (x.stagingFree + 1) })
  else s

/-- Erasures and zeroizations that waited for a set's erase (R386, R402). -/
def erasedFor (s : State) (k : Nat) : State :=
  { s with
    keys := { s.keys with zeroing := (s.keys.zeroing.map (fun z => (z.1, z.2.filter (· != k)))).filter (fun z => !z.2.isEmpty) }
    adm := { s.adm with sanitize := { s.adm.sanitize with setsLeft := s.adm.sanitize.setsLeft.filter (· != k) } } }

/-- A block-erase Sanitize ends with the last of its erases (R402, R404). -/
def endSanitize (s : State) : State :=
  if s.adm.sanitize.running && s.adm.sanitize.setsLeft.isEmpty then
    { s with
      adm := { s.adm with sanitize := { s.adm.sanitize with running := false } }
      zn := { s.zn with ns := KV.mapVals s.zn.ns (fun _ n => if n.sanitizing then { n with erasing := none, sanitizing := false } else n) } }
  else s

/-- ERASE_COMPLETE (R209, R218, R352): the erase running on a die ends, or fails in a plane. -/
def execEraseComplete (die plane : Nat) (ok : Bool) (s : State) : Host.Outcome State Fault Refusal :=
  match (dieOf s die).op with
  | none => .next s
  | some o =>
    if o.suspended || o.kind != .erase then .next s
    else
      let k := setKey die o.bset
      let b := bsetOf s k
      let s := setDie s die (fun x => { x with op := none })
      let s := clearPages (moduleRecord s 0x31 k (b.erases + 1)) k
      let s := setBset s k (fun b => { b with
        erases := min (b.erases + 1) (2^24 - 1), wear := b.wear + wearOf b, state := .free, headed := false, reads := 0
        learned := [0, 0, 0, 0, 0], unknownAge := false, nsid := 0, zone := 0xFFFFFFFF, tag := 0, coarse := 0, final := 0
        contOf := 0xFFFFFFFF, contRow := 0, erasedAt := s.time.dtb, intent := false })
      let s := if ok then s else grownBad s k plane 0xFFFF
      let s := startReference (stagingErased (levelSlc (replaceBad s k) k) k) k
      .next (endSanitize (erasedFor s k))

/-! ### Staging (R273, R274) -/

/-- A record of an incomplete word line of the zone has been held for 20 ms. -/
def holdsIncomplete (s : State) (nsid i : Nat) : Bool :=
  match nsOf s nsid with
  | none => false
  | some n =>
    let z := n.zone i
    let lim := linesTo z n.flbas z.wp * wordLineUnits z.ext.density z.members
    s.jr.recs.any (fun p => p.2.nsid == nsid && p.2.zidx == i && p.2.zone != 0xFFFFFFFF && p.2.completed && 1 ≤ p.2.typ && p.2.typ ≤ 3
      && !p.2.staged && p.2.stamp + 20000000 ≤ s.time.dtb && lim < ((p.2.slba - i * zoneSize n.flbas) + p.2.nlb) * unitsPerLba n.flbas)

/-- STAGING_THRESHOLD (R273): the zone's oldest held record of an incomplete word line has been held 20 ms. -/
def execStagingThreshold (nsid zone : Nat) (s : State) : Host.Outcome State Fault Refusal :=
  match nsOf s nsid with
  | none => .next s
  | some n =>
    if (n.zone zone).ext.density ≠ 2 ∧ holdsIncomplete s nsid zone then .next (stageZone s nsid zone) else .next s

/-- STAGING_ROW_TIMEOUT (R274): 2 ms after its first unit, a group's staging row, and the log rows of the namespaces whose log it holds, are released. -/
def execStagingRowTimeout (group : Nat) (s : State) : Host.Outcome State Fault Refusal :=
  let due (k : Nat) : Bool := (grpOf s k).rowAt.any (fun t => t + 2000000 ≤ s.time.dtb)
  let logs := (s.zn.ns.filter (fun p => !p.2.zoned && logGroup s p.1 == group && due (64 + p.1))).map (·.1)
  .next (logs.foldl (fun s nsid => releaseRow s group (some nsid)) (if due group then releaseRow s group none else s))

/-! ### Retention, wear and checkpoints -/

/-- Age at which a set is refreshed (R214), in sixteenths of a day. -/
def refreshAge (mode : Nat) : Nat := if mode = 0 then 960 else if mode = 1 then 320 else 4800

/-- Queue the in-use sets whose data has reached its age (R214). -/
def queueAged (s : State) : State :=
  (s.media.sets.filter (fun x => (x.2.state == .inUse || x.2.state == .continued) && x.2.headed && x.2.role != .reference && x.2.role != .retired
    && refreshAge x.2.mode ≤ s.time.rd.toNat - x.2.openDay)).foldl (fun s x => queueRefresh s x.1 4) s

/-- The die of a channel that holds its reference sets (R206, R208): the lowest-ordinal healthy one. -/
def refDie (s : State) (c : Nat) : Option Nat :=
  ((List.range s.part.diesPerChannel).map (dieIx s.part c)).find? (fun d => (dieOf s d).state == .healthy && (dieOf s d).group.isSome)

/-- Ask for the 64 reads of each channel's newer reference set (R160, R206). -/
def readReferences (s : State) : State :=
  { s with cal := { s.cal with backReads := s.cal.backReads.filter (fun x => x.job != .reference)
      ++ ((List.range 32).filterMap (refDie s)).map (fun d => { die := d, mode := 0, job := .reference, left := 64 }) } }

/-- The older of a channel's reference sets: 0 or 1. -/
def olderRef (x : Chan) : Nat := if nth x.refDays 0 ≤ nth x.refDays 1 then 0 else 1

/-- Erase and reprogram the older reference set of a channel (R208): once in a power-on, and only while the other one is valid. -/
def renewReference (s : State) (c : Nat) : State :=
  let x := KV.findD s.media.chans c { rate := 5, pkgOk := 7 }
  match refDie s c with
  | none => s
  | some d =>
    if x.refReprogrammed || (bsetOf s (setKey d (2031 - olderRef x))).state != .inUse then s
    else toErase { s with media := { s.media with chans := KV.set s.media.chans c { x with refReprogrammed := true } } } (setKey d (2030 + olderRef x))

/-- Ask for the daily calibration read of one page of each in-use set (R160, R204). -/
def askCalibration (s : State) : State :=
  { s with cal := { s.cal with backReads := s.cal.backReads.filter (fun x => match x.job with
      | .calibration _ => false
      | _ => true)
    ++ (s.media.sets.filter (fun x => x.2.state == .inUse)).map (fun x => { die := x.1 / 2048, mode := x.2.mode, job := .calibration x.1 }) } }

/-- RETENTION_CLOCK_INCREMENT (R204 to R208, R214): RD advances a sixteenth of a day and is saved; the reference sets' reads are asked for, and the shifts that they show on the channels are kept; the older reference set of the channels named worn is renewed; aged sets are queued; each retention day a calibration read of every in-use set is asked for. -/
def execRetentionClockIncrement (shifts worn : List Nat) (s : State) : Host.Outcome State Fault Refusal :=
  if !s.sup.rails then .next s
  else
  let rd := s.time.rd + 1
  let s := { s with time := { s.time with rd := rd, rdSaved := rd, sealedSave := false } }
  let s := (List.range 32).foldl (fun s c =>
    { s with media := { s.media with chans := KV.upd s.media.chans c { rate := 5, pkgOk := 7 } (fun x =>
      { x with refShift := shifts.getD c x.refShift, refShiftSaved := shifts.getD c x.refShift }) } }) s
  let old := (List.range 32).filter (fun c => worn.contains c ||
    (let x := KV.findD s.media.chans c {}
     730 * 16 < rd.toNat - min (nth x.refDays 0) (nth x.refDays 1)))
  let s := queueAged (old.foldl renewReference (readReferences s))
  .next (if rd.toNat % 16 = 0 then askCalibration s else s)

/-- Member dies that count for wear (R210). -/
def wearDie (s : State) (d : Nat) : Bool := (dieOf s d).state == .healthy && (dieOf s d).group.isSome

/-- Sum and number of the wear of sets of some roles on member dies; sets not listed have none. -/
def wearMean (s : State) (rs : List Role) (atBuild : Nat) : Nat :=
  let dies := (List.range (dieCount s.part)).countP (wearDie s)
  let listed := s.media.sets.filter (fun x => wearDie s (x.1 / 2048))
  let sum := (listed.filter (fun x => rs.contains x.2.role)).foldl (fun a x => a + x.2.wear) 0
  let gained := listed.countP (fun x => rs.contains x.2.role && !rs.contains (roleAt (x.1 % 2048)))
  let lost := listed.countP (fun x => !rs.contains x.2.role && rs.contains (roleAt (x.1 % 2048)))
  sum / max 1 (dies * atBuild + gained - lost)

/-- PERCENTAGE_USED_UPDATE (R210). -/
def execPercentageUsedUpdate (s : State) : Host.Outcome State Fault Refusal :=
  let wz := wearMean s [.zone] 1936
  let ws := wearMean s [.staging, .metaMap, .metaLog, .system, .landing] 110
  let pct := min 255 (100 * max wz ws / 600000)
  let s := if pct = s.media.pctUsed then s else ccsSet s 10
  .next { s with media := { s.media with wz := wz, ws := ws, pctUsed := pct } }

/-- Retire the module's records a checkpoint covers (R276). -/
def retireCovered (s : State) (below : Nat) : State :=
  let gone := s.jr.recs.filter (fun p => p.1 < below && p.2.completed && p.2.typ ≠ 0x30 && 0x10 ≤ p.2.typ)
  let s := gone.foldl (fun s p => retire s p.1) s
  (s.jr.recs.filter (fun p => p.2.typ == 0x30 && !s.jr.recs.any (fun q => q.2.typ == 0x31 && q.2.action == p.2.action)
    && gone.any (fun q => q.2.typ == 0x31 && q.2.action == p.2.action))).foldl (fun s p => retire s p.1) s

/-- Write a checkpoint (R347): its number and mark, in the system area of the next group in turn, the three newest kept; the records it covers retire. -/
def checkpoint (s : State) : State :=
  let below := s.jr.seq
  let n := s.jr.ckpt + 1
  let s := moduleRecord s 0x40 n below
  retireCovered { s with jr := { s.jr with ckpt := n, ckptSeq := below, ckptAt := s.time.dtb, ckpts := ((n, n % s.part.groups) :: s.jr.ckpts).take 3 } } below

/-- CHECKPOINT_INTERVAL (R347): 30 s into an open session. -/
def execCheckpointInterval (s : State) : Host.Outcome State Fault Refusal :=
  if s.jr.session && s.jr.ckptAt + 30000000000 ≤ s.time.dtb then .next (checkpoint s) else .next s

/-- ZONE_OPEN_AGE_EXPIRY (R104): a zone has been active for 604,800 s since it left Empty, by the time base, or over a power cycle by the retention clock, of which 112 steps are that long. -/
def execZoneOpenAgeExpiry (nsid zone : Nat) (s : State) : Host.Outcome State Fault Refusal :=
  match nsOf s nsid with
  | none => .next s
  | some n =>
    let z := n.zone zone
    if !z.active || z.finishRec || !(z.leftAt + 604800000000000 ≤ s.time.dtb || z.leftDay + 112 < s.time.rd.toNat) then .next s
    else
      let s := setZone s nsid zone (fun z => { z with finishRec := true })
      let (s, _) := formRecord s mgmtCore { typ := 0x10, nsid := nsid, zone := n.znum zone, zidx := zone, action := 8, durable := true, completed := true }
      .next (noteZone s nsid zone)

end Sys2Proof.Machine
end

