-- ==== Sys2Proof/Machine/DataPath.lean ====
section
/-! DEFINITION. What happens to an accepted command: its data, its record, its delivery, its deadline, and the core that owns it (R25 to R35, R86, R145, R264, R280, R471). -/

namespace Sys2Proof.Machine

/-! ### Dropping a write (R63, R280) -/

/-- Remove a record that is not applied, on both modules. -/
def removeRec (s : State) (seq : Nat) : State :=
  match KV.find s.jr.recs seq with
  | none => s
  | some r =>
    let s := if r.mirrored && !r.copy then send s 0x0A 0 [r.oseq] else s
    let s := if r.mirrored && !r.copy && !r.wt then { s with jr := { s.jr with credit := KV.upd s.jr.credit r.func 0 (· + r.bytes) } } else s
    { s with jr := unplace { s.jr with recs := KV.del s.jr.recs seq } seq }

/-- LBAs taken in a zone by its write pointer and by the records still to be applied. -/
def takenNow (s : State) (nsid i : Nat) (n : Ns) : Nat :=
  ((zonePending s nsid i).filter (fun p => 1 ≤ p.2.typ && p.2.typ ≤ 3 && !p.2.stale)).foldl
    (fun a p => max a (p.2.slba + p.2.nlb - i * zoneSize n.flbas)) (n.zone i).wp

/-- Drop a write whose record is not durable: it leaves neither data nor a change to the write pointer; the zone's later writes no longer start at the write pointer and end with Zone Invalid Write. -/
def dropWrite (s : State) (seq : Nat) : State :=
  match KV.find s.jr.recs seq with
  | none => s
  | some r =>
    let s := removeRec s seq
    match nsOf s r.nsid with
    | none => s
    | some n =>
      if !n.zoned || r.stale then s
      else
        let later := (zonePending s r.nsid r.zidx).filter (fun p => seq < p.1 && 1 ≤ p.2.typ && p.2.typ ≤ 3)
        let s := later.foldl (fun s p =>
          let s := removeRec s p.1
          match p.2.slot with
          | some sl => finish s sl .zoneInvalidWrite
          | none => s) s
        setZone s r.nsid r.zidx (fun z => { z with taken := takenNow s r.nsid r.zidx n })

/-! ### Data in and records (R25, R264, R279) -/

/-- Place what has been applied into staging, log rows or word lines, and relieve the journal (R272 to R275). -/
def placeApplied (s : State) : State :=
  checkRelief ((s.jr.recs.filter (fun p => p.2.completed && !p.2.staged && p.2.typ ≤ 3)).foldl (fun s p => afterApply s p.1) s)

/-- The status of a failed protection check (Table 3.11, NVMe 2.0) or buffer CRC (R280). -/
def checkStatus (pi : Nat) : Status :=
  match pi with
  | 1 => .guardCheck
  | 2 => .appTagCheck
  | 3 => .refTagCheck
  | _ => .dataTransferError

/-- The data of a write is in: its mirror record is sent, and in write-through its row goes out (R269, R279). -/
def dataArrived (s : State) (slot q : Nat) : State :=
  let s := sendMirror (setCmd s slot (fun c => { c with stage := .dataIn, descr := false })) q
  if (KV.find s.jr.recs q).any (fun r => r.wt && r.typ != 2) then stageRec s q else s

/-- HOST_DATA_RECEIVED (R25, R270, R280): a write's data is in the buffer pool, enciphered on its way; `pi` is 0, or says which check of it failed. A write that the twin carries out is sent on with its data. -/
def execHostDataReceived (slot pi : Nat) (s : State) : Host.Outcome State Fault Refusal :=
  match KV.find s.port.cmds slot with
  | none => .next s
  | some c =>
    if c.stage ≠ .buffered ∨ c.needBytes ≠ 0 ∨ c.needShare ≠ 0 then .next s
    else
    let s := endXts s slot
    if c.fwd then
      .next (if pi ≠ 0 then finish s slot (checkStatus pi)
        else sendForwarded (setCmd s slot (fun c => { c with stage := .forwarded, descr := false })) { func := c.func, sqid := c.sqid, cid := c.cid, nsid := c.nsid } c)
    else match c.seq with
      | none => .next (setCmd s slot (fun c => { c with stage := .dataIn, descr := false }))
      | some q =>
        if pi ≠ 0 then .next (finish (dropWrite s q) slot (checkStatus pi))
        else .next (dataArrived s slot q)

/-- A record's change may be applied now: settle it, end what waited for it, place what was applied; one whose row is programmed already retires. -/
def recordSettled (s : State) (seq : Nat) : State :=
  let s' := placeApplied (wakeZops (settle s seq) seq)
  (KV.find s.jr.recs seq).elim s' (fun r => if r.staged then retireNs s' r.nsid else s')

/-- RECORD_DURABLE (R264 to R267, R279): a record's headers, data and CRCs are in DRAM, or a record without data is programmed in the record log. A data record of write-through becomes durable with its row instead. -/
def execRecordDurable (seq : Nat) (s : State) : Host.Outcome State Fault Refusal :=
  match KV.find s.jr.recs seq with
  | none => .next s
  | some r =>
    if r.durable || !r.dataIn || (r.wt && (r.typ == 1 || r.typ == 3)) then .next s
    else
      let s := makeDurable s seq
      let s := touchDram (r.slot.elim s (fun sl => dropUser (setCmd s sl (fun c => { c with stage := .journalled })) sl .journal))
      .next (recordSettled (if r.copy then ackMirror s r.oseq r.func else s) seq)

/-- READ_DATA_DELIVERED (R86): the last data of a read is written to host memory. -/
def execReadDataDelivered (slot : Nat) (s : State) : Host.Outcome State Fault Refusal :=
  match KV.find s.port.cmds slot with
  | none => .next s
  | some c =>
    if c.op.isWrite || c.stage != .dieDone || !c.dies.isEmpty || c.needBytes != 0 || s.tw.fetches.any (fun f => f.2.1 == slot) then .next s
    else .next (finish (endXts s slot) slot c.result 0 0 (if c.result = .success then c.data else []))

/-! ### Waiting Unbound commands (R145, R471) -/

/-- UNBOUND_BUFFER_GRANT (R468, R471): buffers are free for a waiting Unbound command. -/
def execUnboundBufferGrant (slot : Nat) (s : State) : Host.Outcome State Fault Refusal :=
  match KV.find s.port.cmds slot with
  | none => .next s
  | some c => if c.needBytes = 0 then .next s else .next (takeBufs s slot c.needBytes c.users)

/-- A waiting Unbound write fits now: its namespace's log has room (R127), and its share, with the mirror credit, or the limits of write-through hold it (R145). -/
def grantFits (s : State) (c : Cmd) (n : Ns) : Bool :=
  !logFull n && (if wtNow s n then wtFits s c.func c.needShare
    else c.needShare ≤ (if c.fromTwin then shareFree s c.func else shareOwn s c.func) && (!mirrors s n || c.needShare ≤ mirrorCredit s c.func))

/-- UNBOUND_WRITE_SHARE_GRANT (R127, R145): a waiting Unbound write is charged once it fits, and its data is fetched; that of a command of the twin came with it. -/
def execUnboundWriteShareGrant (slot : Nat) (s : State) : Host.Outcome State Fault Refusal :=
  match KV.find s.port.cmds slot with
  | none => .next s
  | some c =>
    match c.seq, nsOf s c.nsid with
    | some q, some n =>
      if c.needShare = 0 || !grantFits s c n then .next s
      else
        let w := wtNow s n
        let s := setRec s q (fun r => { r with bytes := c.needShare, wt := w })
        let s := if mirrors s n && !w then { s with jr := { s.jr with credit := KV.upd s.jr.credit c.func 0 (· - c.needShare) } } else s
        let s := setCmd s slot (fun c => { c with needShare := 0, stage := .buffered })
        .next (if c.op = .writeZeroes ∨ c.fromTwin then dataArrived s slot q else takeBufs s slot (c.nlb * lbaBytes n.flbas) (writeUsers (mirrors s n)))
    | _, _ => .next s

/-! ### Deadlines and cores (R29 to R35) -/

/-- DEADLINE_TIMER_EXPIRY (R29, R30): at the stamp plus the bound the miss is counted; the command runs on. -/
def execDeadlineTimerExpiry (slot : Nat) (s : State) : Host.Outcome State Fault Refusal :=
  match KV.find s.port.cmds slot with
  | none => .next s
  | some c =>
    if !c.armed || c.expired || !c.deadline.any (fun t => t ≤ s.time.dtb) then .next s
    else
      let s := setCmd s slot (fun c => { c with expired := true, armed := false })
      .next (setLedger s c.func (ledgerRow c.cls c.op) (fun l => { l with misses := (l.misses + 1) % 2^32 }))

def setCore (s : State) (c : Nat) (f : Proc → Proc) : State :=
  { s with it := { s.it with cores := KV.upd s.it.cores c {} f } }

/-- Commands a core owns. -/
def ownedBy (s : State) (c : Nat) : List (Nat × Cmd) := s.port.cmds.filter (fun p => p.2.core == c)

/-- Running request cores other than one. -/
def otherCores (s : State) (c : Nat) : List Nat := (List.range 24).filter (fun x => x != c && coreRuns s x)

/-- Put a command among others in order of deadline, earliest first, behind those of the same deadline; Unbound commands, which have none, come last (R32). -/
def byDeadline (p : Nat × Cmd) : List (Nat × Cmd) → List (Nat × Cmd)
  | [] => [p]
  | x :: l =>
    let before := match p.2.deadline, x.2.deadline with
      | some a, some b => decide (a < b)
      | some _, none => true
      | none, _ => false
    if before then p :: x :: l else x :: byDeadline p l

/-- The commands of a core in the order in which they move (R32). -/
def moveOrder (s : State) (c : Nat) : List (Nat × Cmd) := (ownedBy s c).foldl (fun l p => byDeadline p l) []

/-- A command's context names a new owner; its descriptor is taken with it (R32, R33). -/
def ownCmd (s : State) (slot core : Nat) : State := setCmd s slot (fun x => { x with core := core, descr := false })

/-- The round-robin hands a command to the next running core (R32). -/
def spinCmd (run : List Nat) (s : State) (slot : Nat) : State :=
  match nextRound run s.it.rrCore with
  | none => s
  | some k => { ownCmd s slot k with it := { s.it with rrCore := k } }

/-- Move every command of a core, earliest deadline first (R32): zone-bound ones together to the running core with the fewest, with its zones; the others round-robin. The spec names no core among several that own equally few: the lowest-numbered takes them. Nor does it say what becomes of the commands when no other request core runs: the core is marked hung and they stay with it (both DESIGN CHOICE, log 105). -/
def moveCore (s : State) (c : Nat) : State :=
  let mine := moveOrder s c
  let run := otherCores s c
  match leastBy run (fun x => (ownedBy s x).length) with
  | none => setCore s c (fun x => { x with hung := true })
  | some z =>
    let s := setCore s c (fun x => { x with hung := true, zones := some z })
    let s := { s with it := { s.it with cores := KV.mapVals s.it.cores (fun _ x => if x.zones = some c then { x with zones := some z } else x) } }
    mine.foldl (fun s p => if p.2.zone.isSome && p.2.op.zoneBound then ownCmd s p.1 z else spinCmd run s p.1) s

/-- RESCUE_POINT (R31, R32): a command's rescue point has come, once; its core is declared hung if its beat is more than 4 µs old, and a telemetry capture is taken (R430). -/
def execRescuePoint (slot : Nat) (s : State) : Host.Outcome State Fault Refusal :=
  match KV.find s.port.cmds slot with
  | none => .next s
  | some c =>
    let p := KV.findD s.it.cores c.core {}
    if !c.rescue.any (fun t => t ≤ s.time.dtb) then .next s
    else
      let s := setCmd s slot (fun c => { c with rescue := none })
      if p.hung || p.inReset || s.time.dtb ≤ p.beat + 4000 then .next s
      else .next (capture (record (moveCore s c.core) 0x21 [c.core, 1, (ownedBy s c.core).length]) 0x21)

/-- PROGRESS_BEAT (R17, R31): a request core stamps its beat, having taken the descriptors sent to it. -/
def execProgressBeat (core : Nat) (s : State) : Host.Outcome State Fault Refusal :=
  if core < 24 then .next (setCore (takeDescr s (· == core)) core (fun x => { x with beat := s.time.dtb })) else .next s

/-- REQUEST_CORE_WATCHDOG (R35): the core is reset; its commands move unless a rescue point has moved them already. -/
def execRequestCoreWatchdog (core : Nat) (s : State) : Host.Outcome State Fault Refusal :=
  let p := KV.findD s.it.cores core {}
  if 24 ≤ core || p.inReset then .next s
  else
    let n := (ownedBy s core).length
    let s := if p.hung then s else moveCore s core
    .next (record (setCore s core (fun x => { x with inReset := true })) 0x21 [core, 2, n])

/-- CORE_RETURN_TO_SERVICE (R32, R35, R466): a request core receives descriptors again and its zones come back to it; a management core or the security core takes up its duties. Of those R466 records the reset alone. -/
def execCoreReturnToService (core : Nat) (s : State) : Host.Outcome State Fault Refusal :=
  let p := KV.findD s.it.cores core {}
  if !p.inReset && !p.hung then .next s
  else
    let s := setCore s core (fun x => { x with hung := false, inReset := false, zones := none, beat := s.time.dtb })
    .next (if core < 24 then record s 0x21 [core, 3, 0] else s)

end Sys2Proof.Machine
end

