-- ==== Sys2Proof/Machine/Resets.lean ====
section
/-! DEFINITION. The host port: the link, resets and the disposal of commands, shutdown notifications, registers and doorbells (chapter 3). -/

namespace Sys2Proof.Machine

/-! ### Disposal (R63, R81) -/

/-- A write's record is durable: here, and on the twin where it is mirrored (R63). -/
def recordDurable (s : State) (c : Cmd) : Bool :=
  match c.seq.bind (KV.find s.jr.recs) with
  | some r => r.ready
  | none => false

/-- What R63 does with a command. -/
inductive Fate where
  | carriedThrough | runsOn | forwarded | ends
  deriving DecidableEq, Repr

def fateOf (s : State) (c : Cmd) : Fate :=
  if c.fwd && c.stage == .forwarded then .forwarded
  else match c.op with
    | .write | .writeZeroes | .append => if recordDurable s c then .carriedThrough else .ends
    | .zms => .runsOn
    | _ => .ends

/-- Undo a command that ends: its record is dropped, its claims are no longer wanted. -/
def undo (s : State) (slot : Nat) (c : Cmd) : State :=
  let s := match c.op, c.seq with
    | .write, some q | .writeZeroes, some q | .append, some q => dropWrite s q
    | _, _ => s
  { s with cal := { s.cal with claims := s.cal.claims.filter (fun x => x.slot != some slot || x.released) } }

/-- Dispose of one command at a controller's reset point: no completion is posted (R63, R316). -/
def disposeCmd (s : State) (slot : Nat) : State :=
  match KV.find s.port.cmds slot with
  | none => s
  | some c =>
    match fateOf s c with
    | .carriedThrough | .runsOn => setCmd s slot (fun c => { c with quiet := true })
    | .forwarded => disposeQuiet (send s 0x0B c.tag [c.tag]) slot
    | .ends => disposeQuiet (undo s slot c) slot

/-- Dispose of one command of a queue being deleted (R81): a forwarded one waits for its disposal on the twin. -/
def abortCmd (s : State) (slot : Nat) : State :=
  match KV.find s.port.cmds slot with
  | none => s
  | some c =>
    match fateOf s c with
    | .carriedThrough | .runsOn => s
    | .forwarded => send s 0x0B c.tag [c.tag]
    | .ends => finish (undo s slot c) slot .abortedSqDeletion

/-- The slots of a function's own commands in the order in which they are disposed of: Flushes, which the end of a write must not complete, then the latest record first, so that no write is dropped for the drop of an earlier one. -/
def slotsOf (s : State) (func : Nat) : List Nat :=
  sortBy (fun sl => (KV.find s.port.cmds sl).elim 0 (fun c => if c.op = .flush then 0 else 2^64 - c.seq.getD 0))
    ((s.port.cmds.filter (fun p => p.2.func == func && !p.2.fromTwin && !p.2.quiet)).map (·.1))

/-! ### Resets (R62 to R65, R71, R75) -/

/-- The controller of a function after a reset: its resources stay, a pending Primary Flexible Allocation applies (R75); Feature 0Bh and SU_DBERR are cleared. The MSI-X table stays at CC.EN written to 0, which is no reset of the function (PRESUMED from PCIe, log 112); no message is left pending (R64). -/
def Ctrl.afterReset (c : Ctrl) (keepRegs : Bool) : Ctrl :=
  { ioq := (c.pendVq.map (· + 64)).getD c.ioq, vec := (c.pendVi.map (· + 65)).getD c.vec, online := c.online
    cc := 0, aqa := if keepRegs then c.aqa else 0, asq := if keepRegs then c.asq else 0, acq := if keepRegs then c.acq else 0
    nssro := c.nssro, zopSeq := c.zopSeq, zops := c.zops, errCount := c.errCount, errs := c.errs, changedNs := c.changedNs
    msix := if keepRegs then c.msix else [], life := c.life + 1 }

/-- Reset one controller: its commands are disposed of, its queues go, the zones whose open resource it is charged with close (Table 4.3). -/
def resetCtrl (s : State) (func : Nat) (keepRegs : Bool) : State :=
  let s := setCtrl s func (fun c => { c with rdy := false })
  let s := (slotsOf s func).foldl disposeCmd s
  let s := closeZonesOf s (fun z => z.openFunc == some func)
  let s := { s with port := { s.port with
    sqs := KV.keep s.port.sqs (fun k _ => k / 65536 != func)
    cqs := KV.keep s.port.cqs (fun k _ => k / 65536 != func)
    turnKey := s.port.turnKey.filter (fun k => k / 65536 != func) } }
  setCtrl s func (fun c => c.afterReset keepRegs)

/-- Reset every controller of the module. -/
def resetAll (s : State) (keepRegs : Bool) : State := s.port.ctrls.foldl (fun s p => resetCtrl s p.1 keepRegs) s

/-- The link goes down: nothing is trained (Table 3.5), and the host's enabling of L1 goes with the configuration of the port. Which events SU_LINKCNT.DOWNS counts is the model's choice (DESIGN CHOICE, log 115): LINK_DOWN, a Measure entry, and PERST_N on a trained link; not a hot reset nor an NVM Subsystem Reset, which the host asks for. -/
def linkGone (s : State) (count training : Bool) : State :=
  { s with port := { s.port with
    rate := 0, flit := false, width := 0, credits := 0, inL1 := false, l1Enabled := false, training := training
    downs := if count then s.port.downs + 1 else s.port.downs } }

/-- Clear VF Enable (Table 3.2). -/
def clearVfs (s : State) : State := { s with port := { s.port with vfEnable := false, numVfs := 0 } }

/-- The host port at a Measure entry other than power good (Table 3.2, R358). -/
def hostReset (s : State) : State := linkGone (clearVfs (resetAll s false)) true true

/-- PERST_ASSERTED (R62). -/
def execPerstAsserted (s : State) : Host.Outcome State Fault Refusal :=
  let r := clearVfs (resetAll s false)
  .next (linkGone { r with port := { r.port with perst := true } } (s.port.rate != 0) false)

/-- PERST_DEASSERTED (R62): link training starts. -/
def execPerstDeasserted (s : State) : Host.Outcome State Fault Refusal :=
  .next { s with port := { s.port with perst := false, training := s.sup.rails } }

/-- LINK_DOWN (R62). -/
def execLinkDown (s : State) : Host.Outcome State Fault Refusal := .next (hostReset s)

/-- HOT_RESET (R62): every function is reset; the link trains again. -/
def execHotReset (s : State) : Host.Outcome State Fault Refusal :=
  .next (linkGone (clearVfs (resetAll s false)) false true)

/-- FUNCTION_LEVEL_RESET (R62): of the PF, with every VF; or of one VF. -/
def execFunctionLevelReset (func : Nat) (s : State) : Host.Outcome State Fault Refusal :=
  if func = 0 then .next (clearVfs (resetAll s false)) else .next (resetCtrl s func false)

/-- HOST_LINK_UP (R58, R59): the link reaches L0, with its lanes reversed or not; flit mode is always in use at 64 GT/s, and the recovery loader trains at 16 GT/s where more is possible (R360). An outcome outside Table 3.1 leaves the port as it is. -/
def execHostLinkUp (rate width : Nat) (how : LinkMode) (s : State) : Host.Outcome State Fault Refusal :=
  match linkRow rate width with
  | none => .next s
  | some _ =>
    if !s.sup.rails || s.port.perst then .next s
    else
      let rate := if s.boot.verdict == some 3 then min rate 2 else rate
      .next { s with port := { s.port with
      rate := rate, width := width, flit := how.flit || rate == 4, credits := hostCredits rate width, training := false, inL1 := false, reversed := how.reversed
      retrains := if s.port.everUp then s.port.retrains + 1 else s.port.retrains, everUp := true } }

/-- L1_ENTRY (R61): enabled by the host, 1 ms after the last command was outstanding or a doorbell was written. Entries not yet fetched and accepted admin commands count as outstanding; Asynchronous Event Requests do not (DEDUCED from R66, log 111). -/
def execL1Entry (s : State) : Host.Outcome State Fault Refusal :=
  if s.port.l1Enabled && s.port.rate != 0 && s.port.cmds.isEmpty && (waitingStamps s).isEmpty && (adminOpen s).isEmpty && s.port.quietAt + 1000000 ≤ s.time.dtb then .next { s with port := { s.port with inL1 := true } } else .next s

/-- L1_EXIT (R61, R463). -/
def execL1Exit (s : State) : Host.Outcome State Fault Refusal := .next { s with port := { s.port with inL1 := false } }

/-- R70: the fields of CC that an enable checks. -/
def ccValid (cc : BitVec 32) : Bool :=
  fld cc 4 3 == 6 && fld cc 7 4 ≤ 4 && fld cc 11 3 == 0 && fld cc 16 4 == 6 && fld cc 20 4 == 4

/-- CC_ENABLE (R52, R70): the admin queues are set up from AQA; the controller is ready at the point of R52, or reports CFS. -/
def execCcEnable (func : Nat) (cc : BitVec 32) (s : State) : Host.Outcome State Fault Refusal :=
  let c := ctrl s func
  if c.en || !c.online || funcs ≤ func || s.port.rate == 0 then .next s
  else
    let cc := (cc &&& 0x01FF3FF0) ||| 1
    if !ccValid cc then .next (setCtrl s func (fun c => { c with cc := cc, cfs := true, rdy := false }))
    else
      let s := { s with port := { s.port with
        sqs := KV.set s.port.sqs (qkey func 0) { size := fld c.aqa 0 12 + 1, cqid := 0 }
        cqs := KV.set s.port.cqs (qkey func 0) { size := fld c.aqa 16 12 + 1 } } }
      .next (updateReady (setCtrl s func (fun c => { c with cc := cc, rdy := false, shst := 0, kaAt := s.time.dtb })))

/-- CC_DISABLE (R62, R70). -/
def execCcDisable (func : Nat) (s : State) : Host.Outcome State Fault Refusal :=
  if (ctrl s func).en then .next (resetCtrl s func true) else .next s

/-- CC.SHN as written (R13, R69). -/
def setShn (c : Ctrl) (v : BitVec 32) : Ctrl := { c with cc := (c.cc &&& 0xFFFF3FFF) ||| (v <<< 14) }

/-- NORMAL_SHUTDOWN (R66). A controller that is not enabled, or whose shutdown is under way or complete, only holds the value. -/
def execNormalShutdown (func : Nat) (s : State) : Host.Outcome State Fault Refusal :=
  let c := ctrl s func
  if funcs ≤ func then .next s
  else if !c.en || c.shst != 0 then .next (setCtrl s func (fun c => setShn c 1))
  else .next (endShutdown (setCtrl s func (fun c => { setShn c 1 with shst := 1, shutAt := some s.time.dtb })) func)

/-- SHUTDOWN_UNBOUND_TIMEOUT (R66): 900 ms after the notification, Unbound commands still open are disposed of. -/
def execShutdownUnboundTimeout (func : Nat) (s : State) : Host.Outcome State Fault Refusal :=
  if (ctrl s func).shst ≠ 1 then .next s
  else
    let un := (slotsOf s func).filter (fun sl => (KV.find s.port.cmds sl).any (fun c => c.cls == .unbound))
    .next (endShutdown (un.foldl disposeCmd s) func)

/-- ABRUPT_SHUTDOWN (R66). -/
def execAbruptShutdown (func : Nat) (s : State) : Host.Outcome State Fault Refusal :=
  if funcs ≤ func then .next s
  else if !(ctrl s func).en then .next (setCtrl s func (fun c => setShn c 2))
  else .next (setCtrl ((slotsOf s func).foldl disposeCmd s) func (fun c => { setShn c 2 with shst := 2, shutAt := none, life := c.life + 1 }))

/-- Reset every controller of this module under an NVM Subsystem Reset (R65): every open zone closes (Table 4.3), every function's NSSRO is set, and the link retrains. -/
def subsystemReset (s : State) : State :=
  let s := closeZonesOf (clearVfs (resetAll s false)) (fun _ => true)
  linkGone ((List.range funcs).foldl (fun s f => setCtrl s f (fun c => { c with nssro := true })) s) false true

/-- NVM_SUBSYSTEM_RESET (R65): carried to the twin in Service. -/
def execNvmSubsystemReset (func : Nat) (s : State) : Host.Outcome State Fault Refusal :=
  if funcs ≤ func then .next s
  else .next (subsystemReset (if s.md.mode = .service then send s 0x09 0 [3] else s))

/-! ### Registers (R68, R69, R72, R73) -/

/-- Write SU_PWRBUD.LIMIT (R72). -/
def writeLimit (s : State) (v : Nat) : State := refreshPower { s with pw := { s.pw with limit := roundLimit v } }

/-- SU_PWRBUD_WRITE (R71, R72): on the PF; a VF's write is ignored. -/
def execSuPwrbudWrite (func : Nat) (value : BitVec 32) (s : State) : Host.Outcome State Fault Refusal :=
  if func = 0 then .next (writeLimit s (fld value 8 8)) else .next s

/-- SU_DTB_LO_READ (R73): of the host island's copy of the time base. -/
def execSuDtbLoRead (func : Nat) (s : State) : Host.Outcome State Fault Refusal :=
  if funcs ≤ func then .next s
  else .next { s with port := { s.port with
    readOut := BitVec.ofNat 64 (hostTime s % 2^32), dtbHi := BitVec.ofNat 32 (hostTime s / 2^32) } }

/-- Put a 4-byte half into a 64-bit register. -/
def putHalf (old : BitVec 64) (hi : Bool) (v : BitVec 64) : BitVec 64 :=
  BitVec.ofNat 64 (if hi then old.toNat % 2^32 + v.toNat % 2^32 * 2^32 else old.toNat / 2^32 * 2^32 + v.toNat % 2^32)

/-- The bits of a queue base above its page offset; those below are reserved (R12, NVMe 2.0). -/
def queueBase (v : BitVec 64) : BitVec 64 := v &&& 0xFFFFFFFFFFFFF000

/-- A write of an NVMe controller register (R69, Table 3.4). EN and SHN of CC are written by the commands of their own; reserved bits are taken as zero (R12). -/
def ctrlWrite (c : Ctrl) (offset size : Nat) (v : BitVec 64) : Ctrl :=
  let w := BitVec.ofNat 32 v.toNat
  if size = 8 then
    (if offset = 0x28 then { c with asq := queueBase v } else if offset = 0x30 then { c with acq := queueBase v } else c)
  else if size = 4 then
    (if offset = 0x14 then { c with cc := (w &&& 0x01FF3FF0) ||| (c.cc &&& 0x0000C001) }
     else if offset = 0x1C then { c with nssro := c.nssro && !w.getLsbD 4 }
     else if offset = 0x24 then { c with aqa := w &&& 0x0FFF0FFF }
     else if offset = 0x28 then { c with asq := queueBase (putHalf c.asq false v) }
     else if offset = 0x2C then { c with asq := queueBase (putHalf c.asq true v) }
     else if offset = 0x30 then { c with acq := queueBase (putHalf c.acq false v) }
     else if offset = 0x34 then { c with acq := queueBase (putHalf c.acq true v) }
     else c)
  else c

/-- MSI-X Table Size of a function (R74, Table 3.6). -/
def tableSize (func : Nat) : Nat := if func = 0 then 2048 else 129

/-- Change the dword at an offset within an entry of the MSI-X table: address, upper address, data, vector control. -/
def Msix.put (m : Msix) (dword v : Nat) : Msix :=
  if dword = 0 then { m with addr := m.addr / 2^32 * 2^32 + v / 4 * 4 }
  else if dword = 1 then { m with addr := m.addr % 2^32 + v * 2^32 }
  else if dword = 2 then { m with data := v }
  else { m with masked := v % 2 == 1 }

/-- A write of the MSI-X table (R67, Table 3.3), of 4 or 8 bytes; the pending-bit array takes no write. A vector unmasked with its bit pending sends its message. -/
def msixWrite (s : State) (func offset size : Nat) (v : BitVec 64) : State :=
  let vec := offset / 16
  if tableSize func ≤ vec ∨ (size ≠ 4 ∧ size ≠ 8) then s
  else
    let put (m : Msix) : Msix :=
      let m := m.put (offset % 16 / 4) (v.toNat % 2^32)
      if size = 8 then m.put (offset % 16 / 4 + 1) (v.toNat / 2^32) else m
    let s := setCtrl s func (fun c => { c with msix := KV.upd c.msix vec {} put })
    let c := ctrl s func
    if c.pba.contains vec && !(c.entry vec).masked then sendMsix (setCtrl s func (fun c => { c with pba := c.pba.filter (· != vec) })) func vec
    else s

/-- A configuration write the block's rules name: 0, ASPM L1 enabled by the host (R61); 1, VF Enable and NumVFs (R74). -/
def configWrite (s : State) (func offset : Nat) (v : BitVec 64) : State :=
  if func ≠ 0 then s
  else if offset = 0 then { s with port := { s.port with l1Enabled := v.getLsbD 0 } }
  else if offset = 1 then { s with port := { s.port with vfEnable := v.getLsbD 0, numVfs := min 127 (v.toNat / 2 % 128) } }
  else s

/-- REGISTER_WRITE (R68, R69, R71): BAR 0 controller registers, BAR 2 the MSI-X table, BAR 4 the set-up block, whose one writable register is on the PF; 7 stands for configuration space. -/
def execRegisterWrite (func bar offset size : Nat) (value : BitVec 64) (s : State) : Host.Outcome State Fault Refusal :=
  if funcs ≤ func then .next s
  else if bar = 7 then .next (configWrite s func offset value)
  else if size = 0 ∨ offset % size ≠ 0 then .next s
  else if bar = 0 then .next (setCtrl s func (fun c => ctrlWrite c offset size value))
  else if bar = 2 then .next (msixWrite s func offset size value)
  else if bar = 4 ∧ offset = 0x40 ∧ size = 4 ∧ func = 0 then .next (writeLimit s (value.toNat / 256 % 256))
  else .next s

/-! ### Doorbells (R82, R49) -/

/-- Count a rejected doorbell write, and raise its event (Table 3.8, Table 14.14). -/
def rejectDoorbell (s : State) (func qid : Nat) (info : Option Nat) : State :=
  let s := setCtrl s func (fun c => { c with dbCount := c.dbCount + 1, dbLast := BitVec.ofNat 16 qid })
  info.elim s (fun i => raiseAen s func 0 i 1)

/-- Make entries visible up to a new tail, stamped now (R82). LOCKED of Table 3.7 is set by a write that advances the tail, not by one that has no effect or is rejected (DESIGN CHOICE, log 116). -/
def ringTail (s : State) (func qid value : Nat) : State :=
  match KV.find s.port.sqs (qkey func qid) with
  | none => rejectDoorbell s func qid (some 0)
  | some q =>
    let n := (value + q.size - q.tail) % q.size
    if q.size ≤ value then rejectDoorbell s func qid (some 1)
    else if n = 0 then s
    else if q.size ≤ q.stamps.length + n then rejectDoorbell s func qid (some 1)
    else { s with port := { s.port with
      sqs := KV.set s.port.sqs (qkey func qid) { q with tail := value, stamps := q.stamps ++ List.replicate n s.time.dtb, locked := true }
      quietAt := s.time.dtb } }

/-- Advance a completion queue's head (R82). -/
def ringHead (s : State) (func qid value : Nat) : State :=
  match KV.find s.port.cqs (qkey func qid) with
  | none => rejectDoorbell s func qid (some 0)
  | some q =>
    if q.size ≤ value ∨ (q.tail + q.size - q.head) % q.size < (value + q.size - q.head) % q.size then rejectDoorbell s func qid (some 1)
    else { s with port := { s.port with cqs := KV.set s.port.cqs (qkey func qid) { q with head := value }, quietAt := s.time.dtb } }

/-- SQ_TAIL_DOORBELL (R82): in Holiday that of an existing queue wakes the module and is stamped at the exit (R49, R50); an I/O doorbell ends the re-entry of a module woken by admin doorbells. -/
def execSqTailDoorbell (func qid size value : Nat) (s : State) : Host.Outcome State Fault Refusal :=
  if !(ctrl s func).rdy then .next s
  else if size ≠ 4 then .next (rejectDoorbell s func qid none)
  else if s.md.mode = .holiday ∧ (KV.find s.port.sqs (qkey func qid)).isSome then
    .next { s with
      md := { s.md with waking := true, adminWake := qid == 0 && (s.md.adminWake || !s.md.waking) }
      port := { s.port with sqs := KV.adj s.port.sqs (qkey func qid) (fun q => { q with captured := some value }) } }
  else
    let s := if qid = 0 || !s.md.adminWake then s
      else refreshPower { s with md := { s.md with adminWake := false, entering := false }, pw := { s.pw with sel := s.md.selBefore } }
    .next (ringTail s func qid value)

/-- CQ_HEAD_DOORBELL (R82): in Holiday it is captured and wakes nothing. -/
def execCqHeadDoorbell (func qid size value : Nat) (s : State) : Host.Outcome State Fault Refusal :=
  if !(ctrl s func).rdy then .next s
  else if size ≠ 4 then .next (rejectDoorbell s func qid none)
  else if s.md.mode = .holiday ∧ (KV.find s.port.cqs (qkey func qid)).isSome then
    .next { s with port := { s.port with cqs := KV.adj s.port.cqs (qkey func qid) (fun q => { q with captured := some value }) } }
  else .next (ringHead s func qid value)

end Sys2Proof.Machine
end

