-- ==== Sys2Proof/Machine/AdminFront.lean ====
section
/-! DEFINITION. Admin commands: fetch, legality by mode and cause (R53, R56, Tables 2.8 and 2.9), and the shared shape of their meanings. -/

namespace Sys2Proof.Machine

/-- The rows of Tables 2.8 and 2.9. -/
inductive Row where
  | always | virt | features | measurementPolicy | ps03 | ps4 | twinPolicy | group | reshapePolicy | reshapeMove | reshapeCancel
  | namespaces | createMirrored | sanitizeCrypto | sanitizeBlock | download | commit | pairControl | holdUp | holdUpReport | calendar | security
  deriving DecidableEq, Repr

/-- Any sensor reads at or above its warn threshold (R56; DRAM has none). -/
def anyWarn (s : State) : Bool :=
  s.th.ctrl.now.any (fun r => warnCtrl s ≤ r) || s.th.flash.now.any (fun r => warnFlash s ≤ r) || s.th.bank.now.any (fun r => 70 ≤ r)

/-- A C4h refusal carries the mode code (R55). -/
def inMode (s : State) : Option (Status × Nat) := some (.c4, s.md.mode.code)

/-- Table 2.9: the refusal of a row under a Quarantine cause. Sanitize Exit Failure Mode takes the row of crypto erase, since the table has no row of its own (DESIGN CHOICE, log 120). -/
def quarantineRule (s : State) (r : Row) (cause : Nat) : Option (Status × Nat) :=
  match r with
  | .always | .download | .commit => none
  | .virt | .measurementPolicy | .calendar => if cause = 3 then inMode s else none
  | .features | .ps03 => if cause = 2 then some (.c6, 0) else if cause = 3 then inMode s else none
  | .ps4 => if cause = 2 then some (.c6, 0) else inMode s
  | .twinPolicy | .group => if cause = 2 then some (.c6, 0) else if cause = 3 then inMode s else none
  | .reshapePolicy | .reshapeMove | .reshapeCancel | .namespaces | .createMirrored | .pairControl | .holdUp | .holdUpReport =>
    if cause = 1 then some (.c5, 0) else if cause = 2 then some (.c6, 0) else inMode s
  | .sanitizeCrypto => if cause = 1 then some (.c5, 0) else if cause = 2 then some (.c6, 0) else if cause = 4 then none else inMode s
  | .sanitizeBlock => if cause = 1 then some (.c5, 0) else if cause = 2 then some (.c6, 0) else inMode s
  | .security => if cause = 2 then some (.c6, 0) else if cause = 3 ∨ cause = 5 then inMode s else none

/-- Table 2.8: the refusal of a row in a mode outside Quarantine. -/
def modeRule (s : State) (r : Row) : Option (Status × Nat) :=
  let pairing := s.md.mode == .pairing
  let recovery := s.md.mode == .recovery
  match r with
  | .always | .virt | .features | .measurementPolicy | .ps03 | .download | .calendar | .security => none
  | .ps4 => if recovery then inMode s else if pairing then (if s.md.pairServing then some (.c7, 0) else inMode s) else none
  | .holdUp | .holdUpReport => if recovery then inMode s else if pairing then (if s.md.pairServing then some (.c7, 0) else inMode s) else none
  | .twinPolicy | .reshapePolicy | .createMirrored =>
    if recovery then inMode s else if pairing then some (.c7, 0) else if s.md.mode == .solo then inMode s else none
  | .group | .reshapeMove | .reshapeCancel | .namespaces | .sanitizeCrypto | .sanitizeBlock | .commit | .pairControl =>
    if recovery then inMode s else if pairing then some (.c7, 0) else none

/-- R56: the rows a warn reading refuses. -/
def Row.thermal : Row → Bool
  | .holdUp | .sanitizeCrypto | .sanitizeBlock | .commit => true
  | _ => false

/-- Step 3 of R53 for an admin command, under the mode in force at its stamp (R54); the shut-down sequence judges as cause 1 (Table 15.9). R56's sensors are read at the fetch, not at the stamp (DESIGN CHOICE, log 121). -/
def adminRefusal (s0 : State) (r : Row) (stamp : Nat) : Option (Status × Nat) :=
  let s := asStamped { s0 with md := modeAt s0 stamp } stamp
  let base := if s.md.mode = .quarantine then quarantineRule s r s.md.qcause
    else if s.th.shut ≠ 0 then quarantineRule s r 1 else modeRule s r
  match base with
  | some x => some x
  | none => if r.thermal && anyWarn s then some (.c5, 0) else none

/-- An admin command: fetched; a command of the PF alone is unknown on a VF (R410); its fields; its mode; its effect, which may depend on the flags at its stamp (R54). -/
def adminCmdAt (e : Sqe) (s : State) (pfOnly : Bool) (row : Row) (field : State → Option Status) (run : Nat → State → State) :
    Host.Outcome State Fault Refusal :=
  match fetch s e.func 0 with
  | none => .next s
  | some (stamp, s) =>
    if pfOnly && e.func != 0 then .next (adminDone s e .invalidOpcode)
    else match field s with
      | some st => .next (adminDone s e st)
      | none => match adminRefusal s row stamp with
        | some (st, d) => .next (adminDone s e st d)
        | none => .next (run stamp s)

/-- An admin command whose effect does not depend on its stamp. -/
def adminCmd (e : Sqe) (s : State) (pfOnly : Bool) (row : Row) (field : State → Option Status) (run : State → State) :
    Host.Outcome State Fault Refusal := adminCmdAt e s pfOnly row field (fun _ => run)

/-- A command with no field to check. -/
def noField (_ : State) : Option Status := none

/-- The feature identifier and Save bit of a Set Features; the SEL of a Get. -/
def sqeFid (e : Sqe) : Nat := fld e.cdw10 0 8
def sqeSave (e : Sqe) : Bool := e.cdw10.getLsbD 31
def sqeSel (e : Sqe) : Nat := fld e.cdw10 8 3

/-- An SGL whose length is not that of a vendor command's data (R411). -/
def sglBad (e : Sqe) (n : Nat) : Bool := e.sgl.any (· != n)

/-- The checks of a Set Features that carry over to every vendor feature (R412): from a VF, the Save bit, reserved bits. -/
def featureField (e : Sqe) (vf saveable : Bool) (badBits : Bool) : Option Status :=
  if (!vf && e.func != 0) || badBits then some .invalidField
  else if sqeSave e && !saveable then some .featureNotSaveable
  else none

end Sys2Proof.Machine
end

