-- ==== Sys2Proof/Machine/AdminStd.lean ====
section
/-! DEFINITION. The standard admin commands: queues, Virtualization Management, Abort, asynchronous events, Keep Alive, the standard features (chapter 3, R94, R428, R437, R447). Field places are those of NVMe 2.0 (PRESUMED). -/

namespace Sys2Proof.Machine

/-! ### Queues (R76, R78, R81) -/

/-- CREATE_IO_COMPLETION_QUEUE (R76, R78). -/
def execCreateIoCompletionQueue (e : Sqe) (s : State) : Host.Outcome State Fault Refusal :=
  let qid := fld e.cdw10 0 16
  let size := fld e.cdw10 16 16 + 1
  let iv := fld e.cdw11 16 16
  adminCmd e s false .always (fun s =>
      if qid = 0 ∨ (ctrl s e.func).ioq < qid ∨ (KV.find s.port.cqs (qkey e.func qid)).isSome then some .invalidQueueId
      else if size < 2 ∨ 4096 < size then some .invalidQueueSize
      else if !e.cdw11.getLsbD 0 then some .invalidField
      else if (ctrl s e.func).vec ≤ iv then some .invalidVector
      else none)
    (fun s => adminDone { s with port := { s.port with
      cqs := KV.set s.port.cqs (qkey e.func qid) { size := size, vector := iv, ien := e.cdw11.getLsbD 1 } } } e .success)

/-- CREATE_IO_SUBMISSION_QUEUE (R78): unbound. -/
def execCreateIoSubmissionQueue (e : Sqe) (s : State) : Host.Outcome State Fault Refusal :=
  let qid := fld e.cdw10 0 16
  let size := fld e.cdw10 16 16 + 1
  let cqid := fld e.cdw11 16 16
  adminCmd e s false .always (fun s =>
      if qid = 0 ∨ (ctrl s e.func).ioq < qid ∨ (KV.find s.port.sqs (qkey e.func qid)).isSome then some .invalidQueueId
      else if size < 2 ∨ 4096 < size then some .invalidQueueSize
      else if cqid = 0 ∨ (KV.find s.port.cqs (qkey e.func cqid)).isNone then some .completionQueueInvalid
      else if !e.cdw11.getLsbD 0 then some .invalidField
      else none)
    (fun s => adminDone { s with port := { s.port with sqs := KV.set s.port.sqs (qkey e.func qid) { size := size, cqid := cqid } } } e .success)

/-- DELETE_IO_SUBMISSION_QUEUE (R81): its commands end with completions, then the queue goes and the Delete completes. -/
def execDeleteIoSubmissionQueue (e : Sqe) (s : State) : Host.Outcome State Fault Refusal :=
  let qid := fld e.cdw10 0 16
  adminCmd e s false .always (fun s =>
      if qid = 0 ∨ (KV.find s.port.sqs (qkey e.func qid)).isNone then some .invalidQueueId else none)
    (fun s =>
      let s := { s with port := { s.port with sqs := KV.adj s.port.sqs (qkey e.func qid) (fun q => { q with deleting := some e.cid, stamps := [] }) } }
      let mine := (slotsOf s e.func).filter (fun sl => (KV.find s.port.cmds sl).any (fun c => c.sqid == qid))
      endDelete (mine.foldl abortCmd s) e.func qid)

/-- DELETE_IO_COMPLETION_QUEUE (R78): one that still serves a submission queue is refused. -/
def execDeleteIoCompletionQueue (e : Sqe) (s : State) : Host.Outcome State Fault Refusal :=
  let qid := fld e.cdw10 0 16
  adminCmd e s false .always (fun s =>
      if qid = 0 ∨ (KV.find s.port.cqs (qkey e.func qid)).isNone then some .invalidQueueId
      else if s.port.sqs.any (fun p => p.1 / 65536 == e.func && p.1 % 65536 != 0 && p.2.cqid == qid) then some .invalidQueueDeletion
      else none)
    (fun s => adminDone { s with port := { s.port with cqs := KV.del s.port.cqs (qkey e.func qid) } } e .success)

/-! ### Virtualization Management (R75 to R77) -/

/-- The controller identifier of a function (R77), and the function of one. -/
def cntlid (s : State) (func : Nat) : Nat := 1 + func + 128 * bit (s.sup.slotid.getLsbD 0)

def funcOf (s : State) (id : Nat) : Option Nat :=
  (List.range funcs).find? (fun f => cntlid s f == id)

/-- The secondary controller a command names, none for any other. -/
def secondary (s : State) (e : Sqe) : Option Nat := (funcOf s (fld e.cdw10 16 16)).filter (· != 0)

/-- Flexible resources assigned to secondary controllers, another than `f`, and to the PF. -/
def flexUsed (s : State) (f : Nat) (vq : Bool) : Nat :=
  s.port.ctrls.foldl (fun a p => if p.1 = f then a
    else if p.1 = 0 then a + ((if vq then p.2.pendVq else p.2.pendVi).getD ((if vq then p.2.ioq - 64 else p.2.vec - 65)))
    else a + (if vq then p.2.ioq else p.2.vec)) 0

/-- VIRT_PRIMARY_FLEXIBLE_ALLOCATION (R75): pending until the PF's next reset. -/
def execVirtPrimaryFlexibleAllocation (e : Sqe) (s : State) : Host.Outcome State Fault Refusal :=
  let n := fld e.cdw11 0 16
  let rt := fld e.cdw10 8 3
  adminCmd e s true .virt (fun s =>
      if 1 < rt ∨ fld e.cdw10 16 16 ≠ cntlid s 0 then some .invalidField
      else if (if rt = 0 then 8128 else 1983) < n + flexUsed s 0 (rt == 0) then some .invalidResourceCount
      else none)
    (fun s => adminDone (setCtrl s 0 (fun c => if rt = 0 then { c with pendVq := some n } else { c with pendVi := some n })) e .success n)

/-- VIRT_SECONDARY_OFFLINE (R76). -/
def execVirtSecondaryOffline (e : Sqe) (s : State) : Host.Outcome State Fault Refusal :=
  adminCmd e s true .virt (fun s => if (secondary s e).isNone then some .invalidControllerId else none)
    (fun s => match secondary s e with
      | none => s
      | some f => adminDone (setCtrl (resetCtrl s f false) f (fun c => { c with online := false })) e .success)

/-- VIRT_SECONDARY_ASSIGN (R76): only while the controller is offline. -/
def execVirtSecondaryAssign (e : Sqe) (s : State) : Host.Outcome State Fault Refusal :=
  let n := fld e.cdw11 0 16
  let rt := fld e.cdw10 8 3
  adminCmd e s true .virt (fun s =>
      match secondary s e with
      | none => some .invalidControllerId
      | some f =>
        if 1 < rt then some .invalidField
        else if (ctrl s f).online then some .invalidSecondaryState
        else if (if rt = 0 then 1024 else 129) < n ∨ (if rt = 0 then 8128 else 1983) < n + flexUsed s f (rt == 0) then some .invalidResourceCount
        else none)
    (fun s => match secondary s e with
      | none => s
      | some f => adminDone (setCtrl s f (fun c => if rt = 0 then { c with ioq := n } else { c with vec := n })) e .success n)

/-- VIRT_SECONDARY_ONLINE (R76): with at least one queue pair and one vector. -/
def execVirtSecondaryOnline (e : Sqe) (s : State) : Host.Outcome State Fault Refusal :=
  adminCmd e s true .virt (fun s =>
      match secondary s e with
      | none => some .invalidControllerId
      | some f => if (ctrl s f).ioq = 0 ∨ (ctrl s f).vec = 0 then some .invalidSecondaryState else none)
    (fun s => match secondary s e with
      | none => s
      | some f => adminDone (setCtrl s f (fun c => { c with online := true })) e .success)

/-! ### Abort, asynchronous events, Keep Alive (R94, R428) -/

/-- A command still holds no die operation and no Vigil record (R94). -/
def abortable (s : State) (slot : Nat) (c : Cmd) : Bool :=
  c.seq.isNone && !s.cal.claims.any (fun x => x.slot == some slot && x.released) && c.zres.isEmpty

/-- ABORT (R94, R316). DW0 bit 0 reads 1 where the command is not aborted. -/
def execAbort (e : Sqe) (s : State) : Host.Outcome State Fault Refusal :=
  let sq := fld e.cdw10 0 16
  let cid := fld e.cdw10 16 16
  adminCmd e s false .always noField (fun s =>
    match s.port.cmds.find? (fun p => p.2.func == e.func && p.2.sqid == sq && p.2.cid == cid && !p.2.fromTwin && !p.2.quiet) with
    | none =>
      if sq = 0 ∧ (ctrl s e.func).aers.contains cid then
        let s := setCtrl s e.func (fun c => { c with aers := c.aers.filter (· != cid) })
        adminDone (complete s e.func 0 cid .aborted) e .success 0
      else adminDone s e .success 1
    | some (slot, c) =>
      if c.fwd then
        let t := s.tw.tagCtr
        let s := { s with tw := { s.tw with tagCtr := (t + 1) % 2^31, adminWait := s.tw.adminWait ++ [{ tag := t, func := ownerOf s e.func, cid := e.cid, kind := 0 }] } }
        send s 0x0C t [8, 0, c.tag]
      else if abortable s slot c then
        let s := { s with cal := { s.cal with claims := s.cal.claims.filter (fun x => x.slot != some slot) } }
        adminDone (finish s slot .aborted) e .success 0
      else adminDone s e .success 1)

/-- ASYNCHRONOUS_EVENT_REQUEST (R428): completed by an event that waits, else held; at most 16. -/
def execAsynchronousEventRequest (e : Sqe) (s : State) : Host.Outcome State Fault Refusal :=
  adminCmd e s false .always (fun s => if 16 ≤ (ctrl s e.func).aers.length then some .aerLimitExceeded else none)
    (fun s => match (ctrl s e.func).waiting with
      | [] => setCtrl s e.func (fun c => { c with aers := c.aers ++ [e.cid] })
      | a :: rest =>
        adminDone (setCtrl s e.func (fun c => { c with waiting := rest, masked := c.masked ++ [a] })) e .success
          (a.typ + a.info * 2^8 + a.log * 2^16))

/-- KEEP_ALIVE (R94). -/
def execKeepAlive (e : Sqe) (s : State) : Host.Outcome State Fault Refusal :=
  adminCmd e s false .always noField (fun s => adminDone (setCtrl s e.func (fun c => { c with kaAt := s.time.dtb })) e .success)

/-- KEEP_ALIVE_EXPIRY (R94): recorded; the controller stays enabled. -/
def execKeepAliveExpiry (func : Nat) (s : State) : Host.Outcome State Fault Refusal :=
  if (ctrl s func).en then .next (record (setCtrl s func (fun c => { c with kaAt := s.time.dtb })) 0x70 [] (some func)) else .next s

/-! ### Standard features -/

/-- SET_NUMBER_OF_QUEUES (R78): grants the pairs assigned. -/
def execSetNumberOfQueues (e : Sqe) (s : State) : Host.Outcome State Fault Refusal :=
  adminCmd e s false .features (fun _ => if fld e.cdw11 0 16 = 0xFFFF ∨ fld e.cdw11 16 16 = 0xFFFF then some .invalidField
      else if (sqeSave e) then some .featureNotSaveable else none)
    (fun s => let n := (ctrl s e.func).ioq - 1
      adminDone s e .success (n + n * 2^16))

/-- SET_INTERRUPT_COALESCING (R88). -/
def execSetInterruptCoalescing (e : Sqe) (s : State) : Host.Outcome State Fault Refusal :=
  adminCmd e s false .features (fun _ => if (sqeSave e) then some .featureNotSaveable else none)
    (fun s => adminDone (setCtrl s e.func (fun c => { c with coalesce := BitVec.ofNat 16 (fld e.cdw11 0 16) })) e .success)

/-- SET_INTERRUPT_VECTOR_CONFIGURATION (R88). -/
def execSetInterruptVectorConfiguration (e : Sqe) (s : State) : Host.Outcome State Fault Refusal :=
  let iv := fld e.cdw11 0 16
  adminCmd e s false .features (fun s => if (ctrl s e.func).vec ≤ iv then some .invalidField else if (sqeSave e) then some .featureNotSaveable else none)
    (fun s =>
      let rest := (ctrl s e.func).vecNoCoalesce.filter (· != iv)
      let vs := if e.cdw11.getLsbD 16 then rest ++ [iv] else rest
      adminDone (setCtrl s e.func (fun c => { c with vecNoCoalesce := vs })) e .success)

/-- SET_ASYNC_EVENT_CONFIGURATION (R428): not saveable. -/
def execSetAsyncEventConfiguration (e : Sqe) (s : State) : Host.Outcome State Fault Refusal :=
  adminCmd e s false .features (fun _ => if (sqeSave e) then some .featureNotSaveable else none)
    (fun s => adminDone (setCtrl s e.func (fun c => { c with aec := e.cdw11 })) e .success)

/-- SET_TEMPERATURE_THRESHOLD (R447): TMPSEL 0h only. -/
def execSetTemperatureThreshold (e : Sqe) (s : State) : Host.Outcome State Fault Refusal :=
  adminCmd e s false .features (fun _ => if fld e.cdw11 16 4 ≠ 0 ∨ 1 < fld e.cdw11 20 2 then some .invalidField
      else if (sqeSave e) then some .featureNotSaveable else none)
    (fun s => adminDone (refreshCrit { s with th := if fld e.cdw11 20 2 = 0 then { s.th with overK := fld e.cdw11 0 16 }
      else { s.th with underK := fld e.cdw11 0 16 } }) e .success)

/-- Host time in ms now (R438): that of the last Set carried on, or the time since power good. -/
def hostTimeMs (s : State) : Nat :=
  if s.time.src = 0 then (s.time.dtb - s.time.bootDtb) / 1000000 else s.time.hostMs + (s.time.dtb - s.time.hostAt) / 1000000

/-- SET_TIMESTAMP (R437): from the PF only; clears time discontinuity; SOURCE 001b, uncertainty 1 ms. -/
def execSetTimestamp (e : Sqe) (s : State) : Host.Outcome State Fault Refusal :=
  adminCmd e s false .features (fun _ => featureField e false false (e.data.length < 6))
    (fun s => adminDone (setFlags { s with time := { s.time with
        src := 1, hostMs := le e.data 0 6, hostAt := s.time.dtb, unc := 1000, uncAt := s.time.dtb, setAt := some s.time.dtb } }
      (fun m => { m with timeDisc := false })) e .success)

/-! ### Vendor features -/

/-- SET_QUEUE_CLASS_BINDING (R80). -/
def execSetQueueClassBinding (e : Sqe) (s : State) : Host.Outcome State Fault Refusal :=
  let qid := fld e.cdw11 0 16
  let cls := match fld e.cdw11 16 3 with
    | 0 => some LClass.express
    | 1 => some .standard
    | 2 => some .bulk
    | 3 => some .unbound
    | _ => none
  adminCmd e s false .features (fun s => featureField e true false
      (qid == 0 || (KV.find s.port.sqs (qkey e.func qid)).isNone || cls.isNone))
    (fun s => match KV.find s.port.sqs (qkey e.func qid), cls with
      | some q, some c =>
        let now := budgetAt s e.func s.cal.period
        let b := KV.findD s.cal.nextBudgets e.func now
        let none_ := c != .unbound && (b.chOf c == 0 || (List.range s.part.groups).all (fun g => (b.on g).ofClass c == 0))
        if q.locked then adminDone s e .sequenceError
        else if none_ then adminDone s e .c2
        else adminDone { s with port := { s.port with sqs := KV.set s.port.sqs (qkey e.func qid) { q with cls := some c } } } e .success
      | _, _ => s)

/-- The budget of a data structure (Table 6.6). -/
def budgetOf (p : Part) (d : List Nat) : Budget :=
  { active := le d 4 2, open_ := le d 6 2, share := le d 8 4, chE := le d 0x10 4, chS := le d 0x14 4, chB := le d 0x18 4
    groups := (List.range p.groups).map (fun g => (g, { e := le d (0x40 + 8*g) 2, s := le d (0x42 + 8*g) 2, b := le d (0x44 + 8*g) 2, p := le d (0x46 + 8*g) 2 }))
    rest := { p := 0 } }

/-- Step 1 of R178: a field out of range. -/
def budgetBad (p : Part) (d : List Nat) : Bool :=
  let b := budgetOf p d
  let act := if b.active = 0 then p.activeZones else b.active
  nth d 0 != 1 || p.activeZones < b.active || act < b.open_
    || b.groups.any (fun g => 8192 < g.2.e || 8192 < g.2.s || 8192 < g.2.b || (8192 < g.2.p && g.2.p != 0xFFFF))
    || 29491200 < b.chE || 29491200 < b.chS || 29491200 < b.chB || 3072 < b.share
    || !zeroRange d 1 4 || !zeroRange d 0xC 0x10 || !zeroRange d 0x1C 0x40 || !zeroRange d (0x40 + 8 * p.groups) 1024

/-- A group's dedication bars an allotment of another function (R178 step 2). -/
def budgetBarred (s : State) (f : Nat) (b : Budget) : Bool :=
  s.cal.dedicated.any (fun d => d.2 != f && ((b.on d.1).e != 0 || (b.on d.1).s != 0 || (b.on d.1).b != 0))

/-- The stored budget of a function: the one that will apply. -/
def stored (s : State) (f : Nat) : Budget := budgetAt s f (s.cal.period + 1)

/-- R150: the limits the allotments of all functions must keep, with a budget in place of a function's own; a degraded channel's are scaled (R191). -/
def limitsKept (s : State) (f : Nat) (b : Budget) : Bool :=
  let bs := (List.range funcs).map (fun i => if i = f then b else stored s i)
  let sum (g : Budget → Nat) : Nat := bs.foldl (fun a x => a + g x) 0
  (List.range s.part.groups).all (fun g =>
      sum (fun x => (x.on g).e + (x.on g).s) ≤ 5376 && sum (fun x => (x.on g).e + (x.on g).s + (x.on g).b) ≤ 7424)
    && (List.range 32).all (fun c =>
      let r := chanRate s c
      sum (fun x => x.chE + x.chS) ≤ 20643840 * r / 3600 && sum (fun x => x.chE + x.chS + x.chB) ≤ 26542080 * r / 3600)
    && sum (fun x => x.share) ≤ 3072

/-- SET_TENANT_BUDGET (R178, R179): the allotments from the next period boundary, the zone limits and the share now; EFFECTIVE names the period. -/
def execSetTenantBudget (e : Sqe) (s : State) : Host.Outcome State Fault Refusal :=
  let f := fld e.cdw11 0 7
  let b := budgetOf s.part e.data
  adminCmd e s false .features (fun s => featureField e false true (budgetBad s.part e.data || fld e.cdw11 7 25 != 0))
    (fun s =>
      if budgetBarred s f b then adminDone s e .sequenceError
      else if !limitsKept s f b then adminDone s e .c2
      else
        let now := budgetAt s f s.cal.period
        let c := { s.cal with
          budgets := KV.set s.cal.budgets f { now with active := b.active, open_ := b.open_, share := b.share }
          nextBudgets := KV.set s.cal.nextBudgets f b
          savedBudgets := if (sqeSave e) then KV.set s.cal.savedBudgets f b else s.cal.savedBudgets }
        adminDone { s with cal := c } e .success ((s.cal.period + 1) % 2^32))

/-- Take a power limit (R72, R413), saved where the command says so. -/
def setLimit (s : State) (e : Sqe) : State :=
  let s := writeLimit s (fld e.cdw11 0 8)
  if sqeSave e then { s with pw := { s.pw with limitSaved := s.pw.limit } } else s

/-- SET_POWER_BUDGET (R413). -/
def execSetPowerBudget (e : Sqe) (s : State) : Host.Outcome State Fault Refusal :=
  adminCmd e s false .features (fun _ => featureField e false true false) (fun s => adminDone (setLimit s e) e .success)

/-- The offsets of a Thermal Policy are beyond 10 K (R414). -/
def offsetsBad (e : Sqe) : Bool := 10 < fld e.cdw11 0 4 || 10 < fld e.cdw11 4 4

/-- Take the offsets of a Thermal Policy (R414), saved where the command says so. -/
def setOffsets (s : State) (e : Sqe) : State :=
  let a := fld e.cdw11 0 4
  let b := fld e.cdw11 4 4
  { s with th := { s.th with ctrlOff := a, flashOff := b, offSaved := if sqeSave e then (a, b) else s.th.offSaved } }

/-- SET_THERMAL_POLICY (R414). -/
def execSetThermalPolicy (e : Sqe) (s : State) : Host.Outcome State Fault Refusal :=
  adminCmd e s false .features (fun _ => featureField e false true (offsetsBad e)) (fun s => adminDone (setOffsets s e) e .success)

/-- SET_HOLIDAY_DEGRADATION_PERMIT (R415). -/
def execSetHolidayDegradationPermit (e : Sqe) (s : State) : Host.Outcome State Fault Refusal :=
  adminCmd e s false .features (fun _ => featureField e false true false)
    (fun s => adminDone { s with adm := { s.adm with permit := e.cdw11.getLsbD 0
                                                     permitSaved := if (sqeSave e) then e.cdw11.getLsbD 0 else s.adm.permitSaved } } e .success)

/-- SET_GROUP_DEDICATION (R182): placement follows now, the calendar from the next period boundary. -/
def execSetGroupDedication (e : Sqe) (s : State) : Host.Outcome State Fault Refusal :=
  let g := fld e.cdw11 0 6
  let ded := e.cdw11.getLsbD 7
  let f := fld e.cdw11 8 7
  adminCmd e s false .group (fun s =>
      if e.func ≠ 0 ∨ s.part.groups ≤ g ∨ (grpOf s g).retired then some .invalidField else none)
    (fun s =>
      let owner := KV.find s.cal.dedicated g
      let others := (List.range funcs).any (fun x => x != f && (((stored s x).on g).e != 0 || ((stored s x).on g).s != 0 || ((stored s x).on g).b != 0))
      if ded then
        (if owner = some f then adminDone s e .success
         else if owner.isSome || others then adminDone s e .sequenceError
         else adminDone (moduleRecord { s with cal := { s.cal with dedicated := KV.set s.cal.dedicated g f } } 0x21 5 g) e .success)
      else if owner.isNone then adminDone s e .success
      else adminDone (moduleRecord { s with cal := { s.cal with dedicated := KV.del s.cal.dedicated g } } 0x21 6 g) e .success)

end Sys2Proof.Machine
end

