-- ==== Sys2Proof/Machine/Copies.lean ====
section
/-! DEFINITION. Mirror records on the module that receives them: what they do to its copy, what is held until a zone is level, what a Drop removes (R106, R108, R267, R269, R271, R280, R322). -/

namespace Sys2Proof.Machine

/-- The rank of this module: SLOTID[0] (R307). -/
def rank (s : State) : Nat := bit (s.sup.slotid.getLsbD 0)

/-- A record is in this module's zone ordering: a zone's, not a metadata namespace's. -/
def VRec.ofZone (r : VRec) : Bool := r.zone != 0xFFFFFFFF

/-- What a received record gives a zone: LBAs from ZSLBA it ends at. -/
def VRec.endOff (r : VRec) (n : Ns) : Nat := r.slba + r.nlb - r.zidx * zoneSize n.flbas

/-- The extension and the capacity that a zone-change record carries (Table 9.2). -/
def recCap (r : VRec) : Nat := nth r.data 0
def recExt (r : VRec) : Ext := { density := nth r.data 1, heat := nth r.data 2, lifetime := nth r.data 3, tag := nth r.data 4, affinity := nth r.data 5 }

/-- Carry a write's zone to the state its record needs (R108): it leaves Empty or Closed under the rules that the owner applied, and its LBAs are taken. -/
def takeWrite (s : State) (r : VRec) (n : Ns) : Except Status State :=
  match openForWrite s r.func r.nsid r.zidx n with
  | .error st => .error st
  | .ok s => .ok (setZone s r.nsid r.zidx (fun z => { z with taken := max z.taken (r.endOff n), lastWrite := s.time.dtb }))

/-- The placement of a zone under an extension received (R106, R108). -/
def takeExt (s : State) (r : VRec) (n : Ns) : Except Status State :=
  match leaveEmpty s r.func r.nsid r.zidx n (recExt r) true with
  | .error st => .error st
  | .ok s => .ok (setZone s r.nsid r.zidx (fun z => { z with st := .closed }))

/-- Carry out a zone change received (Table 9.2 ACTION). -/
def takeZoneChange (s : State) (r : VRec) (n : Ns) : Except Status State :=
  let off (s : State) (st : ZState) : Except Status State := .ok (setZone s r.nsid r.zidx (fun z => { z with st := st, activeFunc := none, openFunc := none }))
  match r.action with
  | 1 => .ok (setZone (emptyZone s r.nsid r.zidx) r.nsid r.zidx (fun z => { z with resetId := resetIdOf r.oseq (1 - rank s) }))
  | 2 => .ok (finishZone s r.nsid r.zidx false)
  | 3 => zoneAction s r.func r.nsid r.zidx 3
  | 4 => zoneAction s r.func r.nsid r.zidx 1
  | 5 => takeExt s r n
  | 6 => off s .readOnly
  | 7 => off s .offline
  | 9 => .ok (setNs s r.nsid (fun n => { n with znums := modAt n.znums r.zidx (fun _ => recCap r) }))
  | _ => .ok s

/-- The change a received record makes as it is taken in; a refusal of its placement leaves nothing (R108). -/
def takeCopy (s : State) (r : VRec) : Except Status State :=
  match nsOf s r.nsid with
  | none => .error .invalidNamespace
  | some n =>
    if 1 ≤ r.typ ∧ r.typ ≤ 3 then (if r.ofZone then takeWrite s r n else .ok s)
    else if r.typ = 0x10 then takeZoneChange s r n
    else .ok s

/-- A zone of a copy being brought level has its owner's content (R322): always so but on a target of a resync or of a Reshape to mirrored. -/
def copyLevel (n : Ns) (i : Nat) : Bool :=
  !(n.zoned && !n.here && (n.resyncPending || (!n.mirrored && n.becoming))) || n.levelled.contains i

/-- The tag that tells the owner of a record whose placement is refused here (R108). -/
def refusalTag (oseq : Nat) : Nat := 2^31 + oseq % 2^31

/-- A received record's ordering key has been applied to its zone already (R267). -/
def applied (n : Ns) (r : VRec) : Bool :=
  r.ofZone && keyLe r.pepoch r.oseq (n.zone r.zidx).keyEpoch (n.zone r.zidx).keyOseq

/-- Apply what was held for a zone that is level now, in the order it came (R322); what its frames brought already is dropped. -/
def releaseHeld (s : State) (nsid i : Nat) : State :=
  let s := (s.jr.recs.filter (fun p => p.2.copy && !p.2.acked && p.2.nsid == nsid && p.2.ofZone && p.2.zidx == i)).foldl (fun s p =>
    match nsOf s nsid with
    | none => s
    | some n =>
      if applied n p.2 then retire s p.1
      else match takeCopy s p.2 with
        | .error _ => retire s p.1
        | .ok s => setRec s p.1 (fun r => { r with acked := true })) s
  retireNs (placeApplied (settleZone s nsid i)) nsid

/-- Apply everything held for a namespace. -/
def releaseAllHeld (s : State) (nsid : Nat) : State :=
  (((s.jr.recs.filter (fun p => p.2.copy && !p.2.acked && p.2.nsid == nsid && p.2.ofZone)).map (fun p => p.2.zidx)).dedup).foldl (fun s i => releaseHeld s nsid i) s

/-- Take a copy's write back (R271, R280): its LBAs hold again what they held before it. -/
def revertCopy (s : State) (r : VRec) (n : Ns) : State :=
  if !r.completed then s
  else if r.ofZone then
    let s := clearRange s r.nsid r.slba (r.slba + r.nlb)
    setZone s r.nsid r.zidx (fun z => { z with wp := min z.wp (r.slba - r.zidx * zoneSize n.flbas) })
  else (List.range r.nlb).foldl (fun s i =>
    let b := readLba s r.nsid (r.slba + i)
    if b.epoch = r.pepoch ∧ b.oseq = r.oseq then storeLba s r.nsid (r.slba + i) (r.old.getD i {}) else s) s

/-- Remove a copy's record, and its effect where it is a write (R280). -/
def dropCopy (s : State) (seq : Nat) : State :=
  match KV.find s.jr.recs seq with
  | none => s
  | some r =>
    let s := removeRec s seq
    match nsOf s r.nsid with
    | none => s
    | some n =>
      if r.stale || r.typ < 1 || 3 < r.typ then s
      else
        let s := revertCopy s r n
        if r.ofZone then setZone s r.nsid r.zidx (fun z => { z with taken := (nsOf s r.nsid).elim 0 (takenNow s r.nsid r.zidx) }) else s

end Sys2Proof.Machine
end

