-- ==== Sys2Proof/Machine/Carry.lean ====
section
/-! DEFINITION. Carrying out a command without judging it: one forwarded by the twin (R316), or one forwarded to a twin that is lost (R117, R123, R282). -/

namespace Sys2Proof.Machine

/-- The entry a command's context stands for. -/
def cmdIo (c : Cmd) : Io :=
  { func := c.func, sqid := c.sqid, cid := c.cid, nsid := c.nsid, slba := c.slba, nlb := c.nlb, data := c.data, ext := c.data, action := c.action }

/-- The standing claim a read that came through the twin uses on a die (R317): the first of its function and class from the one it names on. -/
def standingFor (s : State) (c : Cmd) (claim d : Nat) : Option Claim :=
  s.cal.claims.find? (fun x => x.kind == .standing && x.die == d && x.func == c.func && x.cls == c.cls && claim ≤ x.start)

/-- Place one die's share of a read carried out here (R144, R317): on its standing claim, around a failed die, or else as a read of its own. -/
def carryNeed (s : State) (slot : Nat) (c : Cmd) (claim d : Nat) (x : Need) : State :=
  let w : Win := { te := nextSlot s.time.dtb, tl := c.deadline.getD (s.time.dtb + bound c.cls false) }
  if c.cls = .unbound then s
  else if needLost s d x then
    (match placeAround s c.func c.cls slot d x w true with
      | .ok s => s
      | .error _ => s)
  else match standingFor s c claim d with
    | some cl => { s with cal := { s.cal with claims := s.cal.claims.map (fun y => if y = cl then { y with kind := .read, slot := some slot } else y) } }
    | none => (match placeNeed s c.func c.cls slot d x w with
      | .ok s => s
      | .error _ => s)

/-- Carry out a read: its data as it stands and the dies it waits for. -/
def carryRead (s : State) (slot : Nat) (c : Cmd) (n : Ns) (claim : Nat) : State :=
  let needs := needsOf s c.nsid n c.slba c.nlb
  if n.zoned && (n.zone (c.slba / zoneSize n.flbas)).st == .offline then finish s slot .zoneIsOffline
  else
  let s := countClaims (needs.foldl (fun s x => carryNeed s slot c claim x.1 x.2) s) slot c.func c.fromTwin
  endTwinRead (setCmd s slot (fun c => { c with
    data := readData s c.nsid n c.slba c.nlb c.key, result := readStatus s c.nsid c.slba c.nlb
    dies := needs.map (fun x => x.1), stage := if needs.isEmpty then .dieDone else .dieRequested })) slot

/-- The reference held for a forward send becomes that of the journal copy where the command is carried out here after all (R280, R282). -/
def swapUser (s : State) (slot : Nat) : State :=
  setCmd s slot (fun c => { c with users := c.users.map (fun u => if u = .forward then .journal else u) })

/-- Carry out a write whose data is here, or still comes in: the checks of R114, its record, its mirror record. -/
def carryWrite (s : State) (slot : Nat) (e : Io) (c : Cmd) (n : Ns) : State :=
  let i := e.slba / zoneSize n.flbas
  if logFull n && c.cls != .unbound then finish (drawFree s).2 slot .c0 ((drawFree s).1 % 2^32)
  else match (if n.zoned then zoneChecks s e n c.op else .ok (0, s)) with
  | .error st => finish s slot st
  | .ok (off, s) =>
    let j : Judged := { st := s, ns := n, key := c.key, cls := c.cls, stamp := c.stamp }
    let wait := mustWait s e j c.op c.fromTwin
    let core := if n.zoned then zoneCore s (n.znum i) else freeCore s
    let s := formWrite s slot e j c.op off core
    match (KV.find s.port.cmds slot).bind (fun c => c.seq) with
    | none => s
    | some q =>
      let s := setRec s q (fun r => { r with forwarded := c.fromTwin })
      let s := swapUser (setCmd s slot (fun c => { c with core := core })) slot
      if wait then deferShare s slot (recBytes n c.op e.nlb)
      else if c.stage = .buffered then s
      else dataArrived (if c.fromTwin && c.op != .writeZeroes then takeBufs s slot (e.nlb * lbaBytes n.flbas) (writeUsers (mirrors s n)) else s) slot q

/-- Carry out an action on one zone. -/
def carryZone (s : State) (slot : Nat) (e : Io) (n : Ns) : State :=
  let i := e.slba / zoneSize n.flbas
  if e.slba % zoneSize n.flbas ≠ 0 then finish s slot .invalidField
  else match (if e.action = 0x10 then setExtension e s n i else zoneAction s e.func e.nsid i e.action) with
    | .error st => finish s slot st
    | .ok s' =>
      if sameZone s' e.nsid i (n.zone i) then finish s' slot .success
      else
      let (s, seq) := zoneRecord s' e n i (if e.action = 0x10 then 5 else recAction e.action) (zoneCore s (n.znum i)) (some slot)
      setCmd s slot (fun c => { c with seq := some seq, stage := .dataIn })

/-- Carry out a Select All (R120, R123), each zone on its own core: for the twin from the first zone, with each result confirmed as it settles; what is left of one that was forwarded from the first zone not confirmed. -/
def carryZones (s : State) (slot : Nat) (e : Io) (c : Cmd) (n : Ns) : State :=
  let last := (((ctrl s c.func).zops.find? (fun z => z.seq == c.zop)).map (fun z => z.lastZone)).getD 0xFFFFFFFF
  let r := selectFrom (setCmd s slot (fun c => { c with stage := .dataIn })) e n (if c.fromTwin || last = 0xFFFFFFFF then 0 else last + 1)
  settleZop r.1 slot r.2

/-- Carry out a Flush: it waits for the earlier writes of its namespace on this module (R132). -/
def carryFlush (s : State) (slot nsid : Nat) : State :=
  let ws := (openWrites s nsid).filter (fun p => p.1 != slot)
  if ws.isEmpty then finish s slot .success
  else setCmd s slot (fun c => { c with awaits := ws.map (fun p => p.1), stage := .waiting })

/-- Carry out the command in a slot on this module; `all` where it acts on every zone. -/
def carryOut (s : State) (slot : Nat) (e : Io) (all : Bool) (claim : Nat := 0) : State :=
  match KV.find s.port.cmds slot with
  | none => s
  | some c =>
    match nsOf s c.nsid with
    | none => finish s slot .anaInaccessible
    | some n =>
      let s := setCmd s slot (fun c => { c with fwd := false })
      match c.op with
      | .read => carryRead s slot c n claim
      | .write | .writeZeroes | .append => carryWrite s slot e c n
      | .flush => carryFlush s slot c.nsid
      | .zmr => finish s slot .success 0 0 ((zoneReport n (e.slba / zoneSize n.flbas) e.option (e.action == 1)).take (4 * (e.numd + 1)))
      | .zms => if all then carryZones s slot e c n else carryZone s slot e n

end Sys2Proof.Machine
end

