-- ==== Sys2Proof/Machine/NsOps.lean ====
section
/-! DEFINITION. Namespaces as a whole: their keys, zone numbers and slots, their end, the erasures (R96, R97, R124, R313, R382 to R387, R402 to R405), and admin commands carried to the twin (R315). -/

namespace Sys2Proof.Machine

/-! ### Data slots and keys (R382, R386, R387) -/

/-- Data slots (Table 13.1). -/
def dataSlots : Nat := 4096

/-- The lowest numbers not in a list, below a limit, in rising order: at most `n` of them. -/
def lowestFree (used : List Nat) (limit : Nat) : Nat → Nat → Nat → List Nat
  | 0, _, _ => []
  | fuel + 1, c, n =>
    if n = 0 ∨ limit ≤ c then []
    else if used.contains c then lowestFree used limit fuel (c + 1) n
    else c :: lowestFree used limit fuel (c + 1) (n - 1)

/-- The first `n` free numbers below a limit. -/
def freeNumbers (used : List Nat) (limit n : Nat) : List Nat := lowestFree used limit (used.length + n) 0 n

/-- Free data slots, at most `n`: neither in use nor waiting for a zeroization. -/
def freeDataSlots (s : State) (n : Nat) : List Nat :=
  freeNumbers (s.keys.slots.map (fun x => x.1) ++ s.keys.zeroing.map (fun x => x.1)) dataSlots n

/-- Draw a new key (R387). -/
def drawKey (s : State) : Nat × State :=
  (Config.freshKey s.keys.keyCtr + 1, { s with keys := { s.keys with keyCtr := s.keys.keyCtr + 1 } })

/-- Put a generated key into a slot, its blob written (R384, R387). -/
def putGenerated (s : State) (slot key : Nat) : State :=
  { s with keys := { s.keys with slots := KV.set s.keys.slots slot { cur := key }, blobs := KV.set s.keys.blobs slot key } }

/-- The system-area block sets that hold the three copies of a slot's blob. -/
def blobSets (s : State) (slot : Nat) : List Nat :=
  let g := slot % s.part.groups
  (List.range 3).map (fun p => setKey (memberDie s g p) (2016 + slot / s.part.groups % 14))

/-- Zeroize a data slot and free it (R386): a generated key's blob goes, and the sets that held it are erased before the slot is used again. -/
def zeroizeSlot (s : State) (slot : Nat) : State :=
  let gen := (KV.find s.keys.blobs slot).isSome
  let s := { s with keys := { s.keys with slots := KV.del s.keys.slots slot, blobs := KV.del s.keys.blobs slot } }
  if !gen then s
  else
    let sets := blobSets s slot
    sets.foldl toErase { s with keys := { s.keys with zeroing := s.keys.zeroing ++ [(slot, sets)] } }

/-- Empty an injected slot and keep it bound (R386, R402). -/
def clearSlot (s : State) (slot : Nat) : State :=
  { s with keys := { s.keys with slots := KV.adj s.keys.slots slot (fun x => { x with cur := 0, retiring := 0, tenant := 0 }) } }

/-! ### Zone numbers, slots, metadata space (R96, R97, R124) -/

/-- The module zone numbers in use on this module, or on the twin; those of namespaces being created on both count. -/
def zoneNumbers (s : State) (twin : Bool) : List Nat :=
  (s.zn.ns ++ awaited s).flatMap (fun p => if (if twin then p.2.heldByTwin else p.2.held) then p.2.znums else [])

/-- The module zone numbers a new namespace takes (R96). -/
def newNumbers (s : State) (mirrored : Bool) (n : Nat) : List Nat :=
  freeNumbers (zoneNumbers s false ++ (if mirrored then zoneNumbers s true else [])) s.part.zones n

/-- Bytes of a namespace's LBAs. -/
def Ns.bytes (n : Ns) : Nat := n.nsze * lbaBytes n.flbas

/-- Metadata namespaces held here: their number and their bytes (R124). -/
def metaHeld (s : State) : Nat × Nat :=
  (s.zn.ns ++ awaited s).foldl (fun a p => if !p.2.zoned && p.2.held then (a.1 + 1, a.2 + p.2.bytes) else a) (0, 0)

/-- The most bytes of metadata namespaces (R124). -/
def metaMax (p : Part) : Nat :=
  match p with
  | .szm780 => 1024 * gib
  | .szm360 => 512 * gib

/-- A namespace to be held here fits (R97, R124, R387): zone slots or metadata space, and data slots. -/
def nsFits (s : State) (n : Ns) (keys : Nat) : Bool :=
  (if n.zoned then zonesHeld s + n.zoneCount ≤ zoneSlots s
   else (metaHeld s).1 < 64 && (metaHeld s).2 + n.bytes ≤ metaMax s.part)
  && (freeDataSlots s (keys + (awaited s).length)).length == keys + (awaited s).length

/-! ### Notices (Table 14.14) -/

/-- A namespace's attributes changed: the Changed Namespace List and the notice on the PF and on the functions it is attached to. -/
def noteNs (s : State) (nsid : Nat) : State :=
  let fs := 0 :: (((nsOf s nsid).map (fun n => n.attached)).getD []).filter (· != 0)
  fs.foldl (fun s f =>
    raiseAen (setCtrl s f (fun c => { c with changedNs := if c.changedNs.contains nsid then c.changedNs else c.changedNs ++ [nsid] })) f 2 0 4) s

/-- A namespace change record (Table 9.2, type 11h), durable here; one of a mirrored namespace in Service is sent to the twin. -/
def nsRecord (s : State) (nsid action arg key : Nat) (carried : Bool) : State :=
  let mir := carried && (nsOf s nsid).any (fun n => n.mirrored) && s.md.mode == .service
  let (s, q) := formRecord s mgmtCore { typ := 0x11, nsid := nsid, action := action, arg := arg, key := key, mirrored := mir, durable := true, acked := !mir, completed := !mir }
  if mir then sendRec s q else s

/-! ### The end of a namespace's data -/

/-- Retire a namespace's records without programming them, and what is planned for it. -/
def dropNsWork (s : State) (nsid : Nat) : State :=
  let s := (s.jr.recs.filter (fun p => p.2.nsid == nsid && 1 ≤ p.2.typ && p.2.typ ≤ 0x10)).foldl (fun s p => retire s p.1) s
  { s with
    cal := { s.cal with progs := s.cal.progs.filter (fun p => p.nsid != nsid) }
    media := { s.media with
      copies := s.media.copies.filter (fun c => c.nsid != nsid || c.kind == .compaction)
      stagingDir := KV.keep s.media.stagingDir (fun k _ => k / 2^64 != nsid)
      extents := s.media.extents.filter (fun x => x.nsid != nsid)
      extentGen := if s.media.extents.any (fun x => x.nsid == nsid) then s.media.extentGen + 1 else s.media.extentGen
      groups := KV.mapVals s.media.groups (fun _ g => { g with rowUnits := g.rowUnits.filter (fun u => u / 2^64 != nsid) }) }
    zn := { s.zn with store := KV.keep s.zn.store (fun k _ => k / 2^64 != nsid) } }

/-- Send every block set of a namespace to the erase queue (R119). -/
def eraseNsSets (s : State) (nsid : Nat) : State :=
  (s.media.sets.filter (fun b => b.2.nsid == nsid && b.2.role == .zone && b.2.state != .free && b.2.state != .awaitErase)).foldl (fun s b => toErase s b.1) s

/-- A zone after Format or Sanitize (Table 4.3): Read Only goes to Offline, Offline stays, every other is Empty. -/
def Zone.formatted (z : Zone) : Zone :=
  if z.st = .readOnly ∨ z.st = .offline then { st := .offline, keyEpoch := z.keyEpoch, keyOseq := z.keyOseq, resetId := z.resetId + 1 }
  else { keyEpoch := z.keyEpoch, keyOseq := z.keyOseq, resetId := z.resetId + 1 }

/-- The map units and the log of a namespace hold nothing any more (R119, R125). -/
def dropMeta (s : State) (nsid : Nat) : State :=
  let s := { s with media := { s.media with
    units := s.media.units.filter (fun x => x.nsid != nsid), logDir := KV.keep s.media.logDir (fun k _ => k / 2^64 != nsid)
    rows := s.media.rows.filter (fun r => r.merge != some nsid) } }
  let s := setGrp s (64 + nsid) (fun x => { x with rowUnits := [], rowSeqs := [], rowAt := none })
  (List.range s.part.groups).foldl staleMeta s

/-- Empty a namespace (R402). -/
def emptyNs (s : State) (nsid : Nat) : State :=
  let s := eraseNsSets (dropMeta (dropNsWork s nsid) nsid) nsid
  setNs s nsid (fun n => { n with
    zones := KV.mapVals n.zones (fun _ z => z.formatted), written := false, logUsed := [0, 0, 0, 0], merging := false })

/-- The namespace holds no data (R251). -/
def Ns.noData (n : Ns) : Bool := if n.zoned then n.zones.all (fun z => z.2.st == .empty) else !n.written

/-- Commands of a namespace still open on this module. -/
def openOn (s : State) (nsid : Nat) : List Nat := (s.port.cmds.filter (fun p => p.2.nsid == nsid)).map (fun p => p.1)

/-- Delete a namespace (R97, R104, R313): its commands end, its data, records, numbers, slots and list entries go; a tombstone stays while separated. -/
def deleteNs (s : State) (nsid : Nat) : State :=
  match nsOf s nsid with
  | none => s
  | some n =>
    let s := endReshape ((openOn s nsid).foldl (fun s sl => finish s sl .invalidNamespace) s) nsid .aborted
    let s := noteNs s nsid
    let s := eraseNsSets (dropMeta (dropNsWork s nsid) nsid) nsid
    let s := (s.jr.recs.filter (fun p => p.2.nsid == nsid && p.2.typ == 0x11)).foldl (fun s p => retire s p.1) s
    let s := n.slots.foldl zeroizeSlot s
    let tomb := s.md.mode != .service && s.tw.pairId != 0
    nsRecord { s with zn := { s.zn with
      ns := KV.del s.zn.ns nsid, tombs := if tomb then s.zn.tombs ++ [nsid] else s.zn.tombs } } nsid 2 0 0 false |> settleKeys

/-- Put a new namespace into the table with its data slot and key (R96, R387). -/
def createNs (s : State) (nsid : Nat) (n : Ns) (key : Nat) : State :=
  let sl := if n.held then freeDataSlots s 1 else []
  let s := sl.foldl (fun s k => putGenerated s k key) s
  let s := { s with zn := { s.zn with ns := KV.set s.zn.ns nsid { n with slots := sl } } }
  noteNs (nsRecord s nsid 1 (bit n.mirrored + 2 * bit n.here) 0 false) nsid

/-! ### Erasures (R402, R403) -/

/-- CONT where a module changes a mirrored namespace while separated (R313). -/
def contNow (s : State) (nsid : Nat) : State :=
  if s.md.mode = .service then s else setNs s nsid (fun n => { n with cont := n.cont || n.mirrored })

/-- Replace a namespace's generated key by a new one, whose blob is durable; the old key is zeroized with its blob (R403, R386). The namespace takes another data slot where one is free. -/
def replaceKey (s : State) (nsid key : Nat) : State :=
  match nsOf s nsid with
  | none => s
  | some n =>
    if n.kpio ≠ 0 then n.slots.foldl clearSlot s
    else match freeDataSlots s 1 with
      | k :: _ =>
        let s := n.slots.foldl zeroizeSlot (putGenerated s k key)
        setNs s nsid (fun n => { n with slots := [k], keyLost := false })
      | [] => n.slots.foldl (fun s k => putGenerated s k key) s

/-- The switch of an erasure (R403 steps 3 and 4): emptied, under the new key where keys are replaced, in the LBA format asked for. -/
def switchErase (s : State) (nsid : Nat) (crypto : Bool) (key flbas dps : Nat) : State :=
  match nsOf s nsid with
  | none => s
  | some n =>
    let s := emptyNs s nsid
    let s := if crypto then replaceKey s nsid key else s
    let nsze := if n.zoned then n.zoneCount * zoneSize flbas else n.bytes / lbaBytes flbas
    contNow (setNs s nsid (fun n => { n with erasing := none, sanitizing := false, flbas := flbas, dps := dps, nsze := nsze })) nsid

/-- The format in an erasure's record: bits [3:0] LBA format, [11:4] protection, [12] crypto. -/
def eraseArg (crypto : Bool) (flbas dps : Nat) : Nat := flbas + 16 * dps + 4096 * bit crypto

/-- Answer the twin's admin command (R315). -/
def answerTwin (s : State) (tag : Nat) (st : Status) (dw0 : Nat) : State := send s 0x05 tag [st.code, dw0, 0]

/-- A Format NVM ends with the switch: the command completes, or the twin is answered. -/
def endFormat (s : State) (f : Fmt) : State :=
  let s := switchErase s f.nsid f.crypto f.key f.flbas f.dps
  let s := { s with adm := { s.adm with formats := s.adm.formats.filter (fun x => x.nsid != f.nsid) } }
  match f.tag with
  | some t => answerTwin s t .success 0
  | none => completeFor s f.func f.cid .success

/-- The switch of a Format (R403 step 3): at once, or for a mirrored namespace in Service once the twin has acknowledged its record. -/
def formatSwitch (s : State) (f : Fmt) : State :=
  match nsOf s f.nsid with
  | none => { s with adm := { s.adm with formats := s.adm.formats.filter (fun x => x.nsid != f.nsid) } }
  | some n =>
    let s := nsRecord s f.nsid 3 (eraseArg f.crypto f.flbas f.dps) f.key true
    if n.mirrored && s.md.mode == .service then s else endFormat s f

/-- Namespace change records the twin has acknowledged: the switches they carry are made. -/
def nsSettled (s : State) (q : Nat) : State :=
  match KV.find s.jr.recs q with
  | none => s
  | some r =>
    if r.typ ≠ 0x11 ∨ r.action ≠ 3 ∨ !r.acked then s
    else (s.adm.formats.filter (fun f => f.nsid == r.nsid)).foldl endFormat s

/-- Formats of a namespace whose record waits for a twin that is lost: the owner makes the switch alone (R405). -/
def formatsAlone (s : State) : State :=
  (s.adm.formats.filter (fun f => (nsOf s f.nsid).any (fun n => n.erasing == some true && n.here))).foldl endFormat s

/-- A namespace this module sanitizes (R405): its own, and every mirrored one. -/
def sanitizes (n : Ns) : Bool := n.held

/-- The new keys of a Sanitize: one for each namespace in scope, those the twin carried taken as they are. -/
def sanitizeKeys (s : State) (carried : List (Nat × Nat)) : State × List (Nat × Nat) :=
  s.zn.ns.foldl (fun a p =>
    if !sanitizes p.2 then a
    else match carried.find? (fun c => c.1 == p.1) with
      | some c => (a.1, a.2 ++ [c])
      | none => ((drawKey a.1).2, a.2 ++ [(p.1, (drawKey a.1).1)])) (s, [])

/-- The switches of a Sanitize, and the sets a block erase still waits for: every zone, staging, metadata and landing set that holds anything (R402). -/
def sanitizeSwitch (s : State) : State :=
  let s := s.adm.sanitize.keys.foldl (fun s k =>
    match nsOf s k.1 with
    | some n => nsRecord (switchErase s k.1 true k.2 n.flbas n.dps) k.1 4 0 0 false
    | none => s) s
  let left := if s.adm.sanitize.block then
      (s.media.sets.filter (fun b => b.2.role != .system && b.2.role != .reference && b.2.role != .retired && b.2.state != .free)).map (fun b => b.1)
    else []
  let s := left.foldl toErase s
  let s := if s.adm.sanitize.block then
      { s with
        media := { s.media with
          stagingDir := [], rows := []
          groups := KV.mapVals s.media.groups (fun _ g => { g with rowUnits := [], rowSeqs := [], rowAt := none }) }
        zn := { s.zn with ns := KV.mapVals s.zn.ns (fun _ n => if n.held && !left.isEmpty then { n with erasing := some true, sanitizing := true } else n) } }
    else s
  { s with adm := { s.adm with sanitize := { s.adm.sanitize with running := !left.isEmpty, pending := false, keys := [], setsLeft := left } } }

/-! ### Admin commands carried to the twin (R315) -/

/-- Send an admin command to the twin and wait for its answer before it completes. -/
def carryAdmin (s : State) (w : AdminWait) (body : List Nat) : State :=
  let t := s.tw.tagCtr
  send { s with tw := { s.tw with tagCtr := (t + 1) % 2^31, adminWait := s.tw.adminWait ++ [{ w with tag := t }] } } 0x0C t body

/-- Complete an admin command here, or in Service once the twin has carried it out too. -/
def doneOnBoth (s : State) (e : Sqe) (kind dw0 nsid arg : Nat) (body : List Nat) : State :=
  if s.md.mode = .service then carryAdmin s { tag := 0, func := ownerOf s e.func, cid := e.cid, kind := kind, dw0 := dw0, nsid := nsid, arg := arg } body
  else adminDone s e .success dw0

/-- The module zone numbers of a namespace becoming mirrored (R255): its own where the twin has them free, else new ones. -/
def mirroredNumbers (s : State) (n : Ns) : Option (List Nat) :=
  if n.znums.all (fun z => !(zoneNumbers s true).contains z) then some n.znums
  else
    let nums := newNumbers s true n.zoneCount
    if nums.length = n.zoneCount then some nums else none

/-- Give a namespace new module zone numbers (R255): one zone change record each, ACTION 09h; a zone with pages keeps its old number beside the new one until its next reset. -/
def renumber (s : State) (nsid : Nat) (nums : List Nat) : State :=
  match nsOf s nsid with
  | none => s
  | some n =>
    if n.znums = nums then s
    else
      let s := setNs s nsid (fun n => { n with znums := nums })
      (List.range nums.length).foldl (fun s i => if nth n.znums i = nth nums i then s
        else
          let s := if (n.zone i).group.isNone then s else setZone s nsid i (fun z => { z with oldNum := some (z.oldNum.getD (nth n.znums i)) })
          (formRecord s mgmtCore { typ := 0x10, nsid := nsid, zidx := i, zone := nth nums i, action := 9, arg := nth nums i, durable := true, completed := true }).1) s

/-- Give up a namespace's copy (R256): its zones and their slots, its block sets to the erase queue, its keys. -/
def releaseNs (s : State) (nsid : Nat) : State :=
  match nsOf s nsid with
  | none => s
  | some n =>
    let s := n.slots.foldl zeroizeSlot (eraseNsSets (dropMeta (dropNsWork s nsid) nsid) nsid)
    setNs s nsid (fun n => { n with zones := [], slots := [], levelled := [], logUsed := [0, 0, 0, 0], merging := false, resyncPending := false })

/-- A key as it leaves the key store (R385): wrapped under the pair wrap key of the present phase, whose 256 bits of identity stand beside the key's own; 0 where there is no key. -/
def wrapped (s : State) (key : Nat) : Nat := if key = 0 then 0 else key * 2^256 + s.keys.wrapKeys.headD 0 % 2^256

/-- Unwrap a key received (R385): only under a pair wrap key that this module holds, so never one of an earlier session. -/
def unwrapped (s : State) (w : Nat) : Option Nat :=
  if w = 0 then some 0 else if s.keys.wrapKeys.any (fun k => w % 2^256 == k % 2^256) || (s.keys.wrapKeys.isEmpty && w % 2^256 == 0) then some (w / 2^256) else none

/-- The keys of a namespace as a message carries them: wrapped key and tenant of each slot. -/
def slotPairs (s : State) (n : Ns) : List Nat := n.slots.flatMap (fun k => [wrapped s (slotKey s k), (KV.findD s.keys.slots k {}).tenant])

/-- The keys of such a list, with their tenants; none where one does not unwrap. -/
def unwrapPairs (s : State) : List Nat → Option (List (Nat × Nat))
  | a :: b :: l => (unwrapped s a).bind (fun k => (unwrapPairs s l).map (fun r => (k, b) :: r))
  | _ => some []

/-- Put keys received into data slots of this module (R385). -/
def takeKeys (s : State) (nsid : Nat) (pairs : List (Nat × Nat)) : State :=
  match nsOf s nsid with
  | none => s
  | some n =>
    let l := freeDataSlots s pairs.length
    let s := (l.zip pairs).foldl (fun s x =>
      if n.kpio = 0 then putGenerated s x.1 x.2.1
      else { s with keys := { s.keys with slots := KV.set s.keys.slots x.1 { cur := x.2.1, tenant := x.2.2, generated := false } } }) s
    setNs s nsid (fun n => { n with slots := l })

/-- Make a policy this module's (R250, R251, R254, R256): a namespace no longer held here is released. -/
def applyPolicy (s : State) (nsid : Nat) (mirrored : Bool) : State :=
  match nsOf s nsid with
  | none => s
  | some n =>
    let s := setNs (if !mirrored && !n.here then releaseNs s nsid else s) nsid (fun n => { n with mirrored := mirrored })
    noteNs (updateAna (nsRecord s nsid 5 (bit mirrored + 2 * bit n.here) 0 false)) nsid

/-- Undo a policy change that the twin refused (R97): the policy and the zone numbers are as they were. -/
def undoPolicy (s : State) (nsid : Nat) (old : Ns) : State := applyPolicy (renumber s nsid old.znums) nsid old.mirrored

/-- The generated key of a namespace. -/
def nsKey (s : State) (n : Ns) : Nat := slotKey s (nth n.slots 0)

/-! ### Reshapes as both modules carry them out (R252 to R256) -/

/-- End a carried command: its completion here, or its answer to the twin that asked. -/
def endAdmin (s : State) (w : AdminWait) (st : Status) (dw0 : Nat) : State :=
  if w.func = twinAsked then answerTwin s w.cid st dw0 else completeFor s w.func w.cid st dw0

/-- A Reshape's work has started (R252): its record in log C9h, whose number completes the command; one the twin asked for is answered. -/
def beginReshape (s : State) (w : AdminWait) (r : Reshape) (action : Nat) : State :=
  if w.func = twinAsked then
    answerTwin (setNs s w.nsid (fun n => { n with reshape := some { r with owner := twinAsked, tag := w.cid } })) w.cid .success 0
  else
    let z := newZop s { func := ownerFunc w.func, sqid := 0, cid := w.cid, nsid := w.nsid, action := action } r.remote
    let s := setNs s w.nsid (fun n => { n with reshape := some { r with owner := ownerFunc w.func, zopSeq := z.seq } })
    completeFor (keepZop s (ownerFunc w.func) z) w.func w.cid .success (z.seq % 2^32)

/-- The twin has placed the zones of a namespace becoming mirrored (R253, R255): the home takes the numbers settled and the Reshape starts. -/
def placedByTwin (s : State) (w : AdminWait) : State :=
  match (nsOf s w.nsid).bind (·.reshape) with
  | none => endAdmin s w .aborted 0
  | some r => beginReshape (renumber s w.nsid r.nums) w { r with remote := false, nums := [] } 7

/-- A Reshape the twin carries out has started there (`arg`: 0 to single, 1 to mirrored, 2 a group move). -/
def startedByTwin (s : State) (w : AdminWait) : State :=
  let r := ((nsOf s w.nsid).bind (·.reshape)).getD { move := w.arg == 2, toMirrored := w.arg == 1 }
  beginReshape s w { r with remote := true, tag := w.tag } (if w.arg = 2 then 6 else 7)

/-- The switch of a Reshape to mirrored (`arg` 1) or to single is made on both modules (R254, R256). -/
def reshapeSwitched (s : State) (w : AdminWait) : State := endReshape (applyPolicy s w.nsid (w.arg == 1)) w.nsid .success

/-! ### Key Per I/O (R388, R391) -/

/-- Data slots that an enabling takes beside the namespace's own, until the twin has answered. -/
def takeSlots (s : State) (nsid k : Nat) : State :=
  let l := freeDataSlots s k
  setNs { s with keys := { s.keys with slots := l.foldl (fun m i => KV.set m i { generated := false }) s.keys.slots } } nsid (fun n => { n with slots := n.slots ++ l })

/-- Give back what an enabling has taken. -/
def dropSlots (s : State) (nsid : Nat) : State :=
  match nsOf s nsid with
  | none => s
  | some n => setNs ((n.slots.drop 1).foldl zeroizeSlot s) nsid (fun n => { n with slots := n.slots.take 1 })

/-- Key Per I/O is enabled (R388): the generated key is zeroized, and the namespace holds the slots taken. -/
def enableKpio (s : State) (nsid k : Nat) : State :=
  let s := if (nsOf s nsid).any (fun n => n.held && n.slots.length != k + 1) then takeSlots (dropSlots s nsid) nsid k else s
  match nsOf s nsid with
  | none => s
  | some n => setNs ((n.slots.take 1).foldl zeroizeSlot s) nsid (fun n => { n with kpio := k, slots := n.slots.drop 1, keyLost := false })

/-- Give a namespace k empty slots for injected keys in place of what it held (R391). -/
def resetKpio (s : State) (nsid k : Nat) : State :=
  match nsOf s nsid with
  | none => s
  | some n =>
    let s := setNs (n.slots.foldl zeroizeSlot s) nsid (fun n => { n with kpio := k, slots := [], keyLost := false })
    if n.held then takeSlots s nsid k else s

/-- Key Per I/O is disabled (R388): every injected key is zeroized, and the namespace holds a generated key. -/
def disableKpio (s : State) (nsid key : Nat) : State :=
  match nsOf s nsid with
  | none => s
  | some n =>
    let s := n.slots.foldl zeroizeSlot s
    let l := if n.held then freeDataSlots s 1 else []
    setNs (l.foldl (fun s k => putGenerated s k key) s) nsid (fun n => { n with kpio := 0, slots := l })

/-- The twin has taken an injected key, or is lost (R391): it becomes current here, where the namespace is held. -/
def injectionAnswered (s : State) (w : AdminWait) (ok : Bool) : State :=
  if ok && (nsOf s w.nsid).any (fun n => n.held) then inject s { func := w.func, cid := w.cid, nsid := w.nsid, keyTag := w.arg, key := w.key, tenant := ownerFunc w.func }
  else endInjection s w.func w.cid (ok && s.md.mode == .service)

/-- The twin has enabled or disabled Key Per I/O, has refused to, or is lost. -/
def kpioAnswered (s : State) (w : AdminWait) (ok : Bool) (st : Status) : State :=
  if !ok then tcgFor (if w.arg = 0 then s else dropSlots s w.nsid) w.func w.cid (if st = .insufficientCapacity then 9 else 0x0C)
  else tcgFor (if w.arg = 0 then disableKpio s w.nsid w.key else enableKpio s w.nsid w.arg) w.func w.cid 0

/-- The twin's answer to a carried command, or its loss (`st` none): an Abort ends with the bit the twin gives, or set; a create is made here once the twin has made it; a policy change or a Reshape the twin refused is undone; an erasure makes its switch; a transfer or a Reshape that the loss cuts does not start (R258, R318); the others complete. -/
def adminAnswer (s : State) (w : AdminWait) (st : Option (Nat × Status)) (dw0 : Nat) : State :=
  let lost := st.isNone
  let status := (st.map (fun x => x.2)).getD .success
  match w.kind with
  | 0 => endAdmin s w .success (if lost then 1 else dw0)
  | 2 => if status = .success then endAdmin (w.ns.elim s (fun n => updateAna (createNs s w.nsid n w.key))) w .success w.dw0
    else endAdmin s w status 0
  | 3 => (s.adm.formats.filter (fun f => f.nsid == w.nsid)).foldl formatSwitch s
  | 4 => if status = .success then endAdmin s w .success 0
    else endAdmin (w.ns.elim s (fun n => undoPolicy s w.nsid n)) w status 0
  | 5 => if lost then endAdmin (setNs s w.nsid (fun n => { n with reshape := none })) w .c4 s.md.mode.code
    else if status = .success then placedByTwin s w
    else endAdmin (setNs s w.nsid (fun n => { n with reshape := none })) w status 0
  | 7 => endAdmin (setNs s w.nsid (fun n => { n with erasing := none })) w (if lost then .anaInaccessible else status) dw0
  | 6 => injectionAnswered s w (lost || status == .success)
  | 13 => kpioAnswered s w (lost || status == .success) status
  | 8 => endAdmin (sanitizeSwitch s) w .success 0
  | 9 => if lost then endAdmin s w .anaInaccessible 0 else endAdmin s w status dw0
  | 10 => if lost then endAdmin s w .c4 s.md.mode.code else if status = .success then startedByTwin s w else endAdmin s w status dw0
  | 12 => s
  | 11 => if lost then s else if status = .success then reshapeSwitched s w else endReshape s w.nsid status
  | _ => endAdmin s w status w.dw0

end Sys2Proof.Machine
end

