-- ==== Sys2Proof/Machine/Modes.lean ====
section
/-! DEFINITION. The hold-up bank's energy and the hold-up test, and what a change of mode brings with it (R277, R278, R331 to R337, R378, R430, R304). -/

namespace Sys2Proof.Machine

/-! ### Energy of the bank (R331, R277, R278) -/

/-- U of R331 in units of 0.01 J, rounded down: C in µF, ESR in mΩ, from a voltage in mV to the floor of 36 V plus 1.0 A × ESR. -/
def energyCj (capUf esr mv : Nat) : Nat :=
  let f := 36000 + esr
  if mv ≤ f then 0 else capUf * (mv * mv - f * f) / 20000000000

/-- U in units of 0.1 J, rounded down. -/
def energyDj (capUf esr mv : Nat) : Nat := energyCj capUf esr mv / 10

/-- Set V from the usable energy (R277): write-through rises at no size and falls with one (Table 2.5); the relief of R273 acts on the new size. -/
def sizeJournal (s : State) : State :=
  let v := sizeFor s.sup.usableDj
  let s := setFlags { s with sup := { s.sup with vigil := v } } (fun m => { m with writeThrough := v == 0 })
  refreshCrit (checkRelief s)

/-- Take a usable energy and size the journal by it. -/
def setUsable (s : State) (dj : Nat) : State := sizeJournal { s with sup := { s.sup with usableDj := dj } }

/-! ### The hold-up test (R333 to R337) -/

/-- The 64 bytes of a hold-up test result (Table 11.3). -/
def holdBytes (r : HoldResult) : List Nat :=
  [1, r.result, 0, 0] ++ leBytes 4 r.capUf ++ leBytes 2 r.esrMohm ++ leBytes 2 r.vStart ++ leBytes 2 r.vStop ++ [0, 0]
    ++ leBytes 4 r.tDis ++ leBytes 2 r.usableCj ++ leBytes 2 r.needCj ++ [r.vigilBefore + 16 * r.vigilAfter, r.bankTemp, 0, 0]
    ++ leBytes 4 r.boot ++ leBytes 8 r.at_ ++ leBytes 4 r.tests ++ leBytes 4 r.capFirst ++ List.replicate 16 0

/-- End a test for the commands that wait for it (R337), and record it (0042h). -/
def endTest (s : State) (r : HoldResult) : State :=
  let w := s.sup.testWaiters
  let s := record { s with sup := { s.sup with testWaiters := [] } } 0x42 (holdBytes r)
  w.foldl (fun s x => completeFor s x.1 x.2.2 .success 0 (holdBytes r)) s

/-- Abandon a test (R335): the charger is on again; C, ESR, U and V are as before the test, also where it had measured them. -/
def abandonTest (s : State) : State :=
  if s.sup.test = .idle || s.sup.test = .waiting && s.sup.testWaiters.isEmpty then s
  else
    let s := if s.sup.test = .recharging then
        setUsable { s with sup := { s.sup with measured := s.sup.pendCap != 0, capUf := s.sup.pendCap, esrMohm := s.sup.pendEsr } } (energyDj s.sup.pendCap s.sup.pendEsr 70000)
      else s
    let last := s.sup.lastResult
    let r : HoldResult := { result := 2, bankTemp := (hottest s.th.bank.now).toNat, boot := s.boot.boot, at_ := s.time.dtb, tests := last.tests, capFirst := last.capFirst }
    endTest { s with sup := { s.sup with test := .idle, charger := true } } r

/-- Start a test (R334 step 1). -/
def startTest (s : State) : State :=
  { s with sup := { s.sup with test := .falling, charger := false, testVigil := s.sup.vigil } }

/-- The conditions of R333. -/
def testAllowed (s : State) : Bool :=
  (s.md.mode == .service || s.md.mode == .solo) && 69500 ≤ s.sup.bankMv && !anyWarn s

/-- Start a test that is due or asked for, at the first instant R333 allows. -/
def tryTest (s : State) : State := if s.sup.test = .waiting ∧ testAllowed s then startTest s else s

/-! ### Changes of mode -/

/-- The image of a slot. -/
def slotImage (s : State) (k : Nat) : Option Image := if k = 1 then s.boot.slot1 else if k = 2 then s.boot.slot2 else none

/-- The image running. -/
def running (s : State) : Option Image := slotImage s s.boot.slotRun

/-- Raise the minimum SVN at the first entry into Service or Solo (R378). -/
def raiseSvn (s : State) : State :=
  let svn := ((running s).map (fun i => i.svn)).getD 0
  let ok := s.boot.verdict == some 0 || s.boot.verdict == some 1
  { s with boot := { s.boot with minSvnDone := true, minSvn := if !s.boot.minSvnDone && ok then max s.boot.minSvn svn else s.boot.minSvn } }

/-- The modes in which the module serves commands as a member of a pair or alone. -/
def Mode.operates (m : Mode) : Bool := m == .service || m == .solo

/-- Group moves are abandoned when the module leaves both Service and Solo, but for a Harvest or a Measure entry, after which they resume (R258). -/
def dropMoves (s : State) (m : Mode) : State :=
  if m == .harvest || m == .measure then s
  else s.zn.ns.foldl (fun s p => if p.2.reshape.any (fun r => r.move) then endReshape s p.1 .c4 else s) s

/-- Change the mode with all that follows: a test is abandoned on leaving Service or Solo (R335), at a Harvest without a completion (R54), the sense level (R304), the minimum SVN (R378), the point the signing counts from (R368), a due test. -/
def toMode (s : State) (m : Mode) (qcause : Nat := 0) (serving : Bool := false) : State :=
  let leaves := s.md.mode.operates && !m.operates
  let s := if leaves then dropMoves (if m = .harvest then s else abandonTest s) m else s
  let s := enterMode s m qcause serving
  let s := if leaves && m == .harvest then abandonTest s else s
  let s := { s with
    boot := { s.boot with firstReady := if s.boot.firstReady.isNone && (m.operates || m == .quarantine) then some s.time.dtb else s.boot.firstReady }
    tw := { s.tw with senseOut := m != .harvest && m != .quarantine } }
  if m.operates then tryTest (raiseSvn s) else s

/-- A Holiday entry under way is abandoned for a higher trigger (R46, 0012h): Set Features completes successfully, except in a Harvest, and Power Management reads the state held before. -/
def abandonEntry (s : State) (trigger : Mode) : State :=
  if s.md.ps4.isNone && !s.md.entering then s
  else
    let w := s.md.ps4
    let s := record { s with
      md := { s.md with ps4 := none, entering := false, adminWake := false }
      tw := { s.tw with departing := none, departSent := false }
      pw := { s.pw with sel := if s.pw.sel = 4 then s.md.selBefore else s.pw.sel } } 0x12 [trigger.code]
    if trigger = .harvest then s else w.elim s (fun x => completeFor s x.1 x.2 .success)

/-- An accepted command that cannot finish ends with Asymmetric Access Transition (R54). -/
def endTransition (s : State) : State :=
  s.port.cmds.foldl (fun s p => if p.2.fromTwin then dropCmd s p.1 else finish s p.1 .anaTransition) s

/-- The epoch of a mirrored namespace's separation (R313). -/
def Ns.separated (n : Ns) (epoch : Nat) : Ns := if n.mirrored then { n with sepPepoch := epoch } else n

/-- The pair is lost by this module's own Harvest or Quarantine: the link is down, the separation's epoch is kept, and the resync ends (R47, R313). -/
def leavePair (s : State) : State :=
  if !s.tw.paired then s
  else setFlags { s with
    zn := { s.zn with ns := KV.mapVals s.zn.ns (fun _ n => n.separated s.jr.pepoch.toNat) }
    tw := { s.tw with paired := false, linkUp := false, departing := none, departSent := false, work := [], frames := [] } } (fun m => { m with resyncing := false })

/-- Enter Quarantine (R39, R40, R54, R306, R430): a second cause is only recorded; causes 4 and 5 end open commands, raise Persistent Internal Error and take a capture; the twin in Service is told. -/
def toQuarantine (s : State) (cause : Nat) : State :=
  if s.md.mode = .quarantine then record s 0x13 [s.md.qcause, cause]
  else
    let s := abandonEntry s .quarantine
    let s := if s.md.mode = .service && s.tw.paired then send s 0x09 0 [2] else s
    let s := if cause = 4 ∨ cause = 5 then endTransition s else s
    let s := leavePair (toMode s .quarantine cause)
    if cause = 4 ∨ cause = 5 then capture (raiseAll s 0 3 1) 0x10 else s

end Sys2Proof.Machine
end

