-- ==== Sys2Proof/Machine/Twin.lean ====
section
/-! DEFINITION. Loss of the twin and departures: what each namespace becomes, and what ends (R263, R281 to R283, R313, R318 to R320, Table 10.15). -/

namespace Sys2Proof.Machine

/-- PEPOCH advances (R263). -/
def nextEpoch (s : State) : State := { s with jr := { s.jr with pepoch := s.jr.pepoch + 1 } }

/-- The module is separated from its twin (R313): the link is down and the session's keys go, the epoch is kept, delegated allotments and standing claims return (R146, R317), the resync ends (Table 2.5), log C3h shows the kind. -/
def separate (s : State) (kind : Nat) : State :=
  let e := s.jr.pepoch.toNat
  let s := { s with
    zn := { s.zn with ns := KV.mapVals s.zn.ns (fun _ n => n.separated e) }
    cal := { s.cal with grantsIn := [], grantsOut := [], viaTwin := [], claims := s.cal.claims.filter (fun c => c.kind != .standing) }
    jr := { s.jr with credit := [], twinDrain := [], told := [] }
    tw := { s.tw with lossKind := kind, lossAt := s.time.dtb, lossBoot := s.boot.boot, paired := false, peerAt := none, departing := none
                      linkUp := false, lostPending := false, trainStep := 0, spdmVer := 0, counters := [0, 0, 0, 0], rxPhase := [false, false]
                      transfer := none, resyncTotal := 0, resyncDone := 0, resyncStart := 0, work := [], frames := [], firstMirror := [], keptAborts := [] }
    keys := { s.keys with linkKeys := [], linkSalts := [], wrapKeys := [] } }
  setFlags s (fun m => { m with resyncing := false })

/-- A mirrored namespace taken over or taken (R313, R318): owned here, CONT where a rule sets it. -/
def takeNs (s : State) (nsid : Nat) (cont : Bool) : State :=
  setNs s nsid (fun n => { n with here := true, cont := n.cont || cont, fenced := false, offered := false })

/-- Every record of a namespace that waits for the twin counts as acknowledged (R281). -/
def ackAll (s : State) (nsid : Nat) : State :=
  (s.jr.recs.filter (fun p => p.2.nsid == nsid && p.2.mirrored && !p.2.acked)).foldl
    (fun s p => recordSettled (setRec s p.1 (fun r => { r with acked := true })) p.1) s

/-- A forwarded command whose mirror record is held here (R117, R282): the record. -/
def heldRecord (s : State) (c : Cmd) : Option (Nat × VRec) :=
  s.jr.recs.find? (fun p => p.2.copy && p.2.forwarded && p.2.nsid == c.nsid && p.2.func == c.func && p.2.nlb == c.nlb
    && p.2.data == c.data && (c.op == .append || p.2.slba == c.slba) && [IoOp.write, .writeZeroes, .append].contains c.op)

/-- A forwarded command of a namespace taken over is carried out here (R117, R123, R282). -/
def takeOverCmd (s : State) (slot : Nat) (c : Cmd) : State :=
  match heldRecord s c with
  | some (q, r) =>
    let s := setRec s q (fun r => { r with forwarded := false })
    if c.op = .append then finish s slot .success (r.slba % 2^32) (r.slba / 2^32) else finish s slot .success
  | none => carryOut s slot (cmdIo c) (c.zop != 0)

/-- A forwarded command ends with Asymmetric Access Inaccessible (R283, R319); a multi-zone record is closed UNCONFIRMED (R123). -/
def endForwarded (s : State) (slot : Nat) (c : Cmd) : State :=
  let s := if c.zop = 0 then s
    else setZop s c.func c.zop (fun z => { z with unconfirmed := true, done := true, finish := s.time.dtb, status := some .anaInaccessible })
  finish s slot .anaInaccessible (c.zop % 2^32)

/-- The forwarded commands of a namespace. -/
def forwardedOf (s : State) (nsid : Nat) : List (Nat × Cmd) := s.port.cmds.filter (fun p => p.2.fwd && p.2.nsid == nsid)

/-- What a loss decision does with one namespace (Table 10.15). -/
def loseNs (s : State) (nsid : Nat) (n : Ns) (dead : Bool) : State :=
  if n.here then ackAll (setNs s nsid (fun n => { n with offered := false })) nsid
  else if n.mirrored && dead then
    let s := takeNs (releaseAllHeld s nsid) nsid false
    (forwardedOf s nsid).foldl (fun s p => takeOverCmd s p.1 p.2) s
  else
    let s := if n.mirrored then setNs s nsid (fun n => { n with fenced := true, offered := false }) else s
    (forwardedOf s nsid).foldl (fun s p => endForwarded s p.1 p.2) s

/-- Commands carried out here for the twin go on as R63 has it; nobody is told. -/
def endForTwin (s : State) : State :=
  (s.port.cmds.filter (fun p => p.2.fromTwin)).foldl (fun s p => disposeCmd s p.1) s

/-- Admin commands that wait for the twin end (R315, R316): an Abort with DW0 bit 0 set, the others as carried out here; a transfer with Asymmetric Access Inaccessible (R318). -/
def endAdminWait (s : State) : State :=
  let w := s.tw.adminWait
  let t := s.tw.transferCmd
  let s := { s with tw := { s.tw with adminWait := [], transfer := none, transferCmd := none } }
  let s := formatsAlone (w.foldl (fun s x => adminAnswer s x none 0) s)
  t.elim s (fun x => completeFor s x.1 x.2.2 .anaInaccessible)

/-- Fetches of the twin that can no longer be answered: the LBAs are listed as repairable, and the reads end with them lost (R241). -/
def endFetches (s : State) : State :=
  let w := s.tw.fetches
  w.foldl (fun s x =>
    let s := listLost s x.2.2.1 x.2.2.2.1 x.2.2.2.2 1 0x3F true
    if x.2.1 = 65536 then s else endTwinRead (setCmd s x.2.1 (fun c => { c with result := .unrecoveredRead })) x.2.1)
    { s with tw := { s.tw with fetches := [] } }

/-- Abandon a Reshape (R258): one not started leaves no record; a copy half made is released. -/
def abandonReshape (s : State) (nsid : Nat) (st : Status) : State :=
  match nsOf s nsid with
  | none => s
  | some n =>
    let s := if n.here && n.reshape.any (fun r => r.toMirrored && r.remote) then setNs s nsid (fun n => { n with reshape := none }) else endReshape s nsid st
    if !n.here && !n.mirrored && n.becoming then releaseNs s nsid else s

/-- A twin-policy change is abandoned when the module leaves Service (R258); so is what this module hears of a group move that the twin carries out. -/
def dropPolicyChanges (s : State) : State :=
  s.zn.ns.foldl (fun s p => if p.2.reshape.any (fun r => !r.movesHere) then abandonReshape s p.1 .c4 else s) s

/-- Solo, unless the thermal shut-down sequence is under way, whose Quarantine goes before it (R46): the mode then stays until that entry (DEDUCED, log 118). -/
def toSolo (s : State) : State := if s.th.shut = 0 then toMode s .solo else s

/-- A loss decision in Service (R306, R319): Solo, the next PEPOCH, each namespace as Table 10.15 gives, every command that waited for the twin ended. -/
def loseTwin (s : State) (kind : Nat) : State :=
  let dead := kind != 2
  let s := separate (abandonEntry s .solo) kind
  let s := if dead then { s with tw := { s.tw with losses := min (s.tw.losses + 1) (2^32 - 1) } }
    else { s with tw := { s.tw with linkFaults := min (s.tw.linkFaults + 1) (2^32 - 1) } }
  let s := record s 0x60 [kind, s.jr.pepoch.toNat]
  let s := toSolo (nextEpoch s)
  let s := dropPolicyChanges s
  let s := s.zn.ns.foldl (fun s p => loseNs s p.1 p.2 dead) s
  let s := endFetches (endAdminWait (endForTwin s))
  raiseAll (updateAna s) 7 0xC3 0xC3

/-! ### Departures (R318) -/

/-- A mirrored record still waits for the twin's acknowledgement. -/
def unacked (s : State) : Bool := s.jr.recs.any (fun p => p.2.mirrored && !p.2.copy && !p.2.acked)

/-- Send the departure once every record sent is acknowledged (R318): action 03h with the next PEPOCH. -/
def tryDepart (s : State) : State :=
  match s.tw.departing with
  | some kind => if unacked s || s.tw.departSent then s
    else send { s with tw := { s.tw with departSent := true } } 0x08 0 [kind, 3, s.jr.seq - 1, s.jr.pepoch.toNat + 1]
  | none => s

/-- Begin a departure of a kind (log C3h: 05h Holiday, 06h activation, 07h unpair; 04h before the thermal Quarantine). -/
def beginDeparture (s : State) (kind : Nat) : State :=
  tryDepart { s with tw := { s.tw with departing := some kind, departSent := false } }

/-- The twin has taken the departure: every mirrored namespace owned here is the twin's, fenced here (R376), the new PEPOCH is taken, and what still waited for the twin ends as R319 has it. -/
def departed (s : State) (kind : Nat) : State :=
  let s := dropPolicyChanges (separate s kind)
  let s := { s with zn := { s.zn with ns := KV.mapVals s.zn.ns (fun _ n =>
    if n.mirrored then { n with here := false, fenced := true } else n) } }
  let s := (s.port.cmds.filter (fun p => p.2.fwd)).foldl (fun s p => endForwarded s p.1 p.2) s
  let s := endFetches (endAdminWait (endForTwin s))
  raiseAll (updateAna (nextEpoch s)) 7 0xC3 0xC3

/-- The twin departs (R318): this module takes every mirrored namespace with CONT, answers, and enters Solo under the new PEPOCH. -/
def takeDeparture (s : State) (kind epoch : Nat) : State :=
  let s := send s 0x08 0 [kind, 4, s.jr.seq - 1, epoch]
  let mine := (s.zn.ns.filter (fun p => p.2.mirrored && !p.2.here)).map (fun p => p.1)
  let s := separate s kind
  let s := { s with jr := { s.jr with pepoch := BitVec.ofNat 32 epoch }, tw := { s.tw with twinDeparted := kind == 5 } }
  let s := dropPolicyChanges (toSolo (record s 0x60 [kind, s.jr.pepoch.toNat]))
  let s := mine.foldl (fun s nsid =>
    let s := takeNs (releaseAllHeld s nsid) nsid true
    (forwardedOf s nsid).foldl (fun s p => takeOverCmd s p.1 p.2) s) s
  let s := (s.zn.ns.filter (fun p => p.2.mirrored && !mine.contains p.1)).foldl (fun s p => ackAll s p.1) s
  let s := (s.port.cmds.filter (fun p => p.2.fwd)).foldl (fun s p => endForwarded s p.1 p.2) s
  let s := endFetches (endAdminWait (endForTwin s))
  raiseAll (updateAna s) 7 0xC3 0xC3

end Sys2Proof.Machine
end

