-- ==== Sys2Proof/Machine/Reshape.lean ====
section
/-! DEFINITION. The Reshape command and the transfer of ownership (R252 to R258, R318), and the period boundary. -/

namespace Sys2Proof.Machine

/-! ### Transfer of ownership (R318) -/

/-- The twin has not acknowledged every record of a namespace. -/
def unackedOf (s : State) (nsid : Nat) : Bool := s.jr.recs.any (fun p => p.2.nsid == nsid && p.2.mirrored && !p.2.copy && !p.2.acked)

/-- The next transfer a Reshape to single on the twin waits for (R256). -/
def wantedTransfer (s : State) : Option Nat :=
  (s.zn.ns.find? (fun p => p.2.mirrored && p.2.here && p.2.reshape.any (fun r => !r.move && !r.toMirrored && r.homeTwin && !r.remote))).map (fun p => p.1)

/-- Begin a transfer: the owner forms no more records of the namespace (R318 step 1). -/
def startTransfer (s : State) (nsid : Nat) : State :=
  setNs { s with tw := { s.tw with transfer := some nsid } } nsid (fun n => { n with offered := true })

/-- Offer a namespace once every record of it is acknowledged (R318): action 01h, the last OSEQ, the next PEPOCH; from then on this module does not own it. -/
def offer (s : State) (nsid : Nat) : State :=
  if (nsOf s nsid).any (fun n => n.here) && !unackedOf s nsid then
    setNs (send s 0x08 0 [nsid, 1, s.jr.seq - 1, s.jr.pepoch.toNat + 1]) nsid (fun n => { n with here := false })
  else s

/-- Take the transfers on. -/
def tryOffer (s : State) : State :=
  if s.md.mode ≠ .service then s
  else match s.tw.transfer with
    | some nsid => offer s nsid
    | none => match wantedTransfer s with
      | some nsid => offer (startTransfer s nsid) nsid
      | none => s

/-! ### Reshape (R252, R253) -/

/-- Reshapes that run on this module. -/
def reshapesHere (s : State) : Nat := s.zn.ns.countP (fun p => p.2.reshape.any (fun r => !r.remote || r.owner == twinAsked))

/-- Steps 3 and 4 of R253 for a twin-policy change or a group move, under the flags `m` in force at the command's stamp (R54). -/
def reshapeRefusal (s : State) (m : ModeSt) (n : Ns) (move mirrored : Bool) : Option Status :=
  if m.rebuilding || (!move && m.resyncing) then some .c7
  else if n.reshape.isSome || 4 ≤ reshapesHere s || (!move && n.mirrored == mirrored) then some .sequenceError
  else none

/-- What the twin needs to place the zones of a namespace becoming mirrored (R253): its keys, its zone numbers, every non-Empty zone with its extension and state. -/
def reshapeBody (s : State) (nsid : Nat) (n : Ns) (nums : List Nat) : List Nat :=
  let zs := n.zones.filter (fun z => z.2.st != .empty)
  [0xC2, nsid, 0, n.slots.length, nums.length] ++ slotPairs s n ++ nums
    ++ zs.flatMap (fun z => [z.1] ++ z.2.ext.fields ++ [z.2.cap, z.2.activeFunc.elim 0 (fun f => f + 1), z.2.st.code])

/-- A Reshape to mirrored on the home (R253, R255): the zone numbers, then the twin places the zones. -/
def reshapeToMirrored (s : State) (w : AdminWait) (n : Ns) : State :=
  match mirroredNumbers s n with
  | none => endAdmin s w .insufficientCapacity 0
  | some nums =>
    let s := setNs s w.nsid (fun n => { n with reshape := some { move := false, toMirrored := true, remote := true, nums := nums } })
    carryAdmin s { w with kind := 5 } (reshapeBody s w.nsid n nums)

/-- A Reshape to single on the owner (R256): ownership moves first where the twin is to be the home; then both modules make the switch. -/
def reshapeToSingle (s : State) (w : AdminWait) (homeTwin : Bool) : State :=
  let s := beginReshape s w { move := false, homeTwin := homeTwin } 7
  if homeTwin then tryOffer s
  else carryAdmin s { tag := 0, func := twinAsked, cid := 0, kind := 11, nsid := w.nsid, arg := 0 } [9, w.nsid, 0, 0, 0]

/-- A twin-policy change judged and started on the module that is the home or the owner. -/
def reshapeHere (s : State) (w : AdminWait) (n : Ns) (mirrored homeTwin : Bool) : State :=
  if mirrored then reshapeToMirrored s w n else reshapeToSingle s w homeTwin

/-- Invalid fields of every Reshape (R253 step 1). -/
def reshapeField (s : State) (e : Sqe) (action : Nat) : Option Status :=
  if fld e.cdw10 0 4 ≠ action ∨ fld e.cdw10 4 4 ≠ 0 ∨ fld e.cdw10 10 22 ≠ 0 ∨ fld e.cdw14 8 24 ≠ 0 ∨ (nsOf s e.nsid).isNone then some .invalidField
  else none

/-- RESHAPE_TWIN_POLICY (R252 to R256). -/
def execReshapeTwinPolicy (e : Sqe) (s : State) : Host.Outcome State Fault Refusal :=
  let mirrored := e.cdw10.getLsbD 8
  let home := e.cdw10.getLsbD 9
  adminCmdAt e s true .reshapePolicy (fun s => reshapeField s e 0) (fun stamp s =>
    match nsOf s e.nsid with
    | none => s
    | some n =>
      match reshapeRefusal s (modeAt s stamp) n false mirrored with
      | some st => adminDone s e st
      | none =>
        let w : AdminWait := { tag := 0, func := ownerOf s e.func, cid := e.cid, nsid := e.nsid }
        if n.here then reshapeHere s w n mirrored home
        else carryAdmin s { w with kind := 10, arg := bit mirrored } [0xC2, e.nsid, 3, bit mirrored, bit (!home)])

/-- The first and the last zone of a group move, and its mask. -/
def moveFirst (e : Sqe) : Nat := e.cdw11.toNat
def moveLast (e : Sqe) (n : Ns) : Nat := if e.cdw12 = 0 then n.zoneCount - 1 else e.cdw11.toNat + e.cdw12.toNat - 1
def moveMask (e : Sqe) : Nat := e.cdw13.toNat + 2^32 * fld e.cdw14 0 8

/-- Start a group move on this module. -/
def startMove (s : State) (w : AdminWait) (first last mask : Nat) : State :=
  moveOn moveFuel (beginReshape s w { move := true, next := first, last := last, affinity := mask } 6) w.nsid

/-- RESHAPE_GROUP_MOVE (R252, R253, R257): of a single namespace homed on the twin it is carried out there. -/
def execReshapeGroupMove (e : Sqe) (s : State) : Host.Outcome State Fault Refusal :=
  adminCmdAt e s true .reshapeMove
    (fun s => match reshapeField s e 1 with
      | some st => some st
      | none => match nsOf s e.nsid with
        | none => some .invalidField
        | some n => if !n.zoned ∨ n.zoneCount ≤ moveFirst e ∨ n.zoneCount ≤ moveLast e n ∨ 2 ^ s.part.groups ≤ moveMask e then some .invalidField else none)
    (fun stamp s =>
      match nsOf s e.nsid with
      | none => s
      | some n =>
        match reshapeRefusal s (modeAt s stamp) n true false with
        | some st => adminDone s e st
        | none =>
          let w : AdminWait := { tag := 0, func := ownerOf s e.func, cid := e.cid, nsid := e.nsid }
          if n.mirrored || n.here then startMove s w (moveFirst e) (moveLast e n) (moveMask e)
          else if s.md.mode ≠ .service then adminDone s e .anaInaccessible
          else carryAdmin s { w with kind := 10, arg := 2 } [0xC2, e.nsid, 1, moveFirst e, moveLast e n, moveMask e])

/-! ### Cancel (R258) -/

/-- A switch of a Reshape waits for the twin. -/
def switching (s : State) (nsid : Nat) : Bool := s.tw.adminWait.any (fun w => w.kind == 11 && w.nsid == nsid)

/-- Cancel what this module carries out: a group move ends with the zone in progress; a policy change not switched ends at once, and the twin gives its copy up. -/
def cancelHere (s : State) (nsid : Nat) (r : Reshape) : State :=
  if r.move then (if s.media.copies.any (fun c => c.kind == .move && c.nsid == nsid) then s else endReshape s nsid .aborted)
  else if switching s nsid || s.tw.transfer == some nsid then s
  else
    let s := if r.toMirrored then send s 0x0C 0 [0xC2, nsid, 4] else s
    endReshape s nsid .aborted

/-- RESHAPE_CANCEL (R252, R253, R258). -/
def execReshapeCancel (e : Sqe) (s : State) : Host.Outcome State Fault Refusal :=
  adminCmd e s true .reshapeCancel (fun s => reshapeField s e 2) (fun s =>
    match nsOf s e.nsid with
    | none => s
    | some n =>
      match n.reshape with
      | none => adminDone s e .sequenceError
      | some r =>
        if r.cancelled || (r.remote && n.here && r.toMirrored) then adminDone s e .sequenceError
        else if r.remote && r.owner != twinAsked || (r.toMirrored && !n.here) then
          carryAdmin s { tag := 0, func := ownerOf s e.func, cid := e.cid, kind := 1, nsid := e.nsid } [0xC2, e.nsid, 2]
        else
          let r := { r with cancelCid := some (ownerOf s e.func, e.cid) }
          cancelHere (setNs s e.nsid (fun n => { n with reshape := some r })) e.nsid r)

/-! ### The switch to mirrored and the period boundary -/

/-- Every unit of a Reshape to mirrored is copied and confirmed: the switch is made (R254 step 4). -/
def switchReshapes (s : State) : State :=
  s.zn.ns.foldl (fun s p =>
    if p.2.here && p.2.reshape.any (fun r => r.toMirrored && r.mirroring) && !s.tw.work.any (fun w => w.reshape && w.nsid == p.1)
        && !s.tw.frames.any (fun w => w.reshape && w.nsid == p.1) && !switching s p.1 then
      carryAdmin s { tag := 0, func := twinAsked, cid := 0, kind := 11, nsid := p.1, arg := 1 } [9, p.1, 1, 0, 0]
    else s) s

/-- PERIOD_BOUNDARY (R157). -/
def execPeriodBoundary (s : State) : Host.Outcome State Fault Refusal := .next (switchReshapes (periodBoundary s))

end Sys2Proof.Machine
end

