-- ==== Sys2Proof/Machine/PairControl.lean ====
section
/-! DEFINITION. Pair Control (R324, Tables 10.18 and 10.19), and the end of a pair. -/

namespace Sys2Proof.Machine

/-- ACTION of the entry is that of the command (Table 10.18). -/
def pairField (e : Sqe) (action : Nat) (_ : State) : Option Status := if fld e.cdw10 0 4 ≠ action then some .invalidField else none

/-- PAIR_CONTROL_JOIN: no change in Service; in Solo the unpaired state, the link lock and the hold after a refusal clear, and a twin in Holiday is sent a wake request (R304, R309). -/
def execPairControlJoin (e : Sqe) (s : State) : Host.Outcome State Fault Refusal :=
  adminCmd e s true .pairControl (pairField e 0) (fun s =>
    let s := if s.md.mode = .service then s
      else { s with tw := { s.tw with unpaired := false, locked := false, holdTraining := false, wakes := if s.tw.twinDeparted then s.tw.wakes + 1 else s.tw.wakes } }
    adminDone s e .success)

/-- The pair is dissolved on this module: no identifier, unpaired, the namespaces homed on the other module dropped. -/
def dissolve (s : State) : State :=
  let s := { s with tw := { s.tw with pairId := 0, unpaired := true } }
  s.zn.ns.foldl (fun s p => if p.2.here then s else deleteNs s p.1) s

/-- PAIR_CONTROL_UNPAIR: in Service a departure, refused while a mirrored namespace exists; in Solo what this module owns becomes single and the rest is dropped. -/
def execPairControlUnpair (e : Sqe) (s : State) : Host.Outcome State Fault Refusal :=
  adminCmd e s true .pairControl (pairField e 1) (fun s =>
    if s.md.mode = .service then
      if s.zn.ns.any (fun p => p.2.mirrored) || s.tw.departing.isSome then adminDone s e .sequenceError
      else beginDeparture { s with tw := { s.tw with unpairCmd := some (ownerOf s e.func, 0, e.cid) } } 7
    else
      let s := { s with zn := { s.zn with ns := KV.mapVals s.zn.ns (fun _ n =>
        if n.mirrored && n.here then { n with mirrored := false, cont := false, yielded := false, sepPepoch := 0 } else n) } }
      adminDone (updateAna (dissolve s)) e .success)

/-- PAIR_CONTROL_TRANSFER (R318): toward the module that does not own the namespace; asked of the owner where that is the twin. -/
def execPairControlTransfer (e : Sqe) (s : State) : Host.Outcome State Fault Refusal :=
  adminCmdAt e s true .pairControl (pairField e 2) (fun stamp s =>
    if s.md.mode ≠ .service then adminDone s e .sequenceError
    else match nsOf s e.nsid with
      | none => adminDone s e .invalidField
      | some n =>
        if !n.mirrored then adminDone s e .invalidField
        else if (modeAt s stamp).resyncing then adminDone s e .c7
        else if s.tw.transfer.isSome then adminDone s e .sequenceError
        else if n.here then tryOffer (startTransfer { s with tw := { s.tw with transferCmd := some (ownerOf s e.func, 0, e.cid) } } e.nsid)
        else carryAdmin s { tag := 0, func := ownerOf s e.func, cid := e.cid, kind := 9, nsid := e.nsid } [0xC0, e.nsid, 2])

/-- PAIR_CONTROL_YIELD: this module's copy is marked. -/
def execPairControlYield (e : Sqe) (s : State) : Host.Outcome State Fault Refusal :=
  adminCmd e s true .pairControl (pairField e 3) (fun s =>
    if s.md.mode = .service ∨ !(nsOf s e.nsid).any (fun n => n.mirrored) then adminDone s e .sequenceError
    else adminDone (updateAna (setNs s e.nsid (fun n => { n with yielded := true }))) e .success)

/-- PAIR_CONTROL_TAKE: fenced namespaces are taken as they stood at the fence, with CONT (R313, R320). -/
def execPairControlTake (e : Sqe) (s : State) : Host.Outcome State Fault Refusal :=
  adminCmd e s true .pairControl (pairField e 4) (fun s =>
    let l := (s.zn.ns.filter (fun p => p.2.fenced && (e.nsid == 0xFFFFFFFF || p.1 == e.nsid))).map (fun p => p.1)
    if s.md.mode = .service ∨ l.isEmpty then adminDone s e .sequenceError
    else adminDone (updateAna (l.foldl (fun s nsid => takeNs s nsid true) s)) e .success)

end Sys2Proof.Machine
end

