-- ==== Sys2Proof/Machine/Landing.lean ====
section
/-! DEFINITION. The landing area, and what a start-up finds on flash: landing rows, block-set headers, write pointers and copies by their sequence numbers (R338 to R341, R349, R352, R353). -/

namespace Sys2Proof.Machine

/-! ### Landing (R339, R340) -/

/-- Bytes of user data of a landing row of a group. -/
def landRowBytes (s : State) (g : Nat) : Nat := 4096 * rowUnitsMax s g

/-- The erased landing set of a group that has worn least, on every member. -/
def nextLanding (s : State) (g : Nat) : Option Nat :=
  leastBy ((List.range 2048).filter (fun b => (groupDies s g).all (fun d =>
      (bsetOf s (setKey d b)).role == .landing && (bsetOf s (setKey d b)).state == .free)))
    (fun b => (groupDies s g).foldl (fun a d => a + (bsetOf s (setKey d b)).wear) 0)

/-- The place of the next landing row of a group: in its stripe, which is appended to until it is full, or at the start of a new one. -/
def landPlace (s : State) (g : Nat) : Option (State × Nat × Nat) :=
  let put (s : State) (b r : Nat) : State × Nat × Nat := ({ s with media := { s.media with landOpen := KV.set s.media.landOpen g (b, r + 1) } }, b, r)
  let new : Option (State × Nat × Nat) := (nextLanding s g).map (fun b =>
    put ((groupDies s g).foldl (fun s d => bindSet s (setKey d b) (fun x => { x with mode := 2, layout := groupMembers s g })) s) b 0)
  match KV.find s.media.landOpen g with
  | some (b, r) => if r < 4096 then some (put s b r) else new
  | none => new

/-- The groups in turn from one on, retired ones left out. -/
def groupTurn (s : State) (g : Nat) : List Nat :=
  ((List.range s.part.groups).map (fun i => (g + i) % s.part.groups)).filter (fun x => !(grpOf s x).retired)

/-- A new landing row on the next group in turn that has room (R340). -/
def newLandRow (s : State) : State :=
  match (groupTurn s s.media.landTurn).find? (fun g => (landPlace s g).isSome) with
  | none => s
  | some g => match landPlace s g with
    | none => s
    | some (s, b, r) => { s with media := { s.media with
        landing := s.media.landing ++ [{ group := g, set := b, row := r, left := landRowBytes s g }], landTurn := (g + 1) % s.part.groups } }

/-- The bytes of a record that its row has room for go into it; each landing page carries ROLE 5h and the SEQ of the record it starts with. -/
def fillRow (s : State) (seq bytes : Nat) : State × Nat :=
  match s.media.landing.getLast? with
  | none => (s, 0)
  | some x =>
    let n := min x.left bytes
    let cap := landRowBytes s x.group
    let first := ceilDiv (cap - x.left) 16384
    let last := ceilDiv (cap - x.left + n) 16384
    let m := groupMembers s x.group
    let pages := ((List.range (last - first)).map (first + ·)).foldl (fun p k =>
      let d := memberDie s x.group (dataPos m (grpOf s x.group).dead x.row k)
      KV.set p (pageKey (setKey d x.set) x.row) { role := 5, seq := seq, row := x.row, group := x.group, pos := (dieOf s d).pos.getD 0 }) s.media.pages
    ({ s with media := { s.media with
      landing := s.media.landing.dropLast ++ [{ x with left := x.left - n, seqs := addOnce x.seqs seq }], pages := pages } }, bytes - n)

/-- Land so many bytes of a record, row after row. -/
def landBytes : Nat → State → Nat → Nat → State
  | 0, s, _, _ => s
  | k + 1, s, seq, bytes =>
    if bytes = 0 then s
    else
      let s := if (s.media.landing.getLast?).all (fun x => x.left == 0) then newLandRow s else s
      let r := fillRow s seq bytes
      landBytes k r.1 seq r.2

/-- Close the row being filled: the next landing starts with a row of its own. -/
def closeLandRow (s : State) : State := { s with media := { s.media with landing := s.media.landing.map (fun x => { x with left := 0 }) } }

/-- Land the live records that a test names, in ascending SEQ; one landed again lies in its new rows alone (R340). The manifest, 16 bytes a record, is landed ahead of them (R339); the rows of the map deltas are not shown, as their size is open (log 45). -/
def landRecs (s : State) (p : Nat → Bool) : State :=
  let l := s.jr.recs.filter (fun x => p x.1)
  let s := closeLandRow { s with media := { s.media with landing := s.media.landing.map (fun x => { x with seqs := x.seqs.filter (fun q => !p q) }) } }
  let s := closeLandRow (landBytes (l.length / 20000 + 2) s 0 (16 * l.length))
  let s := l.foldl (fun s x => landBytes (x.2.bytes / 400000 + 3) s x.1 x.2.bytes) s
  closeLandRow { s with jr := { s.jr with recs := KV.mapVals s.jr.recs (fun q r => { r with landed := r.landed || p q }) } }

/-- A full landing stripe none of whose records is live goes to the erase queue (R340). -/
def freeLanding (s : State) : State :=
  let full := ((s.media.landing.filter (fun x => x.row == 4095)).map (fun x => (x.group, x.set))).filter (fun x =>
    !s.media.landing.any (fun y => y.group == x.1 && y.set == x.2 && y.seqs.any (fun q => (KV.find s.jr.recs q).isSome)))
  full.foldl (fun s x =>
    let s := (groupDies s x.1).foldl (fun s d => toErase s (setKey d x.2)) s
    { s with media := { s.media with landing := s.media.landing.filter (fun y => !(y.group == x.1 && y.set == x.2)) } }) s

/-- The landed records that cannot be read: a row of theirs has more than two unreadable members, which P and Q do not rebuild (R226, R286). -/
def landLost (s : State) : List Nat :=
  (s.media.landing.filter (fun x => 2 < (groupDies s x.group).countP (fun d => setUnreadable s d (.slc x.set)))).flatMap (fun x => x.seqs)

/-! ### The write-pointer search (R349) -/

/-- The final pass of a word line decodes on its member. -/
def lineDecodes (s : State) (k wl : Nat) : Bool := (KV.find s.media.pages (pageKey k (4 * cellBits (bsetOf s k).mode * wl))).isSome

/-- Binary search over word lines: the number of those, from the first on, whose final pass decodes. -/
def searchLines : Nat → State → Nat → Nat → Nat → Nat
  | 0, _, _, lo, _ => lo
  | n + 1, s, k, lo, hi =>
    if hi ≤ lo then lo
    else
      let m := (lo + hi) / 2
      if lineDecodes s k m then searchLines n s k (m + 1) hi else searchLines n s k lo m

/-- Search the write pointers of the zones' sets that are in use and not full. -/
def searchPointers (s : State) : State :=
  let l := s.media.sets.filter (fun x => x.2.role == .zone && (x.2.state == .inUse || x.2.state == .continued || x.2.state == .copying) && x.2.final < wordLines)
  let s := l.foldl (fun s x =>
    let n := searchLines 11 s x.1 0 wordLines
    setBset s x.1 (fun b => { b with final := n, coarse := max b.coarse n })) s
  (s.zn.ns.flatMap (fun n => n.2.zones.map (fun z => (n.1, z.1)))).foldl (fun s x => confirmZone s x.1 x.2) s

/-! ### Sets without a header (R352, Table 11.7) -/

/-- Erase counter of a set that the checkpoint does not hold: the mean of the die's in-use sets of the same role, rounded up. -/
def meanErases (s : State) (k : Nat) : Nat :=
  let l := s.media.sets.filter (fun x => x.1 / 2048 == k / 2048 && x.1 != k && x.2.role == (bsetOf s k).role && x.2.state == .inUse)
  ceilDiv (l.foldl (fun a x => a + x.2.erases) 0) (max 1 l.length)

/-- Classify a set whose header is absent or unreadable and that no journal record explains, by the check of its erased pages; where its counter comes from is recorded. -/
def classify (s : State) (ckpt : Bool) (k : Nat) (erased : Bool) : State :=
  if (bsetOf s k).intent then s
  else
    let e := if ckpt then (bsetOf s k).erases else meanErases s k
    let s := setBset s k (fun b => { b with
      erases := min (if erased then e else e + 1) (2^24 - 1), headed := !erased, nsid := 0, zone := 0xFFFFFFFF, tag := 0
      coarse := 0, final := 0, reads := 0, contOf := 0xFFFFFFFF, contRow := 0, state := .free })
    let s := if erased then s else toErase s k
    record s 0x38 [dieCh s.part (k / 2048), dieOrd s.part (k / 2048), k % 2048, if ckpt then 1 else 2]

/-! ### Copies on a scan (R353) -/

/-- A destination covers its source: its confirmed rows carry the source pages' SEQ as COPY_SEQ, over every row the source holds. -/
def destCovers (s : State) (c : Copy) : Bool :=
  let src := setKey c.die c.src
  let first := ((setKey c.dstDie c.dst :: c.cont).map (headOf 3 s)).headD (setKey c.dstDie c.dst)
  (List.range (4 * cellBits (bsetOf s src).mode * chainLines s src)).all (fun r =>
    (pageOf s src r).all (fun x => (pageOf s first r).any (fun y => y.copySeq == x.seq)))

end Sys2Proof.Machine
end

