-- ==== Sys2Proof/Machine/Boot.lean ====
section
/-! DEFINITION. Measured boot, the Almanac and restart recovery: power good, every Measure entry, the stages, the verdict, the replay, the signing and the body (R44, R180, R190, R206, R207, R346 to R354, R356 to R371, R384, R442, R489). -/

namespace Sys2Proof.Machine

/-! ### The Almanac entry as bytes (Tables 12.4, 12.5) -/

/-- Bytes of a number, the most significant first: digests, keys and signatures. -/
def beBytes (n v : Nat) : List Nat := (leBytes n v).reverse

/-- Bytes not yet programmed read FFh (R365). -/
def blank (n : Nat) : List Nat := List.replicate n 0xFF

/-- FW of an image: major, minor, build. -/
def imageFw (i : Image) : Nat := i.major + i.minor * 2^8 + i.build * 2^16

def stageBytes (r : StageRec) : List Nat := [r.stage, r.slot, 0, 0] ++ leBytes 4 r.size ++ beBytes 48 r.digest

/-- Bytes 000h to 2DFh. -/
def almHead (s : State) (a : Alm) : List Nat :=
  let e := a.endorsed
  let four (l : List Nat) : List Nat := if e then l else blank l.length
  [0x4C, 0x41, 1] ++ four [bit a.signer + 2 * bit a.fallback + 4 * bit a.tail] ++ leBytes 4 a.boot ++ [a.cause]
    ++ four [a.verdict, a.slotSel + 4 * a.slotRun] ++ [s.part.code] ++ four (leBytes 4 a.fw) ++ beBytes 48 a.prevDigest
    ++ beBytes 48 Config.romDigest ++ s.boot.serial ++ four [a.svn] ++ [a.minSvn] ++ List.replicate 58 0
    ++ ((List.range 8).flatMap (fun k => match a.stages[k]? with
        | some r => stageBytes r
        | none => blank 56))
    ++ four (beBytes 96 a.aliasPub)

/-- Bytes 000h to 33Fh. -/
def almEndorsed (s : State) (a : Alm) : List Nat := almHead s a ++ (if a.endorsed then beBytes 96 a.endorse else blank 96)

/-- Bytes 340h to 37Fh. -/
def almTime (a : Alm) : List Nat :=
  leBytes 6 a.timeMs ++ [0, 0, a.timeSrc + 8 * bit a.disc + 16 * a.unit, 0] ++ leBytes 2 a.uncert ++ leBytes 4 a.retDay
    ++ leBytes 4 a.gapEst ++ leBytes 8 a.signedDtb ++ List.replicate 36 0

/-- The 1,024 bytes of an entry. -/
def almBytes (s : State) (a : Alm) : List Nat :=
  almEndorsed s a ++ (if a.signed then almTime a ++ beBytes 96 a.signature ++ List.replicate 32 0 else blank 192)

/-! ### The boot store's appended words (R363, R364) -/

/-- A selector word: the slot, its complement, the activation count modulo 2^28. -/
def selectorWord (slot count : Nat) : Nat := slot % 4 + 4 * (3 - slot % 4) + 16 * (count % 2^28)

/-- A selector word is valid where its complement is right and it names a slot. -/
def selectorValid (w : Nat) : Bool := w / 4 % 4 == 3 - w % 4 && (w % 4 == 1 || w % 4 == 2)

/-- A counter record: BOOT, then its complement. -/
def counterRecord (boot : Nat) : Nat := boot % 2^32 + 2^32 * (2^32 - 1 - boot % 2^32)

def counterValid (w : Nat) : Bool := w / 2^32 % 2^32 == 2^32 - 1 - w % 2^32

/-- Selector words and counter records that a sector of 64 KiB holds beside its header. -/
def selectorsPerSector : Nat := 16383
def countersPerSector : Nat := 8191

/-- Append a word (R364): the sector goes on; when it is full the other is erased, given its header and continued. -/
def AppendPair.append (p : AppendPair) (cap w : Nat) : AppendPair :=
  let cur := if p.inB then p.b else p.a
  if cur.words.length < cap then
    (if p.inB then { p with b := { p.b with words := p.b.words ++ [w] } } else { p with a := { p.a with words := p.a.words ++ [w] } })
  else if p.inB then { p with a := { headed := true, words := [w] }, inB := false }
  else { p with b := { headed := true, words := [w] }, inB := true }

/-- The words of the sectors whose header stands. -/
def AppendPair.words (p : AppendPair) : List Nat := (if p.a.headed then p.a.words else []) ++ (if p.b.headed then p.b.words else [])

/-- The slot in force: that of the valid word with the highest count. -/
def selectorInForce (p : AppendPair) : Option Nat :=
  ((p.words.filter selectorValid).foldl (fun (o : Option Nat) w => if o.any (fun x => w / 16 < x / 16) then o else some w) none).map (fun w => w % 4)

/-- The count in force: the highest valid BOOT. -/
def counterInForce (p : AppendPair) : Nat := ((p.words.filter counterValid).map (fun w => w % 2^32)).foldl max 0

/-- The newest entry present in the ring. -/
def newestAlm (s : State) : Option Alm := s.boot.ring.getLast?.map (fun p => p.2)

/-- Change the present entry. -/
def setAlm (s : State) (f : Alm → Alm) : State := { s with boot := { s.boot with ring := KV.adj s.boot.ring s.boot.boot f } }

def bodyMax : Nat := 1048576

/-- Begin the entry of a boot (R366 steps 1 and 2, R367, R369, R370): the counter advances; the ring's oldest sector is erased where no slot is free; PREV_DIGEST is over the newest entry present. -/
def beginEntry (s : State) (cause : Nat) : State :=
  let b := s.boot.boot + 1
  let prev := (newestAlm s).elim 0 (fun a => Config.sha384 (almBytes s a))
  let gone := if 4096 < b && (b - 1) % 64 == 0 then s.boot.ring.filter (fun p => p.1 + 4032 < b) else []
  let lost := gone.filter (fun p => (KV.find s.boot.body p.1).isNone)
  let ring := s.boot.ring.filter (fun p => !gone.any (fun q => q.1 == p.1))
  { s with boot := { s.boot with
    boot := b, cause := cause, lost := s.boot.lost + lost.length, counters := s.boot.counters.append countersPerSector (counterRecord b)
    ring := KV.set ring b { boot := b, cause := cause, minSvn := s.boot.minSvn, prevDigest := prev, tail := bodyMax < b } } }

/-- Copy ring entries of earlier boots into the body (R369); the body holds 1,048,576. -/
def copyBody (s : State) (below : Nat) : State :=
  (s.boot.ring.filter (fun p => p.1 < below && p.1 ≤ bodyMax && (KV.find s.boot.body p.1).isNone)).foldl
    (fun s p => { s with boot := { s.boot with body := KV.set s.boot.body p.1 p.2 } }) s

/-! ### What a Measure entry clears (R358) -/

/-- A die's member data continues in another set from a word line's first row (R351, R217), with no block marked bad. -/
def continueSet (s : State) (k wl : Nat) : State := (chooseSet s (k / 2048) 0).elim s (fun c => goOn s k c wl)

/-- The packages are reset: what a die ran ends there. A zone's pass cut off continues in a continuation set (R351); a cut erase is repeated under its intent (R352). -/
def resetDies (s : State) : State :=
  let cut := s.media.dies.filterMap (fun x => match x.2.op with
    | some o => if o.kind != .erase && o.job == .zone then some (setKey x.1 o.bset) else none
    | none => none)
  let s := { s with media := { s.media with dies := KV.mapVals s.media.dies (fun _ x => { x with op := none, claimOp := none }) } }
  cut.foldl (fun s k => continueSet s k (unconfirmed (bsetOf s k) true)) s

/-- The calendar at a Measure entry (R180, R182): saved budgets, defaults for the functions without one, the dedications. -/
def calAtMeasure (c : Cal) (powerGood : Bool) : Cal :=
  { slot := if powerGood then 0 else c.slot, period := if powerGood then 0 else c.period, running := true
    budgets := c.savedBudgets, savedBudgets := c.savedBudgets, dedicated := c.dedicated, dedicatedNow := c.dedicated
    bulkScale := c.bulkScale, capBulk := c.capBulk, stdScale := c.stdScale, expScale := c.expScale, chBulkScale := c.chBulkScale
    snapshot := if powerGood then [] else c.snapshot }

/-- The media's volatile part: rows being filled or programmed are lost, copies and rebuilds stand still. -/
def mediaAtMeasure (m : Media) (powerGood : Bool) : Media :=
  { m with
    rows := []
    groups := KV.mapVals m.groups (fun _ g => { g with rowUnits := [], rowSeqs := [], rowAt := none })
    copies := m.copies.map (fun c : Copy => { c with busy := false, asked := false, toPlace := 0, toReturn := 0 })
    rebuilds := m.rebuilds.map (fun r : Rebuild => { r with running := false, pass := 0, asked := false, reads := [], ready := false, busy := [] })
    chans := if powerGood then KV.mapVals m.chans (fun _ c => { c with refReprogrammed := false }) else m.chans }

/-- The link and pairing state, cleared; the pair record and the counts are kept (R308, R347). -/
def twinAtMeasure (t : Twin) (powerGood : Bool) : Twin :=
  { senseIn := t.senseIn, unpaired := t.unpaired, locked := t.locked, pairId := t.pairId, twinSerial := t.twinSerial, twinFw := t.twinFw
    refuse := t.refuse, refuseAt := t.refuseAt, refuseBoot := t.refuseBoot, lossKind := t.lossKind, lossAt := t.lossAt, lossBoot := t.lossBoot
    pairings := t.pairings, losses := t.losses, linkFaults := t.linkFaults, quick := t.quick, full := t.full
    integrity := t.integrity, integrityAt := t.integrityAt, replays := t.replays, everPaired := !powerGood && t.everPaired, out := t.out }

/-- Key slots, KEKs, link and wrap keys are cleared; what each slot is for stays (R384, R393). -/
def keysAtMeasure (k : Keys) : Keys :=
  { k with slots := KV.mapVals k.slots (fun _ x => { x with cur := 0, retiring := 0 }), keks := [], linkKeys := [], linkSalts := [], wrapKeys := [], waiting := [] }

/-- The saved policy: the copy with the highest generation (R380). -/
def Boot.savedPolicy (b : Boot) : Policy :=
  (b.policyCopies.foldl (fun (a : Nat × Policy) c => if a.1 < c.1 then c else a) (b.policyCopies.headD (0, {}))).2

/-- Measured boot's registers, gates and held image pieces (R358, R374). -/
def bootAtMeasure (b : Boot) : Boot :=
  { b with
    regs := [], verdict := none, policy := b.savedPolicy, slotSel := (selectorInForce b.selectors).getD b.slotSel, slotRun := 0, fallback := false, minSvnDone := false
    signPending := true, firstReady := none, signDead := false, udsOpen := true, devidOpen := true, cdi := 0
    pieces := [], staged := none, writing := [], activating := none, alsoActivating := []
    spdmVer := [0, 0, 0], spdmCaps := [false, false, false], spdmAlgs := [false, false, false], spdmSession := 0 }

/-- Commands that wait for a Format keep waiting without a host to answer (R404). -/
def adminAtMeasure (a : Admin) : Admin :=
  { a with
    formats := a.formats.map (fun f : Fmt => { f with func := 65536 })
    sanitize := { a.sanitize with cmd := none, tag := none, running := !a.sanitize.setsLeft.isEmpty, keys := [] }
    permit := a.permitSaved, tcgOut := [] }

/-- Chapter 16's state at a Measure entry: the islands are reset. While the rails stay up the spare rows in use and the faults of the last hour are kept, and the counts telemetry shows (DESIGN CHOICE, log 123). -/
def internalsAtMeasure (i : Internal) (powerGood : Bool) : Internal :=
  if powerGood then {}
  else { banks := KV.mapVals i.banks (fun _ b => { spares := b.spares, cancels := b.cancels }), faults := i.faults, scrubs := i.scrubs, dramCorrected := i.dramCorrected }

/-- The parts every Measure entry clears. -/
def clearVolatile (s : State) (powerGood : Bool) : State :=
  let s := s.media.rebuilds.foldl dropPartial (resetDies s)
  { s with
    cal := calAtMeasure s.cal powerGood
    media := mediaAtMeasure s.media powerGood
    jr := { s.jr with session := false, drainLast := [], drainNow := [], credit := [], twinDrain := [], told := [] }
    tw := twinAtMeasure s.tw powerGood
    keys := keysAtMeasure s.keys
    boot := bootAtMeasure s.boot
    adm := adminAtMeasure s.adm
    ev := { s.ev with mounted := false }
    th := { s.th with
      ctrlOff := s.th.offSaved.1, flashOff := s.th.offSaved.2, imposed := 0, throttling := false, rateHold := [false, false]
      hotSince := none, coolSince := none, thrNs := s.th.thrNs + s.th.thrFrom.elim 0 (s.time.dtb - ·), thrFrom := none
      shut := 0, paused := false, belowSince := none }
    it := internalsAtMeasure s.it powerGood
    zn := { s.zn with
      defMirrored := s.zn.defMirroredSaved
      ns := KV.mapVals s.zn.ns (fun k n => { n with
        erasing := if s.adm.formats.any (fun f => f.nsid == k) || (n.sanitizing && s.adm.sanitize.setsLeft.isEmpty) then some false
          else if n.sanitizing then n.erasing else none }) }
    port := { s.port with cmds := [] } }

/-- A Measure entry other than power good (Table 3.2, R358): cause 1 a firmware activation, 2 a Harvest seal with feeds present. -/
def enterMeasure (s : State) (cause : Nat) : State :=
  let s := clearVolatile (hostReset s) false
  let s := { s with time := { s.time with bootDtb := s.time.dtb } }
  toMode (beginEntry s cause) .measure

/-! ### Power good and power loss -/

/-- The feeds, pins and rails at power good; the bank is empty and its energy not yet taken (R278). -/
def supplyAtPowerGood (p : Sup) (feedA feedB slotid : Nat) : Sup :=
  { p with
    rails := true, feedA := feedA, feedB := feedB, aOk := 360 ≤ feedA, bOk := 360 ≤ feedB, pwrdis := false, mated := true, slotid := BitVec.ofNat 3 slotid
    bankMv := 0, charger := true, first70 := false, belowSixtySix := false, usableDj := 0, vigil := 0
    test := .idle, testWaiters := [], hvStep := 0, i3cAddr := none, smbusKhz := 100 }

/-- The host port at power good (Tables 3.4, 3.5): the Ledger at zero (R155); what each controller keeps over a power loss (R122, R417). -/
def portAtPowerGood (p : Port) : Port :=
  { ctrls := KV.mapVals (KV.upd p.ctrls 0 Ctrl.resetPf id) (fun f c =>
      let r : Ctrl := if f = 0 then Ctrl.resetPf else {}
      { r with zopSeq := c.zopSeq, zops := c.zops, errCount := c.errCount, errs := c.errs })
    posted := p.posted, msgs := p.msgs }

/-- The event ring and the DRAM buffer are lost with the power; every bucket is full, for the time base begins again (R419, R423). -/
def eventsAtPowerGood (e : Events) : Events :=
  { e with ring := [], buf := [], firstUnwritten := none, lossCount := 0, types := KV.mapVals e.types (fun _ t => { t with bucket := 64, pend := 0, regainAt := 0 }) }

/-- A sensor class with no sample taken yet, and no crossing or rate judged. -/
def Sensor.fresh (x : Sensor) : Sensor := { x with prev := [], hist := [], overS := 0, exceeding := false }

/-- Temperature at power good: no sample yet, the offsets are the saved ones, the minutes of the power-on count from 0 (R427, R443). -/
def thermalAtPowerGood (t : Thermal) : Thermal :=
  { t with
    ctrl := t.ctrl.fresh, flash := t.flash.fresh, dram := t.dram.fresh, bank := t.bank.fresh
    ctrlUse := t.offSaved.1, flashUse := t.offSaved.2, bootMin := 0, thrNs := 0, rateAt := [0, 0]
    minNow := { ctrl := -128, flash := -128, dram := -128, bank := -128 } }

/-- POWER_GOOD (R489, R41, R435, R495): with a feed at or above 36 V, PWRDIS deasserted and the mate sensed for 10 ms the module leaves off and enters Measure. -/
def execPowerGood (feedA feedB : Nat) (plane : Backplane) (s : State) : Host.Outcome State Fault Refusal :=
  if s.sup.rails || (feedA < 360 && feedB < 360) || plane.pwrdis || !plane.mated then .next s
  else
    let s := clearVolatile s true
    let s := { s with
      port := portAtPowerGood s.port
      sup := supplyAtPowerGood s.sup feedA feedB plane.slotid
      jr := { s.jr with recs := KV.keep s.jr.recs (fun q r => r.landed || s.sup.missing.contains q) }
      ev := eventsAtPowerGood s.ev
      adm := { s.adm with telCtrlAt := none }
      th := thermalAtPowerGood s.th
      pw := { sel := 0, limit := s.pw.limitSaved, limitSaved := s.pw.limitSaved }
      time := { rd := s.time.rdSaved, rdSaved := s.time.rdSaved, hostSaved := s.time.hostSaved, sealedSave := s.time.sealedSave }
      md := { cleanOff := s.md.cleanOff }
      hist := [] }
    .next (refreshPower (beginEntry s 0))

/-- The rails fall. -/
def railsOff (s : State) : State :=
  { s with
    sup := { s.sup with rails := false, charger := false, test := .idle }
    port := { s.port with rate := 0, flit := false, width := 0, credits := 0, training := false, inL1 := false }
    tw := { s.tw with linkUp := false } }

/-- The modes that enter Harvest on a trigger (Table 2.4). -/
def harvests (s : State) : Bool :=
  match s.md.mode with
  | .measure | .recovery | .harvest => false
  | .pairing => s.md.pairServing
  | _ => true

/-- POWER_LOSS (R44): the supply is lost in a mode that starts no Harvest; the state is rebuilt from flash at the next power good. -/
def execPowerLoss (s : State) : Host.Outcome State Fault Refusal :=
  if !s.sup.rails || harvests s || s.md.mode == .harvest then .next s else .next (railsOff s)

/-! ### Measure (R356 to R362, R384) -/

/-- An image verifies (R356). -/
def imageVerifies (i : Image) (minSvn : Nat) : Bool := i.signedOk && i.digests == i.named && minSvn ≤ i.svn

def slotVerifies (s : State) (k : Nat) : Bool := (slotImage s k).any (fun i => imageVerifies i s.boot.minSvn)

/-- R360: the slot the mask ROM runs, 0 for none. -/
def slotToRun (s : State) : Nat :=
  let sel := s.boot.slotSel
  if slotVerifies s sel then sel else if slotVerifies s (3 - sel) then 3 - sel else 0

/-- The policy structure as bytes (Table 12.11). -/
def policyBytes (p : Policy) : List Nat :=
  [1, bit p.enforce, p.entries.length] ++ List.replicate 61 0
    ++ (p.entries.flatMap (fun e => e.1 :: List.replicate 15 0 ++ beBytes 48 e.2))
    ++ List.replicate (64 * (63 - p.entries.length)) 0

/-- A digest of a stage is on the allowed list (R381). -/
def Policy.allows (p : Policy) (stage digest : Nat) : Bool := p.entries.contains (stage, digest)

/-- What the hash engine measures as a stage. -/
def measureOf (s : State) (k : Nat) : StageRec :=
  let img := (running s).getD {}
  if k < 6 then ⟨k, s.boot.slotRun, nth img.sizes k, nth img.digests k⟩
  else if k = 6 then ⟨6, 0, 4096, Config.sha384 (policyBytes s.boot.policy)⟩
  else ⟨7, 0, 64, Config.sha384 (Config.configRecord s.part.code s.sup.slotid.toNat s.boot.minSvn)⟩

/-- The next compound device identifier (R361). -/
def nextCdi (s : State) (k digest : Nat) : Nat :=
  if k = 0 then Config.hmac Config.uds (Config.sha384 (beBytes 48 Config.romDigest ++ beBytes 48 digest)) else Config.hmac s.boot.cdi digest

/-- The key of the DeviceID or of the alias signature. -/
def signKey (s : State) (device : Bool) : Nat := if device then Config.uds else s.boot.cdi

/-- The labels of R361. -/
def labelDevice : Nat := 0
def labelAlias : Nat := 1
def labelKpio : Nat := 2

/-- Release the generated keys whose blobs unwrap (R384); the others' slots stay empty, which is recorded. -/
def releaseKeys (s : State) (bad : List Nat) : State :=
  s.keys.blobs.foldl (fun s b =>
    if bad.contains b.1 then
      let owner := s.zn.ns.find? (fun n => n.2.kpio == 0 && n.2.slots.contains b.1)
      let s := owner.elim s (fun n => setNs s n.1 (fun n => { n with keyLost := true }))
      record s 0x71 [b.1] none ((owner.map (fun n => n.1)).getD 0)
    else { s with keys := { s.keys with slots := KV.upd s.keys.slots b.1 {} (fun x => { x with cur := b.2 }) } }) s

/-- The values of Table 7.2 by their codes of Table 7.14, in the order they are tried: data rate, termination, drive strength. -/
def rateOrder : List Nat := [5, 4, 3, 2, 1]
def odtOrder : List Nat := [2, 3, 1, 4, 0]
def driveOrder : List Nat := [2, 1, 3]

/-- The negotiation of a channel (R190, Table 7.2) from the settings that each package passes at: the highest rate at which every package that passes at any rate passes, then for each package the first termination and the first drive strength that pass with it. -/
def negotiate (pkgs : List (List ChanSetting)) : Nat × Nat × List Nat × List Nat :=
  let ok := pkgs.filter (fun p => !p.isEmpty)
  let rate := if ok.isEmpty then 0 else (rateOrder.find? (fun r => ok.all (fun p => p.any (fun x => x.rate == r)))).getD 0
  let odt (p : List ChanSetting) : Nat := (odtOrder.find? (fun o => p.any (fun x => x.rate == rate && x.odt == o))).getD 0
  let drive (p : List ChanSetting) : Nat := (driveOrder.find? (fun v => p.any (fun x => x.rate == rate && x.odt == odt p && x.drive == v))).getD 0
  (rate, (pkgs.zipIdx.map (fun x => bit (!x.1.isEmpty) * 2^x.2)).foldl (· + ·) 0, pkgs.map odt, pkgs.map drive)

/-- The channels trained at a power good (R190): for each, the settings that its packages pass at; the dies of a package that passes at no rate fail with cause 3h. -/
def trainChannels (s : State) (train : List (List (List ChanSetting))) : State :=
  (List.range 32).foldl (fun s c =>
    match train[c]? with
    | none => s
    | some pkgs =>
      let n := negotiate pkgs
      let s := { s with media := { s.media with chans := KV.upd s.media.chans c {} (fun x => { x with rate := n.1, pkgOk := n.2.1, odt := n.2.2.1, drive := n.2.2.2 }) } }
      let per := s.part.diesPerChannel / 3
      (List.range s.part.diesPerChannel).foldl (fun s i => if n.2.1.testBit (i / per) then s else failDie s (dieIx s.part c i) 3) s) s

/-- The recovery loader trains the host port at no more than 16 GT/s (R360). -/
def loaderPort (p : Port) : Port :=
  if p.rate ≤ 2 then p else { p with rate := 2, credits := hostCredits 2 p.width, retrains := p.retrains + 1 }

/-- The end of Measure (R359, R362, R366 step 4): the entry is filled and endorsed, the gates close, keys are released under verdict 0h and 1h, and the mode follows Table 12.2. -/
def endMeasure (s : State) (verdict : Nat) (badBlobs : List Nat) : State :=
  let img := running s
  let aliasPub := if verdict = 3 then 0 else Config.publicKey s.boot.cdi labelAlias
  let s := setAlm s (fun a =>
    let a := { a with
      signer := verdict == 3, fallback := s.boot.fallback, verdict := verdict, slotSel := s.boot.slotSel, slotRun := s.boot.slotRun
      fw := (img.map imageFw).getD 0, svn := (img.map (fun i : Image => i.svn)).getD 0, stages := s.boot.regs, aliasPub := aliasPub, endorsed := true }
    { a with endorse := Config.sign Config.uds (Config.sha384 (almHead s a)) })
  let s := { s with
    boot := { s.boot with verdict := some verdict, udsOpen := false, devidOpen := verdict == 3 }
    md := { s.md with recoveryAt := s.time.dtb } }
  if verdict = 2 then toQuarantine s 2
  else if verdict = 3 then toQuarantine { s with port := loaderPort s.port } 3
  else toMode (releaseKeys s badBlobs) .recovery

/-- STAGE_MEASURED (R357 to R362): the next stage in order is measured; the slot is chosen at the first (R360), the digests are judged as they come (R359), and the last ends Measure. -/
def execStageMeasured (stage : Nat) (train : List (List (List ChanSetting))) (badBlobs : List Nat) (s : State) : Host.Outcome State Fault Refusal :=
  if s.md.mode != .measure || !s.sup.rails || stage != s.boot.regs.length || 7 < stage then .next s
  else
    let slot := if stage = 0 then slotToRun s else s.boot.slotRun
    if slot = 0 then .next (endMeasure s 3 [])
    else
      let s := { s with boot := { s.boot with slotRun := slot, fallback := slot != s.boot.slotSel } }
      let r := measureOf s stage
      let held := s.boot.policy.enforce && stage < 6 && !s.boot.policy.allows stage r.digest
      let s := { s with boot := { s.boot with
        regs := s.boot.regs ++ [r], cdi := nextCdi s stage r.digest, udsOpen := false
        verdict := if held then some 2 else s.boot.verdict } }
      let s := setAlm s (fun a => { a with stages := s.boot.regs })
      if stage < 7 then .next s
      else
        let s := if s.boot.cause = 0 then trainChannels s train else s
        .next (endMeasure s (s.boot.verdict.getD (if s.boot.policy.enforce then 0 else 1)) badBlobs)

/-! ### Recovery (R348 to R354) -/

/-- Save the retention clock with the host time beside it (R205, R442). -/
def saveClock (s : State) (sealed : Bool) : State :=
  { s with time := { s.time with
    rdSaved := s.time.rd, sealedSave := sealed
    hostSaved := if s.time.src = 0 then s.time.hostSaved
      else some (s.time.hostMs + (s.time.dtb - s.time.hostAt) / 1000000, s.time.unc + (s.time.dtb - s.time.uncAt) / 1000000000 * 20) } }

/-- Keep the reference shifts measured on the channels (R206); `save` where the clock is saved with them. -/
def keepShifts (s : State) (shifts : List Nat) (save : Bool) : State :=
  (List.range 32).foldl (fun s c =>
    { s with media := { s.media with chans := KV.upd s.media.chans c { rate := 5, pkgOk := 7 } (fun x =>
      { x with refShift := shifts.getD c x.refShift, refShiftSaved := if save then shifts.getD c x.refShift else x.refShiftSaved }) } }) s

/-- The gap estimate (R207): the median of the channels' rises in shift as days of storage, in sixteenths of a day, rounded down; none from fewer than 16 channels. -/
def gapEstimate (rises : List Nat) : Option Nat :=
  let l := sortBy id rises
  let n := l.length
  if n < 16 then none else some ((nth l ((n - 1) / 2) + nth l (n / 2)) / 2)

/-- The gap estimate at a power good (R205, R207, R442), sixteenths of a day: the retention clock, the age of every set, the host time. -/
def applyGap (s : State) (gap : Option Nat) : State :=
  if !s.time.gapDue then s
  else
    let t := { s.time with gapDue := false }
    match gap with
    | none =>
      { s with
        time := { t with gap := none, gapUnc := 0, gapOver := false }
        media := { s.media with sets := KV.mapVals s.media.sets (fun _ b =>
          if b.state = .free then b else { b with unknownAge := true, learned := [0, 0, 0, 0, 0] }) } }
    | some e =>
      let beyond := decide (1095 * 16 < e)
      let e := min e (1095 * 16)
      let u := max 16 (e / 2) + (if t.sealedSave then 0 else 1)
      let t := { t with rd := t.rd + BitVec.ofNat 32 e, gap := some e, gapUnc := u, gapOver := beyond }
      match beyond, t.hostSaved with
      | false, some (ms, unc) =>
        { s with time := { t with src := 3, hostMs := ms + e * 5400000, hostAt := 0, unc := unc + u * 5400000000, uncAt := 0 } }
      | _, _ => { s with time := t }

/-- Replay (R350, R351): records whose integrity fails are not applied, and the units of a completed one are lost; every other record becomes live, applied once, in ascending SEQ. Open zones close (Table 4.3); word lines not confirmed are queued again. -/
def replay (s : State) (bad : List Nat) : State × Nat × Nat :=
  let lostRecs := s.jr.recs.filter (fun p => bad.contains p.1)
  let s := lostRecs.foldl (fun s p => removeRec s p.1) s
  let (s, lost) := lostRecs.foldl (fun (x : State × Nat) p =>
    match nsOf x.1 p.2.nsid with
    | some n =>
      if p.2.completed && 1 ≤ p.2.typ && p.2.typ ≤ 3 && !onFlash x.1 n p.2 then
        let s := listLost x.1 p.2.nsid p.2.slba p.2.nlb 3 0x3F n.mirrored
        let s := (List.range p.2.nlb).foldl (fun s i => storeLba s p.2.nsid (p.2.slba + i) { readLba s p.2.nsid (p.2.slba + i) with lost := true }) s
        (s, x.2 + p.2.nlb * unitsPerLba n.flbas)
      else x
    | none => x) (s, 0)
  let s := { s with zn := { s.zn with ns := KV.mapVals s.zn.ns (fun _ n =>
    { n with zones := KV.mapVals n.zones (fun _ z => { z with queued := z.confirmed }) }) } }
  let live := s.jr.recs.map (fun p => p.1)
  let before := s.jr.recs.countP (fun p => !p.2.completed)
  let s := { s with jr := { s.jr with recs := KV.mapVals s.jr.recs (fun _ r => { r with durable := true, acked := true, dataIn := true, staged := false, wt := false, slot := none }) } }
  let s := live.foldl (fun s q => settle s q) s
  let s := placeApplied s
  let s := s.zn.ns.foldl (fun s p =>
    let s := retireNs s p.1
    p.2.zones.foldl (fun s z => queueReady (setZone s p.1 z.1 (fun z => { z with taken := z.wp })) p.1 z.1 (z.2.activeFunc.getD 0)) s) s
  let s := dropDone s
  (closeZonesOf s (fun _ => true), before, lost)

/-- Erases cut short are repeated, and count one cycle (R209, R352). -/
def resolveErases (s : State) : State :=
  (s.media.sets.filter (fun x => x.2.intent)).foldl (fun s x =>
    toErase (setBset s x.1 (fun b => { b with intent := false, erases := min (b.erases + 1) (2^24 - 1), wear := b.wear + wearOf b })) x.1) s

/-- Copies at a power loss (R353, Table 11.8): complete ones are switched; after a clean power-off the others go on. On a scan those whose destination covers the source are switched, and the others are dropped and their destinations erased. -/
def resolveCopies (s : State) (clean : Bool) : State :=
  s.media.copies.foldl (fun s c =>
    if (if clean then c.complete || decide (c.passes ≤ c.pass) else destCovers s c) then (if c.kind = .move then moveCopied s c else switchCopy s c)
    else if clean then s
    else
      let s := (setKey c.dstDie c.dst :: c.cont).foldl toErase s
      let s := sourceBack s c
      { s with media := { s.media with copies := s.media.copies.filter (fun x => x.id != c.id) } }) s

/-- A word line whose fine pass is due is continued in another set once the retention clock has advanced by 7 days since its coarse pass (R351). -/
def resolveLines (s : State) : State :=
  (s.media.sets.filter (fun x => x.2.role == .zone && (x.2.state == .inUse || x.2.state == .continued) && x.2.final < x.2.coarse
      && 112 ≤ s.time.rd.toNat - x.2.coarseDay)).foldl
    (fun s x => continueSet s x.1 (baseLine x.2 + x.2.final)) s

/-- The Harvest report (R354, Table 11.9). -/
def reportBytes (s : State) (h : Seal) (replayed lost : Nat) : List Nat :=
  [1, h.fromMode, h.trigger + 4 * h.kind, (if h.sealed then 0 else if h.manifest then 1 else 2) + 4 * s.md.path]
    ++ leBytes 4 h.boot ++ leBytes 8 h.at_ ++ leBytes 4 (if h.sealed then h.durationUs else 0xFFFFFFFF) ++ leBytes 2 h.vStart
    ++ leBytes 2 (if h.sealed then h.vEnd else 0) ++ leBytes 4 h.records ++ leBytes 4 h.landedMib ++ leBytes 4 h.deltaMib
    ++ leBytes 2 h.drained ++ leBytes 2 h.aborted ++ leBytes 4 ((s.time.dtb - s.md.recoveryAt) / 1000000) ++ leBytes 4 replayed
    ++ leBytes 8 lost ++ leBytes 8 h.highSeq

/-- A peer is present (Table 2.4). -/
def peerPresent (s : State) : Bool := s.tw.senseIn || s.tw.linkUp

/-- Enter Pairing (R45, R309): the bounds of Table 10.10 start. -/
def toPairing (s : State) (serving : Bool) : State :=
  let s := { s with tw := { s.tw with step := 1, pairAt := s.time.dtb, hello := none, table := [], pairAcc := [false, false, false] } }
  toMode s .pairing 0 serving

/-- Record the report of the Harvest that went before (R354, Table 11.9), and forget its seal. -/
def reportHarvest (s : State) (replayed lost : Nat) : State :=
  match s.sup.unsealed.orElse (fun _ => s.sup.sealRec) with
  | none => s
  | some h =>
    let s := record s 0x43 (reportBytes s h replayed lost)
    { s with sup := { s.sup with unsealed := none, sealRec := none, missing := [] } }

/-- What paths B and C read on flash (R349, R352): the write pointers of open sets, and the class of the sets whose header is absent. -/
def scanFlash (s : State) (path : Nat) (scan : List (Nat × Bool)) : State :=
  if path = 0 then s else searchPointers (scan.foldl (fun s x => classify s (path == 1) x.1 x.2) s)

/-- RECOVERY_COMPLETE (R207, R348 to R354, Table 2.4): `ckpt` 0, 1 or 2 as the newest checkpoint, an older one or none is valid; whether the map could be rebuilt; the rises in shift of the channels that gave a measurement, as sixteenths of a day; the shifts; the records whose integrity fails; the block sets whose header is absent or unreadable, each with the outcome of its erased-page check. -/
def execRecoveryComplete (ckpt : Nat) (mapOk : Bool) (rises shifts : List Nat) (found : Scan) (s : State) : Host.Outcome State Fault Refusal :=
  if s.md.mode != .recovery || !s.sup.rails then .next s
  else if !mapOk then .next (toQuarantine s 5)
  else
    let path := if 2 ≤ ckpt then 2 else if s.md.cleanOff && ckpt == 0 then 0 else 1
    let s := { s with md := { s.md with path := path, recoveryScan := path == 2 }, ev := { s.ev with mounted := true } }
    let s := scanFlash s path found.headers
    let s := keepShifts (applyGap s (gapEstimate rises)) shifts false
    let (s, replayed, lost) := replay s (found.bad ++ s.sup.missing ++ landLost s)
    let s := resolveLines (resolveCopies (resolveErases s) (path == 0))
    let s := freeLanding (refreshRebuilding (checkpoint s))
    let s := copyBody (queueAged s) s.boot.boot
    let s := reportHarvest s replayed lost
    .next (updateAna (if peerPresent s && !s.tw.unpaired then toPairing s false else toMode s .solo))

/-! ### Signing and the body (R368, R369, R440) -/

/-- SU_TIMEQ.UNIT and UNCERT (R439): the reset value of Table 3.5 until Recovery has settled the estimate of R442, then those of Table 15.2. -/
def timeUnit (s : State) : Nat × Nat :=
  if s.time.src = 0 then (if s.time.gapDue then (0, 0) else (3, 0xFFFF))
  else
    let u := s.time.unc + (s.time.dtb - s.time.uncAt) / 1000000000 * 20
    if u ≤ 0xFFFE then (0, u)
    else if ceilDiv u 1000 ≤ 0xFFFE then (1, ceilDiv u 1000)
    else if ceilDiv u 1000000 ≤ 0xFFFE then (2, ceilDiv u 1000000)
    else (3, min 0xFFFE (ceilDiv u 86400000000))

/-- Host time at the present instant, ms (R438, R440). -/
def hostNow (s : State) : Nat := s.time.hostMs + (s.time.dtb - s.time.hostAt) / 1000000

/-- Fill the time fields and sign the present entry (R368, R440). -/
def signEntry (s : State) : State :=
  let u := timeUnit s
  let s := setAlm s (fun a =>
    let a := { a with
      signed := true, timeMs := if s.time.src = 0 then 0 else hostNow s - (s.time.dtb - s.time.bootDtb) / 1000000
      timeSrc := s.time.src, disc := s.md.timeDisc, unit := u.1, uncert := u.2, retDay := s.time.rd.toNat
      gapEst := s.time.gap.getD 0xFFFFFFFF, signedDtb := s.time.dtb }
    { a with signature := Config.sign (signKey s a.signer) (Config.sha384 (almEndorsed s a ++ almTime a)) })
  { s with boot := { s.boot with signPending := false } }

/-- The signing can run: after the first entry into Service, Solo or Quarantine, and not stopped by a Harvest. -/
def canSign (s : State) : Bool := s.boot.signPending && s.boot.firstReady.isSome && !s.boot.signDead && s.md.mode != .harvest && s.md.mode != .holiday && coreRuns s 28

/-- ALMANAC_SIGNING (R368). -/
def execAlmanacSigning (s : State) : Host.Outcome State Fault Refusal :=
  if canSign s then .next (signEntry s) else .next s

/-- ALMANAC_BODY_COPY (R369): within 1 s of its signing the present entry is copied into the body; not before a Recovery has run. -/
def execAlmanacBodyCopy (s : State) : Host.Outcome State Fault Refusal :=
  if s.boot.signPending || s.md.mode == .measure || s.md.mode == .harvest || !s.ev.mounted then .next s
  else .next (copyBody s (s.boot.boot + 1))

end Sys2Proof.Machine
end

