-- ==== Sys2Proof/Machine/Link.lean ====
section
/-! DEFINITION. The Deroft link: training, lanes, flits, credits, heartbeats, the sense pair, and the loss of the peer (chapter 10, R287 to R306). -/

namespace Sys2Proof.Machine

/-! ### Training and lanes (R287 to R291, R309) -/

/-- Credits of a class at a link outcome (Table 10.1): priority and bulk. -/
def peerCredits (rate width : Nat) : Nat × Nat :=
  match linkRow rate width with
  | some r => (nth [512, 256, 128, 64, 32] r, nth [3584, 1792, 896, 448, 224] r)
  | none => (0, 0)

/-- The lane groups, widest first and lowest-numbered first (R287), as lane masks with their width. -/
def laneGroups : List (Nat × Nat) := [(8, 0xFF), (4, 0x0F), (4, 0xF0), (2, 0x03), (2, 0x0C), (2, 0x30), (2, 0xC0)]

/-- The widest lane group of widths allowed (bit 0 x2, bit 1 x4, bit 2 x8) whose lanes are all among those given (R287). -/
def groupOf (widths lanes : Nat) : Option (Nat × Nat) :=
  laneGroups.find? (fun g => widths.testBit (if g.1 = 8 then 2 else if g.1 = 4 then 1 else 0) && lanes &&& g.2 == g.2)

/-! ### Training sets (R289, Table 10.2) -/

/-- One bit of CRC-16 with polynomial 1021h (R289). -/
def crc16Bit (c : BitVec 16) (b : Bool) : BitVec 16 := if c.getLsbD 15 != b then (c <<< 1) ^^^ 0x1021#16 else c <<< 1

/-- CRC-16 of bytes with initial value FFFFh, most significant bit of each first. -/
def crc16 (l : List (BitVec 8)) : BitVec 16 :=
  l.foldl (fun c b => [7, 6, 5, 4, 3, 2, 1, 0].foldl (fun c i => crc16Bit c (b.getLsbD i)) c) (BitVec.allOnes 16)

/-- The training set that a lane of this module carries (Table 10.2): its number, the step, every rate and width, FEC_LOW (R293), SLOTID[0], protocol version 1, the equalisation of the present rate, the lanes that passed. -/
def trainingSet (s : State) (lane step eq lanesOk : Nat) : List (BitVec 8) :=
  let b := ([0xD7, lane + 32 * step, 7, 7, 1 + 2 * bit (s.sup.slotid.getLsbD 0), 1] ++ leBytes 6 eq ++ [lanesOk, 0]).map (BitVec.ofNat 8)
  b ++ (leBytes 2 (crc16 b).toNat).map (BitVec.ofNat 8)

/-- A byte of a training set. -/
def setByte (b : List (BitVec 8)) (i : Nat) : Nat := (b.getD i 0).toNat

/-- A training set is taken where its ID and its CRC are right; else it is ignored (R289). -/
def setValid (b : List (BitVec 8)) : Bool :=
  b.length == 16 && setByte b 0 == 0xD7 && setByte b 14 + 256 * setByte b 15 == (crc16 (b.take 14)).toNat

/-- The set a lane took last. -/
def setOn (sets : List (Nat × List (BitVec 8))) (lane : Nat) : Option (List (BitVec 8)) :=
  (sets.reverse.find? (fun x => x.1 == lane && setValid x.2)).map (·.2)

/-- The sets taken on the lanes, by lane. -/
def setsTaken (sets : List (Nat × List (BitVec 8))) : List (Nat × List (BitVec 8)) :=
  (List.range 8).filterMap (fun k => (setOn sets k).map (fun b => (k, b)))

/-- The outcome of a training (R287, R290): of the rates both modules support, the highest at which the lane test of both leaves a lane group of a width that both support, and there the widest, lowest-numbered one; `tested` has the lanes that passed here at 64, 32 and 16 GT/s. Answers RATE, width and lanes. -/
def trainOutcome (sets : List (Nat × List (BitVec 8))) (tested : List Nat) : Option (Nat × Nat × Nat) :=
  let l := setsTaken sets
  let rates := l.foldl (fun a x => a &&& setByte x.2 2) 7
  let widths := l.foldl (fun a x => a &&& setByte x.2 3) 7
  let there (x : Nat × List (BitVec 8)) : Bool := (setByte x.2 12).testBit (setByte x.2 1 % 32)
  let lanes (r : Nat) : Nat := ((l.filter (fun x => (nth tested (4 - r)).testBit x.1 && there x)).map (fun x => 2^x.1)).sum
  [4, 3, 2].findSome? (fun r => if rates.testBit (r - 2) then (groupOf widths (lanes r)).map (fun g => (r, g.1, g.2)) else none)

/-- Whether this module takes part in a training (R309). -/
def mayTrain (s : State) : Bool := s.sup.rails && (s.md.mode == .pairing || s.md.mode == .solo) && !s.tw.unpaired && !s.tw.locked

/-- DEROFT_TRAINING_ATTEMPT (R289, R290, R309): training begins and the lanes carry their sets, whose equalisation values are free: in Pairing; in Solo while PAIRSENSE_IN is high and no refusal holds training back. -/
def execDeroftTrainingAttempt (s : State) : Host.Outcome State Fault Refusal :=
  if s.tw.linkUp || !mayTrain s || (s.md.mode == .solo && (!s.tw.senseIn || s.tw.holdTraining)) then .next s
  else
    let (eq, s) := drawFree s
    .next { s with tw := { s.tw with trainStep := 1, trainSets := (List.range 8).map (fun k => (trainingSet s k 1 (eq % 2^48) 0).map BitVec.toNat) } }

/-- DEROFT_TRAINING_STEP_TIMEOUT (R290): training restarts from step 1. -/
def execDeroftTrainingStepTimeout (s : State) : Host.Outcome State Fault Refusal :=
  if s.tw.linkUp || s.tw.trainStep = 0 then .next s else .next { s with tw := { s.tw with trainStep := 1 } }

/-- The HELLO this module sends (Table 10.11). -/
def ownHello (s : State) (frm : Nat) : Hello :=
  { proto := 1, part := s.part.code, slot0 := s.sup.slotid.getLsbD 0, unpaired := false, mode := frm
    fwMajor := (running s).elim 0 (fun i => i.major), fwMinor := (running s).elim 0 (fun i => i.minor), fwBuild := (running s).elim 0 (fun i => i.build)
    pairId := s.tw.pairId, serial := s.boot.serial, lastTwin := if s.tw.twinSerial.isEmpty then List.replicate 20 0x20 else s.tw.twinSerial
    pepoch := s.jr.pepoch.toNat, features := 0 }

/-- The fields of a HELLO in the order of Table 10.11. -/
def helloFields (b : Hello) : List Nat :=
  [b.proto, b.part, bit b.slot0 + 2 * bit b.unpaired, b.mode, b.fwMajor + b.fwMinor * 2^8 + b.fwBuild * 2^16, b.pairId]
    ++ b.serial ++ b.lastTwin ++ [b.pepoch, b.features]

/-- FEC_LOW of this module: always set (R293). -/
def ownFecLow : Bool := true

/-- The sets of the twin are in the other lane order (R290 step 2). -/
def setsReversed (sets : List (Nat × List (BitVec 8))) : Bool := (setsTaken sets).any (fun x => setByte x.2 1 % 32 != x.1)

/-- The link with its outcome: credits follow Table 10.1, FEC is in use at 64 GT/s and where either module asks for it, the sequence numbers begin anew. -/
def Twin.up (t : Twin) (sets : List (Nat × List (BitVec 8))) (o : Nat × Nat × Nat) (now : Nat) : Twin :=
  let c := peerCredits o.1 o.2.1
  { t with
    linkUp := true, dRate := o.1, dWidth := o.2.1, lanes := o.2.2, failedLanes := 0, reversed := setsReversed sets
    fec := o.1 == 4 || ownFecLow || (setsTaken sets).any (fun x => (setByte x.2 4).testBit 0)
    proto := (setsTaken sets).foldl (fun a x => min a (setByte x.2 5)) 1
    trainStep := 0, trainSets := [], trainedAt := now, crPri := c.1, crBulk := c.2, owePri := 0, oweBulk := 0, waits := [0, 0, 0], sinceBulk := 0
    fseqNext := 0, rxExpect := 0, acked := 1023, replay := [], ackAt := now, nakOwed := false, hbCount := 0, lastFlitAt := now, lostPending := false }

/-- DEROFT_LINK_UP (R287 to R290, R293, R309): training reaches step 6 with the sets taken on the lanes and the lanes that passed the test at 64, 32 and 16 GT/s; a module in Solo enters Pairing; HELLO is sent. A training that passes at no outcome leaves the link down. -/
def execDeroftLinkUp (sets : List (Nat × List (BitVec 8))) (lanes64 lanes32 lanes16 : Nat) (s : State) : Host.Outcome State Fault Refusal :=
  if s.tw.linkUp || !mayTrain s then .next s
  else match trainOutcome sets [lanes64, lanes32, lanes16] with
  | none => .next { s with tw := { s.tw with trainStep := 1 } }
  | some o =>
    let s := { s with tw := s.tw.up sets o s.time.dtb }
    let s : State := if s.md.mode = .solo then toPairing s true else s
    .next (send { s with tw := { s.tw with step := 2 } } 0x43 0 (helloFields (ownHello s s.md.prev.code)))

/-- LANE_FAILURE (R291): a quick retrain to the widest width that the remaining lanes allow, credits as Table 10.1 gives; where none remains, a full retrain, which takes the link down. -/
def execLaneFailure (lane : Nat) (s : State) : Host.Outcome State Fault Refusal :=
  if !s.tw.linkUp || !s.tw.lanes.testBit lane then .next s
  else
    let failed := s.tw.failedLanes ||| 2^lane
    match groupOf 7 (s.tw.lanes ^^^ 2^lane) with
    | some (w, m) =>
      let c := peerCredits s.tw.dRate w
      let s := { s with tw := { s.tw with
        failedLanes := failed, dWidth := w, lanes := m, crPri := min s.tw.crPri c.1, crBulk := min s.tw.crBulk c.2, quick := min (s.tw.quick + 1) (2^32 - 1) } }
      .next (record s 0x63 [1, s.tw.lanes, s.tw.failedLanes])
    | none =>
      let s := record { s with tw := { s.tw with full := min (s.tw.full + 1) (2^32 - 1) } } 0x63 [2, s.tw.lanes, failed]
      .next { s with tw := { s.tw with linkUp := false, failedLanes := 0, trainStep := 1 } }

/-! ### Flits (R292 to R294, Tables 10.4 and 10.5) -/

/-- One bit of the 48-bit CRC (Table 10.4). -/
def crcBit (c : BitVec 48) (b : Bool) : BitVec 48 := if c.getLsbD 47 != b then (c <<< 1) ^^^ 0x8000002068A1#48 else c <<< 1

/-- The CRC of bytes, most significant bit of each first. -/
def crcByte (c : BitVec 48) (b : BitVec 8) : BitVec 48 := [7, 6, 5, 4, 3, 2, 1, 0].foldl (fun c i => crcBit c (b.getLsbD i)) c

/-- 48-bit CRC: initial value and final XOR all ones, no reflection. -/
def crc48 (l : List (BitVec 8)) : BitVec 48 := l.foldl crcByte (BitVec.allOnes 48) ^^^ BitVec.allOnes 48

/-- A little-endian field of a flit (R11). -/
def flitLe (f : List (BitVec 8)) (o n : Nat) : Nat := ((f.drop o).take n).foldr (fun b a => b.toNat + 256 * a) 0

/-- The control field. -/
def flitControl (f : List (BitVec 8)) : Nat := flitLe f 0xF0 4

/-- The syndromes of a codeword, first byte of highest degree, at the roots 1 and 2 (the spec names the field, not the roots: PRESUMED, log 126). -/
def syndromes (c : List Nat) : Nat × Nat := c.foldl (fun x b => (x.1 ^^^ b, gfMul x.2 2 ^^^ b)) (0, 0)

/-- The place of the one byte in error, counted from the last (R293): where the first syndrome times a power of 2 is the second. -/
def errorAt : Nat → Nat → Nat → Nat → Option Nat
  | 0, _, _, _ => none
  | n + 1, i, x, y => if x = y then some i else errorAt n (i + 1) (gfMul x 2) y

/-- A codeword with the one byte that it can correct put right (R293). -/
def correctWord (c : List Nat) : List Nat :=
  let y := syndromes c
  if y.1 = 0 then c else (errorAt c.length 0 y.1 y.2).elim c (fun i => modAt c (c.length - 1 - i) (· ^^^ y.1))

/-- A flit after FEC correction (R293, R294): codeword j holds the bytes whose offset mod 3 is j. -/
def fecCorrect (f : List (BitVec 8)) : List (BitVec 8) :=
  let words := (List.range 3).map (fun j => correctWord (((List.range 256).filter (fun i => i % 3 == j)).map (fun i => (f.getD i 0).toNat)))
  (List.range 256).map (fun i => BitVec.ofNat 8 (nth (words.getD (i % 3) []) (i / 3)))

/-- A flit is valid when its CRC, over bytes 00h to F3h, passes (R294). -/
def flitValid (f : List (BitVec 8)) : Bool := f.length == 256 && flitLe f 0xF4 6 == (crc48 (f.take 0xF4)).toNat

/-- Fields of the control word (Table 10.5). -/
def ctlFseq (c : Nat) : Nat := c % 1024
def ctlAck (c : Nat) : Nat := c / 2^10 % 1024
def ctlNak (c : Nat) : Bool := c / 2^20 % 2 == 1
def ctlKind (c : Nat) : Nat := c / 2^21 % 4
def ctlMode (c : Nat) : Nat := c / 2^24 % 8
def ctlSense (c : Nat) : Bool := c / 2^27 % 2 == 1

/-- An acknowledgement: flits up to an FSEQ leave the replay buffer, and others that waited are sent (R294). -/
def ackFlits (t : Twin) (a now : Nat) : Twin :=
  if t.replay.contains a then pumpFlits { t with acked := a, ackAt := now, replay := (t.replay.dropWhile (· != a)).drop 1 } else t

/-- Replay from ACKSEQ + 1 (R294): the flits sent and not acknowledged. -/
def replayFlits (t : Twin) : Twin := { t with replays := t.replays + t.replay.length }

/-- A payload flit in order is accepted and owes its class a credit; another is discarded and answered with NAK. -/
def takePayload (t : Twin) (c : Nat) : Twin :=
  if ctlFseq c = t.rxExpect then
    { t with rxExpect := (t.rxExpect + 1) % 1024, nakOwed := false
             owePri := if ctlKind c = 0 then t.owePri + 1 else t.owePri, oweBulk := if ctlKind c = 1 then t.oweBulk + 1 else t.oweBulk }
  else { t with nakOwed := true }

/-- The credits owed go back in a Credit message (R297). -/
def returnCredits (s : State) : State :=
  let s := send s 0x41 0 [s.tw.owePri, s.tw.oweBulk]
  { s with tw := { s.tw with owePri := 0, oweBulk := 0 } }

/-- FLIT_RECEIVED (R293, R294, R297): a flit of 256 bytes as it comes off the lanes; credits go back once 32 of a class are owed. -/
def execFlitReceived (bytes : List (BitVec 8)) (s : State) : Host.Outcome State Fault Refusal :=
  let bytes := if s.tw.fec then fecCorrect bytes else bytes
  if !s.tw.linkUp || !flitValid bytes then .next s
  else
    let c := flitControl bytes
    let now := s.time.dtb
    let t := ackFlits { noteSense s.tw s.tw.senseIn (ctlSense c) now with lastFlitAt := now, lostPending := false, peerMode := ctlMode c } (ctlAck c) now
    let t := if ctlNak c then replayFlits t else t
    let s := { s with tw := if ctlKind c = 3 then t else takePayload t c }
    .next (if 32 ≤ s.tw.owePri || 32 ≤ s.tw.oweBulk then returnCredits s else s)

/-- REPLAY_TIMEOUT (R294): ACKSEQ has not advanced for 2 µs. -/
def execReplayTimeout (s : State) : Host.Outcome State Fault Refusal :=
  if !s.tw.linkUp || s.tw.replay.isEmpty || s.time.dtb < s.tw.ackAt + 2000 then .next s else .next { s with tw := replayFlits { s.tw with ackAt := s.time.dtb } }

/-! ### Heartbeats, credits, shares (R268, R295, R297, R303) -/

/-- HEARTBEAT_SEND (R295, R303): the record of Table 10.9. -/
def execHeartbeatSend (s : State) : Host.Outcome State Fault Refusal :=
  if !s.tw.linkUp then .next s
  else
    let s := { s with tw := { s.tw with hbCount := s.tw.hbCount + 1 } }
    .next (send s 0x42 0 [s.md.mode.code, bit s.tw.senseOut, bit s.tw.senseIn, bit s.tw.senseFault, flagsCode s.md, s.tw.hbCount.toNat,
      s.jr.pepoch.toNat, s.time.dtb, s.tw.peerDtb, s.tw.peerAt.getD 0])

/-- The offset of the twin's time base from this module's (R303): by the echo of this module's own heartbeat, else by the twin's time alone. -/
def offsetFrom (s : State) (b : Beat) : Int :=
  if b.echo = 0 then (b.dtb : Int) - s.time.dtb
  else (((b.echoAt : Int) - b.echo) + ((b.dtb : Int) - s.time.dtb)) / 2

/-- HEARTBEAT (R303): the twin's mode, flags, sense level and time. -/
def execHeartbeat (h : MsgHdr) (b : Beat) (s : State) : Host.Outcome State Fault Refusal :=
  if !s.tw.linkUp ∨ h.typ ≠ 0x42 then .next s
  else .next { s with tw := { noteSense s.tw s.tw.senseIn b.senseOut s.time.dtb with
    peerMode := b.mode, peerFlags := b.flags, peerDtb := b.dtb, peerAt := some s.time.dtb
    peerOffset := offsetFrom s b, lastFlitAt := s.time.dtb, lostPending := false } }

/-- CREDIT_RETURN (R297): 200 ns after the first of them, the credits owed go back. -/
def execCreditReturn (s : State) : Host.Outcome State Fault Refusal :=
  if !s.tw.linkUp || (s.tw.owePri == 0 && s.tw.oweBulk == 0) then .next s
  else .next (returnCredits s)

/-- CREDIT (R297): credits come back, up to those of the link's outcome, and flits that waited are sent. -/
def execCredit (h : MsgHdr) (pri bulk : Nat) (s : State) : Host.Outcome State Fault Refusal :=
  let c := peerCredits s.tw.dRate s.tw.dWidth
  if !s.tw.linkUp ∨ h.typ ≠ 0x41 then .next s
  else .next { s with tw := pumpFlits { s.tw with crPri := min c.1 (s.tw.crPri + pri), crBulk := min c.2 (s.tw.crBulk + bulk) } }

/-- Bytes of records retired per µs of the last period (Table 5.7, R268). -/
def drainRate (s : State) (f : Nat) : Nat := KV.findD s.jr.drainLast f 0 / 8192

/-- SHARE_UPDATE_SEND (R268): the owner is told a function's free share and drain rate where the share has changed. -/
def execShareUpdateSend (func : Nat) (s : State) : Host.Outcome State Fault Refusal :=
  let v := shareFree s func
  if s.md.mode ≠ .service ∨ funcs ≤ func ∨ KV.find s.jr.told func = some v then .next s
  else .next (send { s with jr := { s.jr with told := KV.set s.jr.told func v } } 0x03 0 [func, v, drainRate s func])

/-! ### The sense pair and the loss of the peer (R304 to R306, R319) -/

/-- SENSE_FAULT_SET (R305): the levels have disagreed for 10 µs. -/
def execSenseFaultSet (s : State) : Host.Outcome State Fault Refusal :=
  if !s.tw.linkUp || s.tw.senseFault || s.tw.senseIn == s.tw.peerSenseOut || s.time.dtb < s.tw.senseAt + 10000 then .next s
  else .next (raiseAll (record { s with tw := { s.tw with senseFault := true } } 0x62 [1]) 7 0xC3 0xC3)

/-- SENSE_FAULT_CLEAR (R305): the levels have agreed for 1 s. -/
def execSenseFaultClear (s : State) : Host.Outcome State Fault Refusal :=
  if !s.tw.senseFault || s.tw.senseIn != s.tw.peerSenseOut || s.time.dtb < s.tw.senseAt + 1000000000 then .next s
  else .next (raiseAll (record { s with tw := { s.tw with senseFault := false } } 0x62 [0]) 7 0xC3 0xC3)

/-- The refusals after which a module starts no training of its own (R309). -/
def holdsTraining (cause : Nat) : Bool := [1, 2, 3, 6, 7, 8, 9].contains cause

/-- Refuse the pairing (R309, R310, Table 10.12): the cause is kept and recorded, and the module goes to Solo. -/
def refusePairing (s : State) (cause : Nat) : State :=
  if s.md.mode ≠ .pairing then s
  else
    let ser := s.tw.hello.elim (List.replicate 20 0x20) (fun h => h.serial)
    let s := { s with
      tw := { s.tw with refuse := cause, refuseAt := s.time.dtb, refuseBoot := s.boot.boot, holdTraining := s.tw.holdTraining || holdsTraining cause
                        linkUp := false, step := 0, trainStep := 0, hello := none, table := [], spdmVer := 0, adminWait := s.tw.adminWait.filter (fun w => w.kind != 12) }
      keys := { s.keys with linkKeys := [], linkSalts := [], wrapKeys := [] } }
    raiseAll (updateAna (toMode (record s 0x61 (cause :: ser)) .solo)) 7 0xC3 0xC3

/-- PEER_LOST (R306, Table 10.12 cause 0Ah): 16 µs have passed without a valid flit: in Service the sense check begins; a pairing not committed is refused. -/
def execPeerLost (s : State) : Host.Outcome State Fault Refusal :=
  if s.time.dtb < s.tw.lastFlitAt + 16000 then .next s
  else if s.md.mode = .service then .next { s with tw := { s.tw with lostPending := true } }
  else if s.md.mode = .pairing ∧ 2 ≤ s.tw.step then .next (refusePairing s 0x0A) else .next s

/-- The decision of the sense check (R306): 1 peer dead, where every sample is low and SENSE_FAULT is 0; else 2, a link fault. -/
def senseDecision (samples : List Bool) (fault : Bool) : Nat := if samples.all (fun b => !b) && !fault then 1 else 2

/-- LOSS_DECISION (R306, R319): 40 samples of PAIRSENSE_IN over 4 µs decide. -/
def execLossDecision (samples : List Bool) (s : State) : Host.Outcome State Fault Refusal :=
  if s.md.mode ≠ .service || !s.tw.lostPending || samples.length ≠ 40 || s.time.dtb < s.tw.lastFlitAt + 20000 then .next s
  else .next (loseTwin s (senseDecision samples s.tw.senseFault))

/-- The refusal of a pairing step that fails or overruns its bound (Table 10.10). -/
def stepCause (step : Nat) : Nat :=
  if step ≤ 3 then 5 else if step ≤ 6 then 7 else if step = 7 then 9 else 0x0A

/-- The instant by which a pairing step ends (Table 10.10): from the Pairing entry, and for HELLO and the admission checks from the end of training. -/
def stepEnd (t : Twin) (step : Nat) : Nat :=
  if step ≤ 1 then t.pairAt + 2000000000
  else if step = 2 then t.trainedAt + 40000000
  else if step = 3 then t.trainedAt + 45000000
  else t.pairAt + nth [700000000, 800000000, 810000000, 1500000000, 2000000000] (step - 4)

/-- PAIRING_TIMEOUT (R310): the step the pairing stands at overruns its bound. -/
def execPairingTimeout (step : Nat) (s : State) : Host.Outcome State Fault Refusal :=
  if s.md.mode ≠ .pairing ∨ step ≠ s.tw.step ∨ s.time.dtb < stepEnd s.tw step then .next s else .next (refusePairing s (stepCause step))

/-! ### Messages received (R263, R298 to R302) -/

/-- An integrity fault (R302): the message is discarded, the link goes down, the fault is recorded and captured; the third within 10 minutes locks the link. -/
def integrityFault (s : State) (cls : Nat) : State :=
  let at_ := (s.tw.integrityAt ++ [s.time.dtb]).filter (fun t => s.time.dtb < t + 600000000000)
  let lock := s.tw.locked || 3 ≤ at_.length
  let new := lock && !s.tw.locked
  let s := { s with tw := { s.tw with linkUp := false, integrity := min (s.tw.integrity + 1) (2^32 - 1), integrityAt := at_, locked := lock } }
  let s := capture (record s 0x64 [cls, bit lock]) 0x64
  if new then raiseAll s 7 0xC3 0xC3 else s

/-- The phase of a message seen on its class; the older keys go once both classes show the new one (R302). -/
def notePhase (s : State) (cls : Nat) (phase : Bool) : State :=
  let p := modAt s.tw.rxPhase cls (fun _ => phase)
  { s with
    tw := { s.tw with rxPhase := p, counters := modAt s.tw.counters (2 + cls) (· + 1) }
    keys := if p.all (· == s.tw.keyPhase) then { s.keys with linkKeys := s.keys.linkKeys.take 4, linkSalts := s.keys.linkSalts.take 4, wrapKeys := s.keys.wrapKeys.take 1 } else s.keys }

/-- A message is discarded and recorded (R298, R299). -/
def discard (s : State) (h : MsgHdr) : State := record s 0x65 [h.typ, h.pepoch]

/-- A priority or bulk message in Service: its integrity, then its epoch (R263, R299, R302). -/
def peerMsg (s : State) (h : MsgHdr) (typs : List Nat) (f : State → State) : Host.Outcome State Fault Refusal :=
  if !s.tw.linkUp || !s.sup.rails then .next s
  else if !h.authOk then .next (integrityFault s (msgClass h.typ))
  else
    let s := notePhase s (msgClass h.typ) h.phase
    if s.md.mode ≠ .service ∨ h.pepoch ≠ s.jr.pepoch.toNat ∨ !typs.contains h.typ then .next (discard s h)
    else .next (f s)

/-- A message that is taken in Service, and from step 6 of the pairing handshake on, whose epochs still differ (R310): the pairing table, the commit, and what the twin lacks (R391). -/
def pairingMsg (s : State) (h : MsgHdr) (typs : List Nat) (f : State → State) : Host.Outcome State Fault Refusal :=
  if s.md.mode ≠ .pairing then peerMsg s h typs f
  else if !s.tw.linkUp || !s.sup.rails then .next s
  else if !h.authOk then .next (integrityFault s (msgClass h.typ))
  else
    let s := notePhase s (msgClass h.typ) h.phase
    if s.tw.step < 6 ∨ !typs.contains h.typ then .next (discard s h) else .next (f s)

end Sys2Proof.Machine
end

