-- ==== Sys2Proof/Machine/Pairing.lean ====
section
/-! DEFINITION. The pairing handshake: HELLO and the admission checks, the tables and the agreement, the commit, and key updates (R302, R307 to R314, R391, Tables 10.10 to 10.14). -/

namespace Sys2Proof.Machine

/-! ### HELLO and admission (R309 to R312) -/

/-- A name of no module: 20 spaces. -/
def noSerial : List Nat := List.replicate 20 0x20

/-- The serial of the last twin, as a HELLO gives it. -/
def lastTwin (s : State) : List Nat := if s.tw.twinSerial.isEmpty then noSerial else s.tw.twinSerial

/-- The twin is not this pair's twin (Table 10.12 cause 06h). -/
def otherPair (s : State) (b : Hello) : Bool :=
  s.tw.pairId != 0 && b.pairId != 0 && (s.tw.pairId != b.pairId || b.lastTwin != s.boot.serial || lastTwin s != b.serial)

/-- The admission checks in the order of Table 10.12 (R312): the cause of a refusal. -/
def admission (s : State) (b : Hello) : Option Nat :=
  if b.part ≠ s.part.code then some 1
  else if b.fwMajor ≠ (running s).elim 0 (fun i => i.major) ∨ b.proto ≠ 1 then some 2
  else if b.slot0 = s.sup.slotid.getLsbD 0 then some 3
  else if otherPair s b then some 6
  else none

/-- The requests of step 4 (R310): GET_VERSION, GET_CAPABILITIES, NEGOTIATE_ALGORITHMS, GET_DIGESTS, GET_CERTIFICATE, CHALLENGE, GET_MEASUREMENTS. -/
def attest (s : State) : State := [0x84, 0xE1, 0xE3, 0x81, 0x82, 0x83, 0xE0].foldl (fun s c => send s 0x44 0 [c]) s

/-- HELLO (R310 steps 2 and 3): the twin's HELLO is kept and judged; a pairing that passes goes on to attestation. -/
def execHello (h : MsgHdr) (b : Hello) (s : State) : Host.Outcome State Fault Refusal :=
  if !s.tw.linkUp ∨ h.typ ≠ 0x43 ∨ s.md.mode ≠ .pairing ∨ s.tw.step ≠ 2 then .next s
  else
    let s := { s with tw := { s.tw with hello := some b } }
    match admission s b with
    | some c => .next (refusePairing s c)
    | none => .next (attest { s with tw := { s.tw with step := 4 } })

/-! ### Keys of the link (R301, R302, R385) -/

/-- A 12-byte IV salt (R301). -/
def drawSalt (s : State) : Nat × State := ((drawFree s).1 % 2^96, (drawFree s).2)

/-- Take new keys: four link keys, two classes in two directions, with their IV salts, and the pair wrap key; the older ones are kept until both classes show the new phase. -/
def renewKeys (s : State) : State :=
  let (a, s) := drawKey s
  let (b, s) := drawKey s
  let (c, s) := drawKey s
  let (d, s) := drawKey s
  let (w, s) := drawKey s
  let (e, s) := drawSalt s
  let (f, s) := drawSalt s
  let (g, s) := drawSalt s
  let (h, s) := drawSalt s
  { s with
    keys := { s.keys with linkSalts := [e, f, g, h] ++ s.keys.linkSalts.take 4, linkKeys := [a, b, c, d] ++ s.keys.linkKeys.take 4, wrapKeys := w :: s.keys.wrapKeys.take 1 }
    tw := { s.tw with counters := [0, 0, 0, 0], keyAt := s.time.dtb } }

/-- A key update (R302): new keys, the other phase, one more in the log. -/
def updateKeys (s : State) : State :=
  let s := renewKeys s
  { s with tw := { s.tw with keyPhase := !s.tw.keyPhase, keyUpdates := min (s.tw.keyUpdates + 1) (2^32 - 1) } }

/-- The keys of a session that begins (R301): phase 0, no update yet. -/
def sessionKeys (s : State) : State :=
  let s := renewKeys { s with keys := { s.keys with linkKeys := [], linkSalts := [], wrapKeys := [] } }
  { s with tw := { s.tw with keyPhase := false, rxPhase := [false, false], keyUpdates := 0 } }

/-- New keys are due (R302): a message counter has reached 2^32, or 24 h have passed since the last update. -/
def keysDue (s : State) : Bool := s.tw.counters.any (2^32 ≤ ·) || s.tw.keyAt + 86400000000000 ≤ s.time.dtb

/-- KEY_UPDATE_DUE (R302, R307): rank 0 asks for new keys and takes its own. -/
def execKeyUpdateDue (s : State) : Host.Outcome State Fault Refusal :=
  if s.md.mode ≠ .service ∨ !s.tw.linkUp ∨ rank s ≠ 0 ∨ !keysDue s then .next s
  else .next (updateKeys (send s 0x44 0 [0xE9]))

/-! ### The tables and the agreement (R313, R314) -/

/-- This module's entry of a namespace (Table 10.13). -/
def tableEntry (nsid : Nat) (n : Ns) : PtEntry :=
  { nsid := nsid, mirrored := n.mirrored, here := n.here, cont := n.cont, fenced := n.fenced, yielded := n.yielded, ploss := n.ploss
    sepPepoch := n.sepPepoch, zones := if n.held then n.zones.countP (fun z => z.2.st != .empty) else 0 }

/-- The entries this module sends: its namespaces, and its tombstones. -/
def ownTable (s : State) : List PtEntry :=
  s.zn.ns.map (fun p => tableEntry p.1 p.2) ++ s.zn.tombs.map (fun t => { nsid := t, deleted := true })

/-- The fields of an entry as a message carries them. -/
def entryFields (e : PtEntry) : List Nat :=
  [e.nsid, bit e.mirrored + 2 * bit e.here + 4 * bit e.cont + 8 * bit e.fenced + 16 * bit e.yielded + 32 * bit e.deleted + 64 * bit e.ploss,
   e.sepPepoch, e.zones]

/-- What the agreement makes of a namespace on this module (Table 10.14). -/
inductive Agree where
  | mine | theirs | diverged | delete | lost | keep
  deriving DecidableEq, Repr

/-- Mirrored on both (Table 10.14): `rank0` this module's rank is 0. -/
def agreeBoth (rank0 : Bool) (n : Ns) (e : PtEntry) : Agree :=
  if !n.cont && !e.cont then (if n.here != e.here then (if n.here then .mine else .theirs) else if rank0 then .mine else .theirs)
  else if !e.cont then .mine
  else if !n.cont then .theirs
  else if n.yielded && !e.yielded then .theirs
  else if e.yielded && !n.yielded then .mine
  else .diverged

/-- Table 10.14 for a namespace this module holds. -/
def agreeHeld (rank0 replaced : Bool) (n : Ns) (e : Option PtEntry) : Agree :=
  match e with
  | none => if n.ploss then .lost else if n.mirrored then .mine else if !n.here && replaced then .lost else .keep
  | some e =>
    if e.deleted then (if n.cont then .diverged else .delete)
    else if n.ploss || e.ploss then .lost
    else if n.mirrored != e.mirrored then .diverged
    else if n.mirrored then agreeBoth rank0 n e
    else .keep

/-- Table 10.14 for an NSID the twin lists and this module does not hold. -/
def agreeAbsent (tomb : Bool) (e : PtEntry) : Agree :=
  if tomb && !e.deleted && e.cont then .diverged else .keep

/-- The twin is a replacement of the module last paired with (R325). -/
def replacedTwin (s : State) : Bool := !s.tw.twinSerial.isEmpty && s.tw.hello.any (fun h => h.serial != s.tw.twinSerial)

/-- The agreement for one NSID. -/
def agree (s : State) (nsid : Nat) : Agree :=
  let e := s.tw.table.find? (fun e => e.nsid == nsid)
  match nsOf s nsid, e with
  | some n, _ => agreeHeld (rank s == 0) (replacedTwin s) n e
  | none, some e => agreeAbsent (s.zn.tombs.contains nsid) e
  | none, none => .keep

/-- Every NSID either table names. -/
def agreeIds (s : State) : List Nat := (s.zn.ns.map (fun p => p.1) ++ s.tw.table.map (fun e => e.nsid)).dedup

/-- Refuse the pairing for a diverged namespace (cause 09h): those that differ are shown in log C3h. -/
def refuseDiverged (s : State) : State :=
  let s := { s with zn := { s.zn with ns := KV.mapVals s.zn.ns (fun k n => { n with diverged := agree s k == .diverged }) } }
  refusePairing s 9

/-! ### What the twin lacks (R255, R314, R391) -/

/-- Send a command of the handshake and wait for its answer. -/
def carryPairing (s : State) (nsid : Nat) (body : List Nat) : State :=
  if s.md.mode ≠ .pairing then s else carryAdmin s { tag := 0, func := twinAsked, cid := 0, kind := 12, nsid := nsid } body

/-- The keys of a namespace this module is to own (R391): the number of its key tags with every injected key, or its generated key. -/
def carryKeys (s : State) (nsid : Nat) (n : Ns) : State :=
  if n.kpio = 0 then (if nsKey s n = 0 then s else carryPairing s nsid [0x81, nsid, 0, wrapped s (nsKey s n)])
  else n.slots.zipIdx.foldl (fun s x =>
    let k := KV.findD s.keys.slots x.1 {}
    if k.cur = 0 then s else carryPairing s nsid [0x100, nsid, 0, x.2, wrapped s k.cur, k.tenant]) (carryPairing s nsid [0x81, nsid, n.kpio, 0])

/-- A namespace of this module that the twin does not list: it is created there, with its key (R96, R255, R314, R391). -/
def carryMissing (s : State) (nsid : Nat) : State :=
  match nsOf s nsid with
  | none => s
  | some n =>
    if n.ploss then s
    else if !n.mirrored then
      (if n.here then
        let s := carryPairing s nsid ([0x0D, nsid, 0, bit n.zoned, n.nsze, n.flbas, n.dps, 0, 0] ++ n.znums)
        if n.kpio = 0 then s else carryPairing s nsid [0x81, nsid, n.kpio, 0]
       else s)
    else match mirroredNumbers s n with
      | none => refuseDiverged s
      | some nums => carryPairing (renumber s nsid nums) nsid ([0x0D, nsid, 0, bit n.zoned, n.nsze, n.flbas, n.dps, 1, wrapped s (nsKey s n)] ++ nums)

/-- Send what the twin lacks: its missing namespaces, then the keys of every mirrored namespace this module is to own. -/
def carryAll (s : State) : State :=
  let missing := (s.zn.ns.filter (fun p => !s.tw.table.any (fun e => e.nsid == p.1))).map (fun p => p.1)
  let s := missing.foldl carryMissing s
  s.zn.ns.foldl (fun s p => if p.2.mirrored && !p.2.ploss && agree s p.1 == .mine then carryKeys s p.1 p.2 else s) s

/-! ### The commit (R263, R308, R310 step 8, R313, R314) -/

/-- The pair identifier after the commit (R308, R312): the one held, the twin's, or a new one. -/
def newPairId (s : State) (b : Hello) : Nat × State :=
  if s.tw.pairId ≠ 0 then (s.tw.pairId, s)
  else if b.pairId ≠ 0 then (b.pairId, s)
  else ((drawFree s).1 % (2^64 - 1) + 1, (drawFree s).2)

/-- The commit's effect on one namespace. -/
def commitNs (s : State) (nsid : Nat) : State :=
  let a := agree s nsid
  if a = .delete then deleteNs s nsid
  else
    let s := if a = .theirs && (nsOf s nsid).any (fun n => n.yielded) then emptyNs s nsid else s
    setNs s nsid (fun n => { n with
      here := if a = .mine then true else if a = .theirs then false else n.here, ploss := n.ploss || a == .lost, fenced := false, cont := false
      yielded := false, diverged := false, sepPepoch := 0, offered := false, resyncPending := n.mirrored && a != .lost, resyncPct := 0, levelled := [] })

/-- A copy here differs from the owner's (Table 2.5): changed there while separated, new here, or not level from before. -/
def differs (s : State) : Bool :=
  s.zn.ns.any (fun p => p.2.mirrored && agree s p.1 == .theirs
    && (p.2.resyncPending || s.tw.table.any (fun e => e.nsid == p.1 && e.cont)))

/-- Some mirrored namespace's copies differ, here or on the twin (Table 2.5), as the two tables show it: the owner changed it while separated, the other module lacks it, or this copy was not level. -/
def copiesDiffer (s : State) : Bool :=
  differs s || s.zn.ns.any (fun p => p.2.mirrored && agree s p.1 == .mine && (p.2.cont || !s.tw.table.any (fun e => e.nsid == p.1 && !e.deleted)))

/-- A zone's entry of a summary (R321). -/
def summaryEntry (x : Nat × Zone) : List Nat := [x.1, x.2.st.code, x.2.wp, x.2.resetId, x.2.keyOseq, x.2.keyEpoch]

/-- The target asks for the next namespace by its summary (R321, R322): ascending NSID. -/
def sendSummary (s : State) : State :=
  match s.zn.ns.find? (fun p => p.2.mirrored && !p.2.here && p.2.resyncPending) with
  | none => s
  | some (nsid, n) => send s 0x23 0 ([7, nsid, 0, 0, 0, 0, 0, 0, 0, 0] ++ (n.zones.filter (fun z => z.2.st != .empty)).flatMap summaryEntry)

/-- The commit (R310 step 8): the pair record, the owners of Table 10.14, no fences and no tombstones, Service, and the resync starts. -/
def commit (s : State) : State :=
  match s.tw.hello with
  | none => s
  | some b =>
    let target := differs s
    let flag := copiesDiffer s
    let (id, s) := newPairId s b
    let total := if target then (drawFree s).1 % 2^64 else 0
    let s := if target then (drawFree s).2 else s
    let s := (agreeIds s).foldl commitNs s
    let any := s.zn.ns.any (fun p => p.2.resyncPending)
    let s := { s with
      zn := { s.zn with tombs := [] }
      jr := { s.jr with pepoch := BitVec.ofNat 32 (max s.jr.pepoch.toNat b.pepoch + 1), credit := [], twinDrain := [], told := [] }
      cal := { s.cal with grantsIn := [], grantsOut := [], viaTwin := [], viaAll := [], newPair := true }
      tw := { s.tw with
        pairId := id, twinSerial := b.serial, twinFw := b.fwMajor + b.fwMinor * 2^8 + b.fwBuild * 2^16, features := b.features &&& (ownHello s 0).features
        paired := true, everPaired := true, twinDeparted := false, holdTraining := false, pairings := min (s.tw.pairings + 1) (2^32 - 1), step := 0, table := []
        resyncTotal := total, resyncDone := 0, resyncStart := if any then s.time.dtb else 0, work := [], frames := [], firstMirror := [] } }
    let s := toMode (record s 0x61 (0 :: b.serial)) .service
    let s := if flag then setFlags s (fun m => { m with resyncing := true }) else s
    raiseAll (sendSummary s) 7 0xC3 0xC3

/-! ### Steps 6 to 8 (R310) -/

/-- Something sent before the commit waits for its answer. -/
def pairingWaits (s : State) : Bool := s.tw.adminWait.any (fun w => w.kind == 12)

def setAcc (s : State) (i : Nat) : State := { s with tw := { s.tw with pairAcc := modAt s.tw.pairAcc i (fun _ => true) } }
def acc (s : State) (i : Nat) : Bool := s.tw.pairAcc.getD i false

/-- Step 7 ends once nothing is waited for: rank 0 sends the result; rank 1, once it has the result, confirms it and awaits the commit. -/
def endAgreement (s : State) : State :=
  if pairingWaits s ∨ s.md.mode ≠ .pairing then s
  else if rank s = 0 then (if acc s 2 then s else setAcc (send s 0x0D 0 [2, 1]) 2)
  else if acc s 2 then
    let s := send s 0x0D 0 [2, 1]
    { s with tw := { s.tw with step := 8 } }
  else s

/-- Step 7 (R310, R314): both tables are known; a diverged namespace refuses; what the twin lacks is sent. -/
def pairOn (s : State) : State :=
  if s.md.mode ≠ .pairing ∨ s.tw.step ≠ 7 ∨ !acc s 1 then s
  else if (agreeIds s).any (fun i => agree s i == .diverged) then refuseDiverged (if rank s = 0 then send s 0x0D 0 [2, 0] else s)
  else if acc s 0 then endAgreement s
  else endAgreement (carryAll (setAcc s 0))

/-- The copy of the HELLO confirms what was received (step 6): the entries are sent. -/
def helloConfirmed (s : State) (c : Hello) : State :=
  if s.tw.step ≠ 6 then s
  else if s.tw.hello ≠ some c then refusePairing s 7
  else pairOn (send { s with tw := { s.tw with step := 7 } } 0x0D 0 (1 :: (ownTable s).flatMap entryFields))

/-- The result, or its confirmation (step 7): rank 0 then sends the commit, its own record durable. -/
def resultTaken (s : State) (ok : Bool) : State :=
  if s.tw.step ≠ 7 then s
  else if !ok then refuseDiverged s
  else if rank s = 0 then send { s with tw := { s.tw with step := 8 } } 0x09 0 [4]
  else pairOn (setAcc s 2)

/-- PAIRING_TABLE (R310 steps 6 and 7); outside a pairing it is discarded (R299). -/
def execPairingTable (h : MsgHdr) (copy : Option Hello) (entries : List PtEntry) (result : Option Bool) (s : State) : Host.Outcome State Fault Refusal :=
  if s.md.mode ≠ .pairing then peerMsg s h [] (fun s => s)
  else pairingMsg s h [0x0D] (fun s =>
    match copy, result with
    | some c, _ => helloConfirmed s c
    | none, some ok => resultTaken s ok
    | none, none => pairOn (setAcc { s with tw := { s.tw with table := entries } } 1))

/-- NOTICE_PAIRING_COMMIT (R310 step 8): rank 1 answers once its record is durable; both enter Service. Outside a pairing it is discarded (R299). -/
def execNoticePairingCommit (h : MsgHdr) (s : State) : Host.Outcome State Fault Refusal :=
  if s.md.mode ≠ .pairing then peerMsg s h [] (fun s => s)
  else pairingMsg s h [0x09] (fun s =>
    if s.tw.step ≠ 8 then s else commit (if rank s = 0 then s else send s 0x09 0 [4]))

end Sys2Proof.Machine
end

