-- ==== Sys2Proof/Machine/Peer.lean ====
section
/-! DEFINITION. Commands that messages of the twin bring: mirror records and their acknowledgement, forwarded commands and their completion, confirmations, grants, drops (R123, R146, R267 to R270, R280, R299, R315 to R317). -/

namespace Sys2Proof.Machine

/-! ### Mirror records (R267) -/

/-- The record that a mirror record is kept as (R267 step 3, Table 9.1): with its own SEQ and COPY set. -/
def copyRec (s : State) (n : Ns) (b : MirrorBody) : VRec :=
  { typ := b.typ, mirrored := true, copy := true, forwarded := b.forwarded, wt := s.md.writeThrough, func := b.func
    pages := if b.typ = 1 ∨ b.typ = 3 then ceilDiv (b.nlb * (lbaBytes n.flbas + metaBytes n.flbas)) 4096 else 0
    oseq := b.oseq, pepoch := b.pepoch, nsid := b.nsid, zone := if n.zoned then b.zone else 0xFFFFFFFF, slba := b.slba, nlb := b.nlb
    bytes := recBytes n (if b.typ = 2 then .writeZeroes else if b.typ = 1 ∨ b.typ = 3 then .write else .zms) b.nlb
    zidx := if n.zoned then b.slba / zoneSize n.flbas else 0, action := b.action, arg := b.arg, data := b.data, key := b.key
    old := if n.zoned ∨ 3 < b.typ then [] else (List.range b.nlb).map (fun i => readLba s b.nsid (b.slba + i)) }

/-- Store a record received: a data record of write-through goes to its row at once (R279). -/
def storeCopy (s : State) (r : VRec) (level : Bool) : State :=
  let core := if r.ofZone then zoneCore s r.zone else freeCore s
  let (s, q) := formRecord s core { r with acked := level }
  if r.wt && (r.typ == 1 || r.typ == 3) then stageRec s q else s

/-- A format of the owner reaches the switch on this module (R403): the record is durable as it is made. -/
def takeFormat (s : State) (b : MirrorBody) : State :=
  let s := nsRecord s b.nsid 3 b.arg b.key false
  ackMirror (switchErase s b.nsid (b.arg / 4096 == 1) b.key (b.arg % 16) (b.arg / 16 % 256)) b.oseq b.func

/-- A namespace whose records come from the twin. -/
def mirroredHere (n : Ns) : Bool := !n.here && (n.mirrored || n.becoming)

/-- A copy of a record already held (R33): its durability acknowledges it, or has. -/
def heldCopy (s : State) (b : MirrorBody) : Option VRec :=
  (s.jr.recs.find? (fun p => p.2.copy && p.2.nsid == b.nsid && p.2.oseq == b.oseq && p.2.pepoch == b.pepoch)).map (fun p => p.2)

/-- A record of a metadata namespace whose every LBA holds content of an equal or higher ordering key: nothing of it is left to apply (R33, R267). -/
def appliedMeta (s : State) (r : VRec) : Bool :=
  !r.ofZone && 1 ≤ r.typ && r.typ ≤ 3 && (List.range r.nlb).all (fun i =>
    let x := readLba s r.nsid (r.slba + i)
    x != {} && keyLe r.pepoch r.oseq x.epoch x.oseq)

/-- Handle a mirror record (R267, R108, R322): a duplicate is acknowledged again; one whose placement is refused here goes back to the owner; one of a zone not level is held. -/
def takeMirror (s : State) (h : MsgHdr) (b : MirrorBody) : State :=
  match nsOf s b.nsid with
  | none => discard s h
  | some n =>
    if !mirroredHere n then discard s h
    else if b.typ = 0x11 then takeFormat s b
    else
      let r := copyRec s n b
      let again : State := ackMirror s b.oseq b.func
      match heldCopy s b with
      | some x => if x.durable && x.acked then again else s
      | none =>
      if applied n r || appliedMeta s r then again
      else if !copyLevel n r.zidx then storeCopy s r false
      else match takeCopy s r with
        | .error st => send s 0x06 (refusalTag b.oseq) [r.zidx, st.code]
        | .ok s => storeCopy s r true

/-- MIRROR_RECORD (R267). -/
def execMirrorRecord (h : MsgHdr) (b : MirrorBody) (s : State) : Host.Outcome State Fault Refusal :=
  peerMsg s h [0x01] (fun s => takeMirror s h b)

/-- The records this module formed and sent under an OSEQ. -/
def sentRecs (s : State) (oseq : Nat) : List Nat :=
  (s.jr.recs.filter (fun p => p.2.mirrored && !p.2.copy && !p.2.acked && p.2.oseq == oseq)).map (fun p => p.1)

/-- A record the twin has acknowledged: its change may be durable (R265). -/
def acknowledge (s : State) (q : Nat) : State := recordSettled (nsSettled (setRec s q (fun r => { r with acked := true })) q) q

/-- MIRROR_ACKNOWLEDGEMENT (R267, R268, R318). -/
def execMirrorAcknowledgement (h : MsgHdr) (oseq func share : Nat) (s : State) : Host.Outcome State Fault Refusal :=
  peerMsg s h [0x02] (fun s =>
    let s := { s with jr := { s.jr with credit := KV.set s.jr.credit func share } }
    tryOffer (tryDepart ((sentRecs s oseq).foldl acknowledge s)))

/-- SHARE_UPDATE (R268). -/
def execShareUpdate (h : MsgHdr) (func share drain : Nat) (s : State) : Host.Outcome State Fault Refusal :=
  peerMsg s h [0x03] (fun s => { s with jr := { s.jr with credit := KV.set s.jr.credit func share, twinDrain := KV.set s.jr.twinDrain func drain } })

/-- DROP (R280): the copy with that OSEQ goes; reads then return what it replaced (R271). -/
def execDrop (h : MsgHdr) (oseq : Nat) (s : State) : Host.Outcome State Fault Refusal :=
  peerMsg s h [0x0A] (fun s =>
    ((s.jr.recs.filter (fun p => p.2.copy && p.2.oseq == oseq && p.2.pepoch == s.jr.pepoch.toNat)).map (fun p => p.1)).foldl dropCopy s)

/-! ### A placement the twin refuses (R108) -/

/-- The zone of a refused record stays Empty on both modules; one that held data or an extension before stays Closed. -/
def unplaceZone (s : State) (r : VRec) : State :=
  match nsOf s r.nsid with
  | none => s
  | some n =>
    let z := n.zone r.zidx
    if z.wp = 0 ∧ (r.action = 5 ∨ !z.extValid) then emptyZone s r.nsid r.zidx
    else setZone s r.nsid r.zidx (fun z => { z with st := .closed, openFunc := none, taken := z.wp })

/-- Take back a record that is not applied, and end its command. -/
def failRec (s : State) (q : Nat) (r : VRec) (st : Status) : State :=
  let s := { s with jr := unplace { s.jr with
    recs := KV.del s.jr.recs q, credit := if r.wt then s.jr.credit else KV.upd s.jr.credit r.func 0 (· + r.bytes) } q }
  let s := zopResult s q (.failed st)
  r.slot.elim s (fun sl => finish s sl st)

/-- The twin refuses the placement of a record (R108): the command ends with its status, the zone's later records with Zone Invalid Write. -/
def refusedByTwin (s : State) (tag : Nat) (st : Status) : State :=
  match s.jr.recs.find? (fun p => p.2.mirrored && !p.2.copy && !p.2.acked && p.2.ofZone && refusalTag p.2.oseq == tag) with
  | none => s
  | some (q, r) =>
    let later := (zonePending s r.nsid r.zidx).filter (fun p => q < p.1)
    let s := later.foldl (fun s p => failRec (send s 0x0A 0 [p.2.oseq]) p.1 p.2 .zoneInvalidWrite) s
    unplaceZone (failRec s q r st) r

/-! ### Forwarded commands (R316, R317) -/

/-- A status by its code. -/
def allStatus : List Status :=
  [.success, .invalidOpcode, .invalidField, .sequenceError, .invalidQueueId, .invalidQueueSize, .invalidVector, .invalidQueueDeletion,
   .completionQueueInvalid, .invalidNamespace, .featureNotSaveable, .featureNotChangeable, .invalidLogPage, .sglLengthInvalid,
   .abortLimitExceeded, .aerLimitExceeded, .aborted, .abortedSqDeletion, .namespaceNotReady, .anaInaccessible, .anaPersistentLoss,
   .anaTransition, .insufficientCapacity, .nsidUnavailable, .controllerListInvalid, .nsAlreadyAttached, .nsNotAttached,
   .invalidControllerId, .invalidSecondaryState, .invalidResourceCount] ++
  [.formatInProgress, .sanitizeInProgress, .sanitizeFailed, .invalidFirmwareSlot, .invalidFirmwareImage, .overlappingRange, .zoneIsFull,
   .zoneIsReadOnly, .zoneIsOffline, .zoneInvalidWrite, .zoneBoundaryError, .tooManyActive, .tooManyOpen, .zoneInvalidTransition,
   .capacityExceeded, .lbaOutOfRange, .dataTransferError, .unrecoveredRead, .guardCheck, .appTagCheck, .refTagCheck, .invalidFormat,
   .c0, .c1, .c2, .c3, .c4, .c5, .c6, .c7]

def statusOf (code : Nat) : Option Status := allStatus.find? (fun st => st.code == code)

/-- The command of a forwarded entry, by its opcode (NVMe 2.0 and the Zoned Namespace command set, PRESUMED). -/
def ioOpOf (op : Nat) : Option IoOp :=
  match op with
  | 2 => some .read | 1 => some .write | 8 => some .writeZeroes | 0x7D => some .append | 0 => some .flush | 0x7A => some .zmr | 0x79 => some .zms
  | _ => none

/-- The class of a forwarded entry (Table 5.1). -/
def classOf (c : Nat) : LClass := if c = 0 then .express else if c = 1 then .standard else if c = 2 then .bulk else .unbound

/-- The completion of a forwarded command that is not carried out (Table 10.7). -/
def answerForward (s : State) (h : MsgHdr) (st : Status) (dw0 : Nat := 0) : State :=
  send s (if h.typ = 0x04 then 0x05 else 0x22) h.tag [st.code, dw0, 0]

/-- A time of the twin in this module's time base (R303). -/
def ownTime (s : State) (t : Nat) : Nat := (Int.ofNat t - s.tw.peerOffset).toNat

/-- The context of a forwarded entry: its deadline as given, its timer on the module that received it (R316). -/
def forwardedCmd (s : State) (h : MsgHdr) (op : IoOp) (e : Io) (cls : LClass) (stamp deadline key : Nat) (n : Ns) : Cmd :=
  { func := e.func, sqid := e.sqid, cid := e.cid, op := op, nsid := e.nsid, slba := e.slba, nlb := e.nlb, cls := cls, stamp := ownTime s stamp
    deadline := if deadline = 0 then none else some deadline, core := dispatchCore s n op e.slba, key := key, data := if op = .zms then e.ext else e.data
    action := e.action, zone := if n.zoned then some (e.slba / zoneSize n.flbas) else none, fromTwin := true, tag := h.tag }

/-- Carry out a forwarded command (R315, R316): not where this module does not hold the namespace's order, not during a transfer (R318), not where an Abort waits for it. -/
def takeForwarded (s : State) (h : MsgHdr) (op : IoOp) (e : Io) (cls : LClass) (stamp deadline claim : Nat) (all : Bool) : State :=
  if s.tw.keptAborts.contains h.tag then answerForward { s with tw := { s.tw with keptAborts := s.tw.keptAborts.filter (· != h.tag) } } h .aborted
  else match nsOf s e.nsid with
    | none => answerForward s h .anaInaccessible
    | some n =>
      if !n.here then answerForward s h .anaInaccessible
      else if n.offered && op.isWrite && op != .flush && cls != .unbound then answerForward (drawFree s).2 h .c0 ((drawFree s).1 % 51)
      else match keyFor s n e.func e.keyTag op.isWrite with
        | .error st => answerForward s h st
        | .ok key =>
          let slot := freeSlot s
          let c := forwardedCmd s h op e cls stamp deadline key n
          carryOut { s with port := { s.port with cmds := KV.set s.port.cmds slot c } } slot e all claim

/-- FORWARDED_COMMAND (R270, R299, R316): one of another epoch, or outside Service, is answered with Asymmetric Access Inaccessible. -/
def execForwardedCommand (h : MsgHdr) (op : Nat) (e : Io) (cls stamp deadline claim : Nat) (all : Bool) (s : State) : Host.Outcome State Fault Refusal :=
  if !s.tw.linkUp || !s.sup.rails || (h.typ != 0x04 && h.typ != 0x21) then .next s
  else if !h.authOk then .next (integrityFault s (msgClass h.typ))
  else
    let s := notePhase s (msgClass h.typ) h.phase
    if s.md.mode ≠ .service ∨ h.pepoch ≠ s.jr.pepoch.toNat then .next (answerForward s h .anaInaccessible)
    else match ioOpOf op with
      | none => .next (answerForward s h .invalidOpcode)
      | some o => .next (takeForwarded s h o e (classOf cls) stamp deadline claim all)

/-- A forwarded Select All ends (R121, R123): the zones neither acted on nor failed were skipped; one refused whole has examined none. -/
def endForwardedZop (s : State) (slot : Nat) (c : Cmd) (st : Status) : State :=
  let zones := (nsOf s c.nsid).elim 0 Ns.zoneCount
  let s := setZop s c.func c.zop (fun z =>
    let refused := st != .success && z.acted + z.failed = 0
    { z with done := true, finish := s.time.dtb, status := some st
             skipped := if refused then z.skipped else zones - z.acted - z.failed
             lastZone := if refused || zones = 0 then z.lastZone else zones - 1 })
  finish s slot st (c.zop % 2^32)

/-- The completion of a forwarded command: data goes on to the host, anything else completes. -/
def forwardDone (s : State) (slot : Nat) (c : Cmd) (st : Status) (dw0 dw1 : Nat) (data : List Nat) : State :=
  if !c.op.isWrite && st == .success then
    let bytes := if c.op = .read then c.nlb * (nsOf s c.nsid).elim 4096 (fun n => lbaBytes n.flbas) else data.length
    startXts (takeBufs (setCmd s slot (fun c => { c with fwd := false, stage := .dieDone, data := data, result := .success })) slot bytes [.transfer]) slot c bytes
  else if c.zop ≠ 0 then endForwardedZop s slot c st
  else finish s slot st dw0 dw1

/-- The answer to an admin command carried to the twin. -/
def adminReply (s : State) (tag code : Nat) (st : Status) (dw0 : Nat) : State :=
  match s.tw.adminWait.find? (fun w => w.tag == tag) with
  | none => s
  | some w => adminAnswer { s with tw := { s.tw with adminWait := s.tw.adminWait.filter (fun w => w.tag != tag) } } w (some (code, st)) dw0

/-- The answer to what was sent before the commit (R310 step 7): one that failed refuses the pairing. -/
def pairingReply (s : State) (tag : Nat) (st : Status) : State :=
  if !s.tw.adminWait.any (fun w => w.kind == 12 && w.tag == tag) then s
  else
    let s := { s with tw := { s.tw with adminWait := s.tw.adminWait.filter (fun w => w.tag != tag) } }
    if st = .success then pairOn s
    else refuseDiverged (if rank s = 0 then send s 0x0D 0 [2, 0] else s)

/-- FORWARDED_COMPLETION (R316): of a forwarded command, or of an admin command carried to the twin (R315). -/
def execForwardedCompletion (h : MsgHdr) (status dw0 dw1 : Nat) (data : List Nat) (s : State) : Host.Outcome State Fault Refusal :=
  pairingMsg s h [0x05, 0x22] (fun s =>
    match statusOf status with
    | none => discard s h
    | some st =>
      if s.md.mode = .pairing then pairingReply s h.tag st
      else match s.port.cmds.find? (fun p => p.2.fwd && p.2.tag == h.tag) with
      | some (slot, c) => forwardDone s slot c st dw0 dw1 data
      | none => adminReply s h.tag status st dw0)

/-! ### Zone confirmations (R123, R252, R322) -/

/-- A resync is done, as source or as target (KIND 05h): the flag resyncing clears once no copy of a namespace is behind (Table 2.5). -/
def endResync (s : State) : State :=
  if s.zn.ns.any (fun p => p.2.resyncPending) then s
  else setFlags { s with tw := { s.tw with resyncStart := 0 } } (fun m => { m with resyncing := false })

/-- A frame is confirmed: its bytes are done, the next frames go; the end of a namespace, and of the resync. -/
def frameDone (s : State) (f : Frame) : State :=
  let s := { s with tw := { s.tw with
    frames := s.tw.frames.filter (fun x => x.tag != f.tag), resyncDone := if f.reshape then s.tw.resyncDone else s.tw.resyncDone + f.bytes } }
  let s := if f.kind = 4 then setNs s f.nsid (fun n => { n with resyncPending := false, resyncPct := 100 }) else s
  let s := if f.kind = 4 ∧ !s.zn.ns.any (fun p => p.2.here && p.2.resyncPending) then
      addWork s [{ kind := 5, nsid := f.nsid }] else s
  let s := if f.kind = 5 then endResync s else s
  switchReshapes (pump s)

/-- One zone of a forwarded multi-zone command is settled (R122, R123); those between it and the last one confirmed were skipped. -/
def zoneSettled (s : State) (c : Cmd) (i : Nat) (st : Status) : State :=
  setZop s c.func c.zop (fun z =>
    let z := { z with skipped := z.skipped + (i - (if z.lastZone = 0xFFFFFFFF then 0 else z.lastZone + 1)) }
    z.settle i (if st = .success then .acted else .failed st))

/-- ZONE_CONFIRMATION (R123): by its tag a frame, a zone of a forwarded multi-zone command, a zone of a group move the twin carries out, or a placement refused. -/
def execZoneConfirmation (h : MsgHdr) (zone status : Nat) (s : State) : Host.Outcome State Fault Refusal :=
  peerMsg s h [0x06] (fun s =>
    match statusOf status with
    | none => discard s h
    | some st =>
      if 2^31 ≤ h.tag then refusedByTwin s h.tag st
      else match s.tw.frames.find? (fun f => f.tag == h.tag) with
        | some f => frameDone s f
        | none => match s.port.cmds.find? (fun p => p.2.fwd && p.2.zop != 0 && p.2.tag == h.tag) with
          | some (_, c) => zoneSettled s c zone st
          | none => match s.zn.ns.find? (fun p => p.2.reshape.any (fun r => r.remote && r.owner != twinAsked && r.tag == h.tag)) with
            | some (_, n) => n.reshape.elim s (fun r => noteMove s r zone (if st = .success then .acted else .failed st))
            | none => s)

/-- ALLOTMENT_GRANT (R146): the delegated fractions of a period. -/
def execAllotmentGrant (h : MsgHdr) (period : Nat) (grants : List (Nat × Nat × Nat)) (s : State) : Host.Outcome State Fault Refusal :=
  peerMsg s h [0x07] (fun s => { s with cal := { s.cal with
    grantsIn := grants.map (fun g => { func := g.1, group := g.2.1, sixteenths := g.2.2, period := period }) } })

/-- Dispose of a command carried out for the twin (R63, R81): one that ends is answered so that a queue deletion there completes. -/
def disposeForTwin (s : State) (slot : Nat) (c : Cmd) : State :=
  match fateOf s c with
  | .ends => finish (undo s slot c) slot .abortedSqDeletion
  | _ => s

/-- DISPOSE (R63). -/
def execDispose (h : MsgHdr) (tag : Nat) (s : State) : Host.Outcome State Fault Refusal :=
  peerMsg s h [0x0B] (fun s =>
    match s.port.cmds.find? (fun p => p.2.fromTwin && p.2.tag == tag) with
    | none => s
    | some (slot, c) => disposeForTwin s slot c)

end Sys2Proof.Machine
end

