-- ==== Sys2Proof/Machine/Handover.lean ====
section
/-! DEFINITION. Messages that move ownership or tell of the twin's end: Handover and Notice (R263, R306, R318, R326). -/

namespace Sys2Proof.Machine

/-- Take the PEPOCH a Handover carries (R318 step 3). -/
def takeEpoch (s : State) (epoch : Nat) : State := { s with jr := { s.jr with pepoch := BitVec.ofNat 32 epoch } }

/-- HANDOVER_OFFER (R318 step 2): this module owns the namespace from now on and replies under the old epoch. -/
def execHandoverOffer (h : MsgHdr) (nsid oseq epoch : Nat) (s : State) : Host.Outcome State Fault Refusal :=
  peerMsg s h [0x08] (fun s =>
    match nsOf s nsid with
    | none => discard s h
    | some n =>
      if !n.mirrored || n.here then discard s h
      else
        let s := send (releaseAllHeld s nsid) 0x08 0 [nsid, 2, oseq, epoch]
        updateAna (takeNs (takeEpoch s epoch) nsid false))

/-- A Reshape to single goes on once its namespace is the twin's (R256). -/
def afterTransfer (s : State) (nsid : Nat) : State :=
  match (nsOf s nsid).bind (·.reshape) with
  | none => s
  | some r =>
    if r.move || r.toMirrored || !r.homeTwin || r.remote then s
    else if r.cancelled then endReshape s nsid .aborted
    else carryAdmin s { tag := 0, func := twinAsked, cid := 0, kind := 11, nsid := nsid, arg := 0 } [9, nsid, 0, 1, 0]

/-- The transfer command completes: here, or by the answer to the twin that asked for it. -/
def endTransfer (s : State) : State :=
  let t := s.tw.transferCmd
  let s := { s with tw := { s.tw with transfer := none, transferCmd := none } }
  t.elim s (fun x => if x.1 = twinAsked then answerTwin s x.2.2 .success 0 else completeFor s x.1 x.2.2 .success)

/-- HANDOVER_TAKEN (R318): the transfer ends; this module no longer owns the namespace. -/
def execHandoverTaken (h : MsgHdr) (nsid _oseq epoch : Nat) (s : State) : Host.Outcome State Fault Refusal :=
  peerMsg s h [0x08] (fun s =>
    if s.tw.transfer ≠ some nsid then discard s h
    else
      let s := setNs (takeEpoch s epoch) nsid (fun n => { n with here := false, offered := false })
      tryOffer (afterTransfer (endTransfer (updateAna s)) nsid))

/-- HANDOVER_DEPART (R318, R324): every mirrored namespace of the twin is taken with CONT; at an unpair the pair is dissolved as well. -/
def execHandoverDepart (h : MsgHdr) (kind _oseq epoch : Nat) (s : State) : Host.Outcome State Fault Refusal :=
  peerMsg s h [0x08] (fun s =>
    let s := takeDeparture s kind epoch
    if kind = 7 then updateAna (dissolve s) else s)

/-- HANDOVER_DEPART_TAKEN (R318): the departing module goes on: to Holiday, to activation, to the thermal Quarantine, or, at an unpair, to Solo with the pair dissolved. -/
def execHandoverDepartTaken (h : MsgHdr) (kind _oseq epoch : Nat) (s : State) : Host.Outcome State Fault Refusal :=
  peerMsg s h [0x08] (fun s =>
    if s.tw.departing ≠ some kind ∨ !s.tw.departSent then discard s h
    else
      let s := takeEpoch (departed s kind) epoch
      if kind ≠ 7 then s
      else
        let w := s.tw.unpairCmd
        let s := toMode (dissolve { s with tw := { s.tw with unpairCmd := none } }) .solo
        w.elim s (fun x => completeFor s x.1 x.2.2 .success))

/-- A Notice of the twin's end (R306): at once a peer-dead decision in Service; a pairing not committed is refused. -/
def noticeOfEnd (s : State) (h : MsgHdr) (kind : Nat) : Host.Outcome State Fault Refusal :=
  if !s.tw.linkUp || !s.sup.rails then .next s
  else if !h.authOk then .next (integrityFault s (msgClass h.typ))
  else if s.md.mode = .pairing then .next (refusePairing (notePhase s (msgClass h.typ) h.phase) 0x0A)
  else peerMsg s h [0x09] (fun s => loseTwin s kind)

/-- NOTICE_HARVEST (R306). -/
def execNoticeHarvest (h : MsgHdr) (s : State) : Host.Outcome State Fault Refusal := noticeOfEnd s h 3

/-- NOTICE_QUARANTINE (R306). -/
def execNoticeQuarantine (h : MsgHdr) (s : State) : Host.Outcome State Fault Refusal := noticeOfEnd s h 4

/-- NOTICE_NVM_SUBSYSTEM_RESET (R65, R326): this module's controllers are reset; the mode stays. -/
def execNoticeNvmSubsystemReset (h : MsgHdr) (s : State) : Host.Outcome State Fault Refusal :=
  peerMsg s h [0x09] subsystemReset

end Sys2Proof.Machine
end

