-- ==== Sys2Proof/Machine/Namespaces.lean ====
section
/-! DEFINITION. Namespace Management and Attachment, Twin Policy, Format NVM and Sanitize (R90, R96, R97, R124, R250, R251, R315, R387, R402 to R405). Field places of the standard structures are those of NVMe 2.0 (PRESUMED). -/

namespace Sys2Proof.Machine

/-! ### Namespace Management (R97) -/

/-- The namespace a create describes. -/
def nsDescribed (s : State) (e : Sqe) : Ns :=
  { zoned := fld e.cdw11 24 8 == 2, nsze := le e.data 0 8, flbas := nth e.data 26 % 16, dps := nth e.data 29, mirrored := s.zn.defMirrored }

/-- A create's invalid fields (R90, R97, R124, Table 3.11). -/
def createField (e : Sqe) (s : State) : Option Status :=
  let n := nsDescribed s e
  if fld e.cdw11 24 8 ≠ 0 ∧ fld e.cdw11 24 8 ≠ 2 then some .invalidField
  else if 6 ≤ n.flbas then some .invalidFormat
  else if le e.data 92 4 ≠ 0 then some .invalidField
  else if 4 ≤ n.dps % 8 ∨ (n.dps % 8 ≠ 0 ∧ metaBytes n.flbas = 0) then some .invalidFormat
  else if n.zoned ∧ (n.nsze = 0 ∨ n.nsze % zoneSize n.flbas ≠ 0 ∨ le e.data 8 8 ≠ n.nsze) then some .invalidField
  else if !n.zoned ∧ (n.bytes % gib ≠ 0 ∨ n.bytes < gib ∨ 64 * gib < n.bytes) then some .invalidField
  else none

/-- The NSID a create takes (R307): the lowest free one; in Solo odd on rank 0 and even on rank 1. -/
def newNsid (s : State) : Option Nat :=
  ((List.range 256).map (· + 1)).find? (fun i => (nsOf s i).isNone && !s.zn.tombs.contains i
    && (s.md.mode == .service || i % 2 == 1 - bit (s.sup.slotid.getLsbD 0)) && !(awaited s).any (fun p => p.1 == i))

/-- NAMESPACE_CREATE (R96, R97, R124, R387): in Service the namespace is created here once the twin has it, so that nothing changes where the twin refuses. -/
def execNamespaceCreate (e : Sqe) (s : State) : Host.Outcome State Fault Refusal :=
  adminCmd e s true (if s.zn.defMirrored then .createMirrored else .namespaces) (createField e) (fun s =>
    let n := nsDescribed s e
    let nums := if n.zoned then newNumbers s n.mirrored n.zoneCount else []
    if !nsFits s n 1 ∨ (n.zoned ∧ nums.length ≠ n.zoneCount) then adminDone s e .insufficientCapacity
    else match newNsid s with
      | none => adminDone s e .nsidUnavailable
      | some nsid =>
        let (key, s) := drawKey s
        let n := { n with znums := nums }
        if s.md.mode = .service then
          carryAdmin s { tag := 0, func := ownerOf s e.func, cid := e.cid, kind := 2, dw0 := nsid, nsid := nsid, key := key, ns := some n }
            ([0x0D, nsid, 0, bit n.zoned, n.nsze, n.flbas, n.dps, bit n.mirrored, if n.mirrored then wrapped s key else 0] ++ nums)
        else adminDone (updateAna (createNs s nsid n key)) e .success nsid)

/-- NAMESPACE_DELETE (R97); NSID FFFF_FFFFh deletes every namespace. -/
def execNamespaceDelete (e : Sqe) (s : State) : Host.Outcome State Fault Refusal :=
  adminCmd e s true .namespaces
    (fun s => if e.nsid ≠ 0xFFFFFFFF ∧ (nsOf s e.nsid).isNone then some .invalidNamespace else none)
    (fun s =>
      let l := if e.nsid = 0xFFFFFFFF then s.zn.ns.map (fun p => p.1) else [e.nsid]
      doneOnBoth (l.foldl deleteNs s) e 1 0 e.nsid 0 [0x0D, e.nsid, 1])

/-! ### Namespace Attachment (R90) -/

/-- The controllers a controller list names. -/
def listedIds (e : Sqe) : List Nat := (List.range (le e.data 0 2)).map (fun k => le e.data (2 + 2 * k) 2)

/-- The list's functions of this module. -/
def listedHere (s : State) (ids : List Nat) : List Nat := (List.range funcs).filter (fun f => ids.contains (cntlid s f))

/-- The list's functions of the twin, whose SLOTID[0] differs (R77). -/
def listedTwin (s : State) (ids : List Nat) : List Nat :=
  (List.range funcs).filter (fun f => ids.contains (1 + f + 128 * (1 - bit (s.sup.slotid.getLsbD 0))))

/-- A list is valid: not empty, and every identifier is a controller of this module, or in Service of the twin. -/
def idsValid (s : State) (ids : List Nat) : Bool :=
  !ids.isEmpty && ids.all (fun i => 1 ≤ i && i ≤ 256 && (s.md.mode == .service || (funcOf s i).isSome))

def attachField (e : Sqe) (attach : Bool) (s : State) : Option Status :=
  match nsOf s e.nsid with
  | none => some .invalidNamespace
  | some n =>
    if 2047 < le e.data 0 2 ∨ !idsValid s (listedIds e) then some .controllerListInvalid
    else if attach ∧ ((listedHere s (listedIds e)).any (fun f => n.attached.contains f) ∨ (listedTwin s (listedIds e)).any (fun f => n.attachedTwin.contains f)) then some .nsAlreadyAttached
    else if !attach ∧ (listedHere s (listedIds e)).any (fun f => !n.attached.contains f) then some .nsNotAttached
    else none

/-- Attach or detach a namespace on the controllers of a list: those of this module, and those of the twin, which this module keeps account of (R48). -/
def setAttached (s : State) (nsid : Nat) (ids : List Nat) (attach : Bool) : State :=
  let fs := listedHere s ids
  let ts := listedTwin s ids
  let s := if attach then s else fs.foldl (fun s f => raiseAen s f 2 0 4) s
  let s := setNs s nsid (fun n => { n with
    attached := n.attached.filter (fun f => !fs.contains f) ++ (if attach then fs else [])
    attachedTwin := n.attachedTwin.filter (fun f => !ts.contains f) ++ (if attach then ts else []) })
  if attach then noteNs s nsid else s

/-- NAMESPACE_ATTACH. -/
def execNamespaceAttach (e : Sqe) (s : State) : Host.Outcome State Fault Refusal :=
  adminCmd e s true .namespaces (attachField e true) (fun s =>
    doneOnBoth (setAttached s e.nsid (listedIds e) true) e 1 0 e.nsid 0 ([0x15, e.nsid, 0] ++ listedIds e))

/-- NAMESPACE_DETACH. -/
def execNamespaceDetach (e : Sqe) (s : State) : Host.Outcome State Fault Refusal :=
  adminCmd e s true .namespaces (attachField e false) (fun s =>
    doneOnBoth (setAttached s e.nsid (listedIds e) false) e 1 0 e.nsid 0 ([0x15, e.nsid, 1] ++ listedIds e))

/-! ### Twin Policy (R250, R251) -/

/-- SET_TWIN_POLICY (R250, R251): a change that the twin refuses is undone (R97). -/
def execSetTwinPolicy (e : Sqe) (s : State) : Host.Outcome State Fault Refusal :=
  let policy := e.cdw11.getLsbD 0
  adminCmd e s false .twinPolicy (fun s =>
      if e.func ≠ 0 then some .invalidField
      else if e.nsid ≠ 0xFFFFFFFF ∧ (nsOf s e.nsid).isNone then some .invalidNamespace else none)
    (fun s =>
      if e.nsid = 0xFFFFFFFF then
        adminDone { s with zn := { s.zn with defMirrored := policy, defMirroredSaved := if sqeSave e then policy else s.zn.defMirroredSaved } } e .success
      else match nsOf s e.nsid with
        | none => s
        | some n =>
          if n.mirrored = policy then adminDone s e .success
          else if !n.noData then adminDone s e .sequenceError
          else if !n.here then doneOnBoth s e 7 0 e.nsid 0 [9, e.nsid, bit policy, 2, 0]
          else if !policy then doneOnBoth (applyPolicy s e.nsid false) e 4 0 e.nsid 0 [9, e.nsid, 0, 0, 0]
          else match mirroredNumbers s n with
            | none => adminDone s e .insufficientCapacity
            | some nums =>
              carryAdmin (applyPolicy (renumber s e.nsid nums) e.nsid true)
                { tag := 0, func := ownerOf s e.func, cid := e.cid, kind := 4, nsid := e.nsid, ns := some n } ([9, e.nsid, 1, 0, n.slots.length] ++ slotPairs s n ++ nums))

/-! ### Format NVM (R402, R404) -/

def formatField (e : Sqe) (s : State) : Option Status :=
  match nsOf s e.nsid with
  | none => some .invalidNamespace
  | some n =>
    if e.func ≠ 0 ∧ !n.attached.contains e.func then some .invalidNamespace
    else if 2 < fld e.cdw10 9 3 then some .invalidField
    else if 6 ≤ fld e.cdw10 0 4 then some .invalidFormat
    else if 4 ≤ fld e.cdw10 5 3 ∨ (fld e.cdw10 5 3 ≠ 0 ∧ metaBytes (fld e.cdw10 0 4) = 0) then some .invalidFormat
    else none

/-- Accept a Format NVM: fetching of the namespace's I/O stops; one of a namespace ordered by the twin is carried to it. -/
def acceptFormat (e : Sqe) (s : State) (crypto : Bool) : State :=
  let dps := fld e.cdw10 5 3 + 8 * fld e.cdw10 8 1
  match nsOf s e.nsid with
  | none => s
  | some n =>
    if s.adm.sanitize.pending ∨ s.adm.sanitize.running then adminDone s e .sanitizeInProgress
    else if n.erasing.isSome then adminDone s e .formatInProgress
    else if !n.here ∧ s.md.mode = .service then
      carryAdmin (setNs s e.nsid (fun n => { n with erasing := some true })) { tag := 0, func := ownerOf s e.func, cid := e.cid, kind := 7, nsid := e.nsid }
        [0x80, e.nsid, bit crypto, fld e.cdw10 0 4, dps]
    else if !n.held then adminDone s e .anaInaccessible
    else
      let s := setNs s e.nsid (fun n => { n with erasing := some false })
      { s with adm := { s.adm with formats := s.adm.formats ++
        [{ nsid := e.nsid, crypto := crypto, func := ownerOf s e.func, cid := e.cid, flbas := fld e.cdw10 0 4, dps := dps }] } }

/-- FORMAT_NVM: SES 000b (R402). -/
def execFormatNvm (e : Sqe) (s : State) : Host.Outcome State Fault Refusal :=
  adminCmd e s false .namespaces (formatField e) (fun s => acceptFormat e s false)

/-- FORMAT_NVM_CRYPTO_ERASE: SES 001b or 010b (R402, R403). -/
def execFormatNvmCryptoErase (e : Sqe) (s : State) : Host.Outcome State Fault Refusal :=
  adminCmd e s false .namespaces (formatField e) (fun s => acceptFormat e s true)

/-! ### Sanitize (R402, R404, R405) -/

/-- Accept a Sanitize: fetching of I/O stops for every namespace in scope. -/
def acceptSanitize (s : State) (cdw10 : Nat) (block : Bool) (cmd : Option (Nat × Nat)) (tag : Option Nat) (keys : List (Nat × Nat)) : State :=
  { s with
    adm := { s.adm with sanitize := { s.adm.sanitize with
      pending := true, running := false, block := block, failed := false, ever := true, cdw10 := cdw10, cmd := cmd, tag := tag, keys := keys, setsLeft := [] } }
    zn := { s.zn with ns := KV.mapVals s.zn.ns (fun _ n => if n.held then { n with erasing := some false, sanitizing := true } else n) } }

/-- A Sanitize with an erase action: refused while another or a Format runs, or in the failure state. -/
def sanitizeCmd (e : Sqe) (s : State) (block : Bool) : State :=
  if s.adm.sanitize.pending ∨ s.adm.sanitize.running then adminDone s e .sanitizeInProgress
  else if !s.adm.formats.isEmpty then adminDone s e .formatInProgress
  else acceptSanitize s e.cdw10.toNat block (some (ownerOf s e.func, e.cid)) none []

/-- SANITIZE_CRYPTO_ERASE. -/
def execSanitizeCryptoErase (e : Sqe) (s : State) : Host.Outcome State Fault Refusal :=
  adminCmd e s true .sanitizeCrypto noField (fun s => sanitizeCmd e s false)

/-- SANITIZE_BLOCK_ERASE. -/
def execSanitizeBlockErase (e : Sqe) (s : State) : Host.Outcome State Fault Refusal :=
  adminCmd e s true .sanitizeBlock noField (fun s => sanitizeCmd e s true)

/-- SANITIZE_OVERWRITE: Invalid Field in Command (R402). -/
def execSanitizeOverwrite (e : Sqe) (s : State) : Host.Outcome State Fault Refusal :=
  adminCmd e s true .always (fun _ => some .invalidField) (fun s => s)

/-- SANITIZE_EXIT_FAILURE_MODE (R404): leaves the failure state. -/
def execSanitizeExitFailureMode (e : Sqe) (s : State) : Host.Outcome State Fault Refusal :=
  adminCmd e s true .sanitizeCrypto noField (fun s =>
    if s.adm.sanitize.pending ∨ s.adm.sanitize.running then adminDone s e .sanitizeInProgress
    else adminDone { s with adm := { s.adm with sanitize := { s.adm.sanitize with failed := false } } } e .success)

/-- A Format NVM starts (R403): its new key is drawn, and for a mirrored namespace in Service made durable on the twin before the switch. -/
def startFormat (s : State) (f : Fmt) : State :=
  let s := setNs s f.nsid (fun n => { n with erasing := some true })
  match nsOf s f.nsid with
  | none => formatSwitch s f
  | some n =>
    if !f.crypto then formatSwitch s f
    else
      let (key, s) := drawKey s
      let f := { f with key := key }
      let s := { s with adm := { s.adm with formats := s.adm.formats.map (fun x => if x.nsid = f.nsid then f else x) } }
      if n.mirrored && s.md.mode == .service then
        carryAdmin s { tag := 0, func := f.func, cid := f.cid, kind := 3, nsid := f.nsid } [0x100, f.nsid, 2, wrapped s key, 0]
      else formatSwitch s f

/-- A Sanitize starts: its keys are drawn; in Service the twin is asked to sanitize too, with the keys of the mirrored namespaces, before the command completes. -/
def startSanitize (s : State) : State :=
  let z := s.adm.sanitize
  let (s, keys) := sanitizeKeys s z.keys
  let s := { s with
    adm := { s.adm with sanitize := { s.adm.sanitize with keys := keys, running := true } }
    zn := { s.zn with ns := KV.mapVals s.zn.ns (fun _ n => if n.sanitizing then { n with erasing := some true } else n) } }
  match z.tag, z.cmd with
  | some t, _ => answerTwin (sanitizeSwitch { s with adm := { s.adm with sanitize := { s.adm.sanitize with tag := none } } }) t .success 0
  | none, cmd =>
    let c := cmd.getD (65536, 0)
    if s.md.mode = .service then
      carryAdmin s { tag := 0, func := c.1, cid := c.2, kind := 8 }
        ([0x84, 0, bit z.block] ++ (keys.filter (fun k => (nsOf s k.1).any (fun n => n.mirrored))).flatMap (fun k => [k.1, wrapped s k.2]))
    else completeFor (sanitizeSwitch s) c.1 c.2 .success

/-- FORMAT_SANITIZE_START (R404): an erasure whose namespaces have no accepted command left starts. -/
def execFormatSanitizeStart (s : State) : Host.Outcome State Fault Refusal :=
  if s.md.mode == .measure || s.md.mode == .recovery || s.md.mode == .harvest || s.md.mode == .holiday || !s.sup.rails then .next s
  else
    let s := (s.adm.formats.filter (fun f => (nsOf s f.nsid).any (fun n => n.erasing == some false) && (openOn s f.nsid).isEmpty)).foldl startFormat s
    let z := s.adm.sanitize
    .next (if z.pending && !z.running && s.zn.ns.all (fun p => !p.2.sanitizing || (openOn s p.1).isEmpty) then startSanitize s else s)

end Sys2Proof.Machine
end

