-- ==== Sys2Proof/Machine/AdminSync.lean ====
section
/-! DEFINITION. Admin sync messages: admin commands, Aborts and wrapped keys that the twin carries over (R253 to R256, R315, R316, R385, R391). The arguments of each are a convention of the model. -/

namespace Sys2Proof.Machine

/-- The new keys of a Sanitize as the twin carries them: NSID and wrapped key; none where one does not unwrap. -/
def eraseKeys (s : State) : List Nat → Option (List (Nat × Nat))
  | a :: b :: l => (unwrapped s b).bind (fun k => (eraseKeys s l).map (fun r => (a, k) :: r))
  | _ => some []

/-- A key that does not unwrap ends the message with Invalid Field (R385; DESIGN CHOICE, log 131). -/
def badKey : Status := .invalidField

/-- Answer with a status and leave the rest as it is. -/
def refuseSync (s : State) (tag : Nat) (st : Status) : State := answerTwin s tag st 0

/-- Namespace Management create: the namespace is the twin's to own; a mirrored one takes a slot and its key here. -/
def syncCreate (s : State) (tag nsid : Nat) (a : List Nat) : State :=
  let n : Ns := { zoned := nth a 1 == 1, nsze := nth a 2, flbas := nth a 3, dps := nth a 4, mirrored := nth a 5 == 1, here := false, znums := a.drop 7 }
  if (nsOf s nsid).isSome then refuseSync s tag .nsidUnavailable
  else if n.mirrored ∧ (!nsFits s n 1 ∨ n.znums.any (fun z => (zoneNumbers s false).contains z)) then refuseSync s tag .insufficientCapacity
  else if !n.mirrored then answerTwin (updateAna (createNs s nsid n 0)) tag .success 0
  else match unwrapped s (nth a 6) with
    | none => refuseSync s tag badKey
    | some key => answerTwin (updateAna (createNs s nsid n key)) tag .success 0

/-- Namespace Management delete; FFFF_FFFFh names every namespace. -/
def syncDelete (s : State) (tag nsid : Nat) : State :=
  let l := if nsid = 0xFFFFFFFF then s.zn.ns.map (fun p => p.1) else [nsid]
  answerTwin (l.foldl deleteNs s) tag .success 0

/-- A namespace takes keys here and fits: its slots of every kind, and its numbers. -/
def copyFits (s : State) (n : Ns) (keys : Nat) (nums : List Nat) : Bool :=
  nsFits s n keys && !nums.any (fun z => (zoneNumbers s false).contains z)

/-- Set Twin Policy, and the switch of a Reshape: `p` the policy; `f` 2 where this module, the home, is asked to decide. -/
def syncPolicy (s : State) (tag nsid : Nat) (n : Ns) (a : List Nat) : State :=
  let p := nth a 0 == 1
  if nth a 1 = 2 then
    let w : AdminWait := { tag := 0, func := twinAsked, cid := tag, kind := 4, nsid := nsid, ns := some n }
    if !n.here then refuseSync s tag .anaInaccessible
    else if n.mirrored = p then answerTwin s tag .success 0
    else if !n.noData then refuseSync s tag .sequenceError
    else if !p then carryAdmin (applyPolicy s nsid false) w [9, nsid, 0, 0, 0]
    else match mirroredNumbers s n with
      | none => refuseSync s tag .insufficientCapacity
      | some nums => carryAdmin (applyPolicy (renumber s nsid nums) nsid true) w ([9, nsid, 1, 0, n.slots.length] ++ slotPairs s n ++ nums)
  else if !p then answerTwin (applyPolicy s nsid false) tag .success 0
  else if n.becoming then
    let s := applyPolicy (releaseAllHeld s nsid) nsid true
    let s := if n.reshape.any (fun r => r.owner == twinAsked) then setNs s nsid (fun n => { n with reshape := none }) else s
    answerTwin (setNs s nsid (fun n => { n with levelled := [] })) tag .success 0
  else
    let k := nth a 2
    let nums := a.drop (3 + 2 * k)
    if !copyFits s n k nums then refuseSync s tag .insufficientCapacity
    else match unwrapPairs s ((a.drop 3).take (2 * k)) with
      | none => refuseSync s tag badKey
      | some keys => answerTwin (applyPolicy (takeKeys (setNs s nsid (fun n => { n with znums := nums })) nsid keys) nsid true) tag .success 0

/-- Format NVM carried to the module that orders the namespace (R315). -/
def syncFormat (s : State) (tag nsid : Nat) (n : Ns) (a : List Nat) : State :=
  if s.adm.sanitize.pending ∨ s.adm.sanitize.running then refuseSync s tag .sanitizeInProgress
  else if n.erasing.isSome then refuseSync s tag .formatInProgress
  else if !n.here then refuseSync s tag .anaInaccessible
  else
    let s := setNs s nsid (fun n => { n with erasing := some false })
    { s with adm := { s.adm with formats := s.adm.formats ++
      [{ nsid := nsid, crypto := nth a 0 == 1, func := twinAsked, cid := tag, flbas := nth a 1, dps := nth a 2, tag := some tag }] } }

/-- Sanitize on this module too, with the keys of the mirrored namespaces. -/
def syncSanitize (s : State) (tag : Nat) (a : List Nat) : State :=
  if s.adm.sanitize.pending ∨ s.adm.sanitize.running then refuseSync s tag .sanitizeInProgress
  else if !s.adm.formats.isEmpty then refuseSync s tag .formatInProgress
  else match eraseKeys s (a.drop 1) with
    | none => refuseSync s tag badKey
    | some keys => acceptSanitize s (if nth a 0 = 1 then 2 else 4) (nth a 0 == 1) none (some tag) keys

/-- A wrapped key (R385, R391): an injected key of a tag, or (`a` 2) the new key of an erasure, durable here before its switch (R403). At pairing only a key this module lacks is taken. -/
def syncKey (s : State) (tag nsid : Nat) (n : Ns) (a : List Nat) : State :=
  if nth a 0 = 2 then answerTwin s tag (if (unwrapped s (nth a 1)).isSome then .success else badKey) 0
  else match unwrapped s (nth a 2) with
    | none => refuseSync s tag badKey
    | some key =>
      let slot := nth n.slots (nth a 1)
      if s.md.mode = .service then
        inject s { func := twinAsked, cid := tag, nsid := nsid, keyTag := nth a 1, key := key, tenant := nth a 3 }
      else if n.kpio ≤ nth a 1 ∨ slotKey s slot ≠ 0 then answerTwin s tag .success 0
      else answerTwin (putInjected s slot key (nth a 3)) tag .success 0

/-- Key Per I/O enabled with so many tags, or disabled under a new generated key; at pairing, what the owner holds (R388, R391). -/
def syncKpio (s : State) (tag nsid : Nat) (n : Ns) (a : List Nat) : State :=
  let k := nth a 0
  if s.md.mode = .service ∧ !n.noData then refuseSync s tag .sequenceError
  else if k = 0 then
    (match unwrapped s (nth a 1) with
     | none => refuseSync s tag badKey
     | some key => if n.kpio = 0 ∧ (!n.held ∨ nsKey s n = key) then answerTwin s tag .success 0 else answerTwin (disableKpio s nsid key) tag .success 0)
  else if n.kpio = k then answerTwin s tag .success 0
  else if n.held ∧ (freeDataSlots s k).length ≠ k then refuseSync s tag .insufficientCapacity
  else answerTwin (resetKpio s nsid k) tag .success 0

/-- An Abort of a forwarded command, judged here (R316); one whose command has not arrived is kept. -/
def syncAbort (s : State) (tag cmdTag : Nat) : State :=
  match s.port.cmds.find? (fun p => p.2.fromTwin && p.2.tag == cmdTag) with
  | none => answerTwin { s with tw := { s.tw with keptAborts := s.tw.keptAborts ++ [cmdTag] } } tag .success 0
  | some (slot, c) =>
    if abortable s slot c then
      let s := { s with cal := { s.cal with claims := s.cal.claims.filter (fun x => x.slot != some slot) } }
      answerTwin (finish s slot .aborted) tag .success 0
    else answerTwin s tag .success 1

/-- Pair Control transfer asked of the owner (R318). -/
def syncTransfer (s : State) (tag nsid : Nat) (n : Ns) : State :=
  if !n.mirrored ∨ !n.here then refuseSync s tag .invalidField
  else if s.md.resyncing then refuseSync s tag .c7
  else if s.tw.transfer.isSome then refuseSync s tag .sequenceError
  else tryOffer (startTransfer { s with tw := { s.tw with transferCmd := some (twinAsked, 0, tag) } } nsid)

/-- A zone as a Reshape to mirrored describes it: index, extension, capacity, active function + 1, state (R253). -/
def zoneOf (l : List Nat) : Nat × Zone :=
  let st : ZState := if nth l 8 = 0xE then .full else if nth l 8 = 0xD then .readOnly else if nth l 8 = 0xF then .offline else .closed
  (nth l 0, { ext := { density := nth l 1, heat := nth l 2, lifetime := nth l 3, tag := nth l 4, affinity := nth l 5 }, extValid := true, cap := nth l 6
              activeFunc := if nth l 7 = 0 then none else some (nth l 7 - 1), st := st })

/-- The zones of such a list. -/
def zonesOf : Nat → List Nat → List (Nat × Zone)
  | 0, _ => []
  | k + 1, l => zoneOf l :: zonesOf k (l.drop 9)

/-- Place the zones of a copy to be (R108, R253): the first refusal decides. -/
def placeZones (s : State) (nsid flbas : Nat) : List (Nat × Zone) → Except Status State
  | [] => .ok s
  | (i, z) :: l =>
    match moveGroup s z z.ext.affinity flbas with
    | .error st => .error st
    | .ok g => placeZones (setZone s nsid i (fun _ => { z with group := some g, members := groupMembers s g })) nsid flbas l

/-- A Reshape to mirrored asked by the home: every non-Empty zone is placed here, the slots and keys are taken (R97, R253, R255). -/
def syncPlace (s : State) (tag nsid : Nat) (n : Ns) (a : List Nat) : State :=
  let k := nth a 1
  let z := nth a 2
  let nums := (a.drop (3 + 2 * k)).take z
  let zs := a.drop (3 + 2 * k + z)
  if n.here ∨ n.mirrored ∨ n.reshape.isSome then refuseSync s tag .sequenceError
  else if !copyFits s n k nums then refuseSync s tag .insufficientCapacity
  else match unwrapPairs s ((a.drop 3).take (2 * k)) with
  | none => refuseSync s tag badKey
  | some keys =>
    let s0 := takeKeys (setNs s nsid (fun n => { n with
      znums := nums, zones := [], levelled := []
      reshape := some { move := false, toMirrored := true, remote := true, owner := twinAsked, tag := tag } })) nsid keys
    match placeZones s0 nsid n.flbas (zonesOf (zs.length / 9) zs) with
    | .error st => refuseSync s tag st
    | .ok s => answerTwin s tag .success 0

/-- The twin asks for a group move of a namespace homed here. -/
def syncMove (s : State) (tag nsid : Nat) (n : Ns) (a : List Nat) : State :=
  match reshapeRefusal s s.md n true false with
  | some st => refuseSync s tag st
  | none => startMove s { tag := 0, func := twinAsked, cid := tag, nsid := nsid } (nth a 1) (nth a 2) (nth a 3)

/-- The twin asks for a twin-policy change of a namespace homed or owned here. -/
def syncReshape (s : State) (tag nsid : Nat) (n : Ns) (a : List Nat) : State :=
  match reshapeRefusal s s.md n false (nth a 1 == 1) with
  | some st => refuseSync s tag st
  | none => reshapeHere s { tag := 0, func := twinAsked, cid := tag, nsid := nsid } n (nth a 1 == 1) (nth a 2 == 1)

/-- The twin asks to cancel a Reshape carried out here (R258). -/
def syncCancel (s : State) (tag nsid : Nat) (n : Ns) : State :=
  match n.reshape with
  | none => refuseSync s tag .sequenceError
  | some r =>
    if r.cancelled then refuseSync s tag .sequenceError
    else
      let r := { r with cancelTag := some tag }
      cancelHere (setNs s nsid (fun n => { n with reshape := some r })) nsid r

/-- A Reshape this module asked for, or took part in, has ended on the other (R252, R258). -/
def syncEnded (s : State) (nsid : Nat) (n : Ns) (st : Status) : State :=
  if n.reshape.any (fun r => r.remote && r.owner != twinAsked) then endReshape s nsid st else s

/-- The home gives up a Reshape to mirrored: the copy here is released (R258). -/
def syncAbandon (s : State) (nsid : Nat) (n : Ns) : State :=
  if n.here ∨ n.mirrored ∨ !n.becoming then s
  else
    let s := releaseNs s nsid
    if n.reshape.any (fun r => r.owner == twinAsked) then setNs s nsid (fun n => { n with reshape := none }) else endReshape s nsid .aborted

/-- The parts of a Reshape as the modules tell each other. -/
def syncShape (s : State) (tag nsid : Nat) (n : Ns) (a : List Nat) : State :=
  match nth a 0 with
  | 0 => syncPlace s tag nsid n a
  | 1 => syncMove s tag nsid n a
  | 2 => syncCancel s tag nsid n
  | 3 => syncReshape s tag nsid n a
  | _ => syncAbandon s nsid n

/-- An Admin sync about a namespace that this module knows. -/
def syncNs (s : State) (tag op nsid : Nat) (n : Ns) (a : List Nat) : State :=
  if op = 0x15 then answerTwin (setAttached s nsid (a.drop 1) (nth a 0 == 0)) tag .success 0
  else if op = 9 then syncPolicy s tag nsid n a
  else if op = 0x80 then syncFormat s tag nsid n a
  else if op = 0x100 then syncKey s tag nsid n a
  else if op = 0x81 then syncKpio s tag nsid n a
  else if op = 0xC0 then syncTransfer s tag nsid n
  else if op = 0xC2 then syncShape s tag nsid n a
  else if op = 0xC5 then syncEnded s nsid n ((statusOf (nth a 0)).getD .aborted)
  else refuseSync s tag .invalidOpcode

/-- Carry out what an Admin sync asks. -/
def syncOp (s : State) (tag op nsid : Nat) (a : List Nat) : State :=
  if op = 0x0D then (if nth a 0 = 0 then syncCreate s tag nsid a else syncDelete s tag nsid)
  else if op = 0x84 then syncSanitize s tag a
  else if op = 8 then syncAbort s tag (nth a 0)
  else match nsOf s nsid with
    | none => refuseSync s tag .invalidNamespace
    | some n => syncNs s tag op nsid n a

/-- ADMIN_SYNC (R315, R316, R385): taken in Service, and while a pairing agrees for what this module lacks. -/
def execAdminSync (h : MsgHdr) (op nsid : Nat) (args : List Nat) (s : State) : Host.Outcome State Fault Refusal :=
  pairingMsg s h [0x0C] (fun s => syncOp s h.tag op nsid args)

end Sys2Proof.Machine
end

