-- ==== Sys2Proof/Machine/Supply.lean ====
section
/-! DEFINITION. Supply events, the Harvest, the seals, the hold-up test and the bank (chapter 11, R277, R278, R491). -/

namespace Sys2Proof.Machine

/-! ### Supply events (R491, Table 11.1) -/

/-- Take the feeds as measured (Table 3.5). -/
def setFeeds (s : State) (a b : Nat) : State :=
  { s with sup := { s.sup with feedA := min a 1023, feedB := min b 1023, aOk := 360 ≤ a, bOk := 360 ≤ b } }

/-- The readings show a supply event of a kind (Table 17.3): a feed falls below 36 V, or returns to it; one is below 33 V while another is not; one is above 75 V; a reversed feed reads 0. -/
def supplyFits (s : State) (kind a b : Nat) : Bool :=
  match kind with
  | 1 => (360 ≤ s.sup.feedA && a < 360) || (360 ≤ s.sup.feedB && b < 360)
  | 2 => (s.sup.feedA < 360 && 360 ≤ a) || (s.sup.feedB < 360 && 360 ≤ b)
  | 3 => (a < 330 && 330 ≤ b) || (b < 330 && 330 ≤ a)
  | 7 => 750 < a || 750 < b
  | 8 => a == 0 || b == 0
  | _ => false

/-- SUPPLY_EVENT (R491, Table 17.3): a feed leaves or returns to its range, with no Harvest. Feeds above the 100 V surge rating stop the model: what the module then does is not stated (R503). -/
def execSupplyEvent (kind feedA feedB : Nat) (s : State) : Host.Outcome State Fault Refusal :=
  if !s.sup.rails then .next s
  else if 1000 < feedA ∨ 1000 < feedB then .fault .overAbsoluteMaximum
  else
    let fits := supplyFits s kind feedA feedB
    let s := setFeeds s feedA feedB
    .next (if fits then record s 0x40 [feedA, feedB, bit s.sup.pwrdis, kind] else s)

/-! ### The Harvest (R329, R338 to R344) -/

/-- Write the DRAM buffer and the ring to the persistent journal (R420). -/
def sealEvents (s : State) : State :=
  let j := s.ev.journal ++ s.ev.buf ++ s.ev.ring
  { s with ev := { s.ev with journal := j.drop (j.length - 262144), buf := [], ring := [], firstUnwritten := none } }

/-- Step 2 (Table 11.5): erases are aborted, every other pass running or suspended is driven to its end. -/
def drainDies (s : State) : State :=
  s.media.dies.foldl (fun s x =>
    let s := x.2.claimOp.elim s (fun o =>
      let s := passDone (setDie s x.1 (fun d => { d with claimOp := none })) x.1 o
      { s with sup := { s.sup with hvDrained := s.sup.hvDrained + 1 } })
    x.2.op.elim s (fun o =>
      let s := setDie s x.1 (fun d => { d with op := none })
      if o.kind = .erase then { s with sup := { s.sup with hvAborted := s.sup.hvAborted + 1 } }
      else
        let s := passDone s x.1 o
        { s with sup := { s.sup with hvDrained := s.sup.hvDrained + 1 } })) s

/-- Records whose data never came leave neither data nor a change to the write pointer (R264, R350). -/
def dropUnformed (s : State) : State :=
  (s.jr.recs.filter (fun p => !p.2.durable && 1 ≤ p.2.typ && p.2.typ ≤ 3)).foldl
    (fun s p => if p.2.copy then dropCopy s p.1 else dropWrite s p.1) s

/-- The last zone that a multi-zone command of a function has changed: settled in its record, or durable and not settled yet for a zone before it (R123). -/
def lastChanged (s : State) (f : Nat) (z : ZopRec) : Nat :=
  let l := (s.port.cmds.filter (fun p => p.2.func == f && p.2.zop == z.seq && !p.2.fromTwin)).flatMap (fun p => p.2.zres.filterMap (fun x => match x.2 with
    | .change q => if (KV.find s.jr.recs q).all VRec.ready then some x.1 else none
    | .acted => some x.1
    | _ => none))
  l.foldl (fun a i => if a = 0xFFFFFFFF then i else max a i) z.lastActed

/-- Multi-zone commands that a Harvest stopped show HARVESTED, no status, and the last zone changed (R123, Table 4.8). -/
def markHarvested (s : State) : State :=
  { s with port := { s.port with ctrls := KV.mapVals s.port.ctrls (fun f c =>
    { c with zops := c.zops.map (fun z : ZopRec => if z.done then z else { z with harvested := true, status := none, lastZone := lastChanged s f z }) }) } }

/-- The last n samples, newest last, all satisfy a test. -/
def lastAll (n : Nat) (p : SupplySample → Bool) (l : List SupplySample) : Bool := decide (n ≤ l.length) && (l.drop (l.length - n)).all p

/-- The trigger conditions at the newest sample (R329, R495): no feed at or above 33 V for 100 samples; PWRDIS asserted for 5; the mate lost for 5. -/
def feedsLost (l : List SupplySample) : Bool := lastAll 100 (fun x => decide (x.feedA < 330 ∧ x.feedB < 330)) l
def pwrdisHeld (l : List SupplySample) : Bool := lastAll 5 (fun x => x.pwrdis) l
def mateLost (l : List SupplySample) : Bool := lastAll 5 (fun x => decide (x.mateMv < 250)) l

/-- A condition held at one of the last 10 µs. -/
def heldNow (p : List SupplySample → Bool) (l : List SupplySample) : Bool := (List.range 11).any (fun k => p (l.take (l.length - k)))

/-- The samples of the two feeds, of PWRDIS and of the mate taken together (R329), oldest first. -/
def supplySamples (feeds : List (Nat × Nat)) (pwrdis : List Bool) (mateMv : List Nat) : List SupplySample :=
  (feeds.zip (pwrdis.zip mateMv)).map (fun x => { feedA := x.1.1, feedB := x.1.2, pwrdis := x.2.1, mateMv := x.2.2 })

/-- The cause of a trigger: 1 feeds, 2 PWRDIS, 3 both within 10 µs, 4 the mate lost, which acts as PWRDIS; 0 where none holds. -/
def triggerCause (l : List SupplySample) : Nat :=
  let f := heldNow feedsLost l
  if f && (heldNow pwrdisHeld l || heldNow mateLost l) then 3 else if f then 1 else if heldNow pwrdisHeld l then 2 else if heldNow mateLost l then 4 else 0

/-- The trigger code of the Harvest report: feeds, PWRDIS or mate loss, both (Table 11.9, R491). -/
def triggerCode (cause : Nat) : Nat := if cause = 1 then 1 else if cause = 3 then 3 else 2

/-- The kind of the supply event of a trigger (Table 17.3). -/
def triggerKind (cause : Nat) : Nat := if cause = 1 then 4 else if cause = 4 then 6 else 5

/-- Enter Harvest (Table 11.5 steps 1 and 2): no completion is posted from here on (R54). -/
def enterHarvest (s : State) (cause : Nat) : State :=
  let from_ := s.md.mode
  let s := abandonEntry s .harvest
  let s := send s 0x09 0 [1]
  let s := leavePair (toMode s .harvest)
  let s := { s with
    port := { linkGone s false false with }.port
    tw := { s.tw with linkUp := false, paired := false, departing := none }
    cal := { s.cal with running := false, claims := [] }
    boot := { s.boot with signDead := s.boot.signDead || s.boot.signPending, pieces := [], staged := none, activating := none, alsoActivating := [], writing := [] }
    th := { s.th with shut := 0 }
    sup := { s.sup with charger := false, hvFrom := from_.code, hvTrigger := triggerCode cause, hvAt := s.time.dtb, hvVStart := s.sup.bankMv / 10
                        hvDrained := 0, hvAborted := 0, hvStep := 4 } }
  let s := drainDies (dropUnformed (markHarvested s))
  { s with port := { s.port with cmds := [] }, cal := { s.cal with progs := [] } }

/-- The master counter resumes after Holiday at the latched value plus the ticks elapsed × 30,517.578125 ns (R441). -/
def resumeTime (s : State) (ticks : Nat) : State :=
  passTime s (s.time.latchDtb + ticks * 30517578125 / 1000000)

/-- HARVEST_TRIGGER (R329, R338, R495): the samples of the feeds and pins of the last 100 µs and up to 10 µs past them, newest last; in Holiday, with the crystal ticks since the entry. -/
def execHarvestTrigger (feeds : List (Nat × Nat)) (pwrdis : List Bool) (mateMv : List Nat) (ticks : Nat) (s : State) : Host.Outcome State Fault Refusal :=
  let samples := supplySamples feeds pwrdis mateMv
  let cause := triggerCause samples
  if !s.sup.rails || !harvests s || cause = 0 then .next s
  else
    let x := samples.getLast?.getD {}
    let s := setFeeds s x.feedA x.feedB
    let s := { s with sup := { s.sup with pwrdis := x.pwrdis, mated := s.sup.mated && !heldNow mateLost samples } }
    let s := if s.md.mode = .holiday then setRanks (resumeTime { s with md := { s.md with waking := false } } ticks) .active else s
    .next (enterHarvest (record s 0x40 [x.feedA, x.feedB, bit s.sup.pwrdis, triggerKind cause]) cause)

/-- Map deltas since the newest checkpoint, MiB: their size is not stated beyond its bound of 424 MiB (R339). -/
def deltaMib (s : State) : Nat × State :=
  let r := drawFree s
  (r.1 % 425 + ceilDiv (16 * s.jr.recs.length) mib, r.2)

/-- Injected keys and KEKs are zeroized (R393). -/
def dropInjected (s : State) : State :=
  { s with keys := { s.keys with keks := [], slots := KV.mapVals s.keys.slots (fun _ k => if k.generated then k else { k with cur := 0, retiring := 0 }) } }

/-- A seal (R341, R345): the live records are landed, the retention clock and the shifts saved, the event buffer and ring written beside it; the session ends and the power-off is clean. -/
def makeSeal (s : State) (kind : Nat) (shifts : List Nat) (f : Seal → Seal) : State :=
  let (d, s) := deltaMib s
  let n := s.jr.recs.length
  let sl : Seal := f { kind := kind, boot := s.boot.boot, ckpt := s.jr.ckpt, highSeq := s.jr.seq - 1, pepoch := s.jr.pepoch.toNat, rd := s.time.rd.toNat, at_ := s.time.dtb,
                         records := n, landedMib := ceilDiv (liveBytes s) mib, deltaMib := d }
  let s := keepShifts (saveClock (landRecs s (fun _ => true)) true) shifts true
  sealEvents { s with
    jr := { s.jr with session := false }
    md := { s.md with cleanOff := true }
    sup := { s.sup with sealRec := some sl, unsealed := none, missing := [] } }

/-- HARVEST_SEAL (R330, R341): with a feed present and PWRDIS deasserted the module enters Measure, else its rails fall and the bank is discharged. -/
def execHarvestSeal (vEnd feedA feedB : Nat) (pwrdis mated : Bool) (shifts : List Nat) (s : State) : Host.Outcome State Fault Refusal :=
  if s.md.mode ≠ .harvest then .next s
  else
    let s := makeSeal (dropInjected s) 1 shifts (fun x => { x with
      fromMode := s.sup.hvFrom, trigger := s.sup.hvTrigger, at_ := s.sup.hvAt, durationUs := (s.time.dtb - s.sup.hvAt) / 1000
      vStart := s.sup.hvVStart, vEnd := vEnd / 10, drained := s.sup.hvDrained, aborted := s.sup.hvAborted })
    let s := setFeeds { s with sup := { s.sup with pwrdis := pwrdis, mated := mated, bankMv := vEnd, hvStep := 0 } } feedA feedB
    if (360 ≤ feedA || 360 ≤ feedB) && !pwrdis && mated then
      .next (enterMeasure { s with sup := { s.sup with charger := true } } 2)
    else .next (railsOff { s with sup := { s.sup with bankMv := 0 } })

/-- The write pointers show what is present where no manifest tells (R351): each zone's falls back to its confirmed word lines or to the first record that did not land. -/
def fallBack (s : State) (gone : List VRec) : State :=
  gone.foldl (fun s r =>
    match nsOf s r.nsid with
    | none => s
    | some n =>
      if !n.zoned then
        (List.range r.nlb).foldl (fun s i =>
          let x := drawFree s
          storeLba x.2 r.nsid (r.slba + i) { val := x.1, key := r.key }) s
      else
        let z := n.zone r.zidx
        let off := r.slba - r.zidx * zoneSize n.flbas
        let wp := min z.wp (max (z.confirmed * wordLineUnits z.ext.density z.members / unitsPerLba n.flbas) off)
        let base := r.zidx * zoneSize n.flbas
        clearRange (setZone s r.nsid r.zidx (fun z => { z with wp := wp, taken := wp, st := if z.st = .full ∧ wp < z.cap then .closed else z.st })) r.nsid (base + wp) (base + zoneSize n.flbas)) s

/-- HARVEST_BANK_EXHAUSTED (R344, R351): the rails fall with no seal in the step named; the records up to SEQ `landed` are on flash. The manifest is there from step 4 on. -/
def execHarvestBankExhausted (step landed : Nat) (s : State) : Host.Outcome State Fault Refusal :=
  if s.md.mode ≠ .harvest then .next s
  else
    let up : Nat → Bool := fun q => 5 ≤ step || (step == 4 && q ≤ landed)
    let manifest := decide (4 ≤ step)
    let s := landRecs s up
    let gone := s.jr.recs.filter (fun p => !p.2.landed)
    let high := (s.jr.recs.filter (fun p => p.2.landed)).foldl (fun a p => max a p.1) 0
    let (d, s) := deltaMib s
    let sl : Seal := { kind := 1, fromMode := s.sup.hvFrom, trigger := s.sup.hvTrigger, boot := s.boot.boot, highSeq := high, at_ := s.sup.hvAt, vStart := s.sup.hvVStart,
                         drained := s.sup.hvDrained, aborted := s.sup.hvAborted, sealed := false, manifest := manifest, deltaMib := (if manifest then d else 0),
                         records := s.jr.recs.length - gone.length }
    let lost := if manifest then (gone.filter (fun p => p.2.completed)).map (fun p => p.1) else []
    let s := if manifest then s else fallBack s ((gone.filter (fun p => p.2.completed && 1 ≤ p.2.typ && p.2.typ ≤ 3)).map (fun p => p.2))
    let s := { s with
      jr := { s.jr with session := false, recs := KV.keep s.jr.recs (fun q r => r.landed || lost.contains q) }
      md := { s.md with cleanOff := false }
      sup := { s.sup with unsealed := some sl, sealRec := none, missing := lost, bankMv := 0, hvStep := 0 } }
    .next (railsOff (dropInjected s))

/-- SHUTDOWN_SEAL (R345): every enabled controller has reached SHST 10b. -/
def execShutdownSeal (shifts : List Nat) (s : State) : Host.Outcome State Fault Refusal :=
  let en := s.port.ctrls.filter (fun c => c.2.en)
  if !(s.md.mode.operates || s.md.mode == .pairing || s.md.mode == .quarantine) || en.isEmpty || en.any (fun c => c.2.shst != 2) then .next s
  else .next (makeSeal (checkpoint s) 2 shifts id)

/-! ### The hold-up test (R333 to R337) -/

/-- HOLD_UP_TEST_DUE (R333). -/
def execHoldUpTestDue (s : State) : Host.Outcome State Fault Refusal :=
  if s.sup.lastTest < 1440 || s.sup.test != .idle || !s.sup.rails then .next s
  else .next (tryTest { s with sup := { s.sup with test := .waiting } })

/-- V_stop in 0.1 V units (R334 step 2): the larger of 62 V and the voltage at which U with this C and ESR equals need(V), rounded up. -/
def stopVoltage (capUf esr need : Nat) : Nat :=
  ((List.range 81).find? (fun k =>
    let mv := (620 + k) * 100
    let f := 36000 + esr
    need * 20000000000 ≤ capUf * (mv * mv - f * f))).elim 700 (620 + ·)

/-- HOLD_UP_INITIAL_FALL (R334 step 2): 0.5 V fell under 12.5 mA in so many µs. -/
def execHoldUpInitialFall (tUs : Nat) (s : State) : Host.Outcome State Fault Refusal :=
  if s.sup.test ≠ .falling then .next s
  else
    let c := tUs * 25 / 1000
    let need := if s.sup.vigil = 0 then 0 else needCj s.sup.vigil
    .next { s with sup := { s.sup with test := .discharging, capEst := c, vStopDv := stopVoltage c s.sup.esrMohm need } }

/-- HOLD_UP_STOP_VOLTAGE (R334 steps 3 to 5): C from the discharge time, ESR from the step of the 2.0 A pulse; U and V are set and the charger is on. The values of before are kept in case the test is abandoned yet. -/
def execHoldUpStopVoltage (tUs stepMv : Nat) (s : State) : Host.Outcome State Fault Refusal :=
  if s.sup.test ≠ .discharging then .next s
  else
    let dv := 70000 - s.sup.vStopDv * 100
    let c := tUs * 125 / (10 * max 1 dv)
    let esr := stepMv / 2
    let before := s.sup
    let s := setUsable { s with sup := { s.sup with
      test := .recharging, charger := true, bankMv := s.sup.vStopDv * 100, testTDis := tUs
      measured := true, capUf := c, esrMohm := esr
      pendCap := if before.measured then before.capUf else 0, pendEsr := before.esrMohm } } (energyDj c esr 70000)
    let r : HoldResult := {
      result := if before.vStopDv = 620 then 0 else 1, capUf := c, esrMohm := esr, vStart := 7000, vStop := before.vStopDv * 10, tDis := tUs
      usableCj := energyCj c esr 70000, needCj := if s.sup.vigil = 0 then 0 else needCj s.sup.vigil
      vigilBefore := before.testVigil, vigilAfter := s.sup.vigil, bankTemp := (hottest s.th.bank.now).toNat % 256
      boot := s.boot.boot, tests := before.lastResult.tests + 1
      capFirst := if before.lastResult.tests = 0 then c else before.lastResult.capFirst }
    .next { s with sup := { s.sup with testResult := r } }

/-- BANK_CHARGED (R278, R331, R334): the bank is at 70 V. At the first time after power good V is set from the stored measurement, or a test runs where none ever completed; a test in recharge ends. -/
def execBankCharged (s : State) : Host.Outcome State Fault Refusal :=
  if !s.sup.rails || !s.sup.charger || s.md.mode == .harvest then .next s
  else
    let first := !s.sup.first70
    let s := { s with sup := { s.sup with bankMv := 70000, first70 := true, belowSixtySix := false } }
    if s.sup.test = .recharging then
      let r := { s.sup.testResult with at_ := s.time.dtb }
      .next (endTest { s with sup := { s.sup with test := .idle, lastTest := 0, lastResult := r } } r)
    else if first && s.sup.measured then .next (tryTest (setUsable s (energyDj s.sup.capUf s.sup.esrMohm 70000)))
    else if first && !s.sup.measured then .next (startTest s)
    else .next (tryTest s)

/-- BANK_VOLTAGE_CHECK (R332): every 10 ms outside a test and outside Harvest; the input power averaged over the 10 ms is shown with it. -/
def execBankVoltageCheck (mv pIn : Nat) (s : State) : Host.Outcome State Fault Refusal :=
  if !s.sup.rails || s.md.mode == .harvest then .next s
  else
    let s := { s with sup := { s.sup with pIn := pIn % 4096 } }
    if s.sup.test = .falling || s.sup.test = .discharging || s.sup.test = .recharging then .next s
    else
      let s := { s with sup := { s.sup with bankMv := mv } }
      if !s.sup.first70 then .next (tryTest s)
      else if mv < 66000 then
        let fell := !s.sup.belowSixtySix
        let s := setUsable { s with sup := { s.sup with belowSixtySix := true } } (if s.sup.measured then energyDj s.sup.capUf s.sup.esrMohm mv else 0)
        .next (if fell then record s 0x41 [mv / 10] else s)
      else if s.sup.belowSixtySix && 69500 ≤ mv then
        .next (tryTest (setUsable { s with sup := { s.sup with belowSixtySix := false } } (if s.sup.measured then energyDj s.sup.capUf s.sup.esrMohm 70000 else 0)))
      else .next (tryTest s)

/-- HOLD_UP_TEST_RUN (R337): ACTION 0h runs a test, or joins the one running. -/
def execHoldUpTestRun (e : Sqe) (s : State) : Host.Outcome State Fault Refusal :=
  adminCmd e s true .holdUp (fun _ => if e.cdw10 ≠ 0 then some .invalidField else if sglBad e 64 then some .sglLengthInvalid else none) (fun s =>
    tryTest { s with sup := { s.sup with
      testWaiters := s.sup.testWaiters ++ [(ownerOf s e.func, 0, e.cid)], test := if s.sup.test = .idle then .waiting else s.sup.test } })

/-- HOLD_UP_TEST_REPORT (R337): ACTION 1h returns the stored result. -/
def execHoldUpTestReport (e : Sqe) (s : State) : Host.Outcome State Fault Refusal :=
  adminCmd e s true .holdUpReport (fun _ => if e.cdw10 ≠ 1 then some .invalidField else if sglBad e 64 then some .sglLengthInvalid else none) (fun s =>
    adminDone s e .success 0 (holdBytes s.sup.lastResult))

end Sys2Proof.Machine
end

