-- ==== Sys2Proof/Machine/Firmware.lean ====
section
/-! DEFINITION. Firmware download, commit and activation, and the Measurement Policy (R154, R374 to R376, R380, R381). -/

namespace Sys2Proof.Machine

/-! ### Firmware Image Download (R374) -/

/-- The most bytes of an image. -/
def imageMax : Nat := 112 * mib

/-- Two pieces overlap. -/
def pieceOverlaps (a b : Nat × Nat) : Bool := a.1 < b.1 + b.2 && b.1 < a.1 + a.2

/-- Offset and length of the piece, in bytes. -/
def pieceOf (e : Sqe) : Nat × Nat := (4 * e.cdw11.toNat, 4 * (e.cdw10.toNat + 1))

/-- FIRMWARE_IMAGE_DOWNLOAD: `img` is the image the piece is of. -/
def execFirmwareImageDownload (e : Sqe) (img : Image) (s : State) : Host.Outcome State Fault Refusal :=
  let p := pieceOf e
  adminCmd e s true .download
    (fun s => if p.1 % 4096 ≠ 0 ∨ p.2 % 4096 ≠ 0 ∨ imageMax < p.1 + p.2 then some .invalidField
      else if p.1 ≠ 0 ∧ s.boot.pieces.any (pieceOverlaps p) then some .overlappingRange else none)
    (fun s => adminDone { s with boot := { s.boot with
      pieces := if p.1 = 0 then [p] else s.boot.pieces ++ [p], staged := some img } } e .success)

/-- The bytes held from offset 0 on without a hole. -/
def covered (l : List (Nat × Nat)) : Nat :=
  (sortBy (fun i => (l.getD i (0, 0)).1) (List.range l.length)).foldl
    (fun a i => let p := l.getD i (0, 0); if p.1 ≤ a then max a (p.1 + p.2) else a) 0

/-- The image downloaded whole. -/
def downloaded (s : State) : Option Image := s.boot.staged.filter (fun i => i.bytes ≤ covered s.boot.pieces)

/-! ### Firmware Commit (R375) -/

/-- The slot a Commit names: FS 0 is the one that does not hold the running image. -/
def commitSlot (s : State) (e : Sqe) : Nat :=
  let fs := fld e.cdw10 0 3
  if fs = 0 then 3 - (if s.boot.slotRun = 0 then s.boot.slotSel else s.boot.slotRun) else fs

/-- Set a slot's image. -/
def setSlot (s : State) (k : Nat) (i : Option Image) : State :=
  { s with boot := if k = 1 then { s.boot with slot1 := i } else { s.boot with slot2 := i } }

/-- A Commit that writes an image: verified, the slot's old content gone, the write begun. -/
def commitImage (e : Sqe) (s : State) (ca : Nat) : State :=
  let k := commitSlot s e
  if 2 < fld e.cdw10 0 3 ∨ k = s.boot.slotRun then adminDone s e .invalidFirmwareSlot
  else match downloaded s with
    | none => adminDone s e .invalidFirmwareImage
    | some i =>
      if !imageVerifies i s.boot.minSvn then adminDone s e .invalidFirmwareImage
      else
        let s := setSlot s k none
        { s with boot := { s.boot with
          pieces := [], staged := none
          writing := s.boot.writing ++ [{ ca := ca, func := ownerOf s e.func, cid := e.cid, slot := k, image := some i }] } }

/-- FIRMWARE_COMMIT_REPLACE: CA 000b. -/
def execFirmwareCommitReplace (e : Sqe) (s : State) : Host.Outcome State Fault Refusal :=
  adminCmd e s true .commit (fun _ => if 3 ≤ fld e.cdw10 3 3 then some .invalidField else none) (fun s => commitImage e s 0)

/-- FIRMWARE_COMMIT_REPLACE_ACTIVATE: CA 001b. -/
def execFirmwareCommitReplaceActivate (e : Sqe) (s : State) : Host.Outcome State Fault Refusal :=
  adminCmd e s true .commit (fun _ => if 3 ≤ fld e.cdw10 3 3 then some .invalidField else none) (fun s => commitImage e s 1)

/-- Append a selector word and begin the activation (R154, R364, R376): the Commit waits for the bound commands. A further Commit while an activation is pending appends its own word and completes with it (DESIGN CHOICE, log 130). -/
def activate (s : State) (k func cid : Nat) : State :=
  let n := s.boot.selCount + 1
  { s with boot := { s.boot with
    slotSel := k, selCount := n, selectors := s.boot.selectors.append selectorsPerSector (selectorWord k n)
    activating := some (s.boot.activating.getD (func, cid))
    alsoActivating := if s.boot.activating.isSome then s.boot.alsoActivating ++ [(func, cid)] else s.boot.alsoActivating } }

/-- The event of a Commit (0072h): CA, FS, FW. -/
def committed (s : State) (ca slot : Nat) (i : Option Image) : State := record s 0x72 [ca, slot, (i.map imageFw).getD 0]

/-- FIRMWARE_COMMIT_ACTIVATE: CA 010b. -/
def execFirmwareCommitActivate (e : Sqe) (s : State) : Host.Outcome State Fault Refusal :=
  adminCmd e s true .commit (fun _ => if 3 ≤ fld e.cdw10 3 3 then some .invalidField else none) (fun s =>
    let k := commitSlot s e
    if 2 < fld e.cdw10 0 3 then adminDone s e .invalidFirmwareSlot
    else if !slotVerifies s k then adminDone s e .invalidFirmwareImage
    else activate (committed s 2 k (slotImage s k)) k (ownerOf s e.func) e.cid)

/-- A write of the boot store ends: an image stands in its slot once read back; a policy's Set completes with its second durable copy. -/
def bootWritten (s : State) (w : BootWrite) (rest : List BootWrite) (ok : Bool) : State :=
  if w.ca = 8 then
    if !ok then s
    else
      let s := { s with boot := { s.boot with
        policyCopies := modAt s.boot.policyCopies w.slot (fun _ => (w.gen, w.policy))
        writing := if w.slot = 2 then rest else { w with slot := w.slot + 1 } :: rest } }
      if w.slot = 1 then completeFor s w.func w.cid .success w.dw0 else s
  else
    let s := { s with boot := { s.boot with writing := rest } }
    if !ok then completeFor s w.func w.cid .invalidFirmwareImage
    else
      let s := committed (setSlot s w.slot w.image) w.ca w.slot w.image
      if w.ca = 0 then completeFor s w.func w.cid .success else activate s w.slot w.func w.cid

/-- BOOT_STORE_WRITE_COMPLETE (R375, R380): `ok` where the read-back succeeds. -/
def execBootStoreWriteComplete (ok : Bool) (s : State) : Host.Outcome State Fault Refusal :=
  match s.boot.writing with
  | [] => .next s
  | w :: rest => if !s.sup.rails then .next s else .next (bootWritten s w rest ok)

/-! ### Activation (R154, R376) -/

/-- ACTIVATION_SEAL: with no bound command left, and no thermal shut-down nor Holiday entry under way (R46), the departure in Service, then the Commit's completion, the seal and Measure. -/
def execActivationSeal (s : State) : Host.Outcome State Fault Refusal :=
  match s.boot.activating with
  | none => .next s
  | some (func, cid) =>
    if s.port.cmds.any (fun p => p.2.cls != .unbound && !p.2.quiet) || s.th.shut != 0 || s.md.ps4.isSome || s.md.entering then .next s
    else if s.md.mode == .service && s.tw.paired then
      .next (if s.tw.departing.isSome then s else beginDeparture s 6)
    else
      let s := ((func, cid) :: s.boot.alsoActivating).foldl (fun s x => completeFor s x.1 x.2 .success) s
      .next (enterMeasure (makeSeal s 3 [] id) 1)

/-! ### Measurement Policy (R380, R381) -/

/-- The policy a 4,096-byte structure holds (Table 12.11). -/
def policyOf (d : List Nat) : Policy :=
  { enforce := nth d 1 % 2 = 1
    entries := (List.range (nth d 2)).map (fun n => (nth d (0x40 + 64 * n), le ((List.range 48).map (fun i => nth d (0x50 + 64 * n + 47 - i))) 0 48)) }

/-- R381: a Set that is refused. -/
def policyBad (d : List Nat) : Bool :=
  let p := policyOf d
  nth d 0 != 1 || 1 < nth d 1 || 63 < nth d 2 || !zeroRange d 3 0x40
    || (List.range (nth d 2)).any (fun n => !zeroRange d (0x41 + 64 * n) (0x50 + 64 * n))
    || !zeroRange d (0x40 + 64 * nth d 2) 4096
    || p.entries.any (fun e => 5 < e.1)
    || (p.enforce && (List.range 6).any (fun k => !p.entries.any (fun e => e.1 == k)))

/-- HOLD_NEXT: the running image's M0 to M5 would be judged 2h under the policy. -/
def holdNext (s : State) (p : Policy) : Bool :=
  p.enforce && s.boot.regs.any (fun r => r.stage < 6 && !p.allows r.stage r.digest)

/-- SET_MEASUREMENT_POLICY (R57, R380, R381). -/
def execSetMeasurementPolicy (e : Sqe) (s : State) : Host.Outcome State Fault Refusal :=
  adminCmd e s false .measurementPolicy (fun _ => if e.func ≠ 0 ∨ policyBad e.data then some .invalidField else none)
    (fun s =>
      let p := policyOf e.data
      let gen := 1 + (s.boot.policyCopies.map (fun c => c.1) ++ s.boot.writing.map (fun w => w.gen)).foldl max 0
      { s with boot := { s.boot with writing := s.boot.writing ++
        [{ ca := 8, func := ownerOf s e.func, cid := e.cid, policy := p, gen := gen, dw0 := bit (holdNext s p) }] } })

end Sys2Proof.Machine
end

