-- ==== Sys2Proof/Machine/Holiday.lean ====
section
/-! DEFINITION. Power Management, Holiday and the wakes from it (R46, R48 to R51, R72, R304, R415, R441, R460 to R464). -/

namespace Sys2Proof.Machine

/-- R48: a Holiday entry is permitted: no mirrored namespace is attached on the pair, or C6h permits degradation. -/
def holidayPermitted (s : State) : Bool := s.adm.permit || !s.zn.ns.any (fun p => p.2.mirrored && p.2.attachedOnPair)

/-- Steps 1 to 4 of R460 are done: no accepted command, no pass running or suspended, the entry signed. -/
def entryReady (s : State) : Bool :=
  s.port.cmds.isEmpty && s.media.dies.all (fun x => x.2.op.isNone && x.2.claimOp.isNone) && (!s.boot.signPending || s.boot.signDead)

/-- The departure of R415 is still to be made (R318). -/
def mustDepart (s : State) : Bool := s.md.mode == .service && s.tw.paired

/-- Make the departure once the steps before it are done. -/
def goOnEntering (s : State) : State :=
  if entryReady s && mustDepart s && s.tw.departing.isNone then beginDeparture s 5 else s

/-- Abort the running and suspended erases (R352). -/
def abortErases (s : State) : State :=
  { s with media := { s.media with dies := KV.mapVals s.media.dies (fun _ x => if x.op.any (fun o => o.kind == .erase) then { x with op := none } else x) } }

/-- Table 15.11: the calendar stops, rebuilds pause, the time base is latched, DRAM is in self-refresh (R481), the link and the Deroft link go idle, the mode is Holiday. -/
def enterHoliday (s : State) (tick : Nat) : State :=
  let from_ := s.md.mode
  let s := toMode { s with md := { s.md with holidayFrom := from_, selBefore := if s.pw.sel = 4 then s.md.selBefore else s.pw.sel } } .holiday
  let s := { s with
    md := { s.md with ps4 := none, entering := false, waking := false, adminWake := false }
    pw := { s.pw with sel := 4 }
    cal := { s.cal with running := false, claims := [] }
    media := { s.media with rebuilds := s.media.rebuilds.map (fun r : Rebuild => { r with running := false, asked := false, reads := [], ready := false }) }
    tw := { s.tw with linkUp := false }
    th := { s.th with
      minNow := { s.th.minNow with holiday := true }, hotSince := none, coolSince := none
      ctrl := { s.th.ctrl with hist := [] }, flash := { s.th.flash with hist := [] }, dram := { s.th.dram with hist := [] }, bank := { s.th.bank with hist := [] } }
    time := { s.time with latchDtb := s.time.dtb, latchTick := tick, pllLocked := false, coreMhz := 400 }
    port := { s.port with inL1 := s.port.l1Enabled && s.port.rate != 0 } }
  refreshPower (setRanks s .selfRefresh)

/-- SET_POWER_MANAGEMENT (R72, R50): PS0 to PS3 is selected; it ends a pending re-entry. -/
def execSetPowerManagement (e : Sqe) (s : State) : Host.Outcome State Fault Refusal :=
  adminCmd e s false .ps03
    (fun _ => if fld e.cdw11 0 5 ≤ 3 && fld e.cdw11 8 24 == 0 then (if sqeSave e then some .featureNotSaveable else none) else some .invalidField)
    (fun s => adminDone (refreshPower { s with pw := { s.pw with sel := fld e.cdw11 0 5 }, md := { s.md with adminWake := false, entering := false } }) e .success)

/-- SET_POWER_MANAGEMENT_PS4 (R48, R460): permitted, it makes the module ready for Holiday and completes at the entry; where PS4 is already selected it changes nothing (Table 2.8). While another entry or a firmware activation is pending it is refused with C4h and the present mode code (DESIGN CHOICE, log 119). -/
def execSetPowerManagementPs4 (e : Sqe) (s : State) : Host.Outcome State Fault Refusal :=
  adminCmd e s false .ps4
    (fun _ => if fld e.cdw11 0 5 = 4 && fld e.cdw11 8 24 == 0 then (if sqeSave e then some .featureNotSaveable else none) else some .invalidField)
    (fun s =>
      if s.pw.sel = 4 then adminDone s e .success
      else if !s.md.mode.operates || !holidayPermitted s || s.md.ps4.isSome || s.boot.activating.isSome then adminDone s e .c4 s.md.mode.code
      else goOnEntering (abortErases { s with md := { s.md with ps4 := some (ownerOf s e.func, e.cid), selBefore := s.pw.sel } }))

/-- HOLIDAY_ENTRY (R460, Table 15.11): the preparation is looked at: where only the departure is left it is begun; where all is done Set Features completes and the module enters Holiday at a crystal tick. -/
def execHolidayEntry (tick : Nat) (s : State) : Host.Outcome State Fault Refusal :=
  if (s.md.ps4.isNone && !s.md.entering) || !s.md.mode.operates || !entryReady s then .next s
  else if mustDepart s then .next (goOnEntering s)
  else
    let s := s.md.ps4.elim s (fun x => completeFor s x.1 x.2 .success)
    .next (enterHoliday s tick)

/-- HOLIDAY_REENTRY (R50): 10 ms after the last admin completion of a wake by admin doorbells alone; judged under R48, and abandoned where it is not permitted. -/
def execHolidayReentry (tick : Nat) (s : State) : Host.Outcome State Fault Refusal :=
  if !s.md.adminWake || !s.md.mode.operates || s.time.dtb < s.md.lastAdminAt + 10000000 || !entryReady s then .next s
  else if !holidayPermitted s then
    .next (refreshPower (record { s with md := { s.md with adminWake := false }, pw := { s.pw with sel := s.md.selBefore } } 0x12 [s.md.mode.code]))
  else if mustDepart s then .next (goOnEntering { s with md := { s.md with entering := true } })
  else .next (enterHoliday s tick)

/-- Time across Holiday (R438, R441): the master counter resumes; a host time is then carried, its uncertainty 61 µs larger. -/
def carryTime (s : State) (ticks : Nat) : State :=
  let s := resumeTime s ticks
  { s with time := { s.time with
    src := if s.time.src = 1 then 2 else s.time.src
    unc := if s.time.src = 0 then s.time.unc else s.time.unc + 61 } }

/-- Apply the heads and stamp the tails captured in Holiday (R49, Table 3.8). -/
def applyCaptured (s : State) : State :=
  let heads := s.port.cqs.filterMap (fun p => p.2.captured.map (fun v => (p.1, v)))
  let tails := s.port.sqs.filterMap (fun p => p.2.captured.map (fun v => (p.1, v)))
  let s := { s with port := { s.port with
    cqs := KV.mapVals s.port.cqs (fun _ q => { q with captured := none })
    sqs := KV.mapVals s.port.sqs (fun _ q => { q with captured := none }) } }
  let s := heads.foldl (fun s x => ringHead s (x.1 / 65536) (x.1 % 65536) x.2) s
  tails.foldl (fun s x => ringTail s (x.1 / 65536) (x.1 % 65536) x.2) s

/-- HOLIDAY_EXIT_COMPLETE (R49 to R51, R464, Table 15.13): to Pairing where Holiday was entered from Service, else to Solo; doorbells are stamped, the calendar resumes, and the 2 ms rejection window opens. -/
def execHolidayExitComplete (ticks : Nat) (s : State) : Host.Outcome State Fault Refusal :=
  if s.md.mode ≠ .holiday || !s.md.waking then .next s
  else
    let s := setRanks (carryTime s ticks) .active
    let now := s.time.dtb
    let admin := s.md.adminWake
    let s := { s with
      md := { s.md with waking := false, rejectUntil := now + 2000000, lastAdminAt := now }
      pw := { s.pw with sel := if admin then 4 else s.md.selBefore }
      cal := { s.cal with snapshot := [] }
      port := { s.port with inL1 := false } }
    let s := if s.md.holidayFrom = .service then toPairing s true else toMode s .solo
    .next (applyCaptured (startCalendar (refreshPower s)))

/-- PLL_LOCK (R464, R483): the cores run at 2.0 GHz under the wait states set for it. -/
def execPllLock (s : State) : Host.Outcome State Fault Refusal :=
  if !s.sup.rails || (s.md.mode == .holiday && !s.md.waking) then .next s
  else .next { s with time := { s.time with pllLocked := true, coreMhz := 2000, waitStates := 16 } }

/-- PAIRSENSE_IN_CHANGE (R49, R304): a new level of the pin; in Holiday a low pulse of 0.5 µs to 2 µs, or a low level held for 4 µs, wakes the module; a rise lets training start again after a refusal (R309). `heldNs` is how long the low level had lasted at a rise, or lasts at a fall. -/
def execPairsenseInChange (level : Bool) (heldNs : Nat) (s : State) : Host.Outcome State Fault Refusal :=
  let s := { s with tw := { noteSense s.tw level s.tw.peerSenseOut s.time.dtb with holdTraining := s.tw.holdTraining && !(level && !s.tw.senseIn) } }
  let wake := if level then 500 ≤ heldNs && heldNs ≤ 2000 else 4000 ≤ heldNs
  if s.md.mode == .holiday && s.sup.rails && wake then .next { s with md := { s.md with waking := true, adminWake := false } } else .next s

end Sys2Proof.Machine
end

