-- ==== Sys2Proof/Machine/Scratchpad.lean ====
section
/-! DEFINITION. The scratchpad: its banks and their owners, accesses and their meetings, and the background memory test (R472 to R478). -/

namespace Sys2Proof.Machine

/-! ### Owners (R472) -/

/-- A bank's owner at reset (Table 16.3). -/
def resetOwner (bank : Nat) : Owner :=
  if bank < 2 then .all
  else if bank < 10 then .requestCores
  else if bank < 12 then .core 25
  else if bank = 12 then .core 28
  else if bank = 13 then .hostDma
  else .core 27

def bankOf (s : State) (bank : Nat) : Bank := KV.findD s.it.banks bank {}

def setBank (s : State) (bank : Nat) (f : Bank → Bank) : State :=
  { s with it := { s.it with banks := KV.upd s.it.banks bank {} f } }

/-- The bank's owner (R472). -/
def bankOwner (s : State) (bank : Nat) : Owner := (bankOf s bank).owner.getD (resetOwner bank)

/-- An agent belongs to an owner (R465, R472). -/
def ownerHolds (o who : Owner) : Bool :=
  match o, who with
  | .all, .core n => n < 29
  | .requestCores, .core n => n < 24
  | o, w => o == w

/-- Hand a bank over (R472): its owner register names another; banks 0 and 1 take no hand-over. -/
def handOver (s : State) (bank : Nat) (o : Owner) : State :=
  if bank < 2 then s else setBank s bank (fun b => { b with owner := some o })

/-! ### Words (R473, R475) -/

/-- A word of the scratchpad. -/
def padWord (s : State) (w : Nat) : Nat := KV.findD s.it.pad w 0

def setPadWord (s : State) (w v : Nat) : State := { s with it := { s.it with pad := KV.put 0 s.it.pad w v } }

/-- The part of an access that lies in one word: the word, its first byte, its bytes, what it writes there (R475). -/
structure PadPart where
  word : Nat
  off : Nat
  len : Nat
  write : Option Nat := none
  dma : Bool := false
  deriving DecidableEq, Repr

/-- The parts of an access, one a cycle on its port: one within an aligned word, two where it crosses a word boundary (R475). -/
def padParts (a : PadAccess) (bank : Nat) : PadPart × Option PadPart :=
  let w := bank * 65536 + a.addr / 8
  let o := a.addr % 8
  let n := min a.len (8 - o)
  ({ word := w, off := o, len := n, write := a.write.map (· % 256 ^ n), dma := a.dma },
   if n < a.len then some { word := w + 1, off := 0, len := a.len - n, write := a.write.map (fun v => v / 256 ^ n % 256 ^ (a.len - n)), dma := a.dma } else none)

/-- The bytes a part reads. -/
def PadPart.read (s : State) (p : PadPart) : Nat := padWord s p.word / 256 ^ p.off % 256 ^ p.len

/-- Write a part's bytes. -/
def PadPart.store (s : State) (p : PadPart) : State :=
  p.write.elim s (fun v => setPadWord s p.word (padWord s p.word - p.read s * 256 ^ p.off + v * 256 ^ p.off))

/-- The accesses of one cycle (R473): reads return the old data; the processors' writes land in program order, those of DMA after them. -/
def padCycle (s : State) (ps : List PadPart) : State := (ps.filter (fun p => !p.dma) ++ ps.filter (·.dma)).foldl PadPart.store s

/-- Accesses that begin together on a bank (R473, R475): what each returns, and the bank after them. An access over a word boundary reads and writes its second word in the cycle after. -/
def padAccesses (s : State) (bank : Nat) (as : List PadAccess) : List Nat × State :=
  let ps := as.map (fun a => padParts a bank)
  let s1 := padCycle s (ps.map (·.1))
  let out := ps.map (fun p => p.1.read s + p.2.elim 0 (fun q => q.read s1 * 256 ^ p.1.len))
  (out, padCycle s1 (ps.filterMap (·.2)))

/-- An access lies in one bank (R475). -/
def padInBank (a : PadAccess) : Bool := a.addr + a.len ≤ 524288

/-! ### The memory test (R476 to R478) -/

/-- The first word of a chunk of a bank: 32 words each. -/
def chunkWord (bank chunk : Nat) : Nat := bank * 65536 + chunk * 32

/-- Restore the words that the engine displaced (R476, R477). -/
def restoreChunk (s : State) (bank : Nat) : State :=
  let b := bankOf s bank
  let s := (List.range b.shadow.length).foldl (fun s i => setPadWord s (chunkWord bank b.chunk + i) (nth b.shadow i)) s
  setBank s bank (fun b => { b with shadow := [], displaced := false })

/-- Take up a chunk (R476): its 32 words are saved to the shadow register, and what the march leaves in them meanwhile is open. -/
def displaceChunk (s : State) (bank chunk : Nat) : State :=
  let w := chunkWord bank chunk
  let saved := (List.range 32).map (fun i => padWord s (w + i))
  let x := drawFree s
  let s := (List.range 32).foldl (fun s i => setPadWord s (w + i) (x.1 % 2^64)) x.2
  setBank s bank (fun b => { b with chunk := chunk, shadow := saved, displaced := true })

/-- The engine may begin a bank now (R476): in Measure banks 2 to 9, else banks 10 to 15, one at a time, once an hour of powered time each. -/
def mayTest (s : State) (bank : Nat) : Bool :=
  if s.md.mode == .measure then 2 ≤ bank && bank ≤ 9
  else 10 ≤ bank && bank ≤ 15 && s.md.mode != .holiday && s.md.mode != .harvest
    && ((bankOf s bank).lent || (bankOf s bank).testedAt.all (fun t => t + 3600000000000 ≤ s.time.dtb))

/-- Lend a bank to the engine by hand-over (R476). -/
def lendBank (s : State) (bank : Nat) : State :=
  if (bankOf s bank).lent then s
  else
    let o := bankOwner s bank
    setBank (handOver s bank .testEngine) bank (fun b => { b with lent := true, lender := some o, chunk := 0, testedAt := some s.time.dtb })

/-- Hand a lent bank back (R477). -/
def handBack (s : State) (bank : Nat) : State :=
  let s := handOver s bank ((bankOf s bank).lender.getD (resetOwner bank))
  setBank s bank (fun b => { b with lent := false, lender := none, chunk := 0 })

/-- The engine has come as far as a chunk of a bank (R476, R478): so many chunks more were remapped to spare rows; the next chunk is taken up, or after 2,048 the bank is handed back. -/
def testBank (s : State) (bank chunks failing : Nat) : State :=
  let s := restoreChunk (lendBank s bank) bank
  let s := setBank s bank (fun b => { b with spares := min 8 (b.spares + failing) })
  if chunks = 2048 then handBack s bank else displaceChunk s bank chunks

/-- MEMORY_TEST_CANCEL (R477): accesses that begin together reach a lent bank. One by the lending owner, or by a DMA engine it programmed, cancels the test: the words are restored, the bank is handed back, and the accesses complete. One by another agent raises an access fault on it, one over the bank's end an alignment fault (R472, R475). -/
def execMemoryTestCancel (use : BankUse) (s : State) : Host.Outcome State Fault Refusal :=
  let bank := use.bank
  let accesses := use.accesses
  let b := bankOf s bank
  if !b.lent then .next s
  else
    let owner := b.lender.getD (resetOwner bank)
    let mine := accesses.filter (fun a => ownerHolds owner a.who)
    let ok := mine.filter padInBank
    let faults := (accesses.filter (fun a => !ownerHolds owner a.who)).map (fun a => (a.who, PadFault.access)) ++ (mine.filter (fun a => !padInBank a)).map (fun a => (a.who, PadFault.alignment))
    let s := { s with it := { s.it with padFaults := s.it.padFaults ++ faults } }
    if ok.isEmpty then .next s
    else
      let s := setBank (handBack (restoreChunk s bank) bank) bank (fun b => { b with cancels := b.cancels + 1 })
      let (out, s) := padAccesses s bank ok
      .next { s with it := { s.it with padOut := out } }

end Sys2Proof.Machine
end

