-- ==== Sys2Proof/Machine/Thermal.lean ====
section
/-! DEFINITION. Temperature: samples, crossings, rates, bands, throttling, the shut-down sequence and the minute records (R39, R427, R443 to R448, R455 to R459). -/

namespace Sys2Proof.Machine

/-! ### Thresholds (Table 15.3) -/

/-- The sensors of a class: 0 controller, 1 flash package, 2 DRAM, 3 bank. -/
def sensorOf (s : State) (cls : Nat) : Sensor :=
  if cls = 0 then s.th.ctrl else if cls = 1 then s.th.flash else if cls = 2 then s.th.dram else s.th.bank

def setSensor (s : State) (cls : Nat) (f : Sensor → Sensor) : State :=
  { s with th :=
    if cls = 0 then { s.th with ctrl := f s.th.ctrl } else if cls = 1 then { s.th with flash := f s.th.flash }
    else if cls = 2 then { s.th with dram := f s.th.dram } else { s.th with bank := f s.th.bank } }

/-- Sensors of a class. -/
def sensorCount (cls : Nat) : Nat := nth [12, 96, 40, 1] cls

/-- The threshold of a class at a level (1 warn, 2 throttle, 3 shut-down), in force now. -/
def threshold (s : State) (cls level : Nat) : Option Int :=
  match cls, level with
  | 0, 1 => some (warnCtrl s)
  | 0, 2 => some (throttleCtrl s)
  | 0, 3 => some 115
  | 1, 1 => some (warnFlash s)
  | 1, 2 => some (throttleFlash s)
  | 1, 3 => some 85
  | 2, 3 => some 95
  | 3, 1 => some 70
  | _, _ => none

/-- The rate-of-rise limit of a class, °C/s. -/
def rateLimit (cls : Nat) : Option Int := if cls = 0 then some 3 else if cls = 1 then some 1 else none

/-- A class is at or above a level's threshold. -/
def atLevel (s : State) (cls level : Nat) : Bool := (threshold s cls level).any (fun t => decide (t ≤ hottest (sensorOf s cls).now))

/-- Some reading is at or above a shut-down threshold. -/
def atShutdown (s : State) : Bool := atLevel s 0 3 || atLevel s 1 3 || atLevel s 2 3

/-- A controller or flash reading is at or above its throttle threshold. -/
def atThrottle (s : State) : Bool := atLevel s 0 2 || atLevel s 1 2

/-! ### Crossings and rates (R427, R443, R445) -/

/-- The first position of a list's highest value. -/
def hottestAt (l : List Int) : Nat := (l.findIdx? (fun x => x == hottest l)).getD 0

/-- A temperature as its two's-complement byte. -/
def tempByte (t : Int) : Nat := (t % 256).toNat

/-- Keep a crossing record (R427): the 64 newest; each raises the event of log C6h (Table 14.14). -/
def keepCrossing (s : State) (cls idx level : Nat) (up : Bool) (reading : Int) : State :=
  let c : Crossing := { cls := cls, idx := idx, level := level, up := up, reading := reading, boot := s.boot.boot, secs := s.time.dtb / 1000000000 }
  raiseAll { s with th := { s.th with crossings := (s.th.crossings ++ [c]).drop (s.th.crossings.length - 63), nCross := s.th.nCross + 1 } } 7 0xC6 0xC6

/-- Whether a level's bit is set in a class's crossings. -/
def Sensor.over (x : Sensor) (level : Nat) : Bool := x.overS.testBit level

/-- Judge one level of a class: upward at or above its threshold, downward at 2 °C or more below. -/
def judgeLevel (s : State) (cls level : Nat) : State :=
  match threshold s cls level with
  | none => s
  | some t =>
    let x := sensorOf s cls
    let r := hottest x.now
    let up := decide (t ≤ r) && !x.over level
    let down := decide (r ≤ t - 2) && x.over level
    if !up && !down then s
    else
      let idx := hottestAt x.now
      let s := setSensor s cls (fun x => { x with overS := if up then x.overS + 2^level else x.overS - 2^level })
      keepCrossing (record s 0x50 [cls, idx, level, bit up, tempByte r] none 0 level) cls idx level up r

/-- Rates of a class: each reading less that of 1 s earlier. -/
def ratesOf (x : Sensor) : List Int := x.now.zipWith (fun a b => a - b) x.prev

/-- Impose one state deeper, to at most PS3 (R455, R456). -/
def imposeDeeper (s : State) : State :=
  refreshPower { s with th := { s.th with imposed := min 3 (s.th.imposed + 1), throttling := true, thrFrom := s.th.thrFrom.or (some s.time.dtb) } }

/-- Judge the rate of a class (R445, R456): recorded and acted on once for each exceedance. -/
def judgeRate (s : State) (cls : Nat) : State :=
  match rateLimit cls with
  | none => s
  | some lim =>
    let x := sensorOf s cls
    let r := ratesOf x
    let beyond := r.any (fun v => decide (lim < v))
    if beyond && !x.exceeding then
      let idx := hottestAt r
      let s := setSensor s cls (fun x => { x with exceeding := true })
      let s := keepCrossing (record s 0x51 [cls, idx, (hottest r).toNat * 10]) cls idx 4 true (x.now.getD idx 0)
      imposeDeeper { s with th := { s.th with
        rateTrips := s.th.rateTrips + 1
        rateHold := modAt s.th.rateHold cls (fun _ => true)
        rateAt := modAt s.th.rateAt cls (fun _ => s.time.dtb) } }
    else if !beyond && x.exceeding then setSensor s cls (fun x => { x with exceeding := false })
    else s

/-! ### Bands and sampling (R444, R446, R448) -/

/-- Lower edges of B1 to B4. -/
def bandEdges : List Int := [5, 30, 55, 75]

/-- The band whose range holds a temperature. -/
def bandAt (t : Int) : Nat := bandEdges.countP (fun e => decide (e ≤ t))

/-- R448: a band is entered upward at its lower edge and left downward 2 °C below it. -/
def bandNext (old : Nat) (t : Int) : Nat := if old ≤ bandAt t then bandAt t else max (bandAt t) (min old (bandAt (t + 1)))

/-- The sampling interval of a class, ms (R446). -/
def sampleInterval (s : State) (cls : Nat) : Nat :=
  let x := sensorOf s cls
  let r := hottest x.now
  let near (level : Nat) (d : Int) : Bool := (threshold s cls level).any (fun t => decide (t - d ≤ r))
  let fast := (rateLimit cls).any (fun l => (ratesOf x).any (fun v => decide (l < 2 * v)))
  if near 3 2 then 1 else if near 2 5 || fast || (cls == 2 && decide (85 ≤ r)) then 10 else 100

/-- A sensor class takes its readings at an instant (R445): those of 1 s earlier are of the newest sample that is so old; where there is none yet the rate is 0. -/
def Sensor.take (x : Sensor) (now : List Int) (t : Nat) : Sensor :=
  let base := (x.hist.filter (fun p => p.1 + 1000000000 ≤ t)).getLast?
  { x with
    now := now, prev := base.elim now (·.2), maxLife := max x.maxLife (hottest now)
    hist := base.toList ++ x.hist.filter (fun p => t < p.1 + 1000000000) ++ [(t, now)] }

/-- A class is to be sampled: its interval has passed since its latest sample (R446). -/
def sampleDue (s : State) (cls : Nat) : Bool :=
  (sensorOf s cls).hist.getLast?.all (fun p => p.1 + nth s.th.sampleMs cls * 1000000 ≤ s.time.dtb)

/-- Take the readings of a class; an offset set since its latest sample comes into force (R414). -/
def takeSample (s : State) (cls : Nat) (now : List Int) : State :=
  let s := setSensor s cls (fun x => x.take now s.time.dtb)
  let s := { s with th := { s.th with
    ctrlUse := if cls = 0 then s.th.ctrlOff else s.th.ctrlUse
    flashUse := if cls = 1 then s.th.flashOff else s.th.flashUse } }
  let h := hottest now
  let th := s.th
  let m := th.minNow
  let th := if cls = 0 then { th with minNow := { m with ctrl := max m.ctrl h } }
    else if cls = 1 then
      let bands := th.bands.zipWith bandNext now
      { th with
        bands := bands, minNow := { m with flash := max m.flash h, band := max m.band (bands.foldl max 0) }
        pkgMax := th.pkgMax.zipWith max now }
    else if cls = 2 then
      { th with
        hot := th.hot.zipWith (fun (b : Bool) (t : Int) => if b then decide (83 < t) else decide (85 ≤ t)) now
        minNow := { m with dram := max m.dram h }
        dchMax := (List.range 4).map (fun j => max (th.dchMax.getD j 0) (hottest ((now.drop (10 * j)).take 10))) }
    else { th with minNow := { m with bank := max m.bank h } }
  { s with th := th }

/-! ### The shut-down sequence (R457, R458) -/

/-- Step 1 and 2 of Table 15.9. -/
def startShutdown (s : State) : State :=
  let s := abandonEntry s .quarantine
  let s := abortErases (updateAna { s with th := { s.th with shut := 1, shutAt := s.time.dtb } })
  if s.md.mode = .service && s.tw.paired then beginDeparture s 4 else s

/-- What a sample at or above a shut-down threshold starts, by mode; in Measure, Recovery and Pairing entered from Recovery the work pauses until every reading is below warn; in a Quarantine of another cause it is recorded as the second (R39), once until then. -/
def actShutdown (s : State) : State :=
  let serving := s.md.mode.operates || (s.md.mode == .pairing && s.md.pairServing)
  let early := s.md.mode == .measure || s.md.mode == .recovery || (s.md.mode == .pairing && !s.md.pairServing)
  if atShutdown s then
    (if serving && s.th.shut == 0 then startShutdown s
     else if early then { s with th := { s.th with paused := true } }
     else if s.md.mode = .quarantine ∧ s.md.qcause ≠ 1 ∧ !s.th.paused then toQuarantine { s with th := { s.th with paused := true } } 1
     else s)
  else if s.th.paused && !anyWarn s then { s with th := { s.th with paused := false } }
  else s

/-- Every controller and flash reading is 3 °C or more below its throttle threshold (R455). -/
def wellBelow (s : State) : Bool := decide (hottest s.th.ctrl.now ≤ throttleCtrl s - 3) && decide (hottest s.th.flash.now ≤ throttleFlash s - 3)

/-- THERMAL_SAMPLE (R443 to R448, R335, R455 to R457): the readings of a class, of its first sensor and the rest, at its interval. -/
def execThermalSample (cls : Nat) (first : Int) (rest : List Int) (s : State) : Host.Outcome State Fault Refusal :=
  let readings := first :: rest
  if 3 < cls || readings.length != sensorCount cls || !s.sup.rails || s.md.mode == .holiday || !sampleDue s cls then .next s
  else
    let before := composite s
    let throttled := (sensorOf s cls).over 2
    let s := takeSample s cls readings
    let s := judgeLevel (judgeLevel (judgeLevel s cls 1) cls 2) cls 3
    let s := if (sensorOf s cls).over 2 && !throttled then
        imposeDeeper { s with th := { s.th with throttles := s.th.throttles + 1 } }
      else s
    let s := judgeRate s cls
    let s := { s with th := { s.th with
      sampleMs := modAt s.th.sampleMs cls (fun _ => sampleInterval s cls)
      hotSince := if atThrottle s then s.th.hotSince.or (some s.time.dtb) else none
      coolSince := if wellBelow s then s.th.coolSince.or (some s.time.dtb) else none
      belowSince := if anyWarn s then none else s.th.belowSince.or (some s.time.dtb) } }
    let s := if anyWarn s && s.sup.test != .idle && s.sup.test != .waiting then abandonTest s else s
    let s := refreshCrit (if composite s = before then s else ccsSet s 9)
    .next (tryTest (actShutdown s))

/-- THROTTLE_DEEPEN (R455): a reading has stayed at or above its throttle threshold for a further 2 s. -/
def execThrottleDeepen (s : State) : Host.Outcome State Fault Refusal :=
  if s.th.throttling && atThrottle s && s.th.hotSince.any (fun t => t + 2000000000 ≤ s.time.dtb) then
    .next (imposeDeeper { s with th := { s.th with hotSince := some s.time.dtb } })
  else .next s

/-- The time throttled ends with the last state imposed. -/
def relaxed (s : State) : State :=
  let ends := s.th.imposed ≤ 1
  refreshPower { s with th := { s.th with
    imposed := s.th.imposed - 1, throttling := !ends, coolSince := some s.time.dtb
    thrNs := if ends then s.th.thrNs + s.th.thrFrom.elim 0 (s.time.dtb - ·) else s.th.thrNs
    thrFrom := if ends then none else s.th.thrFrom } }

/-- THROTTLE_RELAX (R455, R456): 10 s with every reading 3 °C or more below its throttle threshold, and no rate held. -/
def execThrottleRelax (s : State) : Host.Outcome State Fault Refusal :=
  if !wellBelow s || !s.th.coolSince.any (fun t => t + 10000000000 ≤ s.time.dtb) || s.th.imposed == 0 || s.th.rateHold.any id then .next s
  else .next (relaxed s)

/-- RATE_HOLD_END (R456): at least 2 s after the exceedance, with the rate of the class at half its limit or below. -/
def execRateHoldEnd (cls : Nat) (s : State) : Host.Outcome State Fault Refusal :=
  let slow := (rateLimit cls).any (fun l => (ratesOf (sensorOf s cls)).all (fun v => decide (2 * v ≤ l)))
  if slow && s.th.rateHold.getD cls false && nth s.th.rateAt cls + 2000000000 ≤ s.time.dtb then
    .next { s with th := { s.th with rateHold := modAt s.th.rateHold cls (fun _ => false) } }
  else .next s

/-- No pass runs or stands suspended on a die. -/
def diesIdle (s : State) : Bool := s.media.dies.all (fun x => x.2.op.isNone && x.2.claimOp.isNone)

/-- SHUTDOWN_PASS_DEADLINE (R457 steps 3 and 4): the last pass has ended, or 3.0 ms have passed since the sample; passes not ended are aborted; the calendar stops. -/
def execShutdownPassDeadline (s : State) : Host.Outcome State Fault Refusal :=
  if s.th.shut ≠ 1 || (s.time.dtb < s.th.shutAt + 3000000 && !diesIdle s) then .next s
  else
    let s := resetDies s
    .next { s with th := { s.th with shut := 2 }, cal := { s.cal with running := false, claims := [], progs := [] } }

/-- THERMAL_QUARANTINE_ENTRY (R457 step 5, R458): every earlier command has completed, the departure is made, and the flush seal is durable; V is 0. -/
def execThermalQuarantineEntry (shifts : List Nat) (s : State) : Host.Outcome State Fault Refusal :=
  if s.th.shut ≠ 2 || !s.port.cmds.isEmpty || s.tw.departing.isSome then .next s
  else
    let s := makeSeal (checkpoint s) 2 shifts id
    let s := toQuarantine { s with th := { s.th with shutdowns := s.th.shutdowns + 1, belowSince := none } } 1
    let later := s.th.laterCause
    let s := if later = 0 then s else toQuarantine { s with th := { s.th with laterCause := 0 } } later
    .next { s with sup := { s.sup with vigil := 0, first70 := false }, th := { s.th with shut := 0 } }

/-- QUARANTINE_THERMAL_EXIT (R39, R458): every sensor has read below warn for 60 s; Recovery runs over the landed records. -/
def execQuarantineThermalExit (s : State) : Host.Outcome State Fault Refusal :=
  if s.md.mode ≠ .quarantine || s.md.qcause ≠ 1 || !s.th.belowSince.any (fun t => t + 60000000000 ≤ s.time.dtb) then .next s
  else
    let s := { s with
      media := mediaAtMeasure s.media false
      md := { s.md with recoveryAt := s.time.dtb } }
    .next (toMode (startCalendar s) .recovery)

/-! ### Minute records (R427) -/

/-- Add one to the positions whose test holds. -/
def countWhere (l : List Nat) (p : Nat → Bool) : List Nat := l.zipIdx.map (fun x => if p x.2 then x.1 + 1 else x.1)

/-- Whether the minute under way has ended: by the device time base, or in Holiday by the Holiday counter, whose minutes the command brings. -/
def minuteOver (s : State) : Bool := s.md.mode == .holiday || (s.th.bootMin + 1) * 60000000000 ≤ s.time.dtb

/-- MINUTE_RECORD (R333, R427): a minute of powered life ends, with the seconds throttled in it and its mean input power, the sum of the two feeds'. -/
def execMinuteRecord (powerA powerB : Nat) (s : State) : Host.Outcome State Fault Refusal :=
  if !s.sup.rails || !minuteOver s then .next s
  else
    let t := s.th
    let asleep := s.md.mode == .holiday
    let m : Minute := { t.minNow with thrS := min 60 ((t.thrNs + t.thrFrom.elim 0 (s.time.dtb - ·)) / 1000000000), pAvg := (powerA + powerB) % 4096, boot := s.boot.boot, minute := t.bootMin, holiday := t.minNow.holiday || asleep }
    let hotBand := bandAt m.flash
    let mins := countWhere t.mins (fun i =>
      !asleep && (if i = 0 then decide (warnCtrl s ≤ m.ctrl) else if i = 1 then decide (throttleCtrl s ≤ m.ctrl)
        else if i = 2 then decide (warnFlash s ≤ m.flash) else if i = 3 then decide (throttleFlash s ≤ m.flash)
        else if i = 4 then decide (70 ≤ m.bank) else if i < 10 then hotBand + 5 == i else i == 10 && s.md.capped))
    let th := { t with
      minutes := (t.minutes ++ [m]).drop (t.minutes.length - 10079), nMin := t.nMin + 1, bootMin := t.bootMin + 1, mins := mins, thrNs := 0, thrFrom := t.thrFrom.map (fun _ => s.time.dtb)
      pkgB4 := countWhere t.pkgB4 (fun k => !asleep && nth t.bands k == 4 && nth t.pkgB4 k < 65535)
      pkgB0 := countWhere t.pkgB0 (fun k => !asleep && nth t.bands k == 0)
      dchHot := countWhere t.dchHot (fun j => !asleep && ((t.hot.drop (10 * j)).take 10).any id)
      minNow := if asleep then { ctrl := -128, flash := -128, dram := -128, bank := -128, holiday := true, psDeep := 4 }
        else { ctrl := hottest t.ctrl.now, flash := hottest t.flash.now, dram := hottest t.dram.now, bank := hottest t.bank.now
               psDeep := s.pw.now, band := t.bands.foldl max 0 } }
    .next { s with th := th, sup := { s.sup with lastTest := min 0xFFFF (s.sup.lastTest + 1) } }

end Sys2Proof.Machine
end

