-- ==== Sys2Proof/Machine/Internals.lean ====
section
/-! DEFINITION. The event journal's drain, watchdogs, time copies, island faults, the memory test's rounds, DRAM errors, the slot boundary and the sideband address (chapter 16, R21, R22, R159, R284, R419, R420, R423, R424, R493). -/

namespace Sys2Proof.Machine

/-! ### The event journal (R419, R420, R423, R424) -/

/-- The system area is mounted (R419): outside Measure, and from 60 ms into Recovery. -/
def areaMounted (s : State) : Bool :=
  s.ev.mounted || (s.md.mode != .measure && (s.md.mode != .recovery || s.md.recoveryAt + 60000000 ≤ s.time.dtb))

/-- EVENT_DRAIN (R419, R424, R466): while core 27 is in service the ring's entries move to the DRAM buffer; after losses a loss summary takes the space kept for it. -/
def execEventDrain (s : State) : Host.Outcome State Fault Refusal :=
  if !s.sup.rails || s.md.mode == .holiday || s.md.mode == .harvest || !areaMounted s || s.ev.ring.isEmpty || !coreRuns s 27 then .next s
  else
    let n := s.ev.lossCount
    let loss := [n, s.ev.lossFirst, s.ev.lossLast]
    let s := { s with ev := { s.ev with
      mounted := true, buf := s.ev.buf ++ s.ev.ring, ring := [], lossCount := 0
      firstUnwritten := s.ev.firstUnwritten.or (some s.time.dtb) } }
    .next (if n = 0 then s else record s 0x01 loss)

/-- EVENT_JOURNAL_WRITE (R420): 512 entries have gathered, or 1 s has passed since the first unwritten one; the journal keeps the newest 262,144. -/
def execEventJournalWrite (s : State) : Host.Outcome State Fault Refusal :=
  if !s.sup.rails || s.md.mode == .holiday || s.md.mode == .harvest || !coreRuns s 27 || !areaMounted s || !(512 ≤ s.ev.buf.length || s.ev.firstUnwritten.any (fun t => t + 1000000000 ≤ s.time.dtb)) then .next s
  else
    let j := s.ev.journal ++ s.ev.buf
    .next { s with ev := { s.ev with journal := j.drop (j.length - 262144), buf := [], firstUnwritten := none } }

/-- EVENT_BUCKET_REFILL (R423): 15,625 µs after the first draw from a full bucket, or after the last entry regained, a type's bucket regains one; the first after suppressions writes their summary. -/
def execEventBucketRefill (typ : Nat) (s : State) : Host.Outcome State Fault Refusal :=
  let t := KV.findD s.ev.types typ {}
  if !s.sup.rails || evExempt typ || 64 ≤ t.bucket || s.time.dtb < t.regainAt then .next s
  else
    let sum := [typ, t.pend, t.pendFirst, t.pendLast]
    let s := { s with ev := { s.ev with types := KV.set s.ev.types typ { t with bucket := t.bucket + 1, pend := 0, regainAt := t.regainAt + bucketNs } } }
    .next (if t.bucket = 0 && t.pend != 0 then record s 0x02 sum else s)

/-! ### Watchdogs (R466) -/

/-- A processor is reset by its watchdog (R466): it is out of service until it returns. -/
def resetCore (s : State) (c : Nat) : State := record (setCore s c (fun x => { x with inReset := true, beat := s.time.dtb })) 0x21 [c, 2, 0]

/-- MANAGEMENT_CORE_WATCHDOG (R466): the core is reset; its duties resume from durable state when it returns. -/
def execManagementCoreWatchdog (core : Nat) (s : State) : Host.Outcome State Fault Refusal :=
  if !s.sup.rails || core < 24 || 27 < core || !coreRuns s core then .next s else .next (resetCore s core)

/-- SECURITY_CORE_WATCHDOG (R466): the core is reset with its keys kept; until it returns SPDM requests find it busy and the signing waits. -/
def execSecurityCoreWatchdog (s : State) : Host.Outcome State Fault Refusal :=
  if !s.sup.rails || !coreRuns s 28 then .next s else .next (resetCore s 28)

/-! ### Time copies (R21, R22) -/

/-- TIME_CORRECTION (R21, R22): an island's copy (0 to 5 the first six islands, 6 to 37 the channel islands, 39 the last), at a reading of its own within 20 ns of the master, takes the master's value; where that would move it backward it is held at the reading until the master has caught up, as a copy held already is. The calendar island holds the master itself. -/
def execTimeCorrection (copy reading : Nat) (s : State) : Host.Outcome State Fault Refusal :=
  if copyIx islands 0 ≤ copy || copy = copyIx 7 0 || !counterRuns s || s.time.dtb + 20 < reading || reading + 20 < s.time.dtb then .next s
  else .next { s with time := { s.time with copies := modAt s.time.copies copy (fun old =>
    if s.time.dtb < old then old else max reading s.time.dtb) } }

/-! ### Island faults (R20, R484, Table 16.5) -/

/-- The faults of one island within an hour that quarantine, and the cause. -/
def faultLimit (island : Nat) : Option (Nat × Nat) :=
  match island with
  | 0 | 1 | 3 | 6 => some (3, 4)
  | 4 | 5 | 8 => some (2, 4)
  | 7 => some (1, 5)
  | _ => none

/-- Enter Quarantine 4 or 5 from the modes that have the transition (Table 2.4); while the thermal shut-down sequence is under way, its Quarantine goes first and the fault is judged after it (R46). -/
def faultQuarantine (s : State) (cause : Nat) : State :=
  if s.th.shut ≠ 0 then { s with th := { s.th with laterCause := if s.th.laterCause = 0 then cause else s.th.laterCause } }
  else if s.md.mode.operates || s.md.mode == .pairing || s.md.mode == .quarantine then toQuarantine s cause else s

/-- Writes whose data was in the buffer and whose record is not durable complete with Data Transfer Error (Table 16.5). -/
def failBuffered (s : State) : State :=
  (s.port.cmds.filter (fun p => [IoOp.write, .writeZeroes, .append].contains p.2.op && p.2.stage == .dataIn)).foldl
    (fun s p => match p.2.seq with
      | some q => if (KV.find s.jr.recs q).any (fun r => r.durable) then s else finish (dropWrite s q) p.1 .dataTransferError
      | none => finish s p.1 .dataTransferError) s

/-- The dies a read needs, anew. -/
def readNeeds (s : State) (c : Cmd) : KV Need := (nsOf s c.nsid).elim [] (fun n => needsOf s c.nsid n c.slba c.nlb)

/-- The reads whose data is in the buffer are issued again (Table 16.5): their dies are asked once more, at the first slots free. -/
def readAgain (s : State) : State :=
  (s.port.cmds.filter (fun p => p.2.op == .read && (p.2.stage == .dieRequested || p.2.stage == .dieDone) && !(readNeeds s p.2).isEmpty)).foldl (fun s p =>
    let needs := readNeeds s p.2
    let s := setCmd (endXts s p.1) p.1 (fun c => { c with stage := .dieRequested, dies := needs.map (·.1) })
    let t := nextSlot (s.time.dtb + 1)
    needs.foldl (fun s x => (readDies s x.2 x.1).foldl (fun s q =>
      if s.cal.claims.any (fun y => y.slot == some p.1 && y.die == q) then s
      else (firstSlot (fun u => freeAt s q u (u + claimLen s q x.2)) (t + 2 * periodNs) 2048 t).elim s (fun u =>
        addClaim s { die := q, start := u, len := claimLen s q x.2, kind := .read, slot := some p.1 })) s) s) s

/-- A channel's reset ends what its dies ran: programs fail under R217, erases are repeated (R352). -/
def failChannel (s : State) (c : Nat) : State :=
  (s.media.dies.filter (fun x => dieCh s.part x.1 == c)).foldl (fun s x =>
    let s := x.2.claimOp.elim s (fun o => passFailed (setDie s x.1 (fun d => { d with claimOp := none })) x.1 0 true o)
    x.2.op.elim s (fun o =>
      let s := setDie s x.1 (fun d => { d with op := none })
      if o.kind = .erase then toErase s (setKey x.1 o.bset) else passFailed s x.1 0 true o)) s

/-- What an island's fault does to the commands in flight. -/
def islandEffect (s : State) (island channel : Nat) : State :=
  match island with
  | 0 => hostReset s
  | 1 => { s with tw := { s.tw with linkUp := false, full := s.tw.full + 1, trainStep := 1 } }
  | 4 => readAgain (failBuffered { s with it := { s.it with decFault := false } })
  | 5 => setRanks s .selfRefresh
  | 6 => failChannel s channel
  | 8 => refreshCrit (setFlags s (fun m => { m with writeThrough := true }))
  | _ => s

/-- The faults of an island in the last hour, with one now (Table 16.5). -/
def faultsSeen (s : State) (key : Nat) : List Nat :=
  ((KV.findD s.it.faults key []).filter (fun t => s.time.dtb < t + 3600000000000)) ++ [s.time.dtb]

/-- An island fault (R20, R470, R484): recorded, captured, the island reset; a repeat within its period quarantines the module. -/
def islandFault (s : State) (island crossing stallAt channel : Nat) : State :=
  let key := island * 32 + (if island = 6 then channel else 0)
  let seen := faultsSeen s key
  let s := capture (record s 0x22 [island, crossing, stallAt]) 0x22
  let s := { s with it := { s.it with
    faults := KV.set s.it.faults key seen
    faulted := if s.it.faulted.contains key then s.it.faulted else s.it.faulted ++ [key] } }
  let s := islandEffect s island channel
  match faultLimit island with
  | some (n, cause) => if n ≤ seen.length then faultQuarantine s cause else s
  | none => s

/-- ISLAND_FAULT (R20, R484): a handshake stayed unanswered for 2 µs. -/
def execIslandFault (island crossing stallAt channel : Nat) (s : State) : Host.Outcome State Fault Refusal :=
  if islands ≤ island || 32 ≤ channel || !s.sup.rails then .next s else .next (islandFault s island crossing stallAt channel)

/-- The buffer island's fault after a refused decrement (R470). It has no crossing: its event names crossing 0 (DESIGN CHOICE, log 123). -/
def refusedDecrement (s : State) : State := if s.it.decFault && s.sup.rails then islandFault s 4 0 s.time.dtb 0 else s

/-- SLOT_BOUNDARY (R159, R161, R166 to R168, R470): the next slot begins, and a fault due from the buffer island is raised. -/
def execSlotBoundary (s : State) : Host.Outcome State Fault Refusal := .next (refusedDecrement (nextBoundary s))

/-- ISLAND_RESET_COMPLETE (R484): the island is back; with the always-on island, write-through falls back to what the journal size gives. -/
def execIslandResetComplete (island channel : Nat) (s : State) : Host.Outcome State Fault Refusal :=
  let key := island * 32 + (if island = 6 then channel else 0)
  if !s.it.faulted.contains key then .next s
  else
    let s := { s with it := { s.it with faulted := s.it.faulted.filter (fun k => k != key) } }
    let s := if island = 5 then setRanks s .active else s
    .next (if island = 8 then refreshCrit (setFlags s (fun m => { m with writeThrough := s.sup.vigil == 0 })) else s)

/-! ### The background memory test (R476 to R478) -/

/-- MEMORY_TEST_ROUND (R476, R478): the engine has marched so many chunks of a bank, of which so many more hold a failing cell; a ninth spare row quarantines the module. -/
def execMemoryTestRound (bank chunks failing : Nat) (s : State) : Host.Outcome State Fault Refusal :=
  let b := bankOf s bank
  if !s.sup.rails || !mayTest s bank || s.it.banks.any (fun x => x.1 != bank && x.2.lent) || 2048 < chunks || (b.lent && chunks < b.chunk) then .next s
  else
    let s := testBank s bank chunks failing
    .next (if 8 < b.spares + failing then faultQuarantine s 4 else s)

/-! ### DRAM (R284, R479) -/

/-- PATROL_SCRUB (R479): all of DRAM has been read, with so many words corrected and written back. -/
def execPatrolScrub (corrected : Nat) (s : State) : Host.Outcome State Fault Refusal :=
  if !s.sup.rails || s.md.mode == .holiday then .next s
  else .next { s with it := { s.it with scrubs := s.it.scrubs + 1, dramCorrected := s.it.dramCorrected + corrected } }

/-- The data of a record is hit (R284): fetched from the twin, or its units are lost with cause 2h. -/
def loseRecord (s : State) (r : VRec) : State :=
  match nsOf s r.nsid with
  | none => s
  | some n =>
    if canFetch s n then fetchFromTwin s r.nsid r.slba r.nlb 65536 r.oseq
    else
      let s := (List.range r.nlb).foldl (fun s i => storeLba s r.nsid (r.slba + i) { readLba s r.nsid (r.slba + i) with lost := true }) s
      listLost s r.nsid r.slba r.nlb 2 0x3F n.mirrored

/-- A module record is written again with a new SEQ (R284). -/
def rewriteRecord (s : State) (seq : Nat) (r : VRec) : State :=
  let s := { s with jr := unplace { s.jr with recs := KV.del s.jr.recs seq } seq }
  (formRecord s mgmtCore r).1

/-- DRAM_UNCORRECTABLE_ERROR (R284, R479): `part` 1 a header, 2 or 3 the data of a mirrored or a single namespace, 4 a module record, 5 another region, whose rebuild from flash succeeds or not. -/
def execDramUncorrectableError (channel part seq : Nat) (ok : Bool) (s : State) : Host.Outcome State Fault Refusal :=
  if !s.sup.rails || 3 < channel then .next s
  else if part = 5 then .next (if ok then s else faultQuarantine s 4)
  else match KV.find s.jr.recs seq with
    | none => .next s
    | some r =>
      let s := record s 0x39 [channel, part, r.oseq]
      if part = 2 || part = 3 then .next (loseRecord s r)
      else if part = 4 && 0x20 ≤ r.typ then .next (rewriteRecord s seq r)
      else .next s

/-! ### The sideband address (R493) -/

/-- I3C_ADDRESS_ASSIGNMENT (R493): SETAASA gives the static address 1Dh, ENTDAA a dynamic one, to a module that has none. -/
def execI3cAddressAssignment (dynamic : Option Nat) (s : State) : Host.Outcome State Fault Refusal :=
  if !s.sup.rails || s.sup.i3cAddr.isSome then .next s
  else .next { s with sup := { s.sup with i3cAddr := some (dynamic.getD 0x1D) } }

end Sys2Proof.Machine
end

