-- ==== Sys2Proof/Machine/Flags.lean ====
section
/-! DEFINITION. The registers as a host reads them: the NVMe controller registers (Table 3.4) and the set-up block (Tables 2.3 and 3.5), computed from the state, with their status and flag bits. -/

namespace Sys2Proof.Machine

/-- A field `v` of `n` bits at bit `lo` of a register. -/
def inReg (v lo n : Nat) : Nat := v % 2^n * 2^lo

/-! ### NVMe controller registers (R69, Table 3.4) -/

/-- CAP: MQES 0FFFh, CQR, TO 14h, NSSRS, CSS 41h, MPSMAX 4h, CRMS 11b. -/
def capReg : Nat := 0x0FFF + inReg 1 16 1 + inReg 0x14 24 8 + inReg 1 36 1 + inReg 0x41 37 8 + inReg 4 52 4 + inReg 3 59 2

/-- CSTS: RDY, CFS, SHST and NSSRO; PP is always 0. -/
def cstsReg (c : Ctrl) : Nat := bit c.rdy + 2 * bit c.cfs + inReg c.shst 2 2 + inReg (bit c.nssro) 4 1

/-- The dword at an offset of BAR0 below 1000h; reserved and unimplemented offsets read zero. -/
def nvmeDword (s : State) (f off : Nat) : Nat :=
  let c := ctrl s f
  if off = 0 then capReg % 2^32 else if off = 4 then capReg / 2^32
  else if off = 8 then 0x00020000
  else if off = 0x14 then c.cc.toNat
  else if off = 0x1C then cstsReg c
  else if off = 0x24 then c.aqa.toNat
  else if off = 0x28 then c.asq.toNat % 2^32 else if off = 0x2C then c.asq.toNat / 2^32
  else if off = 0x30 then c.acq.toNat % 2^32 else if off = 0x34 then c.acq.toNat / 2^32
  else if off = 0x68 then 0x14 + inReg 3 16 16
  else 0

/-! ### The set-up block (R71, Table 3.5) -/

/-- SU_LINK: DEGRADED while trained below 64 GT/s x8. -/
def suLink (s : State) : Nat :=
  inReg s.port.rate 0 3 + inReg (bit s.port.flit) 3 1 + inReg s.port.width 4 4
    + inReg (bit (s.port.rate != 0 && !(s.port.rate == 4 && s.port.width == 8))) 8 1 + inReg s.port.credits 16 12

/-- PEER_VALID: the twin's mode was received less than 16 µs ago. -/
def peerValid (s : State) : Bool := s.tw.peerAt.any (fun t => s.time.dtb < t + 16000)

/-- RESYNC_PCT (R323). -/
def resyncPct (s : State) : Nat := if s.tw.resyncTotal = 0 then 0 else min 100 (100 * s.tw.resyncDone / s.tw.resyncTotal)

def suPair (s : State) : Nat :=
  bit s.tw.senseIn + 2 * bit s.tw.linkUp + 4 * bit s.tw.paired + 8 * bit s.tw.unpaired + inReg s.tw.dWidth 4 4 + inReg s.tw.dRate 8 3
    + inReg s.tw.peerMode 12 3 + inReg (bit (peerValid s)) 15 1 + inReg (resyncPct s) 16 7

/-- SU_PWRBUD (R72). -/
def suPwrbud (s : State) : Nat :=
  inReg (psCap s.pw.now) 0 8 + inReg s.pw.limit 8 8 + inReg (s.pw.flashMw / 100) 16 12 + inReg s.pw.now 28 3

def suFeeds (s : State) : Nat :=
  inReg s.sup.feedA 0 10 + inReg s.sup.feedB 10 10 + inReg (bit s.sup.aOk) 20 1 + inReg (bit s.sup.bOk) 21 1 + inReg (bit s.sup.pwrdis) 22 1

/-- SU_HOLDUP: USABLE is of the latest measurement; TESTING from step 1 of R334 to step 5. -/
def suHoldup (s : State) : Nat :=
  inReg (s.sup.bankMv / 500) 0 8 + inReg s.sup.usableDj 8 8 + inReg (needField s.sup.vigil) 16 8 + inReg s.sup.vigil 24 4
    + inReg (bit (s.sup.test != .idle && s.sup.test != .waiting)) 28 1 + inReg (bit (s.th.bank.now.any (fun r => decide (70 ≤ r)))) 29 1

def suTimeq (s : State) : Nat :=
  inReg s.time.src 0 3 + inReg (bit s.md.timeDisc) 3 1 + inReg (timeUnit s).1 14 2 + inReg (timeUnit s).2 16 16

/-- SU_TIMEQ_SET: seconds since the host last set Timestamp. -/
def suTimeqSet (s : State) : Nat := s.time.setAt.elim 0xFFFFFFFF (fun t => min 0xFFFFFFFF ((s.time.dtb - t) / 1000000000))

/-- A temperature as registers and logs show it: 80h in Holiday, where nothing is sampled (R427). -/
def tempShown (s : State) (t : Int) : Nat := if s.md.mode = .holiday then 0x80 else tempByte t

def suTemp (s : State) : Nat :=
  tempShown s (hottest s.th.ctrl.now) + inReg (tempShown s (hottest s.th.flash.now)) 8 8 + inReg (tempShown s (hottest s.th.dram.now)) 16 8
    + inReg (tempShown s (hottest s.th.bank.now)) 24 8

/-- SU_FUNC; ONLINE is always 1 on the PF. -/
def suFunc (s : State) (f : Nat) : Nat :=
  inReg (ctrl s f).ioq 0 14 + inReg (ctrl s f).vec 16 12 + inReg (bit (f == 0 || (ctrl s f).online)) 28 1

/-- The dword at an offset of BAR4; unallocated offsets read zero (R68). -/
def suDword (s : State) (f off : Nat) : Nat :=
  let fw := (running s).getD {}
  if off = 0 then 1 + inReg s.part.code 8 8 + inReg fw.major 16 8 + inReg fw.minor 24 8
  else if off = 4 then inReg fw.build 0 16 + inReg f 16 7 + inReg s.sup.slotid.toNat 24 3
  else if off = 0x10 then suMode s.md
  else if off = 0x20 then suLink s
  else if off = 0x24 then s.port.retrains.toNat + inReg s.port.downs.toNat 16 16
  else if off = 0x30 then suPair s
  else if off = 0x40 then suPwrbud s
  else if off = 0x44 then suFeeds s
  else if off = 0x48 then inReg s.sup.pIn 0 12
  else if off = 0x50 then suHoldup s
  else if off = 0x54 then inReg s.sup.lastTest 0 16
  else if off = 0x60 then suTimeq s
  else if off = 0x64 then suTimeqSet s
  else if off = 0x70 then hostTime s % 2^32
  else if off = 0x74 then s.port.dtbHi.toNat
  else if off = 0x80 then suTemp s
  else if off = 0x90 then suFunc s f
  else if off = 0xA0 then (ctrl s f).dbCount.toNat + inReg (ctrl s f).dbLast.toNat 16 16
  else 0

/-- What a read of the set-up block returns (R68): aligned reads of 1, 2 and 4 bytes, and of 8 at 0070h; zero for any other. -/
def suRead (s : State) (f off size : Nat) : Nat :=
  if size = 8 ∧ off = 0x70 then hostTime s % 2^64
  else if (size = 1 ∨ size = 2 ∨ size = 4) ∧ off % size = 0 then suDword s f (off / 4 * 4) / 2^(8 * (off % 4)) % 2^(8 * size)
  else 0

/-- What a read of the controller registers returns (R69): aligned reads of 4 bytes, and of 8 at CAP, ASQ and ACQ; zero for any other. -/
def nvmeRead (s : State) (f off size : Nat) : Nat :=
  if size = 8 ∧ (off = 0 ∨ off = 0x28 ∨ off = 0x30) then nvmeDword s f off + 2^32 * nvmeDword s f (off + 4)
  else if size = 4 ∧ off % 4 = 0 ∧ off < 0x1000 then nvmeDword s f off
  else 0

/-! ### The MSI-X table and configuration space (R61, R67, R74) -/

/-- The dword at an offset of BAR2 (Table 3.3): the MSI-X table, and the pending-bit array at 8000h of the PF or 0C00h of a VF; the rest reads zero. -/
def msixDword (s : State) (f off : Nat) : Nat :=
  let c := ctrl s f
  let pba := if f = 0 then 0x8000 else 0xC00
  if off / 16 < tableSize f then
    let m := c.entry (off / 16)
    nth [m.addr % 2^32, m.addr / 2^32, m.data, bit m.masked] (off % 16 / 4)
  else if pba ≤ off ∧ 8 * (off - pba) < tableSize f then
    (c.pba.filter (fun v => v / 32 == (off - pba) / 4)).foldl (fun a v => a + 2^(v % 32)) 0
  else 0

/-- The values of configuration space that the rules give (R61, R67, R74), by name. -/
inductive CfgField where
  | l1Enable | aspmSupport | l1ExitLatency | vfEnable | numVfs | totalVfs | initialVfs | firstVfOffset | vfStride | ari | msixTableSize
  | bar0Size | bar2Size | bar4Size | bar64Bit | barPrefetchable | intxPin
  deriving DecidableEq, Repr

/-- What a field of configuration space reads. ASPM Support is 10b (L1 only) and the L1 Exit Latency 011b (4 µs to less than 8 µs) in the codes of PCIe (PRESUMED); MSI-X Table Size is shown as the number of entries. -/
def configRead (s : State) (f : Nat) : CfgField → Nat
  | .l1Enable => bit s.port.l1Enabled
  | .aspmSupport => 2
  | .l1ExitLatency => 3
  | .vfEnable => if f = 0 then bit s.port.vfEnable else 0
  | .numVfs => if f = 0 then s.port.numVfs else 0
  | .totalVfs | .initialVfs => if f = 0 then 127 else 0
  | .firstVfOffset | .vfStride => if f = 0 then 1 else 0
  | .ari => 1
  | .msixTableSize => tableSize f
  | .bar0Size => if f = 0 then 0x20000 else 0x4000
  | .bar2Size => if f = 0 then 0x10000 else 0x1000
  | .bar4Size => 0x1000
  | .bar64Bit => 1
  | .barPrefetchable | .intxPin => 0

end Sys2Proof.Machine
end

