-- ==== Sys2Proof/Machine/Logs.lean ====
section
/-! DEFINITION. The log pages as bytes (chapters 4, 5, 7, 8, 10, 12, 14): each is a function from an offset to a byte, as the reading function may see it. Layouts of the standard logs are those of NVMe 2.0 (PRESUMED); bytes the spec gives no value are free values. -/

namespace Sys2Proof.Machine

/-! ### Pages -/

/-- Part of a structure: its offset and its bytes. -/
abbrev Piece := Nat × List Nat

/-- A little-endian field of n bytes at an offset (R11). -/
def at' (o n v : Nat) : Piece := (o, leBytes n v)

/-- The byte that the parts give an offset, if any does. -/
def segByte (l : List Piece) (i : Nat) : Option Nat :=
  l.findSome? (fun p => if p.1 ≤ i ∧ i < p.1 + p.2.length then some (nth p.2 (i - p.1)) else none)

/-- A structure whose other bytes are reserved, and so zero (R12). -/
def page (l : List Piece) (i : Nat) : Nat := (segByte l i).getD 0

/-- A table of n rows of `stride` bytes from `base`; the offset within a row's parts gives the byte. -/
def rows (base stride n : Nat) (row : Nat → List Piece) (i : Nat) : Option Nat :=
  if base ≤ i ∧ i < base + stride * n then some (page (row ((i - base) / stride)) ((i - base) % stride)) else none

/-- The byte of a table, or of what lies around it. -/
def orPage (r : Option Nat) (rest : Nat) : Nat := r.getD rest

/-- The free byte of a structure returned now, at an offset: a value the spec does not give. -/
def freeByte (s : State) (i : Nat) : Nat := Config.reportByte s.free i % 256

/-- A standard structure: the parts the spec gives, free elsewhere. -/
def standard (s : State) (l : List Piece) (i : Nat) : Nat := (segByte l i).getD (freeByte s i)

/-- A log: its size (none where it has no end) and its bytes. -/
structure Doc where
  size : Option Nat
  byte : Nat → Nat

/-- Whether a namespace is attached to a function's controller. -/
def attachedTo (s : State) (nsid f : Nat) : Bool := (nsOf s nsid).any (fun n => n.attached.contains f)

/-- ASCII. -/
def ascii (t : String) : List Nat := t.toList.map (fun c => c.toNat)

def digits (n v : Nat) : List Nat := (List.range n).reverse.map (fun k => 48 + v / 10^k % 10)

/-- Eight digits MMmmBBBB (Table 3.10). -/
def fwDigits (i : Image) : List Nat := digits 2 i.major ++ digits 2 i.minor ++ digits 4 i.build

/-! ### Standard logs -/

/-- The log pages of the module; telemetry is the PF's alone (R429). -/
def logIds : List Nat := [0x00, 0x01, 0x02, 0x03, 0x04, 0x05, 0x07, 0x08, 0x0C, 0x81, 0xBF, 0xC0, 0xC1, 0xC2, 0xC3, 0xC4, 0xC5, 0xC6, 0xC7, 0xC8, 0xC9]

/-- Supported Log Pages (00h, R418). -/
def supportedLogs (f : Nat) : Doc :=
  { size := some 1024, byte := fun i => orPage (rows 0 4 256 (fun k => [at' 0 1 (bit (logIds.contains k && !(f != 0 && (k == 7 || k == 8))))]) i) 0 }

/-- Whether a status carries Do Not Retry (Table 14.6, and R55 for Namespace Not Ready); for another standard status the spec does not say. -/
def Status.dnr : Status → Option Bool
  | .c1 | .c2 | .c3 | .c6 => some true
  | .c0 | .c4 | .c5 | .c7 | .namespaceNotReady => some false
  | _ => none

/-- Error Information (01h, R417): newest first, each with its count. -/
def errorLog (s : State) (f : Nat) : Doc :=
  let c := ctrl s f
  { size := some 16384
    byte := fun i => match c.errs[i / 64]? with
      | none => 0
      | some e =>
        let dnr := (e.status.dnr.map bit).getD (freeByte s (64 * (i / 64) + 13) / 128)
        standard s [at' (64 * (i / 64)) 8 (c.errCount - i / 64), at' (64 * (i / 64) + 8) 2 e.sqid, at' (64 * (i / 64) + 10) 2 e.cid,
          at' (64 * (i / 64) + 12) 2 (2 * e.status.code + 32768 * dnr), at' (64 * (i / 64) + 32) 8 e.dw0] i }

/-- SMART / Health Information (02h, R210, R245, R336, R447). -/
def smartLog (s : State) : Doc :=
  { size := some 512, byte := standard s [at' 0 1 s.adm.critWarn.toNat, at' 1 2 (composite s).toNat, at' 3 1 (availableSpare s), at' 4 1 10, at' 5 1 (min 255 s.media.pctUsed),
      (200, [s.th.ctrl, s.th.flash, s.th.dram, s.th.bank].flatMap (fun x => leBytes 2 (273 + hottest x.now).toNat))] }

/-- Firmware Slot Information (03h, R377). -/
def firmwareLog (s : State) : Doc :=
  let rev (k : Nat) : List Nat := if slotVerifies s k then fwDigits ((slotImage s k).getD {}) else List.replicate 8 0
  { size := some 512
    byte := page [at' 0 1 (s.boot.slotRun + 16 * (if s.boot.slotSel = s.boot.slotRun then 0 else s.boot.slotSel)), (8, rev 1), (16, rev 2)] }

/-- Changed Namespace List (04h). -/
def changedLog (s : State) (f : Nat) : Doc :=
  { size := some 4096, byte := page ((ctrl s f).changedNs.zipIdx.map (fun x => at' (4 * x.2) 4 x.1)) }

/-- Admin opcodes of the module (chapters 3, 13, 14), and those of the command sets. -/
def adminOpcodes : List Nat :=
  [0x00, 0x01, 0x02, 0x04, 0x05, 0x06, 0x08, 0x09, 0x0A, 0x0C, 0x0D, 0x10, 0x11, 0x15, 0x18, 0x1C, 0x80, 0x81, 0x82, 0x84, 0xC0, 0xC1, 0xC2, 0xC4]

def ioOpcodes (zoned : Bool) : List Nat := [0x00, 0x01, 0x02, 0x08] ++ if zoned then [0x79, 0x7A, 0x7D] else []

/-- The effects of a vendor command (Table 14.1): CSUPP, LBCC, NCC, NIC. -/
def vendorEffects (op : Nat) : Option Nat :=
  if op = 0xC0 then some 15 else if op = 0xC2 then some 5 else if op = 0xC1 ∨ op = 0xC4 then some 1 else none

/-- Commands Supported and Effects (05h, R410): CSE 000b for every command; the other effects of a standard command are free. -/
def effectsLog (s : State) (csi : Nat) : Doc :=
  { size := some 4096
    byte := fun i =>
      let op := i / 4 % 256
      let known := if i < 1024 then adminOpcodes.contains op else (i < 2048 && (ioOpcodes (csi == 2)).contains op)
      if !known || i % 4 != 0 then 0
      else if i < 1024 then (vendorEffects op).getD (freeByte s i / 2 % 16 * 2 + 1) else freeByte s i / 2 % 16 * 2 + 1 }

/-- ANA states (NVMe 2.0). -/
def Ana.code : Ana → Nat
  | .optimized => 1 | .nonOptimized => 2 | .inaccessible => 3 | .persistentLoss => 4 | .change => 15

/-- Asymmetric Namespace Access (0Ch, R90 to R92): one group for each namespace attached to the function; with `rgo` the groups alone. -/
def anaLog (s : State) (f : Nat) (rgo : Bool) : Doc :=
  let l := s.zn.ns.filter (fun p => p.2.attached.contains f)
  let w := if rgo then 32 else 36
  { size := some (16 + 36 * 256)
    byte := fun i => orPage (rows 16 w l.length (fun k => match l[k]? with
        | none => []
        | some p => [at' 0 4 p.1, at' 4 4 (bit (!rgo)), at' 8 8 p.2.anaCount, at' 16 1 p.2.anaShown.code, at' 32 (if rgo then 0 else 4) p.1]) i)
      (page [at' 0 8 s.zn.anaCount, at' 8 2 l.length] i) }

/-- Sanitize Status (81h, R404): the fraction done of a running operation and the estimates are free. -/
def sanitizeLog (s : State) : Doc :=
  let x := s.adm.sanitize
  let st := if x.running || x.pending then 2 else if x.failed then 3 else if x.ever then 1 else 0
  { size := some 512
    byte := standard s ((if x.running || x.pending then [] else [at' 0 2 0xFFFF]) ++ [at' 2 1 st, at' 4 4 x.cdw10]) }

/-- Changed Zone List (BFh, R104). -/
def changedZones (n : Ns) : Doc :=
  let k := if 511 < n.changed.length then 0xFFFF else n.changed.length
  { size := some 4096
    byte := page (at' 0 2 k :: (if k = 0xFFFF then [] else (sortBy id n.changed).zipIdx.map (fun x => at' (8 + 8 * x.2) 8 (x.1 * zoneSize n.flbas)))) }

/-! ### C0h Almanac (R371, Table 12.6) -/

/-- A body entry is held in fewer than three good copies (R369, R371): a copy decodes while at most two positions of its group stand empty or are being rebuilt (R222). -/
def bodyDegraded (s : State) : Bool :=
  !s.boot.body.isEmpty && s.boot.bodyGroups.any (fun g =>
    (grpOf s g).retired || 2 < (grpOf s g).unfilled.length + ((s.media.rebuilds.filter (fun r => r.group == g)).map (fun r => r.positions.length)).foldl (· + ·) 0)

def almanacLog (s : State) : Doc :=
  let cur := KV.find s.boot.ring s.boot.boot
  let entry (b : Nat) : Option Alm := (KV.find s.boot.ring b).orElse (fun _ => KV.find s.boot.body b)
  { size := none
    byte := fun i =>
      if 0x1000 ≤ i then
        match entry ((i - 0x1000) / 1024 + 1) with
        | some a => nth (almBytes s a) ((i - 0x1000) % 1024)
        | none => 0
      else page [at' 0 1 1,
        at' 1 1 (bit s.boot.signPending + 2 * bit (bodyMax < s.boot.boot) + 4 * bit (bodyDegraded s)),
        at' 4 4 s.boot.boot,
        at' 8 4 (s.boot.body.length + (s.boot.ring.filter (fun p => (KV.find s.boot.body p.1).isNone)).length),
        at' 0xC 4 s.boot.lost, at' 0x10 1 s.boot.minSvn, at' 0x18 8 (cur.elim 0 (fun a => if a.signed then a.signedDtb else 0)),
        (0x20, beBytes 96 (Config.publicKey Config.uds labelDevice)), at' 0x400 2 Config.chain.length, (0x402, Config.chain.take 0xBFE)] i }

/-! ### C1h Media Health (R220, R221, Tables 7.10 to 7.15) -/

/-- Bytes per die-state code (Table 7.12). -/
def DieState.code : DieState → Nat
  | .healthy => 0 | .spareFree => 1 | .spareWriting => 2 | .failed => 3

/-- The dies that are members of a group. -/
def memberDies (s : State) : List Nat := (List.range (dieCount s.part)).filter (fun d => (dieOf s d).group.isSome && (dieOf s d).state == .healthy)

/-- Block sets of a die with a role among some. -/
def setsOn (s : State) (d : Nat) (ok : Role → Bool) : List BSet := ((List.range 2048).map (fun b => bsetOf s (setKey d b))).filter (fun x => ok x.role)

def Role.slc : Role → Bool
  | .staging | .metaMap | .metaLog | .system | .landing => true
  | _ => false

/-- Mean and highest wear of sets (R209). -/
def meanWear (l : List BSet) : Nat := l.foldl (fun a b => a + b.wear) 0 / max 1 l.length
def maxWear (l : List BSet) : Nat := l.foldl (fun a b => max a b.wear) 0

def isZone (r : Role) : Bool := r == .zone

/-- The die entry (Table 7.12). -/
def dieRow (s : State) (d : Nat) : List Piece :=
  let x := dieOf s d
  [at' 0 1 (x.state.code + 8 * x.cause), at' 1 1 (x.group.getD 0xFF), at' 2 1 (x.pos.getD 0xFF), at' 3 1 (bandOf s d), at' 4 2 x.grownBad, at' 6 2 x.retired,
   at' 8 2 (nth x.repl 0), at' 10 2 (nth x.repl 1), at' 12 2 (nth x.repl 2), at' 14 2 (nth x.repl 3), at' 0x10 2 x.staging,
   at' 0x12 2 (freeOf s d .zone).length, at' 0x14 4 (meanWear (setsOn s d isZone)), at' 0x18 4 (maxWear (setsOn s d isZone)),
   at' 0x1C 4 (meanWear (setsOn s d Role.slc)), at' 0x20 4 x.softRetries, at' 0x24 4 x.erasures, at' 0x28 4 x.failedBoot]

/-- An untouched channel as trained at reset (R190). -/
def chanOf (s : State) (c : Nat) : Chan := KV.findD s.media.chans c {}

/-- R208: the die that holds a channel's reference sets: the first of its members that works. -/
def refOrdinal (s : State) (c : Nat) : Nat :=
  (refDie s c).elim 0xFF (dieOrd s.part)

/-- The channel entry (Table 7.14). -/
def chanRow (s : State) (c : Nat) : List Piece :=
  let x := chanOf s c
  [at' 0 1 (x.rate + 8 * bit (chanRate s c < 3600)), at' 1 1 x.pkgOk,
   at' 2 1 (nth x.odt 0 + 16 * nth x.drive 0), at' 3 1 (nth x.odt 1 + 16 * nth x.drive 1), at' 4 1 (nth x.odt 2 + 16 * nth x.drive 2),
   (5, (List.range 3).map (fun k => tempShown s (s.th.flash.now.getD (3 * c + k) 0))),
   at' 8 4 (chanBudget s c), at' 0xC 2 (chanFactor s c s.cal.period), at' 0xE 2 (refOrdinal s c), at' 0x10 2 x.refShift]

/-- The block-set entry (Table 7.15). -/
def setRow (s : State) (k : Nat) : List Piece :=
  let b := bsetOf s k
  [at' 0 4 (b.erases % 2^24 + 2^24 * b.role.code + 2^28 * b.state.code + 2^31 * bit b.replaced)]

/-- The header (Table 7.11). -/
def mediaHeader (s : State) : List Piece :=
  let dies := List.range (dieCount s.part)
  let m := memberDies s
  let sets (ok : Role → Bool) : List BSet := m.flatMap (fun d => setsOn s d ok)
  let low (f : Nat → Nat) : Nat := (m.map f).foldl min (m.head?.elim 0 f)
  let sum (f : Die → Nat) : Nat := dies.foldl (fun a d => a + f (dieOf s d)) 0
  [at' 0 1 1, at' 1 1 s.part.code, at' 2 1 s.part.diesPerChannel,
   at' 3 1 (bit s.time.gap.isSome + 2 * bit s.time.gapOver + 4 * bit ((List.range 32).any (fun c => chanRate s c < 3600))
     + 8 * bit ((List.range s.part.groups).any (fun g => (grpOf s g).stagingFree ≤ 2))),
   at' 4 2 m.length, at' 6 2 (dies.countP (fun d => (dieOf s d).state == .failed)), at' 8 2 (freeSpares s), at' 0xA 1 s.media.pctUsed,
   at' 0xC 4 s.time.rd.toNat, at' 0x10 4 (s.time.gap.getD 0xFFFFFFFF), at' 0x14 4 s.time.gapUnc, at' 0x18 4 s.media.wz, at' 0x1C 4 s.media.ws,
   at' 0x20 4 (maxWear (sets isZone)), at' 0x24 4 (maxWear (sets Role.slc)),
   at' 0x28 4 (nth s.media.hostGib 0 / 2^20), at' 0x2C 4 (nth s.media.hostGib 1 / 2^20), at' 0x30 4 (nth s.media.hostGib 2 / 2^20), at' 0x34 4 (nth s.media.hostGib 3 / 2^20),
   at' 0x38 8 (s.media.progKib / 2^20), at' 0x40 4 (sum (fun x => x.grownBad)), at' 0x44 4 (sum (fun x => x.retired)),
   at' 0x48 2 (low (fun d => (dieOf s d).repl.foldl min 0xFFFF)), at' 0x4A 2 (low (fun d => (dieOf s d).staging)),
   at' 0x4C 4 (sum (fun x => x.softRetries)), at' 0x50 4 (sum (fun x => x.erasures)), at' 0x54 4 s.media.refDisturb, at' 0x58 4 s.media.refRetention,
   at' 0x5C 4 s.media.refError, at' 0x60 4 s.media.relocWear, at' 0x64 4 s.media.copyFails, at' 0x68 4 (s.media.foldKib / 2^20)]

/-- C1h; a VF reads header bytes 000h to 00Bh (R221). -/
def mediaLog (s : State) (f : Nat) : Doc :=
  { size := some (0x20000 + 8192 * dieCount s.part)
    byte := fun i =>
      if f ≠ 0 ∧ 0xC ≤ i then 0
      else if i < 0x1000 then page (mediaHeader s) i
      else match rows 0x1000 64 (dieCount s.part) (dieRow s) i with
        | some b => b
        | none => match rows 0x16000 64 32 (chanRow s) i with
          | some b => b
          | none => orPage (rows 0x20000 4 (2048 * dieCount s.part) (setRow s) i) 0 }

/-! ### C2h Latency Ledger (R155, R156, Tables 5.9 and 5.10) -/

def ledgerBytes (l : Ledger) : List Piece :=
  [at' 0 8 l.admitted, at' 8 8 l.completed, at' 0x10 4 l.rejTokens, at' 0x14 4 l.rejPlace, at' 0x18 4 l.rejJournal, at' 0x1C 4 l.rejOther,
   at' 0x20 4 l.rejBudget, at' 0x24 4 l.misses, at' 0x28 4 (min 0xFFFFFFFF l.worstNs), at' 0x2C 2 l.worstSqid, at' 0x2E 2 l.worstCid,
   at' 0x30 8 l.worstAt, at' 0x38 8 l.sumUs]

def ledgerLog (s : State) (f : Nat) : Doc :=
  { size := some 66048
    byte := fun i =>
      if i < 0x40 then page [at' 0 1 1, at' 2 2 128, at' 4 4 s.boot.boot, at' 8 8 s.time.dtb, at' 0x10 8 s.cal.period] i
      else if i < 0xC0 then
        (if f ≠ 0 then 0 else orPage (rows 0x40 16 8 (fun r => [at' 0 8 (nth s.port.modAdmitted r), at' 8 8 (nth s.port.modRefused r)]) i) 0)
      else if f ≠ 0 ∧ (i - 0x200) / 512 ≠ f then 0
      else orPage (rows 0x200 64 1024 (fun r => ledgerBytes (KV.findD s.port.ledger r {})) i) 0 }

/-! ### C3h Pair Status (R327, Tables 10.20 and 10.21) -/

/-- STATE of the pair. -/
def pairState (s : State) : Nat :=
  if s.md.mode = .pairing then 4 else if s.tw.unpaired then 3 else if s.tw.paired && s.md.mode == .service then 1 else if s.tw.pairId != 0 then 2 else 0

def pairEntry (nsid : Nat) (n : Ns) : List Piece :=
  [at' 0 4 nsid,
   at' 4 1 (bit n.mirrored + 2 * bit n.here + 4 * bit n.fenced + 8 * bit n.cont + 16 * bit n.yielded + 32 * bit n.diverged + 64 * bit n.ploss + 128 * bit n.resyncPending),
   at' 5 1 (min 100 n.resyncPct), at' 8 4 n.sepPepoch]

def pairHeader (s : State) : List Piece :=
  [at' 0 1 1, at' 1 1 (pairState s + 8 * bit (s.sup.slotid.getLsbD 0) + 16 * bit s.tw.senseFault + 32 * bit s.tw.locked),
   at' 2 1 (s.tw.peerMode % 8 + 8 * bit (peerValid s)), at' 3 1 s.tw.refuse, at' 4 4 s.jr.pepoch.toNat, at' 8 8 s.tw.pairId,
   (0x10, s.tw.twinSerial), at' 0x24 4 s.tw.twinFw, at' 0x28 1 s.tw.lossKind, at' 0x30 8 s.tw.lossAt, at' 0x38 4 s.tw.lossBoot,
   at' 0x3C 4 s.tw.refuseBoot, at' 0x40 8 s.tw.refuseAt, at' 0x48 4 s.tw.pairings, at' 0x4C 4 s.tw.losses, at' 0x50 4 s.tw.linkFaults,
   at' 0x54 4 s.tw.quick, at' 0x58 4 s.tw.full, at' 0x5C 4 s.tw.integrity, at' 0x60 8 s.tw.replays, at' 0x68 8 s.tw.resyncTotal,
   at' 0x70 8 s.tw.resyncDone, at' 0x78 4 (s.zn.ns.countP (fun p => p.2.resyncPending)), at' 0x80 8 s.tw.resyncStart]

/-- C3h; a VF reads bytes 000h to 003h and the entries of its namespaces. -/
def pairLog (s : State) (f : Nat) : Doc :=
  { size := some 8192
    byte := fun i =>
      if i < 0x1000 then (if f ≠ 0 ∧ 4 ≤ i then 0 else page (pairHeader s) i)
      else orPage (rows 0x1000 16 256 (fun k => match s.zn.ns[k]? with
          | some p => if f = 0 || p.2.attached.contains f then pairEntry p.1 p.2 else []
          | none => []) i) 0 }

/-! ### C4h Unrecoverable Extents (R243, R244, Tables 8.4 to 8.6) -/

/-- The extents of a reading in the order of R243. -/
def extentsFor (s : State) (f nsid : Nat) : List Extent :=
  (s.media.extents.filter (fun x => if nsid = 0xFFFFFFFF then attachedTo s x.nsid f else x.nsid == nsid)).insertionSort
    (fun a b => a.nsid < b.nsid ∨ (a.nsid = b.nsid ∧ a.slba ≤ b.slba))

/-- Lost 4 KiB units of an extent. -/
def extentUnits (s : State) (x : Extent) : Nat := x.count * unitsPerLba (((nsOf s x.nsid).map (fun n => n.flbas)).getD 0)

def extentRow (x : Extent) : List Piece :=
  [at' 0 8 x.slba, at' 8 4 x.count, at' 0xC 4 x.nsid, at' 0x10 1 (x.cause % 16 + 16 * bit x.repairable), at' 0x11 1 (if x.cause = 2 then 0x3F else x.group), at' 0x14 4 x.boot, at' 0x18 8 x.found]

/-- The rebuild entry (Table 8.5); the estimated end is free while it runs. -/
def rebuildRow (s : State) (g : Nat) : List Piece :=
  match s.media.rebuilds.find? (fun r => r.group == g) with
  | none => []
  | some r =>
    let pos (k : Nat) : Nat := (r.positions[k]?).getD 0xFF
    let ch (k : Nat) : Nat := (r.spares[k]?).elim 0x1F (dieCh s.part)
    let ord (k : Nat) : Nat := (r.spares[k]?).elim 0x3F (dieOrd s.part)
    [at' 0 1 (1 + 2 * bit r.running + 4 * bit r.tail), at' 1 1 (pos 0), at' 2 1 (pos 1), at' 3 1 (pos 2), at' 4 1 (ch 0), at' 5 1 (ord 0), at' 6 1 (ch 1), at' 7 1 (ord 1),
     at' 8 1 (ch 2), at' 9 1 (ord 2), at' 0xC 4 r.total, at' 0x10 4 r.done.length, at' 0x14 4 r.boot, at' 0x18 8 (if r.running then r.start else 0),
     at' 0x20 8 (if r.running then (List.range 8).foldl (fun a k => a + freeByte s (0x120 + 64 * g + k) * 256^k) 0 else 0)]

def extentLog (s : State) (f nsid : Nat) : Doc :=
  let l := extentsFor s f nsid
  let run := s.media.rebuilds.countP (fun r => r.running)
  { size := some 135168
    byte := fun i =>
      if i < 0x100 then page [at' 0 1 1, at' 1 1 (bit (4096 < l.length)), at' 4 4 (min 4096 l.length), at' 8 8 s.media.extentGen,
        at' 0x10 8 (l.foldl (fun a x => a + extentUnits s x) 0), at' 0x18 1 (if f = 0 then run else 0),
        at' 0x19 1 (if f = 0 then s.media.rebuilds.length - run else 0)] i
      else if i < 0xB00 then (if f ≠ 0 then 0 else orPage (rows 0x100 64 40 (rebuildRow s) i) 0)
      else orPage (rows 0x1000 32 (min 4096 l.length) (fun k => ((l[k]?).map extentRow).getD []) i) 0 }

/-! ### C5h Event Journal (R421, R425, R426, Tables 14.8 and 14.10) -/

/-- Sizes of the payload fields of a type (Table 14.9); a payload that is a structure is held as its bytes. -/
def evSizes (typ : Nat) : List Nat :=
  if typ = 0x01 then [4, 8, 8] else if typ = 0x02 then [2, 4, 8, 8] else if typ = 0x20 then [2, 2, 1, 1, 8, 8]
  else if typ = 0x21 then [1, 1, 4] else if typ = 0x22 then [1, 1, 8] else if typ = 0x31 then [1, 1, 1, 1, 4]
  else if typ = 0x32 then [1, 1, 4, 4] else if typ = 0x34 then [1, 1, 4] else if typ = 0x35 then [1, 1, 1, 2, 2]
  else if typ = 0x36 then [8, 4, 1, 1, 1] else if typ = 0x37 then [1, 2] else if typ = 0x38 then [1, 1, 2, 1]
  else if typ = 0x39 then [1, 1, 8] else if typ = 0x40 then [2, 2, 1, 1] else if typ = 0x41 then [2]
  else if typ = 0x51 then [1, 1, 2] else if typ = 0x60 then [1, 4] else if typ = 0x65 then [1, 4]
  else if typ = 0x71 then [2] else if typ = 0x72 then [1, 1, 4] else if typ = 0x73 then [1, 1, 1, 8] else []

/-- The payload bytes; fields the table does not size are of one byte. -/
def evPayload (e : Ev) : List Nat := e.payload.zipIdx.flatMap (fun p => leBytes (((evSizes e.typ)[p.2]?).getD 1) p.1)

/-- The entry's bytes (Table 14.8). -/
def evBytes (e : Ev) (typ : Nat) (payload : List Nat) : List Piece :=
  [at' 0 8 e.seq, at' 8 8 e.dtb, at' 0x10 4 e.boot, at' 0x14 2 typ, at' 0x16 1 (e.sev + 4 * bit e.vfAll + 8 * e.timeSrc), at' 0x17 1 e.mode,
   at' 0x18 1 (e.func.elim 0 (fun f => f + 128)), at' 0x1A 2 payload.length, at' 0x1C 4 e.nsid, (0x20, payload)]

/-- What a VF sees of a Harvest report: REV, KIND and RESULT (R354, R426). -/
def reportForVf (p : List Nat) : List Nat := p.zipIdx.map (fun x => if x.2 = 0 then x.1 else if x.2 = 2 then x.1 / 4 % 4 * 4 else if x.2 = 3 then x.1 % 4 else 0)

/-- What a function sees of an entry (R426). -/
def evView (s : State) (f : Nat) (e : Ev) : List Piece :=
  if f = 0 then evBytes e e.typ (evPayload e)
  else if e.typ = 0x43 then evBytes e e.typ (reportForVf (evPayload e))
  else if e.func == some f || e.vfAll || ([0x36, 0x71, 0x73].contains e.typ && attachedTo s e.nsid f) then evBytes e e.typ (evPayload e)
  else [at' 0 8 e.seq, at' 8 8 e.dtb, at' 0x10 4 e.boot, at' 0x14 2 0xFFFF]

/-- The entries the log holds: those drained from the ring (R420). -/
def evHeld (s : State) : List Ev :=
  let l := s.ev.journal ++ s.ev.buf
  l.drop (l.length - 262144)

def eventLog (s : State) (f : Nat) : Doc :=
  let l := evHeld s
  let old := (l.head?).elim 0 (fun e => e.seq)
  let new := (l.getLast?).elim 0 (fun e => e.seq)
  { size := some 33559552
    byte := fun i =>
      if i < 0x400 then page ([at' 0 1 1, at' 4 4 262144, at' 8 8 old, at' 0x10 8 new, at' 0x28 8 s.time.dtb, at' 0x30 4 s.boot.boot]
        ++ if f = 0 then [at' 1 1 (bit s.ev.lossPending), at' 0x18 8 s.ev.lostTotal, at' 0x20 8 s.ev.suppressedTotal] else []) i
      else if i < 0x1400 then
        (if f ≠ 0 then 0 else orPage (rows 0x400 16 256 (fun t =>
          let x := KV.findD s.ev.types t {}
          [at' 0 8 x.total, at' 8 4 x.suppressed, at' 12 4 x.lost]) i) 0)
      else match l.find? (fun e => e.seq % 262144 == (i - 0x1400) / 128 && old ≤ e.seq && e.seq ≤ new) with
        | none => 0
        | some e => page (evView s f e) ((i - 0x1400) % 128) }

/-! ### C6h Thermal History (R427, Tables 14.12 and 14.13) -/

def crossingBytes (c : Crossing) : List Piece :=
  [at' 0 1 c.cls, at' 1 1 c.idx, at' 2 1 c.level, at' 3 1 (bit c.up), at' 4 1 (tempByte c.reading), at' 8 4 c.boot, at' 12 4 c.secs]

def minuteBytes (m : Minute) : List Piece :=
  [at' 0 1 (tempByte m.ctrl), at' 1 1 (tempByte m.flash), at' 2 1 (tempByte m.dram), at' 3 1 (tempByte m.bank), at' 4 1 (min 60 m.thrS),
   at' 5 1 (m.psDeep % 8 + 8 * (m.band % 8) + 64 * bit m.holiday + 128), at' 6 2 (m.pAvg % 4096), at' 8 4 m.boot, at' 12 4 m.minute]

def thermalHead (s : State) : List Piece :=
  let t := s.th
  [at' 0 1 1, at' 1 1 (tempShown s (hottest t.ctrl.now)), at' 2 1 (tempByte t.ctrl.maxLife), at' 3 1 (tempShown s (hottest t.flash.now)), at' 4 1 (tempByte t.flash.maxLife),
   at' 5 1 (tempShown s (hottest t.dram.now)), at' 6 1 (tempByte t.dram.maxLife), at' 7 1 (tempShown s (hottest t.bank.now)), at' 8 1 (tempByte t.bank.maxLife),
   at' 9 1 (t.sampleMs.foldl min 100), (0x10, t.mins.flatMap (leBytes 4)), at' 0x3C 4 t.throttles, at' 0x40 4 t.rateTrips, at' 0x44 4 t.shutdowns,
   at' 0x48 8 (t.nMin - 1), at' 0x50 8 t.nCross]

def thermalLog (s : State) : Doc :=
  let t := s.th
  { size := some 169472
    byte := fun i =>
      if i < 0x200 then page (thermalHead s) i
      else if i < 0x500 then orPage (rows 0x200 8 96 (fun k =>
        [at' 0 1 (tempShown s (t.flash.now.getD k 0)), at' 1 1 (tempByte (t.pkgMax.getD k 0)), at' 2 2 (min 0xFFFF (nth t.pkgB4 k)), at' 4 4 (nth t.pkgB0 k)]) i) 0
      else if i < 0x520 then orPage (rows 0x500 8 4 (fun j =>
        [at' 0 1 (tempShown s (hottest ((t.dram.now.drop (10 * j)).take 10))), at' 1 1 (tempByte (t.dchMax.getD j 0)), at' 2 4 (nth t.dchHot j)]) i) 0
      else if i < 0x1000 then 0
      else if i < 0x1400 then
        match (List.range t.crossings.length).find? (fun k => (t.nCross - (t.crossings.length - 1 - k)) % 64 == (i - 0x1000) / 16) with
        | some k => ((t.crossings[k]?).map (fun c => page (crossingBytes c) ((i - 0x1000) % 16))).getD 0
        | none => 0
      else if i < 0x2000 then 0
      else
        match (List.range t.minutes.length).find? (fun k => (t.nMin - 1 - (t.minutes.length - 1 - k)) % 10080 == (i - 0x2000) / 16) with
        | some k => ((t.minutes[k]?).map (fun m => page (minuteBytes m) ((i - 0x2000) % 16))).getD 0
        | none => 0 }

/-! ### C7h, C8h, C9h -/

/-- Calendar Snapshot (C7h, R186); a VF reads zeros. -/
def snapshotLog (s : State) (f : Nat) : Doc := { size := some 4096, byte := fun i => if f ≠ 0 then 0 else nth (if s.cal.snapshot.isEmpty then [1] else s.cal.snapshot) i }

/-- Negotiated Modes (C8h, R328, Table 10.22). -/
def modesLog (s : State) : Doc :=
  { size := some 1024
    byte := fun i => orPage (rows 0x40 16 32 (fun c =>
        let x := chanOf s c
        [at' 0 1 x.rate, at' 1 1 x.pkgOk, at' 2 1 (nth x.odt 0 + 16 * nth x.drive 0), at' 3 1 (nth x.odt 1 + 16 * nth x.drive 1), at' 4 1 (nth x.odt 2 + 16 * nth x.drive 2)]) i)
      (page [at' 0 1 1, at' 4 1 (s.port.rate + 8 * bit s.port.flit + 16 * s.port.width), at' 5 1 (bit s.port.l1Enabled + 2 * bit s.port.reversed), at' 6 2 s.port.credits,
        at' 8 1 ((if s.tw.linkUp then s.tw.dRate else 0) + 8 * bit s.tw.fec + 16 * s.tw.dWidth), at' 9 1 s.tw.lanes, at' 0xA 1 s.tw.failedLanes, at' 0xB 1 s.tw.proto,
        at' 0xC 4 s.tw.features, at' 0x10 1 s.tw.spdmVer, at' 0x14 4 s.tw.keyUpdates, at' 0x18 8 s.tw.trainedAt] i) }

/-- A record of C9h (Table 4.8). -/
def zopBytes (z : ZopRec) : List Piece :=
  [at' 0 8 z.seq, at' 8 4 z.nsid, at' 0xC 2 z.sqid, at' 0xE 2 z.cid, at' 0x10 1 z.action,
   at' 0x11 1 (bit z.done + 2 * bit (504 < z.failed) + 4 * bit z.forwarded + 8 * bit z.harvested + 16 * bit z.unconfirmed),
   at' 0x12 2 (if z.done then z.status.elim 0 (fun x => x.code % 2^11) else 0), at' 0x14 4 (z.acted + z.skipped + z.failed), at' 0x18 4 z.acted, at' 0x1C 4 z.skipped, at' 0x20 4 z.failed,
   at' 0x24 4 z.lastZone, at' 0x28 4 z.entries.length, at' 0x30 8 z.start, at' 0x38 8 z.finish]
    ++ z.entries.zipIdx.flatMap (fun e => [at' (0x40 + 8 * e.2) 4 e.1.zone, at' (0x44 + 8 * e.2) 4 (e.1.status.code % 2^11)])

/-- Zone Operation Results (C9h, R122): the reading controller's own records, newest first. -/
def zopLog (s : State) (f : Nat) : Doc :=
  let l := (ctrl s f).zops
  { size := some 66048
    byte := fun i => orPage (rows 0x200 0x1000 l.length (fun k => ((l[k]?).map zopBytes).getD []) i)
      (page [at' 0 1 1, at' 1 1 l.length, at' 8 8 ((l.head?).elim 0 (fun z => z.seq))] i) }

/-! ### Telemetry (07h, 08h; R429, R430, Table 14.15) -/

/-- The newest 16,384 entries of the journal, oldest first. -/
def telEvents (s : State) : List Ev := (evHeld s).drop ((evHeld s).length - 16384)

/-- The state as a capture kept it (R430). -/
def TelSnap.view (s : State) (p : TelSnap) : State :=
  { s with md := p.md, port := p.port, zn := p.zn, cal := p.cal, media := p.media, tw := p.tw, sup := p.sup, boot := p.boot, ev := p.ev, adm := p.adm, time := p.time, th := p.th, pw := p.pw, free := p.free }

/-- A section of a data area: its number, its length and its bytes. -/
structure TelSection where
  id : Nat
  len : Nat
  byte : Nat → Nat

/-- The sections of area 1 in the order of Table 14.15, as the PF reads each; the numbers are the model's (DESIGN CHOICE, log 133). -/
def telSections (v : State) : List TelSection :=
  [⟨1, 4096, fun i => suDword v 0 (i / 4 * 4) / 2^(8 * (i % 4)) % 256⟩, ⟨2, 512, (smartLog v).byte⟩, ⟨3, 4096, (mediaLog v 0).byte⟩, ⟨4, 4096, (pairLog v 0).byte⟩,
   ⟨5, 1024, (modesLog v).byte⟩, ⟨6, 4096, (thermalLog v).byte⟩, ⟨7, 5120, (eventLog v 0).byte⟩, ⟨8, 192, (ledgerLog v 0).byte⟩]

/-- The directory entries of sections laid one after the other from an offset: number, offset, length (Table 14.15). -/
def telDirectory : List TelSection → Nat → List Nat
  | [], _ => []
  | x :: l, o => leBytes 4 x.id ++ leBytes 4 o ++ leBytes 4 x.len ++ leBytes 4 0 ++ telDirectory l (o + x.len)

/-- The byte at an offset of sections laid one after the other; zero after the last. -/
def sectionByte : List TelSection → Nat → Nat
  | [], _ => 0
  | x :: l, i => if i < x.len then x.byte i else sectionByte l (i - x.len)

/-- Area 1 (Table 14.15): the directory, whose offsets count from the area's first byte, then the sections. -/
def areaOne (v : State) (i : Nat) : Nat :=
  let l := telSections v
  let d := telDirectory l (16 * l.length)
  if i < d.length then nth d i else sectionByte l (i - d.length)

/-- A telemetry log (R429, R430): the header gives the areas' last blocks; area 1 is as it stood at the capture, area 2 holds journal entries, and area 3, whose sections Alatha decodes, is free; with no capture taken area 1 is free too. -/
def telemetryLog (s : State) (host : Bool) : Doc :=
  let a := s.adm
  let l := telEvents s
  let snap := if host then s.tel.host else s.tel.ctrl
  { size := some (512 * 65536)
    byte := fun i =>
      if i < 512 then standard s ([at' 0 1 (if host then 7 else 8), at' 8 2 64, at' 10 2 4160, at' 12 2 65535, at' 382 1 (bit a.telCtrlAvail), at' 383 1 (a.telGen % 256)]
        ++ (if host then [at' 381 1 (a.telHost % 256), (384, List.replicate 128 0)] else [at' 384 2 a.telCtrlReason.1, at' 386 8 a.telCtrlReason.2, (394, List.replicate 118 0)])) i
      else match snap with
        | none => freeByte s i
        | some p =>
          if i < 65 * 512 then areaOne (p.view s) (i - 512)
          else match rows (65 * 512) 128 16384 (fun k => ((l[k]?).map (fun e => evBytes e e.typ (evPayload e))).getD []) i with
            | some b => b
            | none => Config.reportByte p.free i % 256 }

/-! ### Which log a command reads -/

/-- The page a reading of a log gives: LID and LSP in dword 10, the CSI in dword 14 (NVMe 2.0). -/
def logDoc (s : State) (e : Sqe) : Except Status Doc :=
  let f := e.func
  let lid := fld e.cdw10 0 8
  if lid = 0x00 then .ok (supportedLogs f) else if lid = 0x01 then .ok (errorLog s f) else if lid = 0x02 then .ok (smartLog s)
  else if lid = 0x03 then .ok (firmwareLog s) else if lid = 0x04 then .ok (changedLog s f) else if lid = 0x05 then .ok (effectsLog s (fld e.cdw14 24 8))
  else if (lid = 0x07 ∨ lid = 0x08) ∧ f = 0 then .ok (telemetryLog s (lid == 7))
  else if lid = 0x0C then .ok (anaLog s f (e.cdw10.getLsbD 8)) else if lid = 0x81 then .ok (sanitizeLog s)
  else if lid = 0xBF then (match nsOf s e.nsid with
    | some n => if n.zoned && n.attached.contains f then .ok (changedZones n) else .error .invalidField
    | none => .error .invalidField)
  else if lid = 0xC0 then .ok (almanacLog s) else if lid = 0xC1 then .ok (mediaLog s f) else if lid = 0xC2 then .ok (ledgerLog s f)
  else if lid = 0xC3 then .ok (pairLog s f)
  else if lid = 0xC4 then (if e.nsid = 0xFFFFFFFF || attachedTo s e.nsid f then .ok (extentLog s f e.nsid) else .error .invalidField)
  else if lid = 0xC5 then .ok (eventLog s f) else if lid = 0xC6 then .ok (thermalLog s) else if lid = 0xC7 then .ok (snapshotLog s f)
  else if lid = 0xC8 then .ok (modesLog s) else if lid = 0xC9 then .ok (zopLog s f)
  else .error .invalidLogPage

end Sys2Proof.Machine
end

