-- ==== Sys2Proof/Machine/Reports.lean ====
section
/-! DEFINITION. Identify, Get Log Page, Get Features (R75, R89, R90, R93, R98, R402, R412, R418, R428 to R430, R447, R449). Places of the standard fields are those of NVMe 2.0 (PRESUMED). -/

namespace Sys2Proof.Machine

/-- Use up the free values of the structure just returned. -/
def nextFree (s : State) : State := { s with free := s.free + 1 }

/-! ### Identify Controller (Tables 3.10 and 15.5) -/

/-- A power state descriptor of Table 15.5. -/
def psdBytes (k : Nat) : List Piece :=
  [at' 0 2 (nth [6000, 4500, 3000, 1800, 450] k), at' 3 1 (if k = 4 then 2 else 0), at' 4 4 (nth [0, 8200, 8200, 8200, 2000] k),
   at' 8 4 (nth [0, 8200, 8200, 8200, 8000] k), at' 12 1 k, at' 13 1 k, at' 14 1 k, at' 15 1 k]

/-- The part number (R5, R6), padded with spaces. -/
def modelNumber (p : Part) : List Nat :=
  let t := ascii (match p with
    | .szm780 => "SZM780-48E"
    | .szm360 => "SZM360-48E")
  t ++ List.replicate (40 - t.length) 0x20

def hexDigit (v : Nat) : Nat := if v < 10 then 48 + v else 55 + v

/-- R308: the subsystem NQN. -/
def subnqn (s : State) : List Nat :=
  if s.tw.pairId = 0 then ascii "nqn.2023-04.com.cinathar:sinodra:sn-" ++ (s.boot.serial.reverse.dropWhile (· == 0x20)).reverse
  else
    let four (k : Nat) : List Nat := (List.range 4).reverse.map (fun j => hexDigit (s.tw.pairId / 16^(4 * k + j) % 16))
    ascii "nqn.2023-04.com.cinathar:sinodra:pair-" ++ four 3 ++ [45] ++ four 2 ++ [45] ++ four 1 ++ [45] ++ four 0

/-- A run of zero bytes: reserved fields (R12), and the fields of what is not supported (R8). -/
def zeros (o n : Nat) : Piece := (o, List.replicate n 0)

/-- CTRATT without Predictable Latency Mode and Flexible Data Placement (R8, R94); its reserved bits are zero. -/
def ctratt (s : State) : List Nat := [freeByte s 96 &&& 0xDF, freeByte s 97, freeByte s 98 &&& 0x07, 0]

/-- Identify Controller: R6, R8, R77, R89, R90, R93, R373, R402, R447, R449. What Table 3.11 marks "no" reads zero: Read Recovery and Host Memory Buffer sizes, Device Self-test, Host Controlled Thermal Management, fused operations, copy formats. -/
def controllerBytes (s : State) (f : Nat) : List Piece :=
  let nqn := subnqn s
  [(4, s.boot.serial), (24, modelNumber s.part), (64, (running s).elim (List.replicate 8 0x30) fwDigits), at' 76 1 0x0F, at' 77 1 9, at' 78 2 (cntlid s f), at' 80 4 0x00020000,
   at' 84 4 10000000, at' 88 4 1000000, at' 256 2 0x8F, at' 258 1 7, at' 259 1 15, at' 260 1 4, at' 262 1 255, at' 263 1 4, at' 265 1 0,
   at' 266 2 343, at' 268 2 358, at' 272 8 0, at' 319 1 1, at' 320 2 10, at' 328 4 (1 + 2 + 2^29), at' 342 1 10, at' 343 1 0x5F, at' 344 4 256, at' 348 4 256,
   at' 512 1 0x66, at' 513 1 0x44, at' 516 4 256, at' 520 2 (8 + 16 + 64), at' 524 1 4, at' 525 1 0, at' 536 4 1, (768, nqn ++ List.replicate (256 - nqn.length) 0),
   (96, ctratt s), zeros 102 9, zeros 134 106, zeros 276 4, zeros 316 3, zeros 322 6, zeros 332 6, zeros 358 10, zeros 384 128, zeros 522 2, zeros 534 2,
   zeros 564 204, zeros 1024 1024, zeros 2208 864]
    ++ (List.range 5).flatMap (fun k => (psdBytes k).map (fun p => (2048 + 32 * k + p.1, p.2)))

/-! ### Identify Namespace (R90, R94, R95, R98) -/

/-- LBA formats of Table 3.11: metadata bytes and log2 of the data bytes. -/
def lbafBytes : List Piece := (List.range 6).map (fun k => at' (128 + 4 * k) 3 (metaBytes k + 65536 * (if k < 3 then 12 else 14)))

/-- NAWUPF: a whole write up to MDTS (Table 3.11). -/
def nawupf (flbas : Nat) : Nat := if flbas < 3 then 511 else 127

/-- DLFEAT (R101): 001b in bits 2:0; the two capabilities above them are left open. NACWU and the Copy limits are of commands not supported (R8). -/
def namespaceBytes (s : State) (nsid : Nat) (n : Ns) : List Piece :=
  [(33, [(freeByte s 33 &&& 0x18) ||| 1]), zeros 38 2, zeros 74 7, zeros 81 11, zeros 96 3, zeros 152 232,
   at' 0 8 n.nsze, at' 8 8 n.nsze, at' 25 1 5, at' 26 1 n.flbas, at' 27 1 3, at' 28 1 0x1F, at' 29 1 n.dps, at' 30 1 1, at' 31 1 0,
   at' 36 2 (nawupf n.flbas), at' 92 4 nsid] ++ lbafBytes

/-- What a namespace not yet created could have: the common capabilities (NSID FFFF_FFFFh). -/
def commonBytes : List Piece := [at' 25 1 5, at' 27 1 3, at' 28 1 0x1F] ++ lbafBytes

/-- Table 4.2, for the reading function; the fields of the Zone Random Write Area are of what is not supported (R8). -/
def zonedNsBytes (s : State) (f : Nat) : List Piece :=
  [at' 0 2 1, at' 2 2 0, at' 4 4 (activeLimit s f - 1), at' 8 4 (openLimit s f - 1), at' 12 4 0, at' 16 4 604800, zeros 44 2772]
    ++ (List.range 6).flatMap (fun k => [at' (2816 + 16 * k) 8 (zoneSize k), at' (2824 + 16 * k) 1 1])

/-- The command set independent structure (NVMe 2.0). -/
def independentBytes (nsid : Nat) : List Piece := [at' 1 1 1, at' 2 1 0, at' 4 4 nsid, zeros 9 1, zeros 15 4081]

/-! ### Lists -/

/-- A list of 1,024 NSIDs above a given one, ascending. -/
def nsList (s : State) (above : Nat) (ok : Ns → Bool) : List Piece :=
  ((s.zn.ns.filter (fun p => above < p.1 && ok p.2)).take 1024).zipIdx.map (fun x => at' (4 * x.2) 4 x.1.1)

/-- A controller list from an identifier on. -/
def idList (ids : List Nat) (from_ : Nat) : List Piece :=
  let l := (sortBy id ids).filter (fun x => from_ ≤ x)
  at' 0 2 l.length :: l.zipIdx.map (fun x => at' (2 + 2 * x.2) 2 x.1)

/-- The functions that have a controller: the PF and the enabled VFs (R74). -/
def liveFuncs (s : State) : List Nat := 0 :: (if s.port.vfEnable then (List.range s.port.numVfs).map (· + 1) else [])

/-- Primary controller capabilities (R75, Table 3.6). VQRFAP and VIRFAP show the allocation that is pending, or else the one in force: NVMe 2.0 has no field for both (PRESUMED, log 71). -/
def primaryBytes (s : State) : List Piece :=
  [at' 0 2 (cntlid s 0), at' 4 1 3, at' 32 4 8128, at' 36 4 (flexUsed { s with port := { s.port with ctrls := KV.del s.port.ctrls 0 } } 0 true),
   at' 40 2 ((ctrl s 0).pendVq.getD ((ctrl s 0).ioq - 64)), at' 42 2 64, at' 44 2 1024, at' 46 2 1,
   at' 64 4 1983, at' 68 4 (flexUsed { s with port := { s.port with ctrls := KV.del s.port.ctrls 0 } } 0 false),
   at' 72 2 ((ctrl s 0).pendVi.getD ((ctrl s 0).vec - 65)), at' 74 2 65, at' 76 2 129, at' 78 2 1, zeros 5 27, zeros 48 16, zeros 80 4016]

/-- Secondary controller list (R76): the controllers of the 127 VFs. -/
def secondaryBytes (s : State) (from_ : Nat) : List Piece :=
  let l := ((List.range 127).map (· + 1)).filter (fun f => from_ ≤ cntlid s f)
  at' 0 1 l.length :: l.zipIdx.flatMap (fun x =>
    [at' (32 + 32 * x.2) 2 (cntlid s x.1), at' (34 + 32 * x.2) 2 (cntlid s 0), at' (36 + 32 * x.2) 1 (bit (ctrl s x.1).online), at' (40 + 32 * x.2) 2 x.1,
     at' (42 + 32 * x.2) 2 (ctrl s x.1).ioq, at' (44 + 32 * x.2) 2 (ctrl s x.1).vec])

/-! ### IDENTIFY (R93) -/

/-- A structure of one namespace: all zero where the NSID names none that the reader may see; FFFF_FFFFh the common capabilities. -/
def ofNamespace (s : State) (e : Sqe) (all : Bool) (g : Nat → Ns → Nat → Nat) : Except Status (Nat → Nat) :=
  if e.nsid = 0 ∨ (256 < e.nsid ∧ e.nsid ≠ 0xFFFFFFFF) then .error .invalidNamespace
  else if e.nsid = 0xFFFFFFFF then (if all then .error .invalidNamespace else .ok (standard s commonBytes))
  else match nsOf s e.nsid with
    | some n => if all || n.attached.contains e.func then .ok (g e.nsid n) else .ok (fun _ => 0)
    | none => .ok (fun _ => 0)

/-- The 4,096 bytes an Identify returns, by CNS, with CNTID in CDW10 [31:16] and CSI in CDW11 [31:24]. -/
def identifyDoc (s : State) (e : Sqe) : Except Status (Nat → Nat) :=
  let cns := fld e.cdw10 0 8
  let cntid := fld e.cdw10 16 16
  let csi := fld e.cdw11 24 8
  let f := e.func
  let inSet (n : Ns) : Bool := csi == (if n.zoned then 2 else 0)
  if cns = 0x01 then .ok (standard s (controllerBytes s f))
  else if cns = 0x00 ∨ cns = 0x11 then ofNamespace s e (cns == 0x11) (fun i n => standard s (namespaceBytes s i n))
  else if cns = 0x02 then .ok (page (nsList s e.nsid (fun n => n.attached.contains f)))
  else if cns = 0x10 then .ok (page (nsList s e.nsid (fun _ => true)))
  else if csi ≠ 0 ∧ csi ≠ 2 ∧ [0x05, 0x06, 0x07, 0x1A, 0x1B].contains cns then .error .invalidField
  else if cns = 0x07 then .ok (page (nsList s e.nsid (fun n => n.attached.contains f && inSet n)))
  else if cns = 0x1A then .ok (page (nsList s e.nsid inSet))
  else if cns = 0x03 then ofNamespace s e false (fun _ n => standard s [at' 0 4 0x00000104, at' 4 1 (if n.zoned then 2 else 0)])
  else if cns = 0x05 ∨ cns = 0x1B then
    (match nsOf s e.nsid with
      | some n => if !inSet n then .error .invalidField
        else ofNamespace s e (cns == 0x1B) (fun _ n => standard s (if n.zoned then zonedNsBytes s f else []))
      | none => ofNamespace s e (cns == 0x1B) (fun _ _ => standard s []))
  else if cns = 0x06 then .ok (page (if csi = 2 then [at' 0 1 8] else [(0, [freeByte s 0, freeByte s 1])]))
  else if cns = 0x08 then ofNamespace s e true (fun i _ => standard s (independentBytes i))
  else if cns = 0x12 then
    (match nsOf s e.nsid with
      | some n => .ok (page (idList (n.attached.map (cntlid s) ++ n.attachedTwin.map (fun f => 1 + f + 128 * (1 - bit (s.sup.slotid.getLsbD 0)))) cntid))
      | none => .error .invalidNamespace)
  else if cns = 0x13 then .ok (page (idList ((liveFuncs s).map (cntlid s)) cntid))
  else if cns = 0x14 then .ok (standard s (primaryBytes s))
  else if cns = 0x15 then .ok (page (secondaryBytes s cntid))
  else if cns = 0x1C then .ok (page [at' 0 8 5])
  else .error .invalidField

/-- The error of a report, if it has one. -/
def errorOf {α : Type} (x : Except Status α) : Option Status :=
  match x with
  | .error st => some st
  | .ok _ => none

/-- n bytes of a page from an offset. -/
def bytesFrom (g : Nat → Nat) (o n : Nat) : List Nat := (List.range n).map (fun i => g (o + i))

/-- IDENTIFY (R75, R89, R93, R98). -/
def execIdentify (e : Sqe) (s : State) : Host.Outcome State Fault Refusal :=
  adminCmd e s false .always (fun s => errorOf (identifyDoc s e)) (fun s =>
    match identifyDoc s e with
    | .ok g => adminDone (nextFree s) e .success 0 (bytesFrom g 0 4096)
    | .error _ => s)

/-! ### GET_LOG_PAGE (R418, R428) -/

/-- NUMD and the offset of a Get Log Page. -/
def logBytes (e : Sqe) : Nat := 4 * (fld e.cdw10 16 16 + 65536 * fld e.cdw11 0 16 + 1)
def logOffset (e : Sqe) : Nat := e.cdw12.toNat + 2^32 * e.cdw13.toNat

/-- A transfer above MDTS, an offset not a multiple of 4, or one beyond the log is an invalid field (Table 3.10, R418). -/
def logError (s : State) (e : Sqe) : Option Status :=
  match logDoc s e with
  | .error st => some st
  | .ok d => if 2097152 < logBytes e ∨ logOffset e % 4 ≠ 0 ∨ d.size.any (fun n => n < logOffset e) then some .invalidField else none

/-- The data of a Get Log Page; what lies beyond the log's end is free. -/
def logData (s : State) (e : Sqe) : List Nat :=
  match logDoc s e with
  | .error _ => []
  | .ok d => bytesFrom (fun i => if d.size.any (fun n => n ≤ i) then freeByte s i else d.byte i) (logOffset e) (logBytes e)

/-- Reading a log with RAE cleared clears its pending event (R418, R428), and what a standard log keeps until then. -/
def clearEvent (s : State) (e : Sqe) : State :=
  let lid := fld e.cdw10 0 8
  if e.cdw10.getLsbD 15 then s
  else
    let s := setCtrl s e.func (fun c => { c with
      waiting := c.waiting.filter (fun a => a.log != lid), masked := c.masked.filter (fun a => a.log != lid)
      changedNs := if lid = 4 then [] else c.changedNs })
    if lid = 0xC5 then { s with ev := { s.ev with lossPending := false } }
    else if lid = 0xBF then setNs s e.nsid (fun n => { n with changed := [] })
    else if lid = 8 then { s with adm := { s.adm with telCtrlAvail := false } }
    else s

/-- GET_LOG_PAGE (R87, R418): a log can be read again with the same result, and so uses up no free value. -/
def execGetLogPage (e : Sqe) (s : State) : Host.Outcome State Fault Refusal :=
  adminCmd e s false .always (fun s => logError s e) (fun s =>
    adminDone (clearEvent s e) e .success 0 (logData s e))

/-- TELEMETRY_HOST_INITIATED_CREATE (R430): a new capture, then the reading of log 07h; on a VF, Invalid Log Page (R429). -/
def execTelemetryHostInitiatedCreate (e : Sqe) (s : State) : Host.Outcome State Fault Refusal :=
  let e' : Sqe := { e with cdw10 := BitVec.ofNat 32 (e.cdw10.toNat / 256 * 256 + 7) }
  adminCmd e s false .always (fun s => logError s e') (fun s =>
    let s := { s with adm := { s.adm with telHost := (s.adm.telHost + 1) % 256, telHostAt := s.time.dtb }, tel := { s.tel with host := some (snapOf s) } }
    adminDone (nextFree (clearEvent s e')) e .success 0 (logData s e'))

/-! ### GET_FEATURES (R412, Table 14.2) -/

/-- The budget structure (Table 6.6). -/
def budgetBytes (p : Part) (b : Budget) : List Nat :=
  [1, 0, 0, 0] ++ leBytes 2 b.active ++ leBytes 2 b.open_ ++ leBytes 4 b.share ++ [0, 0, 0, 0] ++ leBytes 4 b.chE ++ leBytes 4 b.chS ++ leBytes 4 b.chB
    ++ List.replicate 36 0
    ++ (List.range 40).flatMap (fun g => if g < p.groups then leBytes 2 (b.on g).e ++ leBytes 2 (b.on g).s ++ leBytes 2 (b.on g).b ++ leBytes 2 (b.on g).p else List.replicate 8 0)
    ++ List.replicate 640 0

/-- What SEL 011b reports of a vendor feature: saveable, namespace specific, changeable (Table 14.2). -/
def featureCaps (fid : Nat) : Nat :=
  if fid = 0xC0 ∨ fid = 0xC7 then 4 else if fid = 0xC5 then 7 else 5

/-- Progress of a Reshape, 0 to 100: units done of those in its range. -/
def reshapePct (n : Ns) (r : Reshape) : Nat :=
  let all := if r.move then r.last + 1 else if n.zoned then n.zoneCount else 1
  min 100 (100 * r.next / max 1 all)

/-- Twin Policy (Table 8.7). -/
def twinPolicyValue (s : State) (nsid sel : Nat) : Except Status Nat :=
  if nsid = 0xFFFFFFFF then .ok (if sel = 1 then 0 else bit (if sel = 2 then s.zn.defMirroredSaved else s.zn.defMirrored))
  else match nsOf s nsid with
    | none => .error .invalidNamespace
    | some n => .ok (if sel = 1 then 0 else bit n.mirrored + 2 * bit n.here + 4 * bit n.reshape.isSome + 256 * n.reshape.elim 0 (reshapePct n))

/-- The value of a vendor feature: DW0 and data. `sel` is 0, 1 or 2. -/
def vendorFeature (s : State) (e : Sqe) (sel : Nat) : Except Status (Nat × List Nat) :=
  let fid := sqeFid e
  let f := e.func
  if fid = 0xC0 then
    (match KV.find s.port.sqs (qkey f (fld e.cdw11 0 16)) with
      | some q => if fld e.cdw11 0 16 = 0 then .error .invalidField
        else .ok (if sel = 0 then q.cls.elim 0 (fun c => c.code + 8) + 16 * bit q.locked else 0, [])
      | none => .error .invalidField)
  else if fid = 0xC1 then
    let t := if f = 0 then fld e.cdw11 0 7 else f
    .ok (0, budgetBytes s.part (if sel = 0 then stored s t else if sel = 1 then defaultBudget t else KV.findD s.cal.savedBudgets t (defaultBudget t)))
  else if fid = 0xC2 then .ok (if sel = 0 then suPwrbud s / 256 % 256 + 256 * psCap s.pw.now + 65536 * s.pw.now else if sel = 1 then 0 else s.pw.limitSaved, [])
  else if fid = 0xC3 then
    let o := if sel = 0 then (s.th.ctrlOff, s.th.flashOff) else if sel = 1 then (0, 0) else s.th.offSaved
    .ok (o.1 + 16 * o.2 + 256 * (103 - o.1) + 65536 * (75 - o.2), [])
  else if fid = 0xC4 then (if sel = 1 then .error .invalidField else .ok (0, policyBytes (if sel = 0 then s.boot.policy else s.boot.savedPolicy)))
  else if fid = 0xC5 then (twinPolicyValue s e.nsid sel).map (fun v => (v, []))
  else if fid = 0xC6 then
    .ok (if sel = 0 then bit s.adm.permit + 2 * bit (s.zn.ns.any (fun p => p.2.mirrored && p.2.attachedOnPair)) else if sel = 1 then 0 else bit s.adm.permitSaved, [])
  else if fid = 0xC7 then
    let g := fld e.cdw11 0 6
    if s.part.groups ≤ g then .error .invalidField
    else .ok ((KV.find s.cal.dedicated g).elim 0 (fun o => if sel ≠ 1 ∧ (f = 0 ∨ o = f) then 1 + 256 * o else 0), [])
  else .error .invalidField

/-- The value of a standard feature; those the spec gives no value are free. -/
def standardFeature (s : State) (e : Sqe) (sel : Nat) : Except Status (Nat × List Nat) :=
  let fid := sqeFid e
  let c := ctrl s e.func
  let free := Config.reportByte s.free 0 % 2^32
  let cur := sel == 0
  if fid = 0x02 then .ok (if cur then s.pw.sel else 0, [])
  else if fid = 0x04 then
    (if fld e.cdw11 16 4 ≠ 0 ∨ 1 < fld e.cdw11 20 2 then .error .invalidField
     else .ok (if fld e.cdw11 20 2 = 0 then (if cur then s.th.overK else 343) else if cur then s.th.underK else 0, []))
  else if fid = 0x07 then .ok ((c.ioq - 1) * 65537, [])
  else if fid = 0x08 then .ok (if cur then c.coalesce.toNat else 0, [])
  else if fid = 0x09 then
    (let iv := fld e.cdw11 0 16
     if c.vec ≤ iv then .error .invalidField else .ok (iv + 65536 * bit (cur && c.vecNoCoalesce.contains iv), []))
  else if fid = 0x0B then .ok (if cur then c.aec.toNat else 0x1F, [])
  else if fid = 0x0E then .ok (0, leBytes 6 (if cur then hostTimeMs s else 0) ++ [if s.time.setAt.isSome then 2 else 0, 0])
  else if fid = 0x0F then .ok (if cur then c.kato else 0, [])
  else if fid = 0x01 ∨ fid = 0x05 ∨ fid = 0x0A then .ok (free, [])
  else .error .invalidField

/-- The value a Get Features returns (R412). -/
def featureValue (s : State) (e : Sqe) : Except Status (Nat × List Nat) :=
  let sel := sqeSel e
  let fid := sqeFid e
  if 3 < sel then .error .invalidField
  else if 0xC0 ≤ fid then
    (if 0xC7 < fid then .error .invalidField
     else if sel = 3 then (if fid = 0xC4 then .error .invalidField else .ok (featureCaps fid, []))
     else vendorFeature s e sel)
  else if sel = 3 then (standardFeature s e 0).map (fun _ => (Config.reportByte s.free 0 % 2^31 * 2, []))
  else standardFeature s e sel

/-- GET_FEATURES (R412). -/
def execGetFeatures (e : Sqe) (s : State) : Host.Outcome State Fault Refusal :=
  adminCmd e s false .always (fun s => errorOf (featureValue s e)) (fun s =>
    match featureValue s e with
    | .ok (v, d) => adminDone (nextFree s) e .success v d
    | .error _ => s)

end Sys2Proof.Machine
end

