-- ==== Sys2Proof/Machine/Security.lean ====
section
/-! DEFINITION. Security Send and Receive and the Key Per I/O methods (R387 to R394, Table 13.2). A method's result is a byte that Security Receive returns. -/

namespace Sys2Proof.Machine

/-- The security protocol of a Security Send or Receive, and its specific field (NVMe 2.0, PRESUMED). -/
def secProtocol (e : Sqe) : Nat := fld e.cdw10 24 8
def secSpecific (e : Sqe) : Nat := fld e.cdw10 8 16

/-- Protocols 00h and 01h are accepted (R392); a method comes under 01h. -/
def secField (e : Sqe) (_s : State) : Option Status := if 1 < secProtocol e then some .invalidField else none
def methodField (e : Sqe) (_s : State) : Option Status := if secProtocol e = 1 then none else some .invalidField

/-- SECURITY_SEND (R392): a method that has no row of its own is accepted. -/
def execSecuritySend (e : Sqe) (s : State) : Host.Outcome State Fault Refusal :=
  adminCmd e s false .security (secField e) (fun s => tcgResult s e.func e.cid 0)

/-- The list of protocols, as protocol 00h returns it (SPC-4, PRESUMED): its length and the two numbers. -/
def protocolList : List Nat := [0, 0, 0, 0, 0, 0, 0, 2, 0, 1]

/-- Level 0 Discovery (R8, R392, Table 13.2): the Key Per I/O feature descriptor and no other. The header and the descriptor's code and length are TCG's (PRESUMED, log 132); what the descriptor holds is free, but for the key tags and slots of no other feature. -/
def levelZero (s : State) : List Nat :=
  [0, 0, 0, 80, 0, 0, 0, 1] ++ zeroBytes 40 ++ [3, 5, 0x10, 0x20] ++ bytesFrom (freeByte s) 52 32

/-- The certificate of the KPIO transport key (Table 13.2): its public key, derived from CDI7, signed by the alias key. -/
def kpioCert (s : State) : List Nat :=
  let body := beBytes 96 (Config.publicKey s.boot.cdi labelKpio)
  body ++ beBytes 96 (Config.sign (signKey s false) (Config.sha384 body))

/-- The first bytes of an answer, with zeros after its end. -/
def answerBytes (l : List Nat) (n : Nat) : List Nat := l.take n ++ zeroBytes (n - l.length)

/-- SECURITY_RECEIVE (R392): the protocol list; under protocol 01h, specific field 1 Level 0 Discovery and 2 the KPIO certificate (log 132), and elsewhere the result of the function's last method, once. -/
def execSecurityReceive (e : Sqe) (s : State) : Host.Outcome State Fault Refusal :=
  adminCmd e s false .security (secField e) (fun s =>
    let al := min e.cdw11.toNat 4096
    if secProtocol e = 0 then adminDone s e .success 0 (protocolList.take al)
    else if secSpecific e = 1 then adminDone (nextFree s) e .success 0 (answerBytes (levelZero s) al)
    else if secSpecific e = 2 then adminDone s e .success 0 (answerBytes (kpioCert s) al)
    else match KV.find s.adm.tcgOut e.func with
      | some r => adminDone { s with adm := { s.adm with tcgOut := KV.del s.adm.tcgOut e.func } } e .success 0 (r.take al)
      | none => adminDone s e .success 0 (zeroBytes al))

/-- A function reaches the namespaces attached to it (Table 13.2). -/
def reaches (f : Nat) (n : Ns) : Bool := n.attached.contains f

/-- The KEK a tenant has in one of its slots; 0 none. The PF is no tenant. -/
def kekOf (s : State) (f kek : Nat) : Nat := if f = 0 ∨ 4 ≤ kek then 0 else (KV.findD s.keys.keks (f * 4 + kek) (0, 0)).2

/-- KEK_INJECTION (R392, Table 13.2): a tenant holds up to four; one that does not unwrap is refused. -/
def execKekInjection (e : Sqe) (kek key : Nat) (ok : Bool) (s : State) : Host.Outcome State Fault Refusal :=
  adminCmd e s false .security (methodField e) (fun s =>
    if e.func = 0 ∨ !ok then tcgResult s e.func e.cid 0x0C
    else if 4 ≤ kek then tcgResult s e.func e.cid 9
    else tcgResult { s with keys := { s.keys with keks := KV.set s.keys.keks (e.func * 4 + kek) (e.func, key + 1) } } e.func e.cid 0)

/-- MEDIA_KEY_INJECTION (R389, R391, R394): only wrapped under a KEK of the injecting tenant; of a namespace that the twin holds too it completes once both modules hold the key. -/
def execMediaKeyInjection (e : Sqe) (keyTag kek key : Nat) (ok : Bool) (s : State) : Host.Outcome State Fault Refusal :=
  adminCmd e s false .security (methodField e) (fun s =>
    match nsOf s e.nsid with
    | none => tcgResult s e.func e.cid 0x0C
    | some n =>
      if !reaches e.func n ∨ n.kpio ≤ keyTag ∨ kekOf s e.func kek = 0 ∨ !ok then tcgResult s e.func e.cid 0x0C
      else if s.md.mode = .service ∧ n.heldByTwin then
        carryAdmin s { tag := 0, func := ownerOf s e.func, cid := e.cid, kind := 6, nsid := e.nsid, arg := keyTag, key := key + 1 } [0x100, e.nsid, 0, keyTag, wrapped s (key + 1), e.func]
      else if !n.held then tcgResult s e.func e.cid 0x0C
      else inject s { func := ownerOf s e.func, cid := e.cid, nsid := e.nsid, keyTag := keyTag, key := key + 1, tenant := e.func })

/-- KEY_PER_IO_ENABLE (R387, R388): on a namespace without data; both modules of a pair change it. -/
def execKeyPerIoEnable (e : Sqe) (tags : Nat) (s : State) : Host.Outcome State Fault Refusal :=
  adminCmd e s false .security (methodField e) (fun s =>
    match nsOf s e.nsid with
    | none => tcgResult s e.func e.cid 0x0C
    | some n =>
      if !reaches e.func n ∨ n.kpio ≠ 0 ∨ tags = 0 ∨ 64 < tags ∨ !n.noData ∨ 1 < n.slots.length then tcgResult s e.func e.cid 0x0C
      else if n.held ∧ (freeDataSlots s tags).length ≠ tags then tcgResult s e.func e.cid 9
      else
        let s := if n.held then takeSlots s e.nsid tags else s
        if s.md.mode = .service then
          carryAdmin s { tag := 0, func := ownerOf s e.func, cid := e.cid, kind := 13, nsid := e.nsid, arg := tags } [0x81, e.nsid, tags, 0]
        else tcgResult (enableKpio s e.nsid tags) e.func e.cid 0)

/-- KEY_PER_IO_DISABLE (R388): on a namespace without data. -/
def execKeyPerIoDisable (e : Sqe) (s : State) : Host.Outcome State Fault Refusal :=
  adminCmd e s false .security (methodField e) (fun s =>
    match nsOf s e.nsid with
    | none => tcgResult s e.func e.cid 0x0C
    | some n =>
      if !reaches e.func n ∨ n.kpio = 0 ∨ !n.noData then tcgResult s e.func e.cid 0x0C
      else
        let (key, s) := drawKey s
        if s.md.mode = .service then
          carryAdmin s { tag := 0, func := ownerOf s e.func, cid := e.cid, kind := 13, nsid := e.nsid, arg := 0, key := key } [0x81, e.nsid, 0, wrapped s key]
        else tcgResult (disableKpio s e.nsid key) e.func e.cid 0)

end Sys2Proof.Machine
end

