-- ==== Sys2Proof/Machine/Mi.lean ====
section
/-! DEFINITION. The NVMe-MI management endpoint on its two ports, 0 over PCIe VDM and 1 on the two wires, and the basic management command (R431 to R434, R493, Table 14.16). Command codes, statuses and field places are those of NVMe-MI 1.2 (PRESUMED); a response is its port, its MI status and its bytes. -/

namespace Sys2Proof.Machine

/-! ### The endpoint -/

/-- A port can be reached: PCIe while the host link is up, outside Holiday; the two wires while the rails are on. -/
def miReached (s : State) (port : Nat) : Bool :=
  s.sup.rails && (if port = 0 then s.port.rate != 0 && s.md.mode != .holiday else port == 1)

/-- Send a response: MI status 0 success, 3 Invalid Command Opcode, 4 Invalid Parameter. -/
def miReply (s : State) (port status : Nat) (data : List Nat) : State :=
  { s with adm := { s.adm with miOut := s.adm.miOut ++ [[port, status] ++ data] } }

/-- Answer an MI command. -/
def miAnswer (s : State) (port : Nat) (f : State → State) : Host.Outcome State Fault Refusal :=
  if miReached s port then .next (f s) else .next s

/-- A composite temperature in one byte, degrees Celsius: 7Fh at 127 or above, C4h at −60 or below. -/
def ctempByte (s : State) : Nat :=
  let c := composite s - 273
  if 127 ≤ c then 0x7F else if c ≤ -60 then 0xC4 else (c % 256).toNat

/-! ### Read NVMe-MI Data Structure -/

/-- The two ports: type (1 PCIe, 2 two-wire), a transmission unit of 64 bytes, and on the two wires the frequency and the addresses of R493. -/
def portInfo (id : Nat) : List Nat :=
  [id + 1, 0] ++ leBytes 2 64 ++ leBytes 4 0 ++ (if id = 0 then [] else [0, 0, 3, 0x1D, 1])

/-- Controller information: its port, its routing identifier and the controller. -/
def controllerInfo (s : State) (f : Nat) : List Nat := [0, 1] ++ leBytes 2 f ++ leBytes 2 (cntlid s f)

/-- The structure of a type: 0 subsystem, 1 port, 2 controller list from an identifier on, 3 controller information. -/
def miStructure (s : State) (typ id : Nat) : Option (List Nat) :=
  if typ = 0 then some [1, 1, 2]
  else if typ = 1 then (if id < 2 then some (portInfo id) else none)
  else if typ = 2 then
    let l := ((List.range funcs).map (cntlid s)).filter (fun c => id ≤ c)
    some (leBytes 2 l.length ++ l.flatMap (leBytes 2))
  else if typ = 3 then (funcOf s id).map (controllerInfo s)
  else none

/-- READ_NVME_MI_DATA_STRUCTURE: answered at any time after power good (R433). -/
def execReadNvmeMiDataStructure (port typ id : Nat) (s : State) : Host.Outcome State Fault Refusal :=
  miAnswer s port (fun s =>
    match miStructure s typ id with
    | none => miReply s port 4 []
    | some d => miReply s port 0 d)

/-! ### Health -/

/-- Clear bits of the Composite Controller Status; ALERT_N follows it (R434). -/
def clearCcs (s : State) (mask : BitVec 16) : State := { s with adm := { s.adm with ccs := s.adm.ccs &&& ~~~mask } }

/-- NVM_SUBSYSTEM_HEALTH_STATUS_POLL: subsystem status (free), the SMART warnings inverted, composite temperature, Percentage Used, Composite Controller Status. -/
def execNvmSubsystemHealthStatusPoll (port : Nat) (clear : Bool) (s : State) : Host.Outcome State Fault Refusal :=
  miAnswer s port (fun s =>
    let d := [freeByte s 0, 255 - s.adm.critWarn.toNat, ctempByte s, min 255 s.media.pctUsed] ++ leBytes 2 s.adm.ccs.toNat
    let s := miReply (nextFree s) port 0 d
    if clear then clearCcs s 0xFFFF else s)

/-- The health of one controller: identifier, CSTS, composite temperature, Percentage Used, Available Spare, Critical Warning. -/
def controllerHealth (s : State) (f : Nat) : List Nat :=
  leBytes 2 (cntlid s f) ++ leBytes 2 (cstsReg (ctrl s f)) ++ leBytes 2 (composite s).toNat ++ [min 255 s.media.pctUsed, availableSpare s, s.adm.critWarn.toNat]
    ++ List.replicate 7 0

/-- CONTROLLER_HEALTH_STATUS_POLL: the PF and every enabled VF from an identifier on, at most so many. -/
def execControllerHealthStatusPoll (port start count : Nat) (clear : Bool) (s : State) : Host.Outcome State Fault Refusal :=
  miAnswer s port (fun s =>
    let l := ((liveFuncs s).filter (fun f => start ≤ cntlid s f)).take count
    let s := miReply s port 0 (l.length :: l.flatMap (controllerHealth s))
    if clear then clearCcs s 0xFFFF else s)

/-! ### Configuration -/

/-- SMBus/I2C frequencies by code. -/
def freqKhz (code : Nat) : Nat := nth [0, 100, 400, 1000] code

/-- CONFIGURATION_SET: 01h the frequency of the two-wire port, 02h Health Status Change, whose bits set are cleared, 03h the transmission unit, 64 only (R431, R434). -/
def execConfigurationSet (port id arg value : Nat) (s : State) : Host.Outcome State Fault Refusal :=
  miAnswer s port (fun s =>
    if id = 1 then (if arg = 1 ∧ 1 ≤ value ∧ value ≤ 3 then miReply { s with sup := { s.sup with smbusKhz := freqKhz value } } port 0 [] else miReply s port 4 [])
    else if id = 2 then miReply (clearCcs s (BitVec.ofNat 16 value)) port 0 []
    else if id = 3 then (if arg < 2 ∧ value = 64 then miReply { s with adm := { s.adm with mctpUnit := 64 } } port 0 [] else miReply s port 4 [])
    else miReply s port 4 [])

/-- CONFIGURATION_GET. -/
def execConfigurationGet (port id arg : Nat) (s : State) : Host.Outcome State Fault Refusal :=
  miAnswer s port (fun s =>
    if id = 1 then (if arg = 1 then miReply s port 0 [if s.sup.smbusKhz = 1000 then 3 else if s.sup.smbusKhz = 400 then 2 else 1] else miReply s port 4 [])
    else if id = 2 then miReply s port 0 []
    else if id = 3 then (if arg < 2 then miReply s port 0 (leBytes 2 s.adm.mctpUnit) else miReply s port 4 [])
    else miReply s port 4 [])

/-! ### VPD and Reset -/

/-- The 256 bytes of the VPD (R432). -/
def vpdBytes (s : State) : List Nat := (Config.vpd s.part.code s.boot.serial ++ List.replicate 256 0).take 256

/-- VPD_READ. -/
def execVpdRead (port offset length : Nat) (s : State) : Host.Outcome State Fault Refusal :=
  miAnswer s port (fun s =>
    if 256 < offset + length then miReply s port 4 [] else miReply s port 0 (((vpdBytes s).drop offset).take length))

/-- MI_RESET: kind 00h, an NVM Subsystem Reset under R65, carried to the twin in Service (R326). -/
def execMiReset (port kind : Nat) (s : State) : Host.Outcome State Fault Refusal :=
  miAnswer s port (fun s =>
    if kind ≠ 0 then miReply s port 4 []
    else subsystemReset (miReply (if s.md.mode = .service then send s 0x09 0 [3] else s) port 0 []))

/-! ### Tunnelled admin commands -/

/-- What a tunnelled command makes: its state, and the status, DW0 and data of its response. -/
abbrev Tunnelled := State × (Status × Nat × List Nat)

def tunnelFail (s : State) (st : Status) (dw0 : Nat := 0) : Tunnelled := (s, (st, dw0, []))

/-- A tunnelled command that R53 lets on (steps 2 and 3): its fields, then its mode. -/
def tunnelJudge (s : State) (field : Option Status) (row : Row) (run : State → Tunnelled) : Tunnelled :=
  match field with
  | some st => tunnelFail s st
  | none => match adminRefusal s row s.time.dtb with
    | some (st, d) => tunnelFail s st d
    | none => run s

/-- The tunnelled commands of Table 14.16, as commands of the PF. -/
def tunnelRun (s : State) (opcode : Nat) (e : Sqe) : Tunnelled :=
  if opcode = 6 then tunnelJudge s (errorOf (identifyDoc s e)) .always (fun s =>
    match identifyDoc s e with
    | .ok g => (nextFree s, (.success, 0, bytesFrom g 0 4096))
    | .error st => tunnelFail s st)
  else if opcode = 2 then tunnelJudge s (logError s e) .always (fun s => (nextFree (clearEvent s e), (.success, 0, logData s e)))
  else if opcode = 0xA then tunnelJudge s (errorOf (featureValue s e)) .always (fun s =>
    match featureValue s e with
    | .ok (v, d) => (nextFree s, (.success, v, d))
    | .error st => tunnelFail s st)
  else if opcode = 9 then
    (if sqeFid e = 0xC2 then tunnelJudge s (featureField e false true false) .features (fun s => (setLimit s e, (.success, 0, [])))
     else if sqeFid e = 0xC3 then tunnelJudge s (featureField e false true (offsetsBad e)) .features (fun s => (setOffsets s e, (.success, 0, [])))
     else tunnelFail s .invalidField)
  else if opcode = 0x82 then
    tunnelJudge s (if secProtocol e = 0 then none else some .invalidField) .security (fun s => (s, (.success, 0, protocolList.take e.cdw11.toNat)))
  else tunnelFail s .invalidOpcode

/-- TUNNELLED_ADMIN_COMMAND (R432, R433): C4h with the mode code in Holiday, in Harvest and before the end of Measure. -/
def execTunnelledAdminCommand (port opcode : Nat) (e : Sqe) (s : State) : Host.Outcome State Fault Refusal :=
  miAnswer s port (fun s =>
    let r := if s.md.mode = .measure ∨ s.md.mode = .holiday ∨ s.md.mode = .harvest then tunnelFail s .c4 s.md.mode.code else tunnelRun s opcode { e with func := 0 }
    miReply r.1 port 0 (leBytes 2 r.2.1.code ++ leBytes 4 r.2.2.1 ++ r.2.2.2))

/-! ### The basic management command (R431, R493) -/

/-- BASIC_MANAGEMENT_COMMAND: code 00h returns the status flags (free), the SMART warnings inverted, the composite temperature and Percentage Used; code 08h the vendor (free) and the serial number. -/
def execBasicManagementCommand (code : Nat) (s : State) : Host.Outcome State Fault Refusal :=
  if !s.sup.rails ∨ (code ≠ 0 ∧ code ≠ 8) then .next s
  else if code = 0 then
    .next (miReply (nextFree s) 1 0 [6, freeByte s 0, 255 - s.adm.critWarn.toNat, ctempByte s, min 255 s.media.pctUsed, 0, 0])
  else .next (miReply (nextFree s) 1 0 ([22, freeByte s 0, freeByte s 1] ++ s.boot.serial))

end Sys2Proof.Machine
end

