-- ==== Sys2Proof/Machine/Queries.lean ====
section
/-! DEFINITION. Calendar Query: the group report and the die snapshot (chapter 6, R183 to R186). -/

namespace Sys2Proof.Machine

/-- STATE of Table 6.10. -/
def dieCode (s : State) (d : Nat) : Nat :=
  match (dieOf s d).state with
  | .failed => 1
  | .spareWriting => 2
  | _ => 0

/-- OP of Table 6.10. -/
def opCode (x : Die) : Nat :=
  match x.op with
  | none => if x.claimOp.isSome then 1 else 0
  | some o => if o.suspended then 3 else if o.kind = .erase then 2 else 1

/-- Suspensions the present operation has used. -/
def suspendsOf (x : Die) : Nat := (x.op.map (fun o => o.suspends)).getD 0

/-- Rest slots of a die in the present period. -/
def restsNow (s : State) (d : Nat) : Nat :=
  ((KV.findD s.cal.rests d []).filter (fun n => n / 1024 == s.cal.period)).length

/-- µs of the present period after the slot in which a report is taken that claims, the window and rest slots leave. -/
def unclaimedUs (s : State) (d : Nat) : Nat := if s.cal.slot % 1024 = 1023 then 0 else min 0xFFFF (unheld s d ((s.cal.slot + 1) * slotNs) / 1000)

/-- Program tokens left on a die in the next period. -/
def programNext (s : State) (f d : Nat) : Nat := ((budgetAt s f (s.cal.period + 1)).on (dieGroup s d)).p

/-- An entry of the group report (Table 6.10); a VF sees nothing of the die's use by others (R185). -/
def reportEntry (s : State) (vf : Bool) (f g p : Nat) : List Piece :=
  let d := memberDie s g p
  let x := dieOf s d
  let k := s.cal.period
  let left (period : Nat) (prog : Nat) : List Nat :=
    [dieLeft s f .express d period, dieLeft s f .standard d period, dieLeft s f .bulk d period, prog].flatMap (leBytes 2)
  [at' 0 1 (dieCh s.part d), at' 1 1 (dieOrd s.part d), at' 2 1 (dieCode s d), at' 3 1 (if vf then 0 else opCode x),
   at' 4 2 (windowOf s.part d x), at' 6 1 (if vf then 0 else suspendsOf x),
   (8, left k (programLeft s f d)), (0x10, left (k + 1) (programNext s f d)),
   at' 0x18 2 (if vf then 0 else aroundLeft s d k), at' 0x1A 2 (if vf then 0 else unclaimedUs s d),
   at' 0x1C 2 (if vf then 0 else restsNow s d),
   (0x20, [LClass.express, .standard, .bulk].flatMap (fun c => leBytes 4 (chLeft s f c (dieCh s.part d) k)))]

/-- The head of the group report (Table 6.9); BULK_SCALE is the product of the factors of R175 and R453. -/
def reportHead (s : State) (reader f g : Nat) : List Piece :=
  let own := KV.find s.cal.dedicatedNow g
  [at' 0 1 1, at' 1 1 g, at' 2 1 f,
   at' 3 1 (bit own.isSome + 2 * bit (groupRebuilding s g) + 4 * bit (grpOf s g).dead.isSome + 8 * bit (grpOf s g).retired),
   at' 4 1 (if reader ≠ 0 ∧ own ≠ some reader then 0 else own.getD 0),
   at' 8 2 (KV.findD s.cal.bulkScale g 256 * KV.findD s.cal.capBulk g 256 / 256), at' 0xA 2 s.cal.chBulkScale,
   at' 0xC 2 (KV.findD s.cal.stdScale g 256), at' 0xE 2 (KV.findD s.cal.expScale g 256),
   at' 0x10 8 s.cal.period, at' 0x18 8 (s.cal.period * periodNs), at' 0x20 2 (s.cal.slot % 1024)]

/-- The function a report is made for: a VF reads its own tokens. -/
def reportFunc (e : Sqe) : Nat := if e.func ≠ 0 then e.func else fld e.cdw11 0 7

/-- The group report (R184). -/
def groupReport (s : State) (e : Sqe) (i : Nat) : Nat :=
  let g := fld e.cdw10 8 8
  let f := reportFunc e
  orPage (rows 0x100 64 32 (fun p => reportEntry s (e.func != 0) f g p) i) (page (reportHead s e.func f g) i)

/-- HOLDER of Table 6.12 for the kind of claim. -/
def claimCode (c : Claim) : Nat :=
  match c.kind with
  | .around => 4
  | .unbound => 5
  | .background => 6
  | .rebuild => 7
  | .resume => 10
  | .read | .wtProgram | .soft | .standing => if c.cls = .unbound then 5 else c.cls.code + 1

/-- The holder of a die at the start of a slot. -/
def holderAt (s : State) (d slot : Nat) : Nat :=
  let t := slot * slotNs
  match s.cal.claims.find? (fun c => c.die == d && c.start ≤ t && t < c.start + c.len) with
  | some c => claimCode c
  | none =>
    if windowStart s d (slot / 1024) ≤ t && t < windowStart s d (slot / 1024) + 256000 then 8
    else if (KV.findD s.cal.rests d []).contains slot then 9 else 0

/-- A slot byte (Table 6.12). -/
def slotByte (s : State) (d slot : Nat) : Nat :=
  let past := slot < s.cal.slot
  let ran := ((s.cal.opHist.find? (fun h => h.1 == d && h.2.1 == slot)).map (fun h => h.2.2)).getD 0
  holderAt s d slot + (if past then 16 * ran + 64 else 0)

/-- The Calendar Snapshot of a die (R186, Table 6.11). -/
def snapshotBytes (s : State) (d : Nat) : List Nat :=
  let x := dieOf s d
  let k := s.cal.period
  let head : List Piece :=
    [at' 0 1 1, at' 1 1 1, at' 2 1 (dieCh s.part d), at' 3 1 (dieOrd s.part d), at' 4 1 (x.group.getD 0xFF),
     at' 5 1 (x.pos.getD 0xFF), at' 6 2 (windowOf s.part d x), at' 8 8 k, at' 0x10 8 (k * periodNs), at' 0x18 8 s.time.dtb,
     at' 0x20 2 (s.cal.slot % 1024), at' 0x22 1 (suspendsOf x), at' 0x23 1 (opCode x), at' 0x24 2 (aroundLeft s d k),
     at' 0x26 2 (restsNow s d)]
  bytesFrom (page head) 0 512 ++ (List.range 2048).map (fun n => slotByte s d (k * 1024 + n)) ++ List.replicate 1536 0

/-- A GROUP, CHANNEL or ORDINAL beyond the part, whatever the ACTION (R183). -/
def beyondPart (s : State) (e : Sqe) : Bool := s.part.groups ≤ fld e.cdw10 8 8 || 32 ≤ fld e.cdw10 16 5 || s.part.diesPerChannel ≤ fld e.cdw10 21 6

/-- CALENDAR_QUERY_GROUP_REPORT (R183 to R185). -/
def execCalendarQueryGroupReport (e : Sqe) (s : State) : Host.Outcome State Fault Refusal :=
  adminCmd e s false .calendar
    (fun s => if fld e.cdw10 0 4 ≠ 0 ∨ beyondPart s e then some .invalidField else if sglBad e 4096 then some .sglLengthInvalid else none)
    (fun s => adminDone s e .success 0 (bytesFrom (groupReport s e) 0 4096))

/-- CALENDAR_QUERY_DIE_SNAPSHOT (R183, R186): log C7h holds the die as it stands; on a VF it is an invalid field. -/
def execCalendarQueryDieSnapshot (e : Sqe) (s : State) : Host.Outcome State Fault Refusal :=
  adminCmd e s false .calendar
    (fun s => if fld e.cdw10 0 4 ≠ 1 ∨ e.func ≠ 0 ∨ beyondPart s e then some .invalidField else none)
    (fun s => adminDone { s with cal := { s.cal with snapshot := snapshotBytes s (dieIx s.part (fld e.cdw10 16 5) (fld e.cdw10 21 6)) } } e .success)

end Sys2Proof.Machine
end

