-- ==== Sys2Proof/Machine/Spdm.lean ====
section
/-! DEFINITION. The SPDM responder on its three transports, 0 the host port, 1 the sideband, 2 the Deroft link, and the session of the pairing (R301, R302, R310, R311, R361, R362, R372, R373, Table 12.7). Message codes and field places are those of DSP0274 (PRESUMED); a response is its bytes, its header first. -/

namespace Sys2Proof.Machine

/-! ### Answering (R372) -/

/-- A response leaves on the transport its request came by. -/
def spdmReply (s : State) (t : Nat) (r : List Nat) : State :=
  if t = 2 then send s 0x44 0 r else { s with boot := { s.boot with spdmOut := s.boot.spdmOut ++ [(t, r)] } }

/-- An ERROR response: 03h Busy, 01h InvalidRequest, 04h UnexpectedRequest, 07h UnsupportedRequest, 41h VersionMismatch. -/
def spdmError (s : State) (t code : Nat) : State := spdmReply s t [0x7F, code, 0]

/-- A request reaches the responder: on the host port with its link up, on the sideband while the rails are on, on the Deroft link while a pairing attests or opens its session; not in Holiday or Harvest, whose security core does not run (DEDUCED). -/
def spdmReached (s : State) (t : Nat) : Bool :=
  s.sup.rails && s.md.mode != .holiday && s.md.mode != .harvest
    && (match t with
        | 0 => s.port.rate != 0
        | 1 => true
        | 2 => s.tw.linkUp && s.md.mode == .pairing && 4 ≤ s.tw.step && s.tw.step ≤ 5
        | _ => false)

/-- Answer a request: Busy before the end of Measure, and while the security core is out of service (R466). -/
def spdmAnswer (s : State) (t : Nat) (f : State → State) : Host.Outcome State Fault Refusal :=
  if !spdmReached s t then .next s
  else if s.md.mode == .measure || !coreRuns s 28 then .next (spdmError s t 3)
  else .next (f s)

/-- Change a value kept for a transport. -/
def setVer (s : State) (t v : Nat) (caps algs : Bool) : State :=
  { s with boot := { s.boot with
    spdmVer := modAt s.boot.spdmVer t (fun _ => v), spdmCaps := modAt s.boot.spdmCaps t (fun _ => caps), spdmAlgs := modAt s.boot.spdmAlgs t (fun _ => algs) } }

/-- The version a transport has agreed on; 0 none. -/
def verOf (s : State) (t : Nat) : Nat := nth s.boot.spdmVer t

/-- SPDM_GET_VERSION: 1.2 and 1.1; what was agreed before is forgotten. -/
def execSpdmGetVersion (t : Nat) (s : State) : Host.Outcome State Fault Refusal :=
  spdmAnswer s t (fun s => spdmReply (setVer s t 0 false false) t [0x04, 2, 0x11, 0x12])

/-- CERT_CAP, CHAL_CAP and MEAS_CAP with signature; on the Deroft link sessions with mutual authentication and key updates too. -/
def spdmFlags (t : Nat) : Nat := 0x16 + (if t = 2 then 0x4300 else 0)

/-- SPDM_GET_CAPABILITIES: the version of the request is the one agreed on. -/
def execSpdmGetCapabilities (t version : Nat) (s : State) : Host.Outcome State Fault Refusal :=
  spdmAnswer s t (fun s =>
    if version ≠ 0x12 ∧ version ≠ 0x11 then spdmError s t 0x41
    else
      let s := setVer s t version true false
      let s := if t = 2 then { s with tw := { s.tw with spdmVer := version } } else s
      spdmReply s t (0x61 :: version :: leBytes 4 (spdmFlags t)))

/-- A request that needs the capabilities, or the algorithms, agreed on first. -/
def afterCaps (s : State) (t : Nat) (f : State → State) : State := if s.boot.spdmCaps.getD t false then f s else spdmError s t 4
def afterAlgs (s : State) (t : Nat) (f : State → State) : State := if s.boot.spdmAlgs.getD t false then f s else spdmError s t 4

/-- SPDM_NEGOTIATE_ALGORITHMS: ECDSA on P-384 and SHA-384, where the requester offers both. -/
def execSpdmNegotiateAlgorithms (t : Nat) (p384 sha384 : Bool) (s : State) : Host.Outcome State Fault Refusal :=
  spdmAnswer s t (fun s => afterCaps s t (fun s =>
    if !p384 || !sha384 then spdmError s t 1
    else spdmReply (setVer s t (verOf s t) true true) t ([0x63, verOf s t] ++ leBytes 4 0x80 ++ leBytes 4 0x2)))

/-! ### The chain (R362) -/

/-- The recovery loader answers, and the DeviceID key signs (R362, R372). -/
def byLoader (s : State) : Bool := s.md.mode == .quarantine && s.md.qcause == 3

/-- The alias certificate: its public key, the digests of M0 to M7 of its TcbInfo extension, the DeviceID signature. -/
def aliasCert (s : State) : List Nat :=
  let body := beBytes 96 (Config.publicKey s.boot.cdi labelAlias) ++ s.boot.regs.flatMap (fun r => beBytes 48 r.digest)
  body ++ beBytes 96 (Config.sign Config.uds (Config.sha384 body))

/-- The chain of slot 0: device root, intermediate and DeviceID certificate, then the alias certificate but for the recovery loader. -/
def chainOf (s : State) : List Nat := Config.chain ++ (if byLoader s then [] else aliasCert s)

/-- The digest of the chain. -/
def chainDigest (s : State) : List Nat := beBytes 48 (Config.sha384 (chainOf s))

/-- SPDM_GET_DIGESTS: slot 0 only. -/
def execSpdmGetDigests (t : Nat) (s : State) : Host.Outcome State Fault Refusal :=
  spdmAnswer s t (fun s => afterAlgs s t (fun s => spdmReply s t ([0x01, verOf s t, 1] ++ chainDigest s)))

/-- SPDM_GET_CERTIFICATE: a portion of the chain of slot 0, and how much remains. -/
def execSpdmGetCertificate (t slot offset length : Nat) (s : State) : Host.Outcome State Fault Refusal :=
  spdmAnswer s t (fun s => afterAlgs s t (fun s =>
    let c := chainOf s
    if slot ≠ 0 ∨ c.length ≤ offset then spdmError s t 1
    else
      let p := (c.drop offset).take length
      spdmReply s t ([0x02, verOf s t, 0] ++ leBytes 2 p.length ++ leBytes 2 (c.length - offset - p.length) ++ p)))

/-! ### Measurements (R373, Table 12.7) -/

/-- The value of a measurement index: the ROM digest, M0 to M7, the Almanac head. -/
def measureValue (s : State) (i : Nat) : List Nat :=
  if i = 1 then beBytes 48 Config.romDigest
  else if i = 10 then leBytes 4 s.boot.boot ++ beBytes 48 ((KV.find s.boot.ring s.boot.boot).elim 0 (fun a => Config.sha384 (almEndorsed s a)))
  else beBytes 48 ((s.boot.regs[i - 2]?).elim 0 (fun r => r.digest))

/-- The DMTF value type of an index; index 10 is a raw bit stream. -/
def measureType (i : Nat) : Nat := if i = 1 then 0 else if i ≤ 7 then 1 else if i = 8 then 3 else if i = 9 then 2 else 0x84

/-- The block of an index, in the DMTF measurement specification. -/
def measureBlock (s : State) (i : Nat) : List Nat :=
  let v := measureValue s i
  [i, 1] ++ leBytes 2 (v.length + 3) ++ [measureType i] ++ leBytes 2 v.length ++ v

/-- Blocks of indices 1 to n. -/
def measureBlocks (s : State) (n : Nat) : List Nat := (List.range n).flatMap (fun i => measureBlock s (i + 1))

/-- Sign a response with the module's nonce, which is a free value, and the requester's. -/
def signReply (s : State) (t nonce : Nat) (r : State → List Nat → List Nat) : State :=
  let (m, s) := drawFree s
  let body := r s (leBytes 32 m)
  spdmReply s t (body ++ beBytes 96 (Config.sign (signKey s (byLoader s)) (Config.sha384 (leBytes 32 nonce ++ body))))

/-- SPDM_CHALLENGE: the summary hash covers indices 1 to 7 (01h, the TCB) or 1 to 10 (FFh). -/
def execSpdmChallenge (t slot summary nonce : Nat) (s : State) : Host.Outcome State Fault Refusal :=
  spdmAnswer s t (fun s => afterAlgs s t (fun s =>
    if slot ≠ 0 ∨ (summary ≠ 0 ∧ summary ≠ 1 ∧ summary ≠ 0xFF) then spdmError s t 1
    else signReply s t nonce (fun s m => [0x03, verOf s t, 0, 1] ++ chainDigest s ++ m
      ++ (if summary = 0 then [] else beBytes 48 (Config.sha384 (measureBlocks s (if summary = 1 then 7 else 10)))))))

/-- The blocks a GET_MEASUREMENTS asks for: index 0 only their number, FFh all. -/
def askedBlocks (s : State) (index : Nat) : Option (List Nat) :=
  if index = 0 then some [10] else if index ≤ 10 then some (measureBlock s index) else if index = 0xFF then some (measureBlocks s 10) else none

/-- The cause for which the twin's evidence refuses a pairing (R311): judged against this module's saved policy (R379), or where that enforces nothing by the major version of the HELLO. -/
def judgeTwin (s : State) (e : Evidence) : Option Nat :=
  if !e.chainOk || !e.verified then some 7
  else if s.boot.savedPolicy.enforce then (if e.digests.zipIdx.all (fun x => s.boot.savedPolicy.allows x.2 x.1) then none else some 8)
  else if s.tw.hello.any (fun h => h.fwMajor != e.major) then some 8
  else none

/-- The twin's evidence ends step 4: the session follows, asked for by rank 0 (R310). -/
def attested (s : State) (e : Evidence) : State :=
  if s.tw.step ≠ 4 then s
  else match judgeTwin s e with
    | some c => refusePairing s c
    | none =>
      let s := { s with tw := { s.tw with step := 5 } }
      if rank s = 0 then send s 0x44 0 [0xE4] else s

/-- SPDM_GET_MEASUREMENTS; on the Deroft link also the arrival of the twin's own. -/
def execSpdmGetMeasurements (t index nonce : Nat) (signed : Bool) (twin : Option Evidence) (s : State) : Host.Outcome State Fault Refusal :=
  spdmAnswer s t (fun s =>
    match (if t = 2 then twin else none) with
    | some e => attested s e
    | none => afterAlgs s t (fun s =>
      match askedBlocks s index with
      | none => spdmError s t 1
      | some b =>
        if signed then signReply s t nonce (fun s m => [0x60, verOf s t, index] ++ b ++ m)
        else spdmReply s t ([0x60, verOf s t, index] ++ b)))

/-! ### The session (R301, R302, R310 step 5) -/

/-- SPDM_KEY_EXCHANGE: UnsupportedRequest but on the Deroft link, where step 5 opens the session. -/
def execSpdmKeyExchange (t : Nat) (ok : Bool) (s : State) : Host.Outcome State Fault Refusal :=
  spdmAnswer s t (fun s =>
    if t ≠ 2 then spdmError s t 7
    else if s.tw.step ≠ 5 then spdmError s t 4
    else if !ok then refusePairing s 7
    else
      let s := { s with boot := { s.boot with spdmSession := 1 } }
      send s 0x44 0 (if rank s = 0 then [0xE5] else [0x64]))

/-- SPDM_FINISH: the session is mutually authenticated and its keys derived; step 6 begins with a copy of the HELLO sent. -/
def execSpdmFinish (t : Nat) (ok : Bool) (s : State) : Host.Outcome State Fault Refusal :=
  spdmAnswer s t (fun s =>
    if t ≠ 2 then spdmError s t 7
    else if s.tw.step ≠ 5 ∨ s.boot.spdmSession ≠ 1 then spdmError s t 4
    else if !ok then refusePairing s 7
    else
      let s := if rank s = 0 then s else send s 0x44 0 [0x65]
      let s := sessionKeys { s with boot := { s.boot with spdmSession := 2 }, tw := { s.tw with step := 6 } }
      send s 0x0D 0 (0 :: helloFields (ownHello s s.md.prev.code)))

/-- SPDM_KEY_UPDATE (R302): the twin, rank 0, renews every key; elsewhere there is no session. -/
def execSpdmKeyUpdate (t : Nat) (s : State) : Host.Outcome State Fault Refusal :=
  if t = 2 then
    (if !s.tw.linkUp ∨ s.md.mode ≠ .service ∨ rank s = 0 then .next s else .next (updateKeys (send s 0x44 0 [0x69])))
  else spdmAnswer s t (fun s => spdmError s t 7)

/-- SPDM_PSK_EXCHANGE: UnsupportedRequest. -/
def execSpdmPskExchange (t : Nat) (s : State) : Host.Outcome State Fault Refusal := spdmAnswer s t (fun s => spdmError s t 7)

end Sys2Proof.Machine
end

