-- ==== Sys2Proof/Machine/Sync.lean ====
section
/-! DEFINITION. Resync frames and reshape copies as they arrive, and data fetched between the modules (R240, R241, R254, R284, R321 to R323). -/

namespace Sys2Proof.Machine

/-! ### Repairs from the other copy (R241, R322) -/

/-- Ask the other module for one lost LBA, by the ordering key of what is recorded for it: a frame of KIND 06h without data (DEDUCED). -/
def askRepair (s : State) (nsid lba : Nat) : State :=
  let t := s.tw.tagCtr
  let b := readLba s nsid lba
  send { s with tw := { s.tw with tagCtr := (t + 1) % 2^31 } } 0x23 t [6, nsid, 0, 1, lba, b.oseq, 0, 0, 0, b.epoch]

/-- Ask for every repairable LBA of a namespace. -/
def askRepairs (s : State) (nsid : Nat) : State :=
  (s.media.extents.filter (fun x => x.nsid == nsid && x.repairable)).foldl (fun s x => (List.range x.count).foldl (fun s i => askRepair s nsid (x.slba + i)) s) s

/-- An LBA is whole again and leaves the list (R242). -/
def repairLba (s : State) (nsid lba val key : Nat) : State :=
  clearExtents (storeLba s nsid lba { readLba s nsid lba with val := val, key := key, lost := false }) nsid lba (lba + 1)

/-- An LBA that cannot be repaired loses REPAIRABLE and stays listed (R241). -/
def giveUp (s : State) (nsid lba : Nat) : State :=
  { s with media := { s.media with extents := s.media.extents.map (fun x =>
    if x.nsid = nsid ∧ x.slba ≤ lba ∧ lba < x.slba + x.count then { x with repairable := false } else x) } }

/-- A KIND 06h frame: a request is answered with the data where this module's unit carries the same key and is whole; an answer repairs, or says it cannot. -/
def takeRepair (s : State) (f : FrameBody) : State :=
  let b := readLba s f.nsid f.slba
  match f.data with
  | x :: _ => repairLba s f.nsid f.slba x.1 x.2
  | [] =>
    if f.nlb = 0 then giveUp s f.nsid f.slba
    else sendFrame s false 6 f.nsid 0 f.slba (if b.oseq = f.oseq ∧ b.epoch = f.pepoch ∧ !lostIn s f.nsid f.slba then 1 else 0) (b.epoch, b.oseq) 0 0 0 0

/-! ### The source (R321, R322) -/

/-- What a zone still needs: from the target's write pointer where the histories match, else from its first LBA. -/
def sumWork (nsid : Nat) (n : Ns) (es : List SumEntry) (i : Nat) : Work :=
  match es.find? (fun e => e.zone == i) with
  | some e => if e.resetId = (n.zone i).resetId ∧ e.wp ≤ (n.zone i).wp then zoneWork nsid n i e.wp false else zoneWork nsid n i 0 false
  | none => zoneWork nsid n i 0 false

/-- The zones either copy holds as not Empty, in ascending index. -/
def sumZones (n : Ns) (es : List SumEntry) : List Nat :=
  sortBy (fun x => x) (((n.zones.filter (fun z => z.2.st != .empty)).map (fun z => z.1) ++ es.map (fun e => e.zone)).dedup)

/-- A summary of the target (KIND 07h): the namespace's resync begins. -/
def takeSummary (s : State) (f : FrameBody) : State :=
  match nsOf s f.nsid with
  | none => s
  | some n =>
    if !n.here || !n.mirrored || !n.resyncPending || s.tw.work.any (fun w => w.nsid == f.nsid && !w.reshape) then s
    else
      let l := if n.zoned then (sumZones n f.entries).map (sumWork f.nsid n f.entries) else wholeWork f.nsid n false
      let s := { s with tw := { s.tw with resyncTotal := s.tw.resyncTotal + (l.map (workBytes s)).sum } }
      askRepairs (addWork s (l ++ [{ kind := 4, nsid := f.nsid }])) f.nsid

/-! ### The target (R322) -/

/-- Empty this module's copy of a zone and take its RESET_ID; records held for it stay. -/
def resetCopy (s : State) (nsid i resetId : Nat) : State :=
  let had := (nsOf s nsid).any (fun n => 0 < (n.zone i).wp)
  let s := if had then emptyZone s nsid i else s
  let s := { s with jr := { s.jr with recs := KV.mapVals s.jr.recs (fun _ r =>
    if r.copy && !r.acked && r.nsid == nsid && r.ofZone && r.zidx == i then { r with stale := false } else r) } }
  setZone s nsid i (fun z => { z with resetId := resetId })

/-- The group of a zone bound afresh (R322): conditions 1 and 4 of R108, those of 2, 3 and 5 preferred, chosen by R109. -/
def resyncGroup (s : State) (f : Nat) (e : Ext) : Option Nat :=
  let ok := (List.range s.part.groups).filter (fun g => !(grpOf s g).retired && groupBound s g < 1936)
  let best := ok.filter (fun g => groupAllows s f g e.affinity && groupActive s g < 128)
  chooseGroup s (if best.isEmpty then ok else best) e

/-- Bind a zone of the copy that has no group yet. -/
def bindCopy (s : State) (nsid i : Nat) (n : Ns) (wp : Nat) : State :=
  let z := n.zone i
  if z.group.isSome then s
  else match resyncGroup s (z.activeFunc.getD 0) z.ext with
    | none => s
    | some g =>
      let m := groupMembers s g
      setZone s nsid i (fun z => { z with group := some g, members := m, cap := max (zoneCap z.ext.density m n.flbas) wp })

/-- A zone state by its code. -/
def stateOf (c : Nat) : ZState :=
  if c = 2 then .implOpen else if c = 3 then .explOpen else if c = 4 then .closed else if c = 0xD then .readOnly else if c = 0xE then .full
  else if c = 0xF then .offline else .empty

/-- Store an LBA of a frame: its content and key, or its mark as lost. -/
def storeFrameLba (s : State) (nsid lba : Nat) (x : Nat × Nat) (epoch oseq : Nat) : State :=
  if x = (1, 0) then listLost (storeLba s nsid lba { lost := true, epoch := epoch, oseq := oseq }) nsid lba 1 1 0x3F false
  else storeLba s nsid lba { val := x.1, key := x.2, epoch := epoch, oseq := oseq }

/-- A zone range (KIND 01h): the copy is reset where the histories differ; what is below its write pointer already is left; the rest is programmed as a copy at step 5 of R171. -/
def takeRange (s : State) (f : FrameBody) (n : Ns) : State :=
  let i := f.unit
  let base := i * zoneSize n.flbas
  let z := n.zone i
  let s := if z.resetId ≠ f.resetId ∨ (f.slba = base ∧ 0 < z.wp) then resetCopy s f.nsid i f.resetId else s
  let wp := (nsOf s f.nsid).elim 0 (fun n => (n.zone i).wp)
  let s := (nsOf s f.nsid).elim s (fun n => bindCopy s f.nsid i n (max f.wp (f.slba - base + f.data.length)))
  let s := f.data.zipIdx.foldl (fun s x => if f.slba + x.2 < base + wp then s else storeFrameLba s f.nsid (f.slba + x.2) x.1 f.pepoch f.oseq) s
  let s := setZone s f.nsid i (fun z => { z with
    wp := max z.wp f.wp, taken := max z.taken (max z.wp f.wp), st := stateOf f.zstate
    keyEpoch := if keyLe f.pepoch f.oseq z.keyEpoch z.keyOseq then z.keyEpoch else f.pepoch
    keyOseq := if keyLe f.pepoch f.oseq z.keyEpoch z.keyOseq then z.keyOseq else f.oseq })
  match (nsOf s f.nsid).map (fun n => n.zone i) with
  | none => s
  | some z => if z.group.isNone then s else queueTo s f.nsid i (linesTo z n.flbas z.wp) 0 5

/-- A zone's state alone (KIND 02h): its last frame; it is level, and what was held for it is applied. -/
def takeState (s : State) (f : FrameBody) (n : Ns) : State :=
  let i := f.unit
  let z := n.zone i
  let st := stateOf f.zstate
  let s := if z.resetId ≠ f.resetId ∨ st = .empty ∨ f.wp < z.wp then resetCopy s f.nsid i f.resetId else s
  let s := if st = .empty ∨ (st = .full ∧ f.wp = 0) then s else (nsOf s f.nsid).elim s (fun n => bindCopy s f.nsid i n f.wp)
  let s := setZone s f.nsid i (fun z => { z with
    st := st, extValid := z.extValid || (st == .closed && f.wp == 0)
    keyEpoch := if keyLe f.pepoch f.oseq z.keyEpoch z.keyOseq then z.keyEpoch else f.pepoch
    keyOseq := if keyLe f.pepoch f.oseq z.keyEpoch z.keyOseq then z.keyOseq else f.oseq })
  releaseHeld (setNs s f.nsid (fun n => { n with levelled := if n.levelled.contains i then n.levelled else n.levelled ++ [i] })) f.nsid i

/-- A map-unit range of a metadata namespace (KIND 03h): a unit that a record with an equal or higher key wrote is left (R267). -/
def takeUnits (s : State) (f : FrameBody) : State :=
  let s := f.data.zipIdx.foldl (fun s x =>
    let b := readLba s f.nsid (f.slba + x.2)
    if b ≠ {} ∧ keyLe f.pepoch f.oseq b.epoch b.oseq then s else storeFrameLba s f.nsid (f.slba + x.2) x.1 f.pepoch f.oseq) s
  setNs s f.nsid (fun n => { n with written := true })

/-- A frame of a zone or map unit. -/
def takeUnit (s : State) (f : FrameBody) (n : Ns) : State :=
  match f.kind with
  | 1 => takeRange s f n
  | 2 => takeState s f n
  | _ => takeUnits s f

/-- A namespace is level (KIND 04h): what is held is applied, its repairable extents are asked for, and the next namespace is summarised. -/
def levelNs (s : State) (nsid : Nat) : State :=
  let s := setNs (releaseAllHeld s nsid) nsid (fun n => { n with resyncPending := false, resyncPct := 100, levelled := [] })
  sendSummary (updateAna (askRepairs s nsid))

/-- Apply a frame of the resync on the target. -/
def takeFrame (s : State) (f : FrameBody) : State :=
  if f.kind = 5 then endResync s
  else match nsOf s f.nsid with
    | none => s
    | some n =>
      if n.here || !n.mirrored then s
      else if f.kind = 4 then levelNs s f.nsid
      else
        let s := takeUnit s f n
        { s with tw := { s.tw with resyncDone := s.tw.resyncDone + f.data.length * lbaBytes n.flbas } }

/-- Confirm a frame by its tag (R123). -/
def confirmFrame (s : State) (h : MsgHdr) (unit : Nat) : State := send s 0x06 h.tag [unit, 0]

/-- RESYNC_FRAME (R321, R322): a summary and a repair go to the source; every other frame is applied and confirmed. -/
def execResyncFrame (h : MsgHdr) (f : FrameBody) (s : State) : Host.Outcome State Fault Refusal :=
  peerMsg s h [0x23] (fun s =>
    if f.kind = 7 then takeSummary s f
    else if f.kind = 6 then (if f.data.isEmpty ∧ f.nlb ≠ 0 then takeRepair s f else confirmFrame (takeRepair s f) h f.unit)
    else if f.kind < 1 ∨ 7 < f.kind then discard s h
    else confirmFrame (takeFrame s f) h f.unit)

/-- RESHAPE_COPY (R254): a unit of a namespace becoming mirrored. -/
def execReshapeCopy (h : MsgHdr) (f : FrameBody) (s : State) : Host.Outcome State Fault Refusal :=
  peerMsg s h [0x26] (fun s =>
    match nsOf s f.nsid with
    | none => discard s h
    | some n =>
      if n.here || n.mirrored || !n.becoming || f.kind < 1 || 3 < f.kind then discard s h
      else confirmFrame (takeUnit s f n) h f.unit)

/-! ### Fetches (R240, R284) -/

/-- A unit as Fetch data carries it: its content and key; (1, 0) where it is lost here too. -/
def fetchUnit (s : State) (nsid lba oseq : Nat) : Nat × Nat :=
  match (s.jr.recs.find? (fun p => oseq != 0 && p.2.oseq == oseq && p.2.nsid == nsid && p.2.slba ≤ lba && lba < p.2.slba + p.2.nlb)) with
  | some (_, r) => (nth r.data (lba - r.slba), r.key)
  | none => if lostIn s nsid lba then (1, 0) else frameLba s nsid lba

/-- FETCH_REQUEST (R240): answered with the data by LBA, or that of the record named by its OSEQ (R284). -/
def execFetchRequest (h : MsgHdr) (nsid slba nlb oseq : Nat) (s : State) : Host.Outcome State Fault Refusal :=
  peerMsg s h [0x24] (fun s =>
    if !(nsOf s nsid).any (fun n => n.held) then send s 0x25 h.tag ((List.range nlb).flatMap (fun _ => [1, 0]))
    else send s 0x25 h.tag ((List.range nlb).flatMap (fun i => [(fetchUnit s nsid (slba + i) oseq).1, (fetchUnit s nsid (slba + i) oseq).2])))

/-- One fetched unit: the LBA is repaired, or lost on both modules and listed. -/
def takeFetched (s : State) (nsid lba : Nat) (x : Option (Nat × Nat)) : State :=
  match x with
  | some (v, k) => repairLba s nsid lba v k
  | none => listLost (storeLba s nsid lba { readLba s nsid lba with lost := true }) nsid lba 1 1 0x3F false

/-- The read that waited for a fetch takes the data as it now stands. -/
def refreshRead (s : State) (slot : Nat) : State :=
  match KV.find s.port.cmds slot with
  | none => s
  | some c =>
    match nsOf s c.nsid with
    | none => s
    | some n => endTwinRead (setCmd s slot (fun c => { c with data := readData s c.nsid n c.slba c.nlb c.key, result := readStatus s c.nsid c.slba c.nlb })) slot

/-- FETCH_DATA (R240, R284): the fetched data repairs its LBAs and completes the read that waited; a zone placed anew is programmed (R103). -/
def execFetchData (h : MsgHdr) (data : List (Option (Nat × Nat))) (s : State) : Host.Outcome State Fault Refusal :=
  peerMsg s h [0x25] (fun s =>
    match s.tw.fetches.find? (fun f => f.1 == h.tag) with
    | none => discard s h
    | some (_, slot, nsid, slba, nlb) =>
      let s := { s with tw := { s.tw with fetches := s.tw.fetches.filter (fun f => f.1 != h.tag) } }
      let s := (List.range nlb).foldl (fun s i => takeFetched s nsid (slba + i) ((data.getD i none))) s
      if slot = 65536 then zoneFetched s nsid slba nlb
      else if s.tw.fetches.any (fun f => f.2.1 == slot) then s else refreshRead s slot)

end Sys2Proof.Machine
end

