-- ==== Sys2Proof/Machine/Dispatch.lean ====
section
/-! DEFINITION. The effect of each command: one arm per row of the table. -/

namespace Sys2Proof.Machine

open Sys2Proof

def exec (i : Instr) (s : State) : Host.Outcome State Fault Refusal :=
  match i with
  | .powerGood feedA feedB plane => Sys2Proof.Machine.execPowerGood feedA feedB plane s
  | .supplyEvent kind feedA feedB => Sys2Proof.Machine.execSupplyEvent kind feedA feedB s
  | .harvestTrigger feeds pwrdis mateMv ticks => Sys2Proof.Machine.execHarvestTrigger feeds pwrdis mateMv ticks s
  | .harvestSeal vEnd feedA feedB pwrdis mated shifts => Sys2Proof.Machine.execHarvestSeal vEnd feedA feedB pwrdis mated shifts s
  | .harvestBankExhausted step landed => Sys2Proof.Machine.execHarvestBankExhausted step landed s
  | .perstAsserted => Sys2Proof.Machine.execPerstAsserted s
  | .perstDeasserted => Sys2Proof.Machine.execPerstDeasserted s
  | .linkDown => Sys2Proof.Machine.execLinkDown s
  | .hotReset => Sys2Proof.Machine.execHotReset s
  | .functionLevelReset func => Sys2Proof.Machine.execFunctionLevelReset func s
  | .hostLinkUp rate width how => Sys2Proof.Machine.execHostLinkUp rate width how s
  | .l1Entry => Sys2Proof.Machine.execL1Entry s
  | .l1Exit => Sys2Proof.Machine.execL1Exit s
  | .ccEnable func cc => Sys2Proof.Machine.execCcEnable func cc s
  | .ccDisable func => Sys2Proof.Machine.execCcDisable func s
  | .normalShutdown func => Sys2Proof.Machine.execNormalShutdown func s
  | .shutdownUnboundTimeout func => Sys2Proof.Machine.execShutdownUnboundTimeout func s
  | .abruptShutdown func => Sys2Proof.Machine.execAbruptShutdown func s
  | .shutdownSeal shifts => Sys2Proof.Machine.execShutdownSeal shifts s
  | .nvmSubsystemReset func => Sys2Proof.Machine.execNvmSubsystemReset func s
  | .suPwrbudWrite func value => Sys2Proof.Machine.execSuPwrbudWrite func value s
  | .suDtbLoRead func => Sys2Proof.Machine.execSuDtbLoRead func s
  | .registerWrite func bar offset size value => Sys2Proof.Machine.execRegisterWrite func bar offset size value s
  | .sqTailDoorbell func qid size value => Sys2Proof.Machine.execSqTailDoorbell func qid size value s
  | .cqHeadDoorbell func qid size value => Sys2Proof.Machine.execCqHeadDoorbell func qid size value s
  | .holidayExitComplete ticks => Sys2Proof.Machine.execHolidayExitComplete ticks s
  | .holidayEntry tick => Sys2Proof.Machine.execHolidayEntry tick s
  | .holidayReentry tick => Sys2Proof.Machine.execHolidayReentry tick s
  | .identify e => Sys2Proof.Machine.execIdentify e s
  | .getLogPage e => Sys2Proof.Machine.execGetLogPage e s
  | .telemetryHostInitiatedCreate e => Sys2Proof.Machine.execTelemetryHostInitiatedCreate e s
  | .getFeatures e => Sys2Proof.Machine.execGetFeatures e s
  | .abort e => Sys2Proof.Machine.execAbort e s
  | .asynchronousEventRequest e => Sys2Proof.Machine.execAsynchronousEventRequest e s
  | .keepAlive e => Sys2Proof.Machine.execKeepAlive e s
  | .keepAliveExpiry func => Sys2Proof.Machine.execKeepAliveExpiry func s
  | .createIoSubmissionQueue e => Sys2Proof.Machine.execCreateIoSubmissionQueue e s
  | .createIoCompletionQueue e => Sys2Proof.Machine.execCreateIoCompletionQueue e s
  | .deleteIoSubmissionQueue e => Sys2Proof.Machine.execDeleteIoSubmissionQueue e s
  | .deleteIoCompletionQueue e => Sys2Proof.Machine.execDeleteIoCompletionQueue e s
  | .virtPrimaryFlexibleAllocation e => Sys2Proof.Machine.execVirtPrimaryFlexibleAllocation e s
  | .virtSecondaryOffline e => Sys2Proof.Machine.execVirtSecondaryOffline e s
  | .virtSecondaryAssign e => Sys2Proof.Machine.execVirtSecondaryAssign e s
  | .virtSecondaryOnline e => Sys2Proof.Machine.execVirtSecondaryOnline e s
  | .setPowerManagement e => Sys2Proof.Machine.execSetPowerManagement e s
  | .setPowerManagementPs4 e => Sys2Proof.Machine.execSetPowerManagementPs4 e s
  | .setQueueClassBinding e => Sys2Proof.Machine.execSetQueueClassBinding e s
  | .setTenantBudget e => Sys2Proof.Machine.execSetTenantBudget e s
  | .setPowerBudget e => Sys2Proof.Machine.execSetPowerBudget e s
  | .setThermalPolicy e => Sys2Proof.Machine.execSetThermalPolicy e s
  | .setMeasurementPolicy e => Sys2Proof.Machine.execSetMeasurementPolicy e s
  | .setTwinPolicy e => Sys2Proof.Machine.execSetTwinPolicy e s
  | .setHolidayDegradationPermit e => Sys2Proof.Machine.execSetHolidayDegradationPermit e s
  | .setGroupDedication e => Sys2Proof.Machine.execSetGroupDedication e s
  | .setTimestamp e => Sys2Proof.Machine.execSetTimestamp e s
  | .setNumberOfQueues e => Sys2Proof.Machine.execSetNumberOfQueues e s
  | .setInterruptCoalescing e => Sys2Proof.Machine.execSetInterruptCoalescing e s
  | .setInterruptVectorConfiguration e => Sys2Proof.Machine.execSetInterruptVectorConfiguration e s
  | .setAsyncEventConfiguration e => Sys2Proof.Machine.execSetAsyncEventConfiguration e s
  | .setTemperatureThreshold e => Sys2Proof.Machine.execSetTemperatureThreshold e s
  | .namespaceCreate e => Sys2Proof.Machine.execNamespaceCreate e s
  | .namespaceDelete e => Sys2Proof.Machine.execNamespaceDelete e s
  | .namespaceAttach e => Sys2Proof.Machine.execNamespaceAttach e s
  | .namespaceDetach e => Sys2Proof.Machine.execNamespaceDetach e s
  | .formatNvm e => Sys2Proof.Machine.execFormatNvm e s
  | .formatNvmCryptoErase e => Sys2Proof.Machine.execFormatNvmCryptoErase e s
  | .sanitizeCryptoErase e => Sys2Proof.Machine.execSanitizeCryptoErase e s
  | .sanitizeBlockErase e => Sys2Proof.Machine.execSanitizeBlockErase e s
  | .sanitizeOverwrite e => Sys2Proof.Machine.execSanitizeOverwrite e s
  | .sanitizeExitFailureMode e => Sys2Proof.Machine.execSanitizeExitFailureMode e s
  | .formatSanitizeStart => Sys2Proof.Machine.execFormatSanitizeStart s
  | .firmwareImageDownload e img => Sys2Proof.Machine.execFirmwareImageDownload e img s
  | .firmwareCommitReplace e => Sys2Proof.Machine.execFirmwareCommitReplace e s
  | .firmwareCommitReplaceActivate e => Sys2Proof.Machine.execFirmwareCommitReplaceActivate e s
  | .firmwareCommitActivate e => Sys2Proof.Machine.execFirmwareCommitActivate e s
  | .activationSeal => Sys2Proof.Machine.execActivationSeal s
  | .securitySend e => Sys2Proof.Machine.execSecuritySend e s
  | .securityReceive e => Sys2Proof.Machine.execSecurityReceive e s
  | .mediaKeyInjection e tag kek key ok => Sys2Proof.Machine.execMediaKeyInjection e tag kek key ok s
  | .kekInjection e kek key ok => Sys2Proof.Machine.execKekInjection e kek key ok s
  | .keyPerIoEnable e tags => Sys2Proof.Machine.execKeyPerIoEnable e tags s
  | .keyPerIoDisable e => Sys2Proof.Machine.execKeyPerIoDisable e s
  | .pairControlJoin e => Sys2Proof.Machine.execPairControlJoin e s
  | .pairControlUnpair e => Sys2Proof.Machine.execPairControlUnpair e s
  | .pairControlTransfer e => Sys2Proof.Machine.execPairControlTransfer e s
  | .pairControlYield e => Sys2Proof.Machine.execPairControlYield e s
  | .pairControlTake e => Sys2Proof.Machine.execPairControlTake e s
  | .holdUpTestRun e => Sys2Proof.Machine.execHoldUpTestRun e s
  | .holdUpTestReport e => Sys2Proof.Machine.execHoldUpTestReport e s
  | .reshapeTwinPolicy e => Sys2Proof.Machine.execReshapeTwinPolicy e s
  | .reshapeGroupMove e => Sys2Proof.Machine.execReshapeGroupMove e s
  | .reshapeCancel e => Sys2Proof.Machine.execReshapeCancel e s
  | .calendarQueryGroupReport e => Sys2Proof.Machine.execCalendarQueryGroupReport e s
  | .calendarQueryDieSnapshot e => Sys2Proof.Machine.execCalendarQueryDieSnapshot e s
  | .read e => Sys2Proof.Machine.execRead e s
  | .write e => Sys2Proof.Machine.execWrite e s
  | .writeZeroes e => Sys2Proof.Machine.execWriteZeroes e s
  | .zoneAppend e => Sys2Proof.Machine.execZoneAppend e s
  | .flush e => Sys2Proof.Machine.execFlush e s
  | .reportZones e => Sys2Proof.Machine.execReportZones e s
  | .extendedReportZones e => Sys2Proof.Machine.execExtendedReportZones e s
  | .openZone e => Sys2Proof.Machine.execOpenZone e s
  | .closeZone e => Sys2Proof.Machine.execCloseZone e s
  | .finishZone e => Sys2Proof.Machine.execFinishZone e s
  | .resetZone e => Sys2Proof.Machine.execResetZone e s
  | .offlineZone e => Sys2Proof.Machine.execOfflineZone e s
  | .setZoneDescriptorExtension e => Sys2Proof.Machine.execSetZoneDescriptorExtension e s
  | .zoneSendSelectAll e => Sys2Proof.Machine.execZoneSendSelectAll e s
  | .hostDataReceived slot pi => Sys2Proof.Machine.execHostDataReceived slot pi s
  | .recordDurable seq => Sys2Proof.Machine.execRecordDurable seq s
  | .readDataDelivered slot => Sys2Proof.Machine.execReadDataDelivered slot s
  | .unboundBufferGrant slot => Sys2Proof.Machine.execUnboundBufferGrant slot s
  | .unboundWriteShareGrant slot => Sys2Proof.Machine.execUnboundWriteShareGrant slot s
  | .slotBoundary => Sys2Proof.Machine.execSlotBoundary s
  | .periodBoundary => Sys2Proof.Machine.execPeriodBoundary s
  | .deadlineTimerExpiry slot => Sys2Proof.Machine.execDeadlineTimerExpiry slot s
  | .rescuePoint slot => Sys2Proof.Machine.execRescuePoint slot s
  | .progressBeat core => Sys2Proof.Machine.execProgressBeat core s
  | .requestCoreWatchdog core => Sys2Proof.Machine.execRequestCoreWatchdog core s
  | .coreReturnToService core => Sys2Proof.Machine.execCoreReturnToService core s
  | .managementCoreWatchdog core => Sys2Proof.Machine.execManagementCoreWatchdog core s
  | .securityCoreWatchdog => Sys2Proof.Machine.execSecurityCoreWatchdog s
  | .timeCorrection copy reading => Sys2Proof.Machine.execTimeCorrection copy reading s
  | .islandFault island crossing stallAt channel => Sys2Proof.Machine.execIslandFault island crossing stallAt channel s
  | .islandResetComplete island channel => Sys2Proof.Machine.execIslandResetComplete island channel s
  | .suspendAcknowledge die ackNs => Sys2Proof.Machine.execSuspendAcknowledge die ackNs s
  | .dieOperationWatchdog die => Sys2Proof.Machine.execDieOperationWatchdog die s
  | .dieReadComplete slot die fails errs => Sys2Proof.Machine.execDieReadComplete slot die fails errs s
  | .softRetryComplete slot die page plane ok => Sys2Proof.Machine.execSoftRetryComplete slot die page plane ok s
  | .stripeReconstructionComplete slot die erasures nsid lost => Sys2Proof.Machine.execStripeReconstructionComplete slot die erasures nsid lost s
  | .readDisturbCheck die bset errs => Sys2Proof.Machine.execReadDisturbCheck die bset errs s
  | .programComplete die plane pass => Sys2Proof.Machine.execProgramComplete die plane pass s
  | .eraseComplete die plane ok => Sys2Proof.Machine.execEraseComplete die plane ok s
  | .stagingThreshold nsid zone => Sys2Proof.Machine.execStagingThreshold nsid zone s
  | .stagingRowTimeout group => Sys2Proof.Machine.execStagingRowTimeout group s
  | .retentionClockIncrement shifts worn => Sys2Proof.Machine.execRetentionClockIncrement shifts worn s
  | .percentageUsedUpdate => Sys2Proof.Machine.execPercentageUsedUpdate s
  | .checkpointInterval => Sys2Proof.Machine.execCheckpointInterval s
  | .zoneOpenAgeExpiry nsid zone => Sys2Proof.Machine.execZoneOpenAgeExpiry nsid zone s
  | .holdUpTestDue => Sys2Proof.Machine.execHoldUpTestDue s
  | .holdUpInitialFall tUs => Sys2Proof.Machine.execHoldUpInitialFall tUs s
  | .holdUpStopVoltage tUs stepMv => Sys2Proof.Machine.execHoldUpStopVoltage tUs stepMv s
  | .bankCharged => Sys2Proof.Machine.execBankCharged s
  | .bankVoltageCheck mv pIn => Sys2Proof.Machine.execBankVoltageCheck mv pIn s
  | .thermalSample cls first rest => Sys2Proof.Machine.execThermalSample cls first rest s
  | .throttleDeepen => Sys2Proof.Machine.execThrottleDeepen s
  | .throttleRelax => Sys2Proof.Machine.execThrottleRelax s
  | .rateHoldEnd cls => Sys2Proof.Machine.execRateHoldEnd cls s
  | .shutdownPassDeadline => Sys2Proof.Machine.execShutdownPassDeadline s
  | .thermalQuarantineEntry shifts => Sys2Proof.Machine.execThermalQuarantineEntry shifts s
  | .quarantineThermalExit => Sys2Proof.Machine.execQuarantineThermalExit s
  | .minuteRecord powerA powerB => Sys2Proof.Machine.execMinuteRecord powerA powerB s
  | .eventDrain => Sys2Proof.Machine.execEventDrain s
  | .eventJournalWrite => Sys2Proof.Machine.execEventJournalWrite s
  | .eventBucketRefill typ => Sys2Proof.Machine.execEventBucketRefill typ s
  | .stageMeasured stage train badBlobs => Sys2Proof.Machine.execStageMeasured stage train badBlobs s
  | .recoveryComplete ckpt mapOk rises shifts found => Sys2Proof.Machine.execRecoveryComplete ckpt mapOk rises shifts found s
  | .almanacSigning => Sys2Proof.Machine.execAlmanacSigning s
  | .almanacBodyCopy => Sys2Proof.Machine.execAlmanacBodyCopy s
  | .memoryTestRound bank chunks failing => Sys2Proof.Machine.execMemoryTestRound bank chunks failing s
  | .memoryTestCancel use => Sys2Proof.Machine.execMemoryTestCancel use s
  | .patrolScrub corrected => Sys2Proof.Machine.execPatrolScrub corrected s
  | .dramUncorrectableError channel part seq ok => Sys2Proof.Machine.execDramUncorrectableError channel part seq ok s
  | .deroftTrainingAttempt => Sys2Proof.Machine.execDeroftTrainingAttempt s
  | .deroftTrainingStepTimeout => Sys2Proof.Machine.execDeroftTrainingStepTimeout s
  | .deroftLinkUp sets lanes64 lanes32 lanes16 => Sys2Proof.Machine.execDeroftLinkUp sets lanes64 lanes32 lanes16 s
  | .laneFailure lane => Sys2Proof.Machine.execLaneFailure lane s
  | .flitReceived bytes => Sys2Proof.Machine.execFlitReceived bytes s
  | .replayTimeout => Sys2Proof.Machine.execReplayTimeout s
  | .heartbeatSend => Sys2Proof.Machine.execHeartbeatSend s
  | .creditReturn => Sys2Proof.Machine.execCreditReturn s
  | .shareUpdateSend func => Sys2Proof.Machine.execShareUpdateSend func s
  | .keyUpdateDue => Sys2Proof.Machine.execKeyUpdateDue s
  | .peerLost => Sys2Proof.Machine.execPeerLost s
  | .lossDecision samples => Sys2Proof.Machine.execLossDecision samples s
  | .senseFaultSet => Sys2Proof.Machine.execSenseFaultSet s
  | .senseFaultClear => Sys2Proof.Machine.execSenseFaultClear s
  | .pairingTimeout step => Sys2Proof.Machine.execPairingTimeout step s
  | .mirrorRecord h b => Sys2Proof.Machine.execMirrorRecord h b s
  | .mirrorAcknowledgement h oseq func share => Sys2Proof.Machine.execMirrorAcknowledgement h oseq func share s
  | .shareUpdate h func share drain => Sys2Proof.Machine.execShareUpdate h func share drain s
  | .forwardedCommand h op e cls stamp deadline claim all => Sys2Proof.Machine.execForwardedCommand h op e cls stamp deadline claim all s
  | .forwardedCompletion h status dw0 dw1 data => Sys2Proof.Machine.execForwardedCompletion h status dw0 dw1 data s
  | .zoneConfirmation h zone status => Sys2Proof.Machine.execZoneConfirmation h zone status s
  | .allotmentGrant h period grants => Sys2Proof.Machine.execAllotmentGrant h period grants s
  | .handoverOffer h nsid oseq epoch => Sys2Proof.Machine.execHandoverOffer h nsid oseq epoch s
  | .handoverTaken h nsid oseq epoch => Sys2Proof.Machine.execHandoverTaken h nsid oseq epoch s
  | .handoverDepart h kind oseq epoch => Sys2Proof.Machine.execHandoverDepart h kind oseq epoch s
  | .handoverDepartTaken h kind oseq epoch => Sys2Proof.Machine.execHandoverDepartTaken h kind oseq epoch s
  | .noticeHarvest h => Sys2Proof.Machine.execNoticeHarvest h s
  | .noticeQuarantine h => Sys2Proof.Machine.execNoticeQuarantine h s
  | .noticeNvmSubsystemReset h => Sys2Proof.Machine.execNoticeNvmSubsystemReset h s
  | .noticePairingCommit h => Sys2Proof.Machine.execNoticePairingCommit h s
  | .drop h oseq => Sys2Proof.Machine.execDrop h oseq s
  | .dispose h tag => Sys2Proof.Machine.execDispose h tag s
  | .adminSync h op nsid args => Sys2Proof.Machine.execAdminSync h op nsid args s
  | .pairingTable h copy entries result => Sys2Proof.Machine.execPairingTable h copy entries result s
  | .hello h b => Sys2Proof.Machine.execHello h b s
  | .heartbeat h b => Sys2Proof.Machine.execHeartbeat h b s
  | .credit h pri bulk => Sys2Proof.Machine.execCredit h pri bulk s
  | .resyncFrame h f => Sys2Proof.Machine.execResyncFrame h f s
  | .fetchRequest h nsid slba nlb oseq => Sys2Proof.Machine.execFetchRequest h nsid slba nlb oseq s
  | .fetchData h data => Sys2Proof.Machine.execFetchData h data s
  | .reshapeCopy h f => Sys2Proof.Machine.execReshapeCopy h f s
  | .spdmGetVersion transport => Sys2Proof.Machine.execSpdmGetVersion transport s
  | .spdmGetCapabilities transport version => Sys2Proof.Machine.execSpdmGetCapabilities transport version s
  | .spdmNegotiateAlgorithms transport p384 sha384 => Sys2Proof.Machine.execSpdmNegotiateAlgorithms transport p384 sha384 s
  | .spdmGetDigests transport => Sys2Proof.Machine.execSpdmGetDigests transport s
  | .spdmGetCertificate transport slot offset length => Sys2Proof.Machine.execSpdmGetCertificate transport slot offset length s
  | .spdmChallenge transport slot summary nonce => Sys2Proof.Machine.execSpdmChallenge transport slot summary nonce s
  | .spdmGetMeasurements transport index nonce signed twin => Sys2Proof.Machine.execSpdmGetMeasurements transport index nonce signed twin s
  | .spdmKeyExchange transport ok => Sys2Proof.Machine.execSpdmKeyExchange transport ok s
  | .spdmFinish transport ok => Sys2Proof.Machine.execSpdmFinish transport ok s
  | .spdmKeyUpdate transport => Sys2Proof.Machine.execSpdmKeyUpdate transport s
  | .spdmPskExchange transport => Sys2Proof.Machine.execSpdmPskExchange transport s
  | .readNvmeMiDataStructure port typ id => Sys2Proof.Machine.execReadNvmeMiDataStructure port typ id s
  | .nvmSubsystemHealthStatusPoll port clear => Sys2Proof.Machine.execNvmSubsystemHealthStatusPoll port clear s
  | .controllerHealthStatusPoll port start count clear => Sys2Proof.Machine.execControllerHealthStatusPoll port start count clear s
  | .configurationSet port id arg value => Sys2Proof.Machine.execConfigurationSet port id arg value s
  | .configurationGet port id arg => Sys2Proof.Machine.execConfigurationGet port id arg s
  | .vpdRead port offset length => Sys2Proof.Machine.execVpdRead port offset length s
  | .miReset port kind => Sys2Proof.Machine.execMiReset port kind s
  | .tunnelledAdminCommand port opcode e => Sys2Proof.Machine.execTunnelledAdminCommand port opcode e s
  | .basicManagementCommand code => Sys2Proof.Machine.execBasicManagementCommand code s
  | .powerLoss => Sys2Proof.Machine.execPowerLoss s
  | .pairsenseInChange level heldNs => Sys2Proof.Machine.execPairsenseInChange level heldNs s
  | .pllLock => Sys2Proof.Machine.execPllLock s
  | .bootStoreWriteComplete ok => Sys2Proof.Machine.execBootStoreWriteComplete ok s
  | .i3cAddressAssignment dynamic => Sys2Proof.Machine.execI3cAddressAssignment dynamic s

end Sys2Proof.Machine
end

