-- ==== Sys2Proof/Machine/Pins.lean ====
section
/-! DEFINITION. The levels of the module's output pins, as functions of the state (R304, R434, R494). A level is true where the pin is high or released. -/

namespace Sys2Proof.Machine

/-- CLKREQ_N: low whenever the rails are up (R494). -/
def clkreqN (s : State) : Bool := !s.sup.rails

/-- Both indicators are released in Holiday, in Harvest and with the rails off (R494). -/
def ledsReleased (s : State) : Bool := !s.sup.rails || s.md.mode == .holiday || s.md.mode == .harvest

/-- LED_ACT_N: low while a command of any function is in flight, and for 30 ms after it was last set low (R494). -/
def ledActN (s : State) : Bool :=
  ledsReleased s || (s.port.cmds.isEmpty && (adminOpen s).isEmpty && (s.port.ledActAt == 0 || decide (s.port.ledActAt + 30000000 ≤ s.time.dtb)))

/-- LED_FAULT_N: low in Quarantine and under any Critical Warning; toggling at 2 Hz with the device time base while rebuilding (R494). -/
def ledFaultN (s : State) : Bool :=
  ledsReleased s ||
    !(s.md.mode == .quarantine || s.adm.critWarn != 0 || (s.md.rebuilding && decide (s.time.dtb % 500000000 < 250000000)))

/-- ALERT_N: low while any Composite Controller Status bit is set, and in Harvest (R434). -/
def alertN (s : State) : Bool := !s.sup.rails || !(s.adm.ccs != 0 || s.md.mode == .harvest)

/-- PAIRSENSE_OUT (R304). -/
def pairsenseOut (s : State) : Bool := s.sup.rails && s.tw.senseOut

end Sys2Proof.Machine
end

