-- ==== Sys2Proof/WellFormed.lean ====
section
/-! DEFINITION. Which commands a sender can send: every operand inside the range that the spec's encodings and numberings give it. `exec` answers every command; a claim may assume that its operands are well formed. -/

namespace Sys2Proof

/-- One physical function and 127 virtual functions (R74). -/
def funcOk (f : Nat) : Bool := f < 128

/-- Queue identifiers are 16 bits wide (R78). -/
def qidOk (q : Nat) : Bool := q < 65536

/-- The command table has 65,536 slots (R25). -/
def slotOk (t : Nat) : Bool := t < 65536

/-- Dies: 16 channels of 42 on the larger part (R5, R157). -/
def dieOk (d : Nat) : Bool := d < 672

/-- Islands of Table 16.5. -/
def islandOk (i : Nat) : Bool := i < 9

/-- Processors: 24 request cores, 4 management cores, the security core (R465). -/
def coreOk (c : Nat) : Bool := c < 29

/-- Namespace identifiers are 32 bits wide. -/
def nsidOk (n : Nat) : Bool := n < 2^32

/-- Access sizes in bytes (R69). -/
def sizeOk (n : Nat) : Bool := n == 1 || n == 2 || n == 4 || n == 8

/-- Link rates by their code 1 to 4 (Tables 3.1 and 10.1). -/
def rateOk (r : Nat) : Bool := 1 ≤ r && r ≤ 4

/-- Link widths in lanes (Tables 3.1 and 10.1). -/
def widthOk (w : Nat) : Bool := w == 1 || w == 2 || w == 4 || w == 8

/-- A feed voltage in 0.1 V inside the surge rating of 100 V (R503). -/
def feedOk (v : Nat) : Bool := v ≤ 1000

/-- Bytes of a buffer. -/
def bytesOk (l : List Nat) : Bool := l.all (fun b => decide (b < 256))

/-- An admin entry: its function, and the widths of its identifier, NSID and data. -/
def Sqe.wf (e : Sqe) : Bool := funcOk e.func && decide (e.cid < 65536) && nsidOk e.nsid && bytesOk e.data

/-- An I/O entry: its function and queue, the widths of its fields, 1 to 65,536 LBAs. -/
def Io.wf (e : Io) : Bool :=
  funcOk e.func && qidOk e.sqid && decide (e.cid < 65536) && nsidOk e.nsid && decide (e.slba < 2^64)
    && decide (1 ≤ e.nlb) && decide (e.nlb ≤ 65536) && decide (e.numd < 2^32) && decide (e.action < 256)
    && decide (e.option < 256) && bytesOk e.ext

/-- A firmware image: the version's and the SVN's widths, six stages (R356). -/
def Image.wf (i : Image) : Bool :=
  decide (i.major < 256) && decide (i.minor < 256) && decide (i.build < 65536) && decide (i.svn < 256)
    && i.digests.length == 6 && i.named.length == 6 && i.sizes.length == 6

/-- A message header (Table 10.6). -/
def MsgHdr.wf (h : MsgHdr) : Bool := decide (h.typ < 256) && decide (h.tag < 2^32) && decide (h.pepoch < 2^32)

/-- A mirror record's body (Table 9.1). -/
def MirrorBody.wf (b : MirrorBody) : Bool :=
  decide (b.typ < 256) && decide (b.oseq < 2^64) && decide (b.pepoch < 2^32) && nsidOk b.nsid && decide (b.slba < 2^64) && funcOk b.func

/-- A HELLO body (Table 10.11): the part is one of two, the serial numbers are 20 characters or absent. -/
def Hello.wf (b : Hello) : Bool :=
  (b.part == 1 || b.part == 2) && decide (b.mode < 8) && decide (b.pepoch < 2^32)
    && (b.serial.length == 0 || b.serial.length == 20) && (b.lastTwin.length == 0 || b.lastTwin.length == 20)

/-- A heartbeat record (Table 10.9). -/
def Beat.wf (b : Beat) : Bool := decide (b.mode < 8) && decide (b.count < 65536) && decide (b.pepoch < 2^32)

/-- A resync or reshape frame (Table 10.17): the kind, the NSID, at most one data element per LBA. -/
def FrameBody.wf (f : FrameBody) : Bool := decide (f.kind < 256) && nsidOk f.nsid && decide (f.data.length ≤ f.nlb)

/-- Every operand of a command is inside its range. -/
def Instr.wf : Instr → Bool
  | .powerGood feedA feedB plane => feedOk feedA && feedOk feedB && plane.slotid < 8
  | .supplyEvent kind feedA feedB => 1 ≤ kind && kind ≤ 8 && feedOk feedA && feedOk feedB
  | .harvestTrigger feeds pwrdis mateMv _ => feeds.length ≤ 110 && feeds.all (fun x => feedOk x.1 && feedOk x.2) && pwrdis.length == feeds.length && mateMv.length == feeds.length
  | .harvestSeal _ feedA feedB _ _ _ => feedOk feedA && feedOk feedB
  | .harvestBankExhausted step landed => 1 ≤ step && step ≤ 7 && landed < 2^64
  | .perstAsserted | .perstDeasserted | .linkDown | .hotReset | .l1Entry | .l1Exit | .formatSanitizeStart | .activationSeal | .slotBoundary
  | .periodBoundary | .securityCoreWatchdog | .percentageUsedUpdate | .checkpointInterval | .holdUpTestDue | .bankCharged | .throttleDeepen
  | .throttleRelax | .shutdownPassDeadline | .quarantineThermalExit | .eventDrain | .eventJournalWrite | .almanacSigning | .almanacBodyCopy
  | .deroftTrainingAttempt | .deroftTrainingStepTimeout | .replayTimeout | .heartbeatSend | .creditReturn | .keyUpdateDue | .peerLost | .senseFaultSet
  | .senseFaultClear | .powerLoss | .pllLock => true
  | .functionLevelReset func | .ccDisable func | .normalShutdown func | .shutdownUnboundTimeout func | .abruptShutdown func | .nvmSubsystemReset func
  | .suDtbLoRead func | .keepAliveExpiry func | .shareUpdateSend func => funcOk func
  | .hostLinkUp rate width _ => rateOk rate && widthOk width
  | .ccEnable func _ => funcOk func
  | .shutdownSeal _ | .thermalQuarantineEntry _ => true
  | .suPwrbudWrite func _ => funcOk func
  | .registerWrite func bar _ size _ => funcOk func && bar < 8 && sizeOk size
  | .sqTailDoorbell func qid size value | .cqHeadDoorbell func qid size value => funcOk func && qidOk qid && sizeOk size && value < 2^32
  | .holidayExitComplete _ => true
  | .holidayEntry _ | .holidayReentry _ => true
  | .identify e | .getLogPage e | .telemetryHostInitiatedCreate e | .getFeatures e | .abort e | .asynchronousEventRequest e | .keepAlive e
  | .createIoSubmissionQueue e | .createIoCompletionQueue e | .deleteIoSubmissionQueue e | .deleteIoCompletionQueue e | .virtPrimaryFlexibleAllocation e
  | .virtSecondaryOffline e | .virtSecondaryAssign e | .virtSecondaryOnline e | .setPowerManagement e | .setPowerManagementPs4 e
  | .setQueueClassBinding e | .setTenantBudget e | .setPowerBudget e | .setThermalPolicy e | .setMeasurementPolicy e | .setTwinPolicy e
  | .setHolidayDegradationPermit e | .setGroupDedication e | .setTimestamp e | .setNumberOfQueues e | .setInterruptCoalescing e
  | .setInterruptVectorConfiguration e | .setAsyncEventConfiguration e | .setTemperatureThreshold e | .namespaceCreate e | .namespaceDelete e
  | .namespaceAttach e | .namespaceDetach e | .formatNvm e | .formatNvmCryptoErase e | .sanitizeCryptoErase e | .sanitizeBlockErase e
  | .sanitizeOverwrite e | .sanitizeExitFailureMode e | .firmwareCommitReplace e | .firmwareCommitReplaceActivate e | .firmwareCommitActivate e
  | .securitySend e | .securityReceive e | .keyPerIoDisable e | .pairControlJoin e | .pairControlUnpair e | .pairControlTransfer e | .pairControlYield e
  | .pairControlTake e | .holdUpTestRun e | .holdUpTestReport e | .reshapeTwinPolicy e | .reshapeGroupMove e | .reshapeCancel e
  | .calendarQueryGroupReport e | .calendarQueryDieSnapshot e => e.wf
  | .firmwareImageDownload e img => e.wf && img.wf
  | .mediaKeyInjection e tag _ _ _ => e.wf && tag < 65536
  | .kekInjection e _ _ _ => e.wf
  | .keyPerIoEnable e tags => e.wf && tags < 65536
  | .read e | .write e | .writeZeroes e | .zoneAppend e | .flush e | .reportZones e | .extendedReportZones e | .openZone e | .closeZone e
  | .finishZone e | .resetZone e | .offlineZone e | .setZoneDescriptorExtension e | .zoneSendSelectAll e => e.wf && 1 ≤ e.sqid
  | .hostDataReceived slot pi => slotOk slot && pi < 5
  | .recordDurable seq => seq < 2^64
  | .readDataDelivered slot | .unboundBufferGrant slot | .unboundWriteShareGrant slot | .deadlineTimerExpiry slot | .rescuePoint slot => slotOk slot
  | .progressBeat core | .requestCoreWatchdog core | .coreReturnToService core | .managementCoreWatchdog core => coreOk core
  | .timeCorrection copy _ => copy < 40
  | .islandFault island _ _ channel => islandOk island && channel < 32
  | .islandResetComplete island channel => islandOk island && channel < 32
  | .suspendAcknowledge die _ => dieOk die
  | .dieOperationWatchdog die => dieOk die
  | .dieReadComplete slot die _ _ => slot.all slotOk && dieOk die
  | .softRetryComplete slot die page plane _ => slot.all slotOk && dieOk die && page < 2^16 && plane < 4
  | .stripeReconstructionComplete slot die _ nsid _ => slot.all slotOk && dieOk die && nsidOk nsid
  | .readDisturbCheck die bset _ => dieOk die && bset < 2048
  | .programComplete die plane _ | .eraseComplete die plane _ => dieOk die && plane < 4
  | .stagingThreshold nsid _ | .zoneOpenAgeExpiry nsid _ => nsidOk nsid
  | .stagingRowTimeout group => group < 40
  | .retentionClockIncrement _ _ => true
  | .holdUpInitialFall _ => true
  | .holdUpStopVoltage _ _ => true
  | .bankVoltageCheck _ _ => true
  | .thermalSample cls _ _ => cls < 4
  | .rateHoldEnd cls => cls < 2
  | .minuteRecord _ _ => true
  | .eventBucketRefill typ => typ < 65536
  | .stageMeasured stage _ _ => stage < 8
  | .recoveryComplete ckpt _ rises _ found => ckpt < 3 && rises.length ≤ 32 && found.headers.all (fun x => dieOk (x.1 / 2048))
  | .memoryTestRound bank chunks _ => bank < 16 && chunks ≤ 2048
  | .memoryTestCancel use => use.bank < 16 && use.accesses.length ≤ 2 && use.accesses.all (fun a => a.addr < 524288 && 1 ≤ a.len && a.len ≤ 8)
  | .patrolScrub _ => true
  | .dramUncorrectableError channel part seq _ => channel < 4 && 1 ≤ part && part ≤ 5 && seq < 2^64
  | .deroftLinkUp sets a b c => sets.all (fun x => x.1 < 8 && x.2.length == 16) && a < 256 && b < 256 && c < 256
  | .laneFailure lane => lane < 8
  | .flitReceived bytes => bytes.length == 256
  | .lossDecision samples => samples.length == 40
  | .pairingTimeout step => 1 ≤ step && step ≤ 9
  | .mirrorRecord h b => h.wf && b.wf
  | .mirrorAcknowledgement h oseq func _ => h.wf && oseq < 2^64 && funcOk func
  | .shareUpdate h func _ _ => h.wf && funcOk func
  | .forwardedCommand h op e cls _ _ _ _ => h.wf && op < 256 && e.wf && cls < 4
  | .forwardedCompletion h _ _ _ _ => h.wf
  | .zoneConfirmation h _ _ => h.wf
  | .allotmentGrant h _ _ => h.wf
  | .handoverOffer h nsid oseq epoch | .handoverTaken h nsid oseq epoch => h.wf && nsidOk nsid && oseq < 2^64 && epoch < 2^32
  | .handoverDepart h kind oseq epoch | .handoverDepartTaken h kind oseq epoch => h.wf && kind < 8 && oseq < 2^64 && epoch < 2^32
  | .noticeHarvest h | .noticeQuarantine h | .noticeNvmSubsystemReset h | .noticePairingCommit h | .fetchData h _ => h.wf
  | .drop h oseq => h.wf && oseq < 2^64
  | .dispose h tag => h.wf && tag < 2^32
  | .adminSync h op nsid _ => h.wf && op < 65536 && nsidOk nsid
  | .pairingTable h _ _ _ => h.wf
  | .hello h b => h.wf && b.wf
  | .heartbeat h b => h.wf && b.wf
  | .credit h _ _ => h.wf
  | .resyncFrame h f | .reshapeCopy h f => h.wf && f.wf
  | .fetchRequest h nsid _ _ oseq => h.wf && nsidOk nsid && oseq < 2^64
  | .spdmGetVersion transport | .spdmGetDigests transport | .spdmKeyUpdate transport | .spdmPskExchange transport => transport < 3
  | .spdmGetCapabilities transport _ => transport < 3
  | .spdmNegotiateAlgorithms transport _ _ => transport < 3
  | .spdmGetCertificate transport slot _ _ => transport < 3 && slot < 8
  | .spdmChallenge transport slot _ _ => transport < 3 && slot < 8
  | .spdmGetMeasurements transport _ _ _ _ => transport < 3
  | .spdmKeyExchange transport _ | .spdmFinish transport _ => transport < 3
  | .readNvmeMiDataStructure port typ _ => port < 3 && typ < 256
  | .nvmSubsystemHealthStatusPoll port _ => port < 3
  | .controllerHealthStatusPoll port _ _ _ => port < 3
  | .configurationSet port _ _ _ => port < 3
  | .configurationGet port _ _ => port < 3
  | .vpdRead port _ _ => port < 3
  | .miReset port kind => port < 3 && kind < 256
  | .tunnelledAdminCommand port opcode e => port < 3 && opcode < 256 && e.wf
  | .basicManagementCommand _ => true
  | .pairsenseInChange _ _ => true
  | .bootStoreWriteComplete _ => true
  | .i3cAddressAssignment dynamic => dynamic.all (fun a => decide (a < 128))

end Sys2Proof
end

