-- ==== Sys2Proof/Safety.lean ====
section
/-! DEFINITION. What counts as a safe run, in the terms that claims use: the invariant of a state, and what a command leaves as it was. -/

namespace Sys2Proof.Machine

/-- The invariant that every step keeps: the content store is in its canonical form (keys strictly rising, no content equal to an unwritten LBA's), and no more than the eight measurement registers M0 to M7 are written (R357). -/
structure Inv (s : State) : Prop where
  store : KV.Canon {} s.zn.store
  regs : s.boot.regs.length ≤ 8

/-- The mode with what most commands leave alone beside it: mode, previous mode, MODE_SEQ, cause, pair serving, write-through, time discontinuity, the Recovery flags; without the flags that follow from load, the record of an open session, and the Holiday entry's course. -/
abbrev ModeSt.still (m : ModeSt) : ModeSt :=
  { m with
    capped := false, rebuilding := false, resyncing := false, ps4 := none, entering := false, selBefore := 0
    waking := false, adminWake := false, lastAdminAt := 0, cleanOff := false }

/-- The parts that most commands leave alone: the mode with its causes and its write-through and time flags, the boot state, time, the supply and the course of the thermal shut-down. -/
structure Core (c s : State) : Prop where
  md : s.md.still = c.md.still
  boot : s.boot = c.boot
  time : s.time = c.time
  sup : s.sup = c.sup
  shut : s.th.shut = c.th.shut

/-- An admin command's entry is fetched, stamped `stamp`, leaving `s1`, and neither the function, nor the mode, the cause of a Quarantine or the temperatures refuse its row of Tables 2.8 and 2.9. -/
structure Admitted (s : State) (e : Sqe) (pfOnly : Bool) (row : Row) (stamp : Nat) (s1 : State) : Prop where
  fetched : fetch s e.func 0 = some (stamp, s1)
  pf : pfOnly = true → e.func = 0
  legal : adminRefusal s1 row stamp = none

/-- Every LBA of every namespace reads as it did. -/
def SameContent (s t : State) : Prop := ∀ nsid lba, readLba t nsid lba = readLba s nsid lba

/-- The checks of the owning core on a write-bound entry judged in, in the slot it takes (R114): the zone's, in a zoned namespace. -/
def coreChecks (s : State) (e : Io) (j : Judged) (op : IoOp) : Except Status (Nat × State) :=
  let core := if j.ns.zoned then zoneCore s (j.ns.znum (e.slba / zoneSize j.ns.flbas)) else freeCore s
  let s := accept s (freeSlot j.st) (newCmd e op j core)
  if j.ns.zoned then zoneChecks s e j.ns op else .ok (0, s)

/-- The state in which the owning core carries out a zone send judged in: its command holds its slot. -/
def acceptedSend (s : State) (e : Io) (j : Judged) : State :=
  accept s (freeSlot j.st) (newCmd e .zms j (zoneCore s (j.ns.znum (e.slba / zoneSize j.ns.flbas))))

/-- A zone send whose zone change led to `s3` is left in `t`: its record, not yet durable, is of type 10h with the action and the state and extension the zone reached, the command in its slot waits for it, and the zone is as the change left it. -/
structure SendRecorded (j : Judged) (e : Io) (action : Nat) (s3 t : State) : Prop where
  cmd : ∃ c, KV.find t.port.cmds (freeSlot j.st) = some c ∧ c.seq = some s3.jr.seq ∧ c.stage = .dataIn
  record : ∃ r m, KV.find t.jr.recs s3.jr.seq = some r ∧ nsOf s3 e.nsid = some m ∧ r.typ = 0x10 ∧ r.action = action ∧ r.nsid = e.nsid ∧
    r.zidx = e.slba / zoneSize j.ns.flbas ∧ r.arg = (m.zone (e.slba / zoneSize j.ns.flbas)).st.code ∧ r.ext = (m.zone (e.slba / zoneSize j.ns.flbas)).ext ∧
    r.durable = false ∧ r.slot = some (freeSlot j.st)
  zone : ∃ m n, nsOf s3 e.nsid = some m ∧ nsOf t e.nsid = some n ∧ (∀ i, (n.zone i).st = (m.zone i).st ∧ (n.zone i).wp = (m.zone i).wp)
  content : t.zn.store = s3.zn.store

/-- A message of type `typ` reaches this module in Service: the link and the rails are up, its authentication verifies, and it carries the present epoch. -/
structure Reaches (s : State) (h : MsgHdr) (typ : Nat) : Prop where
  link : s.tw.linkUp = true
  rails : s.sup.rails = true
  auth : h.authOk = true
  mode : s.md.mode = .service
  epoch : h.pepoch = s.jr.pepoch.toNat
  typ : h.typ = typ

/-- The state in which a message that reached the module takes its effect: its key phase and its class's counter noted (R302). -/
def noted (s : State) (h : MsgHdr) : State := notePhase s (msgClass h.typ) h.phase

end Sys2Proof.Machine
end

