-- ==== Sys2Proof/Certificates/Slice0/Obligations.lean ====
section
/-! DEFINITION. The statements for the provers: what the commands and a step of the module do, by the rules of spec/. A clause about a next state says what it holds and what it leaves; `Core`, `Reaches`, `Admitted` and the others are in Safety. -/

open Sys2Proof Sys2Proof.Machine

/-- A step runs the command at the front of the queue, first in, first out: `exec` of it on the state with the queue's rest. -/
def Obligations.StepRunsTheFrontCommand : Prop :=
  ∀ (s : State) (c : Instr) (rest : List Instr), s.pending = c :: rest → step s = exec c { s with pending := rest }

/-- On an empty queue a step is one tick of the master counter, 8 ns of the 125 MHz reference (R21; that the idle step is a tick is the model's choice, log 2): the time base advances by 8, an island's copy that is behind it follows and one that is ahead stands still (R22), the cipher engines run on and the DRAM's ranks see the time pass, and nothing else changes. With the rails off and in Holiday the counter stands still (R441) and nothing changes. -/
def Obligations.IdleStepIsOneTick : Prop :=
  (∀ s : State, s.pending = [] → s.sup.rails = true → s.md.mode ≠ .holiday →
    ∃ t, step s = .next t ∧ t.time.dtb = (s.time.dtb + 8) % 2^64 ∧ t.time.copies = s.time.copies.map (fun c => max c t.time.dtb) ∧
      t = { s with time := { s.time with dtb := t.time.dtb, copies := t.time.copies }, it := { s.it with engine := t.it.engine, ranks := t.it.ranks } }) ∧
  (∀ s : State, s.pending = [] → s.sup.rails = false ∨ s.md.mode = .holiday → step s = .next s)

/-- What reset leaves (R41, Tables 2.3, 3.4 to 3.6, R364): mode Measure, SU_MODE 0000_1800h, both feeds in range, no controller enabled, the PF with 64 queue pairs, 65 vectors and online, no VF, nothing measured, no gate closed, no command, no namespace and no content. (What of this is not the spec's is the model's choice: log 4.) -/
def Obligations.ResetLeaves : Prop :=
  suMode State.reset.md = 0x00001800 ∧ State.reset.md.mode = .measure ∧ State.reset.md.writeThrough = true ∧ State.reset.md.timeDisc = true ∧
  (ctrl State.reset 0).cc = 0 ∧ (ctrl State.reset 0).rdy = false ∧ (ctrl State.reset 0).ioq = 64 ∧ (ctrl State.reset 0).vec = 65 ∧ (ctrl State.reset 0).online = true ∧
  (∀ f, 1 ≤ f → ctrl State.reset f = {}) ∧ State.reset.port.vfEnable = false ∧ State.reset.port.rate = 0 ∧ State.reset.port.cmds = [] ∧
  State.reset.boot.regs = [] ∧ State.reset.boot.udsOpen = true ∧ State.reset.boot.devidOpen = true ∧ State.reset.boot.verdict = none ∧
  State.reset.sup.vigil = 0 ∧ State.reset.zn.ns = [] ∧ State.reset.zn.store = [] ∧ State.reset.pending = []

/-- The invariant holds at reset. -/
def Obligations.ResetMeetsTheInvariant : Prop :=
  Inv State.reset

/-- Every step keeps the invariant: the content store stays in canonical form, and never are more than eight registers measured. -/
def Obligations.StepKeepsTheInvariant : Prop :=
  ∀ s t : State, Inv s → step s = .next t → Inv t

/-- Roll-back protection of the whole machine: no step lowers the minimum SVN (R378) or the boot counter (R364). -/
def Obligations.StepNeverLowersSvnOrBoot : Prop :=
  ∀ s t : State, step s = .next t → s.boot.minSvn ≤ t.boot.minSvn ∧ s.boot.boot ≤ t.boot.boot

/-- No command touches the queue of waiting commands or the ordering part (R5). -/
def Obligations.CommandsLeaveQueueAndPart : Prop :=
  ∀ (c : Instr) (s t : State), exec c s = .next t → t.pending = s.pending ∧ t.part = s.part

/-- Power good, from off, with PWRDIS low and the module mated: a feed at or above 36 V starts the rails; the module is in Measure under the next boot number with write-through and time discontinuity raised, the time base and the bank at 0, no command, nothing measured and the content as it was (R41, R364, R435, R489); with both feeds below 36 V, PWRDIS high or the mate gone nothing starts. The other supply events: a loss of supply where no Harvest starts switches the rails off and changes only the supply, the host port and the twin link, so writes nothing to flash (R44); a feed's crossing updates the measured feeds and their OK bits and changes neither mode nor content, and beyond the 100 V surge rating the model stops with a fault (R491, R503). (What of this is not the spec's is the model's choice: log 4.) -/
def Obligations.SupplyEvents : Prop :=
  (∀ (s : State) (a b slot : Nat), s.sup.rails = false → (360 ≤ a ∨ 360 ≤ b) →
    ∃ t, exec (.powerGood a b ⟨slot, false, true⟩) s = .next t ∧
      t.sup.rails = true ∧ t.sup.feedA = a ∧ t.sup.feedB = b ∧ t.sup.slotid = BitVec.ofNat 3 slot ∧ t.sup.bankMv = 0 ∧ t.sup.vigil = 0 ∧
      t.md.mode = .measure ∧ t.md.writeThrough = true ∧ t.md.timeDisc = true ∧ t.time.dtb = 0 ∧
      t.boot.boot = s.boot.boot + 1 ∧ t.boot.cause = 0 ∧ t.boot.regs = [] ∧ t.boot.minSvn = s.boot.minSvn ∧
      t.port.cmds = [] ∧ t.keys.keks = [] ∧ SameContent s t) ∧
  (∀ (s : State) (a b slot : Nat) (pwrdis mated : Bool), s.sup.rails = false → (a < 360 ∧ b < 360) ∨ pwrdis = true ∨ mated = false →
    exec (.powerGood a b ⟨slot, pwrdis, mated⟩) s = .next s) ∧
  (∀ s : State, s.sup.rails = true → harvests s = false → s.md.mode ≠ .harvest →
    ∃ t, exec .powerLoss s = .next t ∧ t = { s with sup := t.sup, port := t.port, tw := t.tw } ∧
      t.sup.rails = false ∧ t.port.rate = 0 ∧ t.port.credits = 0 ∧ t.tw.linkUp = false) ∧
  (∀ (s : State) (kind a b : Nat), s.sup.rails = true → a ≤ 1000 → b ≤ 1000 →
    ∃ t, exec (.supplyEvent kind a b) s = .next t ∧
      t.sup = { s.sup with feedA := a, feedB := b, aOk := decide (360 ≤ a), bOk := decide (360 ≤ b) } ∧
      t.md.mode = s.md.mode ∧ t.zn = s.zn ∧ t.jr = s.jr ∧ t.boot = s.boot) ∧
  (∀ (s : State) (kind a b : Nat), s.sup.rails = true → 1000 < a ∨ 1000 < b → exec (.supplyEvent kind a b) s = .fault .overAbsoluteMaximum)

/-- Link events (R62, R58 to R61, Table 3.1). PERST#, a link down and a hot reset leave every controller disabled and not ready, clear VF Enable, take the link down and leave the mode, the measurements, the supply and time as they were; training follows a PERST# release; a link that comes up takes the rate, the width, the host credits of its row of Table 3.1 and the lane order, and only the host port changes; L1 is entered only where the host enabled it, the link is up, nothing is open or waiting to be fetched and the port has been quiet for 1 ms. (What of this is not the spec's is the model's choice: log 28, 111.) -/
def Obligations.LinkEvents : Prop :=
  (∀ s : State, ∃ t, exec .perstAsserted s = .next t ∧ t.port.perst = true ∧ t.port.rate = 0 ∧ t.port.width = 0 ∧ t.port.credits = 0 ∧
    t.port.vfEnable = false ∧ t.port.numVfs = 0 ∧ t.port.l1Enabled = false ∧ t.port.training = false ∧
    (∀ f, (ctrl t f).en = false ∧ (ctrl t f).rdy = false) ∧ Core s t) ∧
  (∀ s : State, exec .perstDeasserted s = .next { s with port := { s.port with perst := false, training := s.sup.rails } }) ∧
  (∀ s : State, ∃ t, exec .linkDown s = .next t ∧ t.port.rate = 0 ∧ t.port.width = 0 ∧ t.port.credits = 0 ∧ t.port.vfEnable = false ∧
    t.port.training = true ∧ (∀ f, (ctrl t f).en = false ∧ (ctrl t f).rdy = false) ∧ Core s t) ∧
  (∀ s : State, ∃ t, exec .hotReset s = .next t ∧ t.port.rate = 0 ∧ t.port.credits = 0 ∧ t.port.vfEnable = false ∧ t.port.training = true ∧
    (∀ f, (ctrl t f).en = false ∧ (ctrl t f).rdy = false) ∧ Core s t) ∧
  (∀ (s : State) (rate width row : Nat) (flit rev : Bool), linkRow rate width = some row → s.sup.rails = true → s.port.perst = false → s.boot.verdict ≠ some 3 →
    exec (.hostLinkUp rate width ⟨flit, rev⟩) s = .next { s with port := { s.port with
      rate := rate, width := width, flit := flit || rate == 4, credits := nth [2048, 1024, 512, 256, 128, 64, 32] row, training := false, inL1 := false, reversed := rev,
      retrains := s.port.retrains + (if s.port.everUp then 1 else 0), everUp := true } }) ∧
  (∀ s : State, exec .l1Entry s = .next { s with port := { s.port with inL1 := s.port.inL1 || (s.port.l1Enabled && s.port.rate != 0 && s.port.cmds.isEmpty &&
    (waitingStamps s).isEmpty && (adminOpen s).isEmpty && decide (s.port.quietAt + 1000000 ≤ s.time.dtb)) } }) ∧
  (∀ s : State, exec .l1Exit s = .next { s with port := { s.port with inL1 := false } })

/-- A controller reset (R62 to R65, R75). By a Function Level Reset of a virtual function and by CC.EN cleared, that controller is disabled and not ready with its shutdown status 0, its count of doorbell errors is 0 and no Asynchronous Event Request is outstanding, none of its queues is left, and no zone stays open on its account; a Function Level Reset also clears its admin queue registers, which CC.EN cleared leaves. The PF's Function Level Reset leaves every controller disabled and not ready and clears VF Enable. An NVM Subsystem Reset written to any function leaves every controller disabled and not ready with NSSRO set and no zone open, clears VF Enable and takes the link down. The mode, the measurements, the supply and time are untouched by each. (What of this is not the spec's is the model's choice: log 8.) -/
def Obligations.ControllerResets : Prop :=
  (∀ (s : State) (f : Nat), f ≠ 0 → ∃ t, exec (.functionLevelReset f) s = .next t ∧
    (ctrl t f).en = false ∧ (ctrl t f).rdy = false ∧ (ctrl t f).shst = 0 ∧ (ctrl t f).aqa = 0 ∧ (ctrl t f).asq = 0 ∧ (ctrl t f).acq = 0 ∧
    (ctrl t f).dbCount = 0 ∧ (ctrl t f).aers = [] ∧
    (∀ q, q < 65536 → KV.find t.port.sqs (qkey f q) = none ∧ KV.find t.port.cqs (qkey f q) = none) ∧
    (∀ p ∈ t.zn.ns, ∀ z ∈ p.2.zones, z.2.opened = true → z.2.openFunc ≠ some f) ∧ Core s t) ∧
  (∀ (s : State) (f : Nat), (ctrl s f).en = true → ∃ t, exec (.ccDisable f) s = .next t ∧
    (ctrl t f).en = false ∧ (ctrl t f).rdy = false ∧ (ctrl t f).shst = 0 ∧ (ctrl t f).dbCount = 0 ∧ (ctrl t f).aers = [] ∧
    (ctrl t f).aqa = (ctrl s f).aqa ∧ (ctrl t f).asq = (ctrl s f).asq ∧ (ctrl t f).acq = (ctrl s f).acq ∧
    (∀ q, q < 65536 → KV.find t.port.sqs (qkey f q) = none ∧ KV.find t.port.cqs (qkey f q) = none) ∧
    (∀ p ∈ t.zn.ns, ∀ z ∈ p.2.zones, z.2.opened = true → z.2.openFunc ≠ some f) ∧ Core s t) ∧
  (∀ s : State, ∃ t, exec (.functionLevelReset 0) s = .next t ∧ (∀ f, (ctrl t f).en = false ∧ (ctrl t f).rdy = false) ∧ t.port.vfEnable = false ∧
    t.port.numVfs = 0 ∧ Core s t) ∧
  (∀ (s : State) (f : Nat), f < 128 → ∃ t, exec (.nvmSubsystemReset f) s = .next t ∧ t.port.rate = 0 ∧ t.port.vfEnable = false ∧
    (∀ g, (ctrl t g).en = false ∧ (ctrl t g).rdy = false) ∧ (∀ g, g < 128 → (ctrl t g).nssro = true) ∧
    (∀ p ∈ t.zn.ns, ∀ z ∈ p.2.zones, z.2.opened = false) ∧ Core s t)

/-- CC.EN written (R70), on a controller that is online, over a link that is up. Where CC.CSS is not 110b, CC.MPS is above 4, CC.AMS is not 000b, CC.IOSQES is not 6 or CC.IOCQES is not 4, setting EN sets CSTS.CFS, leaves CSTS.RDY at 0 and changes no other controller and nothing outside the controllers. With every field as R70 asks, setting EN raises no CFS. Writing EN to 0 clears CSTS.CFS. -/
def Obligations.EnableChecksCc : Prop :=
  (∀ (s : State) (f : Nat) (cc : BitVec 32), (ctrl s f).en = false → (ctrl s f).online = true → f < 128 → s.port.rate ≠ 0 →
    fld cc 4 3 ≠ 6 ∨ 4 < fld cc 7 4 ∨ fld cc 11 3 ≠ 0 ∨ fld cc 16 4 ≠ 6 ∨ fld cc 20 4 ≠ 4 →
    ∃ t, exec (.ccEnable f cc) s = .next t ∧ (ctrl t f).en = true ∧ (ctrl t f).cfs = true ∧ (ctrl t f).rdy = false ∧
      (∀ g, g ≠ f → ctrl t g = ctrl s g) ∧ t = { s with port := { s.port with ctrls := t.port.ctrls } }) ∧
  (∀ (s : State) (f : Nat) (cc : BitVec 32), (ctrl s f).en = false → (ctrl s f).cfs = false → (ctrl s f).online = true → f < 128 → s.port.rate ≠ 0 →
    fld cc 4 3 = 6 → fld cc 7 4 ≤ 4 → fld cc 11 3 = 0 → fld cc 16 4 = 6 → fld cc 20 4 = 4 →
    ∃ t, exec (.ccEnable f cc) s = .next t ∧ (ctrl t f).en = true ∧ (ctrl t f).cfs = false) ∧
  (∀ (s : State) (f : Nat), (ctrl s f).en = true → ∃ t, exec (.ccDisable f) s = .next t ∧ (ctrl t f).cfs = false ∧ (ctrl t f).en = false)

/-- Shutdown notifications (R66): a normal one reports SHST 01b while a command of the function is open and 10b otherwise; an abrupt one ends in 10b; after the time R66 gives the Unbound commands, a normal one with no Unbound command open reports 10b once nothing else is open. Enabling (R52): a controller enabled with valid fields has its shutdown status 0, its admin queue pair made with the sizes AQA gives (NVMe 2.0, PRESUMED, log 8), and is ready where its point of R52 has come. Registers (R12, R68, R69, R71 to R73, Table 3.4): the power limit is taken on the PF, rounded as R72 says, and a VF's write is ignored; a read of SU_DTB_LO gives the low half and captures the high half of the host island's time; a 4-byte write of CC sets its writable bits, reserved ones taken as 0, and an 8-byte write of ASQ or ACQ its address, on the writer's controller alone; a write that is not aligned to its size changes nothing. (What of this is not the spec's is the model's choice: log 8, 28.) -/
def Obligations.RegistersAndShutdown : Prop :=
  (∀ (s : State) (f : Nat), f < 128 → (ctrl s f).en = true → (ctrl s f).shst = 0 → ∃ t, exec (.normalShutdown f) s = .next t ∧
    (ctrl t f).shst = (if openOf s f then 1 else 2) ∧ (ctrl t f).en = true ∧ (∀ g, g ≠ f → ctrl t g = ctrl s g) ∧ t = { s with port := { s.port with ctrls := t.port.ctrls } }) ∧
  (∀ (s : State) (f : Nat), f < 128 → (ctrl s f).en = true → ∃ t, exec (.abruptShutdown f) s = .next t ∧ (ctrl t f).shst = 2 ∧ Core s t) ∧
  (∀ (s : State) (f : Nat), (ctrl s f).shst = 1 → ∃ t, exec (.shutdownUnboundTimeout f) s = .next t ∧ Core s t ∧
    (((slotsOf s f).filter (fun sl => (KV.find s.port.cmds sl).any (fun c => c.cls == .unbound))) = [] →
      (ctrl t f).shst = (if openOf s f then 1 else 2) ∧ t.port.cmds = s.port.cmds)) ∧
  (∀ (s : State) (f : Nat) (cc : BitVec 32), (ctrl s f).en = false → (ctrl s f).cfs = false → (ctrl s f).online = true → f < 128 → s.port.rate ≠ 0 →
    fld cc 4 3 = 6 → fld cc 7 4 ≤ 4 → fld cc 11 3 = 0 → fld cc 16 4 = 6 → fld cc 20 4 = 4 →
    ∃ t, exec (.ccEnable f cc) s = .next t ∧ (ctrl t f).shst = 0 ∧
      KV.find t.port.sqs (qkey f 0) = some { size := fld (ctrl s f).aqa 0 12 + 1, cqid := 0 } ∧
      KV.find t.port.cqs (qkey f 0) = some { size := fld (ctrl s f).aqa 16 12 + 1 } ∧
      ((ctrl t f).rdy = true ↔ s.md.mode ≠ .measure ∧ (cc.getLsbD 24 = true ∨ s.boot.firstReady.isSome = true ∨ s.md.mode = .service ∨ s.md.mode = .solo ∨ s.md.mode = .quarantine)) ∧
      t = { s with port := t.port, adm := t.adm }) ∧
  (∀ (s : State) (v : BitVec 32), ∃ t, exec (.suPwrbudWrite 0 v) s = .next t ∧ t.pw.limit = roundLimit (fld v 8 8) ∧ t.pw.sel = s.pw.sel ∧
    t.pw.limitSaved = s.pw.limitSaved ∧ Core s t ∧ t.media = s.media ∧ t.jr = s.jr ∧ SameContent s t) ∧
  (∀ (s : State) (f : Nat) (v : BitVec 32), f ≠ 0 → exec (.suPwrbudWrite f v) s = .next s) ∧
  (∀ (s : State) (f : Nat), f < 128 → exec (.suDtbLoRead f) s = .next { s with port := { s.port with
    readOut := BitVec.ofNat 64 (hostTime s % 2^32), dtbHi := BitVec.ofNat 32 (hostTime s / 2^32) } }) ∧
  (∀ (s : State) (f : Nat) (v : BitVec 64), f < 128 → ∃ t, exec (.registerWrite f 0 0x14 4 v) s = .next t ∧
    (ctrl t f).cc = ((BitVec.ofNat 32 v.toNat &&& 0x01FF3FF0) ||| ((ctrl s f).cc &&& 0x0000C001)) ∧ (∀ g, g ≠ f → ctrl t g = ctrl s g) ∧
    t = { s with port := { s.port with ctrls := t.port.ctrls } }) ∧
  (∀ (s : State) (f : Nat) (v : BitVec 64), f < 128 → ∃ t, exec (.registerWrite f 0 0x28 8 v) s = .next t ∧ (ctrl t f).asq = queueBase v ∧
    (ctrl t f).acq = (ctrl s f).acq ∧ (∀ g, g ≠ f → ctrl t g = ctrl s g) ∧ t = { s with port := { s.port with ctrls := t.port.ctrls } }) ∧
  (∀ (s : State) (f : Nat) (v : BitVec 64), f < 128 → ∃ t, exec (.registerWrite f 0 0x30 8 v) s = .next t ∧ (ctrl t f).acq = queueBase v ∧
    (ctrl t f).asq = (ctrl s f).asq ∧ (∀ g, g ≠ f → ctrl t g = ctrl s g) ∧ t = { s with port := { s.port with ctrls := t.port.ctrls } }) ∧
  (∀ (s : State) (f bar offset size : Nat) (v : BitVec 64), f < 128 → bar ≠ 7 → size ≠ 0 → offset % size ≠ 0 → exec (.registerWrite f bar offset size v) s = .next s)

/-- Doorbells (R82, R49). A submission tail with room makes the entries up to it visible, stamped with the time base now; a completion head not past the tail is taken; a tail at or past the queue's size changes no queue, is counted and named in SU_DBERR. In Holiday a doorbell of a queue that exists is captured in it, and a submission doorbell wakes the module. (What of this is not the spec's is the model's choice: log 7, 116.) -/
def Obligations.Doorbells : Prop :=
  (∀ (s : State) (f qid v : Nat) (q : Sq), (ctrl s f).rdy = true → s.md.mode ≠ .holiday → s.md.adminWake = false → KV.find s.port.sqs (qkey f qid) = some q →
    v < q.size → (v + q.size - q.tail) % q.size ≠ 0 → q.stamps.length + (v + q.size - q.tail) % q.size < q.size →
    exec (.sqTailDoorbell f qid 4 v) s = .next { s with port := { s.port with quietAt := s.time.dtb, sqs := KV.set s.port.sqs (qkey f qid) { q with
      tail := v, stamps := q.stamps ++ List.replicate ((v + q.size - q.tail) % q.size) s.time.dtb, locked := true } } }) ∧
  (∀ (s : State) (f qid v : Nat) (q : Cq), (ctrl s f).rdy = true → s.md.mode ≠ .holiday → KV.find s.port.cqs (qkey f qid) = some q →
    v < q.size → (v + q.size - q.head) % q.size ≤ (q.tail + q.size - q.head) % q.size →
    exec (.cqHeadDoorbell f qid 4 v) s = .next { s with port := { s.port with quietAt := s.time.dtb, cqs := KV.set s.port.cqs (qkey f qid) { q with head := v } } }) ∧
  (∀ (s : State) (f qid v : Nat) (q : Sq), (ctrl s f).rdy = true → s.md.mode ≠ .holiday → s.md.adminWake = false → KV.find s.port.sqs (qkey f qid) = some q →
    q.size ≤ v → ∃ t, exec (.sqTailDoorbell f qid 4 v) s = .next t ∧ (ctrl t f).dbCount = (ctrl s f).dbCount + 1 ∧ (ctrl t f).dbLast = BitVec.ofNat 16 qid ∧
      t.port.sqs = s.port.sqs ∧ Core s t) ∧
  (∀ (s : State) (f qid v : Nat) (q : Sq), (ctrl s f).rdy = true → s.md.mode = .holiday → KV.find s.port.sqs (qkey f qid) = some q →
    ∃ t, exec (.sqTailDoorbell f qid 4 v) s = .next t ∧ t.md.waking = true ∧ KV.find t.port.sqs (qkey f qid) = some { q with captured := some v } ∧
      t = { s with md := t.md, port := { s.port with sqs := t.port.sqs } }) ∧
  (∀ (s : State) (f qid v : Nat) (q : Cq), (ctrl s f).rdy = true → s.md.mode = .holiday → KV.find s.port.cqs (qkey f qid) = some q →
    ∃ t, exec (.cqHeadDoorbell f qid 4 v) s = .next t ∧ KV.find t.port.cqs (qkey f qid) = some { q with captured := some v } ∧
      t = { s with port := { s.port with cqs := t.port.cqs } })

/-- A Harvest (R329, R338, R339, Table 11.5): in a mode that harvests, a trigger that holds over its samples takes the module to Harvest, remembers the mode it came from and the trigger, takes the feeds of the last sample, switches the charger off and keeps the rails on, leaves no command open and no program queued, and drops the firmware write and the activation under way, a signing one marked dead. The end of a Harvest (R330, R341, R344): the seal is written with the mode, the trigger and the boot it belongs to and the number of records; with a feed present, PWRDIS deasserted and the mate there the module enters Measure under the next boot number, else its rails fall, with every record landed and the content as it was. A bank exhausted before the seal leaves an unsealed Harvest with its manifest from step 4 on, and the rails fall. The shutdown seal (R345): with at least one controller enabled and all of them at SHST 10b, a module in Service, Solo, Pairing or Quarantine lands every record and writes a seal of kind 2; the mode stays. (What of this is not the spec's is the model's choice: log 45.) -/
def Obligations.HarvestsAndSeals : Prop :=
  (∀ (s : State) (feeds : List (Nat × Nat)) (pwrdis : List Bool) (mateMv : List Nat) (samples : List SupplySample) (ticks : Nat), s.sup.rails = true → harvests s = true → samples = supplySamples feeds pwrdis mateMv → triggerCause samples ≠ 0 →
    ∃ t, exec (.harvestTrigger feeds pwrdis mateMv ticks) s = .next t ∧ t.md.mode = .harvest ∧
      t.sup.hvFrom = s.md.mode.code ∧ t.sup.hvTrigger = triggerCode (triggerCause samples) ∧ t.sup.charger = false ∧ t.sup.rails = true ∧
      t.sup.feedA = min (samples.getLast?.getD {}).feedA 1023 ∧ t.sup.feedB = min (samples.getLast?.getD {}).feedB 1023 ∧ t.port.cmds = [] ∧ t.cal.progs = [] ∧
      t.boot = { s.boot with signDead := s.boot.signDead || s.boot.signPending, pieces := [], staged := none, activating := none, alsoActivating := [], writing := [] }) ∧
  (∀ (s : State) (v a b : Nat) (shifts : List Nat), s.md.mode = .harvest → (360 ≤ a ∨ 360 ≤ b) →
    ∃ t sl, exec (.harvestSeal v a b false true shifts) s = .next t ∧ t.md.mode = .measure ∧ t.boot.cause = 2 ∧ t.boot.boot = s.boot.boot + 1 ∧
      t.sup.sealRec = some sl ∧ sl.kind = 1 ∧ sl.sealed = true ∧ sl.fromMode = s.sup.hvFrom ∧ sl.trigger = s.sup.hvTrigger ∧
      sl.boot = s.boot.boot ∧ sl.highSeq = s.jr.seq - 1 ∧ sl.records = s.jr.recs.length) ∧
  (∀ (s : State) (v a b : Nat) (pwrdis mated : Bool) (shifts : List Nat), s.md.mode = .harvest → ¬((360 ≤ a ∨ 360 ≤ b) ∧ pwrdis = false ∧ mated = true) →
    ∃ t sl, exec (.harvestSeal v a b pwrdis mated shifts) s = .next t ∧ t.sup.rails = false ∧ t.sup.bankMv = 0 ∧ t.md.cleanOff = true ∧
      (∀ p ∈ t.jr.recs, p.2.landed = true) ∧ t.boot = s.boot ∧ SameContent s t ∧
      t.sup.sealRec = some sl ∧ sl.kind = 1 ∧ sl.sealed = true ∧ sl.fromMode = s.sup.hvFrom ∧ sl.trigger = s.sup.hvTrigger ∧ sl.boot = s.boot.boot ∧ sl.records = s.jr.recs.length) ∧
  (∀ (s : State) (step landed : Nat), s.md.mode = .harvest →
    ∃ t sl, exec (.harvestBankExhausted step landed) s = .next t ∧ t.sup.rails = false ∧ t.sup.bankMv = 0 ∧ t.md.cleanOff = false ∧
      t.sup.unsealed = some sl ∧ sl.sealed = false ∧ sl.manifest = decide (4 ≤ step) ∧ t.sup.sealRec = none ∧ t.boot = s.boot ∧
      (4 ≤ step → SameContent s t)) ∧
  (∀ (s : State) (shifts : List Nat), (s.md.mode = .service ∨ s.md.mode = .solo ∨ s.md.mode = .pairing ∨ s.md.mode = .quarantine) →
    (s.port.ctrls.filter (fun c => c.2.en)) ≠ [] → (∀ c ∈ s.port.ctrls, c.2.en = true → c.2.shst = 2) →
    ∃ t sl, exec (.shutdownSeal shifts) s = .next t ∧ t.md.cleanOff = true ∧ t.jr.session = false ∧ (∀ p ∈ t.jr.recs, p.2.landed = true) ∧
      t.sup.sealRec = some sl ∧ sl.kind = 2 ∧ sl.sealed = true ∧ t.md.mode = s.md.mode ∧ t.boot = s.boot)

/-- The hold-up test (R333 to R335, R278): due after 1,440 minutes it starts in Service or Solo with the bank at 69.5 V or more and no sensor at warn, the charger off; the 0.5 V fall gives the capacitance; the stop voltage gives C, ESR and U with the charger on again; at 70 V the test ends, stored, the minutes since the last at 0. The bank's voltage outside a test (R332): once the bank has been at 70 V, a voltage below 66.0 V takes the usable energy from that voltage and sizes the journal by it; from 69.5 V on the full energy is usable again. -/
def Obligations.HoldUpBank : Prop :=
  (∀ s : State, 1440 ≤ s.sup.lastTest → s.sup.test = .idle → s.sup.rails = true → testAllowed s = true →
    exec .holdUpTestDue s = .next { s with sup := { s.sup with test := .falling, charger := false, testVigil := s.sup.vigil } }) ∧
  (∀ s : State, 1440 ≤ s.sup.lastTest → s.sup.test = .idle → s.sup.rails = true → testAllowed s = false →
    exec .holdUpTestDue s = .next { s with sup := { s.sup with test := .waiting } }) ∧
  (∀ (s : State) (us : Nat), s.sup.test = .falling → exec (.holdUpInitialFall us) s = .next { s with sup := { s.sup with
    test := .discharging, capEst := us * 25 / 1000, vStopDv := stopVoltage (us * 25 / 1000) s.sup.esrMohm (if s.sup.vigil = 0 then 0 else needCj s.sup.vigil) } }) ∧
  (∀ (s : State) (us mv : Nat), s.sup.test = .discharging → s.sup.vStopDv < 700 → ∃ t, exec (.holdUpStopVoltage us mv) s = .next t ∧
    t.sup.test = .recharging ∧ t.sup.charger = true ∧ t.sup.esrMohm = mv / 2 ∧ t.sup.capUf = us * 125 / (10 * (70000 - s.sup.vStopDv * 100)) ∧
    t.sup.usableDj = energyDj t.sup.capUf t.sup.esrMohm 70000 ∧ t.sup.vigil = sizeFor t.sup.usableDj ∧ (t.md.writeThrough = true ↔ t.sup.vigil = 0) ∧
    t.md.mode = s.md.mode ∧ t.boot = s.boot) ∧
  (∀ s : State, s.sup.rails = true → s.sup.charger = true → s.md.mode ≠ .harvest → s.sup.test = .recharging →
    ∃ t, exec .bankCharged s = .next t ∧ t.sup.test = .idle ∧ t.sup.lastTest = 0 ∧ t.sup.bankMv = 70000 ∧
      t.sup.lastResult = { s.sup.testResult with at_ := s.time.dtb } ∧ t.sup.testWaiters = [] ∧ t.md.mode = s.md.mode ∧ t.boot = s.boot) ∧
  (∀ s : State, s.sup.rails = true → s.sup.charger = true → s.md.mode ≠ .harvest → s.sup.first70 = false → s.sup.measured = false → s.sup.test = .idle →
    ∃ t, exec .bankCharged s = .next t ∧ t.sup.test = .falling ∧ t.sup.charger = false ∧ t.sup.first70 = true ∧ t.sup.bankMv = 70000) ∧
  (∀ (s : State) (mv p : Nat), s.sup.rails = true → s.md.mode ≠ .harvest → s.sup.test = .idle → s.sup.first70 = true → s.sup.measured = true → mv < 66000 →
    ∃ t, exec (.bankVoltageCheck mv p) s = .next t ∧ t.sup.bankMv = mv ∧ t.sup.pIn = p % 4096 ∧ t.sup.belowSixtySix = true ∧
      t.sup.usableDj = energyDj s.sup.capUf s.sup.esrMohm mv ∧ t.sup.vigil = sizeFor t.sup.usableDj ∧ (t.md.writeThrough = true ↔ t.sup.vigil = 0) ∧
      t.md.mode = s.md.mode) ∧
  (∀ (s : State) (mv p : Nat), s.sup.rails = true → s.md.mode ≠ .harvest → s.sup.test = .idle → s.sup.first70 = true → s.sup.measured = true →
    s.sup.belowSixtySix = true → 69500 ≤ mv →
    ∃ t, exec (.bankVoltageCheck mv p) s = .next t ∧ t.sup.bankMv = mv ∧ t.sup.belowSixtySix = false ∧
      t.sup.usableDj = energyDj s.sup.capUf s.sup.esrMohm 70000 ∧ t.sup.vigil = sizeFor t.sup.usableDj ∧ t.md.mode = s.md.mode)

/-- Holiday (R46, R48 to R51, R460, R464, Table 15.11): with the preparation done and nothing to depart from, the entry under a PS4 selected, and the re-entry 10 ms after an administrative wake, latch the time base; the entry stops the calendar and takes the twin link down; a pulse on PAIRSENSE_IN of 0.5 to 2 us wakes; the exit resumes time at the latched value plus the ticks elapsed, opens the 2 ms rejection window, and goes to Pairing where Holiday was entered from Service, else to Solo; the PLL locks again. (What of this is not the spec's is the model's choice: log 3, 46.) -/
def Obligations.HolidayEntryAndExit : Prop :=
  (∀ (s : State) (tick : Nat), (s.md.ps4.isSome = true ∨ s.md.entering = true) → s.md.mode.operates = true → entryReady s = true → mustDepart s = false →
    ∃ t, exec (.holidayEntry tick) s = .next t ∧ t.md.mode = .holiday ∧ t.md.prev = s.md.mode ∧ t.md.holidayFrom = s.md.mode ∧ t.md.ps4 = none ∧ t.md.waking = false ∧
      t.time.latchDtb = s.time.dtb ∧ t.time.latchTick = tick ∧ t.cal.running = false ∧ t.tw.linkUp = false ∧ t.boot = s.boot) ∧
  (∀ (s : State) (tick : Nat), s.md.adminWake = true → s.md.mode.operates = true → s.md.lastAdminAt + 10000000 ≤ s.time.dtb → entryReady s = true →
    holidayPermitted s = true → mustDepart s = false → ∃ t, exec (.holidayReentry tick) s = .next t ∧ t.md.mode = .holiday ∧ t.md.adminWake = false ∧
      t.time.latchDtb = s.time.dtb ∧ t.boot = s.boot) ∧
  (∀ (s : State) (held : Nat), s.md.mode = .holiday → s.sup.rails = true → 500 ≤ held → held ≤ 2000 → ∃ t, exec (.pairsenseInChange true held) s = .next t ∧
    t.tw.senseIn = true ∧ t.md = { s.md with waking := true, adminWake := false } ∧ t = { s with md := t.md, tw := t.tw }) ∧
  (∀ (s : State) (level : Bool) (held : Nat), s.md.mode ≠ .holiday → ∃ t, exec (.pairsenseInChange level held) s = .next t ∧ t.tw.senseIn = level ∧ t = { s with tw := t.tw }) ∧
  (∀ (s : State) (ticks : Nat), s.md.mode = .holiday → s.md.waking = true → ∃ t, exec (.holidayExitComplete ticks) s = .next t ∧
    t.md.mode = (if s.md.holidayFrom = .service then .pairing else .solo) ∧ t.md.prev = .holiday ∧ t.md.waking = false ∧
    t.time.dtb = s.time.latchDtb + ticks * 30517578125 / 1000000 ∧ t.md.rejectUntil = t.time.dtb + 2000000 ∧ t.md.pairServing = decide (s.md.holidayFrom = .service)) ∧
  (∀ s : State, s.sup.rails = true → s.md.mode ≠ .holiday ∨ s.md.waking = true →
    exec .pllLock s = .next { s with time := { s.time with pllLocked := true, coreMhz := 2000, waitStates := 16 } })

/-- Power states (R72, R48): Set Features Power Management takes PS0 to PS3 and posts success; PS4 where Holiday is not permitted is refused with C4h and the mode's code, so is PS4 while another PS4 or a firmware activation is pending (log 119); where it is permitted it is remembered with its sender for the entry, and the erases that run are aborted. (What of this is not the spec's is the model's choice: log 47.) -/
def Obligations.PowerManagement : Prop :=
  (∀ (s s1 : State) (e : Sqe) (st : Nat), Admitted s e false .ps03 st s1 → fld e.cdw11 0 5 ≤ 3 → fld e.cdw11 8 24 = 0 → sqeSave e = false →
    exec (.setPowerManagement e) s = .next (adminDone (refreshPower { s1 with
      pw := { s1.pw with sel := fld e.cdw11 0 5 }, md := { s1.md with adminWake := false, entering := false } }) e .success)) ∧
  (∀ (s s1 : State) (e : Sqe) (st : Nat), Admitted s e false .ps4 st s1 → fld e.cdw11 0 5 = 4 → fld e.cdw11 8 24 = 0 → sqeSave e = false → s1.pw.sel ≠ 4 →
    holidayPermitted s1 = false ∨ s1.md.ps4.isSome = true ∨ s1.boot.activating.isSome = true → exec (.setPowerManagementPs4 e) s = .next (adminDone s1 e .c4 s1.md.mode.code)) ∧
  (∀ (s s1 : State) (e : Sqe) (st : Nat), Admitted s e false .ps4 st s1 → fld e.cdw11 0 5 = 4 → fld e.cdw11 8 24 = 0 → sqeSave e = false → s1.pw.sel ≠ 4 →
    s1.md.mode.operates = true → holidayPermitted s1 = true → s1.md.ps4 = none → s1.boot.activating = none → mustDepart s1 = false →
    ∃ t, exec (.setPowerManagementPs4 e) s = .next t ∧ t.md = { s1.md with ps4 := some (ownerOf s1 e.func, e.cid), selBefore := s1.pw.sel } ∧
      t = { s1 with md := t.md, media := t.media } ∧ (∀ x ∈ t.media.dies, x.2.op.any (fun o => o.kind == .erase) = false))

/-- A completion (R86, R88, R417): where the mode posts (any but Measure and Harvest), the controller is ready and the queue pair exists, exactly one entry is posted, behind all posted before, with the command's identity, status, result and data, the submission head, the phase tag and the time; no command waits for or loses anything by it: media, journal, content, supply, boot state and keys stay. Nothing is posted otherwise. (What of this is not the spec's is the model's choice: log 1, 8.) -/
def Obligations.CompletionPostsOneEntry : Prop :=
  (∀ (s : State) (e : Sqe) (st : Status) (dw0 : Nat) (data : List Nat) (sq : Sq) (cq : Cq),
    s.md.mode ≠ .measure → s.md.mode ≠ .harvest → (ctrl s e.func).rdy = true → KV.find s.port.sqs (qkey e.func 0) = some sq →
    KV.find s.port.cqs (qkey e.func sq.cqid) = some cq →
    (adminDone s e st dw0 data).port.posted = s.port.posted ++ [{ func := e.func, sqid := 0, cid := e.cid, status := st, dw0 := dw0, dw1 := 0, sqhd := sq.head, at_ := s.time.dtb, phase := cq.phase, data := data }] ∧
    (∃ cq', KV.find (adminDone s e st dw0 data).port.cqs (qkey e.func sq.cqid) = some cq' ∧ cq'.tail = (if cq.tail + 1 = cq.size then 0 else cq.tail + 1) ∧
      cq'.phase = (if cq.tail + 1 = cq.size then !cq.phase else cq.phase) ∧ cq'.reserved = cq.reserved - 1) ∧
    (st.logged = true → ((ctrl (adminDone s e st dw0 data) e.func).errs.head? = some ⟨0, e.cid, st, dw0⟩))) ∧
  (∀ (s : State) (e : Sqe) (st : Status) (dw0 : Nat) (data : List Nat),
    s.md.mode = .measure ∨ s.md.mode = .harvest ∨ (ctrl s e.func).rdy = false → adminDone s e st dw0 data = s) ∧
  (∀ (s : State) (e : Sqe) (st : Status) (dw0 : Nat) (data : List Nat), ∃ p n, p.cmds = s.port.cmds ∧ p.sqs = s.port.sqs ∧
    adminDone s e st dw0 data = { s with port := p, md := { s.md with lastAdminAt := n } })

/-- Queue management (R76, R78, R81): a queue is created with the size and vector the command gives, an identifier inside the pairs assigned and not in use; a completion queue that serves none is deleted; a submission queue with no command in flight goes at once, and each of the four then posts success. (What of this is not the spec's is the model's choice: log 8.) -/
def Obligations.QueueManagement : Prop :=
  (∀ (s s1 : State) (e : Sqe) (st : Nat), Admitted s e false .always st s1 → fld e.cdw10 0 16 ≠ 0 → fld e.cdw10 0 16 ≤ (ctrl s1 e.func).ioq →
    KV.find s1.port.cqs (qkey e.func (fld e.cdw10 0 16)) = none → 1 ≤ fld e.cdw10 16 16 → fld e.cdw10 16 16 < 4096 → e.cdw11.getLsbD 0 = true →
    fld e.cdw11 16 16 < (ctrl s1 e.func).vec →
    exec (.createIoCompletionQueue e) s = .next (adminDone { s1 with port := { s1.port with
      cqs := KV.set s1.port.cqs (qkey e.func (fld e.cdw10 0 16)) { size := fld e.cdw10 16 16 + 1, vector := fld e.cdw11 16 16, ien := e.cdw11.getLsbD 1 } } } e .success)) ∧
  (∀ (s s1 : State) (e : Sqe) (st : Nat) (cq : Cq), Admitted s e false .always st s1 → fld e.cdw10 0 16 ≠ 0 → fld e.cdw10 0 16 ≤ (ctrl s1 e.func).ioq →
    KV.find s1.port.sqs (qkey e.func (fld e.cdw10 0 16)) = none → 1 ≤ fld e.cdw10 16 16 → fld e.cdw10 16 16 < 4096 → e.cdw11.getLsbD 0 = true →
    fld e.cdw11 16 16 ≠ 0 → KV.find s1.port.cqs (qkey e.func (fld e.cdw11 16 16)) = some cq →
    exec (.createIoSubmissionQueue e) s = .next (adminDone { s1 with port := { s1.port with
      sqs := KV.set s1.port.sqs (qkey e.func (fld e.cdw10 0 16)) { size := fld e.cdw10 16 16 + 1, cqid := fld e.cdw11 16 16 } } } e .success)) ∧
  (∀ (s s1 : State) (e : Sqe) (st : Nat) (cq : Cq), Admitted s e false .always st s1 → fld e.cdw10 0 16 ≠ 0 →
    KV.find s1.port.cqs (qkey e.func (fld e.cdw10 0 16)) = some cq → (∀ p ∈ s1.port.sqs, p.1 / 65536 = e.func → p.1 % 65536 ≠ 0 → p.2.cqid ≠ fld e.cdw10 0 16) →
    exec (.deleteIoCompletionQueue e) s = .next (adminDone { s1 with port := { s1.port with cqs := KV.del s1.port.cqs (qkey e.func (fld e.cdw10 0 16)) } } e .success)) ∧
  (∀ (s s1 : State) (e : Sqe) (st : Nat) (q : Sq), Admitted s e false .always st s1 → fld e.cdw10 0 16 ≠ 0 →
    KV.find s1.port.sqs (qkey e.func (fld e.cdw10 0 16)) = some q → (∀ p ∈ s1.port.cmds, p.2.func ≠ e.func ∨ p.2.sqid ≠ fld e.cdw10 0 16) →
    ∃ t, exec (.deleteIoSubmissionQueue e) s = .next (adminDone t e .success) ∧ t = { s1 with port := { s1.port with sqs := t.port.sqs } } ∧
      KV.find t.port.sqs (qkey e.func (fld e.cdw10 0 16)) = none)

/-- Virtualization Management (R75 to R77): a primary allocation waits for the PF's next reset; a secondary controller is taken offline by a reset, its resources are assigned while it is offline, and with at least one queue pair and one vector it goes online. (What of this is not the spec's is the model's choice: log 8.) -/
def Obligations.VirtualizationManagement : Prop :=
  (∀ (s s1 : State) (e : Sqe) (st : Nat), Admitted s e true .virt st s1 → fld e.cdw10 8 3 ≤ 1 → fld e.cdw10 16 16 = cntlid s1 0 →
    fld e.cdw11 0 16 + flexUsed s1 0 (fld e.cdw10 8 3 == 0) ≤ (if fld e.cdw10 8 3 = 0 then 8128 else 1983) →
    exec (.virtPrimaryFlexibleAllocation e) s = .next (adminDone (setCtrl s1 0 (fun c =>
      if fld e.cdw10 8 3 = 0 then { c with pendVq := some (fld e.cdw11 0 16) } else { c with pendVi := some (fld e.cdw11 0 16) })) e .success (fld e.cdw11 0 16))) ∧
  (∀ (s s1 : State) (e : Sqe) (st f : Nat), Admitted s e true .virt st s1 → secondary s1 e = some f →
    ∃ t, exec (.virtSecondaryOffline e) s = .next (adminDone t e .success) ∧ (ctrl t f).online = false ∧ (ctrl t f).rdy = false ∧ (ctrl t f).cc = 0 ∧
      (∀ q, q < 65536 → KV.find t.port.sqs (qkey f q) = none)) ∧
  (∀ (s s1 : State) (e : Sqe) (st f : Nat), Admitted s e true .virt st s1 → secondary s1 e = some f → fld e.cdw10 8 3 ≤ 1 → (ctrl s1 f).online = false →
    fld e.cdw11 0 16 ≤ (if fld e.cdw10 8 3 = 0 then 1024 else 129) →
    fld e.cdw11 0 16 + flexUsed s1 f (fld e.cdw10 8 3 == 0) ≤ (if fld e.cdw10 8 3 = 0 then 8128 else 1983) →
    exec (.virtSecondaryAssign e) s = .next (adminDone (setCtrl s1 f (fun c =>
      if fld e.cdw10 8 3 = 0 then { c with ioq := fld e.cdw11 0 16 } else { c with vec := fld e.cdw11 0 16 })) e .success (fld e.cdw11 0 16))) ∧
  (∀ (s s1 : State) (e : Sqe) (st f : Nat), Admitted s e true .virt st s1 → secondary s1 e = some f → (ctrl s1 f).ioq ≠ 0 → (ctrl s1 f).vec ≠ 0 →
    exec (.virtSecondaryOnline e) s = .next (adminDone (setCtrl s1 f (fun c => { c with online := true })) e .success))

/-- Requests for events, aborts and keep-alive (R94, R428): a request is held while fewer than 16 are and no event waits, and completed by the oldest event that waits otherwise; the sixteenth held already refuses the next; an Abort of a command that holds no die operation and no record ends it with Command Abort Requested and reads DW0 bit 0 as 0, one whose command is not there reads it as 1; Keep Alive restarts the interval, and its expiry is recorded with the controller still enabled. (What of this is not the spec's is the model's choice: log 8.) -/
def Obligations.EventsAbortsAndKeepAlive : Prop :=
  (∀ (s s1 : State) (e : Sqe) (st : Nat), Admitted s e false .always st s1 → (ctrl s1 e.func).aers.length < 16 → (ctrl s1 e.func).waiting = [] →
    exec (.asynchronousEventRequest e) s = .next (setCtrl s1 e.func (fun c => { c with aers := c.aers ++ [e.cid] }))) ∧
  (∀ (s s1 : State) (e : Sqe) (st : Nat) (a : Aen) (rest : List Aen), Admitted s e false .always st s1 → (ctrl s1 e.func).aers.length < 16 → (ctrl s1 e.func).waiting = a :: rest →
    exec (.asynchronousEventRequest e) s = .next (adminDone (setCtrl s1 e.func (fun c => { c with waiting := rest, masked := c.masked ++ [a] })) e .success
      (a.typ + a.info * 2^8 + a.log * 2^16))) ∧
  (∀ (s s1 : State) (e : Sqe) (st : Nat), Admitted s e false .always st s1 → 16 ≤ (ctrl s1 e.func).aers.length →
    exec (.asynchronousEventRequest e) s = .next (adminDone s1 e .aerLimitExceeded)) ∧
  (∀ (s s1 : State) (e : Sqe) (st slot : Nat) (c : Cmd), Admitted s e false .always st s1 →
    s1.port.cmds.find? (fun p => p.2.func == e.func && p.2.sqid == fld e.cdw10 0 16 && p.2.cid == fld e.cdw10 16 16 && !p.2.fromTwin && !p.2.quiet) = some (slot, c) →
    c.fwd = false → abortable s1 slot c = true →
    exec (.abort e) s = .next (adminDone (finish { s1 with cal := { s1.cal with claims := s1.cal.claims.filter (fun x => x.slot != some slot) } } slot .aborted) e .success 0)) ∧
  (∀ (s s1 : State) (e : Sqe) (st : Nat), Admitted s e false .always st s1 → (∀ p ∈ s1.port.cmds, p.2.func ≠ e.func ∨ p.2.cid ≠ fld e.cdw10 16 16) →
    (ctrl s1 e.func).aers.contains (fld e.cdw10 16 16) = false → exec (.abort e) s = .next (adminDone s1 e .success 1)) ∧
  (∀ (s s1 : State) (e : Sqe) (st : Nat), Admitted s e false .always st s1 →
    exec (.keepAlive e) s = .next (adminDone (setCtrl s1 e.func (fun c => { c with kaAt := s1.time.dtb })) e .success)) ∧
  (∀ (s : State) (f : Nat), (ctrl s f).en = true → ∃ t, exec (.keepAliveExpiry f) s = .next t ∧ (ctrl t f).en = true ∧ (ctrl t f).rdy = (ctrl s f).rdy ∧
    t.port.cmds = s.port.cmds ∧ t.port.sqs = s.port.sqs ∧ t.zn = s.zn ∧ Core s t)

/-- The standard features (R78, R88, R428, R437, R447): each takes its value on the sender's controller, or on the module, and posts success; a Save bit on a feature that is not saveable is refused with Feature Identifier Not Saveable. Timestamp is set by the PF alone, carries 1 ms of uncertainty as SOURCE 001b and lowers time discontinuity. (What of this is not the spec's is the model's choice: log 8.) -/
def Obligations.StandardFeatures : Prop :=
  (∀ (s s1 : State) (e : Sqe) (st : Nat), Admitted s e false .features st s1 → sqeSave e = false → fld e.cdw11 0 16 ≠ 0xFFFF → fld e.cdw11 16 16 ≠ 0xFFFF →
    exec (.setNumberOfQueues e) s = .next (adminDone s1 e .success ((ctrl s1 e.func).ioq - 1 + ((ctrl s1 e.func).ioq - 1) * 2^16))) ∧
  (∀ (s s1 : State) (e : Sqe) (st : Nat), Admitted s e false .features st s1 → sqeSave e = false →
    exec (.setInterruptCoalescing e) s = .next (adminDone (setCtrl s1 e.func (fun c => { c with coalesce := BitVec.ofNat 16 (fld e.cdw11 0 16) })) e .success)) ∧
  (∀ (s s1 : State) (e : Sqe) (st : Nat), Admitted s e false .features st s1 → sqeSave e = false → fld e.cdw11 0 16 < (ctrl s1 e.func).vec →
    ∃ t, exec (.setInterruptVectorConfiguration e) s = .next (adminDone t e .success) ∧
      ((ctrl t e.func).vecNoCoalesce.contains (fld e.cdw11 0 16) = e.cdw11.getLsbD 16) ∧
      (∀ v, v ≠ fld e.cdw11 0 16 → (ctrl t e.func).vecNoCoalesce.contains v = (ctrl s1 e.func).vecNoCoalesce.contains v) ∧
      t = { s1 with port := { s1.port with ctrls := t.port.ctrls } }) ∧
  (∀ (s s1 : State) (e : Sqe) (st : Nat), Admitted s e false .features st s1 → sqeSave e = false →
    exec (.setAsyncEventConfiguration e) s = .next (adminDone (setCtrl s1 e.func (fun c => { c with aec := e.cdw11 })) e .success)) ∧
  (∀ (s s1 : State) (e : Sqe) (st : Nat), Admitted s e false .features st s1 → sqeSave e = true →
    exec (.setAsyncEventConfiguration e) s = .next (adminDone s1 e .featureNotSaveable)) ∧
  (∀ (s s1 : State) (e : Sqe) (st : Nat), Admitted s e false .features st s1 → sqeSave e = false → fld e.cdw11 16 4 = 0 → fld e.cdw11 20 2 ≤ 1 →
    exec (.setTemperatureThreshold e) s = .next (adminDone (refreshCrit { s1 with th := { s1.th with
      overK := if fld e.cdw11 20 2 = 0 then fld e.cdw11 0 16 else s1.th.overK, underK := if fld e.cdw11 20 2 = 0 then s1.th.underK else fld e.cdw11 0 16 } }) e .success)) ∧
  (∀ (s s1 : State) (e : Sqe) (st : Nat), Admitted s e false .features st s1 → e.func = 0 → 6 ≤ e.data.length → sqeSave e = false →
    ∃ t, exec (.setTimestamp e) s = .next (adminDone t e .success) ∧ t.time = { s1.time with
      src := 1, hostMs := le e.data 0 6, hostAt := s1.time.dtb, unc := 1000, uncAt := s1.time.dtb, setAt := some s1.time.dtb } ∧
      t.md.timeDisc = false ∧ t.md.mode = s1.md.mode ∧ t.zn = s1.zn ∧ t.jr = s1.jr ∧ t.boot = s1.boot)

/-- The vendor features (R72, R80, R178, R179, R182, R413 to R415): a queue is bound to a latency class once and only while it has taken no entry; a tenant's allotments take effect at the next period boundary while its zone limits and share take effect now; the power limit, the thermal offsets, the degradation permit and a group's dedication are taken, and saved where the command says so. (What of this is not the spec's is the model's choice: log 8.) -/
def Obligations.VendorFeatures : Prop :=
  (∀ (s s1 : State) (e : Sqe) (st : Nat) (q : Sq), Admitted s e false .features st s1 → sqeSave e = false → fld e.cdw11 0 16 ≠ 0 →
    KV.find s1.port.sqs (qkey e.func (fld e.cdw11 0 16)) = some q → q.locked = false → fld e.cdw11 16 3 = 3 →
    exec (.setQueueClassBinding e) s = .next (adminDone { s1 with port := { s1.port with
      sqs := KV.set s1.port.sqs (qkey e.func (fld e.cdw11 0 16)) { q with cls := some .unbound } } } e .success)) ∧
  (∀ (s s1 : State) (e : Sqe) (st : Nat) (q : Sq), Admitted s e false .features st s1 → sqeSave e = false → fld e.cdw11 0 16 ≠ 0 →
    KV.find s1.port.sqs (qkey e.func (fld e.cdw11 0 16)) = some q → q.locked = true → fld e.cdw11 16 3 ≤ 3 →
    exec (.setQueueClassBinding e) s = .next (adminDone s1 e .sequenceError)) ∧
  (∀ (s s1 : State) (e : Sqe) (st : Nat), Admitted s e false .features st s1 → e.func = 0 → budgetBad s.part e.data = false → fld e.cdw11 7 25 = 0 →
    budgetBarred s1 (fld e.cdw11 0 7) (budgetOf s.part e.data) = false → limitsKept s1 (fld e.cdw11 0 7) (budgetOf s.part e.data) = true →
    ∃ t, exec (.setTenantBudget e) s = .next (adminDone t e .success ((s1.cal.period + 1) % 2^32)) ∧ t = { s1 with cal := t.cal } ∧
      KV.find t.cal.nextBudgets (fld e.cdw11 0 7) = some (budgetOf s.part e.data) ∧
      (∃ b, KV.find t.cal.budgets (fld e.cdw11 0 7) = some b ∧ b.share = (budgetOf s.part e.data).share ∧ b.active = (budgetOf s.part e.data).active ∧
        b.groups = (budgetAt s1 (fld e.cdw11 0 7) s1.cal.period).groups)) ∧
  (∀ (s s1 : State) (e : Sqe) (st : Nat), Admitted s e false .features st s1 → e.func = 0 →
    ∃ t, exec (.setPowerBudget e) s = .next (adminDone t e .success) ∧ t.pw.limit = roundLimit (fld e.cdw11 0 8) ∧
      t.pw.limitSaved = (if sqeSave e then roundLimit (fld e.cdw11 0 8) else s1.pw.limitSaved) ∧ t.pw.sel = s1.pw.sel ∧ Core s1 t ∧ t.zn = s1.zn) ∧
  (∀ (s s1 : State) (e : Sqe) (st : Nat), Admitted s e false .features st s1 → e.func = 0 → fld e.cdw11 0 4 ≤ 10 → fld e.cdw11 4 4 ≤ 10 →
    exec (.setThermalPolicy e) s = .next (adminDone { s1 with th := { s1.th with
      ctrlOff := fld e.cdw11 0 4, flashOff := fld e.cdw11 4 4, offSaved := if sqeSave e then (fld e.cdw11 0 4, fld e.cdw11 4 4) else s1.th.offSaved } } e .success)) ∧
  (∀ (s s1 : State) (e : Sqe) (st : Nat), Admitted s e false .features st s1 → e.func = 0 →
    exec (.setHolidayDegradationPermit e) s = .next (adminDone { s1 with adm := { s1.adm with
      permit := e.cdw11.getLsbD 0, permitSaved := if sqeSave e then e.cdw11.getLsbD 0 else s1.adm.permitSaved } } e .success)) ∧
  (∀ (s s1 : State) (e : Sqe) (st : Nat), Admitted s e false .group st s1 → e.func = 0 → fld e.cdw11 0 6 < s1.part.groups → (grpOf s1 (fld e.cdw11 0 6)).retired = false →
    e.cdw11.getLsbD 7 = true → KV.find s1.cal.dedicated (fld e.cdw11 0 6) = none →
    (∀ f, f < 128 → f ≠ fld e.cdw11 8 7 → ((stored s1 f).on (fld e.cdw11 0 6)).e = 0 ∧ ((stored s1 f).on (fld e.cdw11 0 6)).s = 0 ∧ ((stored s1 f).on (fld e.cdw11 0 6)).b = 0) →
    ∃ t, exec (.setGroupDedication e) s = .next (adminDone t e .success) ∧ KV.find t.cal.dedicated (fld e.cdw11 0 6) = some (fld e.cdw11 8 7) ∧ Core s1 t)

/-- Reports (R89, R183 to R186, R337, R412, R418, R430): Identify and the group report return 4,096 bytes; a log page returns as many bytes as asked, from its offset, and a reading with RAE changes nothing; a host-initiated telemetry capture is counted and kept; Get Features returns the feature's value; a die snapshot is taken for log C7h; the stored hold-up test result is returned as its 64 bytes, and a test asked for with none under way starts where it is allowed and else waits. No reading changes the media, the journal or what Core names. (What of this is not the spec's is the model's choice: log 69, 70.) -/
def Obligations.Reports : Prop :=
  (∀ (s s1 : State) (e : Sqe) (st : Nat) (g : Nat → Nat), Admitted s e false .always st s1 → identifyDoc s1 e = .ok g →
    ∃ d, exec (.identify e) s = .next (adminDone { s1 with free := s1.free + 1 } e .success 0 d) ∧ d.length = 4096 ∧ ∀ i, i < 4096 → nth d i = g i) ∧
  (∀ (s s1 : State) (e : Sqe) (st : Nat), Admitted s e false .always st s1 → logError s1 e = none →
    ∃ t d, exec (.getLogPage e) s = .next (adminDone t e .success 0 d) ∧ d = logData s1 e ∧ d.length = logBytes e ∧
      (e.cdw10.getLsbD 15 = true → t = s1) ∧ t.media = s1.media ∧ t.jr = s1.jr ∧ Core s1 t) ∧
  (∀ (s s1 : State) (e : Sqe) (st : Nat), Admitted s e false .always st s1 → logError s1 { e with cdw10 := BitVec.ofNat 32 (e.cdw10.toNat / 256 * 256 + 7) } = none →
    ∃ t d, exec (.telemetryHostInitiatedCreate e) s = .next (adminDone t e .success 0 d) ∧ t.adm.telHost = (s1.adm.telHost + 1) % 256 ∧
      t.adm.telHostAt = s1.time.dtb ∧ (∃ x, t.tel.host = some x) ∧ t.zn.store = s1.zn.store ∧ t.media = s1.media ∧ Core s1 t) ∧
  (∀ (s s1 : State) (e : Sqe) (st v : Nat) (d : List Nat), Admitted s e false .always st s1 → featureValue s1 e = .ok (v, d) →
    exec (.getFeatures e) s = .next (adminDone { s1 with free := s1.free + 1 } e .success v d)) ∧
  (∀ (s s1 : State) (e : Sqe) (st : Nat), Admitted s e false .calendar st s1 → fld e.cdw10 0 4 = 0 → beyondPart s1 e = false → sglBad e 4096 = false →
    ∃ d, exec (.calendarQueryGroupReport e) s = .next (adminDone s1 e .success 0 d) ∧ d.length = 4096) ∧
  (∀ (s s1 : State) (e : Sqe) (st : Nat), Admitted s e false .calendar st s1 → fld e.cdw10 0 4 = 1 → e.func = 0 → beyondPart s1 e = false →
    ∃ t, exec (.calendarQueryDieSnapshot e) s = .next (adminDone t e .success) ∧ t = { s1 with cal := { s1.cal with snapshot := t.cal.snapshot } } ∧
      t.cal.snapshot = snapshotBytes s1 (dieIx s1.part (fld e.cdw10 16 5) (fld e.cdw10 21 6))) ∧
  (∀ (s s1 : State) (e : Sqe) (st : Nat), Admitted s e true .holdUpReport st s1 → e.cdw10 = 1 → sglBad e 64 = false →
    exec (.holdUpTestReport e) s = .next (adminDone s1 e .success 0 (holdBytes s1.sup.lastResult))) ∧
  (∀ (s s1 : State) (e : Sqe) (st : Nat), Admitted s e true .holdUp st s1 → e.cdw10 = 0 → sglBad e 64 = false → s1.sup.test = .idle →
    ∃ t, exec (.holdUpTestRun e) s = .next t ∧ t = { s1 with sup := t.sup } ∧ t.sup.testWaiters = s1.sup.testWaiters ++ [(ownerOf s1 e.func, 0, e.cid)] ∧
      t.sup.test = (if testAllowed s1 then .falling else .waiting) ∧ t.sup.charger = (s1.sup.charger && !testAllowed s1))

/-- Namespaces outside Service (R90, R97, R307, R387): a create gives the lowest free NSID of the rank's parity to a namespace with the size and the formats described, and posts the NSID; a delete leaves no LBA of the namespace readable as anything but unwritten; attaching and detaching change the controllers named, and both post success. (What of this is not the spec's is the model's choice: log 59, 60.) -/
def Obligations.NamespaceManagement : Prop :=
  (∀ (s s1 : State) (e : Sqe) (st nsid : Nat), Admitted s e true (if s.zn.defMirrored then .createMirrored else .namespaces) st s1 → s1.md.mode ≠ .service →
    createField e s1 = none → nsFits s1 (nsDescribed s1 e) 1 = true →
    ((nsDescribed s1 e).zoned = true → (newNumbers s1 (nsDescribed s1 e).mirrored (nsDescribed s1 e).zoneCount).length = (nsDescribed s1 e).zoneCount) →
    newNsid s1 = some nsid →
    ∃ t n, exec (.namespaceCreate e) s = .next (adminDone t e .success nsid) ∧ nsOf t nsid = some n ∧ n.zoned = (nsDescribed s1 e).zoned ∧
      n.nsze = le e.data 0 8 ∧ n.flbas = nth e.data 26 % 16 ∧ n.dps = nth e.data 29 ∧ n.mirrored = s1.zn.defMirrored ∧ n.zones = [] ∧
      t.zn.store = s1.zn.store ∧ Core s1 t) ∧
  (∀ (s s1 : State) (e : Sqe) (st : Nat) (n : Ns), Admitted s e true .namespaces st s1 → s1.md.mode ≠ .service → e.nsid ≠ 0xFFFFFFFF → nsOf s1 e.nsid = some n →
    ∃ t, exec (.namespaceDelete e) s = .next (adminDone t e .success) ∧ (∀ lba, lba < 2^64 → readLba t e.nsid lba = {}) ∧ Core s1 t) ∧
  (∀ (s s1 : State) (e : Sqe) (st : Nat), Admitted s e true .namespaces st s1 → s1.md.mode ≠ .service → attachField e true s1 = none →
    ∃ t n, exec (.namespaceAttach e) s = .next (adminDone t e .success) ∧ nsOf t e.nsid = some n ∧
      (∀ f, f < 128 → (listedIds e).contains (cntlid s1 f) = true → n.attached.contains f = true) ∧ t.zn.store = s1.zn.store ∧ Core s1 t) ∧
  (∀ (s s1 : State) (e : Sqe) (st : Nat), Admitted s e true .namespaces st s1 → s1.md.mode ≠ .service → attachField e false s1 = none →
    ∃ t n, exec (.namespaceDetach e) s = .next (adminDone t e .success) ∧ nsOf t e.nsid = some n ∧
      (∀ f, f < 128 → (listedIds e).contains (cntlid s1 f) = true → n.attached.contains f = false) ∧ t.zn.store = s1.zn.store ∧ Core s1 t) ∧
  (∀ (s s1 : State) (e : Sqe) (st : Nat), Admitted s e false .twinPolicy st s1 → e.func = 0 → e.nsid = 0xFFFFFFFF →
    exec (.setTwinPolicy e) s = .next (adminDone { s1 with zn := { s1.zn with
      defMirrored := e.cdw11.getLsbD 0, defMirroredSaved := if sqeSave e then e.cdw11.getLsbD 0 else s1.zn.defMirroredSaved } } e .success))

/-- Erasures (R402 to R404): an accepted Format NVM stops the fetching of its namespace's I/O and waits for the commands accepted; an accepted Sanitize does so for every namespace held; a second one meanwhile is refused with Sanitize In Progress; overwrite is an invalid field; leaving the failure state clears it. Once no accepted command is left the erasure starts: outside Service a Format without key replacement then leaves every LBA of its namespace unwritten, and is done. (What of this is not the spec's is the model's choice: log 64, 65, 100.) -/
def Obligations.Erasures : Prop :=
  (∀ (s s1 : State) (e : Sqe) (st : Nat) (n : Ns), Admitted s e false .namespaces st s1 → formatField e s1 = none → nsOf s1 e.nsid = some n →
    s1.adm.sanitize.pending = false → s1.adm.sanitize.running = false → n.erasing = none → n.here = true →
    (exec (.formatNvm e) s = .next { setNs s1 e.nsid (fun n => { n with erasing := some false }) with adm := { s1.adm with formats := s1.adm.formats ++
      [{ nsid := e.nsid, crypto := false, func := ownerOf s1 e.func, cid := e.cid, flbas := fld e.cdw10 0 4, dps := fld e.cdw10 5 3 + 8 * fld e.cdw10 8 1 }] } }) ∧
    (exec (.formatNvmCryptoErase e) s = .next { setNs s1 e.nsid (fun n => { n with erasing := some false }) with adm := { s1.adm with formats := s1.adm.formats ++
      [{ nsid := e.nsid, crypto := true, func := ownerOf s1 e.func, cid := e.cid, flbas := fld e.cdw10 0 4, dps := fld e.cdw10 5 3 + 8 * fld e.cdw10 8 1 }] } })) ∧
  (∀ (s s1 : State) (e : Sqe) (st : Nat), Admitted s e true .sanitizeCrypto st s1 → s1.adm.sanitize.pending = false → s1.adm.sanitize.running = false → s1.adm.formats = [] →
    ∃ t, exec (.sanitizeCryptoErase e) s = .next t ∧ t.adm.sanitize.pending = true ∧ t.adm.sanitize.block = false ∧ t.adm.sanitize.cmd = some (ownerOf s1 e.func, e.cid) ∧
      (∀ p ∈ t.zn.ns, p.2.held = true → p.2.erasing = some false ∧ p.2.sanitizing = true) ∧ t = { s1 with adm := t.adm, zn := { s1.zn with ns := t.zn.ns } }) ∧
  (∀ (s s1 : State) (e : Sqe) (st : Nat), Admitted s e true .sanitizeBlock st s1 → s1.adm.sanitize.pending = false → s1.adm.sanitize.running = false → s1.adm.formats = [] →
    ∃ t, exec (.sanitizeBlockErase e) s = .next t ∧ t.adm.sanitize.pending = true ∧ t.adm.sanitize.block = true ∧ t.adm.sanitize.cmd = some (ownerOf s1 e.func, e.cid) ∧
      (∀ p ∈ t.zn.ns, p.2.held = true → p.2.erasing = some false ∧ p.2.sanitizing = true) ∧ t = { s1 with adm := t.adm, zn := { s1.zn with ns := t.zn.ns } }) ∧
  (∀ (s s1 : State) (e : Sqe) (st : Nat), Admitted s e true .sanitizeCrypto st s1 → s1.adm.sanitize.pending = true ∨ s1.adm.sanitize.running = true →
    exec (.sanitizeCryptoErase e) s = .next (adminDone s1 e .sanitizeInProgress)) ∧
  (∀ (s s1 : State) (e : Sqe) (st : Nat), Admitted s e true .always st s1 → exec (.sanitizeOverwrite e) s = .next (adminDone s1 e .invalidField)) ∧
  (∀ (s s1 : State) (e : Sqe) (st : Nat), Admitted s e true .sanitizeCrypto st s1 → s1.adm.sanitize.pending = false → s1.adm.sanitize.running = false →
    exec (.sanitizeExitFailureMode e) s = .next (adminDone { s1 with adm := { s1.adm with sanitize := { s1.adm.sanitize with failed := false } } } e .success)) ∧
  (∀ (s : State) (f : Fmt) (n : Ns), s.md.mode = .solo → s.sup.rails = true → s.adm.formats = [f] → f.crypto = false → f.tag = none → nsOf s f.nsid = some n → n.erasing = some false →
    openOn s f.nsid = [] → s.adm.sanitize.pending = false →
    ∃ t, exec .formatSanitizeStart s = .next t ∧ t.adm.formats = [] ∧ (∀ lba, lba < 2^64 → readLba t f.nsid lba = {}) ∧
      (∀ nsid lba, nsid ≠ f.nsid → lba < 2^64 → readLba t nsid lba = readLba s nsid lba) ∧ Core s t)

/-- Firmware (R154, R360, R374 to R376, R380, R381): a piece of an image is held, a piece at offset 0 starting a new image; a Commit of an image downloaded whole that verifies empties the slot that is not running and begins its write; the write read back puts the image there and completes a plain replacement, while one that fails completes with Invalid Firmware Image; an activation appends the selector word and waits, and with no bound command left, no twin to depart from, no thermal shut-down and no Holiday entry under way the module enters Measure under the next boot number, cause 1; a policy is queued to be written under a generation above every copy's. (What of this is not the spec's is the model's choice: log 19, 63.) -/
def Obligations.FirmwareAndPolicy : Prop :=
  (∀ (s s1 : State) (e : Sqe) (img : Image) (st : Nat), Admitted s e true .download st s1 → (pieceOf e).1 = 0 → (pieceOf e).2 % 4096 = 0 → (pieceOf e).2 ≤ imageMax →
    exec (.firmwareImageDownload e img) s = .next (adminDone { s1 with boot := { s1.boot with pieces := [pieceOf e], staged := some img } } e .success)) ∧
  (∀ (s s1 : State) (e : Sqe) (img : Image) (st : Nat), Admitted s e true .commit st s1 → fld e.cdw10 3 3 ≤ 2 → fld e.cdw10 0 3 ≤ 2 → commitSlot s1 e ≠ s1.boot.slotRun →
    downloaded s1 = some img → imageVerifies img s1.boot.minSvn = true →
    (∃ t, exec (.firmwareCommitReplace e) s = .next t ∧ t.boot.writing = s1.boot.writing ++ [{ ca := 0, func := ownerOf s1 e.func, cid := e.cid, slot := commitSlot s1 e, image := some img }] ∧
      t.boot.pieces = [] ∧ t = { s1 with boot := t.boot }) ∧
    (∃ t, exec (.firmwareCommitReplaceActivate e) s = .next t ∧ t.boot.writing = s1.boot.writing ++ [{ ca := 1, func := ownerOf s1 e.func, cid := e.cid, slot := commitSlot s1 e, image := some img }] ∧
      t.boot.pieces = [] ∧ t = { s1 with boot := t.boot })) ∧
  (∀ (s s1 : State) (e : Sqe) (st : Nat), Admitted s e true .commit st s1 → fld e.cdw10 3 3 ≤ 2 → fld e.cdw10 0 3 ≤ 2 → slotVerifies s1 (commitSlot s1 e) = true → s1.boot.activating = none →
    ∃ t, exec (.firmwareCommitActivate e) s = .next t ∧ t.boot.slotSel = commitSlot s1 e ∧ t.boot.activating = some (ownerOf s1 e.func, e.cid) ∧
      t.boot.selCount = s1.boot.selCount + 1 ∧ t.boot.selectors = s1.boot.selectors.append selectorsPerSector (selectorWord (commitSlot s1 e) (s1.boot.selCount + 1)) ∧ t.md.mode = s1.md.mode ∧ t.zn.store = s1.zn.store) ∧
  (∀ (s : State) (w : BootWrite) (rest : List BootWrite), s.boot.writing = w :: rest → s.sup.rails = true → w.ca = 0 →
    ∃ t, exec (.bootStoreWriteComplete true) s = .next (completeFor t w.func w.cid .success) ∧ t.boot.writing = rest ∧ (w.slot = 1 → t.boot.slot1 = w.image) ∧ (w.slot ≠ 1 → t.boot.slot2 = w.image)) ∧
  (∀ (s : State) (w : BootWrite) (rest : List BootWrite), s.boot.writing = w :: rest → s.sup.rails = true → w.ca ≤ 1 →
    exec (.bootStoreWriteComplete false) s = .next (completeFor { s with boot := { s.boot with writing := rest } } w.func w.cid .invalidFirmwareImage)) ∧
  (∀ (s : State) (func cid : Nat), s.boot.activating = some (func, cid) → (∀ p ∈ s.port.cmds, p.2.cls = .unbound ∨ p.2.quiet = true) → s.tw.paired = false →
    s.th.shut = 0 → s.md.ps4 = none → s.md.entering = false →
    ∃ t, exec .activationSeal s = .next t ∧ t.md.mode = .measure ∧ t.boot.cause = 1 ∧ t.boot.boot = s.boot.boot + 1 ∧ t.boot.regs = [] ∧
      t.port.cmds = [] ∧ t.boot.minSvn = s.boot.minSvn) ∧
  (∀ (s s1 : State) (e : Sqe) (st : Nat), Admitted s e false .measurementPolicy st s1 → e.func = 0 → policyBad e.data = false →
    ∃ t w, exec (.setMeasurementPolicy e) s = .next t ∧ t = { s1 with boot := { s1.boot with writing := s1.boot.writing ++ [w] } } ∧ w.policy = policyOf e.data ∧
      w.func = ownerOf s1 e.func ∧ w.cid = e.cid ∧ (∀ c ∈ s1.boot.policyCopies, c.1 < w.gen) ∧ w.dw0 = bit (holdNext s1 (policyOf e.data)))

/-- Keys of tenants (R388 to R394, Table 13.2): a KEK of a virtual function is held in its slot; a media key is taken only wrapped under a KEK of the tenant that injects it, into its tag of an attached Key Per I/O namespace held here, and each method's result can then be read once; with the tag's slot still retiring a key the injection waits; enabling and disabling Key Per I/O on a namespace without data change its number of tags; a protocol other than 00h and 01h is an invalid field. (What of this is not the spec's is the model's choice: log 73, 74.) -/
def Obligations.SecurityMethods : Prop :=
  (∀ (s s1 : State) (e : Sqe) (st : Nat), Admitted s e false .security st s1 → secProtocol e ≤ 1 →
    exec (.securitySend e) s = .next (tcgResult s1 e.func e.cid 0)) ∧
  (∀ (s s1 : State) (e : Sqe) (st : Nat), Admitted s e false .security st s1 → secProtocol e = 0 →
    exec (.securityReceive e) s = .next (adminDone s1 e .success 0 (protocolList.take (min e.cdw11.toNat 4096)))) ∧
  (∀ (s s1 : State) (e : Sqe) (st : Nat) (r : List Nat), Admitted s e false .security st s1 → secProtocol e = 1 → secSpecific e ≠ 1 → secSpecific e ≠ 2 → KV.find s1.adm.tcgOut e.func = some r →
    exec (.securityReceive e) s = .next (adminDone { s1 with adm := { s1.adm with tcgOut := KV.del s1.adm.tcgOut e.func } } e .success 0 (r.take (min e.cdw11.toNat 4096)))) ∧
  (∀ (s s1 : State) (e : Sqe) (st kek key : Nat), Admitted s e false .security st s1 → secProtocol e = 1 → e.func ≠ 0 → kek < 4 →
    exec (.kekInjection e kek key true) s = .next (tcgResult { s1 with keys := { s1.keys with keks := KV.set s1.keys.keks (e.func * 4 + kek) (e.func, key + 1) } } e.func e.cid 0)) ∧
  (∀ (s s1 : State) (e : Sqe) (st tag kek key : Nat) (n : Ns), Admitted s e false .security st s1 → secProtocol e = 1 → nsOf s1 e.nsid = some n → reaches e.func n = true →
    e.func < 128 → tag < n.kpio → kekOf s1 e.func kek ≠ 0 → s1.md.mode ≠ .service → n.held = true → (KV.findD s1.keys.slots (nth n.slots tag) {}).retiring = 0 →
    exec (.mediaKeyInjection e tag kek key true) s = .next (tcgResult (putInjected s1 (nth n.slots tag) (key + 1) e.func) e.func e.cid 0)) ∧
  (∀ (s s1 : State) (e : Sqe) (st tag kek key : Nat) (n : Ns), Admitted s e false .security st s1 → secProtocol e = 1 → nsOf s1 e.nsid = some n → kekOf s1 e.func kek = 0 →
    exec (.mediaKeyInjection e tag kek key true) s = .next (tcgResult s1 e.func e.cid 0x0C)) ∧
  (∀ (s s1 : State) (e : Sqe) (st tags : Nat) (n : Ns), Admitted s e false .security st s1 → secProtocol e = 1 → nsOf s1 e.nsid = some n → reaches e.func n = true →
    n.kpio = 0 → 1 ≤ tags → tags ≤ 64 → n.noData = true → n.slots.length ≤ 1 → n.held = true → (freeDataSlots s1 tags).length = tags → s1.md.mode ≠ .service →
    exec (.keyPerIoEnable e tags) s = .next (tcgResult (enableKpio (takeSlots s1 e.nsid tags) e.nsid tags) e.func e.cid 0)) ∧
  (∀ (s s1 : State) (e : Sqe) (st : Nat) (n : Ns), Admitted s e false .security st s1 → secProtocol e = 1 → nsOf s1 e.nsid = some n → reaches e.func n = true →
    n.kpio ≠ 0 → n.noData = true → s1.md.mode ≠ .service →
    ∃ t, exec (.keyPerIoDisable e) s = .next (tcgResult t e.func e.cid 0) ∧ t.keys.keyCtr = s1.keys.keyCtr + 1 ∧ t.zn.store = s1.zn.store ∧ Core s1 t)

/-- Pair Control (R318, R320, R324, Table 10.18): join clears what keeps a module in Solo from pairing and changes nothing in Service; unpair outside Service dissolves the pair; yield marks this module's copy; take owns the fenced namespaces; a transfer in Service offers the namespace. (What of this is not the spec's is the model's choice: log 74.) -/
def Obligations.PairControl : Prop :=
  (∀ (s s1 : State) (e : Sqe) (st : Nat), Admitted s e true .pairControl st s1 → fld e.cdw10 0 4 = 0 → s1.md.mode ≠ .service →
    exec (.pairControlJoin e) s = .next (adminDone { s1 with tw := { s1.tw with
      unpaired := false, locked := false, holdTraining := false, wakes := s1.tw.wakes + (if s1.tw.twinDeparted then 1 else 0) } } e .success)) ∧
  (∀ (s s1 : State) (e : Sqe) (st : Nat), Admitted s e true .pairControl st s1 → fld e.cdw10 0 4 = 0 → s1.md.mode = .service →
    exec (.pairControlJoin e) s = .next (adminDone s1 e .success)) ∧
  (∀ (s s1 : State) (e : Sqe) (st : Nat), Admitted s e true .pairControl st s1 → fld e.cdw10 0 4 = 1 → s1.md.mode ≠ .service →
    ∃ t, exec (.pairControlUnpair e) s = .next (adminDone t e .success) ∧ t.tw.unpaired = true ∧ t.tw.pairId = 0 ∧ Core s1 t) ∧
  (∀ (s s1 : State) (e : Sqe) (st : Nat) (n : Ns), Admitted s e true .pairControl st s1 → fld e.cdw10 0 4 = 3 → s1.md.mode ≠ .service → nsOf s1 e.nsid = some n → n.mirrored = true →
    ∃ t m, exec (.pairControlYield e) s = .next (adminDone t e .success) ∧ nsOf t e.nsid = some m ∧ m.yielded = true ∧ t.zn.store = s1.zn.store ∧ Core s1 t) ∧
  (∀ (s s1 : State) (e : Sqe) (st : Nat) (n : Ns), Admitted s e true .pairControl st s1 → fld e.cdw10 0 4 = 4 → s1.md.mode ≠ .service → e.nsid ≠ 0xFFFFFFFF →
    nsOf s1 e.nsid = some n → n.fenced = true →
    ∃ t m, exec (.pairControlTake e) s = .next (adminDone t e .success) ∧ nsOf t e.nsid = some m ∧ m.here = true ∧ m.fenced = false ∧ m.cont = true ∧ t.zn.store = s1.zn.store ∧ Core s1 t) ∧
  (∀ (s s1 : State) (e : Sqe) (st : Nat) (n : Ns), Admitted s e true .pairControl st s1 → fld e.cdw10 0 4 = 2 → s1.md.mode = .service → nsOf s1 e.nsid = some n → n.mirrored = true →
    (modeAt s1 st).resyncing = false → s1.tw.transfer = none → n.here = true →
    ∃ t, exec (.pairControlTransfer e) s = .next t ∧ t.tw.transfer = some e.nsid ∧ t.tw.transferCmd = some (ownerOf s1 e.func, 0, e.cid) ∧ t.port = s1.port ∧ t.zn.store = s1.zn.store ∧ Core s1 t)

/-- Reshape (R252, R253, R258): a change to mirrored on the home, admitted, sends the twin what it needs to place the zones and remembers the Reshape; a group move of a namespace homed here is started here; a Reshape is refused while a rebuild runs with C7h; a cancel of what is not running is a sequence error, and one of a group move with no zone in progress ends it. (What of this is not the spec's is the model's choice: log 74.) -/
def Obligations.ReshapeCommands : Prop :=
  (∀ (s s1 : State) (e : Sqe) (st : Nat) (n : Ns) (nums : List Nat), Admitted s e true .reshapePolicy st s1 → reshapeField s1 e 0 = none → nsOf s1 e.nsid = some n →
    reshapeRefusal s1 (modeAt s1 st) n false true = none → e.cdw10.getLsbD 8 = true → n.here = true → mirroredNumbers s1 n = some nums →
    ∃ t m, exec (.reshapeTwinPolicy e) s = .next t ∧ nsOf t e.nsid = some m ∧ m = { n with reshape := some { move := false, toMirrored := true, remote := true, nums := nums } } ∧
      (∃ w ∈ t.tw.adminWait, w.kind = 5 ∧ w.nsid = e.nsid ∧ w.func = ownerOf s1 e.func ∧ w.cid = e.cid) ∧ t.port = s1.port ∧ t.zn.store = s1.zn.store ∧ Core s1 t) ∧
  (∀ (s s1 : State) (e : Sqe) (st : Nat) (n : Ns), Admitted s e true .reshapeMove st s1 → reshapeField s1 e 1 = none → nsOf s1 e.nsid = some n → n.zoned = true →
    moveFirst e < n.zoneCount → moveLast e n < n.zoneCount → moveMask e < 2 ^ s1.part.groups → (modeAt s1 st).rebuilding = true →
    exec (.reshapeGroupMove e) s = .next (adminDone s1 e .c7)) ∧
  (∀ (s s1 : State) (e : Sqe) (st : Nat) (n : Ns), Admitted s e true .reshapeMove st s1 → reshapeField s1 e 1 = none → nsOf s1 e.nsid = some n → n.zoned = true →
    moveFirst e < n.zoneCount → moveLast e n < n.zoneCount → moveMask e < 2 ^ s1.part.groups → reshapeRefusal s1 (modeAt s1 st) n true false = none → n.here = true →
    exec (.reshapeGroupMove e) s = .next (startMove s1 { tag := 0, func := ownerOf s1 e.func, cid := e.cid, nsid := e.nsid } (moveFirst e) (moveLast e n) (moveMask e))) ∧
  (∀ (s s1 : State) (e : Sqe) (st : Nat) (n : Ns), Admitted s e true .reshapeCancel st s1 → reshapeField s1 e 2 = none → nsOf s1 e.nsid = some n → n.reshape = none →
    exec (.reshapeCancel e) s = .next (adminDone s1 e .sequenceError)) ∧
  (∀ (s s1 : State) (e : Sqe) (st : Nat) (n : Ns) (r : Reshape), Admitted s e true .reshapeCancel st s1 → reshapeField s1 e 2 = none → nsOf s1 e.nsid = some n →
    n.reshape = some r → r.move = true → r.cancelled = false → r.remote = false → r.toMirrored = false → (∀ c ∈ s1.media.copies, c.kind ≠ .move ∨ c.nsid ≠ e.nsid) →
    exec (.reshapeCancel e) s = .next (endReshape (setNs s1 e.nsid (fun n => { n with reshape := some { r with cancelCid := some (ownerOf s1 e.func, e.cid) } })) e.nsid .aborted))

/-- Reads and what reads the zones (R86, R101, R103, R105, R137, R138, R239, R270): a read carried out here that is Unbound, or whose claims are placed, takes a command slot with the data of its LBAs as they stand, zeros for a lost one, the status that goes with them and the dies it waits for; it changes no content; one of an Offline zone ends with Zone Is Offline. One carried out by the twin is forwarded in Service with a tag of its own. Both zone reports take a slot with the report from the zone named, cut to the length asked, ready for delivery. Flush waits for every open write of its namespace on this module, and with none it completes at once. (What of this is not the spec's is the model's choice: log 5, 16.) -/
def Obligations.ReadsAndReports : Prop :=
  (∀ (s : State) (e : Io) (j : Judged), ioFront s e .read = .ok j → j.cls = .unbound → pathOf j.ns .read e.slba = .local_ → readOffline e j.ns = false →
    ∃ t c, exec (.read e) s = .next t ∧ KV.find t.port.cmds (freeSlot j.st) = some c ∧ c.func = e.func ∧ c.sqid = e.sqid ∧ c.cid = e.cid ∧
      c.data = readData j.st e.nsid j.ns e.slba e.nlb j.key ∧ c.result = readStatus j.st e.nsid e.slba e.nlb ∧
      c.dies = (needsOf j.st e.nsid j.ns e.slba e.nlb).map (·.1) ∧ t.zn = j.st.zn ∧ t.media = j.st.media ∧ t.jr = j.st.jr ∧ Core s t) ∧
  (∀ (s s' : State) (e : Io) (j : Judged), ioFront s e .read = .ok j → j.cls ≠ .unbound → pathOf j.ns .read e.slba = .local_ → readOffline e j.ns = false →
    noAllotment j.st e.func j.cls (needsOf j.st e.nsid j.ns e.slba e.nlb) = false → earlyRefusal j.st j.cls j.stamp e.tv = none →
    placeRead j.st e.func j.cls (freeSlot j.st) (needsOf j.st e.nsid j.ns e.slba e.nlb) (e.nlb * lbaBytes j.ns.flbas) j.stamp e.tv = .ok s' →
    ∃ t c, exec (.read e) s = .next t ∧ KV.find t.port.cmds (freeSlot j.st) = some c ∧ c.func = e.func ∧ c.sqid = e.sqid ∧ c.cid = e.cid ∧
      c.data = readData s' e.nsid j.ns e.slba e.nlb j.key ∧ c.result = readStatus s' e.nsid e.slba e.nlb ∧
      c.deadline = some (j.stamp + bound j.cls false) ∧ c.armed = true ∧ t.zn.store = j.st.zn.store ∧ t.jr = j.st.jr ∧ Core s t) ∧
  (∀ (s : State) (e : Io) (j : Judged), ioFront s e .read = .ok j → j.cls = .unbound → pathOf j.ns .read e.slba = .local_ → readOffline e j.ns = true →
    exec (.read e) s = .next (finish (accept j.st (freeSlot j.st) (newCmd e .read j (freeCore j.st))) (freeSlot j.st) .zoneIsOffline)) ∧
  (∀ (s : State) (e : Io) (j : Judged), ioFront s e .read = .ok j → j.cls = .unbound → pathOf j.ns .read e.slba = .forwarded → j.st.md.mode = .service →
    ∃ t c, exec (.read e) s = .next t ∧ KV.find t.port.cmds (freeSlot j.st) = some c ∧ c.fwd = true ∧ c.tag = j.st.tw.tagCtr ∧ c.stage = .forwarded ∧
      t.tw.tagCtr = (j.st.tw.tagCtr + 1) % 2^31 ∧ t.zn = j.st.zn ∧ t.jr = j.st.jr ∧ Core s t) ∧
  (∀ (s : State) (e : Io) (j : Judged), ioFront s e .zmr = .ok j → pathOf j.ns .zmr e.slba = .local_ → j.cls = .unbound →
    (∃ t c, exec (.reportZones e) s = .next t ∧ KV.find t.port.cmds (freeSlot j.st) = some c ∧ c.cid = e.cid ∧ c.stage = .dieDone ∧
      c.data = (zoneReport j.ns (e.slba / zoneSize j.ns.flbas) e.option false).take (4 * (e.numd + 1)) ∧ t.zn = j.st.zn ∧ t.media = j.st.media ∧ Core s t) ∧
    (∃ t c, exec (.extendedReportZones e) s = .next t ∧ KV.find t.port.cmds (freeSlot j.st) = some c ∧ c.cid = e.cid ∧ c.stage = .dieDone ∧
      c.data = (zoneReport j.ns (e.slba / zoneSize j.ns.flbas) e.option true).take (4 * (e.numd + 1)) ∧ t.zn = j.st.zn ∧ t.media = j.st.media ∧ Core s t)) ∧
  (∀ (s : State) (e : Io) (j : Judged), ioFront s e .flush = .ok j → j.cls = .unbound → pathOf j.ns .flush = .local_ → openWrites j.st e.nsid ≠ [] →
    ∃ t c, exec (.flush e) s = .next t ∧ KV.find t.port.cmds (freeSlot j.st) = some c ∧ c.stage = .waiting ∧ c.awaits = (openWrites j.st e.nsid).map (·.1) ∧
      t.port.posted = j.st.port.posted ∧ t.zn = j.st.zn ∧ t.jr = j.st.jr ∧ Core s t) ∧
  (∀ (s : State) (e : Io) (j : Judged), ioFront s e .flush = .ok j → j.cls = .unbound → pathOf j.ns .flush = .local_ → openWrites j.st e.nsid = [] →
    ∃ t, exec (.flush e) s = .next (finish t (freeSlot j.st) .success) ∧ KV.find t.port.cmds (freeSlot j.st) = some { newCmd e .flush j (freeCore j.st) with stage := .waiting } ∧
      t.zn = j.st.zn ∧ t.jr = j.st.jr ∧ Core s t)

/-- The end of a command (R30, R86, R468): it leaves the table and its buffers return to their pools; unless it runs on without a completion it is counted in its ledger row, and where the mode posts, the controller is ready and its queue pair exists, exactly its completion is posted before anything its end lets happen. READ_DATA_DELIVERED ends a read whose dies have all delivered with the read's status, and with its data only on success; a read still waiting for a die, a buffer or the twin's fetch is left. (What of this is not the spec's is the model's choice: log 1.) -/
def Obligations.EndOfACommand : Prop :=
  (∀ (s : State) (slot : Nat) (st : Status) (d0 d1 : Nat) (data : List Nat) (c : Cmd) (sq : Sq) (cq : Cq), KV.WF s.port.cmds → KV.find s.port.cmds slot = some c →
    c.quiet = false → c.fromTwin = false → s.md.mode ≠ .measure → s.md.mode ≠ .harvest → (ctrl s c.func).rdy = true →
    KV.find s.port.sqs (qkey c.func c.sqid) = some sq → KV.find s.port.cqs (qkey c.func sq.cqid) = some cq →
    ∃ rest, (finish s slot st d0 d1 data).port.posted = s.port.posted ++
      { func := c.func, sqid := c.sqid, cid := c.cid, status := st, dw0 := d0, dw1 := d1, sqhd := sq.head, at_ := s.time.dtb, phase := cq.phase, data := data } :: rest) ∧
  (∀ (s : State) (slot : Nat) (st : Status) (d0 d1 : Nat) (data : List Nat), KV.WF s.port.cmds → KV.find (finish s slot st d0 d1 data).port.cmds slot = none) ∧
  (∀ (s : State) (slot : Nat) (st : Status) (d0 d1 : Nat) (data : List Nat), (finish s slot st d0 d1 data).zn.store = s.zn.store ∧
    (finish s slot st d0 d1 data).jr = s.jr ∧ (finish s slot st d0 d1 data).media = s.media ∧ Core s (finish s slot st d0 d1 data)) ∧
  (∀ (s : State) (slot : Nat) (c : Cmd), KV.find s.port.cmds slot = some c → c.op.isWrite = false → c.stage = .dieDone → c.dies = [] → c.needBytes = 0 →
    (∀ f ∈ s.tw.fetches, f.2.1 ≠ slot) → exec (.readDataDelivered slot) s = .next (finish (endXts s slot) slot c.result 0 0 (if c.result = .success then c.data else []))) ∧
  (∀ (s : State) (slot : Nat) (c : Cmd), KV.find s.port.cmds slot = some c → c.dies ≠ [] ∨ c.needBytes ≠ 0 ∨ c.stage ≠ .dieDone →
    exec (.readDataDelivered slot) s = .next s)

/-- Writes on the module that orders their namespace (R114, R116, R145, R262, R266): a write, write zeroes or append that is judged in, whose zone check passes and which waits for no share forms a record under the next SEQ: its type, its namespace, LBAs and data, the key, not durable, with the command as its owner; an append's record starts at the zone's next LBA. An Unbound write whose share is not free waits, its record holding no share and no buffer taken. No content changes yet. A failed zone check ends the command with its status and forms no record. A write for the module that does not order the namespace is forwarded. (What of this is not the spec's is the model's choice: log 15.) -/
def Obligations.WritesFormRecords : Prop :=
  (∀ (s s2 s3 : State) (e : Io) (j : Judged) (off : Nat), ioFront s e .write = .ok j → writeFront j.st e j .write (freeSlot j.st) false = .ok s2 → pathOf j.ns .write = .local_ →
    coreChecks s2 e j .write = .ok (off, s3) → mustWait s3 e j .write = false →
    ∃ t c r, exec (.write e) s = .next t ∧ KV.find t.port.cmds (freeSlot j.st) = some c ∧ c.seq = some s3.jr.seq ∧ c.stage = .buffered ∧ c.slba = e.slba ∧
      KV.find t.jr.recs s3.jr.seq = some r ∧ t.jr.seq = s3.jr.seq + 1 ∧ r.typ = 1 ∧ r.nsid = e.nsid ∧ r.slba = e.slba ∧ r.nlb = e.nlb ∧ r.data = e.data ∧ r.key = j.key ∧
      r.durable = false ∧ r.dataIn = false ∧ r.slot = some (freeSlot j.st) ∧ t.zn.store = s.zn.store) ∧
  (∀ (s s2 s3 : State) (e : Io) (j : Judged) (off : Nat), ioFront s e .write = .ok j → writeFront j.st e j .write (freeSlot j.st) false = .ok s2 → pathOf j.ns .write = .local_ →
    coreChecks s2 e j .write = .ok (off, s3) → mustWait s3 e j .write = true →
    ∃ t c r, exec (.write e) s = .next t ∧ KV.find t.port.cmds (freeSlot j.st) = some c ∧ c.seq = some s3.jr.seq ∧ c.stage = .waiting ∧ c.needShare = recBytes j.ns .write e.nlb ∧
      c.bufs = [] ∧ KV.find t.jr.recs s3.jr.seq = some r ∧ r.bytes = 0 ∧ r.data = e.data ∧ r.durable = false ∧ r.dataIn = false ∧ t.zn.store = s.zn.store) ∧
  (∀ (s s2 s3 : State) (e : Io) (j : Judged) (off : Nat), ioFront s e .append = .ok j → writeFront j.st e j .append (freeSlot j.st) false = .ok s2 → pathOf j.ns .append = .local_ → j.ns.zoned = true →
    coreChecks s2 e j .append = .ok (off, s3) → mustWait s3 e j .append = false →
    ∃ t c r, exec (.zoneAppend e) s = .next t ∧ KV.find t.port.cmds (freeSlot j.st) = some c ∧ c.seq = some s3.jr.seq ∧
      c.slba = e.slba / zoneSize j.ns.flbas * zoneSize j.ns.flbas + (j.ns.zone (e.slba / zoneSize j.ns.flbas)).taken ∧
      KV.find t.jr.recs s3.jr.seq = some r ∧ r.typ = 3 ∧ r.nsid = e.nsid ∧ r.slba = c.slba ∧ r.nlb = e.nlb ∧ r.data = e.data ∧ r.key = j.key ∧ r.durable = false ∧
      r.slot = some (freeSlot j.st) ∧ t.zn.store = s.zn.store) ∧
  (∀ (s s2 s3 : State) (e : Io) (j : Judged) (off : Nat), ioFront s e .writeZeroes = .ok j → writeFront j.st e j .writeZeroes (freeSlot j.st) false = .ok s2 → pathOf j.ns .writeZeroes = .local_ →
    coreChecks s2 e j .writeZeroes = .ok (off, s3) → mustWait s3 e j .writeZeroes = false →
    ∃ t c r, exec (.writeZeroes e) s = .next t ∧ KV.find t.port.cmds (freeSlot j.st) = some c ∧ c.seq = some s3.jr.seq ∧ c.stage = .dataIn ∧ c.bufs = [] ∧
      KV.find t.jr.recs s3.jr.seq = some r ∧ r.typ = 2 ∧ r.nsid = e.nsid ∧ r.slba = e.slba ∧ r.nlb = e.nlb ∧ r.bytes = 256 ∧ r.dataIn = true ∧ r.durable = false ∧
      r.slot = some (freeSlot j.st) ∧ t.zn.store = s.zn.store) ∧
  (∀ (s s2 : State) (e : Io) (j : Judged) (st : Status), ioFront s e .write = .ok j → writeFront j.st e j .write (freeSlot j.st) false = .ok s2 → pathOf j.ns .write = .local_ →
    coreChecks s2 e j .write = .error st →
    ∃ u, exec (.write e) s = .next (finish u (freeSlot j.st) st) ∧ u.jr = s2.jr ∧ u.zn = s2.zn ∧ (∀ c ∈ u.cal.claims, c.slot ≠ some (freeSlot j.st))) ∧
  (∀ (s s2 : State) (e : Io) (j : Judged), ioFront s e .write = .ok j → writeFront j.st e j .write (freeSlot j.st) false = .ok s2 → pathOf j.ns .write = .forwarded →
    exec (.write e) s = .next (forward s2 (freeSlot j.st) e (newCmd e .write j (dispatchCore s2 j.ns .write e.slba)))) ∧
  (∀ (s s2 : State) (e : Io) (j : Judged), ioFront s e .append = .ok j → writeFront j.st e j .append (freeSlot j.st) false = .ok s2 → pathOf j.ns .append = .forwarded →
    exec (.zoneAppend e) s = .next (forward s2 (freeSlot j.st) e (newCmd e .append j (dispatchCore s2 j.ns .append e.slba)))) ∧
  (∀ (s s2 : State) (e : Io) (j : Judged), ioFront s e .writeZeroes = .ok j → writeFront j.st e j .writeZeroes (freeSlot j.st) false = .ok s2 → pathOf j.ns .writeZeroes = .forwarded →
    exec (.writeZeroes e) s = .next (forward s2 (freeSlot j.st) e (newCmd e .writeZeroes j (dispatchCore s2 j.ns .writeZeroes e.slba))))

/-- The zone checks of the owning core (R101, R114, R115, R116), in order: a zone that is offline, read only or full gives its status; a write that does not start at the zone's next LBA ends with Zone Invalid Write, an append must name the zone's first LBA; beyond the capacity of an open zone the write ends with Zone Boundary Error; otherwise an open zone takes it at its next LBA with nothing else changed. Zone changes (Table 4.3, R95, R99 to R101, R106, R118): close, finish, open, reset and offline of a zone, by its state: what each makes of the zone, what each leaves, and which states refuse it. A reset leaves every LBA of the zone unwritten and every other LBA as it was; the others change no content. An extension is stored in an Empty zone, which it places and moves to Closed. (What of this is not the spec's is the model's choice: log 8, 15.) -/
def Obligations.ZoneChecksAndChanges : Prop :=
  (∀ (s : State) (e : Io) (n : Ns) (op : IoOp) (st : Status), stateRefusal (n.zone (e.slba / zoneSize n.flbas)) true = some st → zoneChecks s e n op = .error st) ∧
  (∀ (s : State) (e : Io) (n : Ns) (op : IoOp), op ≠ .append → stateRefusal (n.zone (e.slba / zoneSize n.flbas)) true = none →
    e.slba % zoneSize n.flbas ≠ (n.zone (e.slba / zoneSize n.flbas)).taken → zoneChecks s e n op = .error .zoneInvalidWrite) ∧
  (∀ (s : State) (e : Io) (n : Ns), stateRefusal (n.zone (e.slba / zoneSize n.flbas)) true = none → e.slba % zoneSize n.flbas ≠ 0 → zoneChecks s e n .append = .error .invalidField) ∧
  (∀ (s : State) (e : Io) (n : Ns) (op : IoOp) (z : Zone), n.zone (e.slba / zoneSize n.flbas) = z → z.opened = true → (op ≠ .append → e.slba % zoneSize n.flbas = z.taken) →
    (op = .append → e.slba % zoneSize n.flbas = 0 ∧ e.nlb * lbaBytes n.flbas ≤ 1048576) →
    (z.cap < z.taken + e.nlb → zoneChecks s e n op = .error .zoneBoundaryError) ∧ (z.taken + e.nlb ≤ z.cap → zoneChecks s e n op = .ok (z.taken, s))) ∧
  (∀ (s : State) (f nsid i : Nat) (n : Ns), nsOf s nsid = some n → (n.zone i).opened = true →
    ∃ t m, zoneAction s f nsid i 1 = .ok t ∧ nsOf t nsid = some m ∧ m.zone i = (n.zone i).close ∧ (∀ k, k ≠ i → m.zone k = n.zone k) ∧ t.zn.store = s.zn.store ∧ t.jr = s.jr) ∧
  (∀ (s : State) (f nsid i : Nat) (n : Ns), nsOf s nsid = some n → (n.zone i).st ≠ .full → (n.zone i).st ≠ .readOnly → (n.zone i).st ≠ .offline →
    ∃ t m, zoneAction s f nsid i 2 = .ok t ∧ nsOf t nsid = some m ∧ (m.zone i).st = .full ∧
      ((n.zone i).st ≠ .empty → (m.zone i).wp = (n.zone i).wp ∧ (m.zone i).activeFunc = none ∧ (m.zone i).openFunc = none) ∧ (∀ k, k ≠ i → m.zone k = n.zone k) ∧ t.zn.store = s.zn.store) ∧
  (∀ (s : State) (f nsid i : Nat) (n : Ns), nsOf s nsid = some n → (n.zone i).st = .closed → openFree s f = true →
    ∃ t m, zoneAction s f nsid i 3 = .ok t ∧ nsOf t nsid = some m ∧ m.zone i = { n.zone i with st := .explOpen, openFunc := some f } ∧ (∀ k, k ≠ i → m.zone k = n.zone k) ∧
      t.zn.store = s.zn.store) ∧
  (∀ (s : State) (f nsid i g : Nat) (n : Ns), nsOf s nsid = some n → (n.zone i).st = .empty → openFree s f = true → activeFree s f = true → place s f {} = .ok g →
    ∃ t m, zoneAction s f nsid i 3 = .ok t ∧ nsOf t nsid = some m ∧ (m.zone i).st = .explOpen ∧ (m.zone i).group = some g ∧ (m.zone i).wp = 0 ∧
      (m.zone i).cap = zoneCap 0 (groupMembers s g) n.flbas ∧ (m.zone i).activeFunc = some f ∧ (m.zone i).openFunc = some f ∧ t.zn.store = s.zn.store) ∧
  (∀ (s : State) (f nsid i : Nat) (n : Ns), nsOf s nsid = some n → (n.zone i).st = .closed → openFree s f = false → oldestImplicit s f = none →
    zoneAction s f nsid i 3 = .error .tooManyOpen) ∧
  (∀ (s : State) (f nsid i : Nat) (n : Ns), KV.Canon {} s.zn.store → nsOf s nsid = some n → (n.zone i).st ≠ .empty → (n.zone i).st ≠ .readOnly → (n.zone i).st ≠ .offline →
    (i + 1) * zoneSize n.flbas ≤ 2^64 →
    ∃ t m, zoneAction s f nsid i 4 = .ok t ∧ nsOf t nsid = some m ∧ (m.zone i).st = .empty ∧ (m.zone i).wp = 0 ∧ (m.zone i).group = none ∧ (m.zone i).extValid = false ∧
      (∀ k, k ≠ i → m.zone k = n.zone k) ∧ (∀ lba, i * zoneSize n.flbas ≤ lba → lba < (i + 1) * zoneSize n.flbas → readLba t nsid lba = {}) ∧
      (∀ ns lba, lba < 2^64 → (ns ≠ nsid ∨ lba < i * zoneSize n.flbas ∨ (i + 1) * zoneSize n.flbas ≤ lba) → readLba t ns lba = readLba s ns lba)) ∧
  (∀ (s : State) (f nsid i : Nat) (n : Ns), nsOf s nsid = some n → (n.zone i).st = .readOnly →
    ∃ t m, zoneAction s f nsid i 5 = .ok t ∧ nsOf t nsid = some m ∧ (m.zone i).st = .offline ∧ (∀ k, k ≠ i → m.zone k = n.zone k) ∧ t.zn.store = s.zn.store) ∧
  (∀ (s : State) (f nsid i a : Nat) (n : Ns), nsOf s nsid = some n → (n.zone i).st = .offline → zoneAction s f nsid i a = .error .zoneIsOffline) ∧
  (∀ (s : State) (f nsid i a : Nat) (n : Ns), nsOf s nsid = some n → (n.zone i).st = .readOnly → 1 ≤ a → a ≤ 4 → zoneAction s f nsid i a = .error .zoneInvalidTransition) ∧
  (∀ (s : State) (e : Io) (n : Ns) (i g : Nat) (x : Ext), nsOf s e.nsid = some n → extOf s.part e.ext = some x → (n.zone i).st = .empty → activeFree s e.func = true → place s e.func x = .ok g →
    ∃ t m, setExtension e s n i = .ok t ∧ nsOf t e.nsid = some m ∧ (m.zone i).st = .closed ∧ (m.zone i).ext = x ∧ (m.zone i).extValid = true ∧ (m.zone i).group = some g ∧
      (m.zone i).cap = zoneCap x.density (groupMembers s g) n.flbas ∧ t.zn.store = s.zn.store)

/-- What makes a write hold (R25, R264, R265, R266, R271, R280): data that arrived and checked is marked so and its command waits for its record; data that failed a check drops the write, which ends with the check's status and leaves no content behind, and ends a forwarded one before it is sent. A record of a metadata namespace that is not mirrored, whose data is in, becomes applied when it is durable: every LBA it covers, where no copy of an equal or higher ordering key is held, then reads as the record's data under its key, every LBA outside it reads as before, and its command ends with success. So does the record of a zone that is alone there and starts at the write pointer, which advances past it; the zone becomes Full at its capacity. (What of this is not the spec's is the model's choice: log 5, 15, 23.) -/
def Obligations.DurableWritesAreRead : Prop :=
  (∀ (s : State) (slot q pi : Nat) (c : Cmd), KV.find s.port.cmds slot = some c → c.stage = .buffered → c.needBytes = 0 → c.needShare = 0 → c.fwd = false → c.seq = some q → pi ≠ 0 →
    exec (.hostDataReceived slot pi) s = .next (finish (dropWrite (endXts s slot) q) slot (checkStatus pi)) ∧ (dropWrite s q).zn.store = s.zn.store ∧
      (KV.WF s.jr.recs → KV.find (dropWrite s q).jr.recs q = none)) ∧
  (∀ (s : State) (slot pi : Nat) (c : Cmd), KV.find s.port.cmds slot = some c → c.stage = .buffered → c.needBytes = 0 → c.needShare = 0 → c.fwd = true → pi ≠ 0 →
    exec (.hostDataReceived slot pi) s = .next (finish (endXts s slot) slot (checkStatus pi))) ∧
  (∀ (s : State) (slot q : Nat) (c : Cmd) (r : VRec), KV.find s.port.cmds slot = some c → c.stage = .buffered → c.needBytes = 0 → c.needShare = 0 → c.fwd = false → c.seq = some q →
    KV.find s.jr.recs q = some r → r.wt = false → r.mirrored = false →
    ∃ t r', exec (.hostDataReceived slot 0) s = .next t ∧ KV.find t.jr.recs q = some r' ∧ r'.dataIn = true ∧ r'.durable = r.durable ∧
      KV.find t.port.cmds slot = some { c with stage := .dataIn, descr := false } ∧ t.zn = s.zn ∧ Core s t) ∧
  (∀ (s : State) (q slot : Nat) (r : VRec) (n : Ns), KV.Canon {} s.zn.store → KV.find s.jr.recs q = some r → r.durable = false → r.dataIn = true → r.wt = false → r.copy = false → r.completed = false →
    r.stale = false → r.zone = 0xFFFFFFFF → 1 ≤ r.typ → r.typ ≤ 2 → r.acked = true → r.slot = some slot → nsOf s r.nsid = some n → n.zoned = false → r.slba + r.nlb ≤ 2^64 →
    ∃ t, exec (.recordDurable q) s = .next t ∧
      (∀ i, i < r.nlb → (readLba s r.nsid (r.slba + i) = {} ∨ keyLe r.pepoch r.oseq (readLba s r.nsid (r.slba + i)).epoch (readLba s r.nsid (r.slba + i)).oseq = false) →
        plain (readLba t r.nsid (r.slba + i)) r.key = (if r.typ = 2 then 0 else nth r.data i)) ∧
      (∀ nsid lba, lba < 2^64 → (nsid ≠ r.nsid ∨ lba < r.slba ∨ r.slba + r.nlb ≤ lba) → readLba t nsid lba = readLba s nsid lba) ∧
      (KV.WF s.port.cmds → KV.find t.port.cmds slot = none)) ∧
  (∀ (s : State) (q slot : Nat) (r : VRec) (n : Ns), KV.Canon {} s.zn.store → KV.find s.jr.recs q = some r → zonePending s r.nsid r.zidx = [(q, r)] → r.durable = false → r.dataIn = true →
    r.wt = false → r.copy = false → r.stale = false → 1 ≤ r.typ → r.typ ≤ 3 → r.acked = true → r.slot = some slot → nsOf s r.nsid = some n → n.zoned = true →
    r.slba = r.zidx * zoneSize n.flbas + (n.zone r.zidx).wp → r.slba + r.nlb ≤ 2^64 →
    ∃ t m, exec (.recordDurable q) s = .next t ∧ nsOf t r.nsid = some m ∧ (m.zone r.zidx).wp = (n.zone r.zidx).wp + r.nlb ∧
      ((m.zone r.zidx).st = if (n.zone r.zidx).wp + r.nlb = (n.zone r.zidx).cap ∧ (n.zone r.zidx).active then .full else (n.zone r.zidx).st) ∧
      (∀ i, i < r.nlb → plain (readLba t r.nsid (r.slba + i)) r.key = (if r.typ = 2 then 0 else nth r.data i)) ∧
      (∀ nsid lba, lba < 2^64 → (nsid ≠ r.nsid ∨ lba < r.slba ∨ r.slba + r.nlb ≤ lba) → readLba t nsid lba = readLba s nsid lba)) ∧
  (∀ (s : State) (q : Nat) (r : VRec), KV.find s.jr.recs q = some r → r.durable = true ∨ r.dataIn = false → exec (.recordDurable q) s = .next s)

/-- Zone sends on the module that orders their namespace (R99, R106, R114, R121, R262, R321): each of the six actions on one zone, judged in, whose change the zone allows, leaves that change recorded: the record waits to be durable and the command for it; a reset gives the zone its RESET_ID. A reset whose zone refuses it ends with the status, and a close that leaves the zone as it was ends with success, neither with a record; a send that does not name a zone's first LBA is an invalid field. (What of this is not the spec's is the model's choice: log 15.) -/
def Obligations.ZoneSends : Prop :=
  (∀ (s s2 s3 : State) (e : Io) (j : Judged) (m : Ns), ioFront s { e with action := 1 } .zms = .ok j → writeFront j.st e j .zms (freeSlot j.st) false = .ok s2 → pathOf j.ns .zms = .local_ →
    zoneAction (acceptedSend s2 { e with action := 1 } j) e.func e.nsid (e.slba / zoneSize j.ns.flbas) 1 = .ok s3 → nsOf s3 e.nsid = some m →
    sameZone s3 e.nsid (e.slba / zoneSize j.ns.flbas) (j.ns.zone (e.slba / zoneSize j.ns.flbas)) = false →
    ∃ t, exec (.closeZone e) s = .next t ∧ SendRecorded j e 4 s3 t) ∧
  (∀ (s s2 s3 : State) (e : Io) (j : Judged) (m : Ns), ioFront s { e with action := 2 } .zms = .ok j → writeFront j.st e j .zms (freeSlot j.st) false = .ok s2 → pathOf j.ns .zms = .local_ →
    zoneAction (acceptedSend s2 { e with action := 2 } j) e.func e.nsid (e.slba / zoneSize j.ns.flbas) 2 = .ok s3 → nsOf s3 e.nsid = some m →
    sameZone s3 e.nsid (e.slba / zoneSize j.ns.flbas) (j.ns.zone (e.slba / zoneSize j.ns.flbas)) = false →
    ∃ t, exec (.finishZone e) s = .next t ∧ SendRecorded j e 2 s3 t) ∧
  (∀ (s s2 s3 : State) (e : Io) (j : Judged) (m : Ns), ioFront s { e with action := 3 } .zms = .ok j → writeFront j.st e j .zms (freeSlot j.st) false = .ok s2 → pathOf j.ns .zms = .local_ →
    zoneAction (acceptedSend s2 { e with action := 3 } j) e.func e.nsid (e.slba / zoneSize j.ns.flbas) 3 = .ok s3 → nsOf s3 e.nsid = some m →
    sameZone s3 e.nsid (e.slba / zoneSize j.ns.flbas) (j.ns.zone (e.slba / zoneSize j.ns.flbas)) = false →
    ∃ t, exec (.openZone e) s = .next t ∧ SendRecorded j e 3 s3 t) ∧
  (∀ (s s2 s3 : State) (e : Io) (j : Judged) (m : Ns), ioFront s { e with action := 4 } .zms = .ok j → writeFront j.st e j .zms (freeSlot j.st) false = .ok s2 → pathOf j.ns .zms = .local_ →
    zoneAction (acceptedSend s2 { e with action := 4 } j) e.func e.nsid (e.slba / zoneSize j.ns.flbas) 4 = .ok s3 → nsOf s3 e.nsid = some m →
    sameZone s3 e.nsid (e.slba / zoneSize j.ns.flbas) (j.ns.zone (e.slba / zoneSize j.ns.flbas)) = false →
    ∃ t, exec (.resetZone e) s = .next t ∧ SendRecorded j e 1 s3 t ∧ ∃ n, nsOf t e.nsid = some n ∧ (n.zone (e.slba / zoneSize j.ns.flbas)).resetId = resetIdOf s3.jr.seq (bit (s3.sup.slotid.getLsbD 0))) ∧
  (∀ (s s2 s3 : State) (e : Io) (j : Judged) (m : Ns), ioFront s { e with action := 5 } .zms = .ok j → writeFront j.st e j .zms (freeSlot j.st) false = .ok s2 → pathOf j.ns .zms = .local_ →
    zoneAction (acceptedSend s2 { e with action := 5 } j) e.func e.nsid (e.slba / zoneSize j.ns.flbas) 5 = .ok s3 → nsOf s3 e.nsid = some m →
    sameZone s3 e.nsid (e.slba / zoneSize j.ns.flbas) (j.ns.zone (e.slba / zoneSize j.ns.flbas)) = false →
    ∃ t, exec (.offlineZone e) s = .next t ∧ SendRecorded j e 7 s3 t) ∧
  (∀ (s s2 s3 : State) (e : Io) (j : Judged) (m : Ns), ioFront s { e with action := 16 } .zms = .ok j → writeFront j.st e j .zms (freeSlot j.st) false = .ok s2 → pathOf j.ns .zms = .local_ →
    setExtension e (acceptedSend s2 { e with action := 16 } j) j.ns (e.slba / zoneSize j.ns.flbas) = .ok s3 → nsOf s3 e.nsid = some m →
    sameZone s3 e.nsid (e.slba / zoneSize j.ns.flbas) (j.ns.zone (e.slba / zoneSize j.ns.flbas)) = false →
    ∃ t, exec (.setZoneDescriptorExtension e) s = .next t ∧ SendRecorded j e 5 s3 t) ∧
  (∀ (s s2 : State) (e : Io) (j : Judged) (st : Status), ioFront s { e with action := 4 } .zms = .ok j → writeFront j.st e j .zms (freeSlot j.st) false = .ok s2 → pathOf j.ns .zms = .local_ →
    zoneAction (acceptedSend s2 { e with action := 4 } j) e.func e.nsid (e.slba / zoneSize j.ns.flbas) 4 = .error st →
    exec (.resetZone e) s = .next (finish (acceptedSend s2 { e with action := 4 } j) (freeSlot j.st) st)) ∧
  (∀ (s s2 s3 : State) (e : Io) (j : Judged), ioFront s { e with action := 1 } .zms = .ok j → writeFront j.st e j .zms (freeSlot j.st) false = .ok s2 → pathOf j.ns .zms = .local_ →
    zoneAction (acceptedSend s2 { e with action := 1 } j) e.func e.nsid (e.slba / zoneSize j.ns.flbas) 1 = .ok s3 →
    sameZone s3 e.nsid (e.slba / zoneSize j.ns.flbas) (j.ns.zone (e.slba / zoneSize j.ns.flbas)) = true →
    exec (.closeZone e) s = .next (finish s3 (freeSlot j.st) .success)) ∧
  (∀ (s : State) (e : Io) (n : Ns), n.attached.contains e.func = true → e.slba % zoneSize n.flbas ≠ 0 → ioField s e n .zms false = some .invalidField)

/-- Select All (R120 to R122): it forms one multi-zone record under its controller's next number, in which every zone of the namespace counts as acted on, failed or skipped, or is still to be settled once its own record is; with no zone left to settle it is done. An action that does not exist is an invalid field. One for the module that does not order the namespace is forwarded under its record. (What of this is not the spec's is the model's choice: log 22, 33.) -/
def Obligations.SelectAllAccountsForEveryZone : Prop :=
  (∀ (s s2 : State) (e : Io) (j : Judged), ioFront s e .zms true = .ok j → writeFront j.st e j .zms (freeSlot j.st) true = .ok s2 → pathOf j.ns .zms = .local_ →
    ∃ t z, exec (.zoneSendSelectAll e) s = .next t ∧ (ctrl t e.func).zops.head? = some z ∧ z.seq = (ctrl j.st e.func).zopSeq + 1 ∧ z.nsid = e.nsid ∧ z.cid = e.cid ∧ z.action = e.action ∧
      z.acted + z.failed + z.skipped + (KV.find t.port.cmds (freeSlot j.st)).elim 0 (fun c => c.zres.length) = j.ns.zoneCount ∧
      ((KV.find t.port.cmds (freeSlot j.st)).elim 0 (fun c => c.zres.length) = 0 → z.done = true) ∧ (ctrl t e.func).zopSeq = z.seq) ∧
  (∀ (s : State) (e : Io) (n : Ns), n.attached.contains e.func = true → e.action = 0 ∨ 5 < e.action → ioField s e n .zms true = some .invalidField) ∧
  (∀ (s u : State) (e : Io), ioFront s e .zms true = .error u → exec (.zoneSendSelectAll e) s = .next u) ∧
  (∀ (s s2 : State) (e : Io) (j : Judged), ioFront s e .zms true = .ok j → writeFront j.st e j .zms (freeSlot j.st) true = .ok s2 → pathOf j.ns .zms = .forwarded →
    j.st.md.mode = .service → ∃ t c z, exec (.zoneSendSelectAll e) s = .next t ∧ KV.find t.port.cmds (freeSlot j.st) = some c ∧ c.fwd = true ∧ c.zop = z.seq ∧
      (ctrl t e.func).zops.head? = some z ∧ z.forwarded = true ∧ z.seq = (ctrl j.st e.func).zopSeq + 1)

/-- Unbound commands that waited (R145, R468, R470, R471): once buffers are free for one inside its quotas it holds them, referenced once for each of its users, and waits for none; a waiting write is charged its share and asks for its data once its record fits, and stays as it is while it does not. Deadlines and request cores (R26, R29 to R32, R35): an armed deadline that is reached is counted as a miss of its ledger row, once, and the command runs on; before its instant the timer does nothing. A rescue point that is reached and whose core's beat is older than 4 µs moves every command off that core, provided another runs, and declares it hung; a younger beat only spends the rescue point. A beat is stamped. The watchdog resets a core with no command left on it; a core that returns to service has its zones again. (What of this is not the spec's is the model's choice: log 3, 105.) -/
def Obligations.GrantsDeadlinesAndCores : Prop :=
  (∀ (s : State) (slot : Nat) (c : Cmd) (p : List Pool) (b : List Nat), KV.find s.port.cmds slot = some c → c.needBytes ≠ 0 → allocBufs s.it.pools c.needBytes = some (p, b) →
    (c.cls = .unbound → quotaFits s c.func b = true) → 4194304 ≤ freeBytes p →
    ∃ t, exec (.unboundBufferGrant slot) s = .next t ∧ KV.find t.port.cmds slot = some { c with bufs := b, needBytes := 0 } ∧ t.it.pools = p ∧
      (∀ x ∈ b, KV.find t.it.refs x = some c.users.length) ∧ t = { s with port := { s.port with cmds := t.port.cmds }, it := t.it }) ∧
  (∀ (s : State) (slot : Nat) (c : Cmd), KV.find s.port.cmds slot = some c → c.needBytes ≠ 0 → allocBufs s.it.pools c.needBytes = none →
    exec (.unboundBufferGrant slot) s = .next (setCmd s slot (fun x => { x with needBytes := c.needBytes, users := c.users }))) ∧
  (∀ (s : State) (slot q : Nat) (c : Cmd) (r : VRec) (n : Ns), KV.find s.port.cmds slot = some c → c.seq = some q → KV.find s.jr.recs q = some r → nsOf s c.nsid = some n → s.md.writeThrough = false →
    mirrors s n = false → c.needShare ≠ 0 → c.needShare ≤ shareOwn s c.func → logFull n = false → c.op = .write → c.fromTwin = false →
    ∃ t c' r', exec (.unboundWriteShareGrant slot) s = .next t ∧ KV.find t.port.cmds slot = some c' ∧ c'.needShare = 0 ∧ c'.stage = .buffered ∧
      KV.find t.jr.recs q = some r' ∧ r' = { r with bytes := c.needShare, wt := false } ∧ t.zn = s.zn) ∧
  (∀ (s : State) (slot q : Nat) (c : Cmd) (n : Ns), KV.find s.port.cmds slot = some c → c.seq = some q → nsOf s c.nsid = some n → wtNow s n = false → shareFree s c.func < c.needShare →
    exec (.unboundWriteShareGrant slot) s = .next s) ∧
  (∀ (s : State) (slot d : Nat) (c : Cmd), KV.find s.port.cmds slot = some c → c.armed = true → c.expired = false → c.deadline = some d → d ≤ s.time.dtb →
    ∃ t, exec (.deadlineTimerExpiry slot) s = .next t ∧ t = { s with port := t.port } ∧ KV.find t.port.cmds slot = some { c with expired := true, armed := false } ∧
      (KV.findD t.port.ledger (ledgerKey c.func (ledgerRow c.cls c.op)) {}).misses = ((KV.findD s.port.ledger (ledgerKey c.func (ledgerRow c.cls c.op)) {}).misses + 1) % 2^32 ∧
      t.port.posted = s.port.posted) ∧
  (∀ (s : State) (slot : Nat) (c : Cmd), KV.find s.port.cmds slot = some c → c.armed = false ∨ c.expired = true ∨ (∀ d, c.deadline = some d → s.time.dtb < d) →
    exec (.deadlineTimerExpiry slot) s = .next s) ∧
  (∀ (s : State) (slot d : Nat) (c : Cmd), KV.WF s.port.cmds → KV.find s.port.cmds slot = some c → c.rescue = some d → d ≤ s.time.dtb → (KV.findD s.it.cores c.core {}).hung = false →
    (KV.findD s.it.cores c.core {}).inReset = false → (KV.findD s.it.cores c.core {}).beat + 4000 < s.time.dtb → otherCores s c.core ≠ [] →
    ∃ t, exec (.rescuePoint slot) s = .next t ∧ (KV.findD t.it.cores c.core {}).hung = true ∧ ownedBy t c.core = [] ∧
      t.port.cmds.map (fun p => (p.1, p.2.stage)) = s.port.cmds.map (fun p => (p.1, p.2.stage)) ∧ t.zn.store = s.zn.store ∧ t.jr = s.jr ∧ Core s t) ∧
  (∀ (s : State) (slot d : Nat) (c : Cmd), KV.find s.port.cmds slot = some c → c.rescue = some d → d ≤ s.time.dtb → s.time.dtb ≤ (KV.findD s.it.cores c.core {}).beat + 4000 →
    exec (.rescuePoint slot) s = .next (setCmd s slot (fun x => { x with rescue := none }))) ∧
  (∀ (s : State) (slot d : Nat) (c : Cmd), KV.find s.port.cmds slot = some c → c.rescue = some d → s.time.dtb < d → exec (.rescuePoint slot) s = .next s) ∧
  (∀ (s : State) (core : Nat), core < 24 → ∃ t, exec (.progressBeat core) s = .next t ∧ (KV.findD t.it.cores core {}).beat = s.time.dtb ∧
    t = { s with it := { s.it with cores := t.it.cores }, port := { s.port with cmds := KV.mapVals s.port.cmds (fun _ c => if c.core == core then { c with descr := false } else c) } } ∧
    ∀ c, c ≠ core → KV.find t.it.cores c = KV.find s.it.cores c) ∧
  (∀ (s : State) (core : Nat), KV.WF s.port.cmds → core < 24 → (KV.findD s.it.cores core {}).inReset = false → (KV.findD s.it.cores core {}).hung = false → otherCores s core ≠ [] →
    ∃ t, exec (.requestCoreWatchdog core) s = .next t ∧ (KV.findD t.it.cores core {}).inReset = true ∧ ownedBy t core = [] ∧ t.zn.store = s.zn.store ∧ t.jr = s.jr ∧ Core s t) ∧
  (∀ (s : State) (core : Nat), (KV.findD s.it.cores core {}).inReset = true ∨ (KV.findD s.it.cores core {}).hung = true → s.md.mode ≠ .measure →
    ∃ t, exec (.coreReturnToService core) s = .next t ∧ coreRuns t core = true ∧ (∀ z, z % 24 = core → zoneCore t z = core) ∧ t.port.cmds = s.port.cmds ∧ t.zn.store = s.zn.store ∧ Core s t)

/-- The calendar's boundaries (R157, R179): the next slot begins 8,000 ns after the last and the next period 8,192,000 ns after, and the time base never falls behind them; the budgets set since the last period boundary are in force from this one; while the calendar does not run a slot's boundary only flushes held interrupts and settles shutdowns. Neither boundary changes content, nor, but for a refused decrement's island fault, the mode, the boot state or the supply. Suspensions and die watchdogs (R167, R170): an acknowledgement within 20 µs only clears the request; a later one is recorded, and the third in a period fails the die, as does an operation that has run 50 ms unanswered; before that the watchdog does nothing. (What of this is not the spec's is the model's choice: log 3.) -/
def Obligations.CalendarAndDieWatchdogs : Prop :=
  (∀ s : State, ∃ t, exec .slotBoundary s = .next t ∧ t.cal.slot = s.cal.slot + 1 ∧ t.time.dtb = max s.time.dtb ((s.cal.slot + 1) * 8000) ∧ t.cal.period = s.cal.period ∧
    t.zn.store = s.zn.store) ∧
  (∀ s : State, (nextBoundary s).it.decFault = false ∨ s.sup.rails = false → ∃ t, exec .slotBoundary s = .next t ∧ t.md.mode = s.md.mode ∧ t.boot = s.boot ∧ t.sup = s.sup) ∧
  (∀ s : State, s.cal.running = false → s.it.decFault = false → exec .slotBoundary s =
    .next (settleShutdowns (flushHeld (timeTo { s with cal := { s.cal with slot := s.cal.slot + 1 } } ((s.cal.slot + 1) * 8000))))) ∧
  (∀ s : State, ∃ t, exec .periodBoundary s = .next t ∧ t.cal.period = s.cal.period + 1 ∧ t.time.dtb = max s.time.dtb ((s.cal.period + 1) * 8192000) ∧ t.cal.slot = s.cal.slot ∧
    t.zn.store = s.zn.store ∧ t.md.mode = s.md.mode ∧ t.boot = s.boot ∧ t.sup = s.sup) ∧
  (∀ s : State, s.cal.running = true → KV.WF s.cal.nextBudgets → ∃ t, exec .periodBoundary s = .next t ∧ t.cal.nextBudgets = [] ∧
    ∀ f b, KV.find s.cal.nextBudgets f = some b → KV.find t.cal.budgets f = some b) ∧
  (∀ (s : State) (die ns : Nat) (o : DieOp) (a : Nat), (dieOf s die).op = some o → o.asked = some a → ns ≤ 20000 →
    exec (.suspendAcknowledge die ns) s = .next (setDie s die (fun x => { x with op := some { o with asked := none, ranNs := 0 } }))) ∧
  (∀ (s : State) (die ns : Nat) (o : DieOp) (a : Nat), (dieOf s die).op = some o → o.asked = some a → 20000 < ns → KV.findD s.cal.late die 0 = 2 →
    ∃ t, exec (.suspendAcknowledge die ns) s = .next t ∧ (dieOf t die).state = .failed ∧ t.md.mode = s.md.mode ∧ t.sup = s.sup ∧ t.time = s.time) ∧
  (∀ (s : State) (die ns : Nat) (o : DieOp) (a : Nat), (dieOf s die).op = some o → o.asked = some a → 20000 < ns → KV.findD s.cal.late die 0 < 2 →
    ∃ t, exec (.suspendAcknowledge die ns) s = .next t ∧ (dieOf t die).state = (dieOf s die).state ∧ KV.findD t.cal.late die 0 = KV.findD s.cal.late die 0 + 1 ∧
      t.zn.store = s.zn.store ∧ Core s t) ∧
  (∀ (s : State) (die : Nat), 50000000 ≤ ranFor s die → ∃ t, exec (.dieOperationWatchdog die) s = .next t ∧ (dieOf t die).state = .failed ∧ t.md.mode = s.md.mode ∧ t.sup = s.sup ∧ t.time = s.time) ∧
  (∀ (s : State) (die : Nat), ranFor s die < 50000000 → exec (.dieOperationWatchdog die) s = .next s)

/-- Reads of the dies (R201 to R204, R213, R226, R227, R239): a page read with no failing codeword answers its die for the command that waits, and counts on its block set; with a failing one the command goes on waiting for that die. A soft read that decodes answers it; one that fails does not. Survivors with at most two erasures answer it; with more, a lost data unit of the command makes its status Unrecovered Read Error. A read-disturb check below its threshold changes nothing, one without errors halves the count to the threshold's half, one with errors queues a refresh of priority 3. (What of this is not the spec's is the model's choice: log 3, 5.) -/
def Obligations.DieReads : Prop :=
  (∀ (s : State) (slot die errs k : Nat) (c : Cmd), KV.find s.port.cmds slot = some c → c.dies ≠ [] → c.fromTwin = false → readSet s c die = some k → errs ≤ 96 →
    ∃ t, exec (.dieReadComplete (some slot) die 0 errs) s = .next t ∧
      KV.find t.port.cmds slot = some { c with dies := c.dies.filter (· != die), stage := if (c.dies.filter (· != die)).isEmpty && c.stage == .dieRequested then .dieDone else c.stage } ∧
      (bsetOf t k).reads = (bsetOf s k).reads + max 1 (needOn s c die).reads.length ∧ t.zn = s.zn ∧ t.jr = s.jr ∧ Core s t) ∧
  (∀ (s : State) (slot die fails errs : Nat) (c : Cmd), KV.find s.port.cmds slot = some c → c.dies ≠ [] → fails ≠ 0 →
    ∃ t, exec (.dieReadComplete (some slot) die fails errs) s = .next t ∧ KV.find t.port.cmds slot = some c ∧ t.zn = s.zn ∧ t.jr = s.jr ∧ Core s t) ∧
  (∀ (s : State) (slot die page plane : Nat) (c : Cmd), KV.find s.port.cmds slot = some c → c.fromTwin = false →
    ∃ t, exec (.softRetryComplete (some slot) die page plane true) s = .next t ∧ (∃ c', KV.find t.port.cmds slot = some c' ∧ c'.dies = c.dies.filter (· != die)) ∧
      (dieOf t die).softRetries = (dieOf s die).softRetries + 1 ∧ t.zn = s.zn ∧ t.jr = s.jr ∧ Core s t) ∧
  (∀ (s : State) (slot die page plane : Nat) (c : Cmd), KV.find s.port.cmds slot = some c →
    ∃ t, exec (.softRetryComplete (some slot) die page plane false) s = .next t ∧ KV.find t.port.cmds slot = some c ∧ t.zn = s.zn ∧ t.jr = s.jr ∧ Core s t) ∧
  (∀ (s : State) (slot die er nsid : Nat) (lost : List Nat) (c : Cmd), KV.find s.port.cmds slot = some c → c.fromTwin = false → er ≤ 2 →
    ∃ t c', exec (.stripeReconstructionComplete (some slot) die er nsid lost) s = .next t ∧ KV.find t.port.cmds slot = some c' ∧ c'.dies = c.dies.filter (· != die) ∧
      c'.result = c.result ∧ t.zn = s.zn ∧ t.jr = s.jr ∧ Core s t) ∧
  (∀ (s : State) (slot die er l : Nat) (c : Cmd), KV.find s.port.cmds slot = some c → c.fromTwin = false → 2 < er → s.md.mode ≠ .service → s.tw.fetches = [] → c.slba ≤ l → l < c.slba + c.nlb →
    ∃ t c', exec (.stripeReconstructionComplete (some slot) die er c.nsid [l]) s = .next t ∧ KV.find t.port.cmds slot = some c' ∧ c'.result = .unrecoveredRead) ∧
  (∀ (s : State) (die bset : Nat) (errs : Bool), (bsetOf s (setKey die bset)).reads < readLimit (bsetOf s (setKey die bset)).mode → exec (.readDisturbCheck die bset errs) s = .next s) ∧
  (∀ (s : State) (die bset : Nat), readLimit (bsetOf s (setKey die bset)).mode ≤ (bsetOf s (setKey die bset)).reads →
    exec (.readDisturbCheck die bset true) s = .next (queueRefresh s (setKey die bset) 3) ∧
    ∃ t, exec (.readDisturbCheck die bset false) s = .next t ∧ (bsetOf t (setKey die bset)).reads = readLimit (bsetOf s (setKey die bset)).mode / 2 ∧ t = { s with media := { s.media with sets := t.media.sets } })

/-- Programs, erases and staging (R104, R189, R209, R217, R273, R274): a program that ends frees its die and is counted; one that fails on a zone's row marks its block bad and, where no set is free to go on in, is queued again for the same word line. An erase that ends frees its die, counts on the block set, which is free, unread and unbound again, and forms a module record. Nothing happens on a die that runs neither. A zone below capacity whose oldest incomplete word line has been held is staged, where the group stages; a row that has been filling for 2 ms is released, and not before. A zone active for 604,800 s recommends its finish once. (What of this is not the spec's is the model's choice: log 25, 30.) -/
def Obligations.ProgramsErasesAndStaging : Prop :=
  (∀ (s : State) (die plane : Nat) (last : Bool) (o : DieOp), (dieOf s die).claimOp = none → (dieOf s die).op = some o → o.suspended = false → o.kind ≠ .erase →
    o.job ≠ .zone ∨ (bsetOf s (setKey die o.bset)).state ≠ .awaitErase →
    ∃ t, exec (.programComplete die plane ⟨true, last⟩) s = .next t ∧ (dieOf t die).op = none ∧ t.media.progKib = s.media.progKib + passKib o.kind ∧ (o.job = .zone → t.zn.store = s.zn.store) ∧ Core s t) ∧
  (∀ (s : State) (die plane : Nat) (last : Bool) (o : DieOp), (dieOf s die).claimOp = none → (dieOf s die).op = some o → o.suspended = false → o.kind ≠ .erase → o.bset < 2048 → o.job = .zone →
    (bsetOf s (setKey die o.bset)).state ≠ .awaitErase →
    ∃ t, exec (.programComplete die plane ⟨false, last⟩) s = .next t ∧ (dieOf t die).op = none ∧ (dieOf t die).grownBad = (dieOf s die).grownBad + 1 ∧
      (chooseSet s die 0 = none → ∃ p ∈ t.cal.progs, p.die = die ∧ p.kind = o.kind ∧ p.wl = o.wl ∧ p.job = .zone) ∧ t.zn.store = s.zn.store ∧ Core s t) ∧
  (∀ (s : State) (die plane : Nat) (ok last : Bool), (dieOf s die).claimOp = none → (dieOf s die).op = none →
    exec (.programComplete die plane ⟨ok, last⟩) s = .next s ∧ exec (.eraseComplete die plane ok) s = .next s) ∧
  (∀ (s : State) (die plane : Nat) (o : DieOp), (dieOf s die).op = some o → o.suspended = false → o.kind = .erase → o.bset < 2048 → (bsetOf s (setKey die o.bset)).bad = [] →
    (bsetOf s (setKey die o.bset)).role = .zone →
    ∃ t, exec (.eraseComplete die plane true) s = .next t ∧ (dieOf t die).op = none ∧ (bsetOf t (setKey die o.bset)).state = .free ∧ (bsetOf t (setKey die o.bset)).reads = 0 ∧
      (bsetOf t (setKey die o.bset)).erases = min ((bsetOf s (setKey die o.bset)).erases + 1) (2^24 - 1) ∧ (bsetOf t (setKey die o.bset)).nsid = 0 ∧
      t.jr.seq = s.jr.seq + 1 ∧ t.zn.store = s.zn.store ∧ Core s t) ∧
  (∀ (s : State) (nsid zone : Nat) (n : Ns), nsOf s nsid = some n → (n.zone zone).ext.density ≠ 2 → holdsIncomplete s nsid zone = true → stagingStopped s ((n.zone zone).group.getD 0) = false →
    ∃ t m, exec (.stagingThreshold nsid zone) s = .next t ∧ nsOf t nsid = some m ∧ (m.zone zone).staging = true ∧ t.zn.store = s.zn.store ∧ Core s t) ∧
  (∀ (s : State) (nsid zone : Nat) (n : Ns), nsOf s nsid = some n → (n.zone zone).ext.density = 2 ∨ holdsIncomplete s nsid zone = false → exec (.stagingThreshold nsid zone) s = .next s) ∧
  (∀ (s : State) (g t0 : Nat), g < 64 → (grpOf s g).rowAt = some t0 → t0 + 2000000 ≤ s.time.dtb → ∃ t, exec (.stagingRowTimeout g) s = .next t ∧ (grpOf t g).rowUnits = [] ∧
    t.zn = s.zn ∧ t.jr = s.jr ∧ t.port = s.port ∧ Core s t) ∧
  (∀ (s : State) (g : Nat), (∀ k t0, (grpOf s k).rowAt = some t0 → s.time.dtb < t0 + 2000000) → exec (.stagingRowTimeout g) s = .next s) ∧
  (∀ (s : State) (nsid zone : Nat) (n : Ns), nsOf s nsid = some n → (n.zone zone).active = true → (n.zone zone).finishRec = false →
    (n.zone zone).leftAt + 604800000000000 ≤ s.time.dtb →
    ∃ t m, exec (.zoneOpenAgeExpiry nsid zone) s = .next t ∧ nsOf t nsid = some m ∧ (m.zone zone).finishRec = true ∧ m.changed.contains zone = true ∧ t.jr.seq = s.jr.seq + 1 ∧
      t.zn.store = s.zn.store ∧ Core s t)

/-- Checkpoints, retention and wear (R204, R210, R276, R347): in an open session a checkpoint, 30 s after the last, takes the next number and covers the records below the present SEQ, leaving the content and every record not yet applied but its place in the journal's pages; without a session or before its time it changes nothing. The retention clock advances a sixteenth of a day and is saved. The percentage used follows the larger mean wear, of 6,000 cycles, and its change sets the wear bit of the controller status. (What of this is not the spec's is the model's choice: log 3.) -/
def Obligations.CheckpointsRetentionAndWear : Prop :=
  (∀ s : State, s.jr.session = true → s.jr.ckptAt + 30000000000 ≤ s.time.dtb → ∃ t, exec .checkpointInterval s = .next t ∧ t.jr.ckpt = s.jr.ckpt + 1 ∧ t.jr.ckptSeq = s.jr.seq ∧ t.jr.seq = s.jr.seq + 1 ∧
    t.jr.ckptAt = s.time.dtb ∧ (KV.WF s.jr.recs → ∀ q r, KV.find s.jr.recs q = some r → r.completed = false → r.typ ≠ 0x30 → q ≠ s.jr.seq → ∃ p, KV.find t.jr.recs q = some { r with page0 := p }) ∧
    t.zn = s.zn ∧ t.port = s.port ∧ t.media = s.media ∧ Core s t) ∧
  (∀ s : State, s.jr.session = false ∨ s.time.dtb < s.jr.ckptAt + 30000000000 → exec .checkpointInterval s = .next s) ∧
  (∀ (s : State) (shifts worn : List Nat), s.sup.rails = true → ∃ t, exec (.retentionClockIncrement shifts worn) s = .next t ∧ t.time.rd = s.time.rd + 1 ∧ t.time.rdSaved = s.time.rd + 1 ∧
    t.time.dtb = s.time.dtb ∧ t.zn = s.zn ∧ t.jr = s.jr ∧ t.port = s.port ∧ t.md = s.md ∧ t.boot = s.boot ∧ t.sup = s.sup) ∧
  (∀ s : State, ∃ t, exec .percentageUsedUpdate s = .next t ∧ t.media.pctUsed = min 255 (100 * max (wearMean s [.zone] 1936) (wearMean s [.staging, .metaMap, .metaLog, .system, .landing] 110) / 600000) ∧
    (t.media.pctUsed = s.media.pctUsed → t.adm = s.adm) ∧ t.zn = s.zn ∧ t.jr = s.jr ∧ t.port = s.port ∧ Core s t)

/-- Measured boot (R357 to R362): in Measure a stage is measured only in order; the first chooses the slot that runs; each of the first seven appends its record, extends the compound device identifier and stays in Measure; a boot with no slot that verifies ends at once in Quarantine 3; after the eighth the verdict is the one already held, else 0 under an enforcing policy and 1 otherwise: verdict 2 leads to Quarantine 2, the others to Recovery. (What of this is not the spec's is the model's choice: log 5, 38.) -/
def Obligations.MeasuredBoot : Prop :=
  (∀ (s : State) (k : Nat) (train : List (List (List ChanSetting))) (bad : List Nat), s.md.mode ≠ .measure ∨ k ≠ s.boot.regs.length → exec (.stageMeasured k train bad) s = .next s) ∧
  (∀ (s : State) (k : Nat) (train : List (List (List ChanSetting))) (bad : List Nat), s.md.mode = .measure → s.sup.rails = true → s.boot.regs.length = k → 0 < k → k < 7 → s.boot.slotRun ≠ 0 →
    ∃ t, exec (.stageMeasured k train bad) s = .next t ∧ t.md = s.md ∧ t.boot.regs = s.boot.regs ++ [measureOf s k] ∧ t.boot.cdi = nextCdi s k (measureOf s k).digest ∧
      t.boot.udsOpen = false ∧ (t.boot.verdict = if s.boot.policy.enforce && k < 6 && !s.boot.policy.allows k (measureOf s k).digest then some 2 else s.boot.verdict) ∧
      t = { s with boot := t.boot }) ∧
  (∀ (s : State) (train : List (List (List ChanSetting))) (bad : List Nat), s.md.mode = .measure → s.sup.rails = true → s.boot.regs = [] → slotToRun s ≠ 0 →
    ∃ t, exec (.stageMeasured 0 train bad) s = .next t ∧ t.boot.slotRun = slotToRun s ∧ t.boot.fallback = (slotToRun s != s.boot.slotSel) ∧ t.boot.regs.length = 1 ∧
      t = { s with boot := t.boot }) ∧
  (∀ (s : State) (train : List (List (List ChanSetting))) (bad : List Nat), s.md.mode = .measure → s.sup.rails = true → s.boot.regs = [] → slotToRun s = 0 →
    ∃ t, exec (.stageMeasured 0 train bad) s = .next t ∧ t.md.mode = .quarantine ∧ t.md.qcause = 3 ∧ t.boot.verdict = some 3 ∧ t.boot.regs = [] ∧ t.zn.store = s.zn.store) ∧
  (∀ (s : State) (train : List (List (List ChanSetting))) (bad : List Nat), s.md.mode = .measure → s.sup.rails = true → s.boot.regs.length = 7 → s.boot.slotRun ≠ 0 → s.boot.verdict = none →
    ∃ t, exec (.stageMeasured 7 train bad) s = .next t ∧ t.md.mode = .recovery ∧ t.boot.verdict = some (if s.boot.policy.enforce then 0 else 1) ∧ t.boot.regs.length = 8 ∧
      (s.boot.cause ≠ 0 → t.zn.store = s.zn.store)) ∧
  (∀ (s : State) (train : List (List (List ChanSetting))) (bad : List Nat), s.md.mode = .measure → s.sup.rails = true → s.boot.regs.length = 7 → s.boot.slotRun ≠ 0 → s.boot.verdict = some 2 →
    ∃ t, exec (.stageMeasured 7 train bad) s = .next t ∧ t.md.mode = .quarantine ∧ t.md.qcause = 2 ∧ t.boot.verdict = some 2 ∧ (s.boot.cause ≠ 0 → t.zn.store = s.zn.store))

/-- Recovery and the Almanac (R207, R348, R349, R368, R369): a map that cannot be rebuilt leads to Quarantine 5; a Recovery that completes leads to Pairing where a peer is present and the module was not unpaired, else to Solo, by the path its checkpoint allows, with the retention clock advanced by the gap that was due and that the references' rises give. The present entry is signed once it may be, with the alias key or, for a verdict 3, the device key, and the signing is no longer due; the body then takes it, and keeps every entry it holds. (What of this is not the spec's is the model's choice: log 37, 39, 40.) -/
def Obligations.RecoveryAndAlmanac : Prop :=
  (∀ (s : State) (ck : Nat) (rises shifts : List Nat) (found : Scan), s.md.mode = .recovery → s.sup.rails = true →
    ∃ t, exec (.recoveryComplete ck false rises shifts found) s = .next t ∧ t.md.mode = .quarantine ∧ t.md.qcause = 5 ∧ t.zn.store = s.zn.store) ∧
  (∀ (s : State) (ck : Nat) (rises shifts : List Nat) (found : Scan), s.md.mode = .recovery → s.sup.rails = true →
    ∃ t, exec (.recoveryComplete ck true rises shifts found) s = .next t ∧ t.md.mode = (if peerPresent s && !s.tw.unpaired then .pairing else .solo) ∧ t.md.prev = .recovery ∧
      t.md.path = (if 2 ≤ ck then 2 else if s.md.cleanOff && ck == 0 then 0 else 1) ∧ t.md.recoveryScan = decide (2 ≤ ck) ∧ t.ev.mounted = true) ∧
  (∀ (s : State) (ck e : Nat) (rises shifts : List Nat) (found : Scan), s.md.mode = .recovery → s.sup.rails = true → s.time.gapDue = true → gapEstimate rises = some e → e ≤ 17520 →
    ∃ t, exec (.recoveryComplete ck true rises shifts found) s = .next t ∧ t.time.rd = s.time.rd + BitVec.ofNat 32 e ∧ t.time.gap = some e ∧ t.time.gapDue = false) ∧
  (∀ (s : State) (a : Alm), canSign s = true → KV.find s.boot.ring s.boot.boot = some a →
    ∃ t a', exec .almanacSigning s = .next t ∧ t = { s with boot := t.boot } ∧ t.boot.signPending = false ∧ KV.find t.boot.ring s.boot.boot = some a' ∧ a'.signed = true ∧
      a'.signature = Config.sign (if a.signer then Config.uds else s.boot.cdi) (Config.sha384 (almEndorsed t a' ++ almTime a')) ∧ a'.boot = a.boot ∧ a'.stages = a.stages ∧
      (∀ b, b ≠ s.boot.boot → KV.find t.boot.ring b = KV.find s.boot.ring b)) ∧
  (∀ s : State, canSign s = false → exec .almanacSigning s = .next s) ∧
  (∀ s : State, s.boot.signPending = false → s.md.mode ≠ .measure → s.md.mode ≠ .harvest → s.ev.mounted = true → KV.find s.boot.body s.boot.boot = none → s.boot.boot ≤ bodyMax → KV.WF s.boot.ring →
    ∃ t, exec .almanacBodyCopy s = .next t ∧ t = { s with boot := { s.boot with body := t.boot.body } } ∧ KV.find t.boot.body s.boot.boot = KV.find s.boot.ring s.boot.boot ∧
      (∀ b a, KV.find s.boot.body b = some a → KV.find t.boot.body b = some a)) ∧
  (∀ s : State, s.boot.signPending = true → exec .almanacBodyCopy s = .next s)

/-- Temperature (R427, R443, R445, R455, R456): a sample of a class replaces its readings and keeps the highest ever; a level whose threshold the hottest reaches is over from then on; a sample of the wrong length, in Holiday or before it is due changes nothing. At or above the throttle threshold 2 s more impose one power state deeper, to PS3 at most, and not before; 10 s cool with no rate held relax one, and not before. The hold of a rate ends 2 s after the exceedance at half the limit. A minute record, at its minute's end, keeps the newest 10,080. The thermal shut-down (R39, R457, R458): at the deadline, or once the dies are idle, no die runs a pass and the calendar stands still without claims or programs; once no command is left and the departure is made the module enters Quarantine 1 with the journal size 0, counted, sealed; after 60 s below warn Recovery runs. Before each of these instants nothing happens. (What of this is not the spec's is the model's choice: log 48, 49, 54.) -/
def Obligations.ThermalPolicy : Prop :=
  (∀ (s : State) (cls : Nat) (first : Int) (rest now : List Int), now = first :: rest → cls ≤ 3 → now.length = sensorCount cls → sampleDue s cls = true → s.sup.rails = true → s.md.mode ≠ .holiday →
    ∃ t, exec (.thermalSample cls first rest) s = .next t ∧ (sensorOf t cls).now = now ∧ (sensorOf t cls).maxLife = max (sensorOf s cls).maxLife (hottest now) ∧
      (∀ l thr, 1 ≤ l → l ≤ 3 → threshold s cls l = some thr → thr ≤ hottest now → (sensorOf t cls).over l = true) ∧ t.zn.store = s.zn.store) ∧
  (∀ (s : State) (cls : Nat) (first : Int) (rest : List Int), (first :: rest).length ≠ sensorCount cls ∨ s.md.mode = .holiday ∨ sampleDue s cls = false → exec (.thermalSample cls first rest) s = .next s) ∧
  (∀ (s : State) (h : Nat), s.th.throttling = true → atThrottle s = true → s.th.hotSince = some h → h + 2000000000 ≤ s.time.dtb → ∃ t, exec .throttleDeepen s = .next t ∧ t.th.imposed = min 3 (s.th.imposed + 1) ∧ t.zn = s.zn ∧ t.jr = s.jr ∧ Core s t) ∧
  (∀ s : State, s.th.throttling = false ∨ atThrottle s = false ∨ (∀ h, s.th.hotSince = some h → s.time.dtb < h + 2000000000) → exec .throttleDeepen s = .next s) ∧
  (∀ (s : State) (c : Nat), hottest s.th.ctrl.now ≤ throttleCtrl s - 3 → hottest s.th.flash.now ≤ throttleFlash s - 3 → s.th.coolSince = some c → c + 10000000000 ≤ s.time.dtb → s.th.imposed ≠ 0 → (∀ b ∈ s.th.rateHold, b = false) →
    ∃ t, exec .throttleRelax s = .next t ∧ t.th.imposed = s.th.imposed - 1 ∧ t.zn = s.zn ∧ t.jr = s.jr ∧ Core s t) ∧
  (∀ s : State, s.th.imposed = 0 ∨ (∃ b ∈ s.th.rateHold, b = true) ∨ (∀ c, s.th.coolSince = some c → s.time.dtb < c + 10000000000) → exec .throttleRelax s = .next s) ∧
  (∀ (s : State) (cls : Nat) (l : Int), rateLimit cls = some l → (∀ v ∈ ratesOf (sensorOf s cls), 2 * v ≤ l) → s.th.rateHold.getD cls false = true → nth s.th.rateAt cls + 2000000000 ≤ s.time.dtb →
    exec (.rateHoldEnd cls) s = .next { s with th := { s.th with rateHold := modAt s.th.rateHold cls (fun _ => false) } }) ∧
  (∀ (s : State) (a b : Nat), s.sup.rails = true → minuteOver s = true → ∃ t m, exec (.minuteRecord a b) s = .next t ∧ t.th.minutes.getLast? = some m ∧
    m.thrS = min 60 ((s.th.thrNs + s.th.thrFrom.elim 0 (fun a => s.time.dtb - a)) / 1000000000) ∧ m.pAvg = (a + b) % 4096 ∧ m.boot = s.boot.boot ∧
    m.minute = s.th.bootMin ∧ t.th.minutes.length ≤ 10080 ∧ t.th.bootMin = s.th.bootMin + 1 ∧ t.th.nMin = s.th.nMin + 1 ∧ t.sup.lastTest = min 65535 (s.sup.lastTest + 1) ∧
    t = { s with th := t.th, sup := t.sup }) ∧
  (∀ s : State, s.th.shut = 1 → s.th.shutAt + 3000000 ≤ s.time.dtb ∨ diesIdle s = true → ∃ t, exec .shutdownPassDeadline s = .next t ∧ t.th.shut = 2 ∧ t.cal.running = false ∧ t.cal.claims = [] ∧ t.cal.progs = [] ∧ (∀ d, (dieOf t d).op = none) ∧
    t.zn.store = s.zn.store ∧ t.jr = s.jr ∧ t.md = s.md) ∧
  (∀ s : State, s.th.shut ≠ 1 ∨ (s.time.dtb < s.th.shutAt + 3000000 ∧ diesIdle s = false) → exec .shutdownPassDeadline s = .next s) ∧
  (∀ (s : State) (shifts : List Nat), s.th.shut = 2 → s.port.cmds = [] → s.tw.departing = none → s.md.mode ≠ .quarantine → s.th.laterCause = 0 →
    ∃ t, exec (.thermalQuarantineEntry shifts) s = .next t ∧ t.md.mode = .quarantine ∧ t.md.qcause = 1 ∧ t.sup.vigil = 0 ∧ t.th.shut = 0 ∧ t.th.shutdowns = s.th.shutdowns + 1 ∧
      t.sup.sealRec ≠ none ∧ t.zn.store = s.zn.store) ∧
  (∀ (s : State) (shifts : List Nat), s.th.shut ≠ 2 ∨ s.port.cmds ≠ [] ∨ s.tw.departing ≠ none → exec (.thermalQuarantineEntry shifts) s = .next s) ∧
  (∀ (s : State) (b : Nat), s.md.mode = .quarantine → s.md.qcause = 1 → s.th.belowSince = some b → b + 60000000000 ≤ s.time.dtb →
    ∃ t, exec .quarantineThermalExit s = .next t ∧ t.md.mode = .recovery ∧ t.md.prev = .quarantine ∧ t.cal.running = true ∧ t.zn.store = s.zn.store) ∧
  (∀ s : State, s.md.mode ≠ .quarantine ∨ s.md.qcause ≠ 1 ∨ s.th.belowSince = none → exec .quarantineThermalExit s = .next s)

/-- The event journal (R419, R420, R423, R424): the ring's entries move behind the buffer's, in order, and with none lost meanwhile the ring is empty; when due the buffer is appended to the journal, which keeps its newest 262,144; with the core that keeps it down, or before the journal's area is mounted, neither happens; a type's bucket regains one entry at its instant, up to 64, and counts none suppressed from then. -/
def Obligations.EventJournal : Prop :=
  (∀ s : State, s.sup.rails = true → s.md.mode ≠ .holiday → s.md.mode ≠ .harvest → areaMounted s = true → coreRuns s 27 = true → s.ev.ring ≠ [] → s.ev.lossCount = 0 →
    ∃ t, exec .eventDrain s = .next t ∧ t.ev.buf = s.ev.buf ++ s.ev.ring ∧ t.ev.ring = [] ∧ t.ev.journal = s.ev.journal ∧ t = { s with ev := t.ev }) ∧
  (∀ s : State, s.sup.rails = true → s.md.mode ≠ .holiday → s.md.mode ≠ .harvest → areaMounted s = true → coreRuns s 27 = true → s.ev.ring ≠ [] → s.ev.lossCount ≠ 0 →
    ∃ t x, exec .eventDrain s = .next t ∧ t.ev.buf = s.ev.buf ++ s.ev.ring ∧ t.ev.ring = [x] ∧ x.typ = 1 ∧ x.payload = [s.ev.lossCount, s.ev.lossFirst, s.ev.lossLast] ∧ t.ev.lossCount = 0) ∧
  (∀ s : State, areaMounted s = false ∨ coreRuns s 27 = false → exec .eventDrain s = .next s ∧ exec .eventJournalWrite s = .next s) ∧
  (∀ s : State, s.sup.rails = true → s.md.mode ≠ .holiday → s.md.mode ≠ .harvest → coreRuns s 27 = true → areaMounted s = true → 512 ≤ s.ev.buf.length →
    ∃ t, exec .eventJournalWrite s = .next t ∧ t.ev.buf = [] ∧ t.ev.journal = (s.ev.journal ++ s.ev.buf).drop ((s.ev.journal ++ s.ev.buf).length - 262144) ∧ t.ev.journal.length ≤ 262144 ∧
      t = { s with ev := t.ev }) ∧
  (∀ (s : State) (typ : Nat), s.sup.rails = true → evExempt typ = false →
    (KV.findD s.ev.types typ {}).bucket < 64 → (KV.findD s.ev.types typ {}).regainAt ≤ s.time.dtb →
    ∃ t, exec (.eventBucketRefill typ) s = .next t ∧ (KV.findD t.ev.types typ {}).bucket = (KV.findD s.ev.types typ {}).bucket + 1 ∧ (KV.findD t.ev.types typ {}).pend = 0 ∧
      t.zn.store = s.zn.store ∧ t.jr = s.jr ∧ Core s t) ∧
  (∀ (s : State) (typ : Nat), evExempt typ = true ∨ 64 ≤ (KV.findD s.ev.types typ {}).bucket ∨ s.time.dtb < (KV.findD s.ev.types typ {}).regainAt → exec (.eventBucketRefill typ) s = .next s)

/-- Memory, islands and the other cores (R20 to R22, R284, R466, R476 to R479, R484, R493): a round of the memory test lends a bank that may be tested and hands it back after 2,048 chunks; a ninth failing cell quarantines an operating module with cause 4; an owner's access cancels the test, while accesses of others only fault. A patrol counts. An error in a region that cannot be rebuilt quarantines it; in the data of a record that the twin cannot give back, the record's LBAs are lost. An island's copy of time never runs backward nor behind the master after a correction, and stands still while it is ahead. An island's fault is kept until its reset ends, and one too many within the hour quarantines an operating module with the island's cause. A watchdog that expires resets a management or security core that runs, which is recorded. The sideband address is taken once. (What of this is not the spec's is the model's choice: log 52, 53.) -/
def Obligations.InternalsAndIslands : Prop :=
  (∀ (s : State) (bank chunks failing : Nat), s.sup.rails = true → s.md.mode.operates = true → mayTest s bank = true → (∀ b ∈ s.it.banks, b.1 ≠ bank → b.2.lent = false) → chunks ≤ 2048 →
    ((bankOf s bank).lent = true → (bankOf s bank).chunk ≤ chunks) → (bankOf s bank).spares + failing ≤ 8 →
    ∃ t, exec (.memoryTestRound bank chunks failing) s = .next t ∧ (bankOf t bank).lent = decide (chunks ≠ 2048) ∧ (bankOf t bank).spares = (bankOf s bank).spares + failing ∧
      t = { s with it := { s.it with banks := t.it.banks, pad := t.it.pad }, free := t.free }) ∧
  (∀ (s : State) (bank chunks failing : Nat), s.sup.rails = true → s.md.mode.operates = true → s.th.shut = 0 → mayTest s bank = true → (∀ b ∈ s.it.banks, b.1 ≠ bank → b.2.lent = false) → chunks ≤ 2048 →
    ((bankOf s bank).lent = true → (bankOf s bank).chunk ≤ chunks) → 8 < (bankOf s bank).spares + failing →
    ∃ t, exec (.memoryTestRound bank chunks failing) s = .next t ∧ t.md.mode = .quarantine ∧ t.md.qcause = 4) ∧
  (∀ (s : State) (bank : Nat) (accesses : List PadAccess) (a : PadAccess), (bankOf s bank).lent = true → a ∈ accesses → ownerHolds ((bankOf s bank).lender.getD (resetOwner bank)) a.who = true → padInBank a = true →
    ∃ t, exec (.memoryTestCancel ⟨bank, accesses⟩) s = .next t ∧ (bankOf t bank).lent = false ∧ (bankOf t bank).displaced = false ∧ (bankOf t bank).cancels = (bankOf s bank).cancels + 1 ∧
      t = { s with it := t.it }) ∧
  (∀ (s : State) (bank : Nat) (accesses : List PadAccess), (bankOf s bank).lent = true → (∀ a ∈ accesses, ownerHolds ((bankOf s bank).lender.getD (resetOwner bank)) a.who = false) →
    exec (.memoryTestCancel ⟨bank, accesses⟩) s = .next { s with it := { s.it with padFaults := s.it.padFaults ++ accesses.map (fun a => (a.who, PadFault.access)) } }) ∧
  (∀ (s : State) (n : Nat), s.sup.rails = true → s.md.mode ≠ .holiday → exec (.patrolScrub n) s = .next { s with it := { s.it with scrubs := s.it.scrubs + 1, dramCorrected := s.it.dramCorrected + n } }) ∧
  (∀ (s : State) (ch q : Nat), s.sup.rails = true → ch ≤ 3 → exec (.dramUncorrectableError ch 5 q true) s = .next s) ∧
  (∀ (s : State) (ch q : Nat), s.sup.rails = true → ch ≤ 3 → s.md.mode.operates = true → s.th.shut = 0 →
    ∃ t, exec (.dramUncorrectableError ch 5 q false) s = .next t ∧ t.md.mode = .quarantine ∧ t.md.qcause = 4) ∧
  (∀ (s : State) (ch part q : Nat) (ok : Bool) (r : VRec) (n : Ns), KV.Canon {} s.zn.store → s.sup.rails = true → ch ≤ 3 → part = 2 ∨ part = 3 → KV.find s.jr.recs q = some r → nsOf s r.nsid = some n →
    s.md.mode ≠ .service → ∃ t, exec (.dramUncorrectableError ch part q ok) s = .next t ∧
      ∀ i, i < r.nlb → readLba t r.nsid (r.slba + i) = { readLba s r.nsid (r.slba + i) with lost := true }) ∧
  (∀ (s : State) (copy reading : Nat), copy < copyIx islands 0 → copy ≠ copyIx 7 0 → counterRuns s = true → reading ≤ s.time.dtb + 20 → s.time.dtb ≤ reading + 20 →
    copy < s.time.copies.length →
    ∃ t, exec (.timeCorrection copy reading) s = .next t ∧ nth s.time.copies copy ≤ nth t.time.copies copy ∧
      (s.time.dtb < nth s.time.copies copy → nth t.time.copies copy = nth s.time.copies copy) ∧
      s.time.dtb ≤ nth t.time.copies copy ∧ (∀ i, i ≠ copy → nth t.time.copies i = nth s.time.copies i) ∧ t = { s with time := { s.time with copies := t.time.copies } }) ∧
  (∀ (s : State) (island x st ch n cause : Nat), island < islands → ch < 32 → s.sup.rails = true → s.md.mode.operates = true → s.th.shut = 0 → faultLimit island = some (n, cause) →
    n ≤ ((KV.findD s.it.faults (island * 32 + (if island = 6 then ch else 0)) []).filter (fun t => s.time.dtb < t + 3600000000000)).length + 1 →
    ∃ t, exec (.islandFault island x st ch) s = .next t ∧ t.md.mode = .quarantine ∧ t.md.qcause = cause ∧ t.it.faulted.contains (island * 32 + (if island = 6 then ch else 0)) = true) ∧
  (∀ (s : State) (island x st ch : Nat), island < islands → ch < 32 → s.sup.rails = true →
    (∀ p, faultLimit island = some p → ((KV.findD s.it.faults (island * 32 + (if island = 6 then ch else 0)) []).filter (fun t => s.time.dtb < t + 3600000000000)).length + 1 < p.1) →
    ∃ t, exec (.islandFault island x st ch) s = .next t ∧ t.md.mode = s.md.mode ∧ t.it.faulted.contains (island * 32 + (if island = 6 then ch else 0)) = true) ∧
  (∀ (s : State) (island ch : Nat), island ≠ 5 → island ≠ 8 → s.it.faulted.contains (island * 32 + (if island = 6 then ch else 0)) = true →
    exec (.islandResetComplete island ch) s = .next { s with it := { s.it with faulted := s.it.faulted.filter (fun k => k != island * 32 + (if island = 6 then ch else 0)) } }) ∧
  (∀ (s : State) (core : Nat), s.sup.rails = true → 24 ≤ core → core ≤ 27 → coreRuns s core = true →
    exec (.managementCoreWatchdog core) s = .next (record (setCore s core (fun x => { x with inReset := true, beat := s.time.dtb })) 0x21 [core, 2, 0])) ∧
  (∀ s : State, s.sup.rails = true → coreRuns s 28 = true →
    exec .securityCoreWatchdog s = .next (record (setCore s 28 (fun x => { x with inReset := true, beat := s.time.dtb })) 0x21 [28, 2, 0])) ∧
  (∀ (s : State) (core : Nat), coreRuns s core = false → exec (.managementCoreWatchdog core) s = .next s) ∧
  (∀ (s : State) (d : Option Nat), s.sup.rails = true → s.sup.i3cAddr = none → exec (.i3cAddressAssignment d) s = .next { s with sup := { s.sup with i3cAddr := some (d.getD 0x1D) } }) ∧
  (∀ (s : State) (d : Option Nat), s.sup.i3cAddr ≠ none → exec (.i3cAddressAssignment d) s = .next s)

/-- The Deroft link (R287, R290, R291, R294, R309): a module that may train begins at step 1, in Solo only while the sense level is high and no refusal holds it back; a step that overruns starts over. The link comes up at the rate, the width and the lanes that the training sets and the lanes tested give, and HELLO is sent; from Solo the module enters Pairing and goes on serving; with no outcome training starts over. A failed lane narrows the link to the widest group left, or takes it down. A flit with a bad CRC after its correction changes nothing; the payload flit expected is accepted and owes its class a credit, another asks for a replay. A replay, 2 us after the last acknowledgement advanced, counts the flits not acknowledged. (What of this is not the spec's is the model's choice: log 3, 77.) -/
def Obligations.DeroftLink : Prop :=
  (∀ s : State, s.tw.linkUp = false → mayTrain s = true → (s.md.mode = .solo → s.tw.senseIn = true ∧ s.tw.holdTraining = false) →
    ∃ t, exec .deroftTrainingAttempt s = .next t ∧ t.tw.trainSets.length = 8 ∧ t = { s with tw := { s.tw with trainStep := 1, trainSets := t.tw.trainSets }, free := t.free }) ∧
  (∀ s : State, mayTrain s = false ∨ (s.md.mode = .solo ∧ s.tw.senseIn = false) → exec .deroftTrainingAttempt s = .next s) ∧
  (∀ s : State, s.tw.linkUp = false → s.tw.trainStep ≠ 0 → exec .deroftTrainingStepTimeout s = .next { s with tw := { s.tw with trainStep := 1 } }) ∧
  (∀ (s : State) (sets : List (Nat × List (BitVec 8))) (a b c : Nat) (rate width lanes : Nat), s.tw.linkUp = false → mayTrain s = true → trainOutcome sets [a, b, c] = some (rate, width, lanes) →
    ∃ t x, exec (.deroftLinkUp sets a b c) s = .next t ∧ t.tw.linkUp = true ∧ t.tw.dRate = rate ∧ t.tw.dWidth = width ∧ t.tw.lanes = lanes ∧ t.tw.failedLanes = 0 ∧
      t.md.mode = .pairing ∧ (s.md.mode = .solo → t.md.pairServing = true) ∧ t.tw.step = 2 ∧ t.tw.out.getLast? = some x ∧ x.hdr.typ = 0x43) ∧
  (∀ (s : State) (sets : List (Nat × List (BitVec 8))) (a b c : Nat), s.tw.linkUp = false → mayTrain s = true → trainOutcome sets [a, b, c] = none →
    exec (.deroftLinkUp sets a b c) s = .next { s with tw := { s.tw with trainStep := 1 } }) ∧
  (∀ (s : State) (sets : List (Nat × List (BitVec 8))) (a b c : Nat), mayTrain s = false → exec (.deroftLinkUp sets a b c) s = .next s) ∧
  (∀ (s : State) (lane w m : Nat), s.tw.linkUp = true → s.tw.lanes.testBit lane = true → groupOf 7 (s.tw.lanes ^^^ 2^lane) = some (w, m) →
    ∃ t, exec (.laneFailure lane) s = .next t ∧ t.tw.linkUp = true ∧ t.tw.failedLanes = s.tw.failedLanes ||| 2^lane ∧ t.tw.dWidth = w ∧ t.tw.lanes = m ∧
      t.tw.quick = min (s.tw.quick + 1) (2^32 - 1) ∧ t.zn.store = s.zn.store ∧ Core s t) ∧
  (∀ (s : State) (lane : Nat), s.tw.linkUp = true → s.tw.lanes.testBit lane = true → groupOf 7 (s.tw.lanes ^^^ 2^lane) = none →
    ∃ t, exec (.laneFailure lane) s = .next t ∧ t.tw.linkUp = false ∧ t.tw.trainStep = 1 ∧ t.tw.full = min (s.tw.full + 1) (2^32 - 1) ∧ t.zn.store = s.zn.store ∧ Core s t) ∧
  (∀ (s : State) (b : List (BitVec 8)), flitValid (if s.tw.fec then fecCorrect b else b) = false → exec (.flitReceived b) s = .next s) ∧
  (∀ (s : State) (b c : List (BitVec 8)), s.tw.linkUp = true → c = (if s.tw.fec then fecCorrect b else b) → flitValid c = true → ctlKind (flitControl c) = 0 → ctlFseq (flitControl c) = s.tw.rxExpect →
    s.tw.owePri < 31 → s.tw.oweBulk < 32 →
    ∃ t, exec (.flitReceived b) s = .next t ∧ t.tw.rxExpect = (s.tw.rxExpect + 1) % 1024 ∧ t.tw.owePri = s.tw.owePri + 1 ∧ t.tw.nakOwed = false ∧ t.tw.lastFlitAt = s.time.dtb ∧ t = { s with tw := t.tw }) ∧
  (∀ (s : State) (b c : List (BitVec 8)), s.tw.linkUp = true → c = (if s.tw.fec then fecCorrect b else b) → flitValid c = true → ctlKind (flitControl c) ≠ 3 → ctlFseq (flitControl c) ≠ s.tw.rxExpect →
    s.tw.owePri < 32 → s.tw.oweBulk < 32 →
    ∃ t, exec (.flitReceived b) s = .next t ∧ t.tw.rxExpect = s.tw.rxExpect ∧ t.tw.owePri = s.tw.owePri ∧ t.tw.oweBulk = s.tw.oweBulk ∧ t.tw.nakOwed = true ∧ t = { s with tw := t.tw }) ∧
  (∀ s : State, s.tw.linkUp = true → s.tw.replay ≠ [] → s.tw.ackAt + 2000 ≤ s.time.dtb →
    exec .replayTimeout s = .next { s with tw := { s.tw with ackAt := s.time.dtb, replays := s.tw.replays + s.tw.replay.length } }) ∧
  (∀ s : State, s.tw.replay = [] ∨ s.time.dtb < s.tw.ackAt + 2000 → exec .replayTimeout s = .next s)

/-- Messages between the modules (R263, R268, R295, R297 to R299, R302, R303): a heartbeat carries the mode and the next count, and one received gives the twin's; the credits owed are returned, and credits received never exceed the link's; a changed free share is told; a key update of rank 0, when due, turns the phase and keeps the older keys. A message that does not verify takes the link down and is counted, the third within 10 minutes locks it; one of another epoch has no effect but its record. (What of this is not the spec's is the model's choice: log 77.) -/
def Obligations.DeroftMessages : Prop :=
  (∀ s : State, s.tw.linkUp = true → ∃ t x, exec .heartbeatSend s = .next t ∧ t.tw.hbCount = s.tw.hbCount + 1 ∧ t.tw.out = s.tw.out ++ [x] ∧ x.hdr.typ = 0x42 ∧ x.body.head? = some s.md.mode.code ∧ t = { s with tw := t.tw }) ∧
  (∀ (s : State) (h : MsgHdr) (b : Beat), s.tw.linkUp = true → h.typ = 0x42 → ∃ t, exec (.heartbeat h b) s = .next t ∧ t.tw.peerMode = b.mode ∧ t.tw.peerFlags = b.flags ∧ t.tw.peerSenseOut = b.senseOut ∧
    t.tw.peerAt = some s.time.dtb ∧ t.tw.lostPending = false ∧ t = { s with tw := t.tw }) ∧
  (∀ s : State, s.tw.linkUp = true → s.tw.owePri ≠ 0 ∨ s.tw.oweBulk ≠ 0 → ∃ t x, exec .creditReturn s = .next t ∧ t.tw.owePri = 0 ∧ t.tw.oweBulk = 0 ∧ t.tw.out = s.tw.out ++ [x] ∧ x.hdr.typ = 0x41 ∧
    x.body = [s.tw.owePri, s.tw.oweBulk] ∧ t = { s with tw := t.tw }) ∧
  (∀ (s : State) (h : MsgHdr) (pri bulk : Nat), s.tw.linkUp = true → h.typ = 0x41 → ∃ t, exec (.credit h pri bulk) s = .next t ∧
    t.tw = pumpFlits { s.tw with crPri := min (peerCredits s.tw.dRate s.tw.dWidth).1 (s.tw.crPri + pri), crBulk := min (peerCredits s.tw.dRate s.tw.dWidth).2 (s.tw.crBulk + bulk) } ∧
    t.tw.crPri ≤ (peerCredits s.tw.dRate s.tw.dWidth).1 ∧ t.tw.crBulk ≤ (peerCredits s.tw.dRate s.tw.dWidth).2 ∧ t = { s with tw := t.tw }) ∧
  (∀ (s : State) (f : Nat), s.md.mode = .service → s.tw.linkUp = true → f < funcs → KV.find s.jr.told f ≠ some (shareFree s f) → ∃ t x, exec (.shareUpdateSend f) s = .next t ∧ t.tw.out = s.tw.out ++ [x] ∧
    x.hdr.typ = 3 ∧ x.body = [f, shareFree s f, drainRate s f] ∧ KV.find t.jr.told f = some (shareFree s f) ∧ t = { s with jr := t.jr, tw := t.tw, it := { s.it with engine := t.it.engine } }) ∧
  (∀ s : State, s.md.mode = .service → s.tw.linkUp = true → rank s = 0 → keysDue s = true → ∃ t, exec .keyUpdateDue s = .next t ∧ t.tw.keyPhase = !s.tw.keyPhase ∧ t.keys.linkKeys.length = 4 + min 4 s.keys.linkKeys.length ∧
    t.keys.linkKeys.drop 4 = s.keys.linkKeys.take 4 ∧ t.keys.slots = s.keys.slots ∧ t.zn.store = s.zn.store ∧ Core s t) ∧
  (∀ s : State, s.md.mode ≠ .service ∨ rank s ≠ 0 ∨ keysDue s = false → exec .keyUpdateDue s = .next s) ∧
  (∀ (s : State) (h : MsgHdr) (b : MirrorBody), s.tw.linkUp = true → s.sup.rails = true → h.authOk = false →
    ∃ t, exec (.mirrorRecord h b) s = .next t ∧ t.tw.linkUp = false ∧ t.tw.integrity = min (s.tw.integrity + 1) (2^32 - 1) ∧ t.zn.store = s.zn.store ∧ t.jr = s.jr ∧ Core s t) ∧
  (∀ (s : State) (h : MsgHdr) (b : MirrorBody) (a c : Nat), s.tw.linkUp = true → s.sup.rails = true → h.authOk = false → s.tw.integrityAt = [a, c] → s.time.dtb < a + 600000000000 → s.time.dtb < c + 600000000000 →
    ∃ t, exec (.mirrorRecord h b) s = .next t ∧ t.tw.locked = true) ∧
  (∀ (s : State) (h : MsgHdr) (b : MirrorBody), s.tw.linkUp = true → s.sup.rails = true → h.authOk = true → s.md.mode ≠ .service ∨ h.pepoch ≠ s.jr.pepoch.toNat →
    exec (.mirrorRecord h b) s = .next (discard (noted s h) h) ∧ (discard (noted s h) h).zn.store = s.zn.store ∧ (discard (noted s h) h).jr = s.jr ∧ Core s (discard (noted s h) h))

/-- The sense pair and the loss of the peer (R304 to R306, R310, R319, Table 10.12): a sense fault is raised after 10 us and cleared after 1 s of the sense pair's state, with the link as it was. A peer lost in Service, 16 us after the last flit, waits for the sense check; a pairing under way is refused with cause 0Ah. The check decides peer dead where every one of 40 samples is low and no sense fault stands, else a link fault: the module is in Solo, separated, under the next epoch. A pairing step that overruns its end refuses with its cause, and not before. A Notice of the twin's Harvest or Quarantine decides at once; one of its NVM Subsystem Reset resets the controllers here and keeps the mode. (What of this is not the spec's is the model's choice: log 3.) -/
def Obligations.LossOfThePeer : Prop :=
  (∀ s : State, s.tw.linkUp = true → s.tw.senseFault = false → s.tw.senseIn ≠ s.tw.peerSenseOut → s.tw.senseAt + 10000 ≤ s.time.dtb → ∃ t, exec .senseFaultSet s = .next t ∧ t.tw.senseFault = true ∧ t.tw.linkUp = true ∧ t.zn.store = s.zn.store ∧ t.jr = s.jr ∧ Core s t) ∧
  (∀ s : State, s.tw.senseFault = true → s.tw.senseIn = s.tw.peerSenseOut → s.tw.senseAt + 1000000000 ≤ s.time.dtb → ∃ t, exec .senseFaultClear s = .next t ∧ t.tw.senseFault = false ∧ t.tw.linkUp = s.tw.linkUp ∧ t.zn.store = s.zn.store ∧ t.jr = s.jr ∧ Core s t) ∧
  (∀ s : State, s.md.mode = .service → s.tw.lastFlitAt + 16000 ≤ s.time.dtb → exec .peerLost s = .next { s with tw := { s.tw with lostPending := true } }) ∧
  (∀ s : State, s.md.mode = .pairing → 2 ≤ s.tw.step → s.tw.lastFlitAt + 16000 ≤ s.time.dtb → ∃ t, exec .peerLost s = .next t ∧ t.md.mode = .solo ∧ t.tw.refuse = 0x0A ∧ t.tw.linkUp = false ∧ t.zn.store = s.zn.store) ∧
  (∀ s : State, s.time.dtb < s.tw.lastFlitAt + 16000 → exec .peerLost s = .next s) ∧
  (∀ (s : State) (l : List Bool), s.md.mode = .service → s.tw.lostPending = true → l.length = 40 → s.tw.lastFlitAt + 20000 ≤ s.time.dtb → s.th.shut = 0 → ∃ t, exec (.lossDecision l) s = .next t ∧ t.md.mode = .solo ∧ t.tw.paired = false ∧ t.tw.linkUp = false ∧
    t.jr.pepoch = s.jr.pepoch + 1 ∧ t.tw.lossKind = (if l.all (fun b => !b) && !s.tw.senseFault then 1 else 2) ∧ t.keys.linkKeys = []) ∧
  (∀ (s : State) (l : List Bool), s.md.mode ≠ .service ∨ s.tw.lostPending = false ∨ s.time.dtb < s.tw.lastFlitAt + 20000 → exec (.lossDecision l) s = .next s) ∧
  (∀ (s : State) (k : Nat), s.md.mode = .pairing → k = s.tw.step → stepEnd s.tw k ≤ s.time.dtb → ∃ t, exec (.pairingTimeout k) s = .next t ∧ t.md.mode = .solo ∧ t.tw.refuse = stepCause k ∧ t.tw.linkUp = false ∧ t.zn.store = s.zn.store) ∧
  (∀ (s : State) (k : Nat), s.md.mode ≠ .pairing ∨ k ≠ s.tw.step ∨ s.time.dtb < stepEnd s.tw k → exec (.pairingTimeout k) s = .next s) ∧
  (∀ (s : State) (h : MsgHdr), Reaches s h 9 → s.th.shut = 0 → (∃ t, exec (.noticeHarvest h) s = .next t ∧ t.md.mode = .solo ∧ t.tw.lossKind = 3 ∧ t.tw.paired = false ∧ t.jr.pepoch = s.jr.pepoch + 1) ∧
    (∃ t, exec (.noticeQuarantine h) s = .next t ∧ t.md.mode = .solo ∧ t.tw.lossKind = 4 ∧ t.tw.paired = false ∧ t.jr.pepoch = s.jr.pepoch + 1) ∧
    (∃ t, exec (.noticeNvmSubsystemReset h) s = .next t ∧ t.md.mode = .service ∧ t.port.rate = 0 ∧ t.port.vfEnable = false ∧ (∀ g, g < 128 → (ctrl t g).nssro = true) ∧ t.zn.store = s.zn.store))

/-- Mirroring (R33, R146, R267, R268, R280, R281): a mirror record of a write to a metadata namespace this module copies is kept as a copy under its own SEQ, with the owner's ordering key, data and key, not yet durable and with nothing left to acknowledge; the same record while it is held and not yet durable is taken once, and acknowledged again where it is durable or applied (R33). A record of a namespace this module does not copy is discarded. A Drop removes the copy. An acknowledgement, a share update and an allotment grant give what they carry. (What of this is not the spec's is the model's choice: log 5.) -/
def Obligations.Mirroring : Prop :=
  (∀ (s : State) (h : MsgHdr) (b : MirrorBody) (n : Ns), Reaches s h 1 → nsOf s b.nsid = some n → mirroredHere n = true → n.zoned = false → b.typ = 1 → heldCopy s b = none → appliedMeta s (copyRec s n b) = false → s.md.writeThrough = false →
    ∃ t r, exec (.mirrorRecord h b) s = .next t ∧ KV.find t.jr.recs s.jr.seq = some r ∧ t.jr.seq = s.jr.seq + 1 ∧ r.typ = 1 ∧ r.copy = true ∧ r.oseq = b.oseq ∧ r.pepoch = b.pepoch ∧ r.nsid = b.nsid ∧
      r.slba = b.slba ∧ r.nlb = b.nlb ∧ r.data = b.data ∧ r.key = b.key ∧ r.durable = false ∧ r.acked = true ∧ t.zn.store = s.zn.store ∧ Core s t) ∧
  (∀ (s : State) (h : MsgHdr) (b : MirrorBody) (n : Ns) (x : VRec), Reaches s h 1 → nsOf s b.nsid = some n → mirroredHere n = true → b.typ = 1 → heldCopy s b = some x →
    (x.durable = false → exec (.mirrorRecord h b) s = .next (noted s h)) ∧
    (x.durable = true → x.acked = true → exec (.mirrorRecord h b) s = .next (ackMirror (noted s h) b.oseq b.func))) ∧
  (∀ (s : State) (h : MsgHdr) (b : MirrorBody) (n : Ns), Reaches s h 1 → nsOf s b.nsid = some n → mirroredHere n = true → n.zoned = false → b.typ = 1 → heldCopy s b = none → appliedMeta s (copyRec s n b) = true →
    exec (.mirrorRecord h b) s = .next (ackMirror (noted s h) b.oseq b.func)) ∧
  (∀ (s : State) (h : MsgHdr) (b : MirrorBody), Reaches s h 1 → (∀ n, nsOf s b.nsid = some n → mirroredHere n = false) → exec (.mirrorRecord h b) s = .next (discard (noted s h) h)) ∧
  (∀ (s : State) (h : MsgHdr) (oseq q : Nat) (r : VRec), Reaches s h 0x0A → KV.WF s.jr.recs → KV.find s.jr.recs q = some r → r.copy = true → r.oseq = oseq → r.pepoch = s.jr.pepoch.toNat →
    ∃ t, exec (.drop h oseq) s = .next t ∧ KV.find t.jr.recs q = none ∧ Core s t) ∧
  (∀ (s : State) (h : MsgHdr) (oseq f share : Nat), Reaches s h 2 → (∀ p ∈ s.jr.recs, p.2.oseq ≠ oseq) → s.tw.departing = none → s.tw.transfer = none → (∀ p ∈ s.zn.ns, p.2.reshape = none) →
    exec (.mirrorAcknowledgement h oseq f share) s = .next { noted s h with jr := { s.jr with credit := KV.set s.jr.credit f share } }) ∧
  (∀ (s : State) (h : MsgHdr) (oseq f share q : Nat) (r : VRec), Reaches s h 2 → s.jr.recs = [(q, r)] → r.oseq = oseq → r.mirrored = true → r.copy = false → r.acked = false → r.durable = false → r.typ = 1 → r.completed = false →
    ∃ t r', exec (.mirrorAcknowledgement h oseq f share) s = .next t ∧ KV.find t.jr.recs q = some r' ∧ r'.acked = true ∧ r'.completed = false ∧ t.zn.store = s.zn.store) ∧
  (∀ (s : State) (h : MsgHdr) (f share drain : Nat), Reaches s h 3 →
    exec (.shareUpdate h f share drain) s = .next { noted s h with jr := { s.jr with credit := KV.set s.jr.credit f share, twinDrain := KV.set s.jr.twinDrain f drain } }) ∧
  (∀ (s : State) (h : MsgHdr) (k : Nat) (g : List (Nat × Nat × Nat)), Reaches s h 7 → ∃ t, exec (.allotmentGrant h k g) s = .next t ∧
    t.cal.grantsIn = g.map (fun x => { func := x.1, group := x.2.1, sixteenths := x.2.2, period := k }) ∧ t = { noted s h with cal := { s.cal with grantsIn := t.cal.grantsIn } })

/-- Forwarding (R63, R122, R123, R270, R298, R299, R315, R316): a forwarded Unbound read of a namespace this module orders takes a slot as the twin's, with its tag and the data as it stands; for a namespace ordered elsewhere, an unknown command or another epoch it is answered at once. A forwarded read's completion brings its data and makes it ready for delivery; any other ends the command with the status. A confirmation settles its zone in the multi-zone record, the zones passed over counted as skipped. A Dispose of a command that is not here does nothing. (What of this is not the spec's is the model's choice: log 17, 56, 32.) -/
def Obligations.Forwarding : Prop :=
  (∀ (s : State) (h : MsgHdr) (e : Io) (st dl cl key : Nat) (n : Ns), Reaches s h 0x21 → h.tag ∉ s.tw.keptAborts → nsOf s e.nsid = some n → n.here = true →
    keyFor (noted s h) n e.func e.keyTag false = .ok key → (n.zoned = true → (n.zone (e.slba / zoneSize n.flbas)).st ≠ .offline) → needsOf (noted s h) e.nsid n e.slba e.nlb ≠ [] →
    ∃ t c, exec (.forwardedCommand h 2 e 3 st dl cl false) s = .next t ∧ KV.find t.port.cmds (freeSlot s) = some c ∧ c.fromTwin = true ∧ c.tag = h.tag ∧ c.cls = .unbound ∧ c.nsid = e.nsid ∧
      c.dies = (needsOf (noted s h) e.nsid n e.slba e.nlb).map (fun x => x.1) ∧ c.data = readData s e.nsid n e.slba e.nlb key ∧ t.zn = s.zn ∧ t.jr = s.jr ∧ Core s t) ∧
  (∀ (s : State) (h : MsgHdr) (op : Nat) (o : IoOp) (e : Io) (cls st dl cl : Nat) (all : Bool) (n : Ns), Reaches s h 0x21 → h.tag ∉ s.tw.keptAborts → ioOpOf op = some o → nsOf s e.nsid = some n → n.here = false →
    exec (.forwardedCommand h op e cls st dl cl all) s = .next (answerForward (noted s h) h .anaInaccessible)) ∧
  (∀ (s : State) (h : MsgHdr) (op : Nat) (e : Io) (cls st dl cl : Nat) (all : Bool), Reaches s h 0x21 → ioOpOf op = none →
    exec (.forwardedCommand h op e cls st dl cl all) s = .next (answerForward (noted s h) h .invalidOpcode)) ∧
  (∀ (s : State) (h : MsgHdr) (op : Nat) (e : Io) (cls st dl cl : Nat) (all : Bool), s.tw.linkUp = true → s.sup.rails = true → h.authOk = true → h.typ = 4 ∨ h.typ = 0x21 → s.md.mode ≠ .service ∨ h.pepoch ≠ s.jr.pepoch.toNat →
    exec (.forwardedCommand h op e cls st dl cl all) s = .next (answerForward (noted s h) h .anaInaccessible)) ∧
  (∀ (s : State) (h : MsgHdr) (d0 d1 slot : Nat) (data : List Nat) (c : Cmd), Reaches s h 0x22 → s.port.cmds.find? (fun p => p.2.fwd && p.2.tag == h.tag) = some (slot, c) → c.op.isWrite = false →
    exec (.forwardedCompletion h 0 d0 d1 data) s = .next (forwardDone (noted s h) slot c .success d0 d1 data) ∧ (∃ c', KV.find (forwardDone (noted s h) slot c .success d0 d1 data).port.cmds slot = some c' ∧
      c'.fwd = false ∧ c'.stage = .dieDone ∧ c'.data = data ∧ c'.result = .success) ∧ (forwardDone (noted s h) slot c .success d0 d1 data).zn = s.zn ∧ (forwardDone (noted s h) slot c .success d0 d1 data).jr = s.jr) ∧
  (∀ (s : State) (h : MsgHdr) (code d0 d1 slot : Nat) (data : List Nat) (st : Status) (c : Cmd), Reaches s h 0x22 → statusOf code = some st → s.port.cmds.find? (fun p => p.2.fwd && p.2.tag == h.tag) = some (slot, c) →
    c.op.isWrite = true → c.zop = 0 → exec (.forwardedCompletion h code d0 d1 data) s = .next (finish (noted s h) slot st d0 d1)) ∧
  (∀ (s : State) (h : MsgHdr) (zone slot : Nat) (c : Cmd), Reaches s h 6 → h.tag < 2^31 → (∀ f ∈ s.tw.frames, f.tag ≠ h.tag) → s.port.cmds.find? (fun p => p.2.fwd && p.2.zop != 0 && p.2.tag == h.tag) = some (slot, c) →
    exec (.zoneConfirmation h zone 0) s = .next (setZop (noted s h) c.func c.zop (fun z =>
      ({ z with skipped := z.skipped + (zone - (if z.lastZone = 0xFFFFFFFF then 0 else z.lastZone + 1)) } : ZopRec).settle zone .acted))) ∧
  (∀ (s : State) (h : MsgHdr) (tag : Nat), Reaches s h 0x0B → (∀ p ∈ s.port.cmds, p.2.fromTwin = false ∨ p.2.tag ≠ tag) → exec (.dispose h tag) s = .next (noted s h)) ∧
  (∀ (s : State) (h : MsgHdr) (tag slot : Nat) (c : Cmd), Reaches s h 0x0B → s.port.cmds.find? (fun p => p.2.fromTwin && p.2.tag == tag) = some (slot, c) → fateOf (noted s h) c = .ends →
    exec (.dispose h tag) s = .next (finish (undo (noted s h) slot c) slot .abortedSqDeletion))

/-- Handovers (R263, R318, R324): an offered namespace that the twin owns is owned here from then on, unfenced, under the epoch carried; a transfer taken leaves the namespace to the twin under that epoch; anything not asked for is discarded. When the twin departs this module goes on in Solo under the epoch carried; when this module's departure is taken it is separated, every mirrored namespace the twin's and fenced. (What of this is not the spec's is the model's choice: log 31, 89.) -/
def Obligations.Handovers : Prop :=
  (∀ (s : State) (h : MsgHdr) (nsid oseq epoch : Nat) (n : Ns), Reaches s h 8 → nsOf s nsid = some n → n.mirrored = true → n.here = false → (∀ p ∈ s.jr.recs, p.2.copy = false) →
    ∃ t m, exec (.handoverOffer h nsid oseq epoch) s = .next t ∧ nsOf t nsid = some m ∧ m.here = true ∧ m.fenced = false ∧ m.cont = n.cont ∧ t.jr.pepoch = BitVec.ofNat 32 epoch ∧ t.md.mode = .service ∧
      t.zn.store = s.zn.store) ∧
  (∀ (s : State) (h : MsgHdr) (nsid oseq epoch : Nat) (n : Ns), Reaches s h 8 → nsOf s nsid = some n → n.mirrored = false ∨ n.here = true → exec (.handoverOffer h nsid oseq epoch) s = .next (discard (noted s h) h)) ∧
  (∀ (s : State) (h : MsgHdr) (nsid oseq epoch : Nat) (n : Ns), Reaches s h 8 → nsOf s nsid = some n → s.tw.transfer = some nsid → n.reshape = none →
    ∃ t m, exec (.handoverTaken h nsid oseq epoch) s = .next t ∧ nsOf t nsid = some m ∧ m.here = false ∧ t.jr.pepoch = BitVec.ofNat 32 epoch ∧ t.zn.store = s.zn.store) ∧
  (∀ (s : State) (h : MsgHdr) (nsid oseq epoch : Nat), Reaches s h 8 → s.tw.transfer ≠ some nsid → exec (.handoverTaken h nsid oseq epoch) s = .next (discard (noted s h) h)) ∧
  (∀ (s : State) (h : MsgHdr) (kind oseq epoch : Nat), Reaches s h 8 → kind ≠ 7 → s.th.shut = 0 →
    ∃ t, exec (.handoverDepart h kind oseq epoch) s = .next t ∧ t.md.mode = .solo ∧ t.jr.pepoch = BitVec.ofNat 32 epoch ∧ t.tw.twinDeparted = decide (kind = 5) ∧ t.tw.paired = false ∧ t.tw.lossKind = kind) ∧
  (∀ (s : State) (h : MsgHdr) (kind oseq epoch : Nat), Reaches s h 8 → s.tw.departing = some kind → s.tw.departSent = true → kind ≠ 7 → s.tw.adminWait = [] → s.adm.formats = [] →
    ∃ t, exec (.handoverDepartTaken h kind oseq epoch) s = .next t ∧ t.jr.pepoch = BitVec.ofNat 32 epoch ∧ t.tw.departing = none ∧ t.tw.paired = false ∧ (∀ p ∈ t.zn.ns, p.2.mirrored = true → p.2.here = false ∧ p.2.fenced = true)) ∧
  (∀ (s : State) (h : MsgHdr) (kind oseq epoch : Nat), Reaches s h 8 → s.tw.departing ≠ some kind → exec (.handoverDepartTaken h kind oseq epoch) s = .next (discard (noted s h) h))

/-- The pairing handshake (R263, R308, R310 to R314, Table 10.12): the twin's HELLO is kept; one that fails an admission check refuses the pairing with the check's cause and the module goes to Solo, another leads to step 4. A copy of the HELLO that differs from the one received refuses with 07h; the entries of the twin's table are kept; a result of diverged refuses with 09h. The commit makes the pair: Service under an epoch above both modules', paired with the twin of the HELLO, no tombstones, no namespace fenced. (What of this is not the spec's is the model's choice: log 82, 84.) -/
def Obligations.PairingHandshake : Prop :=
  (∀ (s : State) (h : MsgHdr) (b : Hello) (c : Nat), s.tw.linkUp = true → h.typ = 0x43 → s.md.mode = .pairing → s.tw.step = 2 → admission s b = some c →
    ∃ t, exec (.hello h b) s = .next t ∧ t.md.mode = .solo ∧ t.tw.refuse = c ∧ t.tw.linkUp = false ∧ t.zn.store = s.zn.store) ∧
  (∀ (s : State) (h : MsgHdr) (b : Hello), s.tw.linkUp = true → h.typ = 0x43 → s.md.mode = .pairing → s.tw.step = 2 → admission s b = none →
    ∃ t, exec (.hello h b) s = .next t ∧ t.md = s.md ∧ t.tw.step = 4 ∧ t.tw.hello = some b ∧ t.tw.linkUp = true ∧ t = { s with tw := t.tw }) ∧
  (∀ (s : State) (h : MsgHdr) (b : Hello), s.tw.linkUp = false ∨ s.md.mode ≠ .pairing ∨ s.tw.step ≠ 2 → exec (.hello h b) s = .next s) ∧
  (∀ (s : State) (h : MsgHdr) (c : Hello) (l : List PtEntry), s.md.mode = .pairing → s.tw.linkUp = true → s.sup.rails = true → h.authOk = true → h.typ = 0x0D → s.tw.step = 6 → s.tw.hello ≠ some c →
    ∃ t, exec (.pairingTable h (some c) l none) s = .next t ∧ t.md.mode = .solo ∧ t.tw.refuse = 7 ∧ t.tw.linkUp = false ∧ t.zn.store = s.zn.store) ∧
  (∀ (s : State) (h : MsgHdr) (l : List PtEntry), s.md.mode = .pairing → s.tw.linkUp = true → s.sup.rails = true → h.authOk = true → h.typ = 0x0D → s.tw.step = 6 → 1 < s.tw.pairAcc.length →
    ∃ t, exec (.pairingTable h none l none) s = .next t ∧ t.md = s.md ∧ t.tw.table = l ∧ t.tw.pairAcc.getD 1 false = true ∧ t.tw.step = 6 ∧ t.zn = s.zn) ∧
  (∀ (s : State) (h : MsgHdr) (l : List PtEntry), s.md.mode = .pairing → s.tw.linkUp = true → s.sup.rails = true → h.authOk = true → h.typ = 0x0D → s.tw.step = 7 →
    ∃ t, exec (.pairingTable h none l (some false)) s = .next t ∧ t.md.mode = .solo ∧ t.tw.refuse = 9 ∧ t.zn.store = s.zn.store) ∧
  (∀ (s : State) (h : MsgHdr) (b : Hello), s.md.mode = .pairing → s.tw.linkUp = true → s.sup.rails = true → h.authOk = true → h.typ = 9 → s.tw.step = 8 → s.tw.hello = some b →
    ∃ t, exec (.noticePairingCommit h) s = .next t ∧ t.md.mode = .service ∧ t.tw.paired = true ∧ t.tw.twinSerial = b.serial ∧ t.tw.step = 0 ∧ t.zn.tombs = [] ∧
      t.jr.pepoch = BitVec.ofNat 32 (max s.jr.pepoch.toNat b.pepoch + 1)) ∧
  (∀ (s : State) (h : MsgHdr), Reaches s h 9 → exec (.noticePairingCommit h) s = .next (discard (noted s h) h))

/-- Admin syncs, resync frames and fetches (R240, R254, R284, R315, R321 to R323): an Admin sync about a namespace that does not exist is answered so; a create makes the namespace, which the twin orders. The resync is done with the frame that says so, once no namespace is left to bring level. A map-unit frame for a namespace of the copy being brought level gives it the frame's content where it holds nothing. A fetch is answered with two numbers for each LBA; fetched data repairs its LBA, whose other content stays, and leaves every other LBA; an answer that was not asked for, and a reshape copy of a namespace not becoming mirrored, are discarded. (What of this is not the spec's is the model's choice: log 56, 67, 74, 80.) -/
def Obligations.SyncsFramesAndFetches : Prop :=
  (∀ (s : State) (h : MsgHdr) (op nsid : Nat) (a : List Nat), Reaches s h 0x0C → nsOf s nsid = none → op ≠ 0x0D → op ≠ 0x84 → op ≠ 8 →
    exec (.adminSync h op nsid a) s = .next (answerTwin (noted s h) h.tag .invalidNamespace 0)) ∧
  (∀ (s : State) (h : MsgHdr) (nsid : Nat) (a : List Nat), Reaches s h 0x0C → nsOf s nsid = none → nth a 0 = 0 → nth a 5 = 0 →
    ∃ t m, exec (.adminSync h 0x0D nsid a) s = .next t ∧ nsOf t nsid = some m ∧ m.zoned = (nth a 1 == 1) ∧ m.nsze = nth a 2 ∧ m.flbas = nth a 3 ∧ m.here = false ∧ m.mirrored = false ∧
      t.zn.store = s.zn.store ∧ Core s t) ∧
  (∀ (s : State) (h : MsgHdr) (f : FrameBody), Reaches s h 0x23 → f.kind = 5 → (∀ p ∈ s.zn.ns, p.2.resyncPending = false) → ∃ t, exec (.resyncFrame h f) s = .next t ∧ t.md.resyncing = false ∧ t.md.mode = .service ∧ t.zn.store = s.zn.store) ∧
  (∀ (s : State) (h : MsgHdr) (f : FrameBody), Reaches s h 0x23 → f.kind = 0 ∨ 7 < f.kind → exec (.resyncFrame h f) s = .next (discard (noted s h) h)) ∧
  (∀ (s : State) (h : MsgHdr) (f : FrameBody) (n : Ns) (x : Nat × Nat), Reaches s h 0x23 → KV.Canon {} s.zn.store → f.kind = 3 → nsOf s f.nsid = some n → n.here = false → n.mirrored = true → f.data = [x] → x ≠ (1, 0) →
    readLba s f.nsid f.slba = {} → ∃ t, exec (.resyncFrame h f) s = .next t ∧ readLba t f.nsid f.slba = { val := x.1, key := x.2, epoch := f.pepoch, oseq := f.oseq } ∧
      (∀ ns lba, lbaKey ns lba ≠ lbaKey f.nsid f.slba → readLba t ns lba = readLba s ns lba) ∧ Core s t) ∧
  (∀ (s : State) (h : MsgHdr) (nsid slba nlb oseq : Nat), Reaches s h 0x24 → ∃ t x, exec (.fetchRequest h nsid slba nlb oseq) s = .next t ∧ t.tw.out = s.tw.out ++ [x] ∧ x.hdr.typ = 0x25 ∧ x.hdr.tag = h.tag ∧
    x.body.length = 2 * nlb ∧ t.zn = s.zn ∧ t.jr = s.jr ∧ Core s t) ∧
  (∀ (s : State) (h : MsgHdr) (nsid lba v k slot : Nat), Reaches s h 0x25 → KV.Canon {} s.zn.store → s.tw.fetches = [(h.tag, slot, nsid, lba, 1)] → slot ≠ 65536 → KV.find s.port.cmds slot = none →
    ∃ t, exec (.fetchData h [some (v, k)]) s = .next t ∧ readLba t nsid lba = { readLba s nsid lba with val := v, key := k, lost := false } ∧ t.tw.fetches = [] ∧
      (∀ ns l, lbaKey ns l ≠ lbaKey nsid lba → readLba t ns l = readLba s ns l) ∧ Core s t) ∧
  (∀ (s : State) (h : MsgHdr) (d : List (Option (Nat × Nat))), Reaches s h 0x25 → (∀ f ∈ s.tw.fetches, f.1 ≠ h.tag) → exec (.fetchData h d) s = .next (discard (noted s h) h)) ∧
  (∀ (s : State) (h : MsgHdr) (f : FrameBody) (n : Ns) (x : Nat × Nat), Reaches s h 0x26 → KV.Canon {} s.zn.store → f.kind = 3 → nsOf s f.nsid = some n → n.here = false → n.mirrored = false → n.becoming = true →
    f.data = [x] → x ≠ (1, 0) → readLba s f.nsid f.slba = {} → ∃ t, exec (.reshapeCopy h f) s = .next t ∧ readLba t f.nsid f.slba = { val := x.1, key := x.2, epoch := f.pepoch, oseq := f.oseq } ∧ Core s t) ∧
  (∀ (s : State) (h : MsgHdr) (f : FrameBody) (n : Ns), Reaches s h 0x26 → nsOf s f.nsid = some n → n.becoming = false ∨ n.here = true ∨ n.mirrored = true → exec (.reshapeCopy h f) s = .next (discard (noted s h) h))

/-- The SPDM responder (R302, R310, R466, R372, R373, Table 12.7): before the end of Measure, and while the security core is out of service, the requests named are answered Busy; a version is offered and what was agreed forgotten; capabilities take the version, algorithms follow them and both P-384 and SHA-384 are needed; digests, certificate and measurements follow the algorithms and give the chain's digest, a portion of the chain that fits, and the blocks asked for; what comes out of order is an unexpected request. Key exchange, finish, key update and PSK exchange exist on the Deroft link alone, where step 5 opens the session and finish begins step 6 under fresh keys. (What of this is not the spec's is the model's choice: log 96.) -/
def Obligations.SpdmResponder : Prop :=
  (∀ (s : State) (t : Nat), t ≤ 1 → spdmReached s t = true → s.md.mode = .measure → exec (.spdmGetVersion t) s = .next (spdmError s t 3) ∧ exec (.spdmGetDigests t) s = .next (spdmError s t 3) ∧
    exec (.spdmPskExchange t) s = .next (spdmError s t 3)) ∧
  (∀ (s : State) (t : Nat), spdmReached s t = true → coreRuns s 28 = false → exec (.spdmGetVersion t) s = .next (spdmError s t 3) ∧ exec (.spdmGetDigests t) s = .next (spdmError s t 3)) ∧
  (∀ (s : State) (t : Nat), t ≤ 1 → spdmReached s t = true → s.md.mode ≠ .measure → coreRuns s 28 = true → s.boot.spdmCaps.length = 3 → ∃ u, exec (.spdmGetVersion t) s = .next u ∧ u.boot.spdmOut = s.boot.spdmOut ++ [(t, [0x04, 2, 0x11, 0x12])] ∧
    u.boot.spdmCaps.getD t false = false ∧ u = { s with boot := u.boot }) ∧
  (∀ (s : State) (t v : Nat), t ≤ 1 → spdmReached s t = true → s.md.mode ≠ .measure → coreRuns s 28 = true → v = 0x11 ∨ v = 0x12 → s.boot.spdmVer.length = 3 → s.boot.spdmCaps.length = 3 →
    ∃ u, exec (.spdmGetCapabilities t v) s = .next u ∧ verOf u t = v ∧ u.boot.spdmCaps.getD t false = true ∧ u.boot.spdmOut = s.boot.spdmOut ++ [(t, 0x61 :: v :: leBytes 4 (spdmFlags t))] ∧ u = { s with boot := u.boot }) ∧
  (∀ (s : State) (t v : Nat), spdmReached s t = true → s.md.mode ≠ .measure → coreRuns s 28 = true → v ≠ 0x11 → v ≠ 0x12 → exec (.spdmGetCapabilities t v) s = .next (spdmError s t 0x41)) ∧
  (∀ (s : State) (t : Nat), t ≤ 1 → spdmReached s t = true → s.md.mode ≠ .measure → coreRuns s 28 = true → s.boot.spdmCaps.getD t false = true → s.boot.spdmAlgs.length = 3 →
    (∃ u, exec (.spdmNegotiateAlgorithms t true true) s = .next u ∧ u.boot.spdmAlgs.getD t false = true ∧ u = { s with boot := u.boot }) ∧
    exec (.spdmNegotiateAlgorithms t false true) s = .next (spdmError s t 1)) ∧
  (∀ (s : State) (t : Nat), spdmReached s t = true → s.md.mode ≠ .measure → coreRuns s 28 = true → s.boot.spdmAlgs.getD t false = false →
    exec (.spdmGetDigests t) s = .next (spdmError s t 4) ∧ (∀ slot o l, exec (.spdmGetCertificate t slot o l) s = .next (spdmError s t 4)) ∧ (∀ slot x n, exec (.spdmChallenge t slot x n) s = .next (spdmError s t 4))) ∧
  (∀ (s : State) (t : Nat), spdmReached s t = true → s.md.mode ≠ .measure → coreRuns s 28 = true → s.boot.spdmAlgs.getD t false = true →
    exec (.spdmGetDigests t) s = .next (spdmReply s t ([0x01, verOf s t, 1] ++ chainDigest s)) ∧
    (∀ o l, o < (chainOf s).length → exec (.spdmGetCertificate t 0 o l) s =
      .next (spdmReply s t ([0x02, verOf s t, 0] ++ leBytes 2 ((chainOf s).drop o |>.take l).length ++ leBytes 2 ((chainOf s).length - o - ((chainOf s).drop o |>.take l).length) ++ ((chainOf s).drop o |>.take l)))) ∧
    (∀ i n b, askedBlocks s i = some b → exec (.spdmGetMeasurements t i n false none) s = .next (spdmReply s t ([0x60, verOf s t, i] ++ b))) ∧
    (∀ i n, askedBlocks s i = none → exec (.spdmGetMeasurements t i n false none) s = .next (spdmError s t 1))) ∧
  (∀ (s : State) (t n : Nat), t ≤ 1 → spdmReached s t = true → s.md.mode ≠ .measure → coreRuns s 28 = true → s.boot.spdmAlgs.getD t false = true →
    ∃ u r, exec (.spdmChallenge t 0 0 n) s = .next u ∧ u.boot.spdmOut = s.boot.spdmOut ++ [(t, r)] ∧ r.take 4 = [0x03, verOf s t, 0, 1] ∧ r.length = 4 + 48 + 32 + 96 ∧ Core s { u with boot := s.boot } ∧ u.zn = s.zn) ∧
  (∀ (s : State) (t : Nat), t ≤ 1 → spdmReached s t = true → s.md.mode ≠ .measure → coreRuns s 28 = true → (∀ ok, exec (.spdmKeyExchange t ok) s = .next (spdmError s t 7)) ∧ (∀ ok, exec (.spdmFinish t ok) s = .next (spdmError s t 7)) ∧
    exec (.spdmKeyUpdate t) s = .next (spdmError s t 7)) ∧
  (∀ (s : State) (t : Nat), spdmReached s t = true → s.md.mode ≠ .measure → coreRuns s 28 = true → exec (.spdmPskExchange t) s = .next (spdmError s t 7)) ∧
  (∀ s : State, spdmReached s 2 = true → coreRuns s 28 = true → s.tw.step = 5 → ∃ u, exec (.spdmKeyExchange 2 true) s = .next u ∧ u.boot.spdmSession = 1 ∧ u.tw.step = 5 ∧ u.md = s.md ∧ u.zn = s.zn) ∧
  (∀ s : State, spdmReached s 2 = true → coreRuns s 28 = true → s.tw.step = 5 → s.boot.spdmSession = 1 → ∃ u, exec (.spdmFinish 2 true) s = .next u ∧ u.boot.spdmSession = 2 ∧ u.tw.step = 6 ∧ u.keys.linkKeys.length = 4 ∧ u.keys.wrapKeys.length = 1 ∧
    u.tw.keyPhase = false ∧ u.md = s.md ∧ u.zn = s.zn) ∧
  (∀ s : State, s.tw.linkUp = true → s.md.mode = .service → rank s ≠ 0 → ∃ u, exec (.spdmKeyUpdate 2) s = .next u ∧ u.tw.keyPhase = !s.tw.keyPhase ∧ u.keys.linkKeys.length = 4 + min 4 s.keys.linkKeys.length ∧ u.md = s.md ∧ u.zn = s.zn)

/-- The management endpoint (R304, R431 to R434, R493): every command that reaches a port is answered once on it, with an error of its own where it names what does not exist; the polls clear the status bits only when asked to; the frequency of the two wires takes only the values that exist, the transmission unit stays 64; the VPD is 256 bytes; a Reset resets the controllers and keeps the mode; a tunnelled command before the end of Measure, in Holiday or in Harvest is answered C4h with the mode. A command that does not reach its port changes nothing. ALERT_N is low while a status bit is set and in Harvest, and released without rails, as the sense output is. (What of this is not the spec's is the model's choice: log 97.) -/
def Obligations.ManagementEndpoint : Prop :=
  (∀ (s : State) (p typ id : Nat) (d : List Nat), miReached s p = true → miStructure s typ id = some d → exec (.readNvmeMiDataStructure p typ id) s = .next (miReply s p 0 d)) ∧
  (∀ (s : State) (p typ id : Nat), miReached s p = true → miStructure s typ id = none → exec (.readNvmeMiDataStructure p typ id) s = .next (miReply s p 4 [])) ∧
  (∀ (s : State) (p : Nat), miReached s p = false → (∀ typ id, exec (.readNvmeMiDataStructure p typ id) s = .next s) ∧ (∀ c, exec (.nvmSubsystemHealthStatusPoll p c) s = .next s) ∧ (∀ k, exec (.miReset p k) s = .next s)) ∧
  (∀ (s : State) (p : Nat), miReached s p = true → (∃ t d, exec (.nvmSubsystemHealthStatusPoll p false) s = .next t ∧ t.adm.miOut = s.adm.miOut ++ [p :: 0 :: d] ∧ d.length = 6 ∧ nth d 1 = 255 - s.adm.critWarn.toNat ∧
      t.adm.ccs = s.adm.ccs ∧ t.zn = s.zn ∧ t.jr = s.jr ∧ Core s t) ∧
    (∃ t, exec (.nvmSubsystemHealthStatusPoll p true) s = .next t ∧ t.adm.ccs = 0 ∧ t.zn = s.zn ∧ t.jr = s.jr ∧ Core s t)) ∧
  (∀ (s : State) (p start count : Nat) (clear : Bool), miReached s p = true → ∃ t d, exec (.controllerHealthStatusPoll p start count clear) s = .next t ∧ t.adm.miOut = s.adm.miOut ++ [p :: 0 :: d] ∧ nth d 0 ≤ count ∧
    t.adm.ccs = (if clear then 0 else s.adm.ccs) ∧ t = { s with adm := t.adm }) ∧
  (∀ (s : State) (p v : Nat), miReached s p = true → 1 ≤ v → v ≤ 3 → ∃ t, exec (.configurationSet p 1 1 v) s = .next t ∧ t.sup.smbusKhz = freqKhz v ∧ t = { s with adm := t.adm, sup := { s.sup with smbusKhz := t.sup.smbusKhz } }) ∧
  (∀ (s : State) (p v : Nat), miReached s p = true → exec (.configurationSet p 2 0 v) s = .next (miReply (clearCcs s (BitVec.ofNat 16 v)) p 0 [])) ∧
  (∀ (s : State) (p a v : Nat), miReached s p = true → v ≠ 64 → exec (.configurationSet p 3 a v) s = .next (miReply s p 4 [])) ∧
  (∀ (s : State) (p a : Nat), miReached s p = true → a < 2 → exec (.configurationGet p 3 a) s = .next (miReply s p 0 (leBytes 2 s.adm.mctpUnit))) ∧
  (∀ (s : State) (p : Nat), miReached s p = true → s.sup.smbusKhz = 100 ∨ s.sup.smbusKhz = 400 ∨ s.sup.smbusKhz = 1000 → ∃ c, exec (.configurationGet p 1 1) s = .next (miReply s p 0 [c]) ∧ freqKhz c = s.sup.smbusKhz) ∧
  (∀ (s : State) (p o l : Nat), miReached s p = true → o + l ≤ 256 → ∃ d, exec (.vpdRead p o l) s = .next (miReply s p 0 d) ∧ d = ((vpdBytes s).drop o).take l ∧ d.length = l) ∧
  (∀ (s : State) (p o l : Nat), miReached s p = true → 256 < o + l → exec (.vpdRead p o l) s = .next (miReply s p 4 [])) ∧
  (∀ (s : State) (p : Nat), miReached s p = true → ∃ t, exec (.miReset p 0) s = .next t ∧ t.md.mode = s.md.mode ∧ t.port.rate = 0 ∧ t.port.vfEnable = false ∧ t.zn.store = s.zn.store) ∧
  (∀ (s : State) (p k : Nat), miReached s p = true → k ≠ 0 → exec (.miReset p k) s = .next (miReply s p 4 [])) ∧
  (∀ (s : State) (p op : Nat) (e : Sqe), miReached s p = true → s.md.mode = .measure ∨ s.md.mode = .holiday ∨ s.md.mode = .harvest →
    exec (.tunnelledAdminCommand p op e) s = .next (miReply s p 0 (leBytes 2 Status.c4.code ++ leBytes 4 s.md.mode.code ++ []))) ∧
  (∀ (s : State) (p op : Nat) (e : Sqe), miReached s p = true → ∃ t d, exec (.tunnelledAdminCommand p op e) s = .next t ∧ t.adm.miOut = s.adm.miOut ++ [p :: 0 :: d] ∧ 6 ≤ d.length ∧ t.zn.store = s.zn.store ∧ t.jr = s.jr ∧ t.md.mode = s.md.mode) ∧
  (∀ (s : State), s.sup.rails = true → (∃ t d, exec (.basicManagementCommand 0) s = .next t ∧ t.adm.miOut = s.adm.miOut ++ [1 :: 0 :: 6 :: d] ∧ d.length = 6 ∧ t.zn = s.zn ∧ Core s t) ∧
    (∃ t d, exec (.basicManagementCommand 8) s = .next t ∧ t.adm.miOut = s.adm.miOut ++ [1 :: 0 :: 22 :: d] ∧ d.drop 2 = s.boot.serial ∧ t.zn = s.zn ∧ Core s t)) ∧
  (∀ s : State, alertN s = false ↔ s.sup.rails = true ∧ (s.adm.ccs ≠ 0 ∨ s.md.mode = .harvest)) ∧
  (∀ s : State, s.sup.rails = false → pairsenseOut s = false)

/-- The indicators and CLKREQ_N (R494): CLKREQ_N is low whenever the rails are up. Outside Holiday and Harvest, with the rails on, LED_ACT_N is low while a command of any function, an admin command included, is in flight and for 30 ms after it was last set low, an outstanding Asynchronous Event Request making no difference; LED_FAULT_N is low in Quarantine and while a Critical Warning bit is set, and otherwise toggles with the time base while rebuilding is raised, low in the first half of every 500 ms, and is released else. Both are released in Holiday, in Harvest and with the rails off. (What of this is not the spec's is the model's choice: log 101.) -/
def Obligations.PinsFollowTheState : Prop :=
  (∀ s : State, clkreqN s = false ↔ s.sup.rails = true) ∧
  (∀ s : State, s.sup.rails = true → s.md.mode ≠ .holiday → s.md.mode ≠ .harvest → (ledActN s = false ↔ s.port.cmds ≠ [] ∨ adminOpen s ≠ [] ∨ (s.port.ledActAt ≠ 0 ∧ s.time.dtb < s.port.ledActAt + 30000000))) ∧
  (∀ (s : State) (f : Nat) (l : List Nat), ledActN (setCtrl s f (fun c => { c with aers := l })) = ledActN s) ∧
  (∀ s : State, s.sup.rails = true → s.md.mode ≠ .holiday → s.md.mode ≠ .harvest → s.md.mode = .quarantine ∨ s.adm.critWarn ≠ 0 → ledFaultN s = false) ∧
  (∀ s : State, s.sup.rails = true → s.md.mode ≠ .holiday → s.md.mode ≠ .harvest → s.md.mode ≠ .quarantine → s.adm.critWarn = 0 →
    (ledFaultN s = false ↔ s.md.rebuilding = true ∧ s.time.dtb % 500000000 < 250000000)) ∧
  (∀ s : State, s.sup.rails = false ∨ s.md.mode = .holiday ∨ s.md.mode = .harvest → ledActN s = true ∧ ledFaultN s = true)

/-- An NVM Subsystem Reset carried to the twin travels as Notice 03h; the module that receives it resets its controllers on receipt; neither leaves Service (R326). The module ordered to reset, and the one told of it, disable every controller and take their links down to train again; every other mode does the same without a twin (R65). -/
def Obligations.SubsystemResetReachesTheTwin : Prop :=
  (∀ (s : State) (f : Nat), f < 128 → s.md.mode = .service → s.tw.linkUp = true → ∃ t x l, exec (.nvmSubsystemReset f) s = .next t ∧ t.tw.out = s.tw.out ++ x :: l ∧
    x.hdr.typ = 9 ∧ x.body = [3] ∧ (∀ g, (ctrl t g).cc = 0 ∧ (ctrl t g).rdy = false) ∧ t.port.rate = 0 ∧ t.port.training = true ∧ t.md.mode = .service) ∧
  (∀ (s : State) (h : MsgHdr), Reaches s h 9 → ∃ t, exec (.noticeNvmSubsystemReset h) s = .next t ∧ (∀ g, (ctrl t g).cc = 0 ∧ (ctrl t g).rdy = false) ∧
    t.port.rate = 0 ∧ t.port.training = true ∧ t.md.mode = .service) ∧
  (∀ (s : State) (f : Nat), f < 128 → s.md.mode ≠ .service → ∃ t, exec (.nvmSubsystemReset f) s = .next t ∧
    (∀ g, (ctrl t g).cc = 0 ∧ (ctrl t g).rdy = false) ∧ t.port.rate = 0 ∧ t.port.training = true ∧ t.md.mode = s.md.mode)

/-- A priority or bulk message of another epoch (R299, R263): outside a pairing, whose own messages go before the common epoch (log 82), it is discarded and recorded in the event journal, the store, the journal of records and the mode as they were; a forwarded command is answered with a Forwarded completion of its class and tag that carries Asymmetric Access Inaccessible. -/
def Obligations.MessagesOfAnotherEpoch : Prop :=
  (∀ (s : State) (h : MsgHdr), s.tw.linkUp = true → s.sup.rails = true → h.authOk = true → s.md.mode ≠ .pairing → h.pepoch ≠ s.jr.pepoch.toNat →
    (∀ b, exec (.mirrorRecord h b) s = .next (discard (noted s h) h)) ∧ (∀ a b c, exec (.mirrorAcknowledgement h a b c) s = .next (discard (noted s h) h)) ∧
    (∀ a b c, exec (.shareUpdate h a b c) s = .next (discard (noted s h) h)) ∧ (∀ a, exec (.drop h a) s = .next (discard (noted s h) h)) ∧
    (∀ a b c d, exec (.forwardedCompletion h a b c d) s = .next (discard (noted s h) h)) ∧ (∀ a b, exec (.zoneConfirmation h a b) s = .next (discard (noted s h) h)) ∧
    (∀ a b, exec (.allotmentGrant h a b) s = .next (discard (noted s h) h)) ∧ (∀ a, exec (.dispose h a) s = .next (discard (noted s h) h)) ∧
    (∀ a b c, exec (.handoverOffer h a b c) s = .next (discard (noted s h) h)) ∧ (∀ a b c, exec (.handoverTaken h a b c) s = .next (discard (noted s h) h)) ∧
    (∀ a b c, exec (.handoverDepart h a b c) s = .next (discard (noted s h) h)) ∧ (∀ a b c, exec (.handoverDepartTaken h a b c) s = .next (discard (noted s h) h)) ∧
    exec (.noticeHarvest h) s = .next (discard (noted s h) h) ∧ exec (.noticeQuarantine h) s = .next (discard (noted s h) h) ∧
    exec (.noticeNvmSubsystemReset h) s = .next (discard (noted s h) h) ∧ exec (.noticePairingCommit h) s = .next (discard (noted s h) h) ∧
    (∀ a b c, exec (.adminSync h a b c) s = .next (discard (noted s h) h)) ∧ (∀ a b c, exec (.pairingTable h a b c) s = .next (discard (noted s h) h)) ∧
    (∀ b, exec (.resyncFrame h b) s = .next (discard (noted s h) h)) ∧ (∀ b, exec (.reshapeCopy h b) s = .next (discard (noted s h) h)) ∧
    (∀ a b c d, exec (.fetchRequest h a b c d) s = .next (discard (noted s h) h)) ∧ (∀ a, exec (.fetchData h a) s = .next (discard (noted s h) h))) ∧
  (∀ (s : State) (h : MsgHdr), 0 < (KV.findD s.ev.types 0x65 {}).bucket → s.ev.ring.length < ringRoom → ∃ e, (discard (noted s h) h).ev.ring = s.ev.ring ++ [e] ∧
    e.typ = 0x65 ∧ e.payload = [h.typ, h.pepoch] ∧ e.dtb = s.time.dtb) ∧
  (∀ (s : State) (h : MsgHdr), (KV.findD (discard (noted s h) h).ev.types 0x65 {}).total = min ((KV.findD s.ev.types 0x65 {}).total + 1) (2^64 - 1) ∧
    (discard (noted s h) h).zn = s.zn ∧ (discard (noted s h) h).jr = s.jr ∧ Core s (discard (noted s h) h)) ∧
  (∀ (s : State) (h : MsgHdr) (op cls stamp deadline claim : Nat) (e : Io) (all : Bool), s.tw.linkUp = true → s.sup.rails = true → h.authOk = true → h.typ = 0x04 ∨ h.typ = 0x21 →
    h.pepoch ≠ s.jr.pepoch.toNat → ∃ t x, exec (.forwardedCommand h op e cls stamp deadline claim all) s = .next t ∧ t.tw.out = s.tw.out ++ [x] ∧
      x.hdr.typ = (if h.typ = 4 then 5 else 0x22) ∧ x.hdr.tag = h.tag ∧ x.body = [Status.anaInaccessible.code, 0, 0] ∧ t.zn = s.zn ∧ t.jr = s.jr ∧ t.port = s.port ∧ Core s t)
end

