-- ==== Sys2Proof/Laws/State.lean ====
section
/-! SUPPORT. For each update of one part of the state, the parts it leaves alone. -/

namespace Sys2Proof.Machine

/-- `setCtrl` writes the part `port` alone. -/
@[simp] theorem setCtrl_frame (s : State) (f : Nat) (g : Ctrl → Ctrl) :
    (setCtrl s f g).part = s.part ∧ (setCtrl s f g).md = s.md ∧ (setCtrl s f g).zn = s.zn ∧ (setCtrl s f g).cal = s.cal ∧ (setCtrl s f g).media = s.media ∧ (setCtrl s f g).jr = s.jr ∧ (setCtrl s f g).tw = s.tw ∧ (setCtrl s f g).sup = s.sup ∧ (setCtrl s f g).boot = s.boot ∧ (setCtrl s f g).keys = s.keys ∧ (setCtrl s f g).ev = s.ev ∧ (setCtrl s f g).adm = s.adm ∧ (setCtrl s f g).time = s.time ∧ (setCtrl s f g).th = s.th ∧ (setCtrl s f g).pw = s.pw ∧ (setCtrl s f g).it = s.it ∧ (setCtrl s f g).tel = s.tel ∧ (setCtrl s f g).hist = s.hist ∧ (setCtrl s f g).free = s.free ∧ (setCtrl s f g).pending = s.pending := by
  unfold setCtrl
  exact ⟨rfl, rfl, rfl, rfl, rfl, rfl, rfl, rfl, rfl, rfl, rfl, rfl, rfl, rfl, rfl, rfl, rfl, rfl, rfl, rfl⟩

/-- `pushEvent` writes the part `ev` alone. -/
@[simp] theorem pushEvent_frame (s : State) (typ : Nat) (sev : Nat) (func : Option Nat) (nsid : Nat) (payload : List Nat) :
    (pushEvent s typ sev func nsid payload).part = s.part ∧ (pushEvent s typ sev func nsid payload).md = s.md ∧ (pushEvent s typ sev func nsid payload).port = s.port ∧ (pushEvent s typ sev func nsid payload).zn = s.zn ∧ (pushEvent s typ sev func nsid payload).cal = s.cal ∧ (pushEvent s typ sev func nsid payload).media = s.media ∧ (pushEvent s typ sev func nsid payload).jr = s.jr ∧ (pushEvent s typ sev func nsid payload).tw = s.tw ∧ (pushEvent s typ sev func nsid payload).sup = s.sup ∧ (pushEvent s typ sev func nsid payload).boot = s.boot ∧ (pushEvent s typ sev func nsid payload).keys = s.keys ∧ (pushEvent s typ sev func nsid payload).adm = s.adm ∧ (pushEvent s typ sev func nsid payload).time = s.time ∧ (pushEvent s typ sev func nsid payload).th = s.th ∧ (pushEvent s typ sev func nsid payload).pw = s.pw ∧ (pushEvent s typ sev func nsid payload).it = s.it ∧ (pushEvent s typ sev func nsid payload).tel = s.tel ∧ (pushEvent s typ sev func nsid payload).hist = s.hist ∧ (pushEvent s typ sev func nsid payload).free = s.free ∧ (pushEvent s typ sev func nsid payload).pending = s.pending := by
  unfold pushEvent
  exact ⟨rfl, rfl, rfl, rfl, rfl, rfl, rfl, rfl, rfl, rfl, rfl, rfl, rfl, rfl, rfl, rfl, rfl, rfl, rfl, rfl⟩

/-- `keepMode` writes the part `hist` alone. -/
@[simp] theorem keepMode_frame (s : State) :
    (keepMode s).part = s.part ∧ (keepMode s).md = s.md ∧ (keepMode s).port = s.port ∧ (keepMode s).zn = s.zn ∧ (keepMode s).cal = s.cal ∧ (keepMode s).media = s.media ∧ (keepMode s).jr = s.jr ∧ (keepMode s).tw = s.tw ∧ (keepMode s).sup = s.sup ∧ (keepMode s).boot = s.boot ∧ (keepMode s).keys = s.keys ∧ (keepMode s).ev = s.ev ∧ (keepMode s).adm = s.adm ∧ (keepMode s).time = s.time ∧ (keepMode s).th = s.th ∧ (keepMode s).pw = s.pw ∧ (keepMode s).it = s.it ∧ (keepMode s).tel = s.tel ∧ (keepMode s).free = s.free ∧ (keepMode s).pending = s.pending := by
  unfold keepMode
  exact ⟨rfl, rfl, rfl, rfl, rfl, rfl, rfl, rfl, rfl, rfl, rfl, rfl, rfl, rfl, rfl, rfl, rfl, rfl, rfl, rfl⟩

/-- `setNs` writes the part `zn` alone. -/
@[simp] theorem setNs_frame (s : State) (nsid : Nat) (g : Ns → Ns) :
    (setNs s nsid g).part = s.part ∧ (setNs s nsid g).md = s.md ∧ (setNs s nsid g).port = s.port ∧ (setNs s nsid g).cal = s.cal ∧ (setNs s nsid g).media = s.media ∧ (setNs s nsid g).jr = s.jr ∧ (setNs s nsid g).tw = s.tw ∧ (setNs s nsid g).sup = s.sup ∧ (setNs s nsid g).boot = s.boot ∧ (setNs s nsid g).keys = s.keys ∧ (setNs s nsid g).ev = s.ev ∧ (setNs s nsid g).adm = s.adm ∧ (setNs s nsid g).time = s.time ∧ (setNs s nsid g).th = s.th ∧ (setNs s nsid g).pw = s.pw ∧ (setNs s nsid g).it = s.it ∧ (setNs s nsid g).tel = s.tel ∧ (setNs s nsid g).hist = s.hist ∧ (setNs s nsid g).free = s.free ∧ (setNs s nsid g).pending = s.pending := by
  unfold setNs
  exact ⟨rfl, rfl, rfl, rfl, rfl, rfl, rfl, rfl, rfl, rfl, rfl, rfl, rfl, rfl, rfl, rfl, rfl, rfl, rfl, rfl⟩

/-- `ccsSet` writes the part `adm` alone. -/
@[simp] theorem ccsSet_frame (s : State) (k : Nat) :
    (ccsSet s k).part = s.part ∧ (ccsSet s k).md = s.md ∧ (ccsSet s k).port = s.port ∧ (ccsSet s k).zn = s.zn ∧ (ccsSet s k).cal = s.cal ∧ (ccsSet s k).media = s.media ∧ (ccsSet s k).jr = s.jr ∧ (ccsSet s k).tw = s.tw ∧ (ccsSet s k).sup = s.sup ∧ (ccsSet s k).boot = s.boot ∧ (ccsSet s k).keys = s.keys ∧ (ccsSet s k).ev = s.ev ∧ (ccsSet s k).time = s.time ∧ (ccsSet s k).th = s.th ∧ (ccsSet s k).pw = s.pw ∧ (ccsSet s k).it = s.it ∧ (ccsSet s k).tel = s.tel ∧ (ccsSet s k).hist = s.hist ∧ (ccsSet s k).free = s.free ∧ (ccsSet s k).pending = s.pending := by
  unfold ccsSet
  exact ⟨rfl, rfl, rfl, rfl, rfl, rfl, rfl, rfl, rfl, rfl, rfl, rfl, rfl, rfl, rfl, rfl, rfl, rfl, rfl, rfl⟩

/-- `setRanks` writes the part `it` alone. -/
@[simp] theorem setRanks_frame (s : State) (r : RankState) :
    (setRanks s r).part = s.part ∧ (setRanks s r).md = s.md ∧ (setRanks s r).port = s.port ∧ (setRanks s r).zn = s.zn ∧ (setRanks s r).cal = s.cal ∧ (setRanks s r).media = s.media ∧ (setRanks s r).jr = s.jr ∧ (setRanks s r).tw = s.tw ∧ (setRanks s r).sup = s.sup ∧ (setRanks s r).boot = s.boot ∧ (setRanks s r).keys = s.keys ∧ (setRanks s r).ev = s.ev ∧ (setRanks s r).adm = s.adm ∧ (setRanks s r).time = s.time ∧ (setRanks s r).th = s.th ∧ (setRanks s r).pw = s.pw ∧ (setRanks s r).tel = s.tel ∧ (setRanks s r).hist = s.hist ∧ (setRanks s r).free = s.free ∧ (setRanks s r).pending = s.pending := by
  unfold setRanks
  exact ⟨rfl, rfl, rfl, rfl, rfl, rfl, rfl, rfl, rfl, rfl, rfl, rfl, rfl, rfl, rfl, rfl, rfl, rfl, rfl, rfl⟩

/-- `passTime` writes the parts `time` and `it` alone. -/
@[simp] theorem passTime_frame (s : State) (t : Nat) :
    (passTime s t).part = s.part ∧ (passTime s t).md = s.md ∧ (passTime s t).port = s.port ∧ (passTime s t).zn = s.zn ∧ (passTime s t).cal = s.cal ∧ (passTime s t).media = s.media ∧ (passTime s t).jr = s.jr ∧ (passTime s t).tw = s.tw ∧ (passTime s t).sup = s.sup ∧ (passTime s t).boot = s.boot ∧ (passTime s t).keys = s.keys ∧ (passTime s t).ev = s.ev ∧ (passTime s t).adm = s.adm ∧ (passTime s t).th = s.th ∧ (passTime s t).pw = s.pw ∧ (passTime s t).tel = s.tel ∧ (passTime s t).hist = s.hist ∧ (passTime s t).free = s.free ∧ (passTime s t).pending = s.pending := by
  unfold passTime
  exact ⟨rfl, rfl, rfl, rfl, rfl, rfl, rfl, rfl, rfl, rfl, rfl, rfl, rfl, rfl, rfl, rfl, rfl, rfl, rfl⟩

/-- `setDie` writes the part `media` alone. -/
@[simp] theorem setDie_frame (s : State) (d : Nat) (g : Die → Die) :
    (setDie s d g).part = s.part ∧ (setDie s d g).md = s.md ∧ (setDie s d g).port = s.port ∧ (setDie s d g).zn = s.zn ∧ (setDie s d g).cal = s.cal ∧ (setDie s d g).jr = s.jr ∧ (setDie s d g).tw = s.tw ∧ (setDie s d g).sup = s.sup ∧ (setDie s d g).boot = s.boot ∧ (setDie s d g).keys = s.keys ∧ (setDie s d g).ev = s.ev ∧ (setDie s d g).adm = s.adm ∧ (setDie s d g).time = s.time ∧ (setDie s d g).th = s.th ∧ (setDie s d g).pw = s.pw ∧ (setDie s d g).it = s.it ∧ (setDie s d g).tel = s.tel ∧ (setDie s d g).hist = s.hist ∧ (setDie s d g).free = s.free ∧ (setDie s d g).pending = s.pending := by
  unfold setDie
  exact ⟨rfl, rfl, rfl, rfl, rfl, rfl, rfl, rfl, rfl, rfl, rfl, rfl, rfl, rfl, rfl, rfl, rfl, rfl, rfl, rfl⟩

/-- `setGrp` writes the part `media` alone. -/
@[simp] theorem setGrp_frame (s : State) (g : Nat) (f : Grp → Grp) :
    (setGrp s g f).part = s.part ∧ (setGrp s g f).md = s.md ∧ (setGrp s g f).port = s.port ∧ (setGrp s g f).zn = s.zn ∧ (setGrp s g f).cal = s.cal ∧ (setGrp s g f).jr = s.jr ∧ (setGrp s g f).tw = s.tw ∧ (setGrp s g f).sup = s.sup ∧ (setGrp s g f).boot = s.boot ∧ (setGrp s g f).keys = s.keys ∧ (setGrp s g f).ev = s.ev ∧ (setGrp s g f).adm = s.adm ∧ (setGrp s g f).time = s.time ∧ (setGrp s g f).th = s.th ∧ (setGrp s g f).pw = s.pw ∧ (setGrp s g f).it = s.it ∧ (setGrp s g f).tel = s.tel ∧ (setGrp s g f).hist = s.hist ∧ (setGrp s g f).free = s.free ∧ (setGrp s g f).pending = s.pending := by
  unfold setGrp
  exact ⟨rfl, rfl, rfl, rfl, rfl, rfl, rfl, rfl, rfl, rfl, rfl, rfl, rfl, rfl, rfl, rfl, rfl, rfl, rfl, rfl⟩

/-- `addClaim` writes the part `cal` alone. -/
@[simp] theorem addClaim_frame (s : State) (c : Claim) :
    (addClaim s c).part = s.part ∧ (addClaim s c).md = s.md ∧ (addClaim s c).port = s.port ∧ (addClaim s c).zn = s.zn ∧ (addClaim s c).media = s.media ∧ (addClaim s c).jr = s.jr ∧ (addClaim s c).tw = s.tw ∧ (addClaim s c).sup = s.sup ∧ (addClaim s c).boot = s.boot ∧ (addClaim s c).keys = s.keys ∧ (addClaim s c).ev = s.ev ∧ (addClaim s c).adm = s.adm ∧ (addClaim s c).time = s.time ∧ (addClaim s c).th = s.th ∧ (addClaim s c).pw = s.pw ∧ (addClaim s c).it = s.it ∧ (addClaim s c).tel = s.tel ∧ (addClaim s c).hist = s.hist ∧ (addClaim s c).free = s.free ∧ (addClaim s c).pending = s.pending := by
  unfold addClaim
  exact ⟨rfl, rfl, rfl, rfl, rfl, rfl, rfl, rfl, rfl, rfl, rfl, rfl, rfl, rfl, rfl, rfl, rfl, rfl, rfl, rfl⟩

/-- `addDraw` writes the part `cal` alone. -/
@[simp] theorem addDraw_frame (s : State) (d : Draw) :
    (addDraw s d).part = s.part ∧ (addDraw s d).md = s.md ∧ (addDraw s d).port = s.port ∧ (addDraw s d).zn = s.zn ∧ (addDraw s d).media = s.media ∧ (addDraw s d).jr = s.jr ∧ (addDraw s d).tw = s.tw ∧ (addDraw s d).sup = s.sup ∧ (addDraw s d).boot = s.boot ∧ (addDraw s d).keys = s.keys ∧ (addDraw s d).ev = s.ev ∧ (addDraw s d).adm = s.adm ∧ (addDraw s d).time = s.time ∧ (addDraw s d).th = s.th ∧ (addDraw s d).pw = s.pw ∧ (addDraw s d).it = s.it ∧ (addDraw s d).tel = s.tel ∧ (addDraw s d).hist = s.hist ∧ (addDraw s d).free = s.free ∧ (addDraw s d).pending = s.pending := by
  unfold addDraw
  exact ⟨rfl, rfl, rfl, rfl, rfl, rfl, rfl, rfl, rfl, rfl, rfl, rfl, rfl, rfl, rfl, rfl, rfl, rfl, rfl, rfl⟩

/-- `giveBuf` writes the part `it` alone. -/
@[simp] theorem giveBuf_frame (s : State) (b : Nat) :
    (giveBuf s b).part = s.part ∧ (giveBuf s b).md = s.md ∧ (giveBuf s b).port = s.port ∧ (giveBuf s b).zn = s.zn ∧ (giveBuf s b).cal = s.cal ∧ (giveBuf s b).media = s.media ∧ (giveBuf s b).jr = s.jr ∧ (giveBuf s b).tw = s.tw ∧ (giveBuf s b).sup = s.sup ∧ (giveBuf s b).boot = s.boot ∧ (giveBuf s b).keys = s.keys ∧ (giveBuf s b).ev = s.ev ∧ (giveBuf s b).adm = s.adm ∧ (giveBuf s b).time = s.time ∧ (giveBuf s b).th = s.th ∧ (giveBuf s b).pw = s.pw ∧ (giveBuf s b).tel = s.tel ∧ (giveBuf s b).hist = s.hist ∧ (giveBuf s b).free = s.free ∧ (giveBuf s b).pending = s.pending := by
  unfold giveBuf
  exact ⟨rfl, rfl, rfl, rfl, rfl, rfl, rfl, rfl, rfl, rfl, rfl, rfl, rfl, rfl, rfl, rfl, rfl, rfl, rfl, rfl⟩

/-- `decBuf` writes the part `it` alone. -/
@[simp] theorem decBuf_frame (s : State) (b : Nat) :
    (decBuf s b).part = s.part ∧ (decBuf s b).md = s.md ∧ (decBuf s b).port = s.port ∧ (decBuf s b).zn = s.zn ∧ (decBuf s b).cal = s.cal ∧ (decBuf s b).media = s.media ∧ (decBuf s b).jr = s.jr ∧ (decBuf s b).tw = s.tw ∧ (decBuf s b).sup = s.sup ∧ (decBuf s b).boot = s.boot ∧ (decBuf s b).keys = s.keys ∧ (decBuf s b).ev = s.ev ∧ (decBuf s b).adm = s.adm ∧ (decBuf s b).time = s.time ∧ (decBuf s b).th = s.th ∧ (decBuf s b).pw = s.pw ∧ (decBuf s b).tel = s.tel ∧ (decBuf s b).hist = s.hist ∧ (decBuf s b).free = s.free ∧ (decBuf s b).pending = s.pending := by
  unfold decBuf
  split <;> simp

/-- Folding an operation that writes the part `it` alone writes it alone. -/
theorem foldl_it {α : Type} (l : List α) (f : State → α → State) (h : ∀ s x, { f s x with it := s.it } = s) (s : State) :
    { l.foldl f s with it := s.it } = s := by
  induction l generalizing s with
  | nil => rfl
  | cons x l ih =>
    have a := ih (f s x)
    have b := h s x
    rw [List.foldl_cons]
    calc { l.foldl f (f s x) with it := s.it } = { ({ l.foldl f (f s x) with it := (f s x).it } : State) with it := s.it } := rfl
      _ = { f s x with it := s.it } := by rw [a]
      _ = s := b

/-- `freeBufs` writes the part `it` alone. -/
theorem freeBufs_it (s : State) (c : Cmd) : { freeBufs s c with it := s.it } = s := by
  have d (s : State) (b : Nat) : { decBuf s b with it := s.it } = s := by
    unfold decBuf giveBuf
    split <;> rfl
  exact foldl_it c.users _ (fun s _ => foldl_it c.bufs _ d s) s

/-- `freeBufs` writes the part `it` alone. -/
@[simp] theorem freeBufs_frame (s : State) (c : Cmd) :
    (freeBufs s c).part = s.part ∧ (freeBufs s c).md = s.md ∧ (freeBufs s c).port = s.port ∧ (freeBufs s c).zn = s.zn ∧ (freeBufs s c).cal = s.cal ∧ (freeBufs s c).media = s.media ∧ (freeBufs s c).jr = s.jr ∧ (freeBufs s c).tw = s.tw ∧ (freeBufs s c).sup = s.sup ∧ (freeBufs s c).boot = s.boot ∧ (freeBufs s c).keys = s.keys ∧ (freeBufs s c).ev = s.ev ∧ (freeBufs s c).adm = s.adm ∧ (freeBufs s c).time = s.time ∧ (freeBufs s c).th = s.th ∧ (freeBufs s c).pw = s.pw ∧ (freeBufs s c).tel = s.tel ∧ (freeBufs s c).hist = s.hist ∧ (freeBufs s c).free = s.free ∧ (freeBufs s c).pending = s.pending := by
  have h := freeBufs_it s c
  exact ⟨(congrArg State.part h : _), (congrArg State.md h : _), (congrArg State.port h : _), (congrArg State.zn h : _), (congrArg State.cal h : _), (congrArg State.media h : _), (congrArg State.jr h : _), (congrArg State.tw h : _), (congrArg State.sup h : _), (congrArg State.boot h : _), (congrArg State.keys h : _), (congrArg State.ev h : _), (congrArg State.adm h : _), (congrArg State.time h : _), (congrArg State.th h : _), (congrArg State.pw h : _), (congrArg State.tel h : _), (congrArg State.hist h : _), (congrArg State.free h : _), (congrArg State.pending h : _)⟩

/-- `askReads` writes the part `cal` alone. -/
@[simp] theorem askReads_frame (s : State) (job : BackJob) (l : List (Nat × Nat)) :
    (askReads s job l).part = s.part ∧ (askReads s job l).md = s.md ∧ (askReads s job l).port = s.port ∧ (askReads s job l).zn = s.zn ∧ (askReads s job l).media = s.media ∧ (askReads s job l).jr = s.jr ∧ (askReads s job l).tw = s.tw ∧ (askReads s job l).sup = s.sup ∧ (askReads s job l).boot = s.boot ∧ (askReads s job l).keys = s.keys ∧ (askReads s job l).ev = s.ev ∧ (askReads s job l).adm = s.adm ∧ (askReads s job l).time = s.time ∧ (askReads s job l).th = s.th ∧ (askReads s job l).pw = s.pw ∧ (askReads s job l).it = s.it ∧ (askReads s job l).tel = s.tel ∧ (askReads s job l).hist = s.hist ∧ (askReads s job l).free = s.free ∧ (askReads s job l).pending = s.pending := by
  unfold askReads
  exact ⟨rfl, rfl, rfl, rfl, rfl, rfl, rfl, rfl, rfl, rfl, rfl, rfl, rfl, rfl, rfl, rfl, rfl, rfl, rfl, rfl⟩

/-- `makeDurable` writes the part `jr` alone. -/
@[simp] theorem makeDurable_frame (s : State) (seq : Nat) :
    (makeDurable s seq).part = s.part ∧ (makeDurable s seq).md = s.md ∧ (makeDurable s seq).port = s.port ∧ (makeDurable s seq).zn = s.zn ∧ (makeDurable s seq).cal = s.cal ∧ (makeDurable s seq).media = s.media ∧ (makeDurable s seq).tw = s.tw ∧ (makeDurable s seq).sup = s.sup ∧ (makeDurable s seq).boot = s.boot ∧ (makeDurable s seq).keys = s.keys ∧ (makeDurable s seq).ev = s.ev ∧ (makeDurable s seq).adm = s.adm ∧ (makeDurable s seq).time = s.time ∧ (makeDurable s seq).th = s.th ∧ (makeDurable s seq).pw = s.pw ∧ (makeDurable s seq).it = s.it ∧ (makeDurable s seq).tel = s.tel ∧ (makeDurable s seq).hist = s.hist ∧ (makeDurable s seq).free = s.free ∧ (makeDurable s seq).pending = s.pending := by
  unfold makeDurable
  exact ⟨rfl, rfl, rfl, rfl, rfl, rfl, rfl, rfl, rfl, rfl, rfl, rfl, rfl, rfl, rfl, rfl, rfl, rfl, rfl, rfl⟩

/-- `setRec` writes the part `jr` alone. -/
@[simp] theorem setRec_frame (s : State) (seq : Nat) (f : VRec → VRec) :
    (setRec s seq f).part = s.part ∧ (setRec s seq f).md = s.md ∧ (setRec s seq f).port = s.port ∧ (setRec s seq f).zn = s.zn ∧ (setRec s seq f).cal = s.cal ∧ (setRec s seq f).media = s.media ∧ (setRec s seq f).tw = s.tw ∧ (setRec s seq f).sup = s.sup ∧ (setRec s seq f).boot = s.boot ∧ (setRec s seq f).keys = s.keys ∧ (setRec s seq f).ev = s.ev ∧ (setRec s seq f).adm = s.adm ∧ (setRec s seq f).time = s.time ∧ (setRec s seq f).th = s.th ∧ (setRec s seq f).pw = s.pw ∧ (setRec s seq f).it = s.it ∧ (setRec s seq f).tel = s.tel ∧ (setRec s seq f).hist = s.hist ∧ (setRec s seq f).free = s.free ∧ (setRec s seq f).pending = s.pending := by
  unfold setRec
  exact ⟨rfl, rfl, rfl, rfl, rfl, rfl, rfl, rfl, rfl, rfl, rfl, rfl, rfl, rfl, rfl, rfl, rfl, rfl, rfl, rfl⟩

/-- `storeLba` writes the part `zn` alone. -/
@[simp] theorem storeLba_frame (s : State) (nsid : Nat) (lba : Nat) (b : Blk) :
    (storeLba s nsid lba b).part = s.part ∧ (storeLba s nsid lba b).md = s.md ∧ (storeLba s nsid lba b).port = s.port ∧ (storeLba s nsid lba b).cal = s.cal ∧ (storeLba s nsid lba b).media = s.media ∧ (storeLba s nsid lba b).jr = s.jr ∧ (storeLba s nsid lba b).tw = s.tw ∧ (storeLba s nsid lba b).sup = s.sup ∧ (storeLba s nsid lba b).boot = s.boot ∧ (storeLba s nsid lba b).keys = s.keys ∧ (storeLba s nsid lba b).ev = s.ev ∧ (storeLba s nsid lba b).adm = s.adm ∧ (storeLba s nsid lba b).time = s.time ∧ (storeLba s nsid lba b).th = s.th ∧ (storeLba s nsid lba b).pw = s.pw ∧ (storeLba s nsid lba b).it = s.it ∧ (storeLba s nsid lba b).tel = s.tel ∧ (storeLba s nsid lba b).hist = s.hist ∧ (storeLba s nsid lba b).free = s.free ∧ (storeLba s nsid lba b).pending = s.pending := by
  unfold storeLba
  exact ⟨rfl, rfl, rfl, rfl, rfl, rfl, rfl, rfl, rfl, rfl, rfl, rfl, rfl, rfl, rfl, rfl, rfl, rfl, rfl, rfl⟩

/-- `clearRange` writes the part `zn` alone. -/
@[simp] theorem clearRange_frame (s : State) (nsid : Nat) (lo : Nat) (hi : Nat) :
    (clearRange s nsid lo hi).part = s.part ∧ (clearRange s nsid lo hi).md = s.md ∧ (clearRange s nsid lo hi).port = s.port ∧ (clearRange s nsid lo hi).cal = s.cal ∧ (clearRange s nsid lo hi).media = s.media ∧ (clearRange s nsid lo hi).jr = s.jr ∧ (clearRange s nsid lo hi).tw = s.tw ∧ (clearRange s nsid lo hi).sup = s.sup ∧ (clearRange s nsid lo hi).boot = s.boot ∧ (clearRange s nsid lo hi).keys = s.keys ∧ (clearRange s nsid lo hi).ev = s.ev ∧ (clearRange s nsid lo hi).adm = s.adm ∧ (clearRange s nsid lo hi).time = s.time ∧ (clearRange s nsid lo hi).th = s.th ∧ (clearRange s nsid lo hi).pw = s.pw ∧ (clearRange s nsid lo hi).it = s.it ∧ (clearRange s nsid lo hi).tel = s.tel ∧ (clearRange s nsid lo hi).hist = s.hist ∧ (clearRange s nsid lo hi).free = s.free ∧ (clearRange s nsid lo hi).pending = s.pending := by
  unfold clearRange
  exact ⟨rfl, rfl, rfl, rfl, rfl, rfl, rfl, rfl, rfl, rfl, rfl, rfl, rfl, rfl, rfl, rfl, rfl, rfl, rfl, rfl⟩

/-- `setLedger` writes the part `port` alone. -/
@[simp] theorem setLedger_frame (s : State) (func : Nat) (row : Nat) (f : Ledger → Ledger) :
    (setLedger s func row f).part = s.part ∧ (setLedger s func row f).md = s.md ∧ (setLedger s func row f).zn = s.zn ∧ (setLedger s func row f).cal = s.cal ∧ (setLedger s func row f).media = s.media ∧ (setLedger s func row f).jr = s.jr ∧ (setLedger s func row f).tw = s.tw ∧ (setLedger s func row f).sup = s.sup ∧ (setLedger s func row f).boot = s.boot ∧ (setLedger s func row f).keys = s.keys ∧ (setLedger s func row f).ev = s.ev ∧ (setLedger s func row f).adm = s.adm ∧ (setLedger s func row f).time = s.time ∧ (setLedger s func row f).th = s.th ∧ (setLedger s func row f).pw = s.pw ∧ (setLedger s func row f).it = s.it ∧ (setLedger s func row f).tel = s.tel ∧ (setLedger s func row f).hist = s.hist ∧ (setLedger s func row f).free = s.free ∧ (setLedger s func row f).pending = s.pending := by
  unfold setLedger
  exact ⟨rfl, rfl, rfl, rfl, rfl, rfl, rfl, rfl, rfl, rfl, rfl, rfl, rfl, rfl, rfl, rfl, rfl, rfl, rfl, rfl⟩

/-- `startXts` writes the part `it` alone. -/
@[simp] theorem startXts_frame (s : State) (slot : Nat) (c : Cmd) (bytes : Nat) :
    (startXts s slot c bytes).part = s.part ∧ (startXts s slot c bytes).md = s.md ∧ (startXts s slot c bytes).port = s.port ∧ (startXts s slot c bytes).zn = s.zn ∧ (startXts s slot c bytes).cal = s.cal ∧ (startXts s slot c bytes).media = s.media ∧ (startXts s slot c bytes).jr = s.jr ∧ (startXts s slot c bytes).tw = s.tw ∧ (startXts s slot c bytes).sup = s.sup ∧ (startXts s slot c bytes).boot = s.boot ∧ (startXts s slot c bytes).keys = s.keys ∧ (startXts s slot c bytes).ev = s.ev ∧ (startXts s slot c bytes).adm = s.adm ∧ (startXts s slot c bytes).time = s.time ∧ (startXts s slot c bytes).th = s.th ∧ (startXts s slot c bytes).pw = s.pw ∧ (startXts s slot c bytes).tel = s.tel ∧ (startXts s slot c bytes).hist = s.hist ∧ (startXts s slot c bytes).free = s.free ∧ (startXts s slot c bytes).pending = s.pending := by
  unfold startXts
  exact ⟨rfl, rfl, rfl, rfl, rfl, rfl, rfl, rfl, rfl, rfl, rfl, rfl, rfl, rfl, rfl, rfl, rfl, rfl, rfl, rfl⟩

/-- `endXts` writes the part `it` alone. -/
@[simp] theorem endXts_frame (s : State) (slot : Nat) :
    (endXts s slot).part = s.part ∧ (endXts s slot).md = s.md ∧ (endXts s slot).port = s.port ∧ (endXts s slot).zn = s.zn ∧ (endXts s slot).cal = s.cal ∧ (endXts s slot).media = s.media ∧ (endXts s slot).jr = s.jr ∧ (endXts s slot).tw = s.tw ∧ (endXts s slot).sup = s.sup ∧ (endXts s slot).boot = s.boot ∧ (endXts s slot).keys = s.keys ∧ (endXts s slot).ev = s.ev ∧ (endXts s slot).adm = s.adm ∧ (endXts s slot).time = s.time ∧ (endXts s slot).th = s.th ∧ (endXts s slot).pw = s.pw ∧ (endXts s slot).tel = s.tel ∧ (endXts s slot).hist = s.hist ∧ (endXts s slot).free = s.free ∧ (endXts s slot).pending = s.pending := by
  unfold endXts
  exact ⟨rfl, rfl, rfl, rfl, rfl, rfl, rfl, rfl, rfl, rfl, rfl, rfl, rfl, rfl, rfl, rfl, rfl, rfl, rfl, rfl⟩

/-- `dropCmd` writes the parts `port` and `it` alone. -/
@[simp] theorem dropCmd_frame (s : State) (slot : Nat) :
    (dropCmd s slot).part = s.part ∧ (dropCmd s slot).md = s.md ∧ (dropCmd s slot).zn = s.zn ∧ (dropCmd s slot).cal = s.cal ∧ (dropCmd s slot).media = s.media ∧ (dropCmd s slot).jr = s.jr ∧ (dropCmd s slot).tw = s.tw ∧ (dropCmd s slot).sup = s.sup ∧ (dropCmd s slot).boot = s.boot ∧ (dropCmd s slot).keys = s.keys ∧ (dropCmd s slot).ev = s.ev ∧ (dropCmd s slot).adm = s.adm ∧ (dropCmd s slot).time = s.time ∧ (dropCmd s slot).th = s.th ∧ (dropCmd s slot).pw = s.pw ∧ (dropCmd s slot).tel = s.tel ∧ (dropCmd s slot).hist = s.hist ∧ (dropCmd s slot).free = s.free ∧ (dropCmd s slot).pending = s.pending := by
  unfold dropCmd
  simp

/-- `setCmd` writes the part `port` alone. -/
@[simp] theorem setCmd_frame (s : State) (slot : Nat) (f : Cmd → Cmd) :
    (setCmd s slot f).part = s.part ∧ (setCmd s slot f).md = s.md ∧ (setCmd s slot f).zn = s.zn ∧ (setCmd s slot f).cal = s.cal ∧ (setCmd s slot f).media = s.media ∧ (setCmd s slot f).jr = s.jr ∧ (setCmd s slot f).tw = s.tw ∧ (setCmd s slot f).sup = s.sup ∧ (setCmd s slot f).boot = s.boot ∧ (setCmd s slot f).keys = s.keys ∧ (setCmd s slot f).ev = s.ev ∧ (setCmd s slot f).adm = s.adm ∧ (setCmd s slot f).time = s.time ∧ (setCmd s slot f).th = s.th ∧ (setCmd s slot f).pw = s.pw ∧ (setCmd s slot f).it = s.it ∧ (setCmd s slot f).tel = s.tel ∧ (setCmd s slot f).hist = s.hist ∧ (setCmd s slot f).free = s.free ∧ (setCmd s slot f).pending = s.pending := by
  unfold setCmd
  exact ⟨rfl, rfl, rfl, rfl, rfl, rfl, rfl, rfl, rfl, rfl, rfl, rfl, rfl, rfl, rfl, rfl, rfl, rfl, rfl, rfl⟩

/-- `setZone` writes the part `zn` alone. -/
@[simp] theorem setZone_frame (s : State) (nsid : Nat) (i : Nat) (f : Zone → Zone) :
    (setZone s nsid i f).part = s.part ∧ (setZone s nsid i f).md = s.md ∧ (setZone s nsid i f).port = s.port ∧ (setZone s nsid i f).cal = s.cal ∧ (setZone s nsid i f).media = s.media ∧ (setZone s nsid i f).jr = s.jr ∧ (setZone s nsid i f).tw = s.tw ∧ (setZone s nsid i f).sup = s.sup ∧ (setZone s nsid i f).boot = s.boot ∧ (setZone s nsid i f).keys = s.keys ∧ (setZone s nsid i f).ev = s.ev ∧ (setZone s nsid i f).adm = s.adm ∧ (setZone s nsid i f).time = s.time ∧ (setZone s nsid i f).th = s.th ∧ (setZone s nsid i f).pw = s.pw ∧ (setZone s nsid i f).it = s.it ∧ (setZone s nsid i f).tel = s.tel ∧ (setZone s nsid i f).hist = s.hist ∧ (setZone s nsid i f).free = s.free ∧ (setZone s nsid i f).pending = s.pending := by
  unfold setZone
  exact ⟨rfl, rfl, rfl, rfl, rfl, rfl, rfl, rfl, rfl, rfl, rfl, rfl, rfl, rfl, rfl, rfl, rfl, rfl, rfl, rfl⟩

/-- `countHost` writes the part `media` alone. -/
@[simp] theorem countHost_frame (s : State) (density : Nat) (kib : Nat) :
    (countHost s density kib).part = s.part ∧ (countHost s density kib).md = s.md ∧ (countHost s density kib).port = s.port ∧ (countHost s density kib).zn = s.zn ∧ (countHost s density kib).cal = s.cal ∧ (countHost s density kib).jr = s.jr ∧ (countHost s density kib).tw = s.tw ∧ (countHost s density kib).sup = s.sup ∧ (countHost s density kib).boot = s.boot ∧ (countHost s density kib).keys = s.keys ∧ (countHost s density kib).ev = s.ev ∧ (countHost s density kib).adm = s.adm ∧ (countHost s density kib).time = s.time ∧ (countHost s density kib).th = s.th ∧ (countHost s density kib).pw = s.pw ∧ (countHost s density kib).it = s.it ∧ (countHost s density kib).tel = s.tel ∧ (countHost s density kib).hist = s.hist ∧ (countHost s density kib).free = s.free ∧ (countHost s density kib).pending = s.pending := by
  unfold countHost
  exact ⟨rfl, rfl, rfl, rfl, rfl, rfl, rfl, rfl, rfl, rfl, rfl, rfl, rfl, rfl, rfl, rfl, rfl, rfl, rfl, rfl⟩

/-- `setBset` writes the part `media` alone. -/
@[simp] theorem setBset_frame (s : State) (k : Nat) (f : BSet → BSet) :
    (setBset s k f).part = s.part ∧ (setBset s k f).md = s.md ∧ (setBset s k f).port = s.port ∧ (setBset s k f).zn = s.zn ∧ (setBset s k f).cal = s.cal ∧ (setBset s k f).jr = s.jr ∧ (setBset s k f).tw = s.tw ∧ (setBset s k f).sup = s.sup ∧ (setBset s k f).boot = s.boot ∧ (setBset s k f).keys = s.keys ∧ (setBset s k f).ev = s.ev ∧ (setBset s k f).adm = s.adm ∧ (setBset s k f).time = s.time ∧ (setBset s k f).th = s.th ∧ (setBset s k f).pw = s.pw ∧ (setBset s k f).it = s.it ∧ (setBset s k f).tel = s.tel ∧ (setBset s k f).hist = s.hist ∧ (setBset s k f).free = s.free ∧ (setBset s k f).pending = s.pending := by
  unfold setBset
  exact ⟨rfl, rfl, rfl, rfl, rfl, rfl, rfl, rfl, rfl, rfl, rfl, rfl, rfl, rfl, rfl, rfl, rfl, rfl, rfl, rfl⟩

/-- `queueRow` writes the parts `cal` and `media` alone. -/
@[simp] theorem queueRow_frame (s : State) (j : RowJob) (base : Nat) (lines : Nat) :
    (queueRow s j base lines).part = s.part ∧ (queueRow s j base lines).md = s.md ∧ (queueRow s j base lines).port = s.port ∧ (queueRow s j base lines).zn = s.zn ∧ (queueRow s j base lines).jr = s.jr ∧ (queueRow s j base lines).tw = s.tw ∧ (queueRow s j base lines).sup = s.sup ∧ (queueRow s j base lines).boot = s.boot ∧ (queueRow s j base lines).keys = s.keys ∧ (queueRow s j base lines).ev = s.ev ∧ (queueRow s j base lines).adm = s.adm ∧ (queueRow s j base lines).time = s.time ∧ (queueRow s j base lines).th = s.th ∧ (queueRow s j base lines).pw = s.pw ∧ (queueRow s j base lines).it = s.it ∧ (queueRow s j base lines).tel = s.tel ∧ (queueRow s j base lines).hist = s.hist ∧ (queueRow s j base lines).free = s.free ∧ (queueRow s j base lines).pending = s.pending := by
  unfold queueRow
  exact ⟨rfl, rfl, rfl, rfl, rfl, rfl, rfl, rfl, rfl, rfl, rfl, rfl, rfl, rfl, rfl, rfl, rfl, rfl, rfl⟩

/-- `dropDone` writes the part `cal` alone. -/
@[simp] theorem dropDone_frame (s : State) :
    (dropDone s).part = s.part ∧ (dropDone s).md = s.md ∧ (dropDone s).port = s.port ∧ (dropDone s).zn = s.zn ∧ (dropDone s).media = s.media ∧ (dropDone s).jr = s.jr ∧ (dropDone s).tw = s.tw ∧ (dropDone s).sup = s.sup ∧ (dropDone s).boot = s.boot ∧ (dropDone s).keys = s.keys ∧ (dropDone s).ev = s.ev ∧ (dropDone s).adm = s.adm ∧ (dropDone s).time = s.time ∧ (dropDone s).th = s.th ∧ (dropDone s).pw = s.pw ∧ (dropDone s).it = s.it ∧ (dropDone s).tel = s.tel ∧ (dropDone s).hist = s.hist ∧ (dropDone s).free = s.free ∧ (dropDone s).pending = s.pending := by
  unfold dropDone
  exact ⟨rfl, rfl, rfl, rfl, rfl, rfl, rfl, rfl, rfl, rfl, rfl, rfl, rfl, rfl, rfl, rfl, rfl, rfl, rfl, rfl⟩

/-- `setRebuild` writes the part `media` alone. -/
@[simp] theorem setRebuild_frame (s : State) (g : Nat) (f : Rebuild → Rebuild) :
    (setRebuild s g f).part = s.part ∧ (setRebuild s g f).md = s.md ∧ (setRebuild s g f).port = s.port ∧ (setRebuild s g f).zn = s.zn ∧ (setRebuild s g f).cal = s.cal ∧ (setRebuild s g f).jr = s.jr ∧ (setRebuild s g f).tw = s.tw ∧ (setRebuild s g f).sup = s.sup ∧ (setRebuild s g f).boot = s.boot ∧ (setRebuild s g f).keys = s.keys ∧ (setRebuild s g f).ev = s.ev ∧ (setRebuild s g f).adm = s.adm ∧ (setRebuild s g f).time = s.time ∧ (setRebuild s g f).th = s.th ∧ (setRebuild s g f).pw = s.pw ∧ (setRebuild s g f).it = s.it ∧ (setRebuild s g f).tel = s.tel ∧ (setRebuild s g f).hist = s.hist ∧ (setRebuild s g f).free = s.free ∧ (setRebuild s g f).pending = s.pending := by
  unfold setRebuild
  exact ⟨rfl, rfl, rfl, rfl, rfl, rfl, rfl, rfl, rfl, rfl, rfl, rfl, rfl, rfl, rfl, rfl, rfl, rfl, rfl, rfl⟩

/-- `dropReshapeWork` writes the part `tw` alone. -/
@[simp] theorem dropReshapeWork_frame (s : State) (nsid : Nat) :
    (dropReshapeWork s nsid).part = s.part ∧ (dropReshapeWork s nsid).md = s.md ∧ (dropReshapeWork s nsid).port = s.port ∧ (dropReshapeWork s nsid).zn = s.zn ∧ (dropReshapeWork s nsid).cal = s.cal ∧ (dropReshapeWork s nsid).media = s.media ∧ (dropReshapeWork s nsid).jr = s.jr ∧ (dropReshapeWork s nsid).sup = s.sup ∧ (dropReshapeWork s nsid).boot = s.boot ∧ (dropReshapeWork s nsid).keys = s.keys ∧ (dropReshapeWork s nsid).ev = s.ev ∧ (dropReshapeWork s nsid).adm = s.adm ∧ (dropReshapeWork s nsid).time = s.time ∧ (dropReshapeWork s nsid).th = s.th ∧ (dropReshapeWork s nsid).pw = s.pw ∧ (dropReshapeWork s nsid).it = s.it ∧ (dropReshapeWork s nsid).tel = s.tel ∧ (dropReshapeWork s nsid).hist = s.hist ∧ (dropReshapeWork s nsid).free = s.free ∧ (dropReshapeWork s nsid).pending = s.pending := by
  unfold dropReshapeWork
  exact ⟨rfl, rfl, rfl, rfl, rfl, rfl, rfl, rfl, rfl, rfl, rfl, rfl, rfl, rfl, rfl, rfl, rfl, rfl, rfl, rfl⟩

/-- `chargeBack` writes the part `cal` alone. -/
@[simp] theorem chargeBack_frame (s : State) (d : Nat) (us : Nat) :
    (chargeBack s d us).part = s.part ∧ (chargeBack s d us).md = s.md ∧ (chargeBack s d us).port = s.port ∧ (chargeBack s d us).zn = s.zn ∧ (chargeBack s d us).media = s.media ∧ (chargeBack s d us).jr = s.jr ∧ (chargeBack s d us).tw = s.tw ∧ (chargeBack s d us).sup = s.sup ∧ (chargeBack s d us).boot = s.boot ∧ (chargeBack s d us).keys = s.keys ∧ (chargeBack s d us).ev = s.ev ∧ (chargeBack s d us).adm = s.adm ∧ (chargeBack s d us).time = s.time ∧ (chargeBack s d us).th = s.th ∧ (chargeBack s d us).pw = s.pw ∧ (chargeBack s d us).it = s.it ∧ (chargeBack s d us).tel = s.tel ∧ (chargeBack s d us).hist = s.hist ∧ (chargeBack s d us).free = s.free ∧ (chargeBack s d us).pending = s.pending := by
  unfold chargeBack
  exact ⟨rfl, rfl, rfl, rfl, rfl, rfl, rfl, rfl, rfl, rfl, rfl, rfl, rfl, rfl, rfl, rfl, rfl, rfl, rfl, rfl⟩

/-- `chargeRebuild` writes the part `cal` alone. -/
@[simp] theorem chargeRebuild_frame (s : State) (g : Nat) (d : Nat) (us : Nat) :
    (chargeRebuild s g d us).part = s.part ∧ (chargeRebuild s g d us).md = s.md ∧ (chargeRebuild s g d us).port = s.port ∧ (chargeRebuild s g d us).zn = s.zn ∧ (chargeRebuild s g d us).media = s.media ∧ (chargeRebuild s g d us).jr = s.jr ∧ (chargeRebuild s g d us).tw = s.tw ∧ (chargeRebuild s g d us).sup = s.sup ∧ (chargeRebuild s g d us).boot = s.boot ∧ (chargeRebuild s g d us).keys = s.keys ∧ (chargeRebuild s g d us).ev = s.ev ∧ (chargeRebuild s g d us).adm = s.adm ∧ (chargeRebuild s g d us).time = s.time ∧ (chargeRebuild s g d us).th = s.th ∧ (chargeRebuild s g d us).pw = s.pw ∧ (chargeRebuild s g d us).it = s.it ∧ (chargeRebuild s g d us).tel = s.tel ∧ (chargeRebuild s g d us).hist = s.hist ∧ (chargeRebuild s g d us).free = s.free ∧ (chargeRebuild s g d us).pending = s.pending := by
  unfold chargeRebuild
  exact ⟨rfl, rfl, rfl, rfl, rfl, rfl, rfl, rfl, rfl, rfl, rfl, rfl, rfl, rfl, rfl, rfl, rfl, rfl, rfl, rfl⟩

/-- `setCopy` writes the part `media` alone. -/
@[simp] theorem setCopy_frame (s : State) (id : Nat) (f : Copy → Copy) :
    (setCopy s id f).part = s.part ∧ (setCopy s id f).md = s.md ∧ (setCopy s id f).port = s.port ∧ (setCopy s id f).zn = s.zn ∧ (setCopy s id f).cal = s.cal ∧ (setCopy s id f).jr = s.jr ∧ (setCopy s id f).tw = s.tw ∧ (setCopy s id f).sup = s.sup ∧ (setCopy s id f).boot = s.boot ∧ (setCopy s id f).keys = s.keys ∧ (setCopy s id f).ev = s.ev ∧ (setCopy s id f).adm = s.adm ∧ (setCopy s id f).time = s.time ∧ (setCopy s id f).th = s.th ∧ (setCopy s id f).pw = s.pw ∧ (setCopy s id f).it = s.it ∧ (setCopy s id f).tel = s.tel ∧ (setCopy s id f).hist = s.hist ∧ (setCopy s id f).free = s.free ∧ (setCopy s id f).pending = s.pending := by
  unfold setCopy
  exact ⟨rfl, rfl, rfl, rfl, rfl, rfl, rfl, rfl, rfl, rfl, rfl, rfl, rfl, rfl, rfl, rfl, rfl, rfl, rfl, rfl⟩

/-- `timeTo` writes the parts `time` and `it` alone. -/
@[simp] theorem timeTo_frame (s : State) (t : Nat) :
    (timeTo s t).part = s.part ∧ (timeTo s t).md = s.md ∧ (timeTo s t).port = s.port ∧ (timeTo s t).zn = s.zn ∧ (timeTo s t).cal = s.cal ∧ (timeTo s t).media = s.media ∧ (timeTo s t).jr = s.jr ∧ (timeTo s t).tw = s.tw ∧ (timeTo s t).sup = s.sup ∧ (timeTo s t).boot = s.boot ∧ (timeTo s t).keys = s.keys ∧ (timeTo s t).ev = s.ev ∧ (timeTo s t).adm = s.adm ∧ (timeTo s t).th = s.th ∧ (timeTo s t).pw = s.pw ∧ (timeTo s t).tel = s.tel ∧ (timeTo s t).hist = s.hist ∧ (timeTo s t).free = s.free ∧ (timeTo s t).pending = s.pending := by
  unfold timeTo
  simp

/-- `noteOps` writes the part `cal` alone. -/
@[simp] theorem noteOps_frame (s : State) (t : Nat) :
    (noteOps s t).part = s.part ∧ (noteOps s t).md = s.md ∧ (noteOps s t).port = s.port ∧ (noteOps s t).zn = s.zn ∧ (noteOps s t).media = s.media ∧ (noteOps s t).jr = s.jr ∧ (noteOps s t).tw = s.tw ∧ (noteOps s t).sup = s.sup ∧ (noteOps s t).boot = s.boot ∧ (noteOps s t).keys = s.keys ∧ (noteOps s t).ev = s.ev ∧ (noteOps s t).adm = s.adm ∧ (noteOps s t).time = s.time ∧ (noteOps s t).th = s.th ∧ (noteOps s t).pw = s.pw ∧ (noteOps s t).it = s.it ∧ (noteOps s t).tel = s.tel ∧ (noteOps s t).hist = s.hist ∧ (noteOps s t).free = s.free ∧ (noteOps s t).pending = s.pending := by
  unfold noteOps
  exact ⟨rfl, rfl, rfl, rfl, rfl, rfl, rfl, rfl, rfl, rfl, rfl, rfl, rfl, rfl, rfl, rfl, rfl, rfl, rfl, rfl⟩

/-- `clearUsed` writes the part `cal` alone. -/
@[simp] theorem clearUsed_frame (s : State) :
    (clearUsed s).part = s.part ∧ (clearUsed s).md = s.md ∧ (clearUsed s).port = s.port ∧ (clearUsed s).zn = s.zn ∧ (clearUsed s).media = s.media ∧ (clearUsed s).jr = s.jr ∧ (clearUsed s).tw = s.tw ∧ (clearUsed s).sup = s.sup ∧ (clearUsed s).boot = s.boot ∧ (clearUsed s).keys = s.keys ∧ (clearUsed s).ev = s.ev ∧ (clearUsed s).adm = s.adm ∧ (clearUsed s).time = s.time ∧ (clearUsed s).th = s.th ∧ (clearUsed s).pw = s.pw ∧ (clearUsed s).it = s.it ∧ (clearUsed s).tel = s.tel ∧ (clearUsed s).hist = s.hist ∧ (clearUsed s).free = s.free ∧ (clearUsed s).pending = s.pending := by
  unfold clearUsed
  exact ⟨rfl, rfl, rfl, rfl, rfl, rfl, rfl, rfl, rfl, rfl, rfl, rfl, rfl, rfl, rfl, rfl, rfl, rfl, rfl, rfl⟩

/-- `clearPages` writes the part `media` alone. -/
@[simp] theorem clearPages_frame (s : State) (k : Nat) :
    (clearPages s k).part = s.part ∧ (clearPages s k).md = s.md ∧ (clearPages s k).port = s.port ∧ (clearPages s k).zn = s.zn ∧ (clearPages s k).cal = s.cal ∧ (clearPages s k).jr = s.jr ∧ (clearPages s k).tw = s.tw ∧ (clearPages s k).sup = s.sup ∧ (clearPages s k).boot = s.boot ∧ (clearPages s k).keys = s.keys ∧ (clearPages s k).ev = s.ev ∧ (clearPages s k).adm = s.adm ∧ (clearPages s k).time = s.time ∧ (clearPages s k).th = s.th ∧ (clearPages s k).pw = s.pw ∧ (clearPages s k).it = s.it ∧ (clearPages s k).tel = s.tel ∧ (clearPages s k).hist = s.hist ∧ (clearPages s k).free = s.free ∧ (clearPages s k).pending = s.pending := by
  unfold clearPages
  exact ⟨rfl, rfl, rfl, rfl, rfl, rfl, rfl, rfl, rfl, rfl, rfl, rfl, rfl, rfl, rfl, rfl, rfl, rfl, rfl, rfl⟩

/-- `erasedFor` writes the parts `keys` and `adm` alone. -/
@[simp] theorem erasedFor_frame (s : State) (k : Nat) :
    (erasedFor s k).part = s.part ∧ (erasedFor s k).md = s.md ∧ (erasedFor s k).port = s.port ∧ (erasedFor s k).zn = s.zn ∧ (erasedFor s k).cal = s.cal ∧ (erasedFor s k).media = s.media ∧ (erasedFor s k).jr = s.jr ∧ (erasedFor s k).tw = s.tw ∧ (erasedFor s k).sup = s.sup ∧ (erasedFor s k).boot = s.boot ∧ (erasedFor s k).ev = s.ev ∧ (erasedFor s k).time = s.time ∧ (erasedFor s k).th = s.th ∧ (erasedFor s k).pw = s.pw ∧ (erasedFor s k).it = s.it ∧ (erasedFor s k).tel = s.tel ∧ (erasedFor s k).hist = s.hist ∧ (erasedFor s k).free = s.free ∧ (erasedFor s k).pending = s.pending := by
  unfold erasedFor
  exact ⟨rfl, rfl, rfl, rfl, rfl, rfl, rfl, rfl, rfl, rfl, rfl, rfl, rfl, rfl, rfl, rfl, rfl, rfl, rfl⟩

/-- `readReferences` writes the part `cal` alone. -/
@[simp] theorem readReferences_frame (s : State) :
    (readReferences s).part = s.part ∧ (readReferences s).md = s.md ∧ (readReferences s).port = s.port ∧ (readReferences s).zn = s.zn ∧ (readReferences s).media = s.media ∧ (readReferences s).jr = s.jr ∧ (readReferences s).tw = s.tw ∧ (readReferences s).sup = s.sup ∧ (readReferences s).boot = s.boot ∧ (readReferences s).keys = s.keys ∧ (readReferences s).ev = s.ev ∧ (readReferences s).adm = s.adm ∧ (readReferences s).time = s.time ∧ (readReferences s).th = s.th ∧ (readReferences s).pw = s.pw ∧ (readReferences s).it = s.it ∧ (readReferences s).tel = s.tel ∧ (readReferences s).hist = s.hist ∧ (readReferences s).free = s.free ∧ (readReferences s).pending = s.pending := by
  unfold readReferences
  exact ⟨rfl, rfl, rfl, rfl, rfl, rfl, rfl, rfl, rfl, rfl, rfl, rfl, rfl, rfl, rfl, rfl, rfl, rfl, rfl, rfl⟩

/-- `setCore` writes the part `it` alone. -/
@[simp] theorem setCore_frame (s : State) (c : Nat) (f : Proc → Proc) :
    (setCore s c f).part = s.part ∧ (setCore s c f).md = s.md ∧ (setCore s c f).port = s.port ∧ (setCore s c f).zn = s.zn ∧ (setCore s c f).cal = s.cal ∧ (setCore s c f).media = s.media ∧ (setCore s c f).jr = s.jr ∧ (setCore s c f).tw = s.tw ∧ (setCore s c f).sup = s.sup ∧ (setCore s c f).boot = s.boot ∧ (setCore s c f).keys = s.keys ∧ (setCore s c f).ev = s.ev ∧ (setCore s c f).adm = s.adm ∧ (setCore s c f).time = s.time ∧ (setCore s c f).th = s.th ∧ (setCore s c f).pw = s.pw ∧ (setCore s c f).tel = s.tel ∧ (setCore s c f).hist = s.hist ∧ (setCore s c f).free = s.free ∧ (setCore s c f).pending = s.pending := by
  unfold setCore
  exact ⟨rfl, rfl, rfl, rfl, rfl, rfl, rfl, rfl, rfl, rfl, rfl, rfl, rfl, rfl, rfl, rfl, rfl, rfl, rfl, rfl⟩

/-- `clearVfs` writes the part `port` alone. -/
@[simp] theorem clearVfs_frame (s : State) :
    (clearVfs s).part = s.part ∧ (clearVfs s).md = s.md ∧ (clearVfs s).zn = s.zn ∧ (clearVfs s).cal = s.cal ∧ (clearVfs s).media = s.media ∧ (clearVfs s).jr = s.jr ∧ (clearVfs s).tw = s.tw ∧ (clearVfs s).sup = s.sup ∧ (clearVfs s).boot = s.boot ∧ (clearVfs s).keys = s.keys ∧ (clearVfs s).ev = s.ev ∧ (clearVfs s).adm = s.adm ∧ (clearVfs s).time = s.time ∧ (clearVfs s).th = s.th ∧ (clearVfs s).pw = s.pw ∧ (clearVfs s).it = s.it ∧ (clearVfs s).tel = s.tel ∧ (clearVfs s).hist = s.hist ∧ (clearVfs s).free = s.free ∧ (clearVfs s).pending = s.pending := by
  unfold clearVfs
  exact ⟨rfl, rfl, rfl, rfl, rfl, rfl, rfl, rfl, rfl, rfl, rfl, rfl, rfl, rfl, rfl, rfl, rfl, rfl, rfl, rfl⟩

/-- `putGenerated` writes the part `keys` alone. -/
@[simp] theorem putGenerated_frame (s : State) (slot : Nat) (key : Nat) :
    (putGenerated s slot key).part = s.part ∧ (putGenerated s slot key).md = s.md ∧ (putGenerated s slot key).port = s.port ∧ (putGenerated s slot key).zn = s.zn ∧ (putGenerated s slot key).cal = s.cal ∧ (putGenerated s slot key).media = s.media ∧ (putGenerated s slot key).jr = s.jr ∧ (putGenerated s slot key).tw = s.tw ∧ (putGenerated s slot key).sup = s.sup ∧ (putGenerated s slot key).boot = s.boot ∧ (putGenerated s slot key).ev = s.ev ∧ (putGenerated s slot key).adm = s.adm ∧ (putGenerated s slot key).time = s.time ∧ (putGenerated s slot key).th = s.th ∧ (putGenerated s slot key).pw = s.pw ∧ (putGenerated s slot key).it = s.it ∧ (putGenerated s slot key).tel = s.tel ∧ (putGenerated s slot key).hist = s.hist ∧ (putGenerated s slot key).free = s.free ∧ (putGenerated s slot key).pending = s.pending := by
  unfold putGenerated
  exact ⟨rfl, rfl, rfl, rfl, rfl, rfl, rfl, rfl, rfl, rfl, rfl, rfl, rfl, rfl, rfl, rfl, rfl, rfl, rfl, rfl⟩

/-- `clearSlot` writes the part `keys` alone. -/
@[simp] theorem clearSlot_frame (s : State) (slot : Nat) :
    (clearSlot s slot).part = s.part ∧ (clearSlot s slot).md = s.md ∧ (clearSlot s slot).port = s.port ∧ (clearSlot s slot).zn = s.zn ∧ (clearSlot s slot).cal = s.cal ∧ (clearSlot s slot).media = s.media ∧ (clearSlot s slot).jr = s.jr ∧ (clearSlot s slot).tw = s.tw ∧ (clearSlot s slot).sup = s.sup ∧ (clearSlot s slot).boot = s.boot ∧ (clearSlot s slot).ev = s.ev ∧ (clearSlot s slot).adm = s.adm ∧ (clearSlot s slot).time = s.time ∧ (clearSlot s slot).th = s.th ∧ (clearSlot s slot).pw = s.pw ∧ (clearSlot s slot).it = s.it ∧ (clearSlot s slot).tel = s.tel ∧ (clearSlot s slot).hist = s.hist ∧ (clearSlot s slot).free = s.free ∧ (clearSlot s slot).pending = s.pending := by
  unfold clearSlot
  exact ⟨rfl, rfl, rfl, rfl, rfl, rfl, rfl, rfl, rfl, rfl, rfl, rfl, rfl, rfl, rfl, rfl, rfl, rfl, rfl, rfl⟩

/-- `startTest` writes the part `sup` alone. -/
@[simp] theorem startTest_frame (s : State) :
    (startTest s).part = s.part ∧ (startTest s).md = s.md ∧ (startTest s).port = s.port ∧ (startTest s).zn = s.zn ∧ (startTest s).cal = s.cal ∧ (startTest s).media = s.media ∧ (startTest s).jr = s.jr ∧ (startTest s).tw = s.tw ∧ (startTest s).boot = s.boot ∧ (startTest s).keys = s.keys ∧ (startTest s).ev = s.ev ∧ (startTest s).adm = s.adm ∧ (startTest s).time = s.time ∧ (startTest s).th = s.th ∧ (startTest s).pw = s.pw ∧ (startTest s).it = s.it ∧ (startTest s).tel = s.tel ∧ (startTest s).hist = s.hist ∧ (startTest s).free = s.free ∧ (startTest s).pending = s.pending := by
  unfold startTest
  exact ⟨rfl, rfl, rfl, rfl, rfl, rfl, rfl, rfl, rfl, rfl, rfl, rfl, rfl, rfl, rfl, rfl, rfl, rfl, rfl, rfl⟩

/-- `nextEpoch` writes the part `jr` alone. -/
@[simp] theorem nextEpoch_frame (s : State) :
    (nextEpoch s).part = s.part ∧ (nextEpoch s).md = s.md ∧ (nextEpoch s).port = s.port ∧ (nextEpoch s).zn = s.zn ∧ (nextEpoch s).cal = s.cal ∧ (nextEpoch s).media = s.media ∧ (nextEpoch s).tw = s.tw ∧ (nextEpoch s).sup = s.sup ∧ (nextEpoch s).boot = s.boot ∧ (nextEpoch s).keys = s.keys ∧ (nextEpoch s).ev = s.ev ∧ (nextEpoch s).adm = s.adm ∧ (nextEpoch s).time = s.time ∧ (nextEpoch s).th = s.th ∧ (nextEpoch s).pw = s.pw ∧ (nextEpoch s).it = s.it ∧ (nextEpoch s).tel = s.tel ∧ (nextEpoch s).hist = s.hist ∧ (nextEpoch s).free = s.free ∧ (nextEpoch s).pending = s.pending := by
  unfold nextEpoch
  exact ⟨rfl, rfl, rfl, rfl, rfl, rfl, rfl, rfl, rfl, rfl, rfl, rfl, rfl, rfl, rfl, rfl, rfl, rfl, rfl, rfl⟩

/-- `closeLandRow` writes the part `media` alone. -/
@[simp] theorem closeLandRow_frame (s : State) :
    (closeLandRow s).part = s.part ∧ (closeLandRow s).md = s.md ∧ (closeLandRow s).port = s.port ∧ (closeLandRow s).zn = s.zn ∧ (closeLandRow s).cal = s.cal ∧ (closeLandRow s).jr = s.jr ∧ (closeLandRow s).tw = s.tw ∧ (closeLandRow s).sup = s.sup ∧ (closeLandRow s).boot = s.boot ∧ (closeLandRow s).keys = s.keys ∧ (closeLandRow s).ev = s.ev ∧ (closeLandRow s).adm = s.adm ∧ (closeLandRow s).time = s.time ∧ (closeLandRow s).th = s.th ∧ (closeLandRow s).pw = s.pw ∧ (closeLandRow s).it = s.it ∧ (closeLandRow s).tel = s.tel ∧ (closeLandRow s).hist = s.hist ∧ (closeLandRow s).free = s.free ∧ (closeLandRow s).pending = s.pending := by
  unfold closeLandRow
  exact ⟨rfl, rfl, rfl, rfl, rfl, rfl, rfl, rfl, rfl, rfl, rfl, rfl, rfl, rfl, rfl, rfl, rfl, rfl, rfl, rfl⟩

/-- `setAlm` writes the part `boot` alone. -/
@[simp] theorem setAlm_frame (s : State) (f : Alm → Alm) :
    (setAlm s f).part = s.part ∧ (setAlm s f).md = s.md ∧ (setAlm s f).port = s.port ∧ (setAlm s f).zn = s.zn ∧ (setAlm s f).cal = s.cal ∧ (setAlm s f).media = s.media ∧ (setAlm s f).jr = s.jr ∧ (setAlm s f).tw = s.tw ∧ (setAlm s f).sup = s.sup ∧ (setAlm s f).keys = s.keys ∧ (setAlm s f).ev = s.ev ∧ (setAlm s f).adm = s.adm ∧ (setAlm s f).time = s.time ∧ (setAlm s f).th = s.th ∧ (setAlm s f).pw = s.pw ∧ (setAlm s f).it = s.it ∧ (setAlm s f).tel = s.tel ∧ (setAlm s f).hist = s.hist ∧ (setAlm s f).free = s.free ∧ (setAlm s f).pending = s.pending := by
  unfold setAlm
  exact ⟨rfl, rfl, rfl, rfl, rfl, rfl, rfl, rfl, rfl, rfl, rfl, rfl, rfl, rfl, rfl, rfl, rfl, rfl, rfl, rfl⟩

/-- `railsOff` writes the parts `port` and `tw` and `sup` alone. -/
@[simp] theorem railsOff_frame (s : State) :
    (railsOff s).part = s.part ∧ (railsOff s).md = s.md ∧ (railsOff s).zn = s.zn ∧ (railsOff s).cal = s.cal ∧ (railsOff s).media = s.media ∧ (railsOff s).jr = s.jr ∧ (railsOff s).boot = s.boot ∧ (railsOff s).keys = s.keys ∧ (railsOff s).ev = s.ev ∧ (railsOff s).adm = s.adm ∧ (railsOff s).time = s.time ∧ (railsOff s).th = s.th ∧ (railsOff s).pw = s.pw ∧ (railsOff s).it = s.it ∧ (railsOff s).tel = s.tel ∧ (railsOff s).hist = s.hist ∧ (railsOff s).free = s.free ∧ (railsOff s).pending = s.pending := by
  unfold railsOff
  exact ⟨rfl, rfl, rfl, rfl, rfl, rfl, rfl, rfl, rfl, rfl, rfl, rfl, rfl, rfl, rfl, rfl, rfl, rfl⟩

/-- `saveClock` writes the part `time` alone. -/
@[simp] theorem saveClock_frame (s : State) (sealed : Bool) :
    (saveClock s sealed).part = s.part ∧ (saveClock s sealed).md = s.md ∧ (saveClock s sealed).port = s.port ∧ (saveClock s sealed).zn = s.zn ∧ (saveClock s sealed).cal = s.cal ∧ (saveClock s sealed).media = s.media ∧ (saveClock s sealed).jr = s.jr ∧ (saveClock s sealed).tw = s.tw ∧ (saveClock s sealed).sup = s.sup ∧ (saveClock s sealed).boot = s.boot ∧ (saveClock s sealed).keys = s.keys ∧ (saveClock s sealed).ev = s.ev ∧ (saveClock s sealed).adm = s.adm ∧ (saveClock s sealed).th = s.th ∧ (saveClock s sealed).pw = s.pw ∧ (saveClock s sealed).it = s.it ∧ (saveClock s sealed).tel = s.tel ∧ (saveClock s sealed).hist = s.hist ∧ (saveClock s sealed).free = s.free ∧ (saveClock s sealed).pending = s.pending := by
  unfold saveClock
  exact ⟨rfl, rfl, rfl, rfl, rfl, rfl, rfl, rfl, rfl, rfl, rfl, rfl, rfl, rfl, rfl, rfl, rfl, rfl, rfl, rfl⟩

/-- `setAcc` writes the part `tw` alone. -/
@[simp] theorem setAcc_frame (s : State) (i : Nat) :
    (setAcc s i).part = s.part ∧ (setAcc s i).md = s.md ∧ (setAcc s i).port = s.port ∧ (setAcc s i).zn = s.zn ∧ (setAcc s i).cal = s.cal ∧ (setAcc s i).media = s.media ∧ (setAcc s i).jr = s.jr ∧ (setAcc s i).sup = s.sup ∧ (setAcc s i).boot = s.boot ∧ (setAcc s i).keys = s.keys ∧ (setAcc s i).ev = s.ev ∧ (setAcc s i).adm = s.adm ∧ (setAcc s i).time = s.time ∧ (setAcc s i).th = s.th ∧ (setAcc s i).pw = s.pw ∧ (setAcc s i).it = s.it ∧ (setAcc s i).tel = s.tel ∧ (setAcc s i).hist = s.hist ∧ (setAcc s i).free = s.free ∧ (setAcc s i).pending = s.pending := by
  unfold setAcc
  exact ⟨rfl, rfl, rfl, rfl, rfl, rfl, rfl, rfl, rfl, rfl, rfl, rfl, rfl, rfl, rfl, rfl, rfl, rfl, rfl, rfl⟩

/-- `takeEpoch` writes the part `jr` alone. -/
@[simp] theorem takeEpoch_frame (s : State) (epoch : Nat) :
    (takeEpoch s epoch).part = s.part ∧ (takeEpoch s epoch).md = s.md ∧ (takeEpoch s epoch).port = s.port ∧ (takeEpoch s epoch).zn = s.zn ∧ (takeEpoch s epoch).cal = s.cal ∧ (takeEpoch s epoch).media = s.media ∧ (takeEpoch s epoch).tw = s.tw ∧ (takeEpoch s epoch).sup = s.sup ∧ (takeEpoch s epoch).boot = s.boot ∧ (takeEpoch s epoch).keys = s.keys ∧ (takeEpoch s epoch).ev = s.ev ∧ (takeEpoch s epoch).adm = s.adm ∧ (takeEpoch s epoch).time = s.time ∧ (takeEpoch s epoch).th = s.th ∧ (takeEpoch s epoch).pw = s.pw ∧ (takeEpoch s epoch).it = s.it ∧ (takeEpoch s epoch).tel = s.tel ∧ (takeEpoch s epoch).hist = s.hist ∧ (takeEpoch s epoch).free = s.free ∧ (takeEpoch s epoch).pending = s.pending := by
  unfold takeEpoch
  exact ⟨rfl, rfl, rfl, rfl, rfl, rfl, rfl, rfl, rfl, rfl, rfl, rfl, rfl, rfl, rfl, rfl, rfl, rfl, rfl, rfl⟩

/-- `setFeeds` writes the part `sup` alone. -/
@[simp] theorem setFeeds_frame (s : State) (a : Nat) (b : Nat) :
    (setFeeds s a b).part = s.part ∧ (setFeeds s a b).md = s.md ∧ (setFeeds s a b).port = s.port ∧ (setFeeds s a b).zn = s.zn ∧ (setFeeds s a b).cal = s.cal ∧ (setFeeds s a b).media = s.media ∧ (setFeeds s a b).jr = s.jr ∧ (setFeeds s a b).tw = s.tw ∧ (setFeeds s a b).boot = s.boot ∧ (setFeeds s a b).keys = s.keys ∧ (setFeeds s a b).ev = s.ev ∧ (setFeeds s a b).adm = s.adm ∧ (setFeeds s a b).time = s.time ∧ (setFeeds s a b).th = s.th ∧ (setFeeds s a b).pw = s.pw ∧ (setFeeds s a b).it = s.it ∧ (setFeeds s a b).tel = s.tel ∧ (setFeeds s a b).hist = s.hist ∧ (setFeeds s a b).free = s.free ∧ (setFeeds s a b).pending = s.pending := by
  unfold setFeeds
  exact ⟨rfl, rfl, rfl, rfl, rfl, rfl, rfl, rfl, rfl, rfl, rfl, rfl, rfl, rfl, rfl, rfl, rfl, rfl, rfl, rfl⟩

/-- `sealEvents` writes the part `ev` alone. -/
@[simp] theorem sealEvents_frame (s : State) :
    (sealEvents s).part = s.part ∧ (sealEvents s).md = s.md ∧ (sealEvents s).port = s.port ∧ (sealEvents s).zn = s.zn ∧ (sealEvents s).cal = s.cal ∧ (sealEvents s).media = s.media ∧ (sealEvents s).jr = s.jr ∧ (sealEvents s).tw = s.tw ∧ (sealEvents s).sup = s.sup ∧ (sealEvents s).boot = s.boot ∧ (sealEvents s).keys = s.keys ∧ (sealEvents s).adm = s.adm ∧ (sealEvents s).time = s.time ∧ (sealEvents s).th = s.th ∧ (sealEvents s).pw = s.pw ∧ (sealEvents s).it = s.it ∧ (sealEvents s).tel = s.tel ∧ (sealEvents s).hist = s.hist ∧ (sealEvents s).free = s.free ∧ (sealEvents s).pending = s.pending := by
  unfold sealEvents
  exact ⟨rfl, rfl, rfl, rfl, rfl, rfl, rfl, rfl, rfl, rfl, rfl, rfl, rfl, rfl, rfl, rfl, rfl, rfl, rfl, rfl⟩

/-- `setSlot` writes the part `boot` alone. -/
@[simp] theorem setSlot_frame (s : State) (k : Nat) (i : Option Image) :
    (setSlot s k i).part = s.part ∧ (setSlot s k i).md = s.md ∧ (setSlot s k i).port = s.port ∧ (setSlot s k i).zn = s.zn ∧ (setSlot s k i).cal = s.cal ∧ (setSlot s k i).media = s.media ∧ (setSlot s k i).jr = s.jr ∧ (setSlot s k i).tw = s.tw ∧ (setSlot s k i).sup = s.sup ∧ (setSlot s k i).keys = s.keys ∧ (setSlot s k i).ev = s.ev ∧ (setSlot s k i).adm = s.adm ∧ (setSlot s k i).time = s.time ∧ (setSlot s k i).th = s.th ∧ (setSlot s k i).pw = s.pw ∧ (setSlot s k i).it = s.it ∧ (setSlot s k i).tel = s.tel ∧ (setSlot s k i).hist = s.hist ∧ (setSlot s k i).free = s.free ∧ (setSlot s k i).pending = s.pending := by
  unfold setSlot
  exact ⟨rfl, rfl, rfl, rfl, rfl, rfl, rfl, rfl, rfl, rfl, rfl, rfl, rfl, rfl, rfl, rfl, rfl, rfl, rfl, rfl⟩

/-- `setSensor` writes the part `th` alone. -/
@[simp] theorem setSensor_frame (s : State) (cls : Nat) (f : Sensor → Sensor) :
    (setSensor s cls f).part = s.part ∧ (setSensor s cls f).md = s.md ∧ (setSensor s cls f).port = s.port ∧ (setSensor s cls f).zn = s.zn ∧ (setSensor s cls f).cal = s.cal ∧ (setSensor s cls f).media = s.media ∧ (setSensor s cls f).jr = s.jr ∧ (setSensor s cls f).tw = s.tw ∧ (setSensor s cls f).sup = s.sup ∧ (setSensor s cls f).boot = s.boot ∧ (setSensor s cls f).keys = s.keys ∧ (setSensor s cls f).ev = s.ev ∧ (setSensor s cls f).adm = s.adm ∧ (setSensor s cls f).time = s.time ∧ (setSensor s cls f).pw = s.pw ∧ (setSensor s cls f).it = s.it ∧ (setSensor s cls f).tel = s.tel ∧ (setSensor s cls f).hist = s.hist ∧ (setSensor s cls f).free = s.free ∧ (setSensor s cls f).pending = s.pending := by
  unfold setSensor
  exact ⟨rfl, rfl, rfl, rfl, rfl, rfl, rfl, rfl, rfl, rfl, rfl, rfl, rfl, rfl, rfl, rfl, rfl, rfl, rfl, rfl⟩

/-- `setBank` writes the part `it` alone. -/
@[simp] theorem setBank_frame (s : State) (bank : Nat) (f : Bank → Bank) :
    (setBank s bank f).part = s.part ∧ (setBank s bank f).md = s.md ∧ (setBank s bank f).port = s.port ∧ (setBank s bank f).zn = s.zn ∧ (setBank s bank f).cal = s.cal ∧ (setBank s bank f).media = s.media ∧ (setBank s bank f).jr = s.jr ∧ (setBank s bank f).tw = s.tw ∧ (setBank s bank f).sup = s.sup ∧ (setBank s bank f).boot = s.boot ∧ (setBank s bank f).keys = s.keys ∧ (setBank s bank f).ev = s.ev ∧ (setBank s bank f).adm = s.adm ∧ (setBank s bank f).time = s.time ∧ (setBank s bank f).th = s.th ∧ (setBank s bank f).pw = s.pw ∧ (setBank s bank f).tel = s.tel ∧ (setBank s bank f).hist = s.hist ∧ (setBank s bank f).free = s.free ∧ (setBank s bank f).pending = s.pending := by
  unfold setBank
  exact ⟨rfl, rfl, rfl, rfl, rfl, rfl, rfl, rfl, rfl, rfl, rfl, rfl, rfl, rfl, rfl, rfl, rfl, rfl, rfl, rfl⟩

/-- `setPadWord` writes the part `it` alone. -/
@[simp] theorem setPadWord_frame (s : State) (w : Nat) (v : Nat) :
    (setPadWord s w v).part = s.part ∧ (setPadWord s w v).md = s.md ∧ (setPadWord s w v).port = s.port ∧ (setPadWord s w v).zn = s.zn ∧ (setPadWord s w v).cal = s.cal ∧ (setPadWord s w v).media = s.media ∧ (setPadWord s w v).jr = s.jr ∧ (setPadWord s w v).tw = s.tw ∧ (setPadWord s w v).sup = s.sup ∧ (setPadWord s w v).boot = s.boot ∧ (setPadWord s w v).keys = s.keys ∧ (setPadWord s w v).ev = s.ev ∧ (setPadWord s w v).adm = s.adm ∧ (setPadWord s w v).time = s.time ∧ (setPadWord s w v).th = s.th ∧ (setPadWord s w v).pw = s.pw ∧ (setPadWord s w v).tel = s.tel ∧ (setPadWord s w v).hist = s.hist ∧ (setPadWord s w v).free = s.free ∧ (setPadWord s w v).pending = s.pending := by
  unfold setPadWord
  exact ⟨rfl, rfl, rfl, rfl, rfl, rfl, rfl, rfl, rfl, rfl, rfl, rfl, rfl, rfl, rfl, rfl, rfl, rfl, rfl, rfl⟩

/-- `nextFree` writes the part `free` alone. -/
@[simp] theorem nextFree_frame (s : State) :
    (nextFree s).part = s.part ∧ (nextFree s).md = s.md ∧ (nextFree s).port = s.port ∧ (nextFree s).zn = s.zn ∧ (nextFree s).cal = s.cal ∧ (nextFree s).media = s.media ∧ (nextFree s).jr = s.jr ∧ (nextFree s).tw = s.tw ∧ (nextFree s).sup = s.sup ∧ (nextFree s).boot = s.boot ∧ (nextFree s).keys = s.keys ∧ (nextFree s).ev = s.ev ∧ (nextFree s).adm = s.adm ∧ (nextFree s).time = s.time ∧ (nextFree s).th = s.th ∧ (nextFree s).pw = s.pw ∧ (nextFree s).it = s.it ∧ (nextFree s).tel = s.tel ∧ (nextFree s).hist = s.hist ∧ (nextFree s).pending = s.pending := by
  unfold nextFree
  exact ⟨rfl, rfl, rfl, rfl, rfl, rfl, rfl, rfl, rfl, rfl, rfl, rfl, rfl, rfl, rfl, rfl, rfl, rfl, rfl, rfl⟩

/-- `miReply` writes the part `adm` alone. -/
@[simp] theorem miReply_frame (s : State) (port : Nat) (status : Nat) (data : List Nat) :
    (miReply s port status data).part = s.part ∧ (miReply s port status data).md = s.md ∧ (miReply s port status data).port = s.port ∧ (miReply s port status data).zn = s.zn ∧ (miReply s port status data).cal = s.cal ∧ (miReply s port status data).media = s.media ∧ (miReply s port status data).jr = s.jr ∧ (miReply s port status data).tw = s.tw ∧ (miReply s port status data).sup = s.sup ∧ (miReply s port status data).boot = s.boot ∧ (miReply s port status data).keys = s.keys ∧ (miReply s port status data).ev = s.ev ∧ (miReply s port status data).time = s.time ∧ (miReply s port status data).th = s.th ∧ (miReply s port status data).pw = s.pw ∧ (miReply s port status data).it = s.it ∧ (miReply s port status data).tel = s.tel ∧ (miReply s port status data).hist = s.hist ∧ (miReply s port status data).free = s.free ∧ (miReply s port status data).pending = s.pending := by
  unfold miReply
  exact ⟨rfl, rfl, rfl, rfl, rfl, rfl, rfl, rfl, rfl, rfl, rfl, rfl, rfl, rfl, rfl, rfl, rfl, rfl, rfl, rfl⟩

/-- `clearCcs` writes the part `adm` alone. -/
@[simp] theorem clearCcs_frame (s : State) (mask : BitVec 16) :
    (clearCcs s mask).part = s.part ∧ (clearCcs s mask).md = s.md ∧ (clearCcs s mask).port = s.port ∧ (clearCcs s mask).zn = s.zn ∧ (clearCcs s mask).cal = s.cal ∧ (clearCcs s mask).media = s.media ∧ (clearCcs s mask).jr = s.jr ∧ (clearCcs s mask).tw = s.tw ∧ (clearCcs s mask).sup = s.sup ∧ (clearCcs s mask).boot = s.boot ∧ (clearCcs s mask).keys = s.keys ∧ (clearCcs s mask).ev = s.ev ∧ (clearCcs s mask).time = s.time ∧ (clearCcs s mask).th = s.th ∧ (clearCcs s mask).pw = s.pw ∧ (clearCcs s mask).it = s.it ∧ (clearCcs s mask).tel = s.tel ∧ (clearCcs s mask).hist = s.hist ∧ (clearCcs s mask).free = s.free ∧ (clearCcs s mask).pending = s.pending := by
  unfold clearCcs
  exact ⟨rfl, rfl, rfl, rfl, rfl, rfl, rfl, rfl, rfl, rfl, rfl, rfl, rfl, rfl, rfl, rfl, rfl, rfl, rfl, rfl⟩

/-- `setVer` writes the part `boot` alone. -/
@[simp] theorem setVer_frame (s : State) (t : Nat) (v : Nat) (caps : Bool) (algs : Bool) :
    (setVer s t v caps algs).part = s.part ∧ (setVer s t v caps algs).md = s.md ∧ (setVer s t v caps algs).port = s.port ∧ (setVer s t v caps algs).zn = s.zn ∧ (setVer s t v caps algs).cal = s.cal ∧ (setVer s t v caps algs).media = s.media ∧ (setVer s t v caps algs).jr = s.jr ∧ (setVer s t v caps algs).tw = s.tw ∧ (setVer s t v caps algs).sup = s.sup ∧ (setVer s t v caps algs).keys = s.keys ∧ (setVer s t v caps algs).ev = s.ev ∧ (setVer s t v caps algs).adm = s.adm ∧ (setVer s t v caps algs).time = s.time ∧ (setVer s t v caps algs).th = s.th ∧ (setVer s t v caps algs).pw = s.pw ∧ (setVer s t v caps algs).it = s.it ∧ (setVer s t v caps algs).tel = s.tel ∧ (setVer s t v caps algs).hist = s.hist ∧ (setVer s t v caps algs).free = s.free ∧ (setVer s t v caps algs).pending = s.pending := by
  unfold setVer
  exact ⟨rfl, rfl, rfl, rfl, rfl, rfl, rfl, rfl, rfl, rfl, rfl, rfl, rfl, rfl, rfl, rfl, rfl, rfl, rfl, rfl⟩

end Sys2Proof.Machine
end

