-- ==== Sys2Proof/Laws/Tables.lean ====
section
/-! SUPPORT. The laws of the sparse tables: reading after writing, other keys left alone, and that every operation keeps the canonical form. -/

namespace Sys2Proof.KV

variable {α : Type}

@[simp] theorem find_nil (k : Nat) : find ([] : KV α) k = none := rfl

theorem wf_tail {p : Nat × α} {m : KV α} (h : WF (p :: m)) : WF m := (List.pairwise_cons.1 h).2

theorem lt_of_wf {p : Nat × α} {m : KV α} (h : WF (p :: m)) {q : Nat × α} (hq : q ∈ m) : p.1 < q.1 := (List.pairwise_cons.1 h).1 q hq

/-- A key below every listed key is not listed. -/
theorem find_lt {m : KV α} {k : Nat} (h : ∀ q ∈ m, k < q.1) : find m k = none := by
  induction m with
  | nil => rfl
  | cons p m ih =>
    have hp := h p (by simp)
    rw [find, if_neg (by omega), ih (fun q hq => h q (List.mem_cons_of_mem _ hq))]

/-- The keys of a table after a value is listed: the new one, or old ones. -/
theorem mem_set {m : KV α} {k : Nat} {v : α} {q : Nat × α} (hq : q ∈ set m k v) : q = (k, v) ∨ q ∈ m := by
  induction m with
  | nil => simpa [set] using hq
  | cons p m ih =>
    rw [set] at hq
    split at hq
    · simpa using hq
    · split at hq <;> simp at hq ⊢ <;> tauto

theorem mem_del {m : KV α} {k : Nat} {q : Nat × α} (hq : q ∈ del m k) : q ∈ m := by
  induction m with
  | nil => simp [del] at hq
  | cons p m ih =>
    rw [del] at hq
    split at hq
    · exact List.mem_cons_of_mem _ hq
    · simp at hq ⊢; tauto

theorem wf_set {m : KV α} (h : WF m) (k : Nat) (v : α) : WF (set m k v) := by
  induction m with
  | nil => simp [set, WF]
  | cons p m ih =>
    obtain ⟨hp, hm⟩ := List.pairwise_cons.1 h
    rw [set]
    split
    · refine List.pairwise_cons.2 ⟨fun q hq => ?_, h⟩
      rcases List.mem_cons.1 hq with rfl | hq
      · assumption
      · have := hp q hq; simp at *; omega
    · split
      · rename_i e
        exact List.pairwise_cons.2 ⟨fun q hq => by have := hp q hq; simp at *; omega, hm⟩
      · refine List.pairwise_cons.2 ⟨fun q hq => ?_, ih hm⟩
        rcases mem_set hq with rfl | hq
        · simp; omega
        · exact hp q hq

theorem wf_del {m : KV α} (h : WF m) (k : Nat) : WF (del m k) := by
  induction m with
  | nil => simp [del, WF]
  | cons p m ih =>
    obtain ⟨hp, hm⟩ := List.pairwise_cons.1 h
    rw [del]
    split
    · exact hm
    · exact List.pairwise_cons.2 ⟨fun q hq => hp q (mem_del hq), ih hm⟩

theorem wf_keep {m : KV α} (h : WF m) (p : Nat → α → Bool) : WF (keep m p) := List.Pairwise.filter _ h

theorem wf_mapVals {m : KV α} (h : WF m) (f : Nat → α → α) : WF (mapVals m f) := by
  unfold mapVals WF
  exact List.pairwise_map.2 h

/-- Reading the key that was listed gives its value. -/
@[simp] theorem find_set_self (m : KV α) (k : Nat) (v : α) : find (set m k v) k = some v := by
  induction m with
  | nil => simp [set, find]
  | cons p m ih =>
    rw [set]
    split
    · simp [find]
    · split
      · simp [find]
      · rename_i h1 h2
        rw [find, if_neg (fun e => h2 e.symm), ih]

/-- Listing a key leaves every other key alone. -/
theorem find_set_other (m : KV α) {k j : Nat} (v : α) (h : j ≠ k) : find (set m k v) j = find m j := by
  induction m with
  | nil => simp [set, find, Ne.symm h]
  | cons p m ih =>
    rw [set]
    split
    · simp [find, Ne.symm h]
    · split
      · rename_i e
        simp [find, Ne.symm h, ← e]
      · simp only [find, ih]

/-- A key taken out is not listed. -/
theorem find_del_self {m : KV α} (h : WF m) (k : Nat) : find (del m k) k = none := by
  induction m with
  | nil => rfl
  | cons p m ih =>
    rw [del]
    split
    · rename_i e
      exact find_lt (fun q hq => e ▸ lt_of_wf h hq)
    · rename_i e
      rw [find, if_neg e, ih (wf_tail h)]

theorem find_del_other (m : KV α) {k j : Nat} (h : j ≠ k) : find (del m k) j = find m j := by
  induction m with
  | nil => rfl
  | cons p m ih =>
    rw [del]
    split
    · rename_i e
      rw [find, if_neg (by omega)]
    · simp only [find, ih]

/-- A key kept reads as before; a key not kept is not listed. -/
theorem find_keep {m : KV α} (h : WF m) (p : Nat → α → Bool) (k : Nat) :
    find (keep m p) k = (find m k).bind (fun v => if p k v then some v else none) := by
  induction m with
  | nil => rfl
  | cons q m ih =>
    have ih := ih (wf_tail h)
    have hq : ∀ x ∈ m, q.1 < x.1 := fun x hx => lt_of_wf h hx
    unfold keep at ih ⊢
    rw [List.filter_cons]
    by_cases e : q.1 = k
    · subst e
      by_cases c : p q.1 q.2
      · simp [find, c]
      · simp only [c, Bool.false_eq_true, if_false]
        rw [ih, find_lt (k := q.1) hq]
        simp [find, c]
    · split
      · simp only [find, if_neg e, ih]
      · simp only [find, if_neg e, ih]

theorem find_mapVals (m : KV α) (f : Nat → α → α) (k : Nat) : find (mapVals m f) k = (find m k).map (f k) := by
  unfold mapVals
  induction m with
  | nil => rfl
  | cons x m ih =>
    obtain ⟨j, v⟩ := x
    by_cases h : j = k
    · subst h; simp [find]
    · simpa [find, h] using ih

theorem find_adj (m : KV α) (k j : Nat) (f : α → α) : find (adj m k f) j = if j = k then (find m j).map f else find m j := by
  unfold adj
  induction m with
  | nil => simp [find]
  | cons x m ih =>
    obtain ⟨i, v⟩ := x
    by_cases h : i = j
    · subst h
      by_cases hk : i = k <;> simp [find, hk]
    · by_cases hk : i = k
      · subst hk; simpa [find, h] using ih
      · simpa [find, hk, h] using ih

/-- A key that the test refuses under every value is gone, whatever the order of the table. -/
theorem find_keep_none (m : KV α) (p : Nat → α → Bool) (k : Nat) (h : ∀ v, p k v = false) : find (keep m p) k = none := by
  unfold keep
  induction m with
  | nil => rfl
  | cons x m ih =>
    obtain ⟨j, v⟩ := x
    by_cases hj : j = k
    · subst hj; simpa [List.filter, h v] using ih
    · cases hp : p j v <;> simp [List.filter, hp, find, hj, ih]

theorem find_upd_self (m : KV α) (k : Nat) (d : α) (f : α → α) : find (upd m k d f) k = some (f (findD m k d)) := by
  simp [upd]

theorem find_upd_other (m : KV α) {k j : Nat} (d : α) (f : α → α) (h : j ≠ k) : find (upd m k d f) j = find m j := by
  simp [upd, find_set_other _ _ h]

@[simp] theorem findD_set_self (m : KV α) (k : Nat) (v d : α) : findD (set m k v) k d = v := by simp [findD]

theorem findD_set_other (m : KV α) {k j : Nat} (v d : α) (h : j ≠ k) : findD (set m k v) j d = findD m j d := by
  simp [findD, find_set_other _ _ h]

/-! ### A memory whose unlisted keys read as `d` -/

variable [DecidableEq α]

theorem canon_put {d : α} {m : KV α} (h : Canon d m) (k : Nat) (v : α) : Canon d (put d m k v) := by
  unfold put
  split
  · exact ⟨wf_del h.1 k, fun p hp => h.2 p (mem_del hp)⟩
  · rename_i hv
    refine ⟨wf_set h.1 k v, fun p hp => ?_⟩
    rcases mem_set hp with rfl | hp
    · exact hv
    · exact h.2 p hp

omit [DecidableEq α] in
theorem canon_keep {d : α} {m : KV α} (h : Canon d m) (p : Nat → α → Bool) : Canon d (keep m p) :=
  ⟨wf_keep h.1 p, fun q hq => h.2 q (List.mem_filter.1 hq).1⟩

omit [DecidableEq α] in
theorem canon_nil (d : α) : Canon d ([] : KV α) := ⟨List.Pairwise.nil, fun _ h => nomatch h⟩

/-- A read after a write to the same place gives the value written. -/
theorem findD_put_self {d : α} {m : KV α} (h : WF m) (k : Nat) (v : α) : findD (put d m k v) k d = v := by
  unfold put findD
  split
  · rw [find_del_self h]; simp_all
  · simp

/-- A write leaves every other place alone. -/
theorem findD_put_other {d : α} (m : KV α) {k j : Nat} (v : α) (h : j ≠ k) : findD (put d m k v) j d = findD m j d := by
  unfold put findD
  split
  · rw [find_del_other m h]
  · rw [find_set_other m v h]

end Sys2Proof.KV
end

