-- ==== Sys2Proof/Laws/Ops.lean ====
section
/-! SUPPORT. What the shared operations can do, said once: a completion posts one entry and touches nothing but the port; an event is counted, suppressed, lost or written; a change of flags or mode leaves every other part alone. -/

namespace Sys2Proof.Machine

/-! ### Controllers -/

@[simp] theorem ctrl_setCtrl_self (s : State) (f : Nat) (g : Ctrl → Ctrl) : ctrl (setCtrl s f g) f = g (ctrl s f) := by
  simp [ctrl, setCtrl, KV.findD, KV.find_upd_self]

theorem ctrl_setCtrl_other (s : State) {f j : Nat} (g : Ctrl → Ctrl) (h : j ≠ f) : ctrl (setCtrl s f g) j = ctrl s j := by
  simp [ctrl, setCtrl, KV.findD, KV.find_upd_other _ _ _ h]

@[simp] theorem setCtrl_sqs (s : State) (f : Nat) (g : Ctrl → Ctrl) : (setCtrl s f g).port.sqs = s.port.sqs := rfl
@[simp] theorem setCtrl_cqs (s : State) (f : Nat) (g : Ctrl → Ctrl) : (setCtrl s f g).port.cqs = s.port.cqs := rfl
@[simp] theorem setCtrl_cmds (s : State) (f : Nat) (g : Ctrl → Ctrl) : (setCtrl s f g).port.cmds = s.port.cmds := rfl
@[simp] theorem setCtrl_posted (s : State) (f : Nat) (g : Ctrl → Ctrl) : (setCtrl s f g).port.posted = s.port.posted := rfl

/-! ### Completions and asynchronous events -/

/-- The host port without its controllers, completion queues and what it has posted. -/
def Port.still (p : Port) : Port := { p with ctrls := [], cqs := [], posted := [], msgs := [], quietAt := 0, inL1 := false }

/-- The later state differs from the earlier at most in the controllers, completion queues and posted entries of the host port, and in the instant of the last admin completion. -/
structure Quiet (c s : State) : Prop where
  part : s.part = c.part
  zn : s.zn = c.zn
  cal : s.cal = c.cal
  media : s.media = c.media
  jr : s.jr = c.jr
  tw : s.tw = c.tw
  sup : s.sup = c.sup
  boot : s.boot = c.boot
  keys : s.keys = c.keys
  ev : s.ev = c.ev
  adm : s.adm = c.adm
  time : s.time = c.time
  th : s.th = c.th
  pw : s.pw = c.pw
  it : s.it = c.it
  tel : s.tel = c.tel
  hist : s.hist = c.hist
  free : s.free = c.free
  pending : s.pending = c.pending
  port : s.port.still = c.port.still
  md : { s.md with lastAdminAt := c.md.lastAdminAt } = c.md

theorem Quiet.refl (s : State) : Quiet s s := ⟨rfl, rfl, rfl, rfl, rfl, rfl, rfl, rfl, rfl, rfl, rfl, rfl, rfl, rfl, rfl, rfl, rfl, rfl, rfl, rfl, rfl⟩

theorem Quiet.trans {a b c : State} (h : Quiet a b) (k : Quiet b c) : Quiet a c := by
  refine ⟨k.part.trans h.part, k.zn.trans h.zn, k.cal.trans h.cal, k.media.trans h.media, k.jr.trans h.jr, k.tw.trans h.tw, k.sup.trans h.sup, k.boot.trans h.boot, k.keys.trans h.keys, k.ev.trans h.ev, k.adm.trans h.adm, k.time.trans h.time, k.th.trans h.th, k.pw.trans h.pw, k.it.trans h.it, k.tel.trans h.tel, k.hist.trans h.hist, k.free.trans h.free, k.pending.trans h.pending, k.port.trans h.port, ?_⟩
  rw [← h.md, ← k.md]

/-- An update of the port alone. -/
theorem Quiet.withPort {c s : State} (h : Quiet c s) (p : Port) (hp : p.still = s.port.still) : Quiet c { s with port := p } :=
  ⟨h.part, h.zn, h.cal, h.media, h.jr, h.tw, h.sup, h.boot, h.keys, h.ev, h.adm, h.time, h.th, h.pw, h.it, h.tel, h.hist, h.free, h.pending, hp.trans h.port, h.md⟩

theorem setCtrl_quiet {c s : State} (h : Quiet c s) (f : Nat) (g : Ctrl → Ctrl) : Quiet c (setCtrl s f g) := h.withPort _ rfl

/-- A message of a vector, or its pending bit, touches the host port alone (R67). -/
theorem sendMsix_quiet {c s : State} (h : Quiet c s) (func vec : Nat) : Quiet c (sendMsix s func vec) := by
  unfold sendMsix
  dsimp only
  split
  · exact h
  · split
    · exact setCtrl_quiet h _ _
    · exact h.withPort _ rfl

theorem sendVector_quiet {c s : State} (h : Quiet c s) (func vec : Nat) : Quiet c (sendVector s func vec) :=
  sendMsix_quiet (h.withPort { s.port with cqs := KV.mapVals s.port.cqs (fun k q => if onVector func vec k q then { q with held := 0 } else q) } rfl) _ _

/-- The message of a posted completion, sent or held, touches the host port alone (R88). -/
theorem notify_quiet {c s : State} (h : Quiet c s) (func cqid : Nat) (atOnce : Bool) : Quiet c (notify s func cqid atOnce) := by
  unfold notify
  split
  · exact h
  · dsimp only
    split
    · exact h
    · split
      · exact sendVector_quiet h _ _
      · exact h.withPort _ rfl

/-- A completion touches the host port alone (R86). -/
theorem complete_quiet {c s : State} (h : Quiet c s) (func sqid cid : Nat) (st : Status) (dw0 dw1 : Nat) (data : List Nat) :
    Quiet c (complete s func sqid cid st dw0 dw1 data) := by
  have key : ∀ p : Port, p.still = s.port.still → Quiet c { s with port := p, md := if sqid = 0 then { s.md with lastAdminAt := s.time.dtb } else s.md } := by
    intro p hp
    refine ⟨h.part, h.zn, h.cal, h.media, h.jr, h.tw, h.sup, h.boot, h.keys, h.ev, h.adm, h.time, h.th, h.pw, h.it, h.tel, h.hist, h.free, h.pending, hp.trans h.port, ?_⟩
    have := h.md
    dsimp only
    split <;> exact this
  unfold complete
  split
  · exact h
  · split
    · exact h
    · split
      · exact h
      · split
        · exact h
        · dsimp only
          split
          · refine setCtrl_quiet ?_ _ _
            refine notify_quiet ?_ _ _ _
            refine key _ ?_
            rfl
          · refine notify_quiet ?_ _ _ _
            refine key _ ?_
            rfl

theorem adminDone_quiet {c s : State} (h : Quiet c s) (e : Sqe) (st : Status) (dw0 : Nat) (data : List Nat) :
    Quiet c (adminDone s e st dw0 data) := complete_quiet h _ _ _ _ _ _ _

theorem raiseAen_quiet {c s : State} (h : Quiet c s) (func typ info log : Nat) : Quiet c (raiseAen s func typ info log) := by
  unfold raiseAen
  dsimp only
  split
  · exact h
  · split
    · exact setCtrl_quiet h _ _
    · exact complete_quiet (setCtrl_quiet h _ _) _ _ _ _ _ _ _

theorem raiseAll_quiet {c s : State} (h : Quiet c s) (typ info log : Nat) : Quiet c (raiseAll s typ info log) := by
  unfold raiseAll
  generalize s.port.ctrls = l
  induction l generalizing s with
  | nil => exact h
  | cons p l ih => exact ih (raiseAen_quiet h _ _ _ _)

theorem Quiet.port_field {c s : State} (h : Quiet c s) {α : Type} (f : Port → α) (hf : ∀ p : Port, f p.still = f p) : f s.port = f c.port :=
  ((hf s.port).symm.trans (congrArg f h.port)).trans (hf c.port)

theorem Quiet.md_field {c s : State} (h : Quiet c s) {α : Type} (f : ModeSt → α) (hf : ∀ m n, f { m with lastAdminAt := n } = f m) : f s.md = f c.md :=
  (hf s.md c.md.lastAdminAt).symm.trans (congrArg f h.md)

@[simp] theorem complete_part (s : State) (func sqid cid : Nat) (st : Status) (dw0 dw1 : Nat) (data : List Nat) : (complete s func sqid cid st dw0 dw1 data).part = s.part := (complete_quiet (Quiet.refl s) _ _ _ _ _ _ _).part
@[simp] theorem complete_zn (s : State) (func sqid cid : Nat) (st : Status) (dw0 dw1 : Nat) (data : List Nat) : (complete s func sqid cid st dw0 dw1 data).zn = s.zn := (complete_quiet (Quiet.refl s) _ _ _ _ _ _ _).zn
@[simp] theorem complete_cal (s : State) (func sqid cid : Nat) (st : Status) (dw0 dw1 : Nat) (data : List Nat) : (complete s func sqid cid st dw0 dw1 data).cal = s.cal := (complete_quiet (Quiet.refl s) _ _ _ _ _ _ _).cal
@[simp] theorem complete_media (s : State) (func sqid cid : Nat) (st : Status) (dw0 dw1 : Nat) (data : List Nat) : (complete s func sqid cid st dw0 dw1 data).media = s.media := (complete_quiet (Quiet.refl s) _ _ _ _ _ _ _).media
@[simp] theorem complete_jr (s : State) (func sqid cid : Nat) (st : Status) (dw0 dw1 : Nat) (data : List Nat) : (complete s func sqid cid st dw0 dw1 data).jr = s.jr := (complete_quiet (Quiet.refl s) _ _ _ _ _ _ _).jr
@[simp] theorem complete_tw (s : State) (func sqid cid : Nat) (st : Status) (dw0 dw1 : Nat) (data : List Nat) : (complete s func sqid cid st dw0 dw1 data).tw = s.tw := (complete_quiet (Quiet.refl s) _ _ _ _ _ _ _).tw
@[simp] theorem complete_sup (s : State) (func sqid cid : Nat) (st : Status) (dw0 dw1 : Nat) (data : List Nat) : (complete s func sqid cid st dw0 dw1 data).sup = s.sup := (complete_quiet (Quiet.refl s) _ _ _ _ _ _ _).sup
@[simp] theorem complete_boot (s : State) (func sqid cid : Nat) (st : Status) (dw0 dw1 : Nat) (data : List Nat) : (complete s func sqid cid st dw0 dw1 data).boot = s.boot := (complete_quiet (Quiet.refl s) _ _ _ _ _ _ _).boot
@[simp] theorem complete_keys (s : State) (func sqid cid : Nat) (st : Status) (dw0 dw1 : Nat) (data : List Nat) : (complete s func sqid cid st dw0 dw1 data).keys = s.keys := (complete_quiet (Quiet.refl s) _ _ _ _ _ _ _).keys
@[simp] theorem complete_ev (s : State) (func sqid cid : Nat) (st : Status) (dw0 dw1 : Nat) (data : List Nat) : (complete s func sqid cid st dw0 dw1 data).ev = s.ev := (complete_quiet (Quiet.refl s) _ _ _ _ _ _ _).ev
@[simp] theorem complete_adm (s : State) (func sqid cid : Nat) (st : Status) (dw0 dw1 : Nat) (data : List Nat) : (complete s func sqid cid st dw0 dw1 data).adm = s.adm := (complete_quiet (Quiet.refl s) _ _ _ _ _ _ _).adm
@[simp] theorem complete_time (s : State) (func sqid cid : Nat) (st : Status) (dw0 dw1 : Nat) (data : List Nat) : (complete s func sqid cid st dw0 dw1 data).time = s.time := (complete_quiet (Quiet.refl s) _ _ _ _ _ _ _).time
@[simp] theorem complete_th (s : State) (func sqid cid : Nat) (st : Status) (dw0 dw1 : Nat) (data : List Nat) : (complete s func sqid cid st dw0 dw1 data).th = s.th := (complete_quiet (Quiet.refl s) _ _ _ _ _ _ _).th
@[simp] theorem complete_pw (s : State) (func sqid cid : Nat) (st : Status) (dw0 dw1 : Nat) (data : List Nat) : (complete s func sqid cid st dw0 dw1 data).pw = s.pw := (complete_quiet (Quiet.refl s) _ _ _ _ _ _ _).pw
@[simp] theorem complete_it (s : State) (func sqid cid : Nat) (st : Status) (dw0 dw1 : Nat) (data : List Nat) : (complete s func sqid cid st dw0 dw1 data).it = s.it := (complete_quiet (Quiet.refl s) _ _ _ _ _ _ _).it
@[simp] theorem complete_tel (s : State) (func sqid cid : Nat) (st : Status) (dw0 dw1 : Nat) (data : List Nat) : (complete s func sqid cid st dw0 dw1 data).tel = s.tel := (complete_quiet (Quiet.refl s) _ _ _ _ _ _ _).tel
@[simp] theorem complete_hist (s : State) (func sqid cid : Nat) (st : Status) (dw0 dw1 : Nat) (data : List Nat) : (complete s func sqid cid st dw0 dw1 data).hist = s.hist := (complete_quiet (Quiet.refl s) _ _ _ _ _ _ _).hist
@[simp] theorem complete_free (s : State) (func sqid cid : Nat) (st : Status) (dw0 dw1 : Nat) (data : List Nat) : (complete s func sqid cid st dw0 dw1 data).free = s.free := (complete_quiet (Quiet.refl s) _ _ _ _ _ _ _).free
@[simp] theorem complete_pending (s : State) (func sqid cid : Nat) (st : Status) (dw0 dw1 : Nat) (data : List Nat) : (complete s func sqid cid st dw0 dw1 data).pending = s.pending := (complete_quiet (Quiet.refl s) _ _ _ _ _ _ _).pending
@[simp] theorem complete_cmds_port (s : State) (func sqid cid : Nat) (st : Status) (dw0 dw1 : Nat) (data : List Nat) : (complete s func sqid cid st dw0 dw1 data).port.cmds = s.port.cmds := (complete_quiet (Quiet.refl s) _ _ _ _ _ _ _).port_field (·.cmds) (fun _ => rfl)
@[simp] theorem complete_sqs_port (s : State) (func sqid cid : Nat) (st : Status) (dw0 dw1 : Nat) (data : List Nat) : (complete s func sqid cid st dw0 dw1 data).port.sqs = s.port.sqs := (complete_quiet (Quiet.refl s) _ _ _ _ _ _ _).port_field (·.sqs) (fun _ => rfl)
@[simp] theorem complete_perst_port (s : State) (func sqid cid : Nat) (st : Status) (dw0 dw1 : Nat) (data : List Nat) : (complete s func sqid cid st dw0 dw1 data).port.perst = s.port.perst := (complete_quiet (Quiet.refl s) _ _ _ _ _ _ _).port_field (·.perst) (fun _ => rfl)
@[simp] theorem complete_training_port (s : State) (func sqid cid : Nat) (st : Status) (dw0 dw1 : Nat) (data : List Nat) : (complete s func sqid cid st dw0 dw1 data).port.training = s.port.training := (complete_quiet (Quiet.refl s) _ _ _ _ _ _ _).port_field (·.training) (fun _ => rfl)
@[simp] theorem complete_ledger_port (s : State) (func sqid cid : Nat) (st : Status) (dw0 dw1 : Nat) (data : List Nat) : (complete s func sqid cid st dw0 dw1 data).port.ledger = s.port.ledger := (complete_quiet (Quiet.refl s) _ _ _ _ _ _ _).port_field (·.ledger) (fun _ => rfl)
@[simp] theorem complete_readOut_port (s : State) (func sqid cid : Nat) (st : Status) (dw0 dw1 : Nat) (data : List Nat) : (complete s func sqid cid st dw0 dw1 data).port.readOut = s.port.readOut := (complete_quiet (Quiet.refl s) _ _ _ _ _ _ _).port_field (·.readOut) (fun _ => rfl)
@[simp] theorem complete_mode_md (s : State) (func sqid cid : Nat) (st : Status) (dw0 dw1 : Nat) (data : List Nat) : (complete s func sqid cid st dw0 dw1 data).md.mode = s.md.mode := (complete_quiet (Quiet.refl s) _ _ _ _ _ _ _).md_field (·.mode) (fun _ _ => rfl)
@[simp] theorem complete_prev_md (s : State) (func sqid cid : Nat) (st : Status) (dw0 dw1 : Nat) (data : List Nat) : (complete s func sqid cid st dw0 dw1 data).md.prev = s.md.prev := (complete_quiet (Quiet.refl s) _ _ _ _ _ _ _).md_field (·.prev) (fun _ _ => rfl)
@[simp] theorem complete_capped_md (s : State) (func sqid cid : Nat) (st : Status) (dw0 dw1 : Nat) (data : List Nat) : (complete s func sqid cid st dw0 dw1 data).md.capped = s.md.capped := (complete_quiet (Quiet.refl s) _ _ _ _ _ _ _).md_field (·.capped) (fun _ _ => rfl)
@[simp] theorem complete_rebuilding_md (s : State) (func sqid cid : Nat) (st : Status) (dw0 dw1 : Nat) (data : List Nat) : (complete s func sqid cid st dw0 dw1 data).md.rebuilding = s.md.rebuilding := (complete_quiet (Quiet.refl s) _ _ _ _ _ _ _).md_field (·.rebuilding) (fun _ _ => rfl)
@[simp] theorem complete_resyncing_md (s : State) (func sqid cid : Nat) (st : Status) (dw0 dw1 : Nat) (data : List Nat) : (complete s func sqid cid st dw0 dw1 data).md.resyncing = s.md.resyncing := (complete_quiet (Quiet.refl s) _ _ _ _ _ _ _).md_field (·.resyncing) (fun _ _ => rfl)
@[simp] theorem complete_writeThrough_md (s : State) (func sqid cid : Nat) (st : Status) (dw0 dw1 : Nat) (data : List Nat) : (complete s func sqid cid st dw0 dw1 data).md.writeThrough = s.md.writeThrough := (complete_quiet (Quiet.refl s) _ _ _ _ _ _ _).md_field (·.writeThrough) (fun _ _ => rfl)
@[simp] theorem complete_timeDisc_md (s : State) (func sqid cid : Nat) (st : Status) (dw0 dw1 : Nat) (data : List Nat) : (complete s func sqid cid st dw0 dw1 data).md.timeDisc = s.md.timeDisc := (complete_quiet (Quiet.refl s) _ _ _ _ _ _ _).md_field (·.timeDisc) (fun _ _ => rfl)
@[simp] theorem complete_qcause_md (s : State) (func sqid cid : Nat) (st : Status) (dw0 dw1 : Nat) (data : List Nat) : (complete s func sqid cid st dw0 dw1 data).md.qcause = s.md.qcause := (complete_quiet (Quiet.refl s) _ _ _ _ _ _ _).md_field (·.qcause) (fun _ _ => rfl)
@[simp] theorem complete_pairServing_md (s : State) (func sqid cid : Nat) (st : Status) (dw0 dw1 : Nat) (data : List Nat) : (complete s func sqid cid st dw0 dw1 data).md.pairServing = s.md.pairServing := (complete_quiet (Quiet.refl s) _ _ _ _ _ _ _).md_field (·.pairServing) (fun _ _ => rfl)
@[simp] theorem complete_recoveryScan_md (s : State) (func sqid cid : Nat) (st : Status) (dw0 dw1 : Nat) (data : List Nat) : (complete s func sqid cid st dw0 dw1 data).md.recoveryScan = s.md.recoveryScan := (complete_quiet (Quiet.refl s) _ _ _ _ _ _ _).md_field (·.recoveryScan) (fun _ _ => rfl)
@[simp] theorem complete_seq_md (s : State) (func sqid cid : Nat) (st : Status) (dw0 dw1 : Nat) (data : List Nat) : (complete s func sqid cid st dw0 dw1 data).md.seq = s.md.seq := (complete_quiet (Quiet.refl s) _ _ _ _ _ _ _).md_field (·.seq) (fun _ _ => rfl)
@[simp] theorem complete_ps4_md (s : State) (func sqid cid : Nat) (st : Status) (dw0 dw1 : Nat) (data : List Nat) : (complete s func sqid cid st dw0 dw1 data).md.ps4 = s.md.ps4 := (complete_quiet (Quiet.refl s) _ _ _ _ _ _ _).md_field (·.ps4) (fun _ _ => rfl)
@[simp] theorem complete_entering_md (s : State) (func sqid cid : Nat) (st : Status) (dw0 dw1 : Nat) (data : List Nat) : (complete s func sqid cid st dw0 dw1 data).md.entering = s.md.entering := (complete_quiet (Quiet.refl s) _ _ _ _ _ _ _).md_field (·.entering) (fun _ _ => rfl)
@[simp] theorem complete_holidayFrom_md (s : State) (func sqid cid : Nat) (st : Status) (dw0 dw1 : Nat) (data : List Nat) : (complete s func sqid cid st dw0 dw1 data).md.holidayFrom = s.md.holidayFrom := (complete_quiet (Quiet.refl s) _ _ _ _ _ _ _).md_field (·.holidayFrom) (fun _ _ => rfl)
@[simp] theorem complete_selBefore_md (s : State) (func sqid cid : Nat) (st : Status) (dw0 dw1 : Nat) (data : List Nat) : (complete s func sqid cid st dw0 dw1 data).md.selBefore = s.md.selBefore := (complete_quiet (Quiet.refl s) _ _ _ _ _ _ _).md_field (·.selBefore) (fun _ _ => rfl)
@[simp] theorem complete_waking_md (s : State) (func sqid cid : Nat) (st : Status) (dw0 dw1 : Nat) (data : List Nat) : (complete s func sqid cid st dw0 dw1 data).md.waking = s.md.waking := (complete_quiet (Quiet.refl s) _ _ _ _ _ _ _).md_field (·.waking) (fun _ _ => rfl)
@[simp] theorem complete_adminWake_md (s : State) (func sqid cid : Nat) (st : Status) (dw0 dw1 : Nat) (data : List Nat) : (complete s func sqid cid st dw0 dw1 data).md.adminWake = s.md.adminWake := (complete_quiet (Quiet.refl s) _ _ _ _ _ _ _).md_field (·.adminWake) (fun _ _ => rfl)
@[simp] theorem complete_rejectUntil_md (s : State) (func sqid cid : Nat) (st : Status) (dw0 dw1 : Nat) (data : List Nat) : (complete s func sqid cid st dw0 dw1 data).md.rejectUntil = s.md.rejectUntil := (complete_quiet (Quiet.refl s) _ _ _ _ _ _ _).md_field (·.rejectUntil) (fun _ _ => rfl)
@[simp] theorem complete_path_md (s : State) (func sqid cid : Nat) (st : Status) (dw0 dw1 : Nat) (data : List Nat) : (complete s func sqid cid st dw0 dw1 data).md.path = s.md.path := (complete_quiet (Quiet.refl s) _ _ _ _ _ _ _).md_field (·.path) (fun _ _ => rfl)
@[simp] theorem complete_cleanOff_md (s : State) (func sqid cid : Nat) (st : Status) (dw0 dw1 : Nat) (data : List Nat) : (complete s func sqid cid st dw0 dw1 data).md.cleanOff = s.md.cleanOff := (complete_quiet (Quiet.refl s) _ _ _ _ _ _ _).md_field (·.cleanOff) (fun _ _ => rfl)
@[simp] theorem complete_recoveryAt_md (s : State) (func sqid cid : Nat) (st : Status) (dw0 dw1 : Nat) (data : List Nat) : (complete s func sqid cid st dw0 dw1 data).md.recoveryAt = s.md.recoveryAt := (complete_quiet (Quiet.refl s) _ _ _ _ _ _ _).md_field (·.recoveryAt) (fun _ _ => rfl)

@[simp] theorem adminDone_part (s : State) (e : Sqe) (st : Status) (dw0 : Nat) (data : List Nat) : (adminDone s e st dw0 data).part = s.part := (adminDone_quiet (Quiet.refl s) _ _ _ _).part
@[simp] theorem adminDone_zn (s : State) (e : Sqe) (st : Status) (dw0 : Nat) (data : List Nat) : (adminDone s e st dw0 data).zn = s.zn := (adminDone_quiet (Quiet.refl s) _ _ _ _).zn
@[simp] theorem adminDone_cal (s : State) (e : Sqe) (st : Status) (dw0 : Nat) (data : List Nat) : (adminDone s e st dw0 data).cal = s.cal := (adminDone_quiet (Quiet.refl s) _ _ _ _).cal
@[simp] theorem adminDone_media (s : State) (e : Sqe) (st : Status) (dw0 : Nat) (data : List Nat) : (adminDone s e st dw0 data).media = s.media := (adminDone_quiet (Quiet.refl s) _ _ _ _).media
@[simp] theorem adminDone_jr (s : State) (e : Sqe) (st : Status) (dw0 : Nat) (data : List Nat) : (adminDone s e st dw0 data).jr = s.jr := (adminDone_quiet (Quiet.refl s) _ _ _ _).jr
@[simp] theorem adminDone_tw (s : State) (e : Sqe) (st : Status) (dw0 : Nat) (data : List Nat) : (adminDone s e st dw0 data).tw = s.tw := (adminDone_quiet (Quiet.refl s) _ _ _ _).tw
@[simp] theorem adminDone_sup (s : State) (e : Sqe) (st : Status) (dw0 : Nat) (data : List Nat) : (adminDone s e st dw0 data).sup = s.sup := (adminDone_quiet (Quiet.refl s) _ _ _ _).sup
@[simp] theorem adminDone_boot (s : State) (e : Sqe) (st : Status) (dw0 : Nat) (data : List Nat) : (adminDone s e st dw0 data).boot = s.boot := (adminDone_quiet (Quiet.refl s) _ _ _ _).boot
@[simp] theorem adminDone_keys (s : State) (e : Sqe) (st : Status) (dw0 : Nat) (data : List Nat) : (adminDone s e st dw0 data).keys = s.keys := (adminDone_quiet (Quiet.refl s) _ _ _ _).keys
@[simp] theorem adminDone_ev (s : State) (e : Sqe) (st : Status) (dw0 : Nat) (data : List Nat) : (adminDone s e st dw0 data).ev = s.ev := (adminDone_quiet (Quiet.refl s) _ _ _ _).ev
@[simp] theorem adminDone_adm (s : State) (e : Sqe) (st : Status) (dw0 : Nat) (data : List Nat) : (adminDone s e st dw0 data).adm = s.adm := (adminDone_quiet (Quiet.refl s) _ _ _ _).adm
@[simp] theorem adminDone_time (s : State) (e : Sqe) (st : Status) (dw0 : Nat) (data : List Nat) : (adminDone s e st dw0 data).time = s.time := (adminDone_quiet (Quiet.refl s) _ _ _ _).time
@[simp] theorem adminDone_th (s : State) (e : Sqe) (st : Status) (dw0 : Nat) (data : List Nat) : (adminDone s e st dw0 data).th = s.th := (adminDone_quiet (Quiet.refl s) _ _ _ _).th
@[simp] theorem adminDone_pw (s : State) (e : Sqe) (st : Status) (dw0 : Nat) (data : List Nat) : (adminDone s e st dw0 data).pw = s.pw := (adminDone_quiet (Quiet.refl s) _ _ _ _).pw
@[simp] theorem adminDone_it (s : State) (e : Sqe) (st : Status) (dw0 : Nat) (data : List Nat) : (adminDone s e st dw0 data).it = s.it := (adminDone_quiet (Quiet.refl s) _ _ _ _).it
@[simp] theorem adminDone_tel (s : State) (e : Sqe) (st : Status) (dw0 : Nat) (data : List Nat) : (adminDone s e st dw0 data).tel = s.tel := (adminDone_quiet (Quiet.refl s) _ _ _ _).tel
@[simp] theorem adminDone_hist (s : State) (e : Sqe) (st : Status) (dw0 : Nat) (data : List Nat) : (adminDone s e st dw0 data).hist = s.hist := (adminDone_quiet (Quiet.refl s) _ _ _ _).hist
@[simp] theorem adminDone_free (s : State) (e : Sqe) (st : Status) (dw0 : Nat) (data : List Nat) : (adminDone s e st dw0 data).free = s.free := (adminDone_quiet (Quiet.refl s) _ _ _ _).free
@[simp] theorem adminDone_pending (s : State) (e : Sqe) (st : Status) (dw0 : Nat) (data : List Nat) : (adminDone s e st dw0 data).pending = s.pending := (adminDone_quiet (Quiet.refl s) _ _ _ _).pending
@[simp] theorem adminDone_cmds_port (s : State) (e : Sqe) (st : Status) (dw0 : Nat) (data : List Nat) : (adminDone s e st dw0 data).port.cmds = s.port.cmds := (adminDone_quiet (Quiet.refl s) _ _ _ _).port_field (·.cmds) (fun _ => rfl)
@[simp] theorem adminDone_sqs_port (s : State) (e : Sqe) (st : Status) (dw0 : Nat) (data : List Nat) : (adminDone s e st dw0 data).port.sqs = s.port.sqs := (adminDone_quiet (Quiet.refl s) _ _ _ _).port_field (·.sqs) (fun _ => rfl)
@[simp] theorem adminDone_perst_port (s : State) (e : Sqe) (st : Status) (dw0 : Nat) (data : List Nat) : (adminDone s e st dw0 data).port.perst = s.port.perst := (adminDone_quiet (Quiet.refl s) _ _ _ _).port_field (·.perst) (fun _ => rfl)
@[simp] theorem adminDone_training_port (s : State) (e : Sqe) (st : Status) (dw0 : Nat) (data : List Nat) : (adminDone s e st dw0 data).port.training = s.port.training := (adminDone_quiet (Quiet.refl s) _ _ _ _).port_field (·.training) (fun _ => rfl)
@[simp] theorem adminDone_ledger_port (s : State) (e : Sqe) (st : Status) (dw0 : Nat) (data : List Nat) : (adminDone s e st dw0 data).port.ledger = s.port.ledger := (adminDone_quiet (Quiet.refl s) _ _ _ _).port_field (·.ledger) (fun _ => rfl)
@[simp] theorem adminDone_readOut_port (s : State) (e : Sqe) (st : Status) (dw0 : Nat) (data : List Nat) : (adminDone s e st dw0 data).port.readOut = s.port.readOut := (adminDone_quiet (Quiet.refl s) _ _ _ _).port_field (·.readOut) (fun _ => rfl)
@[simp] theorem adminDone_mode_md (s : State) (e : Sqe) (st : Status) (dw0 : Nat) (data : List Nat) : (adminDone s e st dw0 data).md.mode = s.md.mode := (adminDone_quiet (Quiet.refl s) _ _ _ _).md_field (·.mode) (fun _ _ => rfl)
@[simp] theorem adminDone_prev_md (s : State) (e : Sqe) (st : Status) (dw0 : Nat) (data : List Nat) : (adminDone s e st dw0 data).md.prev = s.md.prev := (adminDone_quiet (Quiet.refl s) _ _ _ _).md_field (·.prev) (fun _ _ => rfl)
@[simp] theorem adminDone_capped_md (s : State) (e : Sqe) (st : Status) (dw0 : Nat) (data : List Nat) : (adminDone s e st dw0 data).md.capped = s.md.capped := (adminDone_quiet (Quiet.refl s) _ _ _ _).md_field (·.capped) (fun _ _ => rfl)
@[simp] theorem adminDone_rebuilding_md (s : State) (e : Sqe) (st : Status) (dw0 : Nat) (data : List Nat) : (adminDone s e st dw0 data).md.rebuilding = s.md.rebuilding := (adminDone_quiet (Quiet.refl s) _ _ _ _).md_field (·.rebuilding) (fun _ _ => rfl)
@[simp] theorem adminDone_resyncing_md (s : State) (e : Sqe) (st : Status) (dw0 : Nat) (data : List Nat) : (adminDone s e st dw0 data).md.resyncing = s.md.resyncing := (adminDone_quiet (Quiet.refl s) _ _ _ _).md_field (·.resyncing) (fun _ _ => rfl)
@[simp] theorem adminDone_writeThrough_md (s : State) (e : Sqe) (st : Status) (dw0 : Nat) (data : List Nat) : (adminDone s e st dw0 data).md.writeThrough = s.md.writeThrough := (adminDone_quiet (Quiet.refl s) _ _ _ _).md_field (·.writeThrough) (fun _ _ => rfl)
@[simp] theorem adminDone_timeDisc_md (s : State) (e : Sqe) (st : Status) (dw0 : Nat) (data : List Nat) : (adminDone s e st dw0 data).md.timeDisc = s.md.timeDisc := (adminDone_quiet (Quiet.refl s) _ _ _ _).md_field (·.timeDisc) (fun _ _ => rfl)
@[simp] theorem adminDone_qcause_md (s : State) (e : Sqe) (st : Status) (dw0 : Nat) (data : List Nat) : (adminDone s e st dw0 data).md.qcause = s.md.qcause := (adminDone_quiet (Quiet.refl s) _ _ _ _).md_field (·.qcause) (fun _ _ => rfl)
@[simp] theorem adminDone_pairServing_md (s : State) (e : Sqe) (st : Status) (dw0 : Nat) (data : List Nat) : (adminDone s e st dw0 data).md.pairServing = s.md.pairServing := (adminDone_quiet (Quiet.refl s) _ _ _ _).md_field (·.pairServing) (fun _ _ => rfl)
@[simp] theorem adminDone_recoveryScan_md (s : State) (e : Sqe) (st : Status) (dw0 : Nat) (data : List Nat) : (adminDone s e st dw0 data).md.recoveryScan = s.md.recoveryScan := (adminDone_quiet (Quiet.refl s) _ _ _ _).md_field (·.recoveryScan) (fun _ _ => rfl)
@[simp] theorem adminDone_seq_md (s : State) (e : Sqe) (st : Status) (dw0 : Nat) (data : List Nat) : (adminDone s e st dw0 data).md.seq = s.md.seq := (adminDone_quiet (Quiet.refl s) _ _ _ _).md_field (·.seq) (fun _ _ => rfl)
@[simp] theorem adminDone_ps4_md (s : State) (e : Sqe) (st : Status) (dw0 : Nat) (data : List Nat) : (adminDone s e st dw0 data).md.ps4 = s.md.ps4 := (adminDone_quiet (Quiet.refl s) _ _ _ _).md_field (·.ps4) (fun _ _ => rfl)
@[simp] theorem adminDone_entering_md (s : State) (e : Sqe) (st : Status) (dw0 : Nat) (data : List Nat) : (adminDone s e st dw0 data).md.entering = s.md.entering := (adminDone_quiet (Quiet.refl s) _ _ _ _).md_field (·.entering) (fun _ _ => rfl)
@[simp] theorem adminDone_holidayFrom_md (s : State) (e : Sqe) (st : Status) (dw0 : Nat) (data : List Nat) : (adminDone s e st dw0 data).md.holidayFrom = s.md.holidayFrom := (adminDone_quiet (Quiet.refl s) _ _ _ _).md_field (·.holidayFrom) (fun _ _ => rfl)
@[simp] theorem adminDone_selBefore_md (s : State) (e : Sqe) (st : Status) (dw0 : Nat) (data : List Nat) : (adminDone s e st dw0 data).md.selBefore = s.md.selBefore := (adminDone_quiet (Quiet.refl s) _ _ _ _).md_field (·.selBefore) (fun _ _ => rfl)
@[simp] theorem adminDone_waking_md (s : State) (e : Sqe) (st : Status) (dw0 : Nat) (data : List Nat) : (adminDone s e st dw0 data).md.waking = s.md.waking := (adminDone_quiet (Quiet.refl s) _ _ _ _).md_field (·.waking) (fun _ _ => rfl)
@[simp] theorem adminDone_adminWake_md (s : State) (e : Sqe) (st : Status) (dw0 : Nat) (data : List Nat) : (adminDone s e st dw0 data).md.adminWake = s.md.adminWake := (adminDone_quiet (Quiet.refl s) _ _ _ _).md_field (·.adminWake) (fun _ _ => rfl)
@[simp] theorem adminDone_rejectUntil_md (s : State) (e : Sqe) (st : Status) (dw0 : Nat) (data : List Nat) : (adminDone s e st dw0 data).md.rejectUntil = s.md.rejectUntil := (adminDone_quiet (Quiet.refl s) _ _ _ _).md_field (·.rejectUntil) (fun _ _ => rfl)
@[simp] theorem adminDone_path_md (s : State) (e : Sqe) (st : Status) (dw0 : Nat) (data : List Nat) : (adminDone s e st dw0 data).md.path = s.md.path := (adminDone_quiet (Quiet.refl s) _ _ _ _).md_field (·.path) (fun _ _ => rfl)
@[simp] theorem adminDone_cleanOff_md (s : State) (e : Sqe) (st : Status) (dw0 : Nat) (data : List Nat) : (adminDone s e st dw0 data).md.cleanOff = s.md.cleanOff := (adminDone_quiet (Quiet.refl s) _ _ _ _).md_field (·.cleanOff) (fun _ _ => rfl)
@[simp] theorem adminDone_recoveryAt_md (s : State) (e : Sqe) (st : Status) (dw0 : Nat) (data : List Nat) : (adminDone s e st dw0 data).md.recoveryAt = s.md.recoveryAt := (adminDone_quiet (Quiet.refl s) _ _ _ _).md_field (·.recoveryAt) (fun _ _ => rfl)

@[simp] theorem raiseAen_part (s : State) (func typ info log : Nat) : (raiseAen s func typ info log).part = s.part := (raiseAen_quiet (Quiet.refl s) _ _ _ _).part
@[simp] theorem raiseAen_zn (s : State) (func typ info log : Nat) : (raiseAen s func typ info log).zn = s.zn := (raiseAen_quiet (Quiet.refl s) _ _ _ _).zn
@[simp] theorem raiseAen_cal (s : State) (func typ info log : Nat) : (raiseAen s func typ info log).cal = s.cal := (raiseAen_quiet (Quiet.refl s) _ _ _ _).cal
@[simp] theorem raiseAen_media (s : State) (func typ info log : Nat) : (raiseAen s func typ info log).media = s.media := (raiseAen_quiet (Quiet.refl s) _ _ _ _).media
@[simp] theorem raiseAen_jr (s : State) (func typ info log : Nat) : (raiseAen s func typ info log).jr = s.jr := (raiseAen_quiet (Quiet.refl s) _ _ _ _).jr
@[simp] theorem raiseAen_tw (s : State) (func typ info log : Nat) : (raiseAen s func typ info log).tw = s.tw := (raiseAen_quiet (Quiet.refl s) _ _ _ _).tw
@[simp] theorem raiseAen_sup (s : State) (func typ info log : Nat) : (raiseAen s func typ info log).sup = s.sup := (raiseAen_quiet (Quiet.refl s) _ _ _ _).sup
@[simp] theorem raiseAen_boot (s : State) (func typ info log : Nat) : (raiseAen s func typ info log).boot = s.boot := (raiseAen_quiet (Quiet.refl s) _ _ _ _).boot
@[simp] theorem raiseAen_keys (s : State) (func typ info log : Nat) : (raiseAen s func typ info log).keys = s.keys := (raiseAen_quiet (Quiet.refl s) _ _ _ _).keys
@[simp] theorem raiseAen_ev (s : State) (func typ info log : Nat) : (raiseAen s func typ info log).ev = s.ev := (raiseAen_quiet (Quiet.refl s) _ _ _ _).ev
@[simp] theorem raiseAen_adm (s : State) (func typ info log : Nat) : (raiseAen s func typ info log).adm = s.adm := (raiseAen_quiet (Quiet.refl s) _ _ _ _).adm
@[simp] theorem raiseAen_time (s : State) (func typ info log : Nat) : (raiseAen s func typ info log).time = s.time := (raiseAen_quiet (Quiet.refl s) _ _ _ _).time
@[simp] theorem raiseAen_th (s : State) (func typ info log : Nat) : (raiseAen s func typ info log).th = s.th := (raiseAen_quiet (Quiet.refl s) _ _ _ _).th
@[simp] theorem raiseAen_pw (s : State) (func typ info log : Nat) : (raiseAen s func typ info log).pw = s.pw := (raiseAen_quiet (Quiet.refl s) _ _ _ _).pw
@[simp] theorem raiseAen_it (s : State) (func typ info log : Nat) : (raiseAen s func typ info log).it = s.it := (raiseAen_quiet (Quiet.refl s) _ _ _ _).it
@[simp] theorem raiseAen_tel (s : State) (func typ info log : Nat) : (raiseAen s func typ info log).tel = s.tel := (raiseAen_quiet (Quiet.refl s) _ _ _ _).tel
@[simp] theorem raiseAen_hist (s : State) (func typ info log : Nat) : (raiseAen s func typ info log).hist = s.hist := (raiseAen_quiet (Quiet.refl s) _ _ _ _).hist
@[simp] theorem raiseAen_free (s : State) (func typ info log : Nat) : (raiseAen s func typ info log).free = s.free := (raiseAen_quiet (Quiet.refl s) _ _ _ _).free
@[simp] theorem raiseAen_pending (s : State) (func typ info log : Nat) : (raiseAen s func typ info log).pending = s.pending := (raiseAen_quiet (Quiet.refl s) _ _ _ _).pending
@[simp] theorem raiseAen_cmds_port (s : State) (func typ info log : Nat) : (raiseAen s func typ info log).port.cmds = s.port.cmds := (raiseAen_quiet (Quiet.refl s) _ _ _ _).port_field (·.cmds) (fun _ => rfl)
@[simp] theorem raiseAen_sqs_port (s : State) (func typ info log : Nat) : (raiseAen s func typ info log).port.sqs = s.port.sqs := (raiseAen_quiet (Quiet.refl s) _ _ _ _).port_field (·.sqs) (fun _ => rfl)
@[simp] theorem raiseAen_perst_port (s : State) (func typ info log : Nat) : (raiseAen s func typ info log).port.perst = s.port.perst := (raiseAen_quiet (Quiet.refl s) _ _ _ _).port_field (·.perst) (fun _ => rfl)
@[simp] theorem raiseAen_training_port (s : State) (func typ info log : Nat) : (raiseAen s func typ info log).port.training = s.port.training := (raiseAen_quiet (Quiet.refl s) _ _ _ _).port_field (·.training) (fun _ => rfl)
@[simp] theorem raiseAen_ledger_port (s : State) (func typ info log : Nat) : (raiseAen s func typ info log).port.ledger = s.port.ledger := (raiseAen_quiet (Quiet.refl s) _ _ _ _).port_field (·.ledger) (fun _ => rfl)
@[simp] theorem raiseAen_readOut_port (s : State) (func typ info log : Nat) : (raiseAen s func typ info log).port.readOut = s.port.readOut := (raiseAen_quiet (Quiet.refl s) _ _ _ _).port_field (·.readOut) (fun _ => rfl)
@[simp] theorem raiseAen_mode_md (s : State) (func typ info log : Nat) : (raiseAen s func typ info log).md.mode = s.md.mode := (raiseAen_quiet (Quiet.refl s) _ _ _ _).md_field (·.mode) (fun _ _ => rfl)
@[simp] theorem raiseAen_prev_md (s : State) (func typ info log : Nat) : (raiseAen s func typ info log).md.prev = s.md.prev := (raiseAen_quiet (Quiet.refl s) _ _ _ _).md_field (·.prev) (fun _ _ => rfl)
@[simp] theorem raiseAen_capped_md (s : State) (func typ info log : Nat) : (raiseAen s func typ info log).md.capped = s.md.capped := (raiseAen_quiet (Quiet.refl s) _ _ _ _).md_field (·.capped) (fun _ _ => rfl)
@[simp] theorem raiseAen_rebuilding_md (s : State) (func typ info log : Nat) : (raiseAen s func typ info log).md.rebuilding = s.md.rebuilding := (raiseAen_quiet (Quiet.refl s) _ _ _ _).md_field (·.rebuilding) (fun _ _ => rfl)
@[simp] theorem raiseAen_resyncing_md (s : State) (func typ info log : Nat) : (raiseAen s func typ info log).md.resyncing = s.md.resyncing := (raiseAen_quiet (Quiet.refl s) _ _ _ _).md_field (·.resyncing) (fun _ _ => rfl)
@[simp] theorem raiseAen_writeThrough_md (s : State) (func typ info log : Nat) : (raiseAen s func typ info log).md.writeThrough = s.md.writeThrough := (raiseAen_quiet (Quiet.refl s) _ _ _ _).md_field (·.writeThrough) (fun _ _ => rfl)
@[simp] theorem raiseAen_timeDisc_md (s : State) (func typ info log : Nat) : (raiseAen s func typ info log).md.timeDisc = s.md.timeDisc := (raiseAen_quiet (Quiet.refl s) _ _ _ _).md_field (·.timeDisc) (fun _ _ => rfl)
@[simp] theorem raiseAen_qcause_md (s : State) (func typ info log : Nat) : (raiseAen s func typ info log).md.qcause = s.md.qcause := (raiseAen_quiet (Quiet.refl s) _ _ _ _).md_field (·.qcause) (fun _ _ => rfl)
@[simp] theorem raiseAen_pairServing_md (s : State) (func typ info log : Nat) : (raiseAen s func typ info log).md.pairServing = s.md.pairServing := (raiseAen_quiet (Quiet.refl s) _ _ _ _).md_field (·.pairServing) (fun _ _ => rfl)
@[simp] theorem raiseAen_recoveryScan_md (s : State) (func typ info log : Nat) : (raiseAen s func typ info log).md.recoveryScan = s.md.recoveryScan := (raiseAen_quiet (Quiet.refl s) _ _ _ _).md_field (·.recoveryScan) (fun _ _ => rfl)
@[simp] theorem raiseAen_seq_md (s : State) (func typ info log : Nat) : (raiseAen s func typ info log).md.seq = s.md.seq := (raiseAen_quiet (Quiet.refl s) _ _ _ _).md_field (·.seq) (fun _ _ => rfl)
@[simp] theorem raiseAen_ps4_md (s : State) (func typ info log : Nat) : (raiseAen s func typ info log).md.ps4 = s.md.ps4 := (raiseAen_quiet (Quiet.refl s) _ _ _ _).md_field (·.ps4) (fun _ _ => rfl)
@[simp] theorem raiseAen_entering_md (s : State) (func typ info log : Nat) : (raiseAen s func typ info log).md.entering = s.md.entering := (raiseAen_quiet (Quiet.refl s) _ _ _ _).md_field (·.entering) (fun _ _ => rfl)
@[simp] theorem raiseAen_holidayFrom_md (s : State) (func typ info log : Nat) : (raiseAen s func typ info log).md.holidayFrom = s.md.holidayFrom := (raiseAen_quiet (Quiet.refl s) _ _ _ _).md_field (·.holidayFrom) (fun _ _ => rfl)
@[simp] theorem raiseAen_selBefore_md (s : State) (func typ info log : Nat) : (raiseAen s func typ info log).md.selBefore = s.md.selBefore := (raiseAen_quiet (Quiet.refl s) _ _ _ _).md_field (·.selBefore) (fun _ _ => rfl)
@[simp] theorem raiseAen_waking_md (s : State) (func typ info log : Nat) : (raiseAen s func typ info log).md.waking = s.md.waking := (raiseAen_quiet (Quiet.refl s) _ _ _ _).md_field (·.waking) (fun _ _ => rfl)
@[simp] theorem raiseAen_adminWake_md (s : State) (func typ info log : Nat) : (raiseAen s func typ info log).md.adminWake = s.md.adminWake := (raiseAen_quiet (Quiet.refl s) _ _ _ _).md_field (·.adminWake) (fun _ _ => rfl)
@[simp] theorem raiseAen_rejectUntil_md (s : State) (func typ info log : Nat) : (raiseAen s func typ info log).md.rejectUntil = s.md.rejectUntil := (raiseAen_quiet (Quiet.refl s) _ _ _ _).md_field (·.rejectUntil) (fun _ _ => rfl)
@[simp] theorem raiseAen_path_md (s : State) (func typ info log : Nat) : (raiseAen s func typ info log).md.path = s.md.path := (raiseAen_quiet (Quiet.refl s) _ _ _ _).md_field (·.path) (fun _ _ => rfl)
@[simp] theorem raiseAen_cleanOff_md (s : State) (func typ info log : Nat) : (raiseAen s func typ info log).md.cleanOff = s.md.cleanOff := (raiseAen_quiet (Quiet.refl s) _ _ _ _).md_field (·.cleanOff) (fun _ _ => rfl)
@[simp] theorem raiseAen_recoveryAt_md (s : State) (func typ info log : Nat) : (raiseAen s func typ info log).md.recoveryAt = s.md.recoveryAt := (raiseAen_quiet (Quiet.refl s) _ _ _ _).md_field (·.recoveryAt) (fun _ _ => rfl)

@[simp] theorem raiseAll_part (s : State) (typ info log : Nat) : (raiseAll s typ info log).part = s.part := (raiseAll_quiet (Quiet.refl s) _ _ _).part
@[simp] theorem raiseAll_zn (s : State) (typ info log : Nat) : (raiseAll s typ info log).zn = s.zn := (raiseAll_quiet (Quiet.refl s) _ _ _).zn
@[simp] theorem raiseAll_cal (s : State) (typ info log : Nat) : (raiseAll s typ info log).cal = s.cal := (raiseAll_quiet (Quiet.refl s) _ _ _).cal
@[simp] theorem raiseAll_media (s : State) (typ info log : Nat) : (raiseAll s typ info log).media = s.media := (raiseAll_quiet (Quiet.refl s) _ _ _).media
@[simp] theorem raiseAll_jr (s : State) (typ info log : Nat) : (raiseAll s typ info log).jr = s.jr := (raiseAll_quiet (Quiet.refl s) _ _ _).jr
@[simp] theorem raiseAll_tw (s : State) (typ info log : Nat) : (raiseAll s typ info log).tw = s.tw := (raiseAll_quiet (Quiet.refl s) _ _ _).tw
@[simp] theorem raiseAll_sup (s : State) (typ info log : Nat) : (raiseAll s typ info log).sup = s.sup := (raiseAll_quiet (Quiet.refl s) _ _ _).sup
@[simp] theorem raiseAll_boot (s : State) (typ info log : Nat) : (raiseAll s typ info log).boot = s.boot := (raiseAll_quiet (Quiet.refl s) _ _ _).boot
@[simp] theorem raiseAll_keys (s : State) (typ info log : Nat) : (raiseAll s typ info log).keys = s.keys := (raiseAll_quiet (Quiet.refl s) _ _ _).keys
@[simp] theorem raiseAll_ev (s : State) (typ info log : Nat) : (raiseAll s typ info log).ev = s.ev := (raiseAll_quiet (Quiet.refl s) _ _ _).ev
@[simp] theorem raiseAll_adm (s : State) (typ info log : Nat) : (raiseAll s typ info log).adm = s.adm := (raiseAll_quiet (Quiet.refl s) _ _ _).adm
@[simp] theorem raiseAll_time (s : State) (typ info log : Nat) : (raiseAll s typ info log).time = s.time := (raiseAll_quiet (Quiet.refl s) _ _ _).time
@[simp] theorem raiseAll_th (s : State) (typ info log : Nat) : (raiseAll s typ info log).th = s.th := (raiseAll_quiet (Quiet.refl s) _ _ _).th
@[simp] theorem raiseAll_pw (s : State) (typ info log : Nat) : (raiseAll s typ info log).pw = s.pw := (raiseAll_quiet (Quiet.refl s) _ _ _).pw
@[simp] theorem raiseAll_it (s : State) (typ info log : Nat) : (raiseAll s typ info log).it = s.it := (raiseAll_quiet (Quiet.refl s) _ _ _).it
@[simp] theorem raiseAll_tel (s : State) (typ info log : Nat) : (raiseAll s typ info log).tel = s.tel := (raiseAll_quiet (Quiet.refl s) _ _ _).tel
@[simp] theorem raiseAll_hist (s : State) (typ info log : Nat) : (raiseAll s typ info log).hist = s.hist := (raiseAll_quiet (Quiet.refl s) _ _ _).hist
@[simp] theorem raiseAll_free (s : State) (typ info log : Nat) : (raiseAll s typ info log).free = s.free := (raiseAll_quiet (Quiet.refl s) _ _ _).free
@[simp] theorem raiseAll_pending (s : State) (typ info log : Nat) : (raiseAll s typ info log).pending = s.pending := (raiseAll_quiet (Quiet.refl s) _ _ _).pending
@[simp] theorem raiseAll_cmds_port (s : State) (typ info log : Nat) : (raiseAll s typ info log).port.cmds = s.port.cmds := (raiseAll_quiet (Quiet.refl s) _ _ _).port_field (·.cmds) (fun _ => rfl)
@[simp] theorem raiseAll_sqs_port (s : State) (typ info log : Nat) : (raiseAll s typ info log).port.sqs = s.port.sqs := (raiseAll_quiet (Quiet.refl s) _ _ _).port_field (·.sqs) (fun _ => rfl)
@[simp] theorem raiseAll_perst_port (s : State) (typ info log : Nat) : (raiseAll s typ info log).port.perst = s.port.perst := (raiseAll_quiet (Quiet.refl s) _ _ _).port_field (·.perst) (fun _ => rfl)
@[simp] theorem raiseAll_training_port (s : State) (typ info log : Nat) : (raiseAll s typ info log).port.training = s.port.training := (raiseAll_quiet (Quiet.refl s) _ _ _).port_field (·.training) (fun _ => rfl)
@[simp] theorem raiseAll_ledger_port (s : State) (typ info log : Nat) : (raiseAll s typ info log).port.ledger = s.port.ledger := (raiseAll_quiet (Quiet.refl s) _ _ _).port_field (·.ledger) (fun _ => rfl)
@[simp] theorem raiseAll_readOut_port (s : State) (typ info log : Nat) : (raiseAll s typ info log).port.readOut = s.port.readOut := (raiseAll_quiet (Quiet.refl s) _ _ _).port_field (·.readOut) (fun _ => rfl)
@[simp] theorem raiseAll_mode_md (s : State) (typ info log : Nat) : (raiseAll s typ info log).md.mode = s.md.mode := (raiseAll_quiet (Quiet.refl s) _ _ _).md_field (·.mode) (fun _ _ => rfl)
@[simp] theorem raiseAll_prev_md (s : State) (typ info log : Nat) : (raiseAll s typ info log).md.prev = s.md.prev := (raiseAll_quiet (Quiet.refl s) _ _ _).md_field (·.prev) (fun _ _ => rfl)
@[simp] theorem raiseAll_capped_md (s : State) (typ info log : Nat) : (raiseAll s typ info log).md.capped = s.md.capped := (raiseAll_quiet (Quiet.refl s) _ _ _).md_field (·.capped) (fun _ _ => rfl)
@[simp] theorem raiseAll_rebuilding_md (s : State) (typ info log : Nat) : (raiseAll s typ info log).md.rebuilding = s.md.rebuilding := (raiseAll_quiet (Quiet.refl s) _ _ _).md_field (·.rebuilding) (fun _ _ => rfl)
@[simp] theorem raiseAll_resyncing_md (s : State) (typ info log : Nat) : (raiseAll s typ info log).md.resyncing = s.md.resyncing := (raiseAll_quiet (Quiet.refl s) _ _ _).md_field (·.resyncing) (fun _ _ => rfl)
@[simp] theorem raiseAll_writeThrough_md (s : State) (typ info log : Nat) : (raiseAll s typ info log).md.writeThrough = s.md.writeThrough := (raiseAll_quiet (Quiet.refl s) _ _ _).md_field (·.writeThrough) (fun _ _ => rfl)
@[simp] theorem raiseAll_timeDisc_md (s : State) (typ info log : Nat) : (raiseAll s typ info log).md.timeDisc = s.md.timeDisc := (raiseAll_quiet (Quiet.refl s) _ _ _).md_field (·.timeDisc) (fun _ _ => rfl)
@[simp] theorem raiseAll_qcause_md (s : State) (typ info log : Nat) : (raiseAll s typ info log).md.qcause = s.md.qcause := (raiseAll_quiet (Quiet.refl s) _ _ _).md_field (·.qcause) (fun _ _ => rfl)
@[simp] theorem raiseAll_pairServing_md (s : State) (typ info log : Nat) : (raiseAll s typ info log).md.pairServing = s.md.pairServing := (raiseAll_quiet (Quiet.refl s) _ _ _).md_field (·.pairServing) (fun _ _ => rfl)
@[simp] theorem raiseAll_recoveryScan_md (s : State) (typ info log : Nat) : (raiseAll s typ info log).md.recoveryScan = s.md.recoveryScan := (raiseAll_quiet (Quiet.refl s) _ _ _).md_field (·.recoveryScan) (fun _ _ => rfl)
@[simp] theorem raiseAll_seq_md (s : State) (typ info log : Nat) : (raiseAll s typ info log).md.seq = s.md.seq := (raiseAll_quiet (Quiet.refl s) _ _ _).md_field (·.seq) (fun _ _ => rfl)
@[simp] theorem raiseAll_ps4_md (s : State) (typ info log : Nat) : (raiseAll s typ info log).md.ps4 = s.md.ps4 := (raiseAll_quiet (Quiet.refl s) _ _ _).md_field (·.ps4) (fun _ _ => rfl)
@[simp] theorem raiseAll_entering_md (s : State) (typ info log : Nat) : (raiseAll s typ info log).md.entering = s.md.entering := (raiseAll_quiet (Quiet.refl s) _ _ _).md_field (·.entering) (fun _ _ => rfl)
@[simp] theorem raiseAll_holidayFrom_md (s : State) (typ info log : Nat) : (raiseAll s typ info log).md.holidayFrom = s.md.holidayFrom := (raiseAll_quiet (Quiet.refl s) _ _ _).md_field (·.holidayFrom) (fun _ _ => rfl)
@[simp] theorem raiseAll_selBefore_md (s : State) (typ info log : Nat) : (raiseAll s typ info log).md.selBefore = s.md.selBefore := (raiseAll_quiet (Quiet.refl s) _ _ _).md_field (·.selBefore) (fun _ _ => rfl)
@[simp] theorem raiseAll_waking_md (s : State) (typ info log : Nat) : (raiseAll s typ info log).md.waking = s.md.waking := (raiseAll_quiet (Quiet.refl s) _ _ _).md_field (·.waking) (fun _ _ => rfl)
@[simp] theorem raiseAll_adminWake_md (s : State) (typ info log : Nat) : (raiseAll s typ info log).md.adminWake = s.md.adminWake := (raiseAll_quiet (Quiet.refl s) _ _ _).md_field (·.adminWake) (fun _ _ => rfl)
@[simp] theorem raiseAll_rejectUntil_md (s : State) (typ info log : Nat) : (raiseAll s typ info log).md.rejectUntil = s.md.rejectUntil := (raiseAll_quiet (Quiet.refl s) _ _ _).md_field (·.rejectUntil) (fun _ _ => rfl)
@[simp] theorem raiseAll_path_md (s : State) (typ info log : Nat) : (raiseAll s typ info log).md.path = s.md.path := (raiseAll_quiet (Quiet.refl s) _ _ _).md_field (·.path) (fun _ _ => rfl)
@[simp] theorem raiseAll_cleanOff_md (s : State) (typ info log : Nat) : (raiseAll s typ info log).md.cleanOff = s.md.cleanOff := (raiseAll_quiet (Quiet.refl s) _ _ _).md_field (·.cleanOff) (fun _ _ => rfl)
@[simp] theorem raiseAll_recoveryAt_md (s : State) (typ info log : Nat) : (raiseAll s typ info log).md.recoveryAt = s.md.recoveryAt := (raiseAll_quiet (Quiet.refl s) _ _ _).md_field (·.recoveryAt) (fun _ _ => rfl)

theorem sendMsix_posted (s : State) (func vec : Nat) : (sendMsix s func vec).port.posted = s.port.posted := by
  unfold sendMsix
  dsimp only
  split
  · rfl
  · split <;> rfl

/-- Announcing a completion posts no entry. -/
theorem notify_posted (s : State) (func cqid : Nat) (atOnce : Bool) : (notify s func cqid atOnce).port.posted = s.port.posted := by
  unfold notify
  split
  · rfl
  · dsimp only
    split
    · rfl
    · split
      · exact sendMsix_posted _ _ _
      · rfl

/-- What a completion posts (R86): where the mode posts, the controller is ready and the queue pair exists, exactly one entry at the end, with the command's identity, status and data. -/
theorem complete_posted (s : State) (func sqid cid : Nat) (st : Status) (dw0 dw1 : Nat) (data : List Nat) (sq : Sq) (cq : Cq)
    (hm : s.md.mode ≠ .measure ∧ s.md.mode ≠ .harvest) (hr : (ctrl s func).rdy = true)
    (hs : KV.find s.port.sqs (qkey func sqid) = some sq) (hc : KV.find s.port.cqs (qkey func sq.cqid) = some cq) :
    (complete s func sqid cid st dw0 dw1 data).port.posted =
      s.port.posted ++ [{ func := func, sqid := sqid, cid := cid, status := st, dw0 := dw0, dw1 := dw1, sqhd := sq.head, at_ := s.time.dtb, phase := cq.phase, data := data }] := by
  unfold complete
  simp only [hm.1, hm.2, or_self, if_false, hr, Bool.true_eq_false, hs, hc]
  split
  · exact (congrArg (·) (setCtrl_posted _ _ _)).trans (notify_posted _ _ _ _)
  · exact notify_posted _ _ _ _

/-- A controller of another state is posted nothing to. -/
theorem complete_silent (s : State) (func sqid cid : Nat) (st : Status) (dw0 dw1 : Nat) (data : List Nat)
    (h : s.md.mode = .measure ∨ s.md.mode = .harvest ∨ (ctrl s func).rdy = false) :
    complete s func sqid cid st dw0 dw1 data = s := by
  unfold complete
  rcases h with h | h | h
  · simp [h]
  · simp [h]
  · simp [h]

/-- The registers and resources of a controller: what completions and events leave alone. -/
def Ctrl.still (c : Ctrl) : Ctrl := { c with aers := [], waiting := [], masked := [], errs := [], errCount := 0, pba := [] }

theorem setCtrl_ctrl_still (s : State) (f j : Nat) (g : Ctrl → Ctrl) (h : ∀ c, (g c).still = c.still) : (ctrl (setCtrl s f g) j).still = (ctrl s j).still := by
  by_cases e : j = f
  · subst e; rw [ctrl_setCtrl_self, h]
  · rw [ctrl_setCtrl_other _ _ e]

theorem sendMsix_ctrl_still (s : State) (func vec j : Nat) : (ctrl (sendMsix s func vec) j).still = (ctrl s j).still := by
  unfold sendMsix
  dsimp only
  split
  · rfl
  · split
    · exact setCtrl_ctrl_still _ _ _ _ (fun _ => rfl)
    · rfl

theorem notify_ctrl_still (s : State) (func cqid : Nat) (atOnce : Bool) (j : Nat) : (ctrl (notify s func cqid atOnce) j).still = (ctrl s j).still := by
  unfold notify
  split
  · rfl
  · dsimp only
    split
    · rfl
    · split
      · exact sendMsix_ctrl_still _ _ _ _
      · rfl

theorem complete_ctrl_still (s : State) (func sqid cid : Nat) (st : Status) (dw0 dw1 : Nat) (data : List Nat) (j : Nat) :
    (ctrl (complete s func sqid cid st dw0 dw1 data) j).still = (ctrl s j).still := by
  unfold complete
  split
  · rfl
  · split
    · rfl
    · split
      · rfl
      · split
        · rfl
        · dsimp only
          split
          · refine (setCtrl_ctrl_still _ _ _ _ ?_).trans ?_
            · intro _; rfl
            · exact notify_ctrl_still _ _ _ _ _
          · exact notify_ctrl_still _ _ _ _ _

theorem raiseAen_ctrl_still (s : State) (func typ info log j : Nat) : (ctrl (raiseAen s func typ info log) j).still = (ctrl s j).still := by
  unfold raiseAen
  dsimp only
  split
  · rfl
  · split
    · exact setCtrl_ctrl_still _ _ _ _ (fun _ => rfl)
    · exact (complete_ctrl_still _ _ _ _ _ _ _ _ _).trans (setCtrl_ctrl_still _ _ _ _ (fun _ => rfl))

/-! ### Events (R419 to R425) -/

/-- The later state differs from the earlier at most in the host port, the events and the instant of the last admin completion. -/
structure Noted (c s : State) : Prop where
  part : s.part = c.part
  zn : s.zn = c.zn
  cal : s.cal = c.cal
  media : s.media = c.media
  jr : s.jr = c.jr
  tw : s.tw = c.tw
  sup : s.sup = c.sup
  boot : s.boot = c.boot
  keys : s.keys = c.keys
  adm : s.adm = c.adm
  time : s.time = c.time
  th : s.th = c.th
  pw : s.pw = c.pw
  it : s.it = c.it
  tel : s.tel = c.tel
  hist : s.hist = c.hist
  free : s.free = c.free
  pending : s.pending = c.pending
  port : s.port.still = c.port.still
  md : { s.md with lastAdminAt := c.md.lastAdminAt } = c.md

theorem Noted.refl (s : State) : Noted s s := ⟨rfl, rfl, rfl, rfl, rfl, rfl, rfl, rfl, rfl, rfl, rfl, rfl, rfl, rfl, rfl, rfl, rfl, rfl, rfl, rfl⟩

theorem Quiet.noted {c s t : State} (h : Noted c s) (k : Quiet s t) : Noted c t := by
  refine ⟨k.part.trans h.part, k.zn.trans h.zn, k.cal.trans h.cal, k.media.trans h.media, k.jr.trans h.jr, k.tw.trans h.tw, k.sup.trans h.sup, k.boot.trans h.boot, k.keys.trans h.keys, k.adm.trans h.adm, k.time.trans h.time, k.th.trans h.th, k.pw.trans h.pw, k.it.trans h.it, k.tel.trans h.tel, k.hist.trans h.hist, k.free.trans h.free, k.pending.trans h.pending, k.port.trans h.port, ?_⟩
  rw [← h.md, ← k.md]

theorem Noted.events {c s : State} (h : Noted c s) (e : Events) : Noted c { s with ev := e } := ⟨h.part, h.zn, h.cal, h.media, h.jr, h.tw, h.sup, h.boot, h.keys, h.adm, h.time, h.th, h.pw, h.it, h.tel, h.hist, h.free, h.pending, h.port, h.md⟩

theorem record_noted {c s : State} (h : Noted c s) (typ : Nat) (payload : List Nat) (func : Option Nat) (nsid key : Nat) :
    Noted c (record s typ payload func nsid key) := by
  unfold record pushEvent
  dsimp only
  split
  · exact h.events _
  · split
    · split
      · exact Quiet.noted (h.events _) (raiseAll_quiet (Quiet.refl _) _ _ _)
      · exact h.events _
    · split <;> split
      all_goals first
        | exact h.events _
        | exact Quiet.noted (h.events _) (raiseAll_quiet (Quiet.refl _) _ _ _)

theorem Noted.port_field {c s : State} (h : Noted c s) {α : Type} (f : Port → α) (hf : ∀ p : Port, f p.still = f p) : f s.port = f c.port :=
  ((hf s.port).symm.trans (congrArg f h.port)).trans (hf c.port)

theorem Noted.md_field {c s : State} (h : Noted c s) {α : Type} (f : ModeSt → α) (hf : ∀ m n, f { m with lastAdminAt := n } = f m) : f s.md = f c.md :=
  (hf s.md c.md.lastAdminAt).symm.trans (congrArg f h.md)

@[simp] theorem record_part (s : State) (typ : Nat) (payload : List Nat) (func : Option Nat) (nsid key : Nat) : (record s typ payload func nsid key).part = s.part := (record_noted (Noted.refl s) _ _ _ _ _).part
@[simp] theorem record_zn (s : State) (typ : Nat) (payload : List Nat) (func : Option Nat) (nsid key : Nat) : (record s typ payload func nsid key).zn = s.zn := (record_noted (Noted.refl s) _ _ _ _ _).zn
@[simp] theorem record_cal (s : State) (typ : Nat) (payload : List Nat) (func : Option Nat) (nsid key : Nat) : (record s typ payload func nsid key).cal = s.cal := (record_noted (Noted.refl s) _ _ _ _ _).cal
@[simp] theorem record_media (s : State) (typ : Nat) (payload : List Nat) (func : Option Nat) (nsid key : Nat) : (record s typ payload func nsid key).media = s.media := (record_noted (Noted.refl s) _ _ _ _ _).media
@[simp] theorem record_jr (s : State) (typ : Nat) (payload : List Nat) (func : Option Nat) (nsid key : Nat) : (record s typ payload func nsid key).jr = s.jr := (record_noted (Noted.refl s) _ _ _ _ _).jr
@[simp] theorem record_tw (s : State) (typ : Nat) (payload : List Nat) (func : Option Nat) (nsid key : Nat) : (record s typ payload func nsid key).tw = s.tw := (record_noted (Noted.refl s) _ _ _ _ _).tw
@[simp] theorem record_sup (s : State) (typ : Nat) (payload : List Nat) (func : Option Nat) (nsid key : Nat) : (record s typ payload func nsid key).sup = s.sup := (record_noted (Noted.refl s) _ _ _ _ _).sup
@[simp] theorem record_boot (s : State) (typ : Nat) (payload : List Nat) (func : Option Nat) (nsid key : Nat) : (record s typ payload func nsid key).boot = s.boot := (record_noted (Noted.refl s) _ _ _ _ _).boot
@[simp] theorem record_keys (s : State) (typ : Nat) (payload : List Nat) (func : Option Nat) (nsid key : Nat) : (record s typ payload func nsid key).keys = s.keys := (record_noted (Noted.refl s) _ _ _ _ _).keys
@[simp] theorem record_adm (s : State) (typ : Nat) (payload : List Nat) (func : Option Nat) (nsid key : Nat) : (record s typ payload func nsid key).adm = s.adm := (record_noted (Noted.refl s) _ _ _ _ _).adm
@[simp] theorem record_time (s : State) (typ : Nat) (payload : List Nat) (func : Option Nat) (nsid key : Nat) : (record s typ payload func nsid key).time = s.time := (record_noted (Noted.refl s) _ _ _ _ _).time
@[simp] theorem record_th (s : State) (typ : Nat) (payload : List Nat) (func : Option Nat) (nsid key : Nat) : (record s typ payload func nsid key).th = s.th := (record_noted (Noted.refl s) _ _ _ _ _).th
@[simp] theorem record_pw (s : State) (typ : Nat) (payload : List Nat) (func : Option Nat) (nsid key : Nat) : (record s typ payload func nsid key).pw = s.pw := (record_noted (Noted.refl s) _ _ _ _ _).pw
@[simp] theorem record_it (s : State) (typ : Nat) (payload : List Nat) (func : Option Nat) (nsid key : Nat) : (record s typ payload func nsid key).it = s.it := (record_noted (Noted.refl s) _ _ _ _ _).it
@[simp] theorem record_tel (s : State) (typ : Nat) (payload : List Nat) (func : Option Nat) (nsid key : Nat) : (record s typ payload func nsid key).tel = s.tel := (record_noted (Noted.refl s) _ _ _ _ _).tel
@[simp] theorem record_hist (s : State) (typ : Nat) (payload : List Nat) (func : Option Nat) (nsid key : Nat) : (record s typ payload func nsid key).hist = s.hist := (record_noted (Noted.refl s) _ _ _ _ _).hist
@[simp] theorem record_free (s : State) (typ : Nat) (payload : List Nat) (func : Option Nat) (nsid key : Nat) : (record s typ payload func nsid key).free = s.free := (record_noted (Noted.refl s) _ _ _ _ _).free
@[simp] theorem record_pending (s : State) (typ : Nat) (payload : List Nat) (func : Option Nat) (nsid key : Nat) : (record s typ payload func nsid key).pending = s.pending := (record_noted (Noted.refl s) _ _ _ _ _).pending
@[simp] theorem record_cmds_port (s : State) (typ : Nat) (payload : List Nat) (func : Option Nat) (nsid key : Nat) : (record s typ payload func nsid key).port.cmds = s.port.cmds := (record_noted (Noted.refl s) _ _ _ _ _).port_field (·.cmds) (fun _ => rfl)
@[simp] theorem record_sqs_port (s : State) (typ : Nat) (payload : List Nat) (func : Option Nat) (nsid key : Nat) : (record s typ payload func nsid key).port.sqs = s.port.sqs := (record_noted (Noted.refl s) _ _ _ _ _).port_field (·.sqs) (fun _ => rfl)
@[simp] theorem record_perst_port (s : State) (typ : Nat) (payload : List Nat) (func : Option Nat) (nsid key : Nat) : (record s typ payload func nsid key).port.perst = s.port.perst := (record_noted (Noted.refl s) _ _ _ _ _).port_field (·.perst) (fun _ => rfl)
@[simp] theorem record_training_port (s : State) (typ : Nat) (payload : List Nat) (func : Option Nat) (nsid key : Nat) : (record s typ payload func nsid key).port.training = s.port.training := (record_noted (Noted.refl s) _ _ _ _ _).port_field (·.training) (fun _ => rfl)
@[simp] theorem record_ledger_port (s : State) (typ : Nat) (payload : List Nat) (func : Option Nat) (nsid key : Nat) : (record s typ payload func nsid key).port.ledger = s.port.ledger := (record_noted (Noted.refl s) _ _ _ _ _).port_field (·.ledger) (fun _ => rfl)
@[simp] theorem record_readOut_port (s : State) (typ : Nat) (payload : List Nat) (func : Option Nat) (nsid key : Nat) : (record s typ payload func nsid key).port.readOut = s.port.readOut := (record_noted (Noted.refl s) _ _ _ _ _).port_field (·.readOut) (fun _ => rfl)
@[simp] theorem record_mode_md (s : State) (typ : Nat) (payload : List Nat) (func : Option Nat) (nsid key : Nat) : (record s typ payload func nsid key).md.mode = s.md.mode := (record_noted (Noted.refl s) _ _ _ _ _).md_field (·.mode) (fun _ _ => rfl)
@[simp] theorem record_prev_md (s : State) (typ : Nat) (payload : List Nat) (func : Option Nat) (nsid key : Nat) : (record s typ payload func nsid key).md.prev = s.md.prev := (record_noted (Noted.refl s) _ _ _ _ _).md_field (·.prev) (fun _ _ => rfl)
@[simp] theorem record_capped_md (s : State) (typ : Nat) (payload : List Nat) (func : Option Nat) (nsid key : Nat) : (record s typ payload func nsid key).md.capped = s.md.capped := (record_noted (Noted.refl s) _ _ _ _ _).md_field (·.capped) (fun _ _ => rfl)
@[simp] theorem record_rebuilding_md (s : State) (typ : Nat) (payload : List Nat) (func : Option Nat) (nsid key : Nat) : (record s typ payload func nsid key).md.rebuilding = s.md.rebuilding := (record_noted (Noted.refl s) _ _ _ _ _).md_field (·.rebuilding) (fun _ _ => rfl)
@[simp] theorem record_resyncing_md (s : State) (typ : Nat) (payload : List Nat) (func : Option Nat) (nsid key : Nat) : (record s typ payload func nsid key).md.resyncing = s.md.resyncing := (record_noted (Noted.refl s) _ _ _ _ _).md_field (·.resyncing) (fun _ _ => rfl)
@[simp] theorem record_writeThrough_md (s : State) (typ : Nat) (payload : List Nat) (func : Option Nat) (nsid key : Nat) : (record s typ payload func nsid key).md.writeThrough = s.md.writeThrough := (record_noted (Noted.refl s) _ _ _ _ _).md_field (·.writeThrough) (fun _ _ => rfl)
@[simp] theorem record_timeDisc_md (s : State) (typ : Nat) (payload : List Nat) (func : Option Nat) (nsid key : Nat) : (record s typ payload func nsid key).md.timeDisc = s.md.timeDisc := (record_noted (Noted.refl s) _ _ _ _ _).md_field (·.timeDisc) (fun _ _ => rfl)
@[simp] theorem record_qcause_md (s : State) (typ : Nat) (payload : List Nat) (func : Option Nat) (nsid key : Nat) : (record s typ payload func nsid key).md.qcause = s.md.qcause := (record_noted (Noted.refl s) _ _ _ _ _).md_field (·.qcause) (fun _ _ => rfl)
@[simp] theorem record_pairServing_md (s : State) (typ : Nat) (payload : List Nat) (func : Option Nat) (nsid key : Nat) : (record s typ payload func nsid key).md.pairServing = s.md.pairServing := (record_noted (Noted.refl s) _ _ _ _ _).md_field (·.pairServing) (fun _ _ => rfl)
@[simp] theorem record_recoveryScan_md (s : State) (typ : Nat) (payload : List Nat) (func : Option Nat) (nsid key : Nat) : (record s typ payload func nsid key).md.recoveryScan = s.md.recoveryScan := (record_noted (Noted.refl s) _ _ _ _ _).md_field (·.recoveryScan) (fun _ _ => rfl)
@[simp] theorem record_seq_md (s : State) (typ : Nat) (payload : List Nat) (func : Option Nat) (nsid key : Nat) : (record s typ payload func nsid key).md.seq = s.md.seq := (record_noted (Noted.refl s) _ _ _ _ _).md_field (·.seq) (fun _ _ => rfl)
@[simp] theorem record_ps4_md (s : State) (typ : Nat) (payload : List Nat) (func : Option Nat) (nsid key : Nat) : (record s typ payload func nsid key).md.ps4 = s.md.ps4 := (record_noted (Noted.refl s) _ _ _ _ _).md_field (·.ps4) (fun _ _ => rfl)
@[simp] theorem record_entering_md (s : State) (typ : Nat) (payload : List Nat) (func : Option Nat) (nsid key : Nat) : (record s typ payload func nsid key).md.entering = s.md.entering := (record_noted (Noted.refl s) _ _ _ _ _).md_field (·.entering) (fun _ _ => rfl)
@[simp] theorem record_holidayFrom_md (s : State) (typ : Nat) (payload : List Nat) (func : Option Nat) (nsid key : Nat) : (record s typ payload func nsid key).md.holidayFrom = s.md.holidayFrom := (record_noted (Noted.refl s) _ _ _ _ _).md_field (·.holidayFrom) (fun _ _ => rfl)
@[simp] theorem record_selBefore_md (s : State) (typ : Nat) (payload : List Nat) (func : Option Nat) (nsid key : Nat) : (record s typ payload func nsid key).md.selBefore = s.md.selBefore := (record_noted (Noted.refl s) _ _ _ _ _).md_field (·.selBefore) (fun _ _ => rfl)
@[simp] theorem record_waking_md (s : State) (typ : Nat) (payload : List Nat) (func : Option Nat) (nsid key : Nat) : (record s typ payload func nsid key).md.waking = s.md.waking := (record_noted (Noted.refl s) _ _ _ _ _).md_field (·.waking) (fun _ _ => rfl)
@[simp] theorem record_adminWake_md (s : State) (typ : Nat) (payload : List Nat) (func : Option Nat) (nsid key : Nat) : (record s typ payload func nsid key).md.adminWake = s.md.adminWake := (record_noted (Noted.refl s) _ _ _ _ _).md_field (·.adminWake) (fun _ _ => rfl)
@[simp] theorem record_rejectUntil_md (s : State) (typ : Nat) (payload : List Nat) (func : Option Nat) (nsid key : Nat) : (record s typ payload func nsid key).md.rejectUntil = s.md.rejectUntil := (record_noted (Noted.refl s) _ _ _ _ _).md_field (·.rejectUntil) (fun _ _ => rfl)
@[simp] theorem record_path_md (s : State) (typ : Nat) (payload : List Nat) (func : Option Nat) (nsid key : Nat) : (record s typ payload func nsid key).md.path = s.md.path := (record_noted (Noted.refl s) _ _ _ _ _).md_field (·.path) (fun _ _ => rfl)
@[simp] theorem record_cleanOff_md (s : State) (typ : Nat) (payload : List Nat) (func : Option Nat) (nsid key : Nat) : (record s typ payload func nsid key).md.cleanOff = s.md.cleanOff := (record_noted (Noted.refl s) _ _ _ _ _).md_field (·.cleanOff) (fun _ _ => rfl)
@[simp] theorem record_recoveryAt_md (s : State) (typ : Nat) (payload : List Nat) (func : Option Nat) (nsid key : Nat) : (record s typ payload func nsid key).md.recoveryAt = s.md.recoveryAt := (record_noted (Noted.refl s) _ _ _ _ _).md_field (·.recoveryAt) (fun _ _ => rfl)

/-! ### Flags, power, path states -/

/-- The parts that a change of the flags, the power state, readiness or the mode leaves alone. -/
structure Calm (c s : State) : Prop where
  part : s.part = c.part
  cal : s.cal = c.cal
  media : s.media = c.media
  jr : s.jr = c.jr
  tw : s.tw = c.tw
  sup : s.sup = c.sup
  boot : s.boot = c.boot
  keys : s.keys = c.keys
  time : s.time = c.time
  it : s.it = c.it
  tel : s.tel = c.tel
  free : s.free = c.free
  pending : s.pending = c.pending
  store : s.zn.store = c.zn.store
  port : s.port.still = c.port.still

theorem Calm.refl (s : State) : Calm s s := ⟨rfl, rfl, rfl, rfl, rfl, rfl, rfl, rfl, rfl, rfl, rfl, rfl, rfl, rfl, rfl⟩

theorem Calm.trans {a b c : State} (h : Calm a b) (k : Calm b c) : Calm a c :=
  ⟨k.part.trans h.part, k.cal.trans h.cal, k.media.trans h.media, k.jr.trans h.jr, k.tw.trans h.tw, k.sup.trans h.sup, k.boot.trans h.boot, k.keys.trans h.keys, k.time.trans h.time, k.it.trans h.it, k.tel.trans h.tel, k.free.trans h.free, k.pending.trans h.pending, k.store.trans h.store, k.port.trans h.port⟩

theorem Calm.port_field {c s : State} (h : Calm c s) {α : Type} (f : Port → α) (hf : ∀ p : Port, f p.still = f p) : f s.port = f c.port :=
  ((hf s.port).symm.trans (congrArg f h.port)).trans (hf c.port)

theorem Quiet.calm {c s : State} (h : Quiet c s) : Calm c s := ⟨h.part, h.cal, h.media, h.jr, h.tw, h.sup, h.boot, h.keys, h.time, h.it, h.tel, h.free, h.pending, by rw [h.zn], h.port⟩

theorem Noted.calm {c s : State} (h : Noted c s) : Calm c s := ⟨h.part, h.cal, h.media, h.jr, h.tw, h.sup, h.boot, h.keys, h.time, h.it, h.tel, h.free, h.pending, by rw [h.zn], h.port⟩

theorem record_calm (s : State) (typ : Nat) (payload : List Nat) (func : Option Nat) (nsid key : Nat) : Calm s (record s typ payload func nsid key) :=
  (record_noted (Noted.refl s) _ _ _ _ _).calm

theorem noteFlags_calm (b s : State) : Calm s (noteFlags b s) := by
  unfold noteFlags
  split
  · exact Calm.refl s
  · exact record_calm _ _ _ _ _ _

theorem setFlags_calm (s : State) (f : ModeSt → ModeSt) : Calm s (setFlags s f) := by
  unfold setFlags
  have h : Calm s { (if flagsCode (f s.md) = flagsCode s.md then s else keepMode s) with md := f s.md } := by
    split <;> exact ⟨rfl, rfl, rfl, rfl, rfl, rfl, rfl, rfl, rfl, rfl, rfl, rfl, rfl, rfl, rfl⟩
  exact h.trans (noteFlags_calm _ _)

theorem refreshPower_calm (s : State) : Calm s (refreshPower s) := by
  unfold refreshPower
  refine Calm.trans ?_ (setFlags_calm _ _)
  exact ⟨rfl, rfl, rfl, rfl, rfl, rfl, rfl, rfl, rfl, rfl, rfl, rfl, rfl, rfl, rfl⟩

theorem updateReady_calm (s : State) : Calm s (updateReady s) := by
  unfold updateReady ccsSet
  dsimp only
  split <;> exact ⟨rfl, rfl, rfl, rfl, rfl, rfl, rfl, rfl, rfl, rfl, rfl, rfl, rfl, rfl, rfl⟩

/-- Readiness changes the controllers and the status that the sideband reads, nothing else (R52). -/
theorem updateReady_port (s : State) : (updateReady s).port = { s.port with ctrls := KV.mapVals s.port.ctrls (fun _ c => { c with rdy := c.rdy || readyNow s c }) } := by
  unfold updateReady ccsSet
  dsimp only
  split <;> rfl

theorem updateReady_frame (s : State) : updateReady s = { s with port := (updateReady s).port, adm := (updateReady s).adm } := by
  unfold updateReady ccsSet
  dsimp only
  split <;> rfl

theorem raiseEach_quiet (s : State) (l : List Nat) (typ info log : Nat) : Quiet s (l.foldl (fun s f => raiseAen s f typ info log) s) := by
  induction l generalizing s with
  | nil => exact Quiet.refl s
  | cons f l ih => exact (raiseAen_quiet (Quiet.refl s) _ _ _ _).trans (ih _)

theorem updateAna_calm (s : State) : Calm s (updateAna s) := by
  unfold updateAna
  generalize s.zn.ns = l
  induction l generalizing s with
  | nil => exact Calm.refl s
  | cons p l ih =>
    refine Calm.trans ?_ (ih _)
    dsimp only
    split
    · exact Calm.refl s
    · refine Calm.trans ?_ (raiseEach_quiet _ _ _ _ _).calm
      exact ⟨rfl, rfl, rfl, rfl, rfl, rfl, rfl, rfl, rfl, rfl, rfl, rfl, rfl, rfl, rfl⟩

/-- A mode change leaves the queues of commands, the media, the journal, the twin link, the supply, the boot state, the keys, time and content alone (R38, R41). -/
theorem enterMode_calm (s : State) (m : Mode) (qcause : Nat) (serving : Bool) : Calm s (enterMode s m qcause serving) := by
  unfold enterMode
  refine Calm.trans ?_ (updateAna_calm _)
  refine Calm.trans ?_ (refreshPower_calm _)
  refine Calm.trans ?_ (updateReady_calm _)
  refine Calm.trans ?_ (record_calm _ _ _ _ _ _)
  exact ⟨rfl, rfl, rfl, rfl, rfl, rfl, rfl, rfl, rfl, rfl, rfl, rfl, rfl, rfl, rfl⟩

/-! ### Messages -/

/-- Encrypting a message queues a request of the cipher engines (R396). -/
theorem sealMsg_frame (s : State) (typ tag : Nat) (body : List Nat) : sealMsg s typ tag body = { s with it := (sealMsg s typ tag body).it } := by
  unfold sealMsg
  split <;> rfl

/-- A message changes the link state and the cipher engines' queues alone (R294, R297, R396). -/
theorem send_frame (s : State) (typ tag : Nat) (body : List Nat) :
    send s typ tag body = { s with tw := (send s typ tag body).tw, it := (send s typ tag body).it } := by
  unfold send
  split
  · conv_lhs => rw [sealMsg_frame]
  · rfl

/-- With the link down nothing is sent. -/
theorem send_down (s : State) (typ tag : Nat) (body : List Nat) (h : s.tw.linkUp = false) : send s typ tag body = s := by
  simp [send, h]

/-- The link state without its flit sender. -/
def Twin.still (t : Twin) : Twin := { t with waits := [], fseqNext := 0, replay := [], sinceBulk := 0, crPri := 0, crBulk := 0 }

/-- Sending flits touches the flit sender alone (R294, R297). -/
theorem sendFlits_still (n : Nat) (t : Twin) : (sendFlits n t).still = t.still := by
  induction n generalizing t with
  | zero => rfl
  | succ n ih =>
    unfold sendFlits
    cases nextKind t with
    | none => rfl
    | some k => exact (ih _).trans rfl

/-- Forming a message's flits touches the flit sender alone (R296). -/
theorem formFlits_still (t : Twin) (cls k : Nat) : (formFlits t cls k).still = t.still := (sendFlits_still 512 _).trans rfl

theorem formFlits_field {α : Type} (t : Twin) (cls k : Nat) (f : Twin → α) (hf : ∀ t : Twin, f t.still = f t) : f (formFlits t cls k) = f t :=
  ((hf _).symm.trans (congrArg f (formFlits_still t cls k))).trans (hf t)

/-- With the link up the message is the last one out, under the sender's PEPOCH and key phase. -/
theorem send_out (s : State) (typ tag : Nat) (body : List Nat) (h : s.tw.linkUp = true) :
    (send s typ tag body).tw.out = s.tw.out ++ [{ hdr := { typ := typ, tag := tag, pepoch := s.jr.pepoch.toNat, phase := s.tw.keyPhase }, body := body, image := msgImage s typ tag body, nonce := msgNonce s typ }] := by
  unfold send
  simp only [h, if_true]
  split
  · rfl
  · rw [formFlits_field s.tw _ _ (·.out) (fun _ => rfl), formFlits_field s.tw _ _ (·.keyPhase) (fun _ => rfl)]

@[simp] theorem send_part (s : State) (typ tag : Nat) (body : List Nat) : (send s typ tag body).part = s.part := by rw [send_frame]
@[simp] theorem send_md (s : State) (typ tag : Nat) (body : List Nat) : (send s typ tag body).md = s.md := by rw [send_frame]
@[simp] theorem send_port (s : State) (typ tag : Nat) (body : List Nat) : (send s typ tag body).port = s.port := by rw [send_frame]
@[simp] theorem send_zn (s : State) (typ tag : Nat) (body : List Nat) : (send s typ tag body).zn = s.zn := by rw [send_frame]
@[simp] theorem send_cal (s : State) (typ tag : Nat) (body : List Nat) : (send s typ tag body).cal = s.cal := by rw [send_frame]
@[simp] theorem send_media (s : State) (typ tag : Nat) (body : List Nat) : (send s typ tag body).media = s.media := by rw [send_frame]
@[simp] theorem send_jr (s : State) (typ tag : Nat) (body : List Nat) : (send s typ tag body).jr = s.jr := by rw [send_frame]
@[simp] theorem send_sup (s : State) (typ tag : Nat) (body : List Nat) : (send s typ tag body).sup = s.sup := by rw [send_frame]
@[simp] theorem send_boot (s : State) (typ tag : Nat) (body : List Nat) : (send s typ tag body).boot = s.boot := by rw [send_frame]
@[simp] theorem send_keys (s : State) (typ tag : Nat) (body : List Nat) : (send s typ tag body).keys = s.keys := by rw [send_frame]
@[simp] theorem send_ev (s : State) (typ tag : Nat) (body : List Nat) : (send s typ tag body).ev = s.ev := by rw [send_frame]
@[simp] theorem send_adm (s : State) (typ tag : Nat) (body : List Nat) : (send s typ tag body).adm = s.adm := by rw [send_frame]
@[simp] theorem send_time (s : State) (typ tag : Nat) (body : List Nat) : (send s typ tag body).time = s.time := by rw [send_frame]
@[simp] theorem send_th (s : State) (typ tag : Nat) (body : List Nat) : (send s typ tag body).th = s.th := by rw [send_frame]
@[simp] theorem send_pw (s : State) (typ tag : Nat) (body : List Nat) : (send s typ tag body).pw = s.pw := by rw [send_frame]
@[simp] theorem send_tel (s : State) (typ tag : Nat) (body : List Nat) : (send s typ tag body).tel = s.tel := by rw [send_frame]
@[simp] theorem send_hist (s : State) (typ tag : Nat) (body : List Nat) : (send s typ tag body).hist = s.hist := by rw [send_frame]
@[simp] theorem send_free (s : State) (typ tag : Nat) (body : List Nat) : (send s typ tag body).free = s.free := by rw [send_frame]
@[simp] theorem send_pending (s : State) (typ tag : Nat) (body : List Nat) : (send s typ tag body).pending = s.pending := by rw [send_frame]

@[simp] theorem setFlags_part (s : State) (f : ModeSt → ModeSt) : (setFlags s f).part = s.part := (setFlags_calm s f).part
@[simp] theorem setFlags_cal (s : State) (f : ModeSt → ModeSt) : (setFlags s f).cal = s.cal := (setFlags_calm s f).cal
@[simp] theorem setFlags_media (s : State) (f : ModeSt → ModeSt) : (setFlags s f).media = s.media := (setFlags_calm s f).media
@[simp] theorem setFlags_jr (s : State) (f : ModeSt → ModeSt) : (setFlags s f).jr = s.jr := (setFlags_calm s f).jr
@[simp] theorem setFlags_tw (s : State) (f : ModeSt → ModeSt) : (setFlags s f).tw = s.tw := (setFlags_calm s f).tw
@[simp] theorem setFlags_sup (s : State) (f : ModeSt → ModeSt) : (setFlags s f).sup = s.sup := (setFlags_calm s f).sup
@[simp] theorem setFlags_boot (s : State) (f : ModeSt → ModeSt) : (setFlags s f).boot = s.boot := (setFlags_calm s f).boot
@[simp] theorem setFlags_keys (s : State) (f : ModeSt → ModeSt) : (setFlags s f).keys = s.keys := (setFlags_calm s f).keys
@[simp] theorem setFlags_time (s : State) (f : ModeSt → ModeSt) : (setFlags s f).time = s.time := (setFlags_calm s f).time
@[simp] theorem setFlags_it (s : State) (f : ModeSt → ModeSt) : (setFlags s f).it = s.it := (setFlags_calm s f).it
@[simp] theorem setFlags_tel (s : State) (f : ModeSt → ModeSt) : (setFlags s f).tel = s.tel := (setFlags_calm s f).tel
@[simp] theorem setFlags_free (s : State) (f : ModeSt → ModeSt) : (setFlags s f).free = s.free := (setFlags_calm s f).free
@[simp] theorem setFlags_pending (s : State) (f : ModeSt → ModeSt) : (setFlags s f).pending = s.pending := (setFlags_calm s f).pending
@[simp] theorem setFlags_cmds_port (s : State) (f : ModeSt → ModeSt) : (setFlags s f).port.cmds = s.port.cmds := (setFlags_calm s f).port_field (·.cmds) (fun _ => rfl)
@[simp] theorem setFlags_sqs_port (s : State) (f : ModeSt → ModeSt) : (setFlags s f).port.sqs = s.port.sqs := (setFlags_calm s f).port_field (·.sqs) (fun _ => rfl)
@[simp] theorem setFlags_perst_port (s : State) (f : ModeSt → ModeSt) : (setFlags s f).port.perst = s.port.perst := (setFlags_calm s f).port_field (·.perst) (fun _ => rfl)
@[simp] theorem setFlags_training_port (s : State) (f : ModeSt → ModeSt) : (setFlags s f).port.training = s.port.training := (setFlags_calm s f).port_field (·.training) (fun _ => rfl)
@[simp] theorem setFlags_ledger_port (s : State) (f : ModeSt → ModeSt) : (setFlags s f).port.ledger = s.port.ledger := (setFlags_calm s f).port_field (·.ledger) (fun _ => rfl)
@[simp] theorem setFlags_readOut_port (s : State) (f : ModeSt → ModeSt) : (setFlags s f).port.readOut = s.port.readOut := (setFlags_calm s f).port_field (·.readOut) (fun _ => rfl)
@[simp] theorem setFlags_store (s : State) (f : ModeSt → ModeSt) : (setFlags s f).zn.store = s.zn.store := (setFlags_calm s f).store

@[simp] theorem refreshPower_part (s : State) : (refreshPower s).part = s.part := (refreshPower_calm s).part
@[simp] theorem refreshPower_cal (s : State) : (refreshPower s).cal = s.cal := (refreshPower_calm s).cal
@[simp] theorem refreshPower_media (s : State) : (refreshPower s).media = s.media := (refreshPower_calm s).media
@[simp] theorem refreshPower_jr (s : State) : (refreshPower s).jr = s.jr := (refreshPower_calm s).jr
@[simp] theorem refreshPower_tw (s : State) : (refreshPower s).tw = s.tw := (refreshPower_calm s).tw
@[simp] theorem refreshPower_sup (s : State) : (refreshPower s).sup = s.sup := (refreshPower_calm s).sup
@[simp] theorem refreshPower_boot (s : State) : (refreshPower s).boot = s.boot := (refreshPower_calm s).boot
@[simp] theorem refreshPower_keys (s : State) : (refreshPower s).keys = s.keys := (refreshPower_calm s).keys
@[simp] theorem refreshPower_time (s : State) : (refreshPower s).time = s.time := (refreshPower_calm s).time
@[simp] theorem refreshPower_it (s : State) : (refreshPower s).it = s.it := (refreshPower_calm s).it
@[simp] theorem refreshPower_tel (s : State) : (refreshPower s).tel = s.tel := (refreshPower_calm s).tel
@[simp] theorem refreshPower_free (s : State) : (refreshPower s).free = s.free := (refreshPower_calm s).free
@[simp] theorem refreshPower_pending (s : State) : (refreshPower s).pending = s.pending := (refreshPower_calm s).pending
@[simp] theorem refreshPower_cmds_port (s : State) : (refreshPower s).port.cmds = s.port.cmds := (refreshPower_calm s).port_field (·.cmds) (fun _ => rfl)
@[simp] theorem refreshPower_sqs_port (s : State) : (refreshPower s).port.sqs = s.port.sqs := (refreshPower_calm s).port_field (·.sqs) (fun _ => rfl)
@[simp] theorem refreshPower_perst_port (s : State) : (refreshPower s).port.perst = s.port.perst := (refreshPower_calm s).port_field (·.perst) (fun _ => rfl)
@[simp] theorem refreshPower_training_port (s : State) : (refreshPower s).port.training = s.port.training := (refreshPower_calm s).port_field (·.training) (fun _ => rfl)
@[simp] theorem refreshPower_ledger_port (s : State) : (refreshPower s).port.ledger = s.port.ledger := (refreshPower_calm s).port_field (·.ledger) (fun _ => rfl)
@[simp] theorem refreshPower_readOut_port (s : State) : (refreshPower s).port.readOut = s.port.readOut := (refreshPower_calm s).port_field (·.readOut) (fun _ => rfl)
@[simp] theorem refreshPower_store (s : State) : (refreshPower s).zn.store = s.zn.store := (refreshPower_calm s).store

@[simp] theorem updateReady_part (s : State) : (updateReady s).part = s.part := (updateReady_calm s).part
@[simp] theorem updateReady_cal (s : State) : (updateReady s).cal = s.cal := (updateReady_calm s).cal
@[simp] theorem updateReady_media (s : State) : (updateReady s).media = s.media := (updateReady_calm s).media
@[simp] theorem updateReady_jr (s : State) : (updateReady s).jr = s.jr := (updateReady_calm s).jr
@[simp] theorem updateReady_tw (s : State) : (updateReady s).tw = s.tw := (updateReady_calm s).tw
@[simp] theorem updateReady_sup (s : State) : (updateReady s).sup = s.sup := (updateReady_calm s).sup
@[simp] theorem updateReady_boot (s : State) : (updateReady s).boot = s.boot := (updateReady_calm s).boot
@[simp] theorem updateReady_keys (s : State) : (updateReady s).keys = s.keys := (updateReady_calm s).keys
@[simp] theorem updateReady_time (s : State) : (updateReady s).time = s.time := (updateReady_calm s).time
@[simp] theorem updateReady_it (s : State) : (updateReady s).it = s.it := (updateReady_calm s).it
@[simp] theorem updateReady_tel (s : State) : (updateReady s).tel = s.tel := (updateReady_calm s).tel
@[simp] theorem updateReady_free (s : State) : (updateReady s).free = s.free := (updateReady_calm s).free
@[simp] theorem updateReady_pending (s : State) : (updateReady s).pending = s.pending := (updateReady_calm s).pending
@[simp] theorem updateReady_cmds_port (s : State) : (updateReady s).port.cmds = s.port.cmds := (updateReady_calm s).port_field (·.cmds) (fun _ => rfl)
@[simp] theorem updateReady_sqs_port (s : State) : (updateReady s).port.sqs = s.port.sqs := (updateReady_calm s).port_field (·.sqs) (fun _ => rfl)
@[simp] theorem updateReady_perst_port (s : State) : (updateReady s).port.perst = s.port.perst := (updateReady_calm s).port_field (·.perst) (fun _ => rfl)
@[simp] theorem updateReady_training_port (s : State) : (updateReady s).port.training = s.port.training := (updateReady_calm s).port_field (·.training) (fun _ => rfl)
@[simp] theorem updateReady_ledger_port (s : State) : (updateReady s).port.ledger = s.port.ledger := (updateReady_calm s).port_field (·.ledger) (fun _ => rfl)
@[simp] theorem updateReady_readOut_port (s : State) : (updateReady s).port.readOut = s.port.readOut := (updateReady_calm s).port_field (·.readOut) (fun _ => rfl)
@[simp] theorem updateReady_store (s : State) : (updateReady s).zn.store = s.zn.store := (updateReady_calm s).store

@[simp] theorem updateAna_part (s : State) : (updateAna s).part = s.part := (updateAna_calm s).part
@[simp] theorem updateAna_cal (s : State) : (updateAna s).cal = s.cal := (updateAna_calm s).cal
@[simp] theorem updateAna_media (s : State) : (updateAna s).media = s.media := (updateAna_calm s).media
@[simp] theorem updateAna_jr (s : State) : (updateAna s).jr = s.jr := (updateAna_calm s).jr
@[simp] theorem updateAna_tw (s : State) : (updateAna s).tw = s.tw := (updateAna_calm s).tw
@[simp] theorem updateAna_sup (s : State) : (updateAna s).sup = s.sup := (updateAna_calm s).sup
@[simp] theorem updateAna_boot (s : State) : (updateAna s).boot = s.boot := (updateAna_calm s).boot
@[simp] theorem updateAna_keys (s : State) : (updateAna s).keys = s.keys := (updateAna_calm s).keys
@[simp] theorem updateAna_time (s : State) : (updateAna s).time = s.time := (updateAna_calm s).time
@[simp] theorem updateAna_it (s : State) : (updateAna s).it = s.it := (updateAna_calm s).it
@[simp] theorem updateAna_tel (s : State) : (updateAna s).tel = s.tel := (updateAna_calm s).tel
@[simp] theorem updateAna_free (s : State) : (updateAna s).free = s.free := (updateAna_calm s).free
@[simp] theorem updateAna_pending (s : State) : (updateAna s).pending = s.pending := (updateAna_calm s).pending
@[simp] theorem updateAna_cmds_port (s : State) : (updateAna s).port.cmds = s.port.cmds := (updateAna_calm s).port_field (·.cmds) (fun _ => rfl)
@[simp] theorem updateAna_sqs_port (s : State) : (updateAna s).port.sqs = s.port.sqs := (updateAna_calm s).port_field (·.sqs) (fun _ => rfl)
@[simp] theorem updateAna_perst_port (s : State) : (updateAna s).port.perst = s.port.perst := (updateAna_calm s).port_field (·.perst) (fun _ => rfl)
@[simp] theorem updateAna_training_port (s : State) : (updateAna s).port.training = s.port.training := (updateAna_calm s).port_field (·.training) (fun _ => rfl)
@[simp] theorem updateAna_ledger_port (s : State) : (updateAna s).port.ledger = s.port.ledger := (updateAna_calm s).port_field (·.ledger) (fun _ => rfl)
@[simp] theorem updateAna_readOut_port (s : State) : (updateAna s).port.readOut = s.port.readOut := (updateAna_calm s).port_field (·.readOut) (fun _ => rfl)
@[simp] theorem updateAna_store (s : State) : (updateAna s).zn.store = s.zn.store := (updateAna_calm s).store

@[simp] theorem enterMode_part (s : State) (m : Mode) (qcause : Nat) (serving : Bool) : (enterMode s m qcause serving).part = s.part := (enterMode_calm s m qcause serving).part
@[simp] theorem enterMode_cal (s : State) (m : Mode) (qcause : Nat) (serving : Bool) : (enterMode s m qcause serving).cal = s.cal := (enterMode_calm s m qcause serving).cal
@[simp] theorem enterMode_media (s : State) (m : Mode) (qcause : Nat) (serving : Bool) : (enterMode s m qcause serving).media = s.media := (enterMode_calm s m qcause serving).media
@[simp] theorem enterMode_jr (s : State) (m : Mode) (qcause : Nat) (serving : Bool) : (enterMode s m qcause serving).jr = s.jr := (enterMode_calm s m qcause serving).jr
@[simp] theorem enterMode_tw (s : State) (m : Mode) (qcause : Nat) (serving : Bool) : (enterMode s m qcause serving).tw = s.tw := (enterMode_calm s m qcause serving).tw
@[simp] theorem enterMode_sup (s : State) (m : Mode) (qcause : Nat) (serving : Bool) : (enterMode s m qcause serving).sup = s.sup := (enterMode_calm s m qcause serving).sup
@[simp] theorem enterMode_boot (s : State) (m : Mode) (qcause : Nat) (serving : Bool) : (enterMode s m qcause serving).boot = s.boot := (enterMode_calm s m qcause serving).boot
@[simp] theorem enterMode_keys (s : State) (m : Mode) (qcause : Nat) (serving : Bool) : (enterMode s m qcause serving).keys = s.keys := (enterMode_calm s m qcause serving).keys
@[simp] theorem enterMode_time (s : State) (m : Mode) (qcause : Nat) (serving : Bool) : (enterMode s m qcause serving).time = s.time := (enterMode_calm s m qcause serving).time
@[simp] theorem enterMode_it (s : State) (m : Mode) (qcause : Nat) (serving : Bool) : (enterMode s m qcause serving).it = s.it := (enterMode_calm s m qcause serving).it
@[simp] theorem enterMode_tel (s : State) (m : Mode) (qcause : Nat) (serving : Bool) : (enterMode s m qcause serving).tel = s.tel := (enterMode_calm s m qcause serving).tel
@[simp] theorem enterMode_free (s : State) (m : Mode) (qcause : Nat) (serving : Bool) : (enterMode s m qcause serving).free = s.free := (enterMode_calm s m qcause serving).free
@[simp] theorem enterMode_pending (s : State) (m : Mode) (qcause : Nat) (serving : Bool) : (enterMode s m qcause serving).pending = s.pending := (enterMode_calm s m qcause serving).pending
@[simp] theorem enterMode_cmds_port (s : State) (m : Mode) (qcause : Nat) (serving : Bool) : (enterMode s m qcause serving).port.cmds = s.port.cmds := (enterMode_calm s m qcause serving).port_field (·.cmds) (fun _ => rfl)
@[simp] theorem enterMode_sqs_port (s : State) (m : Mode) (qcause : Nat) (serving : Bool) : (enterMode s m qcause serving).port.sqs = s.port.sqs := (enterMode_calm s m qcause serving).port_field (·.sqs) (fun _ => rfl)
@[simp] theorem enterMode_perst_port (s : State) (m : Mode) (qcause : Nat) (serving : Bool) : (enterMode s m qcause serving).port.perst = s.port.perst := (enterMode_calm s m qcause serving).port_field (·.perst) (fun _ => rfl)
@[simp] theorem enterMode_training_port (s : State) (m : Mode) (qcause : Nat) (serving : Bool) : (enterMode s m qcause serving).port.training = s.port.training := (enterMode_calm s m qcause serving).port_field (·.training) (fun _ => rfl)
@[simp] theorem enterMode_ledger_port (s : State) (m : Mode) (qcause : Nat) (serving : Bool) : (enterMode s m qcause serving).port.ledger = s.port.ledger := (enterMode_calm s m qcause serving).port_field (·.ledger) (fun _ => rfl)
@[simp] theorem enterMode_readOut_port (s : State) (m : Mode) (qcause : Nat) (serving : Bool) : (enterMode s m qcause serving).port.readOut = s.port.readOut := (enterMode_calm s m qcause serving).port_field (·.readOut) (fun _ => rfl)
@[simp] theorem enterMode_store (s : State) (m : Mode) (qcause : Nat) (serving : Bool) : (enterMode s m qcause serving).zn.store = s.zn.store := (enterMode_calm s m qcause serving).store

/-! ### The mode and the flags after them -/

theorem noteFlags_md_field {α : Type} (b s : State) (f : ModeSt → α) (hf : ∀ m n, f { m with lastAdminAt := n } = f m) :
    f (noteFlags b s).md = f s.md := by
  unfold noteFlags
  split
  · rfl
  · exact (record_noted (Noted.refl _) _ _ _ _ _).md_field f hf

theorem setFlags_md_field {α : Type} (s : State) (g : ModeSt → ModeSt) (f : ModeSt → α) (hf : ∀ m n, f { m with lastAdminAt := n } = f m) :
    f (setFlags s g).md = f (g s.md) := by
  unfold setFlags
  exact noteFlags_md_field _ _ f hf

theorem refreshPower_md_field {α : Type} (s : State) (f : ModeSt → α) (hf : ∀ m n, f { m with lastAdminAt := n } = f m)
    (hc : ∀ m b, f { m with capped := b } = f m) : f (refreshPower s).md = f s.md := by
  unfold refreshPower
  exact (setFlags_md_field _ _ f hf).trans (hc _ _)

theorem updateReady_md (s : State) : (updateReady s).md = s.md := by
  unfold updateReady ccsSet
  dsimp only
  split <;> rfl

theorem updateAna_md_field {α : Type} (s : State) (f : ModeSt → α) (hf : ∀ m n, f { m with lastAdminAt := n } = f m) :
    f (updateAna s).md = f s.md := by
  unfold updateAna
  generalize s.zn.ns = l
  induction l generalizing s with
  | nil => rfl
  | cons p l ih =>
    refine (ih _).trans ?_
    dsimp only
    split
    · rfl
    · exact (raiseEach_quiet _ _ _ _ _).md_field f hf
@[simp] theorem setFlags_mode_md (s : State) (g : ModeSt → ModeSt) : (setFlags s g).md.mode = (g s.md).mode := setFlags_md_field s g (·.mode) (fun _ _ => rfl)
@[simp] theorem setFlags_prev_md (s : State) (g : ModeSt → ModeSt) : (setFlags s g).md.prev = (g s.md).prev := setFlags_md_field s g (·.prev) (fun _ _ => rfl)
@[simp] theorem setFlags_capped_md (s : State) (g : ModeSt → ModeSt) : (setFlags s g).md.capped = (g s.md).capped := setFlags_md_field s g (·.capped) (fun _ _ => rfl)
@[simp] theorem setFlags_rebuilding_md (s : State) (g : ModeSt → ModeSt) : (setFlags s g).md.rebuilding = (g s.md).rebuilding := setFlags_md_field s g (·.rebuilding) (fun _ _ => rfl)
@[simp] theorem setFlags_resyncing_md (s : State) (g : ModeSt → ModeSt) : (setFlags s g).md.resyncing = (g s.md).resyncing := setFlags_md_field s g (·.resyncing) (fun _ _ => rfl)
@[simp] theorem setFlags_writeThrough_md (s : State) (g : ModeSt → ModeSt) : (setFlags s g).md.writeThrough = (g s.md).writeThrough := setFlags_md_field s g (·.writeThrough) (fun _ _ => rfl)
@[simp] theorem setFlags_timeDisc_md (s : State) (g : ModeSt → ModeSt) : (setFlags s g).md.timeDisc = (g s.md).timeDisc := setFlags_md_field s g (·.timeDisc) (fun _ _ => rfl)
@[simp] theorem setFlags_qcause_md (s : State) (g : ModeSt → ModeSt) : (setFlags s g).md.qcause = (g s.md).qcause := setFlags_md_field s g (·.qcause) (fun _ _ => rfl)
@[simp] theorem setFlags_pairServing_md (s : State) (g : ModeSt → ModeSt) : (setFlags s g).md.pairServing = (g s.md).pairServing := setFlags_md_field s g (·.pairServing) (fun _ _ => rfl)
@[simp] theorem setFlags_recoveryScan_md (s : State) (g : ModeSt → ModeSt) : (setFlags s g).md.recoveryScan = (g s.md).recoveryScan := setFlags_md_field s g (·.recoveryScan) (fun _ _ => rfl)
@[simp] theorem setFlags_seq_md (s : State) (g : ModeSt → ModeSt) : (setFlags s g).md.seq = (g s.md).seq := setFlags_md_field s g (·.seq) (fun _ _ => rfl)
@[simp] theorem setFlags_ps4_md (s : State) (g : ModeSt → ModeSt) : (setFlags s g).md.ps4 = (g s.md).ps4 := setFlags_md_field s g (·.ps4) (fun _ _ => rfl)
@[simp] theorem setFlags_entering_md (s : State) (g : ModeSt → ModeSt) : (setFlags s g).md.entering = (g s.md).entering := setFlags_md_field s g (·.entering) (fun _ _ => rfl)
@[simp] theorem setFlags_holidayFrom_md (s : State) (g : ModeSt → ModeSt) : (setFlags s g).md.holidayFrom = (g s.md).holidayFrom := setFlags_md_field s g (·.holidayFrom) (fun _ _ => rfl)
@[simp] theorem setFlags_selBefore_md (s : State) (g : ModeSt → ModeSt) : (setFlags s g).md.selBefore = (g s.md).selBefore := setFlags_md_field s g (·.selBefore) (fun _ _ => rfl)
@[simp] theorem setFlags_waking_md (s : State) (g : ModeSt → ModeSt) : (setFlags s g).md.waking = (g s.md).waking := setFlags_md_field s g (·.waking) (fun _ _ => rfl)
@[simp] theorem setFlags_adminWake_md (s : State) (g : ModeSt → ModeSt) : (setFlags s g).md.adminWake = (g s.md).adminWake := setFlags_md_field s g (·.adminWake) (fun _ _ => rfl)
@[simp] theorem setFlags_rejectUntil_md (s : State) (g : ModeSt → ModeSt) : (setFlags s g).md.rejectUntil = (g s.md).rejectUntil := setFlags_md_field s g (·.rejectUntil) (fun _ _ => rfl)
@[simp] theorem setFlags_path_md (s : State) (g : ModeSt → ModeSt) : (setFlags s g).md.path = (g s.md).path := setFlags_md_field s g (·.path) (fun _ _ => rfl)
@[simp] theorem setFlags_cleanOff_md (s : State) (g : ModeSt → ModeSt) : (setFlags s g).md.cleanOff = (g s.md).cleanOff := setFlags_md_field s g (·.cleanOff) (fun _ _ => rfl)
@[simp] theorem setFlags_recoveryAt_md (s : State) (g : ModeSt → ModeSt) : (setFlags s g).md.recoveryAt = (g s.md).recoveryAt := setFlags_md_field s g (·.recoveryAt) (fun _ _ => rfl)
@[simp] theorem refreshPower_mode_md (s : State) : (refreshPower s).md.mode = s.md.mode := refreshPower_md_field s (·.mode) (fun _ _ => rfl) (fun _ _ => rfl)
@[simp] theorem refreshPower_prev_md (s : State) : (refreshPower s).md.prev = s.md.prev := refreshPower_md_field s (·.prev) (fun _ _ => rfl) (fun _ _ => rfl)
@[simp] theorem refreshPower_rebuilding_md (s : State) : (refreshPower s).md.rebuilding = s.md.rebuilding := refreshPower_md_field s (·.rebuilding) (fun _ _ => rfl) (fun _ _ => rfl)
@[simp] theorem refreshPower_resyncing_md (s : State) : (refreshPower s).md.resyncing = s.md.resyncing := refreshPower_md_field s (·.resyncing) (fun _ _ => rfl) (fun _ _ => rfl)
@[simp] theorem refreshPower_writeThrough_md (s : State) : (refreshPower s).md.writeThrough = s.md.writeThrough := refreshPower_md_field s (·.writeThrough) (fun _ _ => rfl) (fun _ _ => rfl)
@[simp] theorem refreshPower_timeDisc_md (s : State) : (refreshPower s).md.timeDisc = s.md.timeDisc := refreshPower_md_field s (·.timeDisc) (fun _ _ => rfl) (fun _ _ => rfl)
@[simp] theorem refreshPower_qcause_md (s : State) : (refreshPower s).md.qcause = s.md.qcause := refreshPower_md_field s (·.qcause) (fun _ _ => rfl) (fun _ _ => rfl)
@[simp] theorem refreshPower_pairServing_md (s : State) : (refreshPower s).md.pairServing = s.md.pairServing := refreshPower_md_field s (·.pairServing) (fun _ _ => rfl) (fun _ _ => rfl)
@[simp] theorem refreshPower_recoveryScan_md (s : State) : (refreshPower s).md.recoveryScan = s.md.recoveryScan := refreshPower_md_field s (·.recoveryScan) (fun _ _ => rfl) (fun _ _ => rfl)
@[simp] theorem refreshPower_seq_md (s : State) : (refreshPower s).md.seq = s.md.seq := refreshPower_md_field s (·.seq) (fun _ _ => rfl) (fun _ _ => rfl)
@[simp] theorem refreshPower_ps4_md (s : State) : (refreshPower s).md.ps4 = s.md.ps4 := refreshPower_md_field s (·.ps4) (fun _ _ => rfl) (fun _ _ => rfl)
@[simp] theorem refreshPower_entering_md (s : State) : (refreshPower s).md.entering = s.md.entering := refreshPower_md_field s (·.entering) (fun _ _ => rfl) (fun _ _ => rfl)
@[simp] theorem refreshPower_holidayFrom_md (s : State) : (refreshPower s).md.holidayFrom = s.md.holidayFrom := refreshPower_md_field s (·.holidayFrom) (fun _ _ => rfl) (fun _ _ => rfl)
@[simp] theorem refreshPower_selBefore_md (s : State) : (refreshPower s).md.selBefore = s.md.selBefore := refreshPower_md_field s (·.selBefore) (fun _ _ => rfl) (fun _ _ => rfl)
@[simp] theorem refreshPower_waking_md (s : State) : (refreshPower s).md.waking = s.md.waking := refreshPower_md_field s (·.waking) (fun _ _ => rfl) (fun _ _ => rfl)
@[simp] theorem refreshPower_adminWake_md (s : State) : (refreshPower s).md.adminWake = s.md.adminWake := refreshPower_md_field s (·.adminWake) (fun _ _ => rfl) (fun _ _ => rfl)
@[simp] theorem refreshPower_rejectUntil_md (s : State) : (refreshPower s).md.rejectUntil = s.md.rejectUntil := refreshPower_md_field s (·.rejectUntil) (fun _ _ => rfl) (fun _ _ => rfl)
@[simp] theorem refreshPower_path_md (s : State) : (refreshPower s).md.path = s.md.path := refreshPower_md_field s (·.path) (fun _ _ => rfl) (fun _ _ => rfl)
@[simp] theorem refreshPower_cleanOff_md (s : State) : (refreshPower s).md.cleanOff = s.md.cleanOff := refreshPower_md_field s (·.cleanOff) (fun _ _ => rfl) (fun _ _ => rfl)
@[simp] theorem refreshPower_recoveryAt_md (s : State) : (refreshPower s).md.recoveryAt = s.md.recoveryAt := refreshPower_md_field s (·.recoveryAt) (fun _ _ => rfl) (fun _ _ => rfl)
@[simp] theorem updateReady_mode_md (s : State) : (updateReady s).md.mode = s.md.mode := by rw [updateReady_md]
@[simp] theorem updateReady_prev_md (s : State) : (updateReady s).md.prev = s.md.prev := by rw [updateReady_md]
@[simp] theorem updateReady_capped_md (s : State) : (updateReady s).md.capped = s.md.capped := by rw [updateReady_md]
@[simp] theorem updateReady_rebuilding_md (s : State) : (updateReady s).md.rebuilding = s.md.rebuilding := by rw [updateReady_md]
@[simp] theorem updateReady_resyncing_md (s : State) : (updateReady s).md.resyncing = s.md.resyncing := by rw [updateReady_md]
@[simp] theorem updateReady_writeThrough_md (s : State) : (updateReady s).md.writeThrough = s.md.writeThrough := by rw [updateReady_md]
@[simp] theorem updateReady_timeDisc_md (s : State) : (updateReady s).md.timeDisc = s.md.timeDisc := by rw [updateReady_md]
@[simp] theorem updateReady_qcause_md (s : State) : (updateReady s).md.qcause = s.md.qcause := by rw [updateReady_md]
@[simp] theorem updateReady_pairServing_md (s : State) : (updateReady s).md.pairServing = s.md.pairServing := by rw [updateReady_md]
@[simp] theorem updateReady_recoveryScan_md (s : State) : (updateReady s).md.recoveryScan = s.md.recoveryScan := by rw [updateReady_md]
@[simp] theorem updateReady_seq_md (s : State) : (updateReady s).md.seq = s.md.seq := by rw [updateReady_md]
@[simp] theorem updateReady_ps4_md (s : State) : (updateReady s).md.ps4 = s.md.ps4 := by rw [updateReady_md]
@[simp] theorem updateReady_entering_md (s : State) : (updateReady s).md.entering = s.md.entering := by rw [updateReady_md]
@[simp] theorem updateReady_holidayFrom_md (s : State) : (updateReady s).md.holidayFrom = s.md.holidayFrom := by rw [updateReady_md]
@[simp] theorem updateReady_selBefore_md (s : State) : (updateReady s).md.selBefore = s.md.selBefore := by rw [updateReady_md]
@[simp] theorem updateReady_waking_md (s : State) : (updateReady s).md.waking = s.md.waking := by rw [updateReady_md]
@[simp] theorem updateReady_adminWake_md (s : State) : (updateReady s).md.adminWake = s.md.adminWake := by rw [updateReady_md]
@[simp] theorem updateReady_rejectUntil_md (s : State) : (updateReady s).md.rejectUntil = s.md.rejectUntil := by rw [updateReady_md]
@[simp] theorem updateReady_path_md (s : State) : (updateReady s).md.path = s.md.path := by rw [updateReady_md]
@[simp] theorem updateReady_cleanOff_md (s : State) : (updateReady s).md.cleanOff = s.md.cleanOff := by rw [updateReady_md]
@[simp] theorem updateReady_recoveryAt_md (s : State) : (updateReady s).md.recoveryAt = s.md.recoveryAt := by rw [updateReady_md]
@[simp] theorem updateAna_mode_md (s : State) : (updateAna s).md.mode = s.md.mode := updateAna_md_field s (·.mode) (fun _ _ => rfl)
@[simp] theorem updateAna_prev_md (s : State) : (updateAna s).md.prev = s.md.prev := updateAna_md_field s (·.prev) (fun _ _ => rfl)
@[simp] theorem updateAna_capped_md (s : State) : (updateAna s).md.capped = s.md.capped := updateAna_md_field s (·.capped) (fun _ _ => rfl)
@[simp] theorem updateAna_rebuilding_md (s : State) : (updateAna s).md.rebuilding = s.md.rebuilding := updateAna_md_field s (·.rebuilding) (fun _ _ => rfl)
@[simp] theorem updateAna_resyncing_md (s : State) : (updateAna s).md.resyncing = s.md.resyncing := updateAna_md_field s (·.resyncing) (fun _ _ => rfl)
@[simp] theorem updateAna_writeThrough_md (s : State) : (updateAna s).md.writeThrough = s.md.writeThrough := updateAna_md_field s (·.writeThrough) (fun _ _ => rfl)
@[simp] theorem updateAna_timeDisc_md (s : State) : (updateAna s).md.timeDisc = s.md.timeDisc := updateAna_md_field s (·.timeDisc) (fun _ _ => rfl)
@[simp] theorem updateAna_qcause_md (s : State) : (updateAna s).md.qcause = s.md.qcause := updateAna_md_field s (·.qcause) (fun _ _ => rfl)
@[simp] theorem updateAna_pairServing_md (s : State) : (updateAna s).md.pairServing = s.md.pairServing := updateAna_md_field s (·.pairServing) (fun _ _ => rfl)
@[simp] theorem updateAna_recoveryScan_md (s : State) : (updateAna s).md.recoveryScan = s.md.recoveryScan := updateAna_md_field s (·.recoveryScan) (fun _ _ => rfl)
@[simp] theorem updateAna_seq_md (s : State) : (updateAna s).md.seq = s.md.seq := updateAna_md_field s (·.seq) (fun _ _ => rfl)
@[simp] theorem updateAna_ps4_md (s : State) : (updateAna s).md.ps4 = s.md.ps4 := updateAna_md_field s (·.ps4) (fun _ _ => rfl)
@[simp] theorem updateAna_entering_md (s : State) : (updateAna s).md.entering = s.md.entering := updateAna_md_field s (·.entering) (fun _ _ => rfl)
@[simp] theorem updateAna_holidayFrom_md (s : State) : (updateAna s).md.holidayFrom = s.md.holidayFrom := updateAna_md_field s (·.holidayFrom) (fun _ _ => rfl)
@[simp] theorem updateAna_selBefore_md (s : State) : (updateAna s).md.selBefore = s.md.selBefore := updateAna_md_field s (·.selBefore) (fun _ _ => rfl)
@[simp] theorem updateAna_waking_md (s : State) : (updateAna s).md.waking = s.md.waking := updateAna_md_field s (·.waking) (fun _ _ => rfl)
@[simp] theorem updateAna_adminWake_md (s : State) : (updateAna s).md.adminWake = s.md.adminWake := updateAna_md_field s (·.adminWake) (fun _ _ => rfl)
@[simp] theorem updateAna_rejectUntil_md (s : State) : (updateAna s).md.rejectUntil = s.md.rejectUntil := updateAna_md_field s (·.rejectUntil) (fun _ _ => rfl)
@[simp] theorem updateAna_path_md (s : State) : (updateAna s).md.path = s.md.path := updateAna_md_field s (·.path) (fun _ _ => rfl)
@[simp] theorem updateAna_cleanOff_md (s : State) : (updateAna s).md.cleanOff = s.md.cleanOff := updateAna_md_field s (·.cleanOff) (fun _ _ => rfl)
@[simp] theorem updateAna_recoveryAt_md (s : State) : (updateAna s).md.recoveryAt = s.md.recoveryAt := updateAna_md_field s (·.recoveryAt) (fun _ _ => rfl)

theorem enterMode_md_field {α : Type} (s : State) (m : Mode) (qcause : Nat) (serving : Bool) (f : ModeSt → α)
    (hf : ∀ m n, f { m with lastAdminAt := n } = f m) (hc : ∀ m b, f { m with capped := b } = f m) :
    f (enterMode s m qcause serving).md = f { s.md with mode := m, prev := s.md.mode, qcause := qcause, pairServing := serving, seq := s.md.seq + 1 } := by
  unfold enterMode
  refine (updateAna_md_field _ f hf).trans ?_
  refine (refreshPower_md_field _ f hf hc).trans ?_
  rw [updateReady_md]
  exact (record_noted (Noted.refl _) _ _ _ _ _).md_field f hf
@[simp] theorem enterMode_mode_md (s : State) (m : Mode) (qcause : Nat) (serving : Bool) : (enterMode s m qcause serving).md.mode = m := enterMode_md_field s m qcause serving (·.mode) (fun _ _ => rfl) (fun _ _ => rfl)
@[simp] theorem enterMode_prev_md (s : State) (m : Mode) (qcause : Nat) (serving : Bool) : (enterMode s m qcause serving).md.prev = s.md.mode := enterMode_md_field s m qcause serving (·.prev) (fun _ _ => rfl) (fun _ _ => rfl)
@[simp] theorem enterMode_rebuilding_md (s : State) (m : Mode) (qcause : Nat) (serving : Bool) : (enterMode s m qcause serving).md.rebuilding = s.md.rebuilding := enterMode_md_field s m qcause serving (·.rebuilding) (fun _ _ => rfl) (fun _ _ => rfl)
@[simp] theorem enterMode_resyncing_md (s : State) (m : Mode) (qcause : Nat) (serving : Bool) : (enterMode s m qcause serving).md.resyncing = s.md.resyncing := enterMode_md_field s m qcause serving (·.resyncing) (fun _ _ => rfl) (fun _ _ => rfl)
@[simp] theorem enterMode_writeThrough_md (s : State) (m : Mode) (qcause : Nat) (serving : Bool) : (enterMode s m qcause serving).md.writeThrough = s.md.writeThrough := enterMode_md_field s m qcause serving (·.writeThrough) (fun _ _ => rfl) (fun _ _ => rfl)
@[simp] theorem enterMode_timeDisc_md (s : State) (m : Mode) (qcause : Nat) (serving : Bool) : (enterMode s m qcause serving).md.timeDisc = s.md.timeDisc := enterMode_md_field s m qcause serving (·.timeDisc) (fun _ _ => rfl) (fun _ _ => rfl)
@[simp] theorem enterMode_qcause_md (s : State) (m : Mode) (qcause : Nat) (serving : Bool) : (enterMode s m qcause serving).md.qcause = qcause := enterMode_md_field s m qcause serving (·.qcause) (fun _ _ => rfl) (fun _ _ => rfl)
@[simp] theorem enterMode_pairServing_md (s : State) (m : Mode) (qcause : Nat) (serving : Bool) : (enterMode s m qcause serving).md.pairServing = serving := enterMode_md_field s m qcause serving (·.pairServing) (fun _ _ => rfl) (fun _ _ => rfl)
@[simp] theorem enterMode_recoveryScan_md (s : State) (m : Mode) (qcause : Nat) (serving : Bool) : (enterMode s m qcause serving).md.recoveryScan = s.md.recoveryScan := enterMode_md_field s m qcause serving (·.recoveryScan) (fun _ _ => rfl) (fun _ _ => rfl)
@[simp] theorem enterMode_seq_md (s : State) (m : Mode) (qcause : Nat) (serving : Bool) : (enterMode s m qcause serving).md.seq = s.md.seq + 1 := enterMode_md_field s m qcause serving (·.seq) (fun _ _ => rfl) (fun _ _ => rfl)
@[simp] theorem enterMode_ps4_md (s : State) (m : Mode) (qcause : Nat) (serving : Bool) : (enterMode s m qcause serving).md.ps4 = s.md.ps4 := enterMode_md_field s m qcause serving (·.ps4) (fun _ _ => rfl) (fun _ _ => rfl)
@[simp] theorem enterMode_entering_md (s : State) (m : Mode) (qcause : Nat) (serving : Bool) : (enterMode s m qcause serving).md.entering = s.md.entering := enterMode_md_field s m qcause serving (·.entering) (fun _ _ => rfl) (fun _ _ => rfl)
@[simp] theorem enterMode_holidayFrom_md (s : State) (m : Mode) (qcause : Nat) (serving : Bool) : (enterMode s m qcause serving).md.holidayFrom = s.md.holidayFrom := enterMode_md_field s m qcause serving (·.holidayFrom) (fun _ _ => rfl) (fun _ _ => rfl)
@[simp] theorem enterMode_selBefore_md (s : State) (m : Mode) (qcause : Nat) (serving : Bool) : (enterMode s m qcause serving).md.selBefore = s.md.selBefore := enterMode_md_field s m qcause serving (·.selBefore) (fun _ _ => rfl) (fun _ _ => rfl)
@[simp] theorem enterMode_waking_md (s : State) (m : Mode) (qcause : Nat) (serving : Bool) : (enterMode s m qcause serving).md.waking = s.md.waking := enterMode_md_field s m qcause serving (·.waking) (fun _ _ => rfl) (fun _ _ => rfl)
@[simp] theorem enterMode_adminWake_md (s : State) (m : Mode) (qcause : Nat) (serving : Bool) : (enterMode s m qcause serving).md.adminWake = s.md.adminWake := enterMode_md_field s m qcause serving (·.adminWake) (fun _ _ => rfl) (fun _ _ => rfl)
@[simp] theorem enterMode_rejectUntil_md (s : State) (m : Mode) (qcause : Nat) (serving : Bool) : (enterMode s m qcause serving).md.rejectUntil = s.md.rejectUntil := enterMode_md_field s m qcause serving (·.rejectUntil) (fun _ _ => rfl) (fun _ _ => rfl)
@[simp] theorem enterMode_path_md (s : State) (m : Mode) (qcause : Nat) (serving : Bool) : (enterMode s m qcause serving).md.path = s.md.path := enterMode_md_field s m qcause serving (·.path) (fun _ _ => rfl) (fun _ _ => rfl)
@[simp] theorem enterMode_cleanOff_md (s : State) (m : Mode) (qcause : Nat) (serving : Bool) : (enterMode s m qcause serving).md.cleanOff = s.md.cleanOff := enterMode_md_field s m qcause serving (·.cleanOff) (fun _ _ => rfl) (fun _ _ => rfl)
@[simp] theorem enterMode_recoveryAt_md (s : State) (m : Mode) (qcause : Nat) (serving : Bool) : (enterMode s m qcause serving).md.recoveryAt = s.md.recoveryAt := enterMode_md_field s m qcause serving (·.recoveryAt) (fun _ _ => rfl) (fun _ _ => rfl)

@[simp] theorem setFlags_zn (s : State) (g : ModeSt → ModeSt) : (setFlags s g).zn = s.zn := by
  unfold setFlags noteFlags
  split <;> split
  all_goals first
    | rfl
    | (refine (record_zn _ _ _ _ _ _).trans ?_; rfl)

@[simp] theorem setFlags_adm (s : State) (g : ModeSt → ModeSt) : (setFlags s g).adm = s.adm := by
  unfold setFlags noteFlags
  split <;> split
  all_goals first
    | rfl
    | (refine (record_adm _ _ _ _ _ _).trans ?_; rfl)

@[simp] theorem setFlags_pw (s : State) (g : ModeSt → ModeSt) : (setFlags s g).pw = s.pw := by
  unfold setFlags noteFlags
  split <;> split
  all_goals first
    | rfl
    | (refine (record_pw _ _ _ _ _ _).trans ?_; rfl)

@[simp] theorem setFlags_th (s : State) (g : ModeSt → ModeSt) : (setFlags s g).th = s.th := by
  unfold setFlags noteFlags
  split <;> split
  all_goals first
    | rfl
    | (refine (record_th _ _ _ _ _ _).trans ?_; rfl)

@[simp] theorem refreshPower_zn (s : State) : (refreshPower s).zn = s.zn := by
  unfold refreshPower
  rw [setFlags_zn]

@[simp] theorem refreshPower_adm (s : State) : (refreshPower s).adm = s.adm := by
  unfold refreshPower
  rw [setFlags_adm]

end Sys2Proof.Machine
end

