-- ==== Sys2Proof/Laws/Front.lean ====
section
/-! SUPPORT. What fetching an entry does, said once (R83, R85). -/

namespace Sys2Proof.Machine

/-- Fetching changes the host port alone, and of it only the queues and the turn: no command, controller or posted entry. -/
theorem fetch_frame {s s1 : State} {func qid stamp : Nat} (h : fetch s func qid = some (stamp, s1)) :
    s1 = { s with port := s1.port } ∧ s1.port.cmds = s.port.cmds ∧ s1.port.ctrls = s.port.ctrls ∧ s1.port.posted = s.port.posted ∧
      s1.port.ledger = s.port.ledger := by
  unfold fetch at h
  dsimp only at h
  split at h
  · split at h
    · cases h
    · split at h
      · cases h
      · cases h
        exact ⟨rfl, rfl, rfl, rfl, rfl⟩
  · cases h

/-- The fetched entry's queue has lost its oldest stamp and moved its head by one. -/
theorem fetch_queue {s s1 : State} {func qid stamp : Nat} (h : fetch s func qid = some (stamp, s1)) :
    ∃ q rest, KV.find s.port.sqs (qkey func qid) = some q ∧ q.stamps = stamp :: rest ∧
      KV.find s1.port.sqs (qkey func qid) = some { q with stamps := rest, head := if q.head + 1 = q.size then 0 else q.head + 1 } := by
  unfold fetch at h
  dsimp only at h
  split at h
  · split at h
    · cases h
    · rename_i q _ hq _
      split at h
      · cases h
      · rename_i st rest hs
        cases h
        exact ⟨q, rest, hq, hs, KV.find_set_self _ _ _⟩
  · cases h

/-- The parts outside the host port are as they were at the fetch. -/
theorem Admitted.frame {s s1 : State} {e : Sqe} {pf : Bool} {row : Row} {stamp : Nat} (h : Admitted s e pf row stamp s1) :
    s1 = { s with port := s1.port } := (fetch_frame h.fetched).1

theorem Admitted.part {s s1 : State} {e : Sqe} {pf : Bool} {row : Row} {stamp : Nat} (h : Admitted s e pf row stamp s1) :
    s1.part = s.part := by rw [h.frame]

theorem Admitted.core {s s1 : State} {e : Sqe} {pf : Bool} {row : Row} {stamp : Nat} (h : Admitted s e pf row stamp s1) :
    Core s s1 := by rw [h.frame]; exact ⟨rfl, rfl, rfl, rfl, rfl⟩

theorem Admitted.content {s s1 : State} {e : Sqe} {pf : Bool} {row : Row} {stamp : Nat} (h : Admitted s e pf row stamp s1) :
    SameContent s s1 := by rw [h.frame]; intro _ _; rfl

end Sys2Proof.Machine
end

