-- ==== Sys2Proof/Laws/Kept.lean ====
section
/-! SUPPORT. What every operation of the machine keeps, as one relation between an earlier and a later state, with the rules by which it passes through the forms the definitions are written in. -/

namespace Sys2Proof.Machine

/-- The later state `s` keeps, of the earlier `c`: the ordering part; the queue of waiting commands; the canonical form of the store; a minimum SVN and a boot counter that never fall; at most eight measurement registers. -/
structure Kept (K J : Bool) (c s : State) : Prop where
  part : s.part = c.part
  pending : s.pending = c.pending
  store : KV.Canon {} c.zn.store → KV.Canon {} s.zn.store
  svn : c.boot.minSvn ≤ s.boot.minSvn
  boot : c.boot.boot ≤ s.boot.boot
  regs : c.boot.regs.length ≤ 8 → s.boot.regs.length ≤ 8
  core : K = true → Core c s
  content : J = true → s.zn.store = c.zn.store

/-- `Kept` of the state a command ends in, where it ends in one. -/
structure KeptBy (K J : Bool) (c₀ : State) (o : Host.Outcome State Fault Refusal) : Prop where
  next_kept : ∀ t, o = .next t → Kept K J c₀ t

theorem Core.refl (s : State) : Core s s := ⟨rfl, rfl, rfl, rfl, rfl⟩

theorem Core.trans {a b c : State} (h : Core a b) (k : Core b c) : Core a c :=
  ⟨k.md.trans h.md, k.boot.trans h.boot, k.time.trans h.time, k.sup.trans h.sup, k.shut.trans h.shut⟩

theorem Kept.refl {K J : Bool} (s : State) : Kept K J s s := ⟨rfl, rfl, id, Nat.le_refl _, Nat.le_refl _, id, fun _ => Core.refl s, fun _ => rfl⟩

theorem Kept.trans {K J : Bool} {a b c : State} (h : Kept K J a b) (k : Kept K J b c) : Kept K J a c :=
  ⟨k.part.trans h.part, k.pending.trans h.pending, fun x => k.store (h.store x), Nat.le_trans h.svn k.svn,
    Nat.le_trans h.boot k.boot, fun x => k.regs (h.regs x), fun e => (h.core e).trans (k.core e), fun e => (k.content e).trans (h.content e)⟩

theorem Kept.weak {K J : Bool} {a b : State} (h : Kept K J a b) : Kept false J a b := ⟨h.part, h.pending, h.store, h.svn, h.boot, h.regs, fun e => (nomatch e), h.content⟩

theorem Kept.weakContent {K J : Bool} {a b : State} (h : Kept K J a b) : Kept K false a b := ⟨h.part, h.pending, h.store, h.svn, h.boot, h.regs, h.core, fun e => (nomatch e)⟩

/-- An update of parts that `Kept` does not look at. -/
theorem Kept.upd {K J : Bool} {c₀ s : State} {md port zn cal media jr tw keys ev adm th pw it tel hist free}
    (h : Kept K J c₀ s) (hz : zn.store = s.zn.store) (hm : md.still = s.md.still)
    (ht : th.shut = s.th.shut) :
    Kept K J c₀ ⟨s.part, md, port, zn, cal, media, jr, tw, s.sup, s.boot, keys, ev, adm, s.time, th, pw, it, tel, hist, free, s.pending⟩ :=
  ⟨h.part, h.pending, fun x => hz ▸ h.store x, h.svn, h.boot, h.regs,
    fun e => ⟨hm.trans (h.core e).md, (h.core e).boot, (h.core e).time, (h.core e).sup, ht.trans (h.core e).shut⟩,
    fun e => hz.trans (h.content e)⟩

/-- An update of the namespaces and their content that keeps the store's canonical form. -/
theorem Kept.updStore {K : Bool} {c₀ s : State} {md port zn cal media jr tw keys ev adm th pw it tel hist free}
    (h : Kept K false c₀ s) (hz : KV.Canon {} s.zn.store → KV.Canon {} zn.store) (hm : md.still = s.md.still)
    (ht : th.shut = s.th.shut) :
    Kept K false c₀ ⟨s.part, md, port, zn, cal, media, jr, tw, s.sup, s.boot, keys, ev, adm, s.time, th, pw, it, tel, hist, free, s.pending⟩ :=
  ⟨h.part, h.pending, fun x => hz (h.store x), h.svn, h.boot, h.regs,
    fun e => ⟨hm.trans (h.core e).md, (h.core e).boot, (h.core e).time, (h.core e).sup, ht.trans (h.core e).shut⟩,
    fun e => (nomatch e)⟩

/-- An update of any part but the ordering part and the queue: the boot counter and the minimum SVN do not fall, at most eight registers stay measured. -/
theorem Kept.updBoot {J : Bool} {c₀ s : State} {md port zn cal media jr tw sup boot keys ev adm time th pw it tel hist free}
    (h : Kept false J c₀ s) (hz : zn.store = s.zn.store) (hv : s.boot.minSvn ≤ boot.minSvn)
    (hb : s.boot.boot ≤ boot.boot) (hr : s.boot.regs.length ≤ 8 → boot.regs.length ≤ 8) :
    Kept false J c₀ ⟨s.part, md, port, zn, cal, media, jr, tw, sup, boot, keys, ev, adm, time, th, pw, it, tel, hist, free, s.pending⟩ :=
  ⟨h.part, h.pending, fun x => hz ▸ h.store x, Nat.le_trans h.svn hv, Nat.le_trans h.boot hb, fun x => hr (h.regs x), fun e => (nomatch e),
    fun e => hz.trans (h.content e)⟩

/-- The same with the boot state's counters and registers as they were. -/
theorem Kept.updAny {J : Bool} {c₀ s : State} {md port zn cal media jr tw sup boot keys ev adm time th pw it tel hist free}
    (h : Kept false J c₀ s) (hz : zn.store = s.zn.store) (hv : boot.minSvn = s.boot.minSvn) (hb : boot.boot = s.boot.boot) (hr : boot.regs = s.boot.regs) :
    Kept false J c₀ ⟨s.part, md, port, zn, cal, media, jr, tw, sup, boot, keys, ev, adm, time, th, pw, it, tel, hist, free, s.pending⟩ :=
  h.updBoot hz (Nat.le_of_eq hv.symm) (Nat.le_of_eq hb.symm) (fun x => hr ▸ x)

theorem Kept.ite {K J : Bool} {c₀ a b : State} {p : Prop} [Decidable p] (h : p → Kept K J c₀ a) (k : ¬p → Kept K J c₀ b) : Kept K J c₀ (if p then a else b) := by
  split
  · exact h ‹_›
  · exact k ‹_›

theorem Kept.elim {K J : Bool} {c₀ a : State} {α : Type} {o : Option α} {f : α → State} (h : Kept K J c₀ a) (k : ∀ x, Kept K J c₀ (f x)) : Kept K J c₀ (o.elim a f) := by
  cases o with
  | none => exact h
  | some x => exact k x

theorem Kept.foldl {K J : Bool} {c₀ s : State} {α : Type} {l : List α} {f : State → α → State} (h : Kept K J c₀ s)
    (k : ∀ s x, Kept K J c₀ s → Kept K J c₀ (f s x)) : Kept K J c₀ (l.foldl f s) := by
  induction l generalizing s with
  | nil => exact h
  | cons x l ih => exact ih (k _ _ h)

/-- `Kept` of the state of a result that can be a reason instead. -/
structure KeptOk (K J : Bool) {ε : Type} (c₀ : State) (r : Except ε State) : Prop where
  ok_kept : ∀ x, r = .ok x → Kept K J c₀ x

theorem KeptOk.ok {K J : Bool} {ε : Type} {c₀ : State} {x : State} (h : Kept K J c₀ x) : KeptOk K J c₀ (.ok x : Except ε State) := ⟨fun _ e => by cases e; exact h⟩

theorem KeptOk.error {K J : Bool} {ε : Type} {c₀ : State} {x : ε} : KeptOk K J c₀ (.error x : Except ε State) := ⟨fun _ e => nomatch e⟩

theorem KeptOk.ite {K J : Bool} {ε : Type} {c₀ : State} {a b : Except ε State} {p : Prop} [Decidable p] (h : p → KeptOk K J c₀ a) (k : ¬p → KeptOk K J c₀ b) :
    KeptOk K J c₀ (if p then a else b) := by
  split
  · exact h ‹_›
  · exact k ‹_›

theorem Kept.of_ok {K J : Bool} {ε : Type} {c₀ t : State} {r : Except ε State} (h : KeptOk K J c₀ r) (e : r = .ok t) : Kept K J c₀ t := h.ok_kept t e

theorem KeptOk.foldl {K J : Bool} {ε α : Type} {c₀ : State} {l : List α} {f : Except ε State → α → Except ε State} {r : Except ε State} (h : KeptOk K J c₀ r)
    (k : ∀ r x, KeptOk K J c₀ r → KeptOk K J c₀ (f r x)) : KeptOk K J c₀ (l.foldl f r) := by
  induction l generalizing r with
  | nil => exact h
  | cons x l ih => exact ih (k _ _ h)

theorem Kept.of_ok_self {K J : Bool} {ε : Type} {c₀ t : State} (h : KeptOk K J c₀ (.ok t : Except ε State)) : Kept K J c₀ t := h.ok_kept t rfl

/-- `Kept` of the state that a result may hold. -/
structure KeptOpt (K J : Bool) (c₀ : State) (r : Option State) : Prop where
  some_kept : ∀ x, r = some x → Kept K J c₀ x

theorem KeptOpt.some {K J : Bool} {c₀ x : State} (h : Kept K J c₀ x) : KeptOpt K J c₀ (.some x) := ⟨fun _ e => by cases e; exact h⟩

theorem KeptOpt.none {K J : Bool} {c₀ : State} : KeptOpt K J c₀ .none := ⟨fun _ h => nomatch h⟩

theorem KeptOpt.ite {K J : Bool} {c₀ : State} {a b : Option State} {p : Prop} [Decidable p] (h : p → KeptOpt K J c₀ a) (k : ¬p → KeptOpt K J c₀ b) :
    KeptOpt K J c₀ (if p then a else b) := by
  split
  · exact h ‹_›
  · exact k ‹_›

theorem KeptOpt.foldl {K J : Bool} {α : Type} {c₀ : State} {l : List α} {f : Option State → α → Option State} {r : Option State} (h : KeptOpt K J c₀ r)
    (k : ∀ r x, KeptOpt K J c₀ r → KeptOpt K J c₀ (f r x)) : KeptOpt K J c₀ (l.foldl f r) := by
  induction l generalizing r with
  | nil => exact h
  | cons x l ih => exact ih (k _ _ h)

theorem Kept.of_opt {K J : Bool} {c₀ t : State} {r : Option State} (h : KeptOpt K J c₀ r) (e : r = some t) : Kept K J c₀ t := h.some_kept t e

theorem Kept.of_opt_self {K J : Bool} {c₀ t : State} (h : KeptOpt K J c₀ (.some t)) : Kept K J c₀ t := h.some_kept t rfl

theorem KeptOpt.map {K J : Bool} {c₀ : State} {o : Option State} {f : State → State} (h : KeptOpt K J c₀ o) (k : ∀ s, Kept K J c₀ s → Kept K J c₀ (f s)) :
    KeptOpt K J c₀ (o.map f) := by
  cases o with
  | none => exact KeptOpt.none
  | some x => exact KeptOpt.some (k x (h.some_kept x rfl))

/-- `Kept` of a result that is a state either way. -/
structure KeptBoth (K J : Bool) (c₀ : State) (r : Except State State) : Prop where
  ok_kept : ∀ x, r = .ok x → Kept K J c₀ x
  error_kept : ∀ x, r = .error x → Kept K J c₀ x

theorem KeptBoth.ok {K J : Bool} {c₀ : State} {x : State} (h : Kept K J c₀ x) : KeptBoth K J c₀ (.ok x : Except State State) := ⟨fun _ e => by cases e; exact h, fun _ e => (nomatch e)⟩

theorem KeptBoth.error {K J : Bool} {c₀ x : State} (h : Kept K J c₀ x) : KeptBoth K J c₀ (.error x : Except State State) := ⟨fun _ e => (nomatch e), fun _ e => by cases e; exact h⟩

theorem Kept.of_error_both {K J : Bool} {c₀ t : State} {r : Except State State} (h : KeptBoth K J c₀ r) (e : r = .error t) : Kept K J c₀ t := h.error_kept t e

theorem KeptBoth.ite {K J : Bool} {c₀ : State} {a b : Except State State} {p : Prop} [Decidable p] (h : p → KeptBoth K J c₀ a) (k : ¬p → KeptBoth K J c₀ b) :
    KeptBoth K J c₀ (if p then a else b) := by
  split
  · exact h ‹_›
  · exact k ‹_›

theorem Kept.of_ok_both {K J : Bool} {c₀ t : State} {r : Except State State} (h : KeptBoth K J c₀ r) (e : r = .ok t) : Kept K J c₀ t := h.ok_kept t e

/-- `Kept` of the state of a pair that can be a reason instead. -/
structure KeptPair (K J : Bool) {ε α : Type} (c₀ : State) (r : Except ε (α × State)) : Prop where
  ok_kept : ∀ x, r = .ok x → Kept K J c₀ x.2

theorem KeptPair.ok {K J : Bool} {ε α : Type} {c₀ : State} {x : α × State} (h : Kept K J c₀ x.2) : KeptPair K J c₀ (.ok x : Except ε (α × State)) := ⟨fun _ e => by cases e; exact h⟩

theorem KeptPair.error {K J : Bool} {ε α : Type} {c₀ : State} {x : ε} : KeptPair K J c₀ (.error x : Except ε (α × State)) := ⟨fun _ e => nomatch e⟩

theorem KeptPair.ite {K J : Bool} {ε α : Type} {c₀ : State} {a b : Except ε (α × State)} {p : Prop} [Decidable p] (h : p → KeptPair K J c₀ a) (k : ¬p → KeptPair K J c₀ b) :
    KeptPair K J c₀ (if p then a else b) := by
  split
  · exact h ‹_›
  · exact k ‹_›

theorem Kept.of_ok_pair {K J : Bool} {ε α : Type} {c₀ t : State} {a : α} {r : Except ε (α × State)} (h : KeptPair K J c₀ r) (e : r = .ok (a, t)) : Kept K J c₀ t := h.ok_kept _ e

/-- `Kept` of the state of a pair that may be absent, or be a status instead. -/
structure KeptSome (K J : Bool) {α : Type} (c₀ : State) (r : Option (α × State)) : Prop where
  some_kept : ∀ x, r = some x → Kept K J c₀ x.2

theorem KeptSome.some {K J : Bool} {α : Type} {c₀ : State} {x : α × State} (h : Kept K J c₀ x.2) : KeptSome K J c₀ (.some x) := ⟨fun _ e => by cases e; exact h⟩

theorem KeptSome.none {K J : Bool} {α : Type} {c₀ : State} : KeptSome K J c₀ (.none : Option (α × State)) := ⟨fun _ h => nomatch h⟩

theorem KeptSome.ite {K J : Bool} {α : Type} {c₀ : State} {a b : Option (α × State)} {p : Prop} [Decidable p] (h : p → KeptSome K J c₀ a) (k : ¬p → KeptSome K J c₀ b) :
    KeptSome K J c₀ (if p then a else b) := by
  split
  · exact h ‹_›
  · exact k ‹_›

theorem Kept.of_some {K J : Bool} {α : Type} {c₀ t : State} {a : α} {r : Option (α × State)} (h : KeptSome K J c₀ r) (e : r = some (a, t)) : Kept K J c₀ t := h.some_kept _ e

/-- `Kept` of the state of a pair that may be absent, the state first. -/
structure KeptFst (K J : Bool) {α : Type} (c₀ : State) (r : Option (State × α)) : Prop where
  some_kept : ∀ x, r = some x → Kept K J c₀ x.1

theorem KeptFst.some {K J : Bool} {α : Type} {c₀ : State} {x : State × α} (h : Kept K J c₀ x.1) : KeptFst K J c₀ (.some x) := ⟨fun _ e => by cases e; exact h⟩

theorem KeptFst.none {K J : Bool} {α : Type} {c₀ : State} : KeptFst K J c₀ (.none : Option (State × α)) := ⟨fun _ h => nomatch h⟩

theorem KeptFst.ite {K J : Bool} {α : Type} {c₀ : State} {a b : Option (State × α)} {p : Prop} [Decidable p] (h : p → KeptFst K J c₀ a) (k : ¬p → KeptFst K J c₀ b) :
    KeptFst K J c₀ (if p then a else b) := by
  split
  · exact h ‹_›
  · exact k ‹_›

theorem KeptFst.map {K J : Bool} {α β : Type} {c₀ : State} {o : Option β} {f : β → State × α} (k : ∀ b, Kept K J c₀ (f b).1) : KeptFst K J c₀ (o.map f) := by
  cases o with
  | none => exact KeptFst.none
  | some b => exact KeptFst.some (k b)

theorem Kept.of_some_fst {K J : Bool} {α : Type} {c₀ t : State} {a : α} {r : Option (State × α)} (h : KeptFst K J c₀ r) (e : r = some (t, a)) : Kept K J c₀ t := h.some_kept _ e

theorem Kept.of_fst {K J : Bool} {α : Type} {c₀ t : State} {a : α} {r : State × α} (h : Kept K J c₀ r.1) (e : r = (t, a)) : Kept K J c₀ t := by subst e; exact h

theorem Kept.of_snd {K J : Bool} {α : Type} {c₀ t : State} {a : α} {r : α × State} (h : Kept K J c₀ r.2) (e : r = (a, t)) : Kept K J c₀ t := by subst e; exact h

theorem Kept.foldl_fst {K J : Bool} {α β : Type} {c₀ : State} {l : List α} {f : State × β → α → State × β} {p : State × β} (h : Kept K J c₀ p.1)
    (k : ∀ p x, Kept K J c₀ p.1 → Kept K J c₀ (f p x).1) : Kept K J c₀ (l.foldl f p).1 := by
  induction l generalizing p with
  | nil => exact h
  | cons x l ih => exact ih (k _ _ h)

theorem Kept.foldl_snd {K J : Bool} {α β : Type} {c₀ : State} {l : List α} {f : β × State → α → β × State} {p : β × State} (h : Kept K J c₀ p.2)
    (k : ∀ p x, Kept K J c₀ p.2 → Kept K J c₀ (f p x).2) : Kept K J c₀ (l.foldl f p).2 := by
  induction l generalizing p with
  | nil => exact h
  | cons x l ih => exact ih (k _ _ h)

theorem KeptBy.next {K J : Bool} {c₀ t : State} (h : Kept K J c₀ t) : KeptBy K J c₀ (.next t) := ⟨fun _ hu => by cases hu; exact h⟩

theorem KeptBy.fault {K J : Bool} {c₀ : State} {r : Fault} : KeptBy K J c₀ (.fault r) := ⟨fun _ h => nomatch h⟩

theorem KeptBy.ite {K J : Bool} {c₀ : State} {a b : Host.Outcome State Fault Refusal} {p : Prop} [Decidable p] (h : p → KeptBy K J c₀ a) (k : ¬p → KeptBy K J c₀ b) :
    KeptBy K J c₀ (if p then a else b) := by
  split
  · exact h ‹_›
  · exact k ‹_›

theorem KeptBy.elim {K J : Bool} {c₀ : State} {a : Host.Outcome State Fault Refusal} {α : Type} {o : Option α} {f : α → Host.Outcome State Fault Refusal}
    (h : KeptBy K J c₀ a) (k : ∀ x, KeptBy K J c₀ (f x)) : KeptBy K J c₀ (o.elim a f) := by
  cases o with
  | none => exact h
  | some x => exact k x

/-- `Kept` of the state an entry is judged in, or refused in. -/
structure KeptJudged (K J : Bool) (c₀ : State) (r : Except State Judged) : Prop where
  ok_kept : ∀ x, r = .ok x → Kept K J c₀ x.st
  error_kept : ∀ x, r = .error x → Kept K J c₀ x

theorem KeptJudged.ok {K J : Bool} {c₀ : State} {x : Judged} (h : Kept K J c₀ x.st) : KeptJudged K J c₀ (.ok x) := ⟨fun _ e => by cases e; exact h, fun _ e => (nomatch e)⟩

theorem KeptJudged.error {K J : Bool} {c₀ x : State} (h : Kept K J c₀ x) : KeptJudged K J c₀ (.error x) := ⟨fun _ e => (nomatch e), fun _ e => by cases e; exact h⟩

theorem KeptJudged.ite {K J : Bool} {c₀ : State} {a b : Except State Judged} {p : Prop} [Decidable p] (h : p → KeptJudged K J c₀ a) (k : ¬p → KeptJudged K J c₀ b) :
    KeptJudged K J c₀ (if p then a else b) := by
  split
  · exact h ‹_›
  · exact k ‹_›

theorem Kept.of_judged {K J : Bool} {c₀ : State} {x : Judged} {r : Except State Judged} (h : KeptJudged K J c₀ r) (e : r = .ok x) : Kept K J c₀ x.st := h.ok_kept x e

theorem Kept.of_error_judged {K J : Bool} {c₀ t : State} {r : Except State Judged} (h : KeptJudged K J c₀ r) (e : r = .error t) : Kept K J c₀ t := h.error_kept t e

end Sys2Proof.Machine
end

