-- ==== Sys2Proof/Laws/KeptIo.lean ====
section
/-! SUPPORT. `Kept` of the shared operations, the journal, the zones, admission and the I/O commands: one lemma for each operation and for the meaning of each command. -/

namespace Sys2Proof.Machine

/-! ### Machine/Ops -/

theorem setCtrl_kept {K J : Bool} {c₀ : State} {s : State} (f : Nat) (g : Ctrl → Ctrl) (hk : Kept K J c₀ s) : Kept K J c₀ (setCtrl s f g) := by
  unfold setCtrl
  repeat' (first | with_reducible exact hk | with_reducible assumption | intro _ | extract_lets | fail_if_no_progress with_reducible refine Kept.upd ?_ rfl rfl rfl)

theorem sendMsix_kept {K J : Bool} {c₀ : State} {s : State} (func : Nat) (vec : Nat) (hk : Kept K J c₀ s) : Kept K J c₀ (sendMsix s func vec) := by
  unfold sendMsix
  repeat' (first | with_reducible exact hk | with_reducible assumption | with_reducible apply setCtrl_kept | with_reducible apply Kept.ite | intro _ | extract_lets | fail_if_no_progress with_reducible refine Kept.upd ?_ rfl rfl rfl)

theorem sendVector_kept {K J : Bool} {c₀ : State} {s : State} (func : Nat) (vec : Nat) (hk : Kept K J c₀ s) : Kept K J c₀ (sendVector s func vec) := by
  unfold sendVector
  repeat' (first | with_reducible exact hk | with_reducible assumption | with_reducible apply sendMsix_kept | with_reducible apply Kept.ite | intro _ | extract_lets | fail_if_no_progress with_reducible refine Kept.upd ?_ rfl rfl rfl)

theorem notify_kept {K J : Bool} {c₀ : State} {s : State} (func : Nat) (cqid : Nat) (atOnce : Bool) (hk : Kept K J c₀ s) : Kept K J c₀ (notify s func cqid atOnce) := by
  unfold notify
  repeat' (first | with_reducible exact hk | with_reducible assumption | with_reducible apply sendVector_kept | with_reducible apply Kept.ite | intro _ | extract_lets | fail_if_no_progress with_reducible refine Kept.upd ?_ rfl rfl rfl | split)

theorem flushHeld_kept {K J : Bool} {c₀ : State} {s : State} (hk : Kept K J c₀ s) : Kept K J c₀ (flushHeld s) := by
  unfold flushHeld
  repeat' (first | with_reducible exact hk | with_reducible assumption | with_reducible apply sendVector_kept | with_reducible apply Kept.ite | with_reducible apply Kept.foldl | with_reducible apply Kept.foldl_fst | with_reducible apply Kept.foldl_snd | intro _)

theorem complete_kept {K J : Bool} {c₀ : State} {s : State} (func : Nat) (sqid : Nat) (cid : Nat) (st : Status) (dw0 : Nat) (dw1 : Nat) (data : List Nat) (hk : Kept K J c₀ s) : Kept K J c₀ (complete s func sqid cid st dw0 dw1 data) := by
  unfold complete
  repeat' (first | with_reducible exact hk | with_reducible assumption | with_reducible apply notify_kept | with_reducible apply setCtrl_kept | with_reducible apply Kept.ite | intro _ | extract_lets | fail_if_no_progress with_reducible refine Kept.upd ?_ rfl rfl rfl | split)

theorem adminDone_kept {K J : Bool} {c₀ : State} {s : State} (e : Sqe) (st : Status) (dw0 : Nat) (data : List Nat) (hk : Kept K J c₀ s) : Kept K J c₀ (adminDone s e st dw0 data) := by
  unfold adminDone
  repeat' (first | with_reducible exact hk | with_reducible assumption | with_reducible apply complete_kept)

theorem completeFor_kept {K J : Bool} {c₀ : State} {s : State} (owner : Nat) (cid : Nat) (st : Status) (dw0 : Nat) (data : List Nat) (hk : Kept K J c₀ s) : Kept K J c₀ (completeFor s owner cid st dw0 data) := by
  unfold completeFor
  repeat' (first | with_reducible exact hk | with_reducible assumption | with_reducible apply complete_kept | with_reducible apply Kept.ite | intro _)

theorem raiseAen_kept {K J : Bool} {c₀ : State} {s : State} (func : Nat) (typ : Nat) (info : Nat) (log : Nat) (hk : Kept K J c₀ s) : Kept K J c₀ (raiseAen s func typ info log) := by
  unfold raiseAen
  repeat' (first | with_reducible exact hk | with_reducible assumption | with_reducible apply setCtrl_kept | with_reducible apply complete_kept | with_reducible apply Kept.ite | intro _ | extract_lets | fail_if_no_progress with_reducible refine Kept.upd ?_ rfl rfl rfl | split)

theorem raiseAll_kept {K J : Bool} {c₀ : State} {s : State} (typ : Nat) (info : Nat) (log : Nat) (hk : Kept K J c₀ s) : Kept K J c₀ (raiseAll s typ info log) := by
  unfold raiseAll
  repeat' (first | with_reducible exact hk | with_reducible assumption | with_reducible apply raiseAen_kept | with_reducible apply Kept.foldl | with_reducible apply Kept.foldl_fst | intro _)

theorem pushEvent_kept {K J : Bool} {c₀ : State} {s : State} (typ : Nat) (sev : Nat) (func : Option Nat) (nsid : Nat) (payload : List Nat) (hk : Kept K J c₀ s) : Kept K J c₀ (pushEvent s typ sev func nsid payload) := by
  unfold pushEvent
  repeat' (first | with_reducible exact hk | with_reducible assumption | intro _ | extract_lets | fail_if_no_progress with_reducible refine Kept.upd ?_ rfl rfl rfl)

theorem record_kept {K J : Bool} {c₀ : State} {s : State} (typ : Nat) (payload : List Nat) (func : Option Nat) (nsid : Nat) (key : Nat) (hk : Kept K J c₀ s) : Kept K J c₀ (record s typ payload func nsid key) := by
  unfold record
  repeat' (first | with_reducible exact hk | with_reducible assumption | with_reducible apply raiseAll_kept | with_reducible apply pushEvent_kept | with_reducible apply Kept.ite | intro _ | extract_lets | fail_if_no_progress with_reducible refine Kept.upd ?_ rfl rfl rfl)

theorem noteFlags_kept {K J : Bool} {c₀ : State} {before : State} {s : State} (hk : Kept K J c₀ s) : Kept K J c₀ (noteFlags before s) := by
  unfold noteFlags
  repeat' (first | with_reducible exact hk | with_reducible assumption | with_reducible apply record_kept | with_reducible apply Kept.ite | intro _)

theorem keepMode_kept {K J : Bool} {c₀ : State} {s : State} (hk : Kept K J c₀ s) : Kept K J c₀ (keepMode s) := by
  unfold keepMode
  repeat' (first | with_reducible exact hk | with_reducible assumption | intro _ | extract_lets | fail_if_no_progress with_reducible refine Kept.upd ?_ rfl rfl rfl)

theorem setFlags_kept {K J : Bool} {c₀ : State} {s : State} (f : ModeSt → ModeSt) (hk : Kept K J c₀ s)
    (hf : K = true → ∀ m, (f m).still = m.still) : Kept K J c₀ (setFlags s f) := by
  unfold setFlags
  refine noteFlags_kept ?_
  have h : Kept K J c₀ (if flagsCode (f s.md) = flagsCode s.md then s else keepMode s) := by
    split
    · exact hk
    · exact keepMode_kept hk
  have e : (if flagsCode (f s.md) = flagsCode s.md then s else keepMode s) = { keepMode s with hist := (if flagsCode (f s.md) = flagsCode s.md then s else keepMode s).hist } := by
    split <;> rfl
  refine ⟨?_, ?_, ?_, ?_, ?_, ?_, fun k => ?_, fun k => ?_⟩
  · exact h.part
  · exact h.pending
  · exact h.store
  · exact h.svn
  · exact h.boot
  · exact h.regs
  · rw [e]
    have c := hk.core k
    have g := hf k s.md
    exact ⟨g.trans c.md, c.boot, c.time, c.sup, c.shut⟩
  · exact h.content k

theorem refreshPower_kept {K J : Bool} {c₀ : State} {s : State} (hk : Kept K J c₀ s) : Kept K J c₀ (refreshPower s) := by
  unfold refreshPower
  repeat' (first | with_reducible exact fun _ _ => rfl | with_reducible exact hk | with_reducible assumption | with_reducible apply setFlags_kept | intro _ | extract_lets | fail_if_no_progress with_reducible refine Kept.upd ?_ rfl rfl rfl)

theorem setNs_kept {K J : Bool} {c₀ : State} {s : State} (nsid : Nat) (g : Ns → Ns) (hk : Kept K J c₀ s) : Kept K J c₀ (setNs s nsid g) := by
  unfold setNs
  repeat' (first | with_reducible exact hk | with_reducible assumption | intro _ | extract_lets | fail_if_no_progress with_reducible refine Kept.upd ?_ rfl rfl rfl)

theorem updateAna_kept {K J : Bool} {c₀ : State} {s : State} (hk : Kept K J c₀ s) : Kept K J c₀ (updateAna s) := by
  unfold updateAna
  repeat' (first | with_reducible exact hk | with_reducible assumption | with_reducible apply raiseAen_kept | with_reducible apply setNs_kept | with_reducible apply Kept.ite | with_reducible apply Kept.foldl | with_reducible apply Kept.foldl_fst | with_reducible apply Kept.foldl_snd | intro _ | extract_lets | fail_if_no_progress with_reducible refine Kept.upd ?_ rfl rfl rfl)

theorem ccsSet_kept {K J : Bool} {c₀ : State} {s : State} (k : Nat) (hk : Kept K J c₀ s) : Kept K J c₀ (ccsSet s k) := by
  unfold ccsSet
  repeat' (first | with_reducible exact hk | with_reducible assumption | intro _ | extract_lets | fail_if_no_progress with_reducible refine Kept.upd ?_ rfl rfl rfl)

theorem updateReady_kept {K J : Bool} {c₀ : State} {s : State} (hk : Kept K J c₀ s) : Kept K J c₀ (updateReady s) := by
  unfold updateReady
  repeat' (first | with_reducible exact hk | with_reducible assumption | with_reducible apply ccsSet_kept | with_reducible apply Kept.ite | intro _ | extract_lets | fail_if_no_progress with_reducible refine Kept.upd ?_ rfl rfl rfl)

theorem enterMode_kept {J : Bool} {c₀ : State} {s : State} (m : Mode) (qcause : Nat) (serving : Bool) (hk : Kept false J c₀ s) : Kept false J c₀ (enterMode s m qcause serving) := by
  unfold enterMode
  repeat' (first | with_reducible exact hk | with_reducible assumption | with_reducible apply keepMode_kept | with_reducible apply record_kept | with_reducible apply updateAna_kept | with_reducible apply refreshPower_kept | with_reducible apply updateReady_kept | intro _ | extract_lets | fail_if_no_progress with_reducible refine Kept.upd ?_ rfl rfl rfl | fail_if_no_progress with_reducible refine Kept.updAny ?_ rfl rfl rfl rfl)

theorem drawFree_kept {K J : Bool} {c₀ : State} {s : State} (hk : Kept K J c₀ s) : Kept K J c₀ (drawFree s).2 := by
  unfold drawFree
  repeat' (first | with_reducible exact hk | with_reducible assumption | intro _ | extract_lets | fail_if_no_progress with_reducible refine Kept.upd ?_ rfl rfl rfl)

theorem setRanks_kept {K J : Bool} {c₀ : State} {s : State} (r : RankState) (hk : Kept K J c₀ s) : Kept K J c₀ (setRanks s r) := by
  unfold setRanks
  repeat' (first | with_reducible exact hk | with_reducible assumption | intro _ | extract_lets | fail_if_no_progress with_reducible refine Kept.upd ?_ rfl rfl rfl)

theorem touchDram_kept {K J : Bool} {c₀ : State} {s : State} (hk : Kept K J c₀ s) : Kept K J c₀ (touchDram s) := by
  unfold touchDram
  repeat' (first | with_reducible exact hk | with_reducible assumption | with_reducible apply Kept.ite | intro _ | extract_lets | fail_if_no_progress with_reducible refine Kept.upd ?_ rfl rfl rfl)

theorem passTime_kept {J : Bool} {c₀ : State} {s : State} (t : Nat) (hk : Kept false J c₀ s) : Kept false J c₀ (passTime s t) := by
  unfold passTime
  repeat' (first | with_reducible exact hk | with_reducible assumption | intro _ | extract_lets | fail_if_no_progress with_reducible refine Kept.upd ?_ rfl rfl rfl | fail_if_no_progress with_reducible refine Kept.updAny ?_ rfl rfl rfl rfl)

/-! ### Machine/Operands -/

theorem setDie_kept {K J : Bool} {c₀ : State} {s : State} (d : Nat) (g : Die → Die) (hk : Kept K J c₀ s) : Kept K J c₀ (setDie s d g) := by
  unfold setDie
  repeat' (first | with_reducible exact hk | with_reducible assumption | intro _ | extract_lets | fail_if_no_progress with_reducible refine Kept.upd ?_ rfl rfl rfl)

theorem setGrp_kept {K J : Bool} {c₀ : State} {s : State} (g : Nat) (f : Grp → Grp) (hk : Kept K J c₀ s) : Kept K J c₀ (setGrp s g f) := by
  unfold setGrp
  repeat' (first | with_reducible exact hk | with_reducible assumption | intro _ | extract_lets | fail_if_no_progress with_reducible refine Kept.upd ?_ rfl rfl rfl)

/-! ### Machine/Calendar -/

theorem addClaim_kept {K J : Bool} {c₀ : State} {s : State} (c : Claim) (hk : Kept K J c₀ s) : Kept K J c₀ (addClaim s c) := by
  unfold addClaim
  repeat' (first | with_reducible exact hk | with_reducible assumption | intro _ | extract_lets | fail_if_no_progress with_reducible refine Kept.upd ?_ rfl rfl rfl)

theorem addDraw_kept {K J : Bool} {c₀ : State} {s : State} (d : Draw) (hk : Kept K J c₀ s) : Kept K J c₀ (addDraw s d) := by
  unfold addDraw
  repeat' (first | with_reducible exact hk | with_reducible assumption | intro _ | extract_lets | fail_if_no_progress with_reducible refine Kept.upd ?_ rfl rfl rfl)

/-! ### Machine/Buffers -/

theorem giveBuf_kept {K J : Bool} {c₀ : State} {s : State} (b : Nat) (hk : Kept K J c₀ s) : Kept K J c₀ (giveBuf s b) := by
  unfold giveBuf
  repeat' (first | with_reducible exact hk | with_reducible assumption | intro _ | extract_lets | fail_if_no_progress with_reducible refine Kept.upd ?_ rfl rfl rfl)

theorem holdBufs_kept {K J : Bool} {c₀ : State} {s : State} (bufs : List Nat) (n : Nat) (hk : Kept K J c₀ s) : Kept K J c₀ (holdBufs s bufs n) := by
  unfold holdBufs
  repeat' (first | with_reducible exact hk | with_reducible assumption | with_reducible apply Kept.foldl | intro _ | extract_lets | fail_if_no_progress with_reducible refine Kept.upd ?_ rfl rfl rfl)

theorem decBuf_kept {K J : Bool} {c₀ : State} {s : State} (b : Nat) (hk : Kept K J c₀ s) : Kept K J c₀ (decBuf s b) := by
  unfold decBuf
  repeat' (first | with_reducible exact hk | with_reducible assumption | with_reducible apply giveBuf_kept | intro _ | extract_lets | fail_if_no_progress with_reducible refine Kept.upd ?_ rfl rfl rfl | split)

theorem dropUser_kept {K J : Bool} {c₀ : State} {s : State} (slot : Nat) (u : BufUser) (hk : Kept K J c₀ s) : Kept K J c₀ (dropUser s slot u) := by
  unfold dropUser
  repeat' (first | with_reducible exact hk | with_reducible assumption | with_reducible apply decBuf_kept | with_reducible apply Kept.ite | with_reducible apply Kept.foldl | intro _ | extract_lets | fail_if_no_progress with_reducible refine Kept.upd ?_ rfl rfl rfl | split)

theorem freeBufs_kept {K J : Bool} {c₀ : State} {s : State} (c : Cmd) (hk : Kept K J c₀ s) : Kept K J c₀ (freeBufs s c) := by
  unfold freeBufs
  repeat' (first | with_reducible exact hk | with_reducible assumption | with_reducible apply decBuf_kept | with_reducible apply Kept.foldl | intro _ | extract_lets | fail_if_no_progress with_reducible refine Kept.upd ?_ rfl rfl rfl)

/-! ### Machine/Wire -/

theorem sealMsg_kept {K J : Bool} {c₀ : State} {s : State} (typ : Nat) (tag : Nat) (body : List Nat) (hk : Kept K J c₀ s) : Kept K J c₀ (sealMsg s typ tag body) := by
  unfold sealMsg
  repeat' (first | with_reducible exact hk | with_reducible assumption | with_reducible apply Kept.ite | intro _ | extract_lets | fail_if_no_progress with_reducible refine Kept.upd ?_ rfl rfl rfl)

theorem send_kept {K J : Bool} {c₀ : State} {s : State} (typ : Nat) (tag : Nat) (body : List Nat) (hk : Kept K J c₀ s) : Kept K J c₀ (send s typ tag body) := by
  unfold send
  repeat' (first | with_reducible exact hk | with_reducible assumption | with_reducible apply sealMsg_kept | with_reducible apply Kept.ite | intro _ | extract_lets | fail_if_no_progress with_reducible refine Kept.upd ?_ rfl rfl rfl)

/-! ### Machine/Places -/

theorem askReads_kept {K J : Bool} {c₀ : State} {s : State} (job : BackJob) (l : List (Nat × Nat)) (hk : Kept K J c₀ s) : Kept K J c₀ (askReads s job l) := by
  unfold askReads
  repeat' (first | with_reducible exact hk | with_reducible assumption | intro _ | extract_lets | fail_if_no_progress with_reducible refine Kept.upd ?_ rfl rfl rfl)

/-! ### Machine/Journal -/

theorem placeRec_kept {K J : Bool} {c₀ : State} {s : State} (core : Nat) (pages : Nat) (seq : Nat) (hk : Kept K J c₀ s) : Kept K J c₀ (placeRec s core pages seq).1 := by
  unfold placeRec
  repeat' (first | with_reducible exact hk | with_reducible assumption | with_reducible refine Kept.of_fst ?_ (by assumption) | with_reducible apply Kept.ite | intro _ | extract_lets | fail_if_no_progress with_reducible refine Kept.upd ?_ rfl rfl rfl | split)

theorem movePlace_kept {K J : Bool} {c₀ : State} {s : State} (q : Nat) (hk : Kept K J c₀ s) : Kept K J c₀ (movePlace s q) := by
  unfold movePlace
  repeat' (first | with_reducible exact hk | with_reducible assumption | with_reducible refine Kept.of_fst ?_ (by assumption) | with_reducible apply placeRec_kept | intro _ | extract_lets | fail_if_no_progress with_reducible refine Kept.upd ?_ rfl rfl rfl | split)

theorem compactSegs_kept {K J : Bool} {c₀ : State} {s : State} (k : Nat) (hk : Kept K J c₀ s) : Kept K J c₀ (compactSegs k s) := by
  induction k generalizing s with
  | zero => unfold compactSegs; repeat' (first | with_reducible exact hk)
  | succ k ih =>
    unfold compactSegs
    repeat' (first | with_reducible apply ih | with_reducible exact hk | with_reducible assumption | with_reducible apply movePlace_kept | with_reducible apply Kept.ite | with_reducible apply Kept.foldl | intro _ | extract_lets | fail_if_no_progress with_reducible refine Kept.upd ?_ rfl rfl rfl | split)

theorem openSession_kept {K J : Bool} {c₀ : State} {s : State} (hk : Kept K J c₀ s) : Kept K J c₀ (openSession s) := by
  unfold openSession
  repeat' (first | with_reducible exact hk | with_reducible assumption | with_reducible apply Kept.ite | intro _ | extract_lets | fail_if_no_progress with_reducible refine Kept.upd ?_ rfl rfl rfl)

theorem formRecord_kept {K J : Bool} {c₀ : State} {s : State} (core : Nat) (r : VRec) (hk : Kept K J c₀ s) : Kept K J c₀ (formRecord s core r).1 := by
  unfold formRecord
  repeat' (first | with_reducible exact hk | with_reducible assumption | with_reducible refine Kept.of_fst ?_ (by assumption) | with_reducible apply openSession_kept | with_reducible apply placeRec_kept | with_reducible apply compactSegs_kept | with_reducible apply Kept.ite | intro _ | extract_lets | fail_if_no_progress with_reducible refine Kept.upd ?_ rfl rfl rfl)

theorem makeDurable_kept {K J : Bool} {c₀ : State} {s : State} (seq : Nat) (hk : Kept K J c₀ s) : Kept K J c₀ (makeDurable s seq) := by
  unfold makeDurable
  repeat' (first | with_reducible exact hk | with_reducible assumption | intro _ | extract_lets | fail_if_no_progress with_reducible refine Kept.upd ?_ rfl rfl rfl)

theorem ackMirror_kept {K J : Bool} {c₀ : State} {s : State} (oseq : Nat) (func : Nat) (hk : Kept K J c₀ s) : Kept K J c₀ (ackMirror s oseq func) := by
  unfold ackMirror
  repeat' (first | with_reducible exact hk | with_reducible assumption | with_reducible apply send_kept)

theorem setRec_kept {K J : Bool} {c₀ : State} {s : State} (seq : Nat) (f : VRec → VRec) (hk : Kept K J c₀ s) : Kept K J c₀ (setRec s seq f) := by
  unfold setRec
  repeat' (first | with_reducible exact hk | with_reducible assumption | intro _ | extract_lets | fail_if_no_progress with_reducible refine Kept.upd ?_ rfl rfl rfl)

theorem retire_kept {K J : Bool} {c₀ : State} {s : State} (seq : Nat) (hk : Kept K J c₀ s) : Kept K J c₀ (retire s seq) := by
  unfold retire
  repeat' (first | with_reducible exact hk | with_reducible assumption | intro _ | extract_lets | fail_if_no_progress with_reducible refine Kept.upd ?_ rfl rfl rfl | split)

theorem moduleRecord_kept {K J : Bool} {c₀ : State} {s : State} (typ : Nat) (action : Nat) (arg : Nat) (hk : Kept K J c₀ s) : Kept K J c₀ (moduleRecord s typ action arg) := by
  unfold moduleRecord
  repeat' (first | with_reducible exact hk | with_reducible assumption | with_reducible apply formRecord_kept)

theorem storeLba_kept {K : Bool} {c₀ : State} {s : State} (nsid lba : Nat) (b : Blk) (hk : Kept K false c₀ s) : Kept K false c₀ (storeLba s nsid lba b) := by
  unfold storeLba
  exact Kept.updStore hk (fun x => KV.canon_put x _ _) rfl rfl

theorem clearRange_kept {K : Bool} {c₀ : State} {s : State} (nsid lo hi : Nat) (hk : Kept K false c₀ s) : Kept K false c₀ (clearRange s nsid lo hi) := by
  unfold clearRange
  refine Kept.updStore hk (fun x => ?_) rfl rfl
  dsimp only
  exact KV.canon_keep x _

theorem storeRec_kept {K : Bool} {c₀ : State} {s : State} (r : VRec) (hk : Kept K false c₀ s) : Kept K false c₀ (storeRec s r) := by
  unfold storeRec
  repeat' (first | with_reducible exact hk | with_reducible assumption | with_reducible apply storeLba_kept | with_reducible apply Kept.ite | with_reducible apply Kept.foldl | intro _)

theorem setLedger_kept {K J : Bool} {c₀ : State} {s : State} (func : Nat) (row : Nat) (f : Ledger → Ledger) (hk : Kept K J c₀ s) : Kept K J c₀ (setLedger s func row f) := by
  unfold setLedger
  repeat' (first | with_reducible exact hk | with_reducible assumption | intro _ | extract_lets | fail_if_no_progress with_reducible refine Kept.upd ?_ rfl rfl rfl)

theorem missEvent_kept {K J : Bool} {c₀ : State} {s : State} (c : Cmd) (late : Nat) (hk : Kept K J c₀ s) : Kept K J c₀ (missEvent s c late) := by
  unfold missEvent
  repeat' (first | with_reducible exact hk | with_reducible assumption | with_reducible apply record_kept | with_reducible apply Kept.ite | intro _)

theorem startXts_kept {K J : Bool} {c₀ : State} {s : State} (slot : Nat) (c : Cmd) (bytes : Nat) (hk : Kept K J c₀ s) : Kept K J c₀ (startXts s slot c bytes) := by
  unfold startXts
  repeat' (first | with_reducible exact hk | with_reducible assumption | intro _ | extract_lets | fail_if_no_progress with_reducible refine Kept.upd ?_ rfl rfl rfl)

theorem endXts_kept {K J : Bool} {c₀ : State} {s : State} (slot : Nat) (hk : Kept K J c₀ s) : Kept K J c₀ (endXts s slot) := by
  unfold endXts
  repeat' (first | with_reducible exact hk | with_reducible assumption | intro _ | extract_lets | fail_if_no_progress with_reducible refine Kept.upd ?_ rfl rfl rfl)

theorem dropCmd_kept {K J : Bool} {c₀ : State} {s : State} (slot : Nat) (hk : Kept K J c₀ s) : Kept K J c₀ (dropCmd s slot) := by
  unfold dropCmd
  repeat' (first | with_reducible exact hk | with_reducible assumption | with_reducible apply endXts_kept | intro _ | extract_lets | fail_if_no_progress with_reducible refine Kept.upd ?_ rfl rfl rfl)

theorem postFrom_kept {K J : Bool} {c₀ : State} {s : State} (core : Nat) (slot : Nat) (st : Status) (dw0 : Nat) (dw1 : Nat) (data : List Nat) (hk : Kept K J c₀ s) : Kept K J c₀ (postFrom core s slot st dw0 dw1 data) := by
  unfold postFrom
  repeat' (first | with_reducible exact hk | with_reducible assumption | with_reducible apply dropCmd_kept | with_reducible apply freeBufs_kept | with_reducible apply missEvent_kept | with_reducible apply send_kept | with_reducible apply setLedger_kept | with_reducible apply complete_kept | with_reducible apply Kept.ite | intro _ | extract_lets | split)

theorem endCmd_kept {K J : Bool} {c₀ : State} {s : State} (slot : Nat) (st : Status) (dw0 : Nat) (dw1 : Nat) (data : List Nat) (hk : Kept K J c₀ s) : Kept K J c₀ (endCmd s slot st dw0 dw1 data) := by
  unfold endCmd
  repeat' (first | with_reducible exact hk | with_reducible assumption | with_reducible apply postFrom_kept | intro _ | extract_lets | split)

theorem wakeFlushes_kept {K J : Bool} {c₀ : State} {s : State} (slot : Nat) (hk : Kept K J c₀ s) : Kept K J c₀ (wakeFlushes s slot) := by
  unfold wakeFlushes
  repeat' (first | with_reducible exact hk | with_reducible assumption | with_reducible apply endCmd_kept | with_reducible apply Kept.foldl | with_reducible apply Kept.foldl_fst | with_reducible apply Kept.foldl_snd | intro _ | extract_lets | fail_if_no_progress with_reducible refine Kept.upd ?_ rfl rfl rfl)

theorem endDelete_kept {K J : Bool} {c₀ : State} {s : State} (func : Nat) (sqid : Nat) (hk : Kept K J c₀ s) : Kept K J c₀ (endDelete s func sqid) := by
  unfold endDelete
  repeat' (first | with_reducible exact hk | with_reducible assumption | with_reducible apply complete_kept | with_reducible apply Kept.ite | intro _ | extract_lets | fail_if_no_progress with_reducible refine Kept.upd ?_ rfl rfl rfl | split)

theorem endShutdown_kept {K J : Bool} {c₀ : State} {s : State} (func : Nat) (hk : Kept K J c₀ s) : Kept K J c₀ (endShutdown s func) := by
  unfold endShutdown
  repeat' (first | with_reducible exact hk | with_reducible assumption | with_reducible apply setCtrl_kept | with_reducible apply Kept.ite | intro _)

theorem settleShutdowns_kept {K J : Bool} {c₀ : State} {s : State} (hk : Kept K J c₀ s) : Kept K J c₀ (settleShutdowns s) := by
  unfold settleShutdowns
  repeat' (first | with_reducible exact hk | with_reducible assumption | with_reducible apply endShutdown_kept | with_reducible apply Kept.foldl | with_reducible apply Kept.foldl_fst | intro _)

theorem putInjected_kept {K J : Bool} {c₀ : State} {s : State} (slot : Nat) (key : Nat) (tenant : Nat) (hk : Kept K J c₀ s) : Kept K J c₀ (putInjected s slot key tenant) := by
  unfold putInjected
  repeat' (first | with_reducible exact hk | with_reducible assumption | with_reducible apply Kept.ite | intro _ | extract_lets | fail_if_no_progress with_reducible refine Kept.upd ?_ rfl rfl rfl)

theorem tcgResult_kept {K J : Bool} {c₀ : State} {s : State} (func : Nat) (cid : Nat) (result : Nat) (hk : Kept K J c₀ s) : Kept K J c₀ (tcgResult s func cid result) := by
  unfold tcgResult
  repeat' (first | with_reducible exact hk | with_reducible assumption | with_reducible apply complete_kept | intro _ | extract_lets | fail_if_no_progress with_reducible refine Kept.upd ?_ rfl rfl rfl)

theorem tcgFor_kept {K J : Bool} {c₀ : State} {s : State} (owner : Nat) (cid : Nat) (result : Nat) (hk : Kept K J c₀ s) : Kept K J c₀ (tcgFor s owner cid result) := by
  unfold tcgFor
  repeat' (first | with_reducible exact hk | with_reducible assumption | with_reducible apply tcgResult_kept | with_reducible apply Kept.ite | intro _)

theorem endInjection_kept {K J : Bool} {c₀ : State} {s : State} (func : Nat) (cid : Nat) (ok : Bool) (hk : Kept K J c₀ s) : Kept K J c₀ (endInjection s func cid ok) := by
  unfold endInjection
  repeat' (first | with_reducible exact hk | with_reducible assumption | with_reducible apply send_kept | with_reducible apply tcgFor_kept | with_reducible apply Kept.ite | intro _)

theorem inject_kept {K J : Bool} {c₀ : State} {s : State} (w : KeyWait) (hk : Kept K J c₀ s) : Kept K J c₀ (inject s w) := by
  unfold inject
  repeat' (first | with_reducible exact hk | with_reducible assumption | with_reducible apply endInjection_kept | with_reducible apply putInjected_kept | with_reducible apply Kept.ite | intro _ | extract_lets | fail_if_no_progress with_reducible refine Kept.upd ?_ rfl rfl rfl | split)

theorem settleKeys_kept {K J : Bool} {c₀ : State} {s : State} (hk : Kept K J c₀ s) : Kept K J c₀ (settleKeys s) := by
  unfold settleKeys
  repeat' (first | with_reducible exact hk | with_reducible assumption | with_reducible apply inject_kept | with_reducible apply Kept.ite | with_reducible apply Kept.foldl | with_reducible apply Kept.foldl_snd | intro _ | extract_lets | fail_if_no_progress with_reducible refine Kept.upd ?_ rfl rfl rfl)

theorem afterEnd_kept {K J : Bool} {c₀ : State} {s : State} (slot : Nat) (func : Nat) (sqid : Nat) (hk : Kept K J c₀ s) : Kept K J c₀ (afterEnd s slot func sqid) := by
  unfold afterEnd
  repeat' (first | with_reducible exact hk | with_reducible assumption | with_reducible apply settleKeys_kept | with_reducible apply endShutdown_kept | with_reducible apply endDelete_kept | with_reducible apply wakeFlushes_kept)

theorem finish_kept {K J : Bool} {c₀ : State} {s : State} (slot : Nat) (st : Status) (dw0 : Nat) (dw1 : Nat) (data : List Nat) (hk : Kept K J c₀ s) : Kept K J c₀ (finish s slot st dw0 dw1 data) := by
  unfold finish
  repeat' (first | with_reducible exact hk | with_reducible assumption | with_reducible apply afterEnd_kept | with_reducible apply endCmd_kept | intro _ | extract_lets | split)

theorem disposeQuiet_kept {K J : Bool} {c₀ : State} {s : State} (slot : Nat) (hk : Kept K J c₀ s) : Kept K J c₀ (disposeQuiet s slot) := by
  unfold disposeQuiet
  repeat' (first | with_reducible exact hk | with_reducible assumption | with_reducible apply afterEnd_kept | with_reducible apply missEvent_kept | with_reducible apply dropCmd_kept | with_reducible apply freeBufs_kept | intro _ | extract_lets | split)

theorem setCmd_kept {K J : Bool} {c₀ : State} {s : State} (slot : Nat) (f : Cmd → Cmd) (hk : Kept K J c₀ s) : Kept K J c₀ (setCmd s slot f) := by
  unfold setCmd
  repeat' (first | with_reducible exact hk | with_reducible assumption | intro _ | extract_lets | fail_if_no_progress with_reducible refine Kept.upd ?_ rfl rfl rfl)

theorem setZone_kept {K J : Bool} {c₀ : State} {s : State} (nsid : Nat) (i : Nat) (f : Zone → Zone) (hk : Kept K J c₀ s) : Kept K J c₀ (setZone s nsid i f) := by
  unfold setZone
  repeat' (first | with_reducible exact hk | with_reducible assumption | with_reducible apply setNs_kept)

theorem queuePass_kept {K J : Bool} {c₀ : State} {s : State} (nsid : Nat) (i : Nat) (z : Zone) (kind : DieOpKind) (wl : Nat) (func : Nat) (step : Nat) (hk : Kept K J c₀ s) : Kept K J c₀ (queuePass s nsid i z kind wl func step) := by
  unfold queuePass
  repeat' (first | with_reducible exact hk | with_reducible assumption | intro _ | extract_lets | fail_if_no_progress with_reducible refine Kept.upd ?_ rfl rfl rfl | split)

theorem queueLine_kept {K J : Bool} {c₀ : State} {s : State} (nsid : Nat) (i : Nat) (z : Zone) (wl : Nat) (func : Nat) (step : Nat) (hk : Kept K J c₀ s) : Kept K J c₀ (queueLine s nsid i z wl func step) := by
  unfold queueLine
  repeat' (first | with_reducible exact hk | with_reducible assumption | with_reducible apply queuePass_kept | with_reducible apply Kept.ite | intro _)

theorem countHost_kept {K J : Bool} {c₀ : State} {s : State} (density : Nat) (kib : Nat) (hk : Kept K J c₀ s) : Kept K J c₀ (countHost s density kib) := by
  unfold countHost
  repeat' (first | with_reducible exact hk | with_reducible assumption | intro _ | extract_lets | fail_if_no_progress with_reducible refine Kept.upd ?_ rfl rfl rfl)

theorem queueTo_kept {K J : Bool} {c₀ : State} {s : State} (nsid : Nat) (i : Nat) (upTo : Nat) (func : Nat) (step : Nat) (hk : Kept K J c₀ s) : Kept K J c₀ (queueTo s nsid i upTo func step) := by
  unfold queueTo
  repeat' (first | with_reducible exact hk | with_reducible assumption | with_reducible apply setZone_kept | with_reducible apply queueLine_kept | with_reducible apply Kept.foldl | intro _ | extract_lets | fail_if_no_progress with_reducible refine Kept.upd ?_ rfl rfl rfl | split)

theorem foldReads_kept {K J : Bool} {c₀ : State} {s : State} (nsid : Nat) (i : Nat) (lo : Nat) (hi : Nat) (hk : Kept K J c₀ s) : Kept K J c₀ (foldReads s nsid i lo hi) := by
  unfold foldReads
  repeat' (first | with_reducible exact hk | with_reducible assumption | with_reducible apply askReads_kept | with_reducible apply Kept.foldl | intro _ | extract_lets | split)

theorem foldTo_kept {K J : Bool} {c₀ : State} {s : State} (nsid : Nat) (i : Nat) (upTo : Nat) (func : Nat) (hk : Kept K J c₀ s) : Kept K J c₀ (foldTo s nsid i upTo func) := by
  unfold foldTo
  repeat' (first | with_reducible exact hk | with_reducible assumption | with_reducible apply queueTo_kept | with_reducible apply foldReads_kept | intro _ | extract_lets | split)

theorem queueReady_kept {K J : Bool} {c₀ : State} {s : State} (nsid : Nat) (i : Nat) (func : Nat) (hk : Kept K J c₀ s) : Kept K J c₀ (queueReady s nsid i func) := by
  unfold queueReady
  repeat' (first | with_reducible exact hk | with_reducible assumption | with_reducible apply queueTo_kept | with_reducible apply foldTo_kept | with_reducible apply Kept.ite | intro _ | extract_lets | split)

theorem advance_kept {K J : Bool} {c₀ : State} {s : State} (nsid : Nat) (i : Nat) (endOff : Nat) (func : Nat) (hk : Kept K J c₀ s) : Kept K J c₀ (advance s nsid i endOff func) := by
  unfold advance
  repeat' (first | with_reducible exact hk | with_reducible assumption | with_reducible apply queueReady_kept | with_reducible apply setZone_kept | with_reducible apply Kept.ite | intro _ | extract_lets | fail_if_no_progress with_reducible refine Kept.upd ?_ rfl rfl rfl | split)

theorem markCont_kept {K J : Bool} {c₀ : State} {s : State} (r : VRec) (hk : Kept K J c₀ s) : Kept K J c₀ (markCont s r) := by
  unfold markCont
  repeat' (first | with_reducible exact hk | with_reducible assumption | with_reducible apply setNs_kept | with_reducible apply Kept.ite | intro _)

theorem applyRec_kept {K : Bool} {c₀ : State} {s : State} (seq : Nat) (hk : Kept K false c₀ s) : Kept K false c₀ (applyRec s seq) := by
  unfold applyRec
  repeat' (first | with_reducible exact hk | with_reducible assumption | with_reducible apply markCont_kept | with_reducible apply setRec_kept | with_reducible apply retire_kept | with_reducible apply setZone_kept | with_reducible apply storeRec_kept | with_reducible apply setNs_kept | with_reducible apply countHost_kept | with_reducible apply advance_kept | with_reducible apply finish_kept | with_reducible apply Kept.ite | intro _ | extract_lets | fail_if_no_progress with_reducible refine Kept.upd ?_ rfl rfl rfl | split)

theorem settleZone_kept {K : Bool} {c₀ : State} {s : State} (nsid : Nat) (i : Nat) (hk : Kept K false c₀ s) : Kept K false c₀ (settleZone s nsid i) := by
  unfold settleZone
  repeat' (first | with_reducible exact hk | with_reducible assumption | with_reducible apply applyRec_kept | with_reducible apply Kept.foldl | with_reducible apply Kept.foldl_fst | with_reducible apply Kept.foldl_snd | intro _)

theorem settle_kept {K : Bool} {c₀ : State} {s : State} (seq : Nat) (hk : Kept K false c₀ s) : Kept K false c₀ (settle s seq) := by
  unfold settle
  repeat' (first | with_reducible exact hk | with_reducible assumption | with_reducible apply applyRec_kept | with_reducible apply settleZone_kept | with_reducible apply Kept.ite | intro _ | extract_lets | split)

theorem sendRec_kept {K J : Bool} {c₀ : State} {s : State} (seq : Nat) (hk : Kept K J c₀ s) : Kept K J c₀ (sendRec s seq) := by
  unfold sendRec
  repeat' (first | with_reducible exact hk | with_reducible assumption | with_reducible apply setRec_kept | with_reducible apply send_kept | with_reducible apply dropUser_kept | with_reducible apply Kept.ite | with_reducible apply Kept.elim | intro _ | extract_lets | fail_if_no_progress with_reducible refine Kept.upd ?_ rfl rfl rfl | split)

theorem sendMirror_kept {K J : Bool} {c₀ : State} {s : State} (seq : Nat) (hk : Kept K J c₀ s) : Kept K J c₀ (sendMirror s seq) := by
  unfold sendMirror
  repeat' (first | with_reducible exact hk | with_reducible assumption | with_reducible apply setRec_kept | with_reducible apply sendRec_kept | with_reducible apply Kept.ite | with_reducible apply Kept.foldl | with_reducible apply Kept.foldl_fst | with_reducible apply Kept.foldl_snd | intro _ | extract_lets | fail_if_no_progress with_reducible refine Kept.upd ?_ rfl rfl rfl | split)

/-! ### Machine/Zones -/

theorem getOpen_kept {K J : Bool} {c₀ : State} {s : State} (f : Nat) (hk : Kept K J c₀ s) : KeptOk K J c₀ (getOpen s f) := by
  unfold getOpen
  repeat' (first | with_reducible exact hk | with_reducible assumption | with_reducible refine Kept.of_ok ?_ (by assumption) | with_reducible apply setZone_kept | with_reducible apply KeptOk.ok | with_reducible apply KeptOk.error | with_reducible apply Kept.ite | with_reducible apply KeptOk.ite | intro _ | extract_lets | split)

theorem leaveEmpty_kept {K J : Bool} {c₀ : State} {s : State} (f : Nat) (nsid : Nat) (i : Nat) (n : Ns) (e : Ext) (valid : Bool) (hk : Kept K J c₀ s) : KeptOk K J c₀ (leaveEmpty s f nsid i n e valid) := by
  unfold leaveEmpty
  repeat' (first | with_reducible exact hk | with_reducible assumption | with_reducible refine Kept.of_ok ?_ (by assumption) | with_reducible apply setZone_kept | with_reducible apply KeptOk.ok | with_reducible apply KeptOk.error | with_reducible apply Kept.ite | with_reducible apply KeptOk.ite | intro _ | extract_lets | fail_if_no_progress with_reducible refine Kept.upd ?_ rfl rfl rfl | split)

theorem openAs_kept {K J : Bool} {c₀ : State} {s : State} (f : Nat) (nsid : Nat) (i : Nat) (st : ZState) (hk : Kept K J c₀ s) : Kept K J c₀ (openAs s f nsid i st) := by
  unfold openAs
  repeat' (first | with_reducible exact hk | with_reducible assumption | with_reducible apply setZone_kept)

theorem openForWrite_kept {K J : Bool} {c₀ : State} {s : State} (f : Nat) (nsid : Nat) (i : Nat) (n : Ns) (hk : Kept K J c₀ s) : KeptOk K J c₀ (openForWrite s f nsid i n) := by
  unfold openForWrite
  repeat' (first | with_reducible exact hk | with_reducible assumption | with_reducible refine Kept.of_ok ?_ (by assumption) | with_reducible apply getOpen_kept | with_reducible apply leaveEmpty_kept | with_reducible apply openAs_kept | with_reducible apply KeptOk.ok | with_reducible apply KeptOk.error | with_reducible apply Kept.ite | with_reducible apply KeptOk.ite | intro _ | extract_lets | fail_if_no_progress with_reducible refine Kept.upd ?_ rfl rfl rfl | split)

theorem queueErase_kept {K J : Bool} {c₀ : State} {s : State} (nsid : Nat) (i : Nat) (hk : Kept K J c₀ s) : Kept K J c₀ (queueErase s nsid i) := by
  unfold queueErase
  repeat' (first | with_reducible exact hk | with_reducible assumption | with_reducible apply Kept.ite | intro _ | extract_lets | fail_if_no_progress with_reducible refine Kept.upd ?_ rfl rfl rfl)

theorem retireZone_kept {K J : Bool} {c₀ : State} {s : State} (nsid : Nat) (i : Nat) (hk : Kept K J c₀ s) : Kept K J c₀ (retireZone s nsid i) := by
  unfold retireZone
  repeat' (first | with_reducible exact hk | with_reducible assumption | with_reducible apply retire_kept | with_reducible apply Kept.ite | with_reducible apply Kept.foldl | with_reducible apply Kept.foldl_fst | with_reducible apply Kept.foldl_snd | intro _ | extract_lets | fail_if_no_progress with_reducible refine Kept.upd ?_ rfl rfl rfl)

theorem dropWork_kept {K J : Bool} {c₀ : State} {s : State} (nsid : Nat) (i : Nat) (hk : Kept K J c₀ s) : Kept K J c₀ (dropWork s nsid i) := by
  unfold dropWork
  repeat' (first | with_reducible exact hk | with_reducible assumption | intro _ | extract_lets | fail_if_no_progress with_reducible refine Kept.upd ?_ rfl rfl rfl)

theorem clearExtents_kept {K J : Bool} {c₀ : State} {s : State} (nsid : Nat) (lo : Nat) (hi : Nat) (hk : Kept K J c₀ s) : Kept K J c₀ (clearExtents s nsid lo hi) := by
  unfold clearExtents
  repeat' (first | with_reducible exact hk | with_reducible assumption | with_reducible apply Kept.ite | intro _ | extract_lets | fail_if_no_progress with_reducible refine Kept.upd ?_ rfl rfl rfl)

theorem emptyZone_kept {K : Bool} {c₀ : State} {s : State} (nsid : Nat) (i : Nat) (hk : Kept K false c₀ s) : Kept K false c₀ (emptyZone s nsid i) := by
  unfold emptyZone
  repeat' (first | with_reducible exact hk | with_reducible assumption | with_reducible apply retireZone_kept | with_reducible apply queueErase_kept | with_reducible apply dropWork_kept | with_reducible apply clearExtents_kept | with_reducible apply clearRange_kept | with_reducible apply setZone_kept | intro _ | extract_lets | fail_if_no_progress with_reducible refine Kept.upd ?_ rfl rfl rfl | split)

theorem finishZone_kept {K J : Bool} {c₀ : State} {s : State} (nsid : Nat) (i : Nat) (byCtrl : Bool) (hk : Kept K J c₀ s) : Kept K J c₀ (finishZone s nsid i byCtrl) := by
  unfold finishZone
  repeat' (first | with_reducible exact hk | with_reducible assumption | with_reducible apply setZone_kept | with_reducible apply queueReady_kept | with_reducible apply queueTo_kept | with_reducible apply Kept.ite | intro _ | extract_lets | fail_if_no_progress with_reducible refine Kept.upd ?_ rfl rfl rfl | split)

theorem noteZone_kept {K J : Bool} {c₀ : State} {s : State} (nsid : Nat) (i : Nat) (hk : Kept K J c₀ s) : Kept K J c₀ (noteZone s nsid i) := by
  unfold noteZone
  repeat' (first | with_reducible exact hk | with_reducible assumption | with_reducible apply setNs_kept | with_reducible apply raiseAen_kept | with_reducible apply Kept.ite | with_reducible apply Kept.foldl | intro _ | extract_lets | fail_if_no_progress with_reducible refine Kept.upd ?_ rfl rfl rfl | split)

theorem zoneAction_kept {K : Bool} {c₀ : State} {s : State} (f : Nat) (nsid : Nat) (i : Nat) (action : Nat) (hk : Kept K false c₀ s) : KeptOk K false c₀ (zoneAction s f nsid i action) := by
  unfold zoneAction
  repeat' (first | with_reducible exact hk | with_reducible assumption | with_reducible refine Kept.of_ok ?_ (by assumption) | with_reducible apply setZone_kept | with_reducible apply finishZone_kept | with_reducible apply getOpen_kept | with_reducible apply openAs_kept | with_reducible apply leaveEmpty_kept | with_reducible apply emptyZone_kept | with_reducible apply KeptOk.ok | with_reducible apply KeptOk.error | with_reducible apply Kept.ite | with_reducible apply KeptOk.ite | intro _ | extract_lets | fail_if_no_progress with_reducible refine Kept.upd ?_ rfl rfl rfl | split)

theorem closeZonesOf_kept {K J : Bool} {c₀ : State} {s : State} (p : Zone → Bool) (hk : Kept K J c₀ s) : Kept K J c₀ (closeZonesOf s p) := by
  unfold closeZonesOf
  repeat' (first | with_reducible exact hk | with_reducible assumption | with_reducible apply Kept.ite | intro _ | extract_lets | fail_if_no_progress with_reducible refine Kept.upd ?_ rfl rfl rfl)

/-! ### Machine/Health -/

theorem refreshCrit_kept {K J : Bool} {c₀ : State} {s : State} (hk : Kept K J c₀ s) : Kept K J c₀ (refreshCrit s) := by
  unfold refreshCrit
  repeat' (first | with_reducible exact hk | with_reducible assumption | with_reducible apply ccsSet_kept | with_reducible apply raiseAll_kept | with_reducible apply Kept.ite | intro _ | extract_lets | fail_if_no_progress with_reducible refine Kept.upd ?_ rfl rfl rfl)

theorem capture_kept {K J : Bool} {c₀ : State} {s : State} (typ : Nat) (hk : Kept K J c₀ s) : Kept K J c₀ (capture s typ) := by
  unfold capture
  repeat' (first | with_reducible exact hk | with_reducible assumption | with_reducible apply raiseAen_kept | with_reducible apply Kept.ite | intro _ | extract_lets | fail_if_no_progress with_reducible refine Kept.upd ?_ rfl rfl rfl)

/-! ### Machine/Admission -/

theorem placeTarget_kept {K J : Bool} {c₀ : State} {s : State} (f : Nat) (cls : LClass) (slot : Nat) (d : Nat) (x : Need) (w : Win) (hk : Kept K J c₀ s) : KeptOk K J c₀ (placeTarget s f cls slot d x w) := by
  unfold placeTarget
  repeat' (first | with_reducible exact hk | with_reducible assumption | with_reducible refine Kept.of_ok ?_ (by assumption) | with_reducible apply addDraw_kept | with_reducible apply addClaim_kept | with_reducible apply KeptOk.ok | with_reducible apply KeptOk.error | with_reducible apply Kept.ite | with_reducible apply KeptOk.ite | intro _ | extract_lets | fail_if_no_progress with_reducible refine Kept.upd ?_ rfl rfl rfl | split)

theorem placeSurvivor_kept {K J : Bool} {c₀ : State} {s : State} (f : Nat) (cls : LClass) (slot : Nat) (d : Nat) (x : Need) (w : Win) (onReserve : Bool) (hk : Kept K J c₀ s) : KeptOk K J c₀ (placeSurvivor s f cls slot d x w onReserve) := by
  unfold placeSurvivor
  repeat' (first | with_reducible exact hk | with_reducible assumption | with_reducible refine Kept.of_ok ?_ (by assumption) | with_reducible apply addDraw_kept | with_reducible apply addClaim_kept | with_reducible apply KeptOk.ok | with_reducible apply KeptOk.error | with_reducible apply Kept.ite | with_reducible apply KeptOk.ite | intro _ | extract_lets | fail_if_no_progress with_reducible refine Kept.upd ?_ rfl rfl rfl | split)

theorem placeAround_kept {K J : Bool} {c₀ : State} {s : State} (f : Nat) (cls : LClass) (slot : Nat) (d : Nat) (x : Need) (w : Win) (onReserve : Bool) (hk : Kept K J c₀ s) : KeptOk K J c₀ (placeAround s f cls slot d x w onReserve) := by
  unfold placeAround
  repeat' (first | with_reducible exact hk | with_reducible assumption | with_reducible refine Kept.of_ok ?_ (by assumption) | with_reducible refine Kept.of_ok_self (by assumption) | with_reducible apply placeSurvivor_kept | with_reducible apply KeptOk.ok | with_reducible apply KeptOk.error | with_reducible apply Kept.foldl | with_reducible apply KeptOk.foldl | intro _ | extract_lets | split)

theorem aroundIn_kept {K J : Bool} {c₀ : State} {s : State} (f : Nat) (cls : LClass) (slot : Nat) (d : Nat) (x : Need) (w : Win) (hk : Kept K J c₀ s) : KeptOk K J c₀ (aroundIn s f cls slot d x w) := by
  unfold aroundIn
  repeat' (first | with_reducible exact hk | with_reducible assumption | with_reducible refine Kept.of_ok ?_ (by assumption) | with_reducible refine Kept.of_ok_self (by assumption) | with_reducible apply placeAround_kept | with_reducible apply addDraw_kept | with_reducible apply KeptOk.ok | with_reducible apply KeptOk.error | with_reducible apply Kept.ite | with_reducible apply KeptOk.ite | with_reducible apply Kept.foldl | with_reducible apply KeptOk.foldl | intro _ | extract_lets | split)

theorem placeNeed_kept {K J : Bool} {c₀ : State} {s : State} (f : Nat) (cls : LClass) (slot : Nat) (d : Nat) (x : Need) (w : Win) (hk : Kept K J c₀ s) : KeptOk K J c₀ (placeNeed s f cls slot d x w) := by
  unfold placeNeed
  repeat' (first | with_reducible exact hk | with_reducible assumption | with_reducible refine Kept.of_ok ?_ (by assumption) | with_reducible apply placeAround_kept | with_reducible apply placeTarget_kept | with_reducible apply aroundIn_kept | with_reducible apply KeptOk.ok | with_reducible apply KeptOk.error | with_reducible apply Kept.ite | with_reducible apply KeptOk.ite | intro _ | extract_lets | split)

theorem placeRead_kept {K J : Bool} {c₀ : State} {s : State} (f : Nat) (cls : LClass) (slot : Nat) (needs : KV Need) (bytes : Nat) (s0 : Nat) (tv : Nat) (hk : Kept K J c₀ s) : KeptOk K J c₀ (placeRead s f cls slot needs bytes s0 tv) := by
  unfold placeRead
  repeat' (first | with_reducible exact hk | with_reducible assumption | with_reducible refine Kept.of_ok ?_ (by assumption) | with_reducible refine Kept.of_ok_self (by assumption) | with_reducible apply placeNeed_kept | with_reducible apply KeptOk.ok | with_reducible apply KeptOk.error | with_reducible apply Kept.ite | with_reducible apply KeptOk.ite | with_reducible apply Kept.foldl | with_reducible apply Kept.foldl_fst | with_reducible apply Kept.foldl_snd | with_reducible apply KeptOk.foldl | intro _ | extract_lets | fail_if_no_progress with_reducible refine Kept.upd ?_ rfl rfl rfl | split)

theorem useStandingIn_kept {K J : Bool} {c₀ : State} {s : State} (f : Nat) (cls : LClass) (d : Nat) (g : Nat) (charge : Nat) (w : Win) (k : Nat) (hk : Kept K J c₀ s) : KeptOpt K J c₀ (useStandingIn s f cls d g charge w k) := by
  unfold useStandingIn
  repeat' (first | with_reducible exact hk | with_reducible assumption | with_reducible refine Kept.of_opt ?_ (by assumption) | with_reducible apply addDraw_kept | with_reducible apply KeptOpt.some | with_reducible apply KeptOpt.none | intro _ | extract_lets | split)

theorem useStanding_kept {K J : Bool} {c₀ : State} {s : State} (f : Nat) (cls : LClass) (d : Nat) (g : Nat) (charge : Nat) (w : Win) (hk : Kept K J c₀ s) : KeptOpt K J c₀ (useStanding s f cls d g charge w) := by
  unfold useStanding
  repeat' (first | with_reducible exact hk | with_reducible assumption | with_reducible refine Kept.of_opt ?_ (by assumption) | with_reducible apply useStandingIn_kept | with_reducible apply KeptOpt.some | with_reducible apply KeptOpt.none | intro _ | extract_lets | split)

theorem useClaims_kept {K J : Bool} {c₀ : State} {s : State} (f : Nat) (cls : LClass) (d : Nat) (x : Need) (price : Nat) (w : Win) (hk : Kept K J c₀ s) : KeptOk K J c₀ (useClaims s f cls d x price w) := by
  unfold useClaims
  repeat' (first | with_reducible exact hk | with_reducible assumption | with_reducible refine Kept.of_ok ?_ (by assumption) | with_reducible refine Kept.of_opt ?_ (by assumption) | with_reducible refine Kept.of_ok_self (by assumption) | with_reducible refine Kept.of_opt_self (by assumption) | with_reducible apply useStanding_kept | with_reducible apply KeptOk.ok | with_reducible apply KeptOk.error | with_reducible apply KeptOpt.some | with_reducible apply KeptOpt.none | with_reducible apply Kept.foldl | with_reducible apply KeptOk.foldl | with_reducible apply KeptOpt.foldl | intro _ | extract_lets | split)

theorem placeForwarded_kept {K J : Bool} {c₀ : State} {s : State} (f : Nat) (cls : LClass) (needs : KV Need) (bytes : Nat) (s0 : Nat) (tv : Nat) (hk : Kept K J c₀ s) : KeptOk K J c₀ (placeForwarded s f cls needs bytes s0 tv) := by
  unfold placeForwarded
  repeat' (first | with_reducible exact hk | with_reducible assumption | with_reducible refine Kept.of_ok ?_ (by assumption) | with_reducible refine Kept.of_ok_self (by assumption) | with_reducible apply useClaims_kept | with_reducible apply KeptOk.ok | with_reducible apply KeptOk.error | with_reducible apply Kept.ite | with_reducible apply KeptOk.ite | with_reducible apply Kept.foldl | with_reducible apply Kept.foldl_fst | with_reducible apply Kept.foldl_snd | with_reducible apply KeptOk.foldl | intro _ | extract_lets | fail_if_no_progress with_reducible refine Kept.upd ?_ rfl rfl rfl | split)

theorem placeWt_kept {K J : Bool} {c₀ : State} {s : State} (n : Ns) (f : Nat) (slot : Nat) (nlb : Nat) (s0 : Nat) (tv : Nat) (g : Nat) (op : IoOp) (bytes : Nat) (hk : Kept K J c₀ s) : KeptOpt K J c₀ (placeWt s n f slot nlb s0 tv g op bytes) := by
  unfold placeWt
  repeat' (first | with_reducible exact hk | with_reducible assumption | with_reducible refine Kept.of_opt ?_ (by assumption) | with_reducible refine Kept.of_opt_self (by assumption) | with_reducible apply addClaim_kept | with_reducible apply KeptOpt.some | with_reducible apply KeptOpt.none | with_reducible apply Kept.ite | with_reducible apply KeptOpt.ite | with_reducible apply Kept.foldl | with_reducible apply KeptOpt.foldl | intro _ | extract_lets | fail_if_no_progress with_reducible refine Kept.upd ?_ rfl rfl rfl | split)

/-! ### Machine/Front -/

theorem fetch_kept {K J : Bool} {c₀ : State} {s : State} (func : Nat) (qid : Nat) (hk : Kept K J c₀ s) : KeptSome K J c₀ (fetch s func qid) := by
  unfold fetch
  repeat' (first | with_reducible exact hk | with_reducible assumption | with_reducible refine Kept.of_some ?_ (by assumption) | with_reducible apply KeptSome.some | with_reducible apply KeptSome.none | with_reducible apply Kept.ite | with_reducible apply KeptSome.ite | intro _ | extract_lets | fail_if_no_progress with_reducible refine Kept.upd ?_ rfl rfl rfl | split)

theorem asStamped_kept {J : Bool} {c₀ : State} {s : State} (stamp : Nat) (hk : Kept false J c₀ s) : Kept false J c₀ (asStamped s stamp) := by
  unfold asStamped
  repeat' (first | with_reducible exact hk | with_reducible assumption | with_reducible apply Kept.ite | intro _ | extract_lets | fail_if_no_progress with_reducible refine Kept.upd ?_ rfl rfl rfl | fail_if_no_progress with_reducible refine Kept.updAny ?_ rfl rfl rfl rfl)

theorem spillSends_kept {K J : Bool} {c₀ : State} {s : State} (hk : Kept K J c₀ s) : Kept K J c₀ (spillSends s) := by
  unfold spillSends
  repeat' (first | with_reducible exact hk | with_reducible assumption | with_reducible apply decBuf_kept | with_reducible apply setCmd_kept | with_reducible apply Kept.ite | with_reducible apply Kept.foldl | with_reducible apply Kept.foldl_fst | with_reducible apply Kept.foldl_snd | intro _ | extract_lets | fail_if_no_progress with_reducible refine Kept.upd ?_ rfl rfl rfl)

theorem takeBufs_kept {K J : Bool} {c₀ : State} {s : State} (slot : Nat) (bytes : Nat) (users : List BufUser) (hk : Kept K J c₀ s) : Kept K J c₀ (takeBufs s slot bytes users) := by
  unfold takeBufs
  repeat' (first | with_reducible exact hk | with_reducible assumption | with_reducible apply setCmd_kept | with_reducible apply holdBufs_kept | with_reducible apply startXts_kept | with_reducible apply spillSends_kept | with_reducible apply Kept.ite | intro _ | extract_lets | fail_if_no_progress with_reducible refine Kept.upd ?_ rfl rfl rfl | split)

theorem takeDescr_kept {K J : Bool} {c₀ : State} {s : State} (p : Nat → Bool) (hk : Kept K J c₀ s) : Kept K J c₀ (takeDescr s p) := by
  unfold takeDescr
  repeat' (first | with_reducible exact hk | with_reducible assumption | with_reducible apply Kept.ite | intro _ | extract_lets | fail_if_no_progress with_reducible refine Kept.upd ?_ rfl rfl rfl)

theorem accept_kept {K J : Bool} {c₀ : State} {s : State} (slot : Nat) (c : Cmd) (hk : Kept K J c₀ s) : Kept K J c₀ (accept s slot c) := by
  unfold accept
  repeat' (first | with_reducible exact hk | with_reducible assumption | with_reducible apply setLedger_kept | with_reducible apply Kept.ite | intro _ | extract_lets | fail_if_no_progress with_reducible refine Kept.upd ?_ rfl rfl rfl)

theorem countClaims_kept {K J : Bool} {c₀ : State} {s : State} (slot : Nat) (func : Nat) (twin : Bool) (hk : Kept K J c₀ s) : Kept K J c₀ (countClaims s slot func twin) := by
  unfold countClaims
  repeat' (first | with_reducible exact hk | with_reducible assumption | with_reducible apply Kept.ite | intro _ | extract_lets | fail_if_no_progress with_reducible refine Kept.upd ?_ rfl rfl rfl)

theorem refuse_kept {K J : Bool} {c₀ : State} {s : State} (e : Io) (st : Status) (dw0 : Nat) (hk : Kept K J c₀ s) : Kept K J c₀ (refuse s e st dw0) := by
  unfold refuse
  repeat' (first | with_reducible exact hk | with_reducible assumption | with_reducible apply complete_kept)

theorem refuseWhy_kept {K J : Bool} {c₀ : State} {s : State} (e : Io) (cls : LClass) (op : IoOp) (why : Why) (dw0 : Nat) (hk : Kept K J c₀ s) : Kept K J c₀ (refuseWhy s e cls op why dw0) := by
  unfold refuseWhy
  repeat' (first | with_reducible exact hk | with_reducible assumption | with_reducible apply setLedger_kept | with_reducible apply complete_kept | with_reducible apply Kept.ite | intro _ | extract_lets | fail_if_no_progress with_reducible refine Kept.upd ?_ rfl rfl rfl)

theorem sendForwarded_kept {K J : Bool} {c₀ : State} {s : State} (e : Io) (c : Cmd) (hk : Kept K J c₀ s) : Kept K J c₀ (sendForwarded s e c) := by
  unfold sendForwarded
  repeat' (first | with_reducible exact hk | with_reducible assumption | with_reducible apply send_kept)

theorem forward_kept {K J : Bool} {c₀ : State} {s : State} (slot : Nat) (e : Io) (c : Cmd) (claim : Nat) (hk : Kept K J c₀ s) : Kept K J c₀ (forward s slot e c claim) := by
  unfold forward
  repeat' (first | with_reducible exact hk | with_reducible assumption | with_reducible apply accept_kept | with_reducible apply finish_kept | with_reducible apply takeBufs_kept | with_reducible apply sendForwarded_kept | with_reducible apply Kept.ite | with_reducible apply Kept.elim | intro _ | extract_lets | fail_if_no_progress with_reducible refine Kept.upd ?_ rfl rfl rfl)

/-! ### Machine/Io -/

theorem ioFront_kept {K J : Bool} {c₀ : State} {s : State} (e : Io) (op : IoOp) (all : Bool) (hk : Kept K J c₀ s) : KeptJudged K J c₀ (ioFront s e op all) := by
  unfold ioFront
  repeat' (first | with_reducible exact hk | with_reducible assumption | with_reducible refine Kept.of_judged ?_ (by assumption) | with_reducible refine Kept.of_error_judged ?_ (by assumption) | with_reducible refine Kept.of_some ?_ (by assumption) | with_reducible apply fetch_kept | with_reducible apply refuse_kept | with_reducible apply KeptJudged.ok | with_reducible apply KeptJudged.error | with_reducible apply KeptSome.some | with_reducible apply KeptSome.none | with_reducible apply Kept.ite | with_reducible apply KeptJudged.ite | intro _ | extract_lets | fail_if_no_progress with_reducible refine Kept.upd ?_ rfl rfl rfl | split)

theorem startRead_kept {K J : Bool} {c₀ : State} {s : State} (slot : Nat) (e : Io) (j : Judged) (needs : KV Need) (hk : Kept K J c₀ s) : Kept K J c₀ (startRead s slot e j needs) := by
  unfold startRead
  repeat' (first | with_reducible exact hk | with_reducible assumption | with_reducible apply takeBufs_kept | with_reducible apply accept_kept | with_reducible apply startXts_kept | with_reducible apply Kept.ite | intro _)

theorem admitRead_kept {K J : Bool} {c₀ : State} {s : State} {placed : State} (slot : Nat) (e : Io) (j : Judged) (needs : KV Need) (hk : Kept K J c₀ s) (hk_placed : Kept K J c₀ placed) : Kept K J c₀ (admitRead s placed slot e j needs) := by
  unfold admitRead
  repeat' (first | with_reducible exact hk | with_reducible assumption | with_reducible apply finish_kept | with_reducible apply accept_kept | with_reducible apply countClaims_kept | with_reducible apply startRead_kept | with_reducible apply Kept.ite | intro _)

theorem execRead_kept {K J : Bool} {c₀ : State} {s : State} (e : Io) (hk : Kept K J c₀ s) : KeptBy K J c₀ (execRead e s) := by
  unfold execRead
  repeat' (first | with_reducible exact hk | with_reducible assumption | with_reducible refine Kept.of_judged ?_ (by assumption) | with_reducible refine Kept.of_error_judged ?_ (by assumption) | with_reducible refine Kept.of_ok ?_ (by assumption) | with_reducible apply ioFront_kept | with_reducible apply refuseWhy_kept | with_reducible apply forward_kept | with_reducible apply placeForwarded_kept | with_reducible apply admitRead_kept | with_reducible apply placeRead_kept | with_reducible apply KeptBy.next | with_reducible apply KeptBy.fault | with_reducible apply KeptJudged.ok | with_reducible apply KeptJudged.error | with_reducible apply KeptOk.ok | with_reducible apply KeptOk.error | with_reducible apply Kept.ite | with_reducible apply KeptBy.ite | intro _ | extract_lets | split)

theorem zoneReceive_kept {K J : Bool} {c₀ : State} {s : State} (e : Io) (extended : Bool) (hk : Kept K J c₀ s) : Kept K J c₀ (zoneReceive e s extended) := by
  unfold zoneReceive
  repeat' (first | with_reducible exact hk | with_reducible assumption | with_reducible refine Kept.of_judged ?_ (by assumption) | with_reducible refine Kept.of_error_judged ?_ (by assumption) | with_reducible apply ioFront_kept | with_reducible apply refuseWhy_kept | with_reducible apply forward_kept | with_reducible apply accept_kept | with_reducible apply KeptJudged.ok | with_reducible apply KeptJudged.error | with_reducible apply Kept.ite | intro _ | extract_lets | fail_if_no_progress with_reducible refine Kept.upd ?_ rfl rfl rfl | split)

theorem execReportZones_kept {K J : Bool} {c₀ : State} {s : State} (e : Io) (hk : Kept K J c₀ s) : KeptBy K J c₀ (execReportZones e s) := by
  unfold execReportZones
  repeat' (first | with_reducible exact hk | with_reducible assumption | with_reducible apply zoneReceive_kept | with_reducible apply KeptBy.next)

theorem execExtendedReportZones_kept {K J : Bool} {c₀ : State} {s : State} (e : Io) (hk : Kept K J c₀ s) : KeptBy K J c₀ (execExtendedReportZones e s) := by
  unfold execExtendedReportZones
  repeat' (first | with_reducible exact hk | with_reducible assumption | with_reducible apply zoneReceive_kept | with_reducible apply KeptBy.next)

theorem writeFront_kept {K J : Bool} {c₀ : State} {s : State} (e : Io) (j : Judged) (op : IoOp) (slot : Nat) (all : Bool) (hk : Kept K J c₀ s) : KeptBoth K J c₀ (writeFront s e j op slot all) := by
  unfold writeFront
  repeat' (first | with_reducible exact hk | with_reducible assumption | with_reducible refine Kept.of_ok_both ?_ (by assumption) | with_reducible refine Kept.of_error_both ?_ (by assumption) | with_reducible refine Kept.of_opt ?_ (by assumption) | with_reducible refine Kept.of_snd ?_ (by assumption) | with_reducible apply refuseWhy_kept | with_reducible apply drawFree_kept | with_reducible apply placeWt_kept | with_reducible apply KeptBoth.ok | with_reducible apply KeptBoth.error | with_reducible apply KeptOpt.some | with_reducible apply KeptOpt.none | with_reducible apply Kept.ite | with_reducible apply KeptBoth.ite | intro _ | extract_lets | fail_if_no_progress with_reducible refine Kept.upd ?_ rfl rfl rfl | split)

theorem zoneChecks_kept {K J : Bool} {c₀ : State} {s : State} (e : Io) (n : Ns) (op : IoOp) (hk : Kept K J c₀ s) : KeptPair K J c₀ (zoneChecks s e n op) := by
  unfold zoneChecks
  repeat' (first | with_reducible exact hk | with_reducible assumption | with_reducible refine Kept.of_ok_pair ?_ (by assumption) | with_reducible refine Kept.of_ok ?_ (by assumption) | with_reducible apply openForWrite_kept | with_reducible apply KeptOk.ok | with_reducible apply KeptOk.error | with_reducible apply KeptPair.ok | with_reducible apply KeptPair.error | with_reducible apply Kept.ite | with_reducible apply KeptPair.ite | intro _ | extract_lets | fail_if_no_progress with_reducible refine Kept.upd ?_ rfl rfl rfl | split)

theorem formWrite_kept {K J : Bool} {c₀ : State} {s : State} (slot : Nat) (e : Io) (j : Judged) (op : IoOp) (off : Nat) (core : Nat) (hk : Kept K J c₀ s) : Kept K J c₀ (formWrite s slot e j op off core) := by
  unfold formWrite
  repeat' (first | with_reducible exact hk | with_reducible assumption | with_reducible refine Kept.of_fst ?_ (by assumption) | with_reducible apply formRecord_kept | with_reducible apply setZone_kept | with_reducible apply setCmd_kept | with_reducible apply sendMirror_kept | with_reducible apply Kept.ite | intro _ | extract_lets | fail_if_no_progress with_reducible refine Kept.upd ?_ rfl rfl rfl)

theorem deferShare_kept {K J : Bool} {c₀ : State} {s : State} (slot : Nat) (bytes : Nat) (hk : Kept K J c₀ s) : Kept K J c₀ (deferShare s slot bytes) := by
  unfold deferShare
  repeat' (first | with_reducible exact hk | with_reducible assumption | with_reducible apply setRec_kept | with_reducible apply setCmd_kept | with_reducible apply Kept.ite | intro _ | extract_lets | fail_if_no_progress with_reducible refine Kept.upd ?_ rfl rfl rfl | split)

theorem writeCmd_kept {K J : Bool} {c₀ : State} {s : State} (e : Io) (op : IoOp) (hk : Kept K J c₀ s) : Kept K J c₀ (writeCmd e s op) := by
  unfold writeCmd
  repeat' (first | with_reducible exact hk | with_reducible assumption | with_reducible refine Kept.of_ok_both ?_ (by assumption) | with_reducible refine Kept.of_error_both ?_ (by assumption) | with_reducible refine Kept.of_judged ?_ (by assumption) | with_reducible refine Kept.of_error_judged ?_ (by assumption) | with_reducible refine Kept.of_ok_pair ?_ (by assumption) | with_reducible apply ioFront_kept | with_reducible apply writeFront_kept | with_reducible apply forward_kept | with_reducible apply accept_kept | with_reducible apply zoneChecks_kept | with_reducible apply finish_kept | with_reducible apply formWrite_kept | with_reducible apply deferShare_kept | with_reducible apply setCmd_kept | with_reducible apply takeBufs_kept | with_reducible apply KeptBoth.ok | with_reducible apply KeptBoth.error | with_reducible apply KeptJudged.ok | with_reducible apply KeptJudged.error | with_reducible apply KeptPair.ok | with_reducible apply KeptPair.error | with_reducible apply Kept.ite | intro _ | extract_lets | fail_if_no_progress with_reducible refine Kept.upd ?_ rfl rfl rfl | split)

theorem execWrite_kept {K J : Bool} {c₀ : State} {s : State} (e : Io) (hk : Kept K J c₀ s) : KeptBy K J c₀ (execWrite e s) := by
  unfold execWrite
  repeat' (first | with_reducible exact hk | with_reducible assumption | with_reducible apply writeCmd_kept | with_reducible apply KeptBy.next)

theorem execWriteZeroes_kept {K J : Bool} {c₀ : State} {s : State} (e : Io) (hk : Kept K J c₀ s) : KeptBy K J c₀ (execWriteZeroes e s) := by
  unfold execWriteZeroes
  repeat' (first | with_reducible exact hk | with_reducible assumption | with_reducible apply writeCmd_kept | with_reducible apply KeptBy.next)

theorem execZoneAppend_kept {K J : Bool} {c₀ : State} {s : State} (e : Io) (hk : Kept K J c₀ s) : KeptBy K J c₀ (execZoneAppend e s) := by
  unfold execZoneAppend
  repeat' (first | with_reducible exact hk | with_reducible assumption | with_reducible apply writeCmd_kept | with_reducible apply KeptBy.next)

theorem execFlush_kept {K J : Bool} {c₀ : State} {s : State} (e : Io) (hk : Kept K J c₀ s) : KeptBy K J c₀ (execFlush e s) := by
  unfold execFlush
  repeat' (first | with_reducible exact hk | with_reducible assumption | with_reducible refine Kept.of_ok_both ?_ (by assumption) | with_reducible refine Kept.of_error_both ?_ (by assumption) | with_reducible refine Kept.of_judged ?_ (by assumption) | with_reducible refine Kept.of_error_judged ?_ (by assumption) | with_reducible apply ioFront_kept | with_reducible apply refuseWhy_kept | with_reducible apply writeFront_kept | with_reducible apply forward_kept | with_reducible apply accept_kept | with_reducible apply finish_kept | with_reducible apply KeptBoth.ok | with_reducible apply KeptBoth.error | with_reducible apply KeptBy.next | with_reducible apply KeptBy.fault | with_reducible apply KeptJudged.ok | with_reducible apply KeptJudged.error | with_reducible apply Kept.ite | with_reducible apply KeptBy.ite | with_reducible apply Kept.foldl | with_reducible apply Kept.foldl_fst | with_reducible apply Kept.foldl_snd | intro _ | extract_lets | fail_if_no_progress with_reducible refine Kept.upd ?_ rfl rfl rfl | split)

theorem zoneRecord_kept {K J : Bool} {c₀ : State} {s : State} (e : Io) (n : Ns) (i : Nat) (action : Nat) (core : Nat) (slot : Option Nat) (hk : Kept K J c₀ s) : Kept K J c₀ (zoneRecord s e n i action core slot).1 := by
  unfold zoneRecord
  repeat' (first | with_reducible exact hk | with_reducible assumption | with_reducible refine Kept.of_fst ?_ (by assumption) | with_reducible apply formRecord_kept | with_reducible apply setZone_kept | with_reducible apply sendMirror_kept | with_reducible apply Kept.ite | intro _)

theorem zoneSend_kept {K J : Bool} {c₀ : State} {s : State} (e : Io) (action : Nat) (run : State → Ns → Nat → Except Status State) (recAct : Nat) (hk : Kept K J c₀ s) (k_run : ∀ s x1 x2, Kept K J c₀ s → KeptOk K J c₀ (run s x1 x2)) : Kept K J c₀ (zoneSend e s action run recAct) := by
  unfold zoneSend
  repeat' (first | with_reducible exact hk | with_reducible assumption | with_reducible refine Kept.of_ok_both ?_ (by assumption) | with_reducible refine Kept.of_error_both ?_ (by assumption) | with_reducible refine Kept.of_judged ?_ (by assumption) | with_reducible refine Kept.of_error_judged ?_ (by assumption) | with_reducible refine Kept.of_ok ?_ (by assumption) | with_reducible refine Kept.of_fst ?_ (by assumption) | with_reducible apply ioFront_kept | with_reducible apply writeFront_kept | with_reducible apply forward_kept | with_reducible apply accept_kept | with_reducible apply finish_kept | with_reducible apply zoneRecord_kept | with_reducible apply setCmd_kept | with_reducible apply k_run | with_reducible apply KeptBoth.ok | with_reducible apply KeptBoth.error | with_reducible apply KeptJudged.ok | with_reducible apply KeptJudged.error | with_reducible apply KeptOk.ok | with_reducible apply KeptOk.error | with_reducible apply Kept.ite | intro _ | extract_lets | fail_if_no_progress with_reducible refine Kept.upd ?_ rfl rfl rfl | split)

theorem execOpenZone_kept {K : Bool} {c₀ : State} {s : State} (e : Io) (hk : Kept K false c₀ s) : KeptBy K false c₀ (execOpenZone e s) := by
  unfold execOpenZone
  repeat' (first | with_reducible exact hk | with_reducible assumption | with_reducible apply zoneSend_kept | with_reducible apply zoneAction_kept | with_reducible apply KeptBy.next | with_reducible apply KeptBy.fault | intro _)

theorem execCloseZone_kept {K : Bool} {c₀ : State} {s : State} (e : Io) (hk : Kept K false c₀ s) : KeptBy K false c₀ (execCloseZone e s) := by
  unfold execCloseZone
  repeat' (first | with_reducible exact hk | with_reducible assumption | with_reducible apply zoneSend_kept | with_reducible apply zoneAction_kept | with_reducible apply KeptBy.next | with_reducible apply KeptBy.fault | intro _)

theorem execFinishZone_kept {K : Bool} {c₀ : State} {s : State} (e : Io) (hk : Kept K false c₀ s) : KeptBy K false c₀ (execFinishZone e s) := by
  unfold execFinishZone
  repeat' (first | with_reducible exact hk | with_reducible assumption | with_reducible apply zoneSend_kept | with_reducible apply zoneAction_kept | with_reducible apply KeptBy.next | with_reducible apply KeptBy.fault | intro _)

theorem execResetZone_kept {K : Bool} {c₀ : State} {s : State} (e : Io) (hk : Kept K false c₀ s) : KeptBy K false c₀ (execResetZone e s) := by
  unfold execResetZone
  repeat' (first | with_reducible exact hk | with_reducible assumption | with_reducible apply zoneSend_kept | with_reducible apply zoneAction_kept | with_reducible apply KeptBy.next | with_reducible apply KeptBy.fault | intro _)

theorem execOfflineZone_kept {K : Bool} {c₀ : State} {s : State} (e : Io) (hk : Kept K false c₀ s) : KeptBy K false c₀ (execOfflineZone e s) := by
  unfold execOfflineZone
  repeat' (first | with_reducible exact hk | with_reducible assumption | with_reducible apply zoneSend_kept | with_reducible apply zoneAction_kept | with_reducible apply KeptBy.next | with_reducible apply KeptBy.fault | intro _)

theorem setExtension_kept {K J : Bool} {c₀ : State} {s : State} (e : Io) (n : Ns) (i : Nat) (hk : Kept K J c₀ s) : KeptOk K J c₀ (setExtension e s n i) := by
  unfold setExtension
  repeat' (first | with_reducible exact hk | with_reducible assumption | with_reducible refine Kept.of_ok ?_ (by assumption) | with_reducible apply leaveEmpty_kept | with_reducible apply setZone_kept | with_reducible apply KeptOk.ok | with_reducible apply KeptOk.error | intro _ | extract_lets | fail_if_no_progress with_reducible refine Kept.upd ?_ rfl rfl rfl | split)

theorem execSetZoneDescriptorExtension_kept {K J : Bool} {c₀ : State} {s : State} (e : Io) (hk : Kept K J c₀ s) : KeptBy K J c₀ (execSetZoneDescriptorExtension e s) := by
  unfold execSetZoneDescriptorExtension
  repeat' (first | with_reducible exact hk | with_reducible assumption | with_reducible apply zoneSend_kept | with_reducible apply setExtension_kept | with_reducible apply KeptBy.next | with_reducible apply KeptBy.fault | intro _)

theorem selectOne_kept {K : Bool} {c₀ : State} (e : Io) (n : Ns) (r : State × List (Nat × ZRes)) (i : Nat) (hk : Kept K false c₀ r.1) : Kept K false c₀ (selectOne e n r i).1 := by
  unfold selectOne
  repeat' (first | with_reducible exact hk | with_reducible assumption | with_reducible refine Kept.of_ok ?_ (by assumption) | with_reducible refine Kept.of_fst ?_ (by assumption) | with_reducible apply zoneAction_kept | with_reducible apply zoneRecord_kept | with_reducible apply KeptOk.ok | with_reducible apply KeptOk.error | with_reducible apply Kept.ite | intro _ | extract_lets | fail_if_no_progress with_reducible refine Kept.upd ?_ rfl rfl rfl | split)

theorem selectFrom_kept {K : Bool} {c₀ : State} {s : State} (e : Io) (n : Ns) (first : Nat) (hk : Kept K false c₀ s) : Kept K false c₀ (selectFrom s e n first).1 := by
  unfold selectFrom
  repeat' (first | with_reducible exact hk | with_reducible assumption | with_reducible apply selectOne_kept | with_reducible apply Kept.foldl | with_reducible apply Kept.foldl_fst)

theorem keepZop_kept {K J : Bool} {c₀ : State} {s : State} (f : Nat) (z : ZopRec) (hk : Kept K J c₀ s) : Kept K J c₀ (keepZop s f z) := by
  unfold keepZop
  repeat' (first | with_reducible exact hk | with_reducible assumption | with_reducible apply setCtrl_kept)

theorem setZop_kept {K J : Bool} {c₀ : State} {s : State} (f : Nat) (seq : Nat) (g : ZopRec → ZopRec) (hk : Kept K J c₀ s) : Kept K J c₀ (setZop s f seq g) := by
  unfold setZop
  repeat' (first | with_reducible exact hk | with_reducible assumption | with_reducible apply setCtrl_kept)

theorem endZop_kept {K J : Bool} {c₀ : State} {s : State} (slot : Nat) (c : Cmd) (hk : Kept K J c₀ s) : Kept K J c₀ (endZop s slot c) := by
  unfold endZop
  repeat' (first | with_reducible exact hk | with_reducible assumption | with_reducible apply setZop_kept | with_reducible apply finish_kept)

theorem settleRes_kept {K J : Bool} {c₀ : State} {s : State} (slot : Nat) (c : Cmd) (i : Nat) (r : ZRes) (hk : Kept K J c₀ s) : Kept K J c₀ (settleRes s slot c i r) := by
  unfold settleRes
  repeat' (first | with_reducible exact hk | with_reducible assumption | with_reducible apply setZop_kept | with_reducible apply send_kept | with_reducible apply setCmd_kept | with_reducible apply Kept.ite | intro _ | extract_lets | fail_if_no_progress with_reducible refine Kept.upd ?_ rfl rfl rfl | split)

theorem settleHead_kept {K J : Bool} {c₀ : State} {s : State} (slot : Nat) (c : Cmd) (x : List (Nat × ZRes)) (hk : Kept K J c₀ s) : Kept K J c₀ (settleHead slot c x s).1 := by
  induction x generalizing s with
  | nil => exact hk
  | cons a l ih =>
    obtain ⟨i, r⟩ := a
    cases r with
    | change q => exact hk
    | _ => exact ih (settleRes_kept _ _ _ _ hk)

theorem settleZop_kept {K J : Bool} {c₀ : State} {s : State} (slot : Nat) (l : List (Nat × ZRes)) (hk : Kept K J c₀ s) : Kept K J c₀ (settleZop s slot l) := by
  unfold settleZop
  repeat' (first | with_reducible exact hk | with_reducible assumption | with_reducible refine Kept.of_fst ?_ (by assumption) | with_reducible apply settleHead_kept | with_reducible apply setCmd_kept | with_reducible apply finish_kept | with_reducible apply endZop_kept | with_reducible apply Kept.ite | with_reducible apply Kept.elim | intro _ | extract_lets | fail_if_no_progress with_reducible refine Kept.upd ?_ rfl rfl rfl | split)

theorem zopResult_kept {K J : Bool} {c₀ : State} {s : State} (seq : Nat) (r : ZRes) (hk : Kept K J c₀ s) : Kept K J c₀ (zopResult s seq r) := by
  unfold zopResult
  repeat' (first | with_reducible exact hk | with_reducible assumption | with_reducible apply settleZop_kept | with_reducible apply Kept.ite | with_reducible apply Kept.foldl | with_reducible apply Kept.foldl_fst | with_reducible apply Kept.foldl_snd | intro _)

theorem wakeZops_kept {K J : Bool} {c₀ : State} {s : State} (seq : Nat) (hk : Kept K J c₀ s) : Kept K J c₀ (wakeZops s seq) := by
  unfold wakeZops
  repeat' (first | with_reducible exact hk | with_reducible assumption | with_reducible apply zopResult_kept)

theorem execZoneSendSelectAll_kept {K : Bool} {c₀ : State} {s : State} (e : Io) (hk : Kept K false c₀ s) : KeptBy K false c₀ (execZoneSendSelectAll e s) := by
  unfold execZoneSendSelectAll
  repeat' (first | with_reducible exact hk | with_reducible assumption | with_reducible refine Kept.of_ok_both ?_ (by assumption) | with_reducible refine Kept.of_error_both ?_ (by assumption) | with_reducible refine Kept.of_judged ?_ (by assumption) | with_reducible refine Kept.of_error_judged ?_ (by assumption) | with_reducible refine Kept.of_fst ?_ (by assumption) | with_reducible apply ioFront_kept | with_reducible apply writeFront_kept | with_reducible apply keepZop_kept | with_reducible apply setCmd_kept | with_reducible apply forward_kept | with_reducible apply accept_kept | with_reducible apply selectFrom_kept | with_reducible apply settleZop_kept | with_reducible apply KeptBoth.ok | with_reducible apply KeptBoth.error | with_reducible apply KeptBy.next | with_reducible apply KeptBy.fault | with_reducible apply KeptJudged.ok | with_reducible apply KeptJudged.error | intro _ | extract_lets | fail_if_no_progress with_reducible refine Kept.upd ?_ rfl rfl rfl | split)

end Sys2Proof.Machine
end

