-- ==== Sys2Proof/Laws/KeptMedia.lean ====
section
/-! SUPPORT. `Kept` of the media, the data path, the copies and the landing: one lemma for each operation and for the meaning of each command. -/

namespace Sys2Proof.Machine

/-! ### Machine/Media -/

theorem setBset_kept {K J : Bool} {c₀ : State} {s : State} (k : Nat) (f : BSet → BSet) (hk : Kept K J c₀ s) : Kept K J c₀ (setBset s k f) := by
  unfold setBset
  repeat' (first | with_reducible exact hk | with_reducible assumption | intro _ | extract_lets | fail_if_no_progress with_reducible refine Kept.upd ?_ rfl rfl rfl)

theorem bindSet_kept {K J : Bool} {c₀ : State} {s : State} (k : Nat) (f : BSet → BSet) (hk : Kept K J c₀ s) : Kept K J c₀ (bindSet s k f) := by
  unfold bindSet
  repeat' (first | with_reducible exact hk | with_reducible assumption | with_reducible apply setBset_kept)

theorem bindZone_kept {K J : Bool} {c₀ : State} {s : State} (d : Nat) (nsid : Nat) (i : Nat) (z : Zone) (hk : Kept K J c₀ s) : KeptFst K J c₀ (bindZone s d nsid i z) := by
  unfold bindZone
  repeat' (first | with_reducible exact hk | with_reducible assumption | with_reducible refine Kept.of_some_fst ?_ (by assumption) | with_reducible apply bindSet_kept | with_reducible apply KeptFst.some | with_reducible apply KeptFst.none | with_reducible apply KeptFst.map | intro _ | extract_lets | fail_if_no_progress with_reducible refine Kept.upd ?_ rfl rfl rfl | split)

theorem toErase_kept {K J : Bool} {c₀ : State} {s : State} (k : Nat) (hk : Kept K J c₀ s) : Kept K J c₀ (toErase s k) := by
  unfold toErase
  repeat' (first | with_reducible exact hk | with_reducible assumption | with_reducible apply setBset_kept | with_reducible apply Kept.ite | intro _ | extract_lets | fail_if_no_progress with_reducible refine Kept.upd ?_ rfl rfl rfl)

theorem toEraseAll_kept {K J : Bool} {c₀ : State} {s : State} (k : Nat) (hk : Kept K J c₀ s) : Kept K J c₀ (toEraseAll s k) := by
  unfold toEraseAll
  repeat' (first | with_reducible exact hk | with_reducible assumption | with_reducible apply toErase_kept | with_reducible apply Kept.foldl)

theorem continueIn_kept {K J : Bool} {c₀ : State} {s : State} (k : Nat) (c : Nat) (first : Nat) (hk : Kept K J c₀ s) : Kept K J c₀ (continueIn s k c first) := by
  unfold continueIn
  repeat' (first | with_reducible exact hk | with_reducible assumption | with_reducible apply setBset_kept | with_reducible apply bindSet_kept)

theorem retireNs_kept {K J : Bool} {c₀ : State} {s : State} (nsid : Nat) (hk : Kept K J c₀ s) : Kept K J c₀ (retireNs s nsid) := by
  unfold retireNs
  repeat' (first | with_reducible exact hk | with_reducible assumption | with_reducible apply retire_kept | with_reducible apply Kept.foldl | with_reducible apply Kept.foldl_fst | with_reducible apply Kept.foldl_snd | intro _ | extract_lets | split)

theorem takeRows_kept {K J : Bool} {c₀ : State} {s : State} (g : Nat) (log : Bool) (n : Nat) (hk : Kept K J c₀ s) : KeptFst K J c₀ (takeRows s g log n) := by
  unfold takeRows
  repeat' (first | with_reducible exact hk | with_reducible assumption | with_reducible refine Kept.of_some_fst ?_ (by assumption) | with_reducible apply KeptFst.some | with_reducible apply KeptFst.none | with_reducible apply Kept.ite | with_reducible apply KeptFst.ite | with_reducible apply KeptFst.map | intro _ | extract_lets | fail_if_no_progress with_reducible refine Kept.upd ?_ rfl rfl rfl | split)

theorem rowPlace_kept {K J : Bool} {c₀ : State} {s : State} (g : Nat) (x : Option Nat) (hk : Kept K J c₀ s) : KeptFst K J c₀ (rowPlace s g x) := by
  unfold rowPlace
  repeat' (first | with_reducible exact hk | with_reducible assumption | with_reducible apply takeRows_kept | with_reducible apply setGrp_kept | with_reducible apply KeptFst.some | with_reducible apply KeptFst.none | with_reducible apply Kept.ite | with_reducible apply KeptFst.ite | with_reducible apply KeptFst.map | intro _ | extract_lets | fail_if_no_progress with_reducible refine Kept.upd ?_ rfl rfl rfl | split)

theorem queueRow_kept {K J : Bool} {c₀ : State} {s : State} (j : RowJob) (base : Nat) (lines : Nat) (hk : Kept K J c₀ s) : Kept K J c₀ (queueRow s j base lines) := by
  unfold queueRow
  repeat' (first | with_reducible exact hk | with_reducible assumption | intro _ | extract_lets | fail_if_no_progress with_reducible refine Kept.upd ?_ rfl rfl rfl)

theorem releaseRow_kept {K J : Bool} {c₀ : State} {s : State} (g : Nat) (ns : Option Nat) (hk : Kept K J c₀ s) : Kept K J c₀ (releaseRow s g ns) := by
  unfold releaseRow
  repeat' (first | with_reducible exact hk | with_reducible assumption | with_reducible refine Kept.of_some_fst ?_ (by assumption) | with_reducible apply rowPlace_kept | with_reducible apply queueRow_kept | with_reducible apply setGrp_kept | with_reducible apply KeptFst.some | with_reducible apply KeptFst.none | with_reducible apply Kept.ite | intro _ | extract_lets | fail_if_no_progress with_reducible refine Kept.upd ?_ rfl rfl rfl | split)

theorem putUnit_kept {K J : Bool} {c₀ : State} {s : State} (g : Nat) (ns : Option Nat) (seq : Nat) (u : Nat) (hk : Kept K J c₀ s) : Kept K J c₀ (putUnit s g ns seq u) := by
  unfold putUnit
  repeat' (first | with_reducible exact hk | with_reducible assumption | with_reducible apply setGrp_kept | with_reducible apply releaseRow_kept | with_reducible apply Kept.ite | intro _)

theorem appendUnit_kept {K J : Bool} {c₀ : State} {s : State} (nsid : Nat) (u : Nat) (hk : Kept K J c₀ s) : Kept K J c₀ (appendUnit nsid s u) := by
  unfold appendUnit
  repeat' (first | with_reducible exact hk | with_reducible assumption | with_reducible apply setNs_kept | intro _ | extract_lets | fail_if_no_progress with_reducible refine Kept.upd ?_ rfl rfl rfl | split)

theorem mergeUnit_kept {K J : Bool} {c₀ : State} {s : State} (nsid : Nat) (u : Nat) (hk : Kept K J c₀ s) : Kept K J c₀ (mergeUnit nsid s u) := by
  unfold mergeUnit
  repeat' (first | with_reducible exact hk | with_reducible assumption | with_reducible refine Kept.of_some_fst ?_ (by assumption) | with_reducible apply takeRows_kept | with_reducible apply askReads_kept | with_reducible apply queueRow_kept | with_reducible apply KeptFst.some | with_reducible apply KeptFst.none | with_reducible apply Kept.ite | intro _ | extract_lets | fail_if_no_progress with_reducible refine Kept.upd ?_ rfl rfl rfl | split)

theorem staleMeta_kept {K J : Bool} {c₀ : State} {s : State} (g : Nat) (hk : Kept K J c₀ s) : Kept K J c₀ (staleMeta s g) := by
  unfold staleMeta
  repeat' (first | with_reducible exact hk | with_reducible assumption | with_reducible apply toEraseAll_kept | with_reducible apply Kept.foldl | with_reducible apply Kept.foldl_fst | with_reducible apply Kept.foldl_snd | intro _)

theorem freeLog_kept {K J : Bool} {c₀ : State} {s : State} (nsid : Nat) (hk : Kept K J c₀ s) : Kept K J c₀ (freeLog s nsid) := by
  unfold freeLog
  repeat' (first | with_reducible exact hk | with_reducible assumption | with_reducible apply moduleRecord_kept | with_reducible apply staleMeta_kept | with_reducible apply setNs_kept | with_reducible apply Kept.ite | intro _ | extract_lets | fail_if_no_progress with_reducible refine Kept.upd ?_ rfl rfl rfl | split)

theorem startMerge_kept {K J : Bool} {c₀ : State} {s : State} (nsid : Nat) (hk : Kept K J c₀ s) : Kept K J c₀ (startMerge s nsid) := by
  unfold startMerge
  repeat' (first | with_reducible exact hk | with_reducible assumption | with_reducible apply mergeUnit_kept | with_reducible apply setNs_kept | with_reducible apply freeLog_kept | with_reducible apply Kept.ite | with_reducible apply Kept.foldl | intro _ | extract_lets | fail_if_no_progress with_reducible refine Kept.upd ?_ rfl rfl rfl | split)

theorem stageRec_kept {K J : Bool} {c₀ : State} {s : State} (seq : Nat) (hk : Kept K J c₀ s) : Kept K J c₀ (stageRec s seq) := by
  unfold stageRec
  repeat' (first | with_reducible exact hk | with_reducible assumption | with_reducible apply setRec_kept | with_reducible apply startMerge_kept | with_reducible apply appendUnit_kept | with_reducible apply putUnit_kept | with_reducible apply releaseRow_kept | with_reducible apply Kept.ite | with_reducible apply Kept.foldl | intro _ | extract_lets | fail_if_no_progress with_reducible refine Kept.upd ?_ rfl rfl rfl | split)

theorem stageWaiting_kept {K J : Bool} {c₀ : State} {s : State} (nsid : Nat) (hk : Kept K J c₀ s) : Kept K J c₀ (stageWaiting s nsid) := by
  unfold stageWaiting
  repeat' (first | with_reducible exact hk | with_reducible assumption | with_reducible apply stageRec_kept | with_reducible apply Kept.foldl | with_reducible apply Kept.foldl_fst | with_reducible apply Kept.foldl_snd | intro _)

theorem stageZone_kept {K J : Bool} {c₀ : State} {s : State} (nsid : Nat) (i : Nat) (hk : Kept K J c₀ s) : Kept K J c₀ (stageZone s nsid i) := by
  unfold stageZone
  repeat' (first | with_reducible exact hk | with_reducible assumption | with_reducible apply stageRec_kept | with_reducible apply setZone_kept | with_reducible apply Kept.ite | with_reducible apply Kept.foldl | with_reducible apply Kept.foldl_fst | with_reducible apply Kept.foldl_snd | intro _ | extract_lets | fail_if_no_progress with_reducible refine Kept.upd ?_ rfl rfl rfl | split)

theorem afterApply_kept {K J : Bool} {c₀ : State} {s : State} (seq : Nat) (hk : Kept K J c₀ s) : Kept K J c₀ (afterApply s seq) := by
  unfold afterApply
  repeat' (first | with_reducible exact hk | with_reducible assumption | with_reducible apply retireNs_kept | with_reducible apply stageRec_kept | with_reducible apply stageZone_kept | with_reducible apply Kept.ite | intro _ | extract_lets | split)

theorem relieve_kept {K J : Bool} {c₀ : State} {s : State} (k : Nat) (hk : Kept K J c₀ s) : Kept K J c₀ (relieve k s) := by
  induction k generalizing s with
  | zero => unfold relieve; repeat' (first | with_reducible exact hk)
  | succ k ih =>
    unfold relieve
    repeat' (first | with_reducible apply ih | with_reducible exact hk | with_reducible assumption | with_reducible apply stageZone_kept | with_reducible apply Kept.ite | intro _ | extract_lets | split)

theorem checkRelief_kept {K J : Bool} {c₀ : State} {s : State} (hk : Kept K J c₀ s) : Kept K J c₀ (checkRelief s) := by
  unfold checkRelief
  repeat' (first | with_reducible exact hk | with_reducible assumption | with_reducible apply relieve_kept | with_reducible apply Kept.ite | intro _)

theorem settleStaging_kept {K J : Bool} {c₀ : State} {s : State} (nsid : Nat) (i : Nat) (hk : Kept K J c₀ s) : Kept K J c₀ (settleStaging s nsid i) := by
  unfold settleStaging
  repeat' (first | with_reducible exact hk | with_reducible assumption | with_reducible apply setZone_kept | with_reducible apply Kept.ite | intro _ | extract_lets | fail_if_no_progress with_reducible refine Kept.upd ?_ rfl rfl rfl | split)

theorem staleStripes_kept {K J : Bool} {c₀ : State} {s : State} (g : Nat) (hk : Kept K J c₀ s) : Kept K J c₀ (staleStripes s g) := by
  unfold staleStripes
  repeat' (first | with_reducible exact hk | with_reducible assumption | with_reducible apply toEraseAll_kept | with_reducible apply Kept.foldl | intro _)

theorem compact_kept {K J : Bool} {c₀ : State} {s : State} (g : Nat) (hk : Kept K J c₀ s) : Kept K J c₀ (compact s g) := by
  unfold compact
  repeat' (first | with_reducible exact hk | with_reducible assumption | with_reducible refine Kept.of_some_fst ?_ (by assumption) | with_reducible apply rowPlace_kept | with_reducible apply askReads_kept | with_reducible apply queueRow_kept | with_reducible apply KeptFst.some | with_reducible apply KeptFst.none | with_reducible apply Kept.ite | with_reducible apply Kept.foldl | with_reducible apply Kept.foldl_fst | intro _ | extract_lets | fail_if_no_progress with_reducible refine Kept.upd ?_ rfl rfl rfl | split)

theorem mergeDone_kept {K J : Bool} {c₀ : State} {s : State} (j : RowJob) (nsid : Nat) (hk : Kept K J c₀ s) : Kept K J c₀ (mergeDone s j nsid) := by
  unfold mergeDone
  repeat' (first | with_reducible exact hk | with_reducible assumption | with_reducible apply moduleRecord_kept | with_reducible apply staleMeta_kept | with_reducible apply stageWaiting_kept | with_reducible apply startMerge_kept | with_reducible apply freeLog_kept | with_reducible apply Kept.ite | with_reducible apply Kept.foldl | intro _ | extract_lets | fail_if_no_progress with_reducible refine Kept.upd ?_ rfl rfl rfl | split)

theorem rowDone_kept {K : Bool} {c₀ : State} {s : State} (j : RowJob) (hk : Kept K false c₀ s) : Kept K false c₀ (rowDone s j) := by
  unfold rowDone
  repeat' (first | with_reducible exact hk | with_reducible assumption | with_reducible apply mergeDone_kept | with_reducible apply setRec_kept | with_reducible apply settle_kept | with_reducible apply makeDurable_kept | with_reducible apply ackMirror_kept | with_reducible apply queueReady_kept | with_reducible apply retireNs_kept | with_reducible apply staleStripes_kept | with_reducible apply Kept.ite | with_reducible apply Kept.foldl | intro _ | extract_lets | fail_if_no_progress with_reducible refine Kept.upd ?_ rfl rfl rfl | split)

theorem confirmZone_kept {K J : Bool} {c₀ : State} {s : State} (nsid : Nat) (i : Nat) (hk : Kept K J c₀ s) : Kept K J c₀ (confirmZone s nsid i) := by
  unfold confirmZone
  repeat' (first | with_reducible exact hk | with_reducible assumption | with_reducible apply staleStripes_kept | with_reducible apply settleStaging_kept | with_reducible apply retireNs_kept | with_reducible apply setZone_kept | with_reducible apply Kept.ite | intro _ | extract_lets | fail_if_no_progress with_reducible refine Kept.upd ?_ rfl rfl rfl | split)

theorem queueRefresh_kept {K J : Bool} {c₀ : State} {s : State} (k : Nat) (prio : Nat) (hk : Kept K J c₀ s) : Kept K J c₀ (queueRefresh s k prio) := by
  unfold queueRefresh
  repeat' (first | with_reducible exact hk | with_reducible assumption | with_reducible apply Kept.ite | intro _ | extract_lets | fail_if_no_progress with_reducible refine Kept.upd ?_ rfl rfl rfl)

theorem startCopy_kept {K J : Bool} {c₀ : State} {s : State} (kind : CopyKind) (src : Nat) (dstDie : Nat) (dst : Nat) (hk : Kept K J c₀ s) : Kept K J c₀ (startCopy s kind src dstDie dst) := by
  unfold startCopy
  repeat' (first | with_reducible exact hk | with_reducible assumption | with_reducible apply bindSet_kept | with_reducible apply setBset_kept | with_reducible apply Kept.foldl | intro _ | extract_lets | fail_if_no_progress with_reducible refine Kept.upd ?_ rfl rfl rfl)

theorem sourceBack_kept {K J : Bool} {c₀ : State} {s : State} (c : Copy) (hk : Kept K J c₀ s) : Kept K J c₀ (sourceBack s c) := by
  unfold sourceBack
  repeat' (first | with_reducible exact hk | with_reducible assumption | with_reducible apply setBset_kept | with_reducible apply Kept.ite | with_reducible apply Kept.foldl | intro _)

theorem startDieCopy_kept {K J : Bool} {c₀ : State} {s : State} (d : Nat) (hk : Kept K J c₀ s) : Kept K J c₀ (startDieCopy s d) := by
  unfold startDieCopy
  repeat' (first | with_reducible exact hk | with_reducible assumption | with_reducible apply startCopy_kept | with_reducible apply Kept.ite | intro _ | extract_lets | fail_if_no_progress with_reducible refine Kept.upd ?_ rfl rfl rfl | split)

theorem queueCopyPass_kept {K J : Bool} {c₀ : State} {s : State} (c : Copy) (hk : Kept K J c₀ s) : Kept K J c₀ (queueCopyPass s c) := by
  unfold queueCopyPass
  repeat' (first | with_reducible exact hk | with_reducible assumption | with_reducible apply Kept.ite | intro _ | extract_lets | fail_if_no_progress with_reducible refine Kept.upd ?_ rfl rfl rfl)

theorem dropDone_kept {K J : Bool} {c₀ : State} {s : State} (hk : Kept K J c₀ s) : Kept K J c₀ (dropDone s) := by
  unfold dropDone
  repeat' (first | with_reducible exact hk | with_reducible assumption | intro _ | extract_lets | fail_if_no_progress with_reducible refine Kept.upd ?_ rfl rfl rfl)

theorem switchCopy_kept {K J : Bool} {c₀ : State} {s : State} (c : Copy) (hk : Kept K J c₀ s) : Kept K J c₀ (switchCopy s c) := by
  unfold switchCopy
  repeat' (first | with_reducible exact hk | with_reducible assumption | with_reducible apply moduleRecord_kept | with_reducible apply setBset_kept | with_reducible apply toEraseAll_kept | with_reducible apply dropDone_kept | with_reducible apply Kept.ite | with_reducible apply Kept.foldl | intro _ | extract_lets | fail_if_no_progress with_reducible refine Kept.upd ?_ rfl rfl rfl)

theorem grownBad_kept {K J : Bool} {c₀ : State} {s : State} (k : Nat) (plane : Nat) (cont : Nat) (hk : Kept K J c₀ s) : Kept K J c₀ (grownBad s k plane cont) := by
  unfold grownBad
  repeat' (first | with_reducible exact hk | with_reducible assumption | with_reducible apply setBset_kept | with_reducible apply setDie_kept | with_reducible apply record_kept)

theorem copyFailed_kept {K J : Bool} {c₀ : State} {s : State} (c : Copy) (plane : Nat) (last : Bool) (hk : Kept K J c₀ s) : Kept K J c₀ (copyFailed s c plane last) := by
  unfold copyFailed
  repeat' (first | with_reducible exact hk | with_reducible assumption | with_reducible apply grownBad_kept | with_reducible apply toErase_kept | with_reducible apply bindSet_kept | with_reducible apply continueIn_kept | with_reducible apply Kept.ite | with_reducible apply Kept.foldl | intro _ | extract_lets | fail_if_no_progress with_reducible refine Kept.upd ?_ rfl rfl rfl | split)

theorem goOn_kept {K J : Bool} {c₀ : State} {s : State} (k : Nat) (c : Nat) (first : Nat) (hk : Kept K J c₀ s) : Kept K J c₀ (goOn s k c first) := by
  unfold goOn
  repeat' (first | with_reducible exact hk | with_reducible assumption | with_reducible apply continueIn_kept | with_reducible apply startCopy_kept | with_reducible apply setBset_kept | with_reducible apply Kept.ite | intro _)

theorem lossNotice_kept {K J : Bool} {c₀ : State} {s : State} (nsid : Nat) (a : List Nat) (hk : Kept K J c₀ s) : Kept K J c₀ (lossNotice s nsid a) := by
  unfold lossNotice
  repeat' (first | with_reducible exact hk | with_reducible assumption | with_reducible apply refreshCrit_kept | with_reducible apply raiseAen_kept | with_reducible apply record_kept | with_reducible apply Kept.foldl | intro _ | extract_lets | split)

theorem listExtent_kept {K J : Bool} {c₀ : State} {s : State} (e : Extent) (hk : Kept K J c₀ s) : Kept K J c₀ (listExtent s e) := by
  unfold listExtent
  repeat' (first | with_reducible exact hk | with_reducible assumption | with_reducible apply lossNotice_kept | intro _ | extract_lets | fail_if_no_progress with_reducible refine Kept.upd ?_ rfl rfl rfl)

theorem listLost_kept {K J : Bool} {c₀ : State} {s : State} (nsid : Nat) (slba : Nat) (count : Nat) (cause : Nat) (group : Nat) (repairable : Bool) (hk : Kept K J c₀ s) : Kept K J c₀ (listLost s nsid slba count cause group repairable) := by
  unfold listLost
  repeat' (first | with_reducible exact hk | with_reducible assumption | with_reducible apply listExtent_kept | with_reducible apply Kept.foldl | with_reducible apply Kept.foldl_fst | with_reducible apply Kept.foldl_snd | intro _)

theorem fetchFromTwin_kept {K J : Bool} {c₀ : State} {s : State} (nsid : Nat) (slba : Nat) (count : Nat) (slot : Nat) (oseq : Nat) (hk : Kept K J c₀ s) : Kept K J c₀ (fetchFromTwin s nsid slba count slot oseq) := by
  unfold fetchFromTwin
  repeat' (first | with_reducible exact hk | with_reducible assumption | with_reducible apply send_kept | intro _ | extract_lets | fail_if_no_progress with_reducible refine Kept.upd ?_ rfl rfl rfl)

theorem loseLba_kept {K J : Bool} {c₀ : State} {s : State} (nsid : Nat) (slba : Nat) (group : Nat) (cause : Nat) (slot : Nat) (hk : Kept K J c₀ s) : Kept K J c₀ (loseLba s nsid slba group cause slot) := by
  unfold loseLba
  repeat' (first | with_reducible exact hk | with_reducible assumption | with_reducible apply fetchFromTwin_kept | with_reducible apply listLost_kept | with_reducible apply Kept.ite | intro _ | extract_lets | split)

theorem setRebuild_kept {K J : Bool} {c₀ : State} {s : State} (g : Nat) (f : Rebuild → Rebuild) (hk : Kept K J c₀ s) : Kept K J c₀ (setRebuild s g f) := by
  unfold setRebuild
  repeat' (first | with_reducible exact hk | with_reducible assumption | with_reducible apply Kept.ite | intro _ | extract_lets | fail_if_no_progress with_reducible refine Kept.upd ?_ rfl rfl rfl)

theorem refreshRebuilding_kept {K J : Bool} {c₀ : State} {s : State} (hk : Kept K J c₀ s) : Kept K J c₀ (refreshRebuilding s) := by
  unfold refreshRebuilding
  repeat' (first | with_reducible exact fun _ _ => rfl | with_reducible exact hk | with_reducible assumption | with_reducible apply setFlags_kept)

theorem contractZones_kept {K J : Bool} {c₀ : State} {s : State} (g : Nat) (hk : Kept K J c₀ s) : Kept K J c₀ (contractZones s g) := by
  unfold contractZones
  repeat' (first | with_reducible exact hk | with_reducible assumption | with_reducible apply noteZone_kept | with_reducible apply setZone_kept | with_reducible apply finishZone_kept | with_reducible apply Kept.ite | with_reducible apply Kept.foldl | intro _)

theorem trimZones_kept {K J : Bool} {c₀ : State} {s : State} (k : Nat) (hk : Kept K J c₀ s) : Kept K J c₀ (trimZones k s) := by
  induction k generalizing s with
  | zero => unfold trimZones; repeat' (first | with_reducible exact hk)
  | succ k ih =>
    unfold trimZones
    repeat' (first | with_reducible apply ih | with_reducible exact hk | with_reducible assumption | with_reducible apply noteZone_kept | with_reducible apply setZone_kept | with_reducible apply Kept.ite | intro _ | extract_lets | fail_if_no_progress with_reducible refine Kept.upd ?_ rfl rfl rfl | split)

theorem copyZone_kept {K J : Bool} {c₀ : State} {s : State} (nsid : Nat) (i : Nat) (g : Nat) (n : Ns) (z : Zone) (hk : Kept K J c₀ s) : Kept K J c₀ (copyZone s nsid i g n z) := by
  unfold copyZone
  repeat' (first | with_reducible exact hk | with_reducible assumption | with_reducible apply queueErase_kept | with_reducible apply setZone_kept | with_reducible apply fetchFromTwin_kept)

theorem zoneFetched_kept {K J : Bool} {c₀ : State} {s : State} (nsid : Nat) (slba : Nat) (count : Nat) (hk : Kept K J c₀ s) : Kept K J c₀ (zoneFetched s nsid slba count) := by
  unfold zoneFetched
  repeat' (first | with_reducible exact hk | with_reducible assumption | with_reducible apply queueTo_kept | with_reducible apply Kept.ite | intro _ | extract_lets | split)

theorem retireGroupZones_kept {K J : Bool} {c₀ : State} {s : State} (g : Nat) (hk : Kept K J c₀ s) : Kept K J c₀ (retireGroupZones s g) := by
  unfold retireGroupZones
  repeat' (first | with_reducible exact hk | with_reducible assumption | with_reducible apply copyZone_kept | with_reducible apply noteZone_kept | with_reducible apply setZone_kept | with_reducible apply trimZones_kept | with_reducible apply Kept.ite | with_reducible apply Kept.foldl | intro _ | extract_lets | fail_if_no_progress with_reducible refine Kept.upd ?_ rfl rfl rfl | split)

theorem moveBody_kept {J : Bool} {c₀ : State} {s : State} (g : Nat) (hk : Kept false J c₀ s) : Kept false J c₀ (moveBody s g) := by
  unfold moveBody
  repeat' (first | with_reducible exact hk | with_reducible assumption | with_reducible apply Kept.ite | intro _ | extract_lets | fail_if_no_progress with_reducible refine Kept.upd ?_ rfl rfl rfl | fail_if_no_progress with_reducible refine Kept.updAny ?_ rfl rfl rfl rfl | split)

theorem unfilled_kept {J : Bool} {c₀ : State} {s : State} (g : Nat) (p : Nat) (hk : Kept false J c₀ s) : Kept false J c₀ (unfilled s g p) := by
  unfold unfilled
  repeat' (first | with_reducible exact hk | with_reducible assumption | with_reducible apply setGrp_kept | with_reducible apply moduleRecord_kept | with_reducible apply contractZones_kept | with_reducible apply record_kept | with_reducible apply moveBody_kept | with_reducible apply retireGroupZones_kept | with_reducible apply Kept.ite | intro _)

theorem joinRebuild_kept {K J : Bool} {c₀ : State} {s : State} (g : Nat) (p : Nat) (spare : Nat) (old : Nat) (hk : Kept K J c₀ s) : Kept K J c₀ (joinRebuild s g p spare old) := by
  unfold joinRebuild
  repeat' (first | with_reducible exact hk | with_reducible assumption | with_reducible apply setRebuild_kept | with_reducible apply Kept.ite | intro _ | extract_lets | fail_if_no_progress with_reducible refine Kept.upd ?_ rfl rfl rfl | split)

theorem takeOver_kept {J : Bool} {c₀ : State} {s : State} (g : Nat) (p : Nat) (old : Nat) (hk : Kept false J c₀ s) : Kept false J c₀ (takeOver s g p old) := by
  unfold takeOver
  repeat' (first | with_reducible exact hk | with_reducible assumption | with_reducible apply refreshCrit_kept | with_reducible apply unfilled_kept | with_reducible apply moduleRecord_kept | with_reducible apply setDie_kept | with_reducible apply record_kept | with_reducible apply refreshRebuilding_kept | with_reducible apply joinRebuild_kept | intro _ | extract_lets | fail_if_no_progress with_reducible refine Kept.upd ?_ rfl rfl rfl | fail_if_no_progress with_reducible refine Kept.updAny ?_ rfl rfl rfl rfl | split)

theorem dropDie_kept {K J : Bool} {c₀ : State} {s : State} (d : Nat) (hk : Kept K J c₀ s) : Kept K J c₀ (dropDie s d) := by
  unfold dropDie
  repeat' (first | with_reducible exact hk | with_reducible assumption | with_reducible apply toErase_kept | with_reducible apply sourceBack_kept | with_reducible apply setDie_kept | with_reducible apply Kept.foldl | intro _ | extract_lets | fail_if_no_progress with_reducible refine Kept.upd ?_ rfl rfl rfl)

theorem moveProgs_kept {K J : Bool} {c₀ : State} {s : State} (old : Nat) (spare : Option Nat) (hk : Kept K J c₀ s) : Kept K J c₀ (moveProgs s old spare) := by
  unfold moveProgs
  repeat' (first | with_reducible exact hk | with_reducible assumption | with_reducible apply Kept.ite | intro _ | extract_lets | fail_if_no_progress with_reducible refine Kept.upd ?_ rfl rfl rfl)

theorem restartCopy_kept {K J : Bool} {c₀ : State} {s : State} (spare : Option Nat) (c : Copy) (hk : Kept K J c₀ s) : Kept K J c₀ (restartCopy s spare c) := by
  unfold restartCopy
  repeat' (first | with_reducible exact hk | with_reducible assumption | with_reducible apply startCopy_kept | with_reducible apply Kept.elim | intro _ | extract_lets | split)

theorem endRows_kept {K : Bool} {c₀ : State} {s : State} (hk : Kept K false c₀ s) : Kept K false c₀ (endRows s) := by
  unfold endRows
  repeat' (first | with_reducible exact hk | with_reducible assumption | with_reducible apply rowDone_kept | with_reducible apply Kept.foldl)

theorem failDie_kept {c₀ : State} {s : State} (d : Nat) (cause : Nat) (hk : Kept false false c₀ s) : Kept false false c₀ (failDie s d cause) := by
  unfold failDie
  repeat' (first | with_reducible exact hk | with_reducible assumption | with_reducible apply record_kept | with_reducible apply dropDie_kept | with_reducible apply setDie_kept | with_reducible apply setRebuild_kept | with_reducible apply takeOver_kept | with_reducible apply endRows_kept | with_reducible apply restartCopy_kept | with_reducible apply moveProgs_kept | with_reducible apply refreshRebuilding_kept | with_reducible apply Kept.ite | with_reducible apply Kept.foldl | with_reducible apply Kept.foldl_fst | with_reducible apply Kept.foldl_snd | intro _ | extract_lets | fail_if_no_progress with_reducible refine Kept.upd ?_ rfl rfl rfl | fail_if_no_progress with_reducible refine Kept.updAny ?_ rfl rfl rfl rfl | split)

theorem startRebuilds_kept {K J : Bool} {c₀ : State} {s : State} (hk : Kept K J c₀ s) : Kept K J c₀ (startRebuilds s) := by
  unfold startRebuilds
  repeat' (first | with_reducible exact hk | with_reducible assumption | with_reducible apply record_kept | with_reducible apply setRebuild_kept | with_reducible apply Kept.ite | with_reducible apply Kept.foldl | intro _)

theorem endRebuild_kept {K J : Bool} {c₀ : State} {s : State} (g : Nat) (hk : Kept K J c₀ s) : Kept K J c₀ (endRebuild s g) := by
  unfold endRebuild
  repeat' (first | with_reducible exact hk | with_reducible assumption | with_reducible apply setDie_kept | with_reducible apply record_kept | with_reducible apply refreshRebuilding_kept | with_reducible apply Kept.ite | with_reducible apply Kept.foldl | intro _ | extract_lets | fail_if_no_progress with_reducible refine Kept.upd ?_ rfl rfl rfl | split)

theorem dropPartial_kept {K J : Bool} {c₀ : State} {s : State} (r : Rebuild) (hk : Kept K J c₀ s) : Kept K J c₀ (dropPartial s r) := by
  unfold dropPartial
  repeat' (first | with_reducible exact hk | with_reducible assumption | with_reducible apply toErase_kept | with_reducible apply Kept.ite | with_reducible apply Kept.foldl | with_reducible apply Kept.foldl_fst | with_reducible apply Kept.foldl_snd | intro _ | extract_lets | fail_if_no_progress with_reducible refine Kept.upd ?_ rfl rfl rfl)

theorem skipGone_kept {K J : Bool} {c₀ : State} {s : State} (g : Nat) (hk : Kept K J c₀ s) : Kept K J c₀ (skipGone s g) := by
  unfold skipGone
  repeat' (first | with_reducible exact hk | with_reducible assumption | with_reducible apply dropPartial_kept | with_reducible apply endRebuild_kept | with_reducible apply setRebuild_kept | with_reducible apply Kept.ite | intro _ | extract_lets | fail_if_no_progress with_reducible refine Kept.upd ?_ rfl rfl rfl | split)

theorem queueRebuildPass_kept {K J : Bool} {c₀ : State} {s : State} (r : Rebuild) (hk : Kept K J c₀ s) : Kept K J c₀ (queueRebuildPass s r) := by
  unfold queueRebuildPass
  repeat' (first | with_reducible exact hk | with_reducible assumption | with_reducible apply bindSet_kept | with_reducible apply setRebuild_kept | with_reducible apply Kept.ite | with_reducible apply Kept.foldl | with_reducible apply Kept.foldl_fst | with_reducible apply Kept.foldl_snd | intro _ | extract_lets | fail_if_no_progress with_reducible refine Kept.upd ?_ rfl rfl rfl)

theorem switchSets_kept {K J : Bool} {c₀ : State} {s : State} (r : Rebuild) (hk : Kept K J c₀ s) : Kept K J c₀ (switchSets s r) := by
  unfold switchSets
  repeat' (first | with_reducible exact hk | with_reducible assumption | with_reducible apply moduleRecord_kept | with_reducible apply setBset_kept | with_reducible apply record_kept | with_reducible apply endRebuild_kept | with_reducible apply setRebuild_kept | with_reducible apply Kept.ite | with_reducible apply Kept.foldl | with_reducible apply Kept.foldl_fst | with_reducible apply Kept.foldl_snd | intro _ | extract_lets | fail_if_no_progress with_reducible refine Kept.upd ?_ rfl rfl rfl)

/-! ### Machine/Resync -/

theorem sendFrame_kept {K J : Bool} {c₀ : State} {s : State} (reshape : Bool) (kind : Nat) (nsid : Nat) (unit : Nat) (slba : Nat) (nlb : Nat) (key : Nat × Nat) (resetId : Nat) (zstate : Nat) (wp : Nat) (bytes : Nat) (hk : Kept K J c₀ s) : Kept K J c₀ (sendFrame s reshape kind nsid unit slba nlb key resetId zstate wp bytes) := by
  unfold sendFrame
  repeat' (first | with_reducible exact hk | with_reducible assumption | with_reducible apply send_kept | with_reducible apply Kept.ite | intro _ | extract_lets | fail_if_no_progress with_reducible refine Kept.upd ?_ rfl rfl rfl)

theorem setWork_kept {K J : Bool} {c₀ : State} {s : State} (w : Work) (w' : Option Work) (hk : Kept K J c₀ s) : Kept K J c₀ (setWork s w w') := by
  unfold setWork
  repeat' (first | with_reducible exact hk | with_reducible assumption | with_reducible apply Kept.ite | intro _ | extract_lets | fail_if_no_progress with_reducible refine Kept.upd ?_ rfl rfl rfl)

theorem sendZone_kept {K J : Bool} {c₀ : State} {s : State} (w : Work) (n : Ns) (hk : Kept K J c₀ s) : Kept K J c₀ (sendZone s w n) := by
  unfold sendZone
  repeat' (first | with_reducible exact hk | with_reducible assumption | with_reducible apply sendFrame_kept | with_reducible apply setWork_kept | with_reducible apply Kept.ite | intro _)

theorem sendUnit_kept {K J : Bool} {c₀ : State} {s : State} (w : Work) (n : Ns) (hk : Kept K J c₀ s) : Kept K J c₀ (sendUnit s w n) := by
  unfold sendUnit
  repeat' (first | with_reducible exact hk | with_reducible assumption | with_reducible apply sendFrame_kept | with_reducible apply setWork_kept)

theorem pumpOne_kept {K J : Bool} {c₀ : State} {s : State} (hk : Kept K J c₀ s) : KeptOpt K J c₀ (pumpOne s) := by
  unfold pumpOne
  repeat' (first | with_reducible exact hk | with_reducible assumption | with_reducible refine Kept.of_opt ?_ (by assumption) | with_reducible apply setWork_kept | with_reducible apply sendZone_kept | with_reducible apply sendUnit_kept | with_reducible apply sendFrame_kept | with_reducible apply KeptOpt.some | with_reducible apply KeptOpt.none | with_reducible apply Kept.ite | with_reducible apply KeptOpt.ite | intro _ | extract_lets | split)

theorem pumpFor_kept {K J : Bool} {c₀ : State} {s : State} (k : Nat) (hk : Kept K J c₀ s) : Kept K J c₀ (pumpFor k s) := by
  induction k generalizing s with
  | zero => unfold pumpFor; repeat' (first | with_reducible exact hk)
  | succ k ih =>
    unfold pumpFor
    repeat' (first | with_reducible apply ih | with_reducible exact hk | with_reducible assumption | with_reducible refine Kept.of_opt ?_ (by assumption) | with_reducible apply pumpOne_kept | with_reducible apply KeptOpt.some | with_reducible apply KeptOpt.none | intro _ | extract_lets | split)

theorem pump_kept {K J : Bool} {c₀ : State} {s : State} (hk : Kept K J c₀ s) : Kept K J c₀ (pump s) := by
  unfold pump
  repeat' (first | with_reducible exact hk | with_reducible assumption | with_reducible apply pumpFor_kept)

theorem addWork_kept {K J : Bool} {c₀ : State} {s : State} (l : List Work) (hk : Kept K J c₀ s) : Kept K J c₀ (addWork s l) := by
  unfold addWork
  repeat' (first | with_reducible exact hk | with_reducible assumption | with_reducible apply pump_kept | intro _ | extract_lets | fail_if_no_progress with_reducible refine Kept.upd ?_ rfl rfl rfl)

/-! ### Machine/Moves -/

theorem setReshapeZop_kept {K J : Bool} {c₀ : State} {s : State} (r : Reshape) (f : ZopRec → ZopRec) (hk : Kept K J c₀ s) : Kept K J c₀ (setReshapeZop s r f) := by
  unfold setReshapeZop
  repeat' (first | with_reducible exact hk | with_reducible assumption | with_reducible apply setCtrl_kept)

theorem noteMove_kept {K J : Bool} {c₀ : State} {s : State} (r : Reshape) (i : Nat) (m : ZRes) (hk : Kept K J c₀ s) : Kept K J c₀ (noteMove s r i m) := by
  unfold noteMove
  repeat' (first | with_reducible exact hk | with_reducible assumption | with_reducible apply setReshapeZop_kept | with_reducible apply send_kept | with_reducible apply Kept.ite | intro _ | extract_lets | split)

theorem dropReshapeWork_kept {K J : Bool} {c₀ : State} {s : State} (nsid : Nat) (hk : Kept K J c₀ s) : Kept K J c₀ (dropReshapeWork s nsid) := by
  unfold dropReshapeWork
  repeat' (first | with_reducible exact hk | with_reducible assumption | intro _ | extract_lets | fail_if_no_progress with_reducible refine Kept.upd ?_ rfl rfl rfl)

theorem endCancel_kept {K J : Bool} {c₀ : State} {s : State} (r : Reshape) (hk : Kept K J c₀ s) : Kept K J c₀ (endCancel s r) := by
  unfold endCancel
  repeat' (first | with_reducible exact hk | with_reducible assumption | with_reducible apply completeFor_kept | with_reducible apply send_kept | with_reducible apply Kept.elim | intro _)

theorem endReshape_kept {K J : Bool} {c₀ : State} {s : State} (nsid : Nat) (st : Status) (hk : Kept K J c₀ s) : Kept K J c₀ (endReshape s nsid st) := by
  unfold endReshape
  repeat' (first | with_reducible exact hk | with_reducible assumption | with_reducible apply endCancel_kept | with_reducible apply setNs_kept | with_reducible apply dropReshapeWork_kept | with_reducible apply send_kept | with_reducible apply setReshapeZop_kept | with_reducible apply finish_kept | with_reducible apply record_kept | with_reducible apply raiseAen_kept | with_reducible apply Kept.ite | intro _ | extract_lets | fail_if_no_progress with_reducible refine Kept.upd ?_ rfl rfl rfl | split)

theorem switchMove_kept {K J : Bool} {c₀ : State} {s : State} (nsid : Nat) (i : Nat) (g : Nat) (affinity : Nat) (hk : Kept K J c₀ s) : Kept K J c₀ (switchMove s nsid i g affinity) := by
  unfold switchMove
  repeat' (first | with_reducible exact hk | with_reducible assumption | with_reducible apply setZone_kept | with_reducible apply setNs_kept | with_reducible apply moduleRecord_kept | with_reducible apply Kept.ite | intro _)

theorem moveCopies_kept {K J : Bool} {c₀ : State} {s : State} (nsid : Nat) (i : Nat) (g : Nat) (z : Zone) (hk : Kept K J c₀ s) : Kept K J c₀ (moveCopies s nsid i g z) := by
  unfold moveCopies
  repeat' (first | with_reducible exact hk | with_reducible assumption | with_reducible apply startCopy_kept | with_reducible apply Kept.foldl | intro _ | extract_lets | split)

theorem moveOn_kept {K J : Bool} {c₀ : State} {s : State} (k : Nat) (k1 : Nat) (hk : Kept K J c₀ s) : Kept K J c₀ (moveOn k s k1) := by
  induction k generalizing s k1 with
  | zero => unfold moveOn; repeat' (first | with_reducible exact hk)
  | succ k ih =>
    unfold moveOn
    repeat' (first | with_reducible apply ih | with_reducible exact hk | with_reducible assumption | with_reducible apply endReshape_kept | with_reducible apply setNs_kept | with_reducible apply noteMove_kept | with_reducible apply setZone_kept | with_reducible apply moveCopies_kept | with_reducible apply switchMove_kept | with_reducible apply Kept.ite | intro _ | extract_lets | fail_if_no_progress with_reducible refine Kept.upd ?_ rfl rfl rfl | split)

theorem resumeMoves_kept {K J : Bool} {c₀ : State} {s : State} (hk : Kept K J c₀ s) : Kept K J c₀ (resumeMoves s) := by
  unfold resumeMoves
  repeat' (first | with_reducible exact hk | with_reducible assumption | with_reducible apply moveOn_kept | with_reducible apply Kept.ite | with_reducible apply Kept.foldl | with_reducible apply Kept.foldl_fst | with_reducible apply Kept.foldl_snd | intro _)

theorem reshapeBoundary_kept {K J : Bool} {c₀ : State} {s : State} (hk : Kept K J c₀ s) : Kept K J c₀ (reshapeBoundary s) := by
  unfold reshapeBoundary
  repeat' (first | with_reducible exact hk | with_reducible assumption | with_reducible apply resumeMoves_kept | with_reducible apply addWork_kept | intro _ | extract_lets | fail_if_no_progress with_reducible refine Kept.upd ?_ rfl rfl rfl)

/-! ### Machine/Slots -/

theorem suspendAt_kept {K J : Bool} {c₀ : State} {s : State} (d : Nat) (t : Nat) (endAt : Nat) (hk : Kept K J c₀ s) : Kept K J c₀ (suspendAt s d t endAt) := by
  unfold suspendAt
  repeat' (first | with_reducible exact hk | with_reducible assumption | with_reducible apply setDie_kept | with_reducible apply Kept.ite | intro _ | extract_lets | fail_if_no_progress with_reducible refine Kept.upd ?_ rfl rfl rfl | split)

theorem resumeOp_kept {K J : Bool} {c₀ : State} {s : State} (d : Nat) (t : Nat) (hk : Kept K J c₀ s) : Kept K J c₀ (resumeOp s d t) := by
  unfold resumeOp
  repeat' (first | with_reducible exact hk | with_reducible assumption | with_reducible apply setDie_kept | intro _ | extract_lets | fail_if_no_progress with_reducible refine Kept.upd ?_ rfl rfl rfl | split)

theorem startWt_kept {K J : Bool} {c₀ : State} {s : State} (c : Claim) (t : Nat) (hk : Kept K J c₀ s) : Kept K J c₀ (startWt s c t) := by
  unfold startWt
  repeat' (first | with_reducible exact hk | with_reducible assumption | with_reducible apply bindSet_kept | with_reducible apply setDie_kept | with_reducible apply Kept.ite | intro _ | extract_lets | fail_if_no_progress with_reducible refine Kept.upd ?_ rfl rfl rfl | split)

theorem nextWt_kept {K J : Bool} {c₀ : State} {s : State} (d : Nat) (hk : Kept K J c₀ s) : Kept K J c₀ (nextWt s d) := by
  unfold nextWt
  repeat' (first | with_reducible exact hk | with_reducible assumption | with_reducible apply startWt_kept | intro _ | extract_lets | split)

theorem releaseClaims_kept {K J : Bool} {c₀ : State} {s : State} (t : Nat) (hk : Kept K J c₀ s) : Kept K J c₀ (releaseClaims s t) := by
  unfold releaseClaims
  repeat' (first | with_reducible exact hk | with_reducible assumption | with_reducible apply suspendAt_kept | with_reducible apply startWt_kept | with_reducible apply Kept.ite | with_reducible apply Kept.foldl | intro _ | extract_lets | fail_if_no_progress with_reducible refine Kept.upd ?_ rfl rfl rfl)

theorem expireClaims_kept {K J : Bool} {c₀ : State} {s : State} (t : Nat) (hk : Kept K J c₀ s) : Kept K J c₀ (expireClaims s t) := by
  unfold expireClaims
  repeat' (first | with_reducible exact hk | with_reducible assumption | intro _ | extract_lets | fail_if_no_progress with_reducible refine Kept.upd ?_ rfl rfl rfl)

theorem jit_kept {K J : Bool} {c₀ : State} {s : State} (d : Nat) (t : Nat) (len : Nat) (kind : ClaimKind) (slot : Option Nat) (paid : Bool) (hk : Kept K J c₀ s) : KeptOpt K J c₀ (jit s d t len kind slot paid) := by
  unfold jit
  repeat' (first | with_reducible exact hk | with_reducible assumption | with_reducible apply addClaim_kept | with_reducible apply suspendAt_kept | with_reducible apply KeptOpt.some | with_reducible apply KeptOpt.none | with_reducible apply Kept.ite | with_reducible apply KeptOpt.ite | intro _)

theorem chargeBack_kept {K J : Bool} {c₀ : State} {s : State} (d : Nat) (us : Nat) (hk : Kept K J c₀ s) : Kept K J c₀ (chargeBack s d us) := by
  unfold chargeBack
  repeat' (first | with_reducible exact hk | with_reducible assumption | intro _ | extract_lets | fail_if_no_progress with_reducible refine Kept.upd ?_ rfl rfl rfl)

theorem chargeRebuild_kept {K J : Bool} {c₀ : State} {s : State} (g : Nat) (d : Nat) (us : Nat) (hk : Kept K J c₀ s) : Kept K J c₀ (chargeRebuild s g d us) := by
  unfold chargeRebuild
  repeat' (first | with_reducible exact hk | with_reducible assumption | intro _ | extract_lets | fail_if_no_progress with_reducible refine Kept.upd ?_ rfl rfl rfl)

theorem placeBack_kept {K J : Bool} {c₀ : State} {s : State} (d : Nat) (t : Nat) (tr : Nat) (hk : Kept K J c₀ s) : KeptOpt K J c₀ (placeBack s d t tr) := by
  unfold placeBack
  repeat' (first | with_reducible exact hk | with_reducible assumption | with_reducible apply jit_kept | with_reducible apply chargeBack_kept | with_reducible apply KeptOpt.some | with_reducible apply KeptOpt.none | with_reducible apply KeptOpt.map | intro _)

theorem beginPass_kept {K J : Bool} {c₀ : State} {s : State} (r : Rebuild) (hk : Kept K J c₀ s) : Kept K J c₀ (beginPass s r) := by
  unfold beginPass
  repeat' (first | with_reducible exact hk | with_reducible assumption | with_reducible apply skipGone_kept | with_reducible apply switchSets_kept | with_reducible apply queueRebuildPass_kept | with_reducible apply setRebuild_kept | with_reducible apply Kept.ite | intro _ | extract_lets | fail_if_no_progress with_reducible refine Kept.upd ?_ rfl rfl rfl | split)

theorem placeRebuildReads_kept {K J : Bool} {c₀ : State} {s : State} (t : Nat) (r : Rebuild) (hk : Kept K J c₀ s) : Kept K J c₀ (placeRebuildReads s t r) := by
  unfold placeRebuildReads
  repeat' (first | with_reducible exact hk | with_reducible assumption | with_reducible refine Kept.of_opt ?_ (by assumption) | with_reducible refine Kept.of_opt_self (by assumption) | with_reducible apply jit_kept | with_reducible apply setRebuild_kept | with_reducible apply chargeRebuild_kept | with_reducible apply KeptOpt.some | with_reducible apply KeptOpt.none | with_reducible apply Kept.foldl | with_reducible apply Kept.foldl_fst | with_reducible apply KeptOpt.foldl | intro _ | extract_lets | fail_if_no_progress with_reducible refine Kept.upd ?_ rfl rfl rfl | split)

theorem rebuildSlot_kept {K J : Bool} {c₀ : State} {s : State} (t : Nat) (hk : Kept K J c₀ s) : Kept K J c₀ (rebuildSlot s t) := by
  unfold rebuildSlot
  repeat' (first | with_reducible exact hk | with_reducible assumption | with_reducible apply skipGone_kept | with_reducible apply beginPass_kept | with_reducible apply placeRebuildReads_kept | with_reducible apply Kept.ite | with_reducible apply Kept.elim | with_reducible apply Kept.foldl | with_reducible apply Kept.foldl_fst | intro _ | extract_lets | split)

theorem setCopy_kept {K J : Bool} {c₀ : State} {s : State} (id : Nat) (f : Copy → Copy) (hk : Kept K J c₀ s) : Kept K J c₀ (setCopy s id f) := by
  unfold setCopy
  repeat' (first | with_reducible exact hk | with_reducible assumption | with_reducible apply Kept.ite | intro _ | extract_lets | fail_if_no_progress with_reducible refine Kept.upd ?_ rfl rfl rfl)

theorem beginCopyPass_kept {K J : Bool} {c₀ : State} {s : State} (c : Copy) (hk : Kept K J c₀ s) : Kept K J c₀ (beginCopyPass s c) := by
  unfold beginCopyPass
  repeat' (first | with_reducible exact hk | with_reducible assumption | with_reducible apply queueCopyPass_kept | with_reducible apply setCopy_kept | with_reducible apply Kept.ite | intro _)

theorem placeCopyRead_kept {K J : Bool} {c₀ : State} {s : State} (t : Nat) (c : Copy) (hk : Kept K J c₀ s) : Kept K J c₀ (placeCopyRead s t c) := by
  unfold placeCopyRead
  repeat' (first | with_reducible exact hk | with_reducible assumption | with_reducible refine Kept.of_opt ?_ (by assumption) | with_reducible apply placeBack_kept | with_reducible apply setCopy_kept | with_reducible apply KeptOpt.some | with_reducible apply KeptOpt.none | with_reducible apply Kept.ite | intro _ | extract_lets | fail_if_no_progress with_reducible refine Kept.upd ?_ rfl rfl rfl | split)

theorem copySlot_kept {K J : Bool} {c₀ : State} {s : State} (t : Nat) (hk : Kept K J c₀ s) : Kept K J c₀ (copySlot s t) := by
  unfold copySlot
  repeat' (first | with_reducible exact hk | with_reducible assumption | with_reducible apply beginCopyPass_kept | with_reducible apply placeCopyRead_kept | with_reducible apply Kept.elim | with_reducible apply Kept.foldl | intro _)

theorem backSlot_kept {K J : Bool} {c₀ : State} {s : State} (t : Nat) (hk : Kept K J c₀ s) : Kept K J c₀ (backSlot s t) := by
  unfold backSlot
  repeat' (first | with_reducible exact hk | with_reducible assumption | with_reducible refine Kept.of_opt ?_ (by assumption) | with_reducible refine Kept.of_opt_self (by assumption) | with_reducible apply placeBack_kept | with_reducible apply KeptOpt.some | with_reducible apply KeptOpt.none | with_reducible apply Kept.ite | with_reducible apply Kept.foldl | with_reducible apply KeptOpt.foldl | intro _ | extract_lets | fail_if_no_progress with_reducible refine Kept.upd ?_ rfl rfl rfl | split)

theorem backRead_kept {K J : Bool} {c₀ : State} {s : State} (d : Nat) (hk : Kept K J c₀ s) : Kept K J c₀ (backRead s d) := by
  unfold backRead
  repeat' (first | with_reducible exact hk | with_reducible assumption | with_reducible apply Kept.ite | intro _ | extract_lets | fail_if_no_progress with_reducible refine Kept.upd ?_ rfl rfl rfl | split)

theorem unboundRead_kept {K J : Bool} {c₀ : State} {s : State} (t : Nat) (slot : Nat) (c : Cmd) (ok : Nat → Bool) (hk : Kept K J c₀ s) : Kept K J c₀ (unboundRead s t slot c ok) := by
  unfold unboundRead
  repeat' (first | with_reducible exact hk | with_reducible assumption | with_reducible refine Kept.of_opt ?_ (by assumption) | with_reducible refine Kept.of_opt_self (by assumption) | with_reducible apply jit_kept | with_reducible apply KeptOpt.some | with_reducible apply KeptOpt.none | with_reducible apply Kept.ite | with_reducible apply Kept.foldl | with_reducible apply KeptOpt.foldl | intro _ | extract_lets | fail_if_no_progress with_reducible refine Kept.upd ?_ rfl rfl rfl | split)

theorem unboundSlot_kept {K J : Bool} {c₀ : State} {s : State} (t : Nat) (hk : Kept K J c₀ s) : Kept K J c₀ (unboundSlot s t) := by
  unfold unboundSlot
  repeat' (first | with_reducible exact hk | with_reducible assumption | with_reducible apply unboundRead_kept | with_reducible apply Kept.foldl | with_reducible apply Kept.foldl_fst | with_reducible apply Kept.foldl_snd | intro _)

theorem resumeSlot_kept {K J : Bool} {c₀ : State} {s : State} (t : Nat) (hk : Kept K J c₀ s) : Kept K J c₀ (resumeSlot s t) := by
  unfold resumeSlot
  repeat' (first | with_reducible exact hk | with_reducible assumption | with_reducible refine Kept.of_opt ?_ (by assumption) | with_reducible refine Kept.of_opt_self (by assumption) | with_reducible apply resumeOp_kept | with_reducible apply jit_kept | with_reducible apply KeptOpt.some | with_reducible apply KeptOpt.none | with_reducible apply Kept.ite | with_reducible apply Kept.foldl | with_reducible apply KeptOpt.foldl | intro _ | extract_lets | split)

theorem bindProg_kept {K J : Bool} {c₀ : State} {s : State} (p : Prog) (hk : Kept K J c₀ s) : Kept K J c₀ (bindProg s p).1 := by
  unfold bindProg
  repeat' (first | with_reducible exact hk | with_reducible assumption | with_reducible refine Kept.of_some_fst ?_ (by assumption) | with_reducible refine Kept.of_fst ?_ (by assumption) | with_reducible apply bindZone_kept | with_reducible apply bindSet_kept | with_reducible apply KeptFst.some | with_reducible apply KeptFst.none | with_reducible apply Kept.ite | intro _ | extract_lets | fail_if_no_progress with_reducible refine Kept.upd ?_ rfl rfl rfl | split)

theorem chargeProg_kept {K J : Bool} {c₀ : State} {s : State} (p : Prog) (step : Nat) (us : Nat) (hk : Kept K J c₀ s) : Kept K J c₀ (chargeProg s p step us) := by
  unfold chargeProg
  repeat' (first | with_reducible exact hk | with_reducible assumption | with_reducible apply addDraw_kept | with_reducible apply Kept.ite | intro _ | extract_lets | fail_if_no_progress with_reducible refine Kept.upd ?_ rfl rfl rfl)

theorem releaseProg_kept {K J : Bool} {c₀ : State} {s : State} (t : Nat) (p : Prog) (step : Nat) (hk : Kept K J c₀ s) : Kept K J c₀ (releaseProg s t p step) := by
  unfold releaseProg
  repeat' (first | with_reducible exact hk | with_reducible assumption | with_reducible apply bindProg_kept | with_reducible apply setDie_kept | with_reducible apply chargeProg_kept | intro _ | extract_lets | fail_if_no_progress with_reducible refine Kept.upd ?_ rfl rfl rfl)

theorem releaseErase_kept {K J : Bool} {c₀ : State} {s : State} (t : Nat) (k : Nat) (hk : Kept K J c₀ s) : Kept K J c₀ (releaseErase s t k) := by
  unfold releaseErase
  repeat' (first | with_reducible exact hk | with_reducible assumption | with_reducible apply moduleRecord_kept | with_reducible apply setBset_kept | with_reducible apply setDie_kept | intro _ | extract_lets | fail_if_no_progress with_reducible refine Kept.upd ?_ rfl rfl rfl)

theorem releaseSlot_kept {K J : Bool} {c₀ : State} {s : State} (t : Nat) (hk : Kept K J c₀ s) : Kept K J c₀ (releaseSlot s t) := by
  unfold releaseSlot
  repeat' (first | with_reducible exact hk | with_reducible assumption | with_reducible apply releaseProg_kept | with_reducible apply releaseErase_kept | with_reducible apply Kept.ite | with_reducible apply Kept.foldl | intro _ | extract_lets | split)

theorem restSlot_kept {K J : Bool} {c₀ : State} {s : State} (t : Nat) (hk : Kept K J c₀ s) : Kept K J c₀ (restSlot s t) := by
  unfold restSlot
  repeat' (first | with_reducible exact hk | with_reducible assumption | with_reducible apply suspendAt_kept | with_reducible apply Kept.ite | with_reducible apply Kept.foldl | intro _)

theorem timeTo_kept {J : Bool} {c₀ : State} {s : State} (t : Nat) (hk : Kept false J c₀ s) : Kept false J c₀ (timeTo s t) := by
  unfold timeTo
  repeat' (first | with_reducible exact hk | with_reducible assumption | with_reducible apply passTime_kept)

theorem noteOps_kept {K J : Bool} {c₀ : State} {s : State} (t : Nat) (hk : Kept K J c₀ s) : Kept K J c₀ (noteOps s t) := by
  unfold noteOps
  repeat' (first | with_reducible exact hk | with_reducible assumption | intro _ | extract_lets | fail_if_no_progress with_reducible refine Kept.upd ?_ rfl rfl rfl)

theorem placeRests_kept {K J : Bool} {c₀ : State} {s : State} (k : Nat) (now : Nat) (hk : Kept K J c₀ s) : Kept K J c₀ (placeRests s k now) := by
  unfold placeRests
  repeat' (first | with_reducible exact hk | with_reducible assumption | with_reducible apply Kept.ite | with_reducible apply Kept.foldl | intro _ | extract_lets | fail_if_no_progress with_reducible refine Kept.upd ?_ rfl rfl rfl)

theorem checkRests_kept {K J : Bool} {c₀ : State} {s : State} (t : Nat) (hk : Kept K J c₀ s) : Kept K J c₀ (checkRests s t) := by
  unfold checkRests
  repeat' (first | with_reducible exact hk | with_reducible assumption | with_reducible apply placeRests_kept | with_reducible apply Kept.ite | intro _)

theorem nextBoundary_kept {J : Bool} {c₀ : State} {s : State} (hk : Kept false J c₀ s) : Kept false J c₀ (nextBoundary s) := by
  unfold nextBoundary
  repeat' (first | with_reducible exact hk | with_reducible assumption | with_reducible apply settleShutdowns_kept | with_reducible apply flushHeld_kept | with_reducible apply timeTo_kept | with_reducible apply restSlot_kept | with_reducible apply releaseClaims_kept | with_reducible apply expireClaims_kept | with_reducible apply checkRests_kept | with_reducible apply takeDescr_kept | with_reducible apply unboundSlot_kept | with_reducible apply backSlot_kept | with_reducible apply copySlot_kept | with_reducible apply rebuildSlot_kept | with_reducible apply noteOps_kept | with_reducible apply releaseSlot_kept | with_reducible apply resumeSlot_kept | with_reducible apply Kept.ite | intro _ | extract_lets | fail_if_no_progress with_reducible refine Kept.upd ?_ rfl rfl rfl)

theorem standingClaims_kept {K J : Bool} {c₀ : State} {s : State} (f : Nat) (cls : LClass) (g : Nat) (d : Nat) (k : Nat) (sixt : Nat) (hk : Kept K J c₀ s) : Kept K J c₀ (standingClaims s f cls g d k sixt) := by
  unfold standingClaims
  repeat' (first | with_reducible exact hk | with_reducible assumption | with_reducible apply addClaim_kept | with_reducible apply Kept.ite | with_reducible apply Kept.foldl | intro _ | extract_lets | fail_if_no_progress with_reducible refine Kept.upd ?_ rfl rfl rfl | split)

theorem grantTwin_kept {K J : Bool} {c₀ : State} {s : State} (k : Nat) (hk : Kept K J c₀ s) : Kept K J c₀ (grantTwin s k) := by
  unfold grantTwin
  repeat' (first | with_reducible exact hk | with_reducible assumption | with_reducible apply send_kept | with_reducible apply standingClaims_kept | with_reducible apply Kept.ite | with_reducible apply Kept.foldl | intro _ | extract_lets | fail_if_no_progress with_reducible refine Kept.upd ?_ rfl rfl rfl)

theorem adoptBudgets_kept {K J : Bool} {c₀ : State} {s : State} (hk : Kept K J c₀ s) : Kept K J c₀ (adoptBudgets s) := by
  unfold adoptBudgets
  repeat' (first | with_reducible exact hk | with_reducible assumption | with_reducible apply Kept.foldl | with_reducible apply Kept.foldl_fst | with_reducible apply Kept.foldl_snd | intro _ | extract_lets | fail_if_no_progress with_reducible refine Kept.upd ?_ rfl rfl rfl)

theorem clearUsed_kept {K J : Bool} {c₀ : State} {s : State} (hk : Kept K J c₀ s) : Kept K J c₀ (clearUsed s) := by
  unfold clearUsed
  repeat' (first | with_reducible exact hk | with_reducible assumption | intro _ | extract_lets | fail_if_no_progress with_reducible refine Kept.upd ?_ rfl rfl rfl)

theorem renewPeriod_kept {K J : Bool} {c₀ : State} {s : State} (k : Nat) (hk : Kept K J c₀ s) : Kept K J c₀ (renewPeriod s k) := by
  unfold renewPeriod
  repeat' (first | with_reducible exact hk | with_reducible assumption | with_reducible apply adoptBudgets_kept | with_reducible apply clearUsed_kept | with_reducible apply Kept.ite | intro _ | extract_lets | fail_if_no_progress with_reducible refine Kept.upd ?_ rfl rfl rfl)

theorem mediaBoundary_kept {K J : Bool} {c₀ : State} {s : State} (hk : Kept K J c₀ s) : Kept K J c₀ (mediaBoundary s) := by
  unfold mediaBoundary
  repeat' (first | with_reducible exact hk | with_reducible assumption | with_reducible apply startMerge_kept | with_reducible apply compact_kept | with_reducible apply Kept.foldl)

theorem startCalendar_kept {K J : Bool} {c₀ : State} {s : State} (hk : Kept K J c₀ s) : Kept K J c₀ (startCalendar s) := by
  unfold startCalendar
  repeat' (first | with_reducible exact hk | with_reducible assumption | with_reducible apply adoptBudgets_kept | with_reducible apply clearUsed_kept | with_reducible apply placeRests_kept | intro _ | extract_lets | fail_if_no_progress with_reducible refine Kept.upd ?_ rfl rfl rfl)

theorem periodBoundary_kept {J : Bool} {c₀ : State} {s : State} (hk : Kept false J c₀ s) : Kept false J c₀ (periodBoundary s) := by
  unfold periodBoundary
  repeat' (first | with_reducible exact hk | with_reducible assumption | with_reducible apply timeTo_kept | with_reducible apply startRebuilds_kept | with_reducible apply renewPeriod_kept | with_reducible apply reshapeBoundary_kept | with_reducible apply placeRests_kept | with_reducible apply grantTwin_kept | with_reducible apply startDieCopy_kept | with_reducible apply mediaBoundary_kept | with_reducible apply Kept.ite | with_reducible apply Kept.foldl | intro _ | extract_lets | fail_if_no_progress with_reducible refine Kept.upd ?_ rfl rfl rfl)

theorem execSuspendAcknowledge_kept {c₀ : State} {s : State} (die : Nat) (ackNs : Nat) (hk : Kept false false c₀ s) : KeptBy false false c₀ (execSuspendAcknowledge die ackNs s) := by
  unfold execSuspendAcknowledge
  repeat' (first | with_reducible exact hk | with_reducible assumption | with_reducible apply setDie_kept | with_reducible apply record_kept | with_reducible apply failDie_kept | with_reducible apply KeptBy.next | with_reducible apply KeptBy.fault | with_reducible apply Kept.ite | with_reducible apply KeptBy.ite | intro _ | extract_lets | fail_if_no_progress with_reducible refine Kept.upd ?_ rfl rfl rfl | fail_if_no_progress with_reducible refine Kept.updAny ?_ rfl rfl rfl rfl | split)

theorem execDieOperationWatchdog_kept {c₀ : State} {s : State} (die : Nat) (hk : Kept false false c₀ s) : KeptBy false false c₀ (execDieOperationWatchdog die s) := by
  unfold execDieOperationWatchdog
  repeat' (first | with_reducible exact hk | with_reducible assumption | with_reducible apply failDie_kept | with_reducible apply KeptBy.next | with_reducible apply KeptBy.fault | with_reducible apply Kept.ite | with_reducible apply KeptBy.ite | intro _)

/-! ### Machine/MediaOps -/

theorem countReads_kept {K J : Bool} {c₀ : State} {s : State} (k : Nat) (n : Nat) (hk : Kept K J c₀ s) : Kept K J c₀ (countReads s k n) := by
  unfold countReads
  repeat' (first | with_reducible exact hk | with_reducible assumption | with_reducible apply setBset_kept)

theorem dieAnswered_kept {K J : Bool} {c₀ : State} {s : State} (slot : Nat) (d : Nat) (hk : Kept K J c₀ s) : Kept K J c₀ (dieAnswered s slot d) := by
  unfold dieAnswered
  repeat' (first | with_reducible exact hk | with_reducible assumption | with_reducible apply setCmd_kept | with_reducible apply startXts_kept | with_reducible apply Kept.ite | with_reducible apply Kept.elim | intro _ | extract_lets | fail_if_no_progress with_reducible refine Kept.upd ?_ rfl rfl rfl | split)

theorem endTwinRead_kept {K J : Bool} {c₀ : State} {s : State} (slot : Nat) (hk : Kept K J c₀ s) : Kept K J c₀ (endTwinRead s slot) := by
  unfold endTwinRead
  repeat' (first | with_reducible exact hk | with_reducible assumption | with_reducible apply finish_kept | with_reducible apply Kept.ite | intro _ | extract_lets | split)

theorem placeSoft_kept {K J : Bool} {c₀ : State} {s : State} (slot : Option Nat) (d : Nat) (tr : Nat) (hk : Kept K J c₀ s) : KeptOpt K J c₀ (placeSoft s slot d tr) := by
  unfold placeSoft
  repeat' (first | with_reducible exact hk | with_reducible assumption | with_reducible apply addClaim_kept | with_reducible apply addDraw_kept | with_reducible apply chargeBack_kept | with_reducible apply KeptOpt.some | with_reducible apply KeptOpt.none | with_reducible apply Kept.ite | with_reducible apply KeptOpt.ite | intro _)

theorem drawSoft_kept {K J : Bool} {c₀ : State} {s : State} (d : Nat) (hk : Kept K J c₀ s) : Kept K J c₀ (drawSoft s d) := by
  unfold drawSoft
  repeat' (first | with_reducible exact hk | with_reducible assumption | with_reducible apply addDraw_kept | with_reducible apply Kept.ite | intro _)

theorem placeStripe_kept {K J : Bool} {c₀ : State} {s : State} (slot : Nat) (d : Nat) (x : Need) (hk : Kept K J c₀ s) : Kept K J c₀ (placeStripe s slot d x) := by
  unfold placeStripe
  repeat' (first | with_reducible exact hk | with_reducible assumption | with_reducible apply addClaim_kept | with_reducible apply Kept.foldl | intro _ | extract_lets | fail_if_no_progress with_reducible refine Kept.upd ?_ rfl rfl rfl | split)

theorem copyRead_kept {K J : Bool} {c₀ : State} {s : State} (c : Copy) (hk : Kept K J c₀ s) : Kept K J c₀ (copyRead s c) := by
  unfold copyRead
  repeat' (first | with_reducible exact hk | with_reducible assumption | with_reducible apply setCopy_kept | with_reducible apply queueCopyPass_kept | with_reducible apply Kept.ite | with_reducible apply Kept.elim | intro _)

theorem learn_kept {K J : Bool} {c₀ : State} {s : State} (k : Nat) (hk : Kept K J c₀ s) : Kept K J c₀ (learn s k) := by
  unfold learn
  repeat' (first | with_reducible exact hk | with_reducible assumption | with_reducible apply drawFree_kept | with_reducible apply setBset_kept)

theorem calibrate_kept {K J : Bool} {c₀ : State} {s : State} (d : Nat) (hk : Kept K J c₀ s) : Kept K J c₀ (calibrate s d) := by
  unfold calibrate
  repeat' (first | with_reducible exact hk | with_reducible assumption | with_reducible apply learn_kept | intro _ | extract_lets | fail_if_no_progress with_reducible refine Kept.upd ?_ rfl rfl rfl | split)

theorem execDieReadComplete_kept {K J : Bool} {c₀ : State} {s : State} (slot : Option Nat) (die : Nat) (fails : Nat) (errs : Nat) (hk : Kept K J c₀ s) : KeptBy K J c₀ (execDieReadComplete slot die fails errs s) := by
  unfold execDieReadComplete
  repeat' (first | with_reducible exact hk | with_reducible assumption | with_reducible refine Kept.of_opt ?_ (by assumption) | with_reducible apply backRead_kept | with_reducible apply calibrate_kept | with_reducible apply countReads_kept | with_reducible apply copyRead_kept | with_reducible apply queueRefresh_kept | with_reducible apply endTwinRead_kept | with_reducible apply dieAnswered_kept | with_reducible apply placeSoft_kept | with_reducible apply drawSoft_kept | with_reducible apply placeStripe_kept | with_reducible apply KeptBy.next | with_reducible apply KeptBy.fault | with_reducible apply KeptOpt.some | with_reducible apply KeptOpt.none | with_reducible apply Kept.ite | with_reducible apply KeptBy.ite | intro _ | extract_lets | split)

theorem softFailed_kept {K J : Bool} {c₀ : State} {s : State} (k : Nat) (page : Nat) (plane : Nat) (hk : Kept K J c₀ s) : Kept K J c₀ (softFailed s k page plane) := by
  unfold softFailed
  repeat' (first | with_reducible exact hk | with_reducible assumption | with_reducible apply setBset_kept | with_reducible apply setDie_kept | with_reducible apply queueRefresh_kept | with_reducible apply grownBad_kept | with_reducible apply Kept.ite | intro _)

theorem execSoftRetryComplete_kept {K J : Bool} {c₀ : State} {s : State} (slot : Option Nat) (die : Nat) (page : Nat) (plane : Nat) (ok : Bool) (hk : Kept K J c₀ s) : KeptBy K J c₀ (execSoftRetryComplete slot die page plane ok s) := by
  unfold execSoftRetryComplete
  repeat' (first | with_reducible exact hk | with_reducible assumption | with_reducible apply setDie_kept | with_reducible apply learn_kept | with_reducible apply queueRefresh_kept | with_reducible apply endTwinRead_kept | with_reducible apply dieAnswered_kept | with_reducible apply softFailed_kept | with_reducible apply placeStripe_kept | with_reducible apply KeptBy.next | with_reducible apply KeptBy.fault | with_reducible apply Kept.ite | with_reducible apply KeptBy.ite | with_reducible apply Kept.elim | with_reducible apply KeptBy.elim | intro _ | extract_lets | fail_if_no_progress with_reducible refine Kept.upd ?_ rfl rfl rfl | split)

theorem execStripeReconstructionComplete_kept {K J : Bool} {c₀ : State} {s : State} (slot : Option Nat) (die : Nat) (erasures : Nat) (nsid : Nat) (lost : List Nat) (hk : Kept K J c₀ s) : KeptBy K J c₀ (execStripeReconstructionComplete slot die erasures nsid lost s) := by
  unfold execStripeReconstructionComplete
  repeat' (first | with_reducible exact hk | with_reducible assumption | with_reducible apply loseLba_kept | with_reducible apply dieAnswered_kept | with_reducible apply endTwinRead_kept | with_reducible apply setCmd_kept | with_reducible apply queueRebuildPass_kept | with_reducible apply KeptBy.next | with_reducible apply KeptBy.fault | with_reducible apply Kept.ite | with_reducible apply KeptBy.ite | with_reducible apply Kept.foldl | with_reducible apply Kept.foldl_fst | with_reducible apply Kept.foldl_snd | intro _ | extract_lets | fail_if_no_progress with_reducible refine Kept.upd ?_ rfl rfl rfl | split)

theorem execReadDisturbCheck_kept {K J : Bool} {c₀ : State} {s : State} (die : Nat) (bset : Nat) (errs : Bool) (hk : Kept K J c₀ s) : KeptBy K J c₀ (execReadDisturbCheck die bset errs s) := by
  unfold execReadDisturbCheck
  repeat' (first | with_reducible exact hk | with_reducible assumption | with_reducible apply queueRefresh_kept | with_reducible apply setBset_kept | with_reducible apply KeptBy.next | with_reducible apply KeptBy.fault | with_reducible apply Kept.ite | with_reducible apply KeptBy.ite | intro _)

theorem moveCopied_kept {K J : Bool} {c₀ : State} {s : State} (c : Copy) (hk : Kept K J c₀ s) : Kept K J c₀ (moveCopied s c) := by
  unfold moveCopied
  repeat' (first | with_reducible exact hk | with_reducible assumption | with_reducible apply setCopy_kept | with_reducible apply complete_kept | with_reducible apply switchCopy_kept | with_reducible apply switchMove_kept | with_reducible apply noteMove_kept | with_reducible apply moveOn_kept | with_reducible apply setNs_kept | with_reducible apply Kept.ite | with_reducible apply Kept.foldl | intro _ | extract_lets | fail_if_no_progress with_reducible refine Kept.upd ?_ rfl rfl rfl | split)

theorem countPass_kept {K J : Bool} {c₀ : State} {s : State} (k : Nat) (o : DieOp) (hk : Kept K J c₀ s) : Kept K J c₀ (countPass s k o) := by
  unfold countPass
  repeat' (first | with_reducible exact hk | with_reducible assumption | with_reducible apply setBset_kept)

theorem putPages_kept {K J : Bool} {c₀ : State} {s : State} (d : Nat) (o : DieOp) (hk : Kept K J c₀ s) : Kept K J c₀ (putPages s d o) := by
  unfold putPages
  repeat' (first | with_reducible exact hk | with_reducible assumption | with_reducible apply Kept.ite | with_reducible apply Kept.foldl | with_reducible apply Kept.foldl_fst | with_reducible apply Kept.foldl_snd | intro _ | extract_lets | fail_if_no_progress with_reducible refine Kept.upd ?_ rfl rfl rfl)

theorem clearPages_kept {K J : Bool} {c₀ : State} {s : State} (k : Nat) (hk : Kept K J c₀ s) : Kept K J c₀ (clearPages s k) := by
  unfold clearPages
  repeat' (first | with_reducible exact hk | with_reducible assumption | intro _ | extract_lets | fail_if_no_progress with_reducible refine Kept.upd ?_ rfl rfl rfl)

theorem requeuePass_kept {K J : Bool} {c₀ : State} {s : State} (d : Nat) (o : DieOp) (kind : DieOpKind) (wl : Nat) (bset : Nat) (hk : Kept K J c₀ s) : Kept K J c₀ (requeuePass s d o kind wl bset) := by
  unfold requeuePass
  repeat' (first | with_reducible exact hk | with_reducible assumption | intro _ | extract_lets | fail_if_no_progress with_reducible refine Kept.upd ?_ rfl rfl rfl)

theorem requeue_kept {K J : Bool} {c₀ : State} {s : State} (d : Nat) (o : DieOp) (bset : Nat) (hk : Kept K J c₀ s) : Kept K J c₀ (requeue s d o bset) := by
  unfold requeue
  repeat' (first | with_reducible exact hk | with_reducible assumption | with_reducible apply requeuePass_kept)

theorem zoneFailed_kept {K J : Bool} {c₀ : State} {s : State} (d : Nat) (plane : Nat) (last : Bool) (o : DieOp) (hk : Kept K J c₀ s) : Kept K J c₀ (zoneFailed s d plane last o) := by
  unfold zoneFailed
  repeat' (first | with_reducible exact hk | with_reducible assumption | with_reducible apply requeue_kept | with_reducible apply grownBad_kept | with_reducible apply goOn_kept | with_reducible apply requeuePass_kept | with_reducible apply Kept.foldl | with_reducible apply Kept.foldl_fst | with_reducible apply Kept.foldl_snd | intro _ | extract_lets | split)

theorem rowFailed_kept {K J : Bool} {c₀ : State} {s : State} (d : Nat) (plane : Nat) (o : DieOp) (hk : Kept K J c₀ s) : Kept K J c₀ (rowFailed s d plane o) := by
  unfold rowFailed
  repeat' (first | with_reducible exact hk | with_reducible assumption | with_reducible apply requeue_kept | with_reducible apply grownBad_kept | with_reducible apply continueIn_kept | intro _ | extract_lets | split)

theorem queueReference_kept {K J : Bool} {c₀ : State} {s : State} (k : Nat) (hk : Kept K J c₀ s) : Kept K J c₀ (queueReference s k) := by
  unfold queueReference
  repeat' (first | with_reducible exact hk | with_reducible assumption | with_reducible apply setBset_kept | with_reducible apply Kept.ite | intro _ | extract_lets | fail_if_no_progress with_reducible refine Kept.upd ?_ rfl rfl rfl)

theorem startReference_kept {K J : Bool} {c₀ : State} {s : State} (k : Nat) (hk : Kept K J c₀ s) : Kept K J c₀ (startReference s k) := by
  unfold startReference
  repeat' (first | with_reducible exact hk | with_reducible assumption | with_reducible apply queueReference_kept | with_reducible apply bindSet_kept | with_reducible apply Kept.ite | intro _)

theorem passDone_kept {K : Bool} {c₀ : State} {s : State} (d : Nat) (o : DieOp) (hk : Kept K false c₀ s) : Kept K false c₀ (passDone s d o) := by
  unfold passDone
  repeat' (first | with_reducible exact hk | with_reducible assumption | with_reducible apply putPages_kept | with_reducible apply countPass_kept | with_reducible apply confirmZone_kept | with_reducible apply endRows_kept | with_reducible apply setCopy_kept | with_reducible apply moveCopied_kept | with_reducible apply switchCopy_kept | with_reducible apply setRebuild_kept | with_reducible apply switchSets_kept | with_reducible apply queueReference_kept | with_reducible apply Kept.ite | intro _ | extract_lets | fail_if_no_progress with_reducible refine Kept.upd ?_ rfl rfl rfl | split)

theorem passFailed_kept {K J : Bool} {c₀ : State} {s : State} (d : Nat) (plane : Nat) (last : Bool) (o : DieOp) (hk : Kept K J c₀ s) : Kept K J c₀ (passFailed s d plane last o) := by
  unfold passFailed
  repeat' (first | with_reducible exact hk | with_reducible assumption | with_reducible apply zoneFailed_kept | with_reducible apply copyFailed_kept | with_reducible apply rowFailed_kept | with_reducible apply requeue_kept | with_reducible apply grownBad_kept | with_reducible apply Kept.elim | intro _ | extract_lets | split)

theorem passEnded_kept {K : Bool} {c₀ : State} {s : State} (d : Nat) (plane : Nat) (ok : Bool) (last : Bool) (o : DieOp) (hk : Kept K false c₀ s) : Kept K false c₀ (passEnded s d plane ok last o) := by
  unfold passEnded
  repeat' (first | with_reducible exact hk | with_reducible assumption | with_reducible apply passDone_kept | with_reducible apply passFailed_kept | with_reducible apply Kept.ite | intro _)

theorem execProgramComplete_kept {K : Bool} {c₀ : State} {s : State} (die : Nat) (plane : Nat) (pass : PassEnd) (hk : Kept K false c₀ s) : KeptBy K false c₀ (execProgramComplete die plane pass s) := by
  unfold execProgramComplete
  repeat' (first | with_reducible exact hk | with_reducible assumption | with_reducible apply setDie_kept | with_reducible apply nextWt_kept | with_reducible apply passEnded_kept | with_reducible apply KeptBy.next | with_reducible apply KeptBy.fault | with_reducible apply Kept.ite | with_reducible apply KeptBy.ite | intro _ | extract_lets | fail_if_no_progress with_reducible refine Kept.upd ?_ rfl rfl rfl | split)

theorem levelSlc_kept {K J : Bool} {c₀ : State} {s : State} (k : Nat) (hk : Kept K J c₀ s) : Kept K J c₀ (levelSlc s k) := by
  unfold levelSlc
  repeat' (first | with_reducible exact hk | with_reducible assumption | with_reducible apply setBset_kept | with_reducible apply Kept.ite | with_reducible apply Kept.foldl | intro _ | extract_lets | fail_if_no_progress with_reducible refine Kept.upd ?_ rfl rfl rfl | split)

theorem replaceBad_kept {c₀ : State} {s : State} (k : Nat) (hk : Kept false false c₀ s) : Kept false false c₀ (replaceBad s k) := by
  unfold replaceBad
  repeat' (first | with_reducible exact hk | with_reducible assumption | with_reducible apply setDie_kept | with_reducible apply setBset_kept | with_reducible apply failDie_kept | with_reducible apply Kept.ite | with_reducible apply Kept.foldl | intro _ | extract_lets | fail_if_no_progress with_reducible refine Kept.upd ?_ rfl rfl rfl | fail_if_no_progress with_reducible refine Kept.updAny ?_ rfl rfl rfl rfl | split)

theorem stagingErased_kept {K J : Bool} {c₀ : State} {s : State} (k : Nat) (hk : Kept K J c₀ s) : Kept K J c₀ (stagingErased s k) := by
  unfold stagingErased
  repeat' (first | with_reducible exact hk | with_reducible assumption | with_reducible apply setGrp_kept | with_reducible apply Kept.ite | intro _)

theorem erasedFor_kept {K J : Bool} {c₀ : State} {s : State} (k : Nat) (hk : Kept K J c₀ s) : Kept K J c₀ (erasedFor s k) := by
  unfold erasedFor
  repeat' (first | with_reducible exact hk | with_reducible assumption | intro _ | extract_lets | fail_if_no_progress with_reducible refine Kept.upd ?_ rfl rfl rfl)

theorem endSanitize_kept {K J : Bool} {c₀ : State} {s : State} (hk : Kept K J c₀ s) : Kept K J c₀ (endSanitize s) := by
  unfold endSanitize
  repeat' (first | with_reducible exact hk | with_reducible assumption | with_reducible apply Kept.ite | intro _ | extract_lets | fail_if_no_progress with_reducible refine Kept.upd ?_ rfl rfl rfl)

theorem execEraseComplete_kept {c₀ : State} {s : State} (die : Nat) (plane : Nat) (ok : Bool) (hk : Kept false false c₀ s) : KeptBy false false c₀ (execEraseComplete die plane ok s) := by
  unfold execEraseComplete
  repeat' (first | with_reducible exact hk | with_reducible assumption | with_reducible apply setDie_kept | with_reducible apply clearPages_kept | with_reducible apply moduleRecord_kept | with_reducible apply setBset_kept | with_reducible apply grownBad_kept | with_reducible apply startReference_kept | with_reducible apply stagingErased_kept | with_reducible apply levelSlc_kept | with_reducible apply replaceBad_kept | with_reducible apply endSanitize_kept | with_reducible apply erasedFor_kept | with_reducible apply KeptBy.next | with_reducible apply KeptBy.fault | with_reducible apply Kept.ite | with_reducible apply KeptBy.ite | intro _ | extract_lets | fail_if_no_progress with_reducible refine Kept.upd ?_ rfl rfl rfl | fail_if_no_progress with_reducible refine Kept.updAny ?_ rfl rfl rfl rfl | split)

theorem execStagingThreshold_kept {K J : Bool} {c₀ : State} {s : State} (nsid : Nat) (zone : Nat) (hk : Kept K J c₀ s) : KeptBy K J c₀ (execStagingThreshold nsid zone s) := by
  unfold execStagingThreshold
  repeat' (first | with_reducible exact hk | with_reducible assumption | with_reducible apply stageZone_kept | with_reducible apply KeptBy.next | with_reducible apply KeptBy.fault | with_reducible apply Kept.ite | with_reducible apply KeptBy.ite | intro _ | extract_lets | split)

theorem execStagingRowTimeout_kept {K J : Bool} {c₀ : State} {s : State} (group : Nat) (hk : Kept K J c₀ s) : KeptBy K J c₀ (execStagingRowTimeout group s) := by
  unfold execStagingRowTimeout
  repeat' (first | with_reducible exact hk | with_reducible assumption | with_reducible apply releaseRow_kept | with_reducible apply KeptBy.next | with_reducible apply KeptBy.fault | with_reducible apply Kept.ite | with_reducible apply KeptBy.ite | with_reducible apply Kept.foldl | with_reducible apply Kept.foldl_fst | with_reducible apply Kept.foldl_snd | intro _)

theorem queueAged_kept {K J : Bool} {c₀ : State} {s : State} (hk : Kept K J c₀ s) : Kept K J c₀ (queueAged s) := by
  unfold queueAged
  repeat' (first | with_reducible exact hk | with_reducible assumption | with_reducible apply queueRefresh_kept | with_reducible apply Kept.foldl | with_reducible apply Kept.foldl_fst | with_reducible apply Kept.foldl_snd | intro _)

theorem readReferences_kept {K J : Bool} {c₀ : State} {s : State} (hk : Kept K J c₀ s) : Kept K J c₀ (readReferences s) := by
  unfold readReferences
  repeat' (first | with_reducible exact hk | with_reducible assumption | intro _ | extract_lets | fail_if_no_progress with_reducible refine Kept.upd ?_ rfl rfl rfl)

theorem renewReference_kept {K J : Bool} {c₀ : State} {s : State} (c : Nat) (hk : Kept K J c₀ s) : Kept K J c₀ (renewReference s c) := by
  unfold renewReference
  repeat' (first | with_reducible exact hk | with_reducible assumption | with_reducible apply toErase_kept | with_reducible apply Kept.ite | intro _ | extract_lets | fail_if_no_progress with_reducible refine Kept.upd ?_ rfl rfl rfl | split)

theorem askCalibration_kept {K J : Bool} {c₀ : State} {s : State} (hk : Kept K J c₀ s) : Kept K J c₀ (askCalibration s) := by
  unfold askCalibration
  repeat' (first | with_reducible exact hk | with_reducible assumption | intro _ | extract_lets | fail_if_no_progress with_reducible refine Kept.upd ?_ rfl rfl rfl)

theorem execRetentionClockIncrement_kept {J : Bool} {c₀ : State} {s : State} (shifts : List Nat) (worn : List Nat) (hk : Kept false J c₀ s) : KeptBy false J c₀ (execRetentionClockIncrement shifts worn s) := by
  unfold execRetentionClockIncrement
  repeat' (first | with_reducible exact hk | with_reducible assumption | with_reducible apply queueAged_kept | with_reducible apply renewReference_kept | with_reducible apply readReferences_kept | with_reducible apply askCalibration_kept | with_reducible apply KeptBy.next | with_reducible apply KeptBy.fault | with_reducible apply Kept.ite | with_reducible apply KeptBy.ite | with_reducible apply Kept.foldl | intro _ | extract_lets | fail_if_no_progress with_reducible refine Kept.upd ?_ rfl rfl rfl | fail_if_no_progress with_reducible refine Kept.updAny ?_ rfl rfl rfl rfl)

theorem execPercentageUsedUpdate_kept {K J : Bool} {c₀ : State} {s : State} (hk : Kept K J c₀ s) : KeptBy K J c₀ (execPercentageUsedUpdate s) := by
  unfold execPercentageUsedUpdate
  repeat' (first | with_reducible exact hk | with_reducible assumption | with_reducible apply ccsSet_kept | with_reducible apply KeptBy.next | with_reducible apply KeptBy.fault | with_reducible apply Kept.ite | with_reducible apply KeptBy.ite | intro _ | extract_lets | fail_if_no_progress with_reducible refine Kept.upd ?_ rfl rfl rfl)

theorem retireCovered_kept {K J : Bool} {c₀ : State} {s : State} (below : Nat) (hk : Kept K J c₀ s) : Kept K J c₀ (retireCovered s below) := by
  unfold retireCovered
  repeat' (first | with_reducible exact hk | with_reducible assumption | with_reducible apply retire_kept | with_reducible apply Kept.foldl | with_reducible apply Kept.foldl_fst | with_reducible apply Kept.foldl_snd | intro _)

theorem checkpoint_kept {K J : Bool} {c₀ : State} {s : State} (hk : Kept K J c₀ s) : Kept K J c₀ (checkpoint s) := by
  unfold checkpoint
  repeat' (first | with_reducible exact hk | with_reducible assumption | with_reducible apply moduleRecord_kept | with_reducible apply retireCovered_kept | intro _ | extract_lets | fail_if_no_progress with_reducible refine Kept.upd ?_ rfl rfl rfl)

theorem execCheckpointInterval_kept {K J : Bool} {c₀ : State} {s : State} (hk : Kept K J c₀ s) : KeptBy K J c₀ (execCheckpointInterval s) := by
  unfold execCheckpointInterval
  repeat' (first | with_reducible exact hk | with_reducible assumption | with_reducible apply checkpoint_kept | with_reducible apply KeptBy.next | with_reducible apply KeptBy.fault | with_reducible apply Kept.ite | with_reducible apply KeptBy.ite | intro _)

theorem execZoneOpenAgeExpiry_kept {K J : Bool} {c₀ : State} {s : State} (nsid : Nat) (zone : Nat) (hk : Kept K J c₀ s) : KeptBy K J c₀ (execZoneOpenAgeExpiry nsid zone s) := by
  unfold execZoneOpenAgeExpiry
  repeat' (first | with_reducible exact hk | with_reducible assumption | with_reducible refine Kept.of_fst ?_ (by assumption) | with_reducible apply setZone_kept | with_reducible apply formRecord_kept | with_reducible apply noteZone_kept | with_reducible apply KeptBy.next | with_reducible apply KeptBy.fault | with_reducible apply Kept.ite | with_reducible apply KeptBy.ite | intro _ | extract_lets | fail_if_no_progress with_reducible refine Kept.upd ?_ rfl rfl rfl | split)

/-! ### Machine/DataPath -/

theorem removeRec_kept {K J : Bool} {c₀ : State} {s : State} (seq : Nat) (hk : Kept K J c₀ s) : Kept K J c₀ (removeRec s seq) := by
  unfold removeRec
  repeat' (first | with_reducible exact hk | with_reducible assumption | with_reducible apply send_kept | with_reducible apply Kept.ite | intro _ | extract_lets | fail_if_no_progress with_reducible refine Kept.upd ?_ rfl rfl rfl | split)

theorem dropWrite_kept {K J : Bool} {c₀ : State} {s : State} (seq : Nat) (hk : Kept K J c₀ s) : Kept K J c₀ (dropWrite s seq) := by
  unfold dropWrite
  repeat' (first | with_reducible exact hk | with_reducible assumption | with_reducible apply removeRec_kept | with_reducible apply finish_kept | with_reducible apply setZone_kept | with_reducible apply Kept.ite | with_reducible apply Kept.foldl | with_reducible apply Kept.foldl_fst | with_reducible apply Kept.foldl_snd | intro _ | extract_lets | fail_if_no_progress with_reducible refine Kept.upd ?_ rfl rfl rfl | split)

theorem placeApplied_kept {K J : Bool} {c₀ : State} {s : State} (hk : Kept K J c₀ s) : Kept K J c₀ (placeApplied s) := by
  unfold placeApplied
  repeat' (first | with_reducible exact hk | with_reducible assumption | with_reducible apply checkRelief_kept | with_reducible apply afterApply_kept | with_reducible apply Kept.foldl | with_reducible apply Kept.foldl_fst | with_reducible apply Kept.foldl_snd | intro _)

theorem dataArrived_kept {K J : Bool} {c₀ : State} {s : State} (slot : Nat) (q : Nat) (hk : Kept K J c₀ s) : Kept K J c₀ (dataArrived s slot q) := by
  unfold dataArrived
  repeat' (first | with_reducible exact hk | with_reducible assumption | with_reducible apply sendMirror_kept | with_reducible apply setCmd_kept | with_reducible apply stageRec_kept | with_reducible apply Kept.ite | intro _)

theorem execHostDataReceived_kept {K J : Bool} {c₀ : State} {s : State} (slot : Nat) (pi : Nat) (hk : Kept K J c₀ s) : KeptBy K J c₀ (execHostDataReceived slot pi s) := by
  unfold execHostDataReceived
  repeat' (first | with_reducible exact hk | with_reducible assumption | with_reducible apply endXts_kept | with_reducible apply finish_kept | with_reducible apply sendForwarded_kept | with_reducible apply setCmd_kept | with_reducible apply dropWrite_kept | with_reducible apply dataArrived_kept | with_reducible apply KeptBy.next | with_reducible apply KeptBy.fault | with_reducible apply Kept.ite | with_reducible apply KeptBy.ite | intro _ | extract_lets | fail_if_no_progress with_reducible refine Kept.upd ?_ rfl rfl rfl | split)

theorem recordSettled_kept {K : Bool} {c₀ : State} {s : State} (seq : Nat) (hk : Kept K false c₀ s) : Kept K false c₀ (recordSettled s seq) := by
  unfold recordSettled
  repeat' (first | with_reducible exact hk | with_reducible assumption | with_reducible apply placeApplied_kept | with_reducible apply wakeZops_kept | with_reducible apply settle_kept | with_reducible apply retireNs_kept | with_reducible apply Kept.ite | with_reducible apply Kept.elim | intro _)

theorem execRecordDurable_kept {K : Bool} {c₀ : State} {s : State} (seq : Nat) (hk : Kept K false c₀ s) : KeptBy K false c₀ (execRecordDurable seq s) := by
  unfold execRecordDurable
  repeat' (first | with_reducible exact hk | with_reducible assumption | with_reducible apply makeDurable_kept | with_reducible apply touchDram_kept | with_reducible apply dropUser_kept | with_reducible apply setCmd_kept | with_reducible apply recordSettled_kept | with_reducible apply ackMirror_kept | with_reducible apply KeptBy.next | with_reducible apply KeptBy.fault | with_reducible apply Kept.ite | with_reducible apply KeptBy.ite | with_reducible apply Kept.elim | with_reducible apply KeptBy.elim | intro _ | extract_lets | fail_if_no_progress with_reducible refine Kept.upd ?_ rfl rfl rfl | split)

theorem execReadDataDelivered_kept {K J : Bool} {c₀ : State} {s : State} (slot : Nat) (hk : Kept K J c₀ s) : KeptBy K J c₀ (execReadDataDelivered slot s) := by
  unfold execReadDataDelivered
  repeat' (first | with_reducible exact hk | with_reducible assumption | with_reducible apply finish_kept | with_reducible apply endXts_kept | with_reducible apply KeptBy.next | with_reducible apply KeptBy.fault | with_reducible apply Kept.ite | with_reducible apply KeptBy.ite | intro _ | extract_lets | split)

theorem execUnboundBufferGrant_kept {K J : Bool} {c₀ : State} {s : State} (slot : Nat) (hk : Kept K J c₀ s) : KeptBy K J c₀ (execUnboundBufferGrant slot s) := by
  unfold execUnboundBufferGrant
  repeat' (first | with_reducible exact hk | with_reducible assumption | with_reducible apply takeBufs_kept | with_reducible apply KeptBy.next | with_reducible apply KeptBy.fault | with_reducible apply Kept.ite | with_reducible apply KeptBy.ite | intro _ | extract_lets | split)

theorem execUnboundWriteShareGrant_kept {K J : Bool} {c₀ : State} {s : State} (slot : Nat) (hk : Kept K J c₀ s) : KeptBy K J c₀ (execUnboundWriteShareGrant slot s) := by
  unfold execUnboundWriteShareGrant
  repeat' (first | with_reducible exact hk | with_reducible assumption | with_reducible apply setRec_kept | with_reducible apply setCmd_kept | with_reducible apply dataArrived_kept | with_reducible apply takeBufs_kept | with_reducible apply KeptBy.next | with_reducible apply KeptBy.fault | with_reducible apply Kept.ite | with_reducible apply KeptBy.ite | intro _ | extract_lets | fail_if_no_progress with_reducible refine Kept.upd ?_ rfl rfl rfl | split)

theorem execDeadlineTimerExpiry_kept {K J : Bool} {c₀ : State} {s : State} (slot : Nat) (hk : Kept K J c₀ s) : KeptBy K J c₀ (execDeadlineTimerExpiry slot s) := by
  unfold execDeadlineTimerExpiry
  repeat' (first | with_reducible exact hk | with_reducible assumption | with_reducible apply setCmd_kept | with_reducible apply setLedger_kept | with_reducible apply KeptBy.next | with_reducible apply KeptBy.fault | with_reducible apply Kept.ite | with_reducible apply KeptBy.ite | intro _ | extract_lets | fail_if_no_progress with_reducible refine Kept.upd ?_ rfl rfl rfl | split)

theorem setCore_kept {K J : Bool} {c₀ : State} {s : State} (c : Nat) (f : Proc → Proc) (hk : Kept K J c₀ s) : Kept K J c₀ (setCore s c f) := by
  unfold setCore
  repeat' (first | with_reducible exact hk | with_reducible assumption | intro _ | extract_lets | fail_if_no_progress with_reducible refine Kept.upd ?_ rfl rfl rfl)

theorem ownCmd_kept {K J : Bool} {c₀ : State} {s : State} (slot : Nat) (core : Nat) (hk : Kept K J c₀ s) : Kept K J c₀ (ownCmd s slot core) := by
  unfold ownCmd
  repeat' (first | with_reducible exact hk | with_reducible assumption | with_reducible apply setCmd_kept)

theorem spinCmd_kept {K J : Bool} {c₀ : State} {s : State} (run : List Nat) (slot : Nat) (hk : Kept K J c₀ s) : Kept K J c₀ (spinCmd run s slot) := by
  unfold spinCmd
  repeat' (first | with_reducible exact hk | with_reducible assumption | with_reducible apply ownCmd_kept | intro _ | extract_lets | fail_if_no_progress with_reducible refine Kept.upd ?_ rfl rfl rfl | split)

theorem moveCore_kept {K J : Bool} {c₀ : State} {s : State} (c : Nat) (hk : Kept K J c₀ s) : Kept K J c₀ (moveCore s c) := by
  unfold moveCore
  repeat' (first | with_reducible exact hk | with_reducible assumption | with_reducible apply setCore_kept | with_reducible apply ownCmd_kept | with_reducible apply spinCmd_kept | with_reducible apply Kept.ite | with_reducible apply Kept.foldl | with_reducible apply Kept.foldl_fst | with_reducible apply Kept.foldl_snd | intro _ | extract_lets | fail_if_no_progress with_reducible refine Kept.upd ?_ rfl rfl rfl | split)

theorem execRescuePoint_kept {K J : Bool} {c₀ : State} {s : State} (slot : Nat) (hk : Kept K J c₀ s) : KeptBy K J c₀ (execRescuePoint slot s) := by
  unfold execRescuePoint
  repeat' (first | with_reducible exact hk | with_reducible assumption | with_reducible apply setCmd_kept | with_reducible apply capture_kept | with_reducible apply record_kept | with_reducible apply moveCore_kept | with_reducible apply KeptBy.next | with_reducible apply KeptBy.fault | with_reducible apply Kept.ite | with_reducible apply KeptBy.ite | intro _ | extract_lets | fail_if_no_progress with_reducible refine Kept.upd ?_ rfl rfl rfl | split)

theorem execProgressBeat_kept {K J : Bool} {c₀ : State} {s : State} (core : Nat) (hk : Kept K J c₀ s) : KeptBy K J c₀ (execProgressBeat core s) := by
  unfold execProgressBeat
  repeat' (first | with_reducible exact hk | with_reducible assumption | with_reducible apply setCore_kept | with_reducible apply takeDescr_kept | with_reducible apply KeptBy.next | with_reducible apply KeptBy.fault | with_reducible apply Kept.ite | with_reducible apply KeptBy.ite | intro _)

theorem execRequestCoreWatchdog_kept {K J : Bool} {c₀ : State} {s : State} (core : Nat) (hk : Kept K J c₀ s) : KeptBy K J c₀ (execRequestCoreWatchdog core s) := by
  unfold execRequestCoreWatchdog
  repeat' (first | with_reducible exact hk | with_reducible assumption | with_reducible apply moveCore_kept | with_reducible apply record_kept | with_reducible apply setCore_kept | with_reducible apply KeptBy.next | with_reducible apply KeptBy.fault | with_reducible apply Kept.ite | with_reducible apply KeptBy.ite | intro _)

theorem execCoreReturnToService_kept {K J : Bool} {c₀ : State} {s : State} (core : Nat) (hk : Kept K J c₀ s) : KeptBy K J c₀ (execCoreReturnToService core s) := by
  unfold execCoreReturnToService
  repeat' (first | with_reducible exact hk | with_reducible assumption | with_reducible apply setCore_kept | with_reducible apply record_kept | with_reducible apply KeptBy.next | with_reducible apply KeptBy.fault | with_reducible apply Kept.ite | with_reducible apply KeptBy.ite | intro _)

/-! ### Machine/Copies -/

theorem takeWrite_kept {K J : Bool} {c₀ : State} {s : State} (r : VRec) (n : Ns) (hk : Kept K J c₀ s) : KeptOk K J c₀ (takeWrite s r n) := by
  unfold takeWrite
  repeat' (first | with_reducible exact hk | with_reducible assumption | with_reducible refine Kept.of_ok ?_ (by assumption) | with_reducible apply openForWrite_kept | with_reducible apply setZone_kept | with_reducible apply KeptOk.ok | with_reducible apply KeptOk.error | intro _ | extract_lets | fail_if_no_progress with_reducible refine Kept.upd ?_ rfl rfl rfl | split)

theorem takeExt_kept {K J : Bool} {c₀ : State} {s : State} (r : VRec) (n : Ns) (hk : Kept K J c₀ s) : KeptOk K J c₀ (takeExt s r n) := by
  unfold takeExt
  repeat' (first | with_reducible exact hk | with_reducible assumption | with_reducible refine Kept.of_ok ?_ (by assumption) | with_reducible apply leaveEmpty_kept | with_reducible apply setZone_kept | with_reducible apply KeptOk.ok | with_reducible apply KeptOk.error | intro _ | extract_lets | fail_if_no_progress with_reducible refine Kept.upd ?_ rfl rfl rfl | split)

theorem takeZoneChange_kept {K : Bool} {c₀ : State} {s : State} (r : VRec) (n : Ns) (hk : Kept K false c₀ s) : KeptOk K false c₀ (takeZoneChange s r n) := by
  unfold takeZoneChange
  repeat' (first | with_reducible exact hk | with_reducible assumption | with_reducible refine Kept.of_ok ?_ (by assumption) | with_reducible apply setZone_kept | with_reducible apply emptyZone_kept | with_reducible apply finishZone_kept | with_reducible apply zoneAction_kept | with_reducible apply takeExt_kept | with_reducible apply setNs_kept | with_reducible apply KeptOk.ok | with_reducible apply KeptOk.error | intro _ | extract_lets | fail_if_no_progress with_reducible refine Kept.upd ?_ rfl rfl rfl | split)

theorem takeCopy_kept {K : Bool} {c₀ : State} {s : State} (r : VRec) (hk : Kept K false c₀ s) : KeptOk K false c₀ (takeCopy s r) := by
  unfold takeCopy
  repeat' (first | with_reducible exact hk | with_reducible assumption | with_reducible refine Kept.of_ok ?_ (by assumption) | with_reducible apply takeWrite_kept | with_reducible apply takeZoneChange_kept | with_reducible apply KeptOk.ok | with_reducible apply KeptOk.error | with_reducible apply Kept.ite | with_reducible apply KeptOk.ite | intro _ | extract_lets | split)

theorem releaseHeld_kept {K : Bool} {c₀ : State} {s : State} (nsid : Nat) (i : Nat) (hk : Kept K false c₀ s) : Kept K false c₀ (releaseHeld s nsid i) := by
  unfold releaseHeld
  repeat' (first | with_reducible exact hk | with_reducible assumption | with_reducible refine Kept.of_ok ?_ (by assumption) | with_reducible refine Kept.of_ok_self (by assumption) | with_reducible apply retire_kept | with_reducible apply takeCopy_kept | with_reducible apply setRec_kept | with_reducible apply retireNs_kept | with_reducible apply placeApplied_kept | with_reducible apply settleZone_kept | with_reducible apply KeptOk.ok | with_reducible apply KeptOk.error | with_reducible apply Kept.ite | with_reducible apply Kept.foldl | with_reducible apply Kept.foldl_fst | with_reducible apply Kept.foldl_snd | with_reducible apply KeptOk.foldl | intro _ | extract_lets | fail_if_no_progress with_reducible refine Kept.upd ?_ rfl rfl rfl | split)

theorem releaseAllHeld_kept {K : Bool} {c₀ : State} {s : State} (nsid : Nat) (hk : Kept K false c₀ s) : Kept K false c₀ (releaseAllHeld s nsid) := by
  unfold releaseAllHeld
  repeat' (first | with_reducible exact hk | with_reducible assumption | with_reducible apply releaseHeld_kept | with_reducible apply Kept.foldl | with_reducible apply Kept.foldl_snd | intro _)

theorem revertCopy_kept {K : Bool} {c₀ : State} {s : State} (r : VRec) (n : Ns) (hk : Kept K false c₀ s) : Kept K false c₀ (revertCopy s r n) := by
  unfold revertCopy
  repeat' (first | with_reducible exact hk | with_reducible assumption | with_reducible apply clearRange_kept | with_reducible apply setZone_kept | with_reducible apply storeLba_kept | with_reducible apply Kept.ite | with_reducible apply Kept.foldl | intro _)

theorem dropCopy_kept {K : Bool} {c₀ : State} {s : State} (seq : Nat) (hk : Kept K false c₀ s) : Kept K false c₀ (dropCopy s seq) := by
  unfold dropCopy
  repeat' (first | with_reducible exact hk | with_reducible assumption | with_reducible apply removeRec_kept | with_reducible apply revertCopy_kept | with_reducible apply setZone_kept | with_reducible apply Kept.ite | with_reducible apply Kept.elim | intro _ | extract_lets | fail_if_no_progress with_reducible refine Kept.upd ?_ rfl rfl rfl | split)

/-! ### Machine/Landing -/

theorem landPlace_kept {K J : Bool} {c₀ : State} {s : State} (g : Nat) (hk : Kept K J c₀ s) : KeptFst K J c₀ (landPlace s g) := by
  unfold landPlace
  repeat' (first | with_reducible exact hk | with_reducible assumption | with_reducible refine Kept.of_some_fst ?_ (by assumption) | with_reducible apply bindSet_kept | with_reducible apply KeptFst.some | with_reducible apply KeptFst.none | with_reducible apply Kept.ite | with_reducible apply KeptFst.ite | with_reducible apply Kept.foldl | with_reducible apply KeptFst.map | intro _ | extract_lets | fail_if_no_progress with_reducible refine Kept.upd ?_ rfl rfl rfl | split)

theorem newLandRow_kept {K J : Bool} {c₀ : State} {s : State} (hk : Kept K J c₀ s) : Kept K J c₀ (newLandRow s) := by
  unfold newLandRow
  repeat' (first | with_reducible exact hk | with_reducible assumption | with_reducible refine Kept.of_some_fst ?_ (by assumption) | with_reducible apply landPlace_kept | with_reducible apply KeptFst.some | with_reducible apply KeptFst.none | intro _ | extract_lets | fail_if_no_progress with_reducible refine Kept.upd ?_ rfl rfl rfl | split)

theorem fillRow_kept {K J : Bool} {c₀ : State} {s : State} (seq : Nat) (bytes : Nat) (hk : Kept K J c₀ s) : Kept K J c₀ (fillRow s seq bytes).1 := by
  unfold fillRow
  repeat' (first | with_reducible exact hk | with_reducible assumption | with_reducible refine Kept.of_fst ?_ (by assumption) | with_reducible apply Kept.foldl | intro _ | extract_lets | fail_if_no_progress with_reducible refine Kept.upd ?_ rfl rfl rfl | split)

theorem landBytes_kept {K J : Bool} {c₀ : State} {s : State} (k : Nat) (k1 : Nat) (k2 : Nat) (hk : Kept K J c₀ s) : Kept K J c₀ (landBytes k s k1 k2) := by
  induction k generalizing s k1 k2 with
  | zero => unfold landBytes; repeat' (first | with_reducible exact hk)
  | succ k ih =>
    unfold landBytes
    repeat' (first | with_reducible apply ih | with_reducible exact hk | with_reducible assumption | with_reducible apply newLandRow_kept | with_reducible apply fillRow_kept | with_reducible apply Kept.ite | intro _)

theorem closeLandRow_kept {K J : Bool} {c₀ : State} {s : State} (hk : Kept K J c₀ s) : Kept K J c₀ (closeLandRow s) := by
  unfold closeLandRow
  repeat' (first | with_reducible exact hk | with_reducible assumption | intro _ | extract_lets | fail_if_no_progress with_reducible refine Kept.upd ?_ rfl rfl rfl)

theorem landRecs_kept {K J : Bool} {c₀ : State} {s : State} (p : Nat → Bool) (hk : Kept K J c₀ s) : Kept K J c₀ (landRecs s p) := by
  unfold landRecs
  repeat' (first | with_reducible exact hk | with_reducible assumption | with_reducible apply closeLandRow_kept | with_reducible apply landBytes_kept | with_reducible apply Kept.foldl | with_reducible apply Kept.foldl_fst | with_reducible apply Kept.foldl_snd | intro _ | extract_lets | fail_if_no_progress with_reducible refine Kept.upd ?_ rfl rfl rfl)

theorem freeLanding_kept {K J : Bool} {c₀ : State} {s : State} (hk : Kept K J c₀ s) : Kept K J c₀ (freeLanding s) := by
  unfold freeLanding
  repeat' (first | with_reducible exact hk | with_reducible assumption | with_reducible apply toErase_kept | with_reducible apply Kept.foldl | with_reducible apply Kept.foldl_fst | with_reducible apply Kept.foldl_snd | intro _ | extract_lets | fail_if_no_progress with_reducible refine Kept.upd ?_ rfl rfl rfl)

theorem searchPointers_kept {K J : Bool} {c₀ : State} {s : State} (hk : Kept K J c₀ s) : Kept K J c₀ (searchPointers s) := by
  unfold searchPointers
  repeat' (first | with_reducible exact hk | with_reducible assumption | with_reducible apply setBset_kept | with_reducible apply confirmZone_kept | with_reducible apply Kept.foldl | with_reducible apply Kept.foldl_fst | with_reducible apply Kept.foldl_snd | intro _)

theorem classify_kept {K J : Bool} {c₀ : State} {s : State} (ckpt : Bool) (k : Nat) (erased : Bool) (hk : Kept K J c₀ s) : Kept K J c₀ (classify s ckpt k erased) := by
  unfold classify
  repeat' (first | with_reducible exact hk | with_reducible assumption | with_reducible apply setBset_kept | with_reducible apply toErase_kept | with_reducible apply record_kept | with_reducible apply Kept.ite | intro _)

end Sys2Proof.Machine
end

