-- ==== Sys2Proof/Laws/KeptHost.lean ====
section
/-! SUPPORT. `Kept` of the resets, the admin commands and the namespace operations: one lemma for each operation and for the meaning of each command. -/

namespace Sys2Proof.Machine

/-! ### Machine/Resets -/

theorem undo_kept {K J : Bool} {c₀ : State} {s : State} (slot : Nat) (c : Cmd) (hk : Kept K J c₀ s) : Kept K J c₀ (undo s slot c) := by
  unfold undo
  repeat' (first | with_reducible exact hk | with_reducible assumption | with_reducible apply dropWrite_kept | intro _ | extract_lets | fail_if_no_progress with_reducible refine Kept.upd ?_ rfl rfl rfl | split | dsimp +zetaDelta only)

theorem disposeCmd_kept {K J : Bool} {c₀ : State} {s : State} (slot : Nat) (hk : Kept K J c₀ s) : Kept K J c₀ (disposeCmd s slot) := by
  unfold disposeCmd
  repeat' (first | with_reducible exact hk | with_reducible assumption | with_reducible apply setCmd_kept | with_reducible apply disposeQuiet_kept | with_reducible apply send_kept | with_reducible apply undo_kept | intro _ | extract_lets | fail_if_no_progress with_reducible refine Kept.upd ?_ rfl rfl rfl | split)

theorem abortCmd_kept {K J : Bool} {c₀ : State} {s : State} (slot : Nat) (hk : Kept K J c₀ s) : Kept K J c₀ (abortCmd s slot) := by
  unfold abortCmd
  repeat' (first | with_reducible exact hk | with_reducible assumption | with_reducible apply send_kept | with_reducible apply finish_kept | with_reducible apply undo_kept | intro _ | extract_lets | split)

theorem resetCtrl_kept {K J : Bool} {c₀ : State} {s : State} (func : Nat) (keepRegs : Bool) (hk : Kept K J c₀ s) : Kept K J c₀ (resetCtrl s func keepRegs) := by
  unfold resetCtrl
  repeat' (first | with_reducible exact hk | with_reducible assumption | with_reducible apply setCtrl_kept | with_reducible apply disposeCmd_kept | with_reducible apply closeZonesOf_kept | with_reducible apply Kept.foldl | intro _ | extract_lets | fail_if_no_progress with_reducible refine Kept.upd ?_ rfl rfl rfl)

theorem resetAll_kept {K J : Bool} {c₀ : State} {s : State} (keepRegs : Bool) (hk : Kept K J c₀ s) : Kept K J c₀ (resetAll s keepRegs) := by
  unfold resetAll
  repeat' (first | with_reducible exact hk | with_reducible assumption | with_reducible apply resetCtrl_kept | with_reducible apply Kept.foldl | with_reducible apply Kept.foldl_fst | intro _)

theorem linkGone_kept {K J : Bool} {c₀ : State} {s : State} (count : Bool) (training : Bool) (hk : Kept K J c₀ s) : Kept K J c₀ (linkGone s count training) := by
  unfold linkGone
  repeat' (first | with_reducible exact hk | with_reducible assumption | with_reducible apply Kept.ite | intro _ | extract_lets | fail_if_no_progress with_reducible refine Kept.upd ?_ rfl rfl rfl)

theorem clearVfs_kept {K J : Bool} {c₀ : State} {s : State} (hk : Kept K J c₀ s) : Kept K J c₀ (clearVfs s) := by
  unfold clearVfs
  repeat' (first | with_reducible exact hk | with_reducible assumption | intro _ | extract_lets | fail_if_no_progress with_reducible refine Kept.upd ?_ rfl rfl rfl)

theorem hostReset_kept {K J : Bool} {c₀ : State} {s : State} (hk : Kept K J c₀ s) : Kept K J c₀ (hostReset s) := by
  unfold hostReset
  repeat' (first | with_reducible exact hk | with_reducible assumption | with_reducible apply linkGone_kept | with_reducible apply clearVfs_kept | with_reducible apply resetAll_kept)

theorem execPerstAsserted_kept {K J : Bool} {c₀ : State} {s : State} (hk : Kept K J c₀ s) : KeptBy K J c₀ (execPerstAsserted s) := by
  unfold execPerstAsserted
  repeat' (first | with_reducible exact hk | with_reducible assumption | with_reducible apply clearVfs_kept | with_reducible apply resetAll_kept | with_reducible apply linkGone_kept | with_reducible apply KeptBy.next | with_reducible apply KeptBy.fault | intro _ | extract_lets | fail_if_no_progress with_reducible refine Kept.upd ?_ rfl rfl rfl)

theorem execPerstDeasserted_kept {K J : Bool} {c₀ : State} {s : State} (hk : Kept K J c₀ s) : KeptBy K J c₀ (execPerstDeasserted s) := by
  unfold execPerstDeasserted
  repeat' (first | with_reducible exact hk | with_reducible assumption | with_reducible apply KeptBy.next | with_reducible apply KeptBy.fault | intro _ | extract_lets | fail_if_no_progress with_reducible refine Kept.upd ?_ rfl rfl rfl)

theorem execLinkDown_kept {K J : Bool} {c₀ : State} {s : State} (hk : Kept K J c₀ s) : KeptBy K J c₀ (execLinkDown s) := by
  unfold execLinkDown
  repeat' (first | with_reducible exact hk | with_reducible assumption | with_reducible apply hostReset_kept | with_reducible apply KeptBy.next)

theorem execHotReset_kept {K J : Bool} {c₀ : State} {s : State} (hk : Kept K J c₀ s) : KeptBy K J c₀ (execHotReset s) := by
  unfold execHotReset
  repeat' (first | with_reducible exact hk | with_reducible assumption | with_reducible apply linkGone_kept | with_reducible apply clearVfs_kept | with_reducible apply resetAll_kept | with_reducible apply KeptBy.next)

theorem execFunctionLevelReset_kept {K J : Bool} {c₀ : State} {s : State} (func : Nat) (hk : Kept K J c₀ s) : KeptBy K J c₀ (execFunctionLevelReset func s) := by
  unfold execFunctionLevelReset
  repeat' (first | with_reducible exact hk | with_reducible assumption | with_reducible apply clearVfs_kept | with_reducible apply resetAll_kept | with_reducible apply resetCtrl_kept | with_reducible apply KeptBy.next | with_reducible apply KeptBy.fault | with_reducible apply Kept.ite | with_reducible apply KeptBy.ite | intro _)

theorem execHostLinkUp_kept {K J : Bool} {c₀ : State} {s : State} (rate : Nat) (width : Nat) (how : LinkMode) (hk : Kept K J c₀ s) : KeptBy K J c₀ (execHostLinkUp rate width how s) := by
  unfold execHostLinkUp
  repeat' (first | with_reducible exact hk | with_reducible assumption | with_reducible apply KeptBy.next | with_reducible apply KeptBy.fault | with_reducible apply Kept.ite | with_reducible apply KeptBy.ite | intro _ | extract_lets | fail_if_no_progress with_reducible refine Kept.upd ?_ rfl rfl rfl | split)

theorem execL1Entry_kept {K J : Bool} {c₀ : State} {s : State} (hk : Kept K J c₀ s) : KeptBy K J c₀ (execL1Entry s) := by
  unfold execL1Entry
  repeat' (first | with_reducible exact hk | with_reducible assumption | with_reducible apply KeptBy.next | with_reducible apply KeptBy.fault | with_reducible apply Kept.ite | with_reducible apply KeptBy.ite | intro _ | extract_lets | fail_if_no_progress with_reducible refine Kept.upd ?_ rfl rfl rfl)

theorem execL1Exit_kept {K J : Bool} {c₀ : State} {s : State} (hk : Kept K J c₀ s) : KeptBy K J c₀ (execL1Exit s) := by
  unfold execL1Exit
  repeat' (first | with_reducible exact hk | with_reducible assumption | with_reducible apply KeptBy.next | with_reducible apply KeptBy.fault | intro _ | extract_lets | fail_if_no_progress with_reducible refine Kept.upd ?_ rfl rfl rfl)

theorem execCcEnable_kept {K J : Bool} {c₀ : State} {s : State} (func : Nat) (cc : BitVec 32) (hk : Kept K J c₀ s) : KeptBy K J c₀ (execCcEnable func cc s) := by
  unfold execCcEnable
  repeat' (first | with_reducible exact hk | with_reducible assumption | with_reducible apply setCtrl_kept | with_reducible apply updateReady_kept | with_reducible apply KeptBy.next | with_reducible apply KeptBy.fault | with_reducible apply Kept.ite | with_reducible apply KeptBy.ite | intro _ | extract_lets | fail_if_no_progress with_reducible refine Kept.upd ?_ rfl rfl rfl)

theorem execCcDisable_kept {K J : Bool} {c₀ : State} {s : State} (func : Nat) (hk : Kept K J c₀ s) : KeptBy K J c₀ (execCcDisable func s) := by
  unfold execCcDisable
  repeat' (first | with_reducible exact hk | with_reducible assumption | with_reducible apply resetCtrl_kept | with_reducible apply KeptBy.next | with_reducible apply KeptBy.fault | with_reducible apply Kept.ite | with_reducible apply KeptBy.ite | intro _)

theorem execNormalShutdown_kept {K J : Bool} {c₀ : State} {s : State} (func : Nat) (hk : Kept K J c₀ s) : KeptBy K J c₀ (execNormalShutdown func s) := by
  unfold execNormalShutdown
  repeat' (first | with_reducible exact hk | with_reducible assumption | with_reducible apply setCtrl_kept | with_reducible apply endShutdown_kept | with_reducible apply KeptBy.next | with_reducible apply KeptBy.fault | with_reducible apply Kept.ite | with_reducible apply KeptBy.ite | intro _)

theorem execShutdownUnboundTimeout_kept {K J : Bool} {c₀ : State} {s : State} (func : Nat) (hk : Kept K J c₀ s) : KeptBy K J c₀ (execShutdownUnboundTimeout func s) := by
  unfold execShutdownUnboundTimeout
  repeat' (first | with_reducible exact hk | with_reducible assumption | with_reducible apply endShutdown_kept | with_reducible apply disposeCmd_kept | with_reducible apply KeptBy.next | with_reducible apply KeptBy.fault | with_reducible apply Kept.ite | with_reducible apply KeptBy.ite | with_reducible apply Kept.foldl | intro _)

theorem execAbruptShutdown_kept {K J : Bool} {c₀ : State} {s : State} (func : Nat) (hk : Kept K J c₀ s) : KeptBy K J c₀ (execAbruptShutdown func s) := by
  unfold execAbruptShutdown
  repeat' (first | with_reducible exact hk | with_reducible assumption | with_reducible apply setCtrl_kept | with_reducible apply disposeCmd_kept | with_reducible apply KeptBy.next | with_reducible apply KeptBy.fault | with_reducible apply Kept.ite | with_reducible apply KeptBy.ite | with_reducible apply Kept.foldl | intro _)

theorem subsystemReset_kept {K J : Bool} {c₀ : State} {s : State} (hk : Kept K J c₀ s) : Kept K J c₀ (subsystemReset s) := by
  unfold subsystemReset
  repeat' (first | with_reducible exact hk | with_reducible assumption | with_reducible apply closeZonesOf_kept | with_reducible apply clearVfs_kept | with_reducible apply resetAll_kept | with_reducible apply linkGone_kept | with_reducible apply setCtrl_kept | with_reducible apply Kept.foldl | intro _)

theorem execNvmSubsystemReset_kept {K J : Bool} {c₀ : State} {s : State} (func : Nat) (hk : Kept K J c₀ s) : KeptBy K J c₀ (execNvmSubsystemReset func s) := by
  unfold execNvmSubsystemReset
  repeat' (first | with_reducible exact hk | with_reducible assumption | with_reducible apply subsystemReset_kept | with_reducible apply send_kept | with_reducible apply KeptBy.next | with_reducible apply KeptBy.fault | with_reducible apply Kept.ite | with_reducible apply KeptBy.ite | intro _)

theorem writeLimit_kept {K J : Bool} {c₀ : State} {s : State} (v : Nat) (hk : Kept K J c₀ s) : Kept K J c₀ (writeLimit s v) := by
  unfold writeLimit
  repeat' (first | with_reducible exact hk | with_reducible assumption | with_reducible apply refreshPower_kept | intro _ | extract_lets | fail_if_no_progress with_reducible refine Kept.upd ?_ rfl rfl rfl)

theorem execSuPwrbudWrite_kept {K J : Bool} {c₀ : State} {s : State} (func : Nat) (value : BitVec 32) (hk : Kept K J c₀ s) : KeptBy K J c₀ (execSuPwrbudWrite func value s) := by
  unfold execSuPwrbudWrite
  repeat' (first | with_reducible exact hk | with_reducible assumption | with_reducible apply writeLimit_kept | with_reducible apply KeptBy.next | with_reducible apply KeptBy.fault | with_reducible apply Kept.ite | with_reducible apply KeptBy.ite | intro _)

theorem execSuDtbLoRead_kept {K J : Bool} {c₀ : State} {s : State} (func : Nat) (hk : Kept K J c₀ s) : KeptBy K J c₀ (execSuDtbLoRead func s) := by
  unfold execSuDtbLoRead
  repeat' (first | with_reducible exact hk | with_reducible assumption | with_reducible apply KeptBy.next | with_reducible apply KeptBy.fault | with_reducible apply Kept.ite | with_reducible apply KeptBy.ite | intro _ | extract_lets | fail_if_no_progress with_reducible refine Kept.upd ?_ rfl rfl rfl)

theorem msixWrite_kept {K J : Bool} {c₀ : State} {s : State} (func : Nat) (offset : Nat) (size : Nat) (v : BitVec 64) (hk : Kept K J c₀ s) : Kept K J c₀ (msixWrite s func offset size v) := by
  unfold msixWrite
  repeat' (first | with_reducible exact hk | with_reducible assumption | with_reducible apply setCtrl_kept | with_reducible apply sendMsix_kept | with_reducible apply Kept.ite | intro _)

theorem configWrite_kept {K J : Bool} {c₀ : State} {s : State} (func : Nat) (offset : Nat) (v : BitVec 64) (hk : Kept K J c₀ s) : Kept K J c₀ (configWrite s func offset v) := by
  unfold configWrite
  repeat' (first | with_reducible exact hk | with_reducible assumption | with_reducible apply Kept.ite | intro _ | extract_lets | fail_if_no_progress with_reducible refine Kept.upd ?_ rfl rfl rfl)

theorem execRegisterWrite_kept {K J : Bool} {c₀ : State} {s : State} (func : Nat) (bar : Nat) (offset : Nat) (size : Nat) (value : BitVec 64) (hk : Kept K J c₀ s) : KeptBy K J c₀ (execRegisterWrite func bar offset size value s) := by
  unfold execRegisterWrite
  repeat' (first | with_reducible exact hk | with_reducible assumption | with_reducible apply configWrite_kept | with_reducible apply setCtrl_kept | with_reducible apply msixWrite_kept | with_reducible apply writeLimit_kept | with_reducible apply KeptBy.next | with_reducible apply KeptBy.fault | with_reducible apply Kept.ite | with_reducible apply KeptBy.ite | intro _)

theorem rejectDoorbell_kept {K J : Bool} {c₀ : State} {s : State} (func : Nat) (qid : Nat) (info : Option Nat) (hk : Kept K J c₀ s) : Kept K J c₀ (rejectDoorbell s func qid info) := by
  unfold rejectDoorbell
  repeat' (first | with_reducible exact hk | with_reducible assumption | with_reducible apply setCtrl_kept | with_reducible apply raiseAen_kept | with_reducible apply Kept.elim | intro _)

theorem ringTail_kept {K J : Bool} {c₀ : State} {s : State} (func : Nat) (qid : Nat) (value : Nat) (hk : Kept K J c₀ s) : Kept K J c₀ (ringTail s func qid value) := by
  unfold ringTail
  repeat' (first | with_reducible exact hk | with_reducible assumption | with_reducible apply rejectDoorbell_kept | with_reducible apply Kept.ite | intro _ | extract_lets | fail_if_no_progress with_reducible refine Kept.upd ?_ rfl rfl rfl | split)

theorem ringHead_kept {K J : Bool} {c₀ : State} {s : State} (func : Nat) (qid : Nat) (value : Nat) (hk : Kept K J c₀ s) : Kept K J c₀ (ringHead s func qid value) := by
  unfold ringHead
  repeat' (first | with_reducible exact hk | with_reducible assumption | with_reducible apply rejectDoorbell_kept | with_reducible apply Kept.ite | intro _ | extract_lets | fail_if_no_progress with_reducible refine Kept.upd ?_ rfl rfl rfl | split)

theorem execSqTailDoorbell_kept {K J : Bool} {c₀ : State} {s : State} (func : Nat) (qid : Nat) (size : Nat) (value : Nat) (hk : Kept K J c₀ s) : KeptBy K J c₀ (execSqTailDoorbell func qid size value s) := by
  unfold execSqTailDoorbell
  repeat' (first | with_reducible exact hk | with_reducible assumption | with_reducible apply rejectDoorbell_kept | with_reducible apply refreshPower_kept | with_reducible apply ringTail_kept | with_reducible apply KeptBy.next | with_reducible apply KeptBy.fault | with_reducible apply Kept.ite | with_reducible apply KeptBy.ite | intro _ | extract_lets | fail_if_no_progress with_reducible refine Kept.upd ?_ rfl rfl rfl)

theorem execCqHeadDoorbell_kept {K J : Bool} {c₀ : State} {s : State} (func : Nat) (qid : Nat) (size : Nat) (value : Nat) (hk : Kept K J c₀ s) : KeptBy K J c₀ (execCqHeadDoorbell func qid size value s) := by
  unfold execCqHeadDoorbell
  repeat' (first | with_reducible exact hk | with_reducible assumption | with_reducible apply rejectDoorbell_kept | with_reducible apply ringHead_kept | with_reducible apply KeptBy.next | with_reducible apply KeptBy.fault | with_reducible apply Kept.ite | with_reducible apply KeptBy.ite | intro _ | extract_lets | fail_if_no_progress with_reducible refine Kept.upd ?_ rfl rfl rfl)

/-! ### Machine/AdminFront -/

theorem adminCmdAt_kept {K J : Bool} {c₀ : State} {s : State} (e : Sqe) (pfOnly : Bool) (row : Row) (field : State → Option Status) (run : Nat → State → State) (hk : Kept K J c₀ s) (k_run : ∀ x0 s, Kept K J c₀ s → Kept K J c₀ (run x0 s)) : KeptBy K J c₀ (adminCmdAt e s pfOnly row field run) := by
  unfold adminCmdAt
  repeat' (first | with_reducible exact hk | with_reducible assumption | with_reducible refine Kept.of_some ?_ (by assumption) | with_reducible apply fetch_kept | with_reducible apply adminDone_kept | with_reducible apply k_run | with_reducible apply KeptBy.next | with_reducible apply KeptBy.fault | with_reducible apply KeptSome.some | with_reducible apply KeptSome.none | with_reducible apply Kept.ite | with_reducible apply KeptBy.ite | intro _ | extract_lets | split)

theorem adminCmd_kept {K J : Bool} {c₀ : State} {s : State} (e : Sqe) (pfOnly : Bool) (row : Row) (field : State → Option Status) (run : State → State) (hk : Kept K J c₀ s) (k_run : ∀ s, Kept K J c₀ s → Kept K J c₀ (run s)) : KeptBy K J c₀ (adminCmd e s pfOnly row field run) := by
  unfold adminCmd
  repeat' (first | with_reducible exact hk | with_reducible assumption | with_reducible apply adminCmdAt_kept | with_reducible apply k_run | with_reducible apply KeptBy.next | with_reducible apply KeptBy.fault | intro _)

/-! ### Machine/AdminStd -/

theorem execCreateIoCompletionQueue_kept {K J : Bool} {c₀ : State} {s : State} (e : Sqe) (hk : Kept K J c₀ s) : KeptBy K J c₀ (execCreateIoCompletionQueue e s) := by
  unfold execCreateIoCompletionQueue
  repeat' (first | with_reducible exact hk | with_reducible assumption | with_reducible apply adminCmd_kept | with_reducible apply adminDone_kept | with_reducible apply KeptBy.next | with_reducible apply KeptBy.fault | with_reducible apply Kept.ite | with_reducible apply KeptBy.ite | intro _ | extract_lets | fail_if_no_progress with_reducible refine Kept.upd ?_ rfl rfl rfl)

theorem execCreateIoSubmissionQueue_kept {K J : Bool} {c₀ : State} {s : State} (e : Sqe) (hk : Kept K J c₀ s) : KeptBy K J c₀ (execCreateIoSubmissionQueue e s) := by
  unfold execCreateIoSubmissionQueue
  repeat' (first | with_reducible exact hk | with_reducible assumption | with_reducible apply adminCmd_kept | with_reducible apply adminDone_kept | with_reducible apply KeptBy.next | with_reducible apply KeptBy.fault | with_reducible apply Kept.ite | with_reducible apply KeptBy.ite | intro _ | extract_lets | fail_if_no_progress with_reducible refine Kept.upd ?_ rfl rfl rfl)

theorem execDeleteIoSubmissionQueue_kept {K J : Bool} {c₀ : State} {s : State} (e : Sqe) (hk : Kept K J c₀ s) : KeptBy K J c₀ (execDeleteIoSubmissionQueue e s) := by
  unfold execDeleteIoSubmissionQueue
  repeat' (first | with_reducible exact hk | with_reducible assumption | with_reducible apply adminCmd_kept | with_reducible apply endDelete_kept | with_reducible apply abortCmd_kept | with_reducible apply KeptBy.next | with_reducible apply KeptBy.fault | with_reducible apply Kept.ite | with_reducible apply KeptBy.ite | with_reducible apply Kept.foldl | intro _ | extract_lets | fail_if_no_progress with_reducible refine Kept.upd ?_ rfl rfl rfl)

theorem execDeleteIoCompletionQueue_kept {K J : Bool} {c₀ : State} {s : State} (e : Sqe) (hk : Kept K J c₀ s) : KeptBy K J c₀ (execDeleteIoCompletionQueue e s) := by
  unfold execDeleteIoCompletionQueue
  repeat' (first | with_reducible exact hk | with_reducible assumption | with_reducible apply adminCmd_kept | with_reducible apply adminDone_kept | with_reducible apply KeptBy.next | with_reducible apply KeptBy.fault | with_reducible apply Kept.ite | with_reducible apply KeptBy.ite | intro _ | extract_lets | fail_if_no_progress with_reducible refine Kept.upd ?_ rfl rfl rfl)

theorem execVirtPrimaryFlexibleAllocation_kept {K J : Bool} {c₀ : State} {s : State} (e : Sqe) (hk : Kept K J c₀ s) : KeptBy K J c₀ (execVirtPrimaryFlexibleAllocation e s) := by
  unfold execVirtPrimaryFlexibleAllocation
  repeat' (first | with_reducible exact hk | with_reducible assumption | with_reducible apply adminCmd_kept | with_reducible apply adminDone_kept | with_reducible apply setCtrl_kept | with_reducible apply KeptBy.next | with_reducible apply KeptBy.fault | with_reducible apply Kept.ite | with_reducible apply KeptBy.ite | intro _)

theorem execVirtSecondaryOffline_kept {K J : Bool} {c₀ : State} {s : State} (e : Sqe) (hk : Kept K J c₀ s) : KeptBy K J c₀ (execVirtSecondaryOffline e s) := by
  unfold execVirtSecondaryOffline
  repeat' (first | with_reducible exact hk | with_reducible assumption | with_reducible apply adminCmd_kept | with_reducible apply adminDone_kept | with_reducible apply setCtrl_kept | with_reducible apply resetCtrl_kept | with_reducible apply KeptBy.next | with_reducible apply KeptBy.fault | with_reducible apply Kept.ite | with_reducible apply KeptBy.ite | intro _ | extract_lets | fail_if_no_progress with_reducible refine Kept.upd ?_ rfl rfl rfl | split)

theorem execVirtSecondaryAssign_kept {K J : Bool} {c₀ : State} {s : State} (e : Sqe) (hk : Kept K J c₀ s) : KeptBy K J c₀ (execVirtSecondaryAssign e s) := by
  unfold execVirtSecondaryAssign
  repeat' (first | with_reducible exact hk | with_reducible assumption | with_reducible apply adminCmd_kept | with_reducible apply adminDone_kept | with_reducible apply setCtrl_kept | with_reducible apply KeptBy.next | with_reducible apply KeptBy.fault | with_reducible apply Kept.ite | with_reducible apply KeptBy.ite | intro _ | extract_lets | fail_if_no_progress with_reducible refine Kept.upd ?_ rfl rfl rfl | split)

theorem execVirtSecondaryOnline_kept {K J : Bool} {c₀ : State} {s : State} (e : Sqe) (hk : Kept K J c₀ s) : KeptBy K J c₀ (execVirtSecondaryOnline e s) := by
  unfold execVirtSecondaryOnline
  repeat' (first | with_reducible exact hk | with_reducible assumption | with_reducible apply adminCmd_kept | with_reducible apply adminDone_kept | with_reducible apply setCtrl_kept | with_reducible apply KeptBy.next | with_reducible apply KeptBy.fault | with_reducible apply Kept.ite | with_reducible apply KeptBy.ite | intro _ | extract_lets | fail_if_no_progress with_reducible refine Kept.upd ?_ rfl rfl rfl | split)

theorem execAbort_kept {K J : Bool} {c₀ : State} {s : State} (e : Sqe) (hk : Kept K J c₀ s) : KeptBy K J c₀ (execAbort e s) := by
  unfold execAbort
  repeat' (first | with_reducible exact hk | with_reducible assumption | with_reducible apply adminCmd_kept | with_reducible apply setCtrl_kept | with_reducible apply adminDone_kept | with_reducible apply complete_kept | with_reducible apply send_kept | with_reducible apply finish_kept | with_reducible apply KeptBy.next | with_reducible apply KeptBy.fault | with_reducible apply Kept.ite | with_reducible apply KeptBy.ite | intro _ | extract_lets | fail_if_no_progress with_reducible refine Kept.upd ?_ rfl rfl rfl | split)

theorem execAsynchronousEventRequest_kept {K J : Bool} {c₀ : State} {s : State} (e : Sqe) (hk : Kept K J c₀ s) : KeptBy K J c₀ (execAsynchronousEventRequest e s) := by
  unfold execAsynchronousEventRequest
  repeat' (first | with_reducible exact hk | with_reducible assumption | with_reducible apply adminCmd_kept | with_reducible apply setCtrl_kept | with_reducible apply adminDone_kept | with_reducible apply KeptBy.next | with_reducible apply KeptBy.fault | with_reducible apply Kept.ite | with_reducible apply KeptBy.ite | intro _ | extract_lets | fail_if_no_progress with_reducible refine Kept.upd ?_ rfl rfl rfl | split)

theorem execKeepAlive_kept {K J : Bool} {c₀ : State} {s : State} (e : Sqe) (hk : Kept K J c₀ s) : KeptBy K J c₀ (execKeepAlive e s) := by
  unfold execKeepAlive
  repeat' (first | with_reducible exact hk | with_reducible assumption | with_reducible apply adminCmd_kept | with_reducible apply adminDone_kept | with_reducible apply setCtrl_kept | with_reducible apply KeptBy.next | with_reducible apply KeptBy.fault | intro _)

theorem execKeepAliveExpiry_kept {K J : Bool} {c₀ : State} {s : State} (func : Nat) (hk : Kept K J c₀ s) : KeptBy K J c₀ (execKeepAliveExpiry func s) := by
  unfold execKeepAliveExpiry
  repeat' (first | with_reducible exact hk | with_reducible assumption | with_reducible apply record_kept | with_reducible apply setCtrl_kept | with_reducible apply KeptBy.next | with_reducible apply KeptBy.fault | with_reducible apply Kept.ite | with_reducible apply KeptBy.ite | intro _)

theorem execSetNumberOfQueues_kept {K J : Bool} {c₀ : State} {s : State} (e : Sqe) (hk : Kept K J c₀ s) : KeptBy K J c₀ (execSetNumberOfQueues e s) := by
  unfold execSetNumberOfQueues
  repeat' (first | with_reducible exact hk | with_reducible assumption | with_reducible apply adminCmd_kept | with_reducible apply adminDone_kept | with_reducible apply KeptBy.next | with_reducible apply KeptBy.fault | with_reducible apply Kept.ite | with_reducible apply KeptBy.ite | intro _)

theorem execSetInterruptCoalescing_kept {K J : Bool} {c₀ : State} {s : State} (e : Sqe) (hk : Kept K J c₀ s) : KeptBy K J c₀ (execSetInterruptCoalescing e s) := by
  unfold execSetInterruptCoalescing
  repeat' (first | with_reducible exact hk | with_reducible assumption | with_reducible apply adminCmd_kept | with_reducible apply adminDone_kept | with_reducible apply setCtrl_kept | with_reducible apply KeptBy.next | with_reducible apply KeptBy.fault | with_reducible apply Kept.ite | with_reducible apply KeptBy.ite | intro _)

theorem execSetInterruptVectorConfiguration_kept {K J : Bool} {c₀ : State} {s : State} (e : Sqe) (hk : Kept K J c₀ s) : KeptBy K J c₀ (execSetInterruptVectorConfiguration e s) := by
  unfold execSetInterruptVectorConfiguration
  repeat' (first | with_reducible exact hk | with_reducible assumption | with_reducible apply adminCmd_kept | with_reducible apply adminDone_kept | with_reducible apply setCtrl_kept | with_reducible apply KeptBy.next | with_reducible apply KeptBy.fault | with_reducible apply Kept.ite | with_reducible apply KeptBy.ite | intro _)

theorem execSetAsyncEventConfiguration_kept {K J : Bool} {c₀ : State} {s : State} (e : Sqe) (hk : Kept K J c₀ s) : KeptBy K J c₀ (execSetAsyncEventConfiguration e s) := by
  unfold execSetAsyncEventConfiguration
  repeat' (first | with_reducible exact hk | with_reducible assumption | with_reducible apply adminCmd_kept | with_reducible apply adminDone_kept | with_reducible apply setCtrl_kept | with_reducible apply KeptBy.next | with_reducible apply KeptBy.fault | with_reducible apply Kept.ite | with_reducible apply KeptBy.ite | intro _)

theorem execSetTemperatureThreshold_kept {K J : Bool} {c₀ : State} {s : State} (e : Sqe) (hk : Kept K J c₀ s) : KeptBy K J c₀ (execSetTemperatureThreshold e s) := by
  unfold execSetTemperatureThreshold
  repeat' (first | with_reducible exact hk | with_reducible assumption | with_reducible apply adminCmd_kept | with_reducible apply adminDone_kept | with_reducible apply refreshCrit_kept | with_reducible apply KeptBy.next | with_reducible apply KeptBy.fault | with_reducible apply Kept.ite | with_reducible apply KeptBy.ite | intro _ | extract_lets | fail_if_no_progress with_reducible refine Kept.upd ?_ rfl rfl rfl | split)

theorem execSetTimestamp_kept {J : Bool} {c₀ : State} {s : State} (e : Sqe) (hk : Kept false J c₀ s) : KeptBy false J c₀ (execSetTimestamp e s) := by
  unfold execSetTimestamp
  repeat' (first | with_reducible exact fun _ _ => rfl | with_reducible exact hk | with_reducible assumption | with_reducible apply adminCmd_kept | with_reducible apply adminDone_kept | with_reducible apply setFlags_kept | with_reducible apply KeptBy.next | with_reducible apply KeptBy.fault | intro _ | extract_lets | fail_if_no_progress with_reducible refine Kept.upd ?_ rfl rfl rfl | fail_if_no_progress with_reducible refine Kept.updAny ?_ rfl rfl rfl rfl | split | contradiction)

theorem execSetQueueClassBinding_kept {K J : Bool} {c₀ : State} {s : State} (e : Sqe) (hk : Kept K J c₀ s) : KeptBy K J c₀ (execSetQueueClassBinding e s) := by
  unfold execSetQueueClassBinding
  repeat' (first | with_reducible exact hk | with_reducible assumption | with_reducible apply adminCmd_kept | with_reducible apply adminDone_kept | with_reducible apply KeptBy.next | with_reducible apply KeptBy.fault | with_reducible apply Kept.ite | with_reducible apply KeptBy.ite | intro _ | extract_lets | fail_if_no_progress with_reducible refine Kept.upd ?_ rfl rfl rfl | split)

theorem execSetTenantBudget_kept {K J : Bool} {c₀ : State} {s : State} (e : Sqe) (hk : Kept K J c₀ s) : KeptBy K J c₀ (execSetTenantBudget e s) := by
  unfold execSetTenantBudget
  repeat' (first | with_reducible exact hk | with_reducible assumption | with_reducible apply adminCmd_kept | with_reducible apply adminDone_kept | with_reducible apply KeptBy.next | with_reducible apply KeptBy.fault | with_reducible apply Kept.ite | with_reducible apply KeptBy.ite | intro _ | extract_lets | fail_if_no_progress with_reducible refine Kept.upd ?_ rfl rfl rfl)

theorem setLimit_kept {K J : Bool} {c₀ : State} {s : State} (e : Sqe) (hk : Kept K J c₀ s) : Kept K J c₀ (setLimit s e) := by
  unfold setLimit
  repeat' (first | with_reducible exact hk | with_reducible assumption | with_reducible apply writeLimit_kept | with_reducible apply Kept.ite | intro _ | extract_lets | fail_if_no_progress with_reducible refine Kept.upd ?_ rfl rfl rfl)

theorem execSetPowerBudget_kept {K J : Bool} {c₀ : State} {s : State} (e : Sqe) (hk : Kept K J c₀ s) : KeptBy K J c₀ (execSetPowerBudget e s) := by
  unfold execSetPowerBudget
  repeat' (first | with_reducible exact hk | with_reducible assumption | with_reducible apply adminCmd_kept | with_reducible apply adminDone_kept | with_reducible apply setLimit_kept | with_reducible apply KeptBy.next | with_reducible apply KeptBy.fault | intro _)

theorem setOffsets_kept {K J : Bool} {c₀ : State} {s : State} (e : Sqe) (hk : Kept K J c₀ s) : Kept K J c₀ (setOffsets s e) := by
  unfold setOffsets
  repeat' (first | with_reducible exact hk | with_reducible assumption | with_reducible apply Kept.ite | intro _ | extract_lets | fail_if_no_progress with_reducible refine Kept.upd ?_ rfl rfl rfl)

theorem execSetThermalPolicy_kept {K J : Bool} {c₀ : State} {s : State} (e : Sqe) (hk : Kept K J c₀ s) : KeptBy K J c₀ (execSetThermalPolicy e s) := by
  unfold execSetThermalPolicy
  repeat' (first | with_reducible exact hk | with_reducible assumption | with_reducible apply adminCmd_kept | with_reducible apply adminDone_kept | with_reducible apply setOffsets_kept | with_reducible apply KeptBy.next | with_reducible apply KeptBy.fault | intro _)

theorem execSetHolidayDegradationPermit_kept {K J : Bool} {c₀ : State} {s : State} (e : Sqe) (hk : Kept K J c₀ s) : KeptBy K J c₀ (execSetHolidayDegradationPermit e s) := by
  unfold execSetHolidayDegradationPermit
  repeat' (first | with_reducible exact hk | with_reducible assumption | with_reducible apply adminCmd_kept | with_reducible apply adminDone_kept | with_reducible apply KeptBy.next | with_reducible apply KeptBy.fault | with_reducible apply Kept.ite | with_reducible apply KeptBy.ite | intro _ | extract_lets | fail_if_no_progress with_reducible refine Kept.upd ?_ rfl rfl rfl)

theorem execSetGroupDedication_kept {K J : Bool} {c₀ : State} {s : State} (e : Sqe) (hk : Kept K J c₀ s) : KeptBy K J c₀ (execSetGroupDedication e s) := by
  unfold execSetGroupDedication
  repeat' (first | with_reducible exact hk | with_reducible assumption | with_reducible apply adminCmd_kept | with_reducible apply adminDone_kept | with_reducible apply moduleRecord_kept | with_reducible apply KeptBy.next | with_reducible apply KeptBy.fault | with_reducible apply Kept.ite | with_reducible apply KeptBy.ite | intro _ | extract_lets | fail_if_no_progress with_reducible refine Kept.upd ?_ rfl rfl rfl)

/-! ### Machine/Carry -/

theorem carryNeed_kept {K J : Bool} {c₀ : State} {s : State} (slot : Nat) (c : Cmd) (claim : Nat) (d : Nat) (x : Need) (hk : Kept K J c₀ s) : Kept K J c₀ (carryNeed s slot c claim d x) := by
  unfold carryNeed
  repeat' (first | with_reducible exact hk | with_reducible assumption | with_reducible refine Kept.of_ok ?_ (by assumption) | with_reducible apply placeAround_kept | with_reducible apply placeNeed_kept | with_reducible apply KeptOk.ok | with_reducible apply KeptOk.error | with_reducible apply Kept.ite | intro _ | extract_lets | fail_if_no_progress with_reducible refine Kept.upd ?_ rfl rfl rfl | split)

theorem carryRead_kept {K J : Bool} {c₀ : State} {s : State} (slot : Nat) (c : Cmd) (n : Ns) (claim : Nat) (hk : Kept K J c₀ s) : Kept K J c₀ (carryRead s slot c n claim) := by
  unfold carryRead
  repeat' (first | with_reducible exact hk | with_reducible assumption | with_reducible apply finish_kept | with_reducible apply countClaims_kept | with_reducible apply carryNeed_kept | with_reducible apply endTwinRead_kept | with_reducible apply setCmd_kept | with_reducible apply Kept.ite | with_reducible apply Kept.foldl | with_reducible apply Kept.foldl_fst | with_reducible apply Kept.foldl_snd | intro _)

theorem swapUser_kept {K J : Bool} {c₀ : State} {s : State} (slot : Nat) (hk : Kept K J c₀ s) : Kept K J c₀ (swapUser s slot) := by
  unfold swapUser
  repeat' (first | with_reducible exact hk | with_reducible assumption | with_reducible apply setCmd_kept)

theorem carryWrite_kept {K J : Bool} {c₀ : State} {s : State} (slot : Nat) (e : Io) (c : Cmd) (n : Ns) (hk : Kept K J c₀ s) : Kept K J c₀ (carryWrite s slot e c n) := by
  unfold carryWrite
  repeat' (first | with_reducible exact hk | with_reducible assumption | with_reducible refine Kept.of_ok_pair ?_ (by assumption) | with_reducible refine Kept.of_snd ?_ (by assumption) | with_reducible apply finish_kept | with_reducible apply drawFree_kept | with_reducible apply zoneChecks_kept | with_reducible apply formWrite_kept | with_reducible apply setRec_kept | with_reducible apply swapUser_kept | with_reducible apply setCmd_kept | with_reducible apply deferShare_kept | with_reducible apply dataArrived_kept | with_reducible apply takeBufs_kept | with_reducible apply KeptPair.ok | with_reducible apply KeptPair.error | with_reducible apply Kept.ite | intro _ | extract_lets | fail_if_no_progress with_reducible refine Kept.upd ?_ rfl rfl rfl | split)

theorem carryZone_kept {K : Bool} {c₀ : State} {s : State} (slot : Nat) (e : Io) (n : Ns) (hk : Kept K false c₀ s) : Kept K false c₀ (carryZone s slot e n) := by
  unfold carryZone
  repeat' (first | with_reducible exact hk | with_reducible assumption | with_reducible refine Kept.of_ok ?_ (by assumption) | with_reducible refine Kept.of_fst ?_ (by assumption) | with_reducible apply finish_kept | with_reducible apply setExtension_kept | with_reducible apply zoneAction_kept | with_reducible apply zoneRecord_kept | with_reducible apply setCmd_kept | with_reducible apply KeptOk.ok | with_reducible apply KeptOk.error | with_reducible apply Kept.ite | intro _ | extract_lets | fail_if_no_progress with_reducible refine Kept.upd ?_ rfl rfl rfl | split)

theorem carryZones_kept {K : Bool} {c₀ : State} {s : State} (slot : Nat) (e : Io) (c : Cmd) (n : Ns) (hk : Kept K false c₀ s) : Kept K false c₀ (carryZones s slot e c n) := by
  unfold carryZones
  repeat' (first | with_reducible exact hk | with_reducible assumption | with_reducible apply selectFrom_kept | with_reducible apply setCmd_kept | with_reducible apply settleZop_kept)

theorem carryFlush_kept {K J : Bool} {c₀ : State} {s : State} (slot : Nat) (nsid : Nat) (hk : Kept K J c₀ s) : Kept K J c₀ (carryFlush s slot nsid) := by
  unfold carryFlush
  repeat' (first | with_reducible exact hk | with_reducible assumption | with_reducible apply finish_kept | with_reducible apply setCmd_kept | with_reducible apply Kept.ite | intro _)

theorem carryOut_kept {K : Bool} {c₀ : State} {s : State} (slot : Nat) (e : Io) (all : Bool) (claim : Nat) (hk : Kept K false c₀ s) : Kept K false c₀ (carryOut s slot e all claim) := by
  unfold carryOut
  repeat' (first | with_reducible exact hk | with_reducible assumption | with_reducible apply finish_kept | with_reducible apply setCmd_kept | with_reducible apply carryRead_kept | with_reducible apply carryWrite_kept | with_reducible apply carryFlush_kept | with_reducible apply carryZones_kept | with_reducible apply carryZone_kept | with_reducible apply Kept.ite | intro _ | extract_lets | fail_if_no_progress with_reducible refine Kept.upd ?_ rfl rfl rfl | split)

/-! ### Machine/NsOps -/

theorem drawKey_kept {K J : Bool} {c₀ : State} {s : State} (hk : Kept K J c₀ s) : Kept K J c₀ (drawKey s).2 := by
  unfold drawKey
  repeat' (first | with_reducible exact hk | with_reducible assumption | intro _ | extract_lets | fail_if_no_progress with_reducible refine Kept.upd ?_ rfl rfl rfl)

theorem putGenerated_kept {K J : Bool} {c₀ : State} {s : State} (slot : Nat) (key : Nat) (hk : Kept K J c₀ s) : Kept K J c₀ (putGenerated s slot key) := by
  unfold putGenerated
  repeat' (first | with_reducible exact hk | with_reducible assumption | intro _ | extract_lets | fail_if_no_progress with_reducible refine Kept.upd ?_ rfl rfl rfl)

theorem zeroizeSlot_kept {K J : Bool} {c₀ : State} {s : State} (slot : Nat) (hk : Kept K J c₀ s) : Kept K J c₀ (zeroizeSlot s slot) := by
  unfold zeroizeSlot
  repeat' (first | with_reducible exact hk | with_reducible assumption | with_reducible apply toErase_kept | with_reducible apply Kept.ite | with_reducible apply Kept.foldl | intro _ | extract_lets | fail_if_no_progress with_reducible refine Kept.upd ?_ rfl rfl rfl)

theorem clearSlot_kept {K J : Bool} {c₀ : State} {s : State} (slot : Nat) (hk : Kept K J c₀ s) : Kept K J c₀ (clearSlot s slot) := by
  unfold clearSlot
  repeat' (first | with_reducible exact hk | with_reducible assumption | intro _ | extract_lets | fail_if_no_progress with_reducible refine Kept.upd ?_ rfl rfl rfl)

theorem noteNs_kept {K J : Bool} {c₀ : State} {s : State} (nsid : Nat) (hk : Kept K J c₀ s) : Kept K J c₀ (noteNs s nsid) := by
  unfold noteNs
  repeat' (first | with_reducible exact hk | with_reducible assumption | with_reducible apply raiseAen_kept | with_reducible apply setCtrl_kept | with_reducible apply Kept.ite | with_reducible apply Kept.foldl | intro _)

theorem nsRecord_kept {K J : Bool} {c₀ : State} {s : State} (nsid : Nat) (action : Nat) (arg : Nat) (key : Nat) (carried : Bool) (hk : Kept K J c₀ s) : Kept K J c₀ (nsRecord s nsid action arg key carried) := by
  unfold nsRecord
  repeat' (first | with_reducible exact hk | with_reducible assumption | with_reducible refine Kept.of_fst ?_ (by assumption) | with_reducible apply formRecord_kept | with_reducible apply sendRec_kept | with_reducible apply Kept.ite | intro _)

theorem dropNsWork_kept {K : Bool} {c₀ : State} {s : State} (nsid : Nat) (hk : Kept K false c₀ s) : Kept K false c₀ (dropNsWork s nsid) := by
  unfold dropNsWork
  repeat' (first | with_reducible exact hk | with_reducible assumption | with_reducible apply retire_kept | with_reducible apply Kept.ite | with_reducible apply Kept.foldl | with_reducible apply Kept.foldl_fst | with_reducible apply Kept.foldl_snd | intro _ | extract_lets | refine Kept.updStore ?_ (fun x => by dsimp only; exact KV.canon_keep x _) rfl rfl)

theorem eraseNsSets_kept {K J : Bool} {c₀ : State} {s : State} (nsid : Nat) (hk : Kept K J c₀ s) : Kept K J c₀ (eraseNsSets s nsid) := by
  unfold eraseNsSets
  repeat' (first | with_reducible exact hk | with_reducible assumption | with_reducible apply toErase_kept | with_reducible apply Kept.foldl | with_reducible apply Kept.foldl_fst | with_reducible apply Kept.foldl_snd | intro _)

theorem dropMeta_kept {K J : Bool} {c₀ : State} {s : State} (nsid : Nat) (hk : Kept K J c₀ s) : Kept K J c₀ (dropMeta s nsid) := by
  unfold dropMeta
  repeat' (first | with_reducible exact hk | with_reducible assumption | with_reducible apply setGrp_kept | with_reducible apply staleMeta_kept | with_reducible apply Kept.foldl | intro _ | extract_lets | fail_if_no_progress with_reducible refine Kept.upd ?_ rfl rfl rfl)

theorem emptyNs_kept {K : Bool} {c₀ : State} {s : State} (nsid : Nat) (hk : Kept K false c₀ s) : Kept K false c₀ (emptyNs s nsid) := by
  unfold emptyNs
  repeat' (first | with_reducible exact hk | with_reducible assumption | with_reducible apply eraseNsSets_kept | with_reducible apply dropMeta_kept | with_reducible apply dropNsWork_kept | with_reducible apply setNs_kept)

theorem deleteNs_kept {K : Bool} {c₀ : State} {s : State} (nsid : Nat) (hk : Kept K false c₀ s) : Kept K false c₀ (deleteNs s nsid) := by
  unfold deleteNs
  repeat' (first | with_reducible exact hk | with_reducible assumption | with_reducible apply endReshape_kept | with_reducible apply finish_kept | with_reducible apply noteNs_kept | with_reducible apply eraseNsSets_kept | with_reducible apply dropMeta_kept | with_reducible apply dropNsWork_kept | with_reducible apply retire_kept | with_reducible apply zeroizeSlot_kept | with_reducible apply nsRecord_kept | with_reducible apply settleKeys_kept | with_reducible apply Kept.ite | with_reducible apply Kept.foldl | with_reducible apply Kept.foldl_fst | with_reducible apply Kept.foldl_snd | intro _ | extract_lets | fail_if_no_progress with_reducible refine Kept.upd ?_ rfl rfl rfl | split)

theorem createNs_kept {K J : Bool} {c₀ : State} {s : State} (nsid : Nat) (n : Ns) (key : Nat) (hk : Kept K J c₀ s) : Kept K J c₀ (createNs s nsid n key) := by
  unfold createNs
  repeat' (first | with_reducible exact hk | with_reducible assumption | with_reducible apply putGenerated_kept | with_reducible apply noteNs_kept | with_reducible apply nsRecord_kept | with_reducible apply Kept.ite | with_reducible apply Kept.foldl | intro _ | extract_lets | fail_if_no_progress with_reducible refine Kept.upd ?_ rfl rfl rfl)

theorem contNow_kept {K J : Bool} {c₀ : State} {s : State} (nsid : Nat) (hk : Kept K J c₀ s) : Kept K J c₀ (contNow s nsid) := by
  unfold contNow
  repeat' (first | with_reducible exact hk | with_reducible assumption | with_reducible apply setNs_kept | with_reducible apply Kept.ite | intro _)

theorem replaceKey_kept {K J : Bool} {c₀ : State} {s : State} (nsid : Nat) (key : Nat) (hk : Kept K J c₀ s) : Kept K J c₀ (replaceKey s nsid key) := by
  unfold replaceKey
  repeat' (first | with_reducible exact hk | with_reducible assumption | with_reducible apply clearSlot_kept | with_reducible apply zeroizeSlot_kept | with_reducible apply putGenerated_kept | with_reducible apply setNs_kept | with_reducible apply Kept.ite | with_reducible apply Kept.foldl | intro _ | extract_lets | fail_if_no_progress with_reducible refine Kept.upd ?_ rfl rfl rfl | split)

theorem switchErase_kept {K : Bool} {c₀ : State} {s : State} (nsid : Nat) (crypto : Bool) (key : Nat) (flbas : Nat) (dps : Nat) (hk : Kept K false c₀ s) : Kept K false c₀ (switchErase s nsid crypto key flbas dps) := by
  unfold switchErase
  repeat' (first | with_reducible exact hk | with_reducible assumption | with_reducible apply emptyNs_kept | with_reducible apply replaceKey_kept | with_reducible apply contNow_kept | with_reducible apply setNs_kept | with_reducible apply Kept.ite | intro _ | extract_lets | fail_if_no_progress with_reducible refine Kept.upd ?_ rfl rfl rfl | split)

theorem answerTwin_kept {K J : Bool} {c₀ : State} {s : State} (tag : Nat) (st : Status) (dw0 : Nat) (hk : Kept K J c₀ s) : Kept K J c₀ (answerTwin s tag st dw0) := by
  unfold answerTwin
  repeat' (first | with_reducible exact hk | with_reducible assumption | with_reducible apply send_kept)

theorem endFormat_kept {K : Bool} {c₀ : State} {s : State} (f : Fmt) (hk : Kept K false c₀ s) : Kept K false c₀ (endFormat s f) := by
  unfold endFormat
  repeat' (first | with_reducible exact hk | with_reducible assumption | with_reducible apply switchErase_kept | with_reducible apply answerTwin_kept | with_reducible apply completeFor_kept | intro _ | extract_lets | fail_if_no_progress with_reducible refine Kept.upd ?_ rfl rfl rfl | split)

theorem formatSwitch_kept {K : Bool} {c₀ : State} {s : State} (f : Fmt) (hk : Kept K false c₀ s) : Kept K false c₀ (formatSwitch s f) := by
  unfold formatSwitch
  repeat' (first | with_reducible exact hk | with_reducible assumption | with_reducible apply nsRecord_kept | with_reducible apply endFormat_kept | with_reducible apply Kept.ite | intro _ | extract_lets | fail_if_no_progress with_reducible refine Kept.upd ?_ rfl rfl rfl | split)

theorem nsSettled_kept {K : Bool} {c₀ : State} {s : State} (q : Nat) (hk : Kept K false c₀ s) : Kept K false c₀ (nsSettled s q) := by
  unfold nsSettled
  repeat' (first | with_reducible exact hk | with_reducible assumption | with_reducible apply endFormat_kept | with_reducible apply Kept.ite | with_reducible apply Kept.foldl | intro _ | extract_lets | split)

theorem formatsAlone_kept {K : Bool} {c₀ : State} {s : State} (hk : Kept K false c₀ s) : Kept K false c₀ (formatsAlone s) := by
  unfold formatsAlone
  repeat' (first | with_reducible exact hk | with_reducible assumption | with_reducible apply endFormat_kept | with_reducible apply Kept.foldl)

theorem sanitizeKeys_kept {K J : Bool} {c₀ : State} {s : State} (carried : List (Nat × Nat)) (hk : Kept K J c₀ s) : Kept K J c₀ (sanitizeKeys s carried).1 := by
  unfold sanitizeKeys
  repeat' (first | with_reducible exact hk | with_reducible assumption | with_reducible refine Kept.of_fst ?_ (by assumption) | with_reducible refine Kept.of_snd ?_ (by assumption) | with_reducible apply drawKey_kept | with_reducible apply Kept.ite | with_reducible apply Kept.foldl | with_reducible apply Kept.foldl_fst | with_reducible apply Kept.foldl_snd | intro _ | extract_lets | split)

theorem sanitizeSwitch_kept {K : Bool} {c₀ : State} {s : State} (hk : Kept K false c₀ s) : Kept K false c₀ (sanitizeSwitch s) := by
  unfold sanitizeSwitch
  repeat' (first | with_reducible exact hk | with_reducible assumption | with_reducible apply nsRecord_kept | with_reducible apply switchErase_kept | with_reducible apply toErase_kept | with_reducible apply Kept.ite | with_reducible apply Kept.foldl | with_reducible apply Kept.foldl_fst | with_reducible apply Kept.foldl_snd | intro _ | extract_lets | fail_if_no_progress with_reducible refine Kept.upd ?_ rfl rfl rfl | split)

theorem carryAdmin_kept {K J : Bool} {c₀ : State} {s : State} (w : AdminWait) (body : List Nat) (hk : Kept K J c₀ s) : Kept K J c₀ (carryAdmin s w body) := by
  unfold carryAdmin
  repeat' (first | with_reducible exact hk | with_reducible assumption | with_reducible apply send_kept | intro _ | extract_lets | fail_if_no_progress with_reducible refine Kept.upd ?_ rfl rfl rfl)

theorem doneOnBoth_kept {K J : Bool} {c₀ : State} {s : State} (e : Sqe) (kind : Nat) (dw0 : Nat) (nsid : Nat) (arg : Nat) (body : List Nat) (hk : Kept K J c₀ s) : Kept K J c₀ (doneOnBoth s e kind dw0 nsid arg body) := by
  unfold doneOnBoth
  repeat' (first | with_reducible exact hk | with_reducible assumption | with_reducible apply carryAdmin_kept | with_reducible apply adminDone_kept | with_reducible apply Kept.ite | intro _)

theorem renumber_kept {K J : Bool} {c₀ : State} {s : State} (nsid : Nat) (nums : List Nat) (hk : Kept K J c₀ s) : Kept K J c₀ (renumber s nsid nums) := by
  unfold renumber
  repeat' (first | with_reducible exact hk | with_reducible assumption | with_reducible refine Kept.of_fst ?_ (by assumption) | with_reducible apply setNs_kept | with_reducible apply setZone_kept | with_reducible apply formRecord_kept | with_reducible apply Kept.ite | with_reducible apply Kept.foldl | with_reducible apply Kept.foldl_fst | intro _ | extract_lets | fail_if_no_progress with_reducible refine Kept.upd ?_ rfl rfl rfl | split)

theorem releaseNs_kept {K : Bool} {c₀ : State} {s : State} (nsid : Nat) (hk : Kept K false c₀ s) : Kept K false c₀ (releaseNs s nsid) := by
  unfold releaseNs
  repeat' (first | with_reducible exact hk | with_reducible assumption | with_reducible apply zeroizeSlot_kept | with_reducible apply eraseNsSets_kept | with_reducible apply dropMeta_kept | with_reducible apply dropNsWork_kept | with_reducible apply setNs_kept | with_reducible apply Kept.foldl | intro _ | extract_lets | fail_if_no_progress with_reducible refine Kept.upd ?_ rfl rfl rfl | split)

theorem takeKeys_kept {K J : Bool} {c₀ : State} {s : State} (nsid : Nat) (pairs : List (Nat × Nat)) (hk : Kept K J c₀ s) : Kept K J c₀ (takeKeys s nsid pairs) := by
  unfold takeKeys
  repeat' (first | with_reducible exact hk | with_reducible assumption | with_reducible apply putGenerated_kept | with_reducible apply setNs_kept | with_reducible apply Kept.ite | with_reducible apply Kept.foldl | with_reducible apply Kept.foldl_fst | with_reducible apply Kept.foldl_snd | intro _ | extract_lets | fail_if_no_progress with_reducible refine Kept.upd ?_ rfl rfl rfl | split)

theorem applyPolicy_kept {K : Bool} {c₀ : State} {s : State} (nsid : Nat) (mirrored : Bool) (hk : Kept K false c₀ s) : Kept K false c₀ (applyPolicy s nsid mirrored) := by
  unfold applyPolicy
  repeat' (first | with_reducible exact hk | with_reducible assumption | with_reducible apply setNs_kept | with_reducible apply releaseNs_kept | with_reducible apply noteNs_kept | with_reducible apply updateAna_kept | with_reducible apply nsRecord_kept | with_reducible apply Kept.ite | intro _ | extract_lets | fail_if_no_progress with_reducible refine Kept.upd ?_ rfl rfl rfl | split)

theorem undoPolicy_kept {K : Bool} {c₀ : State} {s : State} (nsid : Nat) (old : Ns) (hk : Kept K false c₀ s) : Kept K false c₀ (undoPolicy s nsid old) := by
  unfold undoPolicy
  repeat' (first | with_reducible exact hk | with_reducible assumption | with_reducible apply applyPolicy_kept | with_reducible apply renumber_kept)

theorem endAdmin_kept {K J : Bool} {c₀ : State} {s : State} (w : AdminWait) (st : Status) (dw0 : Nat) (hk : Kept K J c₀ s) : Kept K J c₀ (endAdmin s w st dw0) := by
  unfold endAdmin
  repeat' (first | with_reducible exact hk | with_reducible assumption | with_reducible apply answerTwin_kept | with_reducible apply completeFor_kept | with_reducible apply Kept.ite | intro _)

theorem beginReshape_kept {K J : Bool} {c₀ : State} {s : State} (w : AdminWait) (r : Reshape) (action : Nat) (hk : Kept K J c₀ s) : Kept K J c₀ (beginReshape s w r action) := by
  unfold beginReshape
  repeat' (first | with_reducible exact hk | with_reducible assumption | with_reducible apply answerTwin_kept | with_reducible apply setNs_kept | with_reducible apply completeFor_kept | with_reducible apply keepZop_kept | with_reducible apply Kept.ite | intro _)

theorem placedByTwin_kept {K J : Bool} {c₀ : State} {s : State} (w : AdminWait) (hk : Kept K J c₀ s) : Kept K J c₀ (placedByTwin s w) := by
  unfold placedByTwin
  repeat' (first | with_reducible exact hk | with_reducible assumption | with_reducible apply endAdmin_kept | with_reducible apply beginReshape_kept | with_reducible apply renumber_kept | intro _ | extract_lets | fail_if_no_progress with_reducible refine Kept.upd ?_ rfl rfl rfl | split)

theorem startedByTwin_kept {K J : Bool} {c₀ : State} {s : State} (w : AdminWait) (hk : Kept K J c₀ s) : Kept K J c₀ (startedByTwin s w) := by
  unfold startedByTwin
  repeat' (first | with_reducible exact hk | with_reducible assumption | with_reducible apply beginReshape_kept)

theorem reshapeSwitched_kept {K : Bool} {c₀ : State} {s : State} (w : AdminWait) (hk : Kept K false c₀ s) : Kept K false c₀ (reshapeSwitched s w) := by
  unfold reshapeSwitched
  repeat' (first | with_reducible exact hk | with_reducible assumption | with_reducible apply endReshape_kept | with_reducible apply applyPolicy_kept)

theorem takeSlots_kept {K J : Bool} {c₀ : State} {s : State} (nsid : Nat) (k : Nat) (hk : Kept K J c₀ s) : Kept K J c₀ (takeSlots s nsid k) := by
  unfold takeSlots
  repeat' (first | with_reducible exact hk | with_reducible assumption | with_reducible apply setNs_kept | with_reducible apply Kept.foldl | intro _ | extract_lets | fail_if_no_progress with_reducible refine Kept.upd ?_ rfl rfl rfl)

theorem dropSlots_kept {K J : Bool} {c₀ : State} {s : State} (nsid : Nat) (hk : Kept K J c₀ s) : Kept K J c₀ (dropSlots s nsid) := by
  unfold dropSlots
  repeat' (first | with_reducible exact hk | with_reducible assumption | with_reducible apply setNs_kept | with_reducible apply zeroizeSlot_kept | with_reducible apply Kept.foldl | intro _ | extract_lets | fail_if_no_progress with_reducible refine Kept.upd ?_ rfl rfl rfl | split)

theorem enableKpio_kept {K J : Bool} {c₀ : State} {s : State} (nsid : Nat) (k : Nat) (hk : Kept K J c₀ s) : Kept K J c₀ (enableKpio s nsid k) := by
  unfold enableKpio
  repeat' (first | with_reducible exact hk | with_reducible assumption | with_reducible apply takeSlots_kept | with_reducible apply dropSlots_kept | with_reducible apply setNs_kept | with_reducible apply zeroizeSlot_kept | with_reducible apply Kept.ite | with_reducible apply Kept.foldl | intro _ | extract_lets | fail_if_no_progress with_reducible refine Kept.upd ?_ rfl rfl rfl | split)

theorem resetKpio_kept {K J : Bool} {c₀ : State} {s : State} (nsid : Nat) (k : Nat) (hk : Kept K J c₀ s) : Kept K J c₀ (resetKpio s nsid k) := by
  unfold resetKpio
  repeat' (first | with_reducible exact hk | with_reducible assumption | with_reducible apply setNs_kept | with_reducible apply zeroizeSlot_kept | with_reducible apply takeSlots_kept | with_reducible apply Kept.ite | with_reducible apply Kept.foldl | intro _ | extract_lets | fail_if_no_progress with_reducible refine Kept.upd ?_ rfl rfl rfl | split)

theorem disableKpio_kept {K J : Bool} {c₀ : State} {s : State} (nsid : Nat) (key : Nat) (hk : Kept K J c₀ s) : Kept K J c₀ (disableKpio s nsid key) := by
  unfold disableKpio
  repeat' (first | with_reducible exact hk | with_reducible assumption | with_reducible apply zeroizeSlot_kept | with_reducible apply setNs_kept | with_reducible apply putGenerated_kept | with_reducible apply Kept.ite | with_reducible apply Kept.foldl | intro _ | extract_lets | fail_if_no_progress with_reducible refine Kept.upd ?_ rfl rfl rfl | split)

theorem injectionAnswered_kept {K J : Bool} {c₀ : State} {s : State} (w : AdminWait) (ok : Bool) (hk : Kept K J c₀ s) : Kept K J c₀ (injectionAnswered s w ok) := by
  unfold injectionAnswered
  repeat' (first | with_reducible exact hk | with_reducible assumption | with_reducible apply inject_kept | with_reducible apply endInjection_kept | with_reducible apply Kept.ite | intro _)

theorem kpioAnswered_kept {K J : Bool} {c₀ : State} {s : State} (w : AdminWait) (ok : Bool) (st : Status) (hk : Kept K J c₀ s) : Kept K J c₀ (kpioAnswered s w ok st) := by
  unfold kpioAnswered
  repeat' (first | with_reducible exact hk | with_reducible assumption | with_reducible apply tcgFor_kept | with_reducible apply dropSlots_kept | with_reducible apply disableKpio_kept | with_reducible apply enableKpio_kept | with_reducible apply Kept.ite | intro _)

theorem adminAnswer_kept {K : Bool} {c₀ : State} {s : State} (w : AdminWait) (st : Option (Nat × Status)) (dw0 : Nat) (hk : Kept K false c₀ s) : Kept K false c₀ (adminAnswer s w st dw0) := by
  unfold adminAnswer
  repeat' (first | with_reducible exact hk | with_reducible assumption | with_reducible apply endAdmin_kept | with_reducible apply updateAna_kept | with_reducible apply createNs_kept | with_reducible apply formatSwitch_kept | with_reducible apply undoPolicy_kept | with_reducible apply setNs_kept | with_reducible apply placedByTwin_kept | with_reducible apply injectionAnswered_kept | with_reducible apply kpioAnswered_kept | with_reducible apply sanitizeSwitch_kept | with_reducible apply startedByTwin_kept | with_reducible apply reshapeSwitched_kept | with_reducible apply endReshape_kept | with_reducible apply Kept.ite | with_reducible apply Kept.elim | with_reducible apply Kept.foldl | with_reducible apply Kept.foldl_snd | intro _ | extract_lets | fail_if_no_progress with_reducible refine Kept.upd ?_ rfl rfl rfl | split)

end Sys2Proof.Machine
end

