-- ==== Sys2Proof/Laws/KeptPair.lean ====
section
/-! SUPPORT. `Kept` of the modes, the twin link, pairing and the boot: one lemma for each operation and for the meaning of each command. -/

namespace Sys2Proof.Machine

/-! ### Machine/Modes -/

theorem sizeJournal_kept {J : Bool} {c₀ : State} {s : State} (hk : Kept false J c₀ s) : Kept false J c₀ (sizeJournal s) := by
  unfold sizeJournal
  repeat' (first | with_reducible exact fun _ _ => rfl | with_reducible exact hk | with_reducible assumption | with_reducible apply setFlags_kept | with_reducible apply refreshCrit_kept | with_reducible apply checkRelief_kept | intro _ | extract_lets | fail_if_no_progress with_reducible refine Kept.upd ?_ rfl rfl rfl | fail_if_no_progress with_reducible refine Kept.updAny ?_ rfl rfl rfl rfl | split | contradiction)

theorem setUsable_kept {J : Bool} {c₀ : State} {s : State} (dj : Nat) (hk : Kept false J c₀ s) : Kept false J c₀ (setUsable s dj) := by
  unfold setUsable
  repeat' (first | with_reducible exact hk | with_reducible assumption | with_reducible apply sizeJournal_kept | intro _ | extract_lets | fail_if_no_progress with_reducible refine Kept.upd ?_ rfl rfl rfl | fail_if_no_progress with_reducible refine Kept.updAny ?_ rfl rfl rfl rfl)

theorem endTest_kept {J : Bool} {c₀ : State} {s : State} (r : HoldResult) (hk : Kept false J c₀ s) : Kept false J c₀ (endTest s r) := by
  unfold endTest
  repeat' (first | with_reducible exact hk | with_reducible assumption | with_reducible apply record_kept | with_reducible apply completeFor_kept | with_reducible apply Kept.foldl | with_reducible apply Kept.foldl_fst | with_reducible apply Kept.foldl_snd | intro _ | extract_lets | fail_if_no_progress with_reducible refine Kept.upd ?_ rfl rfl rfl | fail_if_no_progress with_reducible refine Kept.updAny ?_ rfl rfl rfl rfl)

theorem abandonTest_kept {J : Bool} {c₀ : State} {s : State} (hk : Kept false J c₀ s) : Kept false J c₀ (abandonTest s) := by
  unfold abandonTest
  repeat' (first | with_reducible exact hk | with_reducible assumption | with_reducible apply setUsable_kept | with_reducible apply endTest_kept | with_reducible apply Kept.ite | intro _ | extract_lets | fail_if_no_progress with_reducible refine Kept.upd ?_ rfl rfl rfl | fail_if_no_progress with_reducible refine Kept.updAny ?_ rfl rfl rfl rfl)

theorem startTest_kept {J : Bool} {c₀ : State} {s : State} (hk : Kept false J c₀ s) : Kept false J c₀ (startTest s) := by
  unfold startTest
  repeat' (first | with_reducible exact hk | with_reducible assumption | intro _ | extract_lets | fail_if_no_progress with_reducible refine Kept.upd ?_ rfl rfl rfl | fail_if_no_progress with_reducible refine Kept.updAny ?_ rfl rfl rfl rfl)

theorem tryTest_kept {J : Bool} {c₀ : State} {s : State} (hk : Kept false J c₀ s) : Kept false J c₀ (tryTest s) := by
  unfold tryTest
  repeat' (first | with_reducible exact hk | with_reducible assumption | with_reducible apply startTest_kept | with_reducible apply Kept.ite | intro _)

theorem raiseSvn_kept {J : Bool} {c₀ : State} {s : State} (hk : Kept false J c₀ s) : Kept false J c₀ (raiseSvn s) := by
  unfold raiseSvn
  refine Kept.updBoot hk rfl ?_ (Nat.le_refl _) (fun x => x)
  dsimp only
  split
  · exact Nat.le_max_left _ _
  · exact Nat.le_refl _

theorem dropMoves_kept {K J : Bool} {c₀ : State} {s : State} (m : Mode) (hk : Kept K J c₀ s) : Kept K J c₀ (dropMoves s m) := by
  unfold dropMoves
  repeat' (first | with_reducible exact hk | with_reducible assumption | with_reducible apply endReshape_kept | with_reducible apply Kept.ite | with_reducible apply Kept.foldl | with_reducible apply Kept.foldl_fst | with_reducible apply Kept.foldl_snd | intro _)

theorem toMode_kept {J : Bool} {c₀ : State} {s : State} (m : Mode) (qcause : Nat) (serving : Bool) (hk : Kept false J c₀ s) : Kept false J c₀ (toMode s m qcause serving) := by
  unfold toMode
  repeat' (first | with_reducible exact hk | with_reducible assumption | with_reducible apply dropMoves_kept | with_reducible apply abandonTest_kept | with_reducible apply enterMode_kept | with_reducible apply tryTest_kept | with_reducible apply raiseSvn_kept | with_reducible apply Kept.ite | intro _ | extract_lets | fail_if_no_progress with_reducible refine Kept.upd ?_ rfl rfl rfl | fail_if_no_progress with_reducible refine Kept.updAny ?_ rfl rfl rfl rfl)

theorem abandonEntry_kept {K J : Bool} {c₀ : State} {s : State} (trigger : Mode) (hk : Kept K J c₀ s) : Kept K J c₀ (abandonEntry s trigger) := by
  unfold abandonEntry
  repeat' (first | with_reducible exact hk | with_reducible assumption | with_reducible apply record_kept | with_reducible apply completeFor_kept | with_reducible apply Kept.ite | with_reducible apply Kept.elim | intro _ | extract_lets | fail_if_no_progress with_reducible refine Kept.upd ?_ rfl rfl rfl)

theorem endTransition_kept {K J : Bool} {c₀ : State} {s : State} (hk : Kept K J c₀ s) : Kept K J c₀ (endTransition s) := by
  unfold endTransition
  repeat' (first | with_reducible exact hk | with_reducible assumption | with_reducible apply dropCmd_kept | with_reducible apply finish_kept | with_reducible apply Kept.ite | with_reducible apply Kept.foldl | with_reducible apply Kept.foldl_fst | with_reducible apply Kept.foldl_snd | intro _)

theorem leavePair_kept {K J : Bool} {c₀ : State} {s : State} (hk : Kept K J c₀ s) : Kept K J c₀ (leavePair s) := by
  unfold leavePair
  repeat' (first | with_reducible exact fun _ _ => rfl | with_reducible exact hk | with_reducible assumption | with_reducible apply setFlags_kept | with_reducible apply Kept.ite | intro _ | extract_lets | fail_if_no_progress with_reducible refine Kept.upd ?_ rfl rfl rfl)

theorem toQuarantine_kept {J : Bool} {c₀ : State} {s : State} (cause : Nat) (hk : Kept false J c₀ s) : Kept false J c₀ (toQuarantine s cause) := by
  unfold toQuarantine
  repeat' (first | with_reducible exact hk | with_reducible assumption | with_reducible apply record_kept | with_reducible apply abandonEntry_kept | with_reducible apply send_kept | with_reducible apply endTransition_kept | with_reducible apply leavePair_kept | with_reducible apply toMode_kept | with_reducible apply capture_kept | with_reducible apply raiseAll_kept | with_reducible apply Kept.ite | intro _)

/-! ### Machine/Twin -/

theorem nextEpoch_kept {K J : Bool} {c₀ : State} {s : State} (hk : Kept K J c₀ s) : Kept K J c₀ (nextEpoch s) := by
  unfold nextEpoch
  repeat' (first | with_reducible exact hk | with_reducible assumption | intro _ | extract_lets | fail_if_no_progress with_reducible refine Kept.upd ?_ rfl rfl rfl)

theorem separate_kept {K J : Bool} {c₀ : State} {s : State} (kind : Nat) (hk : Kept K J c₀ s) : Kept K J c₀ (separate s kind) := by
  unfold separate
  repeat' (first | with_reducible exact fun _ _ => rfl | with_reducible exact hk | with_reducible assumption | with_reducible apply setFlags_kept | intro _ | extract_lets | fail_if_no_progress with_reducible refine Kept.upd ?_ rfl rfl rfl)

theorem takeNs_kept {K J : Bool} {c₀ : State} {s : State} (nsid : Nat) (cont : Bool) (hk : Kept K J c₀ s) : Kept K J c₀ (takeNs s nsid cont) := by
  unfold takeNs
  repeat' (first | with_reducible exact hk | with_reducible assumption | with_reducible apply setNs_kept)

theorem ackAll_kept {K : Bool} {c₀ : State} {s : State} (nsid : Nat) (hk : Kept K false c₀ s) : Kept K false c₀ (ackAll s nsid) := by
  unfold ackAll
  repeat' (first | with_reducible exact hk | with_reducible assumption | with_reducible apply recordSettled_kept | with_reducible apply setRec_kept | with_reducible apply Kept.foldl | with_reducible apply Kept.foldl_fst | with_reducible apply Kept.foldl_snd | intro _)

theorem takeOverCmd_kept {K : Bool} {c₀ : State} {s : State} (slot : Nat) (c : Cmd) (hk : Kept K false c₀ s) : Kept K false c₀ (takeOverCmd s slot c) := by
  unfold takeOverCmd
  repeat' (first | with_reducible exact hk | with_reducible assumption | with_reducible apply setRec_kept | with_reducible apply finish_kept | with_reducible apply carryOut_kept | with_reducible apply Kept.ite | intro _ | extract_lets | fail_if_no_progress with_reducible refine Kept.upd ?_ rfl rfl rfl | split)

theorem endForwarded_kept {K J : Bool} {c₀ : State} {s : State} (slot : Nat) (c : Cmd) (hk : Kept K J c₀ s) : Kept K J c₀ (endForwarded s slot c) := by
  unfold endForwarded
  repeat' (first | with_reducible exact hk | with_reducible assumption | with_reducible apply setZop_kept | with_reducible apply finish_kept | with_reducible apply Kept.ite | intro _)

theorem loseNs_kept {K : Bool} {c₀ : State} {s : State} (nsid : Nat) (n : Ns) (dead : Bool) (hk : Kept K false c₀ s) : Kept K false c₀ (loseNs s nsid n dead) := by
  unfold loseNs
  repeat' (first | with_reducible exact hk | with_reducible assumption | with_reducible apply ackAll_kept | with_reducible apply setNs_kept | with_reducible apply takeNs_kept | with_reducible apply releaseAllHeld_kept | with_reducible apply takeOverCmd_kept | with_reducible apply endForwarded_kept | with_reducible apply Kept.ite | with_reducible apply Kept.foldl | with_reducible apply Kept.foldl_fst | with_reducible apply Kept.foldl_snd | intro _)

theorem endForTwin_kept {K J : Bool} {c₀ : State} {s : State} (hk : Kept K J c₀ s) : Kept K J c₀ (endForTwin s) := by
  unfold endForTwin
  repeat' (first | with_reducible exact hk | with_reducible assumption | with_reducible apply disposeCmd_kept | with_reducible apply Kept.foldl | with_reducible apply Kept.foldl_fst | with_reducible apply Kept.foldl_snd | intro _)

theorem endAdminWait_kept {K : Bool} {c₀ : State} {s : State} (hk : Kept K false c₀ s) : Kept K false c₀ (endAdminWait s) := by
  unfold endAdminWait
  repeat' (first | with_reducible exact hk | with_reducible assumption | with_reducible apply formatsAlone_kept | with_reducible apply adminAnswer_kept | with_reducible apply completeFor_kept | with_reducible apply Kept.elim | with_reducible apply Kept.foldl | with_reducible apply Kept.foldl_fst | with_reducible apply Kept.foldl_snd | intro _ | extract_lets | fail_if_no_progress with_reducible refine Kept.upd ?_ rfl rfl rfl)

theorem endFetches_kept {K J : Bool} {c₀ : State} {s : State} (hk : Kept K J c₀ s) : Kept K J c₀ (endFetches s) := by
  unfold endFetches
  repeat' (first | with_reducible exact hk | with_reducible assumption | with_reducible apply listLost_kept | with_reducible apply endTwinRead_kept | with_reducible apply setCmd_kept | with_reducible apply Kept.ite | with_reducible apply Kept.foldl | with_reducible apply Kept.foldl_fst | with_reducible apply Kept.foldl_snd | intro _ | extract_lets | fail_if_no_progress with_reducible refine Kept.upd ?_ rfl rfl rfl)

theorem abandonReshape_kept {K : Bool} {c₀ : State} {s : State} (nsid : Nat) (st : Status) (hk : Kept K false c₀ s) : Kept K false c₀ (abandonReshape s nsid st) := by
  unfold abandonReshape
  repeat' (first | with_reducible exact hk | with_reducible assumption | with_reducible apply setNs_kept | with_reducible apply endReshape_kept | with_reducible apply releaseNs_kept | with_reducible apply Kept.ite | intro _ | extract_lets | fail_if_no_progress with_reducible refine Kept.upd ?_ rfl rfl rfl | split)

theorem dropPolicyChanges_kept {K : Bool} {c₀ : State} {s : State} (hk : Kept K false c₀ s) : Kept K false c₀ (dropPolicyChanges s) := by
  unfold dropPolicyChanges
  repeat' (first | with_reducible exact hk | with_reducible assumption | with_reducible apply abandonReshape_kept | with_reducible apply Kept.ite | with_reducible apply Kept.foldl | with_reducible apply Kept.foldl_fst | with_reducible apply Kept.foldl_snd | intro _)

theorem toSolo_kept {J : Bool} {c₀ : State} {s : State} (hk : Kept false J c₀ s) : Kept false J c₀ (toSolo s) := by
  unfold toSolo
  repeat' (first | with_reducible exact hk | with_reducible assumption | with_reducible apply toMode_kept | with_reducible apply Kept.ite | intro _)

theorem loseTwin_kept {c₀ : State} {s : State} (kind : Nat) (hk : Kept false false c₀ s) : Kept false false c₀ (loseTwin s kind) := by
  unfold loseTwin
  repeat' (first | with_reducible exact hk | with_reducible assumption | with_reducible apply separate_kept | with_reducible apply abandonEntry_kept | with_reducible apply record_kept | with_reducible apply toSolo_kept | with_reducible apply nextEpoch_kept | with_reducible apply dropPolicyChanges_kept | with_reducible apply loseNs_kept | with_reducible apply endFetches_kept | with_reducible apply endAdminWait_kept | with_reducible apply endForTwin_kept | with_reducible apply raiseAll_kept | with_reducible apply updateAna_kept | with_reducible apply Kept.ite | with_reducible apply Kept.foldl | with_reducible apply Kept.foldl_fst | with_reducible apply Kept.foldl_snd | intro _ | extract_lets | fail_if_no_progress with_reducible refine Kept.upd ?_ rfl rfl rfl)

theorem tryDepart_kept {K J : Bool} {c₀ : State} {s : State} (hk : Kept K J c₀ s) : Kept K J c₀ (tryDepart s) := by
  unfold tryDepart
  repeat' (first | with_reducible exact hk | with_reducible assumption | with_reducible apply send_kept | with_reducible apply Kept.ite | intro _ | extract_lets | fail_if_no_progress with_reducible refine Kept.upd ?_ rfl rfl rfl | split)

theorem beginDeparture_kept {K J : Bool} {c₀ : State} {s : State} (kind : Nat) (hk : Kept K J c₀ s) : Kept K J c₀ (beginDeparture s kind) := by
  unfold beginDeparture
  repeat' (first | with_reducible exact hk | with_reducible assumption | with_reducible apply tryDepart_kept | intro _ | extract_lets | fail_if_no_progress with_reducible refine Kept.upd ?_ rfl rfl rfl)

theorem departed_kept {K : Bool} {c₀ : State} {s : State} (kind : Nat) (hk : Kept K false c₀ s) : Kept K false c₀ (departed s kind) := by
  unfold departed
  repeat' (first | with_reducible exact hk | with_reducible assumption | with_reducible apply dropPolicyChanges_kept | with_reducible apply separate_kept | with_reducible apply endForwarded_kept | with_reducible apply endFetches_kept | with_reducible apply endAdminWait_kept | with_reducible apply endForTwin_kept | with_reducible apply raiseAll_kept | with_reducible apply updateAna_kept | with_reducible apply nextEpoch_kept | with_reducible apply Kept.ite | with_reducible apply Kept.foldl | with_reducible apply Kept.foldl_fst | with_reducible apply Kept.foldl_snd | intro _ | extract_lets | fail_if_no_progress with_reducible refine Kept.upd ?_ rfl rfl rfl)

theorem takeDeparture_kept {c₀ : State} {s : State} (kind : Nat) (epoch : Nat) (hk : Kept false false c₀ s) : Kept false false c₀ (takeDeparture s kind epoch) := by
  unfold takeDeparture
  repeat' (first | with_reducible exact hk | with_reducible assumption | with_reducible apply send_kept | with_reducible apply separate_kept | with_reducible apply dropPolicyChanges_kept | with_reducible apply toSolo_kept | with_reducible apply record_kept | with_reducible apply takeNs_kept | with_reducible apply releaseAllHeld_kept | with_reducible apply takeOverCmd_kept | with_reducible apply ackAll_kept | with_reducible apply endForwarded_kept | with_reducible apply endFetches_kept | with_reducible apply endAdminWait_kept | with_reducible apply endForTwin_kept | with_reducible apply raiseAll_kept | with_reducible apply updateAna_kept | with_reducible apply Kept.foldl | with_reducible apply Kept.foldl_fst | with_reducible apply Kept.foldl_snd | intro _ | extract_lets | fail_if_no_progress with_reducible refine Kept.upd ?_ rfl rfl rfl)

/-! ### Machine/Boot -/

theorem setAlm_kept {J : Bool} {c₀ : State} {s : State} (f : Alm → Alm) (hk : Kept false J c₀ s) : Kept false J c₀ (setAlm s f) := by
  unfold setAlm
  repeat' (first | with_reducible exact hk | with_reducible assumption | intro _ | extract_lets | fail_if_no_progress with_reducible refine Kept.upd ?_ rfl rfl rfl | fail_if_no_progress with_reducible refine Kept.updAny ?_ rfl rfl rfl rfl)

theorem beginEntry_kept {J : Bool} {c₀ : State} {s : State} (cause : Nat) (hk : Kept false J c₀ s) : Kept false J c₀ (beginEntry s cause) := by
  unfold beginEntry
  refine Kept.updBoot hk rfl (Nat.le_refl _) ?_ (fun x => x)
  exact Nat.le_succ _

theorem copyBody_kept {J : Bool} {c₀ : State} {s : State} (below : Nat) (hk : Kept false J c₀ s) : Kept false J c₀ (copyBody s below) := by
  unfold copyBody
  repeat' (first | with_reducible exact hk | with_reducible assumption | with_reducible apply Kept.foldl | with_reducible apply Kept.foldl_fst | with_reducible apply Kept.foldl_snd | intro _ | extract_lets | fail_if_no_progress with_reducible refine Kept.upd ?_ rfl rfl rfl | fail_if_no_progress with_reducible refine Kept.updAny ?_ rfl rfl rfl rfl)

theorem continueSet_kept {K J : Bool} {c₀ : State} {s : State} (k : Nat) (wl : Nat) (hk : Kept K J c₀ s) : Kept K J c₀ (continueSet s k wl) := by
  unfold continueSet
  repeat' (first | with_reducible exact hk | with_reducible assumption | with_reducible apply goOn_kept | with_reducible apply Kept.elim | intro _)

theorem resetDies_kept {K J : Bool} {c₀ : State} {s : State} (hk : Kept K J c₀ s) : Kept K J c₀ (resetDies s) := by
  unfold resetDies
  repeat' (first | with_reducible exact hk | with_reducible assumption | with_reducible apply continueSet_kept | with_reducible apply Kept.ite | with_reducible apply Kept.foldl | with_reducible apply Kept.foldl_fst | with_reducible apply Kept.foldl_snd | intro _ | extract_lets | fail_if_no_progress with_reducible refine Kept.upd ?_ rfl rfl rfl)

theorem clearVolatile_kept {J : Bool} {c₀ : State} {s : State} (powerGood : Bool) (hk : Kept false J c₀ s) : Kept false J c₀ (clearVolatile s powerGood) := by
  unfold clearVolatile
  repeat' (first | with_reducible exact hk | with_reducible assumption | with_reducible apply dropPartial_kept | with_reducible apply resetDies_kept | with_reducible apply Kept.ite | with_reducible apply Kept.elim | with_reducible apply Kept.foldl | with_reducible apply Kept.foldl_fst | with_reducible apply Kept.foldl_snd | intro _ | extract_lets | fail_if_no_progress with_reducible refine Kept.upd ?_ rfl rfl rfl | fail_if_no_progress with_reducible refine Kept.updAny ?_ rfl rfl rfl rfl | refine Kept.updBoot ?_ rfl (Nat.le_refl _) (Nat.le_refl _) (fun _ => Nat.zero_le 8))

theorem enterMeasure_kept {J : Bool} {c₀ : State} {s : State} (cause : Nat) (hk : Kept false J c₀ s) : Kept false J c₀ (enterMeasure s cause) := by
  unfold enterMeasure
  repeat' (first | with_reducible exact hk | with_reducible assumption | with_reducible apply clearVolatile_kept | with_reducible apply hostReset_kept | with_reducible apply toMode_kept | with_reducible apply beginEntry_kept | intro _ | extract_lets | fail_if_no_progress with_reducible refine Kept.upd ?_ rfl rfl rfl | fail_if_no_progress with_reducible refine Kept.updAny ?_ rfl rfl rfl rfl)

theorem execPowerGood_kept {J : Bool} {c₀ : State} {s : State} (feedA : Nat) (feedB : Nat) (plane : Backplane) (hk : Kept false J c₀ s) : KeptBy false J c₀ (execPowerGood feedA feedB plane s) := by
  unfold execPowerGood
  repeat' (first | with_reducible exact hk | with_reducible assumption | with_reducible apply clearVolatile_kept | with_reducible apply refreshPower_kept | with_reducible apply beginEntry_kept | with_reducible apply KeptBy.next | with_reducible apply KeptBy.fault | with_reducible apply Kept.ite | with_reducible apply KeptBy.ite | intro _ | extract_lets | fail_if_no_progress with_reducible refine Kept.upd ?_ rfl rfl rfl | fail_if_no_progress with_reducible refine Kept.updAny ?_ rfl rfl rfl rfl)

theorem railsOff_kept {J : Bool} {c₀ : State} {s : State} (hk : Kept false J c₀ s) : Kept false J c₀ (railsOff s) := by
  unfold railsOff
  repeat' (first | with_reducible exact hk | with_reducible assumption | intro _ | extract_lets | fail_if_no_progress with_reducible refine Kept.upd ?_ rfl rfl rfl | fail_if_no_progress with_reducible refine Kept.updAny ?_ rfl rfl rfl rfl)

theorem execPowerLoss_kept {J : Bool} {c₀ : State} {s : State} (hk : Kept false J c₀ s) : KeptBy false J c₀ (execPowerLoss s) := by
  unfold execPowerLoss
  repeat' (first | with_reducible exact hk | with_reducible assumption | with_reducible apply railsOff_kept | with_reducible apply KeptBy.next | with_reducible apply KeptBy.fault | with_reducible apply Kept.ite | with_reducible apply KeptBy.ite | intro _)

theorem releaseKeys_kept {K J : Bool} {c₀ : State} {s : State} (bad : List Nat) (hk : Kept K J c₀ s) : Kept K J c₀ (releaseKeys s bad) := by
  unfold releaseKeys
  repeat' (first | with_reducible exact hk | with_reducible assumption | with_reducible apply setNs_kept | with_reducible apply record_kept | with_reducible apply Kept.ite | with_reducible apply Kept.elim | with_reducible apply Kept.foldl | with_reducible apply Kept.foldl_fst | with_reducible apply Kept.foldl_snd | intro _ | extract_lets | fail_if_no_progress with_reducible refine Kept.upd ?_ rfl rfl rfl)

theorem trainChannels_kept {c₀ : State} {s : State} (train : List (List (List ChanSetting))) (hk : Kept false false c₀ s) : Kept false false c₀ (trainChannels s train) := by
  unfold trainChannels
  repeat' (first | with_reducible exact hk | with_reducible assumption | with_reducible apply failDie_kept | with_reducible apply Kept.ite | with_reducible apply Kept.foldl | with_reducible apply Kept.foldl_fst | with_reducible apply Kept.foldl_snd | intro _ | extract_lets | fail_if_no_progress with_reducible refine Kept.upd ?_ rfl rfl rfl | fail_if_no_progress with_reducible refine Kept.updAny ?_ rfl rfl rfl rfl | split)

theorem endMeasure_kept {J : Bool} {c₀ : State} {s : State} (verdict : Nat) (badBlobs : List Nat) (hk : Kept false J c₀ s) : Kept false J c₀ (endMeasure s verdict badBlobs) := by
  unfold endMeasure
  repeat' (first | with_reducible exact hk | with_reducible assumption | with_reducible apply setAlm_kept | with_reducible apply toQuarantine_kept | with_reducible apply toMode_kept | with_reducible apply releaseKeys_kept | with_reducible apply Kept.ite | intro _ | extract_lets | fail_if_no_progress with_reducible refine Kept.upd ?_ rfl rfl rfl | fail_if_no_progress with_reducible refine Kept.updAny ?_ rfl rfl rfl rfl)

theorem execStageMeasured_kept {c₀ : State} {s : State} (stage : Nat) (train : List (List (List ChanSetting))) (badBlobs : List Nat) (hk : Kept false false c₀ s) : KeptBy false false c₀ (execStageMeasured stage train badBlobs s) := by
  unfold execStageMeasured
  repeat' (first | with_reducible exact hk | with_reducible assumption | with_reducible apply endMeasure_kept | with_reducible apply setAlm_kept | with_reducible apply trainChannels_kept | with_reducible apply KeptBy.next | with_reducible apply KeptBy.fault | with_reducible apply Kept.ite | with_reducible apply KeptBy.ite | intro _ | extract_lets | fail_if_no_progress with_reducible refine Kept.upd ?_ rfl rfl rfl | fail_if_no_progress with_reducible refine Kept.updAny ?_ rfl rfl rfl rfl | refine Kept.updBoot ?_ rfl (Nat.le_refl _) (Nat.le_refl _) (fun _ => by simp_all; omega) | split | dsimp +zetaDelta only)

theorem saveClock_kept {J : Bool} {c₀ : State} {s : State} (sealed : Bool) (hk : Kept false J c₀ s) : Kept false J c₀ (saveClock s sealed) := by
  unfold saveClock
  repeat' (first | with_reducible exact hk | with_reducible assumption | with_reducible apply Kept.ite | intro _ | extract_lets | fail_if_no_progress with_reducible refine Kept.upd ?_ rfl rfl rfl | fail_if_no_progress with_reducible refine Kept.updAny ?_ rfl rfl rfl rfl)

theorem keepShifts_kept {K J : Bool} {c₀ : State} {s : State} (shifts : List Nat) (save : Bool) (hk : Kept K J c₀ s) : Kept K J c₀ (keepShifts s shifts save) := by
  unfold keepShifts
  repeat' (first | with_reducible exact hk | with_reducible assumption | with_reducible apply Kept.ite | with_reducible apply Kept.foldl | intro _ | extract_lets | fail_if_no_progress with_reducible refine Kept.upd ?_ rfl rfl rfl)

theorem applyGap_kept {J : Bool} {c₀ : State} {s : State} (gap : Option Nat) (hk : Kept false J c₀ s) : Kept false J c₀ (applyGap s gap) := by
  unfold applyGap
  repeat' (first | with_reducible exact hk | with_reducible assumption | with_reducible apply Kept.ite | intro _ | extract_lets | fail_if_no_progress with_reducible refine Kept.upd ?_ rfl rfl rfl | fail_if_no_progress with_reducible refine Kept.updAny ?_ rfl rfl rfl rfl | split)

theorem replay_kept {K : Bool} {c₀ : State} {s : State} (bad : List Nat) (hk : Kept K false c₀ s) : Kept K false c₀ (replay s bad).1 := by
  unfold replay
  repeat' (first | with_reducible exact hk | with_reducible assumption | with_reducible refine Kept.of_fst ?_ (by assumption) | with_reducible apply removeRec_kept | with_reducible apply listLost_kept | with_reducible apply storeLba_kept | with_reducible apply settle_kept | with_reducible apply placeApplied_kept | with_reducible apply retireNs_kept | with_reducible apply queueReady_kept | with_reducible apply setZone_kept | with_reducible apply dropDone_kept | with_reducible apply closeZonesOf_kept | with_reducible apply Kept.ite | with_reducible apply Kept.foldl | with_reducible apply Kept.foldl_fst | with_reducible apply Kept.foldl_snd | intro _ | extract_lets | fail_if_no_progress with_reducible refine Kept.upd ?_ rfl rfl rfl | split)

theorem resolveErases_kept {K J : Bool} {c₀ : State} {s : State} (hk : Kept K J c₀ s) : Kept K J c₀ (resolveErases s) := by
  unfold resolveErases
  repeat' (first | with_reducible exact hk | with_reducible assumption | with_reducible apply toErase_kept | with_reducible apply setBset_kept | with_reducible apply Kept.foldl | with_reducible apply Kept.foldl_fst | with_reducible apply Kept.foldl_snd | intro _)

theorem resolveCopies_kept {K J : Bool} {c₀ : State} {s : State} (clean : Bool) (hk : Kept K J c₀ s) : Kept K J c₀ (resolveCopies s clean) := by
  unfold resolveCopies
  repeat' (first | with_reducible exact hk | with_reducible assumption | with_reducible apply moveCopied_kept | with_reducible apply switchCopy_kept | with_reducible apply toErase_kept | with_reducible apply sourceBack_kept | with_reducible apply Kept.ite | with_reducible apply Kept.foldl | intro _ | extract_lets | fail_if_no_progress with_reducible refine Kept.upd ?_ rfl rfl rfl)

theorem resolveLines_kept {K J : Bool} {c₀ : State} {s : State} (hk : Kept K J c₀ s) : Kept K J c₀ (resolveLines s) := by
  unfold resolveLines
  repeat' (first | with_reducible exact hk | with_reducible assumption | with_reducible apply continueSet_kept | with_reducible apply Kept.foldl | with_reducible apply Kept.foldl_fst | with_reducible apply Kept.foldl_snd | intro _)

theorem toPairing_kept {J : Bool} {c₀ : State} {s : State} (serving : Bool) (hk : Kept false J c₀ s) : Kept false J c₀ (toPairing s serving) := by
  unfold toPairing
  repeat' (first | with_reducible exact hk | with_reducible assumption | with_reducible apply toMode_kept | intro _ | extract_lets | fail_if_no_progress with_reducible refine Kept.upd ?_ rfl rfl rfl)

theorem reportHarvest_kept {J : Bool} {c₀ : State} {s : State} (replayed : Nat) (lost : Nat) (hk : Kept false J c₀ s) : Kept false J c₀ (reportHarvest s replayed lost) := by
  unfold reportHarvest
  repeat' (first | with_reducible exact hk | with_reducible assumption | with_reducible apply record_kept | intro _ | extract_lets | fail_if_no_progress with_reducible refine Kept.upd ?_ rfl rfl rfl | fail_if_no_progress with_reducible refine Kept.updAny ?_ rfl rfl rfl rfl | split)

theorem scanFlash_kept {K J : Bool} {c₀ : State} {s : State} (path : Nat) (scan : List (Nat × Bool)) (hk : Kept K J c₀ s) : Kept K J c₀ (scanFlash s path scan) := by
  unfold scanFlash
  repeat' (first | with_reducible exact hk | with_reducible assumption | with_reducible apply searchPointers_kept | with_reducible apply classify_kept | with_reducible apply Kept.ite | with_reducible apply Kept.foldl | with_reducible apply Kept.foldl_fst | with_reducible apply Kept.foldl_snd | intro _)

theorem execRecoveryComplete_kept {c₀ : State} {s : State} (ckpt : Nat) (mapOk : Bool) (rises : List Nat) (shifts : List Nat) (found : Scan) (hk : Kept false false c₀ s) : KeptBy false false c₀ (execRecoveryComplete ckpt mapOk rises shifts found s) := by
  unfold execRecoveryComplete
  repeat' (first | with_reducible exact hk | with_reducible assumption | with_reducible refine Kept.of_fst ?_ (by assumption) | with_reducible apply toQuarantine_kept | with_reducible apply scanFlash_kept | with_reducible apply keepShifts_kept | with_reducible apply applyGap_kept | with_reducible apply replay_kept | with_reducible apply resolveLines_kept | with_reducible apply resolveCopies_kept | with_reducible apply resolveErases_kept | with_reducible apply freeLanding_kept | with_reducible apply refreshRebuilding_kept | with_reducible apply checkpoint_kept | with_reducible apply copyBody_kept | with_reducible apply queueAged_kept | with_reducible apply reportHarvest_kept | with_reducible apply updateAna_kept | with_reducible apply toPairing_kept | with_reducible apply toMode_kept | with_reducible apply KeptBy.next | with_reducible apply KeptBy.fault | with_reducible apply Kept.ite | with_reducible apply KeptBy.ite | intro _ | extract_lets | fail_if_no_progress with_reducible refine Kept.upd ?_ rfl rfl rfl | fail_if_no_progress with_reducible refine Kept.updAny ?_ rfl rfl rfl rfl)

theorem signEntry_kept {J : Bool} {c₀ : State} {s : State} (hk : Kept false J c₀ s) : Kept false J c₀ (signEntry s) := by
  unfold signEntry
  repeat' (first | with_reducible exact hk | with_reducible assumption | with_reducible apply setAlm_kept | with_reducible apply Kept.ite | intro _ | extract_lets | fail_if_no_progress with_reducible refine Kept.upd ?_ rfl rfl rfl | fail_if_no_progress with_reducible refine Kept.updAny ?_ rfl rfl rfl rfl)

theorem execAlmanacSigning_kept {J : Bool} {c₀ : State} {s : State} (hk : Kept false J c₀ s) : KeptBy false J c₀ (execAlmanacSigning s) := by
  unfold execAlmanacSigning
  repeat' (first | with_reducible exact hk | with_reducible assumption | with_reducible apply signEntry_kept | with_reducible apply KeptBy.next | with_reducible apply KeptBy.fault | with_reducible apply Kept.ite | with_reducible apply KeptBy.ite | intro _)

theorem execAlmanacBodyCopy_kept {J : Bool} {c₀ : State} {s : State} (hk : Kept false J c₀ s) : KeptBy false J c₀ (execAlmanacBodyCopy s) := by
  unfold execAlmanacBodyCopy
  repeat' (first | with_reducible exact hk | with_reducible assumption | with_reducible apply copyBody_kept | with_reducible apply KeptBy.next | with_reducible apply KeptBy.fault | with_reducible apply Kept.ite | with_reducible apply KeptBy.ite | intro _)

/-! ### Machine/Reshape -/

theorem startTransfer_kept {K J : Bool} {c₀ : State} {s : State} (nsid : Nat) (hk : Kept K J c₀ s) : Kept K J c₀ (startTransfer s nsid) := by
  unfold startTransfer
  repeat' (first | with_reducible exact hk | with_reducible assumption | with_reducible apply setNs_kept | intro _ | extract_lets | fail_if_no_progress with_reducible refine Kept.upd ?_ rfl rfl rfl)

theorem offer_kept {K J : Bool} {c₀ : State} {s : State} (nsid : Nat) (hk : Kept K J c₀ s) : Kept K J c₀ (offer s nsid) := by
  unfold offer
  repeat' (first | with_reducible exact hk | with_reducible assumption | with_reducible apply setNs_kept | with_reducible apply send_kept | with_reducible apply Kept.ite | intro _)

theorem tryOffer_kept {K J : Bool} {c₀ : State} {s : State} (hk : Kept K J c₀ s) : Kept K J c₀ (tryOffer s) := by
  unfold tryOffer
  repeat' (first | with_reducible exact hk | with_reducible assumption | with_reducible apply offer_kept | with_reducible apply startTransfer_kept | with_reducible apply Kept.ite | intro _ | extract_lets | split)

theorem reshapeToMirrored_kept {K J : Bool} {c₀ : State} {s : State} (w : AdminWait) (n : Ns) (hk : Kept K J c₀ s) : Kept K J c₀ (reshapeToMirrored s w n) := by
  unfold reshapeToMirrored
  repeat' (first | with_reducible exact hk | with_reducible assumption | with_reducible apply endAdmin_kept | with_reducible apply setNs_kept | with_reducible apply carryAdmin_kept | intro _ | extract_lets | fail_if_no_progress with_reducible refine Kept.upd ?_ rfl rfl rfl | split)

theorem reshapeToSingle_kept {K J : Bool} {c₀ : State} {s : State} (w : AdminWait) (homeTwin : Bool) (hk : Kept K J c₀ s) : Kept K J c₀ (reshapeToSingle s w homeTwin) := by
  unfold reshapeToSingle
  repeat' (first | with_reducible exact hk | with_reducible assumption | with_reducible apply beginReshape_kept | with_reducible apply tryOffer_kept | with_reducible apply carryAdmin_kept | with_reducible apply Kept.ite | intro _)

theorem reshapeHere_kept {K J : Bool} {c₀ : State} {s : State} (w : AdminWait) (n : Ns) (mirrored : Bool) (homeTwin : Bool) (hk : Kept K J c₀ s) : Kept K J c₀ (reshapeHere s w n mirrored homeTwin) := by
  unfold reshapeHere
  repeat' (first | with_reducible exact hk | with_reducible assumption | with_reducible apply reshapeToMirrored_kept | with_reducible apply reshapeToSingle_kept | with_reducible apply Kept.ite | intro _)

theorem execReshapeTwinPolicy_kept {K J : Bool} {c₀ : State} {s : State} (e : Sqe) (hk : Kept K J c₀ s) : KeptBy K J c₀ (execReshapeTwinPolicy e s) := by
  unfold execReshapeTwinPolicy
  repeat' (first | with_reducible exact hk | with_reducible assumption | with_reducible apply adminCmdAt_kept | with_reducible apply adminDone_kept | with_reducible apply reshapeHere_kept | with_reducible apply carryAdmin_kept | with_reducible apply KeptBy.next | with_reducible apply KeptBy.fault | with_reducible apply Kept.ite | with_reducible apply KeptBy.ite | intro _ | extract_lets | fail_if_no_progress with_reducible refine Kept.upd ?_ rfl rfl rfl | split)

theorem startMove_kept {K J : Bool} {c₀ : State} {s : State} (w : AdminWait) (first : Nat) (last : Nat) (mask : Nat) (hk : Kept K J c₀ s) : Kept K J c₀ (startMove s w first last mask) := by
  unfold startMove
  repeat' (first | with_reducible exact hk | with_reducible assumption | with_reducible apply moveOn_kept | with_reducible apply beginReshape_kept)

theorem execReshapeGroupMove_kept {K J : Bool} {c₀ : State} {s : State} (e : Sqe) (hk : Kept K J c₀ s) : KeptBy K J c₀ (execReshapeGroupMove e s) := by
  unfold execReshapeGroupMove
  repeat' (first | with_reducible exact hk | with_reducible assumption | with_reducible apply adminCmdAt_kept | with_reducible apply adminDone_kept | with_reducible apply startMove_kept | with_reducible apply carryAdmin_kept | with_reducible apply KeptBy.next | with_reducible apply KeptBy.fault | with_reducible apply Kept.ite | with_reducible apply KeptBy.ite | intro _ | extract_lets | fail_if_no_progress with_reducible refine Kept.upd ?_ rfl rfl rfl | split)

theorem cancelHere_kept {K J : Bool} {c₀ : State} {s : State} (nsid : Nat) (r : Reshape) (hk : Kept K J c₀ s) : Kept K J c₀ (cancelHere s nsid r) := by
  unfold cancelHere
  repeat' (first | with_reducible exact hk | with_reducible assumption | with_reducible apply endReshape_kept | with_reducible apply send_kept | with_reducible apply Kept.ite | intro _)

theorem execReshapeCancel_kept {K J : Bool} {c₀ : State} {s : State} (e : Sqe) (hk : Kept K J c₀ s) : KeptBy K J c₀ (execReshapeCancel e s) := by
  unfold execReshapeCancel
  repeat' (first | with_reducible exact hk | with_reducible assumption | with_reducible apply adminCmd_kept | with_reducible apply adminDone_kept | with_reducible apply carryAdmin_kept | with_reducible apply cancelHere_kept | with_reducible apply setNs_kept | with_reducible apply KeptBy.next | with_reducible apply KeptBy.fault | with_reducible apply Kept.ite | with_reducible apply KeptBy.ite | intro _ | extract_lets | fail_if_no_progress with_reducible refine Kept.upd ?_ rfl rfl rfl | split)

theorem switchReshapes_kept {K J : Bool} {c₀ : State} {s : State} (hk : Kept K J c₀ s) : Kept K J c₀ (switchReshapes s) := by
  unfold switchReshapes
  repeat' (first | with_reducible exact hk | with_reducible assumption | with_reducible apply carryAdmin_kept | with_reducible apply Kept.ite | with_reducible apply Kept.foldl | with_reducible apply Kept.foldl_fst | with_reducible apply Kept.foldl_snd | intro _)

theorem execPeriodBoundary_kept {J : Bool} {c₀ : State} {s : State} (hk : Kept false J c₀ s) : KeptBy false J c₀ (execPeriodBoundary s) := by
  unfold execPeriodBoundary
  repeat' (first | with_reducible exact hk | with_reducible assumption | with_reducible apply switchReshapes_kept | with_reducible apply periodBoundary_kept | with_reducible apply KeptBy.next)

/-! ### Machine/PairControl -/

theorem execPairControlJoin_kept {K J : Bool} {c₀ : State} {s : State} (e : Sqe) (hk : Kept K J c₀ s) : KeptBy K J c₀ (execPairControlJoin e s) := by
  unfold execPairControlJoin
  repeat' (first | with_reducible exact hk | with_reducible assumption | with_reducible apply adminCmd_kept | with_reducible apply adminDone_kept | with_reducible apply KeptBy.next | with_reducible apply KeptBy.fault | with_reducible apply Kept.ite | with_reducible apply KeptBy.ite | intro _ | extract_lets | fail_if_no_progress with_reducible refine Kept.upd ?_ rfl rfl rfl)

theorem dissolve_kept {K : Bool} {c₀ : State} {s : State} (hk : Kept K false c₀ s) : Kept K false c₀ (dissolve s) := by
  unfold dissolve
  repeat' (first | with_reducible exact hk | with_reducible assumption | with_reducible apply deleteNs_kept | with_reducible apply Kept.ite | with_reducible apply Kept.foldl | with_reducible apply Kept.foldl_fst | with_reducible apply Kept.foldl_snd | intro _ | extract_lets | fail_if_no_progress with_reducible refine Kept.upd ?_ rfl rfl rfl)

theorem execPairControlUnpair_kept {K : Bool} {c₀ : State} {s : State} (e : Sqe) (hk : Kept K false c₀ s) : KeptBy K false c₀ (execPairControlUnpair e s) := by
  unfold execPairControlUnpair
  repeat' (first | with_reducible exact hk | with_reducible assumption | with_reducible apply adminCmd_kept | with_reducible apply adminDone_kept | with_reducible apply beginDeparture_kept | with_reducible apply updateAna_kept | with_reducible apply dissolve_kept | with_reducible apply KeptBy.next | with_reducible apply KeptBy.fault | with_reducible apply Kept.ite | with_reducible apply KeptBy.ite | intro _ | extract_lets | fail_if_no_progress with_reducible refine Kept.upd ?_ rfl rfl rfl)

theorem execPairControlTransfer_kept {K J : Bool} {c₀ : State} {s : State} (e : Sqe) (hk : Kept K J c₀ s) : KeptBy K J c₀ (execPairControlTransfer e s) := by
  unfold execPairControlTransfer
  repeat' (first | with_reducible exact hk | with_reducible assumption | with_reducible apply adminCmdAt_kept | with_reducible apply adminDone_kept | with_reducible apply tryOffer_kept | with_reducible apply startTransfer_kept | with_reducible apply carryAdmin_kept | with_reducible apply KeptBy.next | with_reducible apply KeptBy.fault | with_reducible apply Kept.ite | with_reducible apply KeptBy.ite | intro _ | extract_lets | fail_if_no_progress with_reducible refine Kept.upd ?_ rfl rfl rfl | split)

theorem execPairControlYield_kept {K J : Bool} {c₀ : State} {s : State} (e : Sqe) (hk : Kept K J c₀ s) : KeptBy K J c₀ (execPairControlYield e s) := by
  unfold execPairControlYield
  repeat' (first | with_reducible exact hk | with_reducible assumption | with_reducible apply adminCmd_kept | with_reducible apply adminDone_kept | with_reducible apply updateAna_kept | with_reducible apply setNs_kept | with_reducible apply KeptBy.next | with_reducible apply KeptBy.fault | with_reducible apply Kept.ite | with_reducible apply KeptBy.ite | intro _)

theorem execPairControlTake_kept {K J : Bool} {c₀ : State} {s : State} (e : Sqe) (hk : Kept K J c₀ s) : KeptBy K J c₀ (execPairControlTake e s) := by
  unfold execPairControlTake
  repeat' (first | with_reducible exact hk | with_reducible assumption | with_reducible apply adminCmd_kept | with_reducible apply adminDone_kept | with_reducible apply updateAna_kept | with_reducible apply takeNs_kept | with_reducible apply KeptBy.next | with_reducible apply KeptBy.fault | with_reducible apply Kept.ite | with_reducible apply KeptBy.ite | with_reducible apply Kept.foldl | with_reducible apply Kept.foldl_fst | with_reducible apply Kept.foldl_snd | intro _)

/-! ### Machine/Link -/

theorem execDeroftTrainingAttempt_kept {K J : Bool} {c₀ : State} {s : State} (hk : Kept K J c₀ s) : KeptBy K J c₀ (execDeroftTrainingAttempt s) := by
  unfold execDeroftTrainingAttempt
  repeat' (first | with_reducible exact hk | with_reducible assumption | with_reducible refine Kept.of_snd ?_ (by assumption) | with_reducible apply drawFree_kept | with_reducible apply KeptBy.next | with_reducible apply KeptBy.fault | with_reducible apply Kept.ite | with_reducible apply KeptBy.ite | intro _ | extract_lets | fail_if_no_progress with_reducible refine Kept.upd ?_ rfl rfl rfl)

theorem execDeroftTrainingStepTimeout_kept {K J : Bool} {c₀ : State} {s : State} (hk : Kept K J c₀ s) : KeptBy K J c₀ (execDeroftTrainingStepTimeout s) := by
  unfold execDeroftTrainingStepTimeout
  repeat' (first | with_reducible exact hk | with_reducible assumption | with_reducible apply KeptBy.next | with_reducible apply KeptBy.fault | with_reducible apply Kept.ite | with_reducible apply KeptBy.ite | intro _ | extract_lets | fail_if_no_progress with_reducible refine Kept.upd ?_ rfl rfl rfl)

theorem execDeroftLinkUp_kept {J : Bool} {c₀ : State} {s : State} (sets : List (Nat × List (BitVec 8))) (lanes64 : Nat) (lanes32 : Nat) (lanes16 : Nat) (hk : Kept false J c₀ s) : KeptBy false J c₀ (execDeroftLinkUp sets lanes64 lanes32 lanes16 s) := by
  unfold execDeroftLinkUp
  repeat' (first | with_reducible exact hk | with_reducible assumption | with_reducible apply toPairing_kept | with_reducible apply send_kept | with_reducible apply KeptBy.next | with_reducible apply KeptBy.fault | with_reducible apply Kept.ite | with_reducible apply KeptBy.ite | intro _ | extract_lets | fail_if_no_progress with_reducible refine Kept.upd ?_ rfl rfl rfl | fail_if_no_progress with_reducible refine Kept.updAny ?_ rfl rfl rfl rfl | split)

theorem execLaneFailure_kept {K J : Bool} {c₀ : State} {s : State} (lane : Nat) (hk : Kept K J c₀ s) : KeptBy K J c₀ (execLaneFailure lane s) := by
  unfold execLaneFailure
  repeat' (first | with_reducible exact hk | with_reducible assumption | with_reducible apply record_kept | with_reducible apply KeptBy.next | with_reducible apply KeptBy.fault | with_reducible apply Kept.ite | with_reducible apply KeptBy.ite | intro _ | extract_lets | fail_if_no_progress with_reducible refine Kept.upd ?_ rfl rfl rfl | split)

theorem returnCredits_kept {K J : Bool} {c₀ : State} {s : State} (hk : Kept K J c₀ s) : Kept K J c₀ (returnCredits s) := by
  unfold returnCredits
  repeat' (first | with_reducible exact hk | with_reducible assumption | with_reducible apply send_kept | intro _ | extract_lets | fail_if_no_progress with_reducible refine Kept.upd ?_ rfl rfl rfl)

theorem execFlitReceived_kept {K J : Bool} {c₀ : State} {s : State} (bytes : List (BitVec 8)) (hk : Kept K J c₀ s) : KeptBy K J c₀ (execFlitReceived bytes s) := by
  unfold execFlitReceived
  repeat' (first | with_reducible exact hk | with_reducible assumption | with_reducible apply returnCredits_kept | with_reducible apply KeptBy.next | with_reducible apply KeptBy.fault | with_reducible apply Kept.ite | with_reducible apply KeptBy.ite | intro _ | extract_lets | fail_if_no_progress with_reducible refine Kept.upd ?_ rfl rfl rfl)

theorem execReplayTimeout_kept {K J : Bool} {c₀ : State} {s : State} (hk : Kept K J c₀ s) : KeptBy K J c₀ (execReplayTimeout s) := by
  unfold execReplayTimeout
  repeat' (first | with_reducible exact hk | with_reducible assumption | with_reducible apply KeptBy.next | with_reducible apply KeptBy.fault | with_reducible apply Kept.ite | with_reducible apply KeptBy.ite | intro _ | extract_lets | fail_if_no_progress with_reducible refine Kept.upd ?_ rfl rfl rfl)

theorem execHeartbeatSend_kept {K J : Bool} {c₀ : State} {s : State} (hk : Kept K J c₀ s) : KeptBy K J c₀ (execHeartbeatSend s) := by
  unfold execHeartbeatSend
  repeat' (first | with_reducible exact hk | with_reducible assumption | with_reducible apply send_kept | with_reducible apply KeptBy.next | with_reducible apply KeptBy.fault | with_reducible apply Kept.ite | with_reducible apply KeptBy.ite | intro _ | extract_lets | fail_if_no_progress with_reducible refine Kept.upd ?_ rfl rfl rfl)

theorem execHeartbeat_kept {K J : Bool} {c₀ : State} {s : State} (h : MsgHdr) (b : Beat) (hk : Kept K J c₀ s) : KeptBy K J c₀ (execHeartbeat h b s) := by
  unfold execHeartbeat
  repeat' (first | with_reducible exact hk | with_reducible assumption | with_reducible apply KeptBy.next | with_reducible apply KeptBy.fault | with_reducible apply Kept.ite | with_reducible apply KeptBy.ite | intro _ | extract_lets | fail_if_no_progress with_reducible refine Kept.upd ?_ rfl rfl rfl)

theorem execCreditReturn_kept {K J : Bool} {c₀ : State} {s : State} (hk : Kept K J c₀ s) : KeptBy K J c₀ (execCreditReturn s) := by
  unfold execCreditReturn
  repeat' (first | with_reducible exact hk | with_reducible assumption | with_reducible apply returnCredits_kept | with_reducible apply KeptBy.next | with_reducible apply KeptBy.fault | with_reducible apply Kept.ite | with_reducible apply KeptBy.ite | intro _)

theorem execCredit_kept {K J : Bool} {c₀ : State} {s : State} (h : MsgHdr) (pri : Nat) (bulk : Nat) (hk : Kept K J c₀ s) : KeptBy K J c₀ (execCredit h pri bulk s) := by
  unfold execCredit
  repeat' (first | with_reducible exact hk | with_reducible assumption | with_reducible apply KeptBy.next | with_reducible apply KeptBy.fault | with_reducible apply Kept.ite | with_reducible apply KeptBy.ite | intro _ | extract_lets | fail_if_no_progress with_reducible refine Kept.upd ?_ rfl rfl rfl)

theorem execShareUpdateSend_kept {K J : Bool} {c₀ : State} {s : State} (func : Nat) (hk : Kept K J c₀ s) : KeptBy K J c₀ (execShareUpdateSend func s) := by
  unfold execShareUpdateSend
  repeat' (first | with_reducible exact hk | with_reducible assumption | with_reducible apply send_kept | with_reducible apply KeptBy.next | with_reducible apply KeptBy.fault | with_reducible apply Kept.ite | with_reducible apply KeptBy.ite | intro _ | extract_lets | fail_if_no_progress with_reducible refine Kept.upd ?_ rfl rfl rfl)

theorem execSenseFaultSet_kept {K J : Bool} {c₀ : State} {s : State} (hk : Kept K J c₀ s) : KeptBy K J c₀ (execSenseFaultSet s) := by
  unfold execSenseFaultSet
  repeat' (first | with_reducible exact hk | with_reducible assumption | with_reducible apply raiseAll_kept | with_reducible apply record_kept | with_reducible apply KeptBy.next | with_reducible apply KeptBy.fault | with_reducible apply Kept.ite | with_reducible apply KeptBy.ite | intro _ | extract_lets | fail_if_no_progress with_reducible refine Kept.upd ?_ rfl rfl rfl)

theorem execSenseFaultClear_kept {K J : Bool} {c₀ : State} {s : State} (hk : Kept K J c₀ s) : KeptBy K J c₀ (execSenseFaultClear s) := by
  unfold execSenseFaultClear
  repeat' (first | with_reducible exact hk | with_reducible assumption | with_reducible apply raiseAll_kept | with_reducible apply record_kept | with_reducible apply KeptBy.next | with_reducible apply KeptBy.fault | with_reducible apply Kept.ite | with_reducible apply KeptBy.ite | intro _ | extract_lets | fail_if_no_progress with_reducible refine Kept.upd ?_ rfl rfl rfl)

theorem refusePairing_kept {J : Bool} {c₀ : State} {s : State} (cause : Nat) (hk : Kept false J c₀ s) : Kept false J c₀ (refusePairing s cause) := by
  unfold refusePairing
  repeat' (first | with_reducible exact hk | with_reducible assumption | with_reducible apply refuse_kept | with_reducible apply raiseAll_kept | with_reducible apply updateAna_kept | with_reducible apply toMode_kept | with_reducible apply record_kept | with_reducible apply Kept.ite | with_reducible apply Kept.elim | intro _ | extract_lets | fail_if_no_progress with_reducible refine Kept.upd ?_ rfl rfl rfl)

theorem execPeerLost_kept {J : Bool} {c₀ : State} {s : State} (hk : Kept false J c₀ s) : KeptBy false J c₀ (execPeerLost s) := by
  unfold execPeerLost
  repeat' (first | with_reducible exact hk | with_reducible assumption | with_reducible apply refusePairing_kept | with_reducible apply KeptBy.next | with_reducible apply KeptBy.fault | with_reducible apply Kept.ite | with_reducible apply KeptBy.ite | intro _ | extract_lets | fail_if_no_progress with_reducible refine Kept.upd ?_ rfl rfl rfl)

theorem execLossDecision_kept {c₀ : State} {s : State} (samples : List Bool) (hk : Kept false false c₀ s) : KeptBy false false c₀ (execLossDecision samples s) := by
  unfold execLossDecision
  repeat' (first | with_reducible exact hk | with_reducible assumption | with_reducible apply loseTwin_kept | with_reducible apply KeptBy.next | with_reducible apply KeptBy.fault | with_reducible apply Kept.ite | with_reducible apply KeptBy.ite | intro _)

theorem execPairingTimeout_kept {J : Bool} {c₀ : State} {s : State} (step : Nat) (hk : Kept false J c₀ s) : KeptBy false J c₀ (execPairingTimeout step s) := by
  unfold execPairingTimeout
  repeat' (first | with_reducible exact hk | with_reducible assumption | with_reducible apply refusePairing_kept | with_reducible apply KeptBy.next | with_reducible apply KeptBy.fault | with_reducible apply Kept.ite | with_reducible apply KeptBy.ite | intro _)

theorem integrityFault_kept {K J : Bool} {c₀ : State} {s : State} (cls : Nat) (hk : Kept K J c₀ s) : Kept K J c₀ (integrityFault s cls) := by
  unfold integrityFault
  repeat' (first | with_reducible exact hk | with_reducible assumption | with_reducible apply capture_kept | with_reducible apply record_kept | with_reducible apply raiseAll_kept | with_reducible apply Kept.ite | intro _ | extract_lets | fail_if_no_progress with_reducible refine Kept.upd ?_ rfl rfl rfl)

theorem notePhase_kept {K J : Bool} {c₀ : State} {s : State} (cls : Nat) (phase : Bool) (hk : Kept K J c₀ s) : Kept K J c₀ (notePhase s cls phase) := by
  unfold notePhase
  repeat' (first | with_reducible exact hk | with_reducible assumption | with_reducible apply Kept.ite | intro _ | extract_lets | fail_if_no_progress with_reducible refine Kept.upd ?_ rfl rfl rfl)

theorem discard_kept {K J : Bool} {c₀ : State} {s : State} (h : MsgHdr) (hk : Kept K J c₀ s) : Kept K J c₀ (discard s h) := by
  unfold discard
  repeat' (first | with_reducible exact hk | with_reducible assumption | with_reducible apply record_kept)

theorem peerMsg_kept {K J : Bool} {c₀ : State} {s : State} (h : MsgHdr) (typs : List Nat) (f : State → State) (hk : Kept K J c₀ s) (k_f : ∀ s, Kept K J c₀ s → Kept K J c₀ (f s)) : KeptBy K J c₀ (peerMsg s h typs f) := by
  unfold peerMsg
  repeat' (first | with_reducible exact hk | with_reducible assumption | with_reducible apply integrityFault_kept | with_reducible apply notePhase_kept | with_reducible apply discard_kept | with_reducible apply k_f | with_reducible apply KeptBy.next | with_reducible apply KeptBy.fault | with_reducible apply Kept.ite | with_reducible apply KeptBy.ite | intro _)

theorem pairingMsg_kept {K J : Bool} {c₀ : State} {s : State} (h : MsgHdr) (typs : List Nat) (f : State → State) (hk : Kept K J c₀ s) (k_f : ∀ s, Kept K J c₀ s → Kept K J c₀ (f s)) : KeptBy K J c₀ (pairingMsg s h typs f) := by
  unfold pairingMsg
  repeat' (first | with_reducible exact hk | with_reducible assumption | with_reducible apply peerMsg_kept | with_reducible apply integrityFault_kept | with_reducible apply notePhase_kept | with_reducible apply discard_kept | with_reducible apply k_f | with_reducible apply KeptBy.next | with_reducible apply KeptBy.fault | with_reducible apply Kept.ite | with_reducible apply KeptBy.ite | intro _)

/-! ### Machine/Pairing -/

theorem attest_kept {K J : Bool} {c₀ : State} {s : State} (hk : Kept K J c₀ s) : Kept K J c₀ (attest s) := by
  unfold attest
  repeat' (first | with_reducible exact hk | with_reducible assumption | with_reducible apply send_kept | with_reducible apply Kept.foldl | intro _)

theorem execHello_kept {J : Bool} {c₀ : State} {s : State} (h : MsgHdr) (b : Hello) (hk : Kept false J c₀ s) : KeptBy false J c₀ (execHello h b s) := by
  unfold execHello
  repeat' (first | with_reducible exact hk | with_reducible assumption | with_reducible apply refusePairing_kept | with_reducible apply attest_kept | with_reducible apply KeptBy.next | with_reducible apply KeptBy.fault | with_reducible apply Kept.ite | with_reducible apply KeptBy.ite | intro _ | extract_lets | fail_if_no_progress with_reducible refine Kept.upd ?_ rfl rfl rfl | fail_if_no_progress with_reducible refine Kept.updAny ?_ rfl rfl rfl rfl | split)

theorem drawSalt_kept {K J : Bool} {c₀ : State} {s : State} (hk : Kept K J c₀ s) : Kept K J c₀ (drawSalt s).2 := by
  unfold drawSalt
  repeat' (first | with_reducible exact hk | with_reducible assumption | with_reducible apply drawFree_kept)

theorem renewKeys_kept {K J : Bool} {c₀ : State} {s : State} (hk : Kept K J c₀ s) : Kept K J c₀ (renewKeys s) := by
  unfold renewKeys
  repeat' (first | with_reducible exact hk | with_reducible assumption | with_reducible refine Kept.of_snd ?_ (by assumption) | with_reducible apply drawKey_kept | with_reducible apply drawSalt_kept | intro _ | extract_lets | fail_if_no_progress with_reducible refine Kept.upd ?_ rfl rfl rfl)

theorem updateKeys_kept {K J : Bool} {c₀ : State} {s : State} (hk : Kept K J c₀ s) : Kept K J c₀ (updateKeys s) := by
  unfold updateKeys
  repeat' (first | with_reducible exact hk | with_reducible assumption | with_reducible apply renewKeys_kept | intro _ | extract_lets | fail_if_no_progress with_reducible refine Kept.upd ?_ rfl rfl rfl)

theorem sessionKeys_kept {K J : Bool} {c₀ : State} {s : State} (hk : Kept K J c₀ s) : Kept K J c₀ (sessionKeys s) := by
  unfold sessionKeys
  repeat' (first | with_reducible exact hk | with_reducible assumption | with_reducible apply renewKeys_kept | intro _ | extract_lets | fail_if_no_progress with_reducible refine Kept.upd ?_ rfl rfl rfl)

theorem execKeyUpdateDue_kept {K J : Bool} {c₀ : State} {s : State} (hk : Kept K J c₀ s) : KeptBy K J c₀ (execKeyUpdateDue s) := by
  unfold execKeyUpdateDue
  repeat' (first | with_reducible exact hk | with_reducible assumption | with_reducible apply updateKeys_kept | with_reducible apply send_kept | with_reducible apply KeptBy.next | with_reducible apply KeptBy.fault | with_reducible apply Kept.ite | with_reducible apply KeptBy.ite | intro _)

theorem refuseDiverged_kept {J : Bool} {c₀ : State} {s : State} (hk : Kept false J c₀ s) : Kept false J c₀ (refuseDiverged s) := by
  unfold refuseDiverged
  repeat' (first | with_reducible exact hk | with_reducible assumption | with_reducible apply refusePairing_kept | intro _ | extract_lets | fail_if_no_progress with_reducible refine Kept.upd ?_ rfl rfl rfl)

theorem carryPairing_kept {K J : Bool} {c₀ : State} {s : State} (nsid : Nat) (body : List Nat) (hk : Kept K J c₀ s) : Kept K J c₀ (carryPairing s nsid body) := by
  unfold carryPairing
  repeat' (first | with_reducible exact hk | with_reducible assumption | with_reducible apply carryAdmin_kept | with_reducible apply Kept.ite | intro _)

theorem carryKeys_kept {K J : Bool} {c₀ : State} {s : State} (nsid : Nat) (n : Ns) (hk : Kept K J c₀ s) : Kept K J c₀ (carryKeys s nsid n) := by
  unfold carryKeys
  repeat' (first | with_reducible exact hk | with_reducible assumption | with_reducible apply carryPairing_kept | with_reducible apply Kept.ite | with_reducible apply Kept.foldl | with_reducible apply Kept.foldl_fst | with_reducible apply Kept.foldl_snd | intro _)

theorem carryMissing_kept {J : Bool} {c₀ : State} {s : State} (nsid : Nat) (hk : Kept false J c₀ s) : Kept false J c₀ (carryMissing s nsid) := by
  unfold carryMissing
  repeat' (first | with_reducible exact hk | with_reducible assumption | with_reducible apply carryPairing_kept | with_reducible apply refuseDiverged_kept | with_reducible apply renumber_kept | with_reducible apply Kept.ite | intro _ | extract_lets | split)

theorem carryAll_kept {J : Bool} {c₀ : State} {s : State} (hk : Kept false J c₀ s) : Kept false J c₀ (carryAll s) := by
  unfold carryAll
  repeat' (first | with_reducible exact hk | with_reducible assumption | with_reducible apply carryMissing_kept | with_reducible apply carryKeys_kept | with_reducible apply Kept.ite | with_reducible apply Kept.foldl | with_reducible apply Kept.foldl_fst | with_reducible apply Kept.foldl_snd | intro _)

theorem newPairId_kept {K J : Bool} {c₀ : State} {s : State} (b : Hello) (hk : Kept K J c₀ s) : Kept K J c₀ (newPairId s b).2 := by
  unfold newPairId
  repeat' (first | with_reducible exact hk | with_reducible assumption | with_reducible apply drawFree_kept | with_reducible apply Kept.ite | intro _ | extract_lets | split)

theorem commitNs_kept {K : Bool} {c₀ : State} {s : State} (nsid : Nat) (hk : Kept K false c₀ s) : Kept K false c₀ (commitNs s nsid) := by
  unfold commitNs
  repeat' (first | with_reducible exact hk | with_reducible assumption | with_reducible apply deleteNs_kept | with_reducible apply emptyNs_kept | with_reducible apply setNs_kept | with_reducible apply Kept.ite | intro _)

theorem sendSummary_kept {K J : Bool} {c₀ : State} {s : State} (hk : Kept K J c₀ s) : Kept K J c₀ (sendSummary s) := by
  unfold sendSummary
  repeat' (first | with_reducible exact hk | with_reducible assumption | with_reducible apply send_kept | intro _ | extract_lets | split)

theorem commit_kept {c₀ : State} {s : State} (hk : Kept false false c₀ s) : Kept false false c₀ (commit s) := by
  unfold commit
  repeat' (first | with_reducible exact fun _ _ => rfl | with_reducible exact hk | with_reducible assumption | with_reducible refine Kept.of_snd ?_ (by assumption) | with_reducible apply newPairId_kept | with_reducible apply drawFree_kept | with_reducible apply commitNs_kept | with_reducible apply toMode_kept | with_reducible apply record_kept | with_reducible apply setFlags_kept | with_reducible apply raiseAll_kept | with_reducible apply sendSummary_kept | with_reducible apply Kept.ite | with_reducible apply Kept.foldl | with_reducible apply Kept.foldl_fst | with_reducible apply Kept.foldl_snd | intro _ | extract_lets | fail_if_no_progress with_reducible refine Kept.upd ?_ rfl rfl rfl | fail_if_no_progress with_reducible refine Kept.updAny ?_ rfl rfl rfl rfl | split)

theorem setAcc_kept {K J : Bool} {c₀ : State} {s : State} (i : Nat) (hk : Kept K J c₀ s) : Kept K J c₀ (setAcc s i) := by
  unfold setAcc
  repeat' (first | with_reducible exact hk | with_reducible assumption | intro _ | extract_lets | fail_if_no_progress with_reducible refine Kept.upd ?_ rfl rfl rfl)

theorem endAgreement_kept {K J : Bool} {c₀ : State} {s : State} (hk : Kept K J c₀ s) : Kept K J c₀ (endAgreement s) := by
  unfold endAgreement
  repeat' (first | with_reducible exact hk | with_reducible assumption | with_reducible apply setAcc_kept | with_reducible apply send_kept | with_reducible apply Kept.ite | intro _ | extract_lets | fail_if_no_progress with_reducible refine Kept.upd ?_ rfl rfl rfl)

theorem pairOn_kept {J : Bool} {c₀ : State} {s : State} (hk : Kept false J c₀ s) : Kept false J c₀ (pairOn s) := by
  unfold pairOn
  repeat' (first | with_reducible exact hk | with_reducible assumption | with_reducible apply refuseDiverged_kept | with_reducible apply send_kept | with_reducible apply endAgreement_kept | with_reducible apply carryAll_kept | with_reducible apply setAcc_kept | with_reducible apply Kept.ite | intro _)

theorem helloConfirmed_kept {J : Bool} {c₀ : State} {s : State} (c : Hello) (hk : Kept false J c₀ s) : Kept false J c₀ (helloConfirmed s c) := by
  unfold helloConfirmed
  repeat' (first | with_reducible exact hk | with_reducible assumption | with_reducible apply refusePairing_kept | with_reducible apply pairOn_kept | with_reducible apply send_kept | with_reducible apply Kept.ite | intro _ | extract_lets | fail_if_no_progress with_reducible refine Kept.upd ?_ rfl rfl rfl)

theorem resultTaken_kept {J : Bool} {c₀ : State} {s : State} (ok : Bool) (hk : Kept false J c₀ s) : Kept false J c₀ (resultTaken s ok) := by
  unfold resultTaken
  repeat' (first | with_reducible exact hk | with_reducible assumption | with_reducible apply refuseDiverged_kept | with_reducible apply send_kept | with_reducible apply pairOn_kept | with_reducible apply setAcc_kept | with_reducible apply Kept.ite | intro _ | extract_lets | fail_if_no_progress with_reducible refine Kept.upd ?_ rfl rfl rfl)

theorem execPairingTable_kept {J : Bool} {c₀ : State} {s : State} (h : MsgHdr) (copy : Option Hello) (entries : List PtEntry) (result : Option Bool) (hk : Kept false J c₀ s) : KeptBy false J c₀ (execPairingTable h copy entries result s) := by
  unfold execPairingTable
  repeat' (first | with_reducible exact hk | with_reducible assumption | with_reducible apply peerMsg_kept | with_reducible apply pairingMsg_kept | with_reducible apply helloConfirmed_kept | with_reducible apply resultTaken_kept | with_reducible apply pairOn_kept | with_reducible apply setAcc_kept | with_reducible apply KeptBy.next | with_reducible apply KeptBy.fault | with_reducible apply Kept.ite | with_reducible apply KeptBy.ite | intro _ | extract_lets | fail_if_no_progress with_reducible refine Kept.upd ?_ rfl rfl rfl | fail_if_no_progress with_reducible refine Kept.updAny ?_ rfl rfl rfl rfl | split)

theorem execNoticePairingCommit_kept {c₀ : State} {s : State} (h : MsgHdr) (hk : Kept false false c₀ s) : KeptBy false false c₀ (execNoticePairingCommit h s) := by
  unfold execNoticePairingCommit
  repeat' (first | with_reducible exact hk | with_reducible assumption | with_reducible apply peerMsg_kept | with_reducible apply pairingMsg_kept | with_reducible apply commit_kept | with_reducible apply send_kept | with_reducible apply KeptBy.next | with_reducible apply KeptBy.fault | with_reducible apply Kept.ite | with_reducible apply KeptBy.ite | intro _)

/-! ### Machine/Peer -/

theorem storeCopy_kept {K J : Bool} {c₀ : State} {s : State} (r : VRec) (level : Bool) (hk : Kept K J c₀ s) : Kept K J c₀ (storeCopy s r level) := by
  unfold storeCopy
  repeat' (first | with_reducible exact hk | with_reducible assumption | with_reducible refine Kept.of_fst ?_ (by assumption) | with_reducible apply formRecord_kept | with_reducible apply stageRec_kept | with_reducible apply Kept.ite | intro _)

theorem takeFormat_kept {K : Bool} {c₀ : State} {s : State} (b : MirrorBody) (hk : Kept K false c₀ s) : Kept K false c₀ (takeFormat s b) := by
  unfold takeFormat
  repeat' (first | with_reducible exact hk | with_reducible assumption | with_reducible apply nsRecord_kept | with_reducible apply ackMirror_kept | with_reducible apply switchErase_kept)

theorem takeMirror_kept {K : Bool} {c₀ : State} {s : State} (h : MsgHdr) (b : MirrorBody) (hk : Kept K false c₀ s) : Kept K false c₀ (takeMirror s h b) := by
  unfold takeMirror
  repeat' (first | with_reducible exact hk | with_reducible assumption | with_reducible refine Kept.of_ok ?_ (by assumption) | with_reducible apply discard_kept | with_reducible apply takeFormat_kept | with_reducible apply ackMirror_kept | with_reducible apply storeCopy_kept | with_reducible apply takeCopy_kept | with_reducible apply send_kept | with_reducible apply KeptOk.ok | with_reducible apply KeptOk.error | with_reducible apply Kept.ite | intro _ | extract_lets | split)

theorem execMirrorRecord_kept {K : Bool} {c₀ : State} {s : State} (h : MsgHdr) (b : MirrorBody) (hk : Kept K false c₀ s) : KeptBy K false c₀ (execMirrorRecord h b s) := by
  unfold execMirrorRecord
  repeat' (first | with_reducible exact hk | with_reducible assumption | with_reducible apply peerMsg_kept | with_reducible apply takeMirror_kept | with_reducible apply KeptBy.next | with_reducible apply KeptBy.fault | intro _)

theorem acknowledge_kept {K : Bool} {c₀ : State} {s : State} (q : Nat) (hk : Kept K false c₀ s) : Kept K false c₀ (acknowledge s q) := by
  unfold acknowledge
  repeat' (first | with_reducible exact hk | with_reducible assumption | with_reducible apply recordSettled_kept | with_reducible apply nsSettled_kept | with_reducible apply setRec_kept)

theorem execMirrorAcknowledgement_kept {K : Bool} {c₀ : State} {s : State} (h : MsgHdr) (oseq : Nat) (func : Nat) (share : Nat) (hk : Kept K false c₀ s) : KeptBy K false c₀ (execMirrorAcknowledgement h oseq func share s) := by
  unfold execMirrorAcknowledgement
  repeat' (first | with_reducible exact hk | with_reducible assumption | with_reducible apply peerMsg_kept | with_reducible apply tryOffer_kept | with_reducible apply tryDepart_kept | with_reducible apply acknowledge_kept | with_reducible apply KeptBy.next | with_reducible apply KeptBy.fault | with_reducible apply Kept.foldl | intro _ | extract_lets | fail_if_no_progress with_reducible refine Kept.upd ?_ rfl rfl rfl)

theorem execShareUpdate_kept {K J : Bool} {c₀ : State} {s : State} (h : MsgHdr) (func : Nat) (share : Nat) (drain : Nat) (hk : Kept K J c₀ s) : KeptBy K J c₀ (execShareUpdate h func share drain s) := by
  unfold execShareUpdate
  repeat' (first | with_reducible exact hk | with_reducible assumption | with_reducible apply peerMsg_kept | with_reducible apply KeptBy.next | with_reducible apply KeptBy.fault | intro _ | extract_lets | fail_if_no_progress with_reducible refine Kept.upd ?_ rfl rfl rfl)

theorem execDrop_kept {K : Bool} {c₀ : State} {s : State} (h : MsgHdr) (oseq : Nat) (hk : Kept K false c₀ s) : KeptBy K false c₀ (execDrop h oseq s) := by
  unfold execDrop
  repeat' (first | with_reducible exact hk | with_reducible assumption | with_reducible apply peerMsg_kept | with_reducible apply dropCopy_kept | with_reducible apply KeptBy.next | with_reducible apply KeptBy.fault | with_reducible apply Kept.foldl | with_reducible apply Kept.foldl_fst | with_reducible apply Kept.foldl_snd | intro _)

theorem unplaceZone_kept {K : Bool} {c₀ : State} {s : State} (r : VRec) (hk : Kept K false c₀ s) : Kept K false c₀ (unplaceZone s r) := by
  unfold unplaceZone
  repeat' (first | with_reducible exact hk | with_reducible assumption | with_reducible apply emptyZone_kept | with_reducible apply setZone_kept | with_reducible apply Kept.ite | intro _ | extract_lets | fail_if_no_progress with_reducible refine Kept.upd ?_ rfl rfl rfl | split)

theorem failRec_kept {K J : Bool} {c₀ : State} {s : State} (q : Nat) (r : VRec) (st : Status) (hk : Kept K J c₀ s) : Kept K J c₀ (failRec s q r st) := by
  unfold failRec
  repeat' (first | with_reducible exact hk | with_reducible assumption | with_reducible apply zopResult_kept | with_reducible apply finish_kept | with_reducible apply Kept.ite | with_reducible apply Kept.elim | intro _ | extract_lets | fail_if_no_progress with_reducible refine Kept.upd ?_ rfl rfl rfl)

theorem refusedByTwin_kept {K : Bool} {c₀ : State} {s : State} (tag : Nat) (st : Status) (hk : Kept K false c₀ s) : Kept K false c₀ (refusedByTwin s tag st) := by
  unfold refusedByTwin
  repeat' (first | with_reducible exact hk | with_reducible assumption | with_reducible apply failRec_kept | with_reducible apply send_kept | with_reducible apply unplaceZone_kept | with_reducible apply Kept.foldl | with_reducible apply Kept.foldl_fst | with_reducible apply Kept.foldl_snd | intro _ | extract_lets | split)

theorem answerForward_kept {K J : Bool} {c₀ : State} {s : State} (h : MsgHdr) (st : Status) (dw0 : Nat) (hk : Kept K J c₀ s) : Kept K J c₀ (answerForward s h st dw0) := by
  unfold answerForward
  repeat' (first | with_reducible exact hk | with_reducible assumption | with_reducible apply send_kept)

theorem takeForwarded_kept {K : Bool} {c₀ : State} {s : State} (h : MsgHdr) (op : IoOp) (e : Io) (cls : LClass) (stamp : Nat) (deadline : Nat) (claim : Nat) (all : Bool) (hk : Kept K false c₀ s) : Kept K false c₀ (takeForwarded s h op e cls stamp deadline claim all) := by
  unfold takeForwarded
  repeat' (first | with_reducible exact hk | with_reducible assumption | with_reducible refine Kept.of_snd ?_ (by assumption) | with_reducible apply answerForward_kept | with_reducible apply drawFree_kept | with_reducible apply carryOut_kept | with_reducible apply Kept.ite | intro _ | extract_lets | fail_if_no_progress with_reducible refine Kept.upd ?_ rfl rfl rfl | split)

theorem execForwardedCommand_kept {K : Bool} {c₀ : State} {s : State} (h : MsgHdr) (op : Nat) (e : Io) (cls : Nat) (stamp : Nat) (deadline : Nat) (claim : Nat) (all : Bool) (hk : Kept K false c₀ s) : KeptBy K false c₀ (execForwardedCommand h op e cls stamp deadline claim all s) := by
  unfold execForwardedCommand
  repeat' (first | with_reducible exact hk | with_reducible assumption | with_reducible apply integrityFault_kept | with_reducible apply notePhase_kept | with_reducible apply answerForward_kept | with_reducible apply takeForwarded_kept | with_reducible apply KeptBy.next | with_reducible apply KeptBy.fault | with_reducible apply Kept.ite | with_reducible apply KeptBy.ite | intro _ | extract_lets | split)

theorem endForwardedZop_kept {K J : Bool} {c₀ : State} {s : State} (slot : Nat) (c : Cmd) (st : Status) (hk : Kept K J c₀ s) : Kept K J c₀ (endForwardedZop s slot c st) := by
  unfold endForwardedZop
  repeat' (first | with_reducible exact hk | with_reducible assumption | with_reducible apply setZop_kept | with_reducible apply finish_kept)

theorem forwardDone_kept {K J : Bool} {c₀ : State} {s : State} (slot : Nat) (c : Cmd) (st : Status) (dw0 : Nat) (dw1 : Nat) (data : List Nat) (hk : Kept K J c₀ s) : Kept K J c₀ (forwardDone s slot c st dw0 dw1 data) := by
  unfold forwardDone
  repeat' (first | with_reducible exact hk | with_reducible assumption | with_reducible apply startXts_kept | with_reducible apply takeBufs_kept | with_reducible apply setCmd_kept | with_reducible apply endForwardedZop_kept | with_reducible apply finish_kept | with_reducible apply Kept.ite | with_reducible apply Kept.elim | intro _)

theorem adminReply_kept {K : Bool} {c₀ : State} {s : State} (tag : Nat) (code : Nat) (st : Status) (dw0 : Nat) (hk : Kept K false c₀ s) : Kept K false c₀ (adminReply s tag code st dw0) := by
  unfold adminReply
  repeat' (first | with_reducible exact hk | with_reducible assumption | with_reducible apply adminAnswer_kept | intro _ | extract_lets | fail_if_no_progress with_reducible refine Kept.upd ?_ rfl rfl rfl | split)

theorem pairingReply_kept {J : Bool} {c₀ : State} {s : State} (tag : Nat) (st : Status) (hk : Kept false J c₀ s) : Kept false J c₀ (pairingReply s tag st) := by
  unfold pairingReply
  repeat' (first | with_reducible exact hk | with_reducible assumption | with_reducible apply pairOn_kept | with_reducible apply refuseDiverged_kept | with_reducible apply send_kept | with_reducible apply Kept.ite | intro _ | extract_lets | fail_if_no_progress with_reducible refine Kept.upd ?_ rfl rfl rfl)

theorem execForwardedCompletion_kept {c₀ : State} {s : State} (h : MsgHdr) (status : Nat) (dw0 : Nat) (dw1 : Nat) (data : List Nat) (hk : Kept false false c₀ s) : KeptBy false false c₀ (execForwardedCompletion h status dw0 dw1 data s) := by
  unfold execForwardedCompletion
  repeat' (first | with_reducible exact hk | with_reducible assumption | with_reducible apply pairingMsg_kept | with_reducible apply discard_kept | with_reducible apply pairingReply_kept | with_reducible apply forwardDone_kept | with_reducible apply adminReply_kept | with_reducible apply KeptBy.next | with_reducible apply KeptBy.fault | with_reducible apply Kept.ite | with_reducible apply KeptBy.ite | intro _ | extract_lets | split)

theorem endResync_kept {K J : Bool} {c₀ : State} {s : State} (hk : Kept K J c₀ s) : Kept K J c₀ (endResync s) := by
  unfold endResync
  repeat' (first | with_reducible exact fun _ _ => rfl | with_reducible exact hk | with_reducible assumption | with_reducible apply setFlags_kept | with_reducible apply Kept.ite | intro _ | extract_lets | fail_if_no_progress with_reducible refine Kept.upd ?_ rfl rfl rfl)

theorem frameDone_kept {K J : Bool} {c₀ : State} {s : State} (f : Frame) (hk : Kept K J c₀ s) : Kept K J c₀ (frameDone s f) := by
  unfold frameDone
  repeat' (first | with_reducible exact hk | with_reducible assumption | with_reducible apply setNs_kept | with_reducible apply addWork_kept | with_reducible apply endResync_kept | with_reducible apply switchReshapes_kept | with_reducible apply pump_kept | with_reducible apply Kept.ite | intro _ | extract_lets | fail_if_no_progress with_reducible refine Kept.upd ?_ rfl rfl rfl)

theorem zoneSettled_kept {K J : Bool} {c₀ : State} {s : State} (c : Cmd) (i : Nat) (st : Status) (hk : Kept K J c₀ s) : Kept K J c₀ (zoneSettled s c i st) := by
  unfold zoneSettled
  repeat' (first | with_reducible exact hk | with_reducible assumption | with_reducible apply setZop_kept)

theorem execZoneConfirmation_kept {K : Bool} {c₀ : State} {s : State} (h : MsgHdr) (zone : Nat) (status : Nat) (hk : Kept K false c₀ s) : KeptBy K false c₀ (execZoneConfirmation h zone status s) := by
  unfold execZoneConfirmation
  repeat' (first | with_reducible exact hk | with_reducible assumption | with_reducible apply peerMsg_kept | with_reducible apply discard_kept | with_reducible apply refusedByTwin_kept | with_reducible apply frameDone_kept | with_reducible apply zoneSettled_kept | with_reducible apply noteMove_kept | with_reducible apply KeptBy.next | with_reducible apply KeptBy.fault | with_reducible apply Kept.ite | with_reducible apply KeptBy.ite | with_reducible apply Kept.elim | with_reducible apply KeptBy.elim | intro _ | extract_lets | split)

theorem execAllotmentGrant_kept {K J : Bool} {c₀ : State} {s : State} (h : MsgHdr) (period : Nat) (grants : List (Nat × Nat × Nat)) (hk : Kept K J c₀ s) : KeptBy K J c₀ (execAllotmentGrant h period grants s) := by
  unfold execAllotmentGrant
  repeat' (first | with_reducible exact hk | with_reducible assumption | with_reducible apply peerMsg_kept | with_reducible apply KeptBy.next | with_reducible apply KeptBy.fault | intro _ | extract_lets | fail_if_no_progress with_reducible refine Kept.upd ?_ rfl rfl rfl)

theorem disposeForTwin_kept {K J : Bool} {c₀ : State} {s : State} (slot : Nat) (c : Cmd) (hk : Kept K J c₀ s) : Kept K J c₀ (disposeForTwin s slot c) := by
  unfold disposeForTwin
  repeat' (first | with_reducible exact hk | with_reducible assumption | with_reducible apply finish_kept | with_reducible apply undo_kept | intro _ | extract_lets | split)

theorem execDispose_kept {K J : Bool} {c₀ : State} {s : State} (h : MsgHdr) (tag : Nat) (hk : Kept K J c₀ s) : KeptBy K J c₀ (execDispose h tag s) := by
  unfold execDispose
  repeat' (first | with_reducible exact hk | with_reducible assumption | with_reducible apply peerMsg_kept | with_reducible apply disposeForTwin_kept | with_reducible apply KeptBy.next | with_reducible apply KeptBy.fault | intro _ | extract_lets | split)

/-! ### Machine/Handover -/

theorem takeEpoch_kept {K J : Bool} {c₀ : State} {s : State} (epoch : Nat) (hk : Kept K J c₀ s) : Kept K J c₀ (takeEpoch s epoch) := by
  unfold takeEpoch
  repeat' (first | with_reducible exact hk | with_reducible assumption | intro _ | extract_lets | fail_if_no_progress with_reducible refine Kept.upd ?_ rfl rfl rfl)

theorem execHandoverOffer_kept {K : Bool} {c₀ : State} {s : State} (h : MsgHdr) (nsid : Nat) (oseq : Nat) (epoch : Nat) (hk : Kept K false c₀ s) : KeptBy K false c₀ (execHandoverOffer h nsid oseq epoch s) := by
  unfold execHandoverOffer
  repeat' (first | with_reducible exact hk | with_reducible assumption | with_reducible apply peerMsg_kept | with_reducible apply discard_kept | with_reducible apply send_kept | with_reducible apply releaseAllHeld_kept | with_reducible apply updateAna_kept | with_reducible apply takeNs_kept | with_reducible apply takeEpoch_kept | with_reducible apply KeptBy.next | with_reducible apply KeptBy.fault | with_reducible apply Kept.ite | with_reducible apply KeptBy.ite | intro _ | extract_lets | split)

theorem afterTransfer_kept {K J : Bool} {c₀ : State} {s : State} (nsid : Nat) (hk : Kept K J c₀ s) : Kept K J c₀ (afterTransfer s nsid) := by
  unfold afterTransfer
  repeat' (first | with_reducible exact hk | with_reducible assumption | with_reducible apply endReshape_kept | with_reducible apply carryAdmin_kept | with_reducible apply Kept.ite | intro _ | extract_lets | fail_if_no_progress with_reducible refine Kept.upd ?_ rfl rfl rfl | split)

theorem endTransfer_kept {K J : Bool} {c₀ : State} {s : State} (hk : Kept K J c₀ s) : Kept K J c₀ (endTransfer s) := by
  unfold endTransfer
  repeat' (first | with_reducible exact hk | with_reducible assumption | with_reducible apply answerTwin_kept | with_reducible apply completeFor_kept | with_reducible apply Kept.ite | with_reducible apply Kept.elim | intro _ | extract_lets | fail_if_no_progress with_reducible refine Kept.upd ?_ rfl rfl rfl)

theorem execHandoverTaken_kept {K J : Bool} {c₀ : State} {s : State} (h : MsgHdr) (nsid : Nat) (_oseq : Nat) (epoch : Nat) (hk : Kept K J c₀ s) : KeptBy K J c₀ (execHandoverTaken h nsid _oseq epoch s) := by
  unfold execHandoverTaken
  repeat' (first | with_reducible exact hk | with_reducible assumption | with_reducible apply peerMsg_kept | with_reducible apply discard_kept | with_reducible apply setNs_kept | with_reducible apply takeEpoch_kept | with_reducible apply tryOffer_kept | with_reducible apply afterTransfer_kept | with_reducible apply endTransfer_kept | with_reducible apply updateAna_kept | with_reducible apply KeptBy.next | with_reducible apply KeptBy.fault | with_reducible apply Kept.ite | with_reducible apply KeptBy.ite | intro _)

theorem execHandoverDepart_kept {c₀ : State} {s : State} (h : MsgHdr) (kind : Nat) (_oseq : Nat) (epoch : Nat) (hk : Kept false false c₀ s) : KeptBy false false c₀ (execHandoverDepart h kind _oseq epoch s) := by
  unfold execHandoverDepart
  repeat' (first | with_reducible exact hk | with_reducible assumption | with_reducible apply peerMsg_kept | with_reducible apply takeDeparture_kept | with_reducible apply updateAna_kept | with_reducible apply dissolve_kept | with_reducible apply KeptBy.next | with_reducible apply KeptBy.fault | with_reducible apply Kept.ite | with_reducible apply KeptBy.ite | intro _)

theorem execHandoverDepartTaken_kept {c₀ : State} {s : State} (h : MsgHdr) (kind : Nat) (_oseq : Nat) (epoch : Nat) (hk : Kept false false c₀ s) : KeptBy false false c₀ (execHandoverDepartTaken h kind _oseq epoch s) := by
  unfold execHandoverDepartTaken
  repeat' (first | with_reducible exact hk | with_reducible assumption | with_reducible apply peerMsg_kept | with_reducible apply discard_kept | with_reducible apply takeEpoch_kept | with_reducible apply departed_kept | with_reducible apply toMode_kept | with_reducible apply dissolve_kept | with_reducible apply completeFor_kept | with_reducible apply KeptBy.next | with_reducible apply KeptBy.fault | with_reducible apply Kept.ite | with_reducible apply KeptBy.ite | with_reducible apply Kept.elim | with_reducible apply KeptBy.elim | intro _ | extract_lets | fail_if_no_progress with_reducible refine Kept.upd ?_ rfl rfl rfl)

theorem noticeOfEnd_kept {c₀ : State} {s : State} (h : MsgHdr) (kind : Nat) (hk : Kept false false c₀ s) : KeptBy false false c₀ (noticeOfEnd s h kind) := by
  unfold noticeOfEnd
  repeat' (first | with_reducible exact hk | with_reducible assumption | with_reducible apply integrityFault_kept | with_reducible apply refusePairing_kept | with_reducible apply notePhase_kept | with_reducible apply peerMsg_kept | with_reducible apply loseTwin_kept | with_reducible apply KeptBy.next | with_reducible apply KeptBy.fault | with_reducible apply Kept.ite | with_reducible apply KeptBy.ite | intro _)

theorem execNoticeHarvest_kept {c₀ : State} {s : State} (h : MsgHdr) (hk : Kept false false c₀ s) : KeptBy false false c₀ (execNoticeHarvest h s) := by
  unfold execNoticeHarvest
  repeat' (first | with_reducible exact hk | with_reducible assumption | with_reducible apply noticeOfEnd_kept)

theorem execNoticeQuarantine_kept {c₀ : State} {s : State} (h : MsgHdr) (hk : Kept false false c₀ s) : KeptBy false false c₀ (execNoticeQuarantine h s) := by
  unfold execNoticeQuarantine
  repeat' (first | with_reducible exact hk | with_reducible assumption | with_reducible apply noticeOfEnd_kept)

theorem execNoticeNvmSubsystemReset_kept {K J : Bool} {c₀ : State} {s : State} (h : MsgHdr) (hk : Kept K J c₀ s) : KeptBy K J c₀ (execNoticeNvmSubsystemReset h s) := by
  unfold execNoticeNvmSubsystemReset
  repeat' (first | with_reducible exact hk | with_reducible assumption | with_reducible apply peerMsg_kept | with_reducible apply subsystemReset_kept)

end Sys2Proof.Machine
end

