-- ==== Sys2Proof/Laws/KeptRest.lean ====
section
/-! SUPPORT. `Kept` of the supply, temperature, internals, reports, security and messages: one lemma for each operation and for the meaning of each command. -/

namespace Sys2Proof.Machine

/-! ### Machine/Namespaces -/

theorem execNamespaceCreate_kept {K J : Bool} {c₀ : State} {s : State} (e : Sqe) (hk : Kept K J c₀ s) : KeptBy K J c₀ (execNamespaceCreate e s) := by
  unfold execNamespaceCreate
  repeat' (first | with_reducible exact hk | with_reducible assumption | with_reducible refine Kept.of_snd ?_ (by assumption) | with_reducible apply adminCmd_kept | with_reducible apply adminDone_kept | with_reducible apply drawKey_kept | with_reducible apply carryAdmin_kept | with_reducible apply updateAna_kept | with_reducible apply createNs_kept | with_reducible apply KeptBy.next | with_reducible apply KeptBy.fault | with_reducible apply Kept.ite | with_reducible apply KeptBy.ite | intro _ | extract_lets | fail_if_no_progress with_reducible refine Kept.upd ?_ rfl rfl rfl | split)

theorem execNamespaceDelete_kept {K : Bool} {c₀ : State} {s : State} (e : Sqe) (hk : Kept K false c₀ s) : KeptBy K false c₀ (execNamespaceDelete e s) := by
  unfold execNamespaceDelete
  repeat' (first | with_reducible exact hk | with_reducible assumption | with_reducible apply adminCmd_kept | with_reducible apply doneOnBoth_kept | with_reducible apply deleteNs_kept | with_reducible apply KeptBy.next | with_reducible apply KeptBy.fault | with_reducible apply Kept.ite | with_reducible apply KeptBy.ite | with_reducible apply Kept.foldl | with_reducible apply Kept.foldl_fst | intro _)

theorem setAttached_kept {K J : Bool} {c₀ : State} {s : State} (nsid : Nat) (ids : List Nat) (attach : Bool) (hk : Kept K J c₀ s) : Kept K J c₀ (setAttached s nsid ids attach) := by
  unfold setAttached
  repeat' (first | with_reducible exact hk | with_reducible assumption | with_reducible apply raiseAen_kept | with_reducible apply setNs_kept | with_reducible apply noteNs_kept | with_reducible apply Kept.ite | with_reducible apply Kept.foldl | intro _)

theorem execNamespaceAttach_kept {K J : Bool} {c₀ : State} {s : State} (e : Sqe) (hk : Kept K J c₀ s) : KeptBy K J c₀ (execNamespaceAttach e s) := by
  unfold execNamespaceAttach
  repeat' (first | with_reducible exact hk | with_reducible assumption | with_reducible apply adminCmd_kept | with_reducible apply doneOnBoth_kept | with_reducible apply setAttached_kept | with_reducible apply KeptBy.next | with_reducible apply KeptBy.fault | intro _)

theorem execNamespaceDetach_kept {K J : Bool} {c₀ : State} {s : State} (e : Sqe) (hk : Kept K J c₀ s) : KeptBy K J c₀ (execNamespaceDetach e s) := by
  unfold execNamespaceDetach
  repeat' (first | with_reducible exact hk | with_reducible assumption | with_reducible apply adminCmd_kept | with_reducible apply doneOnBoth_kept | with_reducible apply setAttached_kept | with_reducible apply KeptBy.next | with_reducible apply KeptBy.fault | intro _)

theorem execSetTwinPolicy_kept {K : Bool} {c₀ : State} {s : State} (e : Sqe) (hk : Kept K false c₀ s) : KeptBy K false c₀ (execSetTwinPolicy e s) := by
  unfold execSetTwinPolicy
  repeat' (first | with_reducible exact hk | with_reducible assumption | with_reducible apply adminCmd_kept | with_reducible apply adminDone_kept | with_reducible apply doneOnBoth_kept | with_reducible apply applyPolicy_kept | with_reducible apply carryAdmin_kept | with_reducible apply renumber_kept | with_reducible apply KeptBy.next | with_reducible apply KeptBy.fault | with_reducible apply Kept.ite | with_reducible apply KeptBy.ite | intro _ | extract_lets | fail_if_no_progress with_reducible refine Kept.upd ?_ rfl rfl rfl | split)

theorem acceptFormat_kept {K J : Bool} {c₀ : State} {s : State} (e : Sqe) (crypto : Bool) (hk : Kept K J c₀ s) : Kept K J c₀ (acceptFormat e s crypto) := by
  unfold acceptFormat
  repeat' (first | with_reducible exact hk | with_reducible assumption | with_reducible apply adminDone_kept | with_reducible apply carryAdmin_kept | with_reducible apply setNs_kept | with_reducible apply Kept.ite | intro _ | extract_lets | fail_if_no_progress with_reducible refine Kept.upd ?_ rfl rfl rfl | split)

theorem execFormatNvm_kept {K J : Bool} {c₀ : State} {s : State} (e : Sqe) (hk : Kept K J c₀ s) : KeptBy K J c₀ (execFormatNvm e s) := by
  unfold execFormatNvm
  repeat' (first | with_reducible exact hk | with_reducible assumption | with_reducible apply adminCmd_kept | with_reducible apply acceptFormat_kept | with_reducible apply KeptBy.next | with_reducible apply KeptBy.fault | intro _)

theorem execFormatNvmCryptoErase_kept {K J : Bool} {c₀ : State} {s : State} (e : Sqe) (hk : Kept K J c₀ s) : KeptBy K J c₀ (execFormatNvmCryptoErase e s) := by
  unfold execFormatNvmCryptoErase
  repeat' (first | with_reducible exact hk | with_reducible assumption | with_reducible apply adminCmd_kept | with_reducible apply acceptFormat_kept | with_reducible apply KeptBy.next | with_reducible apply KeptBy.fault | intro _)

theorem acceptSanitize_kept {K J : Bool} {c₀ : State} {s : State} (cdw10 : Nat) (block : Bool) (cmd : Option (Nat × Nat)) (tag : Option Nat) (keys : List (Nat × Nat)) (hk : Kept K J c₀ s) : Kept K J c₀ (acceptSanitize s cdw10 block cmd tag keys) := by
  unfold acceptSanitize
  repeat' (first | with_reducible exact hk | with_reducible assumption | with_reducible apply Kept.ite | intro _ | extract_lets | fail_if_no_progress with_reducible refine Kept.upd ?_ rfl rfl rfl)

theorem sanitizeCmd_kept {K J : Bool} {c₀ : State} {s : State} (e : Sqe) (block : Bool) (hk : Kept K J c₀ s) : Kept K J c₀ (sanitizeCmd e s block) := by
  unfold sanitizeCmd
  repeat' (first | with_reducible exact hk | with_reducible assumption | with_reducible apply adminDone_kept | with_reducible apply acceptSanitize_kept | with_reducible apply Kept.ite | intro _)

theorem execSanitizeCryptoErase_kept {K J : Bool} {c₀ : State} {s : State} (e : Sqe) (hk : Kept K J c₀ s) : KeptBy K J c₀ (execSanitizeCryptoErase e s) := by
  unfold execSanitizeCryptoErase
  repeat' (first | with_reducible exact hk | with_reducible assumption | with_reducible apply adminCmd_kept | with_reducible apply sanitizeCmd_kept | with_reducible apply KeptBy.next | with_reducible apply KeptBy.fault | intro _)

theorem execSanitizeBlockErase_kept {K J : Bool} {c₀ : State} {s : State} (e : Sqe) (hk : Kept K J c₀ s) : KeptBy K J c₀ (execSanitizeBlockErase e s) := by
  unfold execSanitizeBlockErase
  repeat' (first | with_reducible exact hk | with_reducible assumption | with_reducible apply adminCmd_kept | with_reducible apply sanitizeCmd_kept | with_reducible apply KeptBy.next | with_reducible apply KeptBy.fault | intro _)

theorem execSanitizeOverwrite_kept {K J : Bool} {c₀ : State} {s : State} (e : Sqe) (hk : Kept K J c₀ s) : KeptBy K J c₀ (execSanitizeOverwrite e s) := by
  unfold execSanitizeOverwrite
  repeat' (first | with_reducible exact hk | with_reducible assumption | with_reducible apply adminCmd_kept | with_reducible apply KeptBy.next | with_reducible apply KeptBy.fault | intro _)

theorem execSanitizeExitFailureMode_kept {K J : Bool} {c₀ : State} {s : State} (e : Sqe) (hk : Kept K J c₀ s) : KeptBy K J c₀ (execSanitizeExitFailureMode e s) := by
  unfold execSanitizeExitFailureMode
  repeat' (first | with_reducible exact hk | with_reducible assumption | with_reducible apply adminCmd_kept | with_reducible apply adminDone_kept | with_reducible apply KeptBy.next | with_reducible apply KeptBy.fault | with_reducible apply Kept.ite | with_reducible apply KeptBy.ite | intro _ | extract_lets | fail_if_no_progress with_reducible refine Kept.upd ?_ rfl rfl rfl)

theorem startFormat_kept {K : Bool} {c₀ : State} {s : State} (f : Fmt) (hk : Kept K false c₀ s) : Kept K false c₀ (startFormat s f) := by
  unfold startFormat
  repeat' (first | with_reducible exact hk | with_reducible assumption | with_reducible refine Kept.of_snd ?_ (by assumption) | with_reducible apply setNs_kept | with_reducible apply formatSwitch_kept | with_reducible apply drawKey_kept | with_reducible apply carryAdmin_kept | with_reducible apply Kept.ite | intro _ | extract_lets | fail_if_no_progress with_reducible refine Kept.upd ?_ rfl rfl rfl | split)

theorem startSanitize_kept {K : Bool} {c₀ : State} {s : State} (hk : Kept K false c₀ s) : Kept K false c₀ (startSanitize s) := by
  unfold startSanitize
  repeat' (first | with_reducible exact hk | with_reducible assumption | with_reducible refine Kept.of_fst ?_ (by assumption) | with_reducible apply sanitizeKeys_kept | with_reducible apply answerTwin_kept | with_reducible apply sanitizeSwitch_kept | with_reducible apply carryAdmin_kept | with_reducible apply completeFor_kept | with_reducible apply Kept.ite | intro _ | extract_lets | fail_if_no_progress with_reducible refine Kept.upd ?_ rfl rfl rfl | split)

theorem execFormatSanitizeStart_kept {K : Bool} {c₀ : State} {s : State} (hk : Kept K false c₀ s) : KeptBy K false c₀ (execFormatSanitizeStart s) := by
  unfold execFormatSanitizeStart
  repeat' (first | with_reducible exact hk | with_reducible assumption | with_reducible apply startFormat_kept | with_reducible apply startSanitize_kept | with_reducible apply KeptBy.next | with_reducible apply KeptBy.fault | with_reducible apply Kept.ite | with_reducible apply KeptBy.ite | with_reducible apply Kept.foldl | with_reducible apply Kept.foldl_fst | with_reducible apply Kept.foldl_snd | intro _)

/-! ### Machine/AdminSync -/

theorem refuseSync_kept {K J : Bool} {c₀ : State} {s : State} (tag : Nat) (st : Status) (hk : Kept K J c₀ s) : Kept K J c₀ (refuseSync s tag st) := by
  unfold refuseSync
  repeat' (first | with_reducible exact hk | with_reducible assumption | with_reducible apply answerTwin_kept)

theorem syncCreate_kept {K J : Bool} {c₀ : State} {s : State} (tag : Nat) (nsid : Nat) (a : List Nat) (hk : Kept K J c₀ s) : Kept K J c₀ (syncCreate s tag nsid a) := by
  unfold syncCreate
  repeat' (first | with_reducible exact hk | with_reducible assumption | with_reducible apply refuseSync_kept | with_reducible apply answerTwin_kept | with_reducible apply updateAna_kept | with_reducible apply createNs_kept | with_reducible apply Kept.ite | intro _ | extract_lets | fail_if_no_progress with_reducible refine Kept.upd ?_ rfl rfl rfl | split)

theorem syncDelete_kept {K : Bool} {c₀ : State} {s : State} (tag : Nat) (nsid : Nat) (hk : Kept K false c₀ s) : Kept K false c₀ (syncDelete s tag nsid) := by
  unfold syncDelete
  repeat' (first | with_reducible exact hk | with_reducible assumption | with_reducible apply answerTwin_kept | with_reducible apply deleteNs_kept | with_reducible apply Kept.ite | with_reducible apply Kept.foldl)

theorem syncPolicy_kept {K : Bool} {c₀ : State} {s : State} (tag : Nat) (nsid : Nat) (n : Ns) (a : List Nat) (hk : Kept K false c₀ s) : Kept K false c₀ (syncPolicy s tag nsid n a) := by
  unfold syncPolicy
  repeat' (first | with_reducible exact hk | with_reducible assumption | with_reducible apply refuseSync_kept | with_reducible apply answerTwin_kept | with_reducible apply carryAdmin_kept | with_reducible apply applyPolicy_kept | with_reducible apply renumber_kept | with_reducible apply releaseAllHeld_kept | with_reducible apply setNs_kept | with_reducible apply takeKeys_kept | with_reducible apply Kept.ite | intro _ | extract_lets | fail_if_no_progress with_reducible refine Kept.upd ?_ rfl rfl rfl | split)

theorem syncFormat_kept {K J : Bool} {c₀ : State} {s : State} (tag : Nat) (nsid : Nat) (n : Ns) (a : List Nat) (hk : Kept K J c₀ s) : Kept K J c₀ (syncFormat s tag nsid n a) := by
  unfold syncFormat
  repeat' (first | with_reducible exact hk | with_reducible assumption | with_reducible apply refuseSync_kept | with_reducible apply setNs_kept | with_reducible apply Kept.ite | intro _ | extract_lets | fail_if_no_progress with_reducible refine Kept.upd ?_ rfl rfl rfl)

theorem syncSanitize_kept {K J : Bool} {c₀ : State} {s : State} (tag : Nat) (a : List Nat) (hk : Kept K J c₀ s) : Kept K J c₀ (syncSanitize s tag a) := by
  unfold syncSanitize
  repeat' (first | with_reducible exact hk | with_reducible assumption | with_reducible apply refuseSync_kept | with_reducible apply acceptSanitize_kept | with_reducible apply Kept.ite | intro _ | extract_lets | split)

theorem syncKey_kept {K J : Bool} {c₀ : State} {s : State} (tag : Nat) (nsid : Nat) (n : Ns) (a : List Nat) (hk : Kept K J c₀ s) : Kept K J c₀ (syncKey s tag nsid n a) := by
  unfold syncKey
  repeat' (first | with_reducible exact hk | with_reducible assumption | with_reducible apply answerTwin_kept | with_reducible apply refuseSync_kept | with_reducible apply inject_kept | with_reducible apply putInjected_kept | with_reducible apply Kept.ite | intro _ | extract_lets | fail_if_no_progress with_reducible refine Kept.upd ?_ rfl rfl rfl | split)

theorem syncKpio_kept {K J : Bool} {c₀ : State} {s : State} (tag : Nat) (nsid : Nat) (n : Ns) (a : List Nat) (hk : Kept K J c₀ s) : Kept K J c₀ (syncKpio s tag nsid n a) := by
  unfold syncKpio
  repeat' (first | with_reducible exact hk | with_reducible assumption | with_reducible apply refuseSync_kept | with_reducible apply answerTwin_kept | with_reducible apply disableKpio_kept | with_reducible apply resetKpio_kept | with_reducible apply Kept.ite | intro _ | extract_lets | split)

theorem syncAbort_kept {K J : Bool} {c₀ : State} {s : State} (tag : Nat) (cmdTag : Nat) (hk : Kept K J c₀ s) : Kept K J c₀ (syncAbort s tag cmdTag) := by
  unfold syncAbort
  repeat' (first | with_reducible exact hk | with_reducible assumption | with_reducible apply answerTwin_kept | with_reducible apply finish_kept | with_reducible apply Kept.ite | intro _ | extract_lets | fail_if_no_progress with_reducible refine Kept.upd ?_ rfl rfl rfl | split)

theorem syncTransfer_kept {K J : Bool} {c₀ : State} {s : State} (tag : Nat) (nsid : Nat) (n : Ns) (hk : Kept K J c₀ s) : Kept K J c₀ (syncTransfer s tag nsid n) := by
  unfold syncTransfer
  repeat' (first | with_reducible exact hk | with_reducible assumption | with_reducible apply refuseSync_kept | with_reducible apply tryOffer_kept | with_reducible apply startTransfer_kept | with_reducible apply Kept.ite | intro _ | extract_lets | fail_if_no_progress with_reducible refine Kept.upd ?_ rfl rfl rfl)

theorem placeZones_kept {K J : Bool} {c₀ : State} {s : State} (nsid flbas : Nat) (l : List (Nat × Zone)) (hk : Kept K J c₀ s) : KeptOk K J c₀ (placeZones s nsid flbas l) := by
  induction l generalizing s with
  | nil => exact KeptOk.ok hk
  | cons x l ih =>
    obtain ⟨i, z⟩ := x
    unfold placeZones
    split
    · exact KeptOk.error
    · exact ih (setZone_kept _ _ _ hk)

theorem syncPlace_kept {K J : Bool} {c₀ : State} {s : State} (tag : Nat) (nsid : Nat) (n : Ns) (a : List Nat) (hk : Kept K J c₀ s) : Kept K J c₀ (syncPlace s tag nsid n a) := by
  unfold syncPlace
  repeat' (first | with_reducible exact hk | with_reducible assumption | with_reducible refine Kept.of_ok ?_ (by assumption) | with_reducible apply refuseSync_kept | with_reducible apply takeKeys_kept | with_reducible apply setNs_kept | with_reducible apply placeZones_kept | with_reducible apply answerTwin_kept | with_reducible apply KeptOk.ok | with_reducible apply KeptOk.error | with_reducible apply Kept.ite | intro _ | extract_lets | fail_if_no_progress with_reducible refine Kept.upd ?_ rfl rfl rfl | split)

theorem syncMove_kept {K J : Bool} {c₀ : State} {s : State} (tag : Nat) (nsid : Nat) (n : Ns) (a : List Nat) (hk : Kept K J c₀ s) : Kept K J c₀ (syncMove s tag nsid n a) := by
  unfold syncMove
  repeat' (first | with_reducible exact hk | with_reducible assumption | with_reducible apply refuseSync_kept | with_reducible apply startMove_kept | intro _ | extract_lets | fail_if_no_progress with_reducible refine Kept.upd ?_ rfl rfl rfl | split)

theorem syncReshape_kept {K J : Bool} {c₀ : State} {s : State} (tag : Nat) (nsid : Nat) (n : Ns) (a : List Nat) (hk : Kept K J c₀ s) : Kept K J c₀ (syncReshape s tag nsid n a) := by
  unfold syncReshape
  repeat' (first | with_reducible exact hk | with_reducible assumption | with_reducible apply refuseSync_kept | with_reducible apply reshapeHere_kept | intro _ | extract_lets | fail_if_no_progress with_reducible refine Kept.upd ?_ rfl rfl rfl | split)

theorem syncCancel_kept {K J : Bool} {c₀ : State} {s : State} (tag : Nat) (nsid : Nat) (n : Ns) (hk : Kept K J c₀ s) : Kept K J c₀ (syncCancel s tag nsid n) := by
  unfold syncCancel
  repeat' (first | with_reducible exact hk | with_reducible assumption | with_reducible apply refuseSync_kept | with_reducible apply cancelHere_kept | with_reducible apply setNs_kept | with_reducible apply Kept.ite | intro _ | extract_lets | fail_if_no_progress with_reducible refine Kept.upd ?_ rfl rfl rfl | split)

theorem syncEnded_kept {K J : Bool} {c₀ : State} {s : State} (nsid : Nat) (n : Ns) (st : Status) (hk : Kept K J c₀ s) : Kept K J c₀ (syncEnded s nsid n st) := by
  unfold syncEnded
  repeat' (first | with_reducible exact hk | with_reducible assumption | with_reducible apply endReshape_kept | with_reducible apply Kept.ite | intro _)

theorem syncAbandon_kept {K : Bool} {c₀ : State} {s : State} (nsid : Nat) (n : Ns) (hk : Kept K false c₀ s) : Kept K false c₀ (syncAbandon s nsid n) := by
  unfold syncAbandon
  repeat' (first | with_reducible exact hk | with_reducible assumption | with_reducible apply releaseNs_kept | with_reducible apply setNs_kept | with_reducible apply endReshape_kept | with_reducible apply Kept.ite | intro _)

theorem syncShape_kept {K : Bool} {c₀ : State} {s : State} (tag : Nat) (nsid : Nat) (n : Ns) (a : List Nat) (hk : Kept K false c₀ s) : Kept K false c₀ (syncShape s tag nsid n a) := by
  unfold syncShape
  repeat' (first | with_reducible exact hk | with_reducible assumption | with_reducible apply syncPlace_kept | with_reducible apply syncMove_kept | with_reducible apply syncCancel_kept | with_reducible apply syncReshape_kept | with_reducible apply syncAbandon_kept | intro _ | extract_lets | split)

theorem syncNs_kept {K : Bool} {c₀ : State} {s : State} (tag : Nat) (op : Nat) (nsid : Nat) (n : Ns) (a : List Nat) (hk : Kept K false c₀ s) : Kept K false c₀ (syncNs s tag op nsid n a) := by
  unfold syncNs
  repeat' (first | with_reducible exact hk | with_reducible assumption | with_reducible apply answerTwin_kept | with_reducible apply setAttached_kept | with_reducible apply syncPolicy_kept | with_reducible apply syncFormat_kept | with_reducible apply syncKey_kept | with_reducible apply syncKpio_kept | with_reducible apply syncTransfer_kept | with_reducible apply syncShape_kept | with_reducible apply syncEnded_kept | with_reducible apply refuseSync_kept | with_reducible apply Kept.ite | intro _)

theorem syncOp_kept {K : Bool} {c₀ : State} {s : State} (tag : Nat) (op : Nat) (nsid : Nat) (a : List Nat) (hk : Kept K false c₀ s) : Kept K false c₀ (syncOp s tag op nsid a) := by
  unfold syncOp
  repeat' (first | with_reducible exact hk | with_reducible assumption | with_reducible apply syncCreate_kept | with_reducible apply syncDelete_kept | with_reducible apply syncSanitize_kept | with_reducible apply syncAbort_kept | with_reducible apply refuseSync_kept | with_reducible apply syncNs_kept | with_reducible apply Kept.ite | intro _ | extract_lets | split)

theorem execAdminSync_kept {K : Bool} {c₀ : State} {s : State} (h : MsgHdr) (op : Nat) (nsid : Nat) (args : List Nat) (hk : Kept K false c₀ s) : KeptBy K false c₀ (execAdminSync h op nsid args s) := by
  unfold execAdminSync
  repeat' (first | with_reducible exact hk | with_reducible assumption | with_reducible apply pairingMsg_kept | with_reducible apply syncOp_kept | with_reducible apply KeptBy.next | with_reducible apply KeptBy.fault | intro _)

/-! ### Machine/Supply -/

theorem setFeeds_kept {J : Bool} {c₀ : State} {s : State} (a : Nat) (b : Nat) (hk : Kept false J c₀ s) : Kept false J c₀ (setFeeds s a b) := by
  unfold setFeeds
  repeat' (first | with_reducible exact hk | with_reducible assumption | intro _ | extract_lets | fail_if_no_progress with_reducible refine Kept.upd ?_ rfl rfl rfl | fail_if_no_progress with_reducible refine Kept.updAny ?_ rfl rfl rfl rfl)

theorem execSupplyEvent_kept {J : Bool} {c₀ : State} {s : State} (kind : Nat) (feedA : Nat) (feedB : Nat) (hk : Kept false J c₀ s) : KeptBy false J c₀ (execSupplyEvent kind feedA feedB s) := by
  unfold execSupplyEvent
  repeat' (first | with_reducible exact hk | with_reducible assumption | with_reducible apply setFeeds_kept | with_reducible apply record_kept | with_reducible apply KeptBy.next | with_reducible apply KeptBy.fault | with_reducible apply Kept.ite | with_reducible apply KeptBy.ite | intro _)

theorem sealEvents_kept {K J : Bool} {c₀ : State} {s : State} (hk : Kept K J c₀ s) : Kept K J c₀ (sealEvents s) := by
  unfold sealEvents
  repeat' (first | with_reducible exact hk | with_reducible assumption | intro _ | extract_lets | fail_if_no_progress with_reducible refine Kept.upd ?_ rfl rfl rfl)

theorem drainDies_kept {c₀ : State} {s : State} (hk : Kept false false c₀ s) : Kept false false c₀ (drainDies s) := by
  unfold drainDies
  repeat' (first | with_reducible exact hk | with_reducible assumption | with_reducible apply passDone_kept | with_reducible apply setDie_kept | with_reducible apply Kept.ite | with_reducible apply Kept.elim | with_reducible apply Kept.foldl | with_reducible apply Kept.foldl_fst | with_reducible apply Kept.foldl_snd | intro _ | extract_lets | fail_if_no_progress with_reducible refine Kept.upd ?_ rfl rfl rfl | fail_if_no_progress with_reducible refine Kept.updAny ?_ rfl rfl rfl rfl)

theorem dropUnformed_kept {K : Bool} {c₀ : State} {s : State} (hk : Kept K false c₀ s) : Kept K false c₀ (dropUnformed s) := by
  unfold dropUnformed
  repeat' (first | with_reducible exact hk | with_reducible assumption | with_reducible apply dropCopy_kept | with_reducible apply dropWrite_kept | with_reducible apply Kept.ite | with_reducible apply Kept.foldl | with_reducible apply Kept.foldl_fst | with_reducible apply Kept.foldl_snd | intro _)

theorem markHarvested_kept {K J : Bool} {c₀ : State} {s : State} (hk : Kept K J c₀ s) : Kept K J c₀ (markHarvested s) := by
  unfold markHarvested
  repeat' (first | with_reducible exact hk | with_reducible assumption | with_reducible apply Kept.ite | intro _ | extract_lets | fail_if_no_progress with_reducible refine Kept.upd ?_ rfl rfl rfl)

theorem enterHarvest_kept {c₀ : State} {s : State} (cause : Nat) (hk : Kept false false c₀ s) : Kept false false c₀ (enterHarvest s cause) := by
  unfold enterHarvest
  repeat' (first | with_reducible exact hk | with_reducible assumption | with_reducible apply abandonEntry_kept | with_reducible apply send_kept | with_reducible apply leavePair_kept | with_reducible apply toMode_kept | with_reducible apply linkGone_kept | with_reducible apply drainDies_kept | with_reducible apply dropUnformed_kept | with_reducible apply markHarvested_kept | intro _ | extract_lets | fail_if_no_progress with_reducible refine Kept.upd ?_ rfl rfl rfl | fail_if_no_progress with_reducible refine Kept.updAny ?_ rfl rfl rfl rfl)

theorem resumeTime_kept {J : Bool} {c₀ : State} {s : State} (ticks : Nat) (hk : Kept false J c₀ s) : Kept false J c₀ (resumeTime s ticks) := by
  unfold resumeTime
  repeat' (first | with_reducible exact hk | with_reducible assumption | with_reducible apply passTime_kept)

theorem execHarvestTrigger_kept {c₀ : State} {s : State} (feeds : List (Nat × Nat)) (pwrdis : List Bool) (mateMv : List Nat) (ticks : Nat) (hk : Kept false false c₀ s) : KeptBy false false c₀ (execHarvestTrigger feeds pwrdis mateMv ticks s) := by
  unfold execHarvestTrigger
  repeat' (first | with_reducible exact hk | with_reducible assumption | with_reducible apply setFeeds_kept | with_reducible apply setRanks_kept | with_reducible apply resumeTime_kept | with_reducible apply enterHarvest_kept | with_reducible apply record_kept | with_reducible apply KeptBy.next | with_reducible apply KeptBy.fault | with_reducible apply Kept.ite | with_reducible apply KeptBy.ite | intro _ | extract_lets | fail_if_no_progress with_reducible refine Kept.upd ?_ rfl rfl rfl | fail_if_no_progress with_reducible refine Kept.updAny ?_ rfl rfl rfl rfl)

theorem deltaMib_kept {K J : Bool} {c₀ : State} {s : State} (hk : Kept K J c₀ s) : Kept K J c₀ (deltaMib s).2 := by
  unfold deltaMib
  repeat' (first | with_reducible exact hk | with_reducible assumption | with_reducible apply drawFree_kept)

theorem dropInjected_kept {K J : Bool} {c₀ : State} {s : State} (hk : Kept K J c₀ s) : Kept K J c₀ (dropInjected s) := by
  unfold dropInjected
  repeat' (first | with_reducible exact hk | with_reducible assumption | with_reducible apply Kept.ite | intro _ | extract_lets | fail_if_no_progress with_reducible refine Kept.upd ?_ rfl rfl rfl)

theorem makeSeal_kept {J : Bool} {c₀ : State} {s : State} (kind : Nat) (shifts : List Nat) (f : Seal → Seal) (hk : Kept false J c₀ s) : Kept false J c₀ (makeSeal s kind shifts f) := by
  unfold makeSeal
  repeat' (first | with_reducible exact hk | with_reducible assumption | with_reducible refine Kept.of_snd ?_ (by assumption) | with_reducible apply deltaMib_kept | with_reducible apply keepShifts_kept | with_reducible apply saveClock_kept | with_reducible apply landRecs_kept | with_reducible apply sealEvents_kept | intro _ | extract_lets | fail_if_no_progress with_reducible refine Kept.upd ?_ rfl rfl rfl | fail_if_no_progress with_reducible refine Kept.updAny ?_ rfl rfl rfl rfl)

theorem execHarvestSeal_kept {J : Bool} {c₀ : State} {s : State} (vEnd : Nat) (feedA : Nat) (feedB : Nat) (pwrdis : Bool) (mated : Bool) (shifts : List Nat) (hk : Kept false J c₀ s) : KeptBy false J c₀ (execHarvestSeal vEnd feedA feedB pwrdis mated shifts s) := by
  unfold execHarvestSeal
  repeat' (first | with_reducible exact hk | with_reducible assumption | with_reducible apply makeSeal_kept | with_reducible apply dropInjected_kept | with_reducible apply setFeeds_kept | with_reducible apply enterMeasure_kept | with_reducible apply railsOff_kept | with_reducible apply KeptBy.next | with_reducible apply KeptBy.fault | with_reducible apply Kept.ite | with_reducible apply KeptBy.ite | intro _ | extract_lets | fail_if_no_progress with_reducible refine Kept.upd ?_ rfl rfl rfl | fail_if_no_progress with_reducible refine Kept.updAny ?_ rfl rfl rfl rfl)

theorem fallBack_kept {K : Bool} {c₀ : State} {s : State} (gone : List VRec) (hk : Kept K false c₀ s) : Kept K false c₀ (fallBack s gone) := by
  unfold fallBack
  repeat' (first | with_reducible exact hk | with_reducible assumption | with_reducible refine Kept.of_snd ?_ (by assumption) | with_reducible apply drawFree_kept | with_reducible apply storeLba_kept | with_reducible apply clearRange_kept | with_reducible apply setZone_kept | with_reducible apply Kept.ite | with_reducible apply Kept.foldl | with_reducible apply Kept.foldl_fst | with_reducible apply Kept.foldl_snd | intro _ | extract_lets | fail_if_no_progress with_reducible refine Kept.upd ?_ rfl rfl rfl | split)

theorem execHarvestBankExhausted_kept {c₀ : State} {s : State} (step : Nat) (landed : Nat) (hk : Kept false false c₀ s) : KeptBy false false c₀ (execHarvestBankExhausted step landed s) := by
  unfold execHarvestBankExhausted
  repeat' (first | with_reducible exact hk | with_reducible assumption | with_reducible refine Kept.of_snd ?_ (by assumption) | with_reducible apply landRecs_kept | with_reducible apply deltaMib_kept | with_reducible apply fallBack_kept | with_reducible apply railsOff_kept | with_reducible apply dropInjected_kept | with_reducible apply KeptBy.next | with_reducible apply KeptBy.fault | with_reducible apply Kept.ite | with_reducible apply KeptBy.ite | with_reducible apply Kept.foldl | with_reducible apply Kept.foldl_fst | with_reducible apply Kept.foldl_snd | intro _ | extract_lets | fail_if_no_progress with_reducible refine Kept.upd ?_ rfl rfl rfl | fail_if_no_progress with_reducible refine Kept.updAny ?_ rfl rfl rfl rfl)

theorem execShutdownSeal_kept {J : Bool} {c₀ : State} {s : State} (shifts : List Nat) (hk : Kept false J c₀ s) : KeptBy false J c₀ (execShutdownSeal shifts s) := by
  unfold execShutdownSeal
  repeat' (first | with_reducible exact hk | with_reducible assumption | with_reducible apply makeSeal_kept | with_reducible apply checkpoint_kept | with_reducible apply KeptBy.next | with_reducible apply KeptBy.fault | with_reducible apply Kept.ite | with_reducible apply KeptBy.ite | intro _)

theorem execHoldUpTestDue_kept {J : Bool} {c₀ : State} {s : State} (hk : Kept false J c₀ s) : KeptBy false J c₀ (execHoldUpTestDue s) := by
  unfold execHoldUpTestDue
  repeat' (first | with_reducible exact hk | with_reducible assumption | with_reducible apply tryTest_kept | with_reducible apply KeptBy.next | with_reducible apply KeptBy.fault | with_reducible apply Kept.ite | with_reducible apply KeptBy.ite | intro _ | extract_lets | fail_if_no_progress with_reducible refine Kept.upd ?_ rfl rfl rfl | fail_if_no_progress with_reducible refine Kept.updAny ?_ rfl rfl rfl rfl)

theorem execHoldUpInitialFall_kept {J : Bool} {c₀ : State} {s : State} (tUs : Nat) (hk : Kept false J c₀ s) : KeptBy false J c₀ (execHoldUpInitialFall tUs s) := by
  unfold execHoldUpInitialFall
  repeat' (first | with_reducible exact hk | with_reducible assumption | with_reducible apply KeptBy.next | with_reducible apply KeptBy.fault | with_reducible apply Kept.ite | with_reducible apply KeptBy.ite | intro _ | extract_lets | fail_if_no_progress with_reducible refine Kept.upd ?_ rfl rfl rfl | fail_if_no_progress with_reducible refine Kept.updAny ?_ rfl rfl rfl rfl)

theorem execHoldUpStopVoltage_kept {J : Bool} {c₀ : State} {s : State} (tUs : Nat) (stepMv : Nat) (hk : Kept false J c₀ s) : KeptBy false J c₀ (execHoldUpStopVoltage tUs stepMv s) := by
  unfold execHoldUpStopVoltage
  repeat' (first | with_reducible exact hk | with_reducible assumption | with_reducible apply setUsable_kept | with_reducible apply KeptBy.next | with_reducible apply KeptBy.fault | with_reducible apply Kept.ite | with_reducible apply KeptBy.ite | intro _ | extract_lets | fail_if_no_progress with_reducible refine Kept.upd ?_ rfl rfl rfl | fail_if_no_progress with_reducible refine Kept.updAny ?_ rfl rfl rfl rfl)

theorem execBankCharged_kept {J : Bool} {c₀ : State} {s : State} (hk : Kept false J c₀ s) : KeptBy false J c₀ (execBankCharged s) := by
  unfold execBankCharged
  repeat' (first | with_reducible exact hk | with_reducible assumption | with_reducible apply endTest_kept | with_reducible apply tryTest_kept | with_reducible apply setUsable_kept | with_reducible apply startTest_kept | with_reducible apply KeptBy.next | with_reducible apply KeptBy.fault | with_reducible apply Kept.ite | with_reducible apply KeptBy.ite | intro _ | extract_lets | fail_if_no_progress with_reducible refine Kept.upd ?_ rfl rfl rfl | fail_if_no_progress with_reducible refine Kept.updAny ?_ rfl rfl rfl rfl)

theorem execBankVoltageCheck_kept {J : Bool} {c₀ : State} {s : State} (mv : Nat) (pIn : Nat) (hk : Kept false J c₀ s) : KeptBy false J c₀ (execBankVoltageCheck mv pIn s) := by
  unfold execBankVoltageCheck
  repeat' (first | with_reducible exact hk | with_reducible assumption | with_reducible apply tryTest_kept | with_reducible apply setUsable_kept | with_reducible apply record_kept | with_reducible apply KeptBy.next | with_reducible apply KeptBy.fault | with_reducible apply Kept.ite | with_reducible apply KeptBy.ite | intro _ | extract_lets | fail_if_no_progress with_reducible refine Kept.upd ?_ rfl rfl rfl | fail_if_no_progress with_reducible refine Kept.updAny ?_ rfl rfl rfl rfl)

theorem execHoldUpTestRun_kept {J : Bool} {c₀ : State} {s : State} (e : Sqe) (hk : Kept false J c₀ s) : KeptBy false J c₀ (execHoldUpTestRun e s) := by
  unfold execHoldUpTestRun
  repeat' (first | with_reducible exact hk | with_reducible assumption | with_reducible apply adminCmd_kept | with_reducible apply tryTest_kept | with_reducible apply KeptBy.next | with_reducible apply KeptBy.fault | with_reducible apply Kept.ite | with_reducible apply KeptBy.ite | intro _ | extract_lets | fail_if_no_progress with_reducible refine Kept.upd ?_ rfl rfl rfl | fail_if_no_progress with_reducible refine Kept.updAny ?_ rfl rfl rfl rfl)

theorem execHoldUpTestReport_kept {K J : Bool} {c₀ : State} {s : State} (e : Sqe) (hk : Kept K J c₀ s) : KeptBy K J c₀ (execHoldUpTestReport e s) := by
  unfold execHoldUpTestReport
  repeat' (first | with_reducible exact hk | with_reducible assumption | with_reducible apply adminCmd_kept | with_reducible apply adminDone_kept | with_reducible apply KeptBy.next | with_reducible apply KeptBy.fault | with_reducible apply Kept.ite | with_reducible apply KeptBy.ite | intro _)

/-! ### Machine/Firmware -/

theorem execFirmwareImageDownload_kept {J : Bool} {c₀ : State} {s : State} (e : Sqe) (img : Image) (hk : Kept false J c₀ s) : KeptBy false J c₀ (execFirmwareImageDownload e img s) := by
  unfold execFirmwareImageDownload
  repeat' (first | with_reducible exact hk | with_reducible assumption | with_reducible apply adminCmd_kept | with_reducible apply adminDone_kept | with_reducible apply KeptBy.next | with_reducible apply KeptBy.fault | with_reducible apply Kept.ite | with_reducible apply KeptBy.ite | intro _ | extract_lets | fail_if_no_progress with_reducible refine Kept.upd ?_ rfl rfl rfl | fail_if_no_progress with_reducible refine Kept.updAny ?_ rfl rfl rfl rfl)

theorem setSlot_kept {J : Bool} {c₀ : State} {s : State} (k : Nat) (i : Option Image) (hk : Kept false J c₀ s) : Kept false J c₀ (setSlot s k i) := by
  unfold setSlot
  repeat' (first | with_reducible exact hk | with_reducible assumption | with_reducible apply Kept.ite | intro _ | extract_lets | fail_if_no_progress with_reducible refine Kept.upd ?_ rfl rfl rfl | fail_if_no_progress with_reducible refine Kept.updAny ?_ rfl rfl rfl rfl | split)

theorem commitImage_kept {J : Bool} {c₀ : State} {s : State} (e : Sqe) (ca : Nat) (hk : Kept false J c₀ s) : Kept false J c₀ (commitImage e s ca) := by
  unfold commitImage
  repeat' (first | with_reducible exact hk | with_reducible assumption | with_reducible apply adminDone_kept | with_reducible apply setSlot_kept | with_reducible apply Kept.ite | intro _ | extract_lets | fail_if_no_progress with_reducible refine Kept.upd ?_ rfl rfl rfl | fail_if_no_progress with_reducible refine Kept.updAny ?_ rfl rfl rfl rfl | split)

theorem execFirmwareCommitReplace_kept {J : Bool} {c₀ : State} {s : State} (e : Sqe) (hk : Kept false J c₀ s) : KeptBy false J c₀ (execFirmwareCommitReplace e s) := by
  unfold execFirmwareCommitReplace
  repeat' (first | with_reducible exact hk | with_reducible assumption | with_reducible apply adminCmd_kept | with_reducible apply commitImage_kept | with_reducible apply KeptBy.next | with_reducible apply KeptBy.fault | with_reducible apply Kept.ite | with_reducible apply KeptBy.ite | intro _)

theorem execFirmwareCommitReplaceActivate_kept {J : Bool} {c₀ : State} {s : State} (e : Sqe) (hk : Kept false J c₀ s) : KeptBy false J c₀ (execFirmwareCommitReplaceActivate e s) := by
  unfold execFirmwareCommitReplaceActivate
  repeat' (first | with_reducible exact hk | with_reducible assumption | with_reducible apply adminCmd_kept | with_reducible apply commitImage_kept | with_reducible apply KeptBy.next | with_reducible apply KeptBy.fault | with_reducible apply Kept.ite | with_reducible apply KeptBy.ite | intro _)

theorem activate_kept {J : Bool} {c₀ : State} {s : State} (k : Nat) (func : Nat) (cid : Nat) (hk : Kept false J c₀ s) : Kept false J c₀ (activate s k func cid) := by
  unfold activate
  repeat' (first | with_reducible exact hk | with_reducible assumption | with_reducible apply Kept.ite | intro _ | extract_lets | fail_if_no_progress with_reducible refine Kept.upd ?_ rfl rfl rfl | fail_if_no_progress with_reducible refine Kept.updAny ?_ rfl rfl rfl rfl)

theorem committed_kept {K J : Bool} {c₀ : State} {s : State} (ca : Nat) (slot : Nat) (i : Option Image) (hk : Kept K J c₀ s) : Kept K J c₀ (committed s ca slot i) := by
  unfold committed
  repeat' (first | with_reducible exact hk | with_reducible assumption | with_reducible apply record_kept)

theorem execFirmwareCommitActivate_kept {J : Bool} {c₀ : State} {s : State} (e : Sqe) (hk : Kept false J c₀ s) : KeptBy false J c₀ (execFirmwareCommitActivate e s) := by
  unfold execFirmwareCommitActivate
  repeat' (first | with_reducible exact hk | with_reducible assumption | with_reducible apply adminCmd_kept | with_reducible apply adminDone_kept | with_reducible apply activate_kept | with_reducible apply committed_kept | with_reducible apply KeptBy.next | with_reducible apply KeptBy.fault | with_reducible apply Kept.ite | with_reducible apply KeptBy.ite | intro _)

theorem bootWritten_kept {J : Bool} {c₀ : State} {s : State} (w : BootWrite) (rest : List BootWrite) (ok : Bool) (hk : Kept false J c₀ s) : Kept false J c₀ (bootWritten s w rest ok) := by
  unfold bootWritten
  repeat' (first | with_reducible exact hk | with_reducible assumption | with_reducible apply completeFor_kept | with_reducible apply committed_kept | with_reducible apply setSlot_kept | with_reducible apply activate_kept | with_reducible apply Kept.ite | intro _ | extract_lets | fail_if_no_progress with_reducible refine Kept.upd ?_ rfl rfl rfl | fail_if_no_progress with_reducible refine Kept.updAny ?_ rfl rfl rfl rfl)

theorem execBootStoreWriteComplete_kept {J : Bool} {c₀ : State} {s : State} (ok : Bool) (hk : Kept false J c₀ s) : KeptBy false J c₀ (execBootStoreWriteComplete ok s) := by
  unfold execBootStoreWriteComplete
  repeat' (first | with_reducible exact hk | with_reducible assumption | with_reducible apply bootWritten_kept | with_reducible apply KeptBy.next | with_reducible apply KeptBy.fault | with_reducible apply Kept.ite | with_reducible apply KeptBy.ite | intro _ | extract_lets | split)

theorem execActivationSeal_kept {J : Bool} {c₀ : State} {s : State} (hk : Kept false J c₀ s) : KeptBy false J c₀ (execActivationSeal s) := by
  unfold execActivationSeal
  repeat' (first | with_reducible exact hk | with_reducible assumption | with_reducible apply beginDeparture_kept | with_reducible apply completeFor_kept | with_reducible apply enterMeasure_kept | with_reducible apply makeSeal_kept | with_reducible apply KeptBy.next | with_reducible apply KeptBy.fault | with_reducible apply Kept.ite | with_reducible apply KeptBy.ite | with_reducible apply Kept.foldl | with_reducible apply Kept.foldl_fst | with_reducible apply Kept.foldl_snd | intro _ | extract_lets | split)

theorem execSetMeasurementPolicy_kept {J : Bool} {c₀ : State} {s : State} (e : Sqe) (hk : Kept false J c₀ s) : KeptBy false J c₀ (execSetMeasurementPolicy e s) := by
  unfold execSetMeasurementPolicy
  repeat' (first | with_reducible exact hk | with_reducible assumption | with_reducible apply adminCmd_kept | with_reducible apply KeptBy.next | with_reducible apply KeptBy.fault | with_reducible apply Kept.ite | with_reducible apply KeptBy.ite | with_reducible apply Kept.foldl | with_reducible apply Kept.foldl_fst | intro _ | extract_lets | fail_if_no_progress with_reducible refine Kept.upd ?_ rfl rfl rfl | fail_if_no_progress with_reducible refine Kept.updAny ?_ rfl rfl rfl rfl)

/-! ### Machine/Holiday -/

theorem goOnEntering_kept {K J : Bool} {c₀ : State} {s : State} (hk : Kept K J c₀ s) : Kept K J c₀ (goOnEntering s) := by
  unfold goOnEntering
  repeat' (first | with_reducible exact hk | with_reducible assumption | with_reducible apply beginDeparture_kept | with_reducible apply Kept.ite | intro _)

theorem abortErases_kept {K J : Bool} {c₀ : State} {s : State} (hk : Kept K J c₀ s) : Kept K J c₀ (abortErases s) := by
  unfold abortErases
  repeat' (first | with_reducible exact hk | with_reducible assumption | with_reducible apply Kept.ite | intro _ | extract_lets | fail_if_no_progress with_reducible refine Kept.upd ?_ rfl rfl rfl)

theorem enterHoliday_kept {J : Bool} {c₀ : State} {s : State} (tick : Nat) (hk : Kept false J c₀ s) : Kept false J c₀ (enterHoliday s tick) := by
  unfold enterHoliday
  repeat' (first | with_reducible exact hk | with_reducible assumption | with_reducible apply toMode_kept | with_reducible apply refreshPower_kept | with_reducible apply setRanks_kept | with_reducible apply Kept.ite | intro _ | extract_lets | fail_if_no_progress with_reducible refine Kept.upd ?_ rfl rfl rfl | fail_if_no_progress with_reducible refine Kept.updAny ?_ rfl rfl rfl rfl)

theorem execSetPowerManagement_kept {K J : Bool} {c₀ : State} {s : State} (e : Sqe) (hk : Kept K J c₀ s) : KeptBy K J c₀ (execSetPowerManagement e s) := by
  unfold execSetPowerManagement
  repeat' (first | with_reducible exact hk | with_reducible assumption | with_reducible apply adminCmd_kept | with_reducible apply adminDone_kept | with_reducible apply refreshPower_kept | with_reducible apply KeptBy.next | with_reducible apply KeptBy.fault | with_reducible apply Kept.ite | with_reducible apply KeptBy.ite | intro _ | extract_lets | fail_if_no_progress with_reducible refine Kept.upd ?_ rfl rfl rfl)

theorem execSetPowerManagementPs4_kept {K J : Bool} {c₀ : State} {s : State} (e : Sqe) (hk : Kept K J c₀ s) : KeptBy K J c₀ (execSetPowerManagementPs4 e s) := by
  unfold execSetPowerManagementPs4
  repeat' (first | with_reducible exact hk | with_reducible assumption | with_reducible apply adminCmd_kept | with_reducible apply adminDone_kept | with_reducible apply goOnEntering_kept | with_reducible apply abortErases_kept | with_reducible apply KeptBy.next | with_reducible apply KeptBy.fault | with_reducible apply Kept.ite | with_reducible apply KeptBy.ite | intro _ | extract_lets | fail_if_no_progress with_reducible refine Kept.upd ?_ rfl rfl rfl)

theorem execHolidayEntry_kept {J : Bool} {c₀ : State} {s : State} (tick : Nat) (hk : Kept false J c₀ s) : KeptBy false J c₀ (execHolidayEntry tick s) := by
  unfold execHolidayEntry
  repeat' (first | with_reducible exact hk | with_reducible assumption | with_reducible apply goOnEntering_kept | with_reducible apply completeFor_kept | with_reducible apply enterHoliday_kept | with_reducible apply KeptBy.next | with_reducible apply KeptBy.fault | with_reducible apply Kept.ite | with_reducible apply KeptBy.ite | with_reducible apply Kept.elim | with_reducible apply KeptBy.elim | intro _)

theorem execHolidayReentry_kept {J : Bool} {c₀ : State} {s : State} (tick : Nat) (hk : Kept false J c₀ s) : KeptBy false J c₀ (execHolidayReentry tick s) := by
  unfold execHolidayReentry
  repeat' (first | with_reducible exact hk | with_reducible assumption | with_reducible apply refreshPower_kept | with_reducible apply record_kept | with_reducible apply goOnEntering_kept | with_reducible apply enterHoliday_kept | with_reducible apply KeptBy.next | with_reducible apply KeptBy.fault | with_reducible apply Kept.ite | with_reducible apply KeptBy.ite | intro _ | extract_lets | fail_if_no_progress with_reducible refine Kept.upd ?_ rfl rfl rfl)

theorem carryTime_kept {J : Bool} {c₀ : State} {s : State} (ticks : Nat) (hk : Kept false J c₀ s) : Kept false J c₀ (carryTime s ticks) := by
  unfold carryTime
  repeat' (first | with_reducible exact hk | with_reducible assumption | with_reducible apply resumeTime_kept | with_reducible apply Kept.ite | intro _ | extract_lets | fail_if_no_progress with_reducible refine Kept.upd ?_ rfl rfl rfl | fail_if_no_progress with_reducible refine Kept.updAny ?_ rfl rfl rfl rfl)

theorem applyCaptured_kept {K J : Bool} {c₀ : State} {s : State} (hk : Kept K J c₀ s) : Kept K J c₀ (applyCaptured s) := by
  unfold applyCaptured
  repeat' (first | with_reducible exact hk | with_reducible assumption | with_reducible apply ringHead_kept | with_reducible apply ringTail_kept | with_reducible apply Kept.foldl | with_reducible apply Kept.foldl_fst | with_reducible apply Kept.foldl_snd | intro _ | extract_lets | fail_if_no_progress with_reducible refine Kept.upd ?_ rfl rfl rfl)

theorem execHolidayExitComplete_kept {J : Bool} {c₀ : State} {s : State} (ticks : Nat) (hk : Kept false J c₀ s) : KeptBy false J c₀ (execHolidayExitComplete ticks s) := by
  unfold execHolidayExitComplete
  repeat' (first | with_reducible exact hk | with_reducible assumption | with_reducible apply setRanks_kept | with_reducible apply carryTime_kept | with_reducible apply toPairing_kept | with_reducible apply toMode_kept | with_reducible apply applyCaptured_kept | with_reducible apply startCalendar_kept | with_reducible apply refreshPower_kept | with_reducible apply KeptBy.next | with_reducible apply KeptBy.fault | with_reducible apply Kept.ite | with_reducible apply KeptBy.ite | intro _ | extract_lets | fail_if_no_progress with_reducible refine Kept.upd ?_ rfl rfl rfl | fail_if_no_progress with_reducible refine Kept.updAny ?_ rfl rfl rfl rfl)

theorem execPllLock_kept {J : Bool} {c₀ : State} {s : State} (hk : Kept false J c₀ s) : KeptBy false J c₀ (execPllLock s) := by
  unfold execPllLock
  repeat' (first | with_reducible exact hk | with_reducible assumption | with_reducible apply KeptBy.next | with_reducible apply KeptBy.fault | with_reducible apply Kept.ite | with_reducible apply KeptBy.ite | intro _ | extract_lets | fail_if_no_progress with_reducible refine Kept.upd ?_ rfl rfl rfl | fail_if_no_progress with_reducible refine Kept.updAny ?_ rfl rfl rfl rfl)

theorem execPairsenseInChange_kept {K J : Bool} {c₀ : State} {s : State} (level : Bool) (heldNs : Nat) (hk : Kept K J c₀ s) : KeptBy K J c₀ (execPairsenseInChange level heldNs s) := by
  unfold execPairsenseInChange
  repeat' (first | with_reducible exact hk | with_reducible assumption | with_reducible apply KeptBy.next | with_reducible apply KeptBy.fault | with_reducible apply Kept.ite | with_reducible apply KeptBy.ite | intro _ | extract_lets | fail_if_no_progress with_reducible refine Kept.upd ?_ rfl rfl rfl)

/-! ### Machine/Thermal -/

theorem setSensor_kept {K J : Bool} {c₀ : State} {s : State} (cls : Nat) (f : Sensor → Sensor) (hk : Kept K J c₀ s) : Kept K J c₀ (setSensor s cls f) := by
  unfold setSensor
  repeat' (first | with_reducible exact hk | with_reducible assumption | with_reducible apply Kept.ite | intro _ | extract_lets | fail_if_no_progress with_reducible refine Kept.upd ?_ rfl rfl rfl | split)

theorem keepCrossing_kept {K J : Bool} {c₀ : State} {s : State} (cls : Nat) (idx : Nat) (level : Nat) (up : Bool) (reading : Int) (hk : Kept K J c₀ s) : Kept K J c₀ (keepCrossing s cls idx level up reading) := by
  unfold keepCrossing
  repeat' (first | with_reducible exact hk | with_reducible assumption | with_reducible apply raiseAll_kept | intro _ | extract_lets | fail_if_no_progress with_reducible refine Kept.upd ?_ rfl rfl rfl)

theorem judgeLevel_kept {K J : Bool} {c₀ : State} {s : State} (cls : Nat) (level : Nat) (hk : Kept K J c₀ s) : Kept K J c₀ (judgeLevel s cls level) := by
  unfold judgeLevel
  repeat' (first | with_reducible exact hk | with_reducible assumption | with_reducible apply setSensor_kept | with_reducible apply keepCrossing_kept | with_reducible apply record_kept | with_reducible apply Kept.ite | intro _ | extract_lets | fail_if_no_progress with_reducible refine Kept.upd ?_ rfl rfl rfl | split)

theorem imposeDeeper_kept {K J : Bool} {c₀ : State} {s : State} (hk : Kept K J c₀ s) : Kept K J c₀ (imposeDeeper s) := by
  unfold imposeDeeper
  repeat' (first | with_reducible exact hk | with_reducible assumption | with_reducible apply refreshPower_kept | intro _ | extract_lets | fail_if_no_progress with_reducible refine Kept.upd ?_ rfl rfl rfl)

theorem judgeRate_kept {K J : Bool} {c₀ : State} {s : State} (cls : Nat) (hk : Kept K J c₀ s) : Kept K J c₀ (judgeRate s cls) := by
  unfold judgeRate
  repeat' (first | with_reducible exact hk | with_reducible assumption | with_reducible apply setSensor_kept | with_reducible apply keepCrossing_kept | with_reducible apply record_kept | with_reducible apply imposeDeeper_kept | with_reducible apply Kept.ite | intro _ | extract_lets | fail_if_no_progress with_reducible refine Kept.upd ?_ rfl rfl rfl | split)

theorem takeSample_kept {K J : Bool} {c₀ : State} {s : State} (cls : Nat) (now : List Int) (hk : Kept K J c₀ s) : Kept K J c₀ (takeSample s cls now) := by
  unfold takeSample
  repeat' (first | with_reducible exact hk | with_reducible assumption | with_reducible apply setSensor_kept | with_reducible apply Kept.ite | with_reducible apply Kept.foldl | intro _ | extract_lets | fail_if_no_progress with_reducible refine Kept.upd ?_ rfl rfl rfl | split | dsimp +zetaDelta only)

theorem startShutdown_kept {J : Bool} {c₀ : State} {s : State} (hk : Kept false J c₀ s) : Kept false J c₀ (startShutdown s) := by
  unfold startShutdown
  repeat' (first | with_reducible exact hk | with_reducible assumption | with_reducible apply abandonEntry_kept | with_reducible apply abortErases_kept | with_reducible apply updateAna_kept | with_reducible apply beginDeparture_kept | with_reducible apply Kept.ite | intro _ | extract_lets | fail_if_no_progress with_reducible refine Kept.upd ?_ rfl rfl rfl | fail_if_no_progress with_reducible refine Kept.updAny ?_ rfl rfl rfl rfl)

theorem actShutdown_kept {J : Bool} {c₀ : State} {s : State} (hk : Kept false J c₀ s) : Kept false J c₀ (actShutdown s) := by
  unfold actShutdown
  repeat' (first | with_reducible exact hk | with_reducible assumption | with_reducible apply startShutdown_kept | with_reducible apply toQuarantine_kept | with_reducible apply Kept.ite | intro _ | extract_lets | fail_if_no_progress with_reducible refine Kept.upd ?_ rfl rfl rfl)

theorem execThermalSample_kept {J : Bool} {c₀ : State} {s : State} (cls : Nat) (first : Int) (rest : List Int) (hk : Kept false J c₀ s) : KeptBy false J c₀ (execThermalSample cls first rest s) := by
  unfold execThermalSample
  repeat' (first | with_reducible exact hk | with_reducible assumption | with_reducible apply takeSample_kept | with_reducible apply judgeLevel_kept | with_reducible apply imposeDeeper_kept | with_reducible apply judgeRate_kept | with_reducible apply abandonTest_kept | with_reducible apply refreshCrit_kept | with_reducible apply ccsSet_kept | with_reducible apply tryTest_kept | with_reducible apply actShutdown_kept | with_reducible apply KeptBy.next | with_reducible apply KeptBy.fault | with_reducible apply Kept.ite | with_reducible apply KeptBy.ite | intro _ | extract_lets | fail_if_no_progress with_reducible refine Kept.upd ?_ rfl rfl rfl)

theorem execThrottleDeepen_kept {K J : Bool} {c₀ : State} {s : State} (hk : Kept K J c₀ s) : KeptBy K J c₀ (execThrottleDeepen s) := by
  unfold execThrottleDeepen
  repeat' (first | with_reducible exact hk | with_reducible assumption | with_reducible apply imposeDeeper_kept | with_reducible apply KeptBy.next | with_reducible apply KeptBy.fault | with_reducible apply Kept.ite | with_reducible apply KeptBy.ite | intro _ | extract_lets | fail_if_no_progress with_reducible refine Kept.upd ?_ rfl rfl rfl)

theorem relaxed_kept {K J : Bool} {c₀ : State} {s : State} (hk : Kept K J c₀ s) : Kept K J c₀ (relaxed s) := by
  unfold relaxed
  repeat' (first | with_reducible exact hk | with_reducible assumption | with_reducible apply refreshPower_kept | with_reducible apply Kept.ite | with_reducible apply Kept.elim | intro _ | extract_lets | fail_if_no_progress with_reducible refine Kept.upd ?_ rfl rfl rfl)

theorem execThrottleRelax_kept {K J : Bool} {c₀ : State} {s : State} (hk : Kept K J c₀ s) : KeptBy K J c₀ (execThrottleRelax s) := by
  unfold execThrottleRelax
  repeat' (first | with_reducible exact hk | with_reducible assumption | with_reducible apply relaxed_kept | with_reducible apply KeptBy.next | with_reducible apply KeptBy.fault | with_reducible apply Kept.ite | with_reducible apply KeptBy.ite | intro _)

theorem execRateHoldEnd_kept {K J : Bool} {c₀ : State} {s : State} (cls : Nat) (hk : Kept K J c₀ s) : KeptBy K J c₀ (execRateHoldEnd cls s) := by
  unfold execRateHoldEnd
  repeat' (first | with_reducible exact hk | with_reducible assumption | with_reducible apply KeptBy.next | with_reducible apply KeptBy.fault | with_reducible apply Kept.ite | with_reducible apply KeptBy.ite | intro _ | extract_lets | fail_if_no_progress with_reducible refine Kept.upd ?_ rfl rfl rfl)

theorem execShutdownPassDeadline_kept {J : Bool} {c₀ : State} {s : State} (hk : Kept false J c₀ s) : KeptBy false J c₀ (execShutdownPassDeadline s) := by
  unfold execShutdownPassDeadline
  repeat' (first | with_reducible exact hk | with_reducible assumption | with_reducible apply resetDies_kept | with_reducible apply KeptBy.next | with_reducible apply KeptBy.fault | with_reducible apply Kept.ite | with_reducible apply KeptBy.ite | intro _ | extract_lets | fail_if_no_progress with_reducible refine Kept.upd ?_ rfl rfl rfl | fail_if_no_progress with_reducible refine Kept.updAny ?_ rfl rfl rfl rfl)

theorem execThermalQuarantineEntry_kept {J : Bool} {c₀ : State} {s : State} (shifts : List Nat) (hk : Kept false J c₀ s) : KeptBy false J c₀ (execThermalQuarantineEntry shifts s) := by
  unfold execThermalQuarantineEntry
  repeat' (first | with_reducible exact hk | with_reducible assumption | with_reducible apply makeSeal_kept | with_reducible apply checkpoint_kept | with_reducible apply toQuarantine_kept | with_reducible apply KeptBy.next | with_reducible apply KeptBy.fault | with_reducible apply Kept.ite | with_reducible apply KeptBy.ite | intro _ | extract_lets | fail_if_no_progress with_reducible refine Kept.upd ?_ rfl rfl rfl | fail_if_no_progress with_reducible refine Kept.updAny ?_ rfl rfl rfl rfl)

theorem execQuarantineThermalExit_kept {J : Bool} {c₀ : State} {s : State} (hk : Kept false J c₀ s) : KeptBy false J c₀ (execQuarantineThermalExit s) := by
  unfold execQuarantineThermalExit
  repeat' (first | with_reducible exact hk | with_reducible assumption | with_reducible apply toMode_kept | with_reducible apply startCalendar_kept | with_reducible apply KeptBy.next | with_reducible apply KeptBy.fault | with_reducible apply Kept.ite | with_reducible apply KeptBy.ite | intro _ | extract_lets | fail_if_no_progress with_reducible refine Kept.upd ?_ rfl rfl rfl | fail_if_no_progress with_reducible refine Kept.updAny ?_ rfl rfl rfl rfl)

theorem execMinuteRecord_kept {J : Bool} {c₀ : State} {s : State} (powerA : Nat) (powerB : Nat) (hk : Kept false J c₀ s) : KeptBy false J c₀ (execMinuteRecord powerA powerB s) := by
  unfold execMinuteRecord
  repeat' (first | with_reducible exact hk | with_reducible assumption | with_reducible apply KeptBy.next | with_reducible apply KeptBy.fault | with_reducible apply Kept.ite | with_reducible apply KeptBy.ite | with_reducible apply Kept.elim | with_reducible apply KeptBy.elim | with_reducible apply Kept.foldl | intro _ | extract_lets | fail_if_no_progress with_reducible refine Kept.upd ?_ rfl rfl rfl | fail_if_no_progress with_reducible refine Kept.updAny ?_ rfl rfl rfl rfl)

/-! ### Machine/Clock -/

theorem tick_kept {J : Bool} {c₀ : State} {s : State} (hk : Kept false J c₀ s) : Kept false J c₀ (tick s) := by
  unfold tick
  repeat' (first | with_reducible exact hk | with_reducible assumption | with_reducible apply passTime_kept | with_reducible apply Kept.ite | intro _)

/-! ### Machine/Scratchpad -/

theorem setBank_kept {K J : Bool} {c₀ : State} {s : State} (bank : Nat) (f : Bank → Bank) (hk : Kept K J c₀ s) : Kept K J c₀ (setBank s bank f) := by
  unfold setBank
  repeat' (first | with_reducible exact hk | with_reducible assumption | intro _ | extract_lets | fail_if_no_progress with_reducible refine Kept.upd ?_ rfl rfl rfl)

theorem handOver_kept {K J : Bool} {c₀ : State} {s : State} (bank : Nat) (o : Owner) (hk : Kept K J c₀ s) : Kept K J c₀ (handOver s bank o) := by
  unfold handOver
  repeat' (first | with_reducible exact hk | with_reducible assumption | with_reducible apply setBank_kept | with_reducible apply Kept.ite | intro _)

theorem setPadWord_kept {K J : Bool} {c₀ : State} {s : State} (w : Nat) (v : Nat) (hk : Kept K J c₀ s) : Kept K J c₀ (setPadWord s w v) := by
  unfold setPadWord
  repeat' (first | with_reducible exact hk | with_reducible assumption | intro _ | extract_lets | fail_if_no_progress with_reducible refine Kept.upd ?_ rfl rfl rfl)

theorem PadPart.store_kept {K J : Bool} {c₀ : State} {s : State} (p : PadPart) (hk : Kept K J c₀ s) : Kept K J c₀ (PadPart.store s p) := by
  unfold PadPart.store
  repeat' (first | with_reducible exact hk | with_reducible assumption | with_reducible apply setPadWord_kept | with_reducible apply Kept.elim | intro _)

theorem padCycle_kept {K J : Bool} {c₀ : State} {s : State} (ps : List PadPart) (hk : Kept K J c₀ s) : Kept K J c₀ (padCycle s ps) := by
  unfold padCycle
  repeat' (first | with_reducible exact hk | with_reducible assumption | with_reducible apply PadPart.store_kept | with_reducible apply Kept.foldl)

theorem padAccesses_kept {K J : Bool} {c₀ : State} {s : State} (bank : Nat) (as : List PadAccess) (hk : Kept K J c₀ s) : Kept K J c₀ (padAccesses s bank as).2 := by
  unfold padAccesses
  repeat' (first | with_reducible exact hk | with_reducible assumption | with_reducible apply padCycle_kept)

theorem restoreChunk_kept {K J : Bool} {c₀ : State} {s : State} (bank : Nat) (hk : Kept K J c₀ s) : Kept K J c₀ (restoreChunk s bank) := by
  unfold restoreChunk
  repeat' (first | with_reducible exact hk | with_reducible assumption | with_reducible apply setPadWord_kept | with_reducible apply setBank_kept | with_reducible apply Kept.foldl | intro _)

theorem displaceChunk_kept {K J : Bool} {c₀ : State} {s : State} (bank : Nat) (chunk : Nat) (hk : Kept K J c₀ s) : Kept K J c₀ (displaceChunk s bank chunk) := by
  unfold displaceChunk
  repeat' (first | with_reducible exact hk | with_reducible assumption | with_reducible apply drawFree_kept | with_reducible apply setPadWord_kept | with_reducible apply setBank_kept | with_reducible apply Kept.foldl | with_reducible apply Kept.foldl_fst | with_reducible apply Kept.foldl_snd | intro _)

theorem lendBank_kept {K J : Bool} {c₀ : State} {s : State} (bank : Nat) (hk : Kept K J c₀ s) : Kept K J c₀ (lendBank s bank) := by
  unfold lendBank
  repeat' (first | with_reducible exact hk | with_reducible assumption | with_reducible apply setBank_kept | with_reducible apply handOver_kept | with_reducible apply Kept.ite | intro _)

theorem handBack_kept {K J : Bool} {c₀ : State} {s : State} (bank : Nat) (hk : Kept K J c₀ s) : Kept K J c₀ (handBack s bank) := by
  unfold handBack
  repeat' (first | with_reducible exact hk | with_reducible assumption | with_reducible apply handOver_kept | with_reducible apply setBank_kept)

theorem testBank_kept {K J : Bool} {c₀ : State} {s : State} (bank : Nat) (chunks : Nat) (failing : Nat) (hk : Kept K J c₀ s) : Kept K J c₀ (testBank s bank chunks failing) := by
  unfold testBank
  repeat' (first | with_reducible exact hk | with_reducible assumption | with_reducible apply restoreChunk_kept | with_reducible apply lendBank_kept | with_reducible apply setBank_kept | with_reducible apply handBack_kept | with_reducible apply displaceChunk_kept | with_reducible apply Kept.ite | intro _)

theorem execMemoryTestCancel_kept {K J : Bool} {c₀ : State} {s : State} (use : BankUse) (hk : Kept K J c₀ s) : KeptBy K J c₀ (execMemoryTestCancel use s) := by
  unfold execMemoryTestCancel
  repeat' (first | with_reducible exact hk | with_reducible assumption | with_reducible refine Kept.of_snd ?_ (by assumption) | with_reducible apply setBank_kept | with_reducible apply handBack_kept | with_reducible apply restoreChunk_kept | with_reducible apply padAccesses_kept | with_reducible apply KeptBy.next | with_reducible apply KeptBy.fault | with_reducible apply Kept.ite | with_reducible apply KeptBy.ite | intro _ | extract_lets | fail_if_no_progress with_reducible refine Kept.upd ?_ rfl rfl rfl)

/-! ### Machine/Internals -/

theorem execEventDrain_kept {K J : Bool} {c₀ : State} {s : State} (hk : Kept K J c₀ s) : KeptBy K J c₀ (execEventDrain s) := by
  unfold execEventDrain
  repeat' (first | with_reducible exact hk | with_reducible assumption | with_reducible apply record_kept | with_reducible apply KeptBy.next | with_reducible apply KeptBy.fault | with_reducible apply Kept.ite | with_reducible apply KeptBy.ite | intro _ | extract_lets | fail_if_no_progress with_reducible refine Kept.upd ?_ rfl rfl rfl)

theorem execEventJournalWrite_kept {K J : Bool} {c₀ : State} {s : State} (hk : Kept K J c₀ s) : KeptBy K J c₀ (execEventJournalWrite s) := by
  unfold execEventJournalWrite
  repeat' (first | with_reducible exact hk | with_reducible assumption | with_reducible apply KeptBy.next | with_reducible apply KeptBy.fault | with_reducible apply Kept.ite | with_reducible apply KeptBy.ite | intro _ | extract_lets | fail_if_no_progress with_reducible refine Kept.upd ?_ rfl rfl rfl)

theorem execEventBucketRefill_kept {K J : Bool} {c₀ : State} {s : State} (typ : Nat) (hk : Kept K J c₀ s) : KeptBy K J c₀ (execEventBucketRefill typ s) := by
  unfold execEventBucketRefill
  repeat' (first | with_reducible exact hk | with_reducible assumption | with_reducible apply record_kept | with_reducible apply KeptBy.next | with_reducible apply KeptBy.fault | with_reducible apply Kept.ite | with_reducible apply KeptBy.ite | intro _ | extract_lets | fail_if_no_progress with_reducible refine Kept.upd ?_ rfl rfl rfl)

theorem resetCore_kept {K J : Bool} {c₀ : State} {s : State} (c : Nat) (hk : Kept K J c₀ s) : Kept K J c₀ (resetCore s c) := by
  unfold resetCore
  repeat' (first | with_reducible exact hk | with_reducible assumption | with_reducible apply record_kept | with_reducible apply setCore_kept)

theorem execManagementCoreWatchdog_kept {K J : Bool} {c₀ : State} {s : State} (core : Nat) (hk : Kept K J c₀ s) : KeptBy K J c₀ (execManagementCoreWatchdog core s) := by
  unfold execManagementCoreWatchdog
  repeat' (first | with_reducible exact hk | with_reducible assumption | with_reducible apply resetCore_kept | with_reducible apply KeptBy.next | with_reducible apply KeptBy.fault | with_reducible apply Kept.ite | with_reducible apply KeptBy.ite | intro _)

theorem execSecurityCoreWatchdog_kept {K J : Bool} {c₀ : State} {s : State} (hk : Kept K J c₀ s) : KeptBy K J c₀ (execSecurityCoreWatchdog s) := by
  unfold execSecurityCoreWatchdog
  repeat' (first | with_reducible exact hk | with_reducible assumption | with_reducible apply resetCore_kept | with_reducible apply KeptBy.next | with_reducible apply KeptBy.fault | with_reducible apply Kept.ite | with_reducible apply KeptBy.ite | intro _)

theorem execTimeCorrection_kept {J : Bool} {c₀ : State} {s : State} (copy : Nat) (reading : Nat) (hk : Kept false J c₀ s) : KeptBy false J c₀ (execTimeCorrection copy reading s) := by
  unfold execTimeCorrection
  repeat' (first | with_reducible exact hk | with_reducible assumption | with_reducible apply KeptBy.next | with_reducible apply KeptBy.fault | with_reducible apply Kept.ite | with_reducible apply KeptBy.ite | intro _ | extract_lets | fail_if_no_progress with_reducible refine Kept.upd ?_ rfl rfl rfl | fail_if_no_progress with_reducible refine Kept.updAny ?_ rfl rfl rfl rfl)

theorem faultQuarantine_kept {J : Bool} {c₀ : State} {s : State} (cause : Nat) (hk : Kept false J c₀ s) : Kept false J c₀ (faultQuarantine s cause) := by
  unfold faultQuarantine
  repeat' (first | with_reducible exact hk | with_reducible assumption | with_reducible apply toQuarantine_kept | with_reducible apply Kept.ite | intro _ | extract_lets | fail_if_no_progress with_reducible refine Kept.upd ?_ rfl rfl rfl)

theorem failBuffered_kept {K J : Bool} {c₀ : State} {s : State} (hk : Kept K J c₀ s) : Kept K J c₀ (failBuffered s) := by
  unfold failBuffered
  repeat' (first | with_reducible exact hk | with_reducible assumption | with_reducible apply finish_kept | with_reducible apply dropWrite_kept | with_reducible apply Kept.ite | with_reducible apply Kept.foldl | with_reducible apply Kept.foldl_fst | with_reducible apply Kept.foldl_snd | intro _ | extract_lets | split)

theorem readAgain_kept {K J : Bool} {c₀ : State} {s : State} (hk : Kept K J c₀ s) : Kept K J c₀ (readAgain s) := by
  unfold readAgain
  repeat' (first | with_reducible exact hk | with_reducible assumption | with_reducible apply setCmd_kept | with_reducible apply endXts_kept | with_reducible apply addClaim_kept | with_reducible apply Kept.ite | with_reducible apply Kept.elim | with_reducible apply Kept.foldl | with_reducible apply Kept.foldl_fst | with_reducible apply Kept.foldl_snd | intro _)

theorem failChannel_kept {K J : Bool} {c₀ : State} {s : State} (c : Nat) (hk : Kept K J c₀ s) : Kept K J c₀ (failChannel s c) := by
  unfold failChannel
  repeat' (first | with_reducible exact hk | with_reducible assumption | with_reducible apply passFailed_kept | with_reducible apply setDie_kept | with_reducible apply toErase_kept | with_reducible apply Kept.ite | with_reducible apply Kept.elim | with_reducible apply Kept.foldl | with_reducible apply Kept.foldl_fst | with_reducible apply Kept.foldl_snd | intro _)

theorem islandEffect_kept {J : Bool} {c₀ : State} {s : State} (island : Nat) (channel : Nat) (hk : Kept false J c₀ s) : Kept false J c₀ (islandEffect s island channel) := by
  unfold islandEffect
  repeat' (first | with_reducible exact fun _ _ => rfl | with_reducible exact hk | with_reducible assumption | with_reducible apply hostReset_kept | with_reducible apply readAgain_kept | with_reducible apply failBuffered_kept | with_reducible apply setRanks_kept | with_reducible apply failChannel_kept | with_reducible apply refreshCrit_kept | with_reducible apply setFlags_kept | intro _ | extract_lets | fail_if_no_progress with_reducible refine Kept.upd ?_ rfl rfl rfl | fail_if_no_progress with_reducible refine Kept.updAny ?_ rfl rfl rfl rfl | split | contradiction)

theorem islandFault_kept {J : Bool} {c₀ : State} {s : State} (island : Nat) (crossing : Nat) (stallAt : Nat) (channel : Nat) (hk : Kept false J c₀ s) : Kept false J c₀ (islandFault s island crossing stallAt channel) := by
  unfold islandFault
  repeat' (first | with_reducible exact hk | with_reducible assumption | with_reducible apply capture_kept | with_reducible apply record_kept | with_reducible apply islandEffect_kept | with_reducible apply faultQuarantine_kept | with_reducible apply Kept.ite | intro _ | extract_lets | fail_if_no_progress with_reducible refine Kept.upd ?_ rfl rfl rfl | fail_if_no_progress with_reducible refine Kept.updAny ?_ rfl rfl rfl rfl | split)

theorem execIslandFault_kept {J : Bool} {c₀ : State} {s : State} (island : Nat) (crossing : Nat) (stallAt : Nat) (channel : Nat) (hk : Kept false J c₀ s) : KeptBy false J c₀ (execIslandFault island crossing stallAt channel s) := by
  unfold execIslandFault
  repeat' (first | with_reducible exact hk | with_reducible assumption | with_reducible apply islandFault_kept | with_reducible apply KeptBy.next | with_reducible apply KeptBy.fault | with_reducible apply Kept.ite | with_reducible apply KeptBy.ite | intro _)

theorem refusedDecrement_kept {J : Bool} {c₀ : State} {s : State} (hk : Kept false J c₀ s) : Kept false J c₀ (refusedDecrement s) := by
  unfold refusedDecrement
  repeat' (first | with_reducible exact hk | with_reducible assumption | with_reducible apply islandFault_kept | with_reducible apply Kept.ite | intro _)

theorem execSlotBoundary_kept {J : Bool} {c₀ : State} {s : State} (hk : Kept false J c₀ s) : KeptBy false J c₀ (execSlotBoundary s) := by
  unfold execSlotBoundary
  repeat' (first | with_reducible exact hk | with_reducible assumption | with_reducible apply refusedDecrement_kept | with_reducible apply nextBoundary_kept | with_reducible apply KeptBy.next)

theorem execIslandResetComplete_kept {J : Bool} {c₀ : State} {s : State} (island : Nat) (channel : Nat) (hk : Kept false J c₀ s) : KeptBy false J c₀ (execIslandResetComplete island channel s) := by
  unfold execIslandResetComplete
  repeat' (first | with_reducible exact fun _ _ => rfl | with_reducible exact hk | with_reducible assumption | with_reducible apply setRanks_kept | with_reducible apply refreshCrit_kept | with_reducible apply setFlags_kept | with_reducible apply KeptBy.next | with_reducible apply KeptBy.fault | with_reducible apply Kept.ite | with_reducible apply KeptBy.ite | intro _ | extract_lets | fail_if_no_progress with_reducible refine Kept.upd ?_ rfl rfl rfl | fail_if_no_progress with_reducible refine Kept.updAny ?_ rfl rfl rfl rfl | split | dsimp +zetaDelta only | contradiction)

theorem execMemoryTestRound_kept {J : Bool} {c₀ : State} {s : State} (bank : Nat) (chunks : Nat) (failing : Nat) (hk : Kept false J c₀ s) : KeptBy false J c₀ (execMemoryTestRound bank chunks failing s) := by
  unfold execMemoryTestRound
  repeat' (first | with_reducible exact hk | with_reducible assumption | with_reducible apply testBank_kept | with_reducible apply faultQuarantine_kept | with_reducible apply KeptBy.next | with_reducible apply KeptBy.fault | with_reducible apply Kept.ite | with_reducible apply KeptBy.ite | intro _)

theorem execPatrolScrub_kept {K J : Bool} {c₀ : State} {s : State} (corrected : Nat) (hk : Kept K J c₀ s) : KeptBy K J c₀ (execPatrolScrub corrected s) := by
  unfold execPatrolScrub
  repeat' (first | with_reducible exact hk | with_reducible assumption | with_reducible apply KeptBy.next | with_reducible apply KeptBy.fault | with_reducible apply Kept.ite | with_reducible apply KeptBy.ite | intro _ | extract_lets | fail_if_no_progress with_reducible refine Kept.upd ?_ rfl rfl rfl)

theorem loseRecord_kept {K : Bool} {c₀ : State} {s : State} (r : VRec) (hk : Kept K false c₀ s) : Kept K false c₀ (loseRecord s r) := by
  unfold loseRecord
  repeat' (first | with_reducible exact hk | with_reducible assumption | with_reducible apply fetchFromTwin_kept | with_reducible apply storeLba_kept | with_reducible apply listLost_kept | with_reducible apply Kept.ite | with_reducible apply Kept.foldl | intro _ | extract_lets | fail_if_no_progress with_reducible refine Kept.upd ?_ rfl rfl rfl | split)

theorem rewriteRecord_kept {K J : Bool} {c₀ : State} {s : State} (seq : Nat) (r : VRec) (hk : Kept K J c₀ s) : Kept K J c₀ (rewriteRecord s seq r) := by
  unfold rewriteRecord
  repeat' (first | with_reducible exact hk | with_reducible assumption | with_reducible apply formRecord_kept | intro _ | extract_lets | fail_if_no_progress with_reducible refine Kept.upd ?_ rfl rfl rfl)

theorem execDramUncorrectableError_kept {c₀ : State} {s : State} (channel : Nat) (part : Nat) (seq : Nat) (ok : Bool) (hk : Kept false false c₀ s) : KeptBy false false c₀ (execDramUncorrectableError channel part seq ok s) := by
  unfold execDramUncorrectableError
  repeat' (first | with_reducible exact hk | with_reducible assumption | with_reducible apply faultQuarantine_kept | with_reducible apply record_kept | with_reducible apply loseRecord_kept | with_reducible apply rewriteRecord_kept | with_reducible apply KeptBy.next | with_reducible apply KeptBy.fault | with_reducible apply Kept.ite | with_reducible apply KeptBy.ite | intro _ | extract_lets | split)

theorem execI3cAddressAssignment_kept {J : Bool} {c₀ : State} {s : State} (dynamic : Option Nat) (hk : Kept false J c₀ s) : KeptBy false J c₀ (execI3cAddressAssignment dynamic s) := by
  unfold execI3cAddressAssignment
  repeat' (first | with_reducible exact hk | with_reducible assumption | with_reducible apply KeptBy.next | with_reducible apply KeptBy.fault | with_reducible apply Kept.ite | with_reducible apply KeptBy.ite | intro _ | extract_lets | fail_if_no_progress with_reducible refine Kept.upd ?_ rfl rfl rfl | fail_if_no_progress with_reducible refine Kept.updAny ?_ rfl rfl rfl rfl)

/-! ### Machine/Reports -/

theorem nextFree_kept {K J : Bool} {c₀ : State} {s : State} (hk : Kept K J c₀ s) : Kept K J c₀ (nextFree s) := by
  unfold nextFree
  repeat' (first | with_reducible exact hk | with_reducible assumption | intro _ | extract_lets | fail_if_no_progress with_reducible refine Kept.upd ?_ rfl rfl rfl)

theorem execIdentify_kept {K J : Bool} {c₀ : State} {s : State} (e : Sqe) (hk : Kept K J c₀ s) : KeptBy K J c₀ (execIdentify e s) := by
  unfold execIdentify
  repeat' (first | with_reducible exact hk | with_reducible assumption | with_reducible apply adminCmd_kept | with_reducible apply adminDone_kept | with_reducible apply nextFree_kept | with_reducible apply KeptBy.next | with_reducible apply KeptBy.fault | intro _ | extract_lets | split)

theorem clearEvent_kept {K J : Bool} {c₀ : State} {s : State} (e : Sqe) (hk : Kept K J c₀ s) : Kept K J c₀ (clearEvent s e) := by
  unfold clearEvent
  repeat' (first | with_reducible exact hk | with_reducible assumption | with_reducible apply setCtrl_kept | with_reducible apply setNs_kept | with_reducible apply Kept.ite | intro _ | extract_lets | fail_if_no_progress with_reducible refine Kept.upd ?_ rfl rfl rfl)

theorem execGetLogPage_kept {K J : Bool} {c₀ : State} {s : State} (e : Sqe) (hk : Kept K J c₀ s) : KeptBy K J c₀ (execGetLogPage e s) := by
  unfold execGetLogPage
  repeat' (first | with_reducible exact hk | with_reducible assumption | with_reducible apply adminCmd_kept | with_reducible apply adminDone_kept | with_reducible apply clearEvent_kept | with_reducible apply KeptBy.next | with_reducible apply KeptBy.fault | intro _)

theorem execTelemetryHostInitiatedCreate_kept {K J : Bool} {c₀ : State} {s : State} (e : Sqe) (hk : Kept K J c₀ s) : KeptBy K J c₀ (execTelemetryHostInitiatedCreate e s) := by
  unfold execTelemetryHostInitiatedCreate
  repeat' (first | with_reducible exact hk | with_reducible assumption | with_reducible apply adminCmd_kept | with_reducible apply adminDone_kept | with_reducible apply nextFree_kept | with_reducible apply clearEvent_kept | with_reducible apply KeptBy.next | with_reducible apply KeptBy.fault | intro _ | extract_lets | fail_if_no_progress with_reducible refine Kept.upd ?_ rfl rfl rfl)

theorem execGetFeatures_kept {K J : Bool} {c₀ : State} {s : State} (e : Sqe) (hk : Kept K J c₀ s) : KeptBy K J c₀ (execGetFeatures e s) := by
  unfold execGetFeatures
  repeat' (first | with_reducible exact hk | with_reducible assumption | with_reducible apply adminCmd_kept | with_reducible apply adminDone_kept | with_reducible apply nextFree_kept | with_reducible apply KeptBy.next | with_reducible apply KeptBy.fault | intro _ | extract_lets | split)

/-! ### Machine/Security -/

theorem execSecuritySend_kept {K J : Bool} {c₀ : State} {s : State} (e : Sqe) (hk : Kept K J c₀ s) : KeptBy K J c₀ (execSecuritySend e s) := by
  unfold execSecuritySend
  repeat' (first | with_reducible exact hk | with_reducible assumption | with_reducible apply adminCmd_kept | with_reducible apply tcgResult_kept | with_reducible apply KeptBy.next | with_reducible apply KeptBy.fault | intro _)

theorem execSecurityReceive_kept {K J : Bool} {c₀ : State} {s : State} (e : Sqe) (hk : Kept K J c₀ s) : KeptBy K J c₀ (execSecurityReceive e s) := by
  unfold execSecurityReceive
  repeat' (first | with_reducible exact hk | with_reducible assumption | with_reducible apply adminCmd_kept | with_reducible apply adminDone_kept | with_reducible apply nextFree_kept | with_reducible apply KeptBy.next | with_reducible apply KeptBy.fault | with_reducible apply Kept.ite | with_reducible apply KeptBy.ite | intro _ | extract_lets | fail_if_no_progress with_reducible refine Kept.upd ?_ rfl rfl rfl | split)

theorem execKekInjection_kept {K J : Bool} {c₀ : State} {s : State} (e : Sqe) (kek : Nat) (key : Nat) (ok : Bool) (hk : Kept K J c₀ s) : KeptBy K J c₀ (execKekInjection e kek key ok s) := by
  unfold execKekInjection
  repeat' (first | with_reducible exact hk | with_reducible assumption | with_reducible apply adminCmd_kept | with_reducible apply tcgResult_kept | with_reducible apply KeptBy.next | with_reducible apply KeptBy.fault | with_reducible apply Kept.ite | with_reducible apply KeptBy.ite | intro _ | extract_lets | fail_if_no_progress with_reducible refine Kept.upd ?_ rfl rfl rfl)

theorem execMediaKeyInjection_kept {K J : Bool} {c₀ : State} {s : State} (e : Sqe) (keyTag : Nat) (kek : Nat) (key : Nat) (ok : Bool) (hk : Kept K J c₀ s) : KeptBy K J c₀ (execMediaKeyInjection e keyTag kek key ok s) := by
  unfold execMediaKeyInjection
  repeat' (first | with_reducible exact hk | with_reducible assumption | with_reducible apply adminCmd_kept | with_reducible apply tcgResult_kept | with_reducible apply carryAdmin_kept | with_reducible apply inject_kept | with_reducible apply KeptBy.next | with_reducible apply KeptBy.fault | with_reducible apply Kept.ite | with_reducible apply KeptBy.ite | intro _ | extract_lets | fail_if_no_progress with_reducible refine Kept.upd ?_ rfl rfl rfl | split)

theorem execKeyPerIoEnable_kept {K J : Bool} {c₀ : State} {s : State} (e : Sqe) (tags : Nat) (hk : Kept K J c₀ s) : KeptBy K J c₀ (execKeyPerIoEnable e tags s) := by
  unfold execKeyPerIoEnable
  repeat' (first | with_reducible exact hk | with_reducible assumption | with_reducible apply adminCmd_kept | with_reducible apply tcgResult_kept | with_reducible apply takeSlots_kept | with_reducible apply carryAdmin_kept | with_reducible apply enableKpio_kept | with_reducible apply KeptBy.next | with_reducible apply KeptBy.fault | with_reducible apply Kept.ite | with_reducible apply KeptBy.ite | intro _ | extract_lets | fail_if_no_progress with_reducible refine Kept.upd ?_ rfl rfl rfl | split)

theorem execKeyPerIoDisable_kept {K J : Bool} {c₀ : State} {s : State} (e : Sqe) (hk : Kept K J c₀ s) : KeptBy K J c₀ (execKeyPerIoDisable e s) := by
  unfold execKeyPerIoDisable
  repeat' (first | with_reducible exact hk | with_reducible assumption | with_reducible refine Kept.of_snd ?_ (by assumption) | with_reducible apply adminCmd_kept | with_reducible apply tcgResult_kept | with_reducible apply drawKey_kept | with_reducible apply carryAdmin_kept | with_reducible apply disableKpio_kept | with_reducible apply KeptBy.next | with_reducible apply KeptBy.fault | with_reducible apply Kept.ite | with_reducible apply KeptBy.ite | intro _ | extract_lets | fail_if_no_progress with_reducible refine Kept.upd ?_ rfl rfl rfl | split)

/-! ### Machine/Mi -/

theorem miReply_kept {K J : Bool} {c₀ : State} {s : State} (port : Nat) (status : Nat) (data : List Nat) (hk : Kept K J c₀ s) : Kept K J c₀ (miReply s port status data) := by
  unfold miReply
  repeat' (first | with_reducible exact hk | with_reducible assumption | intro _ | extract_lets | fail_if_no_progress with_reducible refine Kept.upd ?_ rfl rfl rfl)

theorem miAnswer_kept {K J : Bool} {c₀ : State} {s : State} (port : Nat) (f : State → State) (hk : Kept K J c₀ s) (k_f : ∀ s, Kept K J c₀ s → Kept K J c₀ (f s)) : KeptBy K J c₀ (miAnswer s port f) := by
  unfold miAnswer
  repeat' (first | with_reducible exact hk | with_reducible assumption | with_reducible apply k_f | with_reducible apply KeptBy.next | with_reducible apply KeptBy.fault | with_reducible apply Kept.ite | with_reducible apply KeptBy.ite | intro _)

theorem execReadNvmeMiDataStructure_kept {K J : Bool} {c₀ : State} {s : State} (port : Nat) (typ : Nat) (id : Nat) (hk : Kept K J c₀ s) : KeptBy K J c₀ (execReadNvmeMiDataStructure port typ id s) := by
  unfold execReadNvmeMiDataStructure
  repeat' (first | with_reducible exact hk | with_reducible assumption | with_reducible apply miAnswer_kept | with_reducible apply miReply_kept | with_reducible apply KeptBy.next | with_reducible apply KeptBy.fault | intro _ | extract_lets | split)

theorem clearCcs_kept {K J : Bool} {c₀ : State} {s : State} (mask : BitVec 16) (hk : Kept K J c₀ s) : Kept K J c₀ (clearCcs s mask) := by
  unfold clearCcs
  repeat' (first | with_reducible exact hk | with_reducible assumption | intro _ | extract_lets | fail_if_no_progress with_reducible refine Kept.upd ?_ rfl rfl rfl)

theorem execNvmSubsystemHealthStatusPoll_kept {K J : Bool} {c₀ : State} {s : State} (port : Nat) (clear : Bool) (hk : Kept K J c₀ s) : KeptBy K J c₀ (execNvmSubsystemHealthStatusPoll port clear s) := by
  unfold execNvmSubsystemHealthStatusPoll
  repeat' (first | with_reducible exact hk | with_reducible assumption | with_reducible apply miAnswer_kept | with_reducible apply miReply_kept | with_reducible apply nextFree_kept | with_reducible apply clearCcs_kept | with_reducible apply KeptBy.next | with_reducible apply KeptBy.fault | with_reducible apply Kept.ite | with_reducible apply KeptBy.ite | intro _)

theorem execControllerHealthStatusPoll_kept {K J : Bool} {c₀ : State} {s : State} (port : Nat) (start : Nat) (count : Nat) (clear : Bool) (hk : Kept K J c₀ s) : KeptBy K J c₀ (execControllerHealthStatusPoll port start count clear s) := by
  unfold execControllerHealthStatusPoll
  repeat' (first | with_reducible exact hk | with_reducible assumption | with_reducible apply miAnswer_kept | with_reducible apply miReply_kept | with_reducible apply clearCcs_kept | with_reducible apply KeptBy.next | with_reducible apply KeptBy.fault | with_reducible apply Kept.ite | with_reducible apply KeptBy.ite | intro _)

theorem execConfigurationSet_kept {J : Bool} {c₀ : State} {s : State} (port : Nat) (id : Nat) (arg : Nat) (value : Nat) (hk : Kept false J c₀ s) : KeptBy false J c₀ (execConfigurationSet port id arg value s) := by
  unfold execConfigurationSet
  repeat' (first | with_reducible exact hk | with_reducible assumption | with_reducible apply miAnswer_kept | with_reducible apply miReply_kept | with_reducible apply clearCcs_kept | with_reducible apply KeptBy.next | with_reducible apply KeptBy.fault | with_reducible apply Kept.ite | with_reducible apply KeptBy.ite | intro _ | extract_lets | fail_if_no_progress with_reducible refine Kept.upd ?_ rfl rfl rfl | fail_if_no_progress with_reducible refine Kept.updAny ?_ rfl rfl rfl rfl)

theorem execConfigurationGet_kept {K J : Bool} {c₀ : State} {s : State} (port : Nat) (id : Nat) (arg : Nat) (hk : Kept K J c₀ s) : KeptBy K J c₀ (execConfigurationGet port id arg s) := by
  unfold execConfigurationGet
  repeat' (first | with_reducible exact hk | with_reducible assumption | with_reducible apply miAnswer_kept | with_reducible apply miReply_kept | with_reducible apply KeptBy.next | with_reducible apply KeptBy.fault | with_reducible apply Kept.ite | with_reducible apply KeptBy.ite | intro _)

theorem execVpdRead_kept {K J : Bool} {c₀ : State} {s : State} (port : Nat) (offset : Nat) (length : Nat) (hk : Kept K J c₀ s) : KeptBy K J c₀ (execVpdRead port offset length s) := by
  unfold execVpdRead
  repeat' (first | with_reducible exact hk | with_reducible assumption | with_reducible apply miAnswer_kept | with_reducible apply miReply_kept | with_reducible apply KeptBy.next | with_reducible apply KeptBy.fault | with_reducible apply Kept.ite | with_reducible apply KeptBy.ite | intro _)

theorem execMiReset_kept {K J : Bool} {c₀ : State} {s : State} (port : Nat) (kind : Nat) (hk : Kept K J c₀ s) : KeptBy K J c₀ (execMiReset port kind s) := by
  unfold execMiReset
  repeat' (first | with_reducible exact hk | with_reducible assumption | with_reducible apply miAnswer_kept | with_reducible apply miReply_kept | with_reducible apply subsystemReset_kept | with_reducible apply send_kept | with_reducible apply KeptBy.next | with_reducible apply KeptBy.fault | with_reducible apply Kept.ite | with_reducible apply KeptBy.ite | intro _)

theorem tunnelFail_kept {K J : Bool} {c₀ : State} {s : State} (st : Status) (dw0 : Nat) (hk : Kept K J c₀ s) : Kept K J c₀ (tunnelFail s st dw0).1 := by
  unfold tunnelFail
  repeat' (first | with_reducible exact hk)

theorem tunnelJudge_kept {K J : Bool} {c₀ : State} {s : State} (field : Option Status) (row : Row) (run : State → Tunnelled) (hk : Kept K J c₀ s) (k_run : ∀ s, Kept K J c₀ s → Kept K J c₀ (run s).1) : Kept K J c₀ (tunnelJudge s field row run).1 := by
  unfold tunnelJudge
  repeat' (first | with_reducible exact hk | with_reducible assumption | with_reducible refine Kept.of_fst ?_ (by assumption) | with_reducible apply tunnelFail_kept | with_reducible apply k_run | intro _ | extract_lets | split)

theorem tunnelRun_kept {K J : Bool} {c₀ : State} {s : State} (opcode : Nat) (e : Sqe) (hk : Kept K J c₀ s) : Kept K J c₀ (tunnelRun s opcode e).1 := by
  unfold tunnelRun
  repeat' (first | with_reducible exact hk | with_reducible assumption | with_reducible refine Kept.of_fst ?_ (by assumption) | with_reducible apply tunnelJudge_kept | with_reducible apply nextFree_kept | with_reducible apply tunnelFail_kept | with_reducible apply clearEvent_kept | with_reducible apply setLimit_kept | with_reducible apply setOffsets_kept | with_reducible apply Kept.ite | intro _ | extract_lets | split)

theorem execTunnelledAdminCommand_kept {K J : Bool} {c₀ : State} {s : State} (port : Nat) (opcode : Nat) (e : Sqe) (hk : Kept K J c₀ s) : KeptBy K J c₀ (execTunnelledAdminCommand port opcode e s) := by
  unfold execTunnelledAdminCommand
  repeat' (first | with_reducible exact hk | with_reducible assumption | with_reducible apply miAnswer_kept | with_reducible apply tunnelFail_kept | with_reducible apply tunnelRun_kept | with_reducible apply miReply_kept | with_reducible apply KeptBy.next | with_reducible apply KeptBy.fault | with_reducible apply Kept.ite | with_reducible apply KeptBy.ite | intro _ | extract_lets | fail_if_no_progress with_reducible refine Kept.upd ?_ rfl rfl rfl | split)

theorem execBasicManagementCommand_kept {K J : Bool} {c₀ : State} {s : State} (code : Nat) (hk : Kept K J c₀ s) : KeptBy K J c₀ (execBasicManagementCommand code s) := by
  unfold execBasicManagementCommand
  repeat' (first | with_reducible exact hk | with_reducible assumption | with_reducible apply miReply_kept | with_reducible apply nextFree_kept | with_reducible apply KeptBy.next | with_reducible apply KeptBy.fault | with_reducible apply Kept.ite | with_reducible apply KeptBy.ite | intro _)

/-! ### Machine/Queries -/

theorem execCalendarQueryGroupReport_kept {K J : Bool} {c₀ : State} {s : State} (e : Sqe) (hk : Kept K J c₀ s) : KeptBy K J c₀ (execCalendarQueryGroupReport e s) := by
  unfold execCalendarQueryGroupReport
  repeat' (first | with_reducible exact hk | with_reducible assumption | with_reducible apply adminCmd_kept | with_reducible apply adminDone_kept | with_reducible apply KeptBy.next | with_reducible apply KeptBy.fault | with_reducible apply Kept.ite | with_reducible apply KeptBy.ite | intro _)

theorem execCalendarQueryDieSnapshot_kept {K J : Bool} {c₀ : State} {s : State} (e : Sqe) (hk : Kept K J c₀ s) : KeptBy K J c₀ (execCalendarQueryDieSnapshot e s) := by
  unfold execCalendarQueryDieSnapshot
  repeat' (first | with_reducible exact hk | with_reducible assumption | with_reducible apply adminCmd_kept | with_reducible apply adminDone_kept | with_reducible apply KeptBy.next | with_reducible apply KeptBy.fault | with_reducible apply Kept.ite | with_reducible apply KeptBy.ite | intro _ | extract_lets | fail_if_no_progress with_reducible refine Kept.upd ?_ rfl rfl rfl)

/-! ### Machine/Spdm -/

theorem spdmReply_kept {J : Bool} {c₀ : State} {s : State} (t : Nat) (r : List Nat) (hk : Kept false J c₀ s) : Kept false J c₀ (spdmReply s t r) := by
  unfold spdmReply
  repeat' (first | with_reducible exact hk | with_reducible assumption | with_reducible apply send_kept | with_reducible apply Kept.ite | intro _ | extract_lets | fail_if_no_progress with_reducible refine Kept.upd ?_ rfl rfl rfl | fail_if_no_progress with_reducible refine Kept.updAny ?_ rfl rfl rfl rfl)

theorem spdmError_kept {J : Bool} {c₀ : State} {s : State} (t : Nat) (code : Nat) (hk : Kept false J c₀ s) : Kept false J c₀ (spdmError s t code) := by
  unfold spdmError
  repeat' (first | with_reducible exact hk | with_reducible assumption | with_reducible apply spdmReply_kept)

theorem spdmAnswer_kept {J : Bool} {c₀ : State} {s : State} (t : Nat) (f : State → State) (hk : Kept false J c₀ s) (k_f : ∀ s, Kept false J c₀ s → Kept false J c₀ (f s)) : KeptBy false J c₀ (spdmAnswer s t f) := by
  unfold spdmAnswer
  repeat' (first | with_reducible exact hk | with_reducible assumption | with_reducible apply spdmError_kept | with_reducible apply k_f | with_reducible apply KeptBy.next | with_reducible apply KeptBy.fault | with_reducible apply Kept.ite | with_reducible apply KeptBy.ite | intro _)

theorem setVer_kept {J : Bool} {c₀ : State} {s : State} (t : Nat) (v : Nat) (caps : Bool) (algs : Bool) (hk : Kept false J c₀ s) : Kept false J c₀ (setVer s t v caps algs) := by
  unfold setVer
  repeat' (first | with_reducible exact hk | with_reducible assumption | intro _ | extract_lets | fail_if_no_progress with_reducible refine Kept.upd ?_ rfl rfl rfl | fail_if_no_progress with_reducible refine Kept.updAny ?_ rfl rfl rfl rfl)

theorem execSpdmGetVersion_kept {J : Bool} {c₀ : State} {s : State} (t : Nat) (hk : Kept false J c₀ s) : KeptBy false J c₀ (execSpdmGetVersion t s) := by
  unfold execSpdmGetVersion
  repeat' (first | with_reducible exact hk | with_reducible assumption | with_reducible apply spdmAnswer_kept | with_reducible apply spdmReply_kept | with_reducible apply setVer_kept | with_reducible apply KeptBy.next | with_reducible apply KeptBy.fault | intro _)

theorem execSpdmGetCapabilities_kept {J : Bool} {c₀ : State} {s : State} (t : Nat) (version : Nat) (hk : Kept false J c₀ s) : KeptBy false J c₀ (execSpdmGetCapabilities t version s) := by
  unfold execSpdmGetCapabilities
  repeat' (first | with_reducible exact hk | with_reducible assumption | with_reducible apply spdmAnswer_kept | with_reducible apply spdmError_kept | with_reducible apply setVer_kept | with_reducible apply spdmReply_kept | with_reducible apply KeptBy.next | with_reducible apply KeptBy.fault | with_reducible apply Kept.ite | with_reducible apply KeptBy.ite | intro _ | extract_lets | fail_if_no_progress with_reducible refine Kept.upd ?_ rfl rfl rfl)

theorem afterCaps_kept {J : Bool} {c₀ : State} {s : State} (t : Nat) (f : State → State) (hk : Kept false J c₀ s) (k_f : ∀ s, Kept false J c₀ s → Kept false J c₀ (f s)) : Kept false J c₀ (afterCaps s t f) := by
  unfold afterCaps
  repeat' (first | with_reducible exact hk | with_reducible assumption | with_reducible apply spdmError_kept | with_reducible apply k_f | with_reducible apply Kept.ite | intro _)

theorem afterAlgs_kept {J : Bool} {c₀ : State} {s : State} (t : Nat) (f : State → State) (hk : Kept false J c₀ s) (k_f : ∀ s, Kept false J c₀ s → Kept false J c₀ (f s)) : Kept false J c₀ (afterAlgs s t f) := by
  unfold afterAlgs
  repeat' (first | with_reducible exact hk | with_reducible assumption | with_reducible apply spdmError_kept | with_reducible apply k_f | with_reducible apply Kept.ite | intro _)

theorem execSpdmNegotiateAlgorithms_kept {J : Bool} {c₀ : State} {s : State} (t : Nat) (p384 : Bool) (sha384 : Bool) (hk : Kept false J c₀ s) : KeptBy false J c₀ (execSpdmNegotiateAlgorithms t p384 sha384 s) := by
  unfold execSpdmNegotiateAlgorithms
  repeat' (first | with_reducible exact hk | with_reducible assumption | with_reducible apply spdmAnswer_kept | with_reducible apply afterCaps_kept | with_reducible apply spdmError_kept | with_reducible apply spdmReply_kept | with_reducible apply setVer_kept | with_reducible apply KeptBy.next | with_reducible apply KeptBy.fault | with_reducible apply Kept.ite | with_reducible apply KeptBy.ite | intro _)

theorem execSpdmGetDigests_kept {J : Bool} {c₀ : State} {s : State} (t : Nat) (hk : Kept false J c₀ s) : KeptBy false J c₀ (execSpdmGetDigests t s) := by
  unfold execSpdmGetDigests
  repeat' (first | with_reducible exact hk | with_reducible assumption | with_reducible apply spdmAnswer_kept | with_reducible apply afterAlgs_kept | with_reducible apply spdmReply_kept | with_reducible apply KeptBy.next | with_reducible apply KeptBy.fault | intro _)

theorem execSpdmGetCertificate_kept {J : Bool} {c₀ : State} {s : State} (t : Nat) (slot : Nat) (offset : Nat) (length : Nat) (hk : Kept false J c₀ s) : KeptBy false J c₀ (execSpdmGetCertificate t slot offset length s) := by
  unfold execSpdmGetCertificate
  repeat' (first | with_reducible exact hk | with_reducible assumption | with_reducible apply spdmAnswer_kept | with_reducible apply afterAlgs_kept | with_reducible apply spdmError_kept | with_reducible apply spdmReply_kept | with_reducible apply KeptBy.next | with_reducible apply KeptBy.fault | with_reducible apply Kept.ite | with_reducible apply KeptBy.ite | intro _)

theorem signReply_kept {J : Bool} {c₀ : State} {s : State} (t : Nat) (nonce : Nat) (r : State → List Nat → List Nat) (hk : Kept false J c₀ s) : Kept false J c₀ (signReply s t nonce r) := by
  unfold signReply
  repeat' (first | with_reducible exact hk | with_reducible assumption | with_reducible refine Kept.of_snd ?_ (by assumption) | with_reducible apply drawFree_kept | with_reducible apply spdmReply_kept)

theorem execSpdmChallenge_kept {J : Bool} {c₀ : State} {s : State} (t : Nat) (slot : Nat) (summary : Nat) (nonce : Nat) (hk : Kept false J c₀ s) : KeptBy false J c₀ (execSpdmChallenge t slot summary nonce s) := by
  unfold execSpdmChallenge
  repeat' (first | with_reducible exact hk | with_reducible assumption | with_reducible apply spdmAnswer_kept | with_reducible apply afterAlgs_kept | with_reducible apply spdmError_kept | with_reducible apply signReply_kept | with_reducible apply KeptBy.next | with_reducible apply KeptBy.fault | with_reducible apply Kept.ite | with_reducible apply KeptBy.ite | intro _)

theorem attested_kept {J : Bool} {c₀ : State} {s : State} (e : Evidence) (hk : Kept false J c₀ s) : Kept false J c₀ (attested s e) := by
  unfold attested
  repeat' (first | with_reducible exact hk | with_reducible assumption | with_reducible apply refusePairing_kept | with_reducible apply send_kept | with_reducible apply Kept.ite | intro _ | extract_lets | fail_if_no_progress with_reducible refine Kept.upd ?_ rfl rfl rfl | fail_if_no_progress with_reducible refine Kept.updAny ?_ rfl rfl rfl rfl | split)

theorem execSpdmGetMeasurements_kept {J : Bool} {c₀ : State} {s : State} (t : Nat) (index : Nat) (nonce : Nat) (signed : Bool) (twin : Option Evidence) (hk : Kept false J c₀ s) : KeptBy false J c₀ (execSpdmGetMeasurements t index nonce signed twin s) := by
  unfold execSpdmGetMeasurements
  repeat' (first | with_reducible exact hk | with_reducible assumption | with_reducible apply spdmAnswer_kept | with_reducible apply attested_kept | with_reducible apply afterAlgs_kept | with_reducible apply spdmError_kept | with_reducible apply signReply_kept | with_reducible apply spdmReply_kept | with_reducible apply KeptBy.next | with_reducible apply KeptBy.fault | with_reducible apply Kept.ite | with_reducible apply KeptBy.ite | intro _ | extract_lets | split)

theorem execSpdmKeyExchange_kept {J : Bool} {c₀ : State} {s : State} (t : Nat) (ok : Bool) (hk : Kept false J c₀ s) : KeptBy false J c₀ (execSpdmKeyExchange t ok s) := by
  unfold execSpdmKeyExchange
  repeat' (first | with_reducible exact hk | with_reducible assumption | with_reducible apply spdmAnswer_kept | with_reducible apply spdmError_kept | with_reducible apply refusePairing_kept | with_reducible apply send_kept | with_reducible apply KeptBy.next | with_reducible apply KeptBy.fault | with_reducible apply Kept.ite | with_reducible apply KeptBy.ite | intro _ | extract_lets | fail_if_no_progress with_reducible refine Kept.upd ?_ rfl rfl rfl | fail_if_no_progress with_reducible refine Kept.updAny ?_ rfl rfl rfl rfl)

theorem execSpdmFinish_kept {J : Bool} {c₀ : State} {s : State} (t : Nat) (ok : Bool) (hk : Kept false J c₀ s) : KeptBy false J c₀ (execSpdmFinish t ok s) := by
  unfold execSpdmFinish
  repeat' (first | with_reducible exact hk | with_reducible assumption | with_reducible apply spdmAnswer_kept | with_reducible apply spdmError_kept | with_reducible apply refusePairing_kept | with_reducible apply send_kept | with_reducible apply sessionKeys_kept | with_reducible apply KeptBy.next | with_reducible apply KeptBy.fault | with_reducible apply Kept.ite | with_reducible apply KeptBy.ite | intro _ | extract_lets | fail_if_no_progress with_reducible refine Kept.upd ?_ rfl rfl rfl | fail_if_no_progress with_reducible refine Kept.updAny ?_ rfl rfl rfl rfl)

theorem execSpdmKeyUpdate_kept {J : Bool} {c₀ : State} {s : State} (t : Nat) (hk : Kept false J c₀ s) : KeptBy false J c₀ (execSpdmKeyUpdate t s) := by
  unfold execSpdmKeyUpdate
  repeat' (first | with_reducible exact hk | with_reducible assumption | with_reducible apply updateKeys_kept | with_reducible apply send_kept | with_reducible apply spdmAnswer_kept | with_reducible apply spdmError_kept | with_reducible apply KeptBy.next | with_reducible apply KeptBy.fault | with_reducible apply Kept.ite | with_reducible apply KeptBy.ite | intro _)

theorem execSpdmPskExchange_kept {J : Bool} {c₀ : State} {s : State} (t : Nat) (hk : Kept false J c₀ s) : KeptBy false J c₀ (execSpdmPskExchange t s) := by
  unfold execSpdmPskExchange
  repeat' (first | with_reducible exact hk | with_reducible assumption | with_reducible apply spdmAnswer_kept | with_reducible apply spdmError_kept | with_reducible apply KeptBy.next | with_reducible apply KeptBy.fault | intro _)

/-! ### Machine/Sync -/

theorem askRepair_kept {K J : Bool} {c₀ : State} {s : State} (nsid : Nat) (lba : Nat) (hk : Kept K J c₀ s) : Kept K J c₀ (askRepair s nsid lba) := by
  unfold askRepair
  repeat' (first | with_reducible exact hk | with_reducible assumption | with_reducible apply send_kept | intro _ | extract_lets | fail_if_no_progress with_reducible refine Kept.upd ?_ rfl rfl rfl)

theorem askRepairs_kept {K J : Bool} {c₀ : State} {s : State} (nsid : Nat) (hk : Kept K J c₀ s) : Kept K J c₀ (askRepairs s nsid) := by
  unfold askRepairs
  repeat' (first | with_reducible exact hk | with_reducible assumption | with_reducible apply askRepair_kept | with_reducible apply Kept.foldl | intro _)

theorem repairLba_kept {K : Bool} {c₀ : State} {s : State} (nsid : Nat) (lba : Nat) (val : Nat) (key : Nat) (hk : Kept K false c₀ s) : Kept K false c₀ (repairLba s nsid lba val key) := by
  unfold repairLba
  repeat' (first | with_reducible exact hk | with_reducible assumption | with_reducible apply clearExtents_kept | with_reducible apply storeLba_kept)

theorem giveUp_kept {K J : Bool} {c₀ : State} {s : State} (nsid : Nat) (lba : Nat) (hk : Kept K J c₀ s) : Kept K J c₀ (giveUp s nsid lba) := by
  unfold giveUp
  repeat' (first | with_reducible exact hk | with_reducible assumption | with_reducible apply Kept.ite | intro _ | extract_lets | fail_if_no_progress with_reducible refine Kept.upd ?_ rfl rfl rfl)

theorem takeRepair_kept {K : Bool} {c₀ : State} {s : State} (f : FrameBody) (hk : Kept K false c₀ s) : Kept K false c₀ (takeRepair s f) := by
  unfold takeRepair
  repeat' (first | with_reducible exact hk | with_reducible assumption | with_reducible apply repairLba_kept | with_reducible apply giveUp_kept | with_reducible apply sendFrame_kept | with_reducible apply Kept.ite | intro _ | extract_lets | split)

theorem takeSummary_kept {K J : Bool} {c₀ : State} {s : State} (f : FrameBody) (hk : Kept K J c₀ s) : Kept K J c₀ (takeSummary s f) := by
  unfold takeSummary
  repeat' (first | with_reducible exact hk | with_reducible assumption | with_reducible apply askRepairs_kept | with_reducible apply addWork_kept | with_reducible apply Kept.ite | intro _ | extract_lets | fail_if_no_progress with_reducible refine Kept.upd ?_ rfl rfl rfl | split)

theorem resetCopy_kept {K : Bool} {c₀ : State} {s : State} (nsid : Nat) (i : Nat) (resetId : Nat) (hk : Kept K false c₀ s) : Kept K false c₀ (resetCopy s nsid i resetId) := by
  unfold resetCopy
  repeat' (first | with_reducible exact hk | with_reducible assumption | with_reducible apply emptyZone_kept | with_reducible apply setZone_kept | with_reducible apply Kept.ite | intro _ | extract_lets | fail_if_no_progress with_reducible refine Kept.upd ?_ rfl rfl rfl)

theorem bindCopy_kept {K J : Bool} {c₀ : State} {s : State} (nsid : Nat) (i : Nat) (n : Ns) (wp : Nat) (hk : Kept K J c₀ s) : Kept K J c₀ (bindCopy s nsid i n wp) := by
  unfold bindCopy
  repeat' (first | with_reducible exact hk | with_reducible assumption | with_reducible apply setZone_kept | with_reducible apply Kept.ite | intro _ | extract_lets | fail_if_no_progress with_reducible refine Kept.upd ?_ rfl rfl rfl | split)

theorem storeFrameLba_kept {K : Bool} {c₀ : State} {s : State} (nsid : Nat) (lba : Nat) (x : Nat × Nat) (epoch : Nat) (oseq : Nat) (hk : Kept K false c₀ s) : Kept K false c₀ (storeFrameLba s nsid lba x epoch oseq) := by
  unfold storeFrameLba
  repeat' (first | with_reducible exact hk | with_reducible assumption | with_reducible apply listLost_kept | with_reducible apply storeLba_kept | with_reducible apply Kept.ite | intro _)

theorem takeRange_kept {K : Bool} {c₀ : State} {s : State} (f : FrameBody) (n : Ns) (hk : Kept K false c₀ s) : Kept K false c₀ (takeRange s f n) := by
  unfold takeRange
  repeat' (first | with_reducible exact hk | with_reducible assumption | with_reducible apply resetCopy_kept | with_reducible apply bindCopy_kept | with_reducible apply storeFrameLba_kept | with_reducible apply setZone_kept | with_reducible apply queueTo_kept | with_reducible apply Kept.ite | with_reducible apply Kept.elim | with_reducible apply Kept.foldl | with_reducible apply Kept.foldl_fst | with_reducible apply Kept.foldl_snd | intro _ | extract_lets | fail_if_no_progress with_reducible refine Kept.upd ?_ rfl rfl rfl | split)

theorem takeState_kept {K : Bool} {c₀ : State} {s : State} (f : FrameBody) (n : Ns) (hk : Kept K false c₀ s) : Kept K false c₀ (takeState s f n) := by
  unfold takeState
  repeat' (first | with_reducible exact hk | with_reducible assumption | with_reducible apply resetCopy_kept | with_reducible apply bindCopy_kept | with_reducible apply setZone_kept | with_reducible apply releaseHeld_kept | with_reducible apply setNs_kept | with_reducible apply Kept.ite | with_reducible apply Kept.elim | intro _)

theorem takeUnits_kept {K : Bool} {c₀ : State} {s : State} (f : FrameBody) (hk : Kept K false c₀ s) : Kept K false c₀ (takeUnits s f) := by
  unfold takeUnits
  repeat' (first | with_reducible exact hk | with_reducible assumption | with_reducible apply storeFrameLba_kept | with_reducible apply setNs_kept | with_reducible apply Kept.ite | with_reducible apply Kept.foldl | with_reducible apply Kept.foldl_fst | with_reducible apply Kept.foldl_snd | intro _)

theorem takeUnit_kept {K : Bool} {c₀ : State} {s : State} (f : FrameBody) (n : Ns) (hk : Kept K false c₀ s) : Kept K false c₀ (takeUnit s f n) := by
  unfold takeUnit
  repeat' (first | with_reducible exact hk | with_reducible assumption | with_reducible apply takeRange_kept | with_reducible apply takeState_kept | with_reducible apply takeUnits_kept | intro _ | extract_lets | split)

theorem levelNs_kept {K : Bool} {c₀ : State} {s : State} (nsid : Nat) (hk : Kept K false c₀ s) : Kept K false c₀ (levelNs s nsid) := by
  unfold levelNs
  repeat' (first | with_reducible exact hk | with_reducible assumption | with_reducible apply setNs_kept | with_reducible apply releaseAllHeld_kept | with_reducible apply sendSummary_kept | with_reducible apply updateAna_kept | with_reducible apply askRepairs_kept)

theorem takeFrame_kept {K : Bool} {c₀ : State} {s : State} (f : FrameBody) (hk : Kept K false c₀ s) : Kept K false c₀ (takeFrame s f) := by
  unfold takeFrame
  repeat' (first | with_reducible exact hk | with_reducible assumption | with_reducible apply endResync_kept | with_reducible apply levelNs_kept | with_reducible apply takeUnit_kept | with_reducible apply Kept.ite | intro _ | extract_lets | fail_if_no_progress with_reducible refine Kept.upd ?_ rfl rfl rfl | split)

theorem confirmFrame_kept {K J : Bool} {c₀ : State} {s : State} (h : MsgHdr) (unit : Nat) (hk : Kept K J c₀ s) : Kept K J c₀ (confirmFrame s h unit) := by
  unfold confirmFrame
  repeat' (first | with_reducible exact hk | with_reducible assumption | with_reducible apply send_kept)

theorem execResyncFrame_kept {K : Bool} {c₀ : State} {s : State} (h : MsgHdr) (f : FrameBody) (hk : Kept K false c₀ s) : KeptBy K false c₀ (execResyncFrame h f s) := by
  unfold execResyncFrame
  repeat' (first | with_reducible exact hk | with_reducible assumption | with_reducible apply peerMsg_kept | with_reducible apply takeSummary_kept | with_reducible apply takeRepair_kept | with_reducible apply confirmFrame_kept | with_reducible apply discard_kept | with_reducible apply takeFrame_kept | with_reducible apply KeptBy.next | with_reducible apply KeptBy.fault | with_reducible apply Kept.ite | with_reducible apply KeptBy.ite | intro _)

theorem execReshapeCopy_kept {K : Bool} {c₀ : State} {s : State} (h : MsgHdr) (f : FrameBody) (hk : Kept K false c₀ s) : KeptBy K false c₀ (execReshapeCopy h f s) := by
  unfold execReshapeCopy
  repeat' (first | with_reducible exact hk | with_reducible assumption | with_reducible apply peerMsg_kept | with_reducible apply discard_kept | with_reducible apply confirmFrame_kept | with_reducible apply takeUnit_kept | with_reducible apply KeptBy.next | with_reducible apply KeptBy.fault | with_reducible apply Kept.ite | with_reducible apply KeptBy.ite | intro _ | extract_lets | split)

theorem execFetchRequest_kept {K J : Bool} {c₀ : State} {s : State} (h : MsgHdr) (nsid : Nat) (slba : Nat) (nlb : Nat) (oseq : Nat) (hk : Kept K J c₀ s) : KeptBy K J c₀ (execFetchRequest h nsid slba nlb oseq s) := by
  unfold execFetchRequest
  repeat' (first | with_reducible exact hk | with_reducible assumption | with_reducible apply peerMsg_kept | with_reducible apply send_kept | with_reducible apply KeptBy.next | with_reducible apply KeptBy.fault | with_reducible apply Kept.ite | with_reducible apply KeptBy.ite | intro _)

theorem takeFetched_kept {K : Bool} {c₀ : State} {s : State} (nsid : Nat) (lba : Nat) (x : Option (Nat × Nat)) (hk : Kept K false c₀ s) : Kept K false c₀ (takeFetched s nsid lba x) := by
  unfold takeFetched
  repeat' (first | with_reducible exact hk | with_reducible assumption | with_reducible apply repairLba_kept | with_reducible apply listLost_kept | with_reducible apply storeLba_kept | intro _ | extract_lets | fail_if_no_progress with_reducible refine Kept.upd ?_ rfl rfl rfl | split)

theorem refreshRead_kept {K J : Bool} {c₀ : State} {s : State} (slot : Nat) (hk : Kept K J c₀ s) : Kept K J c₀ (refreshRead s slot) := by
  unfold refreshRead
  repeat' (first | with_reducible exact hk | with_reducible assumption | with_reducible apply endTwinRead_kept | with_reducible apply setCmd_kept | intro _ | extract_lets | fail_if_no_progress with_reducible refine Kept.upd ?_ rfl rfl rfl | split)

theorem execFetchData_kept {K : Bool} {c₀ : State} {s : State} (h : MsgHdr) (data : List (Option (Nat × Nat))) (hk : Kept K false c₀ s) : KeptBy K false c₀ (execFetchData h data s) := by
  unfold execFetchData
  repeat' (first | with_reducible exact hk | with_reducible assumption | with_reducible apply peerMsg_kept | with_reducible apply discard_kept | with_reducible apply takeFetched_kept | with_reducible apply zoneFetched_kept | with_reducible apply refreshRead_kept | with_reducible apply KeptBy.next | with_reducible apply KeptBy.fault | with_reducible apply Kept.ite | with_reducible apply KeptBy.ite | with_reducible apply Kept.foldl | with_reducible apply Kept.foldl_fst | with_reducible apply Kept.foldl_snd | intro _ | extract_lets | fail_if_no_progress with_reducible refine Kept.upd ?_ rfl rfl rfl | split)

end Sys2Proof.Machine
end

