-- ==== Sys2Proof/Tests/Slice0.lean ====
section
/-! SUPPORT. The module's own tests: the smoke test of `WellFormed`, single steps whose results are the manual's own examples or follow from its tables by hand, and for every statement with hypotheses a state and operands that meet them. -/

namespace Sys2Proof.Tests

set_option Elab.async false

open Sys2Proof Sys2Proof.Machine

/-! ### States to start from -/

/-- A controller that is enabled and ready. -/
def readyCtrl : Ctrl := { cc := 0x00460061, rdy := true, ioq := 64, vec := 65, online := true, aqa := 0x003F003F }

/-- A metadata namespace and a zoned one, of this module (1, 2) and of the twin (3, 4); one that was fenced (5); one becoming mirrored (6). -/
def namespaces : KV Ns :=
  [(1, { zoned := false, nsze := 1024, attached := [0, 1], slots := [0] }),
   (2, { zoned := true, nsze := 6 * 4194304, attached := [0, 1], slots := [1], znums := [0, 1, 2, 3, 4, 5]
         zones := [(0, { st := .implOpen, wp := 8, taken := 8, cap := 100000, group := some 0, openFunc := some 0, activeFunc := some 0 }),
                   (1, { st := .full, wp := 100, taken := 100, cap := 100, group := some 1, confirmed := 1 }), (2, { st := .readOnly }), (3, { st := .offline }),
                   (4, { st := .closed, wp := 4, taken := 4, cap := 100000, group := some 2, activeFunc := some 0 })] }),
   (3, { zoned := false, nsze := 1024, attached := [0], mirrored := true, here := false, slots := [2] }),
   (4, { zoned := true, nsze := 4194304, attached := [0], here := false, znums := [6] }),
   (5, { zoned := false, nsze := 1024, attached := [0], mirrored := true, here := true, fenced := true, slots := [3] }),
   (6, { zoned := false, nsze := 1024, here := false, reshape := some { move := false, toMirrored := true, remote := true, owner := 65536, tag := 1 }, slots := [4] })]

/-- The host port with its link up, the PF and VF 1 ready, an admin queue each and an I/O queue of the PF; one entry waits in the queue named. -/
def hostPort (func qid : Nat) (cls : Option LClass) : Port :=
  { State.reset.port with
    perst := false, rate := 4, flit := true, width := 8, credits := 2048, ctrls := [(0, readyCtrl), (1, readyCtrl)]
    cqs := [(0, { size := 64 }), (1, { size := 64 }), (65536, { size := 64 })]
    sqs := KV.adj [(0, { size := 64, cqid := 0 }), (1, { size := 64, cqid := 1, cls := cls }), (65536, { size := 64, cqid := 0 })] (qkey func qid)
      (fun q => { q with tail := 1, stamps := [4000000] }) }

/-- A module in a mode, its bank charged, with the namespaces above and an entry waiting. -/
def at' (m : Mode) (func qid : Nat) (cls : Option LClass) : State :=
  { State.reset with
    md := { State.reset.md with mode := m, writeThrough := false, timeDisc := false, pairServing := true }
    port := hostPort func qid cls
    zn := { State.reset.zn with ns := namespaces }
    keys := { State.reset.keys with slots := [(0, { cur := 101 }), (1, { cur := 102 }), (2, { cur := 103 }), (3, { cur := 104 }), (4, { cur := 105 })], linkKeys := [1, 2, 3, 4] }
    sup := { State.reset.sup with vigil := 12, bankMv := 70000, first70 := true, measured := true, capUf := 30000 }
    tw := { State.reset.tw with linkUp := m == .service || m == .pairing, paired := m == .service, step := 0 }
    cal := { State.reset.cal with running := true }
    boot := { State.reset.boot with slotRun := 1, verdict := some 1, signPending := false }
    time := { State.reset.time with dtb := 5000000 } }

/-- An admin entry of the PF waits. -/
def adm (m : Mode) : State := at' m 0 0 none

/-- An admin entry of VF 1 waits. -/
def admV (m : Mode) : State := at' m 1 0 none

/-- An entry of the PF's I/O queue waits, the queue bound to a class. -/
def ioq (m : Mode) (c : LClass) : State := at' m 0 1 (some c)

/-- A message that reaches the module. -/
def hdr (typ : Nat) : MsgHdr := { typ := typ, tag := 5 }

/-- A command of the PF in the table. -/
def someCmd : Cmd := { func := 0, sqid := 1, cid := 3, op := .read, nsid := 1, slba := 0, nlb := 1, cls := .unbound, stamp := 4000000 }

/-- A state with commands in its table. -/
def withCmds (s : State) (l : KV Cmd) : State := { s with port := { s.port with cmds := l } }

/-- A state with records held. -/
def withRecs (s : State) (l : KV VRec) : State := { s with jr := { s.jr with recs := l, seq := 100 } }

/-! ### What the hypotheses name -/

/-- The state after an entry of a queue is fetched. -/
def after (s : State) (func qid : Nat) : State := ((fetch s func qid).map (·.2)).getD s

/-- Its stamp. -/
def stampOf (s : State) (func qid : Nat) : Nat := ((fetch s func qid).map (·.1)).getD 0

theorem admitted_of {s : State} {e : Sqe} {pf : Bool} {row : Row}
    (h : ((fetch s e.func 0).isSome && (!pf || e.func == 0) && adminRefusal (after s e.func 0) row (stampOf s e.func 0) == none) = true) :
    Admitted s e pf row (stampOf s e.func 0) (after s e.func 0) := by
  simp only [Bool.and_eq_true, Bool.or_eq_true, Bool.not_eq_true', beq_iff_eq] at h
  obtain ⟨⟨h1, h2⟩, h3⟩ := h
  obtain ⟨x, hx⟩ := Option.isSome_iff_exists.mp h1
  exact ⟨by simp [stampOf, after, hx], fun e => h2.resolve_left (by simp [e]), h3⟩

theorem reaches_of {s : State} {h : MsgHdr} {typ : Nat}
    (k : (s.tw.linkUp && s.sup.rails && h.authOk && s.md.mode == .service && h.pepoch == s.jr.pepoch.toNat && h.typ == typ) = true) : Reaches s h typ := by
  simp only [Bool.and_eq_true, beq_iff_eq] at k
  exact ⟨k.1.1.1.1.1, k.1.1.1.1.2, k.1.1.1.2, k.1.1.2, k.1.2, k.2⟩

/-- The result of a function that succeeds. -/
def okOf {ε α : Type} (d : α) : Except ε α → α
  | .ok x => x
  | .error _ => d

def isOk {ε α : Type} : Except ε α → Bool
  | .ok _ => true
  | .error _ => false

theorem ok_of {ε α : Type} {d : α} {r : Except ε α} (h : isOk r = true) : r = .ok (okOf d r) := by
  cases r with
  | ok x => rfl
  | error e => cases h

/-- The status of a function that fails. -/
def errOf {α : Type} : Except Status α → Status
  | .ok _ => .success
  | .error st => st

theorem err_of {α : Type} {r : Except Status α} (h : isOk r = false) : r = .error (errOf r) := by
  cases r with
  | ok x => cases h
  | error e => rfl

/-- The state of a function that fails with one. -/
def errSt {α : Type} : Except State α → State
  | .ok _ => State.reset
  | .error u => u

theorem errSt_of {α : Type} {r : Except State α} (h : isOk r = false) : r = .error (errSt r) := by
  cases r with
  | ok x => cases h
  | error e => rfl

/-- The next state of an outcome. -/
def nextOf (s : State) : Host.Outcome State Fault Refusal → State
  | .next t => t
  | _ => s

def isNext : Host.Outcome State Fault Refusal → Bool
  | .next _ => true
  | _ => false

theorem next_of {s : State} {o : Host.Outcome State Fault Refusal} (h : isNext o = true) : o = .next (nextOf s o) := by
  cases o <;> first | rfl | cases h

/-- A judged entry that stands for none. -/
def judged0 : Judged := { st := State.reset, ns := { zoned := false, nsze := 0 }, key := 0, cls := .unbound, stamp := 0 }

/-- What a buffer of 4 KiB takes from full pools. -/
def alloc1 : List Pool × List Nat := ((allocBufs (adm .solo).it.pools 4096).getD ([], []))

/-- A format of namespace 1. -/
def fmt1 : Fmt := { nsid := 1, crypto := false, func := 0, cid := 9 }

/-- A flit of zeros with its CRC: it carries FSEQ 0 and kind 0. -/
def goodFlit : List (BitVec 8) :=
  List.replicate 0xF4 0 ++ ((List.range 6).map (fun i => BitVec.ofNat 8 ((crc48 (List.replicate 0xF4 0)).toNat / 256 ^ i)) ++ List.replicate 6 0)

theorem flit_crc (c : List (BitVec 8)) (hc : c.length = 0xF4) (v : BitVec 48) (hv : crc48 c = v) :
    flitValid (c ++ ((List.range 6).map (fun i => BitVec.ofNat 8 (v.toNat / 256 ^ i)) ++ List.replicate 6 0)) = true := by
  have h1 : (c ++ ((List.range 6).map (fun i => BitVec.ofNat 8 (v.toNat / 256 ^ i)) ++ List.replicate 6 0)).take 0xF4 = c := by
    rw [← hc, List.take_left]
  have h2 : (c ++ ((List.range 6).map (fun i => BitVec.ofNat 8 (v.toNat / 256 ^ i)) ++ List.replicate 6 0)).drop 0xF4 =
      (List.range 6).map (fun i => BitVec.ofNat 8 (v.toNat / 256 ^ i)) ++ List.replicate 6 0 := by
    rw [← hc, List.drop_left]
  have h3 := v.isLt
  simp only [flitValid, flitLe, h1, h2, hv]
  simp [hc, List.range_succ]
  omega

theorem goodFlit_valid : flitValid goodFlit = true := flit_crc _ List.length_replicate _ rfl

/-! ### Values that stand for an absent one -/

def ns0 : Ns := { zoned := false, nsze := 0 }
def sq0 : Sq := { size := 0, cqid := 0 }
def cq0 : Cq := { size := 0 }
def rec0 : VRec := { typ := 0 }
def op0 : DieOp := { kind := .erase, bset := 0 }
def reshape0 : Reshape := { move := false }
def alm0 : Alm := { boot := 0 }

/-- No group has a row forming. -/
theorem no_row (k t0 : Nat) (h : (grpOf (adm .solo) k).rowAt = some t0) : (adm .solo).time.dtb < t0 + 2000000 := by
  cases h

/-! ### The hypotheses of every statement are met -/

def stepRunsTheFrontCommand0 : State := { State.reset with pending := [.pllLock] }
def supplyEvents0 : State := { State.reset with sup := { (State.reset).sup with rails := false } }
def linkEvents4 : State := { State.reset with port := { (State.reset).port with perst := false } }
def enableChecksCc0 : State := { State.reset with port := { (State.reset).port with rate := 4 } }
def enableChecksCc1 : State := { State.reset with port := { (State.reset).port with rate := 4 } }
def registersAndShutdown2 : State := setCtrl (adm .solo) 0 (fun c => { c with shst := 1 })
def harvestsAndSeals4 : State := setCtrl (setCtrl (adm .solo) 0 (fun c => { c with shst := 2 })) 1 (fun c => { c with shst := 2 })
def holdUpBank0 : State := { adm .solo with sup := { (adm .solo).sup with lastTest := 1440 } }
def holdUpBank1 : State := { adm .solo with sup := { (adm .solo).sup with lastTest := 1440, bankMv := 69499 } }
def holdUpBank2 : State := { adm .solo with sup := { (adm .solo).sup with test := .falling } }
def holdUpBank3 : State := { adm .solo with sup := { (adm .solo).sup with test := .discharging, vStopDv := 699 } }
def holdUpBank4 : State := { adm .solo with sup := { (adm .solo).sup with test := .recharging } }
def holdUpBank5 : State := { adm .solo with sup := { (adm .solo).sup with first70 := false, measured := false } }
def holdUpBank7 : State := { adm .solo with sup := { (adm .solo).sup with belowSixtySix := true } }
def holidayEntryAndExit0 : State := { adm .solo with md := { (adm .solo).md with entering := true } }
def holidayEntryAndExit1 : State := { adm .solo with md := { (adm .solo).md with adminWake := true, lastAdminAt := 0 }, time := { (adm .solo).time with dtb := 10000000 }, zn := { (adm .solo).zn with ns := [] } }
def holidayEntryAndExit4 : State := { adm .holiday with md := { (adm .holiday).md with waking := true } }
def powerManagement0e : Sqe := { func := 0, cid := 9, cdw11 := 3 }
def powerManagement1e : Sqe := { func := 0, cid := 9, cdw11 := 4 }
def powerManagement2 : State := { adm .solo with adm := { (adm .solo).adm with permit := true } }
def powerManagement2e : Sqe := { func := 0, cid := 9, cdw11 := 4 }
def completionPostsOneEntry0e : Sqe := { func := 0, cid := 9 }
def completionPostsOneEntry1e : Sqe := { func := 0, cid := 9 }
def queueManagement0e : Sqe := { func := 0, cid := 9, cdw10 := 0x0FFF0002, cdw11 := 0x00400003 }
def queueManagement1e : Sqe := { func := 0, cid := 9, cdw10 := 0x0FFF0002, cdw11 := 0x00010001 }
def queueManagement2 : State := { adm .solo with port := { (adm .solo).port with sqs := KV.del (adm .solo).port.sqs 1 } }
def queueManagement2e : Sqe := { func := 0, cid := 9, cdw10 := 1 }
def queueManagement3e : Sqe := { func := 0, cid := 9, cdw10 := 1 }
def virtualizationManagement0e : Sqe := { func := 0, cid := 9, cdw10 := BitVec.ofNat 32 (1 + cntlid (adm .solo) 0 * 65536), cdw11 := 8064 }
def virtualizationManagement1 : State := { adm .solo with port := { (adm .solo).port with vfEnable := true, numVfs := 4 } }
def virtualizationManagement1e : Sqe := { func := 0, cid := 9, cdw10 := BitVec.ofNat 32 (7 + cntlid (adm .solo) 1 * 65536) }
def virtualizationManagement2 : State := setCtrl (adm .solo) 2 (fun c => { c with online := false, ioq := 4, vec := 4 })
def virtualizationManagement2e : Sqe := { func := 0, cid := 9, cdw10 := BitVec.ofNat 32 (8 + cntlid (adm .solo) 2 * 65536), cdw11 := 1024 }
def virtualizationManagement3 : State := setCtrl (adm .solo) 2 (fun c => { c with online := false, ioq := 4, vec := 4 })
def virtualizationManagement3e : Sqe := { func := 0, cid := 9, cdw10 := BitVec.ofNat 32 (9 + cntlid (adm .solo) 2 * 65536) }
def eventsAbortsAndKeepAlive0 : State := setCtrl (adm .solo) 0 (fun c => { c with aers := List.replicate 15 1 })
def eventsAbortsAndKeepAlive0e : Sqe := { func := 0, cid := 9 }
def eventsAbortsAndKeepAlive1 : State := setCtrl (adm .solo) 0 (fun c => { c with waiting := [⟨2, 3, 0x0C⟩] })
def eventsAbortsAndKeepAlive1e : Sqe := { func := 0, cid := 9 }
def eventsAbortsAndKeepAlive2 : State := setCtrl (adm .solo) 0 (fun c => { c with aers := List.replicate 16 1 })
def eventsAbortsAndKeepAlive2e : Sqe := { func := 0, cid := 9 }
def eventsAbortsAndKeepAlive3 : State := withCmds (adm .solo) [(0, { someCmd with stage := .waiting })]
def eventsAbortsAndKeepAlive3e : Sqe := { func := 0, cid := 9, cdw10 := 0x00030001 }
def eventsAbortsAndKeepAlive4e : Sqe := { func := 0, cid := 9, cdw10 := 0x00030001 }
def eventsAbortsAndKeepAlive5e : Sqe := { func := 0, cid := 9 }
def standardFeatures0e : Sqe := { func := 0, cid := 9, cdw11 := 0xFFFEFFFE }
def standardFeatures1e : Sqe := { func := 0, cid := 9 }
def standardFeatures2e : Sqe := { func := 0, cid := 9, cdw11 := 64 }
def standardFeatures3e : Sqe := { func := 0, cid := 9 }
def standardFeatures4e : Sqe := { func := 0, cid := 9, cdw10 := 0x80000007 }
def standardFeatures5e : Sqe := { func := 0, cid := 9, cdw11 := 0x00100000 }
def standardFeatures6e : Sqe := { func := 0, cid := 9, data := [0, 0, 0, 0, 0, 1] }
def vendorFeatures0e : Sqe := { func := 0, cid := 9, cdw11 := 0x00030001 }
def vendorFeatures1 : State := { adm .solo with port := { (adm .solo).port with sqs := KV.adj (adm .solo).port.sqs 1 (fun q => { q with locked := true }) } }
def vendorFeatures1e : Sqe := { func := 0, cid := 9, cdw11 := 0x00030001 }
def vendorFeatures2e : Sqe := { func := 0, cid := 9, cdw11 := 127, data := [1] }
def vendorFeatures3e : Sqe := { func := 0, cid := 9 }
def vendorFeatures4e : Sqe := { func := 0, cid := 9, cdw11 := 0xAA }
def vendorFeatures5e : Sqe := { func := 0, cid := 9 }
def vendorFeatures6e : Sqe := { func := 0, cid := 9, cdw11 := 0x000000A7 }
def reports0e : Sqe := { func := 0, cid := 9, cdw10 := 1 }
def reports1e : Sqe := { func := 0, cid := 9, cdw10 := 2, nsid := 0xFFFFFFFF }
def reports2e : Sqe := { func := 0, cid := 9, cdw10 := 0x00000107, nsid := 0xFFFFFFFF }
def reports3e : Sqe := { func := 0, cid := 9, cdw10 := 2 }
def reports4e : Sqe := { func := 0, cid := 9, cdw10 := 0x00002700 }
def reports5e : Sqe := { func := 0, cid := 9, cdw10 := 1 }
def reports6e : Sqe := { func := 0, cid := 9, cdw10 := 1 }
def reports7e : Sqe := { func := 0, cid := 9 }
def namespaceManagement0e : Sqe := { func := 0, cid := 9, data := leBytes 8 262144 ++ leBytes 8 262144 }
def namespaceManagement1e : Sqe := { func := 0, cid := 9, nsid := 1, cdw10 := 1 }
def namespaceManagement2 : State := { adm .solo with port := { (adm .solo).port with vfEnable := true, numVfs := 4 } }
def namespaceManagement2e : Sqe := { func := 0, cid := 9, nsid := 6, data := leBytes 2 1 ++ leBytes 2 (cntlid (adm .solo) 0) }
def namespaceManagement3e : Sqe := { func := 0, cid := 9, nsid := 1, cdw10 := 1, data := leBytes 2 1 ++ leBytes 2 (cntlid (adm .solo) 0) }
def namespaceManagement4e : Sqe := { func := 0, cid := 9, nsid := 0xFFFFFFFF, cdw11 := 1 }
def erasures0e : Sqe := { func := 0, cid := 9, nsid := 1 }
def erasures1e : Sqe := { func := 0, cid := 9, cdw10 := 4 }
def erasures2e : Sqe := { func := 0, cid := 9, cdw10 := 2 }
def erasures3 : State := { adm .solo with adm := { (adm .solo).adm with sanitize := { (adm .solo).adm.sanitize with pending := true } } }
def erasures3e : Sqe := { func := 0, cid := 9 }
def erasures4e : Sqe := { func := 0, cid := 9 }
def erasures5e : Sqe := { func := 0, cid := 9 }
def erasures6 : State := setNs { adm .solo with adm := { (adm .solo).adm with formats := [fmt1] } } 1 (fun n => { n with erasing := some false })
def firmwareAndPolicy0e : Sqe := { func := 0, cid := 9, cdw10 := 0x3FF }
def firmwareAndPolicy1 : State := { adm .solo with boot := { (adm .solo).boot with staged := some {}, pieces := [(0, 268435456)] } }
def firmwareAndPolicy1e : Sqe := { func := 0, cid := 9, cdw10 := 0x10 }
def firmwareAndPolicy2e : Sqe := { func := 0, cid := 9, cdw10 := 0x12 }
def firmwareAndPolicy3 : State := { adm .solo with boot := { (adm .solo).boot with writing := [{ ca := 0, func := 0, cid := 9 }] } }
def firmwareAndPolicy4 : State := { adm .solo with boot := { (adm .solo).boot with writing := [{ ca := 1, func := 0, cid := 9 }] } }
def firmwareAndPolicy5 : State := { adm .solo with boot := { (adm .solo).boot with activating := some (0, 9) } }
def firmwareAndPolicy6e : Sqe := { func := 0, cid := 9, data := [1] }
def securityMethods0e : Sqe := { func := 1, cid := 9, nsid := 0, cdw10 := BitVec.ofNat 32 (1 * 16777216) }
def securityMethods1e : Sqe := { func := 0, cid := 9, nsid := 0, cdw10 := BitVec.ofNat 32 (0 * 16777216) }
def securityMethods2 : State := { admV .solo with adm := { (admV .solo).adm with tcgOut := [(1, [0])] } }
def securityMethods3e : Sqe := { func := 1, cid := 9, nsid := 0, cdw10 := BitVec.ofNat 32 (1 * 16777216) }
def securityMethods4 : State := setNs { admV .solo with keys := { (admV .solo).keys with keks := [(7, (1, 55))] } } 1 (fun n => { n with kpio := 2, slots := [8, 9] })
def securityMethods4e : Sqe := { func := 1, cid := 9, nsid := 1, cdw10 := BitVec.ofNat 32 (1 * 16777216) }
def securityMethods5e : Sqe := { func := 1, cid := 9, nsid := 1, cdw10 := BitVec.ofNat 32 (1 * 16777216) }
def securityMethods6e : Sqe := { func := 0, cid := 9, nsid := 1, cdw10 := BitVec.ofNat 32 (1 * 16777216) }
def securityMethods7 : State := setNs (adm .solo) 1 (fun n => { n with kpio := 2, slots := [8, 9] })
def securityMethods7e : Sqe := { func := 0, cid := 9, nsid := 1, cdw10 := BitVec.ofNat 32 (1 * 16777216) }
def pairControl0e : Sqe := { func := 0, cid := 9 }
def pairControl1e : Sqe := { func := 0, cid := 9 }
def pairControl2e : Sqe := { func := 0, cid := 9, cdw10 := 1 }
def pairControl3e : Sqe := { func := 0, cid := 9, nsid := 5, cdw10 := 3 }
def pairControl4e : Sqe := { func := 0, cid := 9, nsid := 5, cdw10 := 4 }
def pairControl5e : Sqe := { func := 0, cid := 9, nsid := 5, cdw10 := 2 }
def reshapeCommands0e : Sqe := { func := 0, cid := 9, nsid := 1, cdw10 := 0x100 }
def reshapeCommands1 : State := { adm .solo with md := { (adm .solo).md with rebuilding := true } }
def reshapeCommands1e : Sqe := { func := 0, cid := 9, nsid := 2, cdw10 := 1, cdw11 := 5, cdw12 := 1 }
def reshapeCommands2e : Sqe := { func := 0, cid := 9, nsid := 2, cdw10 := 1, cdw11 := 5, cdw12 := 1 }
def reshapeCommands3e : Sqe := { func := 0, cid := 9, nsid := 1, cdw10 := 2 }
def reshapeCommands4 : State := setNs (adm .solo) 2 (fun n => { n with reshape := some { move := true, toMirrored := false, remote := false, owner := 0, tag := 0 } })
def reshapeCommands4e : Sqe := { func := 0, cid := 9, nsid := 2, cdw10 := 2 }
def readsAndReports0e : Io := { func := 0, sqid := 1, cid := 9, nsid := 2, nlb := 8 }
def readsAndReports1e : Io := { func := 0, sqid := 1, cid := 9, nsid := 2, slba := 5 * 4194304, nlb := 1 }
def readsAndReports2 : State := ioq .service .unbound
def readsAndReports2e : Io := { func := 0, sqid := 1, cid := 9, nsid := 4 }
def readsAndReports3e : Io := { func := 0, sqid := 1, cid := 9, nsid := 2, numd := 255 }
def readsAndReports4 : State := withCmds (ioq .solo .unbound) [(0, { someCmd with op := .write })]
def readsAndReports4e : Io := { func := 0, sqid := 1, cid := 9, nsid := 1 }
def readsAndReports5e : Io := { func := 0, sqid := 1, cid := 9, nsid := 1 }
def endOfACommand0 : State := withCmds (adm .solo) [(0, someCmd)]
def endOfACommand1 : State := withCmds (adm .solo) [(0, someCmd)]
def endOfACommand3 : State := withCmds (adm .solo) [(0, { someCmd with stage := .dieDone })]
def endOfACommand4 : State := withCmds (adm .solo) [(0, { someCmd with stage := .dieDone, needBytes := 4096 })]
def writesFormRecords0e : Io := { func := 0, sqid := 1, cid := 9, nsid := 2, slba := 8, nlb := 2, data := [1, 2] }
def writesFormRecords1 : State := { ioq .solo .unbound with sup := { (ioq .solo .unbound).sup with vigil := 0, bankMv := 70000 } }
def writesFormRecords1e : Io := { func := 0, sqid := 1, cid := 9, nsid := 2, slba := 8, nlb := 2, data := [1, 2] }
def writesFormRecords2e : Io := { func := 0, sqid := 1, cid := 9, nsid := 2, nlb := 2, data := [1, 2] }
def writesFormRecords3e : Io := { func := 0, sqid := 1, cid := 9, nsid := 2, slba := 8, nlb := 2 }
def writesFormRecords4e : Io := { func := 0, sqid := 1, cid := 9, nsid := 2, slba := 9, nlb := 2, data := [1, 2] }
def writesFormRecords5 : State := ioq .service .unbound
def writesFormRecords5e : Io := { func := 0, sqid := 1, cid := 9, nsid := 4, data := [1] }
def writesFormRecords6 : State := ioq .service .unbound
def writesFormRecords6e : Io := { func := 0, sqid := 1, cid := 9, nsid := 4, data := [1] }
def writesFormRecords7 : State := ioq .service .unbound
def writesFormRecords7e : Io := { func := 0, sqid := 1, cid := 9, nsid := 4 }
def zoneChecksAndChanges0e : Io := { func := 0, sqid := 1, cid := 9, nsid := 2, slba := 4194304 }
def zoneChecksAndChanges1e : Io := { func := 0, sqid := 1, cid := 9, nsid := 2, slba := 7 }
def zoneChecksAndChanges2e : Io := { func := 0, sqid := 1, cid := 9, nsid := 2, slba := 8 }
def zoneChecksAndChanges3e : Io := { func := 0, sqid := 1, cid := 9, nsid := 2, slba := 0, nlb := 256 }
def zoneChecksAndChanges8 : State := { adm .solo with cal := { (adm .solo).cal with budgets := [(0, { open_ := 1 })] }, zn := { (adm .solo).zn with ns := [(2, { zoned := true, nsze := 4 * 4194304, znums := [0, 1, 2, 3], zones := [(0, { st := .explOpen, openFunc := some 0 }), (2, { st := .closed })] })] } }
def zoneChecksAndChanges13e : Io := { func := 0, sqid := 1, cid := 9, nsid := 2, ext := List.replicate 64 0 }
def durableWritesAreRead0 : State := withRecs (withCmds (adm .solo) [(0, { someCmd with op := .write, stage := .buffered, seq := some 5 })]) [(5, { typ := 1, nsid := 1, slba := 0, nlb := 1, data := [7], key := 101, slot := some 0, oseq := 5, dataIn := false })]
def durableWritesAreRead1 : State := withRecs (withCmds (adm .solo) [(0, { someCmd with op := .write, stage := .buffered, seq := some 5 })]) [(5, { typ := 1, nsid := 1, slba := 0, nlb := 1, data := [7], key := 101, slot := some 0, oseq := 5, dataIn := false })]
def durableWritesAreRead2 : State := withRecs (withCmds (adm .solo) [(0, { someCmd with op := .write, stage := .buffered, seq := some 5 })]) [(5, { typ := 1, nsid := 1, slba := 0, nlb := 1, data := [7], key := 101, slot := some 0, oseq := 5, dataIn := true })]
def durableWritesAreRead3 : State := withRecs (withCmds (adm .solo) [(0, { someCmd with op := .write, stage := .buffered, seq := some 5 })]) [(5, { typ := 1, nsid := 2, zone := 0, zidx := 0, slba := 8, nlb := 1, data := [7], key := 102, slot := some 0, oseq := 5 })]
def durableWritesAreRead4 : State := withRecs (withCmds (adm .solo) [(0, { someCmd with op := .write, stage := .buffered, seq := some 5 })]) [(5, { typ := 1, nsid := 1, slba := 0, nlb := 1, data := [7], key := 101, slot := some 0, oseq := 5, dataIn := false })]
def zoneSends0e : Io := { func := 0, sqid := 1, cid := 9, nsid := 2, slba := 0 * 4194304, ext := List.replicate 64 0 }
def zoneSends1e : Io := { func := 0, sqid := 1, cid := 9, nsid := 2, slba := 0 * 4194304, ext := List.replicate 64 0 }
def zoneSends2e : Io := { func := 0, sqid := 1, cid := 9, nsid := 2, slba := 5 * 4194304, ext := List.replicate 64 0 }
def zoneSends3e : Io := { func := 0, sqid := 1, cid := 9, nsid := 2, slba := 0 * 4194304, ext := List.replicate 64 0 }
def zoneSends4e : Io := { func := 0, sqid := 1, cid := 9, nsid := 2, slba := 2 * 4194304, ext := List.replicate 64 0 }
def zoneSends5e : Io := { func := 0, sqid := 1, cid := 9, nsid := 2, slba := 5 * 4194304, ext := List.replicate 64 0 }
def zoneSends6e : Io := { func := 0, sqid := 1, cid := 9, nsid := 2, slba := 3 * 4194304, ext := List.replicate 64 0 }
def selectAllAccountsForEveryZone0e : Io := { func := 0, sqid := 1, cid := 9, nsid := 2, action := 5 }
def selectAllAccountsForEveryZone1e : Io := { func := 0, sqid := 1, cid := 9, nsid := 2, action := 6 }
def selectAllAccountsForEveryZone2 : State := ioq .service .unbound
def selectAllAccountsForEveryZone2e : Io := { func := 0, sqid := 1, cid := 9, nsid := 4, action := 1 }
def grantsDeadlinesAndCores0 : State := withCmds (adm .solo) [(0, { someCmd with needBytes := 4096 })]
def grantsDeadlinesAndCores1 : State := withCmds { adm .solo with it := { (adm .solo).it with pools := [] } } [(0, { someCmd with needBytes := 4096 })]
def grantsDeadlinesAndCores2 : State := withRecs (withCmds (adm .solo) [(0, { someCmd with op := .write, seq := some 5, needShare := 4352 })]) [(5, { typ := 1, nsid := 1, slba := 0, nlb := 1, data := [7], key := 101, slot := some 0, oseq := 5, dataIn := false })]
def grantsDeadlinesAndCores3 : State := { withRecs (withCmds (adm .solo) [(0, { someCmd with op := .write, seq := some 5, needShare := 4352 })]) [(5, { typ := 1, nsid := 1, slba := 0, nlb := 1, data := [7], key := 101, slot := some 0, oseq := 5, dataIn := false })] with sup := State.reset.sup }
def grantsDeadlinesAndCores4 : State := withCmds (adm .solo) [(0, { someCmd with armed := true, deadline := some 5000000 })]
def grantsDeadlinesAndCores5 : State := withCmds (adm .solo) [(0, someCmd)]
def grantsDeadlinesAndCores6 : State := withCmds (adm .solo) [(0, { someCmd with rescue := some 1 })]
def grantsDeadlinesAndCores7 : State := withCmds { adm .solo with time := { (adm .solo).time with dtb := 4000 } } [(0, { someCmd with rescue := some 1 })]
def grantsDeadlinesAndCores10 : State := { adm .solo with it := { (adm .solo).it with cores := [(3, { hung := true })] } }
def calendarAndDieWatchdogs1 : State := { State.reset with cal := { (State.reset).cal with running := false } }
def calendarAndDieWatchdogs4 : State := setDie (adm .solo) 0 (fun d => { d with op := some { kind := .qlcFine, bset := 5, asked := some 4000000 } })
def calendarAndDieWatchdogs5 : State := { setDie (adm .solo) 0 (fun d => { d with op := some { kind := .qlcFine, bset := 5, asked := some 4000000 } }) with cal := { (adm .solo).cal with late := [(0, 2)] } }
def calendarAndDieWatchdogs6 : State := setDie (adm .solo) 0 (fun d => { d with op := some { kind := .qlcFine, bset := 5, asked := some 4000000 } })
def dieReads0 : State := { withCmds (adm .solo) [(0, { someCmd with nsid := 2, zone := some 1, dies := [0], stage := .dieRequested })] with media := { (adm .solo).media with sets := [(setKey 0 5, { role := .zone, state := .inUse, nsid := 2, zone := 1 })] } }
def dieReads1 : State := withCmds (adm .solo) [(0, { someCmd with dies := [0], stage := .dieRequested })]
def dieReads2 : State := withCmds (adm .solo) [(0, { someCmd with dies := [0], stage := .dieRequested })]
def dieReads3 : State := withCmds (adm .solo) [(0, { someCmd with dies := [0], stage := .dieRequested })]
def dieReads4 : State := withCmds (adm .solo) [(0, { someCmd with dies := [0], stage := .dieRequested })]
def dieReads5 : State := withCmds (adm .solo) [(0, { someCmd with dies := [0], stage := .dieRequested })]
def dieReads7 : State := setBset (adm .solo) (setKey 0 0) (fun b => { b with reads := 100000000 })
def programsErasesAndStaging0 : State := setDie (adm .solo) 0 (fun d => { d with op := some { kind := .qlcFine, bset := 5 } })
def programsErasesAndStaging1 : State := setDie (adm .solo) 0 (fun d => { d with op := some { kind := .qlcFine, bset := 5 } })
def programsErasesAndStaging3 : State := setBset (setDie (adm .solo) 0 (fun d => { d with op := some { kind := .erase, bset := 5 } })) (setKey 0 5) (fun b => { b with role := .zone })
def programsErasesAndStaging4 : State := withRecs (adm .solo) [(5, { typ := 1, nsid := 2, zone := 0, zidx := 0, slba := 0, nlb := 8, data := [], durable := true, completed := true })]
def measuredBoot1 : State := { State.reset with boot := { State.reset.boot with regs := List.replicate 6 { stage := 0, slot := 1, size := 0, digest := 1 }, slotRun := 1 } }
def measuredBoot3 : State := { State.reset with boot := { State.reset.boot with slot1 := none, slot2 := none } }
def measuredBoot4 : State := { State.reset with boot := { State.reset.boot with regs := List.replicate 7 { stage := 0, slot := 1, size := 0, digest := 1 }, slotRun := 1 } }
def measuredBoot5 : State := { State.reset with boot := { State.reset.boot with regs := List.replicate 7 { stage := 0, slot := 1, size := 0, digest := 1 }, slotRun := 1, verdict := some 2 } }
def recoveryAndAlmanac2 : State := { adm .recovery with time := { (adm .recovery).time with gapDue := true } }
def recoveryAndAlmanac3 : State := { adm .solo with boot := { (adm .solo).boot with signPending := true, firstReady := some 1 } }
def recoveryAndAlmanac5 : State := { adm .solo with ev := { (adm .solo).ev with mounted := true } }
def thermalPolicy2 : State := { adm .solo with th := { (adm .solo).th with throttling := true, ctrl := { (adm .solo).th.ctrl with now := [200] } } }
def thermalPolicy4 : State := { adm .solo with th := { (adm .solo).th with imposed := 1 } }
def thermalPolicy6 : State := { adm .solo with th := { (adm .solo).th with rateHold := [true, false], rateAt := [0, 0] }, time := { (adm .solo).time with dtb := 2000000000 } }
def thermalPolicy8 : State := { adm .solo with th := { (adm .solo).th with shut := 1 } }
def thermalPolicy10 : State := { adm .solo with th := { (adm .solo).th with shut := 2 } }
def thermalPolicy12 : State := { adm .quarantine with md := { (adm .quarantine).md with qcause := 1 }, th := { (adm .quarantine).th with belowSince := some 0 }, time := { (adm .quarantine).time with dtb := 60000000000 } }
def eventJournal0 : State := { adm .solo with ev := { (adm .solo).ev with mounted := true, ring := [{ seq := 1, dtb := 1, boot := 1, typ := 0x65, sev := 1, vfAll := false, timeSrc := 0, mode := 3, func := none, nsid := 0, payload := [] }] } }
def eventJournal1 : State := { adm .solo with ev := { (adm .solo).ev with mounted := true, ring := [{ seq := 1, dtb := 1, boot := 1, typ := 0x65, sev := 1, vfAll := false, timeSrc := 0, mode := 3, func := none, nsid := 0, payload := [] }], lossCount := 1 } }
def eventJournal3 : State := { adm .solo with ev := { (adm .solo).ev with mounted := true, buf := List.replicate 512 { seq := 1, dtb := 1, boot := 1, typ := 0x65, sev := 1, vfAll := false, timeSrc := 0, mode := 3, func := none, nsid := 0, payload := [] } } }
def internalsAndIslands2 : State := { adm .solo with it := { (adm .solo).it with banks := [(10, { lent := true })] } }
def internalsAndIslands6 : State := withRecs (withCmds (adm .solo) [(0, { someCmd with op := .write, stage := .buffered, seq := some 5 })]) [(5, { typ := 1, nsid := 1, slba := 0, nlb := 1, data := [7], key := 101, slot := some 0, oseq := 5, dataIn := true })]
def internalsAndIslands8 : State := { adm .solo with it := { (adm .solo).it with faults := [(0, List.replicate 10 5000000)] } }
def internalsAndIslands10 : State := { adm .solo with it := { (adm .solo).it with faulted := [0] } }
def internalsAndIslands14 : State := { adm .solo with sup := { (adm .solo).sup with i3cAddr := some 9 } }
def deroftLink0 : State := { adm .solo with tw := { (adm .solo).tw with senseIn := true, holdTraining := false } }
def deroftLink2 : State := { adm .solo with tw := { (adm .solo).tw with trainStep := 3 } }
def deroftLink6 : State := { adm .service with tw := { (adm .service).tw with lanes := 0xFF } }
def deroftLink9 : State := { adm .service with tw := { (adm .service).tw with rxExpect := 1 } }
def deroftLink10 : State := { adm .service with tw := { (adm .service).tw with replay := [0] } }
def deroftMessages2 : State := { adm .service with tw := { (adm .service).tw with owePri := 1 } }
def deroftMessages8 : State := { adm .service with tw := { (adm .service).tw with integrityAt := [1, 2] } }
def lossOfThePeer3 : State := { adm .pairing with tw := { (adm .pairing).tw with step := 2 } }
def lossOfThePeer4 : State := { adm .service with tw := { (adm .service).tw with lostPending := true } }
def mirroring0b : MirrorBody := { nsid := 3, nlb := 1, data := [7], oseq := 9 }
def mirroring1 : State := withRecs (adm .service) [(5, { typ := 1, copy := true, nsid := 3, oseq := 9, slba := 0, nlb := 1, data := [7] })]
def mirroring1b : MirrorBody := { nsid := 3, nlb := 1, data := [7], oseq := 9 }
def mirroring2b : MirrorBody := { nsid := 99 }
def mirroring3 : State := withRecs (adm .service) [(5, { typ := 1, copy := true, nsid := 3, oseq := 9, slba := 0, nlb := 1, data := [7] })]
def mirroring4 : State := { adm .service with zn := State.reset.zn }
def mirroring5 : State := withRecs (adm .service) [(5, { typ := 1, nsid := 5, oseq := 5, mirrored := true, acked := false })]
def forwarding0e : Io := { func := 0, sqid := 1, cid := 9, nsid := 2, slba := 4194304 }
def forwarding1e : Io := { func := 0, sqid := 1, cid := 9, nsid := 4 }
def forwarding4 : State := withCmds (adm .service) [(0, { someCmd with nsid := 4, fwd := true, tag := 5 })]
def forwarding5 : State := withCmds (adm .service) [(0, { someCmd with op := .write, nsid := 4, fwd := true, tag := 5 })]
def forwarding6 : State := withCmds (adm .service) [(0, { someCmd with op := .zms, nsid := 4, fwd := true, tag := 5, zop := 1 })]
def forwarding8 : State := withCmds (adm .service) [(0, { someCmd with fromTwin := true, tag := 6 })]
def handovers2 : State := { adm .service with tw := { (adm .service).tw with transfer := some 5 } }
def handovers5 : State := { adm .service with tw := { (adm .service).tw with departing := some 5, departSent := true } }
def pairingHandshake0 : State := { adm .pairing with tw := { (adm .pairing).tw with step := 2 } }
def pairingHandshake0b : Hello := { part := 2 }
def pairingHandshake1 : State := { adm .pairing with tw := { (adm .pairing).tw with step := 2 } }
def pairingHandshake1b : Hello := { part := (adm .pairing).part.code, slot0 := true }
def pairingHandshake3 : State := { adm .pairing with tw := { (adm .pairing).tw with step := 6 } }
def pairingHandshake4 : State := { adm .pairing with tw := { (adm .pairing).tw with step := 6 } }
def pairingHandshake5 : State := { adm .pairing with tw := { (adm .pairing).tw with step := 7 } }
def pairingHandshake6 : State := { adm .pairing with tw := { (adm .pairing).tw with step := 8, hello := some { part := (adm .pairing).part.code, slot0 := true } } }
def pairingHandshake6b : Hello := { part := (adm .pairing).part.code, slot0 := true }
def syncsFramesAndFetches2f : FrameBody := { kind := 5 }
def syncsFramesAndFetches3f : FrameBody := { kind := 8 }
def syncsFramesAndFetches4f : FrameBody := { kind := 3, nsid := 3, data := [(7, 103)] }
def syncsFramesAndFetches6 : State := { adm .service with tw := { (adm .service).tw with fetches := [(5, 0, 3, 0, 1)] } }
def syncsFramesAndFetches8f : FrameBody := { kind := 3, nsid := 6, data := [(7, 105)] }
def syncsFramesAndFetches9f : FrameBody := { kind := 3, nsid := 1 }
def spdmResponder4 : State := { adm .solo with boot := { (adm .solo).boot with spdmCaps := [true, true, true], spdmAlgs := [true, true, true] } }
def spdmResponder6 : State := { adm .solo with boot := { (adm .solo).boot with spdmCaps := [true, true, true], spdmAlgs := [true, true, true] } }
def spdmResponder7 : State := { adm .solo with boot := { (adm .solo).boot with spdmCaps := [true, true, true], spdmAlgs := [true, true, true] } }
def spdmResponder10 : State := { adm .pairing with tw := { (adm .pairing).tw with step := 5 } }
def spdmResponder11 : State := { adm .pairing with tw := { (adm .pairing).tw with step := 5 }, boot := { (adm .pairing).boot with spdmSession := 1 } }
def spdmResponder12 : State := { adm .service with sup := { (adm .service).sup with slotid := 1 } }
def managementEndpoint18 : State := { State.reset with sup := { (State.reset).sup with rails := false } }
def registersAndShutdown3 : State := { State.reset with port := { (State.reset).port with rate := 4 } }
def idleStepIsOneTick1 : State := { State.reset with sup := { (State.reset).sup with rails := false } }
def securityMethods2b : Sqe := { func := 1, cid := 9, cdw10 := 0x01000300 }
def durableWritesAreRead1b : State := withCmds (adm .solo) [(0, { someCmd with op := .write, stage := .buffered, fwd := true })]
def grantsDeadlinesAndCores8 : State := withCmds (adm .solo) [(0, { someCmd with rescue := some 5000001 })]
def programsErasesAndStaging6 : State := { adm .solo with media := { (adm .solo).media with groups := [(7, { rowUnits := [0], rowAt := some 3000000 })] } }
def programsErasesAndStaging8 : State := { adm .solo with time := { (adm .solo).time with dtb := 604800000000000 } }
def calendarAndDieWatchdogs8 : State := setDie { adm .solo with time := { (adm .solo).time with dtb := 60000000 } } 0 (fun d => { d with op := some { kind := .qlcFine, bset := 5, since := 10000000 } })
def thermalPolicy7 : State := { adm .solo with time := { (adm .solo).time with dtb := 60000000000 } }
def eventJournal4 : State := { adm .solo with ev := { (adm .solo).ev with types := [(0x65, { bucket := 63, regainAt := 5000000 })] } }
def eventJournal5 : State := { adm .solo with ev := { (adm .solo).ev with types := [(0x65, { bucket := 63, regainAt := 5000001 })] } }
def internalsAndIslands14b : State := { adm .solo with it := { (adm .solo).it with cores := [(27, { hung := true })] } }
def deroftLink7 : State := { adm .service with tw := { (adm .service).tw with lanes := 0xC0 } }
def readsAndReports2b : Io := { func := 0, sqid := 1, cid := 9, nsid := 2, slba := 3 * 4194304, nlb := 1 }
def zoneSends7b : Io := { func := 0, sqid := 1, cid := 9, nsid := 2, slba := 4 * 4194304 }
def zoneSends8b : Io := { func := 0, sqid := 1, cid := 9, nsid := 2, slba := 1 }
def lossOfThePeer0 : State := { adm .service with tw := { (adm .service).tw with senseIn := true, peerSenseOut := false, senseAt := 4990000 } }
def lossOfThePeer1b : State := { adm .service with tw := { (adm .service).tw with senseFault := true, senseIn := true, peerSenseOut := true }, time := { (adm .service).time with dtb := 1000000000 } }
def lossOfThePeer4b : State := { adm .service with tw := { (adm .service).tw with lastFlitAt := 4984001 } }
def lossOfThePeer7 : State := { adm .pairing with tw := { (adm .pairing).tw with step := 2 }, time := { (adm .pairing).time with dtb := 40000000 } }
def mirroring2 : State := { adm .service with zn := { (adm .service).zn with store := KV.set (adm .service).zn.store (lbaKey 3 0) { val := 7, epoch := 0, oseq := 9 } } }
def spdmResponder1 : State := { adm .solo with it := { (adm .solo).it with cores := [(28, { hung := true })] } }
def deroftMessages5 : State := { adm .service with time := { (adm .service).time with dtb := 86400000000000 } }
def programsErasesAndStaging4b : State := { withRecs (adm .solo) [(5, { typ := 1, nsid := 2, zone := 0, zidx := 0, slba := 0, nlb := 200, data := [], durable := true, completed := true })] with time := { (adm .solo).time with dtb := 20000000 } }
def checkpointsRetentionAndWear0b : State := { adm .solo with jr := { (adm .solo).jr with session := true }, time := { (adm .solo).time with dtb := 30000000000 } }
def thermalPolicy2b : State := { thermalPolicy2 with th := { thermalPolicy2.th with hotSince := some 3000000000 }, time := { (adm .solo).time with dtb := 5000000000 } }
def thermalPolicy4b : State := { thermalPolicy4 with th := { thermalPolicy4.th with coolSince := some 0 }, time := { (adm .solo).time with dtb := 10000000000 } }
def commandsLeaveQueueAndPart0t : State := nextOf State.reset (exec .pllLock State.reset)
def doorbells0q : Sq := (KV.find (adm .solo).port.sqs (qkey 0 1)).getD sq0
def doorbells1q : Cq := (KV.find (adm .solo).port.cqs (qkey 0 1)).getD cq0
def doorbells2q : Sq := (KV.find (adm .solo).port.sqs (qkey 0 1)).getD sq0
def doorbells3q : Sq := (KV.find (adm .holiday).port.sqs (qkey 0 1)).getD sq0
def doorbells4q : Cq := (KV.find (adm .holiday).port.cqs (qkey 0 1)).getD cq0
def harvestsAndSeals0feeds : List (Nat × Nat) := (List.replicate 4 (480, 480) ++ List.replicate 100 (329, 0))
def harvestsAndSeals0samples : List SupplySample := supplySamples harvestsAndSeals0feeds (((List.replicate 104 false))) ((List.replicate 104 580))
def powerManagement0s1 : State := after (adm .solo) powerManagement0e.func 0
def powerManagement0st : Nat := stampOf (adm .solo) powerManagement0e.func 0
def powerManagement1s1 : State := after (adm .solo) powerManagement1e.func 0
def powerManagement1st : Nat := stampOf (adm .solo) powerManagement1e.func 0
def powerManagement2s1 : State := after powerManagement2 powerManagement2e.func 0
def powerManagement2st : Nat := stampOf powerManagement2 powerManagement2e.func 0
def completionPostsOneEntry0sq : Sq := (KV.find (adm .solo).port.sqs (qkey completionPostsOneEntry0e.func 0)).getD sq0
def completionPostsOneEntry0cq : Cq := (KV.find (adm .solo).port.cqs (qkey completionPostsOneEntry0e.func ((KV.find (adm .solo).port.sqs (qkey completionPostsOneEntry0e.func 0)).get (by decide +kernel)).cqid)).getD cq0
def queueManagement0s1 : State := after (adm .solo) queueManagement0e.func 0
def queueManagement0st : Nat := stampOf (adm .solo) queueManagement0e.func 0
def queueManagement1s1 : State := after (adm .solo) queueManagement1e.func 0
def queueManagement1st : Nat := stampOf (adm .solo) queueManagement1e.func 0
def queueManagement1cq : Cq := (KV.find queueManagement1s1.port.cqs (qkey queueManagement1e.func (fld queueManagement1e.cdw11 16 16))).getD cq0
def queueManagement2s1 : State := after queueManagement2 queueManagement2e.func 0
def queueManagement2st : Nat := stampOf queueManagement2 queueManagement2e.func 0
def queueManagement2cq : Cq := (KV.find queueManagement2s1.port.cqs (qkey queueManagement2e.func (fld queueManagement2e.cdw10 0 16))).getD cq0
def queueManagement3s1 : State := after (adm .solo) queueManagement3e.func 0
def queueManagement3st : Nat := stampOf (adm .solo) queueManagement3e.func 0
def queueManagement3q : Sq := (KV.find queueManagement3s1.port.sqs (qkey queueManagement3e.func (fld queueManagement3e.cdw10 0 16))).getD sq0
def virtualizationManagement0s1 : State := after (adm .solo) virtualizationManagement0e.func 0
def virtualizationManagement0st : Nat := stampOf (adm .solo) virtualizationManagement0e.func 0
def virtualizationManagement1s1 : State := after virtualizationManagement1 virtualizationManagement1e.func 0
def virtualizationManagement1st : Nat := stampOf virtualizationManagement1 virtualizationManagement1e.func 0
def virtualizationManagement1f : Nat := (secondary virtualizationManagement1s1 virtualizationManagement1e).getD 0
def virtualizationManagement2s1 : State := after virtualizationManagement2 virtualizationManagement2e.func 0
def virtualizationManagement2st : Nat := stampOf virtualizationManagement2 virtualizationManagement2e.func 0
def virtualizationManagement2f : Nat := (secondary virtualizationManagement2s1 virtualizationManagement2e).getD 0
def virtualizationManagement3s1 : State := after virtualizationManagement3 virtualizationManagement3e.func 0
def virtualizationManagement3st : Nat := stampOf virtualizationManagement3 virtualizationManagement3e.func 0
def virtualizationManagement3f : Nat := (secondary virtualizationManagement3s1 virtualizationManagement3e).getD 0
def eventsAbortsAndKeepAlive0s1 : State := after eventsAbortsAndKeepAlive0 eventsAbortsAndKeepAlive0e.func 0
def eventsAbortsAndKeepAlive0st : Nat := stampOf eventsAbortsAndKeepAlive0 eventsAbortsAndKeepAlive0e.func 0
def eventsAbortsAndKeepAlive1s1 : State := after eventsAbortsAndKeepAlive1 eventsAbortsAndKeepAlive1e.func 0
def eventsAbortsAndKeepAlive1st : Nat := stampOf eventsAbortsAndKeepAlive1 eventsAbortsAndKeepAlive1e.func 0
def eventsAbortsAndKeepAlive2s1 : State := after eventsAbortsAndKeepAlive2 eventsAbortsAndKeepAlive2e.func 0
def eventsAbortsAndKeepAlive2st : Nat := stampOf eventsAbortsAndKeepAlive2 eventsAbortsAndKeepAlive2e.func 0
def eventsAbortsAndKeepAlive3s1 : State := after eventsAbortsAndKeepAlive3 eventsAbortsAndKeepAlive3e.func 0
def eventsAbortsAndKeepAlive3st : Nat := stampOf eventsAbortsAndKeepAlive3 eventsAbortsAndKeepAlive3e.func 0
def eventsAbortsAndKeepAlive4s1 : State := after (adm .solo) eventsAbortsAndKeepAlive4e.func 0
def eventsAbortsAndKeepAlive4st : Nat := stampOf (adm .solo) eventsAbortsAndKeepAlive4e.func 0
def eventsAbortsAndKeepAlive5s1 : State := after (adm .solo) eventsAbortsAndKeepAlive5e.func 0
def eventsAbortsAndKeepAlive5st : Nat := stampOf (adm .solo) eventsAbortsAndKeepAlive5e.func 0
def standardFeatures0s1 : State := after (adm .solo) standardFeatures0e.func 0
def standardFeatures0st : Nat := stampOf (adm .solo) standardFeatures0e.func 0
def standardFeatures1s1 : State := after (adm .solo) standardFeatures1e.func 0
def standardFeatures1st : Nat := stampOf (adm .solo) standardFeatures1e.func 0
def standardFeatures2s1 : State := after (adm .solo) standardFeatures2e.func 0
def standardFeatures2st : Nat := stampOf (adm .solo) standardFeatures2e.func 0
def standardFeatures3s1 : State := after (adm .solo) standardFeatures3e.func 0
def standardFeatures3st : Nat := stampOf (adm .solo) standardFeatures3e.func 0
def standardFeatures4s1 : State := after (adm .solo) standardFeatures4e.func 0
def standardFeatures4st : Nat := stampOf (adm .solo) standardFeatures4e.func 0
def standardFeatures5s1 : State := after (adm .solo) standardFeatures5e.func 0
def standardFeatures5st : Nat := stampOf (adm .solo) standardFeatures5e.func 0
def standardFeatures6s1 : State := after (adm .solo) standardFeatures6e.func 0
def standardFeatures6st : Nat := stampOf (adm .solo) standardFeatures6e.func 0
def vendorFeatures0s1 : State := after (adm .solo) vendorFeatures0e.func 0
def vendorFeatures0st : Nat := stampOf (adm .solo) vendorFeatures0e.func 0
def vendorFeatures0q : Sq := (KV.find vendorFeatures0s1.port.sqs (qkey vendorFeatures0e.func (fld vendorFeatures0e.cdw11 0 16))).getD sq0
def vendorFeatures1s1 : State := after vendorFeatures1 vendorFeatures1e.func 0
def vendorFeatures1st : Nat := stampOf vendorFeatures1 vendorFeatures1e.func 0
def vendorFeatures1q : Sq := (KV.find vendorFeatures1s1.port.sqs (qkey vendorFeatures1e.func (fld vendorFeatures1e.cdw11 0 16))).getD sq0
def vendorFeatures2s1 : State := after (adm .solo) vendorFeatures2e.func 0
def vendorFeatures2st : Nat := stampOf (adm .solo) vendorFeatures2e.func 0
def vendorFeatures3s1 : State := after (adm .solo) vendorFeatures3e.func 0
def vendorFeatures3st : Nat := stampOf (adm .solo) vendorFeatures3e.func 0
def vendorFeatures4s1 : State := after (adm .solo) vendorFeatures4e.func 0
def vendorFeatures4st : Nat := stampOf (adm .solo) vendorFeatures4e.func 0
def vendorFeatures5s1 : State := after (adm .solo) vendorFeatures5e.func 0
def vendorFeatures5st : Nat := stampOf (adm .solo) vendorFeatures5e.func 0
def vendorFeatures6s1 : State := after (adm .solo) vendorFeatures6e.func 0
def vendorFeatures6st : Nat := stampOf (adm .solo) vendorFeatures6e.func 0
def reports0g : Nat → Nat := okOf (fun _ => 0) (identifyDoc (after (adm .solo) 0 0) { func := 0, cid := 9, cdw10 := 1 })
def reports3v : Nat := (okOf (0, []) (featureValue (after (adm .solo) 0 0) { func := 0, cid := 9, cdw10 := 2 })).1
def reports3d : List Nat := (okOf (0, []) (featureValue (after (adm .solo) 0 0) { func := 0, cid := 9, cdw10 := 2 })).2
def namespaceManagement0s1 : State := after (adm .solo) namespaceManagement0e.func 0
def namespaceManagement0st : Nat := stampOf (adm .solo) namespaceManagement0e.func 0
def namespaceManagement1s1 : State := after (adm .solo) namespaceManagement1e.func 0
def namespaceManagement1st : Nat := stampOf (adm .solo) namespaceManagement1e.func 0
def namespaceManagement1n : Ns := (nsOf namespaceManagement1s1 namespaceManagement1e.nsid).getD ns0
def namespaceManagement2s1 : State := after namespaceManagement2 namespaceManagement2e.func 0
def namespaceManagement2st : Nat := stampOf namespaceManagement2 namespaceManagement2e.func 0
def namespaceManagement3s1 : State := after (adm .solo) namespaceManagement3e.func 0
def namespaceManagement3st : Nat := stampOf (adm .solo) namespaceManagement3e.func 0
def namespaceManagement4s1 : State := after (adm .service) namespaceManagement4e.func 0
def namespaceManagement4st : Nat := stampOf (adm .service) namespaceManagement4e.func 0
def erasures0n : Ns := (nsOf ((after (adm .solo) erasures0e.func 0)) erasures0e.nsid).getD ns0
def firmwareAndPolicy0s1 : State := after (adm .solo) firmwareAndPolicy0e.func 0
def firmwareAndPolicy0st : Nat := stampOf (adm .solo) firmwareAndPolicy0e.func 0
def firmwareAndPolicy1s1 : State := after firmwareAndPolicy1 firmwareAndPolicy1e.func 0
def firmwareAndPolicy1st : Nat := stampOf firmwareAndPolicy1 firmwareAndPolicy1e.func 0
def firmwareAndPolicy2s1 : State := after (adm .solo) firmwareAndPolicy2e.func 0
def firmwareAndPolicy2st : Nat := stampOf (adm .solo) firmwareAndPolicy2e.func 0
def firmwareAndPolicy6s1 : State := after (adm .solo) firmwareAndPolicy6e.func 0
def firmwareAndPolicy6st : Nat := stampOf (adm .solo) firmwareAndPolicy6e.func 0
def securityMethods0s1 : State := after (admV .solo) securityMethods0e.func 0
def securityMethods0st : Nat := stampOf (admV .solo) securityMethods0e.func 0
def securityMethods1s1 : State := after (adm .solo) securityMethods1e.func 0
def securityMethods1st : Nat := stampOf (adm .solo) securityMethods1e.func 0
def securityMethods2s1 : State := after securityMethods2 securityMethods2b.func 0
def securityMethods2st : Nat := stampOf securityMethods2 securityMethods2b.func 0
def securityMethods3s1 : State := after (admV .solo) securityMethods3e.func 0
def securityMethods3st : Nat := stampOf (admV .solo) securityMethods3e.func 0
def securityMethods4s1 : State := after securityMethods4 securityMethods4e.func 0
def securityMethods4st : Nat := stampOf securityMethods4 securityMethods4e.func 0
def securityMethods4n : Ns := (nsOf securityMethods4s1 securityMethods4e.nsid).getD ns0
def securityMethods5s1 : State := after (admV .solo) securityMethods5e.func 0
def securityMethods5st : Nat := stampOf (admV .solo) securityMethods5e.func 0
def securityMethods5n : Ns := (nsOf securityMethods5s1 securityMethods5e.nsid).getD ns0
def securityMethods6s1 : State := after (adm .solo) securityMethods6e.func 0
def securityMethods6st : Nat := stampOf (adm .solo) securityMethods6e.func 0
def securityMethods6n : Ns := (nsOf securityMethods6s1 securityMethods6e.nsid).getD ns0
def securityMethods7s1 : State := after securityMethods7 securityMethods7e.func 0
def securityMethods7st : Nat := stampOf securityMethods7 securityMethods7e.func 0
def securityMethods7n : Ns := (nsOf securityMethods7s1 securityMethods7e.nsid).getD ns0
def pairControl0st : Nat := stampOf (adm .solo) pairControl0e.func 0
def pairControl1s1 : State := after (adm .service) pairControl1e.func 0
def pairControl1st : Nat := stampOf (adm .service) pairControl1e.func 0
def pairControl2st : Nat := stampOf (adm .solo) pairControl2e.func 0
def pairControl3st : Nat := stampOf (adm .solo) pairControl3e.func 0
def pairControl3n : Ns := (nsOf ((after (adm .solo) pairControl3e.func 0)) pairControl3e.nsid).getD ns0
def pairControl4st : Nat := stampOf (adm .solo) pairControl4e.func 0
def pairControl4n : Ns := (nsOf ((after (adm .solo) pairControl4e.func 0)) pairControl4e.nsid).getD ns0
def pairControl5s1 : State := after (adm .service) pairControl5e.func 0
def pairControl5st : Nat := stampOf (adm .service) pairControl5e.func 0
def pairControl5n : Ns := (nsOf pairControl5s1 pairControl5e.nsid).getD ns0
def reshapeCommands0s1 : State := after (adm .service) reshapeCommands0e.func 0
def reshapeCommands0st : Nat := stampOf (adm .service) reshapeCommands0e.func 0
def reshapeCommands0n : Ns := (nsOf reshapeCommands0s1 reshapeCommands0e.nsid).getD ns0
def reshapeCommands0nums : List Nat := (mirroredNumbers reshapeCommands0s1 reshapeCommands0n).getD []
def reshapeCommands1s1 : State := after reshapeCommands1 reshapeCommands1e.func 0
def reshapeCommands1st : Nat := stampOf reshapeCommands1 reshapeCommands1e.func 0
def reshapeCommands1n : Ns := (nsOf reshapeCommands1s1 reshapeCommands1e.nsid).getD ns0
def reshapeCommands2s1 : State := after (adm .solo) reshapeCommands2e.func 0
def reshapeCommands2st : Nat := stampOf (adm .solo) reshapeCommands2e.func 0
def reshapeCommands2n : Ns := (nsOf reshapeCommands2s1 reshapeCommands2e.nsid).getD ns0
def reshapeCommands3s1 : State := after (adm .solo) reshapeCommands3e.func 0
def reshapeCommands3st : Nat := stampOf (adm .solo) reshapeCommands3e.func 0
def reshapeCommands3n : Ns := (nsOf reshapeCommands3s1 reshapeCommands3e.nsid).getD ns0
def reshapeCommands4s1 : State := after reshapeCommands4 reshapeCommands4e.func 0
def reshapeCommands4st : Nat := stampOf reshapeCommands4 reshapeCommands4e.func 0
def reshapeCommands4n : Ns := (nsOf reshapeCommands4s1 reshapeCommands4e.nsid).getD ns0
def reshapeCommands4r : Reshape := (((nsOf reshapeCommands4s1 reshapeCommands4e.nsid).get (by decide +kernel)).reshape).getD reshape0
def readsAndReports0j : Judged := okOf judged0 (ioFront (ioq .solo .unbound) readsAndReports0e .read)
def readsAndReports1j : Judged := okOf judged0 (ioFront (ioq .solo .express) readsAndReports1e .read)
def readsAndReports1sp : State := okOf State.reset (placeRead readsAndReports1j.st readsAndReports1e.func readsAndReports1j.cls (freeSlot readsAndReports1j.st) (needsOf readsAndReports1j.st readsAndReports1e.nsid readsAndReports1j.ns readsAndReports1e.slba readsAndReports1e.nlb) (readsAndReports1e.nlb * lbaBytes readsAndReports1j.ns.flbas) readsAndReports1j.stamp readsAndReports1e.tv)
def readsAndReports2j : Judged := okOf judged0 (ioFront (ioq .solo .unbound) readsAndReports2b .read)
def readsAndReports3j : Judged := okOf judged0 (ioFront readsAndReports2 readsAndReports2e .read)
def readsAndReports4j : Judged := okOf judged0 (ioFront (ioq .solo .unbound) readsAndReports3e .zmr)
def readsAndReports5j : Judged := okOf judged0 (ioFront readsAndReports4 readsAndReports4e .flush)
def readsAndReports6j : Judged := okOf judged0 (ioFront (ioq .solo .unbound) readsAndReports5e .flush)
def endOfACommand0c : Cmd := (KV.find endOfACommand0.port.cmds 0).getD someCmd
def endOfACommand0sq : Sq := (KV.find endOfACommand0.port.sqs (qkey ((KV.find endOfACommand0.port.cmds 0).get (by decide +kernel)).func ((KV.find endOfACommand0.port.cmds 0).get (by decide +kernel)).sqid)).getD sq0
def endOfACommand0cq : Cq := (KV.find endOfACommand0.port.cqs (qkey ((KV.find endOfACommand0.port.cmds 0).get (by decide +kernel)).func ((KV.find endOfACommand0.port.sqs (qkey ((KV.find endOfACommand0.port.cmds 0).get (by decide +kernel)).func ((KV.find endOfACommand0.port.cmds 0).get (by decide +kernel)).sqid)).get (by decide +kernel)).cqid)).getD cq0
def endOfACommand3c : Cmd := (KV.find endOfACommand3.port.cmds 0).getD someCmd
def endOfACommand4c : Cmd := (KV.find endOfACommand4.port.cmds 0).getD someCmd
def writesFormRecords0j : Judged := okOf judged0 (ioFront (ioq .solo .unbound) writesFormRecords0e .write)
def writesFormRecords0s2 : State := okOf State.reset (writeFront writesFormRecords0j.st writesFormRecords0e writesFormRecords0j .write (freeSlot writesFormRecords0j.st) false)
def writesFormRecords0s3 : State := (okOf (0, State.reset) (coreChecks writesFormRecords0s2 writesFormRecords0e writesFormRecords0j .write)).2
def writesFormRecords0off : Nat := (okOf (0, State.reset) (coreChecks writesFormRecords0s2 writesFormRecords0e writesFormRecords0j .write)).1
def writesFormRecords1j : Judged := okOf judged0 (ioFront writesFormRecords1 writesFormRecords1e .write)
def writesFormRecords1s2 : State := okOf State.reset (writeFront writesFormRecords1j.st writesFormRecords1e writesFormRecords1j .write (freeSlot writesFormRecords1j.st) false)
def writesFormRecords1s3 : State := (okOf (0, State.reset) (coreChecks writesFormRecords1s2 writesFormRecords1e writesFormRecords1j .write)).2
def writesFormRecords1off : Nat := (okOf (0, State.reset) (coreChecks writesFormRecords1s2 writesFormRecords1e writesFormRecords1j .write)).1
def writesFormRecords2j : Judged := okOf judged0 (ioFront (ioq .solo .unbound) writesFormRecords2e .append)
def writesFormRecords2s2 : State := okOf State.reset (writeFront writesFormRecords2j.st writesFormRecords2e writesFormRecords2j .append (freeSlot writesFormRecords2j.st) false)
def writesFormRecords2s3 : State := (okOf (0, State.reset) (coreChecks writesFormRecords2s2 writesFormRecords2e writesFormRecords2j .append)).2
def writesFormRecords2off : Nat := (okOf (0, State.reset) (coreChecks writesFormRecords2s2 writesFormRecords2e writesFormRecords2j .append)).1
def writesFormRecords3j : Judged := okOf judged0 (ioFront (ioq .solo .unbound) writesFormRecords3e .writeZeroes)
def writesFormRecords3s2 : State := okOf State.reset (writeFront writesFormRecords3j.st writesFormRecords3e writesFormRecords3j .writeZeroes (freeSlot writesFormRecords3j.st) false)
def writesFormRecords3s3 : State := (okOf (0, State.reset) (coreChecks writesFormRecords3s2 writesFormRecords3e writesFormRecords3j .writeZeroes)).2
def writesFormRecords3off : Nat := (okOf (0, State.reset) (coreChecks writesFormRecords3s2 writesFormRecords3e writesFormRecords3j .writeZeroes)).1
def writesFormRecords4j : Judged := okOf judged0 (ioFront (ioq .solo .unbound) writesFormRecords4e .write)
def writesFormRecords4s2 : State := okOf State.reset (writeFront writesFormRecords4j.st writesFormRecords4e writesFormRecords4j .write (freeSlot writesFormRecords4j.st) false)
def writesFormRecords4st : Status := errOf (coreChecks writesFormRecords4s2 writesFormRecords4e writesFormRecords4j .write)
def writesFormRecords5j : Judged := okOf judged0 (ioFront writesFormRecords5 writesFormRecords5e .write)
def writesFormRecords5s2 : State := okOf State.reset (writeFront writesFormRecords5j.st writesFormRecords5e writesFormRecords5j .write (freeSlot writesFormRecords5j.st) false)
def writesFormRecords6j : Judged := okOf judged0 (ioFront writesFormRecords6 writesFormRecords6e .append)
def writesFormRecords6s2 : State := okOf State.reset (writeFront writesFormRecords6j.st writesFormRecords6e writesFormRecords6j .append (freeSlot writesFormRecords6j.st) false)
def writesFormRecords7j : Judged := okOf judged0 (ioFront writesFormRecords7 writesFormRecords7e .writeZeroes)
def writesFormRecords7s2 : State := okOf State.reset (writeFront writesFormRecords7j.st writesFormRecords7e writesFormRecords7j .writeZeroes (freeSlot writesFormRecords7j.st) false)
def zoneChecksAndChanges0n : Ns := (nsOf (adm .solo) 2).getD { zoned := true, nsze := 0 }
def zoneChecksAndChanges1n : Ns := (nsOf (adm .solo) 2).getD { zoned := true, nsze := 0 }
def zoneChecksAndChanges2n : Ns := (nsOf (adm .solo) 2).getD { zoned := true, nsze := 0 }
def zoneChecksAndChanges3n : Ns := (nsOf (adm .solo) 2).getD { zoned := true, nsze := 0 }
def zoneChecksAndChanges3z : Zone := { st := .implOpen, wp := 8, taken := 8, cap := 100000, group := some 0, openFunc := some 0, activeFunc := some 0 }
def zoneChecksAndChanges8n : Ns := (nsOf zoneChecksAndChanges8 2).getD ns0
def zoneChecksAndChanges13x : Ext := (extOf (adm .solo).part (List.replicate 64 0)).getD {}
def zoneChecksAndChanges13n : Ns := (nsOf (adm .solo) zoneChecksAndChanges13e.nsid).getD ns0
def zoneChecksAndChanges13g : Nat := okOf 0 (place (adm .solo) 0 zoneChecksAndChanges13x)
def durableWritesAreRead0c : Cmd := { someCmd with op := .write, stage := .buffered, seq := some 5 }
def durableWritesAreRead1c : Cmd := (KV.find durableWritesAreRead1b.port.cmds 0).getD someCmd
def durableWritesAreRead2r : VRec := (KV.find durableWritesAreRead1.jr.recs 5).getD rec0
def durableWritesAreRead2c : Cmd := { someCmd with op := .write, stage := .buffered, seq := some 5 }
def durableWritesAreRead3r : VRec := (KV.find durableWritesAreRead2.jr.recs 5).getD rec0
def durableWritesAreRead3n : Ns := (nsOf durableWritesAreRead2 ((KV.find durableWritesAreRead2.jr.recs 5).get (by decide +kernel)).nsid).getD ns0
def durableWritesAreRead4r : VRec := (KV.find durableWritesAreRead3.jr.recs 5).getD rec0
def durableWritesAreRead4n : Ns := (nsOf durableWritesAreRead3 ((KV.find durableWritesAreRead3.jr.recs 5).get (by decide +kernel)).nsid).getD ns0
def durableWritesAreRead5r : VRec := (KV.find durableWritesAreRead4.jr.recs 5).getD rec0
def zoneSends0j : Judged := okOf judged0 (ioFront (ioq .solo .unbound) { zoneSends0e with action := 1 } .zms)
def zoneSends0s2 : State := okOf State.reset (writeFront zoneSends0j.st zoneSends0e zoneSends0j .zms (freeSlot zoneSends0j.st) false)
def zoneSends0s3 : State := okOf State.reset (zoneAction (acceptedSend zoneSends0s2 { zoneSends0e with action := 1 } zoneSends0j) zoneSends0e.func zoneSends0e.nsid (zoneSends0e.slba / zoneSize zoneSends0j.ns.flbas) 1)
def zoneSends0m : Ns := (nsOf zoneSends0s3 zoneSends0e.nsid).getD ns0
def zoneSends1j : Judged := okOf judged0 (ioFront (ioq .solo .unbound) { zoneSends1e with action := 2 } .zms)
def zoneSends1s2 : State := okOf State.reset (writeFront zoneSends1j.st zoneSends1e zoneSends1j .zms (freeSlot zoneSends1j.st) false)
def zoneSends1s3 : State := okOf State.reset (zoneAction (acceptedSend zoneSends1s2 { zoneSends1e with action := 2 } zoneSends1j) zoneSends1e.func zoneSends1e.nsid (zoneSends1e.slba / zoneSize zoneSends1j.ns.flbas) 2)
def zoneSends1m : Ns := (nsOf zoneSends1s3 zoneSends1e.nsid).getD ns0
def zoneSends2j : Judged := okOf judged0 (ioFront (ioq .solo .unbound) { zoneSends2e with action := 3 } .zms)
def zoneSends2s2 : State := okOf State.reset (writeFront zoneSends2j.st zoneSends2e zoneSends2j .zms (freeSlot zoneSends2j.st) false)
def zoneSends2s3 : State := okOf State.reset (zoneAction (acceptedSend zoneSends2s2 { zoneSends2e with action := 3 } zoneSends2j) zoneSends2e.func zoneSends2e.nsid (zoneSends2e.slba / zoneSize zoneSends2j.ns.flbas) 3)
def zoneSends2m : Ns := (nsOf zoneSends2s3 zoneSends2e.nsid).getD ns0
def zoneSends3j : Judged := okOf judged0 (ioFront (ioq .solo .unbound) { zoneSends3e with action := 4 } .zms)
def zoneSends3s2 : State := okOf State.reset (writeFront zoneSends3j.st zoneSends3e zoneSends3j .zms (freeSlot zoneSends3j.st) false)
def zoneSends3s3 : State := okOf State.reset (zoneAction (acceptedSend zoneSends3s2 { zoneSends3e with action := 4 } zoneSends3j) zoneSends3e.func zoneSends3e.nsid (zoneSends3e.slba / zoneSize zoneSends3j.ns.flbas) 4)
def zoneSends3m : Ns := (nsOf zoneSends3s3 zoneSends3e.nsid).getD ns0
def zoneSends4j : Judged := okOf judged0 (ioFront (ioq .solo .unbound) { zoneSends4e with action := 5 } .zms)
def zoneSends4s2 : State := okOf State.reset (writeFront zoneSends4j.st zoneSends4e zoneSends4j .zms (freeSlot zoneSends4j.st) false)
def zoneSends4s3 : State := okOf State.reset (zoneAction (acceptedSend zoneSends4s2 { zoneSends4e with action := 5 } zoneSends4j) zoneSends4e.func zoneSends4e.nsid (zoneSends4e.slba / zoneSize zoneSends4j.ns.flbas) 5)
def zoneSends4m : Ns := (nsOf zoneSends4s3 zoneSends4e.nsid).getD ns0
def zoneSends5j : Judged := okOf judged0 (ioFront (ioq .solo .unbound) { zoneSends5e with action := 16 } .zms)
def zoneSends5s2 : State := okOf State.reset (writeFront zoneSends5j.st zoneSends5e zoneSends5j .zms (freeSlot zoneSends5j.st) false)
def zoneSends5s3 : State := okOf State.reset (setExtension zoneSends5e (acceptedSend zoneSends5s2 { zoneSends5e with action := 16 } zoneSends5j) zoneSends5j.ns (zoneSends5e.slba / zoneSize zoneSends5j.ns.flbas))
def zoneSends5m : Ns := (nsOf zoneSends5s3 zoneSends5e.nsid).getD ns0
def zoneSends6j : Judged := okOf judged0 (ioFront (ioq .solo .unbound) { zoneSends6e with action := 4 } .zms)
def zoneSends6s2 : State := okOf State.reset (writeFront zoneSends6j.st zoneSends6e zoneSends6j .zms (freeSlot zoneSends6j.st) false)
def zoneSends6st : Status := errOf (zoneAction (acceptedSend zoneSends6s2 { zoneSends6e with action := 4 } zoneSends6j) zoneSends6e.func zoneSends6e.nsid (zoneSends6e.slba / zoneSize zoneSends6j.ns.flbas) 4)
def zoneSends7j : Judged := okOf judged0 (ioFront (ioq .solo .unbound) { (zoneSends7b) with action := 1 } .zms)
def zoneSends7s2 : State := okOf State.reset (writeFront zoneSends7j.st zoneSends7b zoneSends7j .zms (freeSlot zoneSends7j.st) false)
def zoneSends7s3 : State := okOf State.reset (zoneAction (acceptedSend zoneSends7s2 { (zoneSends7b) with action := 1 } zoneSends7j) zoneSends7b.func zoneSends7b.nsid (zoneSends7b.slba / zoneSize zoneSends7j.ns.flbas) 1)
def selectAllAccountsForEveryZone0j : Judged := okOf judged0 (ioFront (ioq .solo .unbound) selectAllAccountsForEveryZone0e .zms)
def selectAllAccountsForEveryZone0s2 : State := okOf State.reset (writeFront selectAllAccountsForEveryZone0j.st selectAllAccountsForEveryZone0e selectAllAccountsForEveryZone0j .zms (freeSlot selectAllAccountsForEveryZone0j.st) true)
def selectAllAccountsForEveryZone2u : State := errSt (ioFront (ioq .solo .unbound) selectAllAccountsForEveryZone1e .zms true)
def selectAllAccountsForEveryZone3j : Judged := okOf judged0 (ioFront selectAllAccountsForEveryZone2 selectAllAccountsForEveryZone2e .zms)
def selectAllAccountsForEveryZone3s2 : State := okOf State.reset (writeFront selectAllAccountsForEveryZone3j.st selectAllAccountsForEveryZone2e selectAllAccountsForEveryZone3j .zms (freeSlot selectAllAccountsForEveryZone3j.st) true)
def grantsDeadlinesAndCores0c : Cmd := (KV.find grantsDeadlinesAndCores0.port.cmds 0).getD someCmd
def grantsDeadlinesAndCores1c : Cmd := (KV.find grantsDeadlinesAndCores1.port.cmds 0).getD someCmd
def grantsDeadlinesAndCores2r : VRec := (KV.find grantsDeadlinesAndCores2.jr.recs 5).getD rec0
def grantsDeadlinesAndCores2c : Cmd := (KV.find grantsDeadlinesAndCores2.port.cmds 0).getD someCmd
def grantsDeadlinesAndCores2n : Ns := (nsOf grantsDeadlinesAndCores2 ((KV.find grantsDeadlinesAndCores2.port.cmds 0).get (by decide +kernel)).nsid).getD ns0
def grantsDeadlinesAndCores3c : Cmd := { someCmd with op := .write, seq := some 5, needShare := 4352 }
def grantsDeadlinesAndCores3n : Ns := (nsOf grantsDeadlinesAndCores3 grantsDeadlinesAndCores3c.nsid).getD ns0
def grantsDeadlinesAndCores4c : Cmd := (KV.find grantsDeadlinesAndCores4.port.cmds 0).getD someCmd
def grantsDeadlinesAndCores5c : Cmd := (KV.find grantsDeadlinesAndCores5.port.cmds 0).getD someCmd
def grantsDeadlinesAndCores6c : Cmd := (KV.find grantsDeadlinesAndCores6.port.cmds 0).getD someCmd
def grantsDeadlinesAndCores7c : Cmd := (KV.find grantsDeadlinesAndCores7.port.cmds 0).getD someCmd
def grantsDeadlinesAndCores8c : Cmd := (KV.find grantsDeadlinesAndCores8.port.cmds 0).getD someCmd
def calendarAndDieWatchdogs5o : DieOp := ((dieOf calendarAndDieWatchdogs4 0).op).getD op0
def calendarAndDieWatchdogs6o : DieOp := { kind := .qlcFine, bset := 5, asked := some 4000000 }
def calendarAndDieWatchdogs7o : DieOp := ((dieOf calendarAndDieWatchdogs6 0).op).getD op0
def dieReads0c : Cmd := (KV.find dieReads0.port.cmds 0).getD someCmd
def dieReads0k : Nat := (readSet dieReads0 dieReads0c 0).getD 0
def dieReads1c : Cmd := (KV.find dieReads1.port.cmds 0).getD someCmd
def dieReads2c : Cmd := (KV.find dieReads2.port.cmds 0).getD someCmd
def dieReads3c : Cmd := (KV.find dieReads3.port.cmds 0).getD someCmd
def dieReads4c : Cmd := (KV.find dieReads4.port.cmds 0).getD someCmd
def dieReads5c : Cmd := (KV.find dieReads5.port.cmds 0).getD someCmd
def programsErasesAndStaging0o : DieOp := ((dieOf programsErasesAndStaging0 0).op).getD op0
def programsErasesAndStaging1o : DieOp := ((dieOf programsErasesAndStaging1 0).op).getD op0
def programsErasesAndStaging3o : DieOp := ((dieOf programsErasesAndStaging3 0).op).getD op0
def programsErasesAndStaging4n : Ns := (nsOf (programsErasesAndStaging4) 2).getD ns0
def recoveryAndAlmanac3a : Alm := (KV.find recoveryAndAlmanac3.boot.ring recoveryAndAlmanac3.boot.boot).getD alm0
def internalsAndIslands2accesses : List PadAccess := [({ who := .core 25, addr := 524280 })]
def internalsAndIslands7r : VRec := (KV.find internalsAndIslands6.jr.recs 5).getD rec0
def internalsAndIslands7n : Ns := (nsOf internalsAndIslands6 ((KV.find internalsAndIslands6.jr.recs 5).get (by decide +kernel)).nsid).getD ns0
def deroftLink3sets : List (Nat × List (BitVec 8)) := ((List.range 8).map (fun k => (k, trainingSet (adm .solo) k 1 0 255)))
def mirroring0n : Ns := (nsOf (adm .service) mirroring0b.nsid).getD ns0
def mirroring1n : Ns := (nsOf mirroring1 mirroring1b.nsid).getD ns0
def mirroring1x : VRec := (heldCopy mirroring1 mirroring1b).getD rec0
def mirroring2n : Ns := (nsOf mirroring2 mirroring1b.nsid).getD ns0
def mirroring4r : VRec := (KV.find mirroring3.jr.recs 5).getD rec0
def mirroring6r : VRec := { typ := 1, nsid := 5, oseq := 5, mirrored := true, acked := false }
def forwarding0n : Ns := (nsOf (adm .service) forwarding0e.nsid).getD ns0
def forwarding1n : Ns := (nsOf (adm .service) forwarding1e.nsid).getD ns0
def forwarding4c : Cmd := { someCmd with nsid := 4, fwd := true, tag := 5 }
def forwarding5c : Cmd := { someCmd with op := .write, nsid := 4, fwd := true, tag := 5 }
def forwarding6c : Cmd := { someCmd with op := .zms, nsid := 4, fwd := true, tag := 5, zop := 1 }
def forwarding8c : Cmd := { someCmd with fromTwin := true, tag := 6 }
def pairingHandshake0c : Nat := (admission pairingHandshake0 pairingHandshake0b).getD 0
def pairingHandshake3c : Hello := { part := (adm .pairing).part.code, slot0 := true }
def syncsFramesAndFetches4n : Ns := (nsOf (adm .service) syncsFramesAndFetches4f.nsid).getD ns0
def syncsFramesAndFetches8n : Ns := (nsOf (adm .service) syncsFramesAndFetches8f.nsid).getD ns0
def syncsFramesAndFetches9n : Ns := (nsOf (adm .service) syncsFramesAndFetches9f.nsid).getD ns0

theorem witness_StepRunsTheFrontCommand :
    ∃ (s : State) (c : Instr) (rest : List Instr), s.pending = c :: rest :=
  ⟨stepRunsTheFrontCommand0, .pllLock, [], by decide +kernel⟩

theorem witness_IdleStepIsOneTick :
    (∃ (s : State), s.pending = [] ∧ s.sup.rails = true ∧ s.md.mode ≠ .holiday) ∧
    (∃ (s : State), s.pending = [] ∧ (s.sup.rails = false ∨ s.md.mode = .holiday)) :=
  ⟨⟨State.reset, by decide +kernel⟩,
    ⟨idleStepIsOneTick1, by decide +kernel⟩⟩

theorem witness_ResetLeaves :
    ∃ (f : Nat), 1 ≤ f :=
  ⟨1, by decide +kernel⟩

theorem witness_StepKeepsTheInvariant :
    ∃ (s : State) (t : State), Inv s ∧ step s = .next t :=
  ⟨State.reset, nextOf State.reset (step State.reset), ⟨by decide +kernel, by decide +kernel⟩, next_of (by decide +kernel)⟩

theorem witness_StepNeverLowersSvnOrBoot :
    ∃ (s : State) (t : State), step s = .next t :=
  ⟨State.reset, nextOf State.reset (step State.reset), next_of (by decide +kernel)⟩

theorem witness_CommandsLeaveQueueAndPart :
    ∃ (c : Instr) (s : State) (t : State), exec c s = .next t :=
  ⟨.pllLock, State.reset, commandsLeaveQueueAndPart0t, next_of (by decide +kernel)⟩

theorem witness_SupplyEvents :
    (∃ (s : State) (a : Nat) (b : Nat), s.sup.rails = false ∧ (360 ≤ a ∨ 360 ≤ b)) ∧
    (∃ (s : State) (a : Nat) (b : Nat) (pwrdis : Bool) (mated : Bool), s.sup.rails = false ∧ ((a < 360 ∧ b < 360) ∨ pwrdis = true ∨ mated = false)) ∧
    (∃ (s : State), s.sup.rails = true ∧ harvests s = false ∧ s.md.mode ≠ .harvest) ∧
    (∃ (s : State) (a : Nat) (b : Nat), s.sup.rails = true ∧ a ≤ 1000 ∧ b ≤ 1000) ∧
    (∃ (s : State) (a : Nat) (b : Nat), s.sup.rails = true ∧ (1000 < a ∨ 1000 < b)) :=
  ⟨⟨supplyEvents0, 360, 0, by decide +kernel⟩,
    ⟨supplyEvents0, 360, 0, true, true, by decide +kernel⟩,
    ⟨State.reset, by decide +kernel⟩,
    ⟨State.reset, 1000, 0, by decide +kernel⟩,
    ⟨State.reset, 1001, 0, by decide +kernel⟩⟩

theorem witness_LinkEvents :
    ∃ (s : State) (rate : Nat) (width : Nat) (row : Nat), linkRow rate width = some row ∧ s.sup.rails = true ∧ s.port.perst = false ∧ s.boot.verdict ≠ some 3 :=
  ⟨linkEvents4, 4, 8, 0, by decide +kernel⟩

theorem witness_ControllerResets :
    (∃ (f : Nat), f ≠ 0) ∧
    (∃ (s : State) (f : Nat), (ctrl s f).en = true) ∧
    (∃ (f : Nat), f < 128) :=
  ⟨⟨127, by decide +kernel⟩,
    ⟨adm .solo, 0, by decide +kernel⟩,
    ⟨127, by decide +kernel⟩⟩

theorem witness_EnableChecksCc :
    (∃ (s : State) (f : Nat) (cc : BitVec 32), (ctrl s f).en = false ∧ (ctrl s f).online = true ∧ f < 128 ∧ s.port.rate ≠ 0 ∧ (fld cc 4 3 ≠ 6 ∨ 4 < fld cc 7 4 ∨ fld cc 11 3 ≠ 0 ∨ fld cc 16 4 ≠ 6 ∨ fld cc 20 4 ≠ 4)) ∧
    (∃ (s : State) (f : Nat) (cc : BitVec 32), (ctrl s f).en = false ∧ (ctrl s f).cfs = false ∧ (ctrl s f).online = true ∧ f < 128 ∧ s.port.rate ≠ 0 ∧ fld cc 4 3 = 6 ∧ fld cc 7 4 ≤ 4 ∧ fld cc 11 3 = 0 ∧ fld cc 16 4 = 6 ∧ fld cc 20 4 = 4) ∧
    (∃ (s : State) (f : Nat), (ctrl s f).en = true) :=
  ⟨⟨enableChecksCc1, 0, 0x004602E0, by decide +kernel⟩,
    ⟨enableChecksCc0, 0, 0x00460260, by decide +kernel⟩,
    ⟨adm .solo, 1, by decide +kernel⟩⟩

theorem witness_RegistersAndShutdown :
    (∃ (s : State) (f : Nat), f < 128 ∧ (ctrl s f).en = true ∧ (ctrl s f).shst = 0) ∧
    (∃ (s : State) (f : Nat), f < 128 ∧ (ctrl s f).en = true) ∧
    (∃ (s : State) (f : Nat), (ctrl s f).shst = 1) ∧
    (∃ (s : State) (f : Nat) (cc : BitVec 32), (ctrl s f).en = false ∧ (ctrl s f).cfs = false ∧ (ctrl s f).online = true ∧ f < 128 ∧ s.port.rate ≠ 0 ∧ fld cc 4 3 = 6 ∧ fld cc 7 4 ≤ 4 ∧ fld cc 11 3 = 0 ∧ fld cc 16 4 = 6 ∧ fld cc 20 4 = 4) ∧
    (∃ (f : Nat), f ≠ 0) ∧
    (∃ (f : Nat), f < 128) ∧
    (∃ (f : Nat), f < 128) ∧
    (∃ (f : Nat), f < 128) ∧
    (∃ (f : Nat), f < 128) ∧
    (∃ (f : Nat) (bar : Nat) (offset : Nat) (size : Nat), f < 128 ∧ bar ≠ 7 ∧ size ≠ 0 ∧ offset % size ≠ 0) :=
  ⟨⟨adm .solo, 0, by decide +kernel⟩,
    ⟨adm .solo, 0, by decide +kernel⟩,
    ⟨registersAndShutdown2, 0, by decide +kernel⟩,
    ⟨registersAndShutdown3, 0, 0x00460061, by decide +kernel⟩,
    ⟨1, by decide +kernel⟩,
    ⟨127, by decide +kernel⟩,
    ⟨127, by decide +kernel⟩,
    ⟨127, by decide +kernel⟩,
    ⟨127, by decide +kernel⟩,
    ⟨127, 4, 2, 4, by decide +kernel⟩⟩

theorem witness_Doorbells :
    (∃ (s : State) (f : Nat) (qid : Nat) (v : Nat) (q : Sq), (ctrl s f).rdy = true ∧ s.md.mode ≠ .holiday ∧ s.md.adminWake = false ∧ KV.find s.port.sqs (qkey f qid) = some q ∧ v < q.size ∧ (v + q.size - q.tail) % q.size ≠ 0 ∧ q.stamps.length + (v + q.size - q.tail) % q.size < q.size) ∧
    (∃ (s : State) (f : Nat) (qid : Nat) (v : Nat) (q : Cq), (ctrl s f).rdy = true ∧ s.md.mode ≠ .holiday ∧ KV.find s.port.cqs (qkey f qid) = some q ∧ v < q.size ∧ (v + q.size - q.head) % q.size ≤ (q.tail + q.size - q.head) % q.size) ∧
    (∃ (s : State) (f : Nat) (qid : Nat) (v : Nat) (q : Sq), (ctrl s f).rdy = true ∧ s.md.mode ≠ .holiday ∧ s.md.adminWake = false ∧ KV.find s.port.sqs (qkey f qid) = some q ∧ q.size ≤ v) ∧
    (∃ (s : State) (f : Nat) (qid : Nat) (q : Sq), (ctrl s f).rdy = true ∧ s.md.mode = .holiday ∧ KV.find s.port.sqs (qkey f qid) = some q) ∧
    (∃ (s : State) (f : Nat) (qid : Nat) (q : Cq), (ctrl s f).rdy = true ∧ s.md.mode = .holiday ∧ KV.find s.port.cqs (qkey f qid) = some q) :=
  ⟨⟨adm .solo, 0, 1, 63, doorbells0q, by decide +kernel⟩,
    ⟨adm .solo, 0, 1, 0, doorbells1q, by decide +kernel⟩,
    ⟨adm .solo, 0, 1, 64, doorbells2q, by decide +kernel⟩,
    ⟨adm .holiday, 0, 1, doorbells3q, by decide +kernel⟩,
    ⟨adm .holiday, 0, 1, doorbells4q, by decide +kernel⟩⟩

theorem witness_HarvestsAndSeals :
    (∃ (s : State) (feeds : List (Nat × Nat)) (pwrdis : List Bool) (mateMv : List Nat) (samples : List SupplySample), s.sup.rails = true ∧ harvests s = true ∧ samples = supplySamples feeds pwrdis mateMv ∧ triggerCause samples ≠ 0) ∧
    (∃ (s : State) (a : Nat) (b : Nat), s.md.mode = .harvest ∧ (360 ≤ a ∨ 360 ≤ b)) ∧
    (∃ (s : State) (a : Nat) (b : Nat) (pwrdis : Bool) (mated : Bool), s.md.mode = .harvest ∧ ¬((360 ≤ a ∨ 360 ≤ b) ∧ pwrdis = false ∧ mated = true)) ∧
    (∃ (s : State), s.md.mode = .harvest) ∧
    (∃ (s : State), (s.md.mode = .service ∨ s.md.mode = .solo ∨ s.md.mode = .pairing ∨ s.md.mode = .quarantine) ∧ (s.port.ctrls.filter (fun c => c.2.en)) ≠ [] ∧ (∀ c ∈ s.port.ctrls, c.2.en = true → c.2.shst = 2)) :=
  ⟨⟨adm .solo, harvestsAndSeals0feeds, (List.replicate 104 false), (List.replicate 104 580), harvestsAndSeals0samples, by decide +kernel⟩,
    ⟨adm .harvest, 360, 0, by decide +kernel⟩,
    ⟨adm .harvest, 359, 0, false, true, by decide +kernel⟩,
    ⟨adm .harvest, by decide +kernel⟩,
    ⟨harvestsAndSeals4, by decide +kernel⟩⟩

theorem witness_HoldUpBank :
    (∃ (s : State), 1440 ≤ s.sup.lastTest ∧ s.sup.test = .idle ∧ s.sup.rails = true ∧ testAllowed s = true) ∧
    (∃ (s : State), 1440 ≤ s.sup.lastTest ∧ s.sup.test = .idle ∧ s.sup.rails = true ∧ testAllowed s = false) ∧
    (∃ (s : State), s.sup.test = .falling) ∧
    (∃ (s : State), s.sup.test = .discharging ∧ s.sup.vStopDv < 700) ∧
    (∃ (s : State), s.sup.rails = true ∧ s.sup.charger = true ∧ s.md.mode ≠ .harvest ∧ s.sup.test = .recharging) ∧
    (∃ (s : State), s.sup.rails = true ∧ s.sup.charger = true ∧ s.md.mode ≠ .harvest ∧ s.sup.first70 = false ∧ s.sup.measured = false ∧ s.sup.test = .idle) ∧
    (∃ (s : State) (mv : Nat), s.sup.rails = true ∧ s.md.mode ≠ .harvest ∧ s.sup.test = .idle ∧ s.sup.first70 = true ∧ s.sup.measured = true ∧ mv < 66000) ∧
    (∃ (s : State) (mv : Nat), s.sup.rails = true ∧ s.md.mode ≠ .harvest ∧ s.sup.test = .idle ∧ s.sup.first70 = true ∧ s.sup.measured = true ∧ s.sup.belowSixtySix = true ∧ 69500 ≤ mv) :=
  ⟨⟨holdUpBank0, by decide +kernel⟩,
    ⟨holdUpBank1, by decide +kernel⟩,
    ⟨holdUpBank2, by decide +kernel⟩,
    ⟨holdUpBank3, by decide +kernel⟩,
    ⟨holdUpBank4, by decide +kernel⟩,
    ⟨holdUpBank5, by decide +kernel⟩,
    ⟨adm .solo, 65999, by decide +kernel⟩,
    ⟨holdUpBank7, 69500, by decide +kernel⟩⟩

theorem witness_HolidayEntryAndExit :
    (∃ (s : State), (s.md.ps4.isSome = true ∨ s.md.entering = true) ∧ s.md.mode.operates = true ∧ entryReady s = true ∧ mustDepart s = false) ∧
    (∃ (s : State), s.md.adminWake = true ∧ s.md.mode.operates = true ∧ s.md.lastAdminAt + 10000000 ≤ s.time.dtb ∧ entryReady s = true ∧ holidayPermitted s = true ∧ mustDepart s = false) ∧
    (∃ (s : State) (held : Nat), s.md.mode = .holiday ∧ s.sup.rails = true ∧ 500 ≤ held ∧ held ≤ 2000) ∧
    (∃ (s : State), s.md.mode ≠ .holiday) ∧
    (∃ (s : State), s.md.mode = .holiday ∧ s.md.waking = true) ∧
    (∃ (s : State), s.sup.rails = true ∧ (s.md.mode ≠ .holiday ∨ s.md.waking = true)) :=
  ⟨⟨holidayEntryAndExit0, by decide +kernel⟩,
    ⟨holidayEntryAndExit1, by decide +kernel⟩,
    ⟨adm .holiday, 2000, by decide +kernel⟩,
    ⟨adm .solo, by decide +kernel⟩,
    ⟨holidayEntryAndExit4, by decide +kernel⟩,
    ⟨adm .solo, by decide +kernel⟩⟩

theorem witness_PowerManagement :
    (∃ (s : State) (s1 : State) (e : Sqe) (st : Nat), Admitted s e false .ps03 st s1 ∧ fld e.cdw11 0 5 ≤ 3 ∧ fld e.cdw11 8 24 = 0 ∧ sqeSave e = false) ∧
    (∃ (s : State) (s1 : State) (e : Sqe) (st : Nat), Admitted s e false .ps4 st s1 ∧ fld e.cdw11 0 5 = 4 ∧ fld e.cdw11 8 24 = 0 ∧ sqeSave e = false ∧ s1.pw.sel ≠ 4 ∧ (holidayPermitted s1 = false ∨ s1.md.ps4.isSome = true ∨ s1.boot.activating.isSome = true)) ∧
    (∃ (s : State) (s1 : State) (e : Sqe) (st : Nat), Admitted s e false .ps4 st s1 ∧ fld e.cdw11 0 5 = 4 ∧ fld e.cdw11 8 24 = 0 ∧ sqeSave e = false ∧ s1.pw.sel ≠ 4 ∧ s1.md.mode.operates = true ∧ holidayPermitted s1 = true ∧ s1.md.ps4 = none ∧ s1.boot.activating = none ∧ mustDepart s1 = false) :=
  ⟨⟨adm .solo, powerManagement0s1, powerManagement0e, powerManagement0st, admitted_of (by decide +kernel), by decide +kernel⟩,
    ⟨adm .solo, powerManagement1s1, powerManagement1e, powerManagement1st, admitted_of (by decide +kernel), by decide +kernel⟩,
    ⟨powerManagement2, powerManagement2s1, powerManagement2e, powerManagement2st, admitted_of (by decide +kernel), by decide +kernel⟩⟩

theorem witness_CompletionPostsOneEntry :
    (∃ (s : State) (e : Sqe) (sq : Sq) (cq : Cq), s.md.mode ≠ .measure ∧ s.md.mode ≠ .harvest ∧ (ctrl s e.func).rdy = true ∧ KV.find s.port.sqs (qkey e.func 0) = some sq ∧ KV.find s.port.cqs (qkey e.func sq.cqid) = some cq) ∧
    (∃ (s : State) (e : Sqe), (s.md.mode = .measure ∨ s.md.mode = .harvest ∨ (ctrl s e.func).rdy = false)) :=
  ⟨⟨adm .solo, completionPostsOneEntry0e, completionPostsOneEntry0sq, completionPostsOneEntry0cq, by decide +kernel⟩,
    ⟨State.reset, completionPostsOneEntry1e, by decide +kernel⟩⟩

theorem witness_QueueManagement :
    (∃ (s : State) (s1 : State) (e : Sqe) (st : Nat), Admitted s e false .always st s1 ∧ fld e.cdw10 0 16 ≠ 0 ∧ fld e.cdw10 0 16 ≤ (ctrl s1 e.func).ioq ∧ KV.find s1.port.cqs (qkey e.func (fld e.cdw10 0 16)) = none ∧ 1 ≤ fld e.cdw10 16 16 ∧ fld e.cdw10 16 16 < 4096 ∧ e.cdw11.getLsbD 0 = true ∧ fld e.cdw11 16 16 < (ctrl s1 e.func).vec) ∧
    (∃ (s : State) (s1 : State) (e : Sqe) (st : Nat) (cq : Cq), Admitted s e false .always st s1 ∧ fld e.cdw10 0 16 ≠ 0 ∧ fld e.cdw10 0 16 ≤ (ctrl s1 e.func).ioq ∧ KV.find s1.port.sqs (qkey e.func (fld e.cdw10 0 16)) = none ∧ 1 ≤ fld e.cdw10 16 16 ∧ fld e.cdw10 16 16 < 4096 ∧ e.cdw11.getLsbD 0 = true ∧ fld e.cdw11 16 16 ≠ 0 ∧ KV.find s1.port.cqs (qkey e.func (fld e.cdw11 16 16)) = some cq) ∧
    (∃ (s : State) (s1 : State) (e : Sqe) (st : Nat) (cq : Cq), Admitted s e false .always st s1 ∧ fld e.cdw10 0 16 ≠ 0 ∧ KV.find s1.port.cqs (qkey e.func (fld e.cdw10 0 16)) = some cq ∧ (∀ p ∈ s1.port.sqs, p.1 / 65536 = e.func → p.1 % 65536 ≠ 0 → p.2.cqid ≠ fld e.cdw10 0 16)) ∧
    (∃ (s : State) (s1 : State) (e : Sqe) (st : Nat) (q : Sq), Admitted s e false .always st s1 ∧ fld e.cdw10 0 16 ≠ 0 ∧ KV.find s1.port.sqs (qkey e.func (fld e.cdw10 0 16)) = some q ∧ (∀ p ∈ s1.port.cmds, p.2.func ≠ e.func ∨ p.2.sqid ≠ fld e.cdw10 0 16)) :=
  ⟨⟨adm .solo, queueManagement0s1, queueManagement0e, queueManagement0st, admitted_of (by decide +kernel), by decide +kernel⟩,
    ⟨adm .solo, queueManagement1s1, queueManagement1e, queueManagement1st, queueManagement1cq, admitted_of (by decide +kernel), by decide +kernel⟩,
    ⟨queueManagement2, queueManagement2s1, queueManagement2e, queueManagement2st, queueManagement2cq, admitted_of (by decide +kernel), by decide +kernel⟩,
    ⟨adm .solo, queueManagement3s1, queueManagement3e, queueManagement3st, queueManagement3q, admitted_of (by decide +kernel), by decide +kernel⟩⟩

theorem witness_VirtualizationManagement :
    (∃ (s : State) (s1 : State) (e : Sqe) (st : Nat), Admitted s e true .virt st s1 ∧ fld e.cdw10 8 3 ≤ 1 ∧ fld e.cdw10 16 16 = cntlid s1 0 ∧ fld e.cdw11 0 16 + flexUsed s1 0 (fld e.cdw10 8 3 == 0) ≤ (if fld e.cdw10 8 3 = 0 then 8128 else 1983)) ∧
    (∃ (s : State) (s1 : State) (e : Sqe) (st : Nat) (f : Nat), Admitted s e true .virt st s1 ∧ secondary s1 e = some f) ∧
    (∃ (s : State) (s1 : State) (e : Sqe) (st : Nat) (f : Nat), Admitted s e true .virt st s1 ∧ secondary s1 e = some f ∧ fld e.cdw10 8 3 ≤ 1 ∧ (ctrl s1 f).online = false ∧ fld e.cdw11 0 16 ≤ (if fld e.cdw10 8 3 = 0 then 1024 else 129) ∧ fld e.cdw11 0 16 + flexUsed s1 f (fld e.cdw10 8 3 == 0) ≤ (if fld e.cdw10 8 3 = 0 then 8128 else 1983)) ∧
    (∃ (s : State) (s1 : State) (e : Sqe) (st : Nat) (f : Nat), Admitted s e true .virt st s1 ∧ secondary s1 e = some f ∧ (ctrl s1 f).ioq ≠ 0 ∧ (ctrl s1 f).vec ≠ 0) :=
  ⟨⟨adm .solo, virtualizationManagement0s1, virtualizationManagement0e, virtualizationManagement0st, admitted_of (by decide +kernel), by decide +kernel⟩,
    ⟨virtualizationManagement1, virtualizationManagement1s1, virtualizationManagement1e, virtualizationManagement1st, virtualizationManagement1f, admitted_of (by decide +kernel), by decide +kernel⟩,
    ⟨virtualizationManagement2, virtualizationManagement2s1, virtualizationManagement2e, virtualizationManagement2st, virtualizationManagement2f, admitted_of (by decide +kernel), by decide +kernel⟩,
    ⟨virtualizationManagement3, virtualizationManagement3s1, virtualizationManagement3e, virtualizationManagement3st, virtualizationManagement3f, admitted_of (by decide +kernel), by decide +kernel⟩⟩

theorem witness_EventsAbortsAndKeepAlive :
    (∃ (s : State) (s1 : State) (e : Sqe) (st : Nat), Admitted s e false .always st s1 ∧ (ctrl s1 e.func).aers.length < 16 ∧ (ctrl s1 e.func).waiting = []) ∧
    (∃ (s : State) (s1 : State) (e : Sqe) (st : Nat) (a : Aen) (rest : List Aen), Admitted s e false .always st s1 ∧ (ctrl s1 e.func).aers.length < 16 ∧ (ctrl s1 e.func).waiting = a :: rest) ∧
    (∃ (s : State) (s1 : State) (e : Sqe) (st : Nat), Admitted s e false .always st s1 ∧ 16 ≤ (ctrl s1 e.func).aers.length) ∧
    (∃ (s : State) (s1 : State) (e : Sqe) (st : Nat) (slot : Nat) (c : Cmd), Admitted s e false .always st s1 ∧ s1.port.cmds.find? (fun p => p.2.func == e.func && p.2.sqid == fld e.cdw10 0 16 && p.2.cid == fld e.cdw10 16 16 && !p.2.fromTwin && !p.2.quiet) = some (slot, c) ∧ c.fwd = false ∧ abortable s1 slot c = true) ∧
    (∃ (s : State) (s1 : State) (e : Sqe) (st : Nat), Admitted s e false .always st s1 ∧ (∀ p ∈ s1.port.cmds, p.2.func ≠ e.func ∨ p.2.cid ≠ fld e.cdw10 16 16) ∧ (ctrl s1 e.func).aers.contains (fld e.cdw10 16 16) = false) ∧
    (∃ (s : State) (s1 : State) (e : Sqe) (st : Nat), Admitted s e false .always st s1) ∧
    (∃ (s : State) (f : Nat), (ctrl s f).en = true) :=
  ⟨⟨eventsAbortsAndKeepAlive0, eventsAbortsAndKeepAlive0s1, eventsAbortsAndKeepAlive0e, eventsAbortsAndKeepAlive0st, admitted_of (by decide +kernel), by decide +kernel⟩,
    ⟨eventsAbortsAndKeepAlive1, eventsAbortsAndKeepAlive1s1, eventsAbortsAndKeepAlive1e, eventsAbortsAndKeepAlive1st, ⟨2, 3, 0x0C⟩, [], admitted_of (by decide +kernel), by decide +kernel⟩,
    ⟨eventsAbortsAndKeepAlive2, eventsAbortsAndKeepAlive2s1, eventsAbortsAndKeepAlive2e, eventsAbortsAndKeepAlive2st, admitted_of (by decide +kernel), by decide +kernel⟩,
    ⟨eventsAbortsAndKeepAlive3, eventsAbortsAndKeepAlive3s1, eventsAbortsAndKeepAlive3e, eventsAbortsAndKeepAlive3st, 0, { someCmd with stage := .waiting }, admitted_of (by decide +kernel), by decide +kernel⟩,
    ⟨adm .solo, eventsAbortsAndKeepAlive4s1, eventsAbortsAndKeepAlive4e, eventsAbortsAndKeepAlive4st, admitted_of (by decide +kernel), by decide +kernel⟩,
    ⟨adm .solo, eventsAbortsAndKeepAlive5s1, eventsAbortsAndKeepAlive5e, eventsAbortsAndKeepAlive5st, admitted_of (by decide +kernel)⟩,
    ⟨adm .solo, 1, by decide +kernel⟩⟩

theorem witness_StandardFeatures :
    (∃ (s : State) (s1 : State) (e : Sqe) (st : Nat), Admitted s e false .features st s1 ∧ sqeSave e = false ∧ fld e.cdw11 0 16 ≠ 0xFFFF ∧ fld e.cdw11 16 16 ≠ 0xFFFF) ∧
    (∃ (s : State) (s1 : State) (e : Sqe) (st : Nat), Admitted s e false .features st s1 ∧ sqeSave e = false) ∧
    (∃ (s : State) (s1 : State) (e : Sqe) (st : Nat), Admitted s e false .features st s1 ∧ sqeSave e = false ∧ fld e.cdw11 0 16 < (ctrl s1 e.func).vec) ∧
    (∃ (s : State) (s1 : State) (e : Sqe) (st : Nat), Admitted s e false .features st s1 ∧ sqeSave e = false) ∧
    (∃ (s : State) (s1 : State) (e : Sqe) (st : Nat), Admitted s e false .features st s1 ∧ sqeSave e = true) ∧
    (∃ (s : State) (s1 : State) (e : Sqe) (st : Nat), Admitted s e false .features st s1 ∧ sqeSave e = false ∧ fld e.cdw11 16 4 = 0 ∧ fld e.cdw11 20 2 ≤ 1) ∧
    (∃ (s : State) (s1 : State) (e : Sqe) (st : Nat), Admitted s e false .features st s1 ∧ e.func = 0 ∧ 6 ≤ e.data.length ∧ sqeSave e = false) :=
  ⟨⟨adm .solo, standardFeatures0s1, standardFeatures0e, standardFeatures0st, admitted_of (by decide +kernel), by decide +kernel⟩,
    ⟨adm .solo, standardFeatures1s1, standardFeatures1e, standardFeatures1st, admitted_of (by decide +kernel), by decide +kernel⟩,
    ⟨adm .solo, standardFeatures2s1, standardFeatures2e, standardFeatures2st, admitted_of (by decide +kernel), by decide +kernel⟩,
    ⟨adm .solo, standardFeatures3s1, standardFeatures3e, standardFeatures3st, admitted_of (by decide +kernel), by decide +kernel⟩,
    ⟨adm .solo, standardFeatures4s1, standardFeatures4e, standardFeatures4st, admitted_of (by decide +kernel), by decide +kernel⟩,
    ⟨adm .solo, standardFeatures5s1, standardFeatures5e, standardFeatures5st, admitted_of (by decide +kernel), by decide +kernel⟩,
    ⟨adm .solo, standardFeatures6s1, standardFeatures6e, standardFeatures6st, admitted_of (by decide +kernel), by decide +kernel⟩⟩

theorem witness_VendorFeatures :
    (∃ (s : State) (s1 : State) (e : Sqe) (st : Nat) (q : Sq), Admitted s e false .features st s1 ∧ sqeSave e = false ∧ fld e.cdw11 0 16 ≠ 0 ∧ KV.find s1.port.sqs (qkey e.func (fld e.cdw11 0 16)) = some q ∧ q.locked = false ∧ fld e.cdw11 16 3 = 3) ∧
    (∃ (s : State) (s1 : State) (e : Sqe) (st : Nat) (q : Sq), Admitted s e false .features st s1 ∧ sqeSave e = false ∧ fld e.cdw11 0 16 ≠ 0 ∧ KV.find s1.port.sqs (qkey e.func (fld e.cdw11 0 16)) = some q ∧ q.locked = true ∧ fld e.cdw11 16 3 ≤ 3) ∧
    (∃ (s : State) (s1 : State) (e : Sqe) (st : Nat), Admitted s e false .features st s1 ∧ e.func = 0 ∧ budgetBad s.part e.data = false ∧ fld e.cdw11 7 25 = 0 ∧ budgetBarred s1 (fld e.cdw11 0 7) (budgetOf s.part e.data) = false ∧ limitsKept s1 (fld e.cdw11 0 7) (budgetOf s.part e.data) = true) ∧
    (∃ (s : State) (s1 : State) (e : Sqe) (st : Nat), Admitted s e false .features st s1 ∧ e.func = 0) ∧
    (∃ (s : State) (s1 : State) (e : Sqe) (st : Nat), Admitted s e false .features st s1 ∧ e.func = 0 ∧ fld e.cdw11 0 4 ≤ 10 ∧ fld e.cdw11 4 4 ≤ 10) ∧
    (∃ (s : State) (s1 : State) (e : Sqe) (st : Nat), Admitted s e false .features st s1 ∧ e.func = 0) ∧
    (∃ (s : State) (s1 : State) (e : Sqe) (st : Nat), Admitted s e false .group st s1 ∧ e.func = 0 ∧ fld e.cdw11 0 6 < s1.part.groups ∧ (grpOf s1 (fld e.cdw11 0 6)).retired = false ∧ e.cdw11.getLsbD 7 = true ∧ KV.find s1.cal.dedicated (fld e.cdw11 0 6) = none ∧ (∀ f, f < 128 → f ≠ fld e.cdw11 8 7 → ((stored s1 f).on (fld e.cdw11 0 6)).e = 0 ∧ ((stored s1 f).on (fld e.cdw11 0 6)).s = 0 ∧ ((stored s1 f).on (fld e.cdw11 0 6)).b = 0)) :=
  ⟨⟨adm .solo, vendorFeatures0s1, vendorFeatures0e, vendorFeatures0st, vendorFeatures0q, admitted_of (by decide +kernel), by decide +kernel⟩,
    ⟨vendorFeatures1, vendorFeatures1s1, vendorFeatures1e, vendorFeatures1st, vendorFeatures1q, admitted_of (by decide +kernel), by decide +kernel⟩,
    ⟨adm .solo, vendorFeatures2s1, vendorFeatures2e, vendorFeatures2st, admitted_of (by decide +kernel), by decide +kernel⟩,
    ⟨adm .solo, vendorFeatures3s1, vendorFeatures3e, vendorFeatures3st, admitted_of (by decide +kernel), by decide +kernel⟩,
    ⟨adm .solo, vendorFeatures4s1, vendorFeatures4e, vendorFeatures4st, admitted_of (by decide +kernel), by decide +kernel⟩,
    ⟨adm .solo, vendorFeatures5s1, vendorFeatures5e, vendorFeatures5st, admitted_of (by decide +kernel), by decide +kernel⟩,
    ⟨adm .solo, vendorFeatures6s1, vendorFeatures6e, vendorFeatures6st, admitted_of (by decide +kernel), by decide +kernel⟩⟩

theorem witness_Reports :
    (∃ (s : State) (s1 : State) (e : Sqe) (st : Nat) (g : Nat → Nat), Admitted s e false .always st s1 ∧ identifyDoc s1 e = .ok g) ∧
    (∃ (s : State) (s1 : State) (e : Sqe) (st : Nat), Admitted s e false .always st s1 ∧ logError s1 e = none) ∧
    (∃ (s : State) (s1 : State) (e : Sqe) (st : Nat), Admitted s e false .always st s1 ∧ logError s1 { e with cdw10 := BitVec.ofNat 32 (e.cdw10.toNat / 256 * 256 + 7) } = none) ∧
    (∃ (s : State) (s1 : State) (e : Sqe) (st : Nat) (v : Nat) (d : List Nat), Admitted s e false .always st s1 ∧ featureValue s1 e = .ok (v, d)) ∧
    (∃ (s : State) (s1 : State) (e : Sqe) (st : Nat), Admitted s e false .calendar st s1 ∧ fld e.cdw10 0 4 = 0 ∧ beyondPart s1 e = false ∧ sglBad e 4096 = false) ∧
    (∃ (s : State) (s1 : State) (e : Sqe) (st : Nat), Admitted s e false .calendar st s1 ∧ fld e.cdw10 0 4 = 1 ∧ e.func = 0 ∧ beyondPart s1 e = false) ∧
    (∃ (s : State) (s1 : State) (e : Sqe) (st : Nat), Admitted s e true .holdUpReport st s1 ∧ e.cdw10 = 1 ∧ sglBad e 64 = false) ∧
    (∃ (s : State) (s1 : State) (e : Sqe) (st : Nat), Admitted s e true .holdUp st s1 ∧ e.cdw10 = 0 ∧ sglBad e 64 = false ∧ s1.sup.test = .idle) :=
  ⟨⟨adm .solo, after (adm .solo) reports0e.func 0, reports0e, stampOf (adm .solo) reports0e.func 0, reports0g, admitted_of (by decide +kernel), ok_of (by decide +kernel)⟩,
    ⟨adm .solo, after (adm .solo) reports1e.func 0, reports1e, stampOf (adm .solo) reports1e.func 0, admitted_of (by decide +kernel), by decide +kernel⟩,
    ⟨adm .solo, after (adm .solo) reports2e.func 0, reports2e, stampOf (adm .solo) reports2e.func 0, admitted_of (by decide +kernel), by decide +kernel⟩,
    ⟨adm .solo, after (adm .solo) reports3e.func 0, reports3e, stampOf (adm .solo) reports3e.func 0, reports3v, reports3d, admitted_of (by decide +kernel), ok_of (d := (0, [])) (by decide +kernel)⟩,
    ⟨adm .solo, after (adm .solo) reports4e.func 0, reports4e, stampOf (adm .solo) reports4e.func 0, admitted_of (by decide +kernel), by decide +kernel⟩,
    ⟨adm .solo, after (adm .solo) reports5e.func 0, reports5e, stampOf (adm .solo) reports5e.func 0, admitted_of (by decide +kernel), by decide +kernel⟩,
    ⟨adm .solo, after (adm .solo) reports6e.func 0, reports6e, stampOf (adm .solo) reports6e.func 0, admitted_of (by decide +kernel), by decide +kernel⟩,
    ⟨adm .solo, after (adm .solo) reports7e.func 0, reports7e, stampOf (adm .solo) reports7e.func 0, admitted_of (by decide +kernel), by decide +kernel⟩⟩

theorem witness_NamespaceManagement :
    (∃ (s : State) (s1 : State) (e : Sqe) (st : Nat) (nsid : Nat), Admitted s e true (if s.zn.defMirrored then .createMirrored else .namespaces) st s1 ∧ s1.md.mode ≠ .service ∧ createField e s1 = none ∧ nsFits s1 (nsDescribed s1 e) 1 = true ∧ ((nsDescribed s1 e).zoned = true → (newNumbers s1 (nsDescribed s1 e).mirrored (nsDescribed s1 e).zoneCount).length = (nsDescribed s1 e).zoneCount) ∧ newNsid s1 = some nsid) ∧
    (∃ (s : State) (s1 : State) (e : Sqe) (st : Nat) (n : Ns), Admitted s e true .namespaces st s1 ∧ s1.md.mode ≠ .service ∧ e.nsid ≠ 0xFFFFFFFF ∧ nsOf s1 e.nsid = some n) ∧
    (∃ (s : State) (s1 : State) (e : Sqe) (st : Nat), Admitted s e true .namespaces st s1 ∧ s1.md.mode ≠ .service ∧ attachField e true s1 = none) ∧
    (∃ (s : State) (s1 : State) (e : Sqe) (st : Nat), Admitted s e true .namespaces st s1 ∧ s1.md.mode ≠ .service ∧ attachField e false s1 = none) ∧
    (∃ (s : State) (s1 : State) (e : Sqe) (st : Nat), Admitted s e false .twinPolicy st s1 ∧ e.func = 0 ∧ e.nsid = 0xFFFFFFFF) :=
  ⟨⟨adm .solo, namespaceManagement0s1, namespaceManagement0e, namespaceManagement0st, 7, admitted_of (by decide +kernel), by decide +kernel⟩,
    ⟨adm .solo, namespaceManagement1s1, namespaceManagement1e, namespaceManagement1st, namespaceManagement1n, admitted_of (by decide +kernel), by decide +kernel⟩,
    ⟨namespaceManagement2, namespaceManagement2s1, namespaceManagement2e, namespaceManagement2st, admitted_of (by decide +kernel), by decide +kernel⟩,
    ⟨adm .solo, namespaceManagement3s1, namespaceManagement3e, namespaceManagement3st, admitted_of (by decide +kernel), by decide +kernel⟩,
    ⟨adm .service, namespaceManagement4s1, namespaceManagement4e, namespaceManagement4st, admitted_of (by decide +kernel), by decide +kernel⟩⟩

theorem witness_Erasures :
    (∃ (s : State) (s1 : State) (e : Sqe) (st : Nat) (n : Ns), Admitted s e false .namespaces st s1 ∧ formatField e s1 = none ∧ nsOf s1 e.nsid = some n ∧ s1.adm.sanitize.pending = false ∧ s1.adm.sanitize.running = false ∧ n.erasing = none ∧ n.here = true) ∧
    (∃ (s : State) (s1 : State) (e : Sqe) (st : Nat), Admitted s e true .sanitizeCrypto st s1 ∧ s1.adm.sanitize.pending = false ∧ s1.adm.sanitize.running = false ∧ s1.adm.formats = []) ∧
    (∃ (s : State) (s1 : State) (e : Sqe) (st : Nat), Admitted s e true .sanitizeBlock st s1 ∧ s1.adm.sanitize.pending = false ∧ s1.adm.sanitize.running = false ∧ s1.adm.formats = []) ∧
    (∃ (s : State) (s1 : State) (e : Sqe) (st : Nat), Admitted s e true .sanitizeCrypto st s1 ∧ (s1.adm.sanitize.pending = true ∨ s1.adm.sanitize.running = true)) ∧
    (∃ (s : State) (s1 : State) (e : Sqe) (st : Nat), Admitted s e true .always st s1) ∧
    (∃ (s : State) (s1 : State) (e : Sqe) (st : Nat), Admitted s e true .sanitizeCrypto st s1 ∧ s1.adm.sanitize.pending = false ∧ s1.adm.sanitize.running = false) ∧
    (∃ (s : State) (f : Fmt) (n : Ns), s.md.mode = .solo ∧ s.sup.rails = true ∧ s.adm.formats = [f] ∧ f.crypto = false ∧ f.tag = none ∧ nsOf s f.nsid = some n ∧ n.erasing = some false ∧ openOn s f.nsid = [] ∧ s.adm.sanitize.pending = false) :=
  ⟨⟨adm .solo, after (adm .solo) erasures0e.func 0, erasures0e, stampOf (adm .solo) erasures0e.func 0, erasures0n, admitted_of (by decide +kernel), by decide +kernel⟩,
    ⟨adm .solo, after (adm .solo) erasures1e.func 0, erasures1e, stampOf (adm .solo) erasures1e.func 0, admitted_of (by decide +kernel), by decide +kernel⟩,
    ⟨adm .solo, after (adm .solo) erasures2e.func 0, erasures2e, stampOf (adm .solo) erasures2e.func 0, admitted_of (by decide +kernel), by decide +kernel⟩,
    ⟨erasures3, after erasures3 erasures3e.func 0, erasures3e, stampOf erasures3 erasures3e.func 0, admitted_of (by decide +kernel), by decide +kernel⟩,
    ⟨adm .solo, after (adm .solo) erasures4e.func 0, erasures4e, stampOf (adm .solo) erasures4e.func 0, admitted_of (by decide +kernel)⟩,
    ⟨adm .solo, after (adm .solo) erasures5e.func 0, erasures5e, stampOf (adm .solo) erasures5e.func 0, admitted_of (by decide +kernel), by decide +kernel⟩,
    ⟨erasures6, fmt1, (nsOf erasures6 fmt1.nsid).getD ns0, by decide +kernel⟩⟩

theorem witness_FirmwareAndPolicy :
    (∃ (s : State) (s1 : State) (e : Sqe) (st : Nat), Admitted s e true .download st s1 ∧ (pieceOf e).1 = 0 ∧ (pieceOf e).2 % 4096 = 0 ∧ (pieceOf e).2 ≤ imageMax) ∧
    (∃ (s : State) (s1 : State) (e : Sqe) (img : Image) (st : Nat), Admitted s e true .commit st s1 ∧ fld e.cdw10 3 3 ≤ 2 ∧ fld e.cdw10 0 3 ≤ 2 ∧ commitSlot s1 e ≠ s1.boot.slotRun ∧ downloaded s1 = some img ∧ imageVerifies img s1.boot.minSvn = true) ∧
    (∃ (s : State) (s1 : State) (e : Sqe) (st : Nat), Admitted s e true .commit st s1 ∧ fld e.cdw10 3 3 ≤ 2 ∧ fld e.cdw10 0 3 ≤ 2 ∧ slotVerifies s1 (commitSlot s1 e) = true ∧ s1.boot.activating = none) ∧
    (∃ (s : State) (w : BootWrite) (rest : List BootWrite), s.boot.writing = w :: rest ∧ s.sup.rails = true ∧ w.ca = 0) ∧
    (∃ (s : State) (w : BootWrite) (rest : List BootWrite), s.boot.writing = w :: rest ∧ s.sup.rails = true ∧ w.ca ≤ 1) ∧
    (∃ (s : State) (func : Nat) (cid : Nat), s.boot.activating = some (func, cid) ∧ (∀ p ∈ s.port.cmds, p.2.cls = .unbound ∨ p.2.quiet = true) ∧ s.tw.paired = false ∧ s.th.shut = 0 ∧ s.md.ps4 = none ∧ s.md.entering = false) ∧
    (∃ (s : State) (s1 : State) (e : Sqe) (st : Nat), Admitted s e false .measurementPolicy st s1 ∧ e.func = 0 ∧ policyBad e.data = false) :=
  ⟨⟨adm .solo, firmwareAndPolicy0s1, firmwareAndPolicy0e, firmwareAndPolicy0st, admitted_of (by decide +kernel), by decide +kernel⟩,
    ⟨firmwareAndPolicy1, firmwareAndPolicy1s1, firmwareAndPolicy1e, {}, firmwareAndPolicy1st, admitted_of (by decide +kernel), by decide +kernel⟩,
    ⟨adm .solo, firmwareAndPolicy2s1, firmwareAndPolicy2e, firmwareAndPolicy2st, admitted_of (by decide +kernel), by decide +kernel⟩,
    ⟨firmwareAndPolicy3, { ca := 0, func := 0, cid := 9 }, [], by decide +kernel⟩,
    ⟨firmwareAndPolicy4, { ca := 1, func := 0, cid := 9 }, [], by decide +kernel⟩,
    ⟨firmwareAndPolicy5, 0, 9, by decide +kernel⟩,
    ⟨adm .solo, firmwareAndPolicy6s1, firmwareAndPolicy6e, firmwareAndPolicy6st, admitted_of (by decide +kernel), by decide +kernel⟩⟩

theorem witness_SecurityMethods :
    (∃ (s : State) (s1 : State) (e : Sqe) (st : Nat), Admitted s e false .security st s1 ∧ secProtocol e ≤ 1) ∧
    (∃ (s : State) (s1 : State) (e : Sqe) (st : Nat), Admitted s e false .security st s1 ∧ secProtocol e = 0) ∧
    (∃ (s : State) (s1 : State) (e : Sqe) (st : Nat) (r : List Nat), Admitted s e false .security st s1 ∧ secProtocol e = 1 ∧ secSpecific e ≠ 1 ∧ secSpecific e ≠ 2 ∧ KV.find s1.adm.tcgOut e.func = some r) ∧
    (∃ (s : State) (s1 : State) (e : Sqe) (st : Nat) (kek : Nat), Admitted s e false .security st s1 ∧ secProtocol e = 1 ∧ e.func ≠ 0 ∧ kek < 4) ∧
    (∃ (s : State) (s1 : State) (e : Sqe) (st : Nat) (tag : Nat) (kek : Nat) (n : Ns), Admitted s e false .security st s1 ∧ secProtocol e = 1 ∧ nsOf s1 e.nsid = some n ∧ reaches e.func n = true ∧ e.func < 128 ∧ tag < n.kpio ∧ kekOf s1 e.func kek ≠ 0 ∧ s1.md.mode ≠ .service ∧ n.held = true ∧ (KV.findD s1.keys.slots (nth n.slots tag) {}).retiring = 0) ∧
    (∃ (s : State) (s1 : State) (e : Sqe) (st : Nat) (kek : Nat) (n : Ns), Admitted s e false .security st s1 ∧ secProtocol e = 1 ∧ nsOf s1 e.nsid = some n ∧ kekOf s1 e.func kek = 0) ∧
    (∃ (s : State) (s1 : State) (e : Sqe) (st : Nat) (tags : Nat) (n : Ns), Admitted s e false .security st s1 ∧ secProtocol e = 1 ∧ nsOf s1 e.nsid = some n ∧ reaches e.func n = true ∧ n.kpio = 0 ∧ 1 ≤ tags ∧ tags ≤ 64 ∧ n.noData = true ∧ n.slots.length ≤ 1 ∧ n.held = true ∧ (freeDataSlots s1 tags).length = tags ∧ s1.md.mode ≠ .service) ∧
    (∃ (s : State) (s1 : State) (e : Sqe) (st : Nat) (n : Ns), Admitted s e false .security st s1 ∧ secProtocol e = 1 ∧ nsOf s1 e.nsid = some n ∧ reaches e.func n = true ∧ n.kpio ≠ 0 ∧ n.noData = true ∧ s1.md.mode ≠ .service) :=
  ⟨⟨admV .solo, securityMethods0s1, securityMethods0e, securityMethods0st, admitted_of (by decide +kernel), by decide +kernel⟩,
    ⟨adm .solo, securityMethods1s1, securityMethods1e, securityMethods1st, admitted_of (by decide +kernel), by decide +kernel⟩,
    ⟨securityMethods2, securityMethods2s1, securityMethods2b, securityMethods2st, [0], admitted_of (by decide +kernel), by decide +kernel⟩,
    ⟨admV .solo, securityMethods3s1, securityMethods3e, securityMethods3st, 3, admitted_of (by decide +kernel), by decide +kernel⟩,
    ⟨securityMethods4, securityMethods4s1, securityMethods4e, securityMethods4st, 1, 3, securityMethods4n, admitted_of (by decide +kernel), by decide +kernel⟩,
    ⟨admV .solo, securityMethods5s1, securityMethods5e, securityMethods5st, 0, securityMethods5n, admitted_of (by decide +kernel), by decide +kernel⟩,
    ⟨adm .solo, securityMethods6s1, securityMethods6e, securityMethods6st, 64, securityMethods6n, admitted_of (by decide +kernel), by decide +kernel⟩,
    ⟨securityMethods7, securityMethods7s1, securityMethods7e, securityMethods7st, securityMethods7n, admitted_of (by decide +kernel), by decide +kernel⟩⟩

theorem witness_PairControl :
    (∃ (s : State) (s1 : State) (e : Sqe) (st : Nat), Admitted s e true .pairControl st s1 ∧ fld e.cdw10 0 4 = 0 ∧ s1.md.mode ≠ .service) ∧
    (∃ (s : State) (s1 : State) (e : Sqe) (st : Nat), Admitted s e true .pairControl st s1 ∧ fld e.cdw10 0 4 = 0 ∧ s1.md.mode = .service) ∧
    (∃ (s : State) (s1 : State) (e : Sqe) (st : Nat), Admitted s e true .pairControl st s1 ∧ fld e.cdw10 0 4 = 1 ∧ s1.md.mode ≠ .service) ∧
    (∃ (s : State) (s1 : State) (e : Sqe) (st : Nat) (n : Ns), Admitted s e true .pairControl st s1 ∧ fld e.cdw10 0 4 = 3 ∧ s1.md.mode ≠ .service ∧ nsOf s1 e.nsid = some n ∧ n.mirrored = true) ∧
    (∃ (s : State) (s1 : State) (e : Sqe) (st : Nat) (n : Ns), Admitted s e true .pairControl st s1 ∧ fld e.cdw10 0 4 = 4 ∧ s1.md.mode ≠ .service ∧ e.nsid ≠ 0xFFFFFFFF ∧ nsOf s1 e.nsid = some n ∧ n.fenced = true) ∧
    (∃ (s : State) (s1 : State) (e : Sqe) (st : Nat) (n : Ns), Admitted s e true .pairControl st s1 ∧ fld e.cdw10 0 4 = 2 ∧ s1.md.mode = .service ∧ nsOf s1 e.nsid = some n ∧ n.mirrored = true ∧ (modeAt s1 st).resyncing = false ∧ s1.tw.transfer = none ∧ n.here = true) :=
  ⟨⟨adm .solo, after (adm .solo) pairControl0e.func 0, pairControl0e, pairControl0st, admitted_of (by decide +kernel), by decide +kernel⟩,
    ⟨adm .service, pairControl1s1, pairControl1e, pairControl1st, admitted_of (by decide +kernel), by decide +kernel⟩,
    ⟨adm .solo, after (adm .solo) pairControl2e.func 0, pairControl2e, pairControl2st, admitted_of (by decide +kernel), by decide +kernel⟩,
    ⟨adm .solo, after (adm .solo) pairControl3e.func 0, pairControl3e, pairControl3st, pairControl3n, admitted_of (by decide +kernel), by decide +kernel⟩,
    ⟨adm .solo, after (adm .solo) pairControl4e.func 0, pairControl4e, pairControl4st, pairControl4n, admitted_of (by decide +kernel), by decide +kernel⟩,
    ⟨adm .service, pairControl5s1, pairControl5e, pairControl5st, pairControl5n, admitted_of (by decide +kernel), by decide +kernel⟩⟩

theorem witness_ReshapeCommands :
    (∃ (s : State) (s1 : State) (e : Sqe) (st : Nat) (n : Ns) (nums : List Nat), Admitted s e true .reshapePolicy st s1 ∧ reshapeField s1 e 0 = none ∧ nsOf s1 e.nsid = some n ∧ reshapeRefusal s1 (modeAt s1 st) n false true = none ∧ e.cdw10.getLsbD 8 = true ∧ n.here = true ∧ mirroredNumbers s1 n = some nums) ∧
    (∃ (s : State) (s1 : State) (e : Sqe) (st : Nat) (n : Ns), Admitted s e true .reshapeMove st s1 ∧ reshapeField s1 e 1 = none ∧ nsOf s1 e.nsid = some n ∧ n.zoned = true ∧ moveFirst e < n.zoneCount ∧ moveLast e n < n.zoneCount ∧ moveMask e < 2 ^ s1.part.groups ∧ (modeAt s1 st).rebuilding = true) ∧
    (∃ (s : State) (s1 : State) (e : Sqe) (st : Nat) (n : Ns), Admitted s e true .reshapeMove st s1 ∧ reshapeField s1 e 1 = none ∧ nsOf s1 e.nsid = some n ∧ n.zoned = true ∧ moveFirst e < n.zoneCount ∧ moveLast e n < n.zoneCount ∧ moveMask e < 2 ^ s1.part.groups ∧ reshapeRefusal s1 (modeAt s1 st) n true false = none ∧ n.here = true) ∧
    (∃ (s : State) (s1 : State) (e : Sqe) (st : Nat) (n : Ns), Admitted s e true .reshapeCancel st s1 ∧ reshapeField s1 e 2 = none ∧ nsOf s1 e.nsid = some n ∧ n.reshape = none) ∧
    (∃ (s : State) (s1 : State) (e : Sqe) (st : Nat) (n : Ns) (r : Reshape), Admitted s e true .reshapeCancel st s1 ∧ reshapeField s1 e 2 = none ∧ nsOf s1 e.nsid = some n ∧ n.reshape = some r ∧ r.move = true ∧ r.cancelled = false ∧ r.remote = false ∧ r.toMirrored = false ∧ (∀ c ∈ s1.media.copies, c.kind ≠ .move ∨ c.nsid ≠ e.nsid)) :=
  ⟨⟨adm .service, reshapeCommands0s1, reshapeCommands0e, reshapeCommands0st, reshapeCommands0n, reshapeCommands0nums, admitted_of (by decide +kernel), by decide +kernel⟩,
    ⟨reshapeCommands1, reshapeCommands1s1, reshapeCommands1e, reshapeCommands1st, reshapeCommands1n, admitted_of (by decide +kernel), by decide +kernel⟩,
    ⟨adm .solo, reshapeCommands2s1, reshapeCommands2e, reshapeCommands2st, reshapeCommands2n, admitted_of (by decide +kernel), by decide +kernel⟩,
    ⟨adm .solo, reshapeCommands3s1, reshapeCommands3e, reshapeCommands3st, reshapeCommands3n, admitted_of (by decide +kernel), by decide +kernel⟩,
    ⟨reshapeCommands4, reshapeCommands4s1, reshapeCommands4e, reshapeCommands4st, reshapeCommands4n, reshapeCommands4r, admitted_of (by decide +kernel), by decide +kernel⟩⟩

theorem witness_ReadsAndReports :
    (∃ (s : State) (e : Io) (j : Judged), ioFront s e .read = .ok j ∧ j.cls = .unbound ∧ pathOf j.ns .read e.slba = .local_ ∧ readOffline e j.ns = false) ∧
    (∃ (s : State) (s' : State) (e : Io) (j : Judged), ioFront s e .read = .ok j ∧ placeRead j.st e.func j.cls (freeSlot j.st) (needsOf j.st e.nsid j.ns e.slba e.nlb) (e.nlb * lbaBytes j.ns.flbas) j.stamp e.tv = .ok s' ∧ j.cls ≠ .unbound ∧ pathOf j.ns .read e.slba = .local_ ∧ readOffline e j.ns = false ∧ noAllotment j.st e.func j.cls (needsOf j.st e.nsid j.ns e.slba e.nlb) = false ∧ earlyRefusal j.st j.cls j.stamp e.tv = none) ∧
    (∃ (s : State) (e : Io) (j : Judged), ioFront s e .read = .ok j ∧ j.cls = .unbound ∧ pathOf j.ns .read e.slba = .local_ ∧ readOffline e j.ns = true) ∧
    (∃ (s : State) (e : Io) (j : Judged), ioFront s e .read = .ok j ∧ j.cls = .unbound ∧ pathOf j.ns .read e.slba = .forwarded ∧ j.st.md.mode = .service) ∧
    (∃ (s : State) (e : Io) (j : Judged), ioFront s e .zmr = .ok j ∧ pathOf j.ns .zmr e.slba = .local_ ∧ j.cls = .unbound) ∧
    (∃ (s : State) (e : Io) (j : Judged), ioFront s e .flush = .ok j ∧ j.cls = .unbound ∧ pathOf j.ns .flush = .local_ ∧ openWrites j.st e.nsid ≠ []) ∧
    (∃ (s : State) (e : Io) (j : Judged), ioFront s e .flush = .ok j ∧ j.cls = .unbound ∧ pathOf j.ns .flush = .local_ ∧ openWrites j.st e.nsid = []) :=
  ⟨⟨ioq .solo .unbound, readsAndReports0e, readsAndReports0j, ok_of (by decide +kernel), by decide +kernel⟩,
    ⟨ioq .solo .express, readsAndReports1sp, readsAndReports1e, readsAndReports1j, ok_of (by decide +kernel), ok_of (by decide +kernel), by decide +kernel⟩,
    ⟨ioq .solo .unbound, readsAndReports2b, readsAndReports2j, ok_of (by decide +kernel), by decide +kernel⟩,
    ⟨readsAndReports2, readsAndReports2e, readsAndReports3j, ok_of (by decide +kernel), by decide +kernel⟩,
    ⟨ioq .solo .unbound, readsAndReports3e, readsAndReports4j, ok_of (by decide +kernel), by decide +kernel⟩,
    ⟨readsAndReports4, readsAndReports4e, readsAndReports5j, ok_of (by decide +kernel), by decide +kernel⟩,
    ⟨ioq .solo .unbound, readsAndReports5e, readsAndReports6j, ok_of (by decide +kernel), by decide +kernel⟩⟩

theorem witness_EndOfACommand :
    (∃ (s : State) (slot : Nat) (c : Cmd) (sq : Sq) (cq : Cq), KV.WF s.port.cmds ∧ KV.find s.port.cmds slot = some c ∧ c.quiet = false ∧ c.fromTwin = false ∧ s.md.mode ≠ .measure ∧ s.md.mode ≠ .harvest ∧ (ctrl s c.func).rdy = true ∧ KV.find s.port.sqs (qkey c.func c.sqid) = some sq ∧ KV.find s.port.cqs (qkey c.func sq.cqid) = some cq) ∧
    (∃ (s : State), KV.WF s.port.cmds) ∧
    (∃ (s : State) (slot : Nat) (c : Cmd), KV.find s.port.cmds slot = some c ∧ c.op.isWrite = false ∧ c.stage = .dieDone ∧ c.dies = [] ∧ c.needBytes = 0 ∧ (∀ f ∈ s.tw.fetches, f.2.1 ≠ slot)) ∧
    (∃ (s : State) (slot : Nat) (c : Cmd), KV.find s.port.cmds slot = some c ∧ (c.dies ≠ [] ∨ c.needBytes ≠ 0 ∨ c.stage ≠ .dieDone)) :=
  ⟨⟨endOfACommand0, 0, endOfACommand0c, endOfACommand0sq, endOfACommand0cq, by decide +kernel⟩,
    ⟨endOfACommand1, by decide +kernel⟩,
    ⟨endOfACommand3, 0, endOfACommand3c, by decide +kernel⟩,
    ⟨endOfACommand4, 0, endOfACommand4c, by decide +kernel⟩⟩

theorem witness_WritesFormRecords :
    (∃ (s : State) (s2 : State) (s3 : State) (e : Io) (j : Judged) (off : Nat), ioFront s e .write = .ok j ∧ writeFront j.st e j .write (freeSlot j.st) false = .ok s2 ∧ coreChecks s2 e j .write = .ok (off, s3) ∧ pathOf j.ns .write = .local_ ∧ mustWait s3 e j .write = false) ∧
    (∃ (s : State) (s2 : State) (s3 : State) (e : Io) (j : Judged) (off : Nat), ioFront s e .write = .ok j ∧ writeFront j.st e j .write (freeSlot j.st) false = .ok s2 ∧ coreChecks s2 e j .write = .ok (off, s3) ∧ pathOf j.ns .write = .local_ ∧ mustWait s3 e j .write = true) ∧
    (∃ (s : State) (s2 : State) (s3 : State) (e : Io) (j : Judged) (off : Nat), ioFront s e .append = .ok j ∧ writeFront j.st e j .append (freeSlot j.st) false = .ok s2 ∧ coreChecks s2 e j .append = .ok (off, s3) ∧ pathOf j.ns .append = .local_ ∧ j.ns.zoned = true ∧ mustWait s3 e j .append = false) ∧
    (∃ (s : State) (s2 : State) (s3 : State) (e : Io) (j : Judged) (off : Nat), ioFront s e .writeZeroes = .ok j ∧ writeFront j.st e j .writeZeroes (freeSlot j.st) false = .ok s2 ∧ coreChecks s2 e j .writeZeroes = .ok (off, s3) ∧ pathOf j.ns .writeZeroes = .local_ ∧ mustWait s3 e j .writeZeroes = false) ∧
    (∃ (s : State) (s2 : State) (e : Io) (j : Judged) (st : Status), ioFront s e .write = .ok j ∧ writeFront j.st e j .write (freeSlot j.st) false = .ok s2 ∧ coreChecks s2 e j .write = .error st ∧ pathOf j.ns .write = .local_) ∧
    (∃ (s : State) (s2 : State) (e : Io) (j : Judged), ioFront s e .write = .ok j ∧ writeFront j.st e j .write (freeSlot j.st) false = .ok s2 ∧ pathOf j.ns .write = .forwarded) ∧
    (∃ (s : State) (s2 : State) (e : Io) (j : Judged), ioFront s e .append = .ok j ∧ writeFront j.st e j .append (freeSlot j.st) false = .ok s2 ∧ pathOf j.ns .append = .forwarded) ∧
    (∃ (s : State) (s2 : State) (e : Io) (j : Judged), ioFront s e .writeZeroes = .ok j ∧ writeFront j.st e j .writeZeroes (freeSlot j.st) false = .ok s2 ∧ pathOf j.ns .writeZeroes = .forwarded) :=
  ⟨⟨ioq .solo .unbound, writesFormRecords0s2, writesFormRecords0s3, writesFormRecords0e, writesFormRecords0j, writesFormRecords0off, ok_of (by decide +kernel), ok_of (by decide +kernel), ok_of (d := (0, State.reset)) (by decide +kernel), by decide +kernel⟩,
    ⟨writesFormRecords1, writesFormRecords1s2, writesFormRecords1s3, writesFormRecords1e, writesFormRecords1j, writesFormRecords1off, ok_of (by decide +kernel), ok_of (by decide +kernel), ok_of (d := (0, State.reset)) (by decide +kernel), by decide +kernel⟩,
    ⟨ioq .solo .unbound, writesFormRecords2s2, writesFormRecords2s3, writesFormRecords2e, writesFormRecords2j, writesFormRecords2off, ok_of (by decide +kernel), ok_of (by decide +kernel), ok_of (d := (0, State.reset)) (by decide +kernel), by decide +kernel⟩,
    ⟨ioq .solo .unbound, writesFormRecords3s2, writesFormRecords3s3, writesFormRecords3e, writesFormRecords3j, writesFormRecords3off, ok_of (by decide +kernel), ok_of (by decide +kernel), ok_of (d := (0, State.reset)) (by decide +kernel), by decide +kernel⟩,
    ⟨ioq .solo .unbound, writesFormRecords4s2, writesFormRecords4e, writesFormRecords4j, writesFormRecords4st, ok_of (by decide +kernel), ok_of (by decide +kernel), err_of (by decide +kernel), by decide +kernel⟩,
    ⟨writesFormRecords5, writesFormRecords5s2, writesFormRecords5e, writesFormRecords5j, ok_of (by decide +kernel), ok_of (by decide +kernel), by decide +kernel⟩,
    ⟨writesFormRecords6, writesFormRecords6s2, writesFormRecords6e, writesFormRecords6j, ok_of (by decide +kernel), ok_of (by decide +kernel), by decide +kernel⟩,
    ⟨writesFormRecords7, writesFormRecords7s2, writesFormRecords7e, writesFormRecords7j, ok_of (by decide +kernel), ok_of (by decide +kernel), by decide +kernel⟩⟩

theorem witness_ZoneChecksAndChanges :
    (∃ (e : Io) (n : Ns) (st : Status), stateRefusal (n.zone (e.slba / zoneSize n.flbas)) true = some st) ∧
    (∃ (e : Io) (n : Ns) (op : IoOp), op ≠ .append ∧ stateRefusal (n.zone (e.slba / zoneSize n.flbas)) true = none ∧ e.slba % zoneSize n.flbas ≠ (n.zone (e.slba / zoneSize n.flbas)).taken) ∧
    (∃ (e : Io) (n : Ns), stateRefusal (n.zone (e.slba / zoneSize n.flbas)) true = none ∧ e.slba % zoneSize n.flbas ≠ 0) ∧
    (∃ (e : Io) (n : Ns) (op : IoOp) (z : Zone), n.zone (e.slba / zoneSize n.flbas) = z ∧ z.opened = true ∧ (op ≠ .append → e.slba % zoneSize n.flbas = z.taken) ∧ (op = .append → e.slba % zoneSize n.flbas = 0 ∧ e.nlb * lbaBytes n.flbas ≤ 1048576)) ∧
    (∃ (s : State) (nsid : Nat) (i : Nat) (n : Ns), nsOf s nsid = some n ∧ (n.zone i).opened = true) ∧
    (∃ (s : State) (nsid : Nat) (i : Nat) (n : Ns), nsOf s nsid = some n ∧ (n.zone i).st ≠ .full ∧ (n.zone i).st ≠ .readOnly ∧ (n.zone i).st ≠ .offline) ∧
    (∃ (s : State) (f : Nat) (nsid : Nat) (i : Nat) (n : Ns), nsOf s nsid = some n ∧ (n.zone i).st = .closed ∧ openFree s f = true) ∧
    (∃ (s : State) (f : Nat) (nsid : Nat) (i : Nat) (g : Nat) (n : Ns), place s f {} = .ok g ∧ nsOf s nsid = some n ∧ (n.zone i).st = .empty ∧ openFree s f = true ∧ activeFree s f = true) ∧
    (∃ (s : State) (f : Nat) (nsid : Nat) (i : Nat) (n : Ns), nsOf s nsid = some n ∧ (n.zone i).st = .closed ∧ openFree s f = false ∧ oldestImplicit s f = none) ∧
    (∃ (s : State) (nsid : Nat) (i : Nat) (n : Ns), KV.Canon {} s.zn.store ∧ nsOf s nsid = some n ∧ (n.zone i).st ≠ .empty ∧ (n.zone i).st ≠ .readOnly ∧ (n.zone i).st ≠ .offline ∧ (i + 1) * zoneSize n.flbas ≤ 2^64) :=
  ⟨⟨zoneChecksAndChanges0e, zoneChecksAndChanges0n, .zoneIsFull, by decide +kernel⟩,
    ⟨zoneChecksAndChanges1e, zoneChecksAndChanges1n, .write, by decide +kernel⟩,
    ⟨zoneChecksAndChanges2e, zoneChecksAndChanges2n, by decide +kernel⟩,
    ⟨zoneChecksAndChanges3e, zoneChecksAndChanges3n, .append, zoneChecksAndChanges3z, by decide +kernel⟩,
    ⟨adm .solo, 2, 0, (nsOf (adm .solo) 2).getD ns0, by decide +kernel⟩,
    ⟨adm .solo, 2, 4, (nsOf (adm .solo) 2).getD ns0, by decide +kernel⟩,
    ⟨adm .solo, 0, 2, 4, (nsOf (adm .solo) 2).getD ns0, by decide +kernel⟩,
    ⟨adm .solo, 0, 2, 5, okOf 0 (place (adm .solo) 0 {}), (nsOf (adm .solo) 2).getD ns0, ok_of (by decide +kernel), by decide +kernel⟩,
    ⟨zoneChecksAndChanges8, 0, 2, 2, zoneChecksAndChanges8n, by decide +kernel⟩,
    ⟨adm .solo, 2, 1, (nsOf (adm .solo) 2).getD ns0, by decide +kernel⟩⟩

theorem witness_ZoneChecksAndChanges_2 :
    (∃ (s : State) (nsid : Nat) (i : Nat) (n : Ns), nsOf s nsid = some n ∧ (n.zone i).st = .readOnly) ∧
    (∃ (s : State) (nsid : Nat) (i : Nat) (n : Ns), nsOf s nsid = some n ∧ (n.zone i).st = .offline) ∧
    (∃ (s : State) (nsid : Nat) (i : Nat) (a : Nat) (n : Ns), nsOf s nsid = some n ∧ (n.zone i).st = .readOnly ∧ 1 ≤ a ∧ a ≤ 4) ∧
    (∃ (s : State) (e : Io) (n : Ns) (i : Nat) (g : Nat) (x : Ext), place s e.func x = .ok g ∧ nsOf s e.nsid = some n ∧ extOf s.part e.ext = some x ∧ (n.zone i).st = .empty ∧ activeFree s e.func = true) :=
  ⟨⟨adm .solo, 2, 2, (nsOf (adm .solo) 2).getD ns0, by decide +kernel⟩,
    ⟨adm .solo, 2, 3, (nsOf (adm .solo) 2).getD ns0, by decide +kernel⟩,
    ⟨adm .solo, 2, 2, 4, (nsOf (adm .solo) 2).getD ns0, by decide +kernel⟩,
    ⟨adm .solo, zoneChecksAndChanges13e, zoneChecksAndChanges13n, 5, zoneChecksAndChanges13g, zoneChecksAndChanges13x, ok_of (by decide +kernel), by decide +kernel⟩⟩

theorem witness_DurableWritesAreRead :
    (∃ (s : State) (slot : Nat) (q : Nat) (pi : Nat) (c : Cmd), KV.find s.port.cmds slot = some c ∧ c.stage = .buffered ∧ c.needBytes = 0 ∧ c.needShare = 0 ∧ c.fwd = false ∧ c.seq = some q ∧ pi ≠ 0) ∧
    (∃ (s : State) (slot : Nat) (pi : Nat) (c : Cmd), KV.find s.port.cmds slot = some c ∧ c.stage = .buffered ∧ c.needBytes = 0 ∧ c.needShare = 0 ∧ c.fwd = true ∧ pi ≠ 0) ∧
    (∃ (s : State) (slot : Nat) (q : Nat) (c : Cmd) (r : VRec), KV.find s.port.cmds slot = some c ∧ c.stage = .buffered ∧ c.needBytes = 0 ∧ c.needShare = 0 ∧ c.fwd = false ∧ c.seq = some q ∧ KV.find s.jr.recs q = some r ∧ r.wt = false ∧ r.mirrored = false) ∧
    (∃ (s : State) (q : Nat) (slot : Nat) (r : VRec) (n : Ns), KV.Canon {} s.zn.store ∧ KV.find s.jr.recs q = some r ∧ r.durable = false ∧ r.dataIn = true ∧ r.wt = false ∧ r.copy = false ∧ r.completed = false ∧ r.stale = false ∧ r.zone = 0xFFFFFFFF ∧ 1 ≤ r.typ ∧ r.typ ≤ 2 ∧ r.acked = true ∧ r.slot = some slot ∧ nsOf s r.nsid = some n ∧ n.zoned = false ∧ r.slba + r.nlb ≤ 2^64) ∧
    (∃ (s : State) (q : Nat) (slot : Nat) (r : VRec) (n : Ns), KV.Canon {} s.zn.store ∧ KV.find s.jr.recs q = some r ∧ zonePending s r.nsid r.zidx = [(q, r)] ∧ r.durable = false ∧ r.dataIn = true ∧ r.wt = false ∧ r.copy = false ∧ r.stale = false ∧ 1 ≤ r.typ ∧ r.typ ≤ 3 ∧ r.acked = true ∧ r.slot = some slot ∧ nsOf s r.nsid = some n ∧ n.zoned = true ∧ r.slba = r.zidx * zoneSize n.flbas + (n.zone r.zidx).wp ∧ r.slba + r.nlb ≤ 2^64) ∧
    (∃ (s : State) (q : Nat) (r : VRec), KV.find s.jr.recs q = some r ∧ (r.durable = true ∨ r.dataIn = false)) :=
  ⟨⟨durableWritesAreRead0, 0, 5, 4, durableWritesAreRead0c, by decide +kernel⟩,
    ⟨durableWritesAreRead1b, 0, 4, durableWritesAreRead1c, by decide +kernel⟩,
    ⟨durableWritesAreRead1, 0, 5, durableWritesAreRead2c, durableWritesAreRead2r, by decide +kernel⟩,
    ⟨durableWritesAreRead2, 5, 0, durableWritesAreRead3r, durableWritesAreRead3n, by decide +kernel⟩,
    ⟨durableWritesAreRead3, 5, 0, durableWritesAreRead4r, durableWritesAreRead4n, by decide +kernel⟩,
    ⟨durableWritesAreRead4, 5, durableWritesAreRead5r, by decide +kernel⟩⟩

theorem witness_ZoneSends :
    (∃ (s : State) (s2 : State) (s3 : State) (e : Io) (j : Judged) (m : Ns), ioFront s { e with action := 1 } .zms = .ok j ∧ writeFront j.st e j .zms (freeSlot j.st) false = .ok s2 ∧ zoneAction (acceptedSend s2 { e with action := 1 } j) e.func e.nsid (e.slba / zoneSize j.ns.flbas) 1 = .ok s3 ∧ pathOf j.ns .zms = .local_ ∧ nsOf s3 e.nsid = some m ∧ sameZone s3 e.nsid (e.slba / zoneSize j.ns.flbas) (j.ns.zone (e.slba / zoneSize j.ns.flbas)) = false) ∧
    (∃ (s : State) (s2 : State) (s3 : State) (e : Io) (j : Judged) (m : Ns), ioFront s { e with action := 2 } .zms = .ok j ∧ writeFront j.st e j .zms (freeSlot j.st) false = .ok s2 ∧ zoneAction (acceptedSend s2 { e with action := 2 } j) e.func e.nsid (e.slba / zoneSize j.ns.flbas) 2 = .ok s3 ∧ pathOf j.ns .zms = .local_ ∧ nsOf s3 e.nsid = some m ∧ sameZone s3 e.nsid (e.slba / zoneSize j.ns.flbas) (j.ns.zone (e.slba / zoneSize j.ns.flbas)) = false) ∧
    (∃ (s : State) (s2 : State) (s3 : State) (e : Io) (j : Judged) (m : Ns), ioFront s { e with action := 3 } .zms = .ok j ∧ writeFront j.st e j .zms (freeSlot j.st) false = .ok s2 ∧ zoneAction (acceptedSend s2 { e with action := 3 } j) e.func e.nsid (e.slba / zoneSize j.ns.flbas) 3 = .ok s3 ∧ pathOf j.ns .zms = .local_ ∧ nsOf s3 e.nsid = some m ∧ sameZone s3 e.nsid (e.slba / zoneSize j.ns.flbas) (j.ns.zone (e.slba / zoneSize j.ns.flbas)) = false) ∧
    (∃ (s : State) (s2 : State) (s3 : State) (e : Io) (j : Judged) (m : Ns), ioFront s { e with action := 4 } .zms = .ok j ∧ writeFront j.st e j .zms (freeSlot j.st) false = .ok s2 ∧ zoneAction (acceptedSend s2 { e with action := 4 } j) e.func e.nsid (e.slba / zoneSize j.ns.flbas) 4 = .ok s3 ∧ pathOf j.ns .zms = .local_ ∧ nsOf s3 e.nsid = some m ∧ sameZone s3 e.nsid (e.slba / zoneSize j.ns.flbas) (j.ns.zone (e.slba / zoneSize j.ns.flbas)) = false) ∧
    (∃ (s : State) (s2 : State) (s3 : State) (e : Io) (j : Judged) (m : Ns), ioFront s { e with action := 5 } .zms = .ok j ∧ writeFront j.st e j .zms (freeSlot j.st) false = .ok s2 ∧ zoneAction (acceptedSend s2 { e with action := 5 } j) e.func e.nsid (e.slba / zoneSize j.ns.flbas) 5 = .ok s3 ∧ pathOf j.ns .zms = .local_ ∧ nsOf s3 e.nsid = some m ∧ sameZone s3 e.nsid (e.slba / zoneSize j.ns.flbas) (j.ns.zone (e.slba / zoneSize j.ns.flbas)) = false) ∧
    (∃ (s : State) (s2 : State) (s3 : State) (e : Io) (j : Judged) (m : Ns), ioFront s { e with action := 16 } .zms = .ok j ∧ writeFront j.st e j .zms (freeSlot j.st) false = .ok s2 ∧ setExtension e (acceptedSend s2 { e with action := 16 } j) j.ns (e.slba / zoneSize j.ns.flbas) = .ok s3 ∧ pathOf j.ns .zms = .local_ ∧ nsOf s3 e.nsid = some m ∧ sameZone s3 e.nsid (e.slba / zoneSize j.ns.flbas) (j.ns.zone (e.slba / zoneSize j.ns.flbas)) = false) ∧
    (∃ (s : State) (s2 : State) (e : Io) (j : Judged) (st : Status), ioFront s { e with action := 4 } .zms = .ok j ∧ writeFront j.st e j .zms (freeSlot j.st) false = .ok s2 ∧ zoneAction (acceptedSend s2 { e with action := 4 } j) e.func e.nsid (e.slba / zoneSize j.ns.flbas) 4 = .error st ∧ pathOf j.ns .zms = .local_) ∧
    (∃ (s : State) (s2 : State) (s3 : State) (e : Io) (j : Judged), ioFront s { e with action := 1 } .zms = .ok j ∧ writeFront j.st e j .zms (freeSlot j.st) false = .ok s2 ∧ zoneAction (acceptedSend s2 { e with action := 1 } j) e.func e.nsid (e.slba / zoneSize j.ns.flbas) 1 = .ok s3 ∧ pathOf j.ns .zms = .local_ ∧ sameZone s3 e.nsid (e.slba / zoneSize j.ns.flbas) (j.ns.zone (e.slba / zoneSize j.ns.flbas)) = true) ∧
    (∃ (e : Io) (n : Ns), n.attached.contains e.func = true ∧ e.slba % zoneSize n.flbas ≠ 0) :=
  ⟨⟨ioq .solo .unbound, zoneSends0s2, zoneSends0s3, zoneSends0e, zoneSends0j, zoneSends0m, ok_of (by decide +kernel), ok_of (by decide +kernel), ok_of (by decide +kernel), by decide +kernel⟩,
    ⟨ioq .solo .unbound, zoneSends1s2, zoneSends1s3, zoneSends1e, zoneSends1j, zoneSends1m, ok_of (by decide +kernel), ok_of (by decide +kernel), ok_of (by decide +kernel), by decide +kernel⟩,
    ⟨ioq .solo .unbound, zoneSends2s2, zoneSends2s3, zoneSends2e, zoneSends2j, zoneSends2m, ok_of (by decide +kernel), ok_of (by decide +kernel), ok_of (by decide +kernel), by decide +kernel⟩,
    ⟨ioq .solo .unbound, zoneSends3s2, zoneSends3s3, zoneSends3e, zoneSends3j, zoneSends3m, ok_of (by decide +kernel), ok_of (by decide +kernel), ok_of (by decide +kernel), by decide +kernel⟩,
    ⟨ioq .solo .unbound, zoneSends4s2, zoneSends4s3, zoneSends4e, zoneSends4j, zoneSends4m, ok_of (by decide +kernel), ok_of (by decide +kernel), ok_of (by decide +kernel), by decide +kernel⟩,
    ⟨ioq .solo .unbound, zoneSends5s2, zoneSends5s3, zoneSends5e, zoneSends5j, zoneSends5m, ok_of (by decide +kernel), ok_of (by decide +kernel), ok_of (by decide +kernel), by decide +kernel⟩,
    ⟨ioq .solo .unbound, zoneSends6s2, zoneSends6e, zoneSends6j, zoneSends6st, ok_of (by decide +kernel), ok_of (by decide +kernel), err_of (by decide +kernel), by decide +kernel⟩,
    ⟨ioq .solo .unbound, zoneSends7s2, zoneSends7s3, zoneSends7b, zoneSends7j, ok_of (by decide +kernel), ok_of (by decide +kernel), ok_of (by decide +kernel), by decide +kernel⟩,
    ⟨zoneSends8b, (nsOf (adm .solo) 2).getD ns0, by decide +kernel⟩⟩

theorem witness_SelectAllAccountsForEveryZone :
    (∃ (s : State) (s2 : State) (e : Io) (j : Judged), ioFront s e .zms true = .ok j ∧ writeFront j.st e j .zms (freeSlot j.st) true = .ok s2 ∧ pathOf j.ns .zms = .local_) ∧
    (∃ (e : Io) (n : Ns), n.attached.contains e.func = true ∧ (e.action = 0 ∨ 5 < e.action)) ∧
    (∃ (s : State) (u : State) (e : Io), ioFront s e .zms true = .error u) ∧
    (∃ (s : State) (s2 : State) (e : Io) (j : Judged), ioFront s e .zms true = .ok j ∧ writeFront j.st e j .zms (freeSlot j.st) true = .ok s2 ∧ pathOf j.ns .zms = .forwarded ∧ j.st.md.mode = .service) :=
  ⟨⟨ioq .solo .unbound, selectAllAccountsForEveryZone0s2, selectAllAccountsForEveryZone0e, selectAllAccountsForEveryZone0j, ok_of (by decide +kernel), ok_of (by decide +kernel), by decide +kernel⟩,
    ⟨selectAllAccountsForEveryZone1e, (nsOf (adm .solo) 2).getD ns0, by decide +kernel⟩,
    ⟨ioq .solo .unbound, selectAllAccountsForEveryZone2u, selectAllAccountsForEveryZone1e, errSt_of (by decide +kernel)⟩,
    ⟨selectAllAccountsForEveryZone2, selectAllAccountsForEveryZone3s2, selectAllAccountsForEveryZone2e, selectAllAccountsForEveryZone3j, ok_of (by decide +kernel), ok_of (by decide +kernel), by decide +kernel⟩⟩

theorem witness_GrantsDeadlinesAndCores :
    (∃ (s : State) (slot : Nat) (c : Cmd) (p : List Pool) (b : List Nat), KV.find s.port.cmds slot = some c ∧ c.needBytes ≠ 0 ∧ allocBufs s.it.pools c.needBytes = some (p, b) ∧ (c.cls = .unbound → quotaFits s c.func b = true) ∧ 4194304 ≤ freeBytes p) ∧
    (∃ (s : State) (slot : Nat) (c : Cmd), KV.find s.port.cmds slot = some c ∧ c.needBytes ≠ 0 ∧ allocBufs s.it.pools c.needBytes = none) ∧
    (∃ (s : State) (slot : Nat) (q : Nat) (c : Cmd) (r : VRec) (n : Ns), KV.find s.port.cmds slot = some c ∧ c.seq = some q ∧ KV.find s.jr.recs q = some r ∧ nsOf s c.nsid = some n ∧ s.md.writeThrough = false ∧ mirrors s n = false ∧ c.needShare ≠ 0 ∧ c.needShare ≤ shareOwn s c.func ∧ logFull n = false ∧ c.op = .write ∧ c.fromTwin = false) ∧
    (∃ (s : State) (slot : Nat) (q : Nat) (c : Cmd) (n : Ns), KV.find s.port.cmds slot = some c ∧ c.seq = some q ∧ nsOf s c.nsid = some n ∧ wtNow s n = false ∧ shareFree s c.func < c.needShare) ∧
    (∃ (s : State) (slot : Nat) (d : Nat) (c : Cmd), KV.find s.port.cmds slot = some c ∧ c.armed = true ∧ c.expired = false ∧ c.deadline = some d ∧ d ≤ s.time.dtb) ∧
    (∃ (s : State) (slot : Nat) (c : Cmd), KV.find s.port.cmds slot = some c ∧ (c.armed = false ∨ c.expired = true ∨ (∀ d, c.deadline = some d → s.time.dtb < d))) ∧
    (∃ (s : State) (slot : Nat) (d : Nat) (c : Cmd), KV.WF s.port.cmds ∧ KV.find s.port.cmds slot = some c ∧ c.rescue = some d ∧ d ≤ s.time.dtb ∧ (KV.findD s.it.cores c.core {}).hung = false ∧ (KV.findD s.it.cores c.core {}).inReset = false ∧ (KV.findD s.it.cores c.core {}).beat + 4000 < s.time.dtb ∧ otherCores s c.core ≠ []) ∧
    (∃ (s : State) (slot : Nat) (d : Nat) (c : Cmd), KV.find s.port.cmds slot = some c ∧ c.rescue = some d ∧ d ≤ s.time.dtb ∧ s.time.dtb ≤ (KV.findD s.it.cores c.core {}).beat + 4000) ∧
    (∃ (s : State) (slot : Nat) (d : Nat) (c : Cmd), KV.find s.port.cmds slot = some c ∧ c.rescue = some d ∧ s.time.dtb < d) ∧
    (∃ (core : Nat), core < 24) :=
  ⟨⟨grantsDeadlinesAndCores0, 0, grantsDeadlinesAndCores0c, alloc1.1, alloc1.2, by decide +kernel⟩,
    ⟨grantsDeadlinesAndCores1, 0, grantsDeadlinesAndCores1c, by decide +kernel⟩,
    ⟨grantsDeadlinesAndCores2, 0, 5, grantsDeadlinesAndCores2c, grantsDeadlinesAndCores2r, grantsDeadlinesAndCores2n, by decide +kernel⟩,
    ⟨grantsDeadlinesAndCores3, 0, 5, grantsDeadlinesAndCores3c, grantsDeadlinesAndCores3n, by decide +kernel⟩,
    ⟨grantsDeadlinesAndCores4, 0, 5000000, grantsDeadlinesAndCores4c, by decide +kernel⟩,
    ⟨grantsDeadlinesAndCores5, 0, grantsDeadlinesAndCores5c, by decide +kernel⟩,
    ⟨grantsDeadlinesAndCores6, 0, 1, grantsDeadlinesAndCores6c, by decide +kernel⟩,
    ⟨grantsDeadlinesAndCores7, 0, 1, grantsDeadlinesAndCores7c, by decide +kernel⟩,
    ⟨grantsDeadlinesAndCores8, 0, 5000001, grantsDeadlinesAndCores8c, by decide +kernel⟩,
    ⟨23, by decide +kernel⟩⟩

theorem witness_GrantsDeadlinesAndCores_2 :
    (∃ (s : State) (core : Nat), KV.WF s.port.cmds ∧ core < 24 ∧ (KV.findD s.it.cores core {}).inReset = false ∧ (KV.findD s.it.cores core {}).hung = false ∧ otherCores s core ≠ []) ∧
    (∃ (s : State) (core : Nat), ((KV.findD s.it.cores core {}).inReset = true ∨ (KV.findD s.it.cores core {}).hung = true) ∧ s.md.mode ≠ .measure) :=
  ⟨⟨adm .solo, 23, by decide +kernel⟩,
    ⟨grantsDeadlinesAndCores10, 3, by decide +kernel⟩⟩

theorem witness_CalendarAndDieWatchdogs :
    (∃ (s : State), ((nextBoundary s).it.decFault = false ∨ s.sup.rails = false)) ∧
    (∃ (s : State), s.cal.running = false ∧ s.it.decFault = false) ∧
    (∃ (s : State), s.cal.running = true ∧ KV.WF s.cal.nextBudgets) ∧
    (∃ (s : State) (die : Nat) (ns : Nat) (o : DieOp) (a : Nat), (dieOf s die).op = some o ∧ o.asked = some a ∧ ns ≤ 20000) ∧
    (∃ (s : State) (die : Nat) (ns : Nat) (o : DieOp) (a : Nat), (dieOf s die).op = some o ∧ o.asked = some a ∧ 20000 < ns ∧ KV.findD s.cal.late die 0 = 2) ∧
    (∃ (s : State) (die : Nat) (ns : Nat) (o : DieOp) (a : Nat), (dieOf s die).op = some o ∧ o.asked = some a ∧ 20000 < ns ∧ KV.findD s.cal.late die 0 < 2) ∧
    (∃ (s : State) (die : Nat), 50000000 ≤ ranFor s die) ∧
    (∃ (s : State) (die : Nat), ranFor s die < 50000000) :=
  ⟨⟨calendarAndDieWatchdogs1, by decide +kernel⟩,
    ⟨calendarAndDieWatchdogs1, by decide +kernel⟩,
    ⟨adm .solo, by decide +kernel⟩,
    ⟨calendarAndDieWatchdogs4, 0, 20000, calendarAndDieWatchdogs5o, 4000000, by decide +kernel⟩,
    ⟨calendarAndDieWatchdogs5, 0, 20001, calendarAndDieWatchdogs6o, 4000000, by decide +kernel⟩,
    ⟨calendarAndDieWatchdogs6, 0, 20001, calendarAndDieWatchdogs7o, 4000000, by decide +kernel⟩,
    ⟨calendarAndDieWatchdogs8, 0, by decide +kernel⟩,
    ⟨adm .solo, 0, by decide +kernel⟩⟩

theorem witness_DieReads :
    (∃ (s : State) (slot : Nat) (die : Nat) (errs : Nat) (k : Nat) (c : Cmd), KV.find s.port.cmds slot = some c ∧ c.dies ≠ [] ∧ c.fromTwin = false ∧ readSet s c die = some k ∧ errs ≤ 96) ∧
    (∃ (s : State) (slot : Nat) (fails : Nat) (c : Cmd), KV.find s.port.cmds slot = some c ∧ c.dies ≠ [] ∧ fails ≠ 0) ∧
    (∃ (s : State) (slot : Nat) (c : Cmd), KV.find s.port.cmds slot = some c ∧ c.fromTwin = false) ∧
    (∃ (s : State) (slot : Nat) (c : Cmd), KV.find s.port.cmds slot = some c) ∧
    (∃ (s : State) (slot : Nat) (er : Nat) (c : Cmd), KV.find s.port.cmds slot = some c ∧ c.fromTwin = false ∧ er ≤ 2) ∧
    (∃ (s : State) (slot : Nat) (er : Nat) (l : Nat) (c : Cmd), KV.find s.port.cmds slot = some c ∧ c.fromTwin = false ∧ 2 < er ∧ s.md.mode ≠ .service ∧ s.tw.fetches = [] ∧ c.slba ≤ l ∧ l < c.slba + c.nlb) ∧
    (∃ (s : State) (die : Nat) (bset : Nat), (bsetOf s (setKey die bset)).reads < readLimit (bsetOf s (setKey die bset)).mode) ∧
    (∃ (s : State) (die : Nat) (bset : Nat), readLimit (bsetOf s (setKey die bset)).mode ≤ (bsetOf s (setKey die bset)).reads) :=
  ⟨⟨dieReads0, 0, 0, 96, dieReads0k, dieReads0c, by decide +kernel⟩,
    ⟨dieReads1, 0, 1, dieReads1c, by decide +kernel⟩,
    ⟨dieReads2, 0, dieReads2c, by decide +kernel⟩,
    ⟨dieReads3, 0, dieReads3c, by decide +kernel⟩,
    ⟨dieReads4, 0, 2, dieReads4c, by decide +kernel⟩,
    ⟨dieReads5, 0, 3, 0, dieReads5c, by decide +kernel⟩,
    ⟨adm .solo, 0, 0, by decide +kernel⟩,
    ⟨dieReads7, 0, 0, by decide +kernel⟩⟩

theorem witness_ProgramsErasesAndStaging :
    (∃ (s : State) (die : Nat) (o : DieOp), (dieOf s die).claimOp = none ∧ (dieOf s die).op = some o ∧ o.suspended = false ∧ o.kind ≠ .erase ∧ (o.job ≠ .zone ∨ (bsetOf s (setKey die o.bset)).state ≠ .awaitErase)) ∧
    (∃ (s : State) (die : Nat) (o : DieOp), (dieOf s die).claimOp = none ∧ (dieOf s die).op = some o ∧ o.suspended = false ∧ o.kind ≠ .erase ∧ o.bset < 2048 ∧ o.job = .zone ∧ (bsetOf s (setKey die o.bset)).state ≠ .awaitErase) ∧
    (∃ (s : State) (die : Nat), (dieOf s die).claimOp = none ∧ (dieOf s die).op = none) ∧
    (∃ (s : State) (die : Nat) (o : DieOp), (dieOf s die).op = some o ∧ o.suspended = false ∧ o.kind = .erase ∧ o.bset < 2048 ∧ (bsetOf s (setKey die o.bset)).bad = [] ∧ (bsetOf s (setKey die o.bset)).role = .zone) ∧
    (∃ (s : State) (nsid : Nat) (zone : Nat) (n : Ns), nsOf s nsid = some n ∧ (n.zone zone).ext.density ≠ 2 ∧ holdsIncomplete s nsid zone = true ∧ stagingStopped s ((n.zone zone).group.getD 0) = false) ∧
    (∃ (s : State) (nsid : Nat) (zone : Nat) (n : Ns), nsOf s nsid = some n ∧ ((n.zone zone).ext.density = 2 ∨ holdsIncomplete s nsid zone = false)) ∧
    (∃ (s : State) (g : Nat) (t0 : Nat), g < 64 ∧ (grpOf s g).rowAt = some t0 ∧ t0 + 2000000 ≤ s.time.dtb) ∧
    (∃ (s : State), (∀ k t0, (grpOf s k).rowAt = some t0 → s.time.dtb < t0 + 2000000)) ∧
    (∃ (s : State) (nsid : Nat) (zone : Nat) (n : Ns), nsOf s nsid = some n ∧ (n.zone zone).active = true ∧ (n.zone zone).finishRec = false ∧ (n.zone zone).leftAt + 604800000000000 ≤ s.time.dtb) :=
  ⟨⟨programsErasesAndStaging0, 0, programsErasesAndStaging0o, by decide +kernel⟩,
    ⟨programsErasesAndStaging1, 0, programsErasesAndStaging1o, by decide +kernel⟩,
    ⟨adm .solo, 0, by decide +kernel⟩,
    ⟨programsErasesAndStaging3, 0, programsErasesAndStaging3o, by decide +kernel⟩,
    ⟨programsErasesAndStaging4b, 2, 0, programsErasesAndStaging4n, by decide +kernel⟩,
    ⟨adm .solo, 2, 4, (nsOf (adm .solo) 2).getD ns0, by decide +kernel⟩,
    ⟨programsErasesAndStaging6, 7, 3000000, by decide +kernel⟩,
    ⟨adm .solo, no_row⟩,
    ⟨programsErasesAndStaging8, 2, 0, (nsOf (adm .solo) 2).getD ns0, by decide +kernel⟩⟩

theorem witness_CheckpointsRetentionAndWear :
    (∃ (s : State), s.jr.session = true ∧ s.jr.ckptAt + 30000000000 ≤ s.time.dtb) ∧
    (∃ (s : State), (s.jr.session = false ∨ s.time.dtb < s.jr.ckptAt + 30000000000)) ∧
    (∃ (s : State), s.sup.rails = true) :=
  ⟨⟨checkpointsRetentionAndWear0b, by decide +kernel⟩,
    ⟨adm .solo, by decide +kernel⟩,
    ⟨adm .solo, by decide +kernel⟩⟩

theorem witness_MeasuredBoot :
    (∃ (s : State) (k : Nat), (s.md.mode ≠ .measure ∨ k ≠ s.boot.regs.length)) ∧
    (∃ (s : State) (k : Nat), s.md.mode = .measure ∧ s.sup.rails = true ∧ s.boot.regs.length = k ∧ 0 < k ∧ k < 7 ∧ s.boot.slotRun ≠ 0) ∧
    (∃ (s : State), s.md.mode = .measure ∧ s.sup.rails = true ∧ s.boot.regs = [] ∧ slotToRun s ≠ 0) ∧
    (∃ (s : State), s.md.mode = .measure ∧ s.sup.rails = true ∧ s.boot.regs = [] ∧ slotToRun s = 0) ∧
    (∃ (s : State), s.md.mode = .measure ∧ s.sup.rails = true ∧ s.boot.regs.length = 7 ∧ s.boot.slotRun ≠ 0 ∧ s.boot.verdict = none) ∧
    (∃ (s : State), s.md.mode = .measure ∧ s.sup.rails = true ∧ s.boot.regs.length = 7 ∧ s.boot.slotRun ≠ 0 ∧ s.boot.verdict = some 2) :=
  ⟨⟨adm .solo, 0, by decide +kernel⟩,
    ⟨measuredBoot1, 6, by decide +kernel⟩,
    ⟨State.reset, by decide +kernel⟩,
    ⟨measuredBoot3, by decide +kernel⟩,
    ⟨measuredBoot4, by decide +kernel⟩,
    ⟨measuredBoot5, by decide +kernel⟩⟩

theorem witness_RecoveryAndAlmanac :
    (∃ (s : State), s.md.mode = .recovery ∧ s.sup.rails = true) ∧
    (∃ (s : State), s.md.mode = .recovery ∧ s.sup.rails = true) ∧
    (∃ (s : State) (e : Nat) (rises : List Nat), s.md.mode = .recovery ∧ s.sup.rails = true ∧ s.time.gapDue = true ∧ gapEstimate rises = some e ∧ e ≤ 17520) ∧
    (∃ (s : State) (a : Alm), canSign s = true ∧ KV.find s.boot.ring s.boot.boot = some a) ∧
    (∃ (s : State), canSign s = false) ∧
    (∃ (s : State), s.boot.signPending = false ∧ s.md.mode ≠ .measure ∧ s.md.mode ≠ .harvest ∧ s.ev.mounted = true ∧ KV.find s.boot.body s.boot.boot = none ∧ s.boot.boot ≤ bodyMax ∧ KV.WF s.boot.ring) ∧
    (∃ (s : State), s.boot.signPending = true) :=
  ⟨⟨adm .recovery, by decide +kernel⟩,
    ⟨adm .recovery, by decide +kernel⟩,
    ⟨recoveryAndAlmanac2, 17520, (List.replicate 16 17520), by decide +kernel⟩,
    ⟨recoveryAndAlmanac3, recoveryAndAlmanac3a, by decide +kernel⟩,
    ⟨adm .solo, by decide +kernel⟩,
    ⟨recoveryAndAlmanac5, by decide +kernel⟩,
    ⟨State.reset, by decide +kernel⟩⟩

theorem witness_ThermalPolicy :
    (∃ (s : State) (cls : Nat) (first : Int) (rest : List Int) (now : List Int), now = first :: rest ∧ cls ≤ 3 ∧ now.length = sensorCount cls ∧ sampleDue s cls = true ∧ s.sup.rails = true ∧ s.md.mode ≠ .holiday) ∧
    (∃ (s : State) (cls : Nat) (first : Int) (rest : List Int), ((first :: rest).length ≠ sensorCount cls ∨ s.md.mode = .holiday ∨ sampleDue s cls = false)) ∧
    (∃ (s : State) (h : Nat), s.th.throttling = true ∧ atThrottle s = true ∧ s.th.hotSince = some h ∧ h + 2000000000 ≤ s.time.dtb) ∧
    (∃ (s : State), (s.th.throttling = false ∨ atThrottle s = false ∨ (∀ h, s.th.hotSince = some h → s.time.dtb < h + 2000000000))) ∧
    (∃ (s : State) (c : Nat), hottest s.th.ctrl.now ≤ throttleCtrl s - 3 ∧ hottest s.th.flash.now ≤ throttleFlash s - 3 ∧ s.th.coolSince = some c ∧ c + 10000000000 ≤ s.time.dtb ∧ s.th.imposed ≠ 0 ∧ (∀ b ∈ s.th.rateHold, b = false)) ∧
    (∃ (s : State), (s.th.imposed = 0 ∨ (∃ b ∈ s.th.rateHold, b = true) ∨ (∀ c, s.th.coolSince = some c → s.time.dtb < c + 10000000000))) ∧
    (∃ (s : State) (cls : Nat) (l : Int), rateLimit cls = some l ∧ (∀ v ∈ ratesOf (sensorOf s cls), 2 * v ≤ l) ∧ s.th.rateHold.getD cls false = true ∧ nth s.th.rateAt cls + 2000000000 ≤ s.time.dtb) ∧
    (∃ (s : State), s.sup.rails = true ∧ minuteOver s = true) ∧
    (∃ (s : State), s.th.shut = 1 ∧ (s.th.shutAt + 3000000 ≤ s.time.dtb ∨ diesIdle s = true)) ∧
    (∃ (s : State), (s.th.shut ≠ 1 ∨ (s.time.dtb < s.th.shutAt + 3000000 ∧ diesIdle s = false))) :=
  ⟨⟨adm .solo, 0, 41, (List.replicate 11 40), (41 :: List.replicate 11 40), by decide +kernel⟩,
    ⟨adm .solo, 0, 41, [], by decide +kernel⟩,
    ⟨thermalPolicy2b, 3000000000, by decide +kernel⟩,
    ⟨adm .solo, by decide +kernel⟩,
    ⟨thermalPolicy4b, 0, by decide +kernel⟩,
    ⟨adm .solo, by decide +kernel⟩,
    ⟨thermalPolicy6, 0, (rateLimit 0).getD 0, by decide +kernel⟩,
    ⟨thermalPolicy7, by decide +kernel⟩,
    ⟨thermalPolicy8, by decide +kernel⟩,
    ⟨adm .solo, by decide +kernel⟩⟩

theorem witness_ThermalPolicy_2 :
    (∃ (s : State), s.th.shut = 2 ∧ s.port.cmds = [] ∧ s.tw.departing = none ∧ s.md.mode ≠ .quarantine ∧ s.th.laterCause = 0) ∧
    (∃ (s : State), (s.th.shut ≠ 2 ∨ s.port.cmds ≠ [] ∨ s.tw.departing ≠ none)) ∧
    (∃ (s : State) (b : Nat), s.md.mode = .quarantine ∧ s.md.qcause = 1 ∧ s.th.belowSince = some b ∧ b + 60000000000 ≤ s.time.dtb) ∧
    (∃ (s : State), (s.md.mode ≠ .quarantine ∨ s.md.qcause ≠ 1 ∨ s.th.belowSince = none)) :=
  ⟨⟨thermalPolicy10, by decide +kernel⟩,
    ⟨adm .solo, by decide +kernel⟩,
    ⟨thermalPolicy12, 0, by decide +kernel⟩,
    ⟨adm .solo, by decide +kernel⟩⟩

theorem witness_EventJournal :
    (∃ (s : State), s.sup.rails = true ∧ s.md.mode ≠ .holiday ∧ s.md.mode ≠ .harvest ∧ areaMounted s = true ∧ coreRuns s 27 = true ∧ s.ev.ring ≠ [] ∧ s.ev.lossCount = 0) ∧
    (∃ (s : State), s.sup.rails = true ∧ s.md.mode ≠ .holiday ∧ s.md.mode ≠ .harvest ∧ areaMounted s = true ∧ coreRuns s 27 = true ∧ s.ev.ring ≠ [] ∧ s.ev.lossCount ≠ 0) ∧
    (∃ (s : State), (areaMounted s = false ∨ coreRuns s 27 = false)) ∧
    (∃ (s : State), s.sup.rails = true ∧ s.md.mode ≠ .holiday ∧ s.md.mode ≠ .harvest ∧ coreRuns s 27 = true ∧ areaMounted s = true ∧ 512 ≤ s.ev.buf.length) ∧
    (∃ (s : State) (typ : Nat), s.sup.rails = true ∧ evExempt typ = false ∧ (KV.findD s.ev.types typ {}).bucket < 64 ∧ (KV.findD s.ev.types typ {}).regainAt ≤ s.time.dtb) ∧
    (∃ (s : State) (typ : Nat), (evExempt typ = true ∨ 64 ≤ (KV.findD s.ev.types typ {}).bucket ∨ s.time.dtb < (KV.findD s.ev.types typ {}).regainAt)) :=
  ⟨⟨eventJournal0, by decide +kernel⟩,
    ⟨eventJournal1, by decide +kernel⟩,
    ⟨State.reset, by decide +kernel⟩,
    ⟨eventJournal3, by decide +kernel⟩,
    ⟨eventJournal4, 0x65, by decide +kernel⟩,
    ⟨eventJournal5, 0x65, by decide +kernel⟩⟩

theorem witness_InternalsAndIslands :
    (∃ (s : State) (bank : Nat) (chunks : Nat) (failing : Nat), s.sup.rails = true ∧ s.md.mode.operates = true ∧ mayTest s bank = true ∧ (∀ b ∈ s.it.banks, b.1 ≠ bank → b.2.lent = false) ∧ chunks ≤ 2048 ∧ ((bankOf s bank).lent = true → (bankOf s bank).chunk ≤ chunks) ∧ (bankOf s bank).spares + failing ≤ 8) ∧
    (∃ (s : State) (bank : Nat) (chunks : Nat) (failing : Nat), s.sup.rails = true ∧ s.md.mode.operates = true ∧ s.th.shut = 0 ∧ mayTest s bank = true ∧ (∀ b ∈ s.it.banks, b.1 ≠ bank → b.2.lent = false) ∧ chunks ≤ 2048 ∧ ((bankOf s bank).lent = true → (bankOf s bank).chunk ≤ chunks) ∧ 8 < (bankOf s bank).spares + failing) ∧
    (∃ (s : State) (bank : Nat) (accesses : List PadAccess) (a : PadAccess), (bankOf s bank).lent = true ∧ a ∈ accesses ∧ ownerHolds ((bankOf s bank).lender.getD (resetOwner bank)) a.who = true ∧ padInBank a = true) ∧
    (∃ (s : State) (bank : Nat) (accesses : List PadAccess), (bankOf s bank).lent = true ∧ (∀ a ∈ accesses, ownerHolds ((bankOf s bank).lender.getD (resetOwner bank)) a.who = false)) ∧
    (∃ (s : State), s.sup.rails = true ∧ s.md.mode ≠ .holiday) ∧
    (∃ (s : State) (ch : Nat), s.sup.rails = true ∧ ch ≤ 3) ∧
    (∃ (s : State) (ch : Nat), s.sup.rails = true ∧ ch ≤ 3 ∧ s.md.mode.operates = true ∧ s.th.shut = 0) ∧
    (∃ (s : State) (ch : Nat) (part : Nat) (q : Nat) (r : VRec) (n : Ns), KV.Canon {} s.zn.store ∧ s.sup.rails = true ∧ ch ≤ 3 ∧ (part = 2 ∨ part = 3) ∧ KV.find s.jr.recs q = some r ∧ nsOf s r.nsid = some n ∧ s.md.mode ≠ .service) ∧
    (∃ (s : State) (copy : Nat) (reading : Nat), copy < copyIx islands 0 ∧ copy ≠ copyIx 7 0 ∧ counterRuns s = true ∧ reading ≤ s.time.dtb + 20 ∧ s.time.dtb ≤ reading + 20 ∧ copy < s.time.copies.length) ∧
    (∃ (s : State) (island : Nat) (ch : Nat) (n : Nat) (cause : Nat), island < islands ∧ ch < 32 ∧ s.sup.rails = true ∧ s.md.mode.operates = true ∧ s.th.shut = 0 ∧ faultLimit island = some (n, cause) ∧ n ≤ ((KV.findD s.it.faults (island * 32 + (if island = 6 then ch else 0)) []).filter (fun t => s.time.dtb < t + 3600000000000)).length + 1) :=
  ⟨⟨adm .solo, 15, 2048, 8, by decide +kernel⟩,
    ⟨adm .solo, 10, 0, 9, by decide +kernel⟩,
    ⟨internalsAndIslands2, 10, internalsAndIslands2accesses, { who := .core 25, addr := 524280 }, by decide +kernel⟩,
    ⟨internalsAndIslands2, 10, [{ who := .core 0, addr := 0 }], by decide +kernel⟩,
    ⟨adm .solo, by decide +kernel⟩,
    ⟨adm .solo, 3, by decide +kernel⟩,
    ⟨adm .solo, 3, by decide +kernel⟩,
    ⟨internalsAndIslands6, 3, 3, 5, internalsAndIslands7r, internalsAndIslands7n, by decide +kernel⟩,
    ⟨adm .solo, 37, 4999980, by decide +kernel⟩,
    ⟨internalsAndIslands8, 0, 31, 3, 4, by decide +kernel⟩⟩

theorem witness_InternalsAndIslands_2 :
    (∃ (s : State) (island : Nat) (ch : Nat), island < islands ∧ ch < 32 ∧ s.sup.rails = true ∧ (∀ p, faultLimit island = some p → ((KV.findD s.it.faults (island * 32 + (if island = 6 then ch else 0)) []).filter (fun t => s.time.dtb < t + 3600000000000)).length + 1 < p.1)) ∧
    (∃ (s : State) (island : Nat) (ch : Nat), island ≠ 5 ∧ island ≠ 8 ∧ s.it.faulted.contains (island * 32 + (if island = 6 then ch else 0)) = true) ∧
    (∃ (s : State) (core : Nat), s.sup.rails = true ∧ 24 ≤ core ∧ core ≤ 27 ∧ coreRuns s core = true) ∧
    (∃ (s : State), s.sup.rails = true ∧ coreRuns s 28 = true) ∧
    (∃ (s : State) (core : Nat), coreRuns s core = false) ∧
    (∃ (s : State), s.sup.rails = true ∧ s.sup.i3cAddr = none) ∧
    (∃ (s : State), s.sup.i3cAddr ≠ none) :=
  ⟨⟨adm .solo, 0, 31, by decide +kernel⟩,
    ⟨internalsAndIslands10, 0, 0, by decide +kernel⟩,
    ⟨adm .solo, 27, by decide +kernel⟩,
    ⟨adm .solo, by decide +kernel⟩,
    ⟨internalsAndIslands14b, 27, by decide +kernel⟩,
    ⟨adm .solo, by decide +kernel⟩,
    ⟨internalsAndIslands14, by decide +kernel⟩⟩

theorem witness_DeroftLink :
    (∃ (s : State), s.tw.linkUp = false ∧ mayTrain s = true ∧ (s.md.mode = .solo → s.tw.senseIn = true ∧ s.tw.holdTraining = false)) ∧
    (∃ (s : State), (mayTrain s = false ∨ (s.md.mode = .solo ∧ s.tw.senseIn = false))) ∧
    (∃ (s : State), s.tw.linkUp = false ∧ s.tw.trainStep ≠ 0) ∧
    (∃ (s : State) (sets : List (Nat × List (BitVec 8))) (a : Nat) (b : Nat) (c : Nat) (rate : Nat) (width : Nat) (lanes : Nat), s.tw.linkUp = false ∧ mayTrain s = true ∧ trainOutcome sets [a, b, c] = some (rate, width, lanes)) ∧
    (∃ (s : State) (sets : List (Nat × List (BitVec 8))) (a : Nat) (b : Nat) (c : Nat), s.tw.linkUp = false ∧ mayTrain s = true ∧ trainOutcome sets [a, b, c] = none) ∧
    (∃ (s : State), mayTrain s = false) ∧
    (∃ (s : State) (lane : Nat) (w : Nat) (m : Nat), s.tw.linkUp = true ∧ s.tw.lanes.testBit lane = true ∧ groupOf 7 (s.tw.lanes ^^^ 2^lane) = some (w, m)) ∧
    (∃ (s : State) (lane : Nat), s.tw.linkUp = true ∧ s.tw.lanes.testBit lane = true ∧ groupOf 7 (s.tw.lanes ^^^ 2^lane) = none) ∧
    (∃ (s : State) (b : List (BitVec 8)), flitValid (if s.tw.fec then fecCorrect b else b) = false) ∧
    (∃ (s : State) (b : List (BitVec 8)) (c : List (BitVec 8)), c = (if s.tw.fec then fecCorrect b else b) ∧ flitValid c = true ∧ s.tw.linkUp = true ∧ ctlKind (flitControl c) = 0 ∧ ctlFseq (flitControl c) = s.tw.rxExpect ∧ s.tw.owePri < 31 ∧ s.tw.oweBulk < 32) :=
  ⟨⟨deroftLink0, by decide +kernel⟩,
    ⟨State.reset, by decide +kernel⟩,
    ⟨deroftLink2, by decide +kernel⟩,
    ⟨adm .solo, deroftLink3sets, 255, 255, 255, 4, 8, 255, by decide +kernel⟩,
    ⟨adm .solo, [], 255, 255, 255, by decide +kernel⟩,
    ⟨State.reset, by decide +kernel⟩,
    ⟨deroftLink6, 7, 4, 0x0F, by decide +kernel⟩,
    ⟨deroftLink7, 7, by decide +kernel⟩,
    ⟨adm .service, [], by decide +kernel⟩,
    ⟨adm .service, goodFlit, goodFlit, (if_neg (by decide +kernel)).symm, goodFlit_valid, by decide +kernel⟩⟩

theorem witness_DeroftLink_2 :
    (∃ (s : State) (b : List (BitVec 8)) (c : List (BitVec 8)), c = (if s.tw.fec then fecCorrect b else b) ∧ flitValid c = true ∧ s.tw.linkUp = true ∧ ctlKind (flitControl c) ≠ 3 ∧ ctlFseq (flitControl c) ≠ s.tw.rxExpect ∧ s.tw.owePri < 32 ∧ s.tw.oweBulk < 32) ∧
    (∃ (s : State), s.tw.linkUp = true ∧ s.tw.replay ≠ [] ∧ s.tw.ackAt + 2000 ≤ s.time.dtb) ∧
    (∃ (s : State), (s.tw.replay = [] ∨ s.time.dtb < s.tw.ackAt + 2000)) :=
  ⟨⟨deroftLink9, goodFlit, goodFlit, (if_neg (by decide +kernel)).symm, goodFlit_valid, by decide +kernel⟩,
    ⟨deroftLink10, by decide +kernel⟩,
    ⟨adm .service, by decide +kernel⟩⟩

theorem witness_DeroftMessages :
    (∃ (s : State), s.tw.linkUp = true) ∧
    (∃ (s : State) (h : MsgHdr), s.tw.linkUp = true ∧ h.typ = 0x42) ∧
    (∃ (s : State), s.tw.linkUp = true ∧ (s.tw.owePri ≠ 0 ∨ s.tw.oweBulk ≠ 0)) ∧
    (∃ (s : State) (h : MsgHdr), s.tw.linkUp = true ∧ h.typ = 0x41) ∧
    (∃ (s : State) (f : Nat), s.md.mode = .service ∧ s.tw.linkUp = true ∧ f < funcs ∧ KV.find s.jr.told f ≠ some (shareFree s f)) ∧
    (∃ (s : State), s.md.mode = .service ∧ s.tw.linkUp = true ∧ rank s = 0 ∧ keysDue s = true) ∧
    (∃ (s : State), (s.md.mode ≠ .service ∨ rank s ≠ 0 ∨ keysDue s = false)) ∧
    (∃ (s : State) (h : MsgHdr), s.tw.linkUp = true ∧ s.sup.rails = true ∧ h.authOk = false) ∧
    (∃ (s : State) (h : MsgHdr) (a : Nat) (c : Nat), s.tw.linkUp = true ∧ s.sup.rails = true ∧ h.authOk = false ∧ s.tw.integrityAt = [a, c] ∧ s.time.dtb < a + 600000000000 ∧ s.time.dtb < c + 600000000000) ∧
    (∃ (s : State) (h : MsgHdr), s.tw.linkUp = true ∧ s.sup.rails = true ∧ h.authOk = true ∧ (s.md.mode ≠ .service ∨ h.pepoch ≠ s.jr.pepoch.toNat)) :=
  ⟨⟨adm .service, by decide +kernel⟩,
    ⟨adm .service, hdr 0x42, by decide +kernel⟩,
    ⟨deroftMessages2, by decide +kernel⟩,
    ⟨adm .service, hdr 0x41, by decide +kernel⟩,
    ⟨adm .service, 127, by decide +kernel⟩,
    ⟨deroftMessages5, by decide +kernel⟩,
    ⟨adm .solo, by decide +kernel⟩,
    ⟨adm .service, { typ := 1, authOk := false }, by decide +kernel⟩,
    ⟨deroftMessages8, { typ := 1, authOk := false }, 1, 2, by decide +kernel⟩,
    ⟨adm .service, { typ := 1, pepoch := 77 }, by decide +kernel⟩⟩

theorem witness_LossOfThePeer :
    (∃ (s : State), s.tw.linkUp = true ∧ s.tw.senseFault = false ∧ s.tw.senseIn ≠ s.tw.peerSenseOut ∧ s.tw.senseAt + 10000 ≤ s.time.dtb) ∧
    (∃ (s : State), s.tw.senseFault = true ∧ s.tw.senseIn = s.tw.peerSenseOut ∧ s.tw.senseAt + 1000000000 ≤ s.time.dtb) ∧
    (∃ (s : State), s.md.mode = .service ∧ s.tw.lastFlitAt + 16000 ≤ s.time.dtb) ∧
    (∃ (s : State), s.md.mode = .pairing ∧ 2 ≤ s.tw.step ∧ s.tw.lastFlitAt + 16000 ≤ s.time.dtb) ∧
    (∃ (s : State), s.time.dtb < s.tw.lastFlitAt + 16000) ∧
    (∃ (s : State) (l : List Bool), s.md.mode = .service ∧ s.tw.lostPending = true ∧ l.length = 40 ∧ s.tw.lastFlitAt + 20000 ≤ s.time.dtb ∧ s.th.shut = 0) ∧
    (∃ (s : State), (s.md.mode ≠ .service ∨ s.tw.lostPending = false ∨ s.time.dtb < s.tw.lastFlitAt + 20000)) ∧
    (∃ (s : State) (k : Nat), s.md.mode = .pairing ∧ k = s.tw.step ∧ stepEnd s.tw k ≤ s.time.dtb) ∧
    (∃ (s : State) (k : Nat), (s.md.mode ≠ .pairing ∨ k ≠ s.tw.step ∨ s.time.dtb < stepEnd s.tw k)) ∧
    (∃ (s : State) (h : MsgHdr), Reaches s h 9 ∧ s.th.shut = 0) :=
  ⟨⟨lossOfThePeer0, by decide +kernel⟩,
    ⟨lossOfThePeer1b, by decide +kernel⟩,
    ⟨adm .service, by decide +kernel⟩,
    ⟨lossOfThePeer3, by decide +kernel⟩,
    ⟨lossOfThePeer4b, by decide +kernel⟩,
    ⟨lossOfThePeer4, List.replicate 40 false, by decide +kernel⟩,
    ⟨adm .solo, by decide +kernel⟩,
    ⟨lossOfThePeer7, 2, by decide +kernel⟩,
    ⟨adm .solo, 0, by decide +kernel⟩,
    ⟨adm .service, hdr 9, reaches_of (by decide +kernel), by decide +kernel⟩⟩

theorem witness_Mirroring :
    (∃ (s : State) (h : MsgHdr) (b : MirrorBody) (n : Ns), Reaches s h 1 ∧ nsOf s b.nsid = some n ∧ mirroredHere n = true ∧ n.zoned = false ∧ b.typ = 1 ∧ heldCopy s b = none ∧ appliedMeta s (copyRec s n b) = false ∧ s.md.writeThrough = false) ∧
    (∃ (s : State) (h : MsgHdr) (b : MirrorBody) (n : Ns) (x : VRec), Reaches s h 1 ∧ nsOf s b.nsid = some n ∧ mirroredHere n = true ∧ b.typ = 1 ∧ heldCopy s b = some x) ∧
    (∃ (s : State) (h : MsgHdr) (b : MirrorBody) (n : Ns), Reaches s h 1 ∧ nsOf s b.nsid = some n ∧ mirroredHere n = true ∧ n.zoned = false ∧ b.typ = 1 ∧ heldCopy s b = none ∧ appliedMeta s (copyRec s n b) = true) ∧
    (∃ (s : State) (h : MsgHdr) (b : MirrorBody), Reaches s h 1 ∧ (∀ n, nsOf s b.nsid = some n → mirroredHere n = false)) ∧
    (∃ (s : State) (h : MsgHdr) (oseq : Nat) (q : Nat) (r : VRec), Reaches s h 0x0A ∧ KV.WF s.jr.recs ∧ KV.find s.jr.recs q = some r ∧ r.copy = true ∧ r.oseq = oseq ∧ r.pepoch = s.jr.pepoch.toNat) ∧
    (∃ (s : State) (h : MsgHdr) (oseq : Nat), Reaches s h 2 ∧ (∀ p ∈ s.jr.recs, p.2.oseq ≠ oseq) ∧ s.tw.departing = none ∧ s.tw.transfer = none ∧ (∀ p ∈ s.zn.ns, p.2.reshape = none)) ∧
    (∃ (s : State) (h : MsgHdr) (oseq : Nat) (q : Nat) (r : VRec), Reaches s h 2 ∧ s.jr.recs = [(q, r)] ∧ r.oseq = oseq ∧ r.mirrored = true ∧ r.copy = false ∧ r.acked = false ∧ r.durable = false ∧ r.typ = 1 ∧ r.completed = false) ∧
    (∃ (s : State) (h : MsgHdr), Reaches s h 3) ∧
    (∃ (s : State) (h : MsgHdr), Reaches s h 7) :=
  ⟨⟨adm .service, hdr 1, mirroring0b, mirroring0n, reaches_of (by decide +kernel), by decide +kernel⟩,
    ⟨mirroring1, hdr 1, mirroring1b, mirroring1n, mirroring1x, reaches_of (by decide +kernel), by decide +kernel⟩,
    ⟨mirroring2, hdr 1, mirroring1b, mirroring2n, reaches_of (by decide +kernel), by decide +kernel⟩,
    ⟨adm .service, hdr 1, mirroring2b, reaches_of (by decide +kernel), by decide +kernel⟩,
    ⟨mirroring3, hdr 0x0A, 9, 5, mirroring4r, reaches_of (by decide +kernel), by decide +kernel⟩,
    ⟨mirroring4, hdr 2, 0, reaches_of (by decide +kernel), by decide +kernel⟩,
    ⟨mirroring5, hdr 2, 5, 5, mirroring6r, reaches_of (by decide +kernel), by decide +kernel⟩,
    ⟨adm .service, hdr 3, reaches_of (by decide +kernel)⟩,
    ⟨adm .service, hdr 7, reaches_of (by decide +kernel)⟩⟩

theorem witness_Forwarding :
    (∃ (s : State) (h : MsgHdr) (e : Io) (key : Nat) (n : Ns), Reaches s h 0x21 ∧ keyFor (noted s h) n e.func e.keyTag false = .ok key ∧ h.tag ∉ s.tw.keptAborts ∧ nsOf s e.nsid = some n ∧ n.here = true ∧ (n.zoned = true → (n.zone (e.slba / zoneSize n.flbas)).st ≠ .offline) ∧ needsOf (noted s h) e.nsid n e.slba e.nlb ≠ []) ∧
    (∃ (s : State) (h : MsgHdr) (op : Nat) (o : IoOp) (e : Io) (n : Ns), Reaches s h 0x21 ∧ h.tag ∉ s.tw.keptAborts ∧ ioOpOf op = some o ∧ nsOf s e.nsid = some n ∧ n.here = false) ∧
    (∃ (s : State) (h : MsgHdr) (op : Nat), Reaches s h 0x21 ∧ ioOpOf op = none) ∧
    (∃ (s : State) (h : MsgHdr), s.tw.linkUp = true ∧ s.sup.rails = true ∧ h.authOk = true ∧ (h.typ = 4 ∨ h.typ = 0x21) ∧ (s.md.mode ≠ .service ∨ h.pepoch ≠ s.jr.pepoch.toNat)) ∧
    (∃ (s : State) (h : MsgHdr) (slot : Nat) (c : Cmd), Reaches s h 0x22 ∧ s.port.cmds.find? (fun p => p.2.fwd && p.2.tag == h.tag) = some (slot, c) ∧ c.op.isWrite = false) ∧
    (∃ (s : State) (h : MsgHdr) (code : Nat) (slot : Nat) (st : Status) (c : Cmd), Reaches s h 0x22 ∧ statusOf code = some st ∧ s.port.cmds.find? (fun p => p.2.fwd && p.2.tag == h.tag) = some (slot, c) ∧ c.op.isWrite = true ∧ c.zop = 0) ∧
    (∃ (s : State) (h : MsgHdr) (slot : Nat) (c : Cmd), Reaches s h 6 ∧ h.tag < 2^31 ∧ (∀ f ∈ s.tw.frames, f.tag ≠ h.tag) ∧ s.port.cmds.find? (fun p => p.2.fwd && p.2.zop != 0 && p.2.tag == h.tag) = some (slot, c)) ∧
    (∃ (s : State) (h : MsgHdr) (tag : Nat), Reaches s h 0x0B ∧ (∀ p ∈ s.port.cmds, p.2.fromTwin = false ∨ p.2.tag ≠ tag)) ∧
    (∃ (s : State) (h : MsgHdr) (tag : Nat) (slot : Nat) (c : Cmd), Reaches s h 0x0B ∧ s.port.cmds.find? (fun p => p.2.fromTwin && p.2.tag == tag) = some (slot, c) ∧ fateOf (noted s h) c = .ends) :=
  ⟨⟨adm .service, hdr 0x21, forwarding0e, 102, forwarding0n, reaches_of (by decide +kernel), ok_of (d := 0) (by decide +kernel), by decide +kernel⟩,
    ⟨adm .service, hdr 0x21, 2, .read, forwarding1e, forwarding1n, reaches_of (by decide +kernel), by decide +kernel⟩,
    ⟨adm .service, hdr 0x21, 3, reaches_of (by decide +kernel), by decide +kernel⟩,
    ⟨adm .service, { typ := 4, pepoch := 77 }, by decide +kernel⟩,
    ⟨forwarding4, hdr 0x22, 0, forwarding4c, reaches_of (by decide +kernel), by decide +kernel⟩,
    ⟨forwarding5, hdr 0x22, 0, 0, .success, forwarding5c, reaches_of (by decide +kernel), by decide +kernel⟩,
    ⟨forwarding6, hdr 6, 0, forwarding6c, reaches_of (by decide +kernel), by decide +kernel⟩,
    ⟨adm .service, hdr 0x0B, 1, reaches_of (by decide +kernel), by decide +kernel⟩,
    ⟨forwarding8, hdr 0x0B, 6, 0, forwarding8c, reaches_of (by decide +kernel), by decide +kernel⟩⟩

theorem witness_Handovers :
    (∃ (s : State) (h : MsgHdr) (nsid : Nat) (n : Ns), Reaches s h 8 ∧ nsOf s nsid = some n ∧ n.mirrored = true ∧ n.here = false ∧ (∀ p ∈ s.jr.recs, p.2.copy = false)) ∧
    (∃ (s : State) (h : MsgHdr) (nsid : Nat) (n : Ns), Reaches s h 8 ∧ nsOf s nsid = some n ∧ (n.mirrored = false ∨ n.here = true)) ∧
    (∃ (s : State) (h : MsgHdr) (nsid : Nat) (n : Ns), Reaches s h 8 ∧ nsOf s nsid = some n ∧ s.tw.transfer = some nsid ∧ n.reshape = none) ∧
    (∃ (s : State) (h : MsgHdr) (nsid : Nat), Reaches s h 8 ∧ s.tw.transfer ≠ some nsid) ∧
    (∃ (s : State) (h : MsgHdr) (kind : Nat), Reaches s h 8 ∧ kind ≠ 7 ∧ s.th.shut = 0) ∧
    (∃ (s : State) (h : MsgHdr) (kind : Nat), Reaches s h 8 ∧ s.tw.departing = some kind ∧ s.tw.departSent = true ∧ kind ≠ 7 ∧ s.tw.adminWait = [] ∧ s.adm.formats = []) ∧
    (∃ (s : State) (h : MsgHdr) (kind : Nat), Reaches s h 8 ∧ s.tw.departing ≠ some kind) :=
  ⟨⟨adm .service, hdr 8, 3, (nsOf (adm .service) 3).getD ns0, reaches_of (by decide +kernel), by decide +kernel⟩,
    ⟨adm .service, hdr 8, 5, (nsOf (adm .service) 5).getD ns0, reaches_of (by decide +kernel), by decide +kernel⟩,
    ⟨handovers2, hdr 8, 5, (nsOf handovers2 5).getD ns0, reaches_of (by decide +kernel), by decide +kernel⟩,
    ⟨adm .service, hdr 8, 5, reaches_of (by decide +kernel), by decide +kernel⟩,
    ⟨adm .service, hdr 8, 5, reaches_of (by decide +kernel), by decide +kernel⟩,
    ⟨handovers5, hdr 8, 5, reaches_of (by decide +kernel), by decide +kernel⟩,
    ⟨adm .service, hdr 8, 5, reaches_of (by decide +kernel), by decide +kernel⟩⟩

theorem witness_PairingHandshake :
    (∃ (s : State) (h : MsgHdr) (b : Hello) (c : Nat), s.tw.linkUp = true ∧ h.typ = 0x43 ∧ s.md.mode = .pairing ∧ s.tw.step = 2 ∧ admission s b = some c) ∧
    (∃ (s : State) (h : MsgHdr) (b : Hello), s.tw.linkUp = true ∧ h.typ = 0x43 ∧ s.md.mode = .pairing ∧ s.tw.step = 2 ∧ admission s b = none) ∧
    (∃ (s : State), (s.tw.linkUp = false ∨ s.md.mode ≠ .pairing ∨ s.tw.step ≠ 2)) ∧
    (∃ (s : State) (h : MsgHdr) (c : Hello), s.md.mode = .pairing ∧ s.tw.linkUp = true ∧ s.sup.rails = true ∧ h.authOk = true ∧ h.typ = 0x0D ∧ s.tw.step = 6 ∧ s.tw.hello ≠ some c) ∧
    (∃ (s : State) (h : MsgHdr), s.md.mode = .pairing ∧ s.tw.linkUp = true ∧ s.sup.rails = true ∧ h.authOk = true ∧ h.typ = 0x0D ∧ s.tw.step = 6 ∧ 1 < s.tw.pairAcc.length) ∧
    (∃ (s : State) (h : MsgHdr), s.md.mode = .pairing ∧ s.tw.linkUp = true ∧ s.sup.rails = true ∧ h.authOk = true ∧ h.typ = 0x0D ∧ s.tw.step = 7) ∧
    (∃ (s : State) (h : MsgHdr) (b : Hello), s.md.mode = .pairing ∧ s.tw.linkUp = true ∧ s.sup.rails = true ∧ h.authOk = true ∧ h.typ = 9 ∧ s.tw.step = 8 ∧ s.tw.hello = some b) ∧
    (∃ (s : State) (h : MsgHdr), Reaches s h 9) :=
  ⟨⟨pairingHandshake0, hdr 0x43, pairingHandshake0b, pairingHandshake0c, by decide +kernel⟩,
    ⟨pairingHandshake1, hdr 0x43, pairingHandshake1b, by decide +kernel⟩,
    ⟨adm .solo, by decide +kernel⟩,
    ⟨pairingHandshake3, hdr 0x0D, pairingHandshake3c, by decide +kernel⟩,
    ⟨pairingHandshake4, hdr 0x0D, by decide +kernel⟩,
    ⟨pairingHandshake5, hdr 0x0D, by decide +kernel⟩,
    ⟨pairingHandshake6, hdr 9, pairingHandshake6b, by decide +kernel⟩,
    ⟨adm .service, hdr 9, reaches_of (by decide +kernel)⟩⟩

theorem witness_SyncsFramesAndFetches :
    (∃ (s : State) (h : MsgHdr) (op : Nat) (nsid : Nat), Reaches s h 0x0C ∧ nsOf s nsid = none ∧ op ≠ 0x0D ∧ op ≠ 0x84 ∧ op ≠ 8) ∧
    (∃ (s : State) (h : MsgHdr) (nsid : Nat) (a : List Nat), Reaches s h 0x0C ∧ nsOf s nsid = none ∧ nth a 0 = 0 ∧ nth a 5 = 0) ∧
    (∃ (s : State) (h : MsgHdr) (f : FrameBody), Reaches s h 0x23 ∧ f.kind = 5 ∧ (∀ p ∈ s.zn.ns, p.2.resyncPending = false)) ∧
    (∃ (s : State) (h : MsgHdr) (f : FrameBody), Reaches s h 0x23 ∧ (f.kind = 0 ∨ 7 < f.kind)) ∧
    (∃ (s : State) (h : MsgHdr) (f : FrameBody) (n : Ns) (x : Nat × Nat), Reaches s h 0x23 ∧ KV.Canon {} s.zn.store ∧ f.kind = 3 ∧ nsOf s f.nsid = some n ∧ n.here = false ∧ n.mirrored = true ∧ f.data = [x] ∧ x ≠ (1, 0) ∧ readLba s f.nsid f.slba = {}) ∧
    (∃ (s : State) (h : MsgHdr), Reaches s h 0x24) ∧
    (∃ (s : State) (h : MsgHdr) (nsid : Nat) (lba : Nat) (slot : Nat), Reaches s h 0x25 ∧ KV.Canon {} s.zn.store ∧ s.tw.fetches = [(h.tag, slot, nsid, lba, 1)] ∧ slot ≠ 65536 ∧ KV.find s.port.cmds slot = none) ∧
    (∃ (s : State) (h : MsgHdr), Reaches s h 0x25 ∧ (∀ f ∈ s.tw.fetches, f.1 ≠ h.tag)) ∧
    (∃ (s : State) (h : MsgHdr) (f : FrameBody) (n : Ns) (x : Nat × Nat), Reaches s h 0x26 ∧ KV.Canon {} s.zn.store ∧ f.kind = 3 ∧ nsOf s f.nsid = some n ∧ n.here = false ∧ n.mirrored = false ∧ n.becoming = true ∧ f.data = [x] ∧ x ≠ (1, 0) ∧ readLba s f.nsid f.slba = {}) ∧
    (∃ (s : State) (h : MsgHdr) (f : FrameBody) (n : Ns), Reaches s h 0x26 ∧ nsOf s f.nsid = some n ∧ (n.becoming = false ∨ n.here = true ∨ n.mirrored = true)) :=
  ⟨⟨adm .service, hdr 0x0C, 9, 99, reaches_of (by decide +kernel), by decide +kernel⟩,
    ⟨adm .service, hdr 0x0C, 99, [], reaches_of (by decide +kernel), by decide +kernel⟩,
    ⟨adm .service, hdr 0x23, syncsFramesAndFetches2f, reaches_of (by decide +kernel), by decide +kernel⟩,
    ⟨adm .service, hdr 0x23, syncsFramesAndFetches3f, reaches_of (by decide +kernel), by decide +kernel⟩,
    ⟨adm .service, hdr 0x23, syncsFramesAndFetches4f, syncsFramesAndFetches4n, (7, 103), reaches_of (by decide +kernel), by decide +kernel⟩,
    ⟨adm .service, hdr 0x24, reaches_of (by decide +kernel)⟩,
    ⟨syncsFramesAndFetches6, hdr 0x25, 3, 0, 0, reaches_of (by decide +kernel), by decide +kernel⟩,
    ⟨adm .service, hdr 0x25, reaches_of (by decide +kernel), by decide +kernel⟩,
    ⟨adm .service, hdr 0x26, syncsFramesAndFetches8f, syncsFramesAndFetches8n, (7, 105), reaches_of (by decide +kernel), by decide +kernel⟩,
    ⟨adm .service, hdr 0x26, syncsFramesAndFetches9f, syncsFramesAndFetches9n, reaches_of (by decide +kernel), by decide +kernel⟩⟩

theorem witness_SpdmResponder :
    (∃ (s : State) (t : Nat), t ≤ 1 ∧ spdmReached s t = true ∧ s.md.mode = .measure) ∧
    (∃ (s : State) (t : Nat), spdmReached s t = true ∧ coreRuns s 28 = false) ∧
    (∃ (s : State) (t : Nat), t ≤ 1 ∧ spdmReached s t = true ∧ s.md.mode ≠ .measure ∧ coreRuns s 28 = true ∧ s.boot.spdmCaps.length = 3) ∧
    (∃ (s : State) (t : Nat) (v : Nat), t ≤ 1 ∧ spdmReached s t = true ∧ s.md.mode ≠ .measure ∧ coreRuns s 28 = true ∧ (v = 0x11 ∨ v = 0x12) ∧ s.boot.spdmVer.length = 3 ∧ s.boot.spdmCaps.length = 3) ∧
    (∃ (s : State) (t : Nat) (v : Nat), spdmReached s t = true ∧ s.md.mode ≠ .measure ∧ coreRuns s 28 = true ∧ v ≠ 0x11 ∧ v ≠ 0x12) ∧
    (∃ (s : State) (t : Nat), t ≤ 1 ∧ spdmReached s t = true ∧ s.md.mode ≠ .measure ∧ coreRuns s 28 = true ∧ s.boot.spdmCaps.getD t false = true ∧ s.boot.spdmAlgs.length = 3) ∧
    (∃ (s : State) (t : Nat), spdmReached s t = true ∧ s.md.mode ≠ .measure ∧ coreRuns s 28 = true ∧ s.boot.spdmAlgs.getD t false = false) ∧
    (∃ (s : State) (t : Nat), spdmReached s t = true ∧ s.md.mode ≠ .measure ∧ coreRuns s 28 = true ∧ s.boot.spdmAlgs.getD t false = true) ∧
    (∃ (s : State) (t : Nat), t ≤ 1 ∧ spdmReached s t = true ∧ s.md.mode ≠ .measure ∧ coreRuns s 28 = true ∧ s.boot.spdmAlgs.getD t false = true) ∧
    (∃ (s : State) (t : Nat), t ≤ 1 ∧ spdmReached s t = true ∧ s.md.mode ≠ .measure ∧ coreRuns s 28 = true) :=
  ⟨⟨State.reset, 1, by decide +kernel⟩,
    ⟨spdmResponder1, 1, by decide +kernel⟩,
    ⟨adm .solo, 1, by decide +kernel⟩,
    ⟨adm .solo, 0, 0x11, by decide +kernel⟩,
    ⟨adm .solo, 0, 0x10, by decide +kernel⟩,
    ⟨spdmResponder4, 1, by decide +kernel⟩,
    ⟨adm .solo, 0, by decide +kernel⟩,
    ⟨spdmResponder6, 0, by decide +kernel⟩,
    ⟨spdmResponder7, 1, by decide +kernel⟩,
    ⟨adm .solo, 1, by decide +kernel⟩⟩

theorem witness_SpdmResponder_2 :
    (∃ (s : State) (t : Nat), spdmReached s t = true ∧ s.md.mode ≠ .measure ∧ coreRuns s 28 = true) ∧
    (∃ (s : State), spdmReached s 2 = true ∧ coreRuns s 28 = true ∧ s.tw.step = 5) ∧
    (∃ (s : State), spdmReached s 2 = true ∧ coreRuns s 28 = true ∧ s.tw.step = 5 ∧ s.boot.spdmSession = 1) ∧
    (∃ (s : State), s.tw.linkUp = true ∧ s.md.mode = .service ∧ rank s ≠ 0) :=
  ⟨⟨adm .solo, 0, by decide +kernel⟩,
    ⟨spdmResponder10, by decide +kernel⟩,
    ⟨spdmResponder11, by decide +kernel⟩,
    ⟨spdmResponder12, by decide +kernel⟩⟩

theorem witness_ManagementEndpoint :
    (∃ (s : State) (p : Nat) (typ : Nat) (id : Nat) (d : List Nat), miReached s p = true ∧ miStructure s typ id = some d) ∧
    (∃ (s : State) (p : Nat) (typ : Nat) (id : Nat), miReached s p = true ∧ miStructure s typ id = none) ∧
    (∃ (s : State) (p : Nat), miReached s p = false) ∧
    (∃ (s : State) (p : Nat), miReached s p = true) ∧
    (∃ (s : State) (p : Nat), miReached s p = true) ∧
    (∃ (s : State) (p : Nat) (v : Nat), miReached s p = true ∧ 1 ≤ v ∧ v ≤ 3) ∧
    (∃ (s : State) (p : Nat), miReached s p = true) ∧
    (∃ (s : State) (p : Nat) (v : Nat), miReached s p = true ∧ v ≠ 64) ∧
    (∃ (s : State) (p : Nat) (a : Nat), miReached s p = true ∧ a < 2) ∧
    (∃ (s : State) (p : Nat), miReached s p = true ∧ (s.sup.smbusKhz = 100 ∨ s.sup.smbusKhz = 400 ∨ s.sup.smbusKhz = 1000)) :=
  ⟨⟨adm .solo, 1, 0, 0, (miStructure (adm .solo) 0 0).getD [], by decide +kernel⟩,
    ⟨adm .solo, 1, 4, 0, by decide +kernel⟩,
    ⟨State.reset, 2, by decide +kernel⟩,
    ⟨adm .solo, 1, by decide +kernel⟩,
    ⟨adm .solo, 1, by decide +kernel⟩,
    ⟨adm .solo, 1, 3, by decide +kernel⟩,
    ⟨adm .solo, 1, by decide +kernel⟩,
    ⟨adm .solo, 1, 0, by decide +kernel⟩,
    ⟨adm .solo, 1, 1, by decide +kernel⟩,
    ⟨adm .solo, 1, by decide +kernel⟩⟩

theorem witness_ManagementEndpoint_2 :
    (∃ (s : State) (p : Nat) (o : Nat) (l : Nat), miReached s p = true ∧ o + l ≤ 256) ∧
    (∃ (s : State) (p : Nat) (o : Nat) (l : Nat), miReached s p = true ∧ 256 < o + l) ∧
    (∃ (s : State) (p : Nat), miReached s p = true) ∧
    (∃ (s : State) (p : Nat) (k : Nat), miReached s p = true ∧ k ≠ 0) ∧
    (∃ (s : State) (p : Nat), miReached s p = true ∧ (s.md.mode = .measure ∨ s.md.mode = .holiday ∨ s.md.mode = .harvest)) ∧
    (∃ (s : State) (p : Nat), miReached s p = true) ∧
    (∃ (s : State), s.sup.rails = true) ∧
    (∃ (s : State), s.sup.rails = false) :=
  ⟨⟨adm .solo, 1, 0, 256, by decide +kernel⟩,
    ⟨adm .solo, 1, 1, 256, by decide +kernel⟩,
    ⟨adm .solo, 1, by decide +kernel⟩,
    ⟨adm .solo, 1, 1, by decide +kernel⟩,
    ⟨State.reset, 1, by decide +kernel⟩,
    ⟨adm .solo, 1, by decide +kernel⟩,
    ⟨adm .solo, by decide +kernel⟩,
    ⟨managementEndpoint18, by decide +kernel⟩⟩

theorem witness_PinsFollowTheState :
    (∃ (s : State), s.sup.rails = true ∧ s.md.mode ≠ .holiday ∧ s.md.mode ≠ .harvest) ∧
    (∃ (s : State), s.sup.rails = true ∧ s.md.mode ≠ .holiday ∧ s.md.mode ≠ .harvest ∧ (s.md.mode = .quarantine ∨ s.adm.critWarn ≠ 0)) ∧
    (∃ (s : State), s.sup.rails = true ∧ s.md.mode ≠ .holiday ∧ s.md.mode ≠ .harvest ∧ s.md.mode ≠ .quarantine ∧ s.adm.critWarn = 0) ∧
    (∃ (s : State), (s.sup.rails = false ∨ s.md.mode = .holiday ∨ s.md.mode = .harvest)) :=
  ⟨⟨adm .solo, by decide +kernel⟩,
    ⟨adm .quarantine, by decide +kernel⟩,
    ⟨adm .solo, by decide +kernel⟩,
    ⟨adm .holiday, by decide +kernel⟩⟩

theorem witness_SubsystemResetReachesTheTwin :
    (∃ (s : State) (f : Nat), f < 128 ∧ s.md.mode = .service ∧ s.tw.linkUp = true) ∧
    (∃ (s : State) (h : MsgHdr), Reaches s h 9) ∧
    (∃ (s : State) (f : Nat), f < 128 ∧ s.md.mode ≠ .service) :=
  ⟨⟨adm .service, 127, by decide +kernel⟩,
    ⟨adm .service, hdr 9, reaches_of (by decide +kernel)⟩,
    ⟨adm .solo, 127, by decide +kernel⟩⟩

theorem witness_MessagesOfAnotherEpoch :
    (∃ (s : State) (h : MsgHdr), s.tw.linkUp = true ∧ s.sup.rails = true ∧ h.authOk = true ∧ s.md.mode ≠ .pairing ∧ h.pepoch ≠ s.jr.pepoch.toNat) ∧
    (∃ (s : State), 0 < (KV.findD s.ev.types 0x65 {}).bucket ∧ s.ev.ring.length < ringRoom) ∧
    (∃ (s : State) (h : MsgHdr), s.tw.linkUp = true ∧ s.sup.rails = true ∧ h.authOk = true ∧ (h.typ = 0x04 ∨ h.typ = 0x21) ∧ h.pepoch ≠ s.jr.pepoch.toNat) :=
  ⟨⟨adm .service, { typ := 1, pepoch := 77 }, by decide +kernel⟩,
    ⟨adm .service, by decide +kernel⟩,
    ⟨adm .service, { typ := 4, pepoch := 77 }, by decide +kernel⟩⟩

/-! ### What a sender can send -/

theorem wf_slotid : Instr.wf (.powerGood 480 480 { slotid := 8 }) = false := rfl
theorem wf_feed : Instr.wf (.powerGood 1001 480 {}) = false := rfl
theorem wf_supply_kind : Instr.wf (.supplyEvent 9 480 480) = false := rfl
theorem wf_harvest_feed : Instr.wf (.harvestTrigger [(1001, 480)] [false] [580] 0) = false := rfl
theorem wf_bank_step : Instr.wf (.harvestBankExhausted 8 0) = false := rfl
theorem wf_function : Instr.wf (.functionLevelReset 128) = false := rfl
theorem wf_rate : Instr.wf (.hostLinkUp 5 8 {}) = false := rfl
theorem wf_width : Instr.wf (.hostLinkUp 4 3 {}) = false := rfl
theorem wf_access : Instr.wf (.registerWrite 0 0 0x14 3 0) = false := rfl
theorem wf_bar : Instr.wf (.registerWrite 0 8 0x14 4 0) = false := rfl
theorem wf_queue : Instr.wf (.sqTailDoorbell 0 65536 4 0) = false := by decide
theorem wf_entry : Instr.wf (.identify { func := 128, cid := 0 }) = false := rfl
theorem wf_identifier : Instr.wf (.identify { func := 0, cid := 65536 }) = false := by decide
theorem wf_data_byte : Instr.wf (.setTimestamp { func := 0, cid := 0, data := [256] }) = false := by decide
theorem wf_io_queue : Instr.wf (.read { func := 0, sqid := 0, cid := 0, nsid := 1 }) = false := by decide
theorem wf_io_blocks : Instr.wf (.read { func := 0, sqid := 1, cid := 0, nsid := 1, nlb := 0 }) = false := by decide
theorem wf_slot : Instr.wf (.readDataDelivered 65536) = false := by decide
theorem wf_core : Instr.wf (.progressBeat 29) = false := rfl
theorem wf_copy : Instr.wf (.timeCorrection 40 0) = false := rfl
theorem wf_die : Instr.wf (.dieOperationWatchdog 672) = false := rfl
theorem wf_plane : Instr.wf (.eraseComplete 0 4 true) = false := rfl
theorem wf_group : Instr.wf (.stagingRowTimeout 40) = false := rfl
theorem wf_sensor_class : Instr.wf (.thermalSample 4 0 []) = false := rfl
theorem wf_stage : Instr.wf (.stageMeasured 8 [] []) = false := rfl
theorem wf_checkpoint : Instr.wf (.recoveryComplete 3 true [] [] {}) = false := rfl
theorem wf_bank : Instr.wf (.memoryTestRound 16 0 0) = false := rfl
theorem wf_training : Instr.wf (.deroftLinkUp [(0, [])] 255 255 255) = false := rfl
theorem wf_lane : Instr.wf (.laneFailure 8) = false := rfl
theorem wf_flit : Instr.wf (.flitReceived []) = false := rfl
theorem wf_samples : Instr.wf (.lossDecision []) = false := rfl
theorem wf_step : Instr.wf (.pairingTimeout 10) = false := rfl
theorem wf_header : Instr.wf (.noticeHarvest { typ := 256 }) = false := rfl
theorem wf_hello_part : Instr.wf (.hello { typ := 0x43 } { part := 3 }) = false := rfl
theorem wf_frame_data : Instr.wf (.resyncFrame { typ := 0x23 } { kind := 1, nlb := 0, data := [(1, 0)] }) = false := by decide
theorem wf_transport : Instr.wf (.spdmGetDigests 3) = false := rfl
theorem wf_certificate_slot : Instr.wf (.spdmGetCertificate 0 8 0 0) = false := rfl
theorem wf_port : Instr.wf (.vpdRead 3 0 1) = false := rfl
theorem wf_i3c : Instr.wf (.i3cAddressAssignment (some 128)) = false := rfl
theorem wf_admits : Instr.wf (.powerGood 480 480 { slotid := 7 }) = true ∧ Instr.wf (.read { func := 127, sqid := 65535, cid := 65535, nsid := 1, nlb := 65536 }) = true ∧
    Instr.wf (.thermalSample 3 0 []) = true := by decide

/-! ### Words: no row of the table has bits -/

theorem no_word_spells_a_command : decodeTableWord 32 0xFFFFFFFF = none := rfl
theorem no_word_is_queued : State.reset.withFetchWord 32 1 = State.reset := rfl

/-! ### Reset, the set-up block and controllers -/

/-- Run one command. -/
def after1 (s : State) (c : Instr) : State := nextOf s (exec c s)

/-- Table 2.7: SU_MODE reads 0000_1800h at power good. -/
theorem test_reset_su_mode : suRead State.reset 0 0x10 4 = 0x1800 := by decide +kernel

/-- R43, R46: a command sent while the rails are off changes nothing but a power good does. -/
theorem test_power_good_numbers_a_boot :
    (after1 { State.reset with sup := { State.reset.sup with rails := false } } (.powerGood 480 480 { slotid := 1 })).boot.boot = State.reset.boot.boot + 1 := by decide +kernel

/-- R70: an enable with a page size above 64 KiB sets CSTS.CFS and not RDY. -/
theorem test_enable_wrong_page_size :
    (ctrl (after1 { adm .solo with port := { (adm .solo).port with ctrls := [(0, { readyCtrl with rdy := false, cc := 0 })] } } (.ccEnable 0 0x004602E1)) 0).cfs = true := by decide +kernel

/-- R72's example: 0000_2800h caps the module at 40 W; PS_NOW 2, CAP_NOW 1Eh, LIMIT 28h. -/
theorem test_power_budget_ps_now : suRead (after1 (adm .solo) (.suPwrbudWrite 0 0x2800)) 0 0x40 4 / 2^28 = 2 := by decide +kernel
theorem test_power_budget_cap_and_limit : suRead (after1 (adm .solo) (.suPwrbudWrite 0 0x2800)) 0 0x40 2 = 0x281E := by decide +kernel

/-- R72: 05h is taken as 18 W. -/
theorem test_power_budget_low_limit : (after1 (adm .solo) (.suPwrbudWrite 0 0x0500)).pw.limit = 0x12 := by decide +kernel

/-! ### The worked admission (chapter 5) -/

/-- The die of the worked admission, and what a 4 KiB read needs of it. -/
def workedDie : Nat := memberDie State.reset 7 13
def workedNeed : KV Need := [(workedDie, { reads := [(0, .slc 0, 0)], cws := 1, rows := [0], group := 7 })]

/-- An SZM780 in Service in band B2, in period 1: function 21 has an Express allotment of 640 die-µs on each die, some of it drawn in one period. -/
def worked (drawn period : Nat) (claims : List Claim) : State :=
  { at' .service 0 0 none with
    cal := { State.reset.cal with
      period := 1, budgets := [(21, { chE := 1000000, rest := { e := 640 } }), (30, { chS := 1000000, rest := { s := 640 } })], claims := claims
      draws := [⟨21, .express, period, false, workedDie, drawn⟩] }
    th := { State.reset.th with bands := List.replicate 96 2 } }

/-- A Standard claim of another function on that die, µs from the start of period 1. -/
def stdClaim (a b : Nat) : Claim := { die := workedDie, start := periodNs + a * 1000, len := (b - a) * 1000, kind := .read, cls := .standard, func := 30 }

/-- Where the claims stand, µs from the start of period 1, and the Express tokens left on the die in a period. -/
def placed (r : Except Why State) (k : Nat) : Option (List Nat × Nat) := match r with
  | .ok s => some (s.cal.claims.map (fun (c : Claim) => (c.start - periodNs) / 1000), dieLeft s 21 .express workedDie k)
  | .error _ => none

/-- The Express read of the example, stamped at a µs with its verdict later by some ns. -/
def expressAt (s : State) (us tv : Nat) : Except Why State := placeRead s 21 .express 0 workedNeed 4096 (periodNs + us * 1000) tv

theorem test_read_price_die : dieCharge (worked 0 1 []) .express workedDie { reads := [(0, .slc 0, 0)], cws := 1, group := 7 } = 136 := by decide +kernel
theorem test_read_price_channel : chCharge .express { reads := [(0, .slc 0, 0)], cws := 1, group := 7 } = 8680 := by decide +kernel

/-- Table 5.8: placed at 2,096 µs beside the claim [2,000, 2,090); 280 tokens become 144. -/
theorem test_read_in_an_open_period : placed (expressAt (worked 360 1 [stdClaim 2000 2090]) 2000 1800) 1 = some ([2000, 2096], 144) := by decide +kernel

/-- The second example: placed at 8,240 µs on the next period's tokens, of which 504 are left. -/
theorem test_read_across_the_boundary : placed (expressAt (worked 540 1 [stdClaim 8150 8240]) 8100 1400) 2 = some ([8150, 8240], 504) := by decide +kernel

/-- The third: refused for tokens, and DW0 is 6Dh. -/
theorem test_read_out_of_tokens : placed (expressAt (worked 540 1 []) 7900 1400) 1 = none := by decide +kernel
theorem test_read_retry_after : retryRead (worked 540 1 []) 21 .express 0 workedNeed 4096 (periodNs + 7900000) 1400 = 0x6D := by decide +kernel

/-- The fourth: a shortfall of 1,573,120 bytes at 750 bytes per µs is 832h. -/
theorem test_share_retry_after : shareRetry 1573120 (750 * 8192) = 0x832 := by decide

/-- The worked schedule: in the closed window the read is placed around at 6,432 µs, thirty claims, 136 die-µs on the target; a Standard read waits for 6,656. -/
theorem test_read_around : placed (expressAt (worked 0 1 []) 6420 1400) 1 = some (List.replicate 30 6432, 504) := by decide +kernel
theorem test_read_after_the_window :
    placed (placeRead (worked 0 1 []) 30 .standard 0 workedNeed 4096 (periodNs + 6430000) 1200) 1 = some ([6656], 640) := by decide +kernel

/-! ### The worked budget, cap, placement and allocation (chapters 4, 6, 15, 16) -/

/-- The allotments of Table 6.14. -/
def tenants : KV Budget :=
  [(0, { chS := 2949120, rest := { s := 1024 } }), (21, { chE := 1500000, rest := { e := 640 } }),
   (30, { chS := 4000000, chB := 6000000, rest := { s := 2000, b := 2500 } }), (44, { chB := 2000000, rest := { b := 1000 } })]
def budgeted : State := { adm .service with cal := { (adm .service).cal with budgets := tenants } }

theorem test_read_around_reserve : aroundLeft budgeted workedDie 0 = 309 := by decide +kernel
theorem test_read_around_share : aroundChLeft budgeted 13 0 = 725806 := by decide +kernel
theorem test_rebuild_factors : (bulkFactor budgeted 7 0, chBulkFactor budgeted 0) = (125, 256) := by decide +kernel
theorem test_largest_allotment : limitsKept budgeted 40 { groups := [(7, { e := 260 })] } = true ∧ limitsKept budgeted 40 { groups := [(7, { e := 261 })] } = false := by decide +kernel

/-- The worked cap: 45 W puts PS1 in force, 398 rest slots, a Bulk factor of 42. -/
theorem test_cap_rests : restCount (after1 budgeted (.suPwrbudWrite 0 0x2D00)) = 398 := by decide +kernel
theorem test_cap_factors : throttleFactors (after1 budgeted (.suPwrbudWrite 0 0x2D00)) 7 0 256 = (42, 256, 256) := by decide +kernel

/-- Active zones of function 9 in groups 4 and 5. -/
def placingZones (active4 active5 : Nat) : KV Zone :=
  (List.range active4).map (fun i => (i, { st := .closed, group := some 4, activeFunc := some 9 }))
    ++ (List.range active5).map (fun i => (i + 200, { st := .closed, group := some 5, activeFunc := some 9 }))

/-- Namespace 3 of the worked placement; groups 4 and 5 are dedicated to function 9. -/
def placing (active4 active5 : Nat) : State :=
  { adm .service with
    cal := { (adm .service).cal with dedicated := [(4, 9), (5, 9)], budgets := [(9, { active := 512 })] }
    zn := { (adm .service).zn with ns := [(3, { zoned := true, nsze := 400 * 4194304, attached := [9], slots := [1], zones := placingZones active4 active5 })] } }

/-- DENSITY 01h, HEAT 2, LIFETIME 04h, TENANT_TAG 0A17h, groups 4, 5 and 6. -/
def placingExt : Ext := { density := 1, heat := 2, lifetime := 4, tag := 0xA17, affinity := 0x70 }

theorem test_extension_bytes : extOf (adm .solo).part [1, 2, 4, 0, 0x17, 0x0A, 0, 0, 0x70] = some placingExt := by decide +kernel
theorem test_placement : (place (placing 128 97) 9 placingExt).toOption = some 5 := by decide +kernel
theorem test_placement_groups_full : errOf (place (placing 128 128) 9 placingExt) = .c3 := by decide +kernel
theorem test_placement_anywhere_full : errOf (place (placing 128 128) 9 {}) = .tooManyActive := by decide +kernel
theorem test_plc_capacity : zoneCap 1 30 0 = 2457600 := by decide +kernel

/-- 84 KiB with pool 1 empty takes 4, 64 and 64 KiB: 132 KiB. -/
theorem test_allocation : (allocBufs ([100, 0, 100, 100].map (fun n => { free := List.range n, cached := n : Pool })) (84 * 1024)).map (fun p => bufBytes p.2) = some (132 * 1024) := by decide +kernel

/-! ### Layout (R188, R222): the unit of the worked rebuild -/

theorem test_unit_place : placeOf 30 1080046 = { row := 9000, page := 11, cw := 2 } := by decide +kernel
theorem test_row_roles : (pPos 30 none 9000, qPos 30 none 9000, dataPos 30 none 9000 11) = (10, 11, 23) := by decide +kernel

/-- Chapter 7: a channel at 3,200 MT/s has 26,214,400 bytes in a period. -/
theorem test_degraded_channel : chanBudget { adm .solo with media := { (adm .solo).media with chans := [(3, { rate := 4 })] } } 3 = 26214400 := by decide +kernel

/-! ### The worked hold-up test (Table 11.4) -/

/-- The aged bank before the test. -/
def aged : State := { adm .solo with sup := { (adm .solo).sup with vigil := 12, lastTest := 1440, capUf := 3300, esrMohm := 240, usableDj := 100 } }
def agedFalling : State := after1 aged .holdUpTestDue
def agedDischarging : State := after1 agedFalling (.holdUpInitialFall 132000)
def agedMeasured : State := after1 agedDischarging (.holdUpStopVoltage 712800 500)

theorem test_hold_up_sink : agedFalling.sup.charger = false ∧ agedFalling.sup.test = .falling := by decide +kernel
theorem test_hold_up_stop_voltage : agedDischarging.sup.vStopDv = 673 := by decide +kernel
theorem test_hold_up_measurement : (agedMeasured.sup.capUf, agedMeasured.sup.esrMohm, agedMeasured.sup.testResult.usableCj, agedMeasured.sup.testResult.needCj) = (3300, 250, 591, 455) := by
  decide +kernel

/-- SU_HOLDUP then reads USABLE 3Bh, NEED 2Eh, VIGIL 9h. -/
theorem test_hold_up_register : suRead agedMeasured 0 0x51 1 = 0x3B ∧ suRead agedMeasured 0 0x52 1 = 0x2E ∧ suRead agedMeasured 0 0x53 1 % 16 = 9 := by decide +kernel

/-! ### Time (chapter 15) -/

/-- The sequence's step 4: Timestamp set; SOURCE 001b, UNIT 00b, UNCERT 1,000. -/
def timed : State := after1 (adm .solo) (.setTimestamp { func := 0, cid := 1, data := [0, 0, 0, 0, 0, 1] })
theorem test_timestamp : suRead timed 0 0x60 4 = 1000 * 65536 + 1 := by decide +kernel

/-- Step 5: eight hours later UNIT 01b, UNCERT 577. -/
theorem test_uncertainty_grows :
    suRead { timed with time := { timed.time with dtb := timed.time.dtb + 28800 * 1000000000 } } 0 0x60 4 = 577 * 65536 + 0x4001 := by decide +kernel

/-! ### Zones and records -/

/-- R98: a write to a Full zone; one that does not start at the write pointer (the worked zone's is 8). -/
def writeTo (e : Io) : Status := errOf (zoneChecks (ioq .solo .unbound) e ((nsOf (adm .solo) 2).getD { zoned := true, nsze := 0 }) .write)
theorem test_write_full_zone : writeTo { func := 0, sqid := 1, cid := 9, nsid := 2, slba := 4194304 } = .zoneIsFull := by decide +kernel
theorem test_write_off_the_pointer : writeTo { func := 0, sqid := 1, cid := 9, nsid := 2, slba := 7 } = .zoneInvalidWrite := by decide +kernel

/-- R121: Finish Zone of the open zone leaves it Full. -/
theorem test_finish_zone :
    ((((after1 (ioq .solo .unbound) (.finishZone { func := 0, sqid := 1, cid := 9, nsid := 2, slba := 0 })).zn.ns.lookup 2).map (fun n => (n.zone 0).st)) == some ZState.full) = true := by
  decide +kernel

/-! ### Messages -/

/-- R289: the CRC-16 of the training sets has the check value of its polynomial and initial value over the digits 1 to 9. -/
theorem test_crc16 : crc16 ([0x31, 0x32, 0x33, 0x34, 0x35, 0x36, 0x37, 0x38, 0x39] : List (BitVec 8)) = 0x29B1 := by decide +kernel

/-- R289: a training set is taken; one with a bit inverted is not. -/
theorem test_training_set : setValid (trainingSet (adm .solo) 5 1 0 255) = true ∧ setValid ((trainingSet (adm .solo) 5 1 0 255).set 2 5) = false := by decide +kernel

/-- R269: a drop of an unacknowledged record's copy takes the record away. -/
theorem test_drop : KV.find (after1 (withRecs (adm .service) [(5, { typ := 1, copy := true, nsid := 3, oseq := 9, slba := 0, nlb := 1, data := [7] })]) (.drop (hdr 0x0A) 9)).jr.recs 5 = none := by
  decide +kernel

/-- Chapter 10: a message whose tag does not verify changes no namespace. -/
theorem test_forged_message : (after1 (adm .service) (.noticeHarvest { typ := 9, authOk := false })).md.mode = .service := by decide +kernel

/-- Table 2.4: a Harvest of the twin's makes this module leave Service for Solo. -/
theorem test_twin_harvest : (after1 (adm .service) (.noticeHarvest (hdr 9))).md.mode = .solo := by decide +kernel

/-- Table 4.1, and a unit's first place. -/
theorem test_zone_capacities :
    (zoneCap 0 30 0, zoneCap 0 29 0, zoneCap 1 29 3, zoneCap 2 30 3) = (1966080, 1900544, 593920, 122880) := by decide +kernel

/-- R223: the generator's doubling wraps with polynomial 11Dh; P and Q of two bytes. -/
theorem test_parity : gfDouble 0x80 = 0x1D ∧ parityP [0x12, 0x34] = 0x26 ∧ parityQ [1, 1] = 3 := by decide +kernel

/-- R381: a policy that enforces without an entry for each stage is refused, a policy of zeros after REV 01h is not. -/
theorem test_policy : policyBad [1, 1] = true ∧ policyBad [1] = false ∧ policyBad [2] = true := by decide +kernel

/-- R39: in Quarantine a second cause changes neither the mode nor the cause. -/
theorem test_second_cause :
    (toQuarantine (toQuarantine (adm .solo) 4) 5).md.qcause = 4 := by decide +kernel

/-- Chapter 12: the mask ROM's own digest M0 is the first register written in Measure. -/
theorem test_stage_zero : (after1 State.reset (.stageMeasured 0 [] [])).boot.regs.length = 1 := by decide +kernel

/-- R443, Table 3.5: SU_TEMP shows the hottest sensor of the controller class. -/
theorem test_thermal_sample : suRead (after1 (adm .solo) (.thermalSample 0 41 (List.replicate 11 41))) 0 0x80 1 = 41 := by decide +kernel

/-- R118: a reset of a Full zone empties it. -/
theorem test_reset_zone :
    ((((after1 (ioq .solo .unbound) (.resetZone { func := 0, sqid := 1, cid := 9, nsid := 2, slba := 4194304 })).zn.ns.lookup 2).map (fun n => (n.zone 1).st)) == some ZState.empty) = true := by
  decide +kernel

/-- R66: with no command open a normal shutdown of the PF alone completes its processing or waits for the seal; the status is not 00b. -/
theorem test_normal_shutdown : (ctrl (after1 (adm .solo) (.normalShutdown 0)) 0).shst ≠ 0 := by decide +kernel

end Sys2Proof.Tests
end

/-! SUPPORT. What every command keeps, command by command, and the statements that follow from it and from the definition of a step. -/

namespace Sys2Proof.Machine

/-- Every command keeps what `Kept` names: one case for each row of the table, by the lemma about the command's own meaning. -/
theorem exec_kept {c₀ s : State} (hk : Kept false false c₀ s) : ∀ c : Instr, KeptBy false false c₀ (exec c s)
  | .powerGood feedA feedB plane => execPowerGood_kept feedA feedB plane hk
  | .supplyEvent kind feedA feedB => execSupplyEvent_kept kind feedA feedB hk
  | .harvestTrigger feeds pwrdis mateMv ticks => execHarvestTrigger_kept feeds pwrdis mateMv ticks hk
  | .harvestSeal vEnd feedA feedB pwrdis mated shifts => execHarvestSeal_kept vEnd feedA feedB pwrdis mated shifts hk
  | .harvestBankExhausted step landed => execHarvestBankExhausted_kept step landed hk
  | .perstAsserted => execPerstAsserted_kept hk
  | .perstDeasserted => execPerstDeasserted_kept hk
  | .linkDown => execLinkDown_kept hk
  | .hotReset => execHotReset_kept hk
  | .functionLevelReset func => execFunctionLevelReset_kept func hk
  | .hostLinkUp rate width how => execHostLinkUp_kept rate width how hk
  | .l1Entry => execL1Entry_kept hk
  | .l1Exit => execL1Exit_kept hk
  | .ccEnable func cc => execCcEnable_kept func cc hk
  | .ccDisable func => execCcDisable_kept func hk
  | .normalShutdown func => execNormalShutdown_kept func hk
  | .shutdownUnboundTimeout func => execShutdownUnboundTimeout_kept func hk
  | .abruptShutdown func => execAbruptShutdown_kept func hk
  | .shutdownSeal shifts => execShutdownSeal_kept shifts hk
  | .nvmSubsystemReset func => execNvmSubsystemReset_kept func hk
  | .suPwrbudWrite func value => execSuPwrbudWrite_kept func value hk
  | .suDtbLoRead func => execSuDtbLoRead_kept func hk
  | .registerWrite func bar offset size value => execRegisterWrite_kept func bar offset size value hk
  | .sqTailDoorbell func qid size value => execSqTailDoorbell_kept func qid size value hk
  | .cqHeadDoorbell func qid size value => execCqHeadDoorbell_kept func qid size value hk
  | .holidayExitComplete ticks => execHolidayExitComplete_kept ticks hk
  | .holidayEntry tick => execHolidayEntry_kept tick hk
  | .holidayReentry tick => execHolidayReentry_kept tick hk
  | .identify e => execIdentify_kept e hk
  | .getLogPage e => execGetLogPage_kept e hk
  | .telemetryHostInitiatedCreate e => execTelemetryHostInitiatedCreate_kept e hk
  | .getFeatures e => execGetFeatures_kept e hk
  | .abort e => execAbort_kept e hk
  | .asynchronousEventRequest e => execAsynchronousEventRequest_kept e hk
  | .keepAlive e => execKeepAlive_kept e hk
  | .keepAliveExpiry func => execKeepAliveExpiry_kept func hk
  | .createIoSubmissionQueue e => execCreateIoSubmissionQueue_kept e hk
  | .createIoCompletionQueue e => execCreateIoCompletionQueue_kept e hk
  | .deleteIoSubmissionQueue e => execDeleteIoSubmissionQueue_kept e hk
  | .deleteIoCompletionQueue e => execDeleteIoCompletionQueue_kept e hk
  | .virtPrimaryFlexibleAllocation e => execVirtPrimaryFlexibleAllocation_kept e hk
  | .virtSecondaryOffline e => execVirtSecondaryOffline_kept e hk
  | .virtSecondaryAssign e => execVirtSecondaryAssign_kept e hk
  | .virtSecondaryOnline e => execVirtSecondaryOnline_kept e hk
  | .setPowerManagement e => execSetPowerManagement_kept e hk
  | .setPowerManagementPs4 e => execSetPowerManagementPs4_kept e hk
  | .setQueueClassBinding e => execSetQueueClassBinding_kept e hk
  | .setTenantBudget e => execSetTenantBudget_kept e hk
  | .setPowerBudget e => execSetPowerBudget_kept e hk
  | .setThermalPolicy e => execSetThermalPolicy_kept e hk
  | .setMeasurementPolicy e => execSetMeasurementPolicy_kept e hk
  | .setTwinPolicy e => execSetTwinPolicy_kept e hk
  | .setHolidayDegradationPermit e => execSetHolidayDegradationPermit_kept e hk
  | .setGroupDedication e => execSetGroupDedication_kept e hk
  | .setTimestamp e => execSetTimestamp_kept e hk
  | .setNumberOfQueues e => execSetNumberOfQueues_kept e hk
  | .setInterruptCoalescing e => execSetInterruptCoalescing_kept e hk
  | .setInterruptVectorConfiguration e => execSetInterruptVectorConfiguration_kept e hk
  | .setAsyncEventConfiguration e => execSetAsyncEventConfiguration_kept e hk
  | .setTemperatureThreshold e => execSetTemperatureThreshold_kept e hk
  | .namespaceCreate e => execNamespaceCreate_kept e hk
  | .namespaceDelete e => execNamespaceDelete_kept e hk
  | .namespaceAttach e => execNamespaceAttach_kept e hk
  | .namespaceDetach e => execNamespaceDetach_kept e hk
  | .formatNvm e => execFormatNvm_kept e hk
  | .formatNvmCryptoErase e => execFormatNvmCryptoErase_kept e hk
  | .sanitizeCryptoErase e => execSanitizeCryptoErase_kept e hk
  | .sanitizeBlockErase e => execSanitizeBlockErase_kept e hk
  | .sanitizeOverwrite e => execSanitizeOverwrite_kept e hk
  | .sanitizeExitFailureMode e => execSanitizeExitFailureMode_kept e hk
  | .formatSanitizeStart => execFormatSanitizeStart_kept hk
  | .firmwareImageDownload e img => execFirmwareImageDownload_kept e img hk
  | .firmwareCommitReplace e => execFirmwareCommitReplace_kept e hk
  | .firmwareCommitReplaceActivate e => execFirmwareCommitReplaceActivate_kept e hk
  | .firmwareCommitActivate e => execFirmwareCommitActivate_kept e hk
  | .activationSeal => execActivationSeal_kept hk
  | .securitySend e => execSecuritySend_kept e hk
  | .securityReceive e => execSecurityReceive_kept e hk
  | .mediaKeyInjection e tag kek key ok => execMediaKeyInjection_kept e tag kek key ok hk
  | .kekInjection e kek key ok => execKekInjection_kept e kek key ok hk
  | .keyPerIoEnable e tags => execKeyPerIoEnable_kept e tags hk
  | .keyPerIoDisable e => execKeyPerIoDisable_kept e hk
  | .pairControlJoin e => execPairControlJoin_kept e hk
  | .pairControlUnpair e => execPairControlUnpair_kept e hk
  | .pairControlTransfer e => execPairControlTransfer_kept e hk
  | .pairControlYield e => execPairControlYield_kept e hk
  | .pairControlTake e => execPairControlTake_kept e hk
  | .holdUpTestRun e => execHoldUpTestRun_kept e hk
  | .holdUpTestReport e => execHoldUpTestReport_kept e hk
  | .reshapeTwinPolicy e => execReshapeTwinPolicy_kept e hk
  | .reshapeGroupMove e => execReshapeGroupMove_kept e hk
  | .reshapeCancel e => execReshapeCancel_kept e hk
  | .calendarQueryGroupReport e => execCalendarQueryGroupReport_kept e hk
  | .calendarQueryDieSnapshot e => execCalendarQueryDieSnapshot_kept e hk
  | .read e => execRead_kept e hk
  | .write e => execWrite_kept e hk
  | .writeZeroes e => execWriteZeroes_kept e hk
  | .zoneAppend e => execZoneAppend_kept e hk
  | .flush e => execFlush_kept e hk
  | .reportZones e => execReportZones_kept e hk
  | .extendedReportZones e => execExtendedReportZones_kept e hk
  | .openZone e => execOpenZone_kept e hk
  | .closeZone e => execCloseZone_kept e hk
  | .finishZone e => execFinishZone_kept e hk
  | .resetZone e => execResetZone_kept e hk
  | .offlineZone e => execOfflineZone_kept e hk
  | .setZoneDescriptorExtension e => execSetZoneDescriptorExtension_kept e hk
  | .zoneSendSelectAll e => execZoneSendSelectAll_kept e hk
  | .hostDataReceived slot pi => execHostDataReceived_kept slot pi hk
  | .recordDurable seq => execRecordDurable_kept seq hk
  | .readDataDelivered slot => execReadDataDelivered_kept slot hk
  | .unboundBufferGrant slot => execUnboundBufferGrant_kept slot hk
  | .unboundWriteShareGrant slot => execUnboundWriteShareGrant_kept slot hk
  | .slotBoundary => execSlotBoundary_kept hk
  | .periodBoundary => execPeriodBoundary_kept hk
  | .deadlineTimerExpiry slot => execDeadlineTimerExpiry_kept slot hk
  | .rescuePoint slot => execRescuePoint_kept slot hk
  | .progressBeat core => execProgressBeat_kept core hk
  | .requestCoreWatchdog core => execRequestCoreWatchdog_kept core hk
  | .coreReturnToService core => execCoreReturnToService_kept core hk
  | .managementCoreWatchdog core => execManagementCoreWatchdog_kept core hk
  | .securityCoreWatchdog => execSecurityCoreWatchdog_kept hk
  | .timeCorrection copy reading => execTimeCorrection_kept copy reading hk
  | .islandFault island crossing stallAt channel => execIslandFault_kept island crossing stallAt channel hk
  | .islandResetComplete island channel => execIslandResetComplete_kept island channel hk
  | .suspendAcknowledge die ackNs => execSuspendAcknowledge_kept die ackNs hk
  | .dieOperationWatchdog die => execDieOperationWatchdog_kept die hk
  | .dieReadComplete slot die fails errs => execDieReadComplete_kept slot die fails errs hk
  | .softRetryComplete slot die page plane ok => execSoftRetryComplete_kept slot die page plane ok hk
  | .stripeReconstructionComplete slot die erasures nsid lost => execStripeReconstructionComplete_kept slot die erasures nsid lost hk
  | .readDisturbCheck die bset errs => execReadDisturbCheck_kept die bset errs hk
  | .programComplete die plane pass => execProgramComplete_kept die plane pass hk
  | .eraseComplete die plane ok => execEraseComplete_kept die plane ok hk
  | .stagingThreshold nsid zone => execStagingThreshold_kept nsid zone hk
  | .stagingRowTimeout group => execStagingRowTimeout_kept group hk
  | .retentionClockIncrement shifts worn => execRetentionClockIncrement_kept shifts worn hk
  | .percentageUsedUpdate => execPercentageUsedUpdate_kept hk
  | .checkpointInterval => execCheckpointInterval_kept hk
  | .zoneOpenAgeExpiry nsid zone => execZoneOpenAgeExpiry_kept nsid zone hk
  | .holdUpTestDue => execHoldUpTestDue_kept hk
  | .holdUpInitialFall tUs => execHoldUpInitialFall_kept tUs hk
  | .holdUpStopVoltage tUs stepMv => execHoldUpStopVoltage_kept tUs stepMv hk
  | .bankCharged => execBankCharged_kept hk
  | .bankVoltageCheck mv pIn => execBankVoltageCheck_kept mv pIn hk
  | .thermalSample cls first rest => execThermalSample_kept cls first rest hk
  | .throttleDeepen => execThrottleDeepen_kept hk
  | .throttleRelax => execThrottleRelax_kept hk
  | .rateHoldEnd cls => execRateHoldEnd_kept cls hk
  | .shutdownPassDeadline => execShutdownPassDeadline_kept hk
  | .thermalQuarantineEntry shifts => execThermalQuarantineEntry_kept shifts hk
  | .quarantineThermalExit => execQuarantineThermalExit_kept hk
  | .minuteRecord powerA powerB => execMinuteRecord_kept powerA powerB hk
  | .eventDrain => execEventDrain_kept hk
  | .eventJournalWrite => execEventJournalWrite_kept hk
  | .eventBucketRefill typ => execEventBucketRefill_kept typ hk
  | .stageMeasured stage train badBlobs => execStageMeasured_kept stage train badBlobs hk
  | .recoveryComplete ckpt mapOk rises shifts found => execRecoveryComplete_kept ckpt mapOk rises shifts found hk
  | .almanacSigning => execAlmanacSigning_kept hk
  | .almanacBodyCopy => execAlmanacBodyCopy_kept hk
  | .memoryTestRound bank chunks failing => execMemoryTestRound_kept bank chunks failing hk
  | .memoryTestCancel use => execMemoryTestCancel_kept use hk
  | .patrolScrub corrected => execPatrolScrub_kept corrected hk
  | .dramUncorrectableError channel part seq ok => execDramUncorrectableError_kept channel part seq ok hk
  | .deroftTrainingAttempt => execDeroftTrainingAttempt_kept hk
  | .deroftTrainingStepTimeout => execDeroftTrainingStepTimeout_kept hk
  | .deroftLinkUp sets lanes64 lanes32 lanes16 => execDeroftLinkUp_kept sets lanes64 lanes32 lanes16 hk
  | .laneFailure lane => execLaneFailure_kept lane hk
  | .flitReceived bytes => execFlitReceived_kept bytes hk
  | .replayTimeout => execReplayTimeout_kept hk
  | .heartbeatSend => execHeartbeatSend_kept hk
  | .creditReturn => execCreditReturn_kept hk
  | .shareUpdateSend func => execShareUpdateSend_kept func hk
  | .keyUpdateDue => execKeyUpdateDue_kept hk
  | .peerLost => execPeerLost_kept hk
  | .lossDecision samples => execLossDecision_kept samples hk
  | .senseFaultSet => execSenseFaultSet_kept hk
  | .senseFaultClear => execSenseFaultClear_kept hk
  | .pairingTimeout step => execPairingTimeout_kept step hk
  | .mirrorRecord h b => execMirrorRecord_kept h b hk
  | .mirrorAcknowledgement h oseq func share => execMirrorAcknowledgement_kept h oseq func share hk
  | .shareUpdate h func share drain => execShareUpdate_kept h func share drain hk
  | .forwardedCommand h op e cls stamp deadline claim all => execForwardedCommand_kept h op e cls stamp deadline claim all hk
  | .forwardedCompletion h status dw0 dw1 data => execForwardedCompletion_kept h status dw0 dw1 data hk
  | .zoneConfirmation h zone status => execZoneConfirmation_kept h zone status hk
  | .allotmentGrant h period grants => execAllotmentGrant_kept h period grants hk
  | .handoverOffer h nsid oseq epoch => execHandoverOffer_kept h nsid oseq epoch hk
  | .handoverTaken h nsid oseq epoch => execHandoverTaken_kept h nsid oseq epoch hk
  | .handoverDepart h kind oseq epoch => execHandoverDepart_kept h kind oseq epoch hk
  | .handoverDepartTaken h kind oseq epoch => execHandoverDepartTaken_kept h kind oseq epoch hk
  | .noticeHarvest h => execNoticeHarvest_kept h hk
  | .noticeQuarantine h => execNoticeQuarantine_kept h hk
  | .noticeNvmSubsystemReset h => execNoticeNvmSubsystemReset_kept h hk
  | .noticePairingCommit h => execNoticePairingCommit_kept h hk
  | .drop h oseq => execDrop_kept h oseq hk
  | .dispose h tag => execDispose_kept h tag hk
  | .adminSync h op nsid args => execAdminSync_kept h op nsid args hk
  | .pairingTable h copy entries result => execPairingTable_kept h copy entries result hk
  | .hello h b => execHello_kept h b hk
  | .heartbeat h b => execHeartbeat_kept h b hk
  | .credit h pri bulk => execCredit_kept h pri bulk hk
  | .resyncFrame h f => execResyncFrame_kept h f hk
  | .fetchRequest h nsid slba nlb oseq => execFetchRequest_kept h nsid slba nlb oseq hk
  | .fetchData h data => execFetchData_kept h data hk
  | .reshapeCopy h f => execReshapeCopy_kept h f hk
  | .spdmGetVersion transport => execSpdmGetVersion_kept transport hk
  | .spdmGetCapabilities transport version => execSpdmGetCapabilities_kept transport version hk
  | .spdmNegotiateAlgorithms transport p384 sha384 => execSpdmNegotiateAlgorithms_kept transport p384 sha384 hk
  | .spdmGetDigests transport => execSpdmGetDigests_kept transport hk
  | .spdmGetCertificate transport slot offset length => execSpdmGetCertificate_kept transport slot offset length hk
  | .spdmChallenge transport slot summary nonce => execSpdmChallenge_kept transport slot summary nonce hk
  | .spdmGetMeasurements transport index nonce signed twin => execSpdmGetMeasurements_kept transport index nonce signed twin hk
  | .spdmKeyExchange transport ok => execSpdmKeyExchange_kept transport ok hk
  | .spdmFinish transport ok => execSpdmFinish_kept transport ok hk
  | .spdmKeyUpdate transport => execSpdmKeyUpdate_kept transport hk
  | .spdmPskExchange transport => execSpdmPskExchange_kept transport hk
  | .readNvmeMiDataStructure port typ id => execReadNvmeMiDataStructure_kept port typ id hk
  | .nvmSubsystemHealthStatusPoll port clear => execNvmSubsystemHealthStatusPoll_kept port clear hk
  | .controllerHealthStatusPoll port start count clear => execControllerHealthStatusPoll_kept port start count clear hk
  | .configurationSet port id arg value => execConfigurationSet_kept port id arg value hk
  | .configurationGet port id arg => execConfigurationGet_kept port id arg hk
  | .vpdRead port offset length => execVpdRead_kept port offset length hk
  | .miReset port kind => execMiReset_kept port kind hk
  | .tunnelledAdminCommand port opcode e => execTunnelledAdminCommand_kept port opcode e hk
  | .basicManagementCommand code => execBasicManagementCommand_kept code hk
  | .powerLoss => execPowerLoss_kept hk
  | .pairsenseInChange level heldNs => execPairsenseInChange_kept level heldNs hk
  | .pllLock => execPllLock_kept hk
  | .bootStoreWriteComplete ok => execBootStoreWriteComplete_kept ok hk
  | .i3cAddressAssignment dynamic => execI3cAddressAssignment_kept dynamic hk

/-- Settles O1: with a command at its front, the queue takes `step` to its second branch. -/
theorem stepRunsTheFrontCommand : Obligations.StepRunsTheFrontCommand := by
  unfold Obligations.StepRunsTheFrontCommand
  intro s c rest hpending
  simp only [step, hpending]

/-- Settles O7: the queue and the part are among what every command keeps. -/
theorem commandsLeaveQueueAndPart : Obligations.CommandsLeaveQueueAndPart := by
  unfold Obligations.CommandsLeaveQueueAndPart
  intro c s t hexec
  have hkept : Kept false false s t := (exec_kept (Kept.refl s) c).next_kept t hexec
  exact ⟨hkept.pending, hkept.part⟩

end Sys2Proof.Machine

namespace Sys2Proof.Machine

/-! SUPPORT. An idle step (R21, R22, R441). -/

/-- While the master counter runs, a step on an empty queue is one tick of 8 ns. -/
theorem step_idle {s : State} (hpending : s.pending = []) (hruns : counterRuns s = true) :
    step s = .next (passTime s ((s.time.dtb + 8) % 2^64)) := by
  simp only [step, hpending, tick, hruns, if_true]

/-- While the master counter stands still, a step on an empty queue changes nothing. -/
theorem step_still {s : State} (hpending : s.pending = []) (hstill : counterRuns s = false) : step s = .next s := by
  simp [step, hpending, tick, hstill]

/-- Settles O2: the tick passes 8 ns where the master counter runs, and is the identity where it stands still. -/
theorem idleStepIsOneTick : Obligations.IdleStepIsOneTick := by
  unfold Obligations.IdleStepIsOneTick
  refine ⟨fun s hpending hrails hmode => ?_, fun s hpending hoff => ?_⟩
  · have hruns : counterRuns s = true := by simp [counterRuns, hrails, hmode]
    exact ⟨_, step_idle hpending hruns, rfl, rfl, rfl⟩
  · have hstill : counterRuns s = false := by
      rcases hoff with hrails | hmode
      · simp [counterRuns, hrails]
      · simp [counterRuns, hmode]
    exact step_still hpending hstill

end Sys2Proof.Machine

namespace Sys2Proof

/-- Taking out a key that is not listed leaves the table as it is. -/
theorem KV.del_of_find_none {α : Type} {m : KV α} {k : Nat} (h : find m k = none) : del m k = m := by
  induction m with
  | nil => rfl
  | cons p m ih =>
    rw [find] at h
    split at h
    · cases h
    · rename_i hp
      rw [del, if_neg hp, ih h]

/-- A key that is not listed is not listed after another is taken out. -/
theorem KV.find_del_none {α : Type} {m : KV α} {k : Nat} (h : find m k = none) (j : Nat) : find (del m j) k = none := by
  by_cases hj : k = j
  · subst hj
    rwa [del_of_find_none h]
  · rwa [find_del_other m hj]

end Sys2Proof

namespace Sys2Proof.Machine

/-! SUPPORT. What the end of a command leaves alone (R30, R86). -/

/-- A field that every step of a fold keeps is kept by the fold. -/
theorem foldl_field {α β γ : Type} (g : β → γ) (f : β → α → β) (h : ∀ b x, g (f b x) = g b) (l : List α) (b : β) :
    g (l.foldl f b) = g b := by
  induction l generalizing b with
  | nil => rfl
  | cons x l ih => exact (ih _).trans (h b x)

/-- From `c` to `s` commands may have ended: nothing posted is taken back, no command is new, and content, journal, media and the islands' faults are as they were. -/
structure Ended (c s : State) : Prop where
  zn : s.zn = c.zn
  jr : s.jr = c.jr
  media : s.media = c.media
  faulted : s.it.faulted = c.it.faulted
  posted : c.port.posted <+: s.port.posted
  cmds : ∀ k, KV.find c.port.cmds k = none → KV.find s.port.cmds k = none

theorem Ended.refl (s : State) : Ended s s := ⟨rfl, rfl, rfl, rfl, List.prefix_rfl, fun _ h => h⟩

theorem Ended.trans {a b c : State} (h : Ended a b) (k : Ended b c) : Ended a c :=
  ⟨k.zn.trans h.zn, k.jr.trans h.jr, k.media.trans h.media, k.faulted.trans h.faulted, h.posted.trans k.posted, fun i hi => k.cmds i (h.cmds i hi)⟩

theorem Ended.foldl {α : Type} {f : State → α → State} (h : ∀ s x, Ended s (f s x)) (l : List α) (s : State) : Ended s (l.foldl f s) := by
  induction l generalizing s with
  | nil => exact Ended.refl s
  | cons x l ih => exact (h s x).trans (ih _)

theorem Noted.ended {c s : State} (h : Noted c s) (hp : c.port.posted <+: s.port.posted) : Ended c s :=
  ⟨h.zn, h.jr, h.media, by rw [h.it], hp, fun k hk => by rw [h.port_field (·.cmds) (fun _ => rfl)]; exact hk⟩

/-! ### Completions and events take nothing posted back -/

theorem complete_prefix (s : State) (func sqid cid : Nat) (st : Status) (dw0 dw1 : Nat) (data : List Nat) :
    s.port.posted <+: (complete s func sqid cid st dw0 dw1 data).port.posted := by
  by_cases hmode : s.md.mode = .measure ∨ s.md.mode = .harvest
  · simp [complete, hmode]
  by_cases hready : (ctrl s func).rdy = false
  · simp [complete, hmode, hready]
  cases hsq : KV.find s.port.sqs (qkey func sqid) with
  | none => simp [complete, hmode, hready, hsq]
  | some sq =>
    cases hcq : KV.find s.port.cqs (qkey func sq.cqid) with
    | none => simp [complete, hmode, hready, hsq, hcq]
    | some cq =>
      rw [complete_posted s func sqid cid st dw0 dw1 data sq cq (not_or.1 hmode) (by simpa using hready) hsq hcq]
      exact List.prefix_append _ _

theorem complete_ended (s : State) (func sqid cid : Nat) (st : Status) (dw0 dw1 : Nat) (data : List Nat) :
    Ended s (complete s func sqid cid st dw0 dw1 data) :=
  (Quiet.noted (Noted.refl s) (complete_quiet (Quiet.refl s) _ _ _ _ _ _ _)).ended (complete_prefix _ _ _ _ _ _ _ _)

theorem setCtrl_ended (s : State) (func : Nat) (g : Ctrl → Ctrl) : Ended s (setCtrl s func g) :=
  ⟨rfl, rfl, rfl, rfl, List.prefix_rfl, fun _ h => h⟩

theorem raiseAen_ended (s : State) (func typ info log : Nat) : Ended s (raiseAen s func typ info log) := by
  unfold raiseAen
  dsimp only
  split
  · exact Ended.refl s
  · split
    · exact setCtrl_ended _ _ _
    · exact (setCtrl_ended _ _ _).trans (complete_ended _ _ _ _ _ _ _ _)

theorem raiseAll_ended (s : State) (typ info log : Nat) : Ended s (raiseAll s typ info log) :=
  Ended.foldl (fun s _ => raiseAen_ended s _ _ _ _) _ s

theorem raiseAll_prefix {s t : State} (h : t.port = s.port) (typ info log : Nat) : s.port.posted <+: (raiseAll t typ info log).port.posted :=
  h ▸ (raiseAll_ended t typ info log).posted

theorem record_ended (s : State) (typ : Nat) (payload : List Nat) (func : Option Nat) (nsid key : Nat) :
    Ended s (record s typ payload func nsid key) := by
  refine (record_noted (Noted.refl s) typ payload func nsid key).ended ?_
  unfold record
  dsimp only
  split
  · exact List.prefix_rfl
  · split <;> split
    · exact raiseAll_prefix (by rfl) _ _ _
    · exact List.prefix_rfl
    · exact raiseAll_prefix (by rfl) _ _ _
    · exact List.prefix_rfl

/-! ### Messages, buffers, transfers -/

theorem send_ended (s : State) (typ tag : Nat) (body : List Nat) : Ended s (send s typ tag body) := by
  have hfaulted : (send s typ tag body).it.faulted = s.it.faulted := by
    unfold send sealMsg
    split
    · dsimp only
      split <;> rfl
    · rfl
  rw [send_frame] at hfaulted ⊢
  exact ⟨rfl, rfl, rfl, hfaulted, List.prefix_rfl, fun _ h => h⟩

theorem decBuf_faulted (s : State) (b : Nat) : (decBuf s b).it.faulted = s.it.faulted := by
  unfold decBuf giveBuf
  split <;> rfl

theorem freeBufs_ended (s : State) (c : Cmd) : Ended s (freeBufs s c) := by
  have hfaulted : (freeBufs s c).it.faulted = s.it.faulted :=
    foldl_field (·.it.faulted) _ (fun s _ => foldl_field (·.it.faulted) _ decBuf_faulted c.bufs s) c.users s
  have hport : (freeBufs s c).port = s.port := by simp
  exact ⟨by simp, by simp, by simp, hfaulted, by rw [hport], fun k hk => by rw [hport]; exact hk⟩

theorem dropCmd_ended (s : State) (slot : Nat) : Ended s (dropCmd s slot) := by
  unfold dropCmd endXts
  exact ⟨rfl, rfl, rfl, rfl, List.prefix_rfl, fun _ h => KV.find_del_none h slot⟩

theorem setLedger_ended (s : State) (func row : Nat) (f : Ledger → Ledger) : Ended s (setLedger s func row f) :=
  ⟨rfl, rfl, rfl, rfl, List.prefix_rfl, fun _ h => h⟩

theorem missEvent_ended (s : State) (c : Cmd) (late : Nat) : Ended s (missEvent s c late) := by
  unfold missEvent
  split
  · exact record_ended _ _ _ _ _ _
  · exact Ended.refl s

/-! ### The end of a command and what follows from it -/

/-- The state in which the completion of the command `c` is formed (R30, R34): its buffers are back, and it has left the table. -/
def withoutCmd (s : State) (slot : Nat) (c : Cmd) : State := dropCmd (freeBufs s c) slot

theorem withoutCmd_ended (s : State) (slot : Nat) (c : Cmd) : Ended s (withoutCmd s slot c) :=
  (freeBufs_ended s c).trans (dropCmd_ended _ slot)

theorem withoutCmd_slot {s : State} (hwf : KV.WF s.port.cmds) (slot : Nat) (c : Cmd) : KV.find (withoutCmd s slot c).port.cmds slot = none := by
  have hport : (freeBufs s c).port = s.port := by simp
  show KV.find (KV.del (freeBufs s c).port.cmds slot) slot = none
  rw [hport]
  exact KV.find_del_self hwf slot

/-- What the core does once a command has left the table (R29, R30, R63, R86, R316). -/
theorem endCmd_eq {s : State} {slot : Nat} {c : Cmd} (hc : KV.find s.port.cmds slot = some c) (st : Status) (dw0 dw1 : Nat) (data : List Nat) :
    endCmd s slot st dw0 dw1 data =
      if c.quiet then missEvent (withoutCmd s slot c) c 0xFFFFFFFFFFFFFFFF
      else if c.fromTwin then
        send (withoutCmd s slot c) (if c.cls == .express || c.cls == .standard then 0x05 else 0x22) c.tag ([st.code, dw0, dw1] ++ data)
      else
        let s1 := setLedger (withoutCmd s slot c) c.func (ledgerRow c.cls c.op)
          (fun l => l.done c.sqid c.cid ((withoutCmd s slot c).time.dtb - c.stamp) (withoutCmd s slot c).time.dtb)
        let s2 := complete s1 c.func c.sqid c.cid st dw0 dw1 data
        missEvent s2 c (s2.time.dtb - c.deadline.getD 0) := by
  simp only [endCmd, postFrom, hc, ne_eq, not_true_eq_false, if_false, withoutCmd]

theorem endCmd_after {s : State} {slot : Nat} {c : Cmd} (hc : KV.find s.port.cmds slot = some c) (st : Status) (dw0 dw1 : Nat) (data : List Nat) :
    Ended (withoutCmd s slot c) (endCmd s slot st dw0 dw1 data) := by
  rw [endCmd_eq hc]
  split
  · exact missEvent_ended _ _ _
  · split
    · exact send_ended _ _ _ _
    · exact (setLedger_ended _ _ _ _).trans ((complete_ended _ _ _ _ _ _ _ _).trans (missEvent_ended _ _ _))

theorem endCmd_ended (s : State) (slot : Nat) (st : Status) (dw0 dw1 : Nat) (data : List Nat) : Ended s (endCmd s slot st dw0 dw1 data) := by
  cases hc : KV.find s.port.cmds slot with
  | none => simp only [endCmd, hc]; exact Ended.refl s
  | some c => exact (withoutCmd_ended s slot c).trans (endCmd_after hc st dw0 dw1 data)

theorem wakeFlushes_ended (s : State) (slot : Nat) : Ended s (wakeFlushes s slot) := by
  unfold wakeFlushes
  refine Ended.trans ?_ (Ended.foldl (fun s _ => endCmd_ended s _ _ _ _ _) _ _)
  exact ⟨rfl, rfl, rfl, rfl, List.prefix_rfl, fun k hk => by rw [KV.find_mapVals, hk]; rfl⟩

theorem endDelete_ended (s : State) (func sqid : Nat) : Ended s (endDelete s func sqid) := by
  unfold endDelete
  split
  · exact Ended.refl s
  · split
    · exact Ended.refl s
    · split
      · exact Ended.refl s
      · refine Ended.trans ?_ (complete_ended _ _ _ _ _ _ _ _)
        exact ⟨rfl, rfl, rfl, rfl, List.prefix_rfl, fun _ h => h⟩

theorem endShutdown_ended (s : State) (func : Nat) : Ended s (endShutdown s func) := by
  unfold endShutdown
  split
  · exact setCtrl_ended _ _ _
  · exact Ended.refl s

theorem tcgFor_ended (s : State) (owner cid result : Nat) : Ended s (tcgFor s owner cid result) := by
  unfold tcgFor tcgResult
  split
  · refine Ended.trans ?_ (complete_ended _ _ _ _ _ _ _ _)
    exact ⟨rfl, rfl, rfl, rfl, List.prefix_rfl, fun _ h => h⟩
  · exact Ended.refl s

theorem endInjection_ended (s : State) (func cid : Nat) (ok : Bool) : Ended s (endInjection s func cid ok) := by
  unfold endInjection
  split
  · exact send_ended _ _ _ _
  · exact tcgFor_ended _ _ _ _

/-- A change of the keys alone ends no command. -/
theorem Ended.keys (s : State) (k : Keys) : Ended s { s with keys := k } := ⟨rfl, rfl, rfl, rfl, List.prefix_rfl, fun _ h => h⟩

theorem inject_ended (s : State) (w : KeyWait) : Ended s (inject s w) := by
  unfold inject
  split
  · exact endInjection_ended _ _ _ _
  · split
    · exact endInjection_ended _ _ _ _
    · split
      · exact Ended.keys s _
      · exact (Ended.keys s _).trans (endInjection_ended _ _ _ _)

theorem settleKeys_ended (s : State) : Ended s (settleKeys s) := by
  unfold settleKeys
  split
  · exact Ended.refl s
  · exact (Ended.keys s _).trans (Ended.foldl inject_ended _ _)

theorem afterEnd_ended (s : State) (slot func sqid : Nat) : Ended s (afterEnd s slot func sqid) :=
  (wakeFlushes_ended s slot).trans ((endDelete_ended _ _ _).trans ((endShutdown_ended _ _).trans (settleKeys_ended _)))

theorem finish_after {s : State} {slot : Nat} {c : Cmd} (hc : KV.find s.port.cmds slot = some c) (st : Status) (dw0 dw1 : Nat) (data : List Nat) :
    Ended (endCmd s slot st dw0 dw1 data) (finish s slot st dw0 dw1 data) := by
  simp only [finish, hc]
  exact afterEnd_ended _ _ _ _

theorem finish_ended (s : State) (slot : Nat) (st : Status) (dw0 dw1 : Nat) (data : List Nat) : Ended s (finish s slot st dw0 dw1 data) := by
  cases hc : KV.find s.port.cmds slot with
  | none => simp only [finish, hc]; exact Ended.refl s
  | some c => exact (endCmd_ended s slot st dw0 dw1 data).trans (finish_after hc st dw0 dw1 data)

/-- A command that has ended is in the table no more (R30). -/
theorem finish_slot {s : State} (hwf : KV.WF s.port.cmds) (slot : Nat) (st : Status) (dw0 dw1 : Nat) (data : List Nat) :
    KV.find (finish s slot st dw0 dw1 data).port.cmds slot = none := by
  cases hc : KV.find s.port.cmds slot with
  | none => simp [finish, hc]
  | some c => exact (finish_after hc st dw0 dw1 data).cmds _ ((endCmd_after hc st dw0 dw1 data).cmds _ (withoutCmd_slot hwf slot c))

/-- The completion of a command of the host is posted at once, before what its end lets happen (R86). -/
theorem endCmd_posted {s : State} {slot : Nat} {c : Cmd} {sq : Sq} {cq : Cq} (hc : KV.find s.port.cmds slot = some c)
    (hquiet : c.quiet = false) (htwin : c.fromTwin = false) (hmode : s.md.mode ≠ .measure ∧ s.md.mode ≠ .harvest) (hready : (ctrl s c.func).rdy = true)
    (hsq : KV.find s.port.sqs (qkey c.func c.sqid) = some sq) (hcq : KV.find s.port.cqs (qkey c.func sq.cqid) = some cq)
    (st : Status) (dw0 dw1 : Nat) (data : List Nat) :
    s.port.posted ++ [{ func := c.func, sqid := c.sqid, cid := c.cid, status := st, dw0 := dw0, dw1 := dw1, sqhd := sq.head, at_ := s.time.dtb, phase := cq.phase, data := data }]
      <+: (endCmd s slot st dw0 dw1 data).port.posted := by
  have hport : (freeBufs s c).port = s.port := by simp
  have hposted := complete_posted (setLedger (withoutCmd s slot c) c.func (ledgerRow c.cls c.op)
      (fun l => l.done c.sqid c.cid ((withoutCmd s slot c).time.dtb - c.stamp) (withoutCmd s slot c).time.dtb))
    c.func c.sqid c.cid st dw0 dw1 data sq cq (by simpa [withoutCmd] using hmode)
    (by simpa [ctrl, setLedger, withoutCmd, dropCmd, endXts, hport] using hready)
    (by simpa [setLedger, withoutCmd, dropCmd, endXts, hport] using hsq) (by simpa [setLedger, withoutCmd, dropCmd, endXts, hport] using hcq)
  rw [endCmd_eq hc, if_neg (by simp [hquiet]), if_neg (by simp [htwin])]
  refine List.IsPrefix.trans ?_ (missEvent_ended _ _ _).posted
  rw [hposted]
  simp [setLedger, withoutCmd, dropCmd, endXts]

/-- READ_DATA_DELIVERED acts on a read that waits for nothing (R86). -/
theorem execReadDataDelivered_eq {s : State} {slot : Nat} {c : Cmd} (hc : KV.find s.port.cmds slot = some c) :
    execReadDataDelivered slot s =
      if c.op.isWrite || c.stage != .dieDone || !c.dies.isEmpty || c.needBytes != 0 || s.tw.fetches.any (fun f => f.2.1 == slot) then .next s
      else .next (finish (endXts s slot) slot c.result 0 0 (if c.result = .success then c.data else [])) := by
  simp only [execReadDataDelivered, hc]

/-- Settles O32: a command leaves the table and is answered before `afterEnd` acts, and nothing that follows takes the answer back or lists the command again. -/
theorem endOfACommand : Obligations.EndOfACommand := by
  unfold Obligations.EndOfACommand
  refine ⟨?posted, ?gone, ?left, ?delivered, ?waits⟩
  case posted =>
    intro s slot st d0 d1 data c sq cq _ hc hquiet htwin hmeasure hharvest hready hsq hcq
    obtain ⟨rest, hrest⟩ := (endCmd_posted hc hquiet htwin ⟨hmeasure, hharvest⟩ hready hsq hcq st d0 d1 data).trans (finish_after hc st d0 d1 data).posted
    exact ⟨rest, by rw [← hrest, List.append_assoc, List.singleton_append]⟩
  case gone =>
    intro s slot st d0 d1 data hwf
    exact finish_slot hwf slot st d0 d1 data
  case left =>
    intro s slot st d0 d1 data
    have hended := finish_ended s slot st d0 d1 data
    exact ⟨by rw [hended.zn], hended.jr, hended.media, (finish_kept (K := true) (J := true) slot st d0 d1 data (Kept.refl s)).core rfl⟩
  case delivered =>
    intro s slot c hc hwrite hstage hdies hbytes hfetch
    have hnone : s.tw.fetches.any (fun f => f.2.1 == slot) = false := by simpa using hfetch
    show execReadDataDelivered slot s = _
    rw [execReadDataDelivered_eq hc, if_neg (by simp [hwrite, hstage, hdies, hbytes, hnone])]
  case waits =>
    intro s slot c hc hwaits
    show execReadDataDelivered slot s = _
    rw [execReadDataDelivered_eq hc, if_pos]
    rcases hwaits with h | h | h <;> simp [h]

end Sys2Proof.Machine

namespace Sys2Proof.Machine

/-! SUPPORT. Two records of one zone that name one command: the data of the first lets the mirror record of the second be sent, which drops a reference of the command they share (R269, R280). -/

/-- A write whose data is awaited; the mirroring holds a reference to its buffers. -/
def sharedCmd : Cmd :=
  { func := 0, sqid := 1, cid := 1, op := .write, nsid := 2, slba := 0, nlb := 1, cls := .unbound, stamp := 0, stage := .buffered, seq := some 5, users := [.mirror] }

/-- Its record, of zone 0, which is not mirrored and whose data is not in. -/
def sharedRec : VRec := { typ := 1, nsid := 2, zone := 0, slba := 0, nlb := 1, dataIn := false, slot := some 0 }

/-- A later record of the same zone, mirrored and ready to be sent, that names the same command. -/
def sharingRec : VRec := { typ := 1, nsid := 2, zone := 0, slba := 1, nlb := 1, mirrored := true, acked := false, slot := some 0 }

/-- A state of these two records and their command. -/
def sharedState : State :=
  { State.reset with
    port := { State.reset.port with cmds := [(0, sharedCmd)] }
    jr := { State.reset.jr with recs := [(5, sharedRec), (6, sharingRec)] } }

/-- The data of the shared command arrives, and its context has lost the mirroring's reference. -/
theorem dataArrived_sharedState_users :
    (KV.find (dataArrived (endXts sharedState 0) 0 5).port.cmds 0).map (·.users) = some [] := by
  decide +kernel

/-- Refutes O35: the third clause says that the command differs in its stage and descriptor alone, and nothing there keeps a mirrored record of the same zone from naming the same command; in `sharedState` one does, and sending it drops a reference. -/
theorem not_durableWritesAreRead : ¬ Obligations.DurableWritesAreRead := by
  unfold Obligations.DurableWritesAreRead
  intro h
  obtain ⟨-, -, harrives, -⟩ := h
  obtain ⟨t, r', hexec, -, -, -, hcmd, -, -⟩ := harrives sharedState 0 5 sharedCmd sharedRec rfl rfl rfl rfl rfl rfl rfl rfl rfl
  have ht : dataArrived (endXts sharedState 0) 0 5 = t := Host.Outcome.next.inj hexec
  have husers := dataArrived_sharedState_users
  rw [ht, hcmd] at husers
  exact absurd husers (by decide)

end Sys2Proof.Machine

namespace Sys2Proof

/-- Of the keys taken out one after another none is left. -/
theorem KV.find_foldl_del {α : Type} (l : List Nat) {m : KV α} (hwf : WF m) {q : Nat} (hq : q ∈ l ∨ find m q = none) :
    find (l.foldl del m) q = none := by
  induction l generalizing m with
  | nil => simpa using hq
  | cons k l ih =>
    refine ih (wf_del hwf k) ?_
    rcases hq with hmem | hnone
    · rcases List.mem_cons.1 hmem with rfl | hmem
      · exact .inr (find_del_self hwf q)
      · exact .inl hmem
    · exact .inr (find_del_none hnone k)

/-- What is listed under a key is an entry of the table. -/
theorem KV.mem_of_find {α : Type} {m : KV α} {k : Nat} {v : α} (h : find m k = some v) : (k, v) ∈ m := by
  induction m with
  | nil => cases h
  | cons p m ih =>
    rw [find] at h
    split at h
    · rename_i hk
      cases h
      subst hk
      exact List.mem_cons_self
    · exact List.mem_cons_of_mem _ (ih h)

end Sys2Proof

namespace Sys2Proof.Machine

/-! SUPPORT. Messages of the twin that reach this module, the records they bring, acknowledge and drop (R33, R146, R267, R268, R280). -/

/-! ### A message that reached the module -/

@[simp] theorem noted_md (s : State) (h : MsgHdr) : (noted s h).md = s.md := rfl
@[simp] theorem noted_zn (s : State) (h : MsgHdr) : (noted s h).zn = s.zn := rfl
@[simp] theorem noted_jr (s : State) (h : MsgHdr) : (noted s h).jr = s.jr := rfl

theorem noted_kept (s : State) (h : MsgHdr) : Kept true true s (noted s h) := notePhase_kept _ _ (Kept.refl s)

/-- What a message does whose type its command takes (R263, R299, R302). -/
theorem peerMsg_reaches {s : State} {h : MsgHdr} {typ : Nat} (hreach : Reaches s h typ) (f : State → State) :
    peerMsg s h [typ] f = .next (f (noted s h)) := by
  have hmode : (notePhase s (msgClass h.typ) h.phase).md.mode = .service := hreach.mode
  have hepoch : h.pepoch = (notePhase s (msgClass h.typ) h.phase).jr.pepoch.toNat := hreach.epoch
  unfold peerMsg
  rw [if_neg (by simp [hreach.link, hreach.rails]), if_neg (by simp [hreach.auth])]
  dsimp only
  rw [if_neg (by rw [hmode, ← hepoch, hreach.typ]; simp)]
  rfl

/-! ### Forming a record (R261, R262) -/

/-- From `c` to `s` records may have moved in the region: nothing but their PAGE0 changes, and no SEQ is given. -/
structure Moved (c s : State) : Prop where
  seq : s.jr.seq = c.jr.seq
  recs : ∀ q r, KV.find c.jr.recs q = some r → ∃ p, KV.find s.jr.recs q = some { r with page0 := p }

theorem Moved.of_jr {c s : State} (hseq : s.jr.seq = c.jr.seq) (hrecs : s.jr.recs = c.jr.recs) : Moved c s :=
  ⟨hseq, fun q r hr => ⟨r.page0, by rw [hrecs, hr]⟩⟩

theorem Moved.trans {a b c : State} (h : Moved a b) (k : Moved b c) : Moved a c := by
  refine ⟨k.seq.trans h.seq, fun q r hr => ?_⟩
  obtain ⟨_, hb⟩ := h.recs q r hr
  obtain ⟨p, hc⟩ := k.recs q _ hb
  exact ⟨p, hc⟩

theorem Moved.foldl {α : Type} {f : State → α → State} (h : ∀ s x, Moved s (f s x)) (l : List α) (s : State) : Moved s (l.foldl f s) := by
  induction l generalizing s with
  | nil => exact Moved.of_jr rfl rfl
  | cons x l ih => exact (h s x).trans (ih _)

theorem openSession_moved (s : State) : Moved s (openSession s) := by
  unfold openSession
  split <;> exact Moved.of_jr rfl rfl

/-- Placing a record touches the segments alone. -/
theorem placeRec_moved (s : State) (core pages seq : Nat) : Moved s (placeRec s core pages seq).1 := by
  unfold placeRec
  split
  · exact Moved.of_jr rfl rfl
  · dsimp only
    split <;> exact Moved.of_jr rfl rfl

theorem movePlace_moved (s : State) (q : Nat) : Moved s (movePlace s q) := by
  unfold movePlace
  split
  · exact Moved.of_jr rfl rfl
  · rename_i r hr
    refine (placeRec_moved s mgmtCore r.pages q).trans ⟨rfl, fun i x hx => ?_⟩
    dsimp only
    rw [KV.find_adj, hx]
    split
    · exact ⟨_, rfl⟩
    · exact ⟨x.page0, rfl⟩

theorem compactSegs_moved (k : Nat) (s : State) : Moved s (compactSegs k s) := by
  induction k generalizing s with
  | zero => exact Moved.of_jr rfl rfl
  | succ k ih =>
    unfold compactSegs
    split
    · exact Moved.of_jr rfl rfl
    · split
      · exact Moved.of_jr rfl rfl
      · refine Moved.trans ?_ (ih _)
        refine Moved.trans ?_ (Moved.foldl movePlace_moved _ _)
        exact Moved.of_jr rfl rfl

/-- A record listed under a SEQ is still listed there, but for its boot number and PAGE0. -/
theorem Moved.listed {c s : State} (h : Moved c s) {q : Nat} {r x : VRec} (hx : KV.find c.jr.recs q = some x)
    (hr : ∃ b p, x = { r with boot := b, page0 := p }) : ∃ b p, KV.find s.jr.recs q = some { r with boot := b, page0 := p } := by
  obtain ⟨b, _, rfl⟩ := hr
  obtain ⟨p, hp⟩ := h.recs q _ hx
  exact ⟨b, p, hp⟩

/-- A copy is formed under the next SEQ, with its owner's ordering key and its own contents. -/
theorem formRecord_copy (s : State) (core : Nat) (r : VRec) (hcopy : r.copy = true) (hdurable : r.durable = false) :
    (formRecord s core r).1.jr.seq = s.jr.seq + 1 ∧
      ∃ b p, KV.find (formRecord s core r).1.jr.recs s.jr.seq = some { r with boot := b, page0 := p } := by
  have hseq : (openSession s).jr.seq = s.jr.seq := (openSession_moved s).seq
  unfold formRecord
  dsimp only
  refine ⟨?_, Moved.listed (compactSegs_moved 240 _) (by rw [hseq]; exact KV.find_set_self _ _ _) ?_⟩
  · rw [(compactSegs_moved 240 _).seq, hseq]
  · simp only [hcopy, hdurable, if_true, Bool.false_eq_true, if_false]
    exact ⟨_, _, rfl⟩

/-! ### Mirror records (R33, R267) -/

/-- A record of a namespace that this module does not copy is discarded. -/
theorem takeMirror_foreign {s : State} (h : MsgHdr) {b : MirrorBody} (hforeign : ∀ n, nsOf s b.nsid = some n → mirroredHere n = false) :
    takeMirror s h b = discard s h := by
  unfold takeMirror
  cases hn : nsOf s b.nsid with
  | none => rfl
  | some n => simp [hforeign n hn]

/-- A record held already is acknowledged once it is durable and applied (R33). -/
theorem takeMirror_held {s : State} (h : MsgHdr) {b : MirrorBody} {n : Ns} {x : VRec} (hn : nsOf s b.nsid = some n) (hmine : mirroredHere n = true)
    (htyp : b.typ = 1) (hheld : heldCopy s b = some x) :
    takeMirror s h b = if x.durable && x.acked then ackMirror s b.oseq b.func else s := by
  simp [takeMirror, hn, hmine, htyp, hheld]

/-- A copy of a metadata namespace is not of a zone. -/
theorem copyRec_ofZone (s : State) {n : Ns} (b : MirrorBody) (hzoned : n.zoned = false) : (copyRec s n b).ofZone = false := by
  simp [copyRec, VRec.ofZone, hzoned]

/-- A record of a metadata namespace with nothing left to apply is acknowledged again (R33, R267). -/
theorem takeMirror_applied {s : State} (h : MsgHdr) {b : MirrorBody} {n : Ns} (hn : nsOf s b.nsid = some n) (hmine : mirroredHere n = true)
    (htyp : b.typ = 1) (hheld : heldCopy s b = none) (happlied : appliedMeta s (copyRec s n b) = true) :
    takeMirror s h b = ackMirror s b.oseq b.func := by
  simp [takeMirror, hn, hmine, htyp, hheld, happlied]

/-- A new record of a metadata namespace is kept as a copy. -/
theorem takeMirror_new {s : State} (h : MsgHdr) {b : MirrorBody} {n : Ns} (hn : nsOf s b.nsid = some n) (hmine : mirroredHere n = true)
    (hzoned : n.zoned = false) (htyp : b.typ = 1) (hheld : heldCopy s b = none) (hnew : appliedMeta s (copyRec s n b) = false) :
    takeMirror s h b = storeCopy s (copyRec s n b) true := by
  have hzone := copyRec_ofZone s b hzoned
  have htaken : takeCopy s (copyRec s n b) = .ok s := by
    have hnsid : (copyRec s n b).nsid = b.nsid := rfl
    have hdata : 1 ≤ (copyRec s n b).typ ∧ (copyRec s n b).typ ≤ 3 := by simp [copyRec, htyp]
    simp [takeCopy, hnsid, hn, hdata, hzone]
  simp [takeMirror, hn, hmine, htyp, hheld, hnew, applied, hzone, copyLevel, hzoned, htaken]

/-- Outside write-through a copy is only formed: its row waits for staging (R279). -/
theorem storeCopy_record (s : State) (r : VRec) (hwt : r.wt = false) (hcopy : r.copy = true) (hdurable : r.durable = false) :
    (storeCopy s r true).jr.seq = s.jr.seq + 1 ∧
      ∃ b p, KV.find (storeCopy s r true).jr.recs s.jr.seq = some { r with acked := true, boot := b, page0 := p } := by
  unfold storeCopy
  dsimp only
  rw [if_neg (by simp [hwt])]
  exact formRecord_copy s _ { r with acked := true } hcopy hdurable

/-! ### Drops (R271, R280) -/

theorem removeRec_recs (s : State) (q : Nat) : (removeRec s q).jr.recs = KV.del s.jr.recs q := by
  unfold removeRec
  split
  · rename_i hq
    exact (KV.del_of_find_none hq).symm
  · dsimp only [unplace]
    split <;> split
    all_goals simp only [(send_ended s _ _ _).jr]

theorem revertCopy_jr (s : State) (r : VRec) (n : Ns) : (revertCopy s r n).jr = s.jr := by
  unfold revertCopy
  split
  · rfl
  · split
    · rfl
    · refine foldl_field State.jr _ (fun s i => ?_) _ _
      dsimp only
      split <;> rfl

/-- Dropping a copy takes its record out of the journal and no other. -/
theorem dropCopy_recs (s : State) (q : Nat) : (dropCopy s q).jr.recs = KV.del s.jr.recs q := by
  have hremoved := removeRec_recs s q
  unfold dropCopy
  split
  · rename_i hq
    exact (KV.del_of_find_none hq).symm
  · dsimp only
    split
    · exact hremoved
    · split
      · exact hremoved
      · split
        · exact (congrArg Journal.recs (revertCopy_jr _ _ _)).trans hremoved
        · exact (congrArg Journal.recs (revertCopy_jr _ _ _)).trans hremoved

theorem foldl_dropCopy_recs (l : List Nat) (s : State) : (l.foldl dropCopy s).jr.recs = l.foldl KV.del s.jr.recs := by
  induction l generalizing s with
  | nil => rfl
  | cons q l ih => rw [List.foldl_cons, ih, dropCopy_recs, List.foldl_cons]

/-! ### Acknowledgements (R265, R267) -/

theorem setCmd_ended (s : State) (slot : Nat) (f : Cmd → Cmd) : Ended s (setCmd s slot f) :=
  ⟨rfl, rfl, rfl, rfl, List.prefix_rfl, fun k hk => by
    show KV.find (KV.adj s.port.cmds slot f) k = none
    rw [KV.find_adj, hk]
    split <;> rfl⟩

theorem setZop_ended (s : State) (f seq : Nat) (g : ZopRec → ZopRec) : Ended s (setZop s f seq g) := setCtrl_ended _ _ _

theorem settleRes_ended (s : State) (slot : Nat) (c : Cmd) (i : Nat) (r : ZRes) : Ended s (settleRes s slot c i r) := by
  unfold settleRes
  split
  · exact setZop_ended _ _ _ _
  · split
    · exact send_ended _ _ _ _
    · exact (send_ended _ _ _ _).trans (setCmd_ended _ _ _)
    · exact Ended.refl s

theorem settleHead_ended (slot : Nat) (c : Cmd) (l : List (Nat × ZRes)) (s : State) : Ended s (settleHead slot c l s).1 := by
  induction l generalizing s with
  | nil => exact Ended.refl s
  | cons x l ih =>
    obtain ⟨i, r⟩ := x
    cases r with
    | change q => exact Ended.refl s
    | acted => exact (settleRes_ended s slot c i _).trans (ih _)
    | skipped => exact (settleRes_ended s slot c i _).trans (ih _)
    | failed st => exact (settleRes_ended s slot c i _).trans (ih _)

theorem settleZop_ended (s : State) (slot : Nat) (l : List (Nat × ZRes)) : Ended s (settleZop s slot l) := by
  unfold settleZop
  split
  · exact Ended.refl s
  · rename_i c _
    have hleft := (settleHead_ended slot c l s).trans (setCmd_ended _ slot (fun c' => { c' with zres := (settleHead slot c l s).2 }))
    dsimp only
    split
    · exact hleft
    · split
      · refine hleft.trans ?_
        cases KV.find (setCmd (settleHead slot c l s).1 slot _).port.cmds slot with
        | none => exact Ended.refl _
        | some c' => exact finish_ended _ _ _ _ _ _
      · exact hleft.trans ((setZop_ended _ _ _ _).trans (finish_ended _ _ _ _ _ _))

/-- What a zone's result ends in the multi-zone commands leaves the journal and the content alone. -/
theorem zopResult_ended (s : State) (seq : Nat) (r : ZRes) : Ended s (zopResult s seq r) :=
  Ended.foldl (fun s _ => settleZop_ended s _ _) _ s

/-- With nothing applied there is nothing to stage (R273). -/
theorem relieve_idle {s : State} (hnone : ∀ p ∈ s.jr.recs, p.2.completed = false) (k : Nat) : relieve k s = s := by
  cases k with
  | zero => rfl
  | succ k =>
    have hfind : s.jr.recs.find? (fun p => !p.2.staged && p.2.completed && 1 ≤ p.2.typ && p.2.typ ≤ 3 && p.2.zone != 0xFFFFFFFF) = none :=
      List.find?_eq_none.2 (fun p hp => by simp [hnone p hp])
    unfold relieve
    split
    · rfl
    · rw [hfind]

/-- With nothing applied there is nothing to place (R272 to R275). -/
theorem placeApplied_idle {s : State} (hnone : ∀ p ∈ s.jr.recs, p.2.completed = false) : placeApplied s = s := by
  have hfilter : s.jr.recs.filter (fun p => p.2.completed && !p.2.staged && p.2.typ ≤ 3) = [] :=
    List.filter_eq_nil_iff.2 (fun p hp => by simp [hnone p hp])
  unfold placeApplied checkRelief
  rw [hfilter, List.foldl_nil, relieve_idle hnone]
  exact ite_self s

/-- With nothing applied there is nothing to retire (R275). -/
theorem retireNs_idle {s : State} (hnone : ∀ p ∈ s.jr.recs, p.2.completed = false) (nsid : Nat) : retireNs s nsid = s := by
  unfold retireNs
  split
  · rfl
  · rw [List.filter_eq_nil_iff.2 (fun p hp => by simp [hnone p hp]), List.foldl_nil]

/-- An alone record that is not durable yet is not applied by its acknowledgement (R265). -/
theorem settle_not_durable {s : State} {q : Nat} {r : VRec} (hrecs : s.jr.recs = [(q, r)]) (hdurable : r.durable = false) : settle s q = s := by
  have hready : r.ready = false := by simp [VRec.ready, hdurable]
  have hzone : (zonePending s r.nsid r.zidx).takeWhile (fun p => p.2.ready) = [] := by
    unfold zonePending
    rw [hrecs, List.filter_cons, List.filter_nil]
    split <;> simp [hready]
  have hfind : KV.find s.jr.recs q = some r := by simp [hrecs, KV.find]
  simp [settle, hfind, hready, settleZone, hzone]

/-- The acknowledgement of an alone data record that is not durable marks it so, and lets what waits for it go on. -/
theorem acknowledge_alone {s : State} {q : Nat} {r : VRec} (hrecs : s.jr.recs = [(q, r)]) (hdurable : r.durable = false) (htyp : r.typ = 1)
    (hcompleted : r.completed = false) :
    acknowledge s q = wakeZops (setRec s q (fun r => { r with acked := true })) q := by
  have hacked : (setRec s q (fun r => { r with acked := true })).jr.recs = [(q, { r with acked := true })] := by
    simp [setRec, hrecs, KV.adj]
  unfold acknowledge
  generalize setRec s q (fun r => { r with acked := true }) = u at hacked ⊢
  have hfind : KV.find u.jr.recs q = some { r with acked := true } := by simp [hacked, KV.find]
  have hns : nsSettled u q = u := by simp [nsSettled, hfind, htyp]
  have hwoken : (wakeZops u q).jr = u.jr := (zopResult_ended u q .acted).jr
  have hnone : ∀ p ∈ (wakeZops u q).jr.recs, p.2.completed = false := by
    rw [hwoken, hacked]
    simp [hcompleted]
  have hsettle : settle u q = u := settle_not_durable hacked hdurable
  rw [hns]
  unfold recordSettled
  simp only [hsettle, placeApplied_idle hnone, hfind, Option.elim_some, retireNs_idle hnone, ite_self]

theorem tryDepart_ended (s : State) : Ended s (tryDepart s) := by
  unfold tryDepart
  split
  · split
    · exact Ended.refl s
    · refine Ended.trans ?_ (send_ended _ _ _ _)
      exact ⟨rfl, rfl, rfl, rfl, List.prefix_rfl, fun _ h => h⟩
  · exact Ended.refl s

theorem offer_jr (s : State) (nsid : Nat) : (offer s nsid).jr = s.jr := by
  unfold offer
  split
  · exact (send_ended s _ _ _).jr
  · rfl

/-- Offering a transfer changes no record (R318). -/
theorem tryOffer_jr (s : State) : (tryOffer s).jr = s.jr := by
  unfold tryOffer
  split
  · rfl
  · split
    · exact offer_jr s _
    · split
      · exact offer_jr _ _
      · rfl

/-- With no departure under way there is none to send. -/
theorem tryDepart_none {s : State} (h : s.tw.departing = none) : tryDepart s = s := by
  simp [tryDepart, h]

/-- With no transfer under way and no Reshape there is none to offer. -/
theorem tryOffer_none {s : State} (htransfer : s.tw.transfer = none) (hreshape : ∀ p ∈ s.zn.ns, p.2.reshape = none) : tryOffer s = s := by
  have hwanted : wantedTransfer s = none := by
    unfold wantedTransfer
    rw [List.find?_eq_none.2 (fun p hp => by simp [hreshape p hp])]
    rfl
  simp [tryOffer, htransfer, hwanted]

/-- No record that waits was sent under an OSEQ that none has. -/
theorem sentRecs_none {s : State} {oseq : Nat} (h : ∀ p ∈ s.jr.recs, p.2.oseq ≠ oseq) : sentRecs s oseq = [] := by
  unfold sentRecs
  rw [List.filter_eq_nil_iff.2 (fun p hp => by simp [h p hp])]
  rfl

/-! ### The commands -/

theorem exec_mirrorRecord {s : State} {h : MsgHdr} (hreach : Reaches s h 1) (b : MirrorBody) :
    exec (.mirrorRecord h b) s = .next (takeMirror (noted s h) h b) := by
  show execMirrorRecord h b s = _
  rw [execMirrorRecord, peerMsg_reaches hreach]

/-- The state in which an acknowledgement acts: the function's free share on the twin is the one it carries (R268). -/
def credited (s : State) (h : MsgHdr) (f share : Nat) : State :=
  { noted s h with jr := { s.jr with credit := KV.set s.jr.credit f share } }

theorem credited_kept (s : State) (h : MsgHdr) (f share : Nat) : Kept true true s (credited s h f share) := Kept.upd (noted_kept s h) rfl rfl rfl

theorem exec_mirrorAcknowledgement {s : State} {h : MsgHdr} (hreach : Reaches s h 2) (oseq f share : Nat) :
    exec (.mirrorAcknowledgement h oseq f share) s = .next (tryOffer (tryDepart ((sentRecs s oseq).foldl acknowledge (credited s h f share)))) := by
  show execMirrorAcknowledgement h oseq f share s = _
  rw [execMirrorAcknowledgement, peerMsg_reaches hreach]
  rfl

theorem exec_drop {s : State} {h : MsgHdr} (hreach : Reaches s h 0x0A) (oseq : Nat) :
    exec (.drop h oseq) s = .next
      (((s.jr.recs.filter (fun p => p.2.copy && p.2.oseq == oseq && p.2.pepoch == s.jr.pepoch.toNat)).map (fun p => p.1)).foldl dropCopy (noted s h)) := by
  show execDrop h oseq s = _
  rw [execDrop, peerMsg_reaches hreach]
  rfl

/-- Settles O51: a message that reached the module acts on the noted state; a mirror record is taken by `takeMirror`, an acknowledgement by `acknowledge`, a Drop by `dropCopy`. -/
theorem mirroring : Obligations.Mirroring := by
  unfold Obligations.Mirroring
  refine ⟨?kept, ?again, ?applied, ?foreign, ?dropped, ?unknown, ?acknowledged, ?share, ?grant⟩
  case kept =>
    intro s h b n hreach hn hmine hzoned htyp hheld hnew hwt
    obtain ⟨hseq, boot, page, hfind⟩ := storeCopy_record (noted s h) (copyRec (noted s h) n b) hwt rfl rfl
    have hkept : Kept true true s (storeCopy (noted s h) (copyRec (noted s h) n b) true) := storeCopy_kept _ _ (noted_kept s h)
    refine ⟨_, _, ?_, hfind, hseq, htyp, rfl, rfl, rfl, rfl, rfl, rfl, rfl, rfl, rfl, rfl, hkept.content rfl, hkept.core rfl⟩
    rw [exec_mirrorRecord hreach, takeMirror_new (s := noted s h) h hn hmine hzoned htyp hheld hnew]
  case again =>
    intro s h b n x hreach hn hmine htyp hheld
    rw [exec_mirrorRecord hreach, takeMirror_held (s := noted s h) h hn hmine htyp hheld]
    exact ⟨fun hdurable => by simp [hdurable], fun hdurable hacked => by simp [hdurable, hacked]⟩
  case applied =>
    intro s h b n hreach hn hmine _ htyp hheld happlied
    rw [exec_mirrorRecord hreach, takeMirror_applied (s := noted s h) h hn hmine htyp hheld happlied]
  case foreign =>
    intro s h b hreach hforeign
    rw [exec_mirrorRecord hreach, takeMirror_foreign (s := noted s h) h hforeign]
  case dropped =>
    intro s h oseq q r hreach hwf hq hcopy hoseq hpepoch
    refine ⟨_, exec_drop hreach oseq, ?_, ?_⟩
    · rw [foldl_dropCopy_recs]
      refine KV.find_foldl_del _ hwf (.inl (List.mem_map.2 ⟨(q, r), List.mem_filter.2 ⟨KV.mem_of_find hq, ?_⟩, rfl⟩))
      simp [hcopy, hoseq, hpepoch]
    · exact (Kept.foldl (K := true) (noted_kept s h).weakContent (fun _ q hk => dropCopy_kept q hk)).core rfl
  case unknown =>
    intro s h oseq f share hreach hnone hdeparting htransfer hreshape
    rw [exec_mirrorAcknowledgement hreach, sentRecs_none hnone, List.foldl_nil, tryDepart_none (s := credited s h f share) hdeparting,
      tryOffer_none (s := credited s h f share) htransfer hreshape]
    rfl
  case acknowledged =>
    intro s h oseq f share q r hreach hrecs hoseq hmirrored hcopy hacked hdurable htyp hcompleted
    have hsent : sentRecs s oseq = [q] := by simp [sentRecs, hrecs, hmirrored, hcopy, hacked, hoseq]
    have hcredited : (credited s h f share).jr.recs = [(q, r)] := hrecs
    rw [exec_mirrorAcknowledgement hreach, hsent, List.foldl_cons, List.foldl_nil, acknowledge_alone hcredited hdurable htyp hcompleted]
    refine ⟨_, { r with acked := true }, rfl, ?_, rfl, hcompleted, ?_⟩
    · rw [tryOffer_jr, (tryDepart_ended _).jr, wakeZops, (zopResult_ended _ q .acted).jr]
      simp [setRec, hcredited, KV.adj, KV.find]
    · exact (tryOffer_kept (tryDepart_kept (wakeZops_kept q (setRec_kept q _ (credited_kept s h f share))))).content rfl
  case share =>
    intro s h f share drain hreach
    show execShareUpdate h f share drain s = _
    rw [execShareUpdate, peerMsg_reaches hreach]
    rfl
  case grant =>
    intro s h k g hreach
    show ∃ t, execAllotmentGrant h k g s = .next t ∧ _
    rw [execAllotmentGrant, peerMsg_reaches hreach]
    exact ⟨_, rfl, rfl, rfl⟩

end Sys2Proof.Machine

namespace Sys2Proof.Machine

/-! SUPPORT. What leaves the internals of chapter 16 alone: flash media, staging, flags, captures and the mode (R20, R484). -/

/-- Folding an operation that leaves the internals alone leaves them alone. -/
@[simp] theorem it_foldl {α : Type} {f : State → α → State} (h : ∀ s x, (f s x).it = s.it) (l : List α) (s : State) : (l.foldl f s).it = s.it :=
  foldl_field State.it f h l s

/-! ### Block sets and failed passes (R217, R218) -/

@[simp] theorem grownBad_it (s : State) (k plane cont : Nat) : (grownBad s k plane cont).it = s.it := by
  simp [grownBad]

@[simp] theorem bindSet_it (s : State) (k : Nat) (f : BSet → BSet) : (bindSet s k f).it = s.it := by
  simp [bindSet]

@[simp] theorem continueIn_it (s : State) (k c first : Nat) : (continueIn s k c first).it = s.it := by
  simp [continueIn]

@[simp] theorem toErase_it (s : State) (k : Nat) : (toErase s k).it = s.it := by
  unfold toErase
  dsimp only
  split <;> simp

@[simp] theorem toEraseAll_it (s : State) (k : Nat) : (toEraseAll s k).it = s.it := by
  simp [toEraseAll]

@[simp] theorem startCopy_it (s : State) (kind : CopyKind) (src dstDie dst : Nat) : (startCopy s kind src dstDie dst).it = s.it := by
  simp [startCopy]

@[simp] theorem goOn_it (s : State) (k c first : Nat) : (goOn s k c first).it = s.it := by
  unfold goOn
  dsimp only
  split <;> simp

@[simp] theorem requeuePass_it (s : State) (d : Nat) (o : DieOp) (kind : DieOpKind) (wl bset : Nat) : (requeuePass s d o kind wl bset).it = s.it := rfl
@[simp] theorem requeue_it (s : State) (d : Nat) (o : DieOp) (bset : Nat) : (requeue s d o bset).it = s.it := rfl

@[simp] theorem zoneFailed_it (s : State) (d plane : Nat) (last : Bool) (o : DieOp) : (zoneFailed s d plane last o).it = s.it := by
  unfold zoneFailed
  dsimp only
  split
  · simp
  · exact (it_foldl (fun _ _ => requeuePass_it _ _ _ _ _ _) _ _).trans (by simp)

@[simp] theorem rowFailed_it (s : State) (d plane : Nat) (o : DieOp) : (rowFailed s d plane o).it = s.it := by
  unfold rowFailed
  dsimp only
  split <;> simp

@[simp] theorem copyFailed_it (s : State) (c : Copy) (plane : Nat) (last : Bool) : (copyFailed s c plane last).it = s.it := by
  unfold copyFailed
  dsimp only
  split
  · simp
  · split <;> simp

@[simp] theorem passFailed_it (s : State) (d plane : Nat) (last : Bool) (o : DieOp) : (passFailed s d plane last o).it = s.it := by
  unfold passFailed
  split
  · simp
  · cases s.media.copies.find? _ <;> simp
  · simp
  · simp

/-- A channel's reset touches its dies' work alone (R217, R352). -/
@[simp] theorem failChannel_it (s : State) (c : Nat) : (failChannel s c).it = s.it := by
  refine it_foldl (fun s x => ?_) _ s
  cases x.2.claimOp <;> cases x.2.op <;> simp
  all_goals split <;> simp

/-! ### Forming records and staging (R262, R273, R274) -/

@[simp] theorem placeRec_it (s : State) (core pages seq : Nat) : (placeRec s core pages seq).1.it = s.it := by
  unfold placeRec
  split
  · rfl
  · dsimp only
    split <;> rfl

@[simp] theorem movePlace_it (s : State) (q : Nat) : (movePlace s q).it = s.it := by
  unfold movePlace
  split <;> simp

@[simp] theorem compactSegs_it (k : Nat) (s : State) : (compactSegs k s).it = s.it := by
  induction k generalizing s with
  | zero => rfl
  | succ k ih =>
    unfold compactSegs
    split
    · rfl
    · split
      · rfl
      · simp [ih]

@[simp] theorem openSession_it (s : State) : (openSession s).it = s.it := by
  unfold openSession
  split <;> rfl

@[simp] theorem formRecord_it (s : State) (core : Nat) (r : VRec) : (formRecord s core r).1.it = s.it := by
  simp [formRecord]

theorem takeRows_it {s s' : State} {g n b row : Nat} {log : Bool} (h : takeRows s g log n = some (s', b, row)) : s'.it = s.it := by
  unfold takeRows at h
  dsimp only at h
  split at h
  · split at h
    · cases h
      rfl
    · obtain ⟨_, _, hput⟩ := Option.map_eq_some_iff.1 h
      cases hput
      rfl
  · obtain ⟨_, _, hput⟩ := Option.map_eq_some_iff.1 h
    cases hput
    rfl

theorem rowPlace_it {s s' : State} {g b row : Nat} {ns : Option Nat} (h : rowPlace s g ns = some (s', b, row)) : s'.it = s.it := by
  cases ns with
  | some n => exact takeRows_it h
  | none =>
    cases h
    simp

@[simp] theorem releaseRow_it (s : State) (g : Nat) (ns : Option Nat) : (releaseRow s g ns).it = s.it := by
  unfold releaseRow
  dsimp only
  split
  · rfl
  · split
    · rfl
    · rename_i hplace
      simp [rowPlace_it hplace]

@[simp] theorem putUnit_it (s : State) (g : Nat) (ns : Option Nat) (seq u : Nat) : (putUnit s g ns seq u).it = s.it := by
  unfold putUnit
  dsimp only
  split <;> simp

@[simp] theorem appendUnit_it (nsid : Nat) (s : State) (u : Nat) : (appendUnit nsid s u).it = s.it := by
  unfold appendUnit
  split
  · rfl
  · simp

@[simp] theorem mergeUnit_it (nsid : Nat) (s : State) (u : Nat) : (mergeUnit nsid s u).it = s.it := by
  unfold mergeUnit
  split
  · rfl
  · dsimp only
    split
    · rfl
    · rename_i hrows
      simp [takeRows_it hrows]

@[simp] theorem staleMeta_it (s : State) (g : Nat) : (staleMeta s g).it = s.it := by
  simp [staleMeta]

@[simp] theorem freeLog_it (s : State) (nsid : Nat) : (freeLog s nsid).it = s.it := by
  unfold freeLog
  split
  · rfl
  · split
    · rfl
    · simp [moduleRecord]

@[simp] theorem startMerge_it (s : State) (nsid : Nat) : (startMerge s nsid).it = s.it := by
  unfold startMerge
  split
  · rfl
  · split
    · rfl
    · simp

@[simp] theorem stageRec_it (s : State) (seq : Nat) : (stageRec s seq).it = s.it := by
  unfold stageRec
  split
  · rfl
  · split
    · rfl
    · rename_i n _
      dsimp only
      split
      · rfl
      · cases n.zoned <;> split <;> simp

@[simp] theorem stageZone_it (s : State) (nsid i : Nat) : (stageZone s nsid i).it = s.it := by
  unfold stageZone
  split
  · rfl
  · split
    · rfl
    · simp

@[simp] theorem relieve_it (k : Nat) (s : State) : (relieve k s).it = s.it := by
  induction k generalizing s with
  | zero => rfl
  | succ k ih =>
    unfold relieve
    split
    · rfl
    · split
      · rfl
      · simp [ih]

@[simp] theorem checkRelief_it (s : State) : (checkRelief s).it = s.it := by
  unfold checkRelief
  split <;> simp

/-! ### Warnings, captures and the hold-up test (R335, R430) -/

@[simp] theorem refreshCrit_it (s : State) : (refreshCrit s).it = s.it := by
  unfold refreshCrit
  dsimp only
  repeat' split
  all_goals simp

@[simp] theorem capture_it (s : State) (typ : Nat) : (capture s typ).it = s.it := by
  unfold capture
  dsimp only
  split <;> simp

@[simp] theorem completeFor_it (s : State) (owner cid : Nat) (st : Status) (dw0 : Nat) (data : List Nat) : (completeFor s owner cid st dw0 data).it = s.it := by
  unfold completeFor
  split <;> simp

@[simp] theorem sizeJournal_it (s : State) : (sizeJournal s).it = s.it := by
  simp [sizeJournal]

@[simp] theorem endTest_it (s : State) (r : HoldResult) : (endTest s r).it = s.it := by
  simp [endTest]

@[simp] theorem abandonTest_it (s : State) : (abandonTest s).it = s.it := by
  unfold abandonTest
  split
  · rfl
  · dsimp only
    split <;> simp [setUsable]

/-! ### A Quarantine (R40, R46, R54) -/

@[simp] theorem abandonEntry_it (s : State) (trigger : Mode) : (abandonEntry s trigger).it = s.it := by
  unfold abandonEntry
  split
  · rfl
  · dsimp only
    split
    · simp
    · cases s.md.ps4 <;> simp

@[simp] theorem leavePair_it (s : State) : (leavePair s).it = s.it := by
  unfold leavePair
  split <;> simp

end Sys2Proof.Machine

namespace Sys2Proof.Machine

/-! SUPPORT. Which islands are in reset is kept by all that a fault does to commands, the host port and the mode (R20, R484). -/

@[simp] theorem faulted_foldl {α : Type} {f : State → α → State} (h : ∀ s x, (f s x).it.faulted = s.it.faulted) (l : List α) (s : State) :
    (l.foldl f s).it.faulted = s.it.faulted :=
  foldl_field (·.it.faulted) f h l s

@[simp] theorem send_faulted (s : State) (typ tag : Nat) (body : List Nat) : (send s typ tag body).it.faulted = s.it.faulted :=
  (send_ended s typ tag body).faulted

@[simp] theorem endXts_faulted (s : State) (slot : Nat) : (endXts s slot).it.faulted = s.it.faulted := by
  simp [endXts, Engine.drop]

@[simp] theorem dropCmd_faulted (s : State) (slot : Nat) : (dropCmd s slot).it.faulted = s.it.faulted := (dropCmd_ended s slot).faulted

@[simp] theorem finish_faulted (s : State) (slot : Nat) (st : Status) (dw0 dw1 : Nat) (data : List Nat) :
    (finish s slot st dw0 dw1 data).it.faulted = s.it.faulted := (finish_ended s slot st dw0 dw1 data).faulted

/-! ### Writes dropped and commands disposed of (R63, R280) -/

theorem disposeQuiet_ended (s : State) (slot : Nat) : Ended s (disposeQuiet s slot) := by
  unfold disposeQuiet
  split
  · exact Ended.refl s
  · exact (withoutCmd_ended s slot _).trans ((missEvent_ended _ _ _).trans (afterEnd_ended _ _ _ _))

@[simp] theorem disposeQuiet_faulted (s : State) (slot : Nat) : (disposeQuiet s slot).it.faulted = s.it.faulted := (disposeQuiet_ended s slot).faulted

@[simp] theorem removeRec_faulted (s : State) (q : Nat) : (removeRec s q).it.faulted = s.it.faulted := by
  unfold removeRec
  split
  · rfl
  · dsimp only
    split <;> split <;> simp

@[simp] theorem dropWrite_faulted (s : State) (q : Nat) : (dropWrite s q).it.faulted = s.it.faulted := by
  unfold dropWrite
  split
  · rfl
  · rename_i r _
    dsimp only
    split
    · simp
    · split
      · simp
      · have hzone : ∀ u i z, (setZone u r.nsid i z).it = u.it := by simp
        rw [hzone]
        refine (faulted_foldl (fun s p => ?_) _ _).trans (removeRec_faulted s q)
        cases p.2.slot <;> simp

@[simp] theorem undo_faulted (s : State) (slot : Nat) (c : Cmd) : (undo s slot c).it.faulted = s.it.faulted := by
  unfold undo
  dsimp only
  split <;> simp

@[simp] theorem disposeCmd_faulted (s : State) (slot : Nat) : (disposeCmd s slot).it.faulted = s.it.faulted := by
  unfold disposeCmd
  split
  · rfl
  · split <;> simp

/-! ### The reset of the host port (R63, R71) -/

@[simp] theorem resetCtrl_faulted (s : State) (func : Nat) (keepRegs : Bool) : (resetCtrl s func keepRegs).it.faulted = s.it.faulted := by
  simp [resetCtrl, closeZonesOf]

@[simp] theorem hostReset_faulted (s : State) : (hostReset s).it.faulted = s.it.faulted := by
  simp [hostReset, linkGone, resetAll]

/-! ### The effect of a fault (Table 16.5) -/

@[simp] theorem failBuffered_faulted (s : State) : (failBuffered s).it.faulted = s.it.faulted := by
  refine faulted_foldl (fun s p => ?_) _ s
  split
  · split <;> simp
  · simp

@[simp] theorem readAgain_faulted (s : State) : (readAgain s).it.faulted = s.it.faulted := by
  refine faulted_foldl (fun s p => ?_) _ s
  dsimp only
  refine (faulted_foldl (fun s x => faulted_foldl (fun s q => ?_) _ s) _ _).trans (by simp)
  split
  · rfl
  · cases firstSlot _ _ _ _ <;> simp

theorem islandEffect_faulted (s : State) (island channel : Nat) : (islandEffect s island channel).it.faulted = s.it.faulted := by
  unfold islandEffect
  split <;> simp [setRanks]

/-- The mode is among what most commands leave alone. -/
theorem Core.mode {c s : State} (h : Core c s) : s.md.mode = c.md.mode := by
  have hmode := congrArg ModeSt.mode h.md
  exact hmode

/-- No island's fault changes the mode by itself, nor the course of a thermal shut-down. -/
theorem islandEffect_mode (s : State) (island channel : Nat) :
    (islandEffect s island channel).md.mode = s.md.mode ∧ (islandEffect s island channel).th.shut = s.th.shut := by
  have hcore : ∀ {t : State}, Kept true true s t → t.md.mode = s.md.mode ∧ t.th.shut = s.th.shut := fun h => ⟨(h.core rfl).mode, (h.core rfl).shut⟩
  have hk := Kept.refl (K := true) (J := true) s
  unfold islandEffect
  split
  · exact hcore (hostReset_kept hk)
  · exact hcore (Kept.upd hk rfl rfl rfl)
  · exact hcore (readAgain_kept (failBuffered_kept (Kept.upd hk rfl rfl rfl)))
  · exact hcore (setRanks_kept _ hk)
  · exact hcore (failChannel_kept _ hk)
  · have hwarned := (refreshCrit_kept (Kept.refl (K := true) (J := true) (setFlags s (fun m => { m with writeThrough := true })))).core rfl
    exact ⟨by rw [hwarned.mode, setFlags_mode_md], by rw [hwarned.shut, setFlags_th]⟩
  · exact ⟨rfl, rfl⟩

/-! ### A Quarantine (R40, R46, R54) -/

@[simp] theorem endCancel_faulted (s : State) (r : Reshape) : (endCancel s r).it.faulted = s.it.faulted := by
  unfold endCancel
  cases r.cancelCid <;> cases r.cancelTag <;> simp

@[simp] theorem endReshape_faulted (s : State) (nsid : Nat) (st : Status) : (endReshape s nsid st).it.faulted = s.it.faulted := by
  unfold endReshape
  split
  · rfl
  · dsimp only
    split <;> simp [setReshapeZop]

@[simp] theorem dropMoves_faulted (s : State) (m : Mode) : (dropMoves s m).it.faulted = s.it.faulted := by
  unfold dropMoves
  split
  · rfl
  · refine faulted_foldl (fun s p => ?_) _ s
    split <;> simp

@[simp] theorem endTransition_faulted (s : State) : (endTransition s).it.faulted = s.it.faulted := by
  refine faulted_foldl (fun s p => ?_) _ s
  split <;> simp

/-- Quarantine is no mode in which the module operates: what a change to it does beside the mode's own change. -/
theorem toMode_quarantine_faulted (s : State) (cause : Nat) : (toMode s .quarantine cause).it.faulted = s.it.faulted := by
  unfold toMode
  cases hleaves : s.md.mode.operates <;> simp [Mode.operates]

theorem toMode_quarantine (s : State) (cause : Nat) :
    (toMode s .quarantine cause).md.mode = .quarantine ∧ (toMode s .quarantine cause).md.qcause = cause := by
  simp [toMode, Mode.operates]

@[simp] theorem leavePair_mode_md (s : State) : (leavePair s).md.mode = s.md.mode := by
  unfold leavePair
  split <;> simp

@[simp] theorem leavePair_qcause_md (s : State) : (leavePair s).md.qcause = s.md.qcause := by
  unfold leavePair
  split <;> simp

@[simp] theorem capture_mode_md (s : State) (typ : Nat) : (capture s typ).md.mode = s.md.mode := by
  unfold capture
  dsimp only
  split <;> simp

@[simp] theorem capture_qcause_md (s : State) (typ : Nat) : (capture s typ).md.qcause = s.md.qcause := by
  unfold capture
  dsimp only
  split <;> simp

/-- A first cause takes the module to Quarantine with it (R40). -/
theorem toQuarantine_entered {s : State} (hmode : s.md.mode ≠ .quarantine) (cause : Nat) :
    (toQuarantine s cause).md.mode = .quarantine ∧ (toQuarantine s cause).md.qcause = cause := by
  unfold toQuarantine
  rw [if_neg hmode]
  dsimp only
  split <;> simp [toMode_quarantine]

theorem toQuarantine_faulted (s : State) (cause : Nat) : (toQuarantine s cause).it.faulted = s.it.faulted := by
  unfold toQuarantine
  split
  · simp
  · dsimp only
    split <;> split <;> simp [toMode_quarantine_faulted]

/-- A fault takes an operating module to Quarantine with its cause, where no thermal shut-down is under way (R46). -/
theorem faultQuarantine_operating {s : State} (hoperates : s.md.mode.operates = true) (hshut : s.th.shut = 0) (cause : Nat) :
    faultQuarantine s cause = toQuarantine s cause := by
  simp [faultQuarantine, hshut, hoperates]

theorem faultQuarantine_entered {s : State} (hoperates : s.md.mode.operates = true) (hshut : s.th.shut = 0) (cause : Nat) :
    (faultQuarantine s cause).md.mode = .quarantine ∧ (faultQuarantine s cause).md.qcause = cause := by
  rw [faultQuarantine_operating hoperates hshut]
  refine toQuarantine_entered ?_ cause
  intro hmode
  simp [hmode, Mode.operates] at hoperates

/-! ### The fault itself (R20, R484) -/

/-- Where the fault of an island is kept: the channel islands one after another. -/
def faultKey (island channel : Nat) : Nat := island * 32 + (if island = 6 then channel else 0)

/-- The state after an island's fault is recorded and captured and has had its effect, before its repeats are judged. -/
def islandStruck (s : State) (island crossing stallAt channel : Nat) : State :=
  let u := capture (record s 0x22 [island, crossing, stallAt]) 0x22
  islandEffect { u with it := { u.it with
    faults := KV.set u.it.faults (faultKey island channel) (faultsSeen s (faultKey island channel))
    faulted := if u.it.faulted.contains (faultKey island channel) then u.it.faulted else u.it.faulted ++ [faultKey island channel] } } island channel

theorem islandFault_repeated {s : State} {island n cause : Nat} (crossing stallAt channel : Nat) (hlimit : faultLimit island = some (n, cause))
    (hseen : n ≤ (faultsSeen s (faultKey island channel)).length) :
    islandFault s island crossing stallAt channel = faultQuarantine (islandStruck s island crossing stallAt channel) cause := by
  unfold islandFault
  rw [hlimit]
  exact if_pos hseen

theorem islandFault_single {s : State} {island : Nat} (crossing stallAt channel : Nat)
    (hfew : ∀ p, faultLimit island = some p → (faultsSeen s (faultKey island channel)).length < p.1) :
    islandFault s island crossing stallAt channel = islandStruck s island crossing stallAt channel := by
  unfold islandFault
  cases hlimit : faultLimit island with
  | none => rfl
  | some p => exact if_neg (Nat.not_le.2 (hfew p hlimit))

theorem islandStruck_mode (s : State) (island crossing stallAt channel : Nat) :
    (islandStruck s island crossing stallAt channel).md.mode = s.md.mode ∧ (islandStruck s island crossing stallAt channel).th.shut = s.th.shut := by
  have hnoted := (capture_kept (K := true) 0x22 (record_kept 0x22 [island, crossing, stallAt] none 0 0 (Kept.refl (J := true) s))).core rfl
  obtain ⟨hmode, hshut⟩ := islandEffect_mode { capture (record s 0x22 [island, crossing, stallAt]) 0x22 with it := _ } island channel
  exact ⟨hmode.trans hnoted.mode, hshut.trans hnoted.shut⟩

/-- The fault is kept until the island's reset ends. -/
theorem islandStruck_faulted (s : State) (island crossing stallAt channel : Nat) :
    (islandStruck s island crossing stallAt channel).it.faulted.contains (faultKey island channel) = true := by
  unfold islandStruck
  dsimp only
  rw [islandEffect_faulted]
  dsimp only
  split
  · assumption
  · simp

end Sys2Proof.Machine

namespace Sys2Proof.Machine

/-! SUPPORT. The scratchpad's banks under the memory test, the copies of time and the data of a record that is hit (R21, R22, R284, R472 to R478). -/

/-! ### Banks and words (R472, R475) -/

@[simp] theorem bankOf_setBank (s : State) (bank : Nat) (f : Bank → Bank) : bankOf (setBank s bank f) bank = f (bankOf s bank) := by
  simp [bankOf, setBank, KV.findD, KV.find_upd_self]

/-- From `c` to `s` words of the scratchpad may have been written, nothing else. -/
def WordsOnly (c s : State) : Prop := ∃ pad, s = { c with it := { c.it with pad := pad } }

theorem WordsOnly.trans {a b c : State} (h : WordsOnly a b) (k : WordsOnly b c) : WordsOnly a c := by
  obtain ⟨_, rfl⟩ := h
  obtain ⟨_, rfl⟩ := k
  exact ⟨_, rfl⟩

theorem WordsOnly.foldl {α : Type} {f : State → α → State} (h : ∀ s x, WordsOnly s (f s x)) (l : List α) (s : State) : WordsOnly s (l.foldl f s) := by
  induction l generalizing s with
  | nil => exact ⟨_, rfl⟩
  | cons x l ih => exact (h s x).trans (ih _)

theorem WordsOnly.bankOf_eq {c s : State} (h : WordsOnly c s) (bank : Nat) : bankOf s bank = bankOf c bank := by
  obtain ⟨_, rfl⟩ := h
  rfl

theorem PadPart.store_words (s : State) (p : PadPart) : WordsOnly s (PadPart.store s p) := by
  unfold PadPart.store
  cases p.write with
  | none => exact ⟨_, rfl⟩
  | some v => exact ⟨_, rfl⟩

/-- Accesses write words alone (R473). -/
theorem padAccesses_words (s : State) (bank : Nat) (as : List PadAccess) : WordsOnly s (padAccesses s bank as).2 :=
  (WordsOnly.foldl PadPart.store_words _ _).trans (WordsOnly.foldl PadPart.store_words _ _)

/-- From `c` to `s` words and banks of the scratchpad may have changed, nothing else. -/
def BanksOnly (c s : State) : Prop := ∃ banks pad, s = { c with it := { c.it with banks := banks, pad := pad } }

theorem BanksOnly.trans {a b c : State} (h : BanksOnly a b) (k : BanksOnly b c) : BanksOnly a c := by
  obtain ⟨_, _, rfl⟩ := h
  obtain ⟨_, _, rfl⟩ := k
  exact ⟨_, _, rfl⟩

theorem BanksOnly.refl (s : State) : BanksOnly s s := ⟨_, _, rfl⟩

theorem WordsOnly.banks {c s : State} (h : WordsOnly c s) : BanksOnly c s := by
  obtain ⟨_, rfl⟩ := h
  exact ⟨_, _, rfl⟩

theorem setBank_banks (s : State) (bank : Nat) (f : Bank → Bank) : BanksOnly s (setBank s bank f) := ⟨_, _, rfl⟩

/-! ### Lending, restoring, handing back (R476, R477) -/

/-- A hand-over changes nothing but the bank's owner (R472). -/
theorem handOver_bank (s : State) (bank : Nat) (o : Owner) :
    BanksOnly s (handOver s bank o) ∧ ∃ o', bankOf (handOver s bank o) bank = { bankOf s bank with owner := o' } := by
  unfold handOver
  split
  · exact ⟨BanksOnly.refl s, _, rfl⟩
  · exact ⟨setBank_banks _ _ _, _, bankOf_setBank _ _ _⟩

theorem restoreChunk_banks (s : State) (bank : Nat) : BanksOnly s (restoreChunk s bank) :=
  (WordsOnly.foldl (fun _ _ => ⟨_, rfl⟩) _ _).banks.trans (setBank_banks _ _ _)

/-- Once its words are restored a bank has none displaced (R477). -/
theorem restoreChunk_bank (s : State) (bank : Nat) : bankOf (restoreChunk s bank) bank = { bankOf s bank with shadow := [], displaced := false } := by
  have hwords : WordsOnly s ((List.range (bankOf s bank).shadow.length).foldl
      (fun u i => setPadWord u (chunkWord bank (bankOf s bank).chunk + i) (nth (bankOf s bank).shadow i)) s) := WordsOnly.foldl (fun _ _ => ⟨_, rfl⟩) _ _
  unfold restoreChunk
  dsimp only
  rw [bankOf_setBank, hwords.bankOf_eq]

/-- A bank handed back is lent no more (R477). -/
theorem handBack_bank (s : State) (bank : Nat) :
    BanksOnly s (handBack s bank) ∧ ∃ o, bankOf (handBack s bank) bank = { bankOf s bank with owner := o, lent := false, lender := none, chunk := 0 } := by
  obtain ⟨hbanks, o, ho⟩ := handOver_bank s bank ((bankOf s bank).lender.getD (resetOwner bank))
  refine ⟨hbanks.trans (setBank_banks _ _ _), o, ?_⟩
  unfold handBack
  dsimp only
  rw [bankOf_setBank, ho]

/-- A bank that is lent keeps its spare rows (R476, R478). -/
theorem lendBank_bank (s : State) (bank : Nat) :
    BanksOnly s (lendBank s bank) ∧ (bankOf (lendBank s bank) bank).lent = true ∧ (bankOf (lendBank s bank) bank).spares = (bankOf s bank).spares := by
  unfold lendBank
  split
  · exact ⟨BanksOnly.refl s, ‹_›, rfl⟩
  · obtain ⟨hbanks, o, ho⟩ := handOver_bank s bank .testEngine
    refine ⟨hbanks.trans (setBank_banks _ _ _), ?_, ?_⟩
    · rw [bankOf_setBank]
    · rw [bankOf_setBank, ho]

/-- Taking up a chunk draws the free value that the march leaves in its words. -/
theorem displaceChunk_bank (s : State) (bank chunk : Nat) :
    BanksOnly { s with free := s.free + 1 } (displaceChunk s bank chunk) ∧ (bankOf (displaceChunk s bank chunk) bank).lent = (bankOf s bank).lent ∧
      (bankOf (displaceChunk s bank chunk) bank).spares = (bankOf s bank).spares := by
  have hwords : WordsOnly { s with free := s.free + 1 } ((List.range 32).foldl
      (fun u i => setPadWord u (chunkWord bank chunk + i) ((drawFree s).1 % 2^64)) (drawFree s).2) := WordsOnly.foldl (fun _ _ => ⟨_, rfl⟩) _ _
  unfold displaceChunk
  dsimp only
  refine ⟨hwords.banks.trans (setBank_banks _ _ _), ?_, ?_⟩
  · rw [bankOf_setBank, hwords.bankOf_eq]
    rfl
  · rw [bankOf_setBank, hwords.bankOf_eq]
    rfl

/-- A round of the test touches the scratchpad and may draw a free value; after 2,048 chunks the bank is handed back (R476, R478). -/
theorem testBank_bank (s : State) (bank chunks failing : Nat) :
    (bankOf (testBank s bank chunks failing) bank).lent = decide (chunks ≠ 2048) ∧
      (bankOf (testBank s bank chunks failing) bank).spares = min 8 ((bankOf s bank).spares + failing) ∧
      ∃ banks pad free, testBank s bank chunks failing = { s with it := { s.it with banks := banks, pad := pad }, free := free } := by
  obtain ⟨hlend, hlent, hspares⟩ := lendBank_bank s bank
  have hmarched : BanksOnly s (setBank (restoreChunk (lendBank s bank) bank) bank (fun b => { b with spares := min 8 (b.spares + failing) })) :=
    hlend.trans ((restoreChunk_banks _ _).trans (setBank_banks _ _ _))
  have hbank : bankOf (setBank (restoreChunk (lendBank s bank) bank) bank (fun b => { b with spares := min 8 (b.spares + failing) })) bank =
      { bankOf (lendBank s bank) bank with shadow := [], displaced := false, spares := min 8 ((bankOf s bank).spares + failing) } := by
    rw [bankOf_setBank, restoreChunk_bank, hspares]
  unfold testBank
  dsimp only
  split
  · rename_i hlast
    obtain ⟨hbanks, o, ho⟩ := handBack_bank (setBank (restoreChunk (lendBank s bank) bank) bank (fun b => { b with spares := min 8 (b.spares + failing) })) bank
    obtain ⟨banks, pad, hback⟩ := hmarched.trans hbanks
    exact ⟨by rw [ho]; simp [hlast], by rw [ho, hbank], banks, pad, s.free, hback⟩
  · rename_i hnotLast
    obtain ⟨hbanks, hstays, hsame⟩ := displaceChunk_bank (setBank (restoreChunk (lendBank s bank) bank) bank (fun b => { b with spares := min 8 (b.spares + failing) })) bank chunks
    refine ⟨by rw [hstays, hbank, hlent]; simp [hnotLast], by rw [hsame, hbank], ?_⟩
    obtain ⟨_, _, hmarch⟩ := hmarched
    obtain ⟨banks, pad, htaken⟩ := hbanks
    rw [htaken, hmarch]
    exact ⟨banks, pad, _, rfl⟩

/-- A bank that may be tested, with no other lent, is tested; a ninth failing cell is a fault (R476, R478). -/
theorem execMemoryTestRound_tested {s : State} {bank chunks failing : Nat} (hrails : s.sup.rails = true) (hmay : mayTest s bank = true)
    (halone : ∀ b ∈ s.it.banks, b.1 ≠ bank → b.2.lent = false) (hchunks : chunks ≤ 2048)
    (hforward : (bankOf s bank).lent = true → (bankOf s bank).chunk ≤ chunks) :
    execMemoryTestRound bank chunks failing s =
      .next (if 8 < (bankOf s bank).spares + failing then faultQuarantine (testBank s bank chunks failing) 4 else testBank s bank chunks failing) := by
  have hothers : s.it.banks.any (fun x => x.1 != bank && x.2.lent) = false := by
    rw [List.any_eq_false]
    intro b hb
    by_cases h : b.1 = bank
    · simp [h]
    · simp [halone b hb h]
  have hback : ((bankOf s bank).lent && decide (chunks < (bankOf s bank).chunk)) = false := by
    cases hlent : (bankOf s bank).lent with
    | false => rfl
    | true => simpa using hforward hlent
  unfold execMemoryTestRound
  dsimp only
  rw [if_neg]
  simp [hrails, hmay, hothers, hback, hchunks]

/-! ### A lent bank that is accessed (R477) -/

/-- An access of the lending owner inside the bank cancels the test. -/
theorem execMemoryTestCancel_cancelled {s : State} {bank : Nat} {accesses : List PadAccess} {a : PadAccess} (hlent : (bankOf s bank).lent = true)
    (ha : a ∈ accesses) (howner : ownerHolds ((bankOf s bank).lender.getD (resetOwner bank)) a.who = true) (hin : padInBank a = true) :
    ∃ t, execMemoryTestCancel ⟨bank, accesses⟩ s = .next t ∧ t = { s with it := t.it } ∧ (bankOf t bank).lent = false ∧ (bankOf t bank).displaced = false ∧
      (bankOf t bank).cancels = (bankOf s bank).cancels + 1 := by
  have hok : ((accesses.filter (fun a => ownerHolds ((bankOf s bank).lender.getD (resetOwner bank)) a.who)).filter padInBank).isEmpty = false := by
    rw [List.isEmpty_eq_false_iff_exists_mem]
    exact ⟨a, List.mem_filter.2 ⟨List.mem_filter.2 ⟨ha, howner⟩, hin⟩⟩
  unfold execMemoryTestCancel
  dsimp only
  rw [if_neg (by simp [hlent]), if_neg (by rw [hok]; simp)]
  generalize hfaulted : ({ s with it := { s.it with padFaults := _ } } : State) = u
  have hsame : bankOf u bank = bankOf s bank := by rw [← hfaulted]; rfl
  obtain ⟨hbanks, o, ho⟩ := handBack_bank (restoreChunk u bank) bank
  have hwords := padAccesses_words (setBank (handBack (restoreChunk u bank) bank) bank (fun b => { b with cancels := b.cancels + 1 })) bank
    ((accesses.filter (fun a => ownerHolds ((bankOf s bank).lender.getD (resetOwner bank)) a.who)).filter padInBank)
  refine ⟨_, rfl, ?_, ?_⟩
  · obtain ⟨_, _, hpads⟩ := ((restoreChunk_banks u bank).trans (hbanks.trans (setBank_banks _ bank (fun b => { b with cancels := b.cancels + 1 })))).trans hwords.banks
    rw [hpads, ← hfaulted]
  · have hbank := hwords.bankOf_eq bank
    rw [bankOf_setBank, ho, restoreChunk_bank, hsame] at hbank
    refine ⟨?_, ?_, ?_⟩
    · exact congrArg Bank.lent hbank
    · exact congrArg Bank.displaced hbank
    · exact congrArg Bank.cancels hbank

/-- Accesses of others alone raise their faults and leave the test running. -/
theorem execMemoryTestCancel_others {s : State} {bank : Nat} {accesses : List PadAccess} (hlent : (bankOf s bank).lent = true)
    (hothers : ∀ a ∈ accesses, ownerHolds ((bankOf s bank).lender.getD (resetOwner bank)) a.who = false) :
    execMemoryTestCancel ⟨bank, accesses⟩ s =
      .next { s with it := { s.it with padFaults := s.it.padFaults ++ accesses.map (fun a => (a.who, PadFault.access)) } } := by
  have hmine : accesses.filter (fun a => ownerHolds ((bankOf s bank).lender.getD (resetOwner bank)) a.who) = [] :=
    List.filter_eq_nil_iff.2 (fun a ha => by simp [hothers a ha])
  have htheirs : accesses.filter (fun a => !ownerHolds ((bankOf s bank).lender.getD (resetOwner bank)) a.who) = accesses :=
    List.filter_eq_self.2 (fun a ha => by simp [hothers a ha])
  simp [execMemoryTestCancel, hlent, hmine, htheirs]

/-! ### Copies of time (R21, R22) -/

theorem nth_modAt_self {l : List Nat} {i : Nat} (h : i < l.length) (f : Nat → Nat) : nth (modAt l i f) i = f (nth l i) := by
  simp [nth, modAt, h]

theorem nth_modAt_other (l : List Nat) {i j : Nat} (h : j ≠ i) (f : Nat → Nat) : nth (modAt l i f) j = nth l j := by
  simp [nth, modAt, Ne.symm h]

/-! ### The data of a record is hit (R284) -/

theorem lbaKey_inj {nsid a b : Nat} (h : lbaKey nsid a = lbaKey nsid b) : a = b := Nat.add_left_cancel h

theorem readLba_storeLba_self {s : State} (hwf : KV.WF s.zn.store) (nsid lba : Nat) (b : Blk) : readLba (storeLba s nsid lba b) nsid lba = b :=
  KV.findD_put_self hwf _ _

theorem readLba_storeLba_other (s : State) {nsid a lba : Nat} (h : a ≠ lba) (b : Blk) : readLba (storeLba s nsid lba b) nsid a = readLba s nsid a :=
  KV.findD_put_other _ _ (fun hkey => h (lbaKey_inj hkey))

/-- Mark an LBA lost with the content it had (R227). -/
def markLost (s : State) (nsid lba : Nat) : State := storeLba s nsid lba { readLba s nsid lba with lost := true }

/-- Marking the LBAs of a range one after another marks each of them, and no other of the namespace. -/
theorem foldl_markLost {s : State} (hcanon : KV.Canon {} s.zn.store) (nsid slba n : Nat) :
    KV.Canon {} ((List.range n).foldl (fun s i => markLost s nsid (slba + i)) s).zn.store ∧
      ∀ i, readLba ((List.range n).foldl (fun s i => markLost s nsid (slba + i)) s) nsid (slba + i) =
        if i < n then { readLba s nsid (slba + i) with lost := true } else readLba s nsid (slba + i) := by
  induction n with
  | zero => exact ⟨hcanon, fun i => rfl⟩
  | succ n ih =>
    obtain ⟨hcanon', hread⟩ := ih
    rw [List.range_succ, List.foldl_append, List.foldl_cons, List.foldl_nil]
    generalize (List.range n).foldl (fun s i => markLost s nsid (slba + i)) s = u at hcanon' hread
    refine ⟨KV.canon_put hcanon' _ _, fun i => ?_⟩
    unfold markLost
    by_cases hi : i = n
    · subst hi
      rw [readLba_storeLba_self hcanon'.1, hread, if_neg (Nat.lt_irrefl i), if_pos (Nat.lt_succ_self i)]
    · rw [readLba_storeLba_other _ (by omega), hread]
      simp only [show i < n + 1 ↔ i < n by omega]

/-- A record's data that cannot be fetched is lost: each of its LBAs keeps its content with the mark. -/
theorem loseRecord_lost {s : State} {r : VRec} {n : Ns} (hcanon : KV.Canon {} s.zn.store) (hn : nsOf s r.nsid = some n) (hfetch : canFetch s n = false) :
    ∀ i, i < r.nlb → readLba (loseRecord s r) r.nsid (r.slba + i) = { readLba s r.nsid (r.slba + i) with lost := true } := by
  intro i hi
  obtain ⟨-, hread⟩ := foldl_markLost hcanon r.nsid r.slba r.nlb
  have hlisted := (listLost_kept (K := true) (J := true) r.nsid r.slba r.nlb 2 0x3F n.mirrored
    (Kept.refl ((List.range r.nlb).foldl (fun s i => markLost s r.nsid (r.slba + i)) s))).content rfl
  have hlost := hread i
  rw [if_pos hi] at hlost
  unfold loseRecord
  simp only [hn, hfetch, Bool.false_eq_true, if_false]
  unfold readLba at hlost ⊢
  exact (congrArg (fun st => KV.findD st (lbaKey r.nsid (r.slba + i)) ({} : Blk)) hlisted).trans hlost

/-! ### The commands -/

/-- The faults seen of an island are those of the last hour and the one now (R484). -/
theorem faultsSeen_length (s : State) (key : Nat) :
    (faultsSeen s key).length = ((KV.findD s.it.faults key []).filter (fun t => s.time.dtb < t + 3600000000000)).length + 1 := by
  simp [faultsSeen]

theorem execIslandFault_taken {s : State} {island ch : Nat} (hisland : island < islands) (hch : ch < 32) (hrails : s.sup.rails = true) (x st : Nat) :
    execIslandFault island x st ch s = .next (islandFault s island x st ch) := by
  unfold execIslandFault
  rw [if_neg]
  simp [hisland, hch, hrails]

/-- An error in another region of DRAM is rebuilt from flash, or is a fault (R284). -/
theorem execDramUncorrectableError_region {s : State} {ch : Nat} (hrails : s.sup.rails = true) (hch : ch ≤ 3) (q : Nat) (ok : Bool) :
    execDramUncorrectableError ch 5 q ok s = .next (if ok then s else faultQuarantine s 4) := by
  unfold execDramUncorrectableError
  rw [if_neg (by simp [hrails, hch]), if_pos rfl]

/-- An error in the data of a record is recorded, and the data is fetched or lost (R284). -/
theorem execDramUncorrectableError_data {s : State} {ch part q : Nat} {r : VRec} (hrails : s.sup.rails = true) (hch : ch ≤ 3) (hpart : part = 2 ∨ part = 3)
    (hr : KV.find s.jr.recs q = some r) (ok : Bool) :
    execDramUncorrectableError ch part q ok s = .next (loseRecord (record s 0x39 [ch, part, r.oseq]) r) := by
  unfold execDramUncorrectableError
  rw [if_neg (by simp [hrails, hch]), if_neg (by omega), hr]
  exact if_pos (by rcases hpart with rfl | rfl <;> rfl)

/-- A correction writes one copy: not back, nor below the master (R22). -/
theorem execTimeCorrection_taken {s : State} {copy reading : Nat} (hcopy : copy < copyIx islands 0) (hmaster : copy ≠ copyIx 7 0)
    (hruns : counterRuns s = true) (hahead : reading ≤ s.time.dtb + 20) (hbehind : s.time.dtb ≤ reading + 20) :
    execTimeCorrection copy reading s = .next { s with time := { s.time with copies := modAt s.time.copies copy (fun old =>
      if s.time.dtb < old then old else max reading s.time.dtb) } } := by
  unfold execTimeCorrection
  rw [if_neg]
  simp [hmaster, hruns, hcopy, hahead, hbehind]

/-- Settles O47: the memory test by `testBank`, the islands by `islandStruck` and the Quarantine that may follow it, the others by their commands' equations. -/
theorem internalsAndIslands : Obligations.InternalsAndIslands := by
  unfold Obligations.InternalsAndIslands
  refine ⟨?tested, ?ninth, ?cancelled, ?others, ?patrol, ?rebuilt, ?notRebuilt, ?lost, ?corrected, ?repeated, ?single, ?reset,
    ?management, ?security, ?stopped, ?address, ?addressed⟩
  case tested =>
    intro s bank chunks failing hrails _ hmay halone hchunks hforward hspares
    obtain ⟨hlent, hcells, _, _, _, hround⟩ := testBank_bank s bank chunks failing
    refine ⟨testBank s bank chunks failing, (execMemoryTestRound_tested hrails hmay halone hchunks hforward).trans ?_, hlent, ?_, ?_⟩
    · rw [if_neg (Nat.not_lt.2 hspares)]
    · rw [hcells, Nat.min_eq_right hspares]
    · rw [hround]
  case ninth =>
    intro s bank chunks failing hrails hoperates hshut hmay halone hchunks hforward hspares
    obtain ⟨-, -, _, _, _, hround⟩ := testBank_bank s bank chunks failing
    refine ⟨_, (execMemoryTestRound_tested hrails hmay halone hchunks hforward).trans (congrArg Host.Outcome.next (if_pos hspares)), ?_⟩
    exact faultQuarantine_entered (by rw [hround]; exact hoperates) (by rw [hround]; exact hshut) 4
  case cancelled =>
    intro s bank accesses a hlent ha howner hin
    obtain ⟨t, hexec, hit, hback, hrestored, hcancels⟩ := execMemoryTestCancel_cancelled hlent ha howner hin
    exact ⟨t, hexec, hback, hrestored, hcancels, hit⟩
  case others =>
    intro s bank accesses hlent hothers
    exact execMemoryTestCancel_others hlent hothers
  case patrol =>
    intro s n hrails hmode
    show execPatrolScrub n s = _
    simp [execPatrolScrub, hrails, hmode]
  case rebuilt =>
    intro s ch q hrails hch
    exact execDramUncorrectableError_region hrails hch q true
  case notRebuilt =>
    intro s ch q hrails hch hoperates hshut
    exact ⟨_, execDramUncorrectableError_region hrails hch q false, faultQuarantine_entered hoperates hshut 4⟩
  case lost =>
    intro s ch part q ok r n hcanon hrails hch hpart hr hn hmode
    have hzn : (record s 0x39 [ch, part, r.oseq]).zn = s.zn := record_zn _ _ _ _ _ _
    refine ⟨_, execDramUncorrectableError_data hrails hch hpart hr ok, fun i hi => ?_⟩
    rw [loseRecord_lost (n := n) (by rw [hzn]; exact hcanon) (by unfold nsOf; rw [hzn]; exact hn) (by simp [canFetch, hmode]) i hi]
    unfold readLba
    rw [hzn]
  case corrected =>
    intro s copy reading hcopy hmaster hruns hahead hbehind hlength
    refine ⟨_, execTimeCorrection_taken hcopy hmaster hruns hahead hbehind, ?_⟩
    dsimp only
    rw [nth_modAt_self hlength]
    refine ⟨?_, fun h => if_pos h, ?_, fun i hi => nth_modAt_other _ hi _, rfl⟩
    · split <;> omega
    · split <;> omega
  case repeated =>
    intro s island x st ch n cause hisland hch hrails hoperates hshut hlimit hseen
    obtain ⟨hmode, hcourse⟩ := islandStruck_mode s island x st ch
    obtain ⟨hentered, hcause⟩ := faultQuarantine_entered (s := islandStruck s island x st ch) (by rw [hmode]; exact hoperates) (by rw [hcourse]; exact hshut) cause
    refine ⟨_, (execIslandFault_taken hisland hch hrails x st).trans (congrArg Host.Outcome.next
      (islandFault_repeated x st ch hlimit (by rw [faultsSeen_length]; exact hseen))), hentered, hcause, ?_⟩
    rw [faultQuarantine_operating (by rw [hmode]; exact hoperates) (by rw [hcourse]; exact hshut), toQuarantine_faulted]
    exact islandStruck_faulted s island x st ch
  case single =>
    intro s island x st ch hisland hch hrails hfew
    refine ⟨_, (execIslandFault_taken hisland hch hrails x st).trans (congrArg Host.Outcome.next
      (islandFault_single x st ch (fun p hp => by rw [faultsSeen_length]; exact hfew p hp))), (islandStruck_mode s island x st ch).1, ?_⟩
    exact islandStruck_faulted s island x st ch
  case reset =>
    intro s island ch hcal halways hfaulted
    show execIslandResetComplete island ch s = _
    unfold execIslandResetComplete
    dsimp only
    rw [hfaulted, if_neg (by simp), if_neg hcal, if_neg halways]
  case management =>
    intro s core hrails hfirst hlast hruns
    show execManagementCoreWatchdog core s = _
    unfold execManagementCoreWatchdog
    rw [if_neg (by simp [hrails, hfirst, hlast, hruns])]
    rfl
  case security =>
    intro s hrails hruns
    show execSecurityCoreWatchdog s = _
    unfold execSecurityCoreWatchdog
    rw [if_neg (by simp [hrails, hruns])]
    rfl
  case stopped =>
    intro s core hstopped
    show execManagementCoreWatchdog core s = _
    simp [execManagementCoreWatchdog, hstopped]
  case address =>
    intro s d hrails hnone
    show execI3cAddressAssignment d s = _
    simp [execI3cAddressAssignment, hrails, hnone]
  case addressed =>
    intro s d hsome
    show execI3cAddressAssignment d s = _
    simp [execI3cAddressAssignment, Option.isSome_iff_ne_none.2 hsome]

end Sys2Proof.Machine

namespace Sys2Proof.Machine

/-! SUPPORT. Reset, power good and the other supply events (R41, R44, R364, R491). -/

/-- At reset the PF's controller alone is listed: every other reads as the default (Table 3.4). -/
theorem ctrl_reset_vf {f : Nat} (hf : 1 ≤ f) : ctrl State.reset f = {} := by
  have hnone : KV.find State.reset.port.ctrls f = none := if_neg (by omega)
  rw [ctrl, KV.findD, hnone]
  rfl

/-- Settles O3: the fields of `State.reset` are read off, and of the controllers it lists the PF's alone. -/
theorem resetLeaves : Obligations.ResetLeaves := by
  unfold Obligations.ResetLeaves
  exact ⟨rfl, rfl, rfl, rfl, rfl, rfl, rfl, rfl, rfl, fun _ hf => ctrl_reset_vf hf, rfl, rfl, rfl, rfl, rfl, rfl, rfl, rfl, rfl, rfl, rfl⟩

/-! ### What a Measure entry clears, and what it keeps (R358, R366) -/

/-- Ending the dies' work and the partial copies touches neither content nor the boot state nor the supply. -/
theorem clearVolatile_parts (s : State) (powerGood : Bool) :
    (clearVolatile s powerGood).boot = bootAtMeasure s.boot ∧ (clearVolatile s powerGood).sup = s.sup ∧
      (clearVolatile s powerGood).keys.keks = [] ∧ (clearVolatile s powerGood).zn.store = s.zn.store := by
  have hended : Kept true true s (s.media.rebuilds.foldl dropPartial (resetDies s)) :=
    Kept.foldl (resetDies_kept (Kept.refl s)) (fun _ r h => dropPartial_kept r h)
  unfold clearVolatile
  generalize s.media.rebuilds.foldl dropPartial (resetDies s) = u at hended ⊢
  obtain ⟨-, hboot, -, hsup, -⟩ := hended.core rfl
  exact ⟨congrArg bootAtMeasure hboot, hsup, rfl, hended.content rfl⟩

/-- Where the store is the same every LBA reads as it did. -/
theorem sameContent_of_store {s t : State} (h : t.zn.store = s.zn.store) : SameContent s t := fun nsid lba =>
  congrArg (fun store => KV.findD store (lbaKey nsid lba) ({} : Blk)) h

/-- Beginning an Almanac entry advances the boot counter, and neither measures anything nor raises the minimum SVN (R364, R366). -/
theorem beginEntry_boot (s : State) (cause : Nat) :
    (beginEntry s cause).boot.boot = s.boot.boot + 1 ∧ (beginEntry s cause).boot.cause = cause ∧ (beginEntry s cause).boot.regs = s.boot.regs ∧
      (beginEntry s cause).boot.minSvn = s.boot.minSvn := ⟨rfl, rfl, rfl, rfl⟩

/-! ### Power good (R41, R489) -/

/-- What power good leaves of `s` and what it sets (R41, R435, R489). -/
structure PoweredOn (s : State) (feedA feedB slotid : Nat) (u : State) : Prop where
  sup : u.sup = supplyAtPowerGood s.sup feedA feedB slotid
  boot : u.boot = bootAtMeasure s.boot
  mode : u.md.mode = .measure
  writeThrough : u.md.writeThrough = true
  timeDisc : u.md.timeDisc = true
  dtb : u.time.dtb = 0
  cmds : u.port.cmds = []
  keks : u.keys.keks = []
  content : SameContent s u

/-- From off a feed in range starts the rails, with PWRDIS low and the module mated; the boot's Almanac entry is begun (R366, R489). -/
theorem execPowerGood_starts {s : State} {a b : Nat} (hoff : s.sup.rails = false) (hfeed : 360 ≤ a ∨ 360 ≤ b) (slot : Nat) :
    ∃ u, PoweredOn s a b slot u ∧ execPowerGood a b ⟨slot, false, true⟩ s = .next (refreshPower (beginEntry u 0)) := by
  have hlow : (decide (a < 360) && decide (b < 360)) = false := by
    simp only [Bool.and_eq_false_iff, decide_eq_false_iff_not]
    omega
  obtain ⟨hboot, hsup, hkeks, hstore⟩ := clearVolatile_parts s true
  unfold execPowerGood
  rw [if_neg (by simp [hoff, hlow])]
  generalize clearVolatile s true = u at hboot hsup hkeks hstore ⊢
  refine ⟨_, ?_, rfl⟩
  exact ⟨by rw [← hsup], hboot, rfl, rfl, rfl, rfl, rfl, hkeks, sameContent_of_store hstore⟩

/-- Otherwise the module stays off (R489, R495). -/
theorem execPowerGood_stays {s : State} {a b : Nat} {pwrdis mated : Bool} (h : (a < 360 ∧ b < 360) ∨ pwrdis = true ∨ mated = false) (slot : Nat) :
    execPowerGood a b ⟨slot, pwrdis, mated⟩ s = .next s := by
  unfold execPowerGood
  rw [if_pos]
  rcases h with ⟨ha, hb⟩ | h | h
  · simp [ha, hb]
  · simp [h]
  · simp [h]

/-! ### The other supply events (R44, R491) -/

/-- A feed's crossing takes the feeds as measured; its record leaves the mode, the namespaces, the journal and the boot state as they are (R491). -/
theorem execSupplyEvent_measured {s : State} {a b : Nat} (hrails : s.sup.rails = true) (ha : a ≤ 1000) (hb : b ≤ 1000) (kind : Nat) :
    ∃ t, execSupplyEvent kind a b s = .next t ∧ t.sup = { s.sup with feedA := a, feedB := b, aOk := decide (360 ≤ a), bOk := decide (360 ≤ b) } ∧
      t.md.mode = s.md.mode ∧ t.zn = s.zn ∧ t.jr = s.jr ∧ t.boot = s.boot := by
  have hfeeds : setFeeds s a b = { s with sup := { s.sup with feedA := a, feedB := b, aOk := decide (360 ≤ a), bOk := decide (360 ≤ b) } } := by
    rw [setFeeds, Nat.min_eq_left (by omega : a ≤ 1023), Nat.min_eq_left (by omega : b ≤ 1023)]
  unfold execSupplyEvent
  rw [if_neg (by simp [hrails]), if_neg (by omega)]
  dsimp only
  refine ⟨_, rfl, ?_⟩
  rw [hfeeds]
  split <;> simp

/-- Settles O8: power good by `execPowerGood_starts` and the Almanac entry it begins; a loss by `railsOff`; a crossing by `setFeeds` and its record. -/
theorem supplyEvents : Obligations.SupplyEvents := by
  unfold Obligations.SupplyEvents
  refine ⟨?starts, ?stays, ?loss, ?crossing, ?beyond⟩
  case starts =>
    intro s a b slot hoff hfeed
    obtain ⟨u, h, hexec⟩ := execPowerGood_starts hoff hfeed slot
    obtain ⟨hnumber, hcause, hregs, hsvn⟩ := beginEntry_boot u 0
    have hsup : (refreshPower (beginEntry u 0)).sup = supplyAtPowerGood s.sup a b slot := (refreshPower_sup _).trans h.sup
    refine ⟨_, hexec, ?_⟩
    rw [hsup, refreshPower_boot, hnumber, hcause, hregs, hsvn, h.boot, refreshPower_mode_md, refreshPower_writeThrough_md, refreshPower_timeDisc_md,
      refreshPower_time, refreshPower_cmds_port, refreshPower_keys]
    exact ⟨rfl, rfl, rfl, rfl, rfl, rfl, h.mode, h.writeThrough, h.timeDisc, h.dtb, rfl, rfl, rfl, rfl, h.cmds, h.keks,
      fun nsid lba => (sameContent_of_store (refreshPower_store _) nsid lba).trans (h.content nsid lba)⟩
  case stays =>
    intro s a b slot pwrdis mated _ h
    exact execPowerGood_stays h slot
  case loss =>
    intro s hrails hquiet hmode
    refine ⟨railsOff s, ?_, rfl, rfl, rfl, rfl, rfl⟩
    show execPowerLoss s = _
    unfold execPowerLoss
    rw [if_neg (by simp [hrails, hquiet, hmode])]
  case crossing =>
    intro s kind a b hrails ha hb
    exact execSupplyEvent_measured hrails ha hb kind
  case beyond =>
    intro s kind a b hrails hbeyond
    show execSupplyEvent kind a b s = _
    unfold execSupplyEvent
    rw [if_neg (by simp [hrails]), if_pos hbeyond]

end Sys2Proof.Machine

namespace Sys2Proof.Machine

/-! SUPPORT. What a change of mode leaves alone before and beside the mode's own change (R38, R41, R46), and the course of Holiday (R46 to R51). -/

/-- The mode with what an abandoned hold-up test and an ended reshape leave alone of it: the bank's size may raise or clear write-through (R277). -/
abbrev ModeSt.course (m : ModeSt) : ModeSt := { m.still with writeThrough := false }

/-- The boot state and time stand, and so does the mode but for what the bank and load decide of it. -/
structure SameCourse (c s : State) : Prop where
  md : s.md.course = c.md.course
  boot : s.boot = c.boot
  time : s.time = c.time

theorem SameCourse.refl (s : State) : SameCourse s s := ⟨rfl, rfl, rfl⟩

theorem SameCourse.trans {a b c : State} (h : SameCourse a b) (k : SameCourse b c) : SameCourse a c :=
  ⟨k.md.trans h.md, k.boot.trans h.boot, k.time.trans h.time⟩

theorem SameCourse.mode {c s : State} (h : SameCourse c s) : s.md.mode = c.md.mode := by
  have hmode := congrArg ModeSt.mode h.md
  exact hmode

theorem SameCourse.holidayFrom {c s : State} (h : SameCourse c s) : s.md.holidayFrom = c.md.holidayFrom := by
  have hfrom := congrArg ModeSt.holidayFrom h.md
  exact hfrom

/-- A change of the supply alone keeps the course. -/
theorem SameCourse.withSup {c s : State} (h : SameCourse c s) (p : Sup) : SameCourse c { s with sup := p } := ⟨h.md, h.boot, h.time⟩

theorem Core.sameCourse {c s : State} (h : Core c s) : SameCourse c s :=
  ⟨congrArg (fun m => { m with writeThrough := false }) h.md, h.boot, h.time⟩

/-- What changes neither content nor any part of `Core` keeps the course. -/
theorem Kept.sameCourse {J : Bool} {c s : State} (h : Kept true J c s) : SameCourse c s := (h.core rfl).sameCourse

/-! ### Before a mode change -/

theorem setUsable_course (s : State) (dj : Nat) : SameCourse s (setUsable s dj) := by
  unfold setUsable sizeJournal
  refine SameCourse.trans ?_ (refreshCrit_kept (J := true) (checkRelief_kept (Kept.refl _))).sameCourse
  exact ⟨setFlags_md_field _ _ ModeSt.course (fun _ _ => rfl), setFlags_boot _ _, setFlags_time _ _⟩

theorem endTest_course (s : State) (r : HoldResult) : SameCourse s (endTest s r) := by
  unfold endTest
  refine SameCourse.trans (b := { s with sup := { s.sup with testWaiters := [] } }) ⟨rfl, rfl, rfl⟩ ?_
  exact (Kept.foldl (J := true) (record_kept _ _ _ _ _ (Kept.refl _)) (fun _ _ h => completeFor_kept _ _ _ _ _ h)).sameCourse

/-- An abandoned test takes back what it measured, and with it write-through (R335). -/
theorem abandonTest_course (s : State) : SameCourse s (abandonTest s) := by
  unfold abandonTest
  split
  · exact SameCourse.refl s
  · refine SameCourse.trans ?_ (endTest_course _ _)
    split
    · refine SameCourse.withSup (SameCourse.trans ?_ (setUsable_course _ _)) _
      exact (SameCourse.refl s).withSup _
    · exact (SameCourse.refl s).withSup _

/-- The state in which an operating module leaves its mode for one other than Harvest (R258, R335). -/
def leftMode (s : State) (m : Mode) : State := if s.md.mode.operates then dropMoves (abandonTest s) m else s

theorem leftMode_course (s : State) (m : Mode) : SameCourse s (leftMode s m) := by
  unfold leftMode
  split
  · exact (abandonTest_course s).trans (dropMoves_kept (J := true) m (Kept.refl _)).sameCourse
  · exact SameCourse.refl s

/-! ### The mode change -/

/-- A change to Holiday: the mode's own change after the old one is left, and the sense level, which is high. -/
theorem toMode_holiday (s : State) :
    toMode s .holiday = { enterMode (leftMode s .holiday) .holiday with tw := { (enterMode (leftMode s .holiday) .holiday).tw with senseOut := true } } := by
  unfold toMode leftMode
  cases s.md.mode.operates <;> simp [Mode.operates]

@[simp] theorem tryTest_md (s : State) : (tryTest s).md = s.md := by
  unfold tryTest
  split <;> rfl

@[simp] theorem tryTest_time (s : State) : (tryTest s).time = s.time := by
  unfold tryTest
  split <;> rfl

@[simp] theorem raiseSvn_md (s : State) : (raiseSvn s).md = s.md := rfl
@[simp] theorem raiseSvn_time (s : State) : (raiseSvn s).time = s.time := rfl

/-- From a mode that does not operate nothing has to be left: of the mode only its own change is made, and time stands (R38, R41). -/
theorem toMode_idle {s : State} (hidle : s.md.mode.operates = false) (m : Mode) (qcause : Nat) (serving : Bool) :
    (toMode s m qcause serving).md = (enterMode s m qcause serving).md ∧ (toMode s m qcause serving).time = s.time := by
  unfold toMode
  cases hm : m.operates <;> simp [hidle]

/-! ### Holiday: the entry (R46, R460) -/

/-- The state in which a module that was in `s` rests in Holiday (Table 15.11): time latched at the crystal tick, the calendar and the Deroft link stopped, no entry and no wake outstanding. -/
structure HolidayEntered (s : State) (tick : Nat) (t : State) : Prop where
  mode : t.md.mode = .holiday
  prev : t.md.prev = s.md.mode
  holidayFrom : t.md.holidayFrom = s.md.mode
  ps4 : t.md.ps4 = none
  waking : t.md.waking = false
  adminWake : t.md.adminWake = false
  latchDtb : t.time.latchDtb = s.time.dtb
  latchTick : t.time.latchTick = tick
  calendar : t.cal.running = false
  link : t.tw.linkUp = false
  boot : t.boot = s.boot

theorem enterHoliday_entered (s : State) (tick : Nat) : HolidayEntered s tick (enterHoliday s tick) := by
  unfold enterHoliday
  dsimp only
  generalize hb : { s with md := { s.md with holidayFrom := s.md.mode, selBefore := if s.pw.sel = 4 then s.md.selBefore else s.pw.sel } } = b
  have hleft := leftMode_course b .holiday
  have hmode : b.md.mode = s.md.mode := by rw [← hb]
  have hfrom : b.md.holidayFrom = s.md.mode := by rw [← hb]
  have hboot : b.boot = s.boot := by rw [← hb]
  have htime : b.time = s.time := by rw [← hb]
  rw [toMode_holiday]
  constructor <;> simp [setRanks, hleft.mode, hleft.holidayFrom, hleft.boot, hleft.time, hmode, hfrom, hboot, htime]

/-- With the preparation done and no departure to make, an entry asked for is made: Set Features completes, and the module is in Holiday (R460). -/
theorem execHolidayEntry_enters {s : State} (hasked : s.md.ps4.isSome = true ∨ s.md.entering = true) (hoperates : s.md.mode.operates = true)
    (hready : entryReady s = true) (hstay : mustDepart s = false) (tick : Nat) :
    execHolidayEntry tick s = .next (enterHoliday (s.md.ps4.elim s (fun x => completeFor s x.1 x.2 .success)) tick) := by
  have hpending : (s.md.ps4.isNone && !s.md.entering) = false := by
    rcases hasked with h | h
    · obtain ⟨x, hx⟩ := Option.isSome_iff_exists.1 h
      simp [hx]
    · simp [h]
  unfold execHolidayEntry
  rw [if_neg (by simp [hpending, hoperates, hready]), if_neg (by simp [hstay])]

/-- The answer to Set Features keeps the course. -/
theorem ps4Answered_course (s : State) : SameCourse s (s.md.ps4.elim s (fun x => completeFor s x.1 x.2 .success)) :=
  (Kept.elim (J := true) (Kept.refl s) (fun _ => completeFor_kept _ _ _ _ _ (Kept.refl s))).sameCourse

/-- A permitted re-entry is made 10 ms after the last admin completion (R50). -/
theorem execHolidayReentry_enters {s : State} (hwake : s.md.adminWake = true) (hoperates : s.md.mode.operates = true)
    (hquiet : s.md.lastAdminAt + 10000000 ≤ s.time.dtb) (hready : entryReady s = true) (hpermitted : holidayPermitted s = true)
    (hstay : mustDepart s = false) (tick : Nat) : execHolidayReentry tick s = .next (enterHoliday s tick) := by
  unfold execHolidayReentry
  rw [if_neg (by simp [hwake, hoperates, hready, hquiet]), if_neg (by simp [hpermitted]), if_neg (by simp [hstay])]

/-! ### Holiday: the wake and the exit (R49 to R51, R464) -/

/-- A rejected doorbell changes nothing of the mode but the instant of the last admin completion. -/
theorem rejectDoorbell_md_field {α : Type} (f : ModeSt → α) (hf : ∀ m n, f { m with lastAdminAt := n } = f m) (s : State) (func qid : Nat)
    (info : Option Nat) : f (rejectDoorbell s func qid info).md = f s.md := by
  unfold rejectDoorbell
  cases info with
  | none => rfl
  | some i => exact (raiseAen_quiet (setCtrl_quiet (Quiet.refl s) _ _) _ _ _ _).md_field f hf

theorem ringTail_md_field {α : Type} (f : ModeSt → α) (hf : ∀ m n, f { m with lastAdminAt := n } = f m) (s : State) (func qid value : Nat) :
    f (ringTail s func qid value).md = f s.md := by
  unfold ringTail
  split
  · exact rejectDoorbell_md_field f hf _ _ _ _
  · dsimp only
    split
    · exact rejectDoorbell_md_field f hf _ _ _ _
    · split
      · rfl
      · split
        · exact rejectDoorbell_md_field f hf _ _ _ _
        · rfl

theorem ringHead_md_field {α : Type} (f : ModeSt → α) (hf : ∀ m n, f { m with lastAdminAt := n } = f m) (s : State) (func qid value : Nat) :
    f (ringHead s func qid value).md = f s.md := by
  unfold ringHead
  split
  · exact rejectDoorbell_md_field f hf _ _ _ _
  · split
    · exact rejectDoorbell_md_field f hf _ _ _ _
    · rfl

/-- The doorbells captured in Holiday change queues, not the mode (R49). -/
theorem applyCaptured_md_field {α : Type} (s : State) (f : ModeSt → α) (hf : ∀ m n, f { m with lastAdminAt := n } = f m) :
    f (applyCaptured s).md = f s.md := by
  unfold applyCaptured
  dsimp only
  rw [foldl_field (fun s : State => f s.md) _ (fun s x => ringTail_md_field f hf s _ _ _),
    foldl_field (fun s : State => f s.md) _ (fun s x => ringHead_md_field f hf s _ _ _)]

theorem applyCaptured_time (s : State) : (applyCaptured s).time = s.time := (applyCaptured_kept (J := true) (Kept.refl s)).sameCourse.time

@[simp] theorem startCalendar_md (s : State) : (startCalendar s).md = s.md := rfl
@[simp] theorem startCalendar_time (s : State) : (startCalendar s).time = s.time := rfl

/-- With its mode taken a module resumes its power, the calendar and the doorbells: of the mode only what follows from load changes. -/
theorem resumed_md_field {α : Type} (s : State) (f : ModeSt → α) (hf : ∀ m n, f { m with lastAdminAt := n } = f m)
    (hc : ∀ m b, f { m with capped := b } = f m) : f (applyCaptured (startCalendar (refreshPower s))).md = f s.md := by
  rw [applyCaptured_md_field _ f hf, startCalendar_md, refreshPower_md_field _ f hf hc]

theorem resumed_time (s : State) : (applyCaptured (startCalendar (refreshPower s))).time = s.time := by
  rw [applyCaptured_time, startCalendar_time, refreshPower_time]

theorem passTime_md (s : State) (t : Nat) : (passTime s t).md = s.md := rfl

theorem setRanks_md (s : State) (r : RankState) : (setRanks s r).md = s.md := rfl

theorem resumeTime_md (s : State) (ticks : Nat) : (resumeTime s ticks).md = s.md := passTime_md s _

theorem carryTime_frame (s : State) (ticks : Nat) : carryTime s ticks = { resumeTime s ticks with time := (carryTime s ticks).time } := by
  unfold carryTime
  generalize resumeTime s ticks = u
  rfl

theorem carryTime_md (s : State) (ticks : Nat) : (carryTime s ticks).md = s.md := by
  rw [carryTime_frame]
  exact resumeTime_md s ticks

/-- Time resumes at the latched value plus the ticks elapsed (R441). -/
theorem carryTime_dtb (s : State) (ticks : Nat) : (carryTime s ticks).time.dtb = s.time.latchDtb + ticks * 30517578125 / 1000000 := by
  simp only [carryTime, resumeTime, passTime]

/-- The mode a woken module takes: Pairing where it came from Service, else Solo (R51). -/
def wokenMode (s : State) : State := if s.md.holidayFrom = .service then toPairing s true else toMode s .solo

/-- The state `u` in which a module woken from Holiday takes its next mode: time has resumed, the wake is done and the rejection window is open (R51, R441). -/
structure Woken (s : State) (ticks : Nat) (u : State) : Prop where
  dtb : u.time.dtb = s.time.latchDtb + ticks * 30517578125 / 1000000
  md : u.md = { s.md with waking := false, rejectUntil := u.time.dtb + 2000000, lastAdminAt := u.time.dtb }

theorem execHolidayExitComplete_woken {s : State} (hmode : s.md.mode = .holiday) (hwaking : s.md.waking = true) (ticks : Nat) :
    ∃ u, Woken s ticks u ∧ execHolidayExitComplete ticks s = .next (applyCaptured (startCalendar (refreshPower (wokenMode u)))) := by
  have hmd : (setRanks (carryTime s ticks) .active).md = s.md := (setRanks_md _ _).trans (carryTime_md s ticks)
  have hdtb : (setRanks (carryTime s ticks) .active).time.dtb = s.time.latchDtb + ticks * 30517578125 / 1000000 := carryTime_dtb s ticks
  unfold execHolidayExitComplete
  rw [if_neg (by simp [hmode, hwaking])]
  generalize setRanks (carryTime s ticks) .active = r at hmd hdtb ⊢
  refine ⟨_, ?_, rfl⟩
  exact ⟨hdtb, by rw [← hmd]⟩

/-- Taking the mode leaves time, the wake done and the rejection window as they are (R51). -/
theorem Woken.mode_taken {s u : State} {ticks : Nat} (h : Woken s ticks u) (hmode : s.md.mode = .holiday) :
    (wokenMode u).md.mode = (if s.md.holidayFrom = .service then .pairing else .solo) ∧ (wokenMode u).md.prev = .holiday ∧
      (wokenMode u).md.waking = false ∧ (wokenMode u).md.rejectUntil = u.time.dtb + 2000000 ∧
      (wokenMode u).md.pairServing = decide (s.md.holidayFrom = .service) ∧ (wokenMode u).time = u.time := by
  have hmd := h.md
  have hidle : u.md.mode.operates = false := by rw [hmd, hmode]; rfl
  have hfrom : u.md.holidayFrom = s.md.holidayFrom := by rw [hmd]
  unfold wokenMode
  rw [hfrom]
  by_cases hservice : s.md.holidayFrom = .service
  · obtain ⟨hnext, htime⟩ := toMode_idle (s := { u with tw := { u.tw with step := 1, pairAt := u.time.dtb, hello := none, table := [], pairAcc := [false, false, false] } })
      hidle .pairing 0 true
    rw [if_pos hservice, if_pos hservice, toPairing, hnext, htime]
    simp [hmd, hmode, hservice]
  · obtain ⟨hnext, htime⟩ := toMode_idle hidle .solo 0 false
    rw [if_neg hservice, if_neg hservice, hnext, htime]
    simp [hmd, hmode, hservice]

/-- A low pulse of 0.5 to 2 µs on PAIRSENSE_IN wakes a module in Holiday; only the wake and the twin link's levels change (R49). -/
theorem execPairsenseInChange_wakes {s : State} {held : Nat} (hmode : s.md.mode = .holiday) (hrails : s.sup.rails = true) (hshort : 500 ≤ held) (hlong : held ≤ 2000) :
    ∃ t, execPairsenseInChange true held s = .next t ∧ t.tw.senseIn = true ∧ t.md = { s.md with waking := true, adminWake := false } ∧
      t = { s with md := t.md, tw := t.tw } := by
  unfold execPairsenseInChange
  dsimp only
  rw [if_pos (by simp [hmode, hrails, hshort, hlong])]
  exact ⟨_, rfl, rfl, rfl, rfl⟩

/-- Outside Holiday the pin's level is noted, and nothing else changes (R304). -/
theorem execPairsenseInChange_noted {s : State} (hmode : s.md.mode ≠ .holiday) (level : Bool) (held : Nat) :
    ∃ t, execPairsenseInChange level held s = .next t ∧ t.tw.senseIn = level ∧ t = { s with tw := t.tw } := by
  unfold execPairsenseInChange
  dsimp only
  rw [if_neg (by simp [hmode])]
  exact ⟨_, rfl, rfl, rfl⟩

/-- Settles O16: both entries end in `enterHoliday`, and the exit goes by `wokenMode`; what follows either leaves mode and time as they are. -/
theorem holidayEntryAndExit : Obligations.HolidayEntryAndExit := by
  unfold Obligations.HolidayEntryAndExit
  refine ⟨?entry, ?reentry, ?pulse, ?level, ?exit, ?lock⟩
  case entry =>
    intro s tick hasked hoperates hready hstay
    have hanswered := ps4Answered_course s
    have h := enterHoliday_entered (s.md.ps4.elim s (fun x => completeFor s x.1 x.2 .success)) tick
    exact ⟨_, execHolidayEntry_enters hasked hoperates hready hstay tick, h.mode, h.prev.trans hanswered.mode, h.holidayFrom.trans hanswered.mode,
      h.ps4, h.waking, by rw [h.latchDtb, hanswered.time], h.latchTick, h.calendar, h.link, h.boot.trans hanswered.boot⟩
  case reentry =>
    intro s tick hwake hoperates hquiet hready hpermitted hstay
    have h := enterHoliday_entered s tick
    exact ⟨_, execHolidayReentry_enters hwake hoperates hquiet hready hpermitted hstay tick, h.mode, h.adminWake, h.latchDtb, h.boot⟩
  case pulse =>
    intro s held hmode hrails hshort hlong
    exact execPairsenseInChange_wakes hmode hrails hshort hlong
  case level =>
    intro s level held hmode
    exact execPairsenseInChange_noted hmode level held
  case exit =>
    intro s ticks hmode hwaking
    obtain ⟨u, hwoken, hexec⟩ := execHolidayExitComplete_woken hmode hwaking ticks
    obtain ⟨hnext, hprev, hwake, hreject, hserving, htime⟩ := hwoken.mode_taken hmode
    have htimes := resumed_time (wokenMode u)
    refine ⟨_, hexec, ?_, ?_, ?_, ?_, ?_, ?_⟩
    · rw [resumed_md_field (wokenMode u) (·.mode) (fun _ _ => rfl) (fun _ _ => rfl), hnext]
    · rw [resumed_md_field (wokenMode u) (·.prev) (fun _ _ => rfl) (fun _ _ => rfl), hprev]
    · rw [resumed_md_field (wokenMode u) (·.waking) (fun _ _ => rfl) (fun _ _ => rfl), hwake]
    · rw [htimes, htime, hwoken.dtb]
    · rw [resumed_md_field (wokenMode u) (·.rejectUntil) (fun _ _ => rfl) (fun _ _ => rfl), hreject, htimes, htime]
    · rw [resumed_md_field (wokenMode u) (·.pairServing) (fun _ _ => rfl) (fun _ _ => rfl), hserving]
  case lock =>
    intro s hrails hawake
    show execPllLock s = _
    unfold execPllLock
    rw [if_neg]
    rcases hawake with h | h <;> simp [hrails, h]

end Sys2Proof.Machine

namespace Sys2Proof.Machine

/-! SUPPORT. What a completion leaves and posts (R86, R88, R417). -/

/-- Of a completion queue, what the announcement of a completion leaves alone (R88). -/
def Cq.place (q : Cq) : Nat × Bool × Nat := (q.tail, q.phase, q.reserved)

theorem sendVector_cq (s : State) (func vec k : Nat) :
    (KV.find (sendVector s func vec).port.cqs k).map Cq.place = (KV.find s.port.cqs k).map Cq.place := by
  have hheld : (KV.find (KV.mapVals s.port.cqs (fun k q => if onVector func vec k q then { q with held := 0 } else q)) k).map Cq.place
      = (KV.find s.port.cqs k).map Cq.place := by
    rw [KV.find_mapVals, Option.map_map]
    congr 1
    funext q
    dsimp only [Function.comp]
    split <;> rfl
  unfold sendVector sendMsix
  dsimp only
  split
  · exact hheld
  · split <;> exact hheld

theorem notify_cq (s : State) (func cqid : Nat) (atOnce : Bool) (k : Nat) :
    (KV.find (notify s func cqid atOnce).port.cqs k).map Cq.place = (KV.find s.port.cqs k).map Cq.place := by
  unfold notify
  cases hq : KV.find s.port.cqs (qkey func cqid) with
  | none => rfl
  | some q =>
    dsimp only
    split
    · rfl
    · split
      · exact sendVector_cq _ _ _ _
      · by_cases hk : k = qkey func cqid
        · subst hk
          rw [KV.find_set_self, hq]
          rfl
        · rw [KV.find_set_other _ _ hk]

theorem complete_cq {s : State} {func sqid : Nat} {sq : Sq} {cq : Cq} (hm : s.md.mode ≠ .measure) (hh : s.md.mode ≠ .harvest)
    (hr : (ctrl s func).rdy = true) (hs : KV.find s.port.sqs (qkey func sqid) = some sq) (hc : KV.find s.port.cqs (qkey func sq.cqid) = some cq)
    (cid : Nat) (st : Status) (dw0 dw1 : Nat) (data : List Nat) :
    ((KV.find (complete s func sqid cid st dw0 dw1 data).port.cqs (qkey func sq.cqid)).map Cq.place = some cq.post.place) ∧
    (st.logged = true → (ctrl (complete s func sqid cid st dw0 dw1 data) func).errs.head? = some ⟨sqid, cid, st, dw0⟩) := by
  unfold complete
  simp only [hm, hh, or_self, if_false, hr, Bool.true_eq_false, hs, hc]
  constructor
  · split
    · rw [setCtrl_cqs, notify_cq, KV.find_set_self]; rfl
    · rw [notify_cq, KV.find_set_self]; rfl
  · intro hlog
    rw [if_pos hlog, ctrl_setCtrl_self]
    rfl

/-- Two states that differ in the port's outbox and the instant of the last admin completion alone. -/
theorem Quiet.eq_with {c s : State} (h : Quiet c s) : s = { c with port := s.port, md := { c.md with lastAdminAt := s.md.lastAdminAt } } := by
  obtain ⟨hpart, hzn, hcal, hmedia, hjr, htw, hsup, hboot, hkeys, hev, hadm, htime, hth, hpw, hit, htel, hhist, hfree, hpending, _, hmd⟩ := h
  have hs : s.md = { c.md with lastAdminAt := s.md.lastAdminAt } := by rw [← hmd]
  cases s
  dsimp only at *
  subst hpart hzn hcal hmedia hjr htw hsup hboot hkeys hev hadm htime hth hpw hit htel hhist hfree hpending
  rw [← hs]

/-- Settles O18: a completion goes by `complete`, whose entry `complete_posted` gives and whose reach `Quiet` bounds. -/
theorem completionPostsOneEntry : Obligations.CompletionPostsOneEntry := by
  unfold Obligations.CompletionPostsOneEntry
  refine ⟨?posts, ?silent, ?frame⟩
  case posts =>
    intro s e st dw0 data sq cq hm hh hr hs hc
    obtain ⟨hplace, herrs⟩ := complete_cq hm hh hr hs hc e.cid st dw0 0 data
    refine ⟨complete_posted s e.func 0 e.cid st dw0 0 data sq cq ⟨hm, hh⟩ hr hs hc, ?_, herrs⟩
    obtain ⟨cq', hfind, heq⟩ := Option.map_eq_some_iff.1 hplace
    obtain ⟨htail, hphase, hreserved⟩ : cq'.tail = cq.post.tail ∧ cq'.phase = cq.post.phase ∧ cq'.reserved = cq.post.reserved := by
      simpa [Cq.place] using heq
    exact ⟨cq', hfind, htail, hphase, hreserved⟩
  case silent =>
    intro s e st dw0 data h
    exact complete_silent s e.func 0 e.cid st dw0 0 data (by tauto)
  case frame =>
    intro s e st dw0 data
    have h := adminDone_quiet (Quiet.refl s) e st dw0 data
    exact ⟨_, _, h.port_field (·.cmds) (fun _ => rfl), h.port_field (·.sqs) (fun _ => rfl), h.eq_with⟩

end Sys2Proof.Machine

namespace Sys2Proof.Machine

/-! SUPPORT. What the end and the disposal of commands leave of the controllers' registers (R63, R66). -/

/-- A controller's registers and resources, without what completions, events and the course of a shutdown change. -/
def Ctrl.regs (c : Ctrl) : Ctrl := { c.still with shst := 0, shutAt := none }

/-- From `c` to `s` no controller's registers or resources change. -/
def SameRegs (c s : State) : Prop := ∀ f, (ctrl s f).regs = (ctrl c f).regs

theorem SameRegs.refl (s : State) : SameRegs s s := fun _ => rfl

theorem SameRegs.trans {a b c : State} (h : SameRegs a b) (k : SameRegs b c) : SameRegs a c := fun f => (k f).trans (h f)

theorem SameRegs.of_ctrls {c s : State} (h : s.port.ctrls = c.port.ctrls) : SameRegs c s := fun f => by unfold ctrl; rw [h]

theorem SameRegs.of_still {c s : State} (h : ∀ f, (ctrl s f).still = (ctrl c f).still) : SameRegs c s := fun f => by
  unfold Ctrl.regs
  rw [h f]

theorem SameRegs.foldl {α : Type} {f : State → α → State} (h : ∀ s x, SameRegs s (f s x)) (l : List α) (s : State) : SameRegs s (l.foldl f s) := by
  induction l generalizing s with
  | nil => exact SameRegs.refl s
  | cons x l ih => exact (h s x).trans (ih _)

/-- A field of the registers, read after a change that keeps them. -/
theorem SameRegs.field {c s : State} (h : SameRegs c s) {α : Type} (g : Ctrl → α) (hg : ∀ c : Ctrl, g c.regs = g c) (f : Nat) :
    g (ctrl s f) = g (ctrl c f) := ((hg _).symm.trans (congrArg g (h f))).trans (hg _)

theorem setCtrl_sameRegs (s : State) (f : Nat) {g : Ctrl → Ctrl} (h : ∀ c, (g c).regs = c.regs) : SameRegs s (setCtrl s f g) := by
  intro j
  by_cases hj : j = f
  · subst hj
    rw [ctrl_setCtrl_self, h]
  · rw [ctrl_setCtrl_other _ _ hj]

theorem complete_sameRegs (s : State) (func sqid cid : Nat) (st : Status) (dw0 dw1 : Nat) (data : List Nat) :
    SameRegs s (complete s func sqid cid st dw0 dw1 data) := .of_still fun f => complete_ctrl_still s func sqid cid st dw0 dw1 data f

theorem raiseAen_sameRegs (s : State) (func typ info log : Nat) : SameRegs s (raiseAen s func typ info log) :=
  .of_still fun f => raiseAen_ctrl_still s func typ info log f

theorem raiseAll_sameRegs (s : State) (typ info log : Nat) : SameRegs s (raiseAll s typ info log) :=
  .foldl (fun s _ => raiseAen_sameRegs s _ _ _ _) _ s

theorem record_sameRegs (s : State) (typ : Nat) (payload : List Nat) (func : Option Nat) (nsid key : Nat) :
    SameRegs s (record s typ payload func nsid key) := by
  have hraised (t : State) (h : t.port = s.port) : SameRegs s (raiseAll t 7 0xC5 0xC5) :=
    (SameRegs.of_ctrls (by rw [h])).trans (raiseAll_sameRegs t _ _ _)
  unfold record
  dsimp only
  split
  · exact SameRegs.refl s
  · split <;> split
    · exact hraised _ (by rfl)
    · exact SameRegs.refl s
    · exact hraised _ (by rfl)
    · exact SameRegs.refl s

theorem freeBufs_port (s : State) (c : Cmd) : (freeBufs s c).port = s.port := by simp

theorem missEvent_sameRegs (s : State) (c : Cmd) (late : Nat) : SameRegs s (missEvent s c late) := by
  unfold missEvent
  split
  · exact record_sameRegs _ _ _ _ _ _
  · exact SameRegs.refl s

theorem withoutCmd_sameRegs (s : State) (slot : Nat) (c : Cmd) : SameRegs s (withoutCmd s slot c) :=
  .of_ctrls (by
    show (freeBufs s c).port.ctrls = s.port.ctrls
    rw [freeBufs_port])

theorem send_sameRegs (s : State) (typ tag : Nat) (body : List Nat) : SameRegs s (send s typ tag body) := .of_ctrls (by rw [send_port])

theorem endCmd_sameRegs (s : State) (slot : Nat) (st : Status) (dw0 dw1 : Nat) (data : List Nat) : SameRegs s (endCmd s slot st dw0 dw1 data) := by
  unfold endCmd
  split
  · exact SameRegs.refl s
  · rename_i c hc
    unfold postFrom
    rw [hc]
    dsimp only
    rw [if_neg (by simp)]
    refine (withoutCmd_sameRegs s slot c).trans ?_
    split
    · exact missEvent_sameRegs _ _ _
    · split
      · exact send_sameRegs _ _ _ _
      · exact (SameRegs.of_ctrls (by rfl)).trans ((complete_sameRegs _ _ _ _ _ _ _ _).trans (missEvent_sameRegs _ _ _))

theorem wakeFlushes_sameRegs (s : State) (slot : Nat) : SameRegs s (wakeFlushes s slot) :=
  (SameRegs.of_ctrls (by rfl)).trans (.foldl (fun s _ => endCmd_sameRegs s _ _ _ _ _) _ _)

theorem endDelete_sameRegs (s : State) (func sqid : Nat) : SameRegs s (endDelete s func sqid) := by
  unfold endDelete
  split
  · exact SameRegs.refl s
  · split
    · exact SameRegs.refl s
    · split
      · exact SameRegs.refl s
      · exact (SameRegs.of_ctrls (by rfl)).trans (complete_sameRegs _ _ _ _ _ _ _ _)

theorem endShutdown_sameRegs (s : State) (func : Nat) : SameRegs s (endShutdown s func) := by
  unfold endShutdown
  split
  · exact setCtrl_sameRegs _ _ (fun _ => rfl)
  · exact SameRegs.refl s

theorem tcgFor_sameRegs (s : State) (owner cid result : Nat) : SameRegs s (tcgFor s owner cid result) := by
  unfold tcgFor tcgResult
  split
  · exact (SameRegs.of_ctrls (by rfl)).trans (complete_sameRegs _ _ _ _ _ _ _ _)
  · exact SameRegs.refl s

theorem endInjection_sameRegs (s : State) (func cid : Nat) (ok : Bool) : SameRegs s (endInjection s func cid ok) := by
  unfold endInjection
  split
  · exact send_sameRegs _ _ _ _
  · exact tcgFor_sameRegs _ _ _ _

theorem inject_sameRegs (s : State) (w : KeyWait) : SameRegs s (inject s w) := by
  unfold inject
  split
  · exact endInjection_sameRegs _ _ _ _
  · split
    · exact endInjection_sameRegs _ _ _ _
    · split
      · exact SameRegs.refl s
      · exact (SameRegs.of_ctrls (by rfl)).trans (endInjection_sameRegs _ _ _ _)

theorem settleKeys_sameRegs (s : State) : SameRegs s (settleKeys s) := by
  unfold settleKeys
  split
  · exact SameRegs.refl s
  · exact (SameRegs.of_ctrls (by rfl)).trans (.foldl inject_sameRegs _ _)

theorem afterEnd_sameRegs (s : State) (slot func sqid : Nat) : SameRegs s (afterEnd s slot func sqid) :=
  (wakeFlushes_sameRegs _ _).trans ((endDelete_sameRegs _ _ _).trans ((endShutdown_sameRegs _ _).trans (settleKeys_sameRegs _)))

theorem finish_sameRegs (s : State) (slot : Nat) (st : Status) (dw0 dw1 : Nat) (data : List Nat) : SameRegs s (finish s slot st dw0 dw1 data) := by
  unfold finish
  split
  · exact SameRegs.refl s
  · exact (endCmd_sameRegs _ _ _ _ _ _).trans (afterEnd_sameRegs _ _ _ _)

theorem disposeQuiet_sameRegs (s : State) (slot : Nat) : SameRegs s (disposeQuiet s slot) := by
  unfold disposeQuiet
  split
  · exact SameRegs.refl s
  · exact (withoutCmd_sameRegs s slot _).trans ((missEvent_sameRegs _ _ _).trans (afterEnd_sameRegs _ _ _ _))

theorem removeRec_port (s : State) (seq : Nat) : (removeRec s seq).port = s.port := by
  unfold removeRec
  split
  · rfl
  · dsimp only
    split <;> split
    · rw [send_port]
    · rfl
    · rw [send_port]
    · rfl

theorem removeRec_sameRegs (s : State) (seq : Nat) : SameRegs s (removeRec s seq) := .of_ctrls (by rw [removeRec_port])

theorem dropWrite_sameRegs (s : State) (seq : Nat) : SameRegs s (dropWrite s seq) := by
  unfold dropWrite
  split
  · exact SameRegs.refl s
  · refine (removeRec_sameRegs s seq).trans ?_
    dsimp only
    split
    · exact SameRegs.refl _
    · split
      · exact SameRegs.refl _
      · refine SameRegs.trans (.foldl (fun s (p : Nat × VRec) => (removeRec_sameRegs s p.1).trans ?_) _ _) (.of_ctrls (by rfl))
        split
        · exact finish_sameRegs _ _ _ _ _ _
        · exact SameRegs.refl _

theorem undo_sameRegs (s : State) (slot : Nat) (c : Cmd) : SameRegs s (undo s slot c) := by
  unfold undo
  dsimp only
  split <;> first | exact dropWrite_sameRegs s _ | exact SameRegs.refl s

theorem disposeCmd_sameRegs (s : State) (slot : Nat) : SameRegs s (disposeCmd s slot) := by
  unfold disposeCmd
  split
  · exact SameRegs.refl s
  · split
    · exact SameRegs.refl s
    · exact SameRegs.refl s
    · exact (send_sameRegs _ _ _ _).trans (disposeQuiet_sameRegs _ _)
    · exact (undo_sameRegs _ _ _).trans (disposeQuiet_sameRegs _ _)

end Sys2Proof.Machine

namespace Sys2Proof.Machine

/-! SUPPORT. Resets of controllers and the link's events (R58 to R65, R75). -/

theorem qkey_func {func qid : Nat} (h : qid < 65536) : qkey func qid / 65536 = func := by
  unfold qkey
  omega

theorem KV.find_of_not_mem {α : Type} {m : KV α} {k : Nat} (h : ∀ p ∈ m, p.1 ≠ k) : KV.find m k = none := by
  cases hf : KV.find m k with
  | none => rfl
  | some v => exact absurd rfl (h _ (KV.mem_of_find hf))

/-! ### One controller -/

/-- A zone that is closed no longer is open (Table 4.3). -/
theorem Zone.close_opened (z : Zone) : z.close.opened = false := by
  unfold Zone.close
  split <;> rfl

/-- No zone that a close names stays open. -/
theorem closeZonesOf_zones {s : State} {p : Zone → Bool} {n : Nat × Ns} (hn : n ∈ (closeZonesOf s p).zn.ns) {z : Nat × Zone} (hz : z ∈ n.2.zones)
    (hopen : z.2.opened = true) : p z.2 = false := by
  unfold closeZonesOf KV.mapVals at hn
  obtain ⟨m, _, rfl⟩ := List.mem_map.1 hn
  obtain ⟨y, _, rfl⟩ := List.mem_map.1 hz
  dsimp only at hopen ⊢
  by_cases h : y.2.opened && p y.2
  · rw [if_pos h, Zone.close_opened] at hopen
    cases hopen
  · rw [if_neg h] at hopen ⊢
    simpa [hopen] using h

/-- The commands of a controller being reset are disposed of: no controller's registers change but that one's readiness (R63). -/
theorem disposed_sameRegs (s : State) (l : List Nat) : SameRegs s (l.foldl disposeCmd s) := .foldl disposeCmd_sameRegs l s

/-- A controller after its reset: as `Ctrl.afterReset` leaves it (R62 to R64). -/
theorem resetCtrl_self (s : State) (f : Nat) (keepRegs : Bool) :
    ∃ c : Ctrl, ctrl (resetCtrl s f keepRegs) f = c.afterReset keepRegs ∧ c.regs = { (ctrl s f).regs with rdy := false } := by
  unfold resetCtrl
  dsimp only
  rw [ctrl_setCtrl_self]
  refine ⟨_, rfl, ?_⟩
  refine (disposed_sameRegs _ _ f).trans ?_
  rw [ctrl_setCtrl_self]
  rfl

/-- A reset of one controller leaves the registers of every other alone. -/
theorem resetCtrl_other (s : State) {f g : Nat} (h : g ≠ f) (keepRegs : Bool) :
    (ctrl (resetCtrl s f keepRegs) g).regs = (ctrl s g).regs := by
  unfold resetCtrl
  dsimp only
  rw [ctrl_setCtrl_other _ _ h]
  refine (disposed_sameRegs _ _ g).trans ?_
  rw [ctrl_setCtrl_other _ _ h]

/-- None of the queues of a controller that was reset is left. -/
theorem resetCtrl_queues (s : State) (f : Nat) (keepRegs : Bool) {q : Nat} (hq : q < 65536) :
    KV.find (resetCtrl s f keepRegs).port.sqs (qkey f q) = none ∧ KV.find (resetCtrl s f keepRegs).port.cqs (qkey f q) = none := by
  have hgone : (qkey f q / 65536 != f) = false := by simp [qkey_func hq]
  exact ⟨KV.find_keep_none _ (fun k _ => k / 65536 != f) _ (fun _ => hgone), KV.find_keep_none _ (fun k _ => k / 65536 != f) _ (fun _ => hgone)⟩

/-- No zone stays open on the account of a controller that was reset (Table 4.3). -/
theorem resetCtrl_zones {s : State} {f : Nat} {keepRegs : Bool} {n : Nat × Ns} (hn : n ∈ (resetCtrl s f keepRegs).zn.ns) {z : Nat × Zone} (hz : z ∈ n.2.zones)
    (hopen : z.2.opened = true) : z.2.openFunc ≠ some f := by
  have h := closeZonesOf_zones (p := fun z => z.openFunc == some f) hn hz hopen
  simpa using h

theorem resetCtrl_core (s : State) (f : Nat) (keepRegs : Bool) : Core s (resetCtrl s f keepRegs) :=
  (resetCtrl_kept (K := true) (J := true) f keepRegs (Kept.refl s)).core rfl

/-! ### Every controller -/

/-- A controller that is disabled and not ready. -/
def Ctrl.off (c : Ctrl) : Prop := c.en = false ∧ c.rdy = false

theorem Ctrl.off_of_regs {c d : Ctrl} (h : d.regs = c.regs) (hc : c.off) : d.off := by
  have hcc : d.regs.cc = c.regs.cc := by rw [h]
  have hrdy : d.regs.rdy = c.regs.rdy := by rw [h]
  exact ⟨(congrArg (·.getLsbD 0) hcc).trans hc.1, hrdy.trans hc.2⟩

theorem resetCtrl_off (s : State) (f : Nat) (keepRegs : Bool) : (ctrl (resetCtrl s f keepRegs) f).off := by
  obtain ⟨c, hc, _⟩ := resetCtrl_self s f keepRegs
  rw [hc]
  exact ⟨by simp [Ctrl.en, Ctrl.afterReset], rfl⟩

theorem foldl_resetCtrl_off (keepRegs : Bool) (f : Nat) (l : KV Ctrl) (s : State) (h : (∃ p ∈ l, p.1 = f) ∨ (ctrl s f).off) :
    (ctrl (l.foldl (fun s p => resetCtrl s p.1 keepRegs) s) f).off := by
  induction l generalizing s with
  | nil => simpa using h
  | cons p l ih =>
    refine ih _ ?_
    by_cases hp : p.1 = f
    · exact .inr (hp ▸ resetCtrl_off s p.1 keepRegs)
    · rcases h with ⟨q, hq, rfl⟩ | hoff
      · rcases List.mem_cons.1 hq with rfl | hq
        · exact absurd rfl hp
        · exact .inl ⟨q, hq, rfl⟩
      · exact .inr (Ctrl.off_of_regs (resetCtrl_other s (Ne.symm hp) keepRegs) hoff)

/-- A reset of the module's controllers leaves every one disabled and not ready; one that is not listed is as at power good. -/
theorem resetAll_off (s : State) (keepRegs : Bool) (f : Nat) : (ctrl (resetAll s keepRegs) f).off := by
  refine foldl_resetCtrl_off keepRegs f _ s ?_
  by_cases h : ∃ p ∈ s.port.ctrls, p.1 = f
  · exact .inl h
  · refine .inr ?_
    have hnone : KV.find s.port.ctrls f = none := KV.find_of_not_mem (fun p hp hpf => h ⟨p, hp, hpf⟩)
    rw [ctrl, KV.findD, hnone]
    exact ⟨rfl, rfl⟩

/-- What the resets of the whole port leave: the state `t` has the controllers of `resetAll` and differs in the link and VF Enable (R62, Table 3.2). -/
theorem off_of_ctrls {s t : State} (h : t.port.ctrls = (resetAll s false).port.ctrls) (f : Nat) : (ctrl t f).en = false ∧ (ctrl t f).rdy = false := by
  have hoff := resetAll_off s false f
  unfold ctrl at hoff ⊢
  rw [h]
  exact hoff

/-! ### Link events -/

theorem hostCredits_row {rate width row : Nat} (h : linkRow rate width = some row) :
    hostCredits rate width = nth [2048, 1024, 512, 256, 128, 64, 32] row := by
  unfold hostCredits
  rw [h]

/-- Settles O9: the resets go by `resetAll`; the other events are read off their definitions. -/
theorem linkEvents : Obligations.LinkEvents := by
  unfold Obligations.LinkEvents
  refine ⟨?perst, ?release, ?down, ?hot, ?up, ?entry, ?exit⟩
  case perst =>
    intro s
    exact ⟨_, rfl, rfl, rfl, rfl, rfl, rfl, rfl, rfl, rfl, off_of_ctrls (s := s) rfl,
      ((execPerstAsserted_kept (K := true) (J := true) (Kept.refl s)).next_kept _ rfl).core rfl⟩
  case release => exact fun s => rfl
  case down =>
    intro s
    exact ⟨_, rfl, rfl, rfl, rfl, rfl, rfl, off_of_ctrls (s := s) rfl,
      ((execLinkDown_kept (K := true) (J := true) (Kept.refl s)).next_kept _ rfl).core rfl⟩
  case hot =>
    intro s
    exact ⟨_, rfl, rfl, rfl, rfl, rfl, off_of_ctrls (s := s) rfl,
      ((execHotReset_kept (K := true) (J := true) (Kept.refl s)).next_kept _ rfl).core rfl⟩
  case up =>
    intro s rate width row flit rev hrow hrails hperst hverdict
    show execHostLinkUp rate width ⟨flit, rev⟩ s = _
    unfold execHostLinkUp
    simp only [hrow, hrails, hperst, hostCredits_row hrow, Bool.not_true, Bool.or_self, Bool.false_eq_true, if_false, beq_eq_false_iff_ne.2 hverdict]
    cases s.port.everUp
    · simp
    · simp
  case entry =>
    intro s
    show execL1Entry s = _
    unfold execL1Entry
    split
    · rename_i h
      simp only [Bool.and_eq_true, decide_eq_true_eq] at h
      simp [h]
    · rename_i h
      have hstay : (s.port.l1Enabled && s.port.rate != 0 && s.port.cmds.isEmpty && (waitingStamps s).isEmpty && (adminOpen s).isEmpty &&
          decide (s.port.quietAt + 1000000 ≤ s.time.dtb)) = false := by simpa using h
      rw [hstay, Bool.or_false]
  case exit => exact fun s => rfl

end Sys2Proof.Machine

namespace Sys2Proof.Machine

/-! SUPPORT. The resets of a function and of the subsystem (R62 to R65, R75). -/

/-- What a reset of one controller leaves, whichever registers it keeps (R62 to R64). -/
structure WasReset (s t : State) (f : Nat) : Prop where
  en : (ctrl t f).en = false
  rdy : (ctrl t f).rdy = false
  shst : (ctrl t f).shst = 0
  dbCount : (ctrl t f).dbCount = 0
  aers : (ctrl t f).aers = []
  queues : ∀ q, q < 65536 → KV.find t.port.sqs (qkey f q) = none ∧ KV.find t.port.cqs (qkey f q) = none
  zones : ∀ p ∈ t.zn.ns, ∀ z ∈ p.2.zones, z.2.opened = true → z.2.openFunc ≠ some f
  core : Core s t

theorem resetCtrl_wasReset (s : State) (f : Nat) (keepRegs : Bool) : WasReset s (resetCtrl s f keepRegs) f := by
  obtain ⟨hen, hrdy⟩ := resetCtrl_off s f keepRegs
  obtain ⟨c, hc, _⟩ := resetCtrl_self s f keepRegs
  exact ⟨hen, hrdy, by rw [hc]; rfl, by rw [hc]; rfl, by rw [hc]; rfl, fun q hq => resetCtrl_queues s f keepRegs hq,
    fun p hp z hz => resetCtrl_zones hp hz, resetCtrl_core s f keepRegs⟩

/-- A reset that clears the admin queue registers. -/
theorem resetCtrl_clears (s : State) (f : Nat) :
    (ctrl (resetCtrl s f false) f).aqa = 0 ∧ (ctrl (resetCtrl s f false) f).asq = 0 ∧ (ctrl (resetCtrl s f false) f).acq = 0 := by
  obtain ⟨c, hc, _⟩ := resetCtrl_self s f false
  rw [hc]
  exact ⟨rfl, rfl, rfl⟩

/-- A reset that keeps the admin queue registers (NVMe 2.0, CC.EN written to 0). -/
theorem resetCtrl_keeps (s : State) (f : Nat) :
    (ctrl (resetCtrl s f true) f).aqa = (ctrl s f).aqa ∧ (ctrl (resetCtrl s f true) f).asq = (ctrl s f).asq ∧
      (ctrl (resetCtrl s f true) f).acq = (ctrl s f).acq := by
  obtain ⟨c, hc, hregs⟩ := resetCtrl_self s f true
  rw [hc]
  exact ⟨(congrArg Ctrl.aqa hregs :), (congrArg Ctrl.asq hregs :), (congrArg Ctrl.acq hregs :)⟩

/-- An update of each listed controller keeps what the update keeps. -/
theorem foldl_setCtrl_keeps {P : Ctrl → Prop} {g : Ctrl → Ctrl} (hg : ∀ c, P c → P (g c)) (f : Nat) (l : List Nat) (s : State) (h : P (ctrl s f)) :
    P (ctrl (l.foldl (fun s i => setCtrl s i g) s) f) := by
  induction l generalizing s with
  | nil => exact h
  | cons i l ih =>
    refine ih _ ?_
    by_cases hi : f = i
    · subst hi
      rw [ctrl_setCtrl_self]
      exact hg _ h
    · rw [ctrl_setCtrl_other _ _ hi]
      exact h

/-- An update of each listed controller gives every listed one what the update gives and keeps. -/
theorem foldl_setCtrl_gives {P : Ctrl → Prop} {g : Ctrl → Ctrl} (hg : ∀ c, P (g c)) {f : Nat} {l : List Nat} (hf : f ∈ l) (s : State) :
    P (ctrl (l.foldl (fun s i => setCtrl s i g) s) f) := by
  induction l generalizing s with
  | nil => cases hf
  | cons i l ih =>
    by_cases hl : f ∈ l
    · exact ih hl _
    · obtain rfl : f = i := by simpa [hl] using hf
      refine foldl_setCtrl_keeps (fun c _ => hg c) f l _ ?_
      rw [ctrl_setCtrl_self]
      exact hg _

theorem foldl_setCtrl_port (g : Ctrl → Ctrl) (l : List Nat) (s : State) :
    l.foldl (fun s i => setCtrl s i g) s = { s with port := { s.port with ctrls := (l.foldl (fun s i => setCtrl s i g) s).port.ctrls } } := by
  induction l generalizing s with
  | nil => rfl
  | cons i l ih =>
    rw [List.foldl_cons, ih]
    rfl

/-- Every function's NSSRO is set (R65). -/
def withNssro (s : State) : State := (List.range funcs).foldl (fun s f => setCtrl s f (fun c => { c with nssro := true })) s

theorem withNssro_port (s : State) : withNssro s = { s with port := { s.port with ctrls := (withNssro s).port.ctrls } } :=
  foldl_setCtrl_port _ _ _

theorem withNssro_off {s : State} {f : Nat} (h : (ctrl s f).off) : (ctrl (withNssro s) f).off :=
  foldl_setCtrl_keeps (P := Ctrl.off) (g := fun c => { c with nssro := true }) (fun _ h => h) f _ s h

theorem withNssro_nssro (s : State) {f : Nat} (h : f < funcs) : (ctrl (withNssro s) f).nssro = true :=
  foldl_setCtrl_gives (P := fun c => c.nssro = true) (g := fun c => { c with nssro := true }) (fun _ => rfl) (List.mem_range.2 h) s

theorem ctrl_linkGone (s : State) (count training : Bool) (f : Nat) : ctrl (linkGone s count training) f = ctrl s f := rfl

/-- What an NVM Subsystem Reset leaves on this module (R65). -/
structure SubsystemWasReset (s t : State) : Prop where
  rate : t.port.rate = 0
  vfEnable : t.port.vfEnable = false
  off : ∀ g, (ctrl t g).en = false ∧ (ctrl t g).rdy = false
  nssro : ∀ g, g < 128 → (ctrl t g).nssro = true
  zones : ∀ p ∈ t.zn.ns, ∀ z ∈ p.2.zones, z.2.opened = false
  core : Core s t

theorem subsystemReset_wasReset (s : State) : SubsystemWasReset s (subsystemReset s) := by
  have hcore : Core s (subsystemReset s) := (subsystemReset_kept (K := true) (J := true) (Kept.refl s)).core rfl
  obtain ⟨u, hu, hctrls, hvf⟩ : ∃ u : State, subsystemReset s = linkGone (withNssro (closeZonesOf u (fun _ => true))) false true ∧
      (∀ g, (ctrl u g).off) ∧ u.port.vfEnable = false := ⟨clearVfs (resetAll s false), rfl, resetAll_off s false, rfl⟩
  have hoff (g : Nat) : (ctrl (closeZonesOf u (fun _ => true)) g).off := hctrls g
  rw [hu] at hcore ⊢
  refine ⟨rfl, ?_, fun g => ?_, fun g hg => ?_, fun p hp z hz => ?_, hcore⟩
  · show (withNssro (closeZonesOf u (fun _ => true))).port.vfEnable = false
    rw [withNssro_port]
    exact hvf
  · rw [ctrl_linkGone]
    exact withNssro_off (hoff g)
  · rw [ctrl_linkGone]
    exact withNssro_nssro _ hg
  · have hclosed : p ∈ (closeZonesOf u (fun _ => true)).zn.ns := by
      have hzn : (withNssro (closeZonesOf u (fun _ => true))).zn = (closeZonesOf u (fun _ => true)).zn := by rw [withNssro_port]
      rw [← hzn]
      exact hp
    by_contra hopen
    exact absurd (closeZonesOf_zones hclosed hz (by simpa using hopen)) (by simp)

/-- Settles O10: one controller's reset by `resetCtrl_wasReset`, every controller's by `resetAll_off`, the subsystem's by `subsystemReset_wasReset`. -/
theorem controllerResets : Obligations.ControllerResets := by
  unfold Obligations.ControllerResets
  refine ⟨?function, ?disable, ?physical, ?subsystem⟩
  case function =>
    intro s f hf
    have h := resetCtrl_wasReset s f false
    obtain ⟨haqa, hasq, hacq⟩ := resetCtrl_clears s f
    refine ⟨resetCtrl s f false, ?_, h.en, h.rdy, h.shst, haqa, hasq, hacq, h.dbCount, h.aers, h.queues, h.zones, h.core⟩
    show execFunctionLevelReset f s = _
    rw [execFunctionLevelReset, if_neg hf]
  case disable =>
    intro s f hen
    have h := resetCtrl_wasReset s f true
    obtain ⟨haqa, hasq, hacq⟩ := resetCtrl_keeps s f
    refine ⟨resetCtrl s f true, ?_, h.en, h.rdy, h.shst, h.dbCount, h.aers, haqa, hasq, hacq, h.queues, h.zones, h.core⟩
    show execCcDisable f s = _
    rw [execCcDisable, if_pos hen]
  case physical =>
    intro s
    exact ⟨_, rfl, off_of_ctrls (s := s) rfl, rfl, rfl,
      ((execFunctionLevelReset_kept (K := true) (J := true) 0 (Kept.refl s)).next_kept _ rfl).core rfl⟩
  case subsystem =>
    intro s f hf
    let s' := if s.md.mode = .service then send s 0x09 0 [3] else s
    have h := subsystemReset_wasReset s'
    have hexec : exec (.nvmSubsystemReset f) s = .next (subsystemReset s') := by
      show execNvmSubsystemReset f s = _
      rw [execNvmSubsystemReset, if_neg (by simpa [funcs] using hf)]
    exact ⟨subsystemReset s', hexec, h.rate, h.vfEnable, h.off, h.nssro, h.zones,
      ((execNvmSubsystemReset_kept (K := true) (J := true) f (Kept.refl s)).next_kept _ hexec).core rfl⟩

end Sys2Proof.Machine

namespace Sys2Proof.Machine

/-! SUPPORT. CC.EN, shutdown notifications, registers (R52, R66 to R73). -/

/-! ### The fields of CC -/

/-- A field of CC is what the bits of its places are. -/
theorem fld_congr {a b : BitVec 32} {lo n : Nat} (h : ∀ i, i < n → a.getLsbD (lo + i) = b.getLsbD (lo + i)) : fld a lo n = fld b lo n := by
  unfold fld
  refine Nat.eq_of_testBit_eq fun i => ?_
  rw [Nat.testBit_mod_two_pow, Nat.testBit_mod_two_pow, Nat.testBit_div_two_pow, Nat.testBit_div_two_pow]
  by_cases hi : i < n
  · have := h i hi
    simp only [BitVec.getLsbD] at this
    rw [Nat.add_comm i lo, this]
  · simp [hi]

/-- CC as an enable takes it: EN set, SHN and reserved bits 0 (R12, R70). -/
def enabledCc (cc : BitVec 32) : BitVec 32 := (cc &&& 0x01FF3FF0) ||| 1

theorem enabledCc_en (cc : BitVec 32) : (enabledCc cc).getLsbD 0 = true := by simp [enabledCc]

theorem enabledCc_crime (cc : BitVec 32) : (enabledCc cc).getLsbD 24 = cc.getLsbD 24 := by
  simp [enabledCc]

theorem enabledCc_fld {lo n : Nat} (cc : BitVec 32) (h : ∀ i, i < n → (0x01FF3FF0 : BitVec 32).getLsbD (lo + i) = true ∧ lo + i ≠ 0) :
    fld (enabledCc cc) lo n = fld cc lo n := by
  refine fld_congr fun i hi => ?_
  obtain ⟨hmask, hpos⟩ := h i hi
  have hlow : (1 : BitVec 32).getLsbD (lo + i) = false := by
    rw [show (1 : BitVec 32) = 1#32 from rfl, BitVec.getLsbD_one, decide_eq_false hpos, Bool.and_false]
  rw [enabledCc, BitVec.getLsbD_or, BitVec.getLsbD_and, hmask, hlow, Bool.and_true, Bool.or_false]

/-- The checks of R70 see the fields as written. -/
theorem ccValid_enabledCc (cc : BitVec 32) :
    ccValid (enabledCc cc) = (fld cc 4 3 == 6 && fld cc 7 4 ≤ 4 && fld cc 11 3 == 0 && fld cc 16 4 == 6 && fld cc 20 4 == 4) := by
  unfold ccValid
  rw [enabledCc_fld cc (by decide), enabledCc_fld cc (by decide), enabledCc_fld cc (by decide), enabledCc_fld cc (by decide),
    enabledCc_fld cc (by decide)]

/-! ### Enabling (R52, R70) -/

/-- A controller that is enabled now: its admin queue pair made from AQA, its shutdown status 0 (R52). -/
def enabling (s : State) (f : Nat) (cc : BitVec 32) : State :=
  setCtrl { s with port := { s.port with
    sqs := KV.set s.port.sqs (qkey f 0) { size := fld (ctrl s f).aqa 0 12 + 1, cqid := 0 }
    cqs := KV.set s.port.cqs (qkey f 0) { size := fld (ctrl s f).aqa 16 12 + 1 } } } f
    (fun c => { c with cc := enabledCc cc, rdy := false, shst := 0, kaAt := s.time.dtb })

/-- CC.EN set on a controller that may take it: refused with CFS, or enabled and ready at the point of R52. -/
theorem execCcEnable_eq {s : State} {f : Nat} {cc : BitVec 32} (hen : (ctrl s f).en = false) (honline : (ctrl s f).online = true) (hf : f < 128)
    (hrate : s.port.rate ≠ 0) :
    exec (.ccEnable f cc) s = if ccValid (enabledCc cc) then .next (updateReady (enabling s f cc))
      else .next (setCtrl s f (fun c => { c with cc := enabledCc cc, cfs := true, rdy := false })) := by
  have hmay : ((ctrl s f).en || !(ctrl s f).online || funcs ≤ f || s.port.rate == 0) = false := by simp [hen, honline, hrate, funcs, Nat.not_le.2 hf]
  show execCcEnable f cc s = _
  unfold execCcEnable
  dsimp only
  rw [if_neg (by rw [hmay]; simp)]
  change (if (!ccValid (enabledCc cc)) = true then _ else _) = _
  cases ccValid (enabledCc cc) <;> rfl

theorem ctrl_updateReady {s : State} {f : Nat} {c : Ctrl} (h : KV.find s.port.ctrls f = some c) :
    ctrl (updateReady s) f = { c with rdy := c.rdy || readyNow s c } := by
  rw [ctrl, updateReady_port, KV.findD, KV.find_mapVals, h]
  rfl

theorem enabling_listed (s : State) (f : Nat) (cc : BitVec 32) :
    KV.find (enabling s f cc).port.ctrls f = some { ctrl s f with cc := enabledCc cc, rdy := false, shst := 0, kaAt := s.time.dtb } := by
  show KV.find (KV.upd s.port.ctrls f {} (fun c => { c with cc := enabledCc cc, rdy := false, shst := 0, kaAt := s.time.dtb })) f = _
  rw [KV.find_upd_self]
  rfl

theorem enabled_ctrl (s : State) (f : Nat) (cc : BitVec 32) :
    ctrl (updateReady (enabling s f cc)) f = { ctrl s f with
      cc := enabledCc cc, shst := 0, kaAt := s.time.dtb
      rdy := readyNow (enabling s f cc) { ctrl s f with cc := enabledCc cc, rdy := false, shst := 0, kaAt := s.time.dtb } } := by
  rw [ctrl_updateReady (enabling_listed s f cc)]
  simp only [Bool.false_or]

/-- Settles O11: `execCcEnable_eq` splits on the checks of R70. -/
theorem enableChecksCc : Obligations.EnableChecksCc := by
  unfold Obligations.EnableChecksCc
  refine ⟨?refused, ?taken, ?cleared⟩
  case refused =>
    intro s f cc hen honline hf hrate hbad
    have hinvalid : ccValid (enabledCc cc) = false := by
      rw [ccValid_enabledCc, Bool.eq_false_iff]
      intro hvalid
      simp only [Bool.and_eq_true, beq_iff_eq, decide_eq_true_eq] at hvalid
      omega
    refine ⟨_, (execCcEnable_eq hen honline hf hrate).trans (by rw [hinvalid, if_neg (by simp)]), ?_, ?_, ?_, fun g hg => ctrl_setCtrl_other _ _ hg, rfl⟩
    · rw [ctrl_setCtrl_self]
      exact enabledCc_en cc
    · rw [ctrl_setCtrl_self]
    · rw [ctrl_setCtrl_self]
  case taken =>
    intro s f cc hen hcfs honline hf hrate hcss hmps hams hsq hcq
    have hvalid : ccValid (enabledCc cc) = true := by simp [ccValid_enabledCc, hcss, hmps, hams, hsq, hcq]
    refine ⟨_, (execCcEnable_eq hen honline hf hrate).trans (by rw [if_pos hvalid]), ?_, ?_⟩
    · rw [enabled_ctrl]
      exact enabledCc_en cc
    · rw [enabled_ctrl]
      exact hcfs
  case cleared =>
    intro s f hen
    obtain ⟨c, hc, _⟩ := resetCtrl_self s f true
    refine ⟨resetCtrl s f true, ?_, ?_, (resetCtrl_wasReset s f true).en⟩
    · show execCcDisable f s = _
      rw [execCcDisable, if_pos hen]
    · rw [hc]
      rfl

/-! ### Shutdown notifications (R66) -/

theorem openOf_setCtrl (s : State) (f : Nat) {g : Ctrl → Ctrl} (hg : ∀ c, (g c).life = c.life) : openOf (setCtrl s f g) f = openOf s f := by
  unfold openOf
  rw [setCtrl_cmds]
  have howner : ownerOf (setCtrl s f g) f = ownerOf s f := by
    unfold ownerOf
    rw [ctrl_setCtrl_self, hg]
  rw [howner]
  rfl

/-- The end of a normal shutdown that may end, said of the shutdown status (R66). -/
theorem endShutdown_shst {s : State} {f : Nat} (h : (ctrl s f).shst = 1) : (ctrl (endShutdown s f) f).shst = if openOf s f then 1 else 2 := by
  unfold endShutdown
  rw [h]
  cases hopen : openOf s f with
  | true => simpa using h
  | false => simp

theorem endShutdown_port (s : State) (f : Nat) : endShutdown s f = { s with port := { s.port with ctrls := (endShutdown s f).port.ctrls } } := by
  unfold endShutdown
  split <;> rfl

theorem endShutdown_other (s : State) {f g : Nat} (h : g ≠ f) : ctrl (endShutdown s f) g = ctrl s g := by
  unfold endShutdown
  split
  · exact ctrl_setCtrl_other _ _ h
  · rfl

/-- CC.SHN written leaves EN as it is. -/
theorem setShn_en (c : Ctrl) (v : BitVec 32) : (setShn c v).en = c.en := by
  simp [Ctrl.en, setShn]

end Sys2Proof.Machine

namespace Sys2Proof.Machine

/-! SUPPORT. Shutdown notifications and registers (R52, R66 to R73). -/

/-! ### Shutdowns -/

/-- A normal shutdown notification on an enabled controller with no shutdown reported (R66). -/
theorem execNormalShutdown_eq {s : State} {f : Nat} (hf : f < 128) (hen : (ctrl s f).en = true) (hshst : (ctrl s f).shst = 0) :
    exec (.normalShutdown f) s =
      .next (endShutdown (setCtrl s f (fun c => { setShn c 1 with shst := 1, shutAt := some s.time.dtb })) f) := by
  show execNormalShutdown f s = _
  unfold execNormalShutdown
  rw [if_neg (by simpa [funcs] using hf), if_neg (by simp [hen, hshst])]

/-- A controller's readiness once it is enabled, by R52. -/
theorem readyNow_enabling (s : State) (f : Nat) (cc : BitVec 32) (hcfs : (ctrl s f).cfs = false) :
    (ctrl (updateReady (enabling s f cc)) f).rdy = true ↔ s.md.mode ≠ .measure ∧
      (cc.getLsbD 24 = true ∨ s.boot.firstReady.isSome = true ∨ s.md.mode = .service ∨ s.md.mode = .solo ∨ s.md.mode = .quarantine) := by
  rw [enabled_ctrl]
  have hcrime : (enabledCc cc)[24] = cc[24] := enabledCc_crime cc
  simp [readyNow, Ctrl.en, Ctrl.crime, enabledCc_en, hcrime, hcfs, enabling, or_assoc]

/-! ### Registers -/

theorem writeLimit_pw (s : State) (v : Nat) : (writeLimit s v).pw.limit = roundLimit v ∧ (writeLimit s v).pw.sel = s.pw.sel ∧
    (writeLimit s v).pw.limitSaved = s.pw.limitSaved := by
  unfold writeLimit refreshPower
  dsimp only
  rw [setFlags_pw]
  exact ⟨rfl, rfl, rfl⟩

/-- A write of a controller register of BAR 0, aligned to its size (R68, R69). -/
theorem execRegisterWrite_ctrl {f offset size : Nat} (hf : f < 128) (hsize : size ≠ 0) (halign : offset % size = 0) (v : BitVec 64) (s : State) :
    exec (.registerWrite f 0 offset size v) s = .next (setCtrl s f (fun c => ctrlWrite c offset size v)) := by
  show execRegisterWrite f 0 offset size v s = _
  unfold execRegisterWrite
  rw [if_neg (by simpa [funcs] using hf), if_neg (by simp), if_neg (by simp [hsize, halign]), if_pos rfl]

/-- Settles O12: each clause by the equation of its event. -/
theorem registersAndShutdown : Obligations.RegistersAndShutdown := by
  unfold Obligations.RegistersAndShutdown
  refine ⟨?normal, ?abrupt, ?timeout, ?enable, ?limit, ?limitVf, ?dtb, ?cc, ?asq, ?acq, ?misaligned⟩
  case normal =>
    intro s f hf hen hshst
    let u := setCtrl s f (fun c => { setShn c 1 with shst := 1, shutAt := some s.time.dtb })
    have hu : (ctrl u f).shst = 1 := by rw [ctrl_setCtrl_self]
    have hopen : openOf u f = openOf s f := openOf_setCtrl s f (fun _ => rfl)
    have hregs := (endShutdown_sameRegs u f).field Ctrl.en (fun _ => rfl) f
    refine ⟨_, execNormalShutdown_eq hf hen hshst, ?_, ?_, fun g hg => ?_, ?_⟩
    · rw [endShutdown_shst hu, hopen]
    · rw [hregs, ctrl_setCtrl_self]
      exact (setShn_en _ _).trans hen
    · exact (endShutdown_other u hg).trans (ctrl_setCtrl_other _ _ hg)
    · exact endShutdown_port u f
  case abrupt =>
    intro s f hf hen
    have hexec : exec (.abruptShutdown f) s = .next (setCtrl ((slotsOf s f).foldl disposeCmd s) f
        (fun c => { setShn c 2 with shst := 2, shutAt := none, life := c.life + 1 })) := by
      show execAbruptShutdown f s = _
      unfold execAbruptShutdown
      rw [if_neg (by simpa [funcs] using hf), if_neg (by simp [hen])]
    exact ⟨_, hexec, by rw [ctrl_setCtrl_self], ((execAbruptShutdown_kept (K := true) (J := true) f (Kept.refl s)).next_kept _ hexec).core rfl⟩
  case timeout =>
    intro s f hshst
    let un := (slotsOf s f).filter (fun sl => (KV.find s.port.cmds sl).any (fun c => c.cls == .unbound))
    have hexec : exec (.shutdownUnboundTimeout f) s = .next (endShutdown (un.foldl disposeCmd s) f) := by
      show execShutdownUnboundTimeout f s = _
      unfold execShutdownUnboundTimeout
      rw [if_neg (by simpa using hshst)]
    refine ⟨_, hexec, ((execShutdownUnboundTimeout_kept (K := true) (J := true) f (Kept.refl s)).next_kept _ hexec).core rfl, fun hnone => ?_⟩
    have hidle : un.foldl disposeCmd s = s := by rw [show un = [] from hnone, List.foldl_nil]
    rw [hidle]
    exact ⟨endShutdown_shst hshst, by rw [endShutdown_port]⟩
  case enable =>
    intro s f cc hen hcfs honline hf hrate hcss hmps hams hsq hcq
    have hvalid : ccValid (enabledCc cc) = true := by simp [ccValid_enabledCc, hcss, hmps, hams, hsq, hcq]
    have hport := updateReady_port (enabling s f cc)
    refine ⟨_, (execCcEnable_eq hen honline hf hrate).trans (by rw [if_pos hvalid]), ?_, ?_, ?_, readyNow_enabling s f cc hcfs, updateReady_frame _⟩
    · rw [enabled_ctrl]
    · rw [hport]
      exact KV.find_set_self _ _ _
    · rw [hport]
      exact KV.find_set_self _ _ _
  case limit =>
    intro s v
    obtain ⟨hlimit, hsel, hsaved⟩ := writeLimit_pw s (fld v 8 8)
    have hcalm := refreshPower_calm { s with pw := { s.pw with limit := roundLimit (fld v 8 8) } }
    have hcore := ((execSuPwrbudWrite_kept (K := true) (J := true) 0 v (Kept.refl s)).next_kept _ rfl).core rfl
    exact ⟨_, rfl, hlimit, hsel, hsaved, hcore, hcalm.media, hcalm.jr, sameContent_of_store hcalm.store⟩
  case limitVf =>
    intro s f v hf
    show execSuPwrbudWrite f v s = _
    rw [execSuPwrbudWrite, if_neg hf]
  case dtb =>
    intro s f hf
    show execSuDtbLoRead f s = _
    rw [execSuDtbLoRead, if_neg (by simpa [funcs] using hf)]
  case cc =>
    intro s f v hf
    refine ⟨_, execRegisterWrite_ctrl hf (by decide) (by decide) v s, ?_, fun g hg => ctrl_setCtrl_other _ _ hg, rfl⟩
    rw [ctrl_setCtrl_self]
    rfl
  case asq =>
    intro s f v hf
    refine ⟨_, execRegisterWrite_ctrl hf (by decide) (by decide) v s, ?_, ?_, fun g hg => ctrl_setCtrl_other _ _ hg, rfl⟩
    · rw [ctrl_setCtrl_self]
      rfl
    · rw [ctrl_setCtrl_self]
      rfl
  case acq =>
    intro s f v hf
    refine ⟨_, execRegisterWrite_ctrl hf (by decide) (by decide) v s, ?_, ?_, fun g hg => ctrl_setCtrl_other _ _ hg, rfl⟩
    · rw [ctrl_setCtrl_self]
      rfl
    · rw [ctrl_setCtrl_self]
      rfl
  case misaligned =>
    intro s f bar offset size v hf hbar hsize hoffset
    show execRegisterWrite f bar offset size v s = _
    unfold execRegisterWrite
    rw [if_neg (by simpa [funcs] using hf), if_neg hbar, if_pos (.inr hoffset)]

end Sys2Proof.Machine

namespace Sys2Proof.Machine

/-! SUPPORT. Doorbells (R82, R49). -/

/-- A doorbell write of four bytes on a ready controller, outside Holiday and with no administrative wake to end (R82). -/
theorem execSqTailDoorbell_awake {s : State} {f : Nat} (hrdy : (ctrl s f).rdy = true) (hmode : s.md.mode ≠ .holiday) (hwake : s.md.adminWake = false)
    (qid v : Nat) : exec (.sqTailDoorbell f qid 4 v) s = .next (ringTail s f qid v) := by
  show execSqTailDoorbell f qid 4 v s = _
  unfold execSqTailDoorbell
  rw [if_neg (by simp [hrdy]), if_neg (by simp), if_neg (by simp [hmode])]
  dsimp only
  rw [if_pos (by simp [hwake])]

theorem execCqHeadDoorbell_awake {s : State} {f : Nat} (hrdy : (ctrl s f).rdy = true) (hmode : s.md.mode ≠ .holiday) (qid v : Nat) :
    exec (.cqHeadDoorbell f qid 4 v) s = .next (ringHead s f qid v) := by
  show execCqHeadDoorbell f qid 4 v s = _
  unfold execCqHeadDoorbell
  rw [if_neg (by simp [hrdy]), if_neg (by simp), if_neg (by simp [hmode])]

/-- In Holiday a doorbell of a queue that exists is captured in it, and a submission doorbell wakes the module (R49). -/
theorem execSqTailDoorbell_holiday {s : State} {f qid : Nat} {q : Sq} (hrdy : (ctrl s f).rdy = true) (hmode : s.md.mode = .holiday)
    (hq : KV.find s.port.sqs (qkey f qid) = some q) (v : Nat) :
    exec (.sqTailDoorbell f qid 4 v) s = .next { s with
      md := { s.md with waking := true, adminWake := qid == 0 && (s.md.adminWake || !s.md.waking) }
      port := { s.port with sqs := KV.adj s.port.sqs (qkey f qid) (fun q => { q with captured := some v }) } } := by
  show execSqTailDoorbell f qid 4 v s = _
  unfold execSqTailDoorbell
  rw [if_neg (by simp [hrdy]), if_neg (by simp), if_pos ⟨hmode, by simp [hq]⟩]

theorem execCqHeadDoorbell_holiday {s : State} {f qid : Nat} {q : Cq} (hrdy : (ctrl s f).rdy = true) (hmode : s.md.mode = .holiday)
    (hq : KV.find s.port.cqs (qkey f qid) = some q) (v : Nat) :
    exec (.cqHeadDoorbell f qid 4 v) s =
      .next { s with port := { s.port with cqs := KV.adj s.port.cqs (qkey f qid) (fun q => { q with captured := some v }) } } := by
  show execCqHeadDoorbell f qid 4 v s = _
  unfold execCqHeadDoorbell
  rw [if_neg (by simp [hrdy]), if_neg (by simp), if_pos ⟨hmode, by simp [hq]⟩]

/-- A rejected doorbell is counted and named; the event it raises touches neither (Table 3.8). -/
theorem rejectDoorbell_counted (s : State) (f qid : Nat) (info : Option Nat) :
    (ctrl (rejectDoorbell s f qid info) f).dbCount = (ctrl s f).dbCount + 1 ∧ (ctrl (rejectDoorbell s f qid info) f).dbLast = BitVec.ofNat 16 qid ∧
      (rejectDoorbell s f qid info).port.sqs = s.port.sqs := by
  unfold rejectDoorbell
  cases info with
  | none =>
    dsimp only [Option.elim_none]
    rw [ctrl_setCtrl_self]
    exact ⟨rfl, rfl, rfl⟩
  | some i =>
    dsimp only [Option.elim_some]
    have h := raiseAen_sameRegs (setCtrl s f (fun c => { c with dbCount := c.dbCount + 1, dbLast := BitVec.ofNat 16 qid })) f 0 i 1
    rw [h.field Ctrl.dbCount (fun _ => rfl), h.field Ctrl.dbLast (fun _ => rfl), ctrl_setCtrl_self]
    exact ⟨rfl, rfl, (raiseAen_quiet (Quiet.refl _) f 0 i 1).port_field (·.sqs) (fun _ => rfl)⟩

/-- Settles O13: outside Holiday by `ringTail` and `ringHead`, in Holiday by the capture in the queue. -/
theorem doorbells : Obligations.Doorbells := by
  unfold Obligations.Doorbells
  refine ⟨?tail, ?head, ?beyond, ?tailHoliday, ?headHoliday⟩
  case tail =>
    intro s f qid v q hrdy hmode hwake hq hv hmoves hroom
    rw [execSqTailDoorbell_awake hrdy hmode hwake]
    unfold ringTail
    rw [hq]
    dsimp only
    rw [if_neg (Nat.not_le.2 hv), if_neg hmoves, if_neg (Nat.not_le.2 hroom)]
  case head =>
    intro s f qid v q hrdy hmode hq hv hpast
    rw [execCqHeadDoorbell_awake hrdy hmode]
    unfold ringHead
    rw [hq]
    dsimp only
    rw [if_neg (by omega)]
  case beyond =>
    intro s f qid v q hrdy hmode hwake hq hv
    obtain ⟨hcount, hlast, hsqs⟩ := rejectDoorbell_counted s f qid (some 1)
    have hring : ringTail s f qid v = rejectDoorbell s f qid (some 1) := by
      unfold ringTail
      rw [hq]
      dsimp only
      rw [if_pos hv]
    refine ⟨_, (execSqTailDoorbell_awake hrdy hmode hwake qid v).trans (by rw [hring]), hcount, hlast, hsqs, ?_⟩
    exact (rejectDoorbell_kept (K := true) (J := true) f qid (some 1) (Kept.refl s)).core rfl
  case tailHoliday =>
    intro s f qid v q hrdy hmode hq
    refine ⟨_, execSqTailDoorbell_holiday hrdy hmode hq v, rfl, ?_, rfl⟩
    simp [KV.find_adj, hq]
  case headHoliday =>
    intro s f qid v q hrdy hmode hq
    refine ⟨_, execCqHeadDoorbell_holiday hrdy hmode hq v, ?_, rfl⟩
    simp [KV.find_adj, hq]

end Sys2Proof.Machine

namespace Sys2Proof.Machine

/-! SUPPORT. Admin commands that are admitted (R53): power states, queues, Virtualization Management (R72, R75 to R81). -/

/-- An admitted command whose fields are good takes its effect. -/
theorem adminCmd_admitted {s s1 : State} {e : Sqe} {pf : Bool} {row : Row} {st : Nat} (h : Admitted s e pf row st s1)
    {field : State → Option Status} (hfield : field s1 = none) (run : State → State) : adminCmd e s pf row field run = .next (run s1) := by
  obtain ⟨hfetched, hpf, hlegal⟩ := h
  have hmay : (pf && e.func != 0) = false := by
    cases pf with
    | false => rfl
    | true => simp [hpf rfl]
  unfold adminCmd adminCmdAt
  rw [hfetched]
  dsimp only
  rw [hmay, if_neg (by simp), hfield, hlegal]

/-- An admitted command with a bad field ends with its status. -/
theorem adminCmd_refused {s s1 : State} {e : Sqe} {pf : Bool} {row : Row} {st : Nat} (h : Admitted s e pf row st s1)
    {field : State → Option Status} {x : Status} (hfield : field s1 = some x) (run : State → State) :
    adminCmd e s pf row field run = .next (adminDone s1 e x) := by
  obtain ⟨hfetched, hpf, hlegal⟩ := h
  have hmay : (pf && e.func != 0) = false := by
    cases pf with
    | false => rfl
    | true => simp [hpf rfl]
  unfold adminCmd adminCmdAt
  rw [hfetched]
  dsimp only
  rw [hmay, if_neg (by simp), hfield]

/-! ### Power states (R48, R72) -/

theorem abortErases_none (s : State) : ∀ x ∈ (abortErases s).media.dies, x.2.op.any (fun o => o.kind == .erase) = false := by
  intro x hx
  unfold abortErases KV.mapVals at hx
  obtain ⟨y, _, rfl⟩ := List.mem_map.1 hx
  dsimp only
  split
  · rfl
  · rename_i h
    exact Bool.eq_false_iff.2 h

/-- With nothing to depart from, the preparation for Holiday changes nothing at the request (R48). -/
theorem goOnEntering_idle {s : State} (h : mustDepart s = false) : goOnEntering s = s := by
  unfold goOnEntering
  simp [h]

/-- Settles O17. -/
theorem powerManagement : Obligations.PowerManagement := by
  unfold Obligations.PowerManagement
  refine ⟨?operational, ?refused, ?taken⟩
  case operational =>
    intro s s1 e st hadm hps hrest hsave
    exact adminCmd_admitted hadm (by simp [hps, hrest, hsave]) _
  case refused =>
    intro s s1 e st hadm hps hrest hsave hsel hbarred
    refine (adminCmd_admitted hadm (by simp [hps, hrest, hsave]) _).trans ?_
    rw [if_neg hsel, if_pos]
    rcases hbarred with h | h | h <;> simp [h]
  case taken =>
    intro s s1 e st hadm hps hrest hsave hsel hoperates hpermitted hps4 hactivating hstay
    let u := { s1 with md := { s1.md with ps4 := some (ownerOf s1 e.func, e.cid), selBefore := s1.pw.sel } }
    refine ⟨abortErases u, ?_, rfl, rfl, abortErases_none u⟩
    refine (adminCmd_admitted hadm (by simp [hps, hrest, hsave]) _).trans ?_
    rw [if_neg hsel, if_neg (by simp [hoperates, hpermitted, hps4, hactivating]), goOnEntering_idle (s := abortErases u) hstay]

/-! ### Virtualization Management (R75 to R77) -/

/-- Settles O20. -/
theorem virtualizationManagement : Obligations.VirtualizationManagement := by
  unfold Obligations.VirtualizationManagement
  refine ⟨?primary, ?offline, ?assign, ?online⟩
  case primary =>
    intro s s1 e st hadm hrt hid hcount
    refine adminCmd_admitted hadm ?_ _
    rw [if_neg (by omega), if_neg (by omega)]
  case offline =>
    intro s s1 e st f hadm hf
    refine ⟨setCtrl (resetCtrl s1 f false) f (fun c => { c with online := false }), ?_, ?_, ?_, ?_, fun q hq => (resetCtrl_queues s1 f false hq).1⟩
    · refine (adminCmd_admitted hadm (by simp [hf]) _).trans ?_
      rw [hf]
    · rw [ctrl_setCtrl_self]
    · rw [ctrl_setCtrl_self]
      exact (resetCtrl_wasReset s1 f false).rdy
    · obtain ⟨c, hc, _⟩ := resetCtrl_self s1 f false
      rw [ctrl_setCtrl_self, hc]
      rfl
  case assign =>
    intro s s1 e st f hadm hf hrt honline hmost hcount
    refine (adminCmd_admitted hadm ?_ _).trans (by rw [hf])
    rw [hf]
    dsimp only
    rw [if_neg (by omega), if_neg (by simp [honline]), if_neg (by omega)]
  case online =>
    intro s s1 e st f hadm hf hioq hvec
    refine (adminCmd_admitted hadm ?_ _).trans (by rw [hf])
    rw [hf]
    dsimp only
    rw [if_neg (by simp [hioq, hvec])]

end Sys2Proof.Machine

namespace Sys2Proof.Machine

/-! SUPPORT. A table of queues that lists one key twice: the deletion of the queue takes out one of the two (R81). -/

/-- An admin entry waits, of a port whose table lists I/O submission queue 1 twice. -/
def doubledState : State :=
  { State.reset with
    md := { State.reset.md with mode := .solo }
    port := { State.reset.port with
      ctrls := [(0, { rdy := true })]
      cqs := [(0, { size := 64 })]
      sqs := [(0, { size := 64, cqid := 0, tail := 1, stamps := [0] }), (1, { size := 64, cqid := 1 }), (1, { size := 64, cqid := 1 })] } }

/-- The Delete I/O Submission Queue of queue 1. -/
def deleteQueueOne : Sqe := { func := 0, cid := 1, cdw10 := 1 }

/-- The Delete is fetched and legal, queue 1 is listed and no command is in flight. -/
theorem deleteQueueOne_fetched : (fetch doubledState 0 0).any (fun x => adminRefusal x.2 .always x.1 == none &&
    KV.find x.2.port.sqs 1 == some { size := 64, cqid := 1 } && x.2.port.cmds.isEmpty) = true := by
  decide +kernel

/-- Of the two entries of queue 1 the deletion takes out one. -/
theorem deleteQueueOne_leaves : ∃ u, exec (.deleteIoSubmissionQueue deleteQueueOne) doubledState = .next u ∧ (KV.find u.port.sqs 1).isSome = true :=
  ⟨_, rfl, by decide +kernel⟩

/-- Refutes O19: the fourth clause says that the queue deleted is listed no longer, but nothing there keeps the table of queues from listing it twice; in `doubledState` it is, and one entry is left. -/
theorem not_queueManagement : ¬ Obligations.QueueManagement := by
  unfold Obligations.QueueManagement
  intro h
  obtain ⟨-, -, -, hdelete⟩ := h
  obtain ⟨⟨st, s1⟩, hfetch, hstate⟩ := (Option.any_eq_true _ _).1 deleteQueueOne_fetched
  simp only [Bool.and_eq_true, beq_iff_eq, List.isEmpty_iff] at hstate
  obtain ⟨⟨hlegal, hqueue⟩, hcmds⟩ := hstate
  have hkey : qkey deleteQueueOne.func (fld deleteQueueOne.cdw10 0 16) = 1 := by decide
  obtain ⟨t, hexec, -, hgone⟩ := hdelete doubledState s1 deleteQueueOne st _ ⟨hfetch, fun _ => rfl, hlegal⟩ (by decide)
    (by rw [hkey]; exact hqueue) (by simp [hcmds])
  obtain ⟨u, hu, hleft⟩ := deleteQueueOne_leaves
  have hut : u = adminDone t deleteQueueOne .success := Host.Outcome.next.inj (hu.symm.trans hexec)
  have hsqs : u.port.sqs = t.port.sqs := by
    rw [hut]
    exact complete_sqs_port _ _ _ _ _ _ _ _
  rw [hkey, ← hsqs] at hgone
  rw [hgone] at hleft
  cases hleft

end Sys2Proof.Machine

namespace Sys2Proof.Machine

/-! SUPPORT. Requests for events, aborts and Keep Alive (R94, R428); the standard features (R78, R88, R437, R447). -/

/-- Settles O21: each command by its effect once admitted; the expiry's record keeps the controller's registers. -/
theorem eventsAbortsAndKeepAlive : Obligations.EventsAbortsAndKeepAlive := by
  unfold Obligations.EventsAbortsAndKeepAlive
  refine ⟨?held, ?answered, ?limit, ?abort, ?absent, ?restart, ?expiry⟩
  case held =>
    intro s s1 e st hadm hfew hnone
    refine (adminCmd_admitted hadm (if_neg (Nat.not_le.2 hfew)) _).trans ?_
    rw [hnone]
  case answered =>
    intro s s1 e st a rest hadm hfew hwaiting
    refine (adminCmd_admitted hadm (if_neg (Nat.not_le.2 hfew)) _).trans ?_
    rw [hwaiting]
  case limit =>
    intro s s1 e st hadm hmany
    exact adminCmd_refused hadm (if_pos hmany) _
  case abort =>
    intro s s1 e st slot c hadm hfind hfwd habortable
    refine (adminCmd_admitted hadm (field := noField) rfl _).trans ?_
    rw [hfind]
    dsimp only
    rw [hfwd, if_neg (by simp), if_pos habortable]
  case absent =>
    intro s s1 e st hadm hnone haers
    have hfind : s1.port.cmds.find? (fun p => p.2.func == e.func && p.2.sqid == fld e.cdw10 0 16 && p.2.cid == fld e.cdw10 16 16 && !p.2.fromTwin && !p.2.quiet) = none := by
      refine List.find?_eq_none.2 fun p hp => ?_
      rcases hnone p hp with h | h <;> simp [h]
    refine (adminCmd_admitted hadm (field := noField) rfl _).trans ?_
    rw [hfind]
    dsimp only
    rw [haers, if_neg (by simp)]
  case restart =>
    intro s s1 e st hadm
    exact adminCmd_admitted hadm (field := noField) rfl _
  case expiry =>
    intro s f hen
    let u := setCtrl s f (fun c => { c with kaAt := s.time.dtb })
    have hexec : exec (.keepAliveExpiry f) s = .next (record u 0x70 [] (some f)) := by
      show execKeepAliveExpiry f s = _
      rw [execKeepAliveExpiry, if_pos hen]
    have hregs := record_sameRegs u 0x70 [] (some f) 0 0
    have hcore := ((execKeepAliveExpiry_kept (K := true) (J := true) f (Kept.refl s)).next_kept _ hexec).core rfl
    refine ⟨_, hexec, ?_, ?_, record_cmds_port _ _ _ _ _ _, record_sqs_port _ _ _ _ _ _, record_zn _ _ _ _ _ _, hcore⟩
    · rw [hregs.field Ctrl.en (fun _ => rfl), ctrl_setCtrl_self]
      exact hen
    · rw [hregs.field Ctrl.rdy (fun _ => rfl), ctrl_setCtrl_self]

/-! ### Standard features -/

/-- A vector is taken into a list of vectors, or out of it, and no other is touched (R88). -/
theorem contains_toggled (l : List Nat) (i : Nat) (b : Bool) (v : Nat) :
    (if b then l.filter (· != i) ++ [i] else l.filter (· != i)).contains v = if v = i then b else l.contains v := by
  by_cases hv : v = i
  · subst hv
    cases b <;> simp
  · cases b <;> simp [hv]

/-- Settles O22. -/
theorem standardFeatures : Obligations.StandardFeatures := by
  unfold Obligations.StandardFeatures
  refine ⟨?queues, ?coalescing, ?vector, ?events, ?unsaveable, ?threshold, ?timestamp⟩
  case queues =>
    intro s s1 e st hadm hsave hsq hcq
    exact adminCmd_admitted hadm (by simp [hsave, hsq, hcq]) _
  case coalescing =>
    intro s s1 e st hadm hsave
    exact adminCmd_admitted hadm (by simp [hsave]) _
  case vector =>
    intro s s1 e st hadm hsave hvec
    have hlist := contains_toggled (ctrl s1 e.func).vecNoCoalesce (fld e.cdw11 0 16) (e.cdw11.getLsbD 16)
    refine ⟨_, adminCmd_admitted hadm (by simp [hsave, hvec]) _, ?_, fun v hv => ?_, rfl⟩
    · rw [ctrl_setCtrl_self]
      exact (hlist _).trans (if_pos rfl)
    · rw [ctrl_setCtrl_self]
      exact (hlist v).trans (if_neg hv)
  case events =>
    intro s s1 e st hadm hsave
    exact adminCmd_admitted hadm (by simp [hsave]) _
  case unsaveable =>
    intro s s1 e st hadm hsave
    exact adminCmd_refused hadm (by simp [hsave]) _
  case threshold =>
    intro s s1 e st hadm hsave hsel hthsel
    refine (adminCmd_admitted hadm (by simp [hsave, hsel, hthsel]) _).trans ?_
    by_cases hover : fld e.cdw11 20 2 = 0
    · simp only [hover, if_true]
    · simp only [hover, if_false]
  case timestamp =>
    intro s s1 e st hadm hpf hdata hsave
    refine ⟨_, adminCmd_admitted hadm (by simp [featureField, hpf, hdata, hsave]) _, ?_, ?_, ?_, ?_, ?_, ?_⟩
    · exact setFlags_time _ _
    · exact setFlags_timeDisc_md _ _
    · exact setFlags_mode_md _ _
    · exact setFlags_zn _ _
    · exact setFlags_jr _ _
    · exact setFlags_boot _ _

end Sys2Proof.Machine

namespace Sys2Proof.Machine

/-! SUPPORT. Forming a record touches the journal and the session alone (R261, R346); the vendor features (R72, R80, R178 to R182, R413 to R415). -/

/-- From `c` to `s` at most the journal changes. -/
def JrOnly (c s : State) : Prop := s = { c with jr := s.jr }

theorem JrOnly.trans {a b c : State} (h : JrOnly a b) (k : JrOnly b c) : JrOnly a c := by
  unfold JrOnly at *
  rw [k, h]

theorem JrOnly.foldl {α : Type} {f : State → α → State} (h : ∀ s x, JrOnly s (f s x)) (l : List α) (s : State) : JrOnly s (l.foldl f s) := by
  induction l generalizing s with
  | nil => rfl
  | cons x l ih => exact (h s x).trans (ih _)

theorem placeRec_jrOnly (s : State) (core pages seq : Nat) : JrOnly s (placeRec s core pages seq).1 := by
  unfold placeRec
  split
  · rfl
  · dsimp only
    split <;> rfl

theorem movePlace_jrOnly (s : State) (q : Nat) : JrOnly s (movePlace s q) := by
  unfold movePlace
  split
  · rfl
  · exact (placeRec_jrOnly s _ _ _).trans rfl

theorem compactSegs_jrOnly (k : Nat) (s : State) : JrOnly s (compactSegs k s) := by
  induction k generalizing s with
  | zero => rfl
  | succ k ih =>
    unfold compactSegs
    split
    · rfl
    · split
      · rfl
      · exact JrOnly.trans (b := { s with jr := { s.jr with segs := KV.del s.jr.segs _ } }) rfl ((JrOnly.foldl movePlace_jrOnly _ _).trans (ih _))

theorem openSession_frame (s : State) : openSession s = { s with jr := (openSession s).jr, md := (openSession s).md } := by
  unfold openSession
  split <;> rfl

/-- A record formed changes the journal, and ends a clean shutdown's mark (R346). -/
theorem formRecord_frame (s : State) (core : Nat) (r : VRec) :
    (formRecord s core r).1 = { s with jr := (formRecord s core r).1.jr, md := (formRecord s core r).1.md } := by
  have hplaced := placeRec_jrOnly (openSession s) core r.pages (openSession s).jr.seq
  have hformed : JrOnly (openSession s) (formRecord s core r).1 := by
    unfold formRecord
    dsimp only
    refine hplaced.trans (JrOnly.trans ?_ (compactSegs_jrOnly 240 _))
    rfl
  have hsession := openSession_frame s
  unfold JrOnly at hformed
  rw [hformed, hsession]

theorem moduleRecord_frame (s : State) (typ action arg : Nat) :
    moduleRecord s typ action arg = { s with jr := (moduleRecord s typ action arg).jr, md := (moduleRecord s typ action arg).md } := formRecord_frame s _ _

/-! ### Vendor features -/

/-- A power limit taken by Set Features (R413): what `writeLimit` takes, saved where the command says so. -/
theorem setLimit_pw (s : State) (e : Sqe) : (setLimit s e).pw.limit = roundLimit (fld e.cdw11 0 8) ∧
    (setLimit s e).pw.limitSaved = (if sqeSave e then roundLimit (fld e.cdw11 0 8) else s.pw.limitSaved) ∧
    (setLimit s e).pw.sel = s.pw.sel ∧ (setLimit s e).zn = s.zn := by
  obtain ⟨hlimit, hsel, hsaved⟩ := writeLimit_pw s (fld e.cdw11 0 8)
  have hzn : (writeLimit s (fld e.cdw11 0 8)).zn = s.zn := refreshPower_zn _
  unfold setLimit
  cases sqeSave e with
  | true => exact ⟨hlimit, hlimit, hsel, hzn⟩
  | false => exact ⟨hlimit, hsaved, hsel, hzn⟩

/-- A tenant's budget as Set Features takes it (R179): the allotments for the next period, the zone limits and the share now. -/
def budgetTaken (s : State) (e : Sqe) : State :=
  { s with cal := { s.cal with
    budgets := KV.set s.cal.budgets (fld e.cdw11 0 7) { budgetAt s (fld e.cdw11 0 7) s.cal.period with
      active := (budgetOf s.part e.data).active, open_ := (budgetOf s.part e.data).open_, share := (budgetOf s.part e.data).share }
    nextBudgets := KV.set s.cal.nextBudgets (fld e.cdw11 0 7) (budgetOf s.part e.data)
    savedBudgets := if sqeSave e then KV.set s.cal.savedBudgets (fld e.cdw11 0 7) (budgetOf s.part e.data) else s.cal.savedBudgets } }

theorem execSetTenantBudget_taken {s s1 : State} {e : Sqe} {st : Nat} (hadm : Admitted s e false .features st s1) (hpf : e.func = 0)
    (hbad : budgetBad s1.part e.data = false) (hrest : fld e.cdw11 7 25 = 0) (hbarred : budgetBarred s1 (fld e.cdw11 0 7) (budgetOf s1.part e.data) = false)
    (hlimits : limitsKept s1 (fld e.cdw11 0 7) (budgetOf s1.part e.data) = true) :
    exec (.setTenantBudget e) s = .next (adminDone (budgetTaken s1 e) e .success ((s1.cal.period + 1) % 2^32)) := by
  show execSetTenantBudget e s = _
  unfold execSetTenantBudget
  dsimp only
  rw [adminCmd_admitted hadm (by simp [featureField, hpf, hbad, hrest])]
  rw [hadm.part.symm, hbarred, hlimits, if_neg (by simp), if_neg (by simp)]
  rfl

/-- Settles O23. -/
theorem vendorFeatures : Obligations.VendorFeatures := by
  unfold Obligations.VendorFeatures
  refine ⟨?bound, ?locked, ?budget, ?power, ?thermal, ?permit, ?dedication⟩
  case bound =>
    intro s s1 e st q hadm hsave hqid hq hlocked hcls
    refine (adminCmd_admitted hadm (by simp [featureField, hsave, hqid, hq, hcls]) _).trans ?_
    simp [hq, hcls, hlocked]
  case locked =>
    intro s s1 e st q hadm hsave hqid hq hlocked hcls
    have hclass : fld e.cdw11 16 3 = 0 ∨ fld e.cdw11 16 3 = 1 ∨ fld e.cdw11 16 3 = 2 ∨ fld e.cdw11 16 3 = 3 := by omega
    rcases hclass with h | h | h | h
    all_goals
      refine (adminCmd_admitted hadm (by simp [featureField, hsave, hqid, hq, h]) _).trans ?_
      simp [hq, h, hlocked]
  case budget =>
    intro s s1 e st hadm hpf hbad hrest hbarred hlimits
    rw [← hadm.part] at hbad hbarred hlimits ⊢
    exact ⟨_, execSetTenantBudget_taken hadm hpf hbad hrest hbarred hlimits, rfl, KV.find_set_self _ _ _, _, KV.find_set_self _ _ _, rfl, rfl, rfl⟩
  case power =>
    intro s s1 e st hadm hpf
    obtain ⟨hlimit, hsaved, hsel, hzn⟩ := setLimit_pw s1 e
    exact ⟨_, adminCmd_admitted hadm (by simp [featureField, hpf]) _, hlimit, hsaved, hsel,
      (setLimit_kept (K := true) (J := true) e (Kept.refl s1)).core rfl, hzn⟩
  case thermal =>
    intro s s1 e st hadm hpf hctrl hflash
    exact adminCmd_admitted hadm (by simp [featureField, hpf, offsetsBad, hctrl, hflash]) _
  case permit =>
    intro s s1 e st hadm hpf
    exact adminCmd_admitted hadm (by simp [featureField, hpf]) _
  case dedication =>
    intro s s1 e st hadm hpf hgroup hretired hded hfree hothers
    have hnone : (List.range funcs).any (fun x => x != fld e.cdw11 8 7 && (((stored s1 x).on (fld e.cdw11 0 6)).e != 0 ||
        ((stored s1 x).on (fld e.cdw11 0 6)).s != 0 || ((stored s1 x).on (fld e.cdw11 0 6)).b != 0)) = false := by
      refine List.any_eq_false.2 fun f hf => ?_
      by_cases hown : f = fld e.cdw11 8 7
      · simp [hown]
      · obtain ⟨he, hs, hb⟩ := hothers f (List.mem_range.1 hf) hown
        simp [he, hs, hb]
    let u := { s1 with cal := { s1.cal with dedicated := KV.set s1.cal.dedicated (fld e.cdw11 0 6) (fld e.cdw11 8 7) } }
    refine ⟨moduleRecord u 0x21 5 (fld e.cdw11 0 6), ?_, ?_, (moduleRecord_kept (K := true) (J := true) _ _ _ (Kept.upd (Kept.refl s1) rfl rfl rfl)).core rfl⟩
    · refine (adminCmd_admitted hadm ?_ _).trans ?_
      · simp [hpf, hgroup, hretired]
      · simp only [hded, hfree, hnone]
        simp [u]
    · rw [moduleRecord_frame]
      exact KV.find_set_self _ _ _

end Sys2Proof.Machine

namespace Sys2Proof.Machine

/-! SUPPORT. Reports (R89, R183 to R186, R337, R412, R418, R430). -/

theorem bytesFrom_length (g : Nat → Nat) (o n : Nat) : (bytesFrom g o n).length = n := by simp [bytesFrom]

theorem nth_bytesFrom (g : Nat → Nat) (o : Nat) {n i : Nat} (h : i < n) : nth (bytesFrom g o n) i = g (o + i) := by
  simp [nth, bytesFrom, List.getD, h]

/-- Where a log can be read, as many bytes are returned as asked for (R418). -/
theorem logData_length {s : State} {e : Sqe} (h : logError s e = none) : (logData s e).length = logBytes e := by
  unfold logError at h
  unfold logData
  split at h
  · cases h
  · exact bytesFrom_length _ _ _

/-- What the reading of a log leaves alone, its event cleared or not (R418). -/
structure LogRead (s t : State) : Prop where
  media : t.media = s.media
  jr : t.jr = s.jr
  tel : t.tel = s.tel
  telHost : t.adm.telHost = s.adm.telHost
  telHostAt : t.adm.telHostAt = s.adm.telHostAt
  store : t.zn.store = s.zn.store
  core : Core s t

theorem clearEvent_logRead (s : State) (e : Sqe) : LogRead s (clearEvent s e) := by
  suffices h : (clearEvent s e).media = s.media ∧ (clearEvent s e).jr = s.jr ∧ (clearEvent s e).tel = s.tel ∧
      (clearEvent s e).adm.telHost = s.adm.telHost ∧ (clearEvent s e).adm.telHostAt = s.adm.telHostAt ∧ (clearEvent s e).zn.store = s.zn.store by
    obtain ⟨hmedia, hjr, htel, htelHost, htelHostAt, hstore⟩ := h
    exact ⟨hmedia, hjr, htel, htelHost, htelHostAt, hstore, (clearEvent_kept (K := true) (J := true) e (Kept.refl s)).core rfl⟩
  unfold clearEvent
  dsimp only
  split
  · exact ⟨rfl, rfl, rfl, rfl, rfl, rfl⟩
  · split
    · exact ⟨rfl, rfl, rfl, rfl, rfl, rfl⟩
    · split
      · exact ⟨rfl, rfl, rfl, rfl, rfl, rfl⟩
      · split <;> exact ⟨rfl, rfl, rfl, rfl, rfl, rfl⟩

/-- With RAE set the reading of a log changes nothing (R418). -/
theorem clearEvent_retained {e : Sqe} (h : e.cdw10.getLsbD 15 = true) (s : State) : clearEvent s e = s := by
  unfold clearEvent
  rw [if_pos h]

/-- A hold-up test asked for starts where it is allowed, else it waits (R337). -/
theorem tryTest_asked (s : State) (h : s.sup.test = .waiting) : tryTest s = { s with sup := (tryTest s).sup } ∧
    (tryTest s).sup.testWaiters = s.sup.testWaiters ∧ (tryTest s).sup.test = (if testAllowed s then .falling else .waiting) ∧
    (tryTest s).sup.charger = (s.sup.charger && !testAllowed s) := by
  unfold tryTest
  cases hallowed : testAllowed s with
  | true => simp [h, startTest]
  | false => simp [h]

/-- Settles O24. -/
theorem reports : Obligations.Reports := by
  unfold Obligations.Reports
  refine ⟨?identify, ?log, ?telemetry, ?features, ?group, ?die, ?stored, ?test⟩
  case identify =>
    intro s s1 e st g hadm hdoc
    refine ⟨bytesFrom g 0 4096, ?_, bytesFrom_length _ _ _, fun i hi => ?_⟩
    · refine (adminCmd_admitted hadm (by rw [hdoc]; rfl) _).trans ?_
      rw [hdoc]
      rfl
    · rw [nth_bytesFrom g 0 hi, Nat.zero_add]
  case log =>
    intro s s1 e st hadm hlog
    have h := clearEvent_logRead s1 e
    exact ⟨clearEvent s1 e, _, adminCmd_admitted hadm hlog _, rfl, logData_length hlog, fun hrae => clearEvent_retained hrae s1, h.media, h.jr, h.core⟩
  case telemetry =>
    intro s s1 e st hadm hlog
    let e' : Sqe := { e with cdw10 := BitVec.ofNat 32 (e.cdw10.toNat / 256 * 256 + 7) }
    let u : State := { s1 with adm := { s1.adm with telHost := (s1.adm.telHost + 1) % 256, telHostAt := s1.time.dtb }, tel := { s1.tel with host := some (snapOf s1) } }
    have h := clearEvent_logRead u e'
    refine ⟨nextFree (clearEvent u e'), _, adminCmd_admitted hadm hlog _, h.telHost, h.telHostAt, ⟨snapOf s1, ?_⟩, h.store, h.media, ?_⟩
    · show (clearEvent u e').tel.host = _
      rw [h.tel]
    · exact ⟨h.core.md, h.core.boot, h.core.time, h.core.sup, h.core.shut⟩
  case features =>
    intro s s1 e st v d hadm hvalue
    refine (adminCmd_admitted hadm (by rw [hvalue]; rfl) _).trans ?_
    rw [hvalue]
    rfl
  case group =>
    intro s s1 e st hadm haction hpart hsgl
    exact ⟨_, adminCmd_admitted hadm (by simp [haction, hpart, hsgl]) _, bytesFrom_length _ _ _⟩
  case die =>
    intro s s1 e st hadm haction hpf hpart
    exact ⟨_, adminCmd_admitted hadm (by simp [haction, hpf, hpart]) _, rfl, rfl⟩
  case stored =>
    intro s s1 e st hadm haction hsgl
    exact adminCmd_admitted hadm (by simp [haction, hsgl]) _
  case test =>
    intro s s1 e st hadm haction hsgl hidle
    let u : State := { s1 with sup := { s1.sup with testWaiters := s1.sup.testWaiters ++ [(ownerOf s1 e.func, 0, e.cid)], test := .waiting } }
    obtain ⟨hframe, hwaiters, htest, hcharger⟩ := tryTest_asked u rfl
    refine ⟨tryTest u, ?_, hframe, hwaiters, htest, hcharger⟩
    refine (adminCmd_admitted hadm (by simp [haction, hsgl]) _).trans ?_
    rw [hidle, if_pos rfl]

end Sys2Proof.Machine

namespace Sys2Proof.Machine

/-! SUPPORT. Namespace Management and Attachment (R90, R97, R307, R387). -/

/-! ### Notices, records and path states leave a namespace's description alone -/

theorem noteNs_zn (s : State) (nsid : Nat) : (noteNs s nsid).zn = s.zn :=
  foldl_field State.zn (fun (s : State) f =>
    raiseAen (setCtrl s f (fun c => { c with changedNs := if c.changedNs.contains nsid then c.changedNs else c.changedNs ++ [nsid] })) f 2 0 4)
    (fun s f => raiseAen_zn (setCtrl s f _) f 2 0 4) _ s

/-- A namespace record that is not carried to the twin leaves the namespaces alone. -/
theorem nsRecord_zn (s : State) (nsid action arg key : Nat) : (nsRecord s nsid action arg key false).zn = s.zn := by
  unfold nsRecord
  dsimp only
  rw [Bool.false_and, Bool.false_and, if_neg (by simp), formRecord_frame]

/-- A namespace without the path state it shows (R92). -/
def Ns.described (n : Ns) : Ns := { n with anaShown := .change, anaCount := 0, paths := [] }

theorem nsOf_setNs (s : State) (nsid : Nat) (g : Ns → Ns) (i : Nat) : nsOf (setNs s nsid g) i = if i = nsid then (nsOf s i).map g else nsOf s i :=
  KV.find_adj _ _ _ _

theorem raiseEach_nsOf (s : State) (l : List Nat) (typ info log i : Nat) : nsOf (l.foldl (fun s f => raiseAen s f typ info log) s) i = nsOf s i := by
  unfold nsOf
  rw [(raiseEach_quiet s l typ info log).zn]

/-- Path states brought up to date leave the rest of every namespace alone (R92). -/
theorem updateAna_described (s : State) (i : Nat) : (nsOf (updateAna s) i).map Ns.described = (nsOf s i).map Ns.described := by
  unfold updateAna
  generalize s.zn.ns = l
  induction l generalizing s with
  | nil => rfl
  | cons p l ih =>
    refine (ih _).trans ?_
    dsimp only
    split
    · rfl
    · rw [raiseEach_nsOf, nsOf_setNs]
      split
      · rw [Option.map_map]
        rfl
      · rfl

/-! ### Create -/

/-- A new namespace is listed as described, with its data slot (R96, R387). -/
theorem createNs_listed (s : State) (nsid : Nat) (n : Ns) (key : Nat) : ∃ sl, nsOf (createNs s nsid n key) nsid = some { n with slots := sl } := by
  refine ⟨if n.held then freeDataSlots s 1 else [], ?_⟩
  unfold createNs nsOf
  dsimp only
  rw [noteNs_zn, nsRecord_zn]
  exact KV.find_set_self _ _ _

theorem createNs_described {s : State} {nsid : Nat} {n : Ns} {key : Nat} : ∃ m, nsOf (updateAna (createNs s nsid n key)) nsid = some m ∧
    m.zoned = n.zoned ∧ m.nsze = n.nsze ∧ m.flbas = n.flbas ∧ m.dps = n.dps ∧ m.mirrored = n.mirrored ∧ m.zones = n.zones := by
  obtain ⟨sl, hlisted⟩ := createNs_listed s nsid n key
  have hsame := updateAna_described (createNs s nsid n key) nsid
  rw [hlisted, Option.map_some] at hsame
  obtain ⟨m, hm, hdescribed⟩ := Option.map_eq_some_iff.1 hsame
  exact ⟨m, hm, (congrArg Ns.zoned hdescribed :), (congrArg Ns.nsze hdescribed :), (congrArg Ns.flbas hdescribed :), (congrArg Ns.dps hdescribed :),
    (congrArg Ns.mirrored hdescribed :), (congrArg Ns.zones hdescribed :)⟩

/-- What a create's data describes (R90, R96). -/
theorem nsDescribed_fields (s : State) (e : Sqe) : (nsDescribed s e).nsze = le e.data 0 8 ∧ (nsDescribed s e).flbas = nth e.data 26 % 16 ∧
    (nsDescribed s e).dps = nth e.data 29 ∧ (nsDescribed s e).mirrored = s.zn.defMirrored ∧ (nsDescribed s e).zones = [] := by
  unfold nsDescribed
  exact ⟨rfl, rfl, rfl, rfl, rfl⟩

/-- A namespace with the numbers its zones are given (R124). -/
def Ns.numbered (n : Ns) (nums : List Nat) : Ns := { n with znums := nums }

/-- The create outside Service that finds room and an NSID (R97, R307). -/
theorem execNamespaceCreate_created {s s1 : State} {e : Sqe} {st nsid : Nat}
    (hadm : Admitted s e true (if s.zn.defMirrored then .createMirrored else .namespaces) st s1) (hmode : s1.md.mode ≠ .service)
    (hfield : createField e s1 = none) (hfits : nsFits s1 (nsDescribed s1 e) 1 = true)
    (hnumbers : (nsDescribed s1 e).zoned = true → (newNumbers s1 (nsDescribed s1 e).mirrored (nsDescribed s1 e).zoneCount).length = (nsDescribed s1 e).zoneCount)
    (hnsid : newNsid s1 = some nsid) :
    ∃ nums, exec (.namespaceCreate e) s =
      .next (adminDone (updateAna (createNs (drawKey s1).2 nsid ((nsDescribed s1 e).numbered nums) (drawKey s1).1)) e .success nsid) := by
  refine ⟨if (nsDescribed s1 e).zoned then newNumbers s1 (nsDescribed s1 e).mirrored (nsDescribed s1 e).zoneCount else [], ?_⟩
  show execNamespaceCreate e s = _
  unfold execNamespaceCreate
  rw [adminCmd_admitted hadm hfield]
  dsimp only
  rw [if_neg, hnsid]
  · exact congrArg Host.Outcome.next (if_neg hmode)
  · rintro (hroom | ⟨hzoned, hshort⟩)
    · simp [hfits] at hroom
    · rw [if_pos hzoned] at hshort
      exact hshort (hnumbers hzoned)

/-! ### Delete -/

theorem lbaKey_nsid {nsid lba : Nat} (h : lba < 2^64) : lbaKey nsid lba / 2^64 = nsid := by
  unfold lbaKey
  omega

/-- What is planned for a namespace and its content go (R97). -/
theorem dropNsWork_unwritten (s : State) (nsid : Nat) {lba : Nat} (h : lba < 2^64) : readLba (dropNsWork s nsid) nsid lba = {} := by
  have hgone : (lbaKey nsid lba / 2^64 != nsid) = false := by
    rw [lbaKey_nsid h]
    exact bne_self_eq_false nsid
  have hnone : KV.find (dropNsWork s nsid).zn.store (lbaKey nsid lba) = none :=
    KV.find_keep_none _ (fun k _ => k / 2^64 != nsid) _ (fun _ => hgone)
  unfold readLba KV.findD
  rw [hnone]
  rfl

/-- What follows the planned work of a deleted namespace leaves the content as that left it (R97). -/
theorem deleteNs_kept_wiped {s : State} {nsid : Nat} {n : Ns} (h : nsOf s nsid = some n) : ∃ u, Kept false true (dropNsWork u nsid) (deleteNs s nsid) := by
  refine ⟨noteNs (endReshape ((openOn s nsid).foldl (fun s sl => finish s sl .invalidNamespace) s) nsid .aborted) nsid, ?_⟩
  unfold deleteNs
  rw [h]
  extract_lets ended noted wiped retired
  have hwiped : Kept false true (dropNsWork noted nsid) wiped := eraseNsSets_kept nsid (dropMeta_kept nsid (Kept.refl _))
  have hretired : Kept false true (dropNsWork noted nsid) retired := hwiped.foldl fun _ _ hk => retire_kept _ hk
  clear_value retired
  dsimp only
  with_reducible apply settleKeys_kept
  with_reducible apply nsRecord_kept
  exact Kept.upd (hretired.foldl fun _ _ hk => zeroizeSlot_kept _ hk) rfl rfl rfl

theorem deleteNs_unwritten {s : State} {nsid : Nat} {n : Ns} (h : nsOf s nsid = some n) {lba : Nat} (hlba : lba < 2^64) :
    readLba (deleteNs s nsid) nsid lba = {} := by
  obtain ⟨u, hkept⟩ := deleteNs_kept_wiped h
  refine Eq.trans ?_ (dropNsWork_unwritten u nsid hlba)
  unfold readLba
  rw [hkept.content rfl]

/-- Outside Service a change is done once this module has it (R307). -/
theorem doneOnBoth_alone {s : State} {e : Sqe} {kind dw0 nsid arg : Nat} {body : List Nat} (h : s.md.mode ≠ .service) :
    doneOnBoth s e kind dw0 nsid arg body = adminDone s e .success dw0 := if_neg h

theorem execNamespaceDelete_deleted {s s1 : State} {e : Sqe} {st : Nat} {n : Ns} (hadm : Admitted s e true .namespaces st s1) (hmode : s1.md.mode ≠ .service)
    (hnsid : e.nsid ≠ 0xFFFFFFFF) (hn : nsOf s1 e.nsid = some n) : exec (.namespaceDelete e) s = .next (adminDone (deleteNs s1 e.nsid) e .success) := by
  show execNamespaceDelete e s = _
  unfold execNamespaceDelete
  rw [adminCmd_admitted hadm]
  · rw [if_neg hnsid]
    exact congrArg Host.Outcome.next (doneOnBoth_alone (((deleteNs_kept (K := true) e.nsid (Kept.refl s1)).core rfl).mode ▸ hmode))
  · simp [hn]

/-! ### Attach and detach -/

/-- The namespace as an attach or a detach leaves it: the functions listed, taken in or out. -/
def Ns.reattached (s : State) (ids : List Nat) (attach : Bool) (n : Ns) : Ns :=
  { n with
    attached := n.attached.filter (fun f => !(listedHere s ids).contains f) ++ (if attach then listedHere s ids else [])
    attachedTwin := n.attachedTwin.filter (fun f => !(listedTwin s ids).contains f) ++ (if attach then listedTwin s ids else []) }

theorem setAttached_nsOf {s : State} {nsid : Nat} {ids : List Nat} {attach : Bool} {n : Ns} (h : nsOf s nsid = some n) :
    nsOf (setAttached s nsid ids attach) nsid = some (n.reattached s ids attach) := by
  cases attach with
  | true =>
    show KV.find (noteNs (setNs s nsid (Ns.reattached s ids true)) nsid).zn.ns nsid = _
    rw [noteNs_zn]
    exact (nsOf_setNs _ _ _ _).trans (by rw [if_pos rfl, h]; rfl)
  | false =>
    show nsOf (setNs ((listedHere s ids).foldl (fun s f => raiseAen s f 2 0 4) s) nsid (Ns.reattached s ids false)) nsid = _
    rw [nsOf_setNs, if_pos rfl, raiseEach_nsOf, h]
    rfl

theorem mem_listedHere {s : State} {ids : List Nat} {f : Nat} (hf : f < 128) (h : ids.contains (cntlid s f) = true) : f ∈ listedHere s ids :=
  List.mem_filter.2 ⟨List.mem_range.2 hf, h⟩

theorem Ns.reattached_attached {s : State} {ids : List Nat} {attach : Bool} {n : Ns} {f : Nat} (hf : f < 128) (h : ids.contains (cntlid s f) = true) :
    (n.reattached s ids attach).attached.contains f = attach := by
  have hlisted := mem_listedHere hf h
  cases attach <;> simp [Ns.reattached, hlisted]

/-- An attachment admitted names a namespace that exists. -/
theorem attachField_nsOf {s : State} {e : Sqe} {attach : Bool} (h : attachField e attach s = none) : ∃ n, nsOf s e.nsid = some n := by
  cases hn : nsOf s e.nsid with
  | some n => exact ⟨n, rfl⟩
  | none => simp [attachField, hn] at h

/-- An attach or a detach outside Service, as its arm runs it (R90). -/
theorem adminCmd_attachment {s s1 : State} {e : Sqe} {st : Nat} {attach : Bool} {body : List Nat} (hadm : Admitted s e true .namespaces st s1) (hmode : s1.md.mode ≠ .service)
    (hfield : attachField e attach s1 = none) :
    adminCmd e s true .namespaces (attachField e attach) (fun s => doneOnBoth (setAttached s e.nsid (listedIds e) attach) e 1 0 e.nsid 0 body) =
      .next (adminDone (setAttached s1 e.nsid (listedIds e) attach) e .success) := by
  rw [adminCmd_admitted hadm hfield]
  exact congrArg Host.Outcome.next (doneOnBoth_alone (((setAttached_kept (K := true) (J := true) e.nsid _ attach (Kept.refl s1)).core rfl).mode ▸ hmode))

theorem setAttached_attachment {s1 : State} {e : Sqe} {attach : Bool} (hfield : attachField e attach s1 = none) :
    ∃ n, nsOf (setAttached s1 e.nsid (listedIds e) attach) e.nsid = some n ∧
      (∀ f, f < 128 → (listedIds e).contains (cntlid s1 f) = true → n.attached.contains f = attach) ∧
      (setAttached s1 e.nsid (listedIds e) attach).zn.store = s1.zn.store ∧ Core s1 (setAttached s1 e.nsid (listedIds e) attach) := by
  obtain ⟨n, hn⟩ := attachField_nsOf hfield
  have hkept := setAttached_kept (K := true) (J := true) e.nsid (listedIds e) attach (Kept.refl s1)
  exact ⟨_, setAttached_nsOf hn, fun f hf h => Ns.reattached_attached hf h, hkept.content rfl, hkept.core rfl⟩

/-! ### The obligation -/

/-- Settles O25. -/
theorem namespaceManagement : Obligations.NamespaceManagement := by
  unfold Obligations.NamespaceManagement
  refine ⟨?created, ?deleted, ?attached, ?detached, ?policy⟩
  case created =>
    intro s s1 e st nsid hadm hmode hfield hfits hnumbers hnsid
    obtain ⟨nums, hexec⟩ := execNamespaceCreate_created hadm hmode hfield hfits hnumbers hnsid
    obtain ⟨m, hm, hzoned, hnsze, hflbas, hdps, hmirrored, hzones⟩ := createNs_described
      (s := (drawKey s1).2) (nsid := nsid) (n := ((nsDescribed s1 e).numbered nums)) (key := (drawKey s1).1)
    have hkept : Kept true true s1 (updateAna (createNs (drawKey s1).2 nsid ((nsDescribed s1 e).numbered nums) (drawKey s1).1)) :=
      updateAna_kept (createNs_kept _ _ _ (drawKey_kept (Kept.refl s1)))
    obtain ⟨hsize, hformat, hprotect, hdefault, hempty⟩ := nsDescribed_fields s1 e
    exact ⟨_, m, hexec, hm, hzoned, hnsze.trans hsize, hflbas.trans hformat, hdps.trans hprotect, hmirrored.trans hdefault, hzones.trans hempty, hkept.content rfl, hkept.core rfl⟩
  case deleted =>
    intro s s1 e st n hadm hmode hnsid hn
    exact ⟨_, execNamespaceDelete_deleted hadm hmode hnsid hn, fun lba hlba => deleteNs_unwritten hn hlba, (deleteNs_kept (K := true) e.nsid (Kept.refl s1)).core rfl⟩
  case attached =>
    intro s s1 e st hadm hmode hfield
    obtain ⟨n, hn, hattached, hframe⟩ := setAttached_attachment hfield
    have hexec : execNamespaceAttach e s = _ := adminCmd_attachment hadm hmode hfield
    exact ⟨_, n, hexec, hn, hattached, hframe⟩
  case detached =>
    intro s s1 e st hadm hmode hfield
    obtain ⟨n, hn, hattached, hframe⟩ := setAttached_attachment hfield
    have hexec : execNamespaceDetach e s = _ := adminCmd_attachment hadm hmode hfield
    exact ⟨_, n, hexec, hn, hattached, hframe⟩
  case policy =>
    intro s s1 e st hadm hfunc hall
    show execSetTwinPolicy e s = _
    unfold execSetTwinPolicy
    rw [adminCmd_admitted hadm]
    · rw [if_pos hall]
    · simp [hfunc, hall]

end Sys2Proof.Machine

namespace Sys2Proof.Machine

/-! SUPPORT. Reads, reports and flush (R86, R101, R103, R105, R137, R138, R239, R270). -/

/-! ### Buffers: what giving a command its buffers leaves alone -/

/-- From `c` to `s` nothing but the command table and the processors' side of the buffers changed. -/
def PortIt (c s : State) : Prop := s = { c with port := s.port, it := s.it }

theorem PortIt.refl (s : State) : PortIt s s := rfl

theorem PortIt.trans {a b c : State} (h : PortIt a b) (k : PortIt b c) : PortIt a c := by
  unfold PortIt at *
  rw [k, h]

theorem PortIt.foldl {α : Type} {f : State → α → State} (h : ∀ s x, PortIt s (f s x)) (l : List α) (s : State) : PortIt s (l.foldl f s) := by
  induction l generalizing s with
  | nil => exact PortIt.refl s
  | cons x l ih => exact (h s x).trans (ih _)

theorem PortIt.field {α : Type} {c s : State} (h : PortIt c s) (f : State → α) (hf : ∀ p i, f { c with port := p, it := i } = f c) : f s = f c := by
  unfold PortIt at h
  rw [h]
  exact hf _ _

theorem decBuf_portIt (s : State) (b : Nat) : PortIt s (decBuf s b) := by
  unfold decBuf giveBuf
  split <;> rfl

theorem spillSends_portIt (s : State) : PortIt s (spillSends s) := by
  unfold spillSends
  split
  · exact PortIt.refl s
  · refine PortIt.foldl (fun s p => ?_) _ s
    dsimp only
    split
    · exact PortIt.refl s
    · refine (PortIt.foldl decBuf_portIt p.2.bufs s).trans ?_
      exact rfl

theorem takeBufs_portIt (s : State) (slot bytes : Nat) (users : List BufUser) : PortIt s (takeBufs s slot bytes users) := by
  unfold takeBufs
  split
  · split
    · rfl
    · refine PortIt.trans ?_ (spillSends_portIt _)
      dsimp only
      split <;> rfl
  · rfl
  · rfl

theorem accept_portIt (s : State) (slot : Nat) (c : Cmd) : PortIt s (accept s slot c) := rfl

/-- A command without its buffers. -/
def Cmd.unbuffered (c : Cmd) : Cmd := { c with bufs := [], needBytes := 0, users := [], spilled := 0 }

/-- The command in a slot, without its buffers. -/
def cmdAt (s : State) (slot : Nat) : Option Cmd := (KV.find s.port.cmds slot).map Cmd.unbuffered

theorem cmdAt_of_port {s t : State} (h : s.port = t.port) (i : Nat) : cmdAt s i = cmdAt t i := by
  unfold cmdAt
  rw [h]

/-- A change of a command's buffers changes nothing else of any command. -/
theorem setCmd_cmdAt (s : State) (slot i : Nat) (f : Cmd → Cmd) (h : ∀ c, (f c).unbuffered = c.unbuffered) : cmdAt (setCmd s slot f) i = cmdAt s i := by
  unfold cmdAt setCmd
  dsimp only
  rw [KV.find_adj]
  split
  · rw [Option.map_map]
    exact congrArg (fun g => (KV.find s.port.cmds i).map g) (funext h)
  · rfl

theorem spillSends_cmdAt (s : State) (i : Nat) : cmdAt (spillSends s) i = cmdAt s i := by
  unfold spillSends
  split
  · rfl
  · refine foldl_field (fun s => cmdAt s i) _ (fun s p => ?_) _ s
    dsimp only
    split
    · rfl
    · refine (setCmd_cmdAt _ _ _ _ ?_).trans ?_
      · exact fun _ => rfl
      · exact cmdAt_of_port (foldl_field State.port _ (fun s b => by simp) p.2.bufs s) i

/-- Taking buffers, or waiting for them, changes nothing else of any command (R468, R471). -/
theorem takeBufs_cmdAt (s : State) (slot bytes : Nat) (users : List BufUser) (i : Nat) : cmdAt (takeBufs s slot bytes users) i = cmdAt s i := by
  unfold takeBufs
  split
  · split
    · exact setCmd_cmdAt _ _ _ _ fun _ => rfl
    · refine (spillSends_cmdAt _ _).trans ((setCmd_cmdAt _ _ _ _ ?_).trans ?_)
      · exact fun _ => rfl
      · dsimp only
        split <;> rfl
  · exact setCmd_cmdAt _ _ _ _ fun _ => rfl
  · rfl

theorem exists_of_cmdAt {s : State} {slot : Nat} {c : Cmd} (h : cmdAt s slot = some c.unbuffered) :
    ∃ c', KV.find s.port.cmds slot = some c' ∧ c'.unbuffered = c.unbuffered := Option.map_eq_some_iff.1 h

/-! ### Acceptance -/

/-- The command as it is accepted (R29, R31): a bound one armed with its deadline and its rescue instant. -/
def Cmd.armedNow (c : Cmd) : Cmd :=
  if c.cls = .unbound then c
  else { c with
    deadline := some (c.stamp + bound c.cls c.op.isWrite), armed := true
    rescue := some (c.stamp + bound c.cls c.op.isWrite - bound c.cls c.op.isWrite / 4) }

theorem accept_find (s : State) (slot : Nat) (c : Cmd) : KV.find (accept s slot c).port.cmds slot = some c.armedNow :=
  KV.find_set_self _ _ _

theorem Cmd.armedNow_unbound {c : Cmd} (h : c.cls = .unbound) : c.armedNow = c := if_pos h

theorem Cmd.armedNow_bound {c : Cmd} (h : c.cls ≠ .unbound) : c.armedNow =
    { c with
      deadline := some (c.stamp + bound c.cls c.op.isWrite), armed := true
      rescue := some (c.stamp + bound c.cls c.op.isWrite - bound c.cls c.op.isWrite / 4) } := if_neg h

/-! ### The claims of a read -/

/-- From `c` to `s` the calendar alone changed. -/
def CalOnly (c s : State) : Prop := s = { c with cal := s.cal }

theorem CalOnly.trans {a b c : State} (h : CalOnly a b) (k : CalOnly b c) : CalOnly a c := by
  unfold CalOnly at *
  rw [k, h]

/-- A placement, where it succeeds, writes the calendar alone. -/
def Places (c : State) (r : Except Why State) : Prop := ∀ s, r = .ok s → CalOnly c s

theorem Places.ok {c s : State} (h : CalOnly c s) : Places c (.ok s) := fun _ e => by
  cases e
  exact h

theorem Places.error {c : State} {w : Why} : Places c (.error w) := fun _ e => nomatch e

theorem Places.foldl {α : Type} {f : Except Why State → α → Except Why State} (l : List α) {c : State}
    (herr : ∀ w x, f (.error w) x = .error w) (hok : ∀ s x, Places s (f (.ok s) x)) {r : Except Why State} (hr : Places c r) : Places c (l.foldl f r) := by
  induction l generalizing r with
  | nil => exact hr
  | cons x l ih =>
    refine ih ?_
    cases r with
    | error w =>
      rw [herr]
      exact Places.error
    | ok s => exact fun t ht => (hr s rfl).trans (hok s x t ht)

theorem placeTarget_places (s : State) (f : Nat) (cls : LClass) (slot d : Nat) (x : Need) (w : Win) : Places s (placeTarget s f cls slot d x w) := by
  unfold placeTarget
  dsimp only
  split
  · exact Places.ok rfl
  · split <;> exact Places.error

theorem placeSurvivor_places (s : State) (f : Nat) (cls : LClass) (slot d : Nat) (x : Need) (w : Win) (r : Bool) : Places s (placeSurvivor s f cls slot d x w r) := by
  unfold placeSurvivor
  dsimp only
  split
  · exact Places.ok rfl
  · split <;> exact Places.error

theorem placeAround_places (s : State) (f : Nat) (cls : LClass) (slot d : Nat) (x : Need) (w : Win) (r : Bool) : Places s (placeAround s f cls slot d x w r) :=
  Places.foldl _ (fun _ _ => rfl) (fun s _ => placeSurvivor_places s _ _ _ _ _ _ _) (Places.ok rfl)

theorem aroundIn_places (s : State) (f : Nat) (cls : LClass) (slot d : Nat) (x : Need) (w : Win) : Places s (aroundIn s f cls slot d x w) := by
  unfold aroundIn
  have haround := placeAround_places s f cls slot d x w true
  cases hplaced : placeAround s f cls slot d x w true with
  | error e => exact Places.error
  | ok s' =>
    dsimp only
    split
    · exact Places.ok ((haround s' hplaced).trans rfl)
    · exact Places.error

theorem placeNeed_places (s : State) (f : Nat) (cls : LClass) (slot d : Nat) (x : Need) (w : Win) : Places s (placeNeed s f cls slot d x w) := by
  unfold placeNeed
  split
  · exact placeAround_places s f cls slot d x w false
  · have htarget := placeTarget_places s f cls slot d x w
    have haround := aroundIn_places s f cls slot d x w
    split
    · next s' hplaced => exact Places.ok (htarget s' hplaced)
    · exact Places.error
    · split
      · split
        · next s' hplaced => exact Places.ok (haround s' hplaced)
        · split
          · exact aroundIn_places s f cls slot d x w.next
          · exact Places.error
      · exact Places.error

/-- The claims and draws of a read go into the calendar alone (R138). -/
theorem placeRead_places (s : State) (f : Nat) (cls : LClass) (slot : Nat) (needs : KV Need) (bytes s0 tv : Nat) : Places s (placeRead s f cls slot needs bytes s0 tv) := by
  unfold placeRead
  dsimp only
  split
  · exact Places.error
  · split
    · exact Places.error
    · split
      · exact Places.error
      · split
        · split
          · exact Places.ok rfl
          · exact Places.error
        · refine Places.foldl _ (fun _ _ => rfl) (fun s x => ?_) (Places.ok rfl)
          dsimp only
          split
          · exact Places.error
          · exact placeNeed_places s _ _ _ _ _ _

/-! ### Reads -/

/-- The context of a read dispatched here (R101, R138, R239). -/
def readCmd (s : State) (e : Io) (j : Judged) (needs : KV Need) : Cmd :=
  { newCmd e .read j (freeCore s) with
    data := readData s e.nsid j.ns e.slba e.nlb j.key, result := readStatus s e.nsid e.slba e.nlb
    dies := needs.map (·.1), stage := if needs.isEmpty then .dieDone else .dieRequested }

theorem startXts_portIt (s : State) (slot : Nat) (c : Cmd) (bytes : Nat) : PortIt s (startXts s slot c bytes) := by
  unfold startXts PortIt
  rfl

theorem startXts_cmdAt (s : State) (slot : Nat) (c : Cmd) (bytes i : Nat) : cmdAt (startXts s slot c bytes) i = cmdAt s i :=
  cmdAt_of_port (by simp) i

/-- The read in its slot with its buffers, or waiting for them. -/
def readTaken (s : State) (slot : Nat) (e : Io) (j : Judged) (needs : KV Need) : State :=
  takeBufs (accept s slot (readCmd s e j needs)) slot (e.nlb * lbaBytes j.ns.flbas) [.transfer]

/-- A read that needs no die begins its transfer at once. -/
theorem startRead_eq (s : State) (slot : Nat) (e : Io) (j : Judged) (needs : KV Need) : startRead s slot e j needs =
    if needs.isEmpty then startXts (readTaken s slot e j needs) slot (readCmd s e j needs) (e.nlb * lbaBytes j.ns.flbas) else readTaken s slot e j needs := rfl

theorem startRead_portIt (s : State) (slot : Nat) (e : Io) (j : Judged) (needs : KV Need) : PortIt s (startRead s slot e j needs) := by
  have htaken : PortIt s (readTaken s slot e j needs) := (accept_portIt s slot _).trans (takeBufs_portIt _ slot _ _)
  rw [startRead_eq]
  split
  · exact htaken.trans (startXts_portIt _ _ _ _)
  · exact htaken

/-- A read dispatched here is in its slot, whatever became of its buffers. -/
theorem startRead_cmdAt (s : State) (slot : Nat) (e : Io) (j : Judged) (needs : KV Need) :
    cmdAt (startRead s slot e j needs) slot = some (readCmd s e j needs).armedNow.unbuffered := by
  have htaken : cmdAt (readTaken s slot e j needs) slot = some (readCmd s e j needs).armedNow.unbuffered := by
    rw [readTaken, takeBufs_cmdAt, cmdAt, accept_find]
    rfl
  rw [startRead_eq]
  split
  · exact (startXts_cmdAt _ _ _ _ _).trans htaken
  · exact htaken

theorem admitRead_read {e : Io} {j : Judged} (h : readOffline e j.ns = false) (s placed : State) (slot : Nat) (needs : KV Need) :
    admitRead s placed slot e j needs = countClaims (startRead placed slot e j needs) slot e.func false := by
  rw [admitRead, h]
  rfl

theorem admitRead_offline {e : Io} {j : Judged} (h : readOffline e j.ns = true) (s placed : State) (slot : Nat) (needs : KV Need) :
    admitRead s placed slot e j needs = finish (accept s slot (newCmd e .read j (freeCore s))) slot .zoneIsOffline := if_pos h

/-- A read admitted is in its slot with its data; its start changes no content and no record. -/
theorem admitRead_started {e : Io} {j : Judged} (h : readOffline e j.ns = false) (s placed : State) (slot : Nat) (needs : KV Need) :
    (∃ c, KV.find (admitRead s placed slot e j needs).port.cmds slot = some c ∧ c.unbuffered = (readCmd placed e j needs).armedNow.unbuffered) ∧
      (admitRead s placed slot e j needs).zn = placed.zn ∧ (admitRead s placed slot e j needs).media = placed.media ∧ (admitRead s placed slot e j needs).jr = placed.jr := by
  rw [admitRead_read h]
  have hframe := startRead_portIt placed slot e j needs
  exact ⟨exists_of_cmdAt (startRead_cmdAt placed slot e j needs), hframe.field State.zn fun _ _ => rfl, hframe.field State.media fun _ _ => rfl, hframe.field State.jr fun _ _ => rfl⟩

theorem earlyRefusal_unbound (s : State) (stamp tv : Nat) : earlyRefusal s .unbound stamp tv = none := if_pos rfl

section
variable {s : State} {e : Io} {j : Judged}

theorem execRead_unbound (hfront : ioFront s e .read = .ok j) (hcls : j.cls = .unbound) (hpath : pathOf j.ns .read e.slba = .local_) :
    exec (.read e) s = .next (admitRead j.st j.st (freeSlot j.st) e j (needsOf j.st e.nsid j.ns e.slba e.nlb)) := by
  show execRead e s = _
  unfold execRead
  rw [hfront]
  dsimp only
  rw [hpath, hcls, if_neg (by simp), earlyRefusal_unbound]
  exact if_pos rfl

theorem execRead_placed {s' : State} (hfront : ioFront s e .read = .ok j) (hcls : j.cls ≠ .unbound) (hpath : pathOf j.ns .read e.slba = .local_)
    (hallot : noAllotment j.st e.func j.cls (needsOf j.st e.nsid j.ns e.slba e.nlb) = false) (hearly : earlyRefusal j.st j.cls j.stamp e.tv = none)
    (hplace : placeRead j.st e.func j.cls (freeSlot j.st) (needsOf j.st e.nsid j.ns e.slba e.nlb) (e.nlb * lbaBytes j.ns.flbas) j.stamp e.tv = .ok s') :
    exec (.read e) s = .next (admitRead j.st s' (freeSlot j.st) e j (needsOf j.st e.nsid j.ns e.slba e.nlb)) := by
  show execRead e s = _
  unfold execRead
  rw [hfront]
  dsimp only
  rw [hpath, if_neg (by simp [pathNeeds, hallot]), hearly]
  dsimp only
  rw [if_neg hcls]
  unfold pathNeeds
  rw [hplace]

theorem execRead_forwarded (hfront : ioFront s e .read = .ok j) (hcls : j.cls = .unbound) (hpath : pathOf j.ns .read e.slba = .forwarded) :
    exec (.read e) s = .next (forward j.st (freeSlot j.st) e (newCmd e .read j (freeCore j.st))) := by
  show execRead e s = _
  unfold execRead
  rw [hfront]
  dsimp only
  rw [hpath, hcls, if_neg (by simp), earlyRefusal_unbound]
  exact if_pos rfl

end

/-! ### Commands forwarded -/

/-- The context of a command as it is forwarded (R270). -/
def Cmd.forwarded (s : State) (c : Cmd) (claim : Nat) : Cmd :=
  { c with fwd := true, tag := s.tw.tagCtr, claim := claim, stage := if c.op.bringsData then Stage.buffered else .forwarded }

theorem send_tagCtr (s : State) (typ tag : Nat) (body : List Nat) : (send s typ tag body).tw.tagCtr = s.tw.tagCtr := by
  unfold send
  split
  · dsimp only
    split
    · rfl
    · exact formFlits_field s.tw _ _ (·.tagCtr) fun _ => rfl
  · rfl

/-- A command without data is sent to the twin at once, under the next tag (R270). -/
theorem forward_sent {s : State} {c : Cmd} (hmode : s.md.mode = .service) (hdata : c.op.bringsData = false) (slot : Nat) (e : Io) (claim : Nat) :
    KV.find (forward s slot e c claim).port.cmds slot = some (c.forwarded s claim).armedNow ∧ (forward s slot e c claim).tw.tagCtr = (s.tw.tagCtr + 1) % 2^31 ∧
      (forward s slot e c claim).zn = s.zn ∧ (forward s slot e c claim).jr = s.jr := by
  have hsent : forward s slot e c claim =
      sendForwarded { accept s slot (c.forwarded s claim) with tw := { s.tw with tagCtr := (s.tw.tagCtr + 1) % 2^31 } } e (c.forwarded s claim) := by
    unfold forward
    dsimp only
    rw [if_neg, if_neg]
    · rfl
    · simp [hdata]
    · exact fun h => h hmode
  rw [hsent, sendForwarded]
  refine ⟨?_, send_tagCtr _ _ _ _, send_zn _ _ _ _, send_jr _ _ _ _⟩
  rw [send_port]
  exact accept_find s slot _

/-! ### Zone reports -/

/-- The context of a zone report in its slot (R105, R137). -/
def reportCmd (e : Io) (j : Judged) (extended : Bool) : Cmd :=
  { newCmd e .zmr j (freeCore j.st) with
    data := (zoneReport j.ns (e.slba / zoneSize j.ns.flbas) e.option extended).take (4 * (e.numd + 1)), stage := .dieDone }

theorem zoneReceive_accepted {s : State} {e : Io} {j : Judged} (hfront : ioFront s e .zmr = .ok j) (hpath : pathOf j.ns .zmr e.slba = .local_)
    (hcls : j.cls = .unbound) (extended : Bool) : zoneReceive e s extended = accept j.st (freeSlot j.st) (reportCmd e j extended) := by
  unfold zoneReceive
  rw [hfront]
  dsimp only
  rw [hcls, earlyRefusal_unbound, hpath]
  dsimp only
  rw [if_neg (by simp), if_neg (by simp)]
  rfl

/-- A zone report stands in its slot, ready for delivery; nothing else changed. -/
theorem reportCmd_accepted {e : Io} {j : Judged} (hcls : j.cls = .unbound) (extended : Bool) :
    KV.find (accept j.st (freeSlot j.st) (reportCmd e j extended)).port.cmds (freeSlot j.st) = some (reportCmd e j extended) :=
  (accept_find _ _ _).trans (congrArg some (Cmd.armedNow_unbound hcls))

/-! ### Flush -/

/-- The context of a Flush in its slot (R132). -/
def flushCmd (e : Io) (j : Judged) : Cmd :=
  { newCmd e .flush j (freeCore j.st) with awaits := (openWrites j.st e.nsid).map (·.1), stage := .waiting }

theorem execFlush_accepted {s : State} {e : Io} {j : Judged} (hfront : ioFront s e .flush = .ok j) (hcls : j.cls = .unbound)
    (hpath : pathOf j.ns .flush = .local_) :
    exec (.flush e) s = .next (if (openWrites j.st e.nsid).isEmpty then finish (accept j.st (freeSlot j.st) (flushCmd e j)) (freeSlot j.st) .success
      else accept j.st (freeSlot j.st) (flushCmd e j)) := by
  have hunpriced : writeFront j.st e j .flush (freeSlot j.st) false = .ok j.st := if_pos hcls
  show execFlush e s = _
  unfold execFlush
  rw [hfront]
  dsimp only
  rw [hunpriced, hcls, earlyRefusal_unbound, hpath]
  dsimp only
  rw [if_neg (by simp), if_neg (by simp)]
  rfl

theorem flushCmd_accepted {e : Io} {j : Judged} (hcls : j.cls = .unbound) :
    KV.find (accept j.st (freeSlot j.st) (flushCmd e j)).port.cmds (freeSlot j.st) = some (flushCmd e j) :=
  (accept_find _ _ _).trans (congrArg some (Cmd.armedNow_unbound hcls))

/-! ### The obligation -/

/-- Judging an entry leaves what Core names (R53). -/
theorem ioFront_core {s : State} {e : Io} {op : IoOp} {all : Bool} {j : Judged} (h : ioFront s e op all = .ok j) : Core s j.st :=
  ((ioFront_kept (K := true) (J := true) e op all (Kept.refl s)).ok_kept j h).core rfl

theorem accept_core (s : State) (slot : Nat) (c : Cmd) : Core s (accept s slot c) := ⟨rfl, rfl, rfl, rfl, rfl⟩

/-- Settles O31. -/
theorem readsAndReports : Obligations.ReadsAndReports := by
  unfold Obligations.ReadsAndReports
  refine ⟨?unbound, ?placed, ?offline, ?forwarded, ?reports, ?waits, ?done⟩
  case unbound =>
    intro s e j hfront hcls hpath hoffline
    have hexec := execRead_unbound hfront hcls hpath
    obtain ⟨⟨c, hc, hread⟩, hzn, hmedia, hjr⟩ := admitRead_started hoffline j.st j.st (freeSlot j.st) (needsOf j.st e.nsid j.ns e.slba e.nlb)
    rw [Cmd.armedNow_unbound (show (readCmd _ e j _).cls = .unbound from hcls)] at hread
    exact ⟨_, c, hexec, hc, (congrArg Cmd.func hread :), (congrArg Cmd.sqid hread :), (congrArg Cmd.cid hread :), (congrArg Cmd.data hread :),
      (congrArg Cmd.result hread :), (congrArg Cmd.dies hread :), hzn, hmedia, hjr,
      ((execRead_kept (K := true) (J := true) e (Kept.refl s)).next_kept _ hexec).core rfl⟩
  case placed =>
    intro s s' e j hfront hcls hpath hoffline hallot hearly hplace
    have hexec := execRead_placed hfront hcls hpath hallot hearly hplace
    obtain ⟨⟨c, hc, hread⟩, hzn, hmedia, hjr⟩ := admitRead_started hoffline j.st s' (freeSlot j.st) (needsOf j.st e.nsid j.ns e.slba e.nlb)
    rw [Cmd.armedNow_bound (show (readCmd _ e j _).cls ≠ .unbound from hcls)] at hread
    have hcal : CalOnly j.st s' := placeRead_places _ _ _ _ _ _ _ _ s' hplace
    have hcontent : s'.zn = j.st.zn ∧ s'.jr = j.st.jr := by
      rw [hcal]
      exact ⟨rfl, rfl⟩
    exact ⟨_, c, hexec, hc, (congrArg Cmd.func hread :), (congrArg Cmd.sqid hread :), (congrArg Cmd.cid hread :), (congrArg Cmd.data hread :),
      (congrArg Cmd.result hread :), (congrArg Cmd.deadline hread :), (congrArg Cmd.armed hread :),
      by rw [hzn, hcontent.1], hjr.trans hcontent.2,
      ((execRead_kept (K := true) (J := true) e (Kept.refl s)).next_kept _ hexec).core rfl⟩
  case offline =>
    intro s e j hfront hcls hpath hoffline
    rw [execRead_unbound hfront hcls hpath, admitRead_offline hoffline]
  case forwarded =>
    intro s e j hfront hcls hpath hmode
    have hexec := execRead_forwarded hfront hcls hpath
    obtain ⟨hc, htag, hzn, hjr⟩ := forward_sent (c := newCmd e .read j (freeCore j.st)) hmode rfl (freeSlot j.st) e 0
    rw [Cmd.armedNow_unbound (show (Cmd.forwarded j.st (newCmd e .read j (freeCore j.st)) 0).cls = .unbound from hcls)] at hc
    exact ⟨_, _, hexec, hc, rfl, rfl, rfl, htag, hzn, hjr, ((execRead_kept (K := true) (J := true) e (Kept.refl s)).next_kept _ hexec).core rfl⟩
  case reports =>
    intro s e j hfront hpath hcls
    have hcore : ∀ extended, Core s (accept j.st (freeSlot j.st) (reportCmd e j extended)) := fun _ => (ioFront_core hfront).trans (accept_core _ _ _)
    exact ⟨⟨_, _, congrArg Host.Outcome.next (zoneReceive_accepted hfront hpath hcls false), reportCmd_accepted hcls false, rfl, rfl, rfl, rfl, rfl, hcore false⟩,
      ⟨_, _, congrArg Host.Outcome.next (zoneReceive_accepted hfront hpath hcls true), reportCmd_accepted hcls true, rfl, rfl, rfl, rfl, rfl, hcore true⟩⟩
  case waits =>
    intro s e j hfront hcls hpath hopen
    have hexec := execFlush_accepted hfront hcls hpath
    rw [if_neg (by simp [hopen])] at hexec
    exact ⟨_, _, hexec, flushCmd_accepted hcls, rfl, rfl, rfl, rfl, rfl, (ioFront_core hfront).trans (accept_core _ _ _)⟩
  case done =>
    intro s e j hfront hcls hpath hnone
    have hexec := execFlush_accepted hfront hcls hpath
    have hcmd : flushCmd e j = { newCmd e .flush j (freeCore j.st) with stage := .waiting } := by
      rw [flushCmd, hnone]
      rfl
    rw [if_pos (by simp [hnone])] at hexec
    exact ⟨_, hexec, (flushCmd_accepted hcls).trans (congrArg some hcmd), rfl, rfl, (ioFront_core hfront).trans (accept_core _ _ _)⟩

end Sys2Proof.Machine

namespace Sys2Proof.Machine

/-! SUPPORT. Commands forwarded by the twin, and the answers to those forwarded to it (R63, R122, R123, R270, R298, R299, R315, R316). -/

/-! ### Messages that reached the module -/

/-- What a message does whose type is one of those its command takes (R263, R299, R302). -/
theorem peerMsg_taken {s : State} {h : MsgHdr} {typ : Nat} (hreach : Reaches s h typ) {typs : List Nat} (htyp : typs.contains typ = true) (f : State → State) :
    peerMsg s h typs f = .next (f (noted s h)) := by
  have hmode : (notePhase s (msgClass h.typ) h.phase).md.mode = .service := hreach.mode
  have hepoch : h.pepoch = (notePhase s (msgClass h.typ) h.phase).jr.pepoch.toNat := hreach.epoch
  unfold peerMsg
  rw [if_neg (by simp [hreach.link, hreach.rails]), if_neg (by simp [hreach.auth])]
  dsimp only
  rw [if_neg (by rw [hmode, ← hepoch, hreach.typ, htyp]; simp)]
  rfl

/-- A message of the handshake's later steps is taken in Service as any other. -/
theorem pairingMsg_taken {s : State} {h : MsgHdr} {typ : Nat} (hreach : Reaches s h typ) {typs : List Nat} (htyp : typs.contains typ = true) (f : State → State) :
    pairingMsg s h typs f = .next (f (noted s h)) := by
  unfold pairingMsg
  rw [if_pos (by simp [hreach.mode]), peerMsg_taken hreach htyp]

/-! ### Commands the twin forwards -/

section
variable {s : State} {h : MsgHdr} {op : Nat} {e : Io} {cls st dl cl : Nat} {all : Bool}

/-- A forwarded command of this epoch is carried out where it is known (R316). -/
theorem exec_forwardedCommand (hreach : Reaches s h 0x21) : exec (.forwardedCommand h op e cls st dl cl all) s =
    .next ((ioOpOf op).elim (answerForward (noted s h) h .invalidOpcode) fun o => takeForwarded (noted s h) h o e (classOf cls) st dl cl all) := by
  have hmode : (notePhase s (msgClass h.typ) h.phase).md.mode = .service := hreach.mode
  have hepoch : h.pepoch = (notePhase s (msgClass h.typ) h.phase).jr.pepoch.toNat := hreach.epoch
  show execForwardedCommand h op e cls st dl cl all s = _
  unfold execForwardedCommand
  rw [if_neg (by simp [hreach.link, hreach.rails, hreach.typ]), if_neg (by simp [hreach.auth])]
  dsimp only
  rw [if_neg (by simp [hmode, hepoch])]
  cases ioOpOf op <;> rfl

/-- Of another epoch or outside Service it is answered at once (R299). -/
theorem exec_forwardedCommand_foreign (hlink : s.tw.linkUp = true) (hrails : s.sup.rails = true) (hauth : h.authOk = true) (htyp : h.typ = 4 ∨ h.typ = 0x21)
    (hforeign : s.md.mode ≠ .service ∨ h.pepoch ≠ s.jr.pepoch.toNat) :
    exec (.forwardedCommand h op e cls st dl cl all) s = .next (answerForward (noted s h) h .anaInaccessible) := by
  have htaken : (h.typ != 0x04 && h.typ != 0x21) = false := by
    rcases htyp with htyp | htyp <;> simp [htyp]
  show execForwardedCommand h op e cls st dl cl all s = _
  unfold execForwardedCommand
  rw [if_neg (by simp [hlink, hrails, htaken]), if_neg (by simp [hauth])]
  exact if_pos hforeign

end

/-! ### A read carried out for the twin -/

theorem setCmd_find_self {s : State} {slot : Nat} {w : Cmd} (h : KV.find s.port.cmds slot = some w) (f : Cmd → Cmd) :
    KV.find (setCmd s slot f).port.cmds slot = some (f w) := by
  unfold setCmd
  rw [KV.find_adj, if_pos rfl, h]
  rfl

/-- A read's context once it is carried out: its data as it stands, the dies it waits for (R101, R270). -/
def Cmd.carried (s : State) (n : Ns) (needs : KV Need) (c : Cmd) : Cmd :=
  { c with
    data := readData s c.nsid n c.slba c.nlb c.key, result := readStatus s c.nsid c.slba c.nlb
    dies := needs.map (fun x => x.1), stage := if needs.isEmpty then .dieDone else .dieRequested }

/-- An Unbound read places no claims: it waits for the dies it needs. -/
theorem carryRead_unbound {s : State} {slot claim : Nat} {c w : Cmd} {n : Ns} (hw : KV.find s.port.cmds slot = some w) (hcls : c.cls = .unbound)
    (honline : n.zoned = true → (n.zone (c.slba / zoneSize n.flbas)).st ≠ .offline) (hneeds : needsOf s c.nsid n c.slba c.nlb ≠ []) :
    carryRead s slot c n claim = setCmd (countClaims s slot c.func c.fromTwin) slot (Cmd.carried s n (needsOf s c.nsid n c.slba c.nlb)) := by
  have hunclaimed : (needsOf s c.nsid n c.slba c.nlb).foldl (fun s x => carryNeed s slot c claim x.1 x.2) s = s :=
    foldl_field id _ (fun s x => if_pos hcls) _ s
  unfold carryRead
  dsimp only
  rw [if_neg (by simpa using honline), hunclaimed]
  generalize hreads : needsOf s c.nsid n c.slba c.nlb = needs at hneeds
  have hslot : KV.find (setCmd (countClaims s slot c.func c.fromTwin) slot (Cmd.carried s n needs)).port.cmds slot = some (w.carried s n needs) :=
    setCmd_find_self (s := countClaims s slot c.func c.fromTwin) hw _
  have hwaits : (w.carried s n needs).stage = .dieRequested := if_neg (by simpa using hneeds)
  show endTwinRead (setCmd (countClaims s slot c.func c.fromTwin) slot (Cmd.carried s n needs)) slot = _
  unfold endTwinRead
  rw [hslot]
  dsimp only
  rw [if_neg (by simp [hwaits])]

theorem carryOut_read {s : State} {slot claim : Nat} {e : Io} {all : Bool} {c : Cmd} {n : Ns} (hc : KV.find s.port.cmds slot = some c) (hop : c.op = .read)
    (hn : nsOf s c.nsid = some n) : carryOut s slot e all claim = carryRead (setCmd s slot fun c => { c with fwd := false }) slot c n claim := by
  unfold carryOut
  rw [hc]
  dsimp only
  rw [hn]
  dsimp only
  rw [hop]

/-- A forwarded command in its slot, carried out here (R316). -/
def slotted (s : State) (slot : Nat) (c : Cmd) : State :=
  setCmd { s with port := { s.port with cmds := KV.set s.port.cmds slot c } } slot fun c => { c with fwd := false }

theorem slotted_find (s : State) (slot : Nat) (c : Cmd) : KV.find (slotted s slot c).port.cmds slot = some { c with fwd := false } :=
  setCmd_find_self (KV.find_set_self _ _ _) _

/-- A forwarded Unbound read of a namespace ordered here is put into a slot and carried out (R316). -/
theorem takeForwarded_read {s : State} {h : MsgHdr} {e : Io} {st dl cl key : Nat} {n : Ns} (hkept : h.tag ∉ s.tw.keptAborts) (hn : nsOf s e.nsid = some n)
    (hhere : n.here = true) (hkey : keyFor s n e.func e.keyTag false = .ok key) :
    takeForwarded s h .read e .unbound st dl cl false =
      carryRead (slotted s (freeSlot s) (forwardedCmd s h .read e .unbound st dl key n)) (freeSlot s) (forwardedCmd s h .read e .unbound st dl key n) n cl := by
  unfold takeForwarded
  rw [if_neg (by simpa using hkept), hn]
  dsimp only
  rw [if_neg (by simp [hhere]), if_neg (by simp [IoOp.isWrite]), show IoOp.isWrite .read = false from rfl, hkey]
  exact carryOut_read (KV.find_set_self _ _ _) rfl hn

theorem takeForwarded_elsewhere {s : State} {h : MsgHdr} {o : IoOp} {e : Io} {cls : LClass} {st dl cl : Nat} {all : Bool} {n : Ns} (hkept : h.tag ∉ s.tw.keptAborts)
    (hn : nsOf s e.nsid = some n) (hhere : n.here = false) : takeForwarded s h o e cls st dl cl all = answerForward s h .anaInaccessible := by
  unfold takeForwarded
  rw [if_neg (by simpa using hkept), hn]
  dsimp only
  rw [if_pos (by simp [hhere])]

/-- The read as it stands in its slot once it is carried out (R270). -/
theorem carryRead_find {s : State} {slot : Nat} {c : Cmd} (n : Ns) (needs : KV Need) (func : Nat) (twin : Bool) :
    KV.find (setCmd (countClaims (slotted s slot c) slot func twin) slot (Cmd.carried (slotted s slot c) n needs)).port.cmds slot =
      some (Cmd.carried (slotted s slot c) n needs { c with fwd := false }) :=
  setCmd_find_self (s := countClaims (slotted s slot c) slot func twin) (slotted_find s slot c) _

/-! ### The answer to a command forwarded to the twin -/

/-- A key listed somewhere in a table has a value. -/
theorem KV.exists_find_of_mem {α : Type} {m : KV α} {k : Nat} {v : α} (h : (k, v) ∈ m) : ∃ w, KV.find m k = some w := by
  induction m with
  | nil => exact absurd h List.not_mem_nil
  | cons p m ih =>
    by_cases hkey : p.1 = k
    · exact ⟨p.2, if_pos hkey⟩
    · obtain ⟨w, hw⟩ := ih ((List.mem_cons.1 h).resolve_left fun heq => hkey (congrArg Prod.fst heq).symm)
      exact ⟨w, (if_neg hkey).trans hw⟩

/-- A forwarded command whose data has come (R270). -/
def Cmd.delivered (data : List Nat) (c : Cmd) : Cmd := { c with fwd := false, stage := .dieDone, data := data, result := .success }

/-- The bytes of a forwarded command's answer. -/
def broughtBytes (s : State) (c : Cmd) (data : List Nat) : Nat := if c.op = .read then c.nlb * (nsOf s c.nsid).elim 4096 (fun n => lbaBytes n.flbas) else data.length

theorem forwardDone_delivers {c : Cmd} (hop : c.op.isWrite = false) (s : State) (slot d0 d1 : Nat) (data : List Nat) :
    forwardDone s slot c .success d0 d1 data =
      startXts (takeBufs (setCmd s slot (Cmd.delivered data)) slot (broughtBytes s c data) [.transfer]) slot c (broughtBytes s c data) :=
  if_pos (by simp [hop])

/-- A forwarded write's completion ends the write (R315). -/
theorem forwardDone_ends {c : Cmd} (hop : c.op.isWrite = true) (hzop : c.zop = 0) (s : State) (slot : Nat) (st : Status) (d0 d1 : Nat) (data : List Nat) :
    forwardDone s slot c st d0 d1 data = finish s slot st d0 d1 := by
  unfold forwardDone
  rw [if_neg (by simp [hop]), if_neg (by simp [hzop])]

/-- A forwarded read's completion leaves content, records and all but the slot and its buffers alone. -/
theorem forwardDone_portIt {c : Cmd} (hop : c.op.isWrite = false) (s : State) (slot d0 d1 : Nat) (data : List Nat) :
    PortIt s (forwardDone s slot c .success d0 d1 data) := by
  rw [forwardDone_delivers hop]
  exact (PortIt.trans (b := setCmd s slot (Cmd.delivered data)) rfl (takeBufs_portIt _ _ _ _)).trans (startXts_portIt _ _ _ _)

/-- A forwarded read's completion brings its data: the read is ready for delivery (R270). -/
theorem forwardDone_ready {s : State} {slot : Nat} {c : Cmd} (hlisted : (slot, c) ∈ s.port.cmds) (hop : c.op.isWrite = false) (d0 d1 : Nat) (data : List Nat) :
    ∃ c', KV.find (forwardDone s slot c .success d0 d1 data).port.cmds slot = some c' ∧ c'.fwd = false ∧ c'.stage = .dieDone ∧ c'.data = data ∧ c'.result = .success := by
  obtain ⟨w, hw⟩ := KV.exists_find_of_mem hlisted
  have hslot : cmdAt (forwardDone s slot c .success d0 d1 data) slot = some (w.delivered data).unbuffered := by
    rw [forwardDone_delivers hop, startXts_cmdAt, takeBufs_cmdAt, cmdAt, setCmd, KV.find_adj, if_pos rfl, hw]
    rfl
  obtain ⟨c', hc', hsame⟩ := exists_of_cmdAt hslot
  exact ⟨c', hc', (congrArg Cmd.fwd hsame :), (congrArg Cmd.stage hsame :), (congrArg Cmd.data hsame :), (congrArg Cmd.result hsame :)⟩

theorem exec_forwardedCompletion {s : State} {h : MsgHdr} (hreach : Reaches s h 0x22) {code slot d0 d1 : Nat} {data : List Nat} {st : Status} {c : Cmd} (hst : statusOf code = some st)
    (hslot : s.port.cmds.find? (fun p => p.2.fwd && p.2.tag == h.tag) = some (slot, c)) :
    exec (.forwardedCompletion h code d0 d1 data) s = .next (forwardDone (noted s h) slot c st d0 d1 data) := by
  have hserving : ¬(noted s h).md.mode = .pairing := by simp [hreach.mode]
  have hnoted : (noted s h).port.cmds.find? (fun p => p.2.fwd && p.2.tag == h.tag) = some (slot, c) := hslot
  show execForwardedCompletion h code d0 d1 data s = _
  unfold execForwardedCompletion
  rw [pairingMsg_taken hreach rfl, hst]
  dsimp only
  rw [if_neg hserving, hnoted]

/-! ### Zone confirmations and disposals -/

theorem exec_zoneConfirmation {s : State} {h : MsgHdr} (hreach : Reaches s h 6) {zone code slot : Nat} {st : Status} {c : Cmd} (hst : statusOf code = some st) (htag : h.tag < 2^31)
    (hframes : ∀ f ∈ s.tw.frames, f.tag ≠ h.tag) (hslot : s.port.cmds.find? (fun p => p.2.fwd && p.2.zop != 0 && p.2.tag == h.tag) = some (slot, c)) :
    exec (.zoneConfirmation h zone code) s = .next (zoneSettled (noted s h) c zone st) := by
  have hnoframe : (noted s h).tw.frames.find? (fun f => f.tag == h.tag) = none :=
    List.find?_eq_none.2 fun f hf => by simpa using hframes f hf
  have hnoted : (noted s h).port.cmds.find? (fun p => p.2.fwd && p.2.zop != 0 && p.2.tag == h.tag) = some (slot, c) := hslot
  show execZoneConfirmation h zone code s = _
  unfold execZoneConfirmation
  rw [peerMsg_reaches hreach, hst]
  dsimp only
  rw [if_neg (by omega), hnoframe, hnoted]

theorem exec_dispose {s : State} {h : MsgHdr} (hreach : Reaches s h 0x0B) (tag : Nat) :
    exec (.dispose h tag) s = .next ((s.port.cmds.find? (fun p => p.2.fromTwin && p.2.tag == tag)).elim (noted s h) fun p => disposeForTwin (noted s h) p.1 p.2) := by
  show execDispose h tag s = _
  unfold execDispose
  rw [peerMsg_reaches hreach]
  show Host.Outcome.next (match s.port.cmds.find? (fun p => p.2.fromTwin && p.2.tag == tag) with
    | none => noted s h
    | some (slot, c) => disposeForTwin (noted s h) slot c) = _
  cases s.port.cmds.find? (fun p => p.2.fromTwin && p.2.tag == tag) <;> rfl

/-! ### The obligation -/

/-- Settles O52. -/
theorem forwarding : Obligations.Forwarding := by
  unfold Obligations.Forwarding
  refine ⟨?read, ?elsewhere, ?unknown, ?foreign, ?completed, ?ended, ?confirmed, ?absent, ?disposed⟩
  case read =>
    intro s h e st dl cl key n hreach hkept hn hhere hkey honline hneeds
    have hexec : exec (.forwardedCommand h 2 e 3 st dl cl false) s = .next (takeForwarded (noted s h) h .read e .unbound st dl cl false) := exec_forwardedCommand hreach
    have hread := carryRead_unbound (claim := cl) (c := forwardedCmd (noted s h) h .read e .unbound st dl key n)
      (slotted_find (noted s h) (freeSlot s) (forwardedCmd (noted s h) h .read e .unbound st dl key n)) rfl honline hneeds
    rw [takeForwarded_read (s := noted s h) hkept hn hhere hkey] at hexec
    have hnext := hexec.trans (congrArg Host.Outcome.next hread)
    exact ⟨_, _, hnext, carryRead_find n _ _ _, rfl, rfl, rfl, rfl, rfl, rfl, rfl, rfl,
      ((execForwardedCommand_kept (K := true) h 2 e 3 st dl cl false (Kept.refl s)).next_kept _ hnext).core rfl⟩
  case elsewhere =>
    intro s h op o e cls st dl cl all n hreach hkept hop hn hhere
    rw [exec_forwardedCommand hreach, hop]
    exact congrArg Host.Outcome.next (takeForwarded_elsewhere hkept hn hhere)
  case unknown =>
    intro s h op e cls st dl cl all hreach hop
    rw [exec_forwardedCommand hreach, hop]
    rfl
  case foreign => exact fun s h op e cls st dl cl all => exec_forwardedCommand_foreign
  case completed =>
    intro s h d0 d1 slot data c hreach hslot hop
    have hframe := forwardDone_portIt hop (noted s h) slot d0 d1 data
    exact ⟨exec_forwardedCompletion hreach rfl hslot, forwardDone_ready (s := noted s h) (List.mem_of_find?_eq_some hslot) hop d0 d1 data,
      hframe.field State.zn fun _ _ => rfl, hframe.field State.jr fun _ _ => rfl⟩
  case ended =>
    intro s h code d0 d1 slot data st c hreach hst hslot hop hzop
    rw [exec_forwardedCompletion hreach hst hslot, forwardDone_ends hop hzop]
  case confirmed =>
    intro s h zone slot c hreach htag hframes hslot
    rw [exec_zoneConfirmation hreach (st := .success) rfl htag hframes hslot]
    rfl
  case absent =>
    intro s h tag hreach habsent
    have hnone : s.port.cmds.find? (fun p => p.2.fromTwin && p.2.tag == tag) = none :=
      List.find?_eq_none.2 fun p hp => by
        rcases habsent p hp with hown | htag
        · simp [hown]
        · simp [htag]
    rw [exec_dispose hreach, hnone]
    rfl
  case disposed =>
    intro s h tag slot c hreach hslot hfate
    rw [exec_dispose hreach, hslot]
    show Host.Outcome.next (disposeForTwin (noted s h) slot c) = _
    rw [disposeForTwin, hfate]

end Sys2Proof.Machine

namespace Sys2Proof.Machine

/-! SUPPORT. Zones: what a change of one zone leaves of its namespace and of the content, the checks of the owning core, and the zone changes (Table 4.3, R95, R99 to R101, R106, R114 to R118). -/

/-! ### One zone of a namespace -/

/-- The namespace with one zone changed. -/
def Ns.withZone (n : Ns) (i : Nat) (f : Zone → Zone) : Ns := { n with zones := KV.upd n.zones i {} f }

@[simp] theorem Ns.withZone_self (n : Ns) (i : Nat) (f : Zone → Zone) : (n.withZone i f).zone i = f (n.zone i) :=
  KV.findD_set_self _ _ _ _

theorem Ns.withZone_other (n : Ns) {i k : Nat} (f : Zone → Zone) (h : k ≠ i) : (n.withZone i f).zone k = n.zone k :=
  KV.findD_set_other _ _ _ h

theorem nsOf_setNs_self {s : State} {nsid : Nat} {n : Ns} (hn : nsOf s nsid = some n) (g : Ns → Ns) : nsOf (setNs s nsid g) nsid = some (g n) := by
  rw [nsOf_setNs, if_pos rfl, hn]
  rfl

theorem nsOf_setZone {s : State} {nsid : Nat} {n : Ns} (hn : nsOf s nsid = some n) (i : Nat) (f : Zone → Zone) :
    nsOf (setZone s nsid i f) nsid = some (n.withZone i f) := nsOf_setNs_self hn _

/-! ### Word lines queued (R189, R272) -/

/-- From `n` to `m` zone `i` has at most had word lines queued, and no other zone changed. -/
def Ns.Queued (n m : Ns) (i : Nat) : Prop := (∃ q, m.zone i = { n.zone i with queued := q }) ∧ ∀ k, k ≠ i → m.zone k = n.zone k

theorem Ns.Queued.refl (n : Ns) (i : Nat) : n.Queued n i := ⟨⟨_, rfl⟩, fun _ _ => rfl⟩

theorem queuePass_zn (s : State) (nsid i : Nat) (z : Zone) (kind : DieOpKind) (wl func step : Nat) : (queuePass s nsid i z kind wl func step).zn = s.zn := by
  unfold queuePass
  split <;> rfl

theorem queueLine_zn (s : State) (nsid i : Nat) (z : Zone) (wl func step : Nat) : (queueLine s nsid i z wl func step).zn = s.zn := by
  unfold queueLine
  dsimp only
  repeat' split
  all_goals simp only [queuePass_zn]

theorem foldReads_zn (s : State) (nsid i lo hi : Nat) : (foldReads s nsid i lo hi).zn = s.zn := by
  unfold foldReads
  split
  · rfl
  · refine foldl_field State.zn _ (fun s k => ?_) _ s
    rfl

theorem queueTo_queued {s : State} {nsid : Nat} {n : Ns} (hn : nsOf s nsid = some n) (i upTo func step : Nat) :
    ∃ m, nsOf (queueTo s nsid i upTo func step) nsid = some m ∧ n.Queued m i := by
  refine ⟨n.withZone i fun z => { z with queued := max z.queued upTo }, ?_, ⟨_, Ns.withZone_self _ _ _⟩, fun _ => Ns.withZone_other _ _⟩
  unfold queueTo
  rw [hn]
  exact (congrArg (fun z : Zn => KV.find z.ns nsid) (foldl_field State.zn _ (fun s k => queueLine_zn s _ _ _ _ _ _) _ _)).trans (nsOf_setZone hn _ _)

theorem foldTo_queued {s : State} {nsid : Nat} {n : Ns} (hn : nsOf s nsid = some n) (i upTo func : Nat) :
    ∃ m, nsOf (foldTo s nsid i upTo func) nsid = some m ∧ n.Queued m i := by
  unfold foldTo
  rw [hn]
  exact queueTo_queued ((congrArg (fun z : Zn => KV.find z.ns nsid) (foldReads_zn _ _ _ _ _)).trans hn) _ _ _ _

theorem queueReady_queued {s : State} {nsid : Nat} {n : Ns} (hn : nsOf s nsid = some n) (i func : Nat) :
    ∃ m, nsOf (queueReady s nsid i func) nsid = some m ∧ n.Queued m i := by
  unfold queueReady
  rw [hn]
  dsimp only
  split
  · exact queueTo_queued hn _ _ _ _
  · split
    · exact foldTo_queued hn _ _ _
    · split
      · exact foldTo_queued hn _ _ _
      · exact ⟨n, hn, Ns.Queued.refl n i⟩

/-! ### Finish (R101) -/

theorem finishZone_store (s : State) (nsid i : Nat) (byCtrl : Bool) : (finishZone s nsid i byCtrl).zn.store = s.zn.store :=
  (finishZone_kept (K := true) (J := true) nsid i byCtrl (Kept.refl s)).content rfl

/-- A finished zone is Full; one that held data keeps its write pointer and is charged to no function any more. -/
theorem finishZone_full {s : State} {nsid : Nat} {n : Ns} (hn : nsOf s nsid = some n) (i : Nat) (byCtrl : Bool) :
    ∃ m, nsOf (finishZone s nsid i byCtrl) nsid = some m ∧ (m.zone i).st = .full ∧
      ((n.zone i).st ≠ .empty → (m.zone i).wp = (n.zone i).wp ∧ (m.zone i).activeFunc = none ∧ (m.zone i).openFunc = none) ∧
      ∀ k, k ≠ i → m.zone k = n.zone k := by
  unfold finishZone
  rw [hn]
  dsimp only
  split
  · next hempty =>
    refine ⟨_, nsOf_setZone hn _ _, ?_, fun h => absurd hempty h, fun _ => Ns.withZone_other _ _⟩
    rw [Ns.withZone_self]
  · have hfull := nsOf_setZone hn i fun z => { z.toFull with finishedByCtrl := byCtrl, finishRec := false }
    have hqueued : ∀ {t : State}, (∃ m, nsOf t nsid = some m ∧ (n.withZone i fun z => { z.toFull with finishedByCtrl := byCtrl, finishRec := false }).Queued m i) →
        ∃ m, nsOf t nsid = some m ∧ (m.zone i).st = .full ∧
          ((n.zone i).st ≠ .empty → (m.zone i).wp = (n.zone i).wp ∧ (m.zone i).activeFunc = none ∧ (m.zone i).openFunc = none) ∧
          ∀ k, k ≠ i → m.zone k = n.zone k := by
      rintro t ⟨m, hm, ⟨q, hzone⟩, hothers⟩
      rw [Ns.withZone_self] at hzone
      exact ⟨m, hm, by rw [hzone]; rfl, fun _ => by rw [hzone]; exact ⟨rfl, rfl, rfl⟩, fun k hk => (hothers k hk).trans (Ns.withZone_other _ _ hk)⟩
    split
    · exact hqueued (queueReady_queued hfull _ _)
    · exact hqueued (queueTo_queued hfull _ _ _ _)

/-! ### Reset (R118) -/

theorem retire_zn (s : State) (q : Nat) : (retire s q).zn = s.zn := by
  unfold retire
  split <;> rfl

theorem retireZone_zn (s : State) (nsid i : Nat) : (retireZone s nsid i).zn = s.zn :=
  foldl_field State.zn (fun (s : State) (p : Nat × VRec) => retire s p.1) (fun s p => retire_zn s p.1) _ _

/-- A zone as its reset leaves it: Empty, with its ordering key and RESET_ID. -/
def Zone.emptied (z : Zone) : Zone := { keyEpoch := z.keyEpoch, keyOseq := z.keyOseq, resetId := z.resetId }

/-- A reset clears the zone's range of the content and empties the zone; the rest of the namespaces and their content is as it was. -/
theorem emptyZone_zn {s : State} {nsid : Nat} {n : Ns} (hn : nsOf s nsid = some n) (i : Nat) :
    (emptyZone s nsid i).zn = (setZone (clearRange s nsid (i * zoneSize n.flbas) ((i + 1) * zoneSize n.flbas)) nsid i Zone.emptied).zn := by
  have hretired := retireZone_zn s nsid i
  unfold emptyZone
  rw [hn]
  show (setZone (clearRange (retireZone s nsid i) nsid _ _) nsid i Zone.emptied).zn = _
  unfold setZone setNs clearRange
  rw [hretired]

theorem readLba_emptyZone {s : State} {nsid : Nat} {n : Ns} (hn : nsOf s nsid = some n) (i ns lba : Nat) :
    readLba (emptyZone s nsid i) ns lba = readLba (clearRange s nsid (i * zoneSize n.flbas) ((i + 1) * zoneSize n.flbas)) ns lba := by
  unfold readLba
  rw [emptyZone_zn hn]
  rfl

/-- Of the content of a range of LBAs that is cleared nothing is left, and all else is. -/
theorem readLba_clearRange {s : State} (hwf : KV.WF s.zn.store) (nsid lo hi ns lba : Nat) :
    readLba (clearRange s nsid lo hi) ns lba = if lbaKey nsid lo ≤ lbaKey ns lba ∧ lbaKey ns lba < lbaKey nsid hi then {} else readLba s ns lba := by
  unfold readLba clearRange KV.findD
  rw [KV.find_keep hwf]
  cases KV.find s.zn.store (lbaKey ns lba) with
  | none => simp
  | some b =>
    by_cases hin : lbaKey nsid lo ≤ lbaKey ns lba ∧ lbaKey ns lba < lbaKey nsid hi
    · simp [hin]
    · rw [if_neg hin, Option.bind_some, if_pos (by simp; omega)]

/-- The keys of a range of one namespace are those of its LBAs there. -/
theorem lbaKey_between {nsid lo hi ns lba : Nat} (hhi : hi ≤ 2^64) (hlba : lba < 2^64) :
    lbaKey nsid lo ≤ lbaKey ns lba ∧ lbaKey ns lba < lbaKey nsid hi ↔ ns = nsid ∧ lo ≤ lba ∧ lba < hi := by
  unfold lbaKey
  constructor
  · rintro ⟨hlow, hhigh⟩
    have hns : ns = nsid := by omega
    subst hns
    omega
  · rintro ⟨rfl, hlow, hhigh⟩
    omega

/-! ### Leaving Empty and opening (R99, R100, R106, R113) -/

theorem getOpen_free {s : State} {f : Nat} (h : openFree s f = true) : getOpen s f = .ok s := if_pos h

/-- An Empty zone as its placement leaves it. -/
def Zone.placed (z : Zone) (s : State) (f g flbas : Nat) (e : Ext) (valid : Bool) : Zone :=
  { z with
    ext := e, extValid := valid, group := some g, members := groupMembers s g, cap := zoneCap e.density (groupMembers s g) flbas
    activeFunc := some f, leftAt := s.time.dtb, leftDay := s.time.rd.toNat, wp := 0, taken := 0, confirmed := 0, queued := 0, staging := false }

theorem leaveEmpty_placed {s : State} {f g : Nat} {e : Ext} (hactive : activeFree s f = true) (hplace : place s f e = .ok g) (nsid i : Nat) (n : Ns) (valid : Bool) :
    leaveEmpty s f nsid i n e valid = .ok (setZone s nsid i fun z => z.placed s f g n.flbas e valid) := by
  unfold leaveEmpty
  rw [hactive, hplace]
  rfl

/-! ### The zone changes -/

section
variable {s : State} {nsid : Nat} {n : Ns} (f i : Nat) (hn : nsOf s nsid = some n)
include hn

theorem zoneAction_close (hopen : (n.zone i).opened = true) : zoneAction s f nsid i 1 = .ok (setZone s nsid i Zone.close) := by
  unfold zoneAction
  rw [hn]
  unfold Zone.opened at hopen
  cases hst : (n.zone i).st <;> simp_all

theorem zoneAction_finish (hfull : (n.zone i).st ≠ .full) (hread : (n.zone i).st ≠ .readOnly) (hoff : (n.zone i).st ≠ .offline) :
    zoneAction s f nsid i 2 = .ok (finishZone s nsid i false) := by
  unfold zoneAction
  rw [hn]
  cases hst : (n.zone i).st <;> simp_all

theorem zoneAction_openClosed (hst : (n.zone i).st = .closed) (hfree : openFree s f = true) :
    zoneAction s f nsid i 3 = .ok (openAs s f nsid i .explOpen) := by
  unfold zoneAction
  rw [hn]
  simp [hst, getOpen_free hfree]

theorem zoneAction_openEmpty {g : Nat} (hst : (n.zone i).st = .empty) (hfree : openFree s f = true) (hactive : activeFree s f = true) (hplace : place s f {} = .ok g) :
    zoneAction s f nsid i 3 = .ok (openAs (setZone s nsid i fun z => z.placed s f g n.flbas {} false) f nsid i .explOpen) := by
  unfold zoneAction
  rw [hn]
  simp [hst, getOpen_free hfree, leaveEmpty_placed hactive hplace]

theorem zoneAction_openRefused (hst : (n.zone i).st = .closed) (hfree : openFree s f = false) (hnone : oldestImplicit s f = none) :
    zoneAction s f nsid i 3 = .error .tooManyOpen := by
  unfold zoneAction
  rw [hn]
  simp [hst, getOpen, hfree, hnone]

theorem zoneAction_reset (hempty : (n.zone i).st ≠ .empty) (hread : (n.zone i).st ≠ .readOnly) (hoff : (n.zone i).st ≠ .offline) :
    zoneAction s f nsid i 4 = .ok (emptyZone s nsid i) := by
  unfold zoneAction
  rw [hn]
  cases hst : (n.zone i).st <;> simp_all

theorem zoneAction_toOffline (hst : (n.zone i).st = .readOnly) :
    zoneAction s f nsid i 5 = .ok (setZone s nsid i fun z => { z with st := .offline, activeFunc := none, openFunc := none }) := by
  unfold zoneAction
  rw [hn]
  simp [hst]

theorem zoneAction_offline (a : Nat) (hst : (n.zone i).st = .offline) : zoneAction s f nsid i a = .error .zoneIsOffline := by
  unfold zoneAction
  rw [hn]
  exact if_pos hst

theorem zoneAction_readOnly {a : Nat} (hst : (n.zone i).st = .readOnly) (hfirst : 1 ≤ a) (hlast : a ≤ 4) :
    zoneAction s f nsid i a = .error .zoneInvalidTransition := by
  have hcode : a = 1 ∨ a = 2 ∨ a = 3 ∨ a = 4 := by omega
  unfold zoneAction
  rw [hn]
  rcases hcode with rfl | rfl | rfl | rfl <;> simp [hst]

end

theorem setExtension_empty {s : State} {e : Io} {n : Ns} {i g : Nat} {x : Ext} (hext : extOf s.part e.ext = some x) (hst : (n.zone i).st = .empty)
    (hactive : activeFree s e.func = true) (hplace : place s e.func x = .ok g) :
    setExtension e s n i = .ok (setZone (setZone s e.nsid i fun z => z.placed s e.func g n.flbas x true) e.nsid i fun z => { z with st := .closed }) := by
  unfold setExtension
  rw [hext]
  simp [hst, leaveEmpty_placed hactive hplace]

/-! ### The checks of the owning core (R114 to R116) -/

theorem stateRefusal_opened {z : Zone} (h : z.opened = true) : stateRefusal z true = none := by
  unfold Zone.opened at h
  unfold stateRefusal
  cases hst : z.st <;> simp_all

theorem zoneChecks_refused {s : State} {e : Io} {n : Ns} {st : Status} (op : IoOp) (h : stateRefusal (n.zone (e.slba / zoneSize n.flbas)) true = some st) :
    zoneChecks s e n op = .error st := by
  unfold zoneChecks
  dsimp only
  rw [h]

theorem zoneChecks_misplaced {s : State} {e : Io} {n : Ns} {op : IoOp} (hop : op ≠ .append)
    (hst : stateRefusal (n.zone (e.slba / zoneSize n.flbas)) true = none) (hlba : e.slba % zoneSize n.flbas ≠ (n.zone (e.slba / zoneSize n.flbas)).taken) :
    zoneChecks s e n op = .error .zoneInvalidWrite := by
  unfold zoneChecks
  dsimp only
  rw [hst]
  dsimp only
  rw [if_neg (by simp [hop]), if_pos ⟨hop, hlba⟩]

theorem zoneChecks_appendInside {s : State} {e : Io} {n : Ns} (hst : stateRefusal (n.zone (e.slba / zoneSize n.flbas)) true = none)
    (hlba : e.slba % zoneSize n.flbas ≠ 0) : zoneChecks s e n .append = .error .invalidField := by
  unfold zoneChecks
  dsimp only
  rw [hst]
  exact if_pos ⟨rfl, .inl hlba⟩

/-- What is left to check of a write to an open zone that starts where it must: its capacity. -/
theorem zoneChecks_opened {s : State} {e : Io} {n : Ns} {op : IoOp} (hopen : (n.zone (e.slba / zoneSize n.flbas)).opened = true)
    (hwrite : op ≠ .append → e.slba % zoneSize n.flbas = (n.zone (e.slba / zoneSize n.flbas)).taken)
    (happend : op = .append → e.slba % zoneSize n.flbas = 0 ∧ e.nlb * lbaBytes n.flbas ≤ 1048576) :
    zoneChecks s e n op = if (n.zone (e.slba / zoneSize n.flbas)).cap < (n.zone (e.slba / zoneSize n.flbas)).taken + e.nlb then .error .zoneBoundaryError
      else .ok ((n.zone (e.slba / zoneSize n.flbas)).taken, s) := by
  have hplaced : (n.zone (e.slba / zoneSize n.flbas)).st ≠ .empty := fun h => by simp [Zone.opened, h] at hopen
  have hfirst : ¬(op = .append ∧ (e.slba % zoneSize n.flbas ≠ 0 ∨ mib < e.nlb * lbaBytes n.flbas)) := by
    rintro ⟨hop, hlba | hlen⟩
    · exact hlba (happend hop).1
    · exact absurd (happend hop).2 (Nat.not_le.2 hlen)
  have hnext : ¬(op ≠ .append ∧ e.slba % zoneSize n.flbas ≠ (n.zone (e.slba / zoneSize n.flbas)).taken) := fun h => h.2 (hwrite h.1)
  unfold zoneChecks openForWrite
  dsimp only
  rw [stateRefusal_opened hopen]
  dsimp only
  rw [if_neg hfirst, if_neg hnext, if_neg hplaced, hopen]
  rfl

/-! ### The obligation -/

/-- Settles O34. -/
theorem zoneChecksAndChanges : Obligations.ZoneChecksAndChanges := by
  unfold Obligations.ZoneChecksAndChanges
  refine ⟨?state, ?misplaced, ?inside, ?capacity, ?close, ?finish, ?openClosed, ?openEmpty, ?openRefused, ?reset, ?toOffline, ?offline, ?readOnly, ?extension⟩
  case state => exact fun s e n op st => zoneChecks_refused op
  case misplaced => exact fun s e n op => zoneChecks_misplaced
  case inside => exact fun s e n => zoneChecks_appendInside
  case capacity =>
    rintro s e n op z rfl hopen hwrite happend
    rw [zoneChecks_opened hopen hwrite happend]
    exact ⟨fun h => if_pos h, fun h => if_neg (Nat.not_lt.2 h)⟩
  case close =>
    intro s f nsid i n hn hopen
    exact ⟨_, _, zoneAction_close f i hn hopen, nsOf_setZone hn _ _, Ns.withZone_self _ _ _, fun _ => Ns.withZone_other _ _, rfl, rfl⟩
  case finish =>
    intro s f nsid i n hn hfull hread hoff
    obtain ⟨m, hm, hst, hdata, hothers⟩ := finishZone_full hn i false
    exact ⟨_, m, zoneAction_finish f i hn hfull hread hoff, hm, hst, hdata, hothers, finishZone_store _ _ _ _⟩
  case openClosed =>
    intro s f nsid i n hn hst hfree
    exact ⟨_, _, zoneAction_openClosed f i hn hst hfree, nsOf_setZone hn _ _, Ns.withZone_self _ _ _, fun _ => Ns.withZone_other _ _, rfl⟩
  case openEmpty =>
    intro s f nsid i g n hn hst hfree hactive hplace
    refine ⟨_, _, zoneAction_openEmpty f i hn hst hfree hactive hplace, nsOf_setZone (nsOf_setZone hn _ _) _ _, ?_⟩
    rw [Ns.withZone_self, Ns.withZone_self]
    exact ⟨rfl, rfl, rfl, rfl, rfl, rfl, rfl⟩
  case openRefused => exact fun s f nsid i n hn => zoneAction_openRefused f i hn
  case reset =>
    intro s f nsid i n hcanon hn hempty hread hoff hsize
    have hread' := readLba_clearRange hcanon.1 nsid (i * zoneSize n.flbas) ((i + 1) * zoneSize n.flbas)
    refine ⟨_, _, zoneAction_reset f i hn hempty hread hoff,
      (congrArg (fun z : Zn => KV.find z.ns nsid) (emptyZone_zn hn i)).trans (nsOf_setZone (s := clearRange s nsid _ _) hn i Zone.emptied), ?_⟩
    rw [Ns.withZone_self]
    refine ⟨rfl, rfl, rfl, rfl, fun _ => Ns.withZone_other _ _, ?_, ?_⟩
    · intro lba hlow hhigh
      rw [readLba_emptyZone hn, hread', if_pos ((lbaKey_between hsize (by omega)).2 ⟨rfl, hlow, hhigh⟩)]
    · intro ns lba hlba houtside
      rw [readLba_emptyZone hn, hread', if_neg]
      rw [lbaKey_between hsize hlba]
      omega
  case toOffline =>
    intro s f nsid i n hn hst
    refine ⟨_, _, zoneAction_toOffline f i hn hst, nsOf_setZone hn _ _, ?_, fun _ => Ns.withZone_other _ _, rfl⟩
    rw [Ns.withZone_self]
  case offline => exact fun s f nsid i a n hn => zoneAction_offline f i hn a
  case readOnly => exact fun s f nsid i a n hn => zoneAction_readOnly f i hn
  case extension =>
    intro s e n i g x hn hext hst hactive hplace
    refine ⟨_, _, setExtension_empty hext hst hactive hplace, nsOf_setZone (nsOf_setZone hn _ _) _ _, ?_⟩
    rw [Ns.withZone_self, Ns.withZone_self]
    exact ⟨rfl, rfl, rfl, rfl, rfl, rfl⟩

end Sys2Proof.Machine

namespace Sys2Proof

/-! SUPPORT. How often a table lists a key. -/

/-- The entries of a table under a key. -/
def KV.listed {α : Type} (m : KV α) (k : Nat) : Nat := m.countP (fun p => p.1 == k)

theorem KV.find_none_iff {α : Type} {m : KV α} {k : Nat} : KV.find m k = none ↔ KV.listed m k = 0 := by
  unfold listed
  induction m with
  | nil => simp
  | cons p m ih =>
    by_cases hkey : p.1 = k
    · simp [KV.find, hkey]
    · simp [KV.find, hkey, ih]

/-- Listing a key that the table does not list lists it once. -/
theorem KV.listed_set_new {α : Type} {m : KV α} {k : Nat} (h : KV.listed m k = 0) (v : α) : KV.listed (KV.set m k v) k = 1 := by
  unfold listed at *
  induction m with
  | nil => simp [KV.set]
  | cons p m ih =>
    have hkey : p.1 ≠ k := fun e => by simp [e] at h
    have htail : m.countP (fun p => p.1 == k) = 0 := by simpa [hkey] using h
    rw [KV.set]
    split
    · simp [hkey, htail]
    · rw [if_neg (Ne.symm hkey)]
      simp [hkey, ih htail]

theorem KV.listed_set_other {α : Type} (m : KV α) {k j : Nat} (v : α) (h : j ≠ k) : KV.listed (KV.set m k v) j = KV.listed m j := by
  unfold listed
  induction m with
  | nil => simp [KV.set, h.symm]
  | cons p m ih =>
    rw [KV.set]
    split
    · simp [h.symm]
    · split
      · next e =>
        subst e
        simp [h.symm]
      · simp [List.countP_cons, ih]

theorem KV.listed_adj {α : Type} (m : KV α) (k j : Nat) (f : α → α) : KV.listed (KV.adj m k f) j = KV.listed m j := by
  unfold listed KV.adj
  rw [List.countP_map]
  refine List.countP_congr fun p _ => ?_
  by_cases hkey : p.1 = k <;> simp [hkey]

/-- A key listed once is not listed any more once it is taken out. -/
theorem KV.find_del_once {α : Type} {m : KV α} {k : Nat} (h : KV.listed m k = 1) : KV.find (KV.del m k) k = none := by
  unfold listed at h
  induction m with
  | nil => rfl
  | cons p m ih =>
    rw [KV.del]
    split
    · next hkey =>
      refine KV.find_none_iff.2 ?_
      unfold listed
      simpa [hkey] using h
    · next hkey =>
      rw [KV.find, if_neg hkey]
      exact ih (by simpa [hkey] using h)

/-- A table that lists every key below a bound is no shorter than it. -/
theorem KV.bound_le_length {α : Type} {m : KV α} {b : Nat} (h : ∀ k, k < b → KV.find m k ≠ none) : b ≤ m.length := by
  have hsub : Finset.range b ⊆ (m.map (fun p => p.1)).toFinset := fun k hk => by
    obtain ⟨v, hv⟩ := Option.ne_none_iff_exists'.1 (h k (Finset.mem_range.1 hk))
    exact List.mem_toFinset.2 (List.mem_map.2 ⟨(k, v), KV.mem_of_find hv, rfl⟩)
  calc b = (Finset.range b).card := (Finset.card_range b).symm
    _ ≤ (m.map (fun p => p.1)).toFinset.card := Finset.card_le_card hsub
    _ ≤ (m.map (fun p => p.1)).length := List.toFinset_card_le _
    _ = m.length := List.length_map _

/-- The lowest key that a table shorter than a bound does not list. -/
theorem KV.find_lowest_free {α : Type} {m : KV α} {b : Nat} (h : m.length < b) :
    KV.find m (((List.range b).find? (fun i => (KV.find m i).isNone)).getD 0) = none := by
  cases hfind : (List.range b).find? (fun i => (KV.find m i).isNone) with
  | none =>
    refine absurd (KV.bound_le_length fun k hk => ?_) (Nat.not_le.2 h)
    simpa using List.find?_eq_none.1 hfind k (List.mem_range.2 hk)
  | some i =>
    have hfree := List.find?_some hfind
    exact Option.isNone_iff_eq_none.1 hfree

end Sys2Proof

namespace Sys2Proof.Machine

/-! SUPPORT. Judging a write-bound entry, forming its record and sending it to the twin: what each leaves of the commands, the records and the namespaces (R53, R145, R261, R262, R266, R267, R269). -/

/-! ### The entry that is fetched and the slot it takes (R83, R85) -/

/-- An entry is served only where a command slot is left for it. -/
theorem nextServed_room {s : State} {r : Nat × Bool} (h : nextServed s = some r) : s.port.cmds.length < 65536 := by
  have hroom : ∀ w ∈ waitingQueues s, s.port.cmds.length < 65536 := by
    intro w hw
    obtain ⟨p, hp, -⟩ := List.mem_map.1 hw
    have hfetchable := (List.mem_filter.1 hp).2
    simp only [fetchable, Bool.and_eq_true, decide_eq_true_eq] at hfetchable
    tauto
  have hsome : waitingQueues s ≠ [] := by
    intro hnone
    unfold nextServed at h
    rw [hnone] at h
    cases hturn : s.port.turnKey <;> simp [hturn, turnQueue, nextRound] at h
  obtain ⟨w, hw⟩ := List.exists_mem_of_ne_nil _ hsome
  exact hroom w hw

theorem fetch_room {s s1 : State} {func qid stamp : Nat} (h : fetch s func qid = some (stamp, s1)) : s.port.cmds.length < 65536 := by
  unfold fetch at h
  dsimp only at h
  split at h
  · next hserved _ => exact nextServed_room hserved
  · cases h

/-- While the table has room, the lowest free slot is free. -/
theorem freeSlot_free {s : State} (h : s.port.cmds.length < 65536) : KV.find s.port.cmds (freeSlot s) = none := KV.find_lowest_free h

theorem ioFront_fetched {s : State} {e : Io} {op : IoOp} {all : Bool} {j : Judged} (h : ioFront s e op all = .ok j) :
    fetch s e.func e.sqid = some (j.stamp, j.st) := by
  unfold ioFront at h
  split at h
  · cases h
  · split at h
    · cases h
    · split at h
      · cases h
      · next stamp s1 hfetch =>
        rw [hfetch]
        dsimp only at h
        repeat' split at h
        all_goals cases h
        all_goals rfl

/-- The slot an entry judged in takes is free. -/
theorem ioFront_slot {s : State} {e : Io} {op : IoOp} {all : Bool} {j : Judged} (h : ioFront s e op all = .ok j) :
    KV.find j.st.port.cmds (freeSlot j.st) = none := by
  have hfetch := ioFront_fetched h
  obtain ⟨-, hcmds, -⟩ := fetch_frame hfetch
  exact freeSlot_free (by rw [hcmds]; exact fetch_room hfetch)

/-! ### Claims of a write-bound entry (R139) -/

theorem CalOnly.refl (s : State) : CalOnly s s := rfl

/-- A fold whose steps write the calendar alone or give up writes the calendar alone. -/
theorem foldl_some_cal {α : Type} {f : Option State → α → Option State} (hnone : ∀ x, f none x = none) (hsome : ∀ s x t, f (some s) x = some t → CalOnly s t)
    (l : List α) {s t : State} (h : l.foldl f (some s) = some t) : CalOnly s t := by
  induction l generalizing s with
  | nil =>
    cases h
    exact CalOnly.refl _
  | cons x l ih =>
    rw [List.foldl_cons] at h
    cases hstep : f (some s) x with
    | none =>
      rw [hstep, List.foldl_fixed' hnone] at h
      cases h
    | some u =>
      rw [hstep] at h
      exact (hsome s x u hstep).trans (ih h)

theorem placeWt_cal {s s' : State} {n : Ns} {f slot nlb s0 tv g : Nat} {op : IoOp} {bytes : Nat} (h : placeWt s n f slot nlb s0 tv g op bytes = some s') : CalOnly s s' := by
  unfold placeWt at h
  refine foldl_some_cal (fun _ => rfl) (fun u q t ht => ?_) _ h
  dsimp only at ht
  split at ht
  · cases ht
  · split at ht
    · cases ht
      rfl
    · cases ht

/-- A judgement, where it lets the entry in, writes the calendar alone. -/
def Judges (c : State) (r : Except State State) : Prop := ∀ s, r = .ok s → CalOnly c s

theorem Judges.ok (s : State) : Judges s (.ok s) := fun _ h => by
  cases h
  exact CalOnly.refl s

theorem Judges.error {c s : State} : Judges c (.error s) := fun _ h => nomatch h

theorem Judges.ite {c : State} {a b : Except State State} {p : Prop} [Decidable p] (ha : Judges c a) (hb : Judges c b) : Judges c (if p then a else b) := by
  split
  · exact ha
  · exact hb

/-- An entry judged in takes claims at most: nothing but the calendar changes (R139 to R154). -/
theorem writeFront_judges (s : State) (e : Io) (j : Judged) (op : IoOp) (slot : Nat) (all : Bool) : Judges s (writeFront s e j op slot all) := by
  unfold writeFront
  refine .ite (.ok s) (.ite .error ?_)
  cases earlyRefusal s j.cls j.stamp e.tv with
  | some d => exact .error
  | none =>
    refine .ite (.ite .error .error) (.ite .error (.ite .error (.ite .error (.ite (.ite (.ite .error (.ite (.ok s) ?_)) (.ite .error (.ite .error (.ok s)))) (.ite .error (.ok s))))))
    split
    · exact .ok s
    · split
      · next hplaced =>
        intro t ht
        cases ht
        exact placeWt_cal hplaced
      · exact .error

theorem writeFront_cal {s s2 : State} {e : Io} {j : Judged} {op : IoOp} {slot : Nat} {all : Bool} (h : writeFront s e j op slot all = .ok s2) : CalOnly s s2 :=
  writeFront_judges s e j op slot all s2 h

theorem CalOnly.port {c s : State} (h : CalOnly c s) : s.port = c.port := by
  unfold CalOnly at h
  rw [h]

theorem CalOnly.md {c s : State} (h : CalOnly c s) : s.md = c.md := by
  unfold CalOnly at h
  rw [h]

/-! ### Commands without buffers -/

/-- From `c` to `s` no controller changes, and no command that has no buffer users. -/
structure HostKept (c s : State) : Prop where
  ctrls : s.port.ctrls = c.port.ctrls
  idle : ∀ k x, KV.find c.port.cmds k = some x → x.users = [] → KV.find s.port.cmds k = some x ∧ KV.listed s.port.cmds k = KV.listed c.port.cmds k

theorem HostKept.of_port {c s : State} (h : s.port = c.port) : HostKept c s := ⟨by rw [h], fun k x hx _ => by rw [h]; exact ⟨hx, rfl⟩⟩

theorem HostKept.refl (s : State) : HostKept s s := .of_port rfl

theorem HostKept.trans {a b c : State} (h : HostKept a b) (k : HostKept b c) : HostKept a c :=
  ⟨k.ctrls.trans h.ctrls, fun i x hx hidle => by
    obtain ⟨hb, hlisted⟩ := h.idle i x hx hidle
    obtain ⟨hc, hlisted'⟩ := k.idle i x hb hidle
    exact ⟨hc, hlisted'.trans hlisted⟩⟩

theorem HostKept.foldl {α : Type} {f : State → α → State} (h : ∀ s x, HostKept s (f s x)) (l : List α) (s : State) : HostKept s (l.foldl f s) := by
  induction l generalizing s with
  | nil => exact HostKept.refl s
  | cons x l ih => exact (h s x).trans (ih _)

/-- A user that drops its reference changes no command but the one that has it (R280). -/
theorem dropUser_hostKept (s : State) (slot : Nat) (u : BufUser) : HostKept s (dropUser s slot u) := by
  unfold dropUser
  split
  · exact HostKept.refl s
  · next c hc =>
    split
    · exact HostKept.refl s
    · next huser =>
      have hport : (c.bufs.foldl decBuf s).port = s.port := foldl_field State.port _ (fun s b => by simp) c.bufs s
      dsimp only
      rw [hport]
      refine ⟨rfl, fun k x hx hidle => ?_⟩
      have hother : k ≠ slot := by
        rintro rfl
        rw [hc] at hx
        cases hx
        simp [hidle] at huser
      exact ⟨(KV.find_set_other _ _ hother).trans hx, KV.listed_set_other _ _ hother⟩

/-! ### Records (R261, R262) -/

/-- What a record says, without its ordering key, its place in the region and whether it was sent. -/
def VRec.body (r : VRec) : VRec := { r with oseq := 0, pepoch := 0, stamp := 0, boot := 0, page0 := 0, sent := false }

/-- From `c` to `s` every record says what it did, and no SEQ is given. -/
structure RecsKept (c s : State) : Prop where
  seq : s.jr.seq = c.jr.seq
  recs : ∀ q x, KV.find c.jr.recs q = some x → ∃ y, KV.find s.jr.recs q = some y ∧ y.body = x.body

theorem RecsKept.of_jr {c s : State} (hseq : s.jr.seq = c.jr.seq) (hrecs : s.jr.recs = c.jr.recs) : RecsKept c s :=
  ⟨hseq, fun q x hx => ⟨x, by rw [hrecs]; exact hx, rfl⟩⟩

theorem RecsKept.refl (s : State) : RecsKept s s := .of_jr rfl rfl

theorem RecsKept.trans {a b c : State} (h : RecsKept a b) (k : RecsKept b c) : RecsKept a c :=
  ⟨k.seq.trans h.seq, fun q x hx => by
    obtain ⟨y, hy, hbody⟩ := h.recs q x hx
    obtain ⟨z, hz, hbody'⟩ := k.recs q y hy
    exact ⟨z, hz, hbody'.trans hbody⟩⟩

theorem RecsKept.foldl {α : Type} {f : State → α → State} (h : ∀ s x, RecsKept s (f s x)) (l : List α) (s : State) : RecsKept s (l.foldl f s) := by
  induction l generalizing s with
  | nil => exact RecsKept.refl s
  | cons x l ih => exact (h s x).trans (ih _)

theorem Moved.recsKept {c s : State} (h : Moved c s) : RecsKept c s :=
  ⟨h.seq, fun q x hx => by
    obtain ⟨p, hp⟩ := h.recs q x hx
    exact ⟨_, hp, rfl⟩⟩

/-- A record that says something still says it. -/
theorem RecsKept.says {c s : State} (h : RecsKept c s) {q : Nat} {b : VRec} (hx : ∃ x, KV.find c.jr.recs q = some x ∧ x.body = b) :
    ∃ y, KV.find s.jr.recs q = some y ∧ y.body = b := by
  obtain ⟨x, hx, rfl⟩ := hx
  exact h.recs q x hx

theorem setRec_find {s : State} {q : Nat} {x : VRec} (hx : KV.find s.jr.recs q = some x) (f : VRec → VRec) : KV.find (setRec s q f).jr.recs q = some (f x) := by
  unfold setRec
  rw [KV.find_adj, if_pos rfl, hx]
  rfl

/-- A change of a record that leaves what it says. -/
theorem setRec_recsKept (s : State) (q : Nat) {f : VRec → VRec} (hf : ∀ r, (f r).body = r.body) : RecsKept s (setRec s q f) :=
  ⟨rfl, fun k x hx => by
    unfold setRec
    rw [KV.find_adj, hx]
    split
    · exact ⟨_, rfl, hf x⟩
    · exact ⟨x, rfl, rfl⟩⟩

/-- A record is formed under the next SEQ and says what it was given. -/
theorem formRecord_formed (s : State) (core : Nat) (r : VRec) :
    (formRecord s core r).2 = s.jr.seq ∧ (formRecord s core r).1.jr.seq = s.jr.seq + 1 ∧
      ∃ x, KV.find (formRecord s core r).1.jr.recs s.jr.seq = some x ∧ x.body = r.body := by
  have hseq : (openSession s).jr.seq = s.jr.seq := (openSession_moved s).seq
  unfold formRecord
  dsimp only
  refine ⟨hseq, by rw [(compactSegs_moved 240 _).seq, hseq], ?_⟩
  rw [← hseq]
  refine RecsKept.says (compactSegs_moved 240 _).recsKept ?_
  exact ⟨_, KV.find_set_self _ _ _, rfl⟩

theorem formRecord_seq (s : State) (core : Nat) (r : VRec) : (formRecord s core r).1.jr.seq = s.jr.seq + 1 := by
  obtain ⟨-, hnext, -⟩ := formRecord_formed s core r
  exact hnext

/-- A record formed leaves every part but the journal and the mode. -/
theorem formRecord_field {α : Type} (f : State → α) (hf : ∀ (s : State) j m, f { s with jr := j, md := m } = f s) (s : State) (core : Nat) (r : VRec) :
    f (formRecord s core r).1 = f s := by
  rw [formRecord_frame]
  exact hf _ _ _

/-! ### Mirror records sent (R267, R269) -/

/-- What a mirror copy that is sent marks of the zone's first record (R321). -/
def markFirst (s : State) (r : VRec) : State :=
  if (nsOf s r.nsid).any (fun n => n.resyncPending) && r.zone != 0xFFFFFFFF && !s.tw.firstMirror.contains (r.nsid, r.zidx) then
    { s with tw := { s.tw with firstMirror := s.tw.firstMirror ++ [(r.nsid, r.zidx)] } } else s

/-- A property that the parts of sending a mirror copy have, sending it has. -/
theorem sendRec_induct {P : State → Prop} {s : State} (seq : Nat) (hs : P s) (hmark : ∀ t r, P t → P (markFirst t r))
    (hsend : ∀ t typ tag body, P t → P (send t typ tag body)) (hsent : ∀ t, P t → P (setRec t seq fun r => { r with sent := true }))
    (hdrop : ∀ t slot, P t → P (dropUser t slot .mirror)) : P (sendRec s seq) := by
  unfold sendRec
  split
  · exact hs
  · next r _ =>
    split
    · exact hs
    · have hmarked := hsent _ (hsend _ 0x01 0 ([r.typ, r.oseq, r.pepoch, r.nsid, r.zone, r.slba, r.nlb, r.func, r.stamp, r.key,
        bit r.forwarded, r.action, r.arg] ++ r.data ++ (if r.typ = 0x10 then r.ext.fields else [])) (hmark s r hs))
      cases r.slot with
      | none => exact hmarked
      | some sl => exact hdrop _ sl hmarked

theorem markFirst_port (s : State) (r : VRec) : (markFirst s r).port = s.port := by
  unfold markFirst
  split <;> rfl

theorem markFirst_jr (s : State) (r : VRec) : (markFirst s r).jr = s.jr := by
  unfold markFirst
  split <;> rfl

theorem markFirst_zn (s : State) (r : VRec) : (markFirst s r).zn = s.zn := by
  unfold markFirst
  split <;> rfl

theorem dropUser_zn (s : State) (slot : Nat) (u : BufUser) : (dropUser s slot u).zn = s.zn := by
  unfold dropUser
  split
  · rfl
  · split
    · rfl
    · exact foldl_field State.zn _ (fun s b => by simp) _ s

theorem dropUser_jr (s : State) (slot : Nat) (u : BufUser) : (dropUser s slot u).jr = s.jr := by
  unfold dropUser
  split
  · rfl
  · split
    · rfl
    · exact foldl_field State.jr _ (fun s b => by simp) _ s

theorem sendRec_zn (s : State) (seq : Nat) : (sendRec s seq).zn = s.zn :=
  sendRec_induct (P := fun t => t.zn = s.zn) seq rfl (fun t r h => (markFirst_zn t r).trans h) (fun t _ _ _ h => (send_zn t _ _ _).trans h) (fun _ h => h)
    fun t _ h => (dropUser_zn t _ _).trans h

theorem sendRec_hostKept (s : State) (seq : Nat) : HostKept s (sendRec s seq) :=
  sendRec_induct (P := HostKept s) seq (.refl s) (fun t r h => h.trans (.of_port (markFirst_port t r))) (fun t _ _ _ h => h.trans (.of_port (send_port t _ _ _)))
    (fun _ h => h.trans (.of_port rfl)) fun t _ h => h.trans (dropUser_hostKept t _ _)

theorem sendRec_recsKept (s : State) (seq : Nat) : RecsKept s (sendRec s seq) :=
  sendRec_induct (P := RecsKept s) seq (.refl s) (fun t r h => h.trans (.of_jr (by rw [markFirst_jr]) (by rw [markFirst_jr])))
    (fun t _ _ _ h => h.trans (.of_jr (by rw [send_jr]) (by rw [send_jr]))) (fun t h => h.trans (setRec_recsKept t seq fun _ => rfl))
    fun t _ h => h.trans (.of_jr (by rw [dropUser_jr]) (by rw [dropUser_jr]))

/-- A record whose data is in. -/
def markIn (s : State) (seq : Nat) : State := setRec s seq fun r => { r with dataIn := true }

theorem sendMirror_induct {P : State → Prop} {s : State} {seq : Nat} (hs : P (markIn s seq)) (hsend : ∀ t q, P t → P (sendRec t q)) : P (sendMirror s seq) := by
  have hfold : ∀ (l : List (Nat × VRec)) t, P t → P (l.foldl (fun s p => sendRec s p.1) t) := by
    intro l
    induction l with
    | nil => exact fun t ht => ht
    | cons p l ih => exact fun t ht => ih _ (hsend t p.1 ht)
  unfold sendMirror
  dsimp only
  split
  · exact hs
  · split
    · exact hsend _ _ hs
    · exact hfold _ _ hs

theorem sendMirror_zn (s : State) (seq : Nat) : (sendMirror s seq).zn = s.zn :=
  sendMirror_induct (P := fun t => t.zn = s.zn) rfl fun t q h => (sendRec_zn t q).trans h

theorem sendMirror_hostKept (s : State) (seq : Nat) : HostKept s (sendMirror s seq) :=
  sendMirror_induct (P := HostKept s) (.of_port rfl) fun t q h => h.trans (sendRec_hostKept t q)

theorem sendMirror_recs (s : State) (seq : Nat) : RecsKept (markIn s seq) (sendMirror s seq) :=
  sendMirror_induct (P := RecsKept (markIn s seq)) (.refl _) fun t q h => h.trans (sendRec_recsKept t q)

/-- A record whose mirror copy is sent has its data in, and says otherwise what it did. -/
theorem sendMirror_find {s : State} {seq : Nat} {x : VRec} (hx : KV.find s.jr.recs seq = some x) :
    ∃ y, KV.find (sendMirror s seq).jr.recs seq = some y ∧ y.body = { x.body with dataIn := true } :=
  (sendMirror_recs s seq).recs seq _ (setRec_find hx _)

end Sys2Proof.Machine

namespace Sys2Proof.Machine

/-! SUPPORT. Zone sends on one zone (R99, R106, R114, R121, R262, R321). -/

/-! ### A zone change leaves the host port alone -/

theorem getOpen_port {s t : State} {f : Nat} (h : getOpen s f = .ok t) : t.port = s.port := by
  unfold getOpen at h
  split at h
  · cases h
    rfl
  · split at h
    · cases h
    · dsimp only at h
      split at h
      · cases h
        rfl
      · cases h

theorem leaveEmpty_port {s t : State} {f nsid i : Nat} {n : Ns} {e : Ext} {valid : Bool} (h : leaveEmpty s f nsid i n e valid = .ok t) : t.port = s.port := by
  unfold leaveEmpty at h
  split at h
  · cases h
  · split at h
    · cases h
    · cases h
      rfl

theorem queuePass_port (s : State) (nsid i : Nat) (z : Zone) (kind : DieOpKind) (wl func step : Nat) : (queuePass s nsid i z kind wl func step).port = s.port := by
  unfold queuePass
  split <;> rfl

theorem queueLine_port (s : State) (nsid i : Nat) (z : Zone) (wl func step : Nat) : (queueLine s nsid i z wl func step).port = s.port := by
  unfold queueLine
  dsimp only
  repeat' split
  all_goals simp only [queuePass_port]

theorem queueTo_port (s : State) (nsid i upTo func step : Nat) : (queueTo s nsid i upTo func step).port = s.port := by
  unfold queueTo
  split
  · rfl
  · exact foldl_field State.port _ (fun s k => queueLine_port s _ _ _ _ _ _) _ _

theorem foldReads_port (s : State) (nsid i lo hi : Nat) : (foldReads s nsid i lo hi).port = s.port := by
  unfold foldReads
  split
  · rfl
  · refine foldl_field State.port _ (fun s k => ?_) _ s
    rfl

theorem foldTo_port (s : State) (nsid i upTo func : Nat) : (foldTo s nsid i upTo func).port = s.port := by
  unfold foldTo
  split
  · rfl
  · rw [queueTo_port, foldReads_port]

theorem queueReady_port (s : State) (nsid i func : Nat) : (queueReady s nsid i func).port = s.port := by
  unfold queueReady
  split
  · rfl
  · dsimp only
    repeat' split
    all_goals simp only [queueTo_port, foldTo_port]

theorem finishZone_port (s : State) (nsid i : Nat) (byCtrl : Bool) : (finishZone s nsid i byCtrl).port = s.port := by
  unfold finishZone
  split
  · rfl
  · dsimp only
    split
    · rfl
    · split
      · exact queueReady_port _ _ _ _
      · exact queueTo_port _ _ _ _ _ _

theorem retire_port (s : State) (q : Nat) : (retire s q).port = s.port := by
  unfold retire
  split <;> rfl

theorem emptyZone_port (s : State) (nsid i : Nat) : (emptyZone s nsid i).port = s.port := by
  unfold emptyZone
  split
  · rfl
  · exact foldl_field State.port (fun (s : State) (p : Nat × VRec) => retire s p.1) (fun s p => retire_port s p.1) _ _

theorem zoneAction_port {s t : State} {f nsid i a : Nat} (h : zoneAction s f nsid i a = .ok t) : t.port = s.port := by
  unfold zoneAction at h
  split at h
  · cases h
  · dsimp only at h
    split at h
    · cases h
    · split at h
      · split at h <;> cases h <;> rfl
      · split at h <;> cases h
        · rfl
        · exact finishZone_port _ _ _ _
      · split at h
        · cases h
          rfl
        · cases h
          rfl
        · split at h
          · cases h
          · next hopen =>
            cases h
            exact (getOpen_port hopen :)
        · split at h
          · cases h
          · next hopen =>
            split at h
            · cases h
            · next hleft =>
              cases h
              exact ((leaveEmpty_port hleft).trans (getOpen_port hopen) :)
        · cases h
      · split at h <;> cases h
        · rfl
        · exact emptyZone_port _ _ _
      · split at h <;> cases h
        rfl

theorem setExtension_port {s t : State} {e : Io} {n : Ns} {i : Nat} (h : setExtension e s n i = .ok t) : t.port = s.port := by
  unfold setExtension at h
  split at h
  · cases h
  · split at h
    · cases h
    · split at h
      · cases h
      · next hleft =>
        cases h
        exact (leaveEmpty_port hleft :)
    · cases h

/-! ### The record of a zone change (R262, R321) -/

/-- A zone as the state has it now. -/
def zoneNow (s : State) (nsid i : Nat) : Zone := (nsOf s nsid).elim {} (fun n => n.zone i)

/-- What the record of a zone change says (Table 9.2). -/
def changeRec (s : State) (e : Io) (n : Ns) (i action : Nat) (slot : Option Nat) : VRec :=
  let z := zoneNow s e.nsid i
  { typ := 0x10, mirrored := mirrors s n, func := e.func, nsid := e.nsid, zone := n.znum i, zidx := i, action := action,
    arg := z.st.code, ext := z.ext, slba := i * zoneSize n.flbas, data := [z.cap], acked := !mirrors s n, slot := slot }

/-- A reset's RESET_ID given to its zone (R321). -/
def resetMarked (s : State) (nsid i action seq : Nat) : State :=
  if action = 1 then setZone s nsid i (fun z => { z with resetId := resetIdOf seq (bit (s.sup.slotid.getLsbD 0)) }) else s

theorem zoneRecord_eq (s : State) (e : Io) (n : Ns) (i action core : Nat) (slot : Option Nat) :
    zoneRecord s e n i action core slot =
      (if mirrors s n then sendMirror (resetMarked (formRecord s core (changeRec s e n i action slot)).1 e.nsid i action (formRecord s core (changeRec s e n i action slot)).2)
          (formRecord s core (changeRec s e n i action slot)).2
        else resetMarked (formRecord s core (changeRec s e n i action slot)).1 e.nsid i action (formRecord s core (changeRec s e n i action slot)).2,
      (formRecord s core (changeRec s e n i action slot)).2) := by
  unfold zoneRecord changeRec zoneNow
  cases nsOf s e.nsid <;> rfl

theorem resetMarked_port (s : State) (nsid i action seq : Nat) : (resetMarked s nsid i action seq).port = s.port := by
  unfold resetMarked
  split <;> rfl

theorem resetMarked_jr (s : State) (nsid i action seq : Nat) : (resetMarked s nsid i action seq).jr = s.jr := by
  unfold resetMarked
  split <;> rfl

/-- Marking a reset reads the module's SLOTID and writes the namespaces. -/
theorem resetMarked_zn {s t : State} (hzn : s.zn = t.zn) (hsup : s.sup = t.sup) (nsid i action seq : Nat) :
    (resetMarked s nsid i action seq).zn = (resetMarked t nsid i action seq).zn := by
  unfold resetMarked setZone setNs
  rw [hsup]
  split
  · dsimp only
    rw [hzn]
  · exact hzn

theorem resetMarked_store (s : State) (nsid i action seq : Nat) : (resetMarked s nsid i action seq).zn.store = s.zn.store := by
  unfold resetMarked
  split <;> rfl

/-- Marking a reset changes the RESET_ID of its zone alone. -/
theorem resetMarked_nsOf {s : State} {nsid : Nat} {m : Ns} (hm : nsOf s nsid = some m) (i action seq : Nat) :
    ∃ n, nsOf (resetMarked s nsid i action seq) nsid = some n ∧ (∀ k, (n.zone k).st = (m.zone k).st ∧ (n.zone k).wp = (m.zone k).wp) ∧
      (action = 1 → (n.zone i).resetId = resetIdOf seq (bit (s.sup.slotid.getLsbD 0))) := by
  unfold resetMarked
  split
  · refine ⟨_, nsOf_setZone hm _ _, fun k => ?_, fun _ => by rw [Ns.withZone_self]⟩
    by_cases hk : k = i
    · subst hk
      rw [Ns.withZone_self]
      exact ⟨rfl, rfl⟩
    · rw [Ns.withZone_other _ _ hk]
      exact ⟨rfl, rfl⟩
  · next hother => exact ⟨m, hm, fun _ => ⟨rfl, rfl⟩, fun h => absurd h hother⟩

section
variable (s : State) (e : Io) (n : Ns) (i action core : Nat) (slot : Option Nat)

theorem zoneRecord_seq : (zoneRecord s e n i action core slot).2 = s.jr.seq := by
  rw [zoneRecord_eq]
  exact (formRecord_formed s core (changeRec s e n i action slot)).1

theorem zoneRecord_hostKept : HostKept s (zoneRecord s e n i action core slot).1 := by
  have hmarked : HostKept s (resetMarked (formRecord s core (changeRec s e n i action slot)).1 e.nsid i action (formRecord s core (changeRec s e n i action slot)).2) :=
    .of_port ((resetMarked_port _ _ _ _ _).trans (formRecord_field State.port (fun _ _ _ => rfl) s core _))
  rw [zoneRecord_eq]
  dsimp only
  split
  · exact hmarked.trans (sendMirror_hostKept _ _)
  · exact hmarked

/-- The zones are as the change left them, but for the RESET_ID. -/
theorem zoneRecord_zn : (zoneRecord s e n i action core slot).1.zn = (resetMarked s e.nsid i action s.jr.seq).zn := by
  have hseq : (formRecord s core (changeRec s e n i action slot)).2 = s.jr.seq := (formRecord_formed s core _).1
  have hmarked : (resetMarked (formRecord s core (changeRec s e n i action slot)).1 e.nsid i action s.jr.seq).zn = (resetMarked s e.nsid i action s.jr.seq).zn :=
    resetMarked_zn (formRecord_field State.zn (fun _ _ _ => rfl) s core _) (formRecord_field State.sup (fun _ _ _ => rfl) s core _) _ _ _ _
  rw [zoneRecord_eq]
  dsimp only
  rw [hseq]
  split
  · rw [sendMirror_zn, hmarked]
  · exact hmarked

theorem zoneRecord_find : ∃ x, KV.find (zoneRecord s e n i action core slot).1.jr.recs s.jr.seq = some x ∧ x.body = (changeRec s e n i action slot).body := by
  obtain ⟨hseq, -, x, hx, hbody⟩ := formRecord_formed s core (changeRec s e n i action slot)
  have hmarked := resetMarked_jr (formRecord s core (changeRec s e n i action slot)).1 e.nsid i action (formRecord s core (changeRec s e n i action slot)).2
  rw [zoneRecord_eq]
  dsimp only
  split
  · obtain ⟨y, hy, hsent⟩ := sendMirror_find (s := resetMarked _ e.nsid i action _) (seq := s.jr.seq) (by rw [hmarked]; exact hx)
    rw [hbody] at hsent
    exact ⟨y, by rw [hseq] at hy ⊢; exact hy, hsent⟩
  · exact ⟨x, by rw [hmarked]; exact hx, hbody⟩

end

/-! ### A send judged in -/

/-- The slot of a send judged in, as its command stands there. -/
theorem acceptedSend_find (s2 : State) (e : Io) (j : Judged) :
    KV.find (acceptedSend s2 e j).port.cmds (freeSlot j.st) = some (newCmd e .zms j (zoneCore s2 (j.ns.znum (e.slba / zoneSize j.ns.flbas)))).armedNow :=
  accept_find _ _ _

theorem Cmd.armedNow_users (c : Cmd) : c.armedNow.users = c.users := by
  unfold Cmd.armedNow
  split <;> rfl

section
variable {s s2 s3 : State} {e : Io} {a recAct : Nat} {j : Judged} {run : State → Ns → Nat → Except Status State}
  (hfront : ioFront s { e with action := a } .zms = .ok j) (hjudged : writeFront j.st e j .zms (freeSlot j.st) false = .ok s2) (hpath : pathOf j.ns .zms = .local_)
include hfront hjudged hpath

/-- A send judged in is carried out by the zone's core on its accepted command (R114). -/
theorem zoneSend_run : zoneSend e s a run recAct =
    match run (acceptedSend s2 { e with action := a } j) j.ns (e.slba / zoneSize j.ns.flbas) with
    | .error st => finish (acceptedSend s2 { e with action := a } j) (freeSlot j.st) st
    | .ok s' =>
      if sameZone s' e.nsid (e.slba / zoneSize j.ns.flbas) (j.ns.zone (e.slba / zoneSize j.ns.flbas)) then finish s' (freeSlot j.st) .success
      else setCmd (zoneRecord s' e j.ns (e.slba / zoneSize j.ns.flbas) recAct (zoneCore s2 (j.ns.znum (e.slba / zoneSize j.ns.flbas))) (some (freeSlot j.st))).1 (freeSlot j.st)
        (fun c => { c with
          seq := some (zoneRecord s' e j.ns (e.slba / zoneSize j.ns.flbas) recAct (zoneCore s2 (j.ns.znum (e.slba / zoneSize j.ns.flbas))) (some (freeSlot j.st))).2
          stage := .dataIn }) := by
  unfold zoneSend
  rw [hfront]
  dsimp only
  rw [hjudged]
  dsimp only
  rw [hpath]
  rfl

theorem zoneSend_refused {st : Status} (hrun : run (acceptedSend s2 { e with action := a } j) j.ns (e.slba / zoneSize j.ns.flbas) = .error st) :
    zoneSend e s a run recAct = finish (acceptedSend s2 { e with action := a } j) (freeSlot j.st) st := by
  rw [zoneSend_run hfront hjudged hpath, hrun]

variable (hrun : run (acceptedSend s2 { e with action := a } j) j.ns (e.slba / zoneSize j.ns.flbas) = .ok s3)
include hrun

theorem zoneSend_unchanged (hsame : sameZone s3 e.nsid (e.slba / zoneSize j.ns.flbas) (j.ns.zone (e.slba / zoneSize j.ns.flbas)) = true) :
    zoneSend e s a run recAct = finish s3 (freeSlot j.st) .success := by
  rw [zoneSend_run hfront hjudged hpath, hrun]
  exact if_pos hsame

/-- A send whose zone change went through leaves it recorded; the record of a reset gives the zone its RESET_ID. -/
theorem zoneSend_recorded {m : Ns} (hport : s3.port = (acceptedSend s2 { e with action := a } j).port) (hm : nsOf s3 e.nsid = some m)
    (hchanged : sameZone s3 e.nsid (e.slba / zoneSize j.ns.flbas) (j.ns.zone (e.slba / zoneSize j.ns.flbas)) = false) :
    SendRecorded j e recAct s3 (zoneSend e s a run recAct) ∧
      (recAct = 1 → ∃ n, nsOf (zoneSend e s a run recAct) e.nsid = some n ∧
        (n.zone (e.slba / zoneSize j.ns.flbas)).resetId = resetIdOf s3.jr.seq (bit (s3.sup.slotid.getLsbD 0))) := by
  rw [zoneSend_run hfront hjudged hpath, hrun]
  dsimp only
  rw [if_neg (by simp [hchanged]), zoneRecord_seq]
  generalize zoneCore s2 (j.ns.znum (e.slba / zoneSize j.ns.flbas)) = core
  have hzn := zoneRecord_zn s3 e j.ns (e.slba / zoneSize j.ns.flbas) recAct core (some (freeSlot j.st))
  obtain ⟨n, hn, hzones, hreset⟩ := resetMarked_nsOf hm (e.slba / zoneSize j.ns.flbas) recAct s3.jr.seq
  obtain ⟨x, hx, hbody⟩ := zoneRecord_find s3 e j.ns (e.slba / zoneSize j.ns.flbas) recAct core (some (freeSlot j.st))
  obtain ⟨hslot, -⟩ := (zoneRecord_hostKept s3 e j.ns (e.slba / zoneSize j.ns.flbas) recAct core (some (freeSlot j.st))).idle _ _
    (by rw [hport]; exact acceptedSend_find _ _ _) (Cmd.armedNow_users _)
  have hnow := (congrArg (fun z : Zn => KV.find z.ns e.nsid) hzn).trans hn
  have hzone : zoneNow s3 e.nsid (e.slba / zoneSize j.ns.flbas) = m.zone (e.slba / zoneSize j.ns.flbas) := by
    unfold zoneNow
    rw [hm]
    rfl
  refine ⟨⟨⟨_, setCmd_find_self hslot _, rfl, rfl⟩, ⟨x, m, hx, hm, ?_⟩, ⟨m, n, hm, hnow, hzones⟩, ?_⟩, fun h => ⟨n, hnow, hreset h⟩⟩
  · exact ⟨(congrArg VRec.typ hbody :), (congrArg VRec.action hbody :), (congrArg VRec.nsid hbody :), (congrArg VRec.zidx hbody :),
      ((congrArg VRec.arg hbody :) : x.arg = _).trans (congrArg (fun z => z.st.code) hzone),
      ((congrArg VRec.ext hbody :) : x.ext = _).trans (congrArg Zone.ext hzone),
      (congrArg VRec.durable hbody :), (congrArg VRec.slot hbody :)⟩
  · exact (congrArg Zn.store hzn).trans (resetMarked_store _ _ _ _ _)

end

/-- The same of the five actions of the zone state machine. -/
theorem actionSend_recorded {s s2 s3 : State} {e : Io} {a : Nat} (recAct : Nat) {j : Judged} {m : Ns} (hfront : ioFront s { e with action := a } .zms = .ok j)
    (hjudged : writeFront j.st e j .zms (freeSlot j.st) false = .ok s2) (hpath : pathOf j.ns .zms = .local_)
    (hrun : zoneAction (acceptedSend s2 { e with action := a } j) e.func e.nsid (e.slba / zoneSize j.ns.flbas) a = .ok s3) (hm : nsOf s3 e.nsid = some m)
    (hchanged : sameZone s3 e.nsid (e.slba / zoneSize j.ns.flbas) (j.ns.zone (e.slba / zoneSize j.ns.flbas)) = false) :
    SendRecorded j e recAct s3 (zoneSend e s a (fun s _ i => zoneAction s e.func e.nsid i a) recAct) ∧
      (recAct = 1 → ∃ n, nsOf (zoneSend e s a (fun s _ i => zoneAction s e.func e.nsid i a) recAct) e.nsid = some n ∧
        (n.zone (e.slba / zoneSize j.ns.flbas)).resetId = resetIdOf s3.jr.seq (bit (s3.sup.slotid.getLsbD 0))) :=
  zoneSend_recorded (run := fun s _ i => zoneAction s e.func e.nsid i a) hfront hjudged hpath hrun (zoneAction_port hrun) hm hchanged

/-! ### The obligation -/

/-- A send that does not name a zone's first LBA is an invalid field (R53). -/
theorem ioField_sendInside {s : State} {e : Io} {n : Ns} (hattached : n.attached.contains e.func = true) (hlba : e.slba % zoneSize n.flbas ≠ 0) :
    ioField s e n .zms false = some .invalidField := by
  unfold ioField
  rw [if_neg (by simpa using hattached), if_neg (by simp), if_neg (by simp), if_pos ⟨rfl, hlba⟩]

/-- Settles O36. -/
theorem zoneSends : Obligations.ZoneSends := by
  unfold Obligations.ZoneSends
  refine ⟨?close, ?finish, ?open_, ?reset, ?offline, ?extension, ?refused, ?unchanged, ?inside⟩
  case close => exact fun s s2 s3 e j m hfront hjudged hpath hrun hm hchanged => ⟨_, rfl, (actionSend_recorded 4 hfront hjudged hpath hrun hm hchanged).1⟩
  case finish => exact fun s s2 s3 e j m hfront hjudged hpath hrun hm hchanged => ⟨_, rfl, (actionSend_recorded 2 hfront hjudged hpath hrun hm hchanged).1⟩
  case open_ => exact fun s s2 s3 e j m hfront hjudged hpath hrun hm hchanged => ⟨_, rfl, (actionSend_recorded 3 hfront hjudged hpath hrun hm hchanged).1⟩
  case reset =>
    intro s s2 s3 e j m hfront hjudged hpath hrun hm hchanged
    obtain ⟨hrecorded, hreset⟩ := actionSend_recorded 1 hfront hjudged hpath hrun hm hchanged
    exact ⟨_, rfl, hrecorded, hreset rfl⟩
  case offline => exact fun s s2 s3 e j m hfront hjudged hpath hrun hm hchanged => ⟨_, rfl, (actionSend_recorded 7 hfront hjudged hpath hrun hm hchanged).1⟩
  case extension =>
    intro s s2 s3 e j m hfront hjudged hpath hrun hm hchanged
    exact ⟨_, rfl, (zoneSend_recorded (run := setExtension e) hfront hjudged hpath hrun (setExtension_port hrun) hm hchanged).1⟩
  case refused =>
    intro s s2 e j st hfront hjudged hpath hrun
    exact congrArg Host.Outcome.next (zoneSend_refused (run := fun s _ i => zoneAction s e.func e.nsid i 4) hfront hjudged hpath hrun)
  case unchanged =>
    intro s s2 s3 e j hfront hjudged hpath hrun hsame
    exact congrArg Host.Outcome.next (zoneSend_unchanged (run := fun s _ i => zoneAction s e.func e.nsid i 1) hfront hjudged hpath hrun hsame)
  case inside => exact fun s e n => ioField_sendInside

end Sys2Proof.Machine

namespace Sys2Proof.Machine

/-! SUPPORT. Writes, write zeroes and appends on the module that orders their namespace (R114, R116, R145, R262, R266). -/

/-! ### The checks of the owning core -/

theorem openForWrite_port {s t : State} {f nsid i : Nat} {n : Ns} (h : openForWrite s f nsid i n = .ok t) : t.port = s.port := by
  unfold openForWrite at h
  dsimp only at h
  split at h
  · cases h
    rfl
  · split at h
    · cases h
    · next hopen =>
      split at h
      · split at h
        · cases h
        · next hleft =>
          cases h
          exact ((leaveEmpty_port hleft).trans (getOpen_port hopen) :)
      · cases h
        exact (getOpen_port hopen :)

/-- A write that passes goes to its zone's next LBA, and no command changes. -/
theorem zoneChecks_passed {s t : State} {e : Io} {n : Ns} {op : IoOp} {off : Nat} (h : zoneChecks s e n op = .ok (off, t)) :
    t.port = s.port ∧ off = (n.zone (e.slba / zoneSize n.flbas)).taken := by
  unfold zoneChecks at h
  dsimp only at h
  split at h
  · cases h
  · generalize (if (n.zone (e.slba / zoneSize n.flbas)).st = .empty then _ else _ : Nat) = cap at h
    split at h
    · cases h
    · split at h
      · cases h
      · split at h
        · cases h
        · cases hopen : openForWrite s e.func e.nsid (e.slba / zoneSize n.flbas) n with
          | error st =>
            rw [hopen] at h
            cases h
          | ok u =>
            rw [hopen] at h
            cases h
            exact ⟨openForWrite_port hopen, rfl⟩

/-- The core that owns a write: its zone's, or in a namespace without zones a free one (R26). -/
def writeCore (s : State) (e : Io) (j : Judged) : Nat := if j.ns.zoned then zoneCore s (j.ns.znum (e.slba / zoneSize j.ns.flbas)) else freeCore s

/-- A write in the slot it takes. -/
def acceptedWrite (s : State) (e : Io) (j : Judged) (op : IoOp) : State := accept s (freeSlot j.st) (newCmd e op j (writeCore s e j))

theorem coreChecks_passed {s t : State} {e : Io} {j : Judged} {op : IoOp} {off : Nat} (h : coreChecks s e j op = .ok (off, t)) :
    t.port = (acceptedWrite s e j op).port ∧ (j.ns.zoned = true → off = (j.ns.zone (e.slba / zoneSize j.ns.flbas)).taken) := by
  unfold coreChecks at h
  unfold acceptedWrite writeCore
  dsimp only at h
  split at h
  · rename_i hzoned
    rw [if_pos hzoned]
    obtain ⟨hport, hoff⟩ := zoneChecks_passed h
    exact ⟨hport, fun _ => hoff⟩
  · next hflat =>
    rw [if_neg hflat]
    cases h
    exact ⟨rfl, fun hzoned => absurd hzoned hflat⟩

/-! ### The record of a write (R262, R266) -/

/-- The first LBA of a write: that of its zone's next for an append (R116). -/
def writeLba (e : Io) (j : Judged) (op : IoOp) (off : Nat) : Nat := if op = .append then e.slba / zoneSize j.ns.flbas * zoneSize j.ns.flbas + off else e.slba

/-- The type of a write's record (Table 9.1). -/
def writeTyp (op : IoOp) : Nat := if op = .writeZeroes then 2 else if op = .append then 3 else 1

/-- What the record of a write says (R262). -/
def writeRec (s : State) (slot : Nat) (e : Io) (j : Judged) (op : IoOp) (off : Nat) : VRec :=
  { typ := writeTyp op, mirrored := mirrors s j.ns, wt := wtNow s j.ns, func := e.func
    pages := if op = .writeZeroes then 0 else ceilDiv (e.nlb * (lbaBytes j.ns.flbas + metaBytes j.ns.flbas)) 4096, nsid := e.nsid
    zone := if j.ns.zoned then j.ns.znum (e.slba / zoneSize j.ns.flbas) else 0xFFFFFFFF, slba := writeLba e j op off, nlb := e.nlb, bytes := recBytes j.ns op e.nlb
    zidx := if j.ns.zoned then e.slba / zoneSize j.ns.flbas else 0
    data := e.data, key := j.key, acked := !mirrors s j.ns, dataIn := op == .writeZeroes, slot := some slot }

/-- The LBAs of a write taken from its zone (R115, R116). -/
def takeLbas (s : State) (e : Io) (j : Judged) (off : Nat) : State :=
  if j.ns.zoned then setZone s e.nsid (e.slba / zoneSize j.ns.flbas) (fun z => { z with taken := off + e.nlb, lastWrite := s.time.dtb }) else s

/-- A mirrored write charged to the credit the twin has given (R268). -/
def chargeCredit (s : State) (e : Io) (j : Judged) (op : IoOp) (mirrored : Bool) : State :=
  if mirrored && !wtNow s j.ns then { s with jr := { s.jr with credit := KV.upd s.jr.credit e.func 0 (· - recBytes j.ns op e.nlb) } } else s

/-- The state in which a write's record stands, before its command names it. -/
def recordWrite (s : State) (slot : Nat) (e : Io) (j : Judged) (op : IoOp) (off core : Nat) : State :=
  chargeCredit (takeLbas (formRecord s core (writeRec s slot e j op off)).1 e j off) e j op (mirrors s j.ns)

theorem formWrite_eq (s : State) (slot : Nat) (e : Io) (j : Judged) (op : IoOp) (off core : Nat) :
    formWrite s slot e j op off core =
      let t := setCmd (recordWrite s slot e j op off core) slot fun c =>
        { c with seq := some (formRecord s core (writeRec s slot e j op off)).2, slba := writeLba e j op off }
      if op = .writeZeroes ∧ mirrors s j.ns then sendMirror t (formRecord s core (writeRec s slot e j op off)).2 else t := by
  unfold formWrite recordWrite writeRec writeTyp
  cases op <;> rfl

section
variable (s : State) (slot : Nat) (e : Io) (j : Judged) (op : IoOp) (off core : Nat)

theorem takeLbas_port : (takeLbas s e j off).port = s.port := by
  unfold takeLbas
  split <;> rfl

theorem takeLbas_jr : (takeLbas s e j off).jr = s.jr := by
  unfold takeLbas
  split <;> rfl

theorem chargeCredit_port (m : Bool) : (chargeCredit s e j op m).port = s.port := by
  unfold chargeCredit
  split <;> rfl

theorem chargeCredit_recs (m : Bool) : RecsKept s (chargeCredit s e j op m) := by
  unfold chargeCredit
  split <;> exact .of_jr rfl rfl

theorem recordWrite_port : (recordWrite s slot e j op off core).port = s.port := by
  rw [recordWrite, chargeCredit_port, takeLbas_port]
  exact formRecord_field State.port (fun _ _ _ => rfl) s core _

theorem recordWrite_recs : RecsKept (formRecord s core (writeRec s slot e j op off)).1 (recordWrite s slot e j op off core) :=
  (RecsKept.of_jr (by rw [takeLbas_jr]) (by rw [takeLbas_jr])).trans (chargeCredit_recs _ _ _ _ _)

end

/-- A write as its record leaves it: a record under the next SEQ that says what the write does, which its command names. -/
structure Recorded (s : State) (slot : Nat) (e : Io) (j : Judged) (op : IoOp) (off : Nat) (c : Cmd) (t : State) : Prop where
  seq : t.jr.seq = s.jr.seq + 1
  record : ∃ x, KV.find t.jr.recs s.jr.seq = some x ∧ x.body = (writeRec s slot e j op off).body
  cmd : KV.find t.port.cmds slot = some { c with seq := some s.jr.seq, slba := writeLba e j op off }

theorem formWrite_recorded {s : State} {slot : Nat} {c : Cmd} (hc : KV.find s.port.cmds slot = some c) (husers : c.users = [])
    (e : Io) (j : Judged) (op : IoOp) (off core : Nat) : Recorded s slot e j op off c (formWrite s slot e j op off core) := by
  obtain ⟨hseq, hnext, hformed⟩ := formRecord_formed s core (writeRec s slot e j op off)
  have hrecs := recordWrite_recs s slot e j op off core
  have hslot : KV.find (recordWrite s slot e j op off core).port.cmds slot = some c := by
    rw [recordWrite_port]
    exact hc
  rw [formWrite_eq, hseq]
  have hnamed : Recorded s slot e j op off c
      (setCmd (recordWrite s slot e j op off core) slot fun c => { c with seq := some s.jr.seq, slba := writeLba e j op off }) :=
    ⟨hrecs.seq.trans hnext, hrecs.says hformed, setCmd_find_self hslot _⟩
  dsimp only
  split
  · next hsend =>
    obtain ⟨hcount, ⟨x, hx, hbody⟩, hcmd⟩ := hnamed
    obtain ⟨y, hy, hsent⟩ := sendMirror_find hx
    refine ⟨(sendMirror_recs _ _).seq.trans hcount, ⟨y, hy, ?_⟩, ((sendMirror_hostKept _ _).idle _ _ hcmd husers).1⟩
    rw [hsent, hbody]
    simp [writeRec, VRec.body, hsend.1]
  · exact hnamed

theorem Cmd.armedNow_bufs (c : Cmd) : c.armedNow.bufs = c.bufs := by
  unfold Cmd.armedNow
  split <;> rfl

/-- A command that waits for its share, and the record it has: uncharged, its data not in (R145). -/
theorem deferShare_waits {s : State} {slot q : Nat} {c : Cmd} {x : VRec} (hc : KV.find s.port.cmds slot = some c) (hq : c.seq = some q)
    (hx : KV.find s.jr.recs q = some x) (bytes : Nat) :
    KV.find (deferShare s slot bytes).port.cmds slot = some { c with needShare := bytes, stage := .waiting } ∧
      KV.find (deferShare s slot bytes).jr.recs q = some { x with bytes := 0, dataIn := false } := by
  have huncharged := setRec_find hx (fun r => { r with bytes := 0, dataIn := false })
  have hwaiting := setCmd_find_self hc (fun c => { c with needShare := bytes, stage := .waiting })
  unfold deferShare
  rw [hc]
  dsimp only
  rw [hq] at hwaiting ⊢
  dsimp only
  split
  · exact ⟨hwaiting, huncharged⟩
  · exact ⟨hwaiting, huncharged⟩

/-! ### A write judged in -/

/-- The claims of a slot given back. -/
def withoutClaims (s : State) (slot : Nat) : State := { s with cal := { s.cal with claims := s.cal.claims.filter (fun c => c.slot != some slot) } }

theorem withoutClaims_slot (s : State) (slot : Nat) : ∀ c ∈ (withoutClaims s slot).cal.claims, c.slot ≠ some slot := fun c hc => by
  simpa using (List.mem_filter.1 hc).2

/-- The record of a write that passes, its command in its slot. -/
theorem formWrite_passed {s2 s3 : State} {e : Io} {j : Judged} {op : IoOp} {off : Nat} (hchecks : coreChecks s2 e j op = .ok (off, s3)) :
    Recorded s3 (freeSlot j.st) e j op off (newCmd e op j (writeCore s2 e j)).armedNow
    (formWrite s3 (freeSlot j.st) e j op off (writeCore s2 e j)) := by
  refine formWrite_recorded ?_ (Cmd.armedNow_users _) e j op off _
  rw [(coreChecks_passed hchecks).1]
  exact accept_find _ _ _

section
variable {s s2 s3 : State} {e : Io} {op : IoOp} {j : Judged} {off : Nat}
  (hfront : ioFront s e op = .ok j) (hjudged : writeFront j.st e j op (freeSlot j.st) false = .ok s2)
include hfront hjudged

theorem writeCmd_forwarded (hpath : pathOf j.ns op = .forwarded) :
    writeCmd e s op = forward s2 (freeSlot j.st) e (newCmd e op j (dispatchCore s2 j.ns op e.slba)) := by
  unfold writeCmd
  rw [hfront]
  dsimp only
  rw [hjudged]
  dsimp only
  rw [hpath]

variable (hpath : pathOf j.ns op = .local_)
include hpath

theorem writeCmd_refused {st : Status} (hchecks : coreChecks s2 e j op = .error st) :
    writeCmd e s op = finish (withoutClaims (acceptedWrite s2 e j op) (freeSlot j.st)) (freeSlot j.st) st := by
  unfold writeCmd
  rw [hfront]
  dsimp only
  rw [hjudged]
  dsimp only
  rw [hpath]
  unfold coreChecks at hchecks
  dsimp only at hchecks ⊢
  rw [hchecks]
  rfl

variable (hchecks : coreChecks s2 e j op = .ok (off, s3))
include hchecks

/-- A write that passes has its record formed; then it waits for its share, for its data, or, with none, for its record. -/
theorem writeCmd_passed : writeCmd e s op =
    let t := formWrite s3 (freeSlot j.st) e j op off (writeCore s2 e j)
    if mustWait s3 e j op then deferShare t (freeSlot j.st) (recBytes j.ns op e.nlb)
    else if op = .writeZeroes then setCmd t (freeSlot j.st) (fun c => { c with stage := .dataIn })
    else takeBufs (setCmd t (freeSlot j.st) (fun c => { c with stage := .buffered })) (freeSlot j.st) (e.nlb * lbaBytes j.ns.flbas) (writeUsers (mirrors t j.ns)) := by
  unfold writeCmd
  rw [hfront]
  dsimp only
  rw [hjudged]
  dsimp only
  rw [hpath]
  unfold coreChecks at hchecks
  dsimp only at hchecks ⊢
  rw [hchecks]
  rfl

/-- A write that waits for no share and brings data takes its buffers, its record as it was formed. -/
theorem writeCmd_buffered (hwait : mustWait s3 e j op = false) (hdata : op ≠ .writeZeroes) :
    (∃ c, KV.find (writeCmd e s op).port.cmds (freeSlot j.st) = some c ∧ c.seq = some s3.jr.seq ∧ c.stage = .buffered ∧ c.slba = writeLba e j op off) ∧
      (writeCmd e s op).jr.seq = s3.jr.seq + 1 ∧
      ∃ r, KV.find (writeCmd e s op).jr.recs s3.jr.seq = some r ∧ r.body = (writeRec s3 (freeSlot j.st) e j op off).body := by
  obtain ⟨hseq, hrecord, hcmd⟩ := formWrite_passed hchecks
  rw [writeCmd_passed hfront hjudged hpath hchecks]
  dsimp only
  rw [if_neg (by simp [hwait]), if_neg hdata]
  obtain ⟨c, hc, hfields⟩ := exists_of_cmdAt ((takeBufs_cmdAt _ _ (e.nlb * lbaBytes j.ns.flbas) _ _).trans (congrArg (Option.map Cmd.unbuffered)
    (setCmd_find_self hcmd (fun c => { c with stage := .buffered }))))
  refine ⟨⟨c, hc, (congrArg Cmd.seq hfields :), (congrArg Cmd.stage hfields :), (congrArg Cmd.slba hfields :)⟩, ?_⟩
  rw [(takeBufs_portIt _ _ _ _).field State.jr (fun _ _ => rfl)]
  exact ⟨hseq, hrecord⟩

end

/-- The writes leave the content as it is: only an applied record writes it (R266). -/
theorem content_kept {s t : State} {o : Host.Outcome State Fault Refusal} (hkept : KeptBy true true s o) (hexec : o = .next t) : t.zn.store = s.zn.store :=
  (hkept.next_kept _ hexec).content rfl

/-! ### The obligation -/

/-- Settles O33. -/
theorem writesFormRecords : Obligations.WritesFormRecords := by
  unfold Obligations.WritesFormRecords
  refine ⟨?write, ?wait, ?append, ?zeroes, ?refused, ?forwarded, ?appendForwarded, ?zeroesForwarded⟩
  case write =>
    intro s s2 s3 e j off hfront hjudged hpath hchecks hwait
    obtain ⟨⟨c, hc, hcseq, hstage, hlba⟩, hseq, r, hr, hbody⟩ := writeCmd_buffered hfront hjudged hpath hchecks hwait (by decide)
    exact ⟨_, c, r, rfl, hc, hcseq, hstage, hlba, hr, hseq, (congrArg VRec.typ hbody :), (congrArg VRec.nsid hbody :), (congrArg VRec.slba hbody :),
      (congrArg VRec.nlb hbody :), (congrArg VRec.data hbody :), (congrArg VRec.key hbody :), (congrArg VRec.durable hbody :), (congrArg VRec.dataIn hbody :),
      (congrArg VRec.slot hbody :), content_kept (execWrite_kept e (Kept.refl s)) rfl⟩
  case wait =>
    intro s s2 s3 e j off hfront hjudged hpath hchecks hwait
    obtain ⟨-, ⟨x, hx, hbody⟩, hcmd⟩ := formWrite_passed hchecks
    obtain ⟨hwaits, hrecord⟩ := deferShare_waits hcmd rfl hx (recBytes j.ns .write e.nlb)
    have hrun : writeCmd e s .write = _ := (writeCmd_passed hfront hjudged hpath hchecks).trans (if_pos hwait)
    have hstore : (writeCmd e s .write).zn.store = s.zn.store := content_kept (execWrite_kept e (Kept.refl s)) rfl
    rw [← hrun] at hwaits hrecord
    exact ⟨_, _, _, rfl, hwaits, rfl, rfl, rfl, Cmd.armedNow_bufs _, hrecord, rfl, (congrArg VRec.data hbody :), (congrArg VRec.durable hbody :), rfl, hstore⟩
  case append =>
    intro s s2 s3 e j off hfront hjudged hpath hzoned hchecks hwait
    obtain ⟨⟨c, hc, hcseq, -, hlba⟩, -, r, hr, hbody⟩ := writeCmd_buffered hfront hjudged hpath hchecks hwait (by decide)
    have hnext : c.slba = e.slba / zoneSize j.ns.flbas * zoneSize j.ns.flbas + (j.ns.zone (e.slba / zoneSize j.ns.flbas)).taken := by
      rw [hlba, writeLba, if_pos rfl, (coreChecks_passed hchecks).2 hzoned]
    exact ⟨_, c, r, rfl, hc, hcseq, hnext, hr, (congrArg VRec.typ hbody :), (congrArg VRec.nsid hbody :), ((congrArg VRec.slba hbody :) : r.slba = _).trans hlba.symm,
      (congrArg VRec.nlb hbody :), (congrArg VRec.data hbody :), (congrArg VRec.key hbody :), (congrArg VRec.durable hbody :), (congrArg VRec.slot hbody :),
      content_kept (execZoneAppend_kept e (Kept.refl s)) rfl⟩
  case zeroes =>
    intro s s2 s3 e j off hfront hjudged hpath hchecks hwait
    obtain ⟨-, ⟨x, hx, hbody⟩, hcmd⟩ := formWrite_passed hchecks
    have hrun : writeCmd e s .writeZeroes = _ := (writeCmd_passed hfront hjudged hpath hchecks).trans ((if_neg (by simp [hwait])).trans (if_pos rfl))
    have hstore : (writeCmd e s .writeZeroes).zn.store = s.zn.store := content_kept (execWriteZeroes_kept e (Kept.refl s)) rfl
    have hready := setCmd_find_self hcmd (fun c => { c with stage := .dataIn })
    have hrecord : KV.find (setCmd (formWrite s3 (freeSlot j.st) e j .writeZeroes off (writeCore s2 e j)) (freeSlot j.st)
      (fun c => { c with stage := .dataIn })).jr.recs s3.jr.seq = some x := hx
    rw [← hrun] at hready hrecord
    exact ⟨_, _, x, rfl, hready, rfl, rfl, Cmd.armedNow_bufs _, hrecord, (congrArg VRec.typ hbody :), (congrArg VRec.nsid hbody :), (congrArg VRec.slba hbody :),
      (congrArg VRec.nlb hbody :), (congrArg VRec.bytes hbody :), (congrArg VRec.dataIn hbody :), (congrArg VRec.durable hbody :), (congrArg VRec.slot hbody :), hstore⟩
  case refused =>
    intro s s2 e j st hfront hjudged hpath hchecks
    exact ⟨_, congrArg Host.Outcome.next (writeCmd_refused hfront hjudged hpath hchecks), rfl, rfl, withoutClaims_slot _ _⟩
  case forwarded => exact fun s s2 e j hfront hjudged hpath => congrArg Host.Outcome.next (writeCmd_forwarded hfront hjudged hpath)
  case appendForwarded => exact fun s s2 e j hfront hjudged hpath => congrArg Host.Outcome.next (writeCmd_forwarded hfront hjudged hpath)
  case zeroesForwarded => exact fun s s2 e j hfront hjudged hpath => congrArg Host.Outcome.next (writeCmd_forwarded hfront hjudged hpath)

end Sys2Proof.Machine

namespace Sys2Proof.Machine

/-! SUPPORT. Select All: the multi-zone record and its results (R120 to R122). -/

/-! ### The newest multi-zone record of a controller (R122) -/

/-- The newest multi-zone record of a controller, which has the number it gave last. -/
structure NewestZop (s : State) (f : Nat) (z : ZopRec) : Prop where
  head : (ctrl s f).zops.head? = some z
  number : (ctrl s f).zopSeq = z.seq

/-- What a multi-zone record says of its command. -/
def ZopRec.names (z : ZopRec) : ZopRec := { seq := z.seq, nsid := z.nsid, cid := z.cid, action := z.action }

/-- The zones that a multi-zone record has counted. -/
def ZopRec.counted (z : ZopRec) : Nat := z.acted + z.failed + z.skipped

theorem keepZop_newest (s : State) (f : Nat) (z : ZopRec) : NewestZop (keepZop s f z) f z :=
  ⟨congrArg (fun c : Ctrl => c.zops.head?) (ctrl_setCtrl_self _ _ _), congrArg Ctrl.zopSeq (ctrl_setCtrl_self _ _ _)⟩

theorem NewestZop.of_ctrls {s t : State} {f : Nat} {z : ZopRec} (h : NewestZop s f z) (hctrls : t.port.ctrls = s.port.ctrls) : NewestZop t f z := by
  have hctrl : ctrl t f = ctrl s f := by
    unfold ctrl
    rw [hctrls]
  exact ⟨hctrl ▸ h.head, hctrl ▸ h.number⟩

theorem NewestZop.of_sameRegs {s t : State} {f : Nat} {z : ZopRec} (h : NewestZop s f z) (hregs : SameRegs s t) : NewestZop t f z :=
  ⟨(hregs.field (fun c => c.zops.head?) (fun _ => rfl) f).trans h.head, (hregs.field Ctrl.zopSeq (fun _ => rfl) f).trans h.number⟩

theorem NewestZop.setZop {s : State} {f : Nat} {z : ZopRec} (h : NewestZop s f z) {g : ZopRec → ZopRec} (hg : (g z).seq = z.seq) :
    NewestZop (setZop s f z.seq g) f (g z) := by
  unfold Machine.setZop
  refine ⟨?_, ?_⟩
  · rw [ctrl_setCtrl_self]
    dsimp only
    rw [List.head?_map, h.head]
    simp
  · rw [ctrl_setCtrl_self, hg]
    exact h.number

theorem ZopRec.settle_names (z : ZopRec) (i : Nat) (r : ZRes) : (z.settle i r).names = z.names := by
  cases r <;> rfl

/-- A zone acted on, failed or skipped is counted. -/
theorem ZopRec.settle_counted (z : ZopRec) (i : Nat) {r : ZRes} (h : ∀ q, r ≠ .change q) : (z.settle i r).counted = z.counted + 1 := by
  unfold ZopRec.counted
  cases r with
  | change q => exact absurd rfl (h q)
  | acted => simp [ZopRec.settle]; omega
  | skipped => simp [ZopRec.settle]; omega
  | failed st => simp [ZopRec.settle]; omega

/-! ### The zones, in ascending order (R120) -/

/-- A zone of a Select All leaves one result, and the commands without buffers as they are. -/
theorem selectOne_result (e : Io) (n : Ns) (r : State × List (Nat × ZRes)) (i : Nat) :
    HostKept r.1 (selectOne e n r i).1 ∧ (selectOne e n r i).2.length = r.2.length + 1 := by
  unfold selectOne
  dsimp only
  generalize zoneEligible _ e.action = eligible
  split
  · exact ⟨HostKept.refl _, rfl⟩
  · split
    · exact ⟨HostKept.refl _, rfl⟩
    · next hrun => exact ⟨(HostKept.of_port (zoneAction_port hrun)).trans (zoneRecord_hostKept _ _ _ _ _ _ _), rfl⟩

theorem selectOne_foldl (e : Io) (n : Ns) (l : List Nat) (r : State × List (Nat × ZRes)) :
    HostKept r.1 (l.foldl (selectOne e n) r).1 ∧ (l.foldl (selectOne e n) r).2.length = r.2.length + l.length := by
  induction l generalizing r with
  | nil => exact ⟨HostKept.refl _, rfl⟩
  | cons i l ih =>
    obtain ⟨hkept, hlength⟩ := selectOne_result e n r i
    obtain ⟨hkept', hlength'⟩ := ih (selectOne e n r i)
    exact ⟨hkept.trans hkept', by rw [List.foldl_cons, hlength', hlength, List.length_cons]; omega⟩

/-- Every zone of the namespace has a result. -/
theorem selectFrom_results (s : State) (e : Io) (n : Ns) : HostKept s (selectFrom s e n 0).1 ∧ (selectFrom s e n 0).2.length = n.zoneCount := by
  obtain ⟨hkept, hlength⟩ := selectOne_foldl e n ((List.range n.zoneCount).drop 0) (s, [])
  exact ⟨hkept, by simpa [selectFrom] using hlength⟩

theorem setCmd_listed (s : State) (slot k : Nat) (f : Cmd → Cmd) : KV.listed (setCmd s slot f).port.cmds k = KV.listed s.port.cmds k :=
  KV.listed_adj _ _ _ _

/-! ### Results settled (R121, R122) -/

theorem settleRes_host {c : Cmd} (htwin : c.fromTwin = false) (s : State) (slot i : Nat) (r : ZRes) :
    settleRes s slot c i r = setZop s c.func c.zop (fun z => z.settle i r) := by
  unfold settleRes
  rw [htwin]
  rfl

/-- The results settled are counted in the record; those left are the rest, and no command changes. -/
theorem settleHead_counts {slot : Nat} {c : Cmd} (htwin : c.fromTwin = false) (l : List (Nat × ZRes)) {s : State} {z : ZopRec}
    (h : NewestZop s c.func z) (hzop : c.zop = z.seq) :
    ∃ y, NewestZop (settleHead slot c l s).1 c.func y ∧ y.names = z.names ∧ y.counted + (settleHead slot c l s).2.length = z.counted + l.length ∧
      (settleHead slot c l s).1.port.cmds = s.port.cmds := by
  induction l generalizing s z with
  | nil => exact ⟨z, h, rfl, rfl, rfl⟩
  | cons p l ih =>
    obtain ⟨i, r⟩ := p
    have hsettled (hr : ∀ q, r ≠ .change q) : ∃ y, NewestZop (settleHead slot c l (settleRes s slot c i r)).1 c.func y ∧ y.names = z.names ∧
        y.counted + (settleHead slot c l (settleRes s slot c i r)).2.length = z.counted + (l.length + 1) ∧
        (settleHead slot c l (settleRes s slot c i r)).1.port.cmds = s.port.cmds := by
      rw [settleRes_host htwin, hzop]
      have hnames := z.settle_names i r
      have hseq : (z.settle i r).seq = z.seq := (congrArg ZopRec.seq hnames :)
      obtain ⟨y, hnewest, hsame, hcount, hcmds⟩ := ih (h.setZop (g := fun z => z.settle i r) hseq) (hzop.trans hseq.symm)
      refine ⟨y, hnewest, hsame.trans hnames, ?_, hcmds⟩
      rw [hcount, z.settle_counted i hr]
      omega
    cases r with
    | change q => exact ⟨z, h, rfl, rfl, rfl⟩
    | acted => exact hsettled fun q => nofun
    | skipped => exact hsettled fun q => nofun
    | failed st => exact hsettled fun q => nofun

/-- A command listed once is in the table no more once it has ended. -/
theorem finish_listedOnce {s : State} {slot : Nat} (hlisted : KV.listed s.port.cmds slot = 1) (st : Status) (dw0 dw1 : Nat) (data : List Nat) :
    KV.find (finish s slot st dw0 dw1 data).port.cmds slot = none := by
  cases hc : KV.find s.port.cmds slot with
  | none => simp [finish, hc]
  | some c =>
    have hport : (freeBufs s c).port = s.port := by simp
    have hgone : KV.find (withoutCmd s slot c).port.cmds slot = none := by
      show KV.find (KV.del (freeBufs s c).port.cmds slot) slot = none
      rw [hport]
      exact KV.find_del_once hlisted
    exact (finish_after hc st dw0 dw1 data).cmds _ ((endCmd_after hc st dw0 dw1 data).cmds _ hgone)

/-- A multi-zone command that ends marks its record done and leaves the table. -/
theorem endZop_done {s : State} {slot : Nat} {c : Cmd} {z : ZopRec} (h : NewestZop s c.func z) (hzop : c.zop = z.seq) (hlisted : KV.listed s.port.cmds slot = 1) :
    KV.find (endZop s slot c).port.cmds slot = none ∧
      ∃ y, NewestZop (endZop s slot c) c.func y ∧ y.names = z.names ∧ y.counted = z.counted ∧ y.done = true := by
  unfold endZop
  dsimp only
  refine ⟨finish_listedOnce ?_ _ _ _ _, ?_⟩
  · exact hlisted
  rw [hzop]
  exact ⟨_, (h.setZop rfl).of_sameRegs (finish_sameRegs _ _ _ _ _ _), rfl, rfl, rfl⟩

/-- The zones of a multi-zone record: those counted, and those its command still waits for. -/
structure Accounted (s : State) (slot f : Nat) (z : ZopRec) (zones : Nat) (y : ZopRec) : Prop where
  newest : NewestZop s f y
  names : y.names = z.names
  total : y.counted + (KV.find s.port.cmds slot).elim 0 (fun c => c.zres.length) = z.counted + zones
  done : (KV.find s.port.cmds slot).elim 0 (fun c => c.zres.length) = 0 → y.done = true

theorem settleZop_accounted {s : State} {slot : Nat} {c : Cmd} {z : ZopRec} (hc : KV.find s.port.cmds slot = some c) (hlisted : KV.listed s.port.cmds slot = 1)
    (htwin : c.fromTwin = false) (hzop : c.zop = z.seq) (h : NewestZop s c.func z) (l : List (Nat × ZRes)) :
    ∃ y, Accounted (settleZop s slot l) slot c.func z l.length y := by
  obtain ⟨y, hnewest, hnames, hcount, hcmds⟩ := settleHead_counts (slot := slot) htwin l h hzop
  have hseq : y.seq = z.seq := (congrArg ZopRec.seq hnames :)
  unfold settleZop
  rw [hc]
  dsimp only
  generalize settleHead slot c l s = r at *
  have hleft : KV.find (setCmd r.1 slot fun c => { c with zres := r.2 }).port.cmds slot = some { c with zres := r.2 } :=
    setCmd_find_self (by rw [hcmds]; exact hc) _
  have hset : NewestZop (setCmd r.1 slot fun c => { c with zres := r.2 }) c.func y := hnewest.of_ctrls rfl
  by_cases hnone : r.2 = []
  · have honce : KV.listed (setCmd r.1 slot fun c => { c with zres := r.2 }).port.cmds slot = 1 := by
      rw [setCmd_listed, hcmds]
      exact hlisted
    obtain ⟨hgone, x, hdone⟩ := endZop_done hset (hzop.trans hseq.symm) honce
    obtain ⟨hended, hsame, hcounted, hfinished⟩ := hdone
    rw [if_neg (by simp [hnone]), if_neg (by simp [htwin])]
    refine ⟨x, hended, hsame.trans hnames, ?_, fun _ => hfinished⟩
    rw [hgone, hcounted, ← hcount, hnone]
    rfl
  · rw [if_pos (by simpa using hnone)]
    refine ⟨y, hset, hnames, ?_, fun hzero => ?_⟩
    · rw [hleft]
      exact hcount
    · rw [hleft] at hzero
      exact absurd (List.length_eq_zero_iff.1 hzero) hnone

/-! ### Select All judged in -/

/-- The command of a Select All, the multi-zone record named in it (R121). -/
def selectCmd (s : State) (e : Io) (j : Judged) : Cmd :=
  { (newCmd e .zms j (zoneCore s (j.ns.znum 0))).armedNow with zop := (ctrl s e.func).zopSeq + 1, stage := .dataIn }

/-- It is a command of the host, with no buffers. -/
theorem selectCmd_host (s : State) (e : Io) (j : Judged) : (selectCmd s e j).users = [] ∧ (selectCmd s e j).fromTwin = false ∧ (selectCmd s e j).func = e.func := by
  unfold selectCmd Cmd.armedNow
  split <;> exact ⟨rfl, rfl, rfl⟩

/-- A Select All accepted, its record kept as its controller's newest. -/
def selectStarted (s : State) (e : Io) (j : Judged) : State :=
  let s := accept s (freeSlot j.st) (newCmd e .zms j (zoneCore s (j.ns.znum 0)))
  setCmd (keepZop s e.func (newZop s e false)) (freeSlot j.st) (fun c => { c with zop := (newZop s e false).seq, stage := .dataIn })

section
variable {s s2 : State} {e : Io} {j : Judged} (hfront : ioFront s e .zms true = .ok j) (hjudged : writeFront j.st e j .zms (freeSlot j.st) true = .ok s2)
include hfront hjudged

theorem selectStarted_listed : KV.find (selectStarted s2 e j).port.cmds (freeSlot j.st) = some (selectCmd s2 e j) ∧
    KV.listed (selectStarted s2 e j).port.cmds (freeSlot j.st) = 1 := by
  have hfree : KV.find s2.port.cmds (freeSlot j.st) = none := by
    rw [(writeFront_cal hjudged).port]
    exact ioFront_slot hfront
  unfold selectStarted
  dsimp only
  refine ⟨?_, ?_⟩
  · refine (setCmd_find_self (w := (newCmd e .zms j (zoneCore s2 (j.ns.znum 0))).armedNow) ?_ _).trans ?_
    · exact accept_find s2 (freeSlot j.st) _
    · rfl
  · rw [setCmd_listed]
    exact KV.listed_set_new (KV.find_none_iff.1 hfree) _

theorem selectAll_local (hpath : pathOf j.ns .zms = .local_) :
    execZoneSendSelectAll e s = .next (settleZop (selectFrom (selectStarted s2 e j) e j.ns 0).1 (freeSlot j.st) (selectFrom (selectStarted s2 e j) e j.ns 0).2) := by
  unfold execZoneSendSelectAll
  rw [hfront]
  dsimp only
  rw [hjudged]
  dsimp only
  rw [hpath]
  rfl

theorem selectAll_accounted (hpath : pathOf j.ns .zms = .local_) :
    ∃ t y, execZoneSendSelectAll e s = .next t ∧ Accounted t (freeSlot j.st) e.func (newZop s2 e false) j.ns.zoneCount y := by
  obtain ⟨hfind, hlisted⟩ := selectStarted_listed hfront hjudged
  obtain ⟨hkept, hlength⟩ := selectFrom_results (selectStarted s2 e j) e j.ns
  obtain ⟨husers, htwin, hfunc⟩ := selectCmd_host s2 e j
  obtain ⟨hfind', hlisted'⟩ := hkept.idle _ _ hfind husers
  have hnewest : NewestZop (selectStarted s2 e j) (selectCmd s2 e j).func (newZop s2 e false) := by
    rw [hfunc]
    exact (keepZop_newest _ _ _).of_ctrls rfl
  obtain ⟨y, haccounted⟩ := settleZop_accounted hfind' (hlisted'.trans hlisted) htwin rfl (hnewest.of_ctrls hkept.ctrls) (selectFrom (selectStarted s2 e j) e j.ns 0).2
  rw [hlength, hfunc] at haccounted
  exact ⟨_, y, selectAll_local hfront hjudged hpath, haccounted⟩

end

/-! ### The obligation -/

/-- A Select All on which no action exists is an invalid field (R120). -/
theorem ioField_selectAction {s : State} {e : Io} {n : Ns} (hattached : n.attached.contains e.func = true) (haction : e.action = 0 ∨ 5 < e.action) :
    ioField s e n .zms true = some .invalidField := by
  unfold ioField
  rw [if_neg (by simpa using hattached), if_neg (by simp), if_pos rfl, if_pos haction]

/-- What is forwarded without data changes no controller (R270). -/
theorem forward_ctrls {s : State} {c : Cmd} (hmode : s.md.mode = .service) (hdata : c.op.bringsData = false) (slot : Nat) (e : Io) (claim : Nat) :
    (forward s slot e c claim).port.ctrls = s.port.ctrls := by
  unfold forward
  dsimp only
  rw [if_neg, if_neg, sendForwarded, send_port]
  · rfl
  · simp [hdata]
  · exact fun h => h hmode

theorem selectAll_forwarded {s s2 : State} {e : Io} {j : Judged} (hfront : ioFront s e .zms true = .ok j)
    (hjudged : writeFront j.st e j .zms (freeSlot j.st) true = .ok s2) (hpath : pathOf j.ns .zms = .forwarded) :
    execZoneSendSelectAll e s = .next (setCmd (forward (keepZop s2 e.func (newZop s2 e true)) (freeSlot j.st) e
      (newCmd e .zms j (dispatchCore (keepZop s2 e.func (newZop s2 e true)) j.ns .zms 0))) (freeSlot j.st) (fun c => { c with zop := (newZop s2 e true).seq })) := by
  unfold execZoneSendSelectAll
  rw [hfront]
  dsimp only
  rw [hjudged]
  dsimp only
  rw [hpath]

theorem Cmd.armedNow_fwd (c : Cmd) : c.armedNow.fwd = c.fwd := by
  unfold Cmd.armedNow
  split <;> rfl

/-- Judging an entry gives no number: a multi-zone record has the next one its controller had when the entry was fetched. -/
theorem newZop_number {s2 : State} {j : Judged} {e : Io} {slot : Nat} {all : Bool} (hjudged : writeFront j.st e j .zms slot all = .ok s2) (fwd : Bool) :
    (newZop s2 e fwd).seq = (ctrl j.st e.func).zopSeq + 1 := by
  unfold newZop ctrl
  rw [(writeFront_cal hjudged).port]

/-- Settles O37. -/
theorem selectAllAccountsForEveryZone : Obligations.SelectAllAccountsForEveryZone := by
  unfold Obligations.SelectAllAccountsForEveryZone
  refine ⟨?accounted, ?action, ?refused, ?forwarded⟩
  case accounted =>
    intro s s2 e j hfront hjudged hpath
    obtain ⟨t, y, hexec, hnewest, hnames, htotal, hdone⟩ := selectAll_accounted hfront hjudged hpath
    have hseq : y.seq = _ := (congrArg ZopRec.seq hnames :)
    exact ⟨t, y, hexec, hnewest.head, hseq.trans (newZop_number hjudged false), (congrArg ZopRec.nsid hnames :), (congrArg ZopRec.cid hnames :),
      (congrArg ZopRec.action hnames :), htotal.trans (Nat.zero_add _), hdone, hnewest.number⟩
  case action => exact fun s e n => ioField_selectAction
  case refused =>
    intro s u e hfront
    show execZoneSendSelectAll e s = _
    unfold execZoneSendSelectAll
    rw [hfront]
  case forwarded =>
    intro s s2 e j hfront hjudged hpath hmode
    have hservice : (keepZop s2 e.func (newZop s2 e true)).md.mode = .service := by
      rw [← hmode, ← (writeFront_cal hjudged).md]
      rfl
    obtain ⟨hsent, -⟩ := forward_sent (c := newCmd e .zms j (dispatchCore (keepZop s2 e.func (newZop s2 e true)) j.ns .zms 0)) hservice rfl (freeSlot j.st) e 0
    have hnewest := (keepZop_newest s2 e.func (newZop s2 e true)).of_ctrls
      (forward_ctrls (c := newCmd e .zms j (dispatchCore (keepZop s2 e.func (newZop s2 e true)) j.ns .zms 0)) hservice rfl (freeSlot j.st) e 0)
    exact ⟨_, _, newZop s2 e true, selectAll_forwarded hfront hjudged hpath, setCmd_find_self hsent _, Cmd.armedNow_fwd _, rfl, (hnewest.of_ctrls rfl).head, rfl,
      newZop_number hjudged true⟩

end Sys2Proof.Machine

namespace Sys2Proof.Machine

/-! SUPPORT. What the end of a pass leaves of the dies' other work and of the zones (R189, R215, R217, R233, R273, R275). -/

/-! ### The work the dies run -/

/-- The pass or erase each die runs, and the KiB programmed so far. -/
def dieWork (s : State) : (Nat → Option DieOp) × Nat := (fun d => (dieOf s d).op, s.media.progKib)

/-- The zones of each namespace. -/
def heldZones (s : State) : Nat → Option (KV Zone) := fun k => (nsOf s k).map Ns.zones

/-- Both: what staging and the erase queue leave alone. -/
def workZones (s : State) : ((Nat → Option DieOp) × Nat) × (Nat → Option (KV Zone)) := (dieWork s, heldZones s)

theorem dieWork_of {s t : State} (h : workZones s = workZones t) : dieWork s = dieWork t := congrArg Prod.fst h

theorem heldZones_of {s t : State} (h : workZones s = workZones t) : heldZones s = heldZones t := congrArg Prod.snd h

/-- The dies' work rests on the part, the dies and the count. -/
theorem dieWork_of_media {s t : State} (hpart : s.part = t.part) (hmedia : s.media = t.media) : dieWork s = dieWork t := by
  unfold dieWork dieOf
  rw [hpart, hmedia]

/-- A change of the media that leaves the dies and the count. -/
theorem media_dieWork (s : State) {m : Media} (hdies : m.dies = s.media.dies) (hkib : m.progKib = s.media.progKib) :
    dieWork { s with media := m } = dieWork s := by
  unfold dieWork dieOf
  rw [hdies, hkib]

theorem cal_dieWork (s : State) (c : Cal) : dieWork { s with cal := c } = dieWork s := rfl

/-- A change of a namespace that leaves its zones. -/
theorem setNs_workZones (s : State) (nsid : Nat) {f : Ns → Ns} (hf : ∀ n, (f n).zones = n.zones) : workZones (setNs s nsid f) = workZones s := by
  refine Prod.ext rfl (funext fun k => ?_)
  show ((KV.find (KV.adj s.zn.ns nsid f) k).map Ns.zones) = (nsOf s k).map Ns.zones
  rw [KV.find_adj]
  split
  · rw [Option.map_map]
    exact congrArg (fun g => (KV.find s.zn.ns k).map g) (funext hf)
  · rfl

@[simp] theorem setNs_dieWork (s : State) (nsid : Nat) (f : Ns → Ns) : dieWork (setNs s nsid f) = dieWork s := rfl
@[simp] theorem setZone_dieWork (s : State) (nsid i : Nat) (f : Zone → Zone) : dieWork (setZone s nsid i f) = dieWork s := rfl
@[simp] theorem setRec_workZones (s : State) (q : Nat) (f : VRec → VRec) : workZones (setRec s q f) = workZones s := rfl
@[simp] theorem setGrp_workZones (s : State) (g : Nat) (f : Grp → Grp) : workZones (setGrp s g f) = workZones s := rfl
@[simp] theorem setRec_dieWork (s : State) (q : Nat) (f : VRec → VRec) : dieWork (setRec s q f) = dieWork s := rfl
@[simp] theorem setBset_dieWork (s : State) (k : Nat) (f : BSet → BSet) : dieWork (setBset s k f) = dieWork s := rfl
@[simp] theorem workZones_foldl {α : Type} {f : State → α → State} (h : ∀ s x, workZones (f s x) = workZones s) (l : List α) (s : State) :
    workZones (l.foldl f s) = workZones s := foldl_field workZones f h l s

@[simp] theorem dieWork_foldl {α : Type} {f : State → α → State} (h : ∀ s x, dieWork (f s x) = dieWork s) (l : List α) (s : State) :
    dieWork (l.foldl f s) = dieWork s := foldl_field dieWork f h l s

@[simp] theorem formRecord_workZones (s : State) (core : Nat) (r : VRec) : workZones (formRecord s core r).1 = workZones s :=
  formRecord_field workZones (fun _ _ _ => rfl) s core r

@[simp] theorem moduleRecord_workZones (s : State) (typ action arg : Nat) : workZones (moduleRecord s typ action arg) = workZones s :=
  formRecord_workZones s _ _

@[simp] theorem moduleRecord_dieWork (s : State) (typ action arg : Nat) : dieWork (moduleRecord s typ action arg) = dieWork s :=
  dieWork_of (moduleRecord_workZones s typ action arg)

@[simp] theorem finish_dieWork (s : State) (slot : Nat) (st : Status) (dw0 dw1 : Nat) (data : List Nat) : dieWork (finish s slot st dw0 dw1 data) = dieWork s :=
  dieWork_of_media (finish_kept (K := true) (J := true) slot st dw0 dw1 data (Kept.refl s)).part (finish_ended s slot st dw0 dw1 data).media

@[simp] theorem record_dieWork (s : State) (typ : Nat) (payload : List Nat) (func : Option Nat) (nsid key : Nat) :
    dieWork (record s typ payload func nsid key) = dieWork s := dieWork_of_media (by simp) (by simp)

@[simp] theorem send_dieWork (s : State) (typ tag : Nat) (body : List Nat) : dieWork (send s typ tag body) = dieWork s :=
  dieWork_of_media (by simp) (by simp)

/-! ### The erase queue -/

@[simp] theorem toErase_workZones (s : State) (k : Nat) : workZones (toErase s k) = workZones s := by
  unfold toErase
  dsimp only
  split <;> rfl

@[simp] theorem toEraseAll_workZones (s : State) (k : Nat) : workZones (toEraseAll s k) = workZones s := by
  simp [toEraseAll]

@[simp] theorem toEraseAll_dieWork (s : State) (k : Nat) : dieWork (toEraseAll s k) = dieWork s := dieWork_of (toEraseAll_workZones s k)

@[simp] theorem staleMeta_workZones (s : State) (g : Nat) : workZones (staleMeta s g) = workZones s := by
  simp [staleMeta]

@[simp] theorem staleStripes_dieWork (s : State) (g : Nat) : dieWork (staleStripes s g) = dieWork s := by
  simp [staleStripes]

/-! ### Staging (R273, R274) -/

/-- Rows taken on a group's metadata stripe move its fill point alone. -/
theorem takeRows_opens {s t : State} {g n b row : Nat} {log : Bool} (h : takeRows s g log n = some (t, b, row)) :
    ∃ m, t = { s with media := { s.media with metaOpen := m } } := by
  unfold takeRows at h
  dsimp only at h
  split at h
  · split at h
    · cases h
      exact ⟨_, rfl⟩
    · obtain ⟨_, _, hput⟩ := Option.map_eq_some_iff.1 h
      cases hput
      exact ⟨_, rfl⟩
  · obtain ⟨_, _, hput⟩ := Option.map_eq_some_iff.1 h
    cases hput
    exact ⟨_, rfl⟩

theorem takeRows_workZones {s t : State} {g n b row : Nat} {log : Bool} (h : takeRows s g log n = some (t, b, row)) : workZones t = workZones s := by
  obtain ⟨m, rfl⟩ := takeRows_opens h
  rfl

theorem rowPlace_workZones {s t : State} {g b row : Nat} {ns : Option Nat} (h : rowPlace s g ns = some (t, b, row)) : workZones t = workZones s := by
  cases ns with
  | some n => exact takeRows_workZones h
  | none =>
    cases h
    rfl

@[simp] theorem queueRow_workZones (s : State) (j : RowJob) (base lines : Nat) : workZones (queueRow s j base lines) = workZones s := rfl

@[simp] theorem releaseRow_workZones (s : State) (g : Nat) (ns : Option Nat) : workZones (releaseRow s g ns) = workZones s := by
  unfold releaseRow
  dsimp only
  split
  · rfl
  · split
    · rfl
    · next hplace => simp [rowPlace_workZones hplace]

@[simp] theorem putUnit_workZones (s : State) (g : Nat) (ns : Option Nat) (seq u : Nat) : workZones (putUnit s g ns seq u) = workZones s := by
  unfold putUnit
  dsimp only
  split <;> simp

@[simp] theorem appendUnit_workZones (nsid : Nat) (s : State) (u : Nat) : workZones (appendUnit nsid s u) = workZones s := by
  unfold appendUnit
  split
  · rfl
  · exact setNs_workZones _ _ fun _ => rfl

@[simp] theorem mergeUnit_workZones (nsid : Nat) (s : State) (u : Nat) : workZones (mergeUnit nsid s u) = workZones s := by
  unfold mergeUnit
  split
  · rfl
  · dsimp only
    split
    · rfl
    · next hrows => exact (takeRows_workZones hrows :)

@[simp] theorem freeLog_workZones (s : State) (nsid : Nat) : workZones (freeLog s nsid) = workZones s := by
  unfold freeLog
  split
  · rfl
  · split
    · rfl
    · rw [staleMeta_workZones, setNs_workZones, moduleRecord_workZones]
      exact fun _ => rfl

@[simp] theorem startMerge_workZones (s : State) (nsid : Nat) : workZones (startMerge s nsid) = workZones s := by
  unfold startMerge
  split
  · rfl
  · split
    · rfl
    · rw [freeLog_workZones, workZones_foldl (mergeUnit_workZones nsid), setNs_workZones]
      exact fun _ => rfl

@[simp] theorem stageRec_workZones (s : State) (seq : Nat) : workZones (stageRec s seq) = workZones s := by
  unfold stageRec
  split
  · rfl
  · split
    · rfl
    · dsimp only
      split
      · rfl
      · next n _ _ => cases n.zoned <;> split <;> simp

@[simp] theorem stageWaiting_workZones (s : State) (nsid : Nat) : workZones (stageWaiting s nsid) = workZones s := by
  simp [stageWaiting]

/-! ### Passes of a zone (R189) -/

@[simp] theorem queuePass_dieWork (s : State) (nsid i : Nat) (z : Zone) (kind : DieOpKind) (wl func step : Nat) :
    dieWork (queuePass s nsid i z kind wl func step) = dieWork s := by
  unfold queuePass
  split <;> rfl

@[simp] theorem queueLine_dieWork (s : State) (nsid i : Nat) (z : Zone) (wl func step : Nat) : dieWork (queueLine s nsid i z wl func step) = dieWork s := by
  unfold queueLine
  dsimp only
  repeat' split
  all_goals simp

@[simp] theorem queueTo_dieWork (s : State) (nsid i upTo func step : Nat) : dieWork (queueTo s nsid i upTo func step) = dieWork s := by
  unfold queueTo
  split
  · rfl
  · simp

@[simp] theorem foldReads_dieWork (s : State) (nsid i lo hi : Nat) : dieWork (foldReads s nsid i lo hi) = dieWork s := by
  unfold foldReads
  split
  · rfl
  · refine dieWork_foldl (fun s k => ?_) _ _
    rfl

@[simp] theorem foldTo_dieWork (s : State) (nsid i upTo func : Nat) : dieWork (foldTo s nsid i upTo func) = dieWork s := by
  unfold foldTo
  split
  · rfl
  · simp

@[simp] theorem queueReady_dieWork (s : State) (nsid i func : Nat) : dieWork (queueReady s nsid i func) = dieWork s := by
  unfold queueReady
  split
  · rfl
  · dsimp only
    repeat' split
    all_goals simp

@[simp] theorem retire_dieWork (s : State) (q : Nat) : dieWork (retire s q) = dieWork s := by
  unfold retire
  split <;> rfl

@[simp] theorem retireNs_dieWork (s : State) (nsid : Nat) : dieWork (retireNs s nsid) = dieWork s := by
  unfold retireNs
  split
  · rfl
  · simp

@[simp] theorem settleStaging_dieWork (s : State) (nsid i : Nat) : dieWork (settleStaging s nsid i) = dieWork s := by
  unfold settleStaging
  split
  · rfl
  · dsimp only
    split <;> rfl

@[simp] theorem confirmZone_dieWork (s : State) (nsid i : Nat) : dieWork (confirmZone s nsid i) = dieWork s := by
  unfold confirmZone
  split
  · rfl
  · dsimp only
    split
    · rfl
    · simp

/-! ### Records applied (R266) -/

@[simp] theorem advance_dieWork (s : State) (nsid i endOff func : Nat) : dieWork (advance s nsid i endOff func) = dieWork s := by
  unfold advance
  split
  · rfl
  · simp

@[simp] theorem markCont_dieWork (s : State) (r : VRec) : dieWork (markCont s r) = dieWork s := by
  unfold markCont
  split <;> rfl

@[simp] theorem storeRec_dieWork (s : State) (r : VRec) : dieWork (storeRec s r) = dieWork s := by
  unfold storeRec
  refine dieWork_foldl (fun s i => ?_) _ _
  dsimp only
  split <;> rfl

@[simp] theorem countHost_dieWork (s : State) (density kib : Nat) : dieWork (countHost s density kib) = dieWork s := rfl

@[simp] theorem applyRec_dieWork (s : State) (q : Nat) : dieWork (applyRec s q) = dieWork s := by
  unfold applyRec
  split
  · rfl
  · dsimp only
    repeat' split
    all_goals simp

@[simp] theorem settleZone_dieWork (s : State) (nsid i : Nat) : dieWork (settleZone s nsid i) = dieWork s := by
  simp [settleZone]

@[simp] theorem settle_dieWork (s : State) (q : Nat) : dieWork (settle s q) = dieWork s := by
  unfold settle
  repeat' split
  all_goals simp

/-! ### Rows (R275) -/

@[simp] theorem startMerge_dieWork (s : State) (nsid : Nat) : dieWork (startMerge s nsid) = dieWork s := dieWork_of (startMerge_workZones s nsid)

@[simp] theorem freeLog_dieWork (s : State) (nsid : Nat) : dieWork (freeLog s nsid) = dieWork s := dieWork_of (freeLog_workZones s nsid)

@[simp] theorem staleMeta_dieWork (s : State) (g : Nat) : dieWork (staleMeta s g) = dieWork s := dieWork_of (staleMeta_workZones s g)

@[simp] theorem stageWaiting_dieWork (s : State) (nsid : Nat) : dieWork (stageWaiting s nsid) = dieWork s := dieWork_of (stageWaiting_workZones s nsid)

theorem mergeDone_dieWork (s : State) (j : RowJob) (nsid : Nat) : dieWork (mergeDone s j nsid) = dieWork s := by
  unfold mergeDone
  split
  · rfl
  · dsimp only
    rw [stageWaiting_dieWork, startMerge_dieWork, freeLog_dieWork, dieWork_foldl fun s (x : MetaUnit) => staleMeta_dieWork s x.group,
      media_dieWork (moduleRecord s _ _ _), moduleRecord_dieWork]
    · rfl
    · rfl

@[simp] theorem ackMirror_dieWork (s : State) (oseq func : Nat) : dieWork (ackMirror s oseq func) = dieWork s := send_dieWork s _ _ _

@[simp] theorem makeDurable_dieWork (s : State) (q : Nat) : dieWork (makeDurable s q) = dieWork s := rfl

theorem rowDone_dieWork (s : State) (j : RowJob) : dieWork (rowDone s j) = dieWork s := by
  unfold rowDone
  dsimp only
  split
  · exact mergeDone_dieWork _ _ _
  · rw [staleStripes_dieWork]
    refine (dieWork_foldl (fun s q => ?_) _ _).trans ?_
    · split
      · rfl
      · split
        · rfl
        · split <;> split <;> simp
          all_goals split <;> simp
    · rfl

@[simp] theorem endRows_dieWork (s : State) : dieWork (endRows s) = dieWork s := by
  simp [endRows, rowDone_dieWork]

/-! ### Copies and moves (R215, R257) -/

theorem switchCopy_dieWork (s : State) (c : Copy) : dieWork (switchCopy s c) = dieWork s := by
  unfold switchCopy dropDone
  dsimp only
  refine (toEraseAll_dieWork _ _ : dieWork (toEraseAll _ _) = _).trans ?_
  rw [dieWork_foldl fun s k => setBset_dieWork s k _, moduleRecord_dieWork]

theorem startCopy_dieWork (s : State) (kind : CopyKind) (src dstDie dst : Nat) : dieWork (startCopy s kind src dstDie dst) = dieWork s := by
  unfold startCopy
  dsimp only
  refine (dieWork_foldl (fun _ _ => setBset_dieWork _ _ _) _ _ : dieWork (List.foldl _ _ _) = _).trans ?_
  rfl

theorem moveCopies_dieWork (s : State) (nsid i g : Nat) (z : Zone) : dieWork (moveCopies s nsid i g z) = dieWork s := by
  unfold moveCopies
  split
  · rfl
  · refine dieWork_foldl (fun s p => ?_) _ _
    split
    · exact startCopy_dieWork _ _ _ _ _
    · rfl

@[simp] theorem setReshapeZop_dieWork (s : State) (r : Reshape) (f : ZopRec → ZopRec) : dieWork (setReshapeZop s r f) = dieWork s := rfl

@[simp] theorem noteMove_dieWork (s : State) (r : Reshape) (i : Nat) (m : ZRes) : dieWork (noteMove s r i m) = dieWork s := by
  unfold noteMove
  split
  · rfl
  · split <;> simp

@[simp] theorem completeFor_dieWork (s : State) (owner cid : Nat) (st : Status) (dw0 : Nat) (data : List Nat) :
    dieWork (completeFor s owner cid st dw0 data) = dieWork s := by
  unfold completeFor
  split
  · exact dieWork_of_media (by simp) (by simp)
  · rfl

theorem endCancel_dieWork (s : State) (r : Reshape) : dieWork (endCancel s r) = dieWork s := by
  unfold endCancel
  dsimp only
  cases r.cancelCid <;> cases r.cancelTag <;> simp

theorem endReshape_dieWork (s : State) (nsid : Nat) (st : Status) : dieWork (endReshape s nsid st) = dieWork s := by
  unfold endReshape
  split
  · rfl
  · dsimp only
    split
    · rw [send_dieWork, endCancel_dieWork]
      rfl
    · refine (dieWork_of_media (raiseAen_part _ _ _ _ _) (raiseAen_media _ _ _ _ _)).trans ?_
      rw [record_dieWork, setReshapeZop_dieWork, endCancel_dieWork]
      rfl

@[simp] theorem switchMove_dieWork (s : State) (nsid i g affinity : Nat) : dieWork (switchMove s nsid i g affinity) = dieWork s := by
  unfold switchMove
  dsimp only
  split <;> simp

theorem moveOn_dieWork (k : Nat) (s : State) (nsid : Nat) : dieWork (moveOn k s nsid) = dieWork s := by
  induction k generalizing s with
  | zero => rfl
  | succ k ih =>
    unfold moveOn
    split
    · rfl
    · split
      · rfl
      · split
        · rfl
        · split
          · exact endReshape_dieWork _ _ _
          · split
            · exact endReshape_dieWork _ _ _
            · extract_lets i z on permitted
              have hon (t : State) : dieWork (on t) = dieWork t := rfl
              split
              · simp [ih, hon]
              · split
                · simp [ih, hon]
                · dsimp only
                  split
                  · simp [ih, hon]
                  · exact moveCopies_dieWork _ _ _ _ _

theorem moveCopied_dieWork (s : State) (c : Copy) : dieWork (moveCopied s c) = dieWork s := by
  unfold moveCopied
  dsimp only
  split
  · rfl
  · split
    · exact (dieWork_foldl switchCopy_dieWork _ _).trans rfl
    · rw [moveOn_dieWork, setNs_dieWork, noteMove_dieWork, switchMove_dieWork, dieWork_foldl switchCopy_dieWork]
      rfl

/-! ### Rebuilds (R233, R234) -/

@[simp] theorem setRebuild_dieWork (s : State) (g : Nat) (f : Rebuild → Rebuild) : dieWork (setRebuild s g f) = dieWork s := rfl

/-- A die whose state changes runs what it ran. -/
theorem setDie_dieWork (s : State) (d : Nat) {f : Die → Die} (hf : ∀ x, (f x).op = x.op) : dieWork (setDie s d f) = dieWork s := by
  refine Prod.ext (funext fun k => ?_) rfl
  show (KV.findD (KV.upd s.media.dies d (dieBuilt s.part d) f) k (dieBuilt s.part k)).op = (KV.findD s.media.dies k (dieBuilt s.part k)).op
  by_cases hk : k = d
  · subst hk
    rw [KV.findD, KV.find_upd_self]
    exact hf _
  · rw [KV.findD, KV.find_upd_other _ _ _ hk]
    rfl

theorem endRebuild_dieWork (s : State) (g : Nat) : dieWork (endRebuild s g) = dieWork s := by
  unfold endRebuild refreshRebuilding
  split
  · rfl
  · split
    · rfl
    · dsimp only
      refine (dieWork_of_media (setFlags_part _ _) (setFlags_media _ _)).trans ?_
      refine (record_dieWork _ _ _ _ _ _ : dieWork (record _ _ _ _ _ _) = _).trans ?_
      refine dieWork_foldl (fun s d => setDie_dieWork s d ?_) _ _
      exact fun _ => rfl

theorem switchSets_dieWork (s : State) (r : Rebuild) : dieWork (switchSets s r) = dieWork s := by
  unfold switchSets
  dsimp only
  rw [endRebuild_dieWork, setRebuild_dieWork]
  refine dieWork_foldl (fun s x => ?_) _ _
  rw [record_dieWork, setBset_dieWork, cal_dieWork, setBset_dieWork, moduleRecord_dieWork]

/-! ### The end of a pass -/

theorem queueReference_dieWork (s : State) (k : Nat) : dieWork (queueReference s k) = dieWork s := by
  unfold queueReference
  dsimp only
  repeat' split
  all_goals rfl

theorem countPass_dieWork (s : State) (k : Nat) (o : DieOp) : dieWork (countPass s k o) = dieWork s := rfl

theorem putPages_dieWork (s : State) (d : Nat) (o : DieOp) : dieWork (putPages s d o) = dieWork s := by
  unfold putPages
  split <;> rfl

/-- A pass counted, its pages carrying what was programmed. -/
def passCounted (s : State) (d : Nat) (o : DieOp) : State :=
  putPages (countPass { s with media := { s.media with progKib := s.media.progKib + passKib o.kind } } (setKey d o.bset) o) d o

/-- A pass that ended with success is counted; the dies run what they ran. -/
theorem passDone_dieWork (s : State) (d : Nat) (o : DieOp) :
    dieWork (passDone s d o) = (fun d => (dieOf s d).op, s.media.progKib + passKib o.kind) := by
  have hcounted : dieWork (passCounted s d o) = (fun d => (dieOf s d).op, s.media.progKib + passKib o.kind) := by
    rw [passCounted, putPages_dieWork, countPass_dieWork]
    rfl
  rw [← hcounted]
  unfold passDone
  cases o.job with
  | zone =>
    dsimp only
    split
    · exact confirmZone_dieWork _ _ _
    · rfl
  | row id =>
    dsimp only
    exact endRows_dieWork _
  | copy id =>
    dsimp only
    split
    · rfl
    · split
      · rfl
      · split
        · exact moveCopied_dieWork _ _
        · exact switchCopy_dieWork _ _
  | rebuild g =>
    dsimp only
    split
    · rfl
    · split
      · rfl
      · split
        · rfl
        · split
          · exact switchSets_dieWork _ _
          · rfl
  | reference => exact queueReference_dieWork _ _

end Sys2Proof.Machine

namespace Sys2Proof.Machine

/-! SUPPORT. Programs, erases and staging (R104, R189, R209, R217, R273, R274). -/

/-! ### A pass that ends (R189, R217) -/

/-- A die whose pass has ended. -/
def dieFreed (s : State) (d : Nat) : State := setDie s d (fun x => { x with op := none })

theorem dieOf_setDie_self (s : State) (d : Nat) (f : Die → Die) : dieOf (setDie s d f) d = f (dieOf s d) := by
  simp [dieOf, setDie, KV.findD, KV.find_upd_self]

theorem bsetOf_setBset_self (s : State) (k : Nat) (f : BSet → BSet) : bsetOf (setBset s k f) k = f (bsetOf s k) := by
  simp [bsetOf, setBset, KV.findD, KV.find_upd_self]

theorem dieFreed_op (s : State) (d : Nat) : (dieOf (dieFreed s d) d).op = none := by
  rw [dieFreed, dieOf_setDie_self]

theorem dieFreed_kept {K J : Bool} (s : State) (d : Nat) : Kept K J s (dieFreed s d) := setDie_kept d _ (Kept.refl s)

theorem setKey_die {b : Nat} (h : b < 2048) (d : Nat) : setKey d b / 2048 = d := by
  unfold setKey
  omega

/-- A pass runs on a die of no claim: it ends there. -/
theorem execProgramComplete_ends {s : State} {die : Nat} {o : DieOp} (hclaim : (dieOf s die).claimOp = none) (hop : (dieOf s die).op = some o)
    (hrun : o.suspended = false) (hkind : o.kind ≠ .erase) (plane : Nat) (pass : PassEnd) :
    execProgramComplete die plane pass s = .next (passEnded (dieFreed s die) die plane pass.ok pass.last o) := by
  unfold execProgramComplete
  dsimp only
  rw [hclaim, hop]
  dsimp only
  rw [if_neg (by simp [hrun, hkind])]
  rfl

/-- The pass of a set that is not to be erased ends with success or fails. -/
theorem passEnded_live {s : State} {d : Nat} {o : DieOp} (h : o.job ≠ .zone ∨ (bsetOf s (setKey d o.bset)).state ≠ .awaitErase) (plane : Nat) (ok last : Bool) :
    passEnded s d plane ok last o = if ok then passDone s d o else passFailed s d plane last o := by
  unfold passEnded
  rw [if_neg]
  tauto

theorem passFailed_zone {o : DieOp} (hjob : o.job = .zone) (s : State) (d plane : Nat) (last : Bool) : passFailed s d plane last o = zoneFailed s d plane last o := by
  unfold passFailed
  rw [hjob]

/-- A pass of a zone's own row writes no content. -/
theorem passDone_zone_store {s : State} {o : DieOp} (hjob : o.job = .zone) (d : Nat) : (passDone s d o).zn.store = s.zn.store := by
  have hcounted : Kept true true s (passCounted s d o) := putPages_kept d o (countPass_kept _ o (Kept.upd (Kept.refl s) rfl rfl rfl))
  unfold passDone
  rw [hjob]
  dsimp only
  split
  · exact (confirmZone_kept o.nsid o.zone hcounted).content rfl
  · exact hcounted.content rfl

/-! ### A zone's program that fails (R217) -/

theorem startCopy_dieOf (s : State) (kind : CopyKind) (src dstDie dst d : Nat) : dieOf (startCopy s kind src dstDie dst) d = dieOf s d := by
  unfold startCopy
  dsimp only
  refine (foldl_field (fun s => dieOf s d) _ (fun s k => ?_) (setChain 3 _ src) _ : dieOf (List.foldl _ _ _) d = _).trans ?_
  · rfl
  · rfl

theorem goOn_dieOf (s : State) (k c first d : Nat) : dieOf (goOn s k c first) d = dieOf s d := by
  unfold goOn
  dsimp only
  split
  · rfl
  · rw [startCopy_dieOf]
    rfl

/-- A grown bad block is counted on its die (R217). -/
theorem grownBad_dieOf (s : State) (k plane cont : Nat) :
    dieOf (grownBad s k plane cont) (k / 2048) = { dieOf s (k / 2048) with grownBad := (dieOf s (k / 2048)).grownBad + 1 } := by
  unfold grownBad dieOf
  rw [record_media, record_part]
  exact dieOf_setDie_self (setBset s k _) (k / 2048) fun x => { x with grownBad := x.grownBad + 1 }

/-- Whether the data goes on in another set or is queued again, the die counts the bad block. -/
theorem zoneFailed_dieOf {o : DieOp} (hset : o.bset < 2048) (s : State) (d plane : Nat) (last : Bool) :
    dieOf (zoneFailed s d plane last o) d = { dieOf s d with grownBad := (dieOf s d).grownBad + 1 } := by
  have hbad (cont : Nat) : dieOf (grownBad s (setKey d o.bset) plane cont) d = { dieOf s d with grownBad := (dieOf s d).grownBad + 1 } := by
    have h := grownBad_dieOf s (setKey d o.bset) plane cont
    rwa [setKey_die hset] at h
  unfold zoneFailed
  dsimp only
  split
  · exact (hbad _ :)
  · refine (foldl_field (fun s => dieOf s d) _ (fun s p => ?_) _ _).trans ?_
    · rfl
    · exact (goOn_dieOf _ _ _ _ _).trans (hbad _)

/-- With no set free to go on in, the pass is queued again for the same word line. -/
theorem zoneFailed_requeued {s : State} {d : Nat} (hnone : chooseSet s d 0 = none) (plane : Nat) (last : Bool) (o : DieOp) :
    ∃ p ∈ (zoneFailed s d plane last o).cal.progs, p.die = d ∧ p.kind = o.kind ∧ p.wl = o.wl ∧ p.job = o.job := by
  unfold zoneFailed
  dsimp only
  rw [hnone]
  exact ⟨_, List.mem_cons_self .., rfl, rfl, rfl, rfl⟩

/-! ### Erases (R209) -/

/-- A block set once it is erased (R209). -/
def BSet.erased (b : BSet) (at_ : Nat) : BSet :=
  { b with
    erases := min (b.erases + 1) (2^24 - 1), wear := b.wear + wearOf b, state := .free, headed := false, reads := 0
    learned := [0, 0, 0, 0, 0], unknownAge := false, nsid := 0, zone := 0xFFFFFFFF, tag := 0, coarse := 0, final := 0
    contOf := 0xFFFFFFFF, contRow := 0, erasedAt := at_, intent := false }

/-- The erase noted in a module record, and the set's pages carrying nothing. -/
def eraseNoted (s : State) (die k : Nat) : State := clearPages (moduleRecord (dieFreed s die) 0x31 k ((bsetOf s k).erases + 1)) k

/-- A set erased. -/
def setErased (s : State) (die k : Nat) : State := setBset (eraseNoted s die k) k (fun b => b.erased (eraseNoted s die k).time.dtb)

theorem moduleRecord_media (s : State) (typ action arg : Nat) : (moduleRecord s typ action arg).media = s.media := by
  rw [moduleRecord_frame]

theorem moduleRecord_part (s : State) (typ action arg : Nat) : (moduleRecord s typ action arg).part = s.part := by
  rw [moduleRecord_frame]

theorem setErased_set (s : State) (die k : Nat) : ∃ t, bsetOf (setErased s die k) k = (bsetOf s k).erased t := by
  refine ⟨(eraseNoted s die k).time.dtb, (bsetOf_setBset_self _ _ _).trans ?_⟩
  have hsame : bsetOf (eraseNoted s die k) k = bsetOf s k := by
    unfold bsetOf eraseNoted clearPages
    dsimp only
    rw [moduleRecord_media]
    rfl
  rw [hsame]

theorem setErased_die (s : State) (die k : Nat) : (dieOf (setErased s die k) die).op = none := by
  have hsame : dieOf (setErased s die k) die = dieOf (dieFreed s die) die := by
    unfold dieOf setErased eraseNoted clearPages setBset
    dsimp only
    rw [moduleRecord_media, moduleRecord_part]
  rw [hsame, dieFreed_op]

theorem moduleRecord_seq (s : State) (typ action arg : Nat) : (moduleRecord s typ action arg).jr.seq = s.jr.seq + 1 :=
  formRecord_seq s mgmtCore _

theorem setErased_seq (s : State) (die k : Nat) : (setErased s die k).jr.seq = s.jr.seq + 1 := by
  unfold setErased eraseNoted setBset clearPages
  dsimp only
  rw [moduleRecord_seq]
  rfl

theorem setErased_kept {K J : Bool} (s : State) (die k : Nat) : Kept K J s (setErased s die k) :=
  setBset_kept k _ (clearPages_kept k (moduleRecord_kept _ _ _ (dieFreed_kept s die)))

/-- A set of a zone with no bad block: nothing stands in, and no stripe and no reference follows. -/
theorem zoneSet_settled {s : State} {k : Nat} (hbad : (bsetOf s k).bad = []) (hrole : (bsetOf s k).role = .zone) :
    startReference (stagingErased (levelSlc (replaceBad s k) k) k) k = s := by
  have hreplace : replaceBad s k = s := by
    unfold replaceBad
    simp [hbad]
  have hlevel : levelSlc s k = s := by
    unfold levelSlc
    simp [hrole]
  have hstaging : stagingErased s k = s := by
    unfold stagingErased
    simp [hrole]
  rw [hreplace, hlevel, hstaging]
  unfold startReference
  simp [hrole]

theorem execEraseComplete_zone {s : State} {die : Nat} {o : DieOp} (hop : (dieOf s die).op = some o) (hrun : o.suspended = false) (hkind : o.kind = .erase)
    (hbad : (bsetOf s (setKey die o.bset)).bad = []) (hrole : (bsetOf s (setKey die o.bset)).role = .zone) (plane : Nat) :
    execEraseComplete die plane true s = .next (endSanitize (erasedFor (setErased s die (setKey die o.bset)) (setKey die o.bset))) := by
  obtain ⟨at_, hset⟩ := setErased_set s die (setKey die o.bset)
  have hsettled := zoneSet_settled (s := setErased s die (setKey die o.bset)) (k := setKey die o.bset) (by rw [hset]; exact hbad) (by rw [hset]; exact hrole)
  unfold setErased eraseNoted dieFreed BSet.erased at hsettled ⊢
  unfold execEraseComplete
  rw [hop]
  dsimp only at hsettled ⊢
  rw [if_neg (by simp [hrun, hkind]), if_pos rfl, hsettled]

theorem erasedFor_media (s : State) (k : Nat) : (erasedFor s k).media = s.media := rfl
theorem erasedFor_part (s : State) (k : Nat) : (erasedFor s k).part = s.part := rfl
theorem erasedFor_jr (s : State) (k : Nat) : (erasedFor s k).jr = s.jr := rfl

theorem endSanitize_media (s : State) : (endSanitize s).media = s.media := by
  unfold endSanitize
  split <;> rfl

theorem endSanitize_part (s : State) : (endSanitize s).part = s.part := by
  unfold endSanitize
  split <;> rfl

theorem endSanitize_jr (s : State) : (endSanitize s).jr = s.jr := by
  unfold endSanitize
  split <;> rfl

/-! ### Staging (R273, R274) -/

theorem execStagingThreshold_eq {s : State} {nsid : Nat} {n : Ns} (hn : nsOf s nsid = some n) (zone : Nat) :
    execStagingThreshold nsid zone s = if (n.zone zone).ext.density ≠ 2 ∧ holdsIncomplete s nsid zone then .next (stageZone s nsid zone) else .next s := by
  unfold execStagingThreshold
  rw [hn]

/-- A zone that is staged is marked so. -/
theorem stageZone_staging {s : State} {nsid zone : Nat} {n : Ns} (hn : nsOf s nsid = some n) (hgo : stagingStopped s ((n.zone zone).group.getD 0) = false) :
    ∃ m, nsOf (stageZone s nsid zone) nsid = some m ∧ (m.zone zone).staging = true := by
  have hmarked := nsOf_setZone hn zone fun z => { z with staging := true }
  unfold stageZone
  rw [hn]
  dsimp only
  rw [if_neg (by simp [hgo])]
  have hzones := heldZones_of (workZones_foldl (f := fun s (p : Nat × VRec) => stageRec s p.1) (fun s p => stageRec_workZones s p.1)
    (s.jr.recs.filter (fun p => p.2.nsid == nsid && p.2.zidx == zone && p.2.zone != 0xFFFFFFFF && p.2.completed && !p.2.staged && p.2.typ ≤ 3))
    (setZone s nsid zone fun z => { z with staging := true }))
  have hheld := congrFun hzones nsid
  unfold heldZones at hheld
  rw [hmarked] at hheld
  obtain ⟨m, hm, hsame⟩ := Option.map_eq_some_iff.1 hheld
  refine ⟨m, hm, ?_⟩
  have hzone : m.zone zone = (n.withZone zone fun z => { z with staging := true }).zone zone := by
    unfold Ns.zone
    rw [hsame]
  rw [hzone, Ns.withZone_self]

/-- A row released changes the media and the work of the dies alone. -/
theorem releaseRow_field {α : Type} (f : State → α) (hf : ∀ (s : State) m c, f { s with media := m, cal := c } = f s) (s : State) (g : Nat) (ns : Option Nat) :
    f (releaseRow s g ns) = f s := by
  unfold releaseRow
  dsimp only
  split
  · rfl
  · split
    · rfl
    · next hplace =>
      cases ns with
      | some n =>
        obtain ⟨m, rfl⟩ := takeRows_opens hplace
        exact hf s _ _
      | none =>
        cases hplace
        exact hf s _ _

theorem grpOf_setGrp_self (s : State) (g : Nat) (f : Grp → Grp) : grpOf (setGrp s g f) g = f (grpOf s g) := by
  simp [grpOf, setGrp, KV.findD, KV.find_upd_self]

theorem grpOf_setGrp_other (s : State) {g k : Nat} (f : Grp → Grp) (h : k ≠ g) : grpOf (setGrp s g f) k = grpOf s k := by
  simp [grpOf, setGrp, KV.findD, KV.find_upd_other _ _ _ h]

/-- The row of a group is empty once it is released. -/
theorem releaseRow_emptied (s : State) (g : Nat) : (grpOf (releaseRow s g none) g).rowUnits = [] := by
  unfold releaseRow
  dsimp only
  split
  · next hempty => simpa [fillKey] using hempty
  · exact congrArg Grp.rowUnits (grpOf_setGrp_self _ g _)

/-- The row of a namespace's log is another than a group's. -/
theorem releaseRow_log_grpOf {k : Nat} (hk : k < 64) (s : State) (g nsid : Nat) : grpOf (releaseRow s g (some nsid)) k = grpOf s k := by
  unfold releaseRow
  dsimp only
  split
  · rfl
  · split
    · rfl
    · next hplace =>
      obtain ⟨m, rfl⟩ := takeRows_opens hplace
      rw [grpOf_setGrp_other _ _ (by simp only [fillKey]; omega)]
      rfl

/-- The row of a group, or of a log it holds, has been filling for 2 ms (R274). -/
def rowDue (s : State) (k : Nat) : Bool := (grpOf s k).rowAt.any (fun t => t + 2000000 ≤ s.time.dtb)

/-- The log rows due in a group. -/
def logsDue (s : State) (g : Nat) : List Nat := (s.zn.ns.filter (fun p => !p.2.zoned && logGroup s p.1 == g && rowDue s (64 + p.1))).map (·.1)

theorem execStagingRowTimeout_eq (s : State) (g : Nat) :
    execStagingRowTimeout g s = .next ((logsDue s g).foldl (fun s nsid => releaseRow s g (some nsid)) (if rowDue s g then releaseRow s g none else s)) := rfl

theorem rowDue_at {s : State} {g t0 : Nat} (hat : (grpOf s g).rowAt = some t0) (hdue : t0 + 2000000 ≤ s.time.dtb) : rowDue s g = true := by
  unfold rowDue
  rw [hat, Option.any_some]
  exact decide_eq_true hdue

theorem rowDue_none {s : State} (h : ∀ k t0, (grpOf s k).rowAt = some t0 → s.time.dtb < t0 + 2000000) (k : Nat) : rowDue s k = false := by
  unfold rowDue
  cases hat : (grpOf s k).rowAt with
  | none => rfl
  | some t0 =>
    rw [Option.any_some]
    exact decide_eq_false (Nat.not_le.2 (h k t0 hat))

/-- A release that falls due changes nothing but the media and the work of the dies. -/
theorem rowsReleased_field {α : Type} (f : State → α) (hf : ∀ (s : State) m c, f { s with media := m, cal := c } = f s) (s : State) (g : Nat) (l : List Nat) :
    f (l.foldl (fun s nsid => releaseRow s g (some nsid)) (releaseRow s g none)) = f s :=
  (foldl_field f _ (fun s nsid => releaseRow_field f hf s g (some nsid)) l _).trans (releaseRow_field f hf s g none)

/-! ### A zone active too long (R104) -/

/-- A note of a zone lists it as changed and leaves the zones. -/
theorem noteZone_listed {s : State} {nsid : Nat} {n : Ns} (hn : nsOf s nsid = some n) (i : Nat) :
    ∃ m, nsOf (noteZone s nsid i) nsid = some m ∧ m.changed.contains i = true ∧ ∀ k, m.zone k = n.zone k := by
  unfold noteZone
  dsimp only
  rw [nsOf_setNs_self hn]
  dsimp only
  rw [raiseEach_nsOf, nsOf_setNs_self hn]
  refine ⟨_, rfl, ?_, fun _ => rfl⟩
  dsimp only
  split
  · next hheld => exact hheld
  · simp

theorem noteZone_jr (s : State) (nsid i : Nat) : (noteZone s nsid i).jr = s.jr := by
  unfold noteZone
  dsimp only
  split
  · rfl
  · exact (raiseEach_quiet _ _ _ _ _).jr

/-- The record of a recommended finish (R104, Table 9.2). -/
def finishRecommended (n : Ns) (nsid zone : Nat) : VRec :=
  { typ := 0x10, nsid := nsid, zone := n.znum zone, zidx := zone, action := 8, durable := true, completed := true }

/-- The finish of a zone recommended, in its flag and in a record. -/
def recommendFinish (s : State) (n : Ns) (nsid zone : Nat) : State :=
  (formRecord (setZone s nsid zone (fun z => { z with finishRec := true })) mgmtCore (finishRecommended n nsid zone)).1

theorem execZoneOpenAgeExpiry_due {s : State} {nsid zone : Nat} {n : Ns} (hn : nsOf s nsid = some n) (hactive : (n.zone zone).active = true)
    (hfirst : (n.zone zone).finishRec = false) (hage : (n.zone zone).leftAt + 604800000000000 ≤ s.time.dtb) :
    execZoneOpenAgeExpiry nsid zone s = .next (noteZone (recommendFinish s n nsid zone) nsid zone) := by
  unfold execZoneOpenAgeExpiry
  rw [hn]
  dsimp only
  rw [if_neg (by simp [hactive, hfirst, hage])]
  rfl

theorem recommendFinish_nsOf {s : State} {nsid : Nat} {n : Ns} (hn : nsOf s nsid = some n) (zone : Nat) :
    nsOf (recommendFinish s n nsid zone) nsid = some (n.withZone zone fun z => { z with finishRec := true }) :=
  (formRecord_field (fun s => nsOf s nsid) (fun _ _ _ => rfl) _ _ _).trans (nsOf_setZone hn _ _)

/-! ### The obligation -/

/-- Settles O41. -/
theorem programsErasesAndStaging : Obligations.ProgramsErasesAndStaging := by
  unfold Obligations.ProgramsErasesAndStaging
  refine ⟨?done, ?failed, ?idle, ?erased, ?staged, ?unstaged, ?released, ?early, ?recommended⟩
  case done =>
    intro s die plane last o hclaim hop hrun hkind hlive
    have hexec := execProgramComplete_ends hclaim hop hrun hkind plane ⟨true, last⟩
    have hended : passEnded (dieFreed s die) die plane true last o = passDone (dieFreed s die) die o := passEnded_live (s := dieFreed s die) hlive plane true last
    rw [hended] at hexec
    have hwork := passDone_dieWork (dieFreed s die) die o
    refine ⟨_, hexec, (congrFun (congrArg Prod.fst hwork) die).trans (dieFreed_op s die), congrArg Prod.snd hwork, fun hjob => ?_, ?_⟩
    · exact passDone_zone_store hjob die
    · exact ((execProgramComplete_kept (K := true) die plane ⟨true, last⟩ (Kept.refl s)).next_kept _ hexec).core rfl
  case failed =>
    intro s die plane last o hclaim hop hrun hkind hset hjob hstate
    have hexec := execProgramComplete_ends hclaim hop hrun hkind plane ⟨false, last⟩
    have hended : passEnded (dieFreed s die) die plane false last o = passFailed (dieFreed s die) die plane last o := passEnded_live (s := dieFreed s die) (.inr hstate) plane false last
    rw [hended, passFailed_zone hjob] at hexec
    have hdie := zoneFailed_dieOf hset (dieFreed s die) die plane last
    have hkept := zoneFailed_kept (K := true) (J := true) die plane last o (dieFreed_kept s die)
    refine ⟨_, hexec, ?_, ?_, fun hnone => ?_, hkept.content rfl, hkept.core rfl⟩
    · rw [hdie]
      exact dieFreed_op s die
    · rw [hdie, dieFreed, dieOf_setDie_self]
    · rw [← hjob]
      exact zoneFailed_requeued (s := dieFreed s die) hnone plane last o
  case idle =>
    intro s die plane ok last hclaim hop
    refine ⟨?_, ?_⟩
    · show execProgramComplete die plane ⟨ok, last⟩ s = _
      unfold execProgramComplete
      dsimp only
      rw [hclaim, hop]
    · show execEraseComplete die plane ok s = _
      unfold execEraseComplete
      rw [hop]
  case erased =>
    intro s die plane o hop hrun hkind hset hbad hrole
    obtain ⟨at_, hb⟩ := setErased_set s die (setKey die o.bset)
    have hkept := endSanitize_kept (erasedFor_kept (setKey die o.bset) (setErased_kept (K := true) (J := true) s die (setKey die o.bset)))
    have hend : bsetOf (endSanitize (erasedFor (setErased s die (setKey die o.bset)) (setKey die o.bset))) (setKey die o.bset) =
        (bsetOf s (setKey die o.bset)).erased at_ := by
      rw [← hb]
      exact congrArg (fun m : Media => KV.findD m.sets (setKey die o.bset) (setBuilt (setKey die o.bset))) (endSanitize_media _)
    refine ⟨_, execEraseComplete_zone hop hrun hkind hbad hrole plane, ?_, ?_, ?_, ?_, ?_, ?_, hkept.content rfl, hkept.core rfl⟩
    · have hdie : dieOf (endSanitize (erasedFor (setErased s die (setKey die o.bset)) (setKey die o.bset))) die = dieOf (setErased s die (setKey die o.bset)) die := by
        unfold dieOf
        rw [endSanitize_media, endSanitize_part, erasedFor_media, erasedFor_part]
      rw [hdie, setErased_die]
    · rw [hend]
      rfl
    · rw [hend]
      rfl
    · rw [hend]
      rfl
    · rw [hend]
      rfl
    · rw [endSanitize_jr, erasedFor_jr, setErased_seq]
  case staged =>
    intro s nsid zone n hn hdensity hholds hgo
    obtain ⟨m, hm, hstaging⟩ := stageZone_staging hn hgo
    have hkept := stageZone_kept (K := true) (J := true) nsid zone (Kept.refl s)
    exact ⟨_, m, (execStagingThreshold_eq hn zone).trans (if_pos ⟨hdensity, hholds⟩), hm, hstaging, hkept.content rfl, hkept.core rfl⟩
  case unstaged =>
    intro s nsid zone n hn hnot
    refine (execStagingThreshold_eq hn zone).trans (if_neg fun h => ?_)
    obtain ⟨hdensity, hholds⟩ := h
    rcases hnot with hdense | hnone
    · exact hdensity hdense
    · simp [hnone] at hholds
  case released =>
    intro s g t0 hg hat hdue
    have hexec := execStagingRowTimeout_eq s g
    rw [if_pos (rowDue_at hat hdue)] at hexec
    refine ⟨_, hexec, ?_, rowsReleased_field State.zn (fun _ _ _ => rfl) _ _ _, rowsReleased_field State.jr (fun _ _ _ => rfl) _ _ _,
      rowsReleased_field State.port (fun _ _ _ => rfl) _ _ _, ((execStagingRowTimeout_kept (K := true) (J := true) g (Kept.refl s)).next_kept _ hexec).core rfl⟩
    rw [foldl_field (fun s => grpOf s g) _ (fun s nsid => releaseRow_log_grpOf hg s g nsid)]
    exact releaseRow_emptied s g
  case early =>
    intro s g hnone
    have hlogs : logsDue s g = [] := by
      unfold logsDue
      simp [rowDue_none hnone]
    refine (execStagingRowTimeout_eq s g).trans ?_
    rw [hlogs, rowDue_none hnone]
    rfl
  case recommended =>
    intro s nsid zone n hn hactive hfirst hage
    have hexec := execZoneOpenAgeExpiry_due hn hactive hfirst hage
    have hkept := (execZoneOpenAgeExpiry_kept (K := true) (J := true) nsid zone (Kept.refl s)).next_kept _ hexec
    obtain ⟨m, hm, hlisted, hzones⟩ := noteZone_listed (recommendFinish_nsOf hn zone) zone
    refine ⟨_, m, hexec, hm, ?_, hlisted, ?_, hkept.content rfl, hkept.core rfl⟩
    · rw [hzones, Ns.withZone_self]
    · rw [noteZone_jr]
      exact formRecord_seq _ _ _

end Sys2Proof.Machine

namespace Sys2Proof.Machine

/-! SUPPORT. The host port while data is staged and a hold-up test is abandoned (R273, R335): no command comes or goes. -/

/-! ### Staging (R273, R274) -/

/-- Folding an operation that leaves the host port alone leaves it alone. -/
@[simp] theorem port_foldl {α : Type} {f : State → α → State} (h : ∀ s x, (f s x).port = s.port) (l : List α) (s : State) : (l.foldl f s).port = s.port :=
  foldl_field State.port f h l s

@[simp] theorem moduleRecord_port (s : State) (typ action arg : Nat) : (moduleRecord s typ action arg).port = s.port :=
  formRecord_field State.port (fun _ _ _ => rfl) s _ _

@[simp] theorem toEraseAll_port (s : State) (k : Nat) : (toEraseAll s k).port = s.port := by
  refine port_foldl (fun s k => ?_) _ s
  unfold toErase
  dsimp only
  split <;> simp

@[simp] theorem releaseRow_port (s : State) (g : Nat) (ns : Option Nat) : (releaseRow s g ns).port = s.port :=
  releaseRow_field State.port (fun _ _ _ => rfl) s g ns

@[simp] theorem putUnit_port (s : State) (g : Nat) (ns : Option Nat) (seq u : Nat) : (putUnit s g ns seq u).port = s.port := by
  unfold putUnit
  dsimp only
  split <;> simp

@[simp] theorem appendUnit_port (nsid : Nat) (s : State) (u : Nat) : (appendUnit nsid s u).port = s.port := by
  unfold appendUnit
  split
  · rfl
  · simp

@[simp] theorem mergeUnit_port (nsid : Nat) (s : State) (u : Nat) : (mergeUnit nsid s u).port = s.port := by
  unfold mergeUnit
  split
  · rfl
  · dsimp only
    split
    · rfl
    · next hrows =>
      obtain ⟨m, rfl⟩ := takeRows_opens hrows
      simp

@[simp] theorem freeLog_port (s : State) (nsid : Nat) : (freeLog s nsid).port = s.port := by
  unfold freeLog staleMeta
  split
  · rfl
  · split
    · rfl
    · simp

@[simp] theorem startMerge_port (s : State) (nsid : Nat) : (startMerge s nsid).port = s.port := by
  unfold startMerge
  split
  · rfl
  · split
    · rfl
    · simp

@[simp] theorem stageRec_port (s : State) (seq : Nat) : (stageRec s seq).port = s.port := by
  unfold stageRec
  split
  · rfl
  · split
    · rfl
    · next n _ =>
      dsimp only
      split
      · rfl
      · cases n.zoned <;> split <;> simp

@[simp] theorem stageZone_port (s : State) (nsid i : Nat) : (stageZone s nsid i).port = s.port := by
  unfold stageZone
  split
  · rfl
  · split
    · rfl
    · simp

theorem relieve_port (k : Nat) (s : State) : (relieve k s).port = s.port := by
  induction k generalizing s with
  | zero => rfl
  | succ k ih =>
    unfold relieve
    split
    · rfl
    · split
      · rfl
      · rw [ih, stageZone_port]

@[simp] theorem checkRelief_port (s : State) : (checkRelief s).port = s.port := by
  unfold checkRelief
  split
  · exact relieve_port _ s
  · rfl

/-! ### An abandoned test (R277, R335) -/

/-- Warnings that rise complete event requests; the command table stands. -/
@[simp] theorem refreshCrit_cmds (s : State) : (refreshCrit s).port.cmds = s.port.cmds := by
  unfold refreshCrit
  dsimp only
  repeat' split
  all_goals simp

@[simp] theorem sizeJournal_cmds (s : State) : (sizeJournal s).port.cmds = s.port.cmds := by
  simp [sizeJournal]

/-- The commands that a completion answers for their controller's owner are admin commands: the command table stands. -/
@[simp] theorem completeFor_cmds (s : State) (owner cid : Nat) (st : Status) (dw0 : Nat) (data : List Nat) :
    (completeFor s owner cid st dw0 data).port.cmds = s.port.cmds := by
  unfold completeFor
  split
  · simp
  · rfl

@[simp] theorem endTest_cmds (s : State) (r : HoldResult) : (endTest s r).port.cmds = s.port.cmds := by
  unfold endTest
  refine (foldl_field (·.port.cmds) _ (fun s x => completeFor_cmds s _ _ _ _ _) _ _).trans ?_
  simp

/-- What an abandoned test does: it changes the supply, takes back the usable energy, ends for those who wait for it. A property that these keep it keeps. -/
theorem abandonTest_of {P : State → Prop} (hsup : ∀ s p, P s → P { s with sup := p }) (husable : ∀ s dj, P s → P (setUsable s dj))
    (hend : ∀ s r, P s → P (endTest s r)) {s : State} (h : P s) : P (abandonTest s) := by
  unfold abandonTest
  split
  · exact h
  · refine hend _ _ (hsup _ _ ?_)
    split
    · exact husable _ _ (hsup _ _ h)
    · exact h

theorem abandonTest_cmds (s : State) : (abandonTest s).port.cmds = s.port.cmds :=
  abandonTest_of (P := fun t => t.port.cmds = s.port.cmds) (fun _ _ h => h) (fun _ _ h => (sizeJournal_cmds _).trans h) (fun _ _ h => (endTest_cmds _ _).trans h) rfl

end Sys2Proof.Machine

namespace Sys2Proof.Machine

/-! SUPPORT. Firmware, its activation, and the Measurement Policy (R154, R360, R374 to R376, R380, R381). -/

/-! ### A Measure entry other than power good (R358) -/

/-- A change to Measure: the mode's own change after the old one is left, and the sense level, which is high. -/
theorem toMode_measure (s : State) :
    toMode s .measure = { enterMode (leftMode s .measure) .measure with tw := { (enterMode (leftMode s .measure) .measure).tw with senseOut := true } } := by
  unfold toMode leftMode
  cases s.md.mode.operates <;> simp [Mode.operates]

theorem leftMode_measure_cmds (s : State) : (leftMode s .measure).port.cmds = s.port.cmds := by
  unfold leftMode
  split
  · exact abandonTest_cmds s
  · rfl

/-- A change to Measure leaves the boot state and the commands (R378). -/
theorem toMode_measure_parts (s : State) :
    (toMode s .measure).md.mode = .measure ∧ (toMode s .measure).boot = s.boot ∧ (toMode s .measure).port.cmds = s.port.cmds := by
  rw [toMode_measure]
  dsimp only
  rw [enterMode_mode_md, enterMode_boot, enterMode_cmds_port, leftMode_measure_cmds]
  exact ⟨rfl, (leftMode_course s .measure).boot, rfl⟩

/-- What a Measure entry for a cause leaves of `s`: the next boot's Almanac entry begun, nothing measured, no command. -/
structure MeasureEntered (s : State) (cause : Nat) (t : State) : Prop where
  mode : t.md.mode = .measure
  cause : t.boot.cause = cause
  boot : t.boot.boot = s.boot.boot + 1
  regs : t.boot.regs = []
  minSvn : t.boot.minSvn = s.boot.minSvn
  cmds : t.port.cmds = []

/-- A Measure entry clears what is volatile, begins the boot's Almanac entry and changes the mode (R358, R366). -/
theorem enterMeasure_eq (s : State) (cause : Nat) :
    ∃ u, u.boot = bootAtMeasure s.boot ∧ u.port.cmds = [] ∧ enterMeasure s cause = toMode (beginEntry u cause) .measure := by
  obtain ⟨hcleared, -, -, -⟩ := clearVolatile_parts (hostReset s) false
  have hreset : (hostReset s).boot = s.boot := ((hostReset_kept (K := true) (J := true) (Kept.refl s)).core rfl).boot
  refine ⟨{ clearVolatile (hostReset s) false with time := { (clearVolatile (hostReset s) false).time with bootDtb := (clearVolatile (hostReset s) false).time.dtb } }, ?_, rfl, rfl⟩
  exact hcleared.trans (congrArg bootAtMeasure hreset)

theorem enterMeasure_entered (s : State) (cause : Nat) : MeasureEntered s cause (enterMeasure s cause) := by
  obtain ⟨u, hcleared, hcmds, hentry⟩ := enterMeasure_eq s cause
  obtain ⟨hboot, hcause, hregs, hsvn⟩ := beginEntry_boot u cause
  obtain ⟨hmode, hkept, hlisted⟩ := toMode_measure_parts (beginEntry u cause)
  rw [hentry]
  constructor
  case mode => exact hmode
  case cause => rw [hkept, hcause]
  case boot => rw [hkept, hboot, hcleared, bootAtMeasure]
  case regs => rw [hkept, hregs, hcleared, bootAtMeasure]
  case minSvn => rw [hkept, hsvn, hcleared, bootAtMeasure]
  case cmds => exact hlisted.trans hcmds

/-- A seal leaves the boot state as it is (R341). -/
theorem makeSeal_boot (s : State) (kind : Nat) (shifts : List Nat) (f : Seal → Seal) : (makeSeal s kind shifts f).boot = s.boot := by
  have hlanded : Kept true true s (landRecs (deltaMib s).2 (fun _ => true)) := landRecs_kept _ (deltaMib_kept (Kept.refl s))
  have hshifted (u : State) : Kept true true u (keepShifts u shifts true) := keepShifts_kept shifts true (Kept.refl u)
  unfold makeSeal
  refine Eq.trans (b := (keepShifts (saveClock (landRecs (deltaMib s).2 (fun _ => true)) true) shifts true).boot) rfl ?_
  exact ((hshifted _).core rfl).boot.trans (hlanded.core rfl).boot

/-- With no bound command left and nothing else under way, an activation seals and enters Measure (R154, R376). -/
theorem execActivationSeal_enters {s : State} {func cid : Nat} (hactivating : s.boot.activating = some (func, cid))
    (hcmds : ∀ p ∈ s.port.cmds, p.2.cls = .unbound ∨ p.2.quiet = true) (hunpaired : s.tw.paired = false) (hshut : s.th.shut = 0)
    (hps4 : s.md.ps4 = none) (hentering : s.md.entering = false) :
    ∃ u, u.boot = s.boot ∧ execActivationSeal s = .next (enterMeasure u 1) := by
  have hnone : s.port.cmds.any (fun p => p.2.cls != .unbound && !p.2.quiet) = false := by
    rw [List.any_eq_false]
    intro p hp
    rcases hcmds p hp with h | h <;> simp [h]
  have hanswered : Kept true true s (((func, cid) :: s.boot.alsoActivating).foldl (fun s x => completeFor s x.1 x.2 .success) s) :=
    Kept.foldl (Kept.refl s) (fun _ _ h => completeFor_kept _ _ _ _ _ h)
  unfold execActivationSeal
  rw [hactivating]
  dsimp only
  rw [if_neg (by simp [hnone, hshut, hps4, hentering]), if_neg (by simp [hunpaired])]
  exact ⟨_, (makeSeal_boot _ 3 [] id).trans (hanswered.core rfl).boot, rfl⟩

/-! ### Firmware Image Download and Commit (R374, R375) -/

/-- A first piece within the image's bounds starts a new image (R374). -/
theorem execFirmwareImageDownload_first {s s1 : State} {e : Sqe} {st : Nat} (hadm : Admitted s e true .download st s1)
    (hoffset : (pieceOf e).1 = 0) (hlength : (pieceOf e).2 % 4096 = 0) (hmax : (pieceOf e).2 ≤ imageMax) (img : Image) :
    execFirmwareImageDownload e img s = .next (adminDone { s1 with boot := { s1.boot with pieces := [pieceOf e], staged := some img } } e .success) := by
  unfold execFirmwareImageDownload
  dsimp only
  rw [adminCmd_admitted hadm]
  · rw [if_pos hoffset]
  · rw [if_neg (by omega), if_neg (by simp [hoffset])]

/-- What a Commit that writes image `img` for the Commit action `ca` begins: its slot is emptied, its pieces are held no more, and its write waits behind the others (R375). -/
def commitBegun (s : State) (e : Sqe) (ca : Nat) (img : Image) : State :=
  let t := setSlot s (commitSlot s e) none
  { t with boot := { t.boot with
    pieces := [], staged := none
    writing := t.boot.writing ++ [{ ca := ca, func := ownerOf s e.func, cid := e.cid, slot := commitSlot s e, image := some img }] } }

theorem commitImage_begins {s : State} {e : Sqe} {img : Image} (hfs : fld e.cdw10 0 3 ≤ 2) (hslot : commitSlot s e ≠ s.boot.slotRun)
    (himg : downloaded s = some img) (hverifies : imageVerifies img s.boot.minSvn = true) (ca : Nat) : commitImage e s ca = commitBegun s e ca img := by
  unfold commitImage
  dsimp only
  rw [if_neg (by simp [hslot, hfs]), himg]
  dsimp only
  rw [if_neg (by simp [hverifies])]
  rfl

theorem setSlot_writing (s : State) (k : Nat) (i : Option Image) : (setSlot s k i).boot.writing = s.boot.writing := by
  unfold setSlot
  dsimp only
  split <;> rfl

theorem commitBegun_boot (s : State) (e : Sqe) (ca : Nat) (img : Image) :
    (commitBegun s e ca img).boot.writing = s.boot.writing ++ [{ ca := ca, func := ownerOf s e.func, cid := e.cid, slot := commitSlot s e, image := some img }] ∧
      (commitBegun s e ca img).boot.pieces = [] ∧ commitBegun s e ca img = { s with boot := (commitBegun s e ca img).boot } :=
  ⟨congrArg (· ++ _) (setSlot_writing s _ none), rfl, rfl⟩

/-- A Commit of an image in a slot appends its selector word and waits (R154, R376). -/
theorem execFirmwareCommitActivate_waits {s s1 : State} {e : Sqe} {st : Nat} (hadm : Admitted s e true .commit st s1) (haction : fld e.cdw10 3 3 ≤ 2)
    (hfs : fld e.cdw10 0 3 ≤ 2) (hverifies : slotVerifies s1 (commitSlot s1 e) = true) :
    execFirmwareCommitActivate e s =
      .next (activate (committed s1 2 (commitSlot s1 e) (slotImage s1 (commitSlot s1 e))) (commitSlot s1 e) (ownerOf s1 e.func) e.cid) := by
  unfold execFirmwareCommitActivate
  rw [adminCmd_admitted hadm (if_neg (by omega))]
  dsimp only
  rw [if_neg (by omega), if_neg (by simp [hverifies])]

/-! ### The boot store (R375, R380) -/

/-- An image read back stands in its slot: 1, or else 2 (R375). -/
theorem setSlot_slots (s : State) (k : Nat) (i : Option Image) : (k = 1 → (setSlot s k i).boot.slot1 = i) ∧ (k ≠ 1 → (setSlot s k i).boot.slot2 = i) := by
  unfold setSlot
  dsimp only
  refine ⟨fun h => ?_, fun h => ?_⟩
  · rw [if_pos h]
  · rw [if_neg h]

theorem committed_boot (s : State) (ca slot : Nat) (i : Option Image) : (committed s ca slot i).boot = s.boot := record_boot _ _ _ _ _ _

/-- The first write of the boot store ends, with the rails on. -/
theorem execBootStoreWriteComplete_eq {s : State} {w : BootWrite} {rest : List BootWrite} (hwriting : s.boot.writing = w :: rest) (hrails : s.sup.rails = true) (ok : Bool) :
    execBootStoreWriteComplete ok s = .next (bootWritten s w rest ok) := by
  unfold execBootStoreWriteComplete
  rw [hwriting]
  dsimp only
  rw [if_neg (by simp [hrails])]

/-! ### The Measurement Policy (R380, R381) -/

theorem le_foldl_max {l : List Nat} {x : Nat} (hx : x ∈ l) (a : Nat) : x ≤ l.foldl max a := by
  rw [List.foldl_eq_foldr]
  exact List.le_max_of_le' a hx le_rfl

/-- A policy is queued to be written under a generation above every copy's, and the answer tells whether the next boot would be held (R380, R381). -/
theorem execSetMeasurementPolicy_queued {s s1 : State} {e : Sqe} {st : Nat} (hadm : Admitted s e false .measurementPolicy st s1) (hpf : e.func = 0)
    (hgood : policyBad e.data = false) :
    ∃ gen, (∀ c ∈ s1.boot.policyCopies, c.1 < gen) ∧ execSetMeasurementPolicy e s = .next { s1 with boot := { s1.boot with writing := s1.boot.writing ++
      [{ ca := 8, func := ownerOf s1 e.func, cid := e.cid, policy := policyOf e.data, gen := gen, dw0 := bit (holdNext s1 (policyOf e.data)) }] } } := by
  refine ⟨_, fun c hc => ?_, adminCmd_admitted hadm (if_neg (by simp [hpf, hgood])) _⟩
  have hle := le_foldl_max (List.mem_append_left (s1.boot.writing.map fun w => w.gen) (List.mem_map_of_mem (f := fun c => c.1) hc)) 0
  exact Nat.lt_one_add_iff.2 hle

/-- Settles O27: the download and the Commits by their effect once admitted, the activation by `execActivationSeal_enters` and the Measure entry it makes. -/
theorem firmwareAndPolicy : Obligations.FirmwareAndPolicy := by
  unfold Obligations.FirmwareAndPolicy
  refine ⟨?download, ?commit, ?activate, ?written, ?failed, ?activation, ?policy⟩
  case download =>
    intro s s1 e img st hadm hoffset hlength hmax
    exact execFirmwareImageDownload_first hadm hoffset hlength hmax img
  case commit =>
    intro s s1 e img st hadm haction hfs hslot himg hverifies
    have hfield : (if 3 ≤ fld e.cdw10 3 3 then some Status.invalidField else none) = none := if_neg (by omega)
    have hbegins := commitImage_begins hfs hslot himg hverifies
    refine ⟨⟨commitBegun s1 e 0 img, ?_, commitBegun_boot s1 e 0 img⟩, ⟨commitBegun s1 e 1 img, ?_, commitBegun_boot s1 e 1 img⟩⟩
    · rw [← hbegins 0]
      exact adminCmd_admitted hadm hfield _
    · rw [← hbegins 1]
      exact adminCmd_admitted hadm hfield _
  case activate =>
    intro s s1 e st hadm haction hfs hverifies hnone
    refine ⟨_, execFirmwareCommitActivate_waits hadm haction hfs hverifies, ?_⟩
    unfold activate
    rw [committed_boot]
    dsimp only
    rw [hnone]
    exact ⟨rfl, rfl, rfl, rfl, record_mode_md _ _ _ _ _ _, congrArg Zn.store (record_zn _ _ _ _ _ _)⟩
  case written =>
    intro s w rest hwriting hrails hca
    refine ⟨committed (setSlot { s with boot := { s.boot with writing := rest } } w.slot w.image) w.ca w.slot w.image,
      (execBootStoreWriteComplete_eq hwriting hrails true).trans ?_, ?_⟩
    · unfold bootWritten
      simp [hca]
    · rw [committed_boot]
      exact ⟨setSlot_writing _ _ _, setSlot_slots _ _ _⟩
  case failed =>
    intro s w rest hwriting hrails hca
    refine (execBootStoreWriteComplete_eq hwriting hrails false).trans ?_
    unfold bootWritten
    rw [if_neg (by omega)]
    rfl
  case activation =>
    intro s func cid hactivating hcmds hunpaired hshut hps4 hentering
    obtain ⟨u, hboot, hexec⟩ := execActivationSeal_enters hactivating hcmds hunpaired hshut hps4 hentering
    have h := enterMeasure_entered u 1
    exact ⟨_, hexec, h.mode, h.cause, h.boot.trans (by rw [hboot]), h.regs, h.cmds, h.minSvn.trans (by rw [hboot])⟩
  case policy =>
    intro s s1 e st hadm hpf hgood
    obtain ⟨gen, hnewer, hexec⟩ := execSetMeasurementPolicy_queued hadm hpf hgood
    exact ⟨_, _, hexec, rfl, rfl, rfl, rfl, hnewer, rfl⟩

end Sys2Proof.Machine

namespace Sys2Proof.Machine

/-! SUPPORT. Waiting Unbound commands, deadlines and the cores that own commands (R26, R29 to R35, R145, R468 to R471). -/

/-! ### Buffers given to a waiting command (R468, R470) -/

/-- Every buffer of an allocation reads the count it was set to. -/
theorem find_foldl_set {b : List Nat} {x : Nat} (hx : x ∈ b) (m : KV Nat) (n : Nat) : KV.find (b.foldl (fun m b => KV.set m b n) m) x = some n := by
  have hkeeps (b : List Nat) (m : KV Nat) (h : KV.find m x = some n) : KV.find (b.foldl (fun m b => KV.set m b n) m) x = some n := by
    induction b generalizing m with
    | nil => exact h
    | cons y b ih =>
      refine ih _ ?_
      by_cases hy : x = y
      · rw [hy, KV.find_set_self]
      · rw [KV.find_set_other m n hy, h]
  induction b generalizing m with
  | nil => nomatch hx
  | cons y b ih =>
    rcases List.mem_cons.1 hx with rfl | hx
    · exact hkeeps b _ (KV.find_set_self _ _ _)
    · exact ih hx _

/-- Nothing is spilled while at least 4 MiB of buffers are free (R471). -/
theorem spillSends_idle {s : State} (h : 4194304 ≤ freeBytes s.it.pools) : spillSends s = s := if_pos h

/-- What a command's buffers, taken, leave of `s`: the command holds them, each referenced once for each of its users. -/
structure BufsTaken (s : State) (slot : Nat) (c : Cmd) (users : List BufUser) (p : List Pool) (b : List Nat) (t : State) : Prop where
  cmd : KV.find t.port.cmds slot = some { c with bufs := b, needBytes := 0, users := users }
  pools : t.it.pools = p
  refs : ∀ x ∈ b, KV.find t.it.refs x = some users.length
  rest : t = { s with port := { s.port with cmds := t.port.cmds }, it := t.it }

/-- Where the buffers are free, within the quotas and with 4 MiB to spare, a command takes them (R468, R471). -/
theorem takeBufs_taken {s : State} {slot bytes : Nat} {c : Cmd} {p : List Pool} {b : List Nat} (hc : KV.find s.port.cmds slot = some c)
    (halloc : allocBufs s.it.pools bytes = some (p, b)) (hquota : c.cls = .unbound → quotaFits s c.func b = true) (hfree : 4194304 ≤ freeBytes p)
    (users : List BufUser) : BufsTaken s slot c users p b (takeBufs s slot bytes users) := by
  have hfits : ¬(c.cls = .unbound ∧ (!quotaFits s c.func b) = true) := by
    rintro ⟨hcls, hover⟩
    simp [hquota hcls] at hover
  unfold takeBufs
  rw [hc, halloc]
  dsimp only
  rw [if_neg hfits]
  have htaken (u : State) (hpools : u.it.pools = p) (hcmds : u.port.cmds = s.port.cmds) (hrefs : ∀ x ∈ b, KV.find u.it.refs x = some users.length)
      (hrest : u = { s with it := u.it }) :
      BufsTaken s slot c users p b (spillSends (setCmd u slot (fun c => { c with bufs := b, needBytes := 0, users := users }))) := by
    rw [spillSends_idle (s := setCmd u slot _) (by exact hpools ▸ hfree)]
    refine ⟨setCmd_find_self (hcmds ▸ hc) _, hpools, hrefs, ?_⟩
    rw [hrest]
    rfl
  have hrefs : ∀ x ∈ b, KV.find (b.foldl (fun m b => KV.set m b users.length) s.it.refs) x = some users.length := fun x hx => find_foldl_set hx _ _
  cases c.op.isWrite with
  | true => exact htaken _ rfl rfl hrefs rfl
  | false => exact htaken _ rfl rfl hrefs rfl

/-- A waiting command goes on to take its buffers when they may be free. -/
theorem execUnboundBufferGrant_takes {s : State} {slot : Nat} {c : Cmd} (hc : KV.find s.port.cmds slot = some c) (hneed : c.needBytes ≠ 0) :
    execUnboundBufferGrant slot s = .next (takeBufs s slot c.needBytes c.users) := by
  unfold execUnboundBufferGrant
  rw [hc]
  exact if_neg hneed

theorem takeBufs_waits {s : State} {slot bytes : Nat} {c : Cmd} (hc : KV.find s.port.cmds slot = some c) (halloc : allocBufs s.it.pools bytes = none)
    (users : List BufUser) : takeBufs s slot bytes users = setCmd s slot (fun c => { c with needBytes := bytes, users := users }) := by
  unfold takeBufs
  rw [hc, halloc]

/-! ### Shares granted to a waiting write (R145) -/

/-- A waiting write stays while its share does not fit. -/
theorem execUnboundWriteShareGrant_waits {s : State} {slot q : Nat} {c : Cmd} {n : Ns} (hc : KV.find s.port.cmds slot = some c) (hq : c.seq = some q)
    (hn : nsOf s c.nsid = some n) (hunfit : grantFits s c n = false) : execUnboundWriteShareGrant slot s = .next s := by
  unfold execUnboundWriteShareGrant
  rw [hc]
  dsimp only
  rw [hq, hn]
  exact if_pos (by simp [hunfit])

/-- A waiting write charged its share (R145): its record holds the bytes, and the command waits for its data instead. -/
def shareCharged (s : State) (slot q : Nat) (c : Cmd) : State :=
  setCmd (setRec s q (fun r => { r with bytes := c.needShare, wt := false })) slot (fun c => { c with needShare := 0, stage := .buffered })

/-- A waiting write of the host that fits, of a namespace not mirrored, is charged its share and asks for its data. -/
theorem execUnboundWriteShareGrant_grants {s : State} {slot q : Nat} {c : Cmd} {n : Ns} (hc : KV.find s.port.cmds slot = some c) (hq : c.seq = some q)
    (hn : nsOf s c.nsid = some n) (hneed : c.needShare ≠ 0) (hfits : grantFits s c n = true) (hthrough : wtNow s n = false) (hmirrors : mirrors s n = false)
    (hop : c.op = .write) (hhost : c.fromTwin = false) :
    execUnboundWriteShareGrant slot s = .next (takeBufs (shareCharged s slot q c) slot (c.nlb * lbaBytes n.flbas) (writeUsers false)) := by
  have hcharged : mirrors (setRec s q (fun r => { r with bytes := c.needShare, wt := false })) n = false := hmirrors
  have hheld : ¬(c.op = .writeZeroes ∨ c.fromTwin = true) := by simp [hop, hhost]
  unfold execUnboundWriteShareGrant
  rw [hc]
  dsimp only
  rw [hq, hn]
  dsimp only
  rw [if_neg (by simp [hneed, hfits]), hthrough, hcharged, Bool.false_and, if_neg Bool.false_ne_true, if_neg hheld]
  exact congrArg (fun m => Host.Outcome.next (takeBufs _ slot _ (writeUsers m))) hmirrors

/-- Asking for the data, and waiting for its buffers, changes neither the charge nor the stage of the write, nor its record. -/
theorem takeBufs_shareCharged {s : State} {slot q : Nat} {c : Cmd} {r : VRec} (hc : KV.find s.port.cmds slot = some c) (hr : KV.find s.jr.recs q = some r)
    (bytes : Nat) (users : List BufUser) :
    ∃ c', KV.find (takeBufs (shareCharged s slot q c) slot bytes users).port.cmds slot = some c' ∧ c'.needShare = 0 ∧ c'.stage = .buffered ∧
      KV.find (takeBufs (shareCharged s slot q c) slot bytes users).jr.recs q = some { r with bytes := c.needShare, wt := false } ∧
      (takeBufs (shareCharged s slot q c) slot bytes users).zn = s.zn := by
  have hcmd : KV.find (shareCharged s slot q c).port.cmds slot = some { c with needShare := 0, stage := .buffered } :=
    setCmd_find_self (s := setRec s q _) hc fun c => { c with needShare := 0, stage := .buffered }
  have hrec : KV.find (shareCharged s slot q c).jr.recs q = some { r with bytes := c.needShare, wt := false } := setRec_find hr _
  have hzn : (shareCharged s slot q c).zn = s.zn := rfl
  generalize shareCharged s slot q c = u at hcmd hrec hzn ⊢
  have htakes := takeBufs_portIt u slot bytes users
  obtain ⟨c', hfind, hsame⟩ := exists_of_cmdAt ((takeBufs_cmdAt u slot bytes users slot).trans (congrArg (Option.map Cmd.unbuffered) hcmd))
  refine ⟨c', hfind, congrArg Cmd.needShare hsame, congrArg Cmd.stage hsame, ?_, ?_⟩
  · rwa [htakes.field State.jr fun _ _ => rfl]
  · rwa [htakes.field State.zn fun _ _ => rfl]

/-! ### Which core takes a command (R32) -/

/-- Of a list with members one has the least of a measure. -/
theorem leastBy_some {l : List Nat} (hl : l ≠ []) (f : Nat → Nat) : ∃ z ∈ l, leastBy l f = some z := by
  obtain ⟨m, hm, hleast⟩ := l.toFinset.exists_min_image f ⟨l.head hl, List.mem_toFinset.2 (List.head_mem hl)⟩
  have hkept : m ∈ keepLeast l f := by
    unfold keepLeast
    simp only [List.mem_filter, List.all_eq_true, decide_eq_true_eq]
    exact ⟨List.mem_toFinset.1 hm, fun h hh => hleast h (List.mem_toFinset.2 hh)⟩
  have hne : keepLeast l f ≠ [] := List.ne_nil_of_mem hkept
  exact ⟨_, (List.mem_filter.1 (List.head_mem hne)).1, List.head?_eq_some_head hne⟩

/-- Going round a list with members reaches one of them. -/
theorem nextRound_some {l : List Nat} (hl : l ≠ []) (last : Nat) : ∃ k ∈ l, nextRound l last = some k := by
  unfold nextRound
  cases h : l.find? (fun x => decide (last < x)) with
  | some x => exact ⟨x, List.mem_of_find?_eq_some h, rfl⟩
  | none => exact ⟨_, List.head_mem hl, List.head?_eq_some_head hl⟩

theorem mem_byDeadline {p q : Nat × Cmd} {l : List (Nat × Cmd)} : q ∈ byDeadline p l ↔ q = p ∨ q ∈ l := by
  induction l with
  | nil => simp [byDeadline]
  | cons x l ih =>
    have hplaced : byDeadline p (x :: l) = p :: x :: l ∨ byDeadline p (x :: l) = x :: byDeadline p l := by
      rw [byDeadline]
      exact ite_eq_or_eq _ _ _
    rcases hplaced with h | h
    · rw [h, List.mem_cons]
    · rw [h, List.mem_cons, List.mem_cons, ih, or_left_comm]

/-- The order of deadlines leaves no command of a core out. -/
theorem mem_moveOrder {s : State} {c : Nat} {q : Nat × Cmd} (hq : q ∈ ownedBy s c) : q ∈ moveOrder s c := by
  have hkeeps (l m : List (Nat × Cmd)) (h : q ∈ l ∨ q ∈ m) : q ∈ l.foldl (fun l p => byDeadline p l) m := by
    induction l generalizing m with
    | nil => simpa using h
    | cons x l ih =>
      refine ih _ ?_
      rw [mem_byDeadline]
      rcases h with h | h
      · rcases List.mem_cons.1 h with h | h
        · exact .inr (.inl h)
        · exact .inl h
      · exact .inr (.inr h)
  exact hkeeps _ [] (.inl hq)

theorem otherCores_ne {s : State} {c k : Nat} (h : k ∈ otherCores s c) : k ≠ c := by
  unfold otherCores at h
  simp only [List.mem_filter, Bool.and_eq_true, bne_iff_ne] at h
  exact h.2.1

/-! ### Commands move off a core (R32) -/

/-- The command in a slot has core `k` as its owner, and the round-robin stands at `r`. -/
def handCmd (s : State) (slot k r : Nat) : State := { ownCmd s slot k with it := { s.it with rrCore := r } }

theorem handCmd_cmds (s : State) (slot k r : Nat) :
    (handCmd s slot k r).port.cmds = s.port.cmds.map (fun p => if p.1 = slot then (p.1, { p.2 with core := k, descr := false }) else p) := rfl

/-- From `s` to `t` the command in a slot is handed to another core than `c`. -/
def Handed (c : Nat) (s : State) (slot : Nat) (t : State) : Prop := ∃ k r, k ≠ c ∧ t = handCmd s slot k r

theorem spinCmd_handed {run : List Nat} {c : Nat} (hrun : run ≠ []) (hother : ∀ k ∈ run, k ≠ c) (s : State) (slot : Nat) : Handed c s slot (spinCmd run s slot) := by
  obtain ⟨k, hk, hnext⟩ := nextRound_some hrun s.it.rrCore
  refine ⟨k, k, hother k hk, ?_⟩
  unfold spinCmd
  rw [hnext]
  rfl

/-- What handing commands to other cores leaves of `s`: each command's stage, every core, and all outside the command table and the internals. -/
structure HandedOn (s t : State) : Prop where
  stages : t.port.cmds.map (fun p => (p.1, p.2.stage)) = s.port.cmds.map (fun p => (p.1, p.2.stage))
  cores : t.it.cores = s.it.cores
  jr : t.jr = s.jr

theorem Handed.on {c slot : Nat} {s t : State} (h : Handed c s slot t) : HandedOn s t := by
  obtain ⟨k, r, -, rfl⟩ := h
  refine ⟨?_, rfl, rfl⟩
  rw [handCmd_cmds, List.map_map]
  refine List.map_congr_left fun p _ => ?_
  dsimp only [Function.comp_apply]
  split <;> rfl

/-- A command still with its old core once one was handed on is another, and unchanged. -/
theorem Handed.kept {c slot : Nat} {s t : State} (h : Handed c s slot t) {q : Nat × Cmd} (hq : q ∈ t.port.cmds) (hcore : q.2.core = c) :
    q ∈ s.port.cmds ∧ q.1 ≠ slot := by
  obtain ⟨k, r, hk, rfl⟩ := h
  rw [handCmd_cmds] at hq
  obtain ⟨p, hp, rfl⟩ := List.mem_map.1 hq
  split at hcore
  · exact absurd hcore hk
  · next hslot =>
    rw [if_neg hslot]
    exact ⟨hp, hslot⟩

section

variable {α : Type} {c : Nat} {f : State → α → State} {slotOf : α → Nat}

theorem foldl_handedOn (hf : ∀ s x, Handed c s (slotOf x) (f s x)) (l : List α) (s : State) : HandedOn s (l.foldl f s) where
  stages := foldl_field (fun s => s.port.cmds.map (fun p => (p.1, p.2.stage))) f (fun s x => (hf s x).on.stages) l s
  cores := foldl_field (fun s => s.it.cores) f (fun s x => (hf s x).on.cores) l s
  jr := foldl_field State.jr f (fun s x => (hf s x).on.jr) l s

/-- After every command of a list was handed on, one still with its old core was not in the list. -/
theorem foldl_handed_kept (hf : ∀ s x, Handed c s (slotOf x) (f s x)) (l : List α) (s : State) {q : Nat × Cmd} (hq : q ∈ (l.foldl f s).port.cmds)
    (hcore : q.2.core = c) : q ∈ s.port.cmds ∧ ∀ x ∈ l, q.1 ≠ slotOf x := by
  induction l generalizing s with
  | nil => exact ⟨hq, fun _ h => nomatch h⟩
  | cons x l ih =>
    obtain ⟨hin, hnot⟩ := ih (f s x) hq
    obtain ⟨hbefore, hslot⟩ := (hf s x).kept hin hcore
    refine ⟨hbefore, fun y hy => ?_⟩
    rcases List.mem_cons.1 hy with rfl | hy
    · exact hslot
    · exact hnot y hy

end

/-- What moving a core's commands leaves, where another core runs: the core is hung and owns none; every command is in its stage; the journal stands. -/
structure MovedOff (s : State) (c : Nat) (t : State) : Prop where
  hung : (KV.findD t.it.cores c {}).hung = true
  owned : ownedBy t c = []
  stages : t.port.cmds.map (fun p => (p.1, p.2.stage)) = s.port.cmds.map (fun p => (p.1, p.2.stage))
  jr : t.jr = s.jr

theorem moveCore_movedOff {s : State} {c : Nat} (hother : otherCores s c ≠ []) : MovedOff s c (moveCore s c) := by
  obtain ⟨z, hz, hleast⟩ := leastBy_some hother (fun x => (ownedBy s x).length)
  have hhanded (t : State) (p : Nat × Cmd) :
      Handed c t p.1 (if p.2.zone.isSome && p.2.op.zoneBound then ownCmd t p.1 z else spinCmd (otherCores s c) t p.1) := by
    split
    · exact ⟨z, t.it.rrCore, otherCores_ne hz, rfl⟩
    · exact spinCmd_handed hother (fun k hk => otherCores_ne hk) t p.1
  unfold moveCore
  dsimp only
  rw [hleast]
  dsimp only
  have hon := foldl_handedOn (slotOf := Prod.fst) hhanded (moveOrder s c)
  constructor
  case hung =>
    rw [(hon _).cores]
    unfold setCore KV.findD
    dsimp only
    rw [KV.find_mapVals, KV.find_upd_self]
    dsimp only [Option.map_some, Option.getD_some]
    split <;> rfl
  case owned =>
    refine List.filter_eq_nil_iff.2 fun q hq hcore => ?_
    obtain ⟨hin, hnot⟩ := foldl_handed_kept (slotOf := Prod.fst) hhanded (moveOrder s c) _ hq (by simpa using hcore)
    exact hnot q (mem_moveOrder (List.mem_filter.2 ⟨hin, hcore⟩)) rfl
  case stages => exact (hon _).stages
  case jr => exact (hon _).jr

@[simp] theorem capture_cmds (s : State) (typ : Nat) : (capture s typ).port.cmds = s.port.cmds := by
  unfold capture
  dsimp only
  split <;> simp

@[simp] theorem capture_jr (s : State) (typ : Nat) : (capture s typ).jr = s.jr := by
  unfold capture
  dsimp only
  split <;> simp

/-- The cores, the commands and the journal decide whether a core's commands have moved off it. -/
theorem MovedOff.same {s t u : State} {c : Nat} (h : MovedOff s c t) (hit : u.it = t.it) (hcmds : u.port.cmds = t.port.cmds) (hjr : u.jr = t.jr) :
    MovedOff s c u where
  hung := by rw [hit, h.hung]
  owned := by rw [← h.owned, ownedBy, hcmds, ownedBy]
  stages := by rw [hcmds, h.stages]
  jr := by rw [hjr, h.jr]

/-! ### Deadlines and rescue points (R29 to R32) -/

/-- The miss of a command's deadline: the command runs on with its timer stopped, and its ledger row counts it (R30). -/
def missed (s : State) (slot : Nat) (c : Cmd) : State :=
  setLedger (setCmd s slot (fun c => { c with expired := true, armed := false })) c.func (ledgerRow c.cls c.op)
    (fun l => { l with misses := (l.misses + 1) % 2^32 })

theorem execDeadlineTimerExpiry_eq {s : State} {slot : Nat} {c : Cmd} (hc : KV.find s.port.cmds slot = some c) :
    execDeadlineTimerExpiry slot s = if c.armed ∧ c.expired = false ∧ c.deadline.any (fun t => t ≤ s.time.dtb) then .next (missed s slot c) else .next s := by
  unfold execDeadlineTimerExpiry
  rw [hc]
  dsimp only
  cases c.armed <;> cases c.expired <;> cases c.deadline.any (fun t => t ≤ s.time.dtb) <;> rfl

/-- A rescue point is spent (R31). -/
def rescueSpent (s : State) (slot : Nat) : State := setCmd s slot (fun c => { c with rescue := none })

/-- A rescue point reached is spent; where its core runs with a beat more than 4 µs old, the core's commands move off it. -/
theorem execRescuePoint_eq {s : State} {slot d : Nat} {c : Cmd} (hc : KV.find s.port.cmds slot = some c) (hd : c.rescue = some d) (hreached : d ≤ s.time.dtb) :
    execRescuePoint slot s =
      if (KV.findD s.it.cores c.core {}).hung ∨ (KV.findD s.it.cores c.core {}).inReset ∨ s.time.dtb ≤ (KV.findD s.it.cores c.core {}).beat + 4000
      then .next (rescueSpent s slot)
      else .next (capture (record (moveCore (rescueSpent s slot) c.core) 0x21 [c.core, 1, (ownedBy (rescueSpent s slot) c.core).length]) 0x21) := by
  unfold execRescuePoint
  rw [hc]
  dsimp only
  rw [if_neg (by simp [hd, hreached])]
  simp only [Bool.or_eq_true, decide_eq_true_eq, or_assoc]
  rfl

theorem rescueSpent_stages (s : State) (slot : Nat) :
    (rescueSpent s slot).port.cmds.map (fun p => (p.1, p.2.stage)) = s.port.cmds.map (fun p => (p.1, p.2.stage)) := by
  unfold rescueSpent setCmd KV.adj
  rw [List.map_map]
  refine List.map_congr_left fun p _ => ?_
  dsimp only [Function.comp_apply]
  split <;> rfl

/-! ### Beats, resets and returns of cores (R17, R31, R35) -/

theorem findD_setCore_self (s : State) (c : Nat) (f : Proc → Proc) : KV.findD (setCore s c f).it.cores c {} = f (KV.findD s.it.cores c {}) := by
  unfold setCore KV.upd
  exact KV.findD_set_self _ _ _ _

theorem find_setCore_other (s : State) {c k : Nat} (f : Proc → Proc) (h : k ≠ c) : KV.find (setCore s c f).it.cores k = KV.find s.it.cores k :=
  KV.find_upd_other s.it.cores {} f h

/-- The watchdog resets a core that runs, and what it moves off first has other cores (R35). -/
theorem execRequestCoreWatchdog_resets {s : State} {core : Nat} (hcore : core < 24) (hrunning : (KV.findD s.it.cores core {}).inReset = false)
    (hsound : (KV.findD s.it.cores core {}).hung = false) :
    execRequestCoreWatchdog core s =
      .next (record (setCore (moveCore s core) core (fun x => { x with inReset := true })) 0x21 [core, 2, (ownedBy s core).length]) := by
  unfold execRequestCoreWatchdog
  dsimp only
  rw [if_neg (by simp [hrunning]; omega), if_neg (by simp [hsound])]

/-- A core out of service receives descriptors again, with its own zones; a request core's return is recorded (R32, R35). -/
theorem execCoreReturnToService_returns {s : State} {core : Nat} (hout : (KV.findD s.it.cores core {}).inReset = true ∨ (KV.findD s.it.cores core {}).hung = true) :
    ∃ t, execCoreReturnToService core s = .next t ∧ KV.findD t.it.cores core {} = { beat := s.time.dtb, hung := false, inReset := false, zones := none } ∧
      t.md.mode = s.md.mode ∧ t.port.cmds = s.port.cmds := by
  have hin : (!(KV.findD s.it.cores core {}).inReset && !(KV.findD s.it.cores core {}).hung) = false := by
    rcases hout with h | h <;> simp [h]
  have hback := findD_setCore_self s core (fun x => { x with hung := false, inReset := false, zones := none, beat := s.time.dtb })
  unfold execCoreReturnToService
  dsimp only
  rw [hin, if_neg Bool.false_ne_true]
  refine ⟨_, rfl, ?_⟩
  split
  · rw [record_it, record_mode_md, record_cmds_port]
    exact ⟨hback, rfl, rfl⟩
  · exact ⟨hback, rfl, rfl⟩

/-- Settles O38: a grant by `takeBufs`, a miss and a rescue point by their commands' equations, a core's commands by `moveCore_movedOff`. -/
theorem grantsDeadlinesAndCores : Obligations.GrantsDeadlinesAndCores := by
  unfold Obligations.GrantsDeadlinesAndCores
  refine ⟨?granted, ?waits, ?charged, ?unfit, ?missed, ?running, ?rescued, ?beating, ?early, ?beat, ?watchdog, ?returned⟩
  case granted =>
    intro s slot c p b hc hneed halloc hquota hfree
    obtain ⟨hcmd, hpools, hrefs, hrest⟩ := takeBufs_taken hc halloc hquota hfree c.users
    exact ⟨_, execUnboundBufferGrant_takes hc hneed, hcmd, hpools, hrefs, hrest⟩
  case waits =>
    intro s slot c hc hneed halloc
    exact (execUnboundBufferGrant_takes hc hneed).trans (congrArg _ (takeBufs_waits hc halloc c.users))
  case charged =>
    intro s slot q c r n hc hq hr hn hthrough hmirrors hneed hshare hroom hop hhost
    have hwt : wtNow s n = false := by simp [wtNow, hthrough, hmirrors]
    have hfits : grantFits s c n = true := by simp [grantFits, hroom, hwt, hhost, hmirrors, hshare]
    obtain ⟨c', hcmd, hcharged, hstage, hrec, hzn⟩ := takeBufs_shareCharged hc hr (c.nlb * lbaBytes n.flbas) (writeUsers false)
    exact ⟨_, c', _, execUnboundWriteShareGrant_grants hc hq hn hneed hfits hwt hmirrors hop hhost, hcmd, hcharged, hstage, hrec, rfl, hzn⟩
  case unfit =>
    intro s slot q c n hc hq hn hwt hshort
    have hown : shareOwn s c.func ≤ shareFree s c.func := Nat.sub_le _ _
    refine execUnboundWriteShareGrant_waits hc hq hn ?_
    unfold grantFits
    rw [hwt, if_neg Bool.false_ne_true]
    have hover : ¬c.needShare ≤ (if c.fromTwin = true then shareFree s c.func else shareOwn s c.func) := by split <;> omega
    simp [hover]
  case missed =>
    intro s slot d c hc harmed hrunning hd hreached
    refine ⟨missed s slot c, (execDeadlineTimerExpiry_eq hc).trans (if_pos (by simp [harmed, hrunning, hd, hreached])), rfl, ?_, ?_, rfl⟩
    · exact setCmd_find_self hc (fun c => { c with expired := true, armed := false })
    · exact congrArg Ledger.misses (KV.findD_set_self _ _ _ _)
  case running =>
    intro s slot c hc hnot
    refine (execDeadlineTimerExpiry_eq hc).trans (if_neg ?_)
    rintro ⟨harmed, hrunning, hreached⟩
    rcases hnot with h | h | h
    · simp [h] at harmed
    · simp [h] at hrunning
    · cases hd : c.deadline with
      | none => simp [hd] at hreached
      | some d =>
        have hbefore := h d hd
        have hle : d ≤ s.time.dtb := by simpa [hd] using hreached
        omega
  case rescued =>
    intro s slot d c _ hc hd hreached hsound hrunning hold hother
    have hexec := (execRescuePoint_eq hc hd hreached).trans (if_neg (by simp [hsound, hrunning]; omega))
    have hkept := (execRescuePoint_kept (K := true) (J := true) slot (Kept.refl s)).next_kept _ hexec
    have hmoved : MovedOff (rescueSpent s slot) c.core _ := moveCore_movedOff hother
    obtain ⟨hhung, howned, hstages, hjr⟩ := (hmoved.same (record_it _ _ _ _ _ _) (record_cmds_port _ _ _ _ _ _) (record_jr _ _ _ _ _ _)).same
      (capture_it _ _) (capture_cmds _ _) (capture_jr _ _)
    exact ⟨_, hexec, hhung, howned, hstages.trans (rescueSpent_stages s slot), hkept.content rfl, hjr, hkept.core rfl⟩
  case beating =>
    intro s slot d c hc hd hreached hbeat
    exact (execRescuePoint_eq hc hd hreached).trans (if_pos (.inr (.inr hbeat)))
  case early =>
    intro s slot d c hc hd hbefore
    show execRescuePoint slot s = .next s
    unfold execRescuePoint
    rw [hc]
    exact if_pos (by simp [hd, hbefore])
  case beat =>
    intro s core hcore
    exact ⟨_, if_pos hcore, congrArg Proc.beat (findD_setCore_self _ _ _), rfl, fun c hc => find_setCore_other (takeDescr s (· == core)) _ hc⟩
  case watchdog =>
    intro s core _ hcore hrunning hsound hother
    have hexec := execRequestCoreWatchdog_resets hcore hrunning hsound
    have hkept := (execRequestCoreWatchdog_kept (K := true) (J := true) core (Kept.refl s)).next_kept _ hexec
    obtain ⟨-, howned, -, hjr⟩ := moveCore_movedOff hother
    refine ⟨_, hexec, ?_, ?_, hkept.content rfl, (record_jr _ _ _ _ _ _).trans hjr, hkept.core rfl⟩
    · rw [record_it, findD_setCore_self]
    · rw [← howned, ownedBy, record_cmds_port]
      rfl
  case returned =>
    intro s core hout hmode
    obtain ⟨t, hexec, hback, hmode', hcmds⟩ := execCoreReturnToService_returns hout
    have hkept := (execCoreReturnToService_kept (K := true) (J := true) core (Kept.refl s)).next_kept _ hexec
    refine ⟨t, hexec, ?_, fun z hz => ?_, hcmds, hkept.content rfl, hkept.core rfl⟩
    · simp [coreRuns, hback, hmode', hmode]
    · unfold zoneCore
      dsimp only
      rw [hz, hback]

end Sys2Proof.Machine

namespace Sys2Proof.Machine

/-! SUPPORT. What leaves the calendar's beat alone: time, the slot and the period last begun, the budgets (R157, R179). -/

/-- From `c` to `s` time stands still, the calendar counts the same slot and the same period, and the same budgets are in force and set for the next one. -/
@[simp, reducible] def SameBeat (c s : State) : Prop :=
  s.time = c.time ∧ s.cal.slot = c.cal.slot ∧ s.cal.period = c.cal.period ∧ s.cal.budgets = c.cal.budgets ∧ s.cal.nextBudgets = c.cal.nextBudgets

theorem SameBeat.trans {a b c : State} (h : SameBeat a b) (k : SameBeat b c) : SameBeat a c := by
  simp_all

/-- Folding an operation that leaves the beat alone leaves it alone. -/
@[simp] theorem beat_foldl {α : Type} {f : State → α → State} (h : ∀ s x, SameBeat s (f s x)) (l : List α) (s : State) : SameBeat s (l.foldl f s) := by
  induction l generalizing s with
  | nil => simp
  | cons x l ih => exact (h s x).trans (ih _)

/-- What is done where there is something to do it with. -/
@[simp] theorem beat_elim {α : Type} {s : State} {f : α → State} (h : ∀ x, SameBeat s (f x)) (o : Option α) : SameBeat s (o.elim s f) := by
  cases o <;> simp [h]

/-- What is done on a condition. -/
@[simp] theorem beat_ite {p : Prop} [Decidable p] {s t : State} (h : SameBeat s t) : SameBeat s (if p then t else s) := by
  split <;> simp [h]

/-! ### The end of a command (R30, R86) -/

@[simp] theorem missEvent_beat (s : State) (c : Cmd) (late : Nat) : SameBeat s (missEvent s c late) := by
  unfold missEvent
  split <;> simp

@[simp] theorem endCmd_beat (s : State) (slot : Nat) (st : Status) (dw0 dw1 : Nat) (data : List Nat) : SameBeat s (endCmd s slot st dw0 dw1 data) := by
  cases hc : KV.find s.port.cmds slot with
  | none => simp [endCmd, hc]
  | some c =>
    rw [endCmd_eq hc]
    split
    · simp [withoutCmd]
    · split <;> simp [withoutCmd]

@[simp] theorem wakeFlushes_beat (s : State) (slot : Nat) : SameBeat s (wakeFlushes s slot) := by
  simp [wakeFlushes]

@[simp] theorem endDelete_beat (s : State) (func sqid : Nat) : SameBeat s (endDelete s func sqid) := by
  unfold endDelete
  repeat' split
  all_goals simp

@[simp] theorem endShutdown_beat (s : State) (func : Nat) : SameBeat s (endShutdown s func) := by
  unfold endShutdown
  split <;> simp

@[simp] theorem endInjection_beat (s : State) (func cid : Nat) (ok : Bool) : SameBeat s (endInjection s func cid ok) := by
  unfold endInjection tcgFor tcgResult
  repeat' split
  all_goals simp

@[simp] theorem inject_beat (s : State) (w : KeyWait) : SameBeat s (inject s w) := by
  unfold inject putInjected
  repeat' split
  all_goals simp

@[simp] theorem settleKeys_beat (s : State) : SameBeat s (settleKeys s) := by
  unfold settleKeys
  split <;> simp

@[simp] theorem finish_beat (s : State) (slot : Nat) (st : Status) (dw0 dw1 : Nat) (data : List Nat) : SameBeat s (finish s slot st dw0 dw1 data) := by
  unfold finish afterEnd
  split <;> simp

/-! ### Block sets, rows and merges (R200, R217, R273) -/

@[simp] theorem bindSet_beat (s : State) (k : Nat) (f : BSet → BSet) : SameBeat s (bindSet s k f) := by
  simp [bindSet]

@[simp] theorem toErase_beat (s : State) (k : Nat) : SameBeat s (toErase s k) := by
  unfold toErase
  dsimp only
  split <;> simp

@[simp] theorem toEraseAll_beat (s : State) (k : Nat) : SameBeat s (toEraseAll s k) := by
  simp [toEraseAll]

@[simp] theorem staleMeta_beat (s : State) (g : Nat) : SameBeat s (staleMeta s g) := by
  simp [staleMeta]

@[simp] theorem moduleRecord_beat (s : State) (typ action arg : Nat) : SameBeat s (moduleRecord s typ action arg) := by
  rw [moduleRecord_frame]
  simp

theorem rowPlace_beat {s t : State} {g b row : Nat} {ns : Option Nat} (h : rowPlace s g ns = some (t, b, row)) : SameBeat s t := by
  cases ns with
  | some n =>
    obtain ⟨m, rfl⟩ := takeRows_opens h
    simp
  | none =>
    cases h
    simp

@[simp] theorem queueRow_beat (s : State) (j : RowJob) (base lines : Nat) : SameBeat s (queueRow s j base lines) := by
  simp [queueRow]

@[simp] theorem askReads_beat (s : State) (j : BackJob) (l : List (Nat × Nat)) : SameBeat s (askReads s j l) := by
  simp [askReads]

@[simp] theorem releaseRow_beat (s : State) (g : Nat) (ns : Option Nat) : SameBeat s (releaseRow s g ns) := by
  unfold releaseRow
  dsimp only
  split
  · simp
  · split
    · simp
    · next hplace => exact (rowPlace_beat hplace).trans (by simp)

@[simp] theorem putUnit_beat (s : State) (g : Nat) (ns : Option Nat) (seq u : Nat) : SameBeat s (putUnit s g ns seq u) := by
  unfold putUnit
  dsimp only
  split <;> simp

@[simp] theorem appendUnit_beat (nsid : Nat) (s : State) (u : Nat) : SameBeat s (appendUnit nsid s u) := by
  unfold appendUnit
  split <;> simp

@[simp] theorem mergeUnit_beat (nsid : Nat) (s : State) (u : Nat) : SameBeat s (mergeUnit nsid s u) := by
  unfold mergeUnit
  split
  · simp
  · dsimp only
    split
    · simp
    · next hrows =>
      obtain ⟨m, rfl⟩ := takeRows_opens hrows
      simp

@[simp] theorem freeLog_beat (s : State) (nsid : Nat) : SameBeat s (freeLog s nsid) := by
  unfold freeLog
  split
  · simp
  · split <;> simp

@[simp] theorem startMerge_beat (s : State) (nsid : Nat) : SameBeat s (startMerge s nsid) := by
  unfold startMerge
  split
  · simp
  · split <;> simp

@[simp] theorem compact_beat (s : State) (g : Nat) : SameBeat s (compact s g) := by
  unfold compact
  split
  · simp
  · split
    · simp
    · refine beat_foldl (fun s l => ?_) _ s
      split
      · simp
      · next hplace => exact (rowPlace_beat hplace).trans (by simp)

@[simp] theorem startCopy_beat (s : State) (kind : CopyKind) (src dstDie dst : Nat) : SameBeat s (startCopy s kind src dstDie dst) := by
  simp [startCopy]

@[simp] theorem stageRec_beat (s : State) (seq : Nat) : SameBeat s (stageRec s seq) := by
  unfold stageRec
  split
  · simp
  · split
    · simp
    · next n _ =>
      dsimp only
      split
      · simp
      · cases n.zoned <;> split <;> simp

@[simp] theorem stageZone_beat (s : State) (nsid i : Nat) : SameBeat s (stageZone s nsid i) := by
  unfold stageZone
  split
  · simp
  · split <;> simp

theorem relieve_beat (k : Nat) (s : State) : SameBeat s (relieve k s) := by
  induction k generalizing s with
  | zero => simp [relieve]
  | succ k ih =>
    unfold relieve
    split
    · simp
    · split
      · simp
      · exact (stageZone_beat s _ _).trans (ih _)

@[simp] theorem checkRelief_beat (s : State) : SameBeat s (checkRelief s) := by
  unfold checkRelief
  split
  · exact relieve_beat _ s
  · simp

/-! ### The fault of the buffer island (R470) and the Quarantine it may lead to (R40, R46, R54) -/

@[simp] theorem refreshCrit_beat (s : State) : SameBeat s (refreshCrit s) := by
  unfold refreshCrit
  dsimp only
  repeat' split
  all_goals simp

@[simp] theorem capture_beat (s : State) (typ : Nat) : SameBeat s (capture s typ) := by
  unfold capture
  dsimp only
  split <;> simp

@[simp] theorem completeFor_beat (s : State) (owner cid : Nat) (st : Status) (dw0 : Nat) (data : List Nat) : SameBeat s (completeFor s owner cid st dw0 data) := by
  unfold completeFor
  split <;> simp

@[simp] theorem removeRec_beat (s : State) (q : Nat) : SameBeat s (removeRec s q) := by
  unfold removeRec
  split
  · simp
  · dsimp only
    split <;> split <;> simp

@[simp] theorem setZone_beat (s : State) (nsid i : Nat) (f : Zone → Zone) : SameBeat s (setZone s nsid i f) := by
  simp

@[simp] theorem dropWrite_beat (s : State) (q : Nat) : SameBeat s (dropWrite s q) := by
  unfold dropWrite
  split
  · simp
  · dsimp only
    split
    · simp
    · split
      · simp
      · refine SameBeat.trans ?_ (setZone_beat _ _ _ _)
        refine (removeRec_beat s q).trans (beat_foldl (fun s p => ?_) _ _)
        cases p.2.slot <;> simp

@[simp] theorem failBuffered_beat (s : State) : SameBeat s (failBuffered s) := by
  refine beat_foldl (fun s p => ?_) _ s
  split
  · split <;> simp
  · simp

@[simp] theorem addClaim_beat (s : State) (c : Claim) : SameBeat s (addClaim s c) := by
  simp [addClaim]

@[simp] theorem readAgain_beat (s : State) : SameBeat s (readAgain s) := by
  refine beat_foldl (fun s p => ?_) _ s
  dsimp only
  refine SameBeat.trans (by simp) (beat_foldl (fun s x => beat_foldl (fun s q => ?_) _ s) _ _)
  split
  · simp
  · cases firstSlot _ _ _ _ <;> simp

@[simp] theorem sizeJournal_beat (s : State) : SameBeat s (sizeJournal s) := by
  simp [sizeJournal]

@[simp] theorem endTest_beat (s : State) (r : HoldResult) : SameBeat s (endTest s r) := by
  simp [endTest]

theorem abandonTest_beat (s : State) : SameBeat s (abandonTest s) :=
  abandonTest_of (P := SameBeat s) (fun _ _ h => h) (fun _ _ h => h.trans (by simp [setUsable])) (fun _ _ h => h.trans (by simp)) (by simp)

@[simp] theorem endCancel_beat (s : State) (r : Reshape) : SameBeat s (endCancel s r) := by
  unfold endCancel
  cases r.cancelCid <;> cases r.cancelTag <;> simp

@[simp] theorem endReshape_beat (s : State) (nsid : Nat) (st : Status) : SameBeat s (endReshape s nsid st) := by
  unfold endReshape
  split
  · simp
  · dsimp only
    split <;> simp [setReshapeZop, dropReshapeWork]

@[simp] theorem dropMoves_beat (s : State) (m : Mode) : SameBeat s (dropMoves s m) := by
  unfold dropMoves
  split
  · simp
  · refine beat_foldl (fun s p => ?_) _ s
    split <;> simp

@[simp] theorem endTransition_beat (s : State) : SameBeat s (endTransition s) := by
  refine beat_foldl (fun s p => ?_) _ s
  split <;> simp

@[simp] theorem abandonEntry_beat (s : State) (trigger : Mode) : SameBeat s (abandonEntry s trigger) := by
  unfold abandonEntry
  split
  · simp
  · dsimp only
    split
    · simp
    · cases s.md.ps4 <;> simp

@[simp] theorem leavePair_beat (s : State) : SameBeat s (leavePair s) := by
  unfold leavePair
  split <;> simp

/-- Quarantine is no mode in which the module operates: what a change to it does beside the mode's own change. -/
@[simp] theorem toMode_quarantine_beat (s : State) (cause : Nat) : SameBeat s (toMode s .quarantine cause) := by
  unfold toMode
  cases s.md.mode.operates
  · simp [Mode.operates]
  · exact (abandonTest_beat s).trans (by simp [Mode.operates])

@[simp] theorem toQuarantine_beat (s : State) (cause : Nat) : SameBeat s (toQuarantine s cause) := by
  unfold toQuarantine
  split
  · simp
  · dsimp only
    split <;> split <;> simp

@[simp] theorem faultQuarantine_beat (s : State) (cause : Nat) : SameBeat s (faultQuarantine s cause) := by
  unfold faultQuarantine
  repeat' split
  all_goals simp

theorem refusedDecrement_beat (s : State) : SameBeat s (refusedDecrement s) := by
  have hstruck : SameBeat s (islandStruck s 4 0 s.time.dtb 0) := by simp [islandStruck, islandEffect]
  unfold refusedDecrement
  split
  · by_cases hseen : 2 ≤ (faultsSeen s (faultKey 4 0)).length
    · rw [islandFault_repeated 0 s.time.dtb 0 rfl hseen]
      exact hstruck.trans (faultQuarantine_beat _ _)
    · rw [islandFault_single 0 s.time.dtb 0 (fun p hp => by cases hp; omega)]
      exact hstruck
  · simp

/-! ### The work of a slot (R159, R161, R166 to R168) -/

@[simp] theorem setDie_beat (s : State) (d : Nat) (f : Die → Die) : SameBeat s (setDie s d f) := by
  simp

@[simp] theorem flushHeld_beat (s : State) : SameBeat s (flushHeld s) := by
  refine beat_foldl (fun s p => ?_) _ s
  split
  · have hq := sendVector_quiet (Quiet.refl s) (p.1 / 65536) p.2.vector
    simp [hq.time, hq.cal]
  · simp

@[simp] theorem settleShutdowns_beat (s : State) : SameBeat s (settleShutdowns s) := by
  simp [settleShutdowns]

@[simp] theorem suspendAt_beat (s : State) (d t endAt : Nat) : SameBeat s (suspendAt s d t endAt) := by
  unfold suspendAt
  split
  · simp
  · split <;> simp

@[simp] theorem resumeOp_beat (s : State) (d t : Nat) : SameBeat s (resumeOp s d t) := by
  unfold resumeOp
  split <;> simp

@[simp] theorem startWt_beat (s : State) (c : Claim) (t : Nat) : SameBeat s (startWt s c t) := by
  unfold startWt
  split
  · simp
  · dsimp only
    split <;> simp

@[simp] theorem releaseClaims_beat (s : State) (t : Nat) : SameBeat s (releaseClaims s t) := by
  refine SameBeat.trans (b := { s with cal := _ }) ?_ (beat_foldl (fun s c => ?_) _ _)
  · simp
  · dsimp only
    split <;> simp

@[simp] theorem placeRests_beat (s : State) (k now : Nat) : SameBeat s (placeRests s k now) := by
  simp [placeRests]

@[simp] theorem checkRests_beat (s : State) (t : Nat) : SameBeat s (checkRests s t) := by
  unfold checkRests
  split <;> simp

@[simp] theorem restSlot_beat (s : State) (t : Nat) : SameBeat s (restSlot s t) := by
  refine beat_foldl (fun s d => ?_) _ s
  split <;> simp

theorem jit_beat {s s' : State} {d t len : Nat} {kind : ClaimKind} {slot : Option Nat} {paid : Bool} (h : jit s d t len kind slot paid = some s') : SameBeat s s' := by
  unfold jit at h
  split at h
  · cases h
    split <;> simp
  · cases h

theorem placeBack_beat {s s' : State} {d t tr : Nat} (h : placeBack s d t tr = some s') : SameBeat s s' := by
  obtain ⟨u, hu, rfl⟩ := Option.map_eq_some_iff.1 h
  exact (jit_beat hu).trans (by simp [chargeBack])

@[simp] theorem endRebuild_beat (s : State) (g : Nat) : SameBeat s (endRebuild s g) := by
  unfold endRebuild refreshRebuilding
  split
  · simp
  · split <;> simp

@[simp] theorem dropPartial_beat (s : State) (r : Rebuild) : SameBeat s (dropPartial s r) := by
  refine beat_foldl (fun s x => ?_) _ s
  dsimp only
  split <;> simp

@[simp] theorem skipGone_beat (s : State) (g : Nat) : SameBeat s (skipGone s g) := by
  unfold skipGone
  split
  · simp
  · dsimp only
    split <;> simp

@[simp] theorem switchSets_beat (s : State) (r : Rebuild) : SameBeat s (switchSets s r) := by
  simp [switchSets]

@[simp] theorem queueRebuildPass_beat (s : State) (r : Rebuild) : SameBeat s (queueRebuildPass s r) := by
  unfold queueRebuildPass
  dsimp only
  split <;> simp

@[simp] theorem beginPass_beat (s : State) (r : Rebuild) : SameBeat s (beginPass s r) := by
  unfold beginPass
  repeat' split
  all_goals simp

@[simp] theorem placeRebuildReads_beat (s : State) (t : Nat) (r : Rebuild) : SameBeat s (placeRebuildReads s t r) := by
  refine beat_foldl (fun s d => ?_) _ s
  dsimp only
  split
  · simp
  · next hplace => exact (jit_beat hplace).trans (by simp [chargeRebuild])

@[simp] theorem rebuildSlot_beat (s : State) (t : Nat) : SameBeat s (rebuildSlot s t) := by
  refine beat_foldl (fun s r0 => ?_) _ s
  split
  · simp
  · split
    · simp
    · dsimp only
      split <;> simp

@[simp] theorem queueCopyPass_beat (s : State) (c : Copy) : SameBeat s (queueCopyPass s c) := by
  unfold queueCopyPass
  split <;> simp

@[simp] theorem beginCopyPass_beat (s : State) (c : Copy) : SameBeat s (beginCopyPass s c) := by
  unfold beginCopyPass
  dsimp only
  repeat' split
  all_goals simp

@[simp] theorem placeCopyRead_beat (s : State) (t : Nat) (c : Copy) : SameBeat s (placeCopyRead s t c) := by
  unfold placeCopyRead
  split
  · simp
  · dsimp only
    split
    · simp
    · next hplace => exact (placeBack_beat hplace).trans (by simp)

@[simp] theorem copySlot_beat (s : State) (t : Nat) : SameBeat s (copySlot s t) := by
  refine beat_foldl (fun s c0 => ?_) _ s
  dsimp only
  simp

@[simp] theorem backSlot_beat (s : State) (t : Nat) : SameBeat s (backSlot s t) := by
  refine beat_foldl (fun s x => ?_) _ s
  split
  · simp
  · dsimp only
    split
    · simp
    · next hplace => exact (placeBack_beat hplace).trans (by simp)

@[simp] theorem unboundRead_beat (s : State) (t slot : Nat) (c : Cmd) (ok : Nat → Bool) : SameBeat s (unboundRead s t slot c ok) := by
  unfold unboundRead
  split
  · simp
  · refine beat_foldl (fun s d => beat_foldl (fun s q => ?_) _ s) _ s
    split
    · simp
    · split
      · next hplace => exact jit_beat hplace
      · simp

@[simp] theorem unboundSlot_beat (s : State) (t : Nat) : SameBeat s (unboundSlot s t) := by
  simp [unboundSlot]

@[simp] theorem resumeSlot_beat (s : State) (t : Nat) : SameBeat s (resumeSlot s t) := by
  refine beat_foldl (fun s d => ?_) _ s
  split
  · simp
  · split
    · simp
    · split
      · simp
      · dsimp only
        split
        · split
          · next hplace => exact (jit_beat hplace).trans (by simp)
          · simp
        · simp

theorem bindZone_beat {s t : State} {d nsid i k : Nat} {z : Zone} (h : bindZone s d nsid i z = some (t, k)) : SameBeat s t := by
  unfold bindZone at h
  split at h
  · cases h
    simp
  · obtain ⟨_, _, hbound⟩ := Option.map_eq_some_iff.1 h
    cases hbound
    simp

@[simp] theorem bindProg_beat (s : State) (p : Prog) : SameBeat s (bindProg s p).1 := by
  unfold bindProg
  split
  · split
    · split
      · next hbound => exact bindZone_beat hbound
      · simp
    · simp
  · dsimp only
    split <;> simp
  · simp

@[simp] theorem chargeProg_beat (s : State) (p : Prog) (step us : Nat) : SameBeat s (chargeProg s p step us) := by
  unfold chargeProg
  repeat' split
  all_goals simp [addDraw]

@[simp] theorem releaseProg_beat (s : State) (t : Nat) (p : Prog) (step : Nat) : SameBeat s (releaseProg s t p step) := by
  simp [releaseProg]

@[simp] theorem releaseErase_beat (s : State) (t k : Nat) : SameBeat s (releaseErase s t k) := by
  simp [releaseErase]

@[simp] theorem releaseSlot_beat (s : State) (t : Nat) : SameBeat s (releaseSlot s t) := by
  unfold releaseSlot
  split
  · simp
  · refine beat_foldl (fun s d => ?_) _ s
    dsimp only
    repeat' split
    all_goals simp

@[simp] theorem noteOps_beat (s : State) (t : Nat) : SameBeat s (noteOps s t) := by
  simp [noteOps]

/-! ### What goes on at a period's boundary (R174, R254, R257, R317) -/

@[simp] theorem startRebuilds_beat (s : State) : SameBeat s (startRebuilds s) := by
  unfold startRebuilds
  split
  · simp
  · refine beat_foldl (fun s r => ?_) _ s
    split <;> simp

/-- Which slots the search finds plays no part: claims are added. -/
@[simp] theorem standingClaims_beat (s : State) (f : Nat) (cls : LClass) (g d k sixt : Nat) : SameBeat s (standingClaims s f cls g d k sixt) := by
  unfold standingClaims
  generalize firstSlot = search
  refine beat_foldl (fun s j => ?_) _ s
  dsimp only
  split <;> simp

@[simp] theorem grantTwin_beat (s : State) (k : Nat) : SameBeat s (grantTwin s k) := by
  unfold grantTwin
  split
  · simp
  · extract_lets gs cal granted sent
    have hsent : SameBeat s sent := by simp [sent, granted, cal]
    refine hsent.trans (beat_foldl (fun s x => beat_foldl (fun s p => ?_) _ s) _ _)
    exact beat_foldl (fun s c => standingClaims_beat s _ c _ _ _ _) _ s

@[simp] theorem sendFrame_beat (s : State) (reshape : Bool) (kind nsid unit slba nlb : Nat) (key : Nat × Nat) (resetId zstate wp bytes : Nat) :
    SameBeat s (sendFrame s reshape kind nsid unit slba nlb key resetId zstate wp bytes) := by
  simp [sendFrame]

theorem pumpOne_beat {s t : State} (h : pumpOne s = some t) : SameBeat s t := by
  unfold pumpOne at h
  split at h
  · cases h
  · split at h
    · cases h
    · split at h
      · cases h
        simp [setWork]
      · cases h
        split
        · unfold sendZone
          dsimp only
          split <;> simp [setWork]
        · simp [sendUnit, setWork]
        · simp [setWork]

theorem pumpFor_beat (k : Nat) (s : State) : SameBeat s (pumpFor k s) := by
  induction k generalizing s with
  | zero => simp [pumpFor]
  | succ k ih =>
    unfold pumpFor
    split
    · simp
    · next hpump => exact (pumpOne_beat hpump).trans (ih _)

@[simp] theorem addWork_beat (s : State) (l : List Work) : SameBeat s (addWork s l) := pumpFor_beat _ { s with tw := _ }

@[simp] theorem noteMove_beat (s : State) (r : Reshape) (i : Nat) (m : ZRes) : SameBeat s (noteMove s r i m) := by
  unfold noteMove setReshapeZop
  repeat' split
  all_goals simp

@[simp] theorem switchMove_beat (s : State) (nsid i g affinity : Nat) : SameBeat s (switchMove s nsid i g affinity) := by
  simp [switchMove]

@[simp] theorem moveCopies_beat (s : State) (nsid i g : Nat) (z : Zone) : SameBeat s (moveCopies s nsid i g z) := by
  unfold moveCopies
  split
  · simp
  · refine beat_foldl (fun s p => ?_) _ s
    split <;> simp

theorem moveOn_beat (k : Nat) (s : State) (nsid : Nat) : SameBeat s (moveOn k s nsid) := by
  induction k generalizing s with
  | zero => simp [moveOn]
  | succ k ih =>
    unfold moveOn
    split
    · simp
    · split
      · simp
      · dsimp only
        repeat' split
        all_goals simp [ih]

@[simp] theorem resumeMoves_beat (s : State) : SameBeat s (resumeMoves s) := by
  simp [resumeMoves, moveOn_beat]

@[simp] theorem reshapeBoundary_beat (s : State) : SameBeat s (reshapeBoundary s) := by
  simp [reshapeBoundary]

@[simp] theorem startDieCopy_beat (s : State) (d : Nat) : SameBeat s (startDieCopy s d) := by
  unfold startDieCopy
  dsimp only
  repeat' split
  all_goals simp

@[simp] theorem mediaBoundary_beat (s : State) : SameBeat s (mediaBoundary s) := by
  simp [mediaBoundary]

@[simp] theorem switchReshapes_beat (s : State) : SameBeat s (switchReshapes s) := by
  simp [switchReshapes, carryAdmin]

end Sys2Proof.Machine

namespace Sys2Proof.Machine

/-! SUPPORT. The boundaries of the calendar (R157, R179). -/

/-! ### The slot's boundary -/

/-- The slot that begins is counted, and time has come up to it. -/
def slotCounted (s : State) : State := timeTo { s with cal := { s.cal with slot := s.cal.slot + 1 } } ((s.cal.slot + 1) * slotNs)

/-- The calendar's work in the slot that begins at t, where it runs. -/
def slotWork (s : State) (t : Nat) : State :=
  let s := restSlot (releaseClaims (expireClaims (checkRests (takeDescr s (coreRuns s)) t) t) t) t
  let s := unboundSlot (backSlot (copySlot (rebuildSlot s t) t) t) t
  noteOps (releaseSlot (resumeSlot s t) t) t

theorem nextBoundary_eq (s : State) :
    nextBoundary s = if (settleShutdowns (flushHeld (slotCounted s))).cal.running = false then settleShutdowns (flushHeld (slotCounted s))
      else slotWork (settleShutdowns (flushHeld (slotCounted s))) ((s.cal.slot + 1) * slotNs) := by
  simp only [nextBoundary, Bool.not_eq_true']
  rfl

theorem slotWork_beat (s : State) (t : Nat) : SameBeat s (slotWork s t) := by
  simp [slotWork, expireClaims, takeDescr]

theorem slotWork_kept (s : State) (t : Nat) : Kept true true s (slotWork s t) :=
  noteOps_kept t (releaseSlot_kept t (resumeSlot_kept t (unboundSlot_kept t (backSlot_kept t (copySlot_kept t (rebuildSlot_kept t (restSlot_kept t
    (releaseClaims_kept t (expireClaims_kept t (checkRests_kept t (takeDescr_kept _ (Kept.refl s))))))))))))

/-- What follows the count of the slot keeps the beat. -/
theorem nextBoundary_beat (s : State) : SameBeat (slotCounted s) (nextBoundary s) := by
  have hsettled : SameBeat (slotCounted s) (settleShutdowns (flushHeld (slotCounted s))) := by simp
  rw [nextBoundary_eq]
  split
  · exact hsettled
  · exact hsettled.trans (slotWork_beat _ _)

/-- What follows the count of the slot keeps mode, boot state, supply and content. -/
theorem nextBoundary_kept_counted (s : State) : Kept true true (slotCounted s) (nextBoundary s) := by
  have hsettled := settleShutdowns_kept (flushHeld_kept (Kept.refl (K := true) (J := true) (slotCounted s)))
  rw [nextBoundary_eq]
  split
  · exact hsettled
  · exact hsettled.trans (slotWork_kept _ _)

/-- What folds a quiet operation is quiet. -/
theorem quiet_foldl {α : Type} {f : State → α → State} (h : ∀ s x, Quiet s (f s x)) (l : List α) (s : State) : Quiet s (l.foldl f s) := by
  induction l generalizing s with
  | nil => exact .refl s
  | cons x l ih => exact (h s x).trans (ih _)

/-- Held interrupts and settled shutdowns concern the host port alone. -/
theorem settled_quiet (s : State) : Quiet s (settleShutdowns (flushHeld s)) := by
  have hflushed : Quiet s (flushHeld s) := by
    refine quiet_foldl (fun s p => ?_) _ s
    split
    · exact sendVector_quiet (.refl s) _ _
    · exact .refl s
  refine hflushed.trans (quiet_foldl (fun s p => ?_) _ _)
  unfold endShutdown
  split
  · exact setCtrl_quiet (.refl s) _ _
  · exact .refl s

/-- Where the calendar stands still the slot's boundary flushes what is held and settles the shutdowns (R66, R88). -/
theorem nextBoundary_still {s : State} (hstill : s.cal.running = false) : nextBoundary s = settleShutdowns (flushHeld (slotCounted s)) := by
  have hrunning : (settleShutdowns (flushHeld (slotCounted s))).cal.running = false := by
    rw [(settled_quiet _).cal]
    exact hstill
  rw [nextBoundary_eq, if_pos hrunning]

end Sys2Proof.Machine

namespace Sys2Proof.Machine

/-! SUPPORT. What leaves the dies as they are: zones finished and retired, rows ended, records applied (R102, R103, R217, R266, R273). -/

/-- Folding an operation that leaves the dies alone leaves them alone. -/
@[simp] theorem dies_foldl {α : Type} {f : State → α → State} (h : ∀ s x, (f s x).media.dies = s.media.dies) (l : List α) (s : State) :
    (l.foldl f s).media.dies = s.media.dies := foldl_field (·.media.dies) f h l s

/-- Folding an operation that leaves the media alone leaves them alone. -/
@[simp] theorem media_foldl {α : Type} {f : State → α → State} (h : ∀ s x, (f s x).media = s.media) (l : List α) (s : State) :
    (l.foldl f s).media = s.media := foldl_field (·.media) f h l s

/-! ### Zones (R102, R103, R189) -/

@[simp] theorem queuePass_media (s : State) (nsid i : Nat) (z : Zone) (kind : DieOpKind) (wl func step : Nat) :
    (queuePass s nsid i z kind wl func step).media = s.media := by
  unfold queuePass
  split <;> rfl

@[simp] theorem queueLine_media (s : State) (nsid i : Nat) (z : Zone) (wl func step : Nat) : (queueLine s nsid i z wl func step).media = s.media := by
  unfold queueLine
  dsimp only
  repeat' split
  all_goals simp

@[simp] theorem queueTo_media (s : State) (nsid i upTo func step : Nat) : (queueTo s nsid i upTo func step).media = s.media := by
  unfold queueTo
  split <;> simp

@[simp] theorem foldTo_media (s : State) (nsid i upTo func : Nat) : (foldTo s nsid i upTo func).media = s.media := by
  unfold foldTo foldReads
  repeat' split
  all_goals simp

@[simp] theorem queueReady_media (s : State) (nsid i func : Nat) : (queueReady s nsid i func).media = s.media := by
  unfold queueReady
  split
  · rfl
  · dsimp only
    repeat' split
    all_goals simp

@[simp] theorem finishZone_media (s : State) (nsid i : Nat) (byCtrl : Bool) : (finishZone s nsid i byCtrl).media = s.media := by
  unfold finishZone
  split
  · rfl
  · dsimp only
    repeat' split
    all_goals simp

@[simp] theorem noteZone_media (s : State) (nsid i : Nat) : (noteZone s nsid i).media = s.media := by
  unfold noteZone
  dsimp only
  split <;> simp

@[simp] theorem contractZones_media (s : State) (g : Nat) : (contractZones s g).media = s.media := by
  refine media_foldl (fun s x => ?_) _ s
  dsimp only
  repeat' split
  all_goals simp

theorem trimZones_media (k : Nat) (s : State) : (trimZones k s).media = s.media := by
  induction k generalizing s with
  | zero => rfl
  | succ k ih =>
    unfold trimZones
    split
    · rfl
    · dsimp only
      split
      · rfl
      · simp [ih]

/-- A zone placed anew is fetched from the twin; its old sets wait for an erase. -/
@[simp] theorem copyZone_dies (s : State) (nsid i g : Nat) (n : Ns) (z : Zone) : (copyZone s nsid i g n z).media.dies = s.media.dies := by
  simp [copyZone, fetchFromTwin, queueErase]

@[simp] theorem retireGroupZones_dies (s : State) (g : Nat) : (retireGroupZones s g).media.dies = s.media.dies := by
  unfold retireGroupZones
  rw [trimZones_media]
  refine dies_foldl (fun s x => ?_) _ s
  dsimp only
  repeat' split
  all_goals simp

/-! ### Block sets, rows and merges (R200, R217, R273, R275) -/

@[simp] theorem toErase_dies (s : State) (k : Nat) : (toErase s k).media.dies = s.media.dies := by
  unfold toErase
  dsimp only
  split <;> rfl

@[simp] theorem toEraseAll_dies (s : State) (k : Nat) : (toEraseAll s k).media.dies = s.media.dies := by
  simp [toEraseAll]

@[simp] theorem staleMeta_dies (s : State) (g : Nat) : (staleMeta s g).media.dies = s.media.dies := by
  simp [staleMeta]

@[simp] theorem staleStripes_dies (s : State) (g : Nat) : (staleStripes s g).media.dies = s.media.dies := by
  simp [staleStripes]

theorem rowPlace_dies {s t : State} {g b row : Nat} {ns : Option Nat} (h : rowPlace s g ns = some (t, b, row)) : t.media.dies = s.media.dies := by
  cases ns with
  | some n =>
    obtain ⟨m, rfl⟩ := takeRows_opens h
    rfl
  | none =>
    cases h
    rfl

@[simp] theorem releaseRow_dies (s : State) (g : Nat) (ns : Option Nat) : (releaseRow s g ns).media.dies = s.media.dies := by
  unfold releaseRow
  dsimp only
  split
  · rfl
  · split
    · rfl
    · next hplace => exact (rowPlace_dies hplace :)

@[simp] theorem putUnit_dies (s : State) (g : Nat) (ns : Option Nat) (seq u : Nat) : (putUnit s g ns seq u).media.dies = s.media.dies := by
  unfold putUnit
  dsimp only
  split
  · rw [releaseRow_dies]
    rfl
  · rfl

@[simp] theorem appendUnit_dies (nsid : Nat) (s : State) (u : Nat) : (appendUnit nsid s u).media.dies = s.media.dies := by
  unfold appendUnit
  split <;> rfl

@[simp] theorem mergeUnit_dies (nsid : Nat) (s : State) (u : Nat) : (mergeUnit nsid s u).media.dies = s.media.dies := by
  unfold mergeUnit
  split
  · rfl
  · dsimp only
    split
    · rfl
    · next hrows =>
      obtain ⟨m, rfl⟩ := takeRows_opens hrows
      rfl

@[simp] theorem freeLog_dies (s : State) (nsid : Nat) : (freeLog s nsid).media.dies = s.media.dies := by
  unfold freeLog
  split
  · rfl
  · split
    · rfl
    · simp [moduleRecord_media]

@[simp] theorem startMerge_dies (s : State) (nsid : Nat) : (startMerge s nsid).media.dies = s.media.dies := by
  unfold startMerge
  split
  · rfl
  · split
    · rfl
    · simp

@[simp] theorem stageRec_dies (s : State) (seq : Nat) : (stageRec s seq).media.dies = s.media.dies := by
  unfold stageRec
  split
  · rfl
  · split
    · rfl
    · next n _ =>
      dsimp only
      split
      · rfl
      · cases n.zoned <;> split <;> simp

theorem mergeDone_dies (s : State) (j : RowJob) (nsid : Nat) : (mergeDone s j nsid).media.dies = s.media.dies := by
  unfold mergeDone stageWaiting
  split
  · rfl
  · simp [moduleRecord_media]

/-! ### Records applied (R266) -/

@[simp] theorem finish_media (s : State) (slot : Nat) (st : Status) (dw0 dw1 : Nat) (data : List Nat) : (finish s slot st dw0 dw1 data).media = s.media :=
  (finish_ended s slot st dw0 dw1 data).media

@[simp] theorem retire_media (s : State) (q : Nat) : (retire s q).media = s.media := by
  unfold retire
  split <;> rfl

@[simp] theorem retireNs_media (s : State) (nsid : Nat) : (retireNs s nsid).media = s.media := by
  unfold retireNs
  split <;> simp

@[simp] theorem advance_media (s : State) (nsid i endOff func : Nat) : (advance s nsid i endOff func).media = s.media := by
  unfold advance
  split <;> simp

@[simp] theorem markCont_media (s : State) (r : VRec) : (markCont s r).media = s.media := by
  unfold markCont
  split <;> simp

@[simp] theorem storeRec_media (s : State) (r : VRec) : (storeRec s r).media = s.media := by
  refine media_foldl (fun s i => ?_) _ s
  dsimp only
  split <;> simp

@[simp] theorem countHost_dies (s : State) (density kib : Nat) : (countHost s density kib).media.dies = s.media.dies := rfl

@[simp] theorem applyRec_dies (s : State) (q : Nat) : (applyRec s q).media.dies = s.media.dies := by
  unfold applyRec
  split
  · rfl
  · dsimp only
    repeat' split
    all_goals simp

@[simp] theorem settle_dies (s : State) (q : Nat) : (settle s q).media.dies = s.media.dies := by
  unfold settle settleZone
  repeat' split
  all_goals simp

theorem rowDone_dies (s : State) (j : RowJob) : (rowDone s j).media.dies = s.media.dies := by
  unfold rowDone
  dsimp only
  split
  · exact mergeDone_dies _ _ _
  · rw [staleStripes_dies]
    refine (dies_foldl (fun s q => ?_) _ _).trans ?_
    · split
      · rfl
      · split
        · rfl
        · repeat' split
          all_goals simp [ackMirror]
    · rfl

@[simp] theorem endRows_dies (s : State) : (endRows s).media.dies = s.media.dies := by
  simp [endRows, rowDone_dies]

@[simp] theorem refreshCrit_media (s : State) : (refreshCrit s).media = s.media := by
  unfold refreshCrit
  dsimp only
  repeat' split
  all_goals simp

end Sys2Proof.Machine

namespace Sys2Proof.Machine

/-! SUPPORT. A die that fails (R216, R228, R230, R246): it stays failed, and mode, supply and time are as they were. -/

/-- From `c` to `s` the part, the mode, the supply and time are as they were. -/
structure SameRun (c s : State) : Prop where
  part : s.part = c.part
  mode : s.md.mode = c.md.mode
  sup : s.sup = c.sup
  time : s.time = c.time

theorem SameRun.refl (s : State) : SameRun s s := ⟨rfl, rfl, rfl, rfl⟩

theorem SameRun.trans {a b c : State} (h : SameRun a b) (k : SameRun b c) : SameRun a c :=
  ⟨k.part.trans h.part, k.mode.trans h.mode, k.sup.trans h.sup, k.time.trans h.time⟩

theorem Kept.sameRun {J : Bool} {c s : State} (h : Kept true J c s) : SameRun c s :=
  ⟨h.part, (h.core rfl).mode, (h.core rfl).sup, (h.core rfl).time⟩

/-- Dies that are the same in the same part have the same state. -/
theorem SameRun.dieOf {c s : State} (h : SameRun c s) (hdies : s.media.dies = c.media.dies) (d : Nat) : dieOf s d = dieOf c d := by
  unfold Machine.dieOf
  rw [h.part, hdies]

theorem dieOf_setDie_other (s : State) {d k : Nat} (f : Die → Die) (h : d ≠ k) : dieOf (setDie s k f) d = dieOf s d := by
  simp [dieOf, setDie, KV.findD, KV.find_upd_other _ _ _ h]

/-! ### The position of a failed die (R228, R235, R246) -/

/-- A spare that takes over a position is a free one. -/
theorem chooseSpare_free {s : State} {c d : Nat} (h : chooseSpare s c = some d) : (dieOf s d).state = .spareFree := by
  have hfree {x : Nat} (hx : (freeSparesOn s x).head? = some d) : (dieOf s d).state = .spareFree := by
    have hmem := List.mem_of_head? hx
    simpa using (List.mem_filter.1 hmem).2
  unfold chooseSpare at h
  split at h
  · next hhead => exact hfree (hhead.trans h)
  · dsimp only at h
    split at h
    · exact hfree h
    · cases h

theorem moveBody_sameRun (s : State) (g : Nat) : SameRun s (moveBody s g) := by
  unfold moveBody
  split
  · exact .refl s
  · split
    · exact ⟨rfl, rfl, rfl, rfl⟩
    · exact .refl s

@[simp] theorem moveBody_media (s : State) (g : Nat) : (moveBody s g).media = s.media := by
  unfold moveBody
  repeat' split
  all_goals rfl

@[simp] theorem setGrp_dies (s : State) (g : Nat) (f : Grp → Grp) : (setGrp s g f).media.dies = s.media.dies := rfl

theorem unfilled_sameRun (s : State) (g p : Nat) : SameRun s (unfilled s g p) := by
  unfold unfilled
  dsimp only
  split
  · exact (contractZones_kept (J := true) g (record_kept 0x33 _ none 0 0 (moduleRecord_kept 0x21 3 g (setGrp_kept g _ (Kept.refl s))))).sameRun
  · exact ((setGrp_kept (J := true) g _ (Kept.refl s)).sameRun.trans (moveBody_sameRun _ g)).trans
      (retireGroupZones_kept (J := true) g (record_kept 0x33 _ none 0 0 (moduleRecord_kept 0x21 4 g (Kept.refl _)))).sameRun

@[simp] theorem unfilled_dies (s : State) (g p : Nat) : (unfilled s g p).media.dies = s.media.dies := by
  unfold unfilled
  dsimp only
  split <;> simp [moduleRecord_media]

@[simp] theorem joinRebuild_dies (s : State) (g p spare old : Nat) : (joinRebuild s g p spare old).media.dies = s.media.dies := by
  unfold joinRebuild
  dsimp only
  split <;> rfl

/-- The spare that takes a position over, or the group without it. -/
theorem takeOver_sameRun (s : State) (g p old : Nat) : SameRun s (takeOver s g p old) := by
  unfold takeOver
  split
  · exact (unfilled_sameRun s g p).trans (refreshCrit_kept (J := true) (Kept.refl _)).sameRun
  · next d _ =>
    exact (refreshCrit_kept (J := true) (refreshRebuilding_kept (joinRebuild_kept g p d old (record_kept 0x31 _ none 0 0
      (setDie_kept d _ (moduleRecord_kept 0x21 1 g (Kept.refl s))))))).sameRun

/-- A die that has failed takes nothing over. -/
theorem takeOver_failed {s : State} {d : Nat} (h : (dieOf s d).state = .failed) (g p old : Nat) : (dieOf (takeOver s g p old) d).state = .failed := by
  have hrun := takeOver_sameRun s g p old
  cases hspare : chooseSpare s (dieCh s.part old) with
  | none =>
    have hdies : (takeOver s g p old).media.dies = s.media.dies := by simp [takeOver, hspare]
    rwa [hrun.dieOf hdies]
  | some spare =>
    have hother : d ≠ spare := by
      rintro rfl
      simp [chooseSpare_free hspare] at h
    have hdies : (takeOver s g p old).media.dies = (setDie s spare (fun x => { x with state := .spareWriting, group := some g, pos := some p })).media.dies := by
      simp [takeOver, hspare, refreshRebuilding, setDie, moduleRecord_media, moduleRecord_part]
    have hset : SameRun (setDie s spare (fun x => { x with state := .spareWriting, group := some g, pos := some p })) (takeOver s g p old) :=
      ⟨hrun.part, hrun.mode, hrun.sup, hrun.time⟩
    rwa [hset.dieOf hdies, dieOf_setDie_other s _ hother]

/-! ### The die that fails (R216, R228, R246) -/

/-- A die as it is once it has failed. -/
def dieMarked (s : State) (d cause : Nat) : State := setDie s d (fun x => { x with state := .failed, cause := cause, failedBoot := s.boot.boot })

/-- The failure is recorded and what the die was doing is dropped. -/
def dieDropped (s : State) (d cause : Nat) : State :=
  dropDie (record s 0x30 [dieCh s.part d, dieOrd s.part d, cause, (dieOf s d).group.getD 0xFF, (dieOf s d).pos.getD 0xFF]) d

/-- The rebuild a spare that fails was being written for. -/
def rebuildOf (s : State) (g d : Nat) : Option Rebuild := s.media.rebuilds.find? (fun r => r.group == g && r.spares.contains d)

/-- The die whose data a position held before the spare that fails. -/
def originOf (r : Option Rebuild) (d : Nat) : Nat := (r.bind (fun r => ((r.spares.zip r.old).find? (fun y => y.1 == d)).map (·.2))).getD d

/-- A rebuild goes on without a spare that fails, or ends with it. -/
def rebuildCut (s : State) (g p d : Nat) (r : Option Rebuild) : State :=
  match r with
  | some x =>
    if x.positions.length ≤ 1 then { s with media := { s.media with rebuilds := s.media.rebuilds.filter (fun y => y.group != g) } }
    else setRebuild s g (fun y => { y with positions := y.positions.filter (· != p), spares := y.spares.filter (· != d), old := y.old.filter (· != originOf r d) })
  | none => s

/-- A failed die's position is taken over. -/
def positionTaken (s : State) (g p d : Nat) : State := takeOver (rebuildCut s g p d (rebuildOf s g d)) g p (originOf (rebuildOf s g d) d)

/-- What waited for a failed die goes on with the spare that has its position. -/
def workMoved (s : State) (g p d : Nat) (away : List Copy) : State :=
  let spare := (s.media.dies.find? (fun y => y.2.group == some g && y.2.pos == some p && y.2.state == .spareWriting)).map (·.1)
  endRows (away.foldl (fun s c => restartCopy s spare c) (moveProgs (refreshRebuilding s) d spare))

/-- A die that fails is marked, and a position it holds is taken over. -/
theorem failDie_cases {s : State} {d : Nat} (h : (dieOf s d).state ≠ .failed) (cause : Nat) :
    failDie s d cause = dieMarked (dieDropped s d cause) d cause ∨
    ∃ g p away, failDie s d cause = workMoved (positionTaken (dieMarked (dieDropped s d cause) d cause) g p d) g p d away := by
  unfold failDie
  dsimp only
  rw [if_neg h]
  split
  · exact .inl rfl
  · exact .inr ⟨_, _, _, rfl⟩
  · exact .inl rfl

theorem rebuildCut_dies (s : State) (g p d : Nat) (r : Option Rebuild) : (rebuildCut s g p d r).media.dies = s.media.dies := by
  unfold rebuildCut
  repeat' split
  all_goals rfl

theorem rebuildCut_kept (s : State) (g p d : Nat) (r : Option Rebuild) : Kept true true s (rebuildCut s g p d r) := by
  unfold rebuildCut
  split
  · split
    · exact .upd (.refl s) rfl rfl rfl
    · exact setRebuild_kept g _ (.refl s)
  · exact .refl s

theorem positionTaken_sameRun (s : State) (g p d : Nat) : SameRun s (positionTaken s g p d) :=
  (rebuildCut_kept s g p d _).sameRun.trans (takeOver_sameRun _ g p _)

theorem positionTaken_failed {s : State} {d : Nat} (h : (dieOf s d).state = .failed) (g p : Nat) : (dieOf (positionTaken s g p d) d).state = .failed := by
  refine takeOver_failed ?_ g p _
  rwa [(rebuildCut_kept s g p d _).sameRun.dieOf (rebuildCut_dies s g p d _)]

theorem workMoved_sameRun (s : State) (g p d : Nat) (away : List Copy) : SameRun s (workMoved s g p d away) :=
  (endRows_kept (K := true) (Kept.foldl (moveProgs_kept d _ (refreshRebuilding_kept (Kept.refl s))) (fun _ c hk => restartCopy_kept _ c hk))).sameRun

/-- A copy that starts again occupies its dies and leaves what they are. -/
theorem restartCopy_dieOf (s : State) (spare : Option Nat) (c : Copy) (d : Nat) : dieOf (restartCopy s spare c) d = dieOf s d := by
  unfold restartCopy
  split
  · rfl
  · next x =>
    cases chooseSet s x 0 with
    | none => rfl
    | some k => exact startCopy_dieOf s _ _ _ _ _

theorem restartCopies_dieOf (spare : Option Nat) (d : Nat) (away : List Copy) (s : State) : dieOf (away.foldl (fun s c => restartCopy s spare c) s) d = dieOf s d := by
  induction away generalizing s with
  | nil => rfl
  | cons c away ih => exact (ih _).trans (restartCopy_dieOf s spare c d)

theorem workMoved_dieOf (s : State) (g p d : Nat) (away : List Copy) (k : Nat) : dieOf (workMoved s g p d away) k = dieOf s k := by
  rw [workMoved, (endRows_kept (K := true) (Kept.refl _)).sameRun.dieOf (endRows_dies _), restartCopies_dieOf]
  have hmoved (spare : Option Nat) : SameRun s (moveProgs (refreshRebuilding s) d spare) :=
    (moveProgs_kept (J := true) d spare (refreshRebuilding_kept (Kept.refl s))).sameRun
  refine (hmoved _).dieOf ?_ k
  simp [moveProgs, refreshRebuilding]

/-- A die's failure leaves mode, supply and time. -/
theorem failDie_sameRun (s : State) (d cause : Nat) : SameRun s (failDie s d cause) := by
  by_cases h : (dieOf s d).state = .failed
  · simp only [failDie, if_pos h]
    exact .refl s
  · have hmarked : SameRun s (dieMarked (dieDropped s d cause) d cause) :=
      (setDie_kept (J := true) d _ (dropDie_kept d (record_kept 0x30 _ none 0 0 (Kept.refl s)))).sameRun
    obtain hcase | ⟨g, p, away, hcase⟩ := failDie_cases h cause
    · rwa [hcase]
    · rw [hcase]
      exact (hmarked.trans (positionTaken_sameRun _ g p d)).trans (workMoved_sameRun _ g p d away)

/-- A die that fails has failed. -/
theorem failDie_failed (s : State) (d cause : Nat) : (dieOf (failDie s d cause) d).state = .failed := by
  by_cases h : (dieOf s d).state = .failed
  · rwa [failDie, if_pos h]
  · have hmarked : (dieOf (dieMarked (dieDropped s d cause) d cause) d).state = .failed := by
      rw [dieMarked, dieOf_setDie_self]
    obtain hcase | ⟨g, p, away, hcase⟩ := failDie_cases h cause
    · rwa [hcase]
    · rw [hcase, workMoved_dieOf]
      exact positionTaken_failed hmarked g p

end Sys2Proof.Machine

namespace Sys2Proof.Machine

/-! SUPPORT. What a boundary counts and keeps, acknowledgements and the die watchdog (R157, R167, R170, R179). -/

/-! ### The slot's boundary -/

/-- The slot's boundary leads on in every state, to the next slot at its instant. -/
theorem execSlotBoundary_counts (s : State) :
    exec .slotBoundary s = .next (refusedDecrement (nextBoundary s)) ∧ SameBeat (slotCounted s) (refusedDecrement (nextBoundary s)) :=
  ⟨rfl, (nextBoundary_beat s).trans (refusedDecrement_beat _)⟩

/-- Without a refused decrement, or with the rails down, no island fault follows the slot's work (R297). -/
theorem refusedDecrement_none {s : State} (h : s.it.decFault = false ∨ s.sup.rails = false) : refusedDecrement s = s := by
  rw [refusedDecrement, if_neg]
  intro hboth
  obtain ⟨hdec, hrails⟩ := (Bool.and_eq_true _ _).mp hboth
  obtain hno | hdown := h
  · simp [hno] at hdec
  · simp [hdown] at hrails

/-! ### The period's boundary -/

/-- Time has come up to the period that begins. -/
def periodCounted (s : State) : State := timeTo s ((s.cal.period + 1) * periodNs)

/-- The period that begins has renewed what it renews. -/
def periodRenewed (s : State) : State := renewPeriod (startRebuilds (periodCounted s)) (s.cal.period + 1)

/-- The work at the boundary of period `k`, once the period is renewed. -/
def periodWork (s : State) (k : Nat) : State :=
  let s := grantTwin (reshapeBoundary (placeRests s k (k * 1024))) k
  if releasesRun s then (copyDies s).foldl startDieCopy (mediaBoundary s) else s

theorem periodBoundary_eq (s : State) :
    periodBoundary s = if s.cal.running = false then { periodCounted s with cal := { (periodCounted s).cal with period := s.cal.period + 1 } }
      else periodWork (periodRenewed s) (s.cal.period + 1) := by
  simp only [periodBoundary, Bool.not_eq_true']
  rfl

theorem periodWork_beat (s : State) (k : Nat) : SameBeat s (periodWork s k) := by
  have hgranted : SameBeat s (grantTwin (reshapeBoundary (placeRests s k (k * 1024))) k) := by simp
  unfold periodWork
  dsimp only
  split
  · exact hgranted.trans ((mediaBoundary_beat _).trans (beat_foldl (fun s d => startDieCopy_beat s d) _ _))
  · exact hgranted

theorem periodWork_kept (s : State) (k : Nat) : Kept true true s (periodWork s k) := by
  have hgranted : Kept true true s (grantTwin (reshapeBoundary (placeRests s k (k * 1024))) k) :=
    grantTwin_kept k (reshapeBoundary_kept (placeRests_kept k _ (.refl s)))
  unfold periodWork
  dsimp only
  split
  · exact .foldl (mediaBoundary_kept hgranted) (fun _ d hk => startDieCopy_kept d hk)
  · exact hgranted

/-- A renewed period is the one that begins, in the same slot and at the same instant. -/
theorem periodRenewed_counts (s : State) :
    (periodRenewed s).time = (periodCounted s).time ∧ (periodRenewed s).cal.slot = s.cal.slot ∧ (periodRenewed s).cal.period = s.cal.period + 1 := by
  obtain ⟨htime, hslot, -⟩ := startRebuilds_beat (periodCounted s)
  exact ⟨htime, hslot, rfl⟩

/-- A renewed period has the budgets set since the last boundary in force, and none set for the next. -/
theorem periodRenewed_budgets (s : State) :
    (periodRenewed s).cal.budgets = s.cal.nextBudgets.foldl (fun m p => KV.set m p.1 p.2) s.cal.budgets ∧ (periodRenewed s).cal.nextBudgets = [] := by
  obtain ⟨-, -, -, hbudgets, hnext⟩ := startRebuilds_beat (periodCounted s)
  refine ⟨?_, rfl⟩
  show (startRebuilds (periodCounted s)).cal.nextBudgets.foldl (fun m p => KV.set m p.1 p.2) (startRebuilds (periodCounted s)).cal.budgets = _
  rw [hbudgets, hnext]
  rfl

/-- The period's boundary counts the period that begins, at the instant time came up to. -/
theorem periodBoundary_counts (s : State) :
    (periodBoundary s).time = (periodCounted s).time ∧ (periodBoundary s).cal.slot = s.cal.slot ∧ (periodBoundary s).cal.period = s.cal.period + 1 := by
  rw [periodBoundary_eq]
  split
  · exact ⟨rfl, rfl, rfl⟩
  · obtain ⟨htime, hslot, hperiod, -⟩ := periodWork_beat (periodRenewed s) (s.cal.period + 1)
    obtain ⟨htime', hslot', hperiod'⟩ := periodRenewed_counts s
    exact ⟨htime.trans htime', hslot.trans hslot', hperiod.trans hperiod'⟩

/-- What follows time's coming up to the period keeps mode, boot state, supply and content. -/
theorem periodBoundary_kept_counted (s : State) : Kept true true (periodCounted s) (periodBoundary s) := by
  rw [periodBoundary_eq]
  split
  · exact .upd (.refl _) rfl rfl rfl
  · exact (renewPeriod_kept _ (startRebuilds_kept (.refl _))).trans (periodWork_kept (periodRenewed s) _)

/-- What is listed last under a key is found: setting the entries of a table one by one sets each. -/
theorem find_foldl_entries {α : Type} {l : KV α} {k : Nat} {v : α} (hwf : KV.WF l) (h : KV.find l k = some v) (m : KV α) :
    KV.find (l.foldl (fun m p => KV.set m p.1 p.2) m) k = some v := by
  have hkeep (l : KV α) (hout : ∀ p ∈ l, k < p.1) (m : KV α) : KV.find (l.foldl (fun m p => KV.set m p.1 p.2) m) k = KV.find m k := by
    induction l generalizing m with
    | nil => rfl
    | cons p l ih =>
      rw [List.foldl_cons, ih (fun q hq => hout q (List.mem_cons_of_mem _ hq))]
      exact KV.find_set_other _ _ (Nat.ne_of_lt (hout p List.mem_cons_self))
  induction l generalizing m with
  | nil => cases h
  | cons p l ih =>
    obtain ⟨hfirst, hrest⟩ := List.pairwise_cons.1 hwf
    by_cases hp : p.1 = k
    · obtain rfl : p.2 = v := by simpa [KV.find, hp] using h
      rw [List.foldl_cons, hkeep l (fun q hq => hp ▸ hfirst q hq), hp]
      exact KV.find_set_self _ _ _
    · exact ih hrest (by simpa [KV.find, hp] using h) _

/-! ### Acknowledgements and the watchdog (R167, R170) -/

/-- An acknowledgement clears the request. -/
def ackCleared (s : State) (die : Nat) (o : DieOp) : State := setDie s die (fun x => { x with op := some { o with asked := none, ranNs := 0 } })

/-- A late acknowledgement is counted and recorded. -/
def ackLate (s : State) (die ns : Nat) (o : DieOp) : State :=
  let s := ackCleared s die o
  record { s with cal := { s.cal with late := KV.upd s.cal.late die 0 (· + 1) } } 0x34 [dieCh s.part die, dieOrd s.part die, ns]

theorem execSuspendAcknowledge_eq {s : State} {die : Nat} {o : DieOp} {a : Nat} (hop : (dieOf s die).op = some o) (hasked : o.asked = some a) (ns : Nat) :
    execSuspendAcknowledge die ns s = .next (if ns ≤ 20000 then ackCleared s die o
      else if KV.findD (ackLate s die ns o).cal.late die 0 < 3 then ackLate s die ns o else failDie (ackLate s die ns o) die 2) := by
  unfold execSuspendAcknowledge
  simp only [hop, hasked]
  split <;> rfl

/-- The times a die was late in this period, with the one that is recorded. -/
theorem ackLate_late (s : State) (die ns : Nat) (o : DieOp) : KV.findD (ackLate s die ns o).cal.late die 0 = KV.findD s.cal.late die 0 + 1 := by
  rw [ackLate, record_cal, KV.findD, KV.find_upd_self]
  rfl

theorem ackLate_kept (s : State) (die ns : Nat) (o : DieOp) : Kept true true s (ackLate s die ns o) :=
  record_kept 0x34 _ none 0 0 (.upd (setDie_kept die _ (.refl s)) rfl rfl rfl)

/-- A late acknowledgement leaves the die what it is. -/
theorem ackLate_state (s : State) (die ns : Nat) (o : DieOp) : (dieOf (ackLate s die ns o) die).state = (dieOf s die).state := by
  have hrun : SameRun (ackCleared s die o) (ackLate s die ns o) := (record_kept (J := true) 0x34 _ none 0 0 (.upd (.refl _) rfl rfl rfl)).sameRun
  rw [hrun.dieOf (by simp [ackLate]), ackCleared, dieOf_setDie_self]

/-- Settles O39: a slot's or period's work keeps the beat the count set, and a die that fails is marked and stays so while its position is taken over. -/
theorem calendarAndDieWatchdogs : Obligations.CalendarAndDieWatchdogs := by
  unfold Obligations.CalendarAndDieWatchdogs
  refine ⟨?slot, ?slotMode, ?still, ?period, ?budgets, ?inTime, ?third, ?late, ?watchdog, ?early⟩
  case slot =>
    intro s
    obtain ⟨hexec, htime, hslot, hperiod, -⟩ := execSlotBoundary_counts s
    exact ⟨_, hexec, hslot, congrArg Time.dtb htime, hperiod, ((execSlotBoundary_kept (J := true) (.refl s)).next_kept _ rfl).content rfl⟩
  case slotMode =>
    intro s hnone
    have hcore : Core (slotCounted s) (nextBoundary s) := (nextBoundary_kept_counted s).core rfl
    have hno : refusedDecrement (nextBoundary s) = nextBoundary s := refusedDecrement_none (hnone.imp_right (fun hdown => by rwa [hcore.sup]))
    exact ⟨nextBoundary s, congrArg Host.Outcome.next hno, hcore.mode, hcore.boot, hcore.sup⟩
  case still =>
    intro s hstill hdec
    have hdec' : (nextBoundary s).it.decFault = false := by
      rw [nextBoundary_still hstill, (settled_quiet _).it]
      exact hdec
    show Host.Outcome.next (refusedDecrement (nextBoundary s)) = _
    rw [refusedDecrement_none (.inl hdec'), nextBoundary_still hstill]
    rfl
  case period =>
    intro s
    obtain ⟨htime, hslot, hperiod⟩ := periodBoundary_counts s
    obtain ⟨htime', hslot', hperiod', -⟩ := switchReshapes_beat (periodBoundary s)
    have hkept : Kept true true (periodCounted s) (switchReshapes (periodBoundary s)) := switchReshapes_kept (periodBoundary_kept_counted s)
    have hcore := hkept.core rfl
    exact ⟨_, rfl, hperiod'.trans hperiod, congrArg Time.dtb (htime'.trans htime), hslot'.trans hslot, hkept.content rfl, hcore.mode, hcore.boot, hcore.sup⟩
  case budgets =>
    intro s hrunning hwf
    obtain ⟨-, -, -, hbudgets, hnext⟩ := (periodWork_beat (periodRenewed s) (s.cal.period + 1)).trans (switchReshapes_beat _)
    obtain ⟨hbudgets', hnext'⟩ := periodRenewed_budgets s
    have hwork : periodBoundary s = periodWork (periodRenewed s) (s.cal.period + 1) := by
      rw [periodBoundary_eq, if_neg (by simp [hrunning])]
    refine ⟨switchReshapes (periodBoundary s), rfl, ?_, fun f b hf => ?_⟩
    · rw [hwork, hnext, hnext']
    · rw [hwork, hbudgets, hbudgets']
      exact find_foldl_entries hwf hf _
  case inTime =>
    intro s die ns o a hop hasked hns
    exact (execSuspendAcknowledge_eq hop hasked ns).trans (by rw [if_pos hns]; rfl)
  case third =>
    intro s die ns o a hop hasked hns htwice
    have hexec : exec (.suspendAcknowledge die ns) s = .next (failDie (ackLate s die ns o) die 2) := by
      refine (execSuspendAcknowledge_eq hop hasked ns).trans ?_
      rw [if_neg (by omega), ackLate_late, htwice]
      rfl
    have hrun := (ackLate_kept s die ns o).sameRun.trans (failDie_sameRun _ die 2)
    exact ⟨_, hexec, failDie_failed _ die 2, hrun.mode, hrun.sup, hrun.time⟩
  case late =>
    intro s die ns o a hop hasked hns hfew
    have hexec : exec (.suspendAcknowledge die ns) s = .next (ackLate s die ns o) := by
      refine (execSuspendAcknowledge_eq hop hasked ns).trans ?_
      rw [if_neg (by omega), ackLate_late, if_pos (by omega)]
    have hkept := ackLate_kept s die ns o
    exact ⟨_, hexec, ackLate_state s die ns o, ackLate_late s die ns o, hkept.content rfl, hkept.core rfl⟩
  case watchdog =>
    intro s die hran
    have hrun := failDie_sameRun s die 1
    exact ⟨failDie s die 1, if_neg (Nat.not_lt.2 hran), failDie_failed s die 1, hrun.mode, hrun.sup, hrun.time⟩
  case early =>
    intro s die hran
    exact if_pos hran

end Sys2Proof.Machine

namespace Sys2Proof

/-- In a table in order an entry is what is listed under its key. -/
theorem KV.find_of_mem {α : Type} {m : KV α} (hwf : WF m) {p : Nat × α} (h : p ∈ m) : find m p.1 = some p.2 := by
  induction m with
  | nil => cases h
  | cons x m ih =>
    rcases List.mem_cons.1 h with rfl | hmem
    · rw [find, if_pos rfl]
    · have hlt := lt_of_wf hwf hmem
      rw [find, if_neg (by omega), ih (wf_tail hwf) hmem]

theorem KV.wf_adj {α : Type} {m : KV α} (hwf : WF m) (k : Nat) (f : α → α) : WF (adj m k f) := by
  unfold adj WF
  refine List.pairwise_map.2 (hwf.imp fun {a b} hlt => ?_)
  split <;> split <;> exact hlt

/-- Of the keys taken out one after another none is another key. -/
theorem KV.find_foldl_del_other {α : Type} {l : List Nat} {q : Nat} (hq : q ∉ l) (m : KV α) : find (l.foldl del m) q = find m q := by
  induction l generalizing m with
  | nil => rfl
  | cons k l ih =>
    obtain ⟨hne, hl⟩ := List.ne_and_not_mem_of_not_mem_cons hq
    exact (ih hl _).trans (find_del_other m hne)

theorem KV.wf_foldl_del {α : Type} (l : List Nat) {m : KV α} (hwf : WF m) : WF (l.foldl del m) := by
  induction l generalizing m with
  | nil => exact hwf
  | cons k l ih => exact ih (wf_del hwf k)

end Sys2Proof

namespace Sys2Proof.Machine

/-! SUPPORT. Checkpoints, the retention clock and wear (R204, R205, R210, R276, R347). -/

/-! ### Records retired (R276) -/

/-- From `c` to `s` at most records are taken out of the journal. -/
def Retired (c s : State) : Prop :=
  s = { c with jr := { c.jr with recs := s.jr.recs, drainNow := s.jr.drainNow, segs := s.jr.segs } }

theorem Retired.foldl {α : Type} {f : State → α → State} (h : ∀ s x, Retired s (f s x)) (l : List α) (s : State) : Retired s (l.foldl f s) := by
  induction l generalizing s with
  | nil => rfl
  | cons x l ih =>
    have hrest := ih (f s x)
    have hone := h s x
    unfold Retired at *
    rw [List.foldl_cons, hrest, hone]

theorem retire_retired (s : State) (q : Nat) : Retired s (retire s q) := by
  unfold retire
  split <;> rfl

theorem retire_recs (s : State) (q : Nat) : (retire s q).jr.recs = KV.del s.jr.recs q := by
  unfold retire
  split
  · rename_i hq
    exact (KV.del_of_find_none hq).symm
  · rfl

/-- Records retired one after another are taken out of the journal. -/
theorem foldl_retire_recs (l : KV VRec) (s : State) :
    (l.foldl (fun s p => retire s p.1) s).jr.recs = (l.map (fun p => p.1)).foldl KV.del s.jr.recs := by
  induction l generalizing s with
  | nil => rfl
  | cons p l ih => rw [List.foldl_cons, ih, retire_recs]; rfl

theorem foldl_retire_wf {s : State} (hwf : KV.WF s.jr.recs) (l : KV VRec) : KV.WF (l.foldl (fun s p => retire s p.1) s).jr.recs := by
  rw [foldl_retire_recs]
  exact KV.wf_foldl_del _ hwf

/-- Retiring the records that a test names leaves one that it does not name. -/
theorem foldl_retire_find {s : State} (hwf : KV.WF s.jr.recs) {q : Nat} {r : VRec} (hr : KV.find s.jr.recs q = some r)
    {test : Nat × VRec → Bool} (htest : test (q, r) = false) :
    KV.find ((s.jr.recs.filter test).foldl (fun s p => retire s p.1) s).jr.recs q = some r := by
  rw [foldl_retire_recs, KV.find_foldl_del_other, hr]
  intro hmem
  obtain ⟨p, hp, rfl⟩ := List.mem_map.1 hmem
  obtain ⟨hlisted, hnamed⟩ := List.mem_filter.1 hp
  have hsame : some r = some p.2 := hr.symm.trans (KV.find_of_mem hwf hlisted)
  cases hsame
  exact absurd hnamed (by rw [htest]; decide)

/-- What records taken out leave: the checkpoints, the SEQ to be given next and the other parts. -/
structure CheckpointStands (c s : State) : Prop where
  number : s.jr.ckpt = c.jr.ckpt
  covers : s.jr.ckptSeq = c.jr.ckptSeq
  instant : s.jr.ckptAt = c.jr.ckptAt
  seq : s.jr.seq = c.jr.seq
  zn : s.zn = c.zn
  port : s.port = c.port
  media : s.media = c.media

theorem Retired.stands {c s : State} (h : Retired c s) : CheckpointStands c s := by
  unfold Retired at h
  rw [h]
  exact ⟨rfl, rfl, rfl, rfl, rfl, rfl, rfl⟩

theorem retireCovered_retired (s : State) (below : Nat) : Retired s (retireCovered s below) := by
  have hfirst := Retired.foldl (fun (s : State) (p : Nat × VRec) => retire_retired s p.1)
    (s.jr.recs.filter (fun p => p.1 < below && p.2.completed && p.2.typ ≠ 0x30 && 0x10 ≤ p.2.typ)) s
  have hsecond := Retired.foldl (fun (s : State) (p : Nat × VRec) => retire_retired s p.1)
  unfold retireCovered
  dsimp only
  unfold Retired at *
  rw [hsecond, hfirst]

/-- A checkpoint retires no record that is not yet applied, but for those of the erases it covers (R276). -/
theorem retireCovered_find {s : State} (hwf : KV.WF s.jr.recs) {q : Nat} {r : VRec} (hr : KV.find s.jr.recs q = some r)
    (hopen : r.completed = false) (htyp : r.typ ≠ 0x30) (below : Nat) : KV.find (retireCovered s below).jr.recs q = some r := by
  unfold retireCovered
  dsimp only
  refine foldl_retire_find (foldl_retire_wf hwf _) (foldl_retire_find hwf hr ?_) ?_
  · simp [hopen]
  · simp [htyp]

/-! ### Records formed (R261) -/

theorem placeRec_recs (s : State) (core pages seq : Nat) : (placeRec s core pages seq).1.jr.recs = s.jr.recs := by
  unfold placeRec
  split
  · rfl
  · dsimp only
    split <;> rfl

theorem movePlace_wf {s : State} (hwf : KV.WF s.jr.recs) (q : Nat) : KV.WF (movePlace s q).jr.recs := by
  unfold movePlace
  split
  · exact hwf
  · dsimp only
    rw [placeRec_recs]
    exact KV.wf_adj hwf _ _

theorem compactSegs_wf (k : Nat) {s : State} (hwf : KV.WF s.jr.recs) : KV.WF (compactSegs k s).jr.recs := by
  induction k generalizing s with
  | zero => exact hwf
  | succ k ih =>
    unfold compactSegs
    split
    · exact hwf
    · split
      · exact hwf
      · refine ih (List.foldlRecOn (motive := fun u : State => KV.WF u.jr.recs) _ _ ?_ fun u hu q _ => movePlace_wf hu q)
        exact hwf

theorem openSession_open {s : State} (hopen : s.jr.session = true) : openSession s = s := by
  simp [openSession, hopen]

/-- In an open session a record formed leaves the table of records in order. -/
theorem formRecord_wf {s : State} (hopen : s.jr.session = true) (hwf : KV.WF s.jr.recs) (core : Nat) (r : VRec) :
    KV.WF (formRecord s core r).1.jr.recs := by
  unfold formRecord
  rw [openSession_open hopen]
  refine compactSegs_wf 240 ?_
  dsimp only
  rw [placeRec_recs]
  exact KV.wf_set hwf _ _

/-- In an open session a record formed leaves every record under another SEQ but for its place in the region. -/
theorem formRecord_find_other {s : State} (hopen : s.jr.session = true) {q : Nat} {x : VRec} (hx : KV.find s.jr.recs q = some x)
    (hq : q ≠ s.jr.seq) (core : Nat) (r : VRec) : ∃ p, KV.find (formRecord s core r).1.jr.recs q = some { x with page0 := p } := by
  unfold formRecord
  rw [openSession_open hopen]
  refine (compactSegs_moved 240 _).recs q x ?_
  dsimp only
  rw [placeRec_recs, KV.find_set_other _ _ hq, hx]

/-! ### Checkpoints (R276, R347) -/

/-- The record of a checkpoint. -/
def ckptRec (s : State) : VRec := { typ := 0x40, action := s.jr.ckpt + 1, arg := s.jr.seq, durable := true, acked := true, completed := true }

/-- A checkpoint's record formed and its number, SEQ and instant kept. -/
def ckptNoted (s : State) : State :=
  let u := (formRecord s mgmtCore (ckptRec s)).1
  { u with jr := { u.jr with ckpt := s.jr.ckpt + 1, ckptSeq := s.jr.seq, ckptAt := u.time.dtb, ckpts := ((s.jr.ckpt + 1, (s.jr.ckpt + 1) % u.part.groups) :: u.jr.ckpts).take 3 } }

theorem checkpoint_eq (s : State) : checkpoint s = retireCovered (ckptNoted s) s.jr.seq := rfl

theorem ckptNoted_recs (s : State) : (ckptNoted s).jr.recs = (formRecord s mgmtCore (ckptRec s)).1.jr.recs := rfl

/-- A checkpoint taken from a state. -/
structure CheckpointTaken (c s : State) : Prop where
  number : s.jr.ckpt = c.jr.ckpt + 1
  covers : s.jr.ckptSeq = c.jr.seq
  seq : s.jr.seq = c.jr.seq + 1
  instant : s.jr.ckptAt = c.time.dtb
  zn : s.zn = c.zn
  port : s.port = c.port
  media : s.media = c.media

theorem ckptNoted_taken (s : State) : CheckpointTaken s (ckptNoted s) := by
  have hseq := formRecord_seq s mgmtCore (ckptRec s)
  unfold ckptNoted
  constructor
  case seq => exact hseq
  case number => rfl
  case covers => rfl
  all_goals
    dsimp only
    rw [formRecord_frame]

theorem checkpoint_taken (s : State) : CheckpointTaken s (checkpoint s) := by
  obtain ⟨hnumber, hcovers, hseq, hinstant, hzn, hport, hmedia⟩ := ckptNoted_taken s
  have hstands := (retireCovered_retired (ckptNoted s) s.jr.seq).stands
  rw [checkpoint_eq]
  exact ⟨hstands.number.trans hnumber, hstands.covers.trans hcovers, hstands.seq.trans hseq, hstands.instant.trans hinstant,
    hstands.zn.trans hzn, hstands.port.trans hport, hstands.media.trans hmedia⟩

/-- In an open session a checkpoint leaves every record not yet applied but for its place in the region. -/
theorem checkpoint_find {s : State} (hopen : s.jr.session = true) (hwf : KV.WF s.jr.recs) {q : Nat} {r : VRec} (hr : KV.find s.jr.recs q = some r)
    (happlied : r.completed = false) (htyp : r.typ ≠ 0x30) (hq : q ≠ s.jr.seq) : ∃ p, KV.find (checkpoint s).jr.recs q = some { r with page0 := p } := by
  obtain ⟨p, hp⟩ := formRecord_find_other hopen hr hq mgmtCore (ckptRec s)
  have hwf' := formRecord_wf hopen hwf mgmtCore (ckptRec s)
  rw [← ckptNoted_recs] at hp hwf'
  rw [checkpoint_eq]
  exact ⟨p, retireCovered_find hwf' hp happlied htyp _⟩

theorem execCheckpointInterval_due {s : State} (hopen : s.jr.session = true) (hdue : s.jr.ckptAt + 30000000000 ≤ s.time.dtb) :
    execCheckpointInterval s = .next (checkpoint s) := by
  simp [execCheckpointInterval, hopen, hdue]

theorem execCheckpointInterval_early {s : State} (h : s.jr.session = false ∨ s.time.dtb < s.jr.ckptAt + 30000000000) : execCheckpointInterval s = .next s := by
  unfold execCheckpointInterval
  rcases h with h | h
  · simp [h]
  · rw [if_neg (by simp; omega)]

/-! ### The retention clock (R204, R205) -/

/-- From `c` to `s` at most the media and the calendar change. -/
def MediaOnly (c s : State) : Prop := s = { c with media := s.media, cal := s.cal }

theorem MediaOnly.trans {a b c : State} (h : MediaOnly a b) (k : MediaOnly b c) : MediaOnly a c := by
  unfold MediaOnly at *
  rw [k, h]

theorem MediaOnly.foldl {α : Type} {f : State → α → State} (h : ∀ s x, MediaOnly s (f s x)) (l : List α) (s : State) : MediaOnly s (l.foldl f s) := by
  induction l generalizing s with
  | nil => rfl
  | cons x l ih => exact (h s x).trans (ih _)

theorem queueRefresh_mediaOnly (s : State) (k prio : Nat) : MediaOnly s (queueRefresh s k prio) := by
  unfold queueRefresh
  dsimp only
  split <;> rfl

theorem queueAged_mediaOnly (s : State) : MediaOnly s (queueAged s) := by
  unfold queueAged
  exact MediaOnly.foldl (fun s x => queueRefresh_mediaOnly s _ 4) _ s

theorem toErase_mediaOnly (s : State) (k : Nat) : MediaOnly s (toErase s k) := by
  unfold toErase
  dsimp only
  split <;> rfl

theorem renewReference_mediaOnly (s : State) (c : Nat) : MediaOnly s (renewReference s c) := by
  unfold renewReference
  dsimp only
  split
  · rfl
  · split
    · rfl
    · exact MediaOnly.trans (b := { s with media := _ }) rfl (toErase_mediaOnly _ _)

/-- The retention clock a sixteenth of a day on, and saved. -/
def clockAdvanced (s : State) : State := { s with time := { s.time with rd := s.time.rd + 1, rdSaved := s.time.rd + 1, sealedSave := false } }

/-- Beside the clock itself an increment changes the media and the calendar's reads alone. -/
theorem execRetentionClockIncrement_advances {s : State} (hrails : s.sup.rails = true) (shifts worn : List Nat) :
    ∃ t, execRetentionClockIncrement shifts worn s = .next t ∧ MediaOnly (clockAdvanced s) t := by
  unfold execRetentionClockIncrement
  rw [if_neg (by simp [hrails])]
  refine ⟨_, rfl, ?_⟩
  dsimp only
  have hshifts := MediaOnly.foldl (fun (s : State) c => (rfl : MediaOnly s { s with media := { s.media with
    chans := KV.upd s.media.chans c { rate := 5, pkgOk := 7 } (fun x =>
      { x with refShift := shifts.getD c x.refShift, refShiftSaved := shifts.getD c x.refShift }) } })) (List.range 32) (clockAdvanced s)
  have hrenewed (u : State) (l : List Nat) : MediaOnly u (queueAged (l.foldl renewReference (readReferences u))) :=
    MediaOnly.trans (b := readReferences u) rfl ((MediaOnly.foldl renewReference_mediaOnly l _).trans (queueAged_mediaOnly _))
  split
  · exact (hshifts.trans (hrenewed _ _)).trans rfl
  · exact hshifts.trans (hrenewed _ _)

/-! ### Wear (R210) -/

/-- The percentage used that the mean wears give. -/
def wearPercent (s : State) : Nat := min 255 (100 * max (wearMean s [.zone] 1936) (wearMean s [.staging, .metaMap, .metaLog, .system, .landing] 110) / 600000)

/-- The percentage used is renewed; only its change is shown in the controller status. -/
theorem execPercentageUsedUpdate_renews (s : State) :
    ∃ t, execPercentageUsedUpdate s = .next t ∧ t = { s with media := t.media, adm := t.adm } ∧ t.media.pctUsed = wearPercent s ∧
      (t.media.pctUsed = s.media.pctUsed → t.adm = s.adm) := by
  refine ⟨_, rfl, ?_, rfl, fun hsame => ?_⟩
  · dsimp only
    split <;> rfl
  · dsimp only at hsame ⊢
    rw [if_pos hsame]

/-! ### The obligation -/

/-- Settles O42, by the record that a checkpoint forms and those it retires, and by what the clock and the wear leave alone. -/
theorem checkpointsRetentionAndWear : Obligations.CheckpointsRetentionAndWear := by
  unfold Obligations.CheckpointsRetentionAndWear
  refine ⟨?taken, fun s h => execCheckpointInterval_early h, ?clock, ?wear⟩
  case taken =>
    intro s hopen hdue
    obtain ⟨hnumber, hcovers, hseq, hinstant, hzn, hport, hmedia⟩ := checkpoint_taken s
    have hcore : Core s (checkpoint s) := (checkpoint_kept (K := true) (J := true) (Kept.refl s)).core rfl
    exact ⟨_, execCheckpointInterval_due hopen hdue, hnumber, hcovers, hseq, hinstant,
      fun hwf q r hr happlied htyp hq => checkpoint_find hopen hwf hr happlied htyp hq, hzn, hport, hmedia, hcore⟩
  case clock =>
    intro s shifts worn hrails
    obtain ⟨t, hexec, hrest⟩ := execRetentionClockIncrement_advances hrails shifts worn
    refine ⟨t, hexec, ?_⟩
    rw [hrest]
    exact ⟨rfl, rfl, rfl, rfl, rfl, rfl, rfl, rfl, rfl⟩
  case wear =>
    intro s
    obtain ⟨t, hexec, hparts, hpct, hsame⟩ := execPercentageUsedUpdate_renews s
    refine ⟨t, hexec, hpct, hsame, ?_⟩
    rw [hparts]
    exact ⟨rfl, rfl, rfl, rfl, rfl, rfl, rfl, rfl⟩

end Sys2Proof.Machine

namespace Sys2Proof.Machine

/-! SUPPORT. Reads of the dies (R201 to R204, R213, R226, R227, R239). -/

/-! ### What reads, retries and their claims leave alone -/

/-- From `c` to `s` the namespaces, the journal and the commands stand. -/
structure ReadKept (c s : State) : Prop where
  zn : s.zn = c.zn
  jr : s.jr = c.jr
  cmds : s.port.cmds = c.port.cmds

theorem ReadKept.trans {a b c : State} (h : ReadKept a b) (k : ReadKept b c) : ReadKept a c :=
  ⟨k.zn.trans h.zn, k.jr.trans h.jr, k.cmds.trans h.cmds⟩

theorem MediaOnly.readKept {c s : State} (h : MediaOnly c s) : ReadKept c s := by
  unfold MediaOnly at h
  rw [h]
  exact ⟨rfl, rfl, rfl⟩

theorem countReads_mediaOnly (s : State) (k n : Nat) : MediaOnly s (countReads s k n) := rfl

theorem placeSoft_mediaOnly {s t : State} {slot : Option Nat} {d tr : Nat} (h : placeSoft s slot d tr = some t) : MediaOnly s t := by
  unfold placeSoft at h
  dsimp only at h
  split at h
  · cases h
    split
    · rfl
    · split <;> rfl
  · cases h

theorem drawSoft_mediaOnly (s : State) (d : Nat) : MediaOnly s (drawSoft s d) := by
  unfold drawSoft
  dsimp only
  split <;> rfl

theorem placeStripe_mediaOnly (s : State) (slot d : Nat) (x : Need) : MediaOnly s (placeStripe s slot d x) := by
  refine MediaOnly.foldl (fun s p => ?_) _ s
  dsimp only
  split <;> rfl

theorem learn_readKept (s : State) (k : Nat) : ReadKept s (learn s k) := ⟨rfl, rfl, rfl⟩

theorem learn_dieOf (s : State) (k d : Nat) : dieOf (learn s k) d = dieOf s d := rfl

theorem queueRefresh_dieOf (s : State) (k prio d : Nat) : dieOf (queueRefresh s k prio) d = dieOf s d := by
  unfold queueRefresh
  dsimp only
  split <;> rfl

theorem grownBad_readKept (s : State) (k plane cont : Nat) : ReadKept s (grownBad s k plane cont) := by
  unfold grownBad
  dsimp only
  exact ⟨record_zn _ _ _ _ _ _, record_jr _ _ _ _ _ _, record_cmds_port _ _ _ _ _ _⟩

/-- A soft read that fails is noted on its set, which is queued for a refresh; a second page may make the block bad (R213, R217). -/
theorem softFailed_readKept (s : State) (k page plane : Nat) : ReadKept s (softFailed s k page plane) := by
  unfold softFailed
  dsimp only
  generalize hu : setDie _ _ _ = u
  have hnoted : ReadKept s u := by
    rw [← hu]
    exact ⟨rfl, rfl, rfl⟩
  have hqueued := hnoted.trans (queueRefresh_mediaOnly u k 1).readKept
  split
  · exact hqueued.trans (grownBad_readKept _ _ _ _)
  · exact hqueued

/-! ### A die that answers (R28, R101) -/

/-- A command once a die has answered it. -/
def Cmd.answered (c : Cmd) (d : Nat) : Cmd :=
  { c with dies := c.dies.filter (· != d), stage := if (c.dies.filter (· != d)).isEmpty && c.stage == .dieRequested then .dieDone else c.stage }

theorem dieAnswered_find {s : State} {slot : Nat} {c : Cmd} (hc : KV.find s.port.cmds slot = some c) (d : Nat) :
    KV.find (dieAnswered s slot d).port.cmds slot = some (c.answered d) := by
  have hset := setCmd_find_self hc fun x => { x with
    dies := c.dies.filter (· != d), stage := if (c.dies.filter (· != d)).isEmpty && c.stage == .dieRequested then .dieDone else x.stage }
  unfold dieAnswered Cmd.answered
  rw [hc]
  dsimp only at hset ⊢
  split
  · exact hset
  · exact hset

/-- An answer changes the command, and begins its transfer. -/
theorem dieAnswered_frame (s : State) (slot d : Nat) :
    dieAnswered s slot d = { s with port := (dieAnswered s slot d).port, it := (dieAnswered s slot d).it } := by
  unfold dieAnswered
  split
  · rfl
  · dsimp only
    split <;> rfl

/-- A host's own read is not ended by the answer: its data is still to be delivered. -/
theorem endTwinRead_own {s : State} {slot : Nat} {c : Cmd} (hc : KV.find s.port.cmds slot = some c) (hown : c.fromTwin = false) : endTwinRead s slot = s := by
  simp [endTwinRead, hc, hown]

/-- What a die's answer makes of a state for a host's own read. -/
theorem endTwinRead_answered {s : State} {slot : Nat} {c : Cmd} (hc : KV.find s.port.cmds slot = some c) (hown : c.fromTwin = false) (d : Nat) :
    endTwinRead (dieAnswered s slot d) slot = dieAnswered s slot d :=
  endTwinRead_own (dieAnswered_find hc d) hown

/-! ### Page reads (R201, R203, R204) -/

/-- The reads counted on the set a command's zone has on a die, and the refresh that many errors ask for. -/
def pageCounted (s : State) (c : Cmd) (die errs : Nat) : State :=
  match readSet s c die with
  | some k => countReads (if 96 < errs then queueRefresh s k 2 else s) k (max 1 (needOn s c die).reads.length)
  | none => s

theorem pageCounted_mediaOnly (s : State) (c : Cmd) (die errs : Nat) : MediaOnly s (pageCounted s c die errs) := by
  unfold pageCounted
  split
  · refine MediaOnly.trans ?_ (countReads_mediaOnly _ _ _)
    split
    · exact queueRefresh_mediaOnly _ _ _
    · rfl
  · rfl

theorem execDieReadComplete_decoded {s : State} {slot : Nat} {c : Cmd} (hc : KV.find s.port.cmds slot = some c) (hwaits : c.dies ≠ []) (die errs : Nat) :
    execDieReadComplete (some slot) die 0 errs s = .next (endTwinRead (dieAnswered (pageCounted s c die errs) slot die) slot) := by
  unfold execDieReadComplete
  dsimp only
  rw [hc]
  dsimp only
  rw [if_neg (by simpa using hwaits), if_pos rfl]
  rfl

/-- A page read with a failing codeword leads to a soft read or the stripe's survivors: claims and what they cost. -/
theorem execDieReadComplete_failing {s : State} {slot fails : Nat} {c : Cmd} (hc : KV.find s.port.cmds slot = some c) (hwaits : c.dies ≠ []) (hfails : fails ≠ 0)
    (die errs : Nat) : ∃ t, execDieReadComplete (some slot) die fails errs s = .next t ∧ MediaOnly s t := by
  have hcounted := pageCounted_mediaOnly s c die errs
  have hexec : execDieReadComplete (some slot) die fails errs s =
      match placeSoft (pageCounted s c die errs) (some slot) die (needTr (pageCounted s c die errs) die (needOn s c die)) with
      | some u => .next (drawSoft u die)
      | none => .next (placeStripe (pageCounted s c die errs) slot die (needOn s c die)) := by
    unfold execDieReadComplete
    dsimp only
    rw [hc]
    dsimp only
    rw [if_neg (by simpa using hwaits), if_neg hfails]
    rfl
  cases hplaced : placeSoft (pageCounted s c die errs) (some slot) die (needTr (pageCounted s c die errs) die (needOn s c die)) with
  | some u =>
    rw [hplaced] at hexec
    exact ⟨_, hexec, (hcounted.trans (placeSoft_mediaOnly hplaced)).trans (drawSoft_mediaOnly _ _)⟩
  | none =>
    rw [hplaced] at hexec
    exact ⟨_, hexec, hcounted.trans (placeStripe_mediaOnly _ _ _ _)⟩

/-! ### Soft reads (R202, R213) -/

/-- A soft read counted on its die, and what it teaches of its set. -/
def softTried (s : State) (k : Option Nat) (die : Nat) : State :=
  let u := setDie s die (fun x => { x with softRetries := x.softRetries + 1 })
  k.elim u (fun k => learn u k)

theorem softTried_readKept (s : State) (k : Option Nat) (die : Nat) : ReadKept s (softTried s k die) := by
  cases k with
  | none => exact ⟨rfl, rfl, rfl⟩
  | some k => exact ReadKept.trans (b := setDie s die _) ⟨rfl, rfl, rfl⟩ (learn_readKept _ k)

theorem softTried_dieOf (s : State) (k : Option Nat) (die : Nat) : dieOf (softTried s k die) die = { dieOf s die with softRetries := (dieOf s die).softRetries + 1 } := by
  cases k with
  | none => exact dieOf_setDie_self s die _
  | some k => exact (learn_dieOf _ k die).trans (dieOf_setDie_self s die _)

/-- What a soft read that decodes makes of the set's refresh. -/
def softRefreshed (s : State) (k : Option Nat) (die : Nat) : State :=
  k.elim (softTried s k die) (fun i => queueRefresh (softTried s k die) i 2)

theorem softRefreshed_readKept (s : State) (k : Option Nat) (die : Nat) : ReadKept s (softRefreshed s k die) := by
  have htried := softTried_readKept s k die
  cases k with
  | none => exact htried
  | some i => exact htried.trans (queueRefresh_mediaOnly _ i 2).readKept

theorem softRefreshed_dieOf (s : State) (k : Option Nat) (die : Nat) : dieOf (softRefreshed s k die) die = { dieOf s die with softRetries := (dieOf s die).softRetries + 1 } := by
  rw [← softTried_dieOf s k die]
  cases k with
  | none => rfl
  | some i => exact queueRefresh_dieOf _ i 2 die

/-- What a soft read that does not decode makes of its set. -/
def softLost (s : State) (k : Option Nat) (die page plane : Nat) : State :=
  k.elim (softTried s k die) (fun i => softFailed (softTried s k die) i page plane)

theorem softLost_readKept (s : State) (k : Option Nat) (die page plane : Nat) : ReadKept s (softLost s k die page plane) := by
  have htried := softTried_readKept s k die
  cases k with
  | none => exact htried
  | some i => exact htried.trans (softFailed_readKept _ i page plane)

theorem execSoftRetryComplete_decoded {s : State} {slot : Nat} {c : Cmd} (hc : KV.find s.port.cmds slot = some c) (die page plane : Nat) :
    execSoftRetryComplete (some slot) die page plane true s = .next (endTwinRead (dieAnswered (softRefreshed s (readSet s c die) die) slot die) slot) := by
  unfold execSoftRetryComplete
  simp only [Option.bind_some, hc, if_true]
  rfl

theorem execSoftRetryComplete_failed {s : State} {slot : Nat} {c : Cmd} (hc : KV.find s.port.cmds slot = some c) (die page plane : Nat) :
    execSoftRetryComplete (some slot) die page plane false s =
      .next (placeStripe (softLost s (readSet s c die) die page plane) slot die (needOn (softLost s (readSet s c die) die page plane) c die)) := by
  unfold execSoftRetryComplete
  simp only [Option.bind_some, hc, Bool.false_eq_true, if_false]
  rfl

/-! ### Stripes (R226, R227, R239) -/

/-- From `c` to `s` the commands and the twin's part stand. -/
structure CmdsKept (c s : State) : Prop where
  cmds : s.port.cmds = c.port.cmds
  tw : s.tw = c.tw

theorem CmdsKept.trans {a b c : State} (h : CmdsKept a b) (k : CmdsKept b c) : CmdsKept a c := ⟨k.cmds.trans h.cmds, k.tw.trans h.tw⟩

theorem CmdsKept.foldl {α : Type} {f : State → α → State} (h : ∀ s x, CmdsKept s (f s x)) (l : List α) (s : State) : CmdsKept s (l.foldl f s) := by
  induction l generalizing s with
  | nil => exact ⟨rfl, rfl⟩
  | cons x l ih => exact (h s x).trans (ih _)

theorem refreshCrit_tw (s : State) : (refreshCrit s).tw = s.tw := by
  unfold refreshCrit
  dsimp only
  repeat' split
  all_goals simp

theorem lossNotice_cmdsKept (s : State) (nsid : Nat) (a : List Nat) : CmdsKept s (lossNotice s nsid a) := by
  unfold lossNotice
  split
  · exact ⟨rfl, rfl⟩
  · have hrecorded : CmdsKept s (record s 0x36 a none nsid) := ⟨record_cmds_port _ _ _ _ _ _, record_tw _ _ _ _ _ _⟩
    have hraised := CmdsKept.foldl (fun s f => ⟨raiseAen_cmds_port s f 7 0xC4 0xC4, raiseAen_tw s f 7 0xC4 0xC4⟩)
    exact (hrecorded.trans (hraised _ _)).trans ⟨refreshCrit_cmds _, refreshCrit_tw _⟩

theorem listLost_cmdsKept (s : State) (nsid slba count cause group : Nat) (repairable : Bool) :
    CmdsKept s (listLost s nsid slba count cause group repairable) := by
  refine CmdsKept.foldl (fun s x => ?_) _ s
  unfold listExtent
  dsimp only
  have hnoticed := lossNotice_cmdsKept
  exact ⟨(hnoticed _ _ _).cmds, (hnoticed _ _ _).tw⟩

/-- Outside Service a lost LBA is listed; nothing is fetched from the twin (R239). -/
theorem loseLba_cmdsKept {s : State} (hmode : s.md.mode ≠ .service) (nsid slba group cause slot : Nat) : CmdsKept s (loseLba s nsid slba group cause slot) := by
  unfold loseLba
  split
  · exact ⟨rfl, rfl⟩
  · rw [if_neg (by simp [canFetch, hmode])]
    exact listLost_cmdsKept _ _ _ _ _ _ _

theorem execStripeReconstructionComplete_rebuilt {s : State} {slot er : Nat} {c : Cmd} (hc : KV.find s.port.cmds slot = some c) (her : er ≤ 2)
    (die nsid : Nat) (lost : List Nat) :
    execStripeReconstructionComplete (some slot) die er nsid lost s = .next (endTwinRead (dieAnswered s slot die) slot) := by
  have hfew : ¬ 2 < er := by omega
  unfold execStripeReconstructionComplete
  simp only [hc, if_pos her, hfew, decide_false, Bool.false_and, Bool.false_eq_true, if_false]

/-- A lost LBA of the command itself, which no fetch brings back, ends it with Unrecovered Read Error (R239). -/
theorem execStripeReconstructionComplete_lost {s : State} {slot er l : Nat} {c : Cmd} (hc : KV.find s.port.cmds slot = some c) (her : 2 < er)
    (hmode : s.md.mode ≠ .service) (hfetches : s.tw.fetches = []) (hlow : c.slba ≤ l) (hhigh : l < c.slba + c.nlb) (die : Nat) :
    execStripeReconstructionComplete (some slot) die er c.nsid [l] s =
      .next (endTwinRead (setCmd (dieAnswered (loseLba s c.nsid l (dieGroup s die) 1 slot) slot die) slot (fun c => { c with result := .unrecoveredRead })) slot) := by
  have hlost := loseLba_cmdsKept hmode c.nsid l (dieGroup s die) 1 slot
  have hnone : (dieAnswered (loseLba s c.nsid l (dieGroup s die) 1 slot) slot die).tw.fetches = [] := by
    rw [dieAnswered_frame]
    exact (congrArg Twin.fetches hlost.tw).trans hfetches
  unfold execStripeReconstructionComplete
  simp only [hc, if_neg (Nat.not_le.2 her), List.foldl_cons, List.foldl_nil]
  rw [if_pos (by simp [hnone, her, hlow, hhigh])]

/-! ### The obligation -/

/-- Settles O40, by what a die's answer makes of the command that waits and by the parts that reads, retries and their claims leave alone. -/
theorem dieReads : Obligations.DieReads := by
  unfold Obligations.DieReads
  refine ⟨?decoded, ?failing, ?soft, ?softFailed, ?rebuilt, ?lost, fun s die bset errs hfew => if_pos hfew, ?disturbed⟩
  case decoded =>
    intro s slot die errs k c hc hwaits hown hset herrs
    have hcounted := (pageCounted_mediaOnly s c die errs).readKept
    have hc' : KV.find (pageCounted s c die errs).port.cmds slot = some c := by rw [hcounted.cmds, hc]
    have hexec := execDieReadComplete_decoded hc hwaits die errs
    rw [endTwinRead_answered hc' hown] at hexec
    have hcore := ((execDieReadComplete_kept (K := true) (J := true) _ _ _ _ (Kept.refl s)).next_kept _ hexec).core rfl
    refine ⟨_, hexec, dieAnswered_find hc' die, ?_, ?_, ?_, hcore⟩
    · have hreads : pageCounted s c die errs = countReads s k (max 1 (needOn s c die).reads.length) := by
        simp [pageCounted, hset, Nat.not_lt.2 herrs]
      rw [dieAnswered_frame, hreads]
      exact congrArg BSet.reads (bsetOf_setBset_self s k _)
    · rw [dieAnswered_frame]
      exact hcounted.zn
    · rw [dieAnswered_frame]
      exact hcounted.jr
  case failing =>
    intro s slot die fails errs c hc hwaits hfails
    obtain ⟨t, hexec, hmedia⟩ := execDieReadComplete_failing hc hwaits hfails die errs
    have hcore := ((execDieReadComplete_kept (K := true) (J := true) _ _ _ _ (Kept.refl s)).next_kept _ hexec).core rfl
    obtain ⟨hzn, hjr, hcmds⟩ := hmedia.readKept
    exact ⟨t, hexec, by rw [hcmds, hc], hzn, hjr, hcore⟩
  case soft =>
    intro s slot die page plane c hc hown
    have htried := softRefreshed_readKept s (readSet s c die) die
    have hc' : KV.find (softRefreshed s (readSet s c die) die).port.cmds slot = some c := by rw [htried.cmds, hc]
    have hexec := execSoftRetryComplete_decoded hc die page plane
    rw [endTwinRead_answered hc' hown] at hexec
    have hcore := ((execSoftRetryComplete_kept (K := true) (J := true) _ _ _ _ _ (Kept.refl s)).next_kept _ hexec).core rfl
    refine ⟨_, hexec, ⟨_, dieAnswered_find hc' die, rfl⟩, ?_, ?_, ?_, hcore⟩
    · rw [dieAnswered_frame]
      exact congrArg Die.softRetries (softRefreshed_dieOf s _ die)
    · rw [dieAnswered_frame]
      exact htried.zn
    · rw [dieAnswered_frame]
      exact htried.jr
  case softFailed =>
    intro s slot die page plane c hc
    have hexec := execSoftRetryComplete_failed hc die page plane
    have hcore := ((execSoftRetryComplete_kept (K := true) (J := true) _ _ _ _ _ (Kept.refl s)).next_kept _ hexec).core rfl
    obtain ⟨hzn, hjr, hcmds⟩ := (softLost_readKept s (readSet s c die) die page plane).trans (placeStripe_mediaOnly _ slot die _).readKept
    exact ⟨_, hexec, by rw [hcmds, hc], hzn, hjr, hcore⟩
  case rebuilt =>
    intro s slot die er nsid lost c hc hown her
    have hexec := execStripeReconstructionComplete_rebuilt hc her die nsid lost
    rw [endTwinRead_answered hc hown] at hexec
    have hcore := ((execStripeReconstructionComplete_kept (K := true) (J := true) _ _ _ _ _ (Kept.refl s)).next_kept _ hexec).core rfl
    refine ⟨_, _, hexec, dieAnswered_find hc die, rfl, rfl, ?_, ?_, hcore⟩
    all_goals rw [dieAnswered_frame]
  case lost =>
    intro s slot die er l c hc hown her hmode hfetches hlow hhigh
    have hlost := loseLba_cmdsKept hmode c.nsid l (dieGroup s die) 1 slot
    have hanswered := dieAnswered_find (hlost.cmds ▸ hc : KV.find (loseLba s c.nsid l (dieGroup s die) 1 slot).port.cmds slot = some c) die
    have hended := setCmd_find_self hanswered (fun c => { c with result := .unrecoveredRead })
    have hexec := execStripeReconstructionComplete_lost hc her hmode hfetches hlow hhigh die
    rw [endTwinRead_own hended hown] at hexec
    exact ⟨_, _, hexec, hended, rfl⟩
  case disturbed =>
    intro s die bset hmany
    have hfew : ¬ (bsetOf s (setKey die bset)).reads < readLimit (bsetOf s (setKey die bset)).mode := Nat.not_lt.2 hmany
    refine ⟨(if_neg hfew).trans (if_pos rfl), _, (if_neg hfew).trans (if_neg Bool.false_ne_true), ?_, rfl⟩
    exact congrArg BSet.reads (bsetOf_setBset_self s (setKey die bset) _)

end Sys2Proof.Machine

namespace Sys2Proof.Machine

/-! SUPPORT. What leaves the twin's presence and the mount of the event journal's area alone (R41, R348, R420): the sense input, the link, an unpairing. -/

/-- What decides where a Recovery leads (R348), and whether the event journal's area is mounted (R420). -/
def peerView (s : State) : (Bool × Bool × Bool) × Bool := ((s.tw.senseIn, s.tw.linkUp, s.tw.unpaired), s.ev.mounted)

theorem peerView_of {s t : State} (htw : t.tw = s.tw) (hev : t.ev = s.ev) : peerView t = peerView s := by
  unfold peerView
  rw [htw, hev]

theorem peerView_foldl {α : Type} {f : State → α → State} (h : ∀ s x, peerView (f s x) = peerView s) (l : List α) (s : State) :
    peerView (l.foldl f s) = peerView s := foldl_field peerView f h l s

@[simp] theorem media_peerView (s : State) (m : Media) : peerView { s with media := m } = peerView s := rfl
@[simp] theorem setNs_peerView (s : State) (nsid : Nat) (f : Ns → Ns) : peerView (setNs s nsid f) = peerView s := rfl
@[simp] theorem setZone_peerView (s : State) (nsid i : Nat) (f : Zone → Zone) : peerView (setZone s nsid i f) = peerView s := rfl
@[simp] theorem setRec_peerView (s : State) (q : Nat) (f : VRec → VRec) : peerView (setRec s q f) = peerView s := rfl
@[simp] theorem setGrp_peerView (s : State) (g : Nat) (f : Grp → Grp) : peerView (setGrp s g f) = peerView s := rfl
@[simp] theorem setBset_peerView (s : State) (k : Nat) (f : BSet → BSet) : peerView (setBset s k f) = peerView s := rfl
@[simp] theorem setCtrl_peerView (s : State) (func : Nat) (f : Ctrl → Ctrl) : peerView (setCtrl s func f) = peerView s := rfl
@[simp] theorem ccsSet_peerView (s : State) (k : Nat) : peerView (ccsSet s k) = peerView s := rfl

/-! ### Completions, events, messages, flags -/

@[simp] theorem complete_peerView (s : State) (func sqid cid : Nat) (st : Status) (dw0 dw1 : Nat) (data : List Nat) :
    peerView (complete s func sqid cid st dw0 dw1 data) = peerView s := peerView_of (complete_tw _ _ _ _ _ _ _ _) (complete_ev _ _ _ _ _ _ _ _)

@[simp] theorem raiseAen_peerView (s : State) (func typ info log : Nat) : peerView (raiseAen s func typ info log) = peerView s :=
  peerView_of (raiseAen_tw _ _ _ _ _) (raiseAen_ev _ _ _ _ _)

@[simp] theorem raiseAll_peerView (s : State) (typ info log : Nat) : peerView (raiseAll s typ info log) = peerView s :=
  peerView_of (raiseAll_tw _ _ _ _) (raiseAll_ev _ _ _ _)

/-- An event is written, lost or suppressed; the area it goes to stays mounted as it is. -/
@[simp] theorem record_peerView (s : State) (typ : Nat) (payload : List Nat) (func : Option Nat) (nsid key : Nat) :
    peerView (record s typ payload func nsid key) = peerView s := by
  unfold record
  dsimp only
  split
  · rfl
  · split <;> split
    · exact raiseAll_peerView _ _ _ _
    · rfl
    · exact raiseAll_peerView _ _ _ _
    · rfl

@[simp] theorem send_peerView (s : State) (typ tag : Nat) (body : List Nat) : peerView (send s typ tag body) = peerView s := by
  have hflits (t : Twin) (cls n : Nat) : ((formFlits t cls n).senseIn, (formFlits t cls n).linkUp, (formFlits t cls n).unpaired) = (t.senseIn, t.linkUp, t.unpaired) :=
    formFlits_field t cls n (fun t => (t.senseIn, t.linkUp, t.unpaired)) fun _ => rfl
  have hsealed : (sealMsg s typ tag body).ev = s.ev := by
    unfold sealMsg
    split <;> rfl
  unfold send
  split
  · refine Prod.ext ?_ (congrArg Events.mounted hsealed)
    dsimp only [peerView]
    split
    · rfl
    · exact hflits _ _ _
  · rfl

@[simp] theorem setFlags_peerView (s : State) (f : ModeSt → ModeSt) : peerView (setFlags s f) = peerView s := by
  unfold setFlags noteFlags
  split <;> split
  · rfl
  · exact record_peerView _ _ _ _ _ _
  · rfl
  · exact record_peerView _ _ _ _ _ _

@[simp] theorem completeFor_peerView (s : State) (owner cid : Nat) (st : Status) (dw0 : Nat) (data : List Nat) :
    peerView (completeFor s owner cid st dw0 data) = peerView s := by
  unfold completeFor
  split <;> simp

/-! ### The end of a command (R30, R86) -/

@[simp] theorem missEvent_peerView (s : State) (c : Cmd) (late : Nat) : peerView (missEvent s c late) = peerView s := by
  unfold missEvent
  split <;> simp

@[simp] theorem withoutCmd_peerView (s : State) (slot : Nat) (c : Cmd) : peerView (withoutCmd s slot c) = peerView s :=
  peerView_of (by simp [withoutCmd]) (by simp [withoutCmd])

@[simp] theorem setLedger_peerView (s : State) (func row : Nat) (f : Ledger → Ledger) : peerView (setLedger s func row f) = peerView s := rfl

@[simp] theorem endCmd_peerView (s : State) (slot : Nat) (st : Status) (dw0 dw1 : Nat) (data : List Nat) : peerView (endCmd s slot st dw0 dw1 data) = peerView s := by
  cases hc : KV.find s.port.cmds slot with
  | none => simp [endCmd, hc]
  | some c =>
    rw [endCmd_eq hc]
    split
    · simp
    · split <;> simp

@[simp] theorem wakeFlushes_peerView (s : State) (slot : Nat) : peerView (wakeFlushes s slot) = peerView s := by
  unfold wakeFlushes
  exact (peerView_foldl (fun s _ => endCmd_peerView s _ _ _ _ _) _ _).trans rfl

@[simp] theorem endDelete_peerView (s : State) (func sqid : Nat) : peerView (endDelete s func sqid) = peerView s := by
  unfold endDelete
  repeat' split
  · rfl
  · rfl
  · rfl
  · exact complete_peerView _ _ _ _ _ _ _ _

@[simp] theorem endShutdown_peerView (s : State) (func : Nat) : peerView (endShutdown s func) = peerView s := by
  unfold endShutdown
  split <;> simp

@[simp] theorem tcgFor_peerView (s : State) (owner cid result : Nat) : peerView (tcgFor s owner cid result) = peerView s := by
  unfold tcgFor tcgResult
  split
  · exact complete_peerView _ _ _ _ _ _ _ _
  · rfl

@[simp] theorem endInjection_peerView (s : State) (func cid : Nat) (ok : Bool) : peerView (endInjection s func cid ok) = peerView s := by
  unfold endInjection
  split <;> simp

@[simp] theorem keys_peerView (s : State) (k : Keys) : peerView { s with keys := k } = peerView s := rfl

@[simp] theorem inject_peerView (s : State) (w : KeyWait) : peerView (inject s w) = peerView s := by
  unfold inject putInjected
  repeat' split
  all_goals simp

@[simp] theorem settleKeys_peerView (s : State) : peerView (settleKeys s) = peerView s := by
  unfold settleKeys
  split
  · rfl
  · exact (peerView_foldl inject_peerView _ _).trans rfl

@[simp] theorem finish_peerView (s : State) (slot : Nat) (st : Status) (dw0 dw1 : Nat) (data : List Nat) : peerView (finish s slot st dw0 dw1 data) = peerView s := by
  unfold finish afterEnd
  split <;> simp

/-! ### Records (R261, R266, R276) -/

@[simp] theorem formRecord_peerView (s : State) (core : Nat) (r : VRec) : peerView (formRecord s core r).1 = peerView s :=
  formRecord_field peerView (fun _ _ _ => rfl) s core r

@[simp] theorem moduleRecord_peerView (s : State) (typ action arg : Nat) : peerView (moduleRecord s typ action arg) = peerView s := formRecord_peerView s _ _

@[simp] theorem retire_peerView (s : State) (q : Nat) : peerView (retire s q) = peerView s := by
  unfold retire
  split <;> rfl

@[simp] theorem retireNs_peerView (s : State) (nsid : Nat) : peerView (retireNs s nsid) = peerView s := by
  unfold retireNs
  split
  · rfl
  · exact peerView_foldl (fun s _ => retire_peerView s _) _ s

@[simp] theorem retireCovered_peerView (s : State) (below : Nat) : peerView (retireCovered s below) = peerView s := by
  rw [retireCovered_retired]
  rfl

@[simp] theorem checkpoint_peerView (s : State) : peerView (checkpoint s) = peerView s := by
  rw [checkpoint_eq, retireCovered_peerView]
  exact formRecord_peerView s mgmtCore (ckptRec s)

@[simp] theorem removeRec_peerView (s : State) (q : Nat) : peerView (removeRec s q) = peerView s := by
  unfold removeRec
  split
  · rfl
  · dsimp only
    split <;> split
    · exact send_peerView _ _ _ _
    · rfl
    · exact send_peerView _ _ _ _
    · rfl

/-! ### Passes of a zone (R189) -/

@[simp] theorem queuePass_peerView (s : State) (nsid i : Nat) (z : Zone) (kind : DieOpKind) (wl func step : Nat) :
    peerView (queuePass s nsid i z kind wl func step) = peerView s := by
  unfold queuePass
  split <;> rfl

@[simp] theorem queueLine_peerView (s : State) (nsid i : Nat) (z : Zone) (wl func step : Nat) : peerView (queueLine s nsid i z wl func step) = peerView s := by
  unfold queueLine
  dsimp only
  repeat' split
  all_goals simp

@[simp] theorem queueTo_peerView (s : State) (nsid i upTo func step : Nat) : peerView (queueTo s nsid i upTo func step) = peerView s := by
  unfold queueTo
  split
  · rfl
  · exact (peerView_foldl (fun s k => queueLine_peerView s _ _ _ _ _ _) _ _).trans (setZone_peerView _ _ _ _)

@[simp] theorem foldTo_peerView (s : State) (nsid i upTo func : Nat) : peerView (foldTo s nsid i upTo func) = peerView s := by
  have hreads (lo hi : Nat) : peerView (foldReads s nsid i lo hi) = peerView s := by
    unfold foldReads
    split
    · rfl
    · refine peerView_foldl (fun s k => ?_) _ _
      rfl
  unfold foldTo
  split
  · rfl
  · rw [queueTo_peerView, hreads]

@[simp] theorem queueReady_peerView (s : State) (nsid i func : Nat) : peerView (queueReady s nsid i func) = peerView s := by
  unfold queueReady
  split
  · rfl
  · dsimp only
    repeat' split
    all_goals simp

@[simp] theorem advance_peerView (s : State) (nsid i endOff func : Nat) : peerView (advance s nsid i endOff func) = peerView s := by
  unfold advance
  split
  · rfl
  · exact (queueReady_peerView _ _ _ _).trans (setZone_peerView _ _ _ _)

/-! ### Records applied (R266) -/

@[simp] theorem markCont_peerView (s : State) (r : VRec) : peerView (markCont s r) = peerView s := by
  unfold markCont
  split <;> rfl

@[simp] theorem storeRec_peerView (s : State) (r : VRec) : peerView (storeRec s r) = peerView s := by
  unfold storeRec
  refine peerView_foldl (fun s i => ?_) _ _
  dsimp only
  split <;> rfl

@[simp] theorem countHost_peerView (s : State) (density kib : Nat) : peerView (countHost s density kib) = peerView s := rfl

@[simp] theorem applyRec_peerView (s : State) (q : Nat) : peerView (applyRec s q) = peerView s := by
  unfold applyRec
  split
  · rfl
  · dsimp only
    repeat' split
    all_goals simp

@[simp] theorem settle_peerView (s : State) (q : Nat) : peerView (settle s q) = peerView s := by
  have hzone (nsid i : Nat) : peerView (settleZone s nsid i) = peerView s := peerView_foldl (fun s _ => applyRec_peerView s _) _ s
  unfold settle
  repeat' split
  all_goals simp [hzone]

/-! ### Block sets, rows and merges (R200, R217, R273, R275) -/

@[simp] theorem toErase_peerView (s : State) (k : Nat) : peerView (toErase s k) = peerView s := by
  unfold toErase
  dsimp only
  split <;> rfl

@[simp] theorem toEraseAll_peerView (s : State) (k : Nat) : peerView (toEraseAll s k) = peerView s := peerView_foldl toErase_peerView _ s

@[simp] theorem staleMeta_peerView (s : State) (g : Nat) : peerView (staleMeta s g) = peerView s :=
  peerView_foldl (fun s b => peerView_foldl (fun s d => toEraseAll_peerView s (setKey d b)) _ s) _ s

@[simp] theorem staleStripes_peerView (s : State) (g : Nat) : peerView (staleStripes s g) = peerView s :=
  peerView_foldl (fun s t => peerView_foldl (fun s d => toEraseAll_peerView s (setKey d (1936 + t))) _ s) _ s

theorem rowPlace_peerView {s t : State} {g b row : Nat} {ns : Option Nat} (h : rowPlace s g ns = some (t, b, row)) : peerView t = peerView s := by
  cases ns with
  | some n =>
    obtain ⟨m, rfl⟩ := takeRows_opens h
    rfl
  | none =>
    cases h
    rfl

@[simp] theorem queueRow_peerView (s : State) (j : RowJob) (base lines : Nat) : peerView (queueRow s j base lines) = peerView s := rfl

@[simp] theorem releaseRow_peerView (s : State) (g : Nat) (ns : Option Nat) : peerView (releaseRow s g ns) = peerView s := by
  unfold releaseRow
  dsimp only
  split
  · rfl
  · split
    · rfl
    · next hplace => simp [rowPlace_peerView hplace]

@[simp] theorem putUnit_peerView (s : State) (g : Nat) (ns : Option Nat) (seq u : Nat) : peerView (putUnit s g ns seq u) = peerView s := by
  unfold putUnit
  dsimp only
  split <;> simp

@[simp] theorem appendUnit_peerView (nsid : Nat) (s : State) (u : Nat) : peerView (appendUnit nsid s u) = peerView s := by
  unfold appendUnit
  split <;> rfl

@[simp] theorem mergeUnit_peerView (nsid : Nat) (s : State) (u : Nat) : peerView (mergeUnit nsid s u) = peerView s := by
  unfold mergeUnit
  split
  · rfl
  · dsimp only
    split
    · rfl
    · next hrows =>
      obtain ⟨m, rfl⟩ := takeRows_opens hrows
      rfl

@[simp] theorem freeLog_peerView (s : State) (nsid : Nat) : peerView (freeLog s nsid) = peerView s := by
  unfold freeLog
  split
  · rfl
  · split <;> simp

@[simp] theorem startMerge_peerView (s : State) (nsid : Nat) : peerView (startMerge s nsid) = peerView s := by
  unfold startMerge
  split
  · rfl
  · split
    · rfl
    · rw [freeLog_peerView, peerView_foldl (mergeUnit_peerView nsid), setNs_peerView]

@[simp] theorem stageRec_peerView (s : State) (seq : Nat) : peerView (stageRec s seq) = peerView s := by
  have happended (nsid : Nat) (l : List Nat) (u : State) : peerView (l.foldl (appendUnit nsid) u) = peerView u := peerView_foldl (appendUnit_peerView nsid) l u
  have hput (g : Nat) (ns : Option Nat) (l : List Nat) (u : State) : peerView (l.foldl (fun s x => putUnit s g ns seq x) u) = peerView u :=
    peerView_foldl (fun s x => putUnit_peerView s g ns seq x) l u
  unfold stageRec
  split
  · rfl
  · split
    · rfl
    · next n _ =>
      dsimp only
      split
      · rfl
      · cases n.zoned <;> split <;> simp [happended, hput]

@[simp] theorem stageZone_peerView (s : State) (nsid i : Nat) : peerView (stageZone s nsid i) = peerView s := by
  unfold stageZone
  split
  · rfl
  · split
    · rfl
    · exact (peerView_foldl (fun s _ => stageRec_peerView s _) _ _).trans (setZone_peerView _ _ _ _)

@[simp] theorem afterApply_peerView (s : State) (q : Nat) : peerView (afterApply s q) = peerView s := by
  unfold afterApply
  split
  · rfl
  · split
    · rfl
    · split
      · rfl
      · dsimp only
        repeat' split
        all_goals simp

@[simp] theorem checkRelief_peerView (s : State) : peerView (checkRelief s) = peerView s := by
  have hrelieved (k : Nat) (u : State) : peerView (relieve k u) = peerView u := by
    induction k generalizing u with
    | zero => rfl
    | succ k ih =>
      unfold relieve
      split
      · rfl
      · split
        · rfl
        · exact (ih _).trans (stageZone_peerView _ _ _)
  unfold checkRelief
  split
  · exact hrelieved _ s
  · rfl

@[simp] theorem placeApplied_peerView (s : State) : peerView (placeApplied s) = peerView s :=
  (checkRelief_peerView _).trans (peerView_foldl (fun s _ => afterApply_peerView s _) _ s)

@[simp] theorem settleStaging_peerView (s : State) (nsid i : Nat) : peerView (settleStaging s nsid i) = peerView s := by
  unfold settleStaging
  split
  · rfl
  · dsimp only
    split <;> rfl

@[simp] theorem confirmZone_peerView (s : State) (nsid i : Nat) : peerView (confirmZone s nsid i) = peerView s := by
  unfold confirmZone
  split
  · rfl
  · dsimp only
    split
    · rfl
    · simp

/-! ### Copies and moves (R215, R257) -/

@[simp] theorem dropDone_peerView (s : State) : peerView (dropDone s) = peerView s := rfl

@[simp] theorem startCopy_peerView (s : State) (kind : CopyKind) (src dstDie dst : Nat) : peerView (startCopy s kind src dstDie dst) = peerView s := by
  unfold startCopy
  dsimp only
  exact (peerView_foldl (fun s k => setBset_peerView s k _) _ _).trans rfl

@[simp] theorem switchCopy_peerView (s : State) (c : Copy) : peerView (switchCopy s c) = peerView s := by
  unfold switchCopy
  dsimp only
  refine (toEraseAll_peerView _ _ : peerView (toEraseAll _ _) = _).trans ?_
  exact (peerView_foldl (fun s k => setBset_peerView s k _) _ _).trans (moduleRecord_peerView _ _ _ _)

@[simp] theorem sourceBack_peerView (s : State) (c : Copy) : peerView (sourceBack s c) = peerView s :=
  peerView_foldl (fun s k => setBset_peerView s k _) _ s

@[simp] theorem moveCopies_peerView (s : State) (nsid i g : Nat) (z : Zone) : peerView (moveCopies s nsid i g z) = peerView s := by
  unfold moveCopies
  split
  · rfl
  · refine peerView_foldl (fun s p => ?_) _ _
    split <;> simp

@[simp] theorem setReshapeZop_peerView (s : State) (r : Reshape) (f : ZopRec → ZopRec) : peerView (setReshapeZop s r f) = peerView s := rfl

@[simp] theorem noteMove_peerView (s : State) (r : Reshape) (i : Nat) (m : ZRes) : peerView (noteMove s r i m) = peerView s := by
  unfold noteMove
  split
  · rfl
  · split <;> simp

@[simp] theorem endCancel_peerView (s : State) (r : Reshape) : peerView (endCancel s r) = peerView s := by
  unfold endCancel
  cases r.cancelCid <;> cases r.cancelTag <;> simp

@[simp] theorem dropReshapeWork_peerView (s : State) (nsid : Nat) : peerView (dropReshapeWork s nsid) = peerView s := rfl

@[simp] theorem endReshape_peerView (s : State) (nsid : Nat) (st : Status) : peerView (endReshape s nsid st) = peerView s := by
  unfold endReshape
  split
  · rfl
  · dsimp only
    split <;> simp

@[simp] theorem switchMove_peerView (s : State) (nsid i g affinity : Nat) : peerView (switchMove s nsid i g affinity) = peerView s := by
  unfold switchMove
  dsimp only
  split <;> simp

@[simp] theorem moveOn_peerView (k : Nat) (s : State) (nsid : Nat) : peerView (moveOn k s nsid) = peerView s := by
  induction k generalizing s with
  | zero => rfl
  | succ k ih =>
    unfold moveOn
    split
    · rfl
    · split
      · rfl
      · split
        · rfl
        · split
          · simp
          · split
            · simp
            · extract_lets i z on permitted
              have hon (t : State) : peerView (on t) = peerView t := rfl
              split
              · simp [ih, hon]
              · split
                · simp [ih, hon]
                · dsimp only
                  split <;> simp [ih, hon]

@[simp] theorem moveCopied_peerView (s : State) (c : Copy) : peerView (moveCopied s c) = peerView s := by
  have hset (f : Copy → Copy) : peerView (setCopy s c.id f) = peerView s := rfl
  unfold moveCopied
  dsimp only
  split
  · rfl
  · split
    · exact (peerView_foldl switchCopy_peerView _ _).trans (hset _)
    · rw [moveOn_peerView, setNs_peerView, noteMove_peerView, switchMove_peerView, peerView_foldl switchCopy_peerView, hset]

@[simp] theorem continueIn_peerView (s : State) (k c first : Nat) : peerView (continueIn s k c first) = peerView s := rfl

@[simp] theorem goOn_peerView (s : State) (k c first : Nat) : peerView (goOn s k c first) = peerView s := by
  unfold goOn
  dsimp only
  split <;> simp

@[simp] theorem continueSet_peerView (s : State) (k wl : Nat) : peerView (continueSet s k wl) = peerView s := by
  unfold continueSet
  cases chooseSet s (k / 2048) 0 <;> simp

/-! ### Lost LBAs (R239) -/

@[simp] theorem refreshCrit_peerView (s : State) : peerView (refreshCrit s) = peerView s := by
  have hcrit (u : State) (w : BitVec 8) : peerView { u with adm := { u.adm with critWarn := w } } = peerView u := rfl
  unfold refreshCrit
  dsimp only
  repeat' split
  all_goals simp [hcrit]

@[simp] theorem lossNotice_peerView (s : State) (nsid : Nat) (a : List Nat) : peerView (lossNotice s nsid a) = peerView s := by
  unfold lossNotice
  split
  · rfl
  · rw [refreshCrit_peerView, peerView_foldl (fun s f => raiseAen_peerView s f _ _ _), record_peerView]

@[simp] theorem listLost_peerView (s : State) (nsid slba count cause group : Nat) (repairable : Bool) :
    peerView (listLost s nsid slba count cause group repairable) = peerView s := by
  refine peerView_foldl (fun s x => ?_) _ s
  exact lossNotice_peerView _ _ _

end Sys2Proof.Machine

namespace Sys2Proof.Machine

/-! SUPPORT. The end of a Recovery (R207, R348, R349) and the Almanac's entry (R368, R369). -/

/-! ### What a Recovery does leaves mode, time, the peer and the mount alone -/

/-- From `c` to `s` mode and time stand, but for what the bank and load decide of the mode, and so do the twin's presence and the mount. -/
structure Recovering (c s : State) : Prop where
  md : s.md.still = c.md.still
  time : s.time = c.time
  peer : peerView s = peerView c

theorem Recovering.trans {a b c : State} (h : Recovering a b) (k : Recovering b c) : Recovering a c :=
  ⟨k.md.trans h.md, k.time.trans h.time, k.peer.trans h.peer⟩

theorem Kept.recovering {J : Bool} {c s : State} (h : Kept true J c s) (hpeer : peerView s = peerView c) : Recovering c s :=
  ⟨(h.core rfl).md, (h.core rfl).time, hpeer⟩

theorem Recovering.mode {c s : State} (h : Recovering c s) : s.md.mode = c.md.mode := by
  have hmode := congrArg (fun m : ModeSt => m.mode) h.md
  exact hmode

theorem Recovering.path {c s : State} (h : Recovering c s) : s.md.path = c.md.path := by
  have hpath := congrArg (fun m : ModeSt => m.path) h.md
  exact hpath

theorem Recovering.recoveryScan {c s : State} (h : Recovering c s) : s.md.recoveryScan = c.md.recoveryScan := by
  have hrecoveryScan := congrArg (fun m : ModeSt => m.recoveryScan) h.md
  exact hrecoveryScan

theorem MediaOnly.peerView {c s : State} (h : MediaOnly c s) : peerView s = peerView c := by
  unfold MediaOnly at h
  rw [h]
  rfl

/-! ### The flash searched (R349, R350) -/

@[simp] theorem classify_peerView (s : State) (ckpt : Bool) (k : Nat) (erased : Bool) : peerView (classify s ckpt k erased) = peerView s := by
  unfold classify
  split
  · rfl
  · dsimp only
    split <;> simp

@[simp] theorem searchPointers_peerView (s : State) : peerView (searchPointers s) = peerView s := by
  unfold searchPointers
  dsimp only
  rw [peerView_foldl fun s x => confirmZone_peerView s _ _]
  exact peerView_foldl (fun s x => setBset_peerView s _ _) _ s

@[simp] theorem scanFlash_peerView (s : State) (path : Nat) (scan : List (Nat × Bool)) : peerView (scanFlash s path scan) = peerView s := by
  unfold scanFlash
  split
  · rfl
  · rw [searchPointers_peerView]
    exact peerView_foldl (fun s x => classify_peerView s _ _ _) scan s

@[simp] theorem keepShifts_peerView (s : State) (shifts : List Nat) (save : Bool) : peerView (keepShifts s shifts save) = peerView s := by
  refine peerView_foldl (fun s c => ?_) _ s
  rfl

/-! ### The gap (R207) -/

theorem applyGap_frame (s : State) (gap : Option Nat) : applyGap s gap = { s with time := (applyGap s gap).time, media := (applyGap s gap).media } := by
  unfold applyGap
  split
  · rfl
  · dsimp only
    split
    · rfl
    · split <;> rfl

/-- A gap that was due and that the references give advances the retention clock by it. -/
theorem applyGap_advances {s : State} {e : Nat} (hdue : s.time.gapDue = true) (he : e ≤ 17520) :
    (applyGap s (some e)).time.rd = s.time.rd + BitVec.ofNat 32 e ∧ (applyGap s (some e)).time.gap = some e ∧ (applyGap s (some e)).time.gapDue = false := by
  have hmin : min e (1095 * 16) = e := Nat.min_eq_left he
  unfold applyGap
  rw [if_neg (by simp [hdue])]
  dsimp only
  rw [hmin]
  split <;> exact ⟨rfl, rfl, rfl⟩

/-! ### The journal replayed and what was under way resolved (R349) -/

/-- A record that cannot be read loses the LBAs it had written where they are not on flash. -/
def loseReplayed (x : State × Nat) (p : Nat × VRec) : State × Nat :=
  match nsOf x.1 p.2.nsid with
  | some n =>
    if p.2.completed && 1 ≤ p.2.typ && p.2.typ ≤ 3 && !onFlash x.1 n p.2 then
      let s := listLost x.1 p.2.nsid p.2.slba p.2.nlb 3 0x3F n.mirrored
      ((List.range p.2.nlb).foldl (fun s i => storeLba s p.2.nsid (p.2.slba + i) { readLba s p.2.nsid (p.2.slba + i) with lost := true }) s,
        x.2 + p.2.nlb * unitsPerLba n.flbas)
    else x
  | none => x

/-- The journal without the records that cannot be read, their LBAs lost. -/
def readableRecs (s : State) (bad : List Nat) : State :=
  let lost := s.jr.recs.filter (fun p => bad.contains p.1)
  (lost.foldl loseReplayed (lost.foldl (fun s p => removeRec s p.1) s, 0)).1

/-- Every record of the journal durable and free of its command, no pass of a zone queued. -/
def recsAsRead (s : State) : State :=
  { s with
    zn := { s.zn with ns := KV.mapVals s.zn.ns (fun _ n => { n with zones := KV.mapVals n.zones (fun _ z => { z with queued := z.confirmed }) }) }
    jr := { s.jr with recs := KV.mapVals s.jr.recs (fun _ r => { r with durable := true, acked := true, dataIn := true, staged := false, wt := false, slot := none }) } }

/-- The records applied and placed. -/
def recsApplied (s : State) : State := placeApplied ((s.jr.recs.map (fun p => p.1)).foldl (fun s q => settle s q) (recsAsRead s))

/-- A namespace's records on flash retired, and the passes of its zones queued. -/
def zonesQueued (s : State) (p : Nat × Ns) : State :=
  p.2.zones.foldl (fun s z => queueReady (setZone s p.1 z.1 (fun z => { z with taken := z.wp })) p.1 z.1 (z.2.activeFunc.getD 0)) (retireNs s p.1)

theorem replay_fst (s : State) (bad : List Nat) :
    (replay s bad).1 = closeZonesOf (dropDone ((recsApplied (readableRecs s bad)).zn.ns.foldl zonesQueued (recsApplied (readableRecs s bad)))) (fun _ => true) := by
  unfold replay readableRecs
  extract_lets lostRecs u
  generalize hread : List.foldl _ (u, 0) lostRecs = x
  have hread' : lostRecs.foldl loseReplayed (u, 0) = x := hread
  rw [hread']
  obtain ⟨v, n⟩ := x
  rfl

@[simp] theorem loseReplayed_peerView (x : State × Nat) (p : Nat × VRec) : peerView (loseReplayed x p).1 = peerView x.1 := by
  unfold loseReplayed
  split
  · split
    · refine (peerView_foldl (fun s i => ?_) _ _).trans (listLost_peerView _ _ _ _ _ _ _)
      rfl
    · rfl
  · rfl

@[simp] theorem readableRecs_peerView (s : State) (bad : List Nat) : peerView (readableRecs s bad) = peerView s := by
  unfold readableRecs
  refine (foldl_field (fun x : State × Nat => peerView x.1) loseReplayed loseReplayed_peerView _ _).trans ?_
  exact peerView_foldl (fun s p => removeRec_peerView s _) _ s

@[simp] theorem recsApplied_peerView (s : State) : peerView (recsApplied s) = peerView s := by
  unfold recsApplied
  rw [placeApplied_peerView, peerView_foldl fun s q => settle_peerView s q]
  rfl

@[simp] theorem zonesQueued_peerView (s : State) (p : Nat × Ns) : peerView (zonesQueued s p) = peerView s := by
  unfold zonesQueued
  rw [peerView_foldl fun s z => ?_, retireNs_peerView]
  rw [queueReady_peerView, setZone_peerView]

@[simp] theorem closeZonesOf_peerView (s : State) (p : Zone → Bool) : peerView (closeZonesOf s p) = peerView s := rfl

@[simp] theorem replay_peerView (s : State) (bad : List Nat) : peerView (replay s bad).1 = peerView s := by
  rw [replay_fst]
  rw [closeZonesOf_peerView, dropDone_peerView, peerView_foldl zonesQueued_peerView, recsApplied_peerView, readableRecs_peerView]

@[simp] theorem resolveErases_peerView (s : State) : peerView (resolveErases s) = peerView s := by
  refine peerView_foldl (fun s x => ?_) _ s
  rw [toErase_peerView, setBset_peerView]

@[simp] theorem resolveCopies_peerView (s : State) (clean : Bool) : peerView (resolveCopies s clean) = peerView s := by
  unfold resolveCopies
  refine peerView_foldl (fun s c => ?_) _ s
  have hswitched : peerView (if c.kind = .move then moveCopied s c else switchCopy s c) = peerView s := by
    split <;> simp
  have hundone : peerView (sourceBack ((setKey c.dstDie c.dst :: c.cont).foldl toErase s) c) = peerView s := by
    rw [sourceBack_peerView, peerView_foldl toErase_peerView]
  cases clean
  · simp only [Bool.false_eq_true, if_false]
    split
    · exact hswitched
    · exact hundone
  · simp only [if_true]
    split
    · exact hswitched
    · rfl

@[simp] theorem resolveLines_peerView (s : State) : peerView (resolveLines s) = peerView s :=
  peerView_foldl (fun s _ => continueSet_peerView s _ _) _ s

@[simp] theorem freeLanding_peerView (s : State) : peerView (freeLanding s) = peerView s := by
  refine peerView_foldl (fun s x => ?_) _ s
  dsimp only
  rw [media_peerView, peerView_foldl fun s d => toErase_peerView s _]

@[simp] theorem refreshRebuilding_peerView (s : State) : peerView (refreshRebuilding s) = peerView s := setFlags_peerView s _

@[simp] theorem queueAged_peerView (s : State) : peerView (queueAged s) = peerView s := (queueAged_mediaOnly s).peerView

/-! ### The Almanac's body (R369) -/

/-- The entries below a boot that the body takes: those it has room for and does not hold. -/
def bodyLacks (s : State) (below : Nat) : KV Alm := s.boot.ring.filter (fun p => p.1 < below && p.1 ≤ bodyMax && (KV.find s.boot.body p.1).isNone)

theorem copyBody_eq (s : State) (below : Nat) :
    copyBody s below = { s with boot := { s.boot with body := (bodyLacks s below).foldl (fun m p => KV.set m p.1 p.2) s.boot.body } } := by
  have hfold (l : KV Alm) (u : State) : l.foldl (fun s p => { s with boot := { s.boot with body := KV.set s.boot.body p.1 p.2 } }) u =
      { u with boot := { u.boot with body := l.foldl (fun m p => KV.set m p.1 p.2) u.boot.body } } := by
    induction l generalizing u with
    | nil => rfl
    | cons p l ih => exact ih _
  exact hfold _ s

/-- Entries set leave every other key alone. -/
theorem find_foldl_entries_other {α : Type} {l : KV α} {k : Nat} (hk : ∀ p ∈ l, p.1 ≠ k) (m : KV α) :
    KV.find (l.foldl (fun m p => KV.set m p.1 p.2) m) k = KV.find m k := by
  induction l generalizing m with
  | nil => rfl
  | cons p l ih =>
    rw [List.foldl_cons, ih fun q hq => hk q (List.mem_cons_of_mem _ hq)]
    exact KV.find_set_other _ _ (hk p List.mem_cons_self).symm

/-- The body keeps every entry it holds. -/
theorem copyBody_keeps {s : State} {b : Nat} {a : Alm} (h : KV.find s.boot.body b = some a) (below : Nat) :
    KV.find (copyBody s below).boot.body b = some a := by
  rw [copyBody_eq, ← h]
  refine find_foldl_entries_other (fun p hp hpb => ?_) _
  obtain ⟨-, htest⟩ := List.mem_filter.1 hp
  rw [hpb, h] at htest
  simp at htest

/-- An entry below the boot given, that the body has room for and does not hold, is read from it as from the ring. -/
theorem copyBody_takes {s : State} (hwf : KV.WF s.boot.ring) {b below : Nat} (hnone : KV.find s.boot.body b = none) (hroom : b ≤ bodyMax) (hbelow : b < below) :
    KV.find (copyBody s below).boot.body b = KV.find s.boot.ring b := by
  rw [copyBody_eq]
  cases hring : KV.find s.boot.ring b with
  | none =>
    refine (find_foldl_entries_other (fun p hp hpb => ?_) _).trans hnone
    have hlisted := KV.find_of_mem hwf (List.mem_filter.1 hp).1
    rw [hpb, hring] at hlisted
    cases hlisted
  | some a =>
    have hlacks : (b, a) ∈ bodyLacks s below := List.mem_filter.2 ⟨KV.mem_of_find hring, by simp [hnone, hroom, hbelow]⟩
    have hwf' : KV.WF (bodyLacks s below) := List.Pairwise.filter _ hwf
    exact find_foldl_entries hwf' (KV.find_of_mem hwf' hlacks) _

/-! ### The Almanac's present entry (R368) -/

/-- What the signing writes in an entry. -/
def almSigned (s : State) (a : Alm) : Alm :=
  let a := { a with
    signed := true, timeMs := if s.time.src = 0 then 0 else hostNow s - (s.time.dtb - s.time.bootDtb) / 1000000
    timeSrc := s.time.src, disc := s.md.timeDisc, unit := (timeUnit s).1, uncert := (timeUnit s).2, retDay := s.time.rd.toNat
    gapEst := s.time.gap.getD 0xFFFFFFFF, signedDtb := s.time.dtb }
  { a with signature := Config.sign (signKey s a.signer) (Config.sha384 (almEndorsed s a ++ almTime a)) }

theorem signEntry_eq (s : State) :
    signEntry s = { s with boot := { s.boot with ring := KV.adj s.boot.ring s.boot.boot (almSigned s), signPending := false } } := rfl

/-! ### The end of a Recovery -/

/-- The path that a Recovery takes: a full scan without a checkpoint, the shortest after a clean shutdown (R349). -/
def recoveryPath (s : State) (ck : Nat) : Nat := if 2 ≤ ck then 2 else if s.md.cleanOff && ck == 0 then 0 else 1

/-- A Recovery with its path chosen and the event journal's area mounted. -/
def recoveryBegun (s : State) (ck : Nat) : State :=
  { s with md := { s.md with path := recoveryPath s ck, recoveryScan := recoveryPath s ck == 2 }, ev := { s.ev with mounted := true } }

/-- The flash searched. -/
def recoverySearched (s : State) (ck : Nat) (found : Scan) : State := scanFlash (recoveryBegun s ck) (recoveryPath s ck) found.headers

/-- The gap found. -/
def recoveryClocked (s : State) (ck : Nat) (rises : List Nat) (found : Scan) : State := applyGap (recoverySearched s ck found) (gapEstimate rises)

/-- The journal replayed on the references' shifts, with how many records were replayed and how many units lost. -/
def recoveryReplayed (s : State) (shifts : List Nat) (found : Scan) : State × Nat × Nat :=
  let u := keepShifts s shifts false
  replay u (found.bad ++ u.sup.missing ++ landLost u)

/-- What was under way resolved, and a checkpoint taken. -/
def recoveryResolved (s : State) (clean : Bool) : State :=
  freeLanding (refreshRebuilding (checkpoint (resolveLines (resolveCopies (resolveErases s) clean))))

/-- Old sets queued for a refresh, the Almanac's body brought up to the present boot, and the Harvest reported. -/
def recoveryReported (s : State) (replayed lost : Nat) : State := reportHarvest (copyBody (queueAged s) s.boot.boot) replayed lost

/-- A Recovery but for where it leads. -/
def recovered (s : State) (ck : Nat) (rises shifts : List Nat) (found : Scan) : State :=
  let r := recoveryReplayed (recoveryClocked s ck rises found) shifts found
  recoveryReported (recoveryResolved r.1 (recoveryPath s ck == 0)) r.2.1 r.2.2

/-- Where a Recovery leads (R348). -/
def recoveryLeads (s : State) : State := updateAna (if peerPresent s && !s.tw.unpaired then toPairing s false else toMode s .solo)

theorem recoveryPath_scan (s : State) (ck : Nat) : (recoveryPath s ck == 2) = decide (2 ≤ ck) := by
  unfold recoveryPath
  by_cases hnone : 2 ≤ ck
  · simp [hnone]
  · rw [if_neg hnone]
    split <;> simp [hnone]

/-- A Recovery whose map can be rebuilt does all that `recovered` names, and leads where `recoveryLeads` says. -/
theorem execRecoveryComplete_eq {s : State} (hmode : s.md.mode = .recovery) (hrails : s.sup.rails = true) (ck : Nat) (rises shifts : List Nat) (found : Scan) :
    execRecoveryComplete ck true rises shifts found s = .next (recoveryLeads (recovered s ck rises shifts found)) := by
  unfold execRecoveryComplete
  rw [if_neg (by simp [hmode, hrails]), if_neg (by simp)]
  extract_lets path md ev begun searched u
  have hreplayed : recoveryReplayed (recoveryClocked s ck rises found) shifts found = replay u (found.bad ++ u.sup.missing ++ landLost u) := rfl
  unfold recovered
  rw [hreplayed]
  generalize replay u (found.bad ++ u.sup.missing ++ landLost u) = r
  obtain ⟨v, n, l⟩ := r
  have hclean : (recoveryPath s ck == 0) = (path == 0) := rfl
  rw [hclean]
  clear_value u path
  dsimp only [recoveryLeads, recoveryReported, recoveryResolved]

/-! ### What a Recovery comes to -/

theorem recoverySearched_recovering (s : State) (ck : Nat) (found : Scan) : Recovering (recoveryBegun s ck) (recoverySearched s ck found) :=
  (scanFlash_kept (J := true) _ _ (Kept.refl _)).recovering (scanFlash_peerView _ _ _)

theorem recoveryReplayed_recovering (s : State) (shifts : List Nat) (found : Scan) : Recovering s (recoveryReplayed s shifts found).1 := by
  refine (replay_kept _ (keepShifts_kept shifts false (Kept.refl s))).recovering ?_
  rw [replay_peerView, keepShifts_peerView]

theorem recoveryResolved_recovering (s : State) (clean : Bool) : Recovering s (recoveryResolved s clean) :=
  (freeLanding_kept (J := true) (refreshRebuilding_kept (checkpoint_kept (resolveLines_kept (resolveCopies_kept clean
    (resolveErases_kept (Kept.refl s))))))).recovering (by simp)

theorem copyBody_recovering (s : State) (below : Nat) : Recovering s (copyBody s below) := by
  rw [copyBody_eq]
  exact ⟨rfl, rfl, rfl⟩

/-- The report of a Harvest is an event, and its seals are taken up. -/
theorem reportHarvest_recovering (s : State) (replayed lost : Nat) : Recovering s (reportHarvest s replayed lost) := by
  unfold reportHarvest
  split
  · exact ⟨rfl, rfl, rfl⟩
  · next h _ =>
    obtain ⟨hmd, htime, hpeer⟩ := (record_kept (J := true) 0x43 (reportBytes s h replayed lost) none 0 0 (Kept.refl s)).recovering (record_peerView _ _ _ _ _ _)
    exact ⟨hmd, htime, hpeer⟩

theorem recoveryReported_recovering (s : State) (replayed lost : Nat) : Recovering s (recoveryReported s replayed lost) := by
  have hqueued := (queueAged_kept (J := true) (Kept.refl s)).recovering (queueAged_peerView s)
  unfold recoveryReported
  exact (hqueued.trans (copyBody_recovering _ _)).trans (reportHarvest_recovering _ _ _)

/-- After the gap is found, a Recovery leaves mode, time, the peer and the mount as they are. -/
theorem recovered_recovering (s : State) (ck : Nat) (rises shifts : List Nat) (found : Scan) :
    Recovering (recoveryClocked s ck rises found) (recovered s ck rises shifts found) := by
  have hreplayed := recoveryReplayed_recovering (recoveryClocked s ck rises found) shifts found
  unfold recovered
  exact (hreplayed.trans (recoveryResolved_recovering _ _)).trans (recoveryReported_recovering _ _ _)

/-- Whether a module pairs is decided by what `peerView` names. -/
theorem peerView_pairs {s t : State} (h : peerView t = peerView s) : (peerPresent t && !t.tw.unpaired) = (peerPresent s && !s.tw.unpaired) := by
  have hview := congrArg (fun v : (Bool × Bool × Bool) × Bool => (v.1.1 || v.1.2.1) && !v.1.2.2) h
  exact hview

theorem peerView_mounted {s t : State} (h : peerView t = peerView s) : t.ev.mounted = s.ev.mounted := by
  have hview := congrArg Prod.snd h
  exact hview

/-- What a Recovery comes to, before it leads anywhere. -/
structure RecoveredFrom (s : State) (ck : Nat) (t : State) : Prop where
  mode : t.md.mode = s.md.mode
  path : t.md.path = recoveryPath s ck
  recoveryScan : t.md.recoveryScan = (recoveryPath s ck == 2)
  pairs : (peerPresent t && !t.tw.unpaired) = (peerPresent s && !s.tw.unpaired)
  mounted : t.ev.mounted = true

theorem recovered_from (s : State) (ck : Nat) (rises shifts : List Nat) (found : Scan) : RecoveredFrom s ck (recovered s ck rises shifts found) := by
  have hsearched := recoverySearched_recovering s ck found
  have hrest := recovered_recovering s ck rises shifts found
  have hmd : (recoveryClocked s ck rises found).md = (recoverySearched s ck found).md := by rw [recoveryClocked, applyGap_frame]
  have hclocked : peerView (recoveryClocked s ck rises found) = peerView (recoverySearched s ck found) := by
    rw [recoveryClocked, applyGap_frame]
    rfl
  have hpeer := hrest.peer.trans (hclocked.trans hsearched.peer)
  constructor
  case mode => rw [hrest.mode, hmd, hsearched.mode, recoveryBegun]
  case path => rw [hrest.path, hmd, hsearched.path, recoveryBegun]
  case recoveryScan => rw [hrest.recoveryScan, hmd, hsearched.recoveryScan, recoveryBegun]
  case pairs => exact (peerView_pairs hpeer).trans rfl
  case mounted => exact (peerView_mounted hpeer).trans rfl

/-- A gap that was due and that the references give stands at the Recovery's end (R207). -/
theorem recovered_time {s : State} {e : Nat} {rises : List Nat} (hdue : s.time.gapDue = true) (hgap : gapEstimate rises = some e) (he : e ≤ 17520)
    (ck : Nat) (shifts : List Nat) (found : Scan) :
    (recovered s ck rises shifts found).time.rd = s.time.rd + BitVec.ofNat 32 e ∧ (recovered s ck rises shifts found).time.gap = some e ∧
      (recovered s ck rises shifts found).time.gapDue = false := by
  have hsearched : (recoverySearched s ck found).time = s.time := (recoverySearched_recovering s ck found).time
  have hadvanced := applyGap_advances (s := recoverySearched s ck found) (hsearched ▸ hdue) he
  rw [(recovered_recovering s ck rises shifts found).time, recoveryClocked, hgap]
  rwa [hsearched] at hadvanced

/-! ### Where a Recovery leads (R348) -/

@[simp] theorem updateAna_peerView (s : State) : peerView (updateAna s) = peerView s := by
  refine peerView_foldl (fun s p => ?_) _ s
  dsimp only
  split
  · rfl
  · rw [peerView_foldl fun s f => raiseAen_peerView s f 2 3 0x0C]
    rfl

@[simp] theorem enterMode_peerView (s : State) (m : Mode) (qcause : Nat) (serving : Bool) : peerView (enterMode s m qcause serving) = peerView s := by
  have hready (u : State) : peerView (updateReady u) = peerView u := by
    unfold updateReady
    dsimp only
    split
    · rfl
    · rfl
  have hpower (u : State) : peerView (refreshPower u) = peerView u := by
    unfold refreshPower
    rw [setFlags_peerView]
    rfl
  unfold enterMode
  dsimp only
  rw [updateAna_peerView, hpower, hready, record_peerView]
  rfl

theorem tryTest_peerView (s : State) : peerView (tryTest s) = peerView s := by
  unfold tryTest
  split <;> rfl

/-- The sense output and the boot state are not what the twin's presence rests on. -/
theorem senseOut_peerView (s : State) (b : Boot) (x : Bool) : peerView { s with boot := b, tw := { s.tw with senseOut := x } } = peerView s := rfl

/-- From a mode that does not operate a change of mode leaves the peer and the mount alone. -/
theorem toMode_idle_peerView {s : State} (hidle : s.md.mode.operates = false) (m : Mode) (qcause : Nat) (serving : Bool) :
    peerView (toMode s m qcause serving) = peerView s := by
  have hraised (u : State) : peerView (tryTest (raiseSvn u)) = peerView u := tryTest_peerView _
  unfold toMode
  simp only [hidle, Bool.false_and, Bool.false_eq_true, if_false]
  split
  · rw [hraised, senseOut_peerView, enterMode_peerView]
  · rw [senseOut_peerView, enterMode_peerView]

/-- A state that a Recovery in `s` has led to. -/
structure LedTo (s : State) (m : Mode) (t : State) : Prop where
  mode : t.md.mode = m
  prev : t.md.prev = s.md.mode
  path : t.md.path = s.md.path
  recoveryScan : t.md.recoveryScan = s.md.recoveryScan
  mounted : t.ev.mounted = s.ev.mounted
  time : t.time = s.time

theorem toMode_ledTo {s : State} (hidle : s.md.mode.operates = false) (m : Mode) (qcause : Nat) (serving : Bool) :
    LedTo s m (toMode s m qcause serving) := by
  obtain ⟨hmd, htime⟩ := toMode_idle hidle m qcause serving
  have hpeer := toMode_idle_peerView hidle m qcause serving
  constructor
  case mode => rw [hmd, enterMode_mode_md]
  case prev => rw [hmd, enterMode_prev_md]
  case path => rw [hmd, enterMode_path_md]
  case recoveryScan => rw [hmd, enterMode_recoveryScan_md]
  case mounted => exact peerView_mounted hpeer
  case time => exact htime

theorem updateAna_ledTo {s t : State} {m : Mode} (h : LedTo s m t) : LedTo s m (updateAna t) := by
  obtain ⟨hmode, hprev, hpath, hscan, hmounted, htime⟩ := h
  constructor
  case mode => rw [updateAna_mode_md, hmode]
  case prev => rw [updateAna_prev_md, hprev]
  case path => rw [updateAna_path_md, hpath]
  case recoveryScan => rw [updateAna_recoveryScan_md, hscan]
  case mounted => exact (peerView_mounted (updateAna_peerView t)).trans hmounted
  case time => rw [updateAna_time, htime]

/-- A Recovery leads to Pairing where a peer is present and the module was not unpaired, else to Solo. -/
theorem recoveryLeads_ledTo {s : State} (hmode : s.md.mode = .recovery) :
    LedTo s (if peerPresent s && !s.tw.unpaired then .pairing else .solo) (recoveryLeads s) := by
  have hidle : s.md.mode.operates = false := by rw [hmode]; rfl
  unfold recoveryLeads
  refine updateAna_ledTo ?_
  split
  · unfold toPairing
    obtain ⟨hto, hprev, hpath, hscan, hmounted, htime⟩ := toMode_ledTo
      (s := { s with tw := { s.tw with step := 1, pairAt := s.time.dtb, hello := none, table := [], pairAcc := [false, false, false] } }) hidle .pairing 0 false
    exact ⟨hto, hprev, hpath, hscan, hmounted, htime⟩
  · exact toMode_ledTo hidle _ _ _

/-! ### The obligation -/

/-- A Recovery that completes: it leads by the path chosen to the mode that the peer decides, the area mounted. -/
theorem recoveryComplete_leads {s : State} (hmode : s.md.mode = .recovery) (hrails : s.sup.rails = true) (ck : Nat) (rises shifts : List Nat) (found : Scan) :
    ∃ t, exec (.recoveryComplete ck true rises shifts found) s = .next t ∧
      LedTo (recovered s ck rises shifts found) (if peerPresent s && !s.tw.unpaired then .pairing else .solo) t := by
  have hfrom := recovered_from s ck rises shifts found
  have hled := recoveryLeads_ledTo (hfrom.mode.trans hmode)
  rw [hfrom.pairs] at hled
  exact ⟨_, execRecoveryComplete_eq hmode hrails ck rises shifts found, hled⟩

/-- Settles O44, by what a Recovery leaves of the mode, of time, of the twin's presence and of the mount, and by what an Almanac entry is made of. -/
theorem recoveryAndAlmanac : Obligations.RecoveryAndAlmanac := by
  unfold Obligations.RecoveryAndAlmanac
  refine ⟨?unmapped, ?leads, ?gap, ?signs, fun s hnot => if_neg (by simp [hnot]), ?body, fun s hpending => if_pos (by simp [hpending])⟩
  case unmapped =>
    intro s ck rises shifts found hmode hrails
    have hexec : exec (.recoveryComplete ck false rises shifts found) s = .next (toQuarantine s 5) :=
      (if_neg (by simp [hmode, hrails])).trans (if_pos rfl)
    obtain ⟨hquarantine, hcause⟩ := toQuarantine_entered (s := s) (by rw [hmode]; decide) 5
    exact ⟨_, hexec, hquarantine, hcause, (toQuarantine_kept (J := true) 5 (Kept.refl s)).content rfl⟩
  case leads =>
    intro s ck rises shifts found hmode hrails
    obtain ⟨t, hexec, hled⟩ := recoveryComplete_leads hmode hrails ck rises shifts found
    obtain ⟨hrecovery, hpath, hscan, -, hmounted⟩ := recovered_from s ck rises shifts found
    refine ⟨t, hexec, hled.mode, ?_, hled.path.trans hpath, ?_, ?_⟩
    · rw [hled.prev, hrecovery, hmode]
    · rw [hled.recoveryScan, hscan, recoveryPath_scan]
    · exact hled.mounted.trans hmounted
  case gap =>
    intro s ck e rises shifts found hmode hrails hdue hgap he
    obtain ⟨t, hexec, hled⟩ := recoveryComplete_leads hmode hrails ck rises shifts found
    refine ⟨t, hexec, ?_⟩
    rw [hled.time]
    exact recovered_time hdue hgap he ck shifts found
  case signs =>
    intro s a hcan hfind
    have hexec : exec .almanacSigning s = .next (signEntry s) := if_pos hcan
    refine ⟨_, almSigned s a, hexec, rfl, rfl, ?_, rfl, rfl, rfl, rfl, fun b hb => ?_⟩
    · rw [signEntry_eq]
      dsimp only
      rw [KV.find_adj, if_pos rfl, hfind]
      rfl
    · rw [signEntry_eq]
      dsimp only
      rw [KV.find_adj, if_neg hb]
  case body =>
    intro s hsigned hmeasure hharvest hmounted hnone hroom hwf
    have hexec : exec .almanacBodyCopy s = .next (copyBody s (s.boot.boot + 1)) := if_neg (by simp [hsigned, hmeasure, hharvest, hmounted])
    refine ⟨_, hexec, ?_, copyBody_takes hwf hnone hroom (Nat.lt_succ_self _), fun b a h => copyBody_keeps h _⟩
    rw [copyBody_eq]

end Sys2Proof.Machine

namespace Sys2Proof.Machine

/-! SUPPORT. Reshape commands: admitted, judged and started, or carried to the twin; their cancel (R252, R253, R255, R257, R258). -/

/-! ### Admission at a stamp (R53, R54) -/

/-- An admitted command whose effect depends on its stamp takes that effect where its fields are good. -/
theorem adminCmdAt_admitted {s s1 : State} {e : Sqe} {pf : Bool} {row : Row} {st : Nat} (hadm : Admitted s e pf row st s1)
    {field : State → Option Status} (hfield : field s1 = none) (run : Nat → State → State) : adminCmdAt e s pf row field run = .next (run st s1) := by
  have hstamp : adminCmdAt e s pf row field run = adminCmd e s pf row field (run st) := by
    unfold adminCmd adminCmdAt
    rw [hadm.fetched]
  rw [hstamp, adminCmd_admitted hadm hfield]

/-! ### Admin commands carried to the twin (R315) -/

theorem send_adminWait (s : State) (typ tag : Nat) (body : List Nat) : (send s typ tag body).tw.adminWait = s.tw.adminWait := by
  unfold send
  split
  · dsimp only
    split
    · rfl
    · exact formFlits_field s.tw _ _ (·.adminWait) fun _ => rfl
  · rfl

/-- A command carried to the twin waits for the answer under the next tag. -/
theorem carryAdmin_waits (s : State) (w : AdminWait) (body : List Nat) : { w with tag := s.tw.tagCtr } ∈ (carryAdmin s w body).tw.adminWait := by
  unfold carryAdmin
  rw [send_adminWait]
  simp

@[simp] theorem carryAdmin_zn (s : State) (w : AdminWait) (body : List Nat) : (carryAdmin s w body).zn = s.zn := send_zn _ _ _ _

@[simp] theorem carryAdmin_port (s : State) (w : AdminWait) (body : List Nat) : (carryAdmin s w body).port = s.port := send_port _ _ _ _

/-! ### A change to mirrored on the home (R253, R255) -/

/-- A Reshape to mirrored that waits for the twin to place the zones, the zone numbers settled. -/
def awaitsTwin (nums : List Nat) : Reshape := { move := false, toMirrored := true, remote := true, nums := nums }

/-- The home remembers the Reshape and sends the twin what it needs to place the zones. -/
theorem execReshapeTwinPolicy_home {s s1 : State} {e : Sqe} {st : Nat} {n : Ns} {nums : List Nat} (hadm : Admitted s e true .reshapePolicy st s1)
    (hfield : reshapeField s1 e 0 = none) (hn : nsOf s1 e.nsid = some n) (hjudged : reshapeRefusal s1 (modeAt s1 st) n false true = none)
    (hmirrored : e.cdw10.getLsbD 8 = true) (hhere : n.here = true) (hnums : mirroredNumbers s1 n = some nums) :
    execReshapeTwinPolicy e s =
      let s2 := setNs s1 e.nsid fun n => { n with reshape := some (awaitsTwin nums) }
      .next (carryAdmin s2 { tag := 0, func := ownerOf s1 e.func, cid := e.cid, nsid := e.nsid, kind := 5 } (reshapeBody s2 e.nsid n nums)) := by
  unfold execReshapeTwinPolicy
  rw [adminCmdAt_admitted hadm hfield]
  simp only [hn, hmirrored, hjudged, hhere, if_true, reshapeHere, reshapeToMirrored, hnums, awaitsTwin]

/-! ### Group moves (R253, R257) -/

/-- No Reshape starts while a rebuild runs. -/
theorem reshapeRefusal_rebuilding {m : ModeSt} (hrebuilding : m.rebuilding = true) (s : State) (n : Ns) (move mirrored : Bool) :
    reshapeRefusal s m n move mirrored = some .c7 := by
  unfold reshapeRefusal
  rw [hrebuilding, if_pos (by simp)]

/-- An admitted group move ends with its refusal, or starts here where the namespace is homed here. -/
theorem execReshapeGroupMove_judged {s s1 : State} {e : Sqe} {st : Nat} {n : Ns} (hadm : Admitted s e true .reshapeMove st s1)
    (hfield : reshapeField s1 e 1 = none) (hn : nsOf s1 e.nsid = some n) (hzoned : n.zoned = true) (hfirst : moveFirst e < n.zoneCount)
    (hlast : moveLast e n < n.zoneCount) (hmask : moveMask e < 2 ^ s1.part.groups) :
    (∀ x, reshapeRefusal s1 (modeAt s1 st) n true false = some x → execReshapeGroupMove e s = .next (adminDone s1 e x)) ∧
    (reshapeRefusal s1 (modeAt s1 st) n true false = none → n.here = true → execReshapeGroupMove e s =
      .next (startMove s1 { tag := 0, func := ownerOf s1 e.func, cid := e.cid, nsid := e.nsid } (moveFirst e) (moveLast e n) (moveMask e))) := by
  have hinRange : ¬(!n.zoned ∨ n.zoneCount ≤ moveFirst e ∨ n.zoneCount ≤ moveLast e n ∨ 2 ^ s1.part.groups ≤ moveMask e) := by
    simp [hzoned, hfirst, hlast, hmask]
  unfold execReshapeGroupMove
  rw [adminCmdAt_admitted hadm (by simp only [hfield, hn, if_neg hinRange])]
  refine ⟨fun x hrefused => ?_, fun hjudged hhere => ?_⟩
  · simp only [hn, hrefused]
  · simp only [hn, hjudged, hhere, Bool.or_true, if_true]

/-! ### Cancel (R258) -/

/-- A group move with no copy under way ends at once. -/
theorem cancelHere_idleMove {s : State} {nsid : Nat} {r : Reshape} (hmove : r.move = true) (hidle : ∀ c ∈ s.media.copies, c.kind ≠ .move ∨ c.nsid ≠ nsid) :
    cancelHere s nsid r = endReshape s nsid .aborted := by
  have hnone : s.media.copies.any (fun c => c.kind == .move && c.nsid == nsid) = false := by
    rw [List.any_eq_false]
    intro c hc
    simpa [imp_iff_not_or] using hidle c hc
  unfold cancelHere
  rw [if_pos hmove, hnone, if_neg Bool.false_ne_true]

/-- The cancel of a Reshape that this module carries out is remembered in it, and taken up here. -/
theorem execReshapeCancel_here {s s1 : State} {e : Sqe} {st : Nat} {n : Ns} {r : Reshape} (hadm : Admitted s e true .reshapeCancel st s1)
    (hfield : reshapeField s1 e 2 = none) (hn : nsOf s1 e.nsid = some n) (hr : n.reshape = some r) (hcancelled : r.cancelled = false)
    (hremote : r.remote = false) (hsingle : r.toMirrored = false) :
    execReshapeCancel e s =
      let r' := { r with cancelCid := some (ownerOf s1 e.func, e.cid) }
      .next (cancelHere (setNs s1 e.nsid fun n => { n with reshape := some r' }) e.nsid r') := by
  unfold execReshapeCancel
  rw [adminCmd_admitted hadm hfield]
  simp only [hn, hr, hcancelled, hremote, hsingle, Bool.false_and, Bool.or_self, Bool.false_eq_true, if_false]

/-! ### The obligation -/

/-- Settles O30, each clause by what the command does once admitted. -/
theorem reshapeCommands : Obligations.ReshapeCommands := by
  unfold Obligations.ReshapeCommands
  refine ⟨?mirrors, ?rebuilding, ?moves, ?nothing, ?ends⟩
  case mirrors =>
    intro s s1 e st n nums hadm hfield hn hjudged hmirrored hhere hnums
    refine ⟨_, _, execReshapeTwinPolicy_home hadm hfield hn hjudged hmirrored hhere hnums, ?_, rfl,
      ⟨_, carryAdmin_waits _ _ _, rfl, rfl, rfl, rfl⟩, ?_, ?_, (carryAdmin_kept (J := true) _ _ (setNs_kept _ _ (Kept.refl s1))).core rfl⟩
    · unfold nsOf
      rw [carryAdmin_zn]
      exact nsOf_setNs_self hn _
    · rw [carryAdmin_port]
      rfl
    · rw [carryAdmin_zn]
      rfl
  case rebuilding =>
    intro s s1 e st n hadm hfield hn hzoned hfirst hlast hmask hrebuilding
    exact (execReshapeGroupMove_judged hadm hfield hn hzoned hfirst hlast hmask).1 _ (reshapeRefusal_rebuilding hrebuilding s1 n true false)
  case moves =>
    intro s s1 e st n hadm hfield hn hzoned hfirst hlast hmask
    exact (execReshapeGroupMove_judged hadm hfield hn hzoned hfirst hlast hmask).2
  case nothing =>
    intro s s1 e st n hadm hfield hn hnone
    refine (adminCmd_admitted hadm hfield _).trans ?_
    simp only [hn, hnone]
  case ends =>
    intro s s1 e st n r hadm hfield hn hr hmove hcancelled hremote hsingle hidle
    refine (execReshapeCancel_here hadm hfield hn hr hcancelled hremote hsingle).trans ?_
    exact congrArg Host.Outcome.next (cancelHere_idleMove hmove hidle)

end Sys2Proof.Machine

namespace Sys2Proof.Machine

/-! SUPPORT. Admin syncs, resync frames and reshape copies, and fetches (R240, R254, R284, R315, R321 to R323). -/

/-! ### Content stored and read -/

/-- Content is read from the store alone. -/
theorem readLba_of_store {s t : State} (hstore : t.zn.store = s.zn.store) (nsid lba : Nat) : readLba t nsid lba = readLba s nsid lba := by
  unfold readLba
  rw [hstore]

/-- An LBA stored reads as stored, and every other reads as it did. -/
theorem readLba_storeLba {s : State} (hwf : KV.WF s.zn.store) (nsid lba : Nat) (b : Blk) (ns l : Nat) :
    readLba (storeLba s nsid lba b) ns l = if lbaKey ns l = lbaKey nsid lba then b else readLba s ns l := by
  unfold readLba storeLba
  dsimp only
  split
  · next hkey => rw [hkey, KV.findD_put_self hwf]
  · next hkey => exact KV.findD_put_other _ _ hkey

/-! ### Admin syncs (R315) -/

theorem exec_adminSync {s : State} {h : MsgHdr} (hreach : Reaches s h 0x0C) (op nsid : Nat) (a : List Nat) :
    exec (.adminSync h op nsid a) s = .next (syncOp (noted s h) h.tag op nsid a) := by
  show execAdminSync h op nsid a s = _
  rw [execAdminSync, pairingMsg_taken hreach rfl]

/-- An Admin sync about a namespace that does not exist is answered so. -/
theorem syncOp_unlisted {s : State} {op nsid : Nat} (hnone : nsOf s nsid = none) (hmanage : op ≠ 0x0D) (hsanitize : op ≠ 0x84) (habort : op ≠ 8)
    (tag : Nat) (a : List Nat) : syncOp s tag op nsid a = answerTwin s tag .invalidNamespace 0 := by
  unfold syncOp
  rw [if_neg hmanage, if_neg hsanitize, if_neg habort, hnone]
  rfl

/-- The namespace that a create of the twin describes. -/
def syncDescribed (a : List Nat) : Ns :=
  { zoned := nth a 1 == 1, nsze := nth a 2, flbas := nth a 3, dps := nth a 4, mirrored := nth a 5 == 1, here := false, znums := a.drop 7 }

/-- A single namespace that the twin creates is made here under a free NSID. -/
theorem syncCreate_single {s : State} {nsid : Nat} {a : List Nat} (hnone : nsOf s nsid = none) (hsingle : nth a 5 = 0) (tag : Nat) :
    syncCreate s tag nsid a = answerTwin (updateAna (createNs s nsid (syncDescribed a) 0)) tag .success 0 := by
  have hmirrored : (syncDescribed a).mirrored = false := by simp [syncDescribed, hsingle]
  unfold syncCreate
  extract_lets n
  have hn : n = syncDescribed a := rfl
  rw [hnone, hn, hmirrored]
  simp

/-- A namespace created is listed as described, but for its slots and the path state it shows. -/
theorem createNs_shown (s : State) (nsid : Nat) (n : Ns) (key : Nat) :
    ∃ m sl, nsOf (updateAna (createNs s nsid n key)) nsid = some m ∧ m.described = Ns.described { n with slots := sl } := by
  obtain ⟨sl, hlisted⟩ := createNs_listed s nsid n key
  have hsame := updateAna_described (createNs s nsid n key) nsid
  rw [hlisted, Option.map_some] at hsame
  obtain ⟨m, hm, hdescribed⟩ := Option.map_eq_some_iff.1 hsame
  exact ⟨m, sl, hm, hdescribed⟩

/-! ### Frames (R254, R321, R322) -/

/-- With every copy level the resync is done, and the mode stays. -/
theorem endResync_level {s : State} (hlevel : ∀ p ∈ s.zn.ns, p.2.resyncPending = false) :
    (endResync s).md.resyncing = false ∧ (endResync s).md.mode = s.md.mode ∧ (endResync s).zn = s.zn := by
  have hnone : s.zn.ns.any (fun p => p.2.resyncPending) = false := List.any_eq_false.2 fun p hp => by simp [hlevel p hp]
  unfold endResync
  rw [hnone, if_neg Bool.false_ne_true]
  exact ⟨setFlags_resyncing_md _ _, setFlags_mode_md _ _, setFlags_zn _ _⟩

/-- The content that a frame gives an LBA whose data it carries. -/
def frameBlk (f : FrameBody) (x : Nat × Nat) : Blk := { val := x.1, key := x.2, epoch := f.pepoch, oseq := f.oseq }

/-- A frame of one LBA that holds nothing here gives it the frame's content, and leaves every other LBA. -/
theorem readLba_takeUnits {s : State} {f : FrameBody} {x : Nat × Nat} (hwf : KV.WF s.zn.store) (hdata : f.data = [x]) (hwhole : x ≠ (1, 0))
    (hfree : readLba s f.nsid f.slba = {}) (ns l : Nat) :
    readLba (takeUnits s f) ns l = if lbaKey ns l = lbaKey f.nsid f.slba then frameBlk f x else readLba s ns l := by
  have hstored : takeUnits s f = setNs (storeLba s f.nsid f.slba (frameBlk f x)) f.nsid (fun n => { n with written := true }) := by
    simp [takeUnits, hdata, hfree, storeFrameLba, hwhole, frameBlk]
  rw [hstored]
  exact readLba_storeLba hwf _ _ _ _ _

theorem takeUnit_mapUnit {f : FrameBody} (hkind : f.kind = 3) (s : State) (n : Ns) : takeUnit s f n = takeUnits s f := by
  simp [takeUnit, hkind]

/-- A map-unit frame for a copy is applied, and its bytes are counted as done. -/
theorem takeFrame_mapUnit {s : State} {f : FrameBody} {n : Ns} (hkind : f.kind = 3) (hn : nsOf s f.nsid = some n) (hhere : n.here = false)
    (hmirrored : n.mirrored = true) :
    takeFrame s f = let u := takeUnits s f
      { u with tw := { u.tw with resyncDone := u.tw.resyncDone + f.data.length * lbaBytes n.flbas } } := by
  unfold takeFrame
  simp [hkind, hn, hhere, hmirrored, takeUnit_mapUnit hkind]

/-- A frame other than a summary and a repair is applied and confirmed. -/
theorem exec_resyncFrame_applied {s : State} {h : MsgHdr} {f : FrameBody} (hreach : Reaches s h 0x23) (hlow : 1 ≤ f.kind) (hhigh : f.kind ≤ 5) :
    exec (.resyncFrame h f) s = .next (confirmFrame (takeFrame (noted s h) f) h f.unit) := by
  show execResyncFrame h f s = _
  rw [execResyncFrame, peerMsg_reaches hreach]
  rw [if_neg (by omega), if_neg (by omega), if_neg (by omega)]

/-- A frame of no kind is discarded. -/
theorem exec_resyncFrame_unknown {s : State} {h : MsgHdr} {f : FrameBody} (hreach : Reaches s h 0x23) (hkind : f.kind = 0 ∨ 7 < f.kind) :
    exec (.resyncFrame h f) s = .next (discard (noted s h) h) := by
  show execResyncFrame h f s = _
  rw [execResyncFrame, peerMsg_reaches hreach]
  rw [if_neg (by omega), if_neg (by omega), if_pos (by omega)]

/-- A reshape copy of a map unit is applied and confirmed where the namespace is becoming mirrored. -/
theorem exec_reshapeCopy_applied {s : State} {h : MsgHdr} {f : FrameBody} {n : Ns} (hreach : Reaches s h 0x26) (hkind : f.kind = 3)
    (hn : nsOf s f.nsid = some n) (hhere : n.here = false) (hmirrored : n.mirrored = false) (hbecoming : n.becoming = true) :
    exec (.reshapeCopy h f) s = .next (confirmFrame (takeUnits (noted s h) f) h f.unit) := by
  have hnoted : nsOf (noted s h) f.nsid = some n := hn
  show execReshapeCopy h f s = _
  rw [execReshapeCopy, peerMsg_reaches hreach]
  simp only [hnoted, hhere, hmirrored, hbecoming, hkind, takeUnit_mapUnit hkind]
  simp

/-- A reshape copy of a namespace that is not becoming mirrored is discarded. -/
theorem exec_reshapeCopy_unasked {s : State} {h : MsgHdr} {f : FrameBody} {n : Ns} (hreach : Reaches s h 0x26) (hn : nsOf s f.nsid = some n)
    (hnot : n.becoming = false ∨ n.here = true ∨ n.mirrored = true) : exec (.reshapeCopy h f) s = .next (discard (noted s h) h) := by
  have hnoted : nsOf (noted s h) f.nsid = some n := hn
  show execReshapeCopy h f s = _
  rw [execReshapeCopy, peerMsg_reaches hreach]
  simp only [hnoted]
  rw [if_pos]
  rcases hnot with hnot | hnot | hnot <;> simp [hnot]

/-! ### Fetches (R240, R284) -/

theorem length_flatMap_pairs (n : Nat) (a b : Nat → Nat) : ((List.range n).flatMap fun i => [a i, b i]).length = 2 * n := by
  simp [List.length_flatMap, Nat.mul_comm]

/-- A fetch is answered with two numbers for each LBA. -/
theorem exec_fetchRequest_answered {s : State} {h : MsgHdr} (hreach : Reaches s h 0x24) (nsid slba nlb oseq : Nat) :
    ∃ body : List Nat, body.length = 2 * nlb ∧ exec (.fetchRequest h nsid slba nlb oseq) s = .next (send (noted s h) 0x25 h.tag body) := by
  show ∃ body : List Nat, body.length = 2 * nlb ∧ execFetchRequest h nsid slba nlb oseq s = _
  rw [execFetchRequest, peerMsg_reaches hreach]
  split
  · exact ⟨_, length_flatMap_pairs nlb _ _, rfl⟩
  · exact ⟨_, length_flatMap_pairs nlb _ _, rfl⟩

/-- An LBA repaired takes the content fetched, the rest of what it holds stays, and every other LBA reads as it did. -/
theorem readLba_repairLba {s : State} (hwf : KV.WF s.zn.store) (nsid lba v k ns l : Nat) :
    readLba (repairLba s nsid lba v k) ns l =
      if lbaKey ns l = lbaKey nsid lba then { readLba s nsid lba with val := v, key := k, lost := false } else readLba s ns l :=
  readLba_storeLba hwf _ _ _ _ _

/-- A read that has left the table takes nothing more. -/
theorem refreshRead_gone {s : State} {slot : Nat} (hgone : KV.find s.port.cmds slot = none) : refreshRead s slot = s := by
  unfold refreshRead
  rw [hgone]

/-- A fetch of one LBA that is answered, with no command left waiting: the LBA is repaired and nothing is fetched any more. -/
theorem exec_fetchData_repairs {s : State} {h : MsgHdr} (hreach : Reaches s h 0x25) {slot nsid lba : Nat} (hfetch : s.tw.fetches = [(h.tag, slot, nsid, lba, 1)])
    (hslot : slot ≠ 65536) (hgone : KV.find s.port.cmds slot = none) (v k : Nat) :
    exec (.fetchData h [some (v, k)]) s = .next (repairLba { noted s h with tw := { (noted s h).tw with fetches := [] } } nsid lba v k) := by
  have hasked : (noted s h).tw.fetches = [(h.tag, slot, nsid, lba, 1)] := hfetch
  have hfind : (noted s h).tw.fetches.find? (fun f => f.1 == h.tag) = some (h.tag, slot, nsid, lba, 1) := by simp [hasked]
  have hnone : (noted s h).tw.fetches.filter (fun f => f.1 != h.tag) = [] := by simp [hasked]
  show execFetchData h [some (v, k)] s = _
  rw [execFetchData, peerMsg_reaches hreach, hfind]
  dsimp only
  rw [hnone, if_neg hslot]
  refine congrArg Host.Outcome.next ((if_neg Bool.false_ne_true).trans ?_)
  exact refreshRead_gone hgone

/-- An answer to no fetch is discarded. -/
theorem exec_fetchData_unasked {s : State} {h : MsgHdr} (hreach : Reaches s h 0x25) (hnone : ∀ f ∈ s.tw.fetches, f.1 ≠ h.tag) (d : List (Option (Nat × Nat))) :
    exec (.fetchData h d) s = .next (discard (noted s h) h) := by
  have hfind : (noted s h).tw.fetches.find? (fun f => f.1 == h.tag) = none := List.find?_eq_none.2 fun f hf => by simpa using hnone f hf
  show execFetchData h d s = _
  rw [execFetchData, peerMsg_reaches hreach]
  simp only [hfind]

/-! ### The obligation -/

/-- Settles O55: a message that reached the module acts on the noted state, and the content after it is that of the one LBA it stores. -/
theorem syncsFramesAndFetches : Obligations.SyncsFramesAndFetches := by
  unfold Obligations.SyncsFramesAndFetches
  refine ⟨?unlisted, ?creates, ?done, fun s h f hreach hkind => exec_resyncFrame_unknown hreach hkind, ?frame, ?answers, ?repairs,
    fun s h d hreach hnone => exec_fetchData_unasked hreach hnone d, ?copies, fun s h f n hreach hn hnot => exec_reshapeCopy_unasked hreach hn hnot⟩
  case unlisted =>
    intro s h op nsid a hreach hnone hmanage hsanitize habort
    rw [exec_adminSync hreach, syncOp_unlisted (s := noted s h) hnone hmanage hsanitize habort]
  case creates =>
    intro s h nsid a hreach hnone hcreate hsingle
    obtain ⟨m, sl, hm, hdescribed⟩ := createNs_shown (noted s h) nsid (syncDescribed a) 0
    have hexec : exec (.adminSync h 0x0D nsid a) s = .next (answerTwin (updateAna (createNs (noted s h) nsid (syncDescribed a) 0)) h.tag .success 0) := by
      rw [exec_adminSync hreach, syncOp, if_pos rfl, if_pos hcreate, syncCreate_single (s := noted s h) hnone hsingle]
    have hkept : Kept true true s (answerTwin (updateAna (createNs (noted s h) nsid (syncDescribed a) 0)) h.tag .success 0) :=
      answerTwin_kept _ _ _ (updateAna_kept (createNs_kept _ _ _ (noted_kept s h)))
    refine ⟨_, m, hexec, ?_, (congrArg Ns.zoned hdescribed :), (congrArg Ns.nsze hdescribed :), (congrArg Ns.flbas hdescribed :),
      (congrArg Ns.here hdescribed :), ?_, hkept.content rfl, hkept.core rfl⟩
    · unfold nsOf answerTwin
      rw [send_zn]
      exact hm
    · have hmirrored : m.mirrored = (nth a 5 == 1) := (congrArg Ns.mirrored hdescribed :)
      rw [hmirrored, hsingle]
      rfl
  case done =>
    intro s h f hreach hkind hlevel
    obtain ⟨hdone, hmode, hzn⟩ := endResync_level (s := noted s h) hlevel
    have hexec := exec_resyncFrame_applied hreach (by omega) (Nat.le_of_eq hkind)
    rw [takeFrame, if_pos hkind] at hexec
    refine ⟨_, hexec, ?_, ?_, ?_⟩ <;> unfold confirmFrame
    · rw [send_md, hdone]
    · rw [send_md, hmode, noted_md, hreach.mode]
    · rw [send_zn, hzn, noted_zn]
  case frame =>
    intro s h f n x hreach hcanon hkind hn hhere hmirrored hdata hwhole hfree
    have hexec := exec_resyncFrame_applied hreach (f := f) (by omega) (by omega)
    have hread (ns l : Nat) : readLba (confirmFrame (takeFrame (noted s h) f) h f.unit) ns l =
        if lbaKey ns l = lbaKey f.nsid f.slba then frameBlk f x else readLba s ns l := by
      rw [takeFrame_mapUnit (s := noted s h) hkind hn hhere hmirrored]
      exact (readLba_of_store (by rw [confirmFrame, send_zn]) ns l).trans (readLba_takeUnits (s := noted s h) hcanon.1 hdata hwhole hfree ns l)
    exact ⟨_, hexec, (hread _ _).trans (if_pos rfl), fun ns l hother => (hread ns l).trans (if_neg hother),
      (confirmFrame_kept h _ (takeFrame_kept f (noted_kept s h).weakContent)).core rfl⟩
  case answers =>
    intro s h nsid slba nlb oseq hreach
    obtain ⟨body, hlength, hexec⟩ := exec_fetchRequest_answered hreach nsid slba nlb oseq
    exact ⟨_, _, hexec, send_out _ _ _ _ hreach.link, rfl, rfl, hlength, by rw [send_zn, noted_zn], by rw [send_jr, noted_jr],
      (send_kept _ _ _ (noted_kept s h)).core rfl⟩
  case repairs =>
    intro s h nsid lba v k slot hreach hcanon hfetch hslot hgone
    have hread (ns l : Nat) := readLba_repairLba (s := { noted s h with tw := { (noted s h).tw with fetches := [] } }) hcanon.1 nsid lba v k ns l
    exact ⟨_, exec_fetchData_repairs hreach hfetch hslot hgone v k, (hread _ _).trans (if_pos rfl), rfl, fun ns l hother => (hread ns l).trans (if_neg hother),
      (repairLba_kept _ _ _ _ (Kept.upd (noted_kept s h).weakContent rfl rfl rfl)).core rfl⟩
  case copies =>
    intro s h f n x hreach hcanon hkind hn hhere hmirrored hbecoming hdata hwhole hfree
    refine ⟨_, exec_reshapeCopy_applied hreach hkind hn hhere hmirrored hbecoming, ?_,
      (confirmFrame_kept h _ (takeUnits_kept f (noted_kept s h).weakContent)).core rfl⟩
    have hread := readLba_takeUnits (s := noted s h) hcanon.1 hdata hwhole hfree f.nsid f.slba
    exact (readLba_of_store (by rw [confirmFrame, send_zn]) _ _).trans (hread.trans (if_pos rfl))

end Sys2Proof.Machine

namespace Sys2Proof.Machine

/-! SUPPORT. Messages between the modules: what a message changes here, and how one from the twin is judged (R263, R294 to R302). -/

/-! ### Sending -/

/-- Of the twin's part a message changes the flit sender, the counters and what was sent (R294, R296, R302). -/
theorem send_tw_field {α : Type} (f : Twin → α) (hf : ∀ t : Twin, f { t.still with out := [], counters := [] } = f t) (s : State) (typ tag : Nat) (body : List Nat) :
    f (send s typ tag body).tw = f s.tw := by
  have hsame {t : Twin} (h : t.still = s.tw.still) (o : List Out) (c : List Nat) : f { t with out := o, counters := c } = f s.tw := by
    rw [← hf s.tw, ← hf, ← h]
    rfl
  unfold send
  split
  · dsimp only
    split
    · exact hsame rfl _ _
    · exact hsame (formFlits_still _ _ _) _ _
  · rfl

/-- A message of the link class is no request of the cipher engines (R401). -/
theorem send_link (s : State) {typ : Nat} (htyp : msgClass typ = 2) (tag : Nat) (body : List Nat) :
    send s typ tag body = { s with tw := (send s typ tag body).tw } := by
  unfold send sealMsg
  rw [if_pos htyp]
  split <;> rfl

/-- Of the islands a message changes the engine's requests alone (R401). -/
theorem send_it (s : State) (typ tag : Nat) (body : List Nat) : ∃ e, (send s typ tag body).it = { s.it with engine := e } := by
  unfold send
  split
  · show ∃ e, (sealMsg s typ tag body).it = _
    unfold sealMsg
    split
    · exact ⟨_, rfl⟩
    · exact ⟨_, rfl⟩
  · exact ⟨_, rfl⟩

/-- Flits that are sent use up credits (R297). -/
theorem sendFlits_credits (n : Nat) (t : Twin) : (sendFlits n t).crPri ≤ t.crPri ∧ (sendFlits n t).crBulk ≤ t.crBulk := by
  induction n generalizing t with
  | zero => exact ⟨Nat.le_refl _, Nat.le_refl _⟩
  | succ n ih =>
    unfold sendFlits
    cases nextKind t with
    | none => exact ⟨Nat.le_refl _, Nat.le_refl _⟩
    | some k =>
      have hflit : (sendFlit t k).crPri ≤ t.crPri ∧ (sendFlit t k).crBulk ≤ t.crBulk := by
        unfold sendFlit
        constructor <;> dsimp only <;> split <;> omega
      exact ⟨(ih _).1.trans hflit.1, (ih _).2.trans hflit.2⟩

/-! ### Messages of the twin judged -/

/-- A message that does not verify is an integrity fault (R302). -/
theorem peerMsg_unverified {s : State} {h : MsgHdr} (hlink : s.tw.linkUp = true) (hrails : s.sup.rails = true) (hauth : h.authOk = false) (typs : List Nat) (f : State → State) :
    peerMsg s h typs f = .next (integrityFault s (msgClass h.typ)) := by
  unfold peerMsg
  rw [if_neg (by simp [hlink, hrails]), if_pos (by simp [hauth])]

/-- A message outside Service, of another epoch, or of another type has no effect but its record (R299). -/
theorem peerMsg_discards {s : State} {h : MsgHdr} (hlink : s.tw.linkUp = true) (hrails : s.sup.rails = true) (hauth : h.authOk = true) {typs : List Nat} (f : State → State)
    (hforeign : s.md.mode ≠ .service ∨ h.pepoch ≠ s.jr.pepoch.toNat ∨ ¬ typs.contains h.typ = true) : peerMsg s h typs f = .next (discard (noted s h) h) := by
  unfold peerMsg
  rw [if_neg (by simp [hlink, hrails]), if_neg (by simp [hauth])]
  dsimp only
  rw [if_pos (by simpa [notePhase] using hforeign)]
  rfl

/-! ### An integrity fault (R302) -/

@[simp] theorem capture_tw (s : State) (typ : Nat) : (capture s typ).tw = s.tw := by
  unfold capture
  dsimp only
  split <;> simp

/-- The instants of the integrity faults of the last 10 minutes, this one's among them. -/
def recentFaults (s : State) : List Nat := (s.tw.integrityAt ++ [s.time.dtb]).filter (fun t => s.time.dtb < t + 600000000000)

theorem integrityFault_tw (s : State) (cls : Nat) : (integrityFault s cls).tw =
    { s.tw with linkUp := false, integrity := min (s.tw.integrity + 1) (2^32 - 1), integrityAt := recentFaults s, locked := s.tw.locked || 3 ≤ (recentFaults s).length } := by
  unfold integrityFault
  dsimp only
  split <;> simp [recentFaults]

theorem integrityFault_jr (s : State) (cls : Nat) : (integrityFault s cls).jr = s.jr := by
  unfold integrityFault
  dsimp only
  split <;> simp

end Sys2Proof.Machine

namespace Sys2Proof.Machine

/-! ### Heartbeats, credits and shares (R268, R295, R297, R303) -/

/-- The state in which a heartbeat goes out: one more is counted (R303). -/
def counted (s : State) : State := { s with tw := { s.tw with hbCount := s.tw.hbCount + 1 } }

theorem exec_heartbeatSend {s : State} (hlink : s.tw.linkUp = true) :
    ∃ l, exec .heartbeatSend s = .next (send (counted s) 0x42 0 (s.md.mode.code :: l)) := by
  rw [show exec .heartbeatSend s = execHeartbeatSend s from rfl, execHeartbeatSend, if_neg (by simp [hlink])]
  exact ⟨_, rfl⟩

theorem heartbeatSend_sends {s : State} (hlink : s.tw.linkUp = true) : ∃ t x, exec .heartbeatSend s = .next t ∧ t.tw.hbCount = s.tw.hbCount + 1 ∧
    t.tw.out = s.tw.out ++ [x] ∧ x.hdr.typ = 0x42 ∧ x.body.head? = some s.md.mode.code ∧ t = { s with tw := t.tw } := by
  obtain ⟨l, hexec⟩ := exec_heartbeatSend hlink
  exact ⟨_, _, hexec, send_tw_field (·.hbCount) (fun _ => rfl) _ _ _ _, send_out (counted s) _ _ _ hlink, rfl, rfl, send_link (counted s) rfl _ _⟩

theorem heartbeat_noted {s : State} {h : MsgHdr} (b : Beat) (hlink : s.tw.linkUp = true) (htyp : h.typ = 0x42) : ∃ t, exec (.heartbeat h b) s = .next t ∧
    t.tw.peerMode = b.mode ∧ t.tw.peerFlags = b.flags ∧ t.tw.peerSenseOut = b.senseOut ∧ t.tw.peerAt = some s.time.dtb ∧ t.tw.lostPending = false ∧
    t = { s with tw := t.tw } := by
  rw [show exec (.heartbeat h b) s = execHeartbeat h b s from rfl, execHeartbeat, if_neg (by simp [hlink, htyp])]
  exact ⟨_, rfl, rfl, rfl, rfl, rfl, rfl, rfl⟩

theorem exec_creditReturn {s : State} (hlink : s.tw.linkUp = true) (howed : s.tw.owePri ≠ 0 ∨ s.tw.oweBulk ≠ 0) :
    exec .creditReturn s = .next (returnCredits s) := by
  show execCreditReturn s = _
  unfold execCreditReturn
  rw [if_neg (by simpa [hlink, ← imp_iff_not_or] using howed)]

theorem creditReturn_returns {s : State} (hlink : s.tw.linkUp = true) (howed : s.tw.owePri ≠ 0 ∨ s.tw.oweBulk ≠ 0) : ∃ t x, exec .creditReturn s = .next t ∧
    t.tw.owePri = 0 ∧ t.tw.oweBulk = 0 ∧ t.tw.out = s.tw.out ++ [x] ∧ x.hdr.typ = 0x41 ∧ x.body = [s.tw.owePri, s.tw.oweBulk] ∧ t = { s with tw := t.tw } := by
  refine ⟨_, _, exec_creditReturn hlink howed, rfl, rfl, send_out s _ _ _ hlink, rfl, rfl, ?_⟩
  unfold returnCredits
  rw [send_link s rfl]

theorem credit_bounded {s : State} {h : MsgHdr} (pri bulk : Nat) (hlink : s.tw.linkUp = true) (htyp : h.typ = 0x41) : ∃ t, exec (.credit h pri bulk) s = .next t ∧
    t.tw = pumpFlits { s.tw with crPri := min (peerCredits s.tw.dRate s.tw.dWidth).1 (s.tw.crPri + pri), crBulk := min (peerCredits s.tw.dRate s.tw.dWidth).2 (s.tw.crBulk + bulk) } ∧
    t.tw.crPri ≤ (peerCredits s.tw.dRate s.tw.dWidth).1 ∧ t.tw.crBulk ≤ (peerCredits s.tw.dRate s.tw.dWidth).2 ∧ t = { s with tw := t.tw } := by
  rw [show exec (.credit h pri bulk) s = execCredit h pri bulk s from rfl, execCredit]
  dsimp only
  rw [if_neg (by simp [hlink, htyp])]
  exact ⟨_, rfl, rfl, (sendFlits_credits _ _).1.trans (Nat.min_le_left _ _), (sendFlits_credits _ _).2.trans (Nat.min_le_left _ _), rfl⟩

/-- The state in which a function's free share is told: it counts as told (R268). -/
def shareTold (s : State) (f : Nat) : State := { s with jr := { s.jr with told := KV.set s.jr.told f (shareFree s f) } }

theorem exec_shareUpdateSend {s : State} {f : Nat} (hmode : s.md.mode = .service) (hf : f < funcs) (hchanged : KV.find s.jr.told f ≠ some (shareFree s f)) :
    exec (.shareUpdateSend f) s = .next (send (shareTold s f) 3 0 [f, shareFree s f, drainRate s f]) := by
  show execShareUpdateSend f s = _
  unfold execShareUpdateSend
  dsimp only
  rw [if_neg (by simp [hmode, Nat.not_le.2 hf, hchanged])]
  rfl

theorem shareUpdateSend_tells {s : State} {f : Nat} (hmode : s.md.mode = .service) (hlink : s.tw.linkUp = true) (hf : f < funcs)
    (hchanged : KV.find s.jr.told f ≠ some (shareFree s f)) : ∃ t x, exec (.shareUpdateSend f) s = .next t ∧ t.tw.out = s.tw.out ++ [x] ∧
    x.hdr.typ = 3 ∧ x.body = [f, shareFree s f, drainRate s f] ∧ KV.find t.jr.told f = some (shareFree s f) ∧
    t = { s with jr := t.jr, tw := t.tw, it := { s.it with engine := t.it.engine } } := by
  refine ⟨_, _, exec_shareUpdateSend hmode hf hchanged, send_out (shareTold s f) _ _ _ hlink, rfl, rfl, ?_, ?_⟩
  · rw [send_jr]
    exact KV.find_set_self _ _ _
  · obtain ⟨e, he⟩ := send_it (shareTold s f) 3 0 [f, shareFree s f, drainRate s f]
    have hframe := send_frame (shareTold s f) 3 0 [f, shareFree s f, drainRate s f]
    rw [he] at hframe
    rw [hframe]
    rfl

/-! ### Key updates (R302) -/

/-- New keys stand before the four held, which stay (R302). -/
theorem updateKeys_linkKeys (s : State) : ∃ l, l.length = 4 ∧ (updateKeys s).keys.linkKeys = l ++ s.keys.linkKeys.take 4 := ⟨[_, _, _, _], rfl, rfl⟩

theorem updateKeys_slots (s : State) : (updateKeys s).keys.slots = s.keys.slots := rfl
theorem updateKeys_keyPhase (s : State) : (updateKeys s).tw.keyPhase = !s.tw.keyPhase := rfl

theorem exec_keyUpdateDue {s : State} (hmode : s.md.mode = .service) (hlink : s.tw.linkUp = true) (hrank : rank s = 0) (hdue : keysDue s = true) :
    exec .keyUpdateDue s = .next (updateKeys (send s 0x44 0 [0xE9])) := by
  show execKeyUpdateDue s = _
  unfold execKeyUpdateDue
  rw [if_neg (by simp [hmode, hlink, hrank, hdue])]

theorem keyUpdateDue_updates {s : State} (hmode : s.md.mode = .service) (hlink : s.tw.linkUp = true) (hrank : rank s = 0) (hdue : keysDue s = true) :
    ∃ t, exec .keyUpdateDue s = .next t ∧ t.tw.keyPhase = !s.tw.keyPhase ∧ t.keys.linkKeys.length = 4 + min 4 s.keys.linkKeys.length ∧
    t.keys.linkKeys.drop 4 = s.keys.linkKeys.take 4 ∧ t.keys.slots = s.keys.slots ∧ t.zn.store = s.zn.store ∧ Core s t := by
  have hkept : Kept true true s (updateKeys (send s 0x44 0 [0xE9])) := updateKeys_kept (send_kept _ _ _ (Kept.refl s))
  obtain ⟨l, hl, hkeys⟩ := updateKeys_linkKeys (send s 0x44 0 [0xE9])
  rw [send_keys] at hkeys
  refine ⟨_, exec_keyUpdateDue hmode hlink hrank hdue, ?_, ?_, ?_, ?_, hkept.content rfl, hkept.core rfl⟩
  · rw [updateKeys_keyPhase, send_tw_field (·.keyPhase) fun _ => rfl]
  · simp [hkeys, hl]
  · rw [hkeys, ← hl, List.drop_left]
  · rw [updateKeys_slots, send_keys]

theorem keyUpdateDue_waits {s : State} (h : s.md.mode ≠ .service ∨ rank s ≠ 0 ∨ keysDue s = false) : exec .keyUpdateDue s = .next s := by
  show execKeyUpdateDue s = _
  unfold execKeyUpdateDue
  rw [if_pos]
  rcases h with hmode | hrank | hdue
  · exact .inl hmode
  · exact .inr (.inr (.inl hrank))
  · exact .inr (.inr (.inr (by simp [hdue])))

/-! ### A mirror record that does not verify, or of another epoch (R299, R302) -/

theorem exec_mirrorRecord_unverified {s : State} {h : MsgHdr} (b : MirrorBody) (hlink : s.tw.linkUp = true) (hrails : s.sup.rails = true) (hauth : h.authOk = false) :
    exec (.mirrorRecord h b) s = .next (integrityFault s (msgClass h.typ)) := by
  show execMirrorRecord h b s = _
  rw [execMirrorRecord, peerMsg_unverified hlink hrails hauth]

/-- The third integrity fault within 10 minutes locks the link (R302). -/
theorem integrityFault_locks {s : State} {a c : Nat} (hat : s.tw.integrityAt = [a, c]) (ha : s.time.dtb < a + 600000000000) (hc : s.time.dtb < c + 600000000000) (cls : Nat) :
    (integrityFault s cls).tw.locked = true := by
  have hrecent : recentFaults s = [a, c, s.time.dtb] := by simp [recentFaults, hat, ha, hc]
  simp [integrityFault_tw, hrecent]

theorem exec_mirrorRecord_foreign {s : State} {h : MsgHdr} (b : MirrorBody) (hlink : s.tw.linkUp = true) (hrails : s.sup.rails = true) (hauth : h.authOk = true)
    (hforeign : s.md.mode ≠ .service ∨ h.pepoch ≠ s.jr.pepoch.toNat) : exec (.mirrorRecord h b) s = .next (discard (noted s h) h) := by
  show execMirrorRecord h b s = _
  rw [execMirrorRecord, peerMsg_discards hlink hrails hauth _ (hforeign.imp_right Or.inl)]

theorem discard_noted_kept (s : State) (h : MsgHdr) : Kept true true s (discard (noted s h) h) := discard_kept h (noted_kept s h)

/-- Settles O49: a message changes the link's part alone, or what `Kept` leaves open. -/
theorem deroftMessages : Obligations.DeroftMessages := by
  unfold Obligations.DeroftMessages
  refine ⟨fun s => heartbeatSend_sends, fun s h b => heartbeat_noted b, fun s => creditReturn_returns, fun s h pri bulk => credit_bounded pri bulk,
    fun s f => shareUpdateSend_tells, fun s => keyUpdateDue_updates, fun s => keyUpdateDue_waits, ?_, ?_, ?_⟩
  · intro s h b hlink hrails hauth
    have hkept : Kept true true s (integrityFault s (msgClass h.typ)) := integrityFault_kept _ (Kept.refl s)
    refine ⟨_, exec_mirrorRecord_unverified b hlink hrails hauth, ?_, ?_, hkept.content rfl, integrityFault_jr s _, hkept.core rfl⟩
    · rw [integrityFault_tw]
    · rw [integrityFault_tw]
  · intro s h b a c hlink hrails hauth hat ha hc
    exact ⟨_, exec_mirrorRecord_unverified b hlink hrails hauth, integrityFault_locks hat ha hc _⟩
  · intro s h b hlink hrails hauth hforeign
    have hkept := discard_noted_kept s h
    refine ⟨exec_mirrorRecord_foreign b hlink hrails hauth hforeign, hkept.content rfl, ?_, hkept.core rfl⟩
    unfold discard
    rw [record_jr, noted_jr]

end Sys2Proof.Machine

namespace Sys2Proof.Machine

/-! SUPPORT. What a separation of the pair settles (R263, R313, R318), and what leaves it alone: the epoch, the twin's record of the pair, the commands carried to the twin, and who owns each namespace. -/

/-- Who owns a namespace: whether it is mirrored, owned here, fenced (R313). -/
def Ns.owner (n : Ns) : Bool × Bool × Bool := (n.mirrored, n.here, n.fenced)

/-- What a separation settles of the pair (R263, R313, R319): the epoch, the link and its keys, the departure under way, how the twin was lost. -/
structure Bond where
  pepoch : BitVec 32
  departing : Option Nat
  paired : Bool
  linkUp : Bool
  lossKind : Nat
  twinDeparted : Bool
  linkKeys : List Nat

/-- The bond with the twin, what waits for the twin, the deleted namespaces still to be told of, and the owners of the namespaces (R313). -/
structure Ties where
  bond : Bond
  adminWait : List AdminWait
  formats : List Fmt
  tombs : List Nat
  owners : List (Bool × Bool × Bool)

/-- The record of the pair that the twin's part of the state holds. -/
def Twin.bond (t : Twin) (pepoch : BitVec 32) (linkKeys : List Nat) : Bond :=
  { pepoch := pepoch, departing := t.departing, paired := t.paired, linkUp := t.linkUp, lossKind := t.lossKind, twinDeparted := t.twinDeparted, linkKeys := linkKeys }

def ties (s : State) : Ties :=
  { bond := s.tw.bond s.jr.pepoch s.keys.linkKeys, adminWait := s.tw.adminWait, formats := s.adm.formats, tombs := s.zn.tombs, owners := s.zn.ns.map fun p => p.2.owner }

theorem ties_of {s t : State} (hzn : t.zn = s.zn) (hjr : t.jr = s.jr) (htw : t.tw = s.tw) (hkeys : t.keys = s.keys) (hadm : t.adm = s.adm) : ties t = ties s := by
  unfold ties
  rw [hzn, hjr, htw, hkeys, hadm]

theorem ties_foldl {α : Type} {f : State → α → State} (h : ∀ s x, ties (f s x) = ties s) (l : List α) (s : State) : ties (l.foldl f s) = ties s :=
  foldl_field ties f h l s

theorem bond_foldl {α : Type} {f : State → α → State} (h : ∀ s x, (ties (f s x)).bond = (ties s).bond) (l : List α) (s : State) :
    (ties (l.foldl f s)).bond = (ties s).bond := foldl_field (fun s => (ties s).bond) f h l s

theorem PortIt.ties {c s : State} (h : PortIt c s) : ties s = ties c := h.field Machine.ties fun _ _ => rfl

theorem CalOnly.ties {c s : State} (h : CalOnly c s) : ties s = ties c := by
  rw [h]
  rfl

theorem MediaOnly.ties {c s : State} (h : MediaOnly c s) : ties s = ties c := by
  rw [h]
  rfl

/-- A change of a namespace that leaves its owner leaves the owners. -/
theorem setNs_ties (s : State) (nsid : Nat) {g : Ns → Ns} (h : ∀ n, (g n).owner = n.owner) : ties (setNs s nsid g) = ties s := by
  have howners : (KV.adj s.zn.ns nsid g).map (fun p => p.2.owner) = s.zn.ns.map (fun p => p.2.owner) := by
    unfold KV.adj
    rw [List.map_map]
    refine List.map_congr_left fun p _ => ?_
    dsimp only [Function.comp]
    split
    · exact h p.2
    · rfl
  exact congrArg (Ties.mk _ _ _ _) howners

theorem zn_bond (s : State) (z : Zn) : (ties { s with zn := z }).bond = (ties s).bond := rfl
theorem setNs_bond (s : State) (nsid : Nat) (g : Ns → Ns) : (ties (setNs s nsid g)).bond = (ties s).bond := rfl

theorem media_ties (s : State) (m : Media) : ties { s with media := m } = ties s := rfl
@[simp] theorem setZone_ties (s : State) (nsid i : Nat) (f : Zone → Zone) : ties (setZone s nsid i f) = ties s := by
  unfold setZone
  exact setNs_ties s nsid fun _ => rfl
@[simp] theorem setRec_ties (s : State) (q : Nat) (f : VRec → VRec) : ties (setRec s q f) = ties s := rfl
@[simp] theorem setCmd_ties (s : State) (slot : Nat) (f : Cmd → Cmd) : ties (setCmd s slot f) = ties s := by
  unfold setCmd
  rfl
@[simp] theorem setCtrl_ties (s : State) (func : Nat) (f : Ctrl → Ctrl) : ties (setCtrl s func f) = ties s := rfl
@[simp] theorem setGrp_ties (s : State) (g : Nat) (f : Grp → Grp) : ties (setGrp s g f) = ties s := rfl
@[simp] theorem setLedger_ties (s : State) (func row : Nat) (f : Ledger → Ledger) : ties (setLedger s func row f) = ties s := rfl
@[simp] theorem setZop_ties (s : State) (f q : Nat) (g : ZopRec → ZopRec) : ties (setZop s f q g) = ties s := rfl
@[simp] theorem drawFree_ties (s : State) : ties (drawFree s).2 = ties s := rfl

/-! ### Completions, events, messages, flags -/

@[simp] theorem complete_ties (s : State) (func sqid cid : Nat) (st : Status) (dw0 dw1 : Nat) (data : List Nat) :
    ties (complete s func sqid cid st dw0 dw1 data) = ties s := ties_of (by simp) (by simp) (by simp) (by simp) (by simp)

@[simp] theorem raiseAen_ties (s : State) (func typ info log : Nat) : ties (raiseAen s func typ info log) = ties s :=
  ties_of (by simp) (by simp) (by simp) (by simp) (by simp)

@[simp] theorem raiseAll_ties (s : State) (typ info log : Nat) : ties (raiseAll s typ info log) = ties s :=
  ties_of (by simp) (by simp) (by simp) (by simp) (by simp)

@[simp] theorem record_ties (s : State) (typ : Nat) (payload : List Nat) (func : Option Nat) (nsid key : Nat) :
    ties (record s typ payload func nsid key) = ties s := ties_of (by simp) (by simp) (by simp) (by simp) (by simp)

@[simp] theorem send_ties (s : State) (typ tag : Nat) (body : List Nat) : ties (send s typ tag body) = ties s := by
  have htw := send_tw_field (fun t => (t.bond s.jr.pepoch s.keys.linkKeys, t.adminWait)) (fun _ => rfl) s typ tag body
  unfold ties
  rw [send_jr, send_keys, send_adm, send_zn]
  exact congrArg (fun x : Bond × List AdminWait => Ties.mk x.1 x.2 _ _ _) htw

@[simp] theorem setFlags_ties (s : State) (f : ModeSt → ModeSt) : ties (setFlags s f) = ties s :=
  ties_of (by simp) (by simp) (by simp) (by simp) (by simp)

@[simp] theorem completeFor_ties (s : State) (owner cid : Nat) (st : Status) (dw0 : Nat) (data : List Nat) :
    ties (completeFor s owner cid st dw0 data) = ties s := by
  unfold completeFor
  split <;> simp

theorem updateAna_ties (s : State) : ties (updateAna s) = ties s := by
  refine ties_foldl (fun s p => ?_) _ s
  dsimp only
  split
  · rfl
  · exact (ties_foldl (fun s f => raiseAen_ties s f _ _ _) _ _).trans (setNs_ties _ _ fun _ => rfl)

@[simp] theorem noteNs_ties (s : State) (nsid : Nat) : ties (noteNs s nsid) = ties s :=
  ties_foldl (fun s f => (raiseAen_ties _ f _ _ _).trans (setCtrl_ties s f _)) _ s

end Sys2Proof.Machine

namespace Sys2Proof.Machine

/-! ### Buffers and the end of a command (R30, R86, R280) -/

theorem dropUser_portIt (s : State) (slot : Nat) (u : BufUser) : PortIt s (dropUser s slot u) := by
  unfold dropUser
  split
  · rfl
  · split
    · rfl
    · exact (PortIt.foldl decBuf_portIt _ s).trans rfl

theorem freeBufs_portIt (s : State) (c : Cmd) : PortIt s (freeBufs s c) :=
  (PortIt.foldl (fun s _ => PortIt.foldl decBuf_portIt c.bufs s) c.users s).trans rfl

@[simp] theorem dropUser_ties (s : State) (slot : Nat) (u : BufUser) : ties (dropUser s slot u) = ties s := (dropUser_portIt s slot u).ties

@[simp] theorem takeBufs_ties (s : State) (slot bytes : Nat) (users : List BufUser) : ties (takeBufs s slot bytes users) = ties s :=
  (takeBufs_portIt s slot bytes users).ties

@[simp] theorem missEvent_ties (s : State) (c : Cmd) (late : Nat) : ties (missEvent s c late) = ties s := by
  unfold missEvent
  split <;> simp

@[simp] theorem withoutCmd_ties (s : State) (slot : Nat) (c : Cmd) : ties (withoutCmd s slot c) = ties s :=
  ((freeBufs_portIt s c).trans (c := withoutCmd s slot c) rfl).ties

@[simp] theorem endCmd_ties (s : State) (slot : Nat) (st : Status) (dw0 dw1 : Nat) (data : List Nat) : ties (endCmd s slot st dw0 dw1 data) = ties s := by
  cases hc : KV.find s.port.cmds slot with
  | none => simp [endCmd, hc]
  | some c =>
    rw [endCmd_eq hc]
    split
    · simp
    · split <;> simp

@[simp] theorem wakeFlushes_ties (s : State) (slot : Nat) : ties (wakeFlushes s slot) = ties s := by
  unfold wakeFlushes
  exact (ties_foldl (fun s _ => endCmd_ties s _ _ _ _ _) _ _).trans rfl

@[simp] theorem endDelete_ties (s : State) (func sqid : Nat) : ties (endDelete s func sqid) = ties s := by
  unfold endDelete
  repeat' split
  · rfl
  · rfl
  · rfl
  · exact complete_ties _ _ _ _ _ _ _ _

@[simp] theorem endShutdown_ties (s : State) (func : Nat) : ties (endShutdown s func) = ties s := by
  unfold endShutdown
  split <;> simp

@[simp] theorem tcgFor_ties (s : State) (owner cid result : Nat) : ties (tcgFor s owner cid result) = ties s := by
  unfold tcgFor tcgResult
  split
  · exact complete_ties _ _ _ _ _ _ _ _
  · rfl

@[simp] theorem endInjection_ties (s : State) (func cid : Nat) (ok : Bool) : ties (endInjection s func cid ok) = ties s := by
  unfold endInjection
  split <;> simp

@[simp] theorem putInjected_ties (s : State) (slot key tenant : Nat) : ties (putInjected s slot key tenant) = ties s := by
  unfold putInjected
  rfl

@[simp] theorem inject_ties (s : State) (w : KeyWait) : ties (inject s w) = ties s := by
  unfold inject
  repeat' split
  · exact endInjection_ties _ _ _ _
  · exact endInjection_ties _ _ _ _
  · rfl
  · exact (endInjection_ties _ _ _ _).trans (putInjected_ties _ _ _ _)

@[simp] theorem settleKeys_ties (s : State) : ties (settleKeys s) = ties s := by
  unfold settleKeys
  split
  · rfl
  · exact (ties_foldl inject_ties _ _).trans rfl

@[simp] theorem afterEnd_ties (s : State) (slot func sqid : Nat) : ties (afterEnd s slot func sqid) = ties s := by simp [afterEnd]

@[simp] theorem finish_ties (s : State) (slot : Nat) (st : Status) (dw0 dw1 : Nat) (data : List Nat) : ties (finish s slot st dw0 dw1 data) = ties s := by
  unfold finish
  split <;> simp

@[simp] theorem disposeQuiet_ties (s : State) (slot : Nat) : ties (disposeQuiet s slot) = ties s := by
  unfold disposeQuiet
  split
  · rfl
  · next c _ => exact (afterEnd_ties _ _ _ _).trans ((missEvent_ties _ _ _).trans (withoutCmd_ties s slot c))

@[simp] theorem endTwinRead_ties (s : State) (slot : Nat) : ties (endTwinRead s slot) = ties s := by
  unfold endTwinRead
  split
  · rfl
  · split <;> simp

/-! ### Multi-zone commands (R121, R122) -/

@[simp] theorem settleRes_ties (s : State) (slot : Nat) (c : Cmd) (i : Nat) (r : ZRes) : ties (settleRes s slot c i r) = ties s := by
  unfold settleRes
  split
  · simp
  · split <;> simp

theorem settleHead_ties (slot : Nat) (c : Cmd) (l : List (Nat × ZRes)) (s : State) : ties (settleHead slot c l s).1 = ties s := by
  induction l generalizing s with
  | nil => rfl
  | cons x l ih =>
    obtain ⟨i, r⟩ := x
    cases r with
    | change q => rfl
    | _ => exact (ih _).trans (settleRes_ties _ _ _ _ _)

@[simp] theorem settleZop_ties (s : State) (slot : Nat) (l : List (Nat × ZRes)) : ties (settleZop s slot l) = ties s := by
  have hend (u : State) (c : Cmd) : ties (endZop u slot c) = ties u := by simp [endZop]
  unfold settleZop
  split
  · rfl
  · next c _ =>
    have hleft := settleHead_ties slot c l s
    dsimp only
    split
    · simp [hleft]
    · split
      · cases KV.find (setCmd (settleHead slot c l s).1 slot _).port.cmds slot <;> simp [hleft]
      · simp [hend, hleft]

@[simp] theorem wakeZops_ties (s : State) (seq : Nat) : ties (wakeZops s seq) = ties s := ties_foldl (fun s _ => settleZop_ties s _ _) _ s

/-! ### Records (R261, R262, R266, R276) -/

theorem placeRec_pepoch (s : State) (core pages seq : Nat) : (placeRec s core pages seq).1.jr.pepoch = s.jr.pepoch := by
  unfold placeRec
  split
  · rfl
  · dsimp only
    split <;> rfl

theorem compactSegs_pepoch (k : Nat) (s : State) : (compactSegs k s).jr.pepoch = s.jr.pepoch := by
  have hmove (u : State) (q : Nat) : (movePlace u q).jr.pepoch = u.jr.pepoch := by
    unfold movePlace
    split
    · rfl
    · exact placeRec_pepoch _ _ _ _
  induction k generalizing s with
  | zero => rfl
  | succ k ih =>
    unfold compactSegs
    split
    · rfl
    · split
      · rfl
      · exact (ih _).trans ((foldl_field (·.jr.pepoch) movePlace hmove _ _).trans rfl)

/-- A record is formed under the epoch in force, and leaves it. -/
theorem formRecord_pepoch (s : State) (core : Nat) (r : VRec) : (formRecord s core r).1.jr.pepoch = s.jr.pepoch := by
  have hopened : (openSession s).jr.pepoch = s.jr.pepoch := by
    unfold openSession
    split <;> rfl
  unfold formRecord
  exact (compactSegs_pepoch _ _).trans ((placeRec_pepoch _ _ _ _).trans hopened)

@[simp] theorem formRecord_ties (s : State) (core : Nat) (r : VRec) : ties (formRecord s core r).1 = ties s := by
  have hbond := congrArg (fun e => Ties.mk (s.tw.bond e s.keys.linkKeys) s.tw.adminWait s.adm.formats s.zn.tombs (s.zn.ns.map fun p => p.2.owner)) (formRecord_pepoch s core r)
  rw [formRecord_frame]
  exact hbond

@[simp] theorem retire_ties (s : State) (q : Nat) : ties (retire s q) = ties s := by
  unfold retire
  split <;> rfl

@[simp] theorem retireNs_ties (s : State) (nsid : Nat) : ties (retireNs s nsid) = ties s := by
  unfold retireNs
  split
  · rfl
  · exact ties_foldl (fun s _ => retire_ties s _) _ s

@[simp] theorem removeRec_ties (s : State) (q : Nat) : ties (removeRec s q) = ties s := by
  unfold removeRec
  split
  · rfl
  · dsimp only
    split <;> split
    · exact send_ties _ _ _ _
    · rfl
    · exact send_ties _ _ _ _
    · rfl

@[simp] theorem sendRec_ties (s : State) (seq : Nat) : ties (sendRec s seq) = ties s := by
  have hmark (p : Prop) [Decidable p] (l : List (Nat × Nat)) : ties (if p then { s with tw := { s.tw with firstMirror := l } } else s) = ties s := by
    split <;> rfl
  unfold sendRec
  split
  · rfl
  · next r _ =>
    split
    · rfl
    · dsimp only
      cases r.slot <;> simp [hmark]

@[simp] theorem sendMirror_ties (s : State) (seq : Nat) : ties (sendMirror s seq) = ties s := by
  unfold sendMirror
  dsimp only
  split
  · rfl
  · split
    · simp
    · exact (ties_foldl (fun s p => sendRec_ties s _) _ _).trans (setRec_ties _ _ _)

/-! ### Passes of a zone (R189) -/

theorem queuePass_mediaOnly (s : State) (nsid i : Nat) (z : Zone) (kind : DieOpKind) (wl func step : Nat) :
    MediaOnly s (queuePass s nsid i z kind wl func step) := by
  unfold queuePass
  split <;> rfl

theorem queueLine_mediaOnly (s : State) (nsid i : Nat) (z : Zone) (wl func step : Nat) : MediaOnly s (queueLine s nsid i z wl func step) := by
  have hpass (u : State) (kind : DieOpKind) (wl : Nat) := queuePass_mediaOnly u nsid i z kind wl func step
  unfold queueLine
  split
  · exact hpass _ _ _
  · extract_lets coarse fine first second
    have hsecond : MediaOnly s second := by
      dsimp only [second]
      split
      · exact hpass _ _ _
      · exact (hpass _ _ _).trans (hpass _ _ _)
    split
    · exact hsecond.trans (hpass _ _ _)
    · exact hsecond

@[simp] theorem queueTo_ties (s : State) (nsid i upTo func step : Nat) : ties (queueTo s nsid i upTo func step) = ties s := by
  unfold queueTo
  split
  · rfl
  · exact (MediaOnly.foldl (fun s k => queueLine_mediaOnly s _ _ _ _ _ _) _ _).ties.trans (setZone_ties _ _ _ _)

@[simp] theorem foldTo_ties (s : State) (nsid i upTo func : Nat) : ties (foldTo s nsid i upTo func) = ties s := by
  have hreads (lo hi : Nat) : MediaOnly s (foldReads s nsid i lo hi) := by
    unfold foldReads
    split
    · rfl
    · exact MediaOnly.foldl (fun s _ => show askReads s _ _ = _ from rfl) _ s
  unfold foldTo
  split
  · rfl
  · rw [queueTo_ties, (hreads _ _).ties]

@[simp] theorem queueReady_ties (s : State) (nsid i func : Nat) : ties (queueReady s nsid i func) = ties s := by
  unfold queueReady
  split
  · rfl
  · dsimp only
    repeat' split
    all_goals simp

@[simp] theorem advance_ties (s : State) (nsid i endOff func : Nat) : ties (advance s nsid i endOff func) = ties s := by
  unfold advance
  split
  · rfl
  · exact (queueReady_ties _ _ _ _).trans (setZone_ties _ _ _ _)

/-! ### Records applied (R266) -/

@[simp] theorem markCont_ties (s : State) (r : VRec) : ties (markCont s r) = ties s := by
  unfold markCont
  split
  · exact setNs_ties s _ fun _ => rfl
  · rfl

@[simp] theorem storeRec_ties (s : State) (r : VRec) : ties (storeRec s r) = ties s := by
  unfold storeRec
  refine ties_foldl (fun s i => ?_) _ _
  dsimp only
  split <;> rfl

@[simp] theorem countHost_ties (s : State) (density kib : Nat) : ties (countHost s density kib) = ties s := rfl

@[simp] theorem written_ties (s : State) (nsid : Nat) : ties (setNs s nsid fun n => { n with written := true }) = ties s := setNs_ties s nsid fun _ => rfl

@[simp] theorem applyRec_ties (s : State) (q : Nat) : ties (applyRec s q) = ties s := by
  unfold applyRec
  split
  · rfl
  · dsimp only
    repeat' split
    all_goals simp

@[simp] theorem settleZone_ties (s : State) (nsid i : Nat) : ties (settleZone s nsid i) = ties s := ties_foldl (fun s _ => applyRec_ties s _) _ s

@[simp] theorem settle_ties (s : State) (q : Nat) : ties (settle s q) = ties s := by
  unfold settle
  repeat' split
  all_goals simp

end Sys2Proof.Machine

namespace Sys2Proof.Machine

/-! ### Block sets, rows and merges (R200, R217, R273, R275) -/

theorem toEraseAll_mediaOnly (s : State) (k : Nat) : MediaOnly s (toEraseAll s k) := MediaOnly.foldl toErase_mediaOnly _ s

theorem staleMeta_mediaOnly (s : State) (g : Nat) : MediaOnly s (staleMeta s g) :=
  MediaOnly.foldl (fun s b => MediaOnly.foldl (fun s d => toEraseAll_mediaOnly s (setKey d b)) _ s) _ s

@[simp] theorem releaseRow_ties (s : State) (g : Nat) (ns : Option Nat) : ties (releaseRow s g ns) = ties s :=
  releaseRow_field ties (fun _ _ _ => rfl) s g ns

@[simp] theorem putUnit_ties (s : State) (g : Nat) (ns : Option Nat) (seq u : Nat) : ties (putUnit s g ns seq u) = ties s := by
  unfold putUnit
  dsimp only
  split <;> simp

@[simp] theorem appendUnit_ties (nsid : Nat) (s : State) (u : Nat) : ties (appendUnit nsid s u) = ties s := by
  unfold appendUnit
  split
  · rfl
  · exact (media_ties _ _).trans (setNs_ties s nsid fun _ => rfl)

@[simp] theorem moduleRecord_ties (s : State) (typ action arg : Nat) : ties (moduleRecord s typ action arg) = ties s := formRecord_ties s _ _

theorem mergeUnit_mediaOnly (nsid : Nat) (s : State) (u : Nat) : MediaOnly s (mergeUnit nsid s u) := by
  unfold mergeUnit
  split
  · rfl
  · dsimp only
    split
    · rfl
    · next hrows =>
      obtain ⟨m, rfl⟩ := takeRows_opens hrows
      rfl

@[simp] theorem freeLog_ties (s : State) (nsid : Nat) : ties (freeLog s nsid) = ties s := by
  unfold freeLog
  split
  · rfl
  · split
    · rfl
    · refine (staleMeta_mediaOnly _ _).ties.trans ((setNs_ties _ nsid ?_).trans (moduleRecord_ties s _ _ _))
      exact fun _ => rfl

@[simp] theorem startMerge_ties (s : State) (nsid : Nat) : ties (startMerge s nsid) = ties s := by
  unfold startMerge
  split
  · rfl
  · split
    · rfl
    · rw [freeLog_ties, (MediaOnly.foldl (mergeUnit_mediaOnly nsid) _ _).ties]
      exact setNs_ties s nsid fun _ => rfl

@[simp] theorem stageRec_ties (s : State) (seq : Nat) : ties (stageRec s seq) = ties s := by
  have happended (nsid : Nat) (l : List Nat) (u : State) : ties (l.foldl (appendUnit nsid) u) = ties u := ties_foldl (appendUnit_ties nsid) l u
  have hput (g : Nat) (ns : Option Nat) (l : List Nat) (u : State) : ties (l.foldl (fun s x => putUnit s g ns seq x) u) = ties u :=
    ties_foldl (fun s x => putUnit_ties s g ns seq x) l u
  unfold stageRec
  split
  · rfl
  · split
    · rfl
    · next n _ =>
      dsimp only
      split
      · rfl
      · cases n.zoned <;> split <;> simp [happended, hput]

@[simp] theorem stageZone_ties (s : State) (nsid i : Nat) : ties (stageZone s nsid i) = ties s := by
  unfold stageZone
  split
  · rfl
  · split
    · rfl
    · exact (ties_foldl (fun s _ => stageRec_ties s _) _ _).trans (setZone_ties _ _ _ _)

@[simp] theorem afterApply_ties (s : State) (q : Nat) : ties (afterApply s q) = ties s := by
  unfold afterApply
  split
  · rfl
  · split
    · rfl
    · split
      · rfl
      · dsimp only
        repeat' split
        all_goals simp

@[simp] theorem checkRelief_ties (s : State) : ties (checkRelief s) = ties s := by
  have hrelieved (k : Nat) (u : State) : ties (relieve k u) = ties u := by
    induction k generalizing u with
    | zero => rfl
    | succ k ih =>
      unfold relieve
      split
      · rfl
      · split
        · rfl
        · exact (ih _).trans (stageZone_ties _ _ _)
  unfold checkRelief
  split
  · exact hrelieved _ s
  · rfl

@[simp] theorem placeApplied_ties (s : State) : ties (placeApplied s) = ties s :=
  (checkRelief_ties _).trans (ties_foldl (fun s _ => afterApply_ties s _) _ s)

@[simp] theorem recordSettled_ties (s : State) (seq : Nat) : ties (recordSettled s seq) = ties s := by
  unfold recordSettled
  extract_lets t
  have hplaced : ties t = ties s := (placeApplied_ties _).trans ((wakeZops_ties _ seq).trans (settle_ties s seq))
  cases KV.find s.jr.recs seq with
  | none => rw [Option.elim_none, hplaced]
  | some r =>
    rw [Option.elim_some]
    split
    · rw [retireNs_ties, hplaced]
    · exact hplaced

@[simp] theorem dataArrived_ties (s : State) (slot q : Nat) : ties (dataArrived s slot q) = ties s := by
  have hsent (f : Cmd → Cmd) : ties (sendMirror (setCmd s slot f) q) = ties s := by simp
  unfold dataArrived
  dsimp only
  split
  · exact (stageRec_ties _ _).trans (hsent _)
  · exact hsent _

/-! ### Commands disposed of (R63, R280) -/

@[simp] theorem dropWrite_ties (s : State) (seq : Nat) : ties (dropWrite s seq) = ties s := by
  have hone (u : State) (p : Nat × VRec) : ties (match p.2.slot with | some sl => finish (removeRec u p.1) sl .zoneInvalidWrite | none => removeRec u p.1) = ties u := by
    split <;> simp
  unfold dropWrite
  split
  · rfl
  · dsimp only
    split
    · simp
    · split
      · simp
      · exact (setZone_ties _ _ _ _).trans ((ties_foldl hone _ _).trans (removeRec_ties s seq))

@[simp] theorem undo_ties (s : State) (slot : Nat) (c : Cmd) : ties (undo s slot c) = ties s := by
  unfold undo
  dsimp only
  split
  · exact dropWrite_ties s _
  · exact dropWrite_ties s _
  · exact dropWrite_ties s _
  · rfl

@[simp] theorem disposeCmd_ties (s : State) (slot : Nat) : ties (disposeCmd s slot) = ties s := by
  unfold disposeCmd
  split
  · rfl
  · split <;> simp

/-! ### Zones (R99 to R101, R106, R118) -/

@[simp] theorem retireZone_ties (s : State) (nsid i : Nat) : ties (retireZone s nsid i) = ties s :=
  (ties_foldl (fun s _ => retire_ties s _) _ _).trans rfl

@[simp] theorem emptyZone_ties (s : State) (nsid i : Nat) : ties (emptyZone s nsid i) = ties s := by
  unfold emptyZone
  split
  · rfl
  · exact (setZone_ties _ _ _ _).trans (retireZone_ties s nsid i :)

@[simp] theorem finishZone_ties (s : State) (nsid i : Nat) (byCtrl : Bool) : ties (finishZone s nsid i byCtrl) = ties s := by
  unfold finishZone
  split
  · rfl
  · dsimp only
    split
    · simp
    · split <;> simp

/-- Every state a result may hold has the ties of the state `s`. -/
def TiesOk {ε : Type} (s : State) (r : Except ε State) : Prop := ∀ t, r = .ok t → ties t = ties s

theorem TiesOk.ok {ε : Type} {s t : State} (h : ties t = ties s) : TiesOk s (.ok t : Except ε State) := fun _ e => by
  cases e
  exact h

theorem TiesOk.error {ε : Type} {s : State} {e : ε} : TiesOk s (.error e) := fun _ h => nomatch h

theorem getOpen_ties (s : State) (f : Nat) : TiesOk s (getOpen s f) := by
  unfold getOpen
  split
  · exact .ok rfl
  · split
    · exact .error
    · dsimp only
      split
      · exact .ok (setZone_ties _ _ _ _)
      · exact .error

theorem leaveEmpty_ties (s : State) (f nsid i : Nat) (n : Ns) (e : Ext) (valid : Bool) : TiesOk s (leaveEmpty s f nsid i n e valid) := by
  unfold leaveEmpty
  split
  · exact .error
  · split
    · exact .error
    · exact .ok (setZone_ties _ _ _ _)

/-- An Empty zone that is opened: a zone closed for it, then its place, then its state. -/
theorem openEmpty_ties {s s1 s2 : State} {f nsid i : Nat} {n : Ns} {e : Ext} {valid : Bool} (h1 : getOpen s f = .ok s1)
    (h2 : leaveEmpty s1 f nsid i n e valid = .ok s2) (st : ZState) : ties (openAs s2 f nsid i st) = ties s :=
  (setZone_ties s2 nsid i _).trans ((leaveEmpty_ties _ _ _ _ _ _ _ _ h2).trans (getOpen_ties _ _ _ h1))

theorem openForWrite_ties (s : State) (f nsid i : Nat) (n : Ns) : TiesOk s (openForWrite s f nsid i n) := by
  unfold openForWrite
  dsimp only
  split
  · exact .ok rfl
  · split
    · exact .error
    · next hopen =>
      split
      · split
        · exact .error
        · next hleft => exact .ok (openEmpty_ties hopen hleft _)
      · exact .ok ((setZone_ties _ nsid i _).trans (getOpen_ties _ _ _ hopen))

theorem zoneAction_ties (s : State) (f nsid i action : Nat) : TiesOk s (zoneAction s f nsid i action) := by
  unfold zoneAction
  split
  · exact .error
  · dsimp only
    split
    · exact .error
    · split
      · split
        · exact .ok (setZone_ties _ _ _ _)
        · exact .ok (setZone_ties _ _ _ _)
        · exact .ok rfl
        · exact .error
      · split
        · exact .ok rfl
        · exact .error
        · exact .ok (finishZone_ties _ _ _ _)
      · split
        · exact .ok rfl
        · exact .ok (setZone_ties _ _ _ _)
        · split
          · exact .error
          · next hopen => exact .ok ((setZone_ties _ nsid i _).trans (getOpen_ties _ _ _ hopen))
        · split
          · exact .error
          · next hopen =>
            split
            · exact .error
            · next hleft => exact .ok (openEmpty_ties hopen hleft _)
        · exact .error
      · split
        · exact .ok rfl
        · exact .error
        · exact .ok (emptyZone_ties _ _ _)
      · split
        · exact .ok (setZone_ties _ _ _ _)
        · exact .error

theorem setExtension_ties (e : Io) (s : State) (n : Ns) (i : Nat) : TiesOk s (setExtension e s n i) := by
  unfold setExtension
  split
  · exact .error
  · split
    · exact .error
    · split
      · exact .error
      · next hleft => exact .ok ((setZone_ties _ _ _ _).trans (leaveEmpty_ties _ _ _ _ _ _ _ _ hleft))
    · exact .error

theorem zoneChecks_ties {s t : State} {e : Io} {n : Ns} {op : IoOp} {off : Nat} (h : zoneChecks s e n op = .ok (off, t)) : ties t = ties s := by
  unfold zoneChecks at h
  dsimp only at h
  split at h
  · cases h
  · generalize (if (n.zone (e.slba / zoneSize n.flbas)).st = .empty then _ else _ : Nat) = cap at h
    split at h
    · cases h
    · split at h
      · cases h
      · split at h
        · cases h
        · cases hopen : openForWrite s e.func e.nsid (e.slba / zoneSize n.flbas) n with
          | error st =>
            rw [hopen] at h
            cases h
          | ok u =>
            rw [hopen] at h
            cases h
            exact openForWrite_ties _ _ _ _ _ _ hopen

end Sys2Proof.Machine

namespace Sys2Proof.Machine

/-! ### Commands carried out (R117, R123, R282, R316) -/

theorem countClaims_calOnly (s : State) (slot func : Nat) (twin : Bool) : CalOnly s (countClaims s slot func twin) := by
  unfold countClaims
  rfl

theorem carryNeed_calOnly (s : State) (slot : Nat) (c : Cmd) (claim d : Nat) (x : Need) : CalOnly s (carryNeed s slot c claim d x) := by
  unfold carryNeed
  dsimp only
  split
  · rfl
  · split
    · split
      · next hplaced => exact placeAround_places s _ _ _ _ _ _ _ _ hplaced
      · rfl
    · split
      · rfl
      · split
        · next hplaced => exact placeNeed_places s _ _ _ _ _ _ _ hplaced
        · rfl

@[simp] theorem carryRead_ties (s : State) (slot : Nat) (c : Cmd) (n : Ns) (claim : Nat) : ties (carryRead s slot c n claim) = ties s := by
  have hneeds (l : KV Need) : ties (l.foldl (fun s x => carryNeed s slot c claim x.1 x.2) s) = ties s :=
    ties_foldl (fun s x => (carryNeed_calOnly s slot c claim x.1 x.2).ties) l s
  unfold carryRead
  dsimp only
  split
  · simp
  · rw [endTwinRead_ties, setCmd_ties, (countClaims_calOnly _ _ _ _).ties, hneeds]

@[simp] theorem formWrite_ties (s : State) (slot : Nat) (e : Io) (j : Judged) (op : IoOp) (off core : Nat) : ties (formWrite s slot e j op off core) = ties s := by
  have htaken (u : State) : ties (takeLbas u e j off) = ties u := by
    unfold takeLbas
    split <;> simp
  have hcharged (u : State) (mirrored : Bool) : ties (chargeCredit u e j op mirrored) = ties u := by
    unfold chargeCredit
    split <;> rfl
  rw [formWrite_eq]
  dsimp only
  split <;> simp [recordWrite, htaken, hcharged]

@[simp] theorem deferShare_ties (s : State) (slot bytes : Nat) : ties (deferShare s slot bytes) = ties s := by
  unfold deferShare
  split
  · rfl
  · dsimp only
    split
    · rfl
    · rw [setCmd_ties]
      split <;> rfl

@[simp] theorem swapUser_ties (s : State) (slot : Nat) : ties (swapUser s slot) = ties s := setCmd_ties s slot _

@[simp] theorem carryWrite_ties (s : State) (slot : Nat) (e : Io) (c : Cmd) (n : Ns) : ties (carryWrite s slot e c n) = ties s := by
  unfold carryWrite
  dsimp only
  split
  · simp
  · split
    · simp
    · next off t hchecked =>
      have hjudged : ties t = ties s := by
        split at hchecked
        · exact zoneChecks_ties hchecked
        · cases hchecked
          rfl
      split
      · simp [hjudged]
      · split
        · simp [hjudged]
        · split
          · simp [hjudged]
          · split <;> simp [hjudged]

@[simp] theorem zoneRecord_ties (s : State) (e : Io) (n : Ns) (i action core : Nat) (slot : Option Nat) : ties (zoneRecord s e n i action core slot).1 = ties s := by
  have hmarked (u : State) (seq : Nat) : ties (resetMarked u e.nsid i action seq) = ties u := by
    unfold resetMarked
    split <;> simp
  rw [zoneRecord_eq]
  dsimp only
  split <;> simp [hmarked]

@[simp] theorem carryZone_ties (s : State) (slot : Nat) (e : Io) (n : Ns) : ties (carryZone s slot e n) = ties s := by
  unfold carryZone
  dsimp only
  split
  · simp
  · split
    · simp
    · next t hchanged =>
      have hzone : ties t = ties s := by
        split at hchanged
        · exact setExtension_ties _ _ _ _ _ hchanged
        · exact zoneAction_ties _ _ _ _ _ _ hchanged
      split
      · simp [hzone]
      · simp [hzone]

theorem selectOne_ties (e : Io) (n : Ns) (r : State × List (Nat × ZRes)) (i : Nat) : ties (selectOne e n r i).1 = ties r.1 := by
  unfold selectOne
  dsimp only
  generalize zoneEligible _ e.action = eligible
  split
  · rfl
  · split
    · rfl
    · next hchanged => exact (zoneRecord_ties _ _ _ _ _ _ _).trans (zoneAction_ties _ _ _ _ _ _ hchanged)

@[simp] theorem carryZones_ties (s : State) (slot : Nat) (e : Io) (c : Cmd) (n : Ns) : ties (carryZones s slot e c n) = ties s := by
  have hselected (u : State) (l : List Nat) (x : List (Nat × ZRes)) : ties (l.foldl (selectOne e n) (u, x)).1 = ties u :=
    foldl_field (fun r => ties r.1) (selectOne e n) (selectOne_ties e n) l (u, x)
  unfold carryZones selectFrom
  dsimp only
  rw [settleZop_ties, hselected, setCmd_ties]

@[simp] theorem carryFlush_ties (s : State) (slot nsid : Nat) : ties (carryFlush s slot nsid) = ties s := by
  unfold carryFlush
  dsimp only
  split <;> simp

@[simp] theorem carryOut_ties (s : State) (slot : Nat) (e : Io) (all : Bool) (claim : Nat) : ties (carryOut s slot e all claim) = ties s := by
  unfold carryOut
  split
  · rfl
  · split
    · simp
    · dsimp only
      split
      · simp
      · simp
      · simp
      · simp
      · simp
      · simp
      · split <;> simp

@[simp] theorem takeOverCmd_ties (s : State) (slot : Nat) (c : Cmd) : ties (takeOverCmd s slot c) = ties s := by
  unfold takeOverCmd
  split
  · dsimp only
    split <;> simp
  · simp

@[simp] theorem endForwarded_ties (s : State) (slot : Nat) (c : Cmd) : ties (endForwarded s slot c) = ties s := by
  unfold endForwarded
  dsimp only
  split <;> simp

@[simp] theorem endForTwin_ties (s : State) : ties (endForTwin s) = ties s := ties_foldl (fun s _ => disposeCmd_ties s _) _ s

@[simp] theorem ackAll_ties (s : State) (nsid : Nat) : ties (ackAll s nsid) = ties s := ties_foldl (fun s _ => by simp) _ s

/-! ### Copies held until their zone is level (R322) -/

theorem takeZoneChange_ties (s : State) (r : VRec) (n : Ns) : TiesOk s (takeZoneChange s r n) := by
  unfold takeZoneChange
  dsimp only
  split
  · exact .ok ((setZone_ties _ _ _ _).trans (emptyZone_ties _ _ _))
  · exact .ok (finishZone_ties _ _ _ _)
  · exact zoneAction_ties _ _ _ _ _
  · exact zoneAction_ties _ _ _ _ _
  · unfold takeExt
    split
    · exact .error
    · next hleft => exact .ok ((setZone_ties _ _ _ _).trans (leaveEmpty_ties _ _ _ _ _ _ _ _ hleft))
  · exact .ok (setZone_ties _ _ _ _)
  · exact .ok (setZone_ties _ _ _ _)
  · exact .ok (setNs_ties _ _ fun _ => rfl)
  · exact .ok rfl

theorem takeCopy_ties (s : State) (r : VRec) : TiesOk s (takeCopy s r) := by
  unfold takeCopy takeWrite
  split
  · exact .error
  · split
    · split
      · split
        · exact .error
        · next hopen => exact .ok ((setZone_ties _ _ _ _).trans (openForWrite_ties _ _ _ _ _ _ hopen))
      · exact .ok rfl
    · split
      · exact takeZoneChange_ties s r _
      · exact .ok rfl

@[simp] theorem releaseHeld_ties (s : State) (nsid i : Nat) : ties (releaseHeld s nsid i) = ties s := by
  unfold releaseHeld
  dsimp only
  rw [retireNs_ties, placeApplied_ties, settleZone_ties]
  refine ties_foldl (fun s p => ?_) _ s
  split
  · rfl
  · split
    · simp
    · split
      · simp
      · next htaken => exact (setRec_ties _ _ _).trans (takeCopy_ties _ _ _ htaken)

@[simp] theorem releaseAllHeld_ties (s : State) (nsid : Nat) : ties (releaseAllHeld s nsid) = ties s := ties_foldl (fun s i => releaseHeld_ties s nsid i) _ s

/-! ### Lost LBAs (R239, R241) -/

@[simp] theorem refreshCrit_ties (s : State) : ties (refreshCrit s) = ties s := by
  have hcrit (u : State) (w : BitVec 8) : ties { u with adm := { u.adm with critWarn := w } } = ties u := rfl
  have hccs (u : State) (k : Nat) : ties (ccsSet u k) = ties u := rfl
  unfold refreshCrit
  dsimp only
  repeat' split
  all_goals simp [hcrit, hccs]

@[simp] theorem listLost_ties (s : State) (nsid slba count cause group : Nat) (repairable : Bool) :
    ties (listLost s nsid slba count cause group repairable) = ties s := by
  have hnotice (u : State) (nsid : Nat) (a : List Nat) : ties (lossNotice u nsid a) = ties u := by
    unfold lossNotice
    split
    · rfl
    · rw [refreshCrit_ties, ties_foldl (fun s f => raiseAen_ties s f _ _ _), record_ties]
  refine ties_foldl (fun s x => ?_) _ s
  exact (hnotice _ _ _).trans rfl

@[simp] theorem endFetches_ties (s : State) : ties (endFetches s) = ties s := by
  unfold endFetches
  refine (ties_foldl (fun s x => ?_) _ _).trans rfl
  dsimp only
  split <;> simp

/-! ### Reshapes abandoned (R258) -/

@[simp] theorem endReshape_ties (s : State) (nsid : Nat) (st : Status) : ties (endReshape s nsid st) = ties s := by
  have hcancel (u : State) (r : Reshape) : ties (endCancel u r) = ties u := by
    unfold endCancel
    cases r.cancelCid <;> cases r.cancelTag <;> simp
  have hdropped : ties (setNs (dropReshapeWork s nsid) nsid fun n => { n with reshape := none }) = ties s := setNs_ties (dropReshapeWork s nsid) nsid fun _ => rfl
  have hzop (u : State) (r : Reshape) (f : ZopRec → ZopRec) : ties (setReshapeZop u r f) = ties u := rfl
  unfold endReshape
  split
  · rfl
  · dsimp only
    split <;> simp [hcancel, hdropped, hzop]

@[simp] theorem zeroizeSlot_ties (s : State) (slot : Nat) : ties (zeroizeSlot s slot) = ties s := by
  unfold zeroizeSlot
  dsimp only
  split
  · rfl
  · exact (MediaOnly.foldl toErase_mediaOnly _ _).ties.trans rfl

/-- What a namespace held is given up: its records, rows, log and sets (R119, R256, R402). -/
theorem dropData_ties (s : State) (nsid : Nat) : ties (eraseNsSets (dropMeta (dropNsWork s nsid) nsid) nsid) = ties s := by
  have hsets (u : State) : ties (eraseNsSets u nsid) = ties u := (MediaOnly.foldl (fun s b => toErase_mediaOnly s _) _ u).ties
  have hmeta (u : State) : ties (dropMeta u nsid) = ties u := (MediaOnly.foldl staleMeta_mediaOnly _ _).ties.trans rfl
  have hwork : ties (dropNsWork s nsid) = ties s := 
    Eq.trans (b := ties ((s.jr.recs.filter (fun p => p.2.nsid == nsid && 1 ≤ p.2.typ && p.2.typ ≤ 0x10)).foldl (fun s p => retire s p.1) s)) rfl
      (ties_foldl (fun s _ => retire_ties s _) _ s)
  rw [hsets, hmeta, hwork]

@[simp] theorem releaseNs_ties (s : State) (nsid : Nat) : ties (releaseNs s nsid) = ties s := by
  unfold releaseNs
  split
  · rfl
  · refine (setNs_ties _ nsid ?_).trans ((ties_foldl zeroizeSlot_ties _ _).trans (dropData_ties s nsid))
    exact fun _ => rfl

@[simp] theorem abandonReshape_ties (s : State) (nsid : Nat) (st : Status) : ties (abandonReshape s nsid st) = ties s := by
  have hundone : ties (setNs s nsid fun n => { n with reshape := none }) = ties s := setNs_ties s nsid fun _ => rfl
  unfold abandonReshape
  split
  · rfl
  · dsimp only
    repeat' split
    all_goals simp [hundone]

@[simp] theorem dropPolicyChanges_ties (s : State) : ties (dropPolicyChanges s) = ties s := by
  refine ties_foldl (fun s p => ?_) _ s
  split <;> simp

end Sys2Proof.Machine

namespace Sys2Proof.Machine

/-! ### Namespaces made, deleted, erased, and the answers to commands carried to the twin (R97, R252 to R258, R315, R388, R402 to R405) -/

@[simp] theorem nsRecord_ties (s : State) (nsid action arg key : Nat) (carried : Bool) : ties (nsRecord s nsid action arg key carried) = ties s := by
  unfold nsRecord
  dsimp only
  split <;> simp

theorem putGenerated_ties (s : State) (slot key : Nat) : ties (putGenerated s slot key) = ties s := rfl

theorem clearSlot_ties (s : State) (slot : Nat) : ties (clearSlot s slot) = ties s := rfl

@[simp] theorem emptyNs_ties (s : State) (nsid : Nat) : ties (emptyNs s nsid) = ties s := by
  unfold emptyNs
  refine (setNs_ties _ nsid ?_).trans (dropData_ties s nsid)
  exact fun _ => rfl

/-- A namespace deleted leaves the bond: its commands end, its data, records and keys go, its record is formed. -/
theorem deleteNs_bond (s : State) (nsid : Nat) : (ties (deleteNs s nsid)).bond = (ties s).bond := by
  unfold deleteNs
  split
  · rfl
  · dsimp only
    rw [settleKeys_ties, nsRecord_ties, zn_bond, ties_foldl zeroizeSlot_ties, ties_foldl (fun s _ => retire_ties s _), dropData_ties, noteNs_ties, endReshape_ties,
      ties_foldl (fun s _ => finish_ties s _ _ _ _ _)]

theorem createNs_bond (s : State) (nsid : Nat) (n : Ns) (key : Nat) : (ties (createNs s nsid n key)).bond = (ties s).bond := by
  have hkeyed (l : List Nat) (u : State) : ties (l.foldl (fun s k => putGenerated s k key) u) = ties u := ties_foldl (fun s k => putGenerated_ties s k key) l u
  unfold createNs
  rw [noteNs_ties, nsRecord_ties]
  exact (zn_bond _ _).trans (congrArg Ties.bond (hkeyed _ s))

@[simp] theorem replaceKey_ties (s : State) (nsid key : Nat) : ties (replaceKey s nsid key) = ties s := by
  unfold replaceKey
  split
  · rfl
  · split
    · exact ties_foldl clearSlot_ties _ s
    · split
      · refine (setNs_ties _ nsid ?_).trans ((ties_foldl zeroizeSlot_ties _ _).trans (putGenerated_ties _ _ _))
        exact fun _ => rfl
      · exact ties_foldl (fun s k => putGenerated_ties s k key) _ s

@[simp] theorem switchErase_ties (s : State) (nsid : Nat) (crypto : Bool) (key flbas dps : Nat) : ties (switchErase s nsid crypto key flbas dps) = ties s := by
  have hcont (u : State) : ties (contNow u nsid) = ties u := by
    unfold contNow
    split
    · rfl
    · exact setNs_ties u nsid fun _ => rfl
  unfold switchErase
  split
  · rfl
  · dsimp only
    rw [hcont]
    refine (setNs_ties _ nsid ?_).trans ?_
    · exact fun _ => rfl
    · split <;> simp

/-- A Format that ends is no longer among the formats; the bond is as it was. -/
theorem endFormat_bond (s : State) (f : Fmt) : (ties (endFormat s f)).bond = (ties s).bond := by
  have hswitched := congrArg Ties.bond (switchErase_ties s f.nsid f.crypto f.key f.flbas f.dps)
  unfold endFormat answerTwin
  dsimp only
  split
  · rw [send_ties]
    exact hswitched
  · rw [completeFor_ties]
    exact hswitched

theorem formatSwitch_bond (s : State) (f : Fmt) : (ties (formatSwitch s f)).bond = (ties s).bond := by
  unfold formatSwitch
  split
  · rfl
  · dsimp only
    split
    · rw [nsRecord_ties]
    · rw [endFormat_bond, nsRecord_ties]

@[simp] theorem endAdmin_ties (s : State) (w : AdminWait) (st : Status) (dw0 : Nat) : ties (endAdmin s w st dw0) = ties s := by
  unfold endAdmin answerTwin
  split <;> simp

theorem sanitizeSwitch_bond (s : State) : (ties (sanitizeSwitch s)).bond = (ties s).bond := by
  have hswitched (l : List (Nat × Nat)) (u : State) : ties (l.foldl (fun s k => match nsOf s k.1 with
      | some n => nsRecord (switchErase s k.1 true k.2 n.flbas n.dps) k.1 4 0 0 false
      | none => s) u) = ties u := by
    refine ties_foldl (fun s k => ?_) l u
    split <;> simp
  have herased (l : List Nat) (u : State) : ties (l.foldl toErase u) = ties u := (MediaOnly.foldl toErase_mediaOnly l u).ties
  unfold sanitizeSwitch
  extract_lets switched left erased media zn emptied
  have hemptied : (ties emptied).bond = (ties erased).bond := by
    dsimp only [emptied]
    split <;> rfl
  have herased' : (ties erased).bond = (ties s).bond := congrArg Ties.bond ((herased left switched).trans (hswitched _ s))
  exact hemptied.trans herased'

@[simp] theorem renumber_ties (s : State) (nsid : Nat) (nums : List Nat) : ties (renumber s nsid nums) = ties s := by
  unfold renumber
  split
  · rfl
  · split
    · rfl
    · refine (ties_foldl (fun s i => ?_) _ _).trans (setNs_ties s nsid fun _ => rfl)
      split
      · rfl
      · rw [formRecord_ties]
        split <;> simp

theorem applyPolicy_bond (s : State) (nsid : Nat) (mirrored : Bool) : (ties (applyPolicy s nsid mirrored)).bond = (ties s).bond := by
  unfold applyPolicy
  split
  · rfl
  · rw [noteNs_ties, updateAna_ties, nsRecord_ties, setNs_bond]
    split
    · rw [releaseNs_ties]
    · rfl

@[simp] theorem keepZop_ties (s : State) (f : Nat) (z : ZopRec) : ties (keepZop s f z) = ties s := setCtrl_ties s f _

@[simp] theorem beginReshape_ties (s : State) (w : AdminWait) (r : Reshape) (action : Nat) : ties (beginReshape s w r action) = ties s := by
  have hreshape (x : Reshape) : ties (setNs s w.nsid fun n => { n with reshape := some x }) = ties s := setNs_ties s w.nsid fun _ => rfl
  unfold beginReshape answerTwin
  dsimp only
  split <;> simp [hreshape]

@[simp] theorem injectionAnswered_ties (s : State) (w : AdminWait) (ok : Bool) : ties (injectionAnswered s w ok) = ties s := by
  unfold injectionAnswered
  split <;> simp

/-! ### Key Per I/O (R388, R391) -/

@[simp] theorem takeSlots_ties (s : State) (nsid k : Nat) : ties (takeSlots s nsid k) = ties s := by
  unfold takeSlots
  refine (setNs_ties _ nsid ?_).trans rfl
  exact fun _ => rfl

@[simp] theorem dropSlots_ties (s : State) (nsid : Nat) : ties (dropSlots s nsid) = ties s := by
  unfold dropSlots
  split
  · rfl
  · refine (setNs_ties _ nsid ?_).trans (ties_foldl zeroizeSlot_ties _ s)
    exact fun _ => rfl

@[simp] theorem enableKpio_ties (s : State) (nsid k : Nat) : ties (enableKpio s nsid k) = ties s := by
  unfold enableKpio
  extract_lets t
  have htaken : ties t = ties s := by
    dsimp only [t]
    split <;> simp
  split
  · exact htaken
  · refine (setNs_ties _ nsid ?_).trans ((ties_foldl zeroizeSlot_ties _ t).trans htaken)
    exact fun _ => rfl

@[simp] theorem disableKpio_ties (s : State) (nsid key : Nat) : ties (disableKpio s nsid key) = ties s := by
  unfold disableKpio
  split
  · rfl
  · dsimp only
    refine (setNs_ties _ nsid ?_).trans ((ties_foldl (fun s k => putGenerated_ties s k key) _ _).trans (ties_foldl zeroizeSlot_ties _ s))
    exact fun _ => rfl

@[simp] theorem kpioAnswered_ties (s : State) (w : AdminWait) (ok : Bool) (st : Status) : ties (kpioAnswered s w ok st) = ties s := by
  unfold kpioAnswered
  split
  · split <;> simp
  · split <;> simp

/-! ### What waited for the twin ends (R315, R319) -/

theorem adminAnswer_bond (s : State) (w : AdminWait) (st : Option (Nat × Status)) (dw0 : Nat) : (ties (adminAnswer s w st dw0)).bond = (ties s).bond := by
  have hcreated : (ties (w.ns.elim s fun n => updateAna (createNs s w.nsid n w.key))).bond = (ties s).bond := by
    cases w.ns with
    | none => rfl
    | some n => exact (congrArg Ties.bond (updateAna_ties _)).trans (createNs_bond s _ n _)
  have hundone : (ties (w.ns.elim s fun n => undoPolicy s w.nsid n)).bond = (ties s).bond := by
    cases w.ns with
    | none => rfl
    | some n => exact (applyPolicy_bond _ _ _).trans (congrArg Ties.bond (renumber_ties s _ _))
  have hplaced : ties (placedByTwin s w) = ties s := by
    unfold placedByTwin
    split <;> simp
  unfold adminAnswer
  dsimp only
  split
  case h_1 => rw [endAdmin_ties]
  case h_2 =>
    split
    · rw [endAdmin_ties, hcreated]
    · rw [endAdmin_ties]
  case h_3 => exact bond_foldl formatSwitch_bond _ s
  case h_4 =>
    split
    · rw [endAdmin_ties]
    · rw [endAdmin_ties, hundone]
  case h_5 =>
    split
    · rw [endAdmin_ties, setNs_bond]
    · split
      · rw [hplaced]
      · rw [endAdmin_ties, setNs_bond]
  case h_6 => rw [endAdmin_ties, setNs_bond]
  case h_7 => rw [injectionAnswered_ties]
  case h_8 => rw [kpioAnswered_ties]
  case h_9 => rw [endAdmin_ties, sanitizeSwitch_bond]
  case h_10 => split <;> rw [endAdmin_ties]
  case h_11 =>
    split
    · rw [endAdmin_ties]
    · split
      · exact congrArg Ties.bond (beginReshape_ties s _ _ _)
      · rw [endAdmin_ties]
  case h_12 => rfl
  case h_13 =>
    split
    · rfl
    · split
      · exact (congrArg Ties.bond (endReshape_ties _ _ _)).trans (applyPolicy_bond s _ _)
      · rw [endReshape_ties]
  case h_14 => rw [endAdmin_ties]

theorem endAdminWait_bond (s : State) : (ties (endAdminWait s)).bond = (ties s).bond := by
  have hended (u : State) : (ties (formatsAlone u)).bond = (ties u).bond := bond_foldl endFormat_bond _ u
  have hanswered (l : List AdminWait) (u : State) : (ties (l.foldl (fun s x => adminAnswer s x none 0) u)).bond = (ties u).bond :=
    bond_foldl (fun s x => adminAnswer_bond s x none 0) l u
  unfold endAdminWait
  dsimp only
  cases s.tw.transferCmd with
  | none => exact (hended _).trans (hanswered _ _)
  | some x => exact (congrArg Ties.bond (completeFor_ties _ _ _ _ _ _)).trans ((hended _).trans (hanswered _ _))

end Sys2Proof.Machine

namespace Sys2Proof.Machine

/-! ### A change of mode that leaves nothing behind (R38, R41) -/

@[simp] theorem enterMode_ties (s : State) (m : Mode) (qcause : Nat) (serving : Bool) : ties (enterMode s m qcause serving) = ties s := by
  have hready (u : State) : ties (updateReady u) = ties u := by
    unfold updateReady
    dsimp only
    split <;> rfl
  have hpower (u : State) : ties (refreshPower u) = ties u := by
    unfold refreshPower
    rw [setFlags_ties]
    rfl
  unfold enterMode
  dsimp only
  rw [updateAna_ties, hpower, hready, record_ties]
  rfl

/-- What a change to mode `m` that leaves no work behind makes of `s`: the mode and the sense level change; the journal, the rest of the twin's part and the ties stay. -/
structure Entered (s : State) (m : Mode) (t : State) : Prop where
  mode : t.md.mode = m
  jr : t.jr = s.jr
  tw : t.tw = { s.tw with senseOut := m != .harvest && m != .quarantine }
  ties : ties t = ties s

theorem tryTest_frame (s : State) : tryTest s = { s with sup := (tryTest s).sup } := by
  unfold tryTest
  split <;> rfl

theorem Entered.tryTest {s t : State} {m : Mode} (h : Entered s m t) : Entered s m (tryTest (raiseSvn t)) := by
  obtain ⟨hmode, hjr, htw, hties⟩ := h
  rw [tryTest_frame]
  exact ⟨hmode, hjr, htw, hties⟩

/-- A mode that operates, or one entered from a mode that does not, leaves no work behind (R258, R335). -/
theorem toMode_entered {s : State} {m : Mode} (hstays : (s.md.mode.operates && !m.operates) = false) (qcause : Nat) (serving : Bool) :
    Entered s m (toMode s m qcause serving) := by
  have hmode := enterMode_mode_md s m qcause serving
  have hjr := enterMode_jr s m qcause serving
  have htw := enterMode_tw s m qcause serving
  have hties := enterMode_ties s m qcause serving
  unfold toMode
  simp only [hstays, Bool.false_and, Bool.false_eq_true, if_false]
  generalize enterMode s m qcause serving = e at hmode hjr htw hties
  split
  · refine Entered.tryTest ⟨hmode, hjr, ?_, hties⟩
    rw [htw]
  · refine ⟨hmode, hjr, ?_, hties⟩
    rw [htw]

theorem toSolo_ties (s : State) : ties (toSolo s) = ties s := by
  unfold toSolo
  split
  · exact (toMode_entered (by simp [Mode.operates]) 0 false).ties
  · rfl

theorem toSolo_mode {s : State} (hshut : s.th.shut = 0) : (toSolo s).md.mode = .solo := by
  unfold toSolo
  rw [if_pos hshut]
  exact (toMode_entered (by simp [Mode.operates]) 0 false).mode

/-! ### A separation (R313, R318) -/

/-- The pair is lost: the link is down and its keys are gone, no departure is under way. -/
def Bond.lost (b : Bond) (kind : Nat) : Bond := { b with departing := none, paired := false, linkUp := false, lossKind := kind, linkKeys := [] }

theorem separate_bond (s : State) (kind : Nat) : (ties (separate s kind)).bond = (ties s).bond.lost kind := by
  unfold separate
  dsimp only
  rw [setFlags_ties]
  rfl

theorem separate_waits (s : State) (kind : Nat) : (ties (separate s kind)).adminWait = s.tw.adminWait ∧ (ties (separate s kind)).formats = s.adm.formats := by
  unfold separate
  dsimp only
  rw [setFlags_ties]
  exact ⟨rfl, rfl⟩

theorem separate_shut (s : State) (kind : Nat) : (separate s kind).th.shut = s.th.shut := ((separate_kept (K := true) (J := true) kind (Kept.refl s)).core rfl).shut

theorem takeNs_bond (s : State) (nsid : Nat) (cont : Bool) : (ties (takeNs s nsid cont)).bond = (ties s).bond := setNs_bond s nsid _

/-- With no admin command and no Format waiting for the twin, what waited ends without a trace in the ties. -/
theorem endAdminWait_idle {s : State} (hwait : (ties s).adminWait = []) (hformats : (ties s).formats = []) : ties (endAdminWait s) = ties s := by
  have htw : s.tw.adminWait = [] := hwait
  have hadm : s.adm.formats = [] := hformats
  have hnone (u : State) (hu : u.adm.formats = []) : ties (formatsAlone u) = ties u := by
    unfold formatsAlone
    rw [hu]
    rfl
  have hcleared : ties { s with tw := { s.tw with adminWait := [], transfer := none, transferCmd := none } } = ties s := by
    unfold ties
    rw [htw]
    rfl
  unfold endAdminWait
  dsimp only
  rw [htw, List.foldl_nil]
  cases s.tw.transferCmd with
  | none =>
    refine (hnone _ ?_).trans hcleared
    exact hadm
  | some x =>
    refine (completeFor_ties _ _ _ _ _ _).trans ((hnone _ ?_).trans hcleared)
    exact hadm

/-- The forwarded commands that are left end (R283, R319). -/
def endAllForwarded (s : State) : State := (s.port.cmds.filter (fun p => p.2.fwd)).foldl (fun s p => endForwarded s p.1 p.2) s

theorem endAllForwarded_ties (s : State) : ties (endAllForwarded s) = ties s :=
  ties_foldl (fun (s : State) (p : Nat × Cmd) => endForwarded_ties s p.1 p.2) _ s

theorem endAllForwarded_kept {c s : State} (h : Kept true false c s) : Kept true false c (endAllForwarded s) := Kept.foldl h fun _ _ h => endForwarded_kept _ _ h

/-! ### The twin departs (R318) -/

/-- The state separated from a twin that departs, under the epoch it carries (R318). -/
def separatedUnder (s : State) (kind epoch : Nat) : State :=
  { separate s kind with jr := { (separate s kind).jr with pepoch := BitVec.ofNat 32 epoch }, tw := { (separate s kind).tw with twinDeparted := kind == 5 } }

/-- The twin's mirrored namespaces taken over with CONT, what was forwarded carried out here (R318). -/
def takeAll (mine : List Nat) (s : State) : State :=
  mine.foldl (fun s nsid =>
    let s := takeNs (releaseAllHeld s nsid) nsid true
    (forwardedOf s nsid).foldl (fun s p => takeOverCmd s p.1 p.2) s) s

/-- The records of the mirrored namespaces that were owned here wait for the twin no longer (R281). -/
def ackOthers (mine : List Nat) (s : State) : State := (s.zn.ns.filter (fun p => p.2.mirrored && !mine.contains p.1)).foldl (fun s p => ackAll s p.1) s

/-- The mirrored namespaces that the twin owns. -/
def twinOwned (s : State) : List Nat := (s.zn.ns.filter (fun p => p.2.mirrored && !p.2.here)).map (fun p => p.1)

/-- The module alone, once the twin that departs has been answered (R318). -/
def aloneAfter (s : State) (kind epoch : Nat) : State :=
  let u := separatedUnder (send s 0x08 0 [kind, 4, s.jr.seq - 1, epoch]) kind epoch
  toSolo (record u 0x60 [kind, u.jr.pepoch.toNat])

theorem takeDeparture_eq (s : State) (kind epoch : Nat) : takeDeparture s kind epoch =
    raiseAll (updateAna (endFetches (endAdminWait (endForTwin (endAllForwarded (ackOthers (twinOwned (send s 0x08 0 [kind, 4, s.jr.seq - 1, epoch]))
      (takeAll (twinOwned (send s 0x08 0 [kind, 4, s.jr.seq - 1, epoch])) (dropPolicyChanges (aloneAfter s kind epoch))))))))) 7 0xC3 0xC3 := by
  unfold takeDeparture aloneAfter endAllForwarded ackOthers takeAll twinOwned separatedUnder
  rfl

theorem takeAll_bond (mine : List Nat) (s : State) : (ties (takeAll mine s)).bond = (ties s).bond := by
  refine bond_foldl (fun s nsid => ?_) mine s
  dsimp only
  rw [ties_foldl fun (s : State) (p : Nat × Cmd) => takeOverCmd_ties s p.1 p.2, takeNs_bond, releaseAllHeld_ties]

theorem takeAll_kept {c s : State} (mine : List Nat) (h : Kept true false c s) : Kept true false c (takeAll mine s) :=
  Kept.foldl h fun _ _ h => Kept.foldl (takeNs_kept _ _ (releaseAllHeld_kept _ h)) fun _ _ h => takeOverCmd_kept _ _ h

theorem ackOthers_ties (mine : List Nat) (s : State) : ties (ackOthers mine s) = ties s :=
  ties_foldl (fun (s : State) (p : Nat × Ns) => ackAll_ties s p.1) _ s

theorem ackOthers_kept {c s : State} (mine : List Nat) (h : Kept true false c s) : Kept true false c (ackOthers mine s) := Kept.foldl h fun _ _ h => ackAll_kept _ h

theorem separatedUnder_bond (s : State) (kind epoch : Nat) : (ties (separatedUnder s kind epoch)).bond =
    { (ties s).bond.lost kind with pepoch := BitVec.ofNat 32 epoch, twinDeparted := kind == 5 } := by
  rw [← separate_bond]
  rfl

theorem aloneAfter_bond (s : State) (kind epoch : Nat) : (ties (aloneAfter s kind epoch)).bond =
    { (ties s).bond.lost kind with pepoch := BitVec.ofNat 32 epoch, twinDeparted := kind == 5 } := by
  unfold aloneAfter
  dsimp only
  rw [toSolo_ties, record_ties, separatedUnder_bond, send_ties]

/-- The module goes on in Solo, unless the thermal shut-down goes before it (R46, R318). -/
theorem aloneAfter_mode {s : State} (hshut : s.th.shut = 0) (kind epoch : Nat) : (aloneAfter s kind epoch).md.mode = .solo := by
  refine toSolo_mode ?_
  rw [record_th]
  refine Eq.trans (b := (separate (send s 0x08 0 [kind, 4, s.jr.seq - 1, epoch]) kind).th.shut) rfl ?_
  rw [separate_shut, send_th, hshut]

theorem takeDeparture_bond (s : State) (kind epoch : Nat) : (ties (takeDeparture s kind epoch)).bond =
    { (ties s).bond.lost kind with pepoch := BitVec.ofNat 32 epoch, twinDeparted := kind == 5 } := by
  rw [takeDeparture_eq, raiseAll_ties, updateAna_ties, endFetches_ties, endAdminWait_bond, endForTwin_ties, endAllForwarded_ties, ackOthers_ties, takeAll_bond,
    dropPolicyChanges_ties, aloneAfter_bond]

theorem takeDeparture_mode {s : State} (hshut : s.th.shut = 0) (kind epoch : Nat) : (takeDeparture s kind epoch).md.mode = .solo := by
  have hkept : Kept true false (aloneAfter s kind epoch) (takeDeparture s kind epoch) := by
    rw [takeDeparture_eq]
    exact raiseAll_kept _ _ _ (updateAna_kept (endFetches_kept (endAdminWait_kept (endForTwin_kept
      (endAllForwarded_kept (ackOthers_kept _ (takeAll_kept _ (dropPolicyChanges_kept (Kept.refl _)))))))))
  exact (hkept.core rfl).mode.trans (aloneAfter_mode hshut kind epoch)

/-! ### This module departs (R318, R376) -/

/-- Every mirrored namespace is the twin's, and fenced here (R376). -/
def surrender (s : State) : State :=
  { s with zn := { s.zn with ns := KV.mapVals s.zn.ns (fun _ n => if n.mirrored then { n with here := false, fenced := true } else n) } }

theorem departed_eq (s : State) (kind : Nat) : departed s kind =
    raiseAll (updateAna (nextEpoch (endFetches (endAdminWait (endForTwin (endAllForwarded (surrender (dropPolicyChanges (separate s kind))))))))) 7 0xC3 0xC3 := rfl

theorem surrender_owners (s : State) : ∀ o ∈ (ties (surrender s)).owners, o.1 = true → o.2.1 = false ∧ o.2.2 = true := by
  intro o ho
  obtain ⟨p, hp, rfl⟩ := List.mem_map.1 ho
  obtain ⟨q, -, rfl⟩ := List.mem_map.1 hp
  dsimp only
  split
  · exact fun _ => ⟨rfl, rfl⟩
  next hsingle => exact fun h => absurd h hsingle

theorem endWaits_ties {s : State} (hwait : (ties s).adminWait = []) (hformats : (ties s).formats = []) :
    ties (endFetches (endAdminWait (endForTwin (endAllForwarded s)))) = ties s := by
  have hended : ties (endForTwin (endAllForwarded s)) = ties s := (endForTwin_ties _).trans (endAllForwarded_ties s)
  rw [endFetches_ties, endAdminWait_idle (by rw [hended, hwait]) (by rw [hended, hformats]), hended]

theorem nextEpoch_ties (s : State) : ties (nextEpoch s) = { ties s with bond := { (ties s).bond with pepoch := s.jr.pepoch + 1 } } := rfl

/-- Where nothing waits for the twin, a departure taken loses the pair and surrenders the mirrored namespaces. -/
theorem departed_ties {s : State} (kind : Nat) (hwait : s.tw.adminWait = []) (hformats : s.adm.formats = []) : ∃ e,
    ties (departed s kind) = { ties (surrender (dropPolicyChanges (separate s kind))) with bond := { (ties s).bond.lost kind with pepoch := e } } := by
  obtain ⟨hseparated, hseparatedFormats⟩ := separate_waits s kind
  have hdropped : ties (dropPolicyChanges (separate s kind)) = ties (separate s kind) := dropPolicyChanges_ties _
  have hbond : (ties (surrender (dropPolicyChanges (separate s kind)))).bond = (ties s).bond.lost kind := (congrArg Ties.bond hdropped).trans (separate_bond s kind)
  have hended := endWaits_ties (s := surrender (dropPolicyChanges (separate s kind))) ((congrArg Ties.adminWait hdropped).trans (hseparated.trans hwait))
    ((congrArg Ties.formats hdropped).trans (hseparatedFormats.trans hformats))
  rw [departed_eq, raiseAll_ties, updateAna_ties, nextEpoch_ties, hended, hbond]
  exact ⟨_, rfl⟩

/-! ### What the ties say of the state -/

theorem ties_pepoch (s : State) : (ties s).bond.pepoch = s.jr.pepoch := rfl
theorem ties_departing (s : State) : (ties s).bond.departing = s.tw.departing := rfl
theorem ties_paired (s : State) : (ties s).bond.paired = s.tw.paired := rfl
theorem ties_lossKind (s : State) : (ties s).bond.lossKind = s.tw.lossKind := rfl
theorem ties_twinDeparted (s : State) : (ties s).bond.twinDeparted = s.tw.twinDeparted := rfl

theorem owner_mem_ties {s : State} {p : Nat × Ns} (hp : p ∈ s.zn.ns) : p.2.owner ∈ (ties s).owners := List.mem_map.2 ⟨p, hp, rfl⟩

/-! ### A namespace that changes hands (R318) -/

/-- Path states brought up to date leave the rest of a namespace alone (R92). -/
theorem nsOf_updateAna {s : State} {nsid : Nat} {n : Ns} (hn : nsOf s nsid = some n) : ∃ m, nsOf (updateAna s) nsid = some m ∧ m.described = n.described := by
  have hdescribed := updateAna_described s nsid
  rw [hn] at hdescribed
  exact Option.map_eq_some_iff.1 hdescribed

/-- With no copy held there is none to release. -/
theorem releaseAllHeld_none {s : State} (h : ∀ p ∈ s.jr.recs, p.2.copy = false) (nsid : Nat) : releaseAllHeld s nsid = s := by
  unfold releaseAllHeld
  rw [List.filter_eq_nil_iff.2 fun p hp => by simp [h p hp]]
  rfl

/-- A namespace that this module does not own. -/
def Elsewhere (s : State) (nsid : Nat) : Prop := ∃ m, nsOf s nsid = some m ∧ m.here = false

theorem Elsewhere.setNs {s : State} {nsid : Nat} (h : Elsewhere s nsid) (i : Nat) {g : Ns → Ns} (hg : ∀ n, n.here = false → (g n).here = false) :
    Elsewhere (setNs s i g) nsid := by
  obtain ⟨m, hm, hhere⟩ := h
  unfold Elsewhere
  rw [nsOf_setNs, hm]
  split
  · exact ⟨_, rfl, hg m hhere⟩
  · exact ⟨m, rfl, hhere⟩

theorem Elsewhere.startTransfer {s : State} {nsid i : Nat} (h : Elsewhere s nsid) : Elsewhere (startTransfer s i) nsid := by
  have hnoted : Elsewhere { s with tw := { s.tw with transfer := some i } } nsid := h
  exact hnoted.setNs i fun _ hn => hn

theorem Elsewhere.offer {s : State} {nsid : Nat} (h : Elsewhere s nsid) (i : Nat) : Elsewhere (offer s i) nsid := by
  unfold Machine.offer
  split
  · refine Elsewhere.setNs ?_ i fun _ _ => rfl
    unfold Elsewhere nsOf
    rwa [send_zn]
  · exact h

/-- No offer makes a namespace this module's own. -/
theorem Elsewhere.tryOffer {s : State} {nsid : Nat} (h : Elsewhere s nsid) : Elsewhere (tryOffer s) nsid := by
  unfold Machine.tryOffer
  split
  · exact h
  · split
    · exact h.offer _
    · split
      · exact h.startTransfer.offer _
      · exact h

theorem endTransfer_keeps (s : State) : (endTransfer s).zn = s.zn ∧ (endTransfer s).jr = s.jr := by
  unfold endTransfer
  dsimp only
  cases s.tw.transferCmd with
  | none => exact ⟨rfl, rfl⟩
  | some x =>
    rw [Option.elim_some]
    split
    · exact ⟨send_zn _ _ _ _, send_jr _ _ _ _⟩
    · unfold completeFor
      split <;> simp

/-- With no Reshape under way none goes on. -/
theorem afterTransfer_none {s : State} {nsid : Nat} {n : Ns} (hn : nsOf s nsid = some n) (hreshape : n.reshape = none) : afterTransfer s nsid = s := by
  unfold afterTransfer
  rw [hn, Option.bind_some, hreshape]

/-! ### The commands -/

theorem takeEpoch_tw (s : State) (epoch : Nat) : (takeEpoch s epoch).tw = s.tw := rfl
theorem takeEpoch_zn (s : State) (epoch : Nat) : (takeEpoch s epoch).zn = s.zn := rfl

/-- The state in which a namespace the twin has taken is the twin's, under the epoch carried (R318). -/
def handedOver (s : State) (nsid epoch : Nat) : State := setNs (takeEpoch s epoch) nsid (fun n => { n with here := false, offered := false })

theorem exec_handoverTaken {s : State} {h : MsgHdr} {nsid : Nat} (hreach : Reaches s h 8) (htransfer : s.tw.transfer = some nsid) (oseq epoch : Nat) :
    exec (.handoverTaken h nsid oseq epoch) s =
      .next (tryOffer (afterTransfer (endTransfer (updateAna (handedOver (noted s h) nsid epoch))) nsid)) := by
  have htransfer' : (noted s h).tw.transfer = some nsid := htransfer
  show execHandoverTaken h nsid oseq epoch s = _
  rw [execHandoverTaken, peerMsg_reaches hreach, if_neg (not_not_intro htransfer')]
  rfl

theorem exec_handoverTaken_unasked {s : State} {h : MsgHdr} {nsid : Nat} (hreach : Reaches s h 8) (htransfer : s.tw.transfer ≠ some nsid) (oseq epoch : Nat) :
    exec (.handoverTaken h nsid oseq epoch) s = .next (discard (noted s h) h) := by
  have htransfer' : (noted s h).tw.transfer ≠ some nsid := htransfer
  show execHandoverTaken h nsid oseq epoch s = _
  rw [execHandoverTaken, peerMsg_reaches hreach, if_pos htransfer']

theorem exec_handoverOffer {s : State} {h : MsgHdr} {nsid : Nat} {n : Ns} (hreach : Reaches s h 8) (hn : nsOf s nsid = some n) (hmirrored : n.mirrored = true) (hhere : n.here = false)
    (oseq epoch : Nat) : exec (.handoverOffer h nsid oseq epoch) s =
      .next (updateAna (takeNs (takeEpoch (send (releaseAllHeld (noted s h) nsid) 0x08 0 [nsid, 2, oseq, epoch]) epoch) nsid false)) := by
  have hn' : nsOf (noted s h) nsid = some n := hn
  show execHandoverOffer h nsid oseq epoch s = _
  rw [execHandoverOffer, peerMsg_reaches hreach, hn']
  dsimp only
  rw [if_neg (by simp [hmirrored, hhere])]

theorem exec_handoverOffer_unasked {s : State} {h : MsgHdr} {nsid : Nat} {n : Ns} (hreach : Reaches s h 8) (hn : nsOf s nsid = some n) (hown : n.mirrored = false ∨ n.here = true)
    (oseq epoch : Nat) : exec (.handoverOffer h nsid oseq epoch) s = .next (discard (noted s h) h) := by
  have hn' : nsOf (noted s h) nsid = some n := hn
  show execHandoverOffer h nsid oseq epoch s = _
  rw [execHandoverOffer, peerMsg_reaches hreach, hn']
  dsimp only
  rw [if_pos (by simpa using hown)]

theorem exec_handoverDepart {s : State} {h : MsgHdr} {kind : Nat} (hreach : Reaches s h 8) (hkind : kind ≠ 7) (oseq epoch : Nat) :
    exec (.handoverDepart h kind oseq epoch) s = .next (takeDeparture (noted s h) kind epoch) := by
  show execHandoverDepart h kind oseq epoch s = _
  rw [execHandoverDepart, peerMsg_reaches hreach]
  dsimp only
  rw [if_neg hkind]

theorem exec_handoverDepartTaken {s : State} {h : MsgHdr} {kind : Nat} (hreach : Reaches s h 8) (hdeparting : s.tw.departing = some kind) (hsent : s.tw.departSent = true)
    (hkind : kind ≠ 7) (oseq epoch : Nat) : exec (.handoverDepartTaken h kind oseq epoch) s = .next (takeEpoch (departed (noted s h) kind) epoch) := by
  have hdeparting' : (noted s h).tw.departing = some kind := hdeparting
  have hsent' : (noted s h).tw.departSent = true := hsent
  show execHandoverDepartTaken h kind oseq epoch s = _
  rw [execHandoverDepartTaken, peerMsg_reaches hreach, if_neg (by simp [hdeparting', hsent'])]
  dsimp only
  rw [if_pos hkind]

theorem exec_handoverDepartTaken_unasked {s : State} {h : MsgHdr} {kind : Nat} (hreach : Reaches s h 8) (hdeparting : s.tw.departing ≠ some kind) (oseq epoch : Nat) :
    exec (.handoverDepartTaken h kind oseq epoch) s = .next (discard (noted s h) h) := by
  have hdeparting' : (noted s h).tw.departing ≠ some kind := hdeparting
  show execHandoverDepartTaken h kind oseq epoch s = _
  rw [execHandoverDepartTaken, peerMsg_reaches hreach, if_pos (.inl hdeparting')]

/-! ### The obligation -/

theorem handoverOffer_takes {s : State} {h : MsgHdr} {nsid : Nat} {n : Ns} (oseq epoch : Nat) (hreach : Reaches s h 8) (hn : nsOf s nsid = some n) (hmirrored : n.mirrored = true)
    (hhere : n.here = false) (hcopies : ∀ p ∈ s.jr.recs, p.2.copy = false) : ∃ t m, exec (.handoverOffer h nsid oseq epoch) s = .next t ∧ nsOf t nsid = some m ∧
      m.here = true ∧ m.fenced = false ∧ m.cont = n.cont ∧ t.jr.pepoch = BitVec.ofNat 32 epoch ∧ t.md.mode = .service ∧ t.zn.store = s.zn.store := by
  have hexec := exec_handoverOffer hreach hn hmirrored hhere oseq epoch
  rw [releaseAllHeld_none (s := noted s h) hcopies] at hexec
  have htaken : nsOf (takeNs (takeEpoch (send (noted s h) 0x08 0 [nsid, 2, oseq, epoch]) epoch) nsid false) nsid =
      some { n with here := true, cont := n.cont || false, fenced := false, offered := false } := by
    refine nsOf_setNs_self (n := n) ?_ _
    unfold nsOf takeEpoch
    rw [send_zn]
    exact hn
  obtain ⟨m, hm, hdescribed⟩ := nsOf_updateAna htaken
  have hheld := congrArg (fun n : Ns => (n.here, n.fenced, n.cont)) hdescribed
  injection hheld with hown hrest
  injection hrest with hfenced hcont
  have hkept : Kept true true s (send (noted s h) 0x08 0 [nsid, 2, oseq, epoch]) := send_kept _ _ _ (noted_kept s h)
  refine ⟨_, m, hexec, hm, hown, hfenced, hcont.trans (Bool.or_false n.cont), ?_, ?_, ?_⟩
  · rw [updateAna_jr]
    rfl
  · rw [updateAna_mode_md]
    exact (hkept.core rfl).mode.trans hreach.mode
  · rw [updateAna_store]
    exact hkept.content rfl

theorem handoverTaken_leaves {s : State} {h : MsgHdr} {nsid : Nat} {n : Ns} (oseq epoch : Nat) (hreach : Reaches s h 8) (hn : nsOf s nsid = some n)
    (htransfer : s.tw.transfer = some nsid) (hreshape : n.reshape = none) : ∃ t m, exec (.handoverTaken h nsid oseq epoch) s = .next t ∧ nsOf t nsid = some m ∧
      m.here = false ∧ t.jr.pepoch = BitVec.ofNat 32 epoch ∧ t.zn.store = s.zn.store := by
  have hkept := (execHandoverTaken_kept (K := true) (J := true) h nsid oseq epoch (Kept.refl s)).next_kept
  have hexec := exec_handoverTaken hreach htransfer oseq epoch
  have hhanded : nsOf (handedOver (noted s h) nsid epoch) nsid = some { n with here := false, offered := false } :=
    nsOf_setNs_self (s := takeEpoch (noted s h) epoch) hn _
  obtain ⟨m, hm, hdescribed⟩ := nsOf_updateAna hhanded
  obtain ⟨hzn, hjr⟩ := endTransfer_keeps (updateAna (handedOver (noted s h) nsid epoch))
  have hended : nsOf (endTransfer (updateAna (handedOver (noted s h) nsid epoch))) nsid = some m := by
    unfold nsOf
    rw [hzn]
    exact hm
  rw [afterTransfer_none hended ((congrArg Ns.reshape hdescribed).trans hreshape)] at hexec
  obtain ⟨m', hm', hhere⟩ := Elsewhere.tryOffer ⟨m, hended, congrArg Ns.here hdescribed⟩
  refine ⟨_, m', hexec, hm', hhere, ?_, (hkept _ hexec).content rfl⟩
  rw [tryOffer_jr, hjr, updateAna_jr]
  rfl

theorem handoverDepart_alone {s : State} {h : MsgHdr} {kind : Nat} (oseq epoch : Nat) (hreach : Reaches s h 8) (hkind : kind ≠ 7) (hshut : s.th.shut = 0) :
    ∃ t, exec (.handoverDepart h kind oseq epoch) s = .next t ∧ t.md.mode = .solo ∧ t.jr.pepoch = BitVec.ofNat 32 epoch ∧ t.tw.twinDeparted = decide (kind = 5) ∧
      t.tw.paired = false ∧ t.tw.lossKind = kind := by
  have hbond := takeDeparture_bond (noted s h) kind epoch
  refine ⟨_, exec_handoverDepart hreach hkind oseq epoch, takeDeparture_mode (s := noted s h) hshut kind epoch, ?_, ?_, ?_, ?_⟩
  · rw [← ties_pepoch, hbond]
  · rw [← ties_twinDeparted, hbond]
    rfl
  · rw [← ties_paired, hbond]
    rfl
  · rw [← ties_lossKind, hbond]
    rfl

theorem handoverDepartTaken_separates {s : State} {h : MsgHdr} {kind : Nat} (oseq epoch : Nat) (hreach : Reaches s h 8) (hdeparting : s.tw.departing = some kind)
    (hsent : s.tw.departSent = true) (hkind : kind ≠ 7) (hwait : s.tw.adminWait = []) (hformats : s.adm.formats = []) :
    ∃ t, exec (.handoverDepartTaken h kind oseq epoch) s = .next t ∧ t.jr.pepoch = BitVec.ofNat 32 epoch ∧ t.tw.departing = none ∧ t.tw.paired = false ∧
      ∀ p ∈ t.zn.ns, p.2.mirrored = true → p.2.here = false ∧ p.2.fenced = true := by
  obtain ⟨e, hties⟩ := departed_ties (s := noted s h) kind hwait hformats
  have hlost : (ties (departed (noted s h) kind)).bond = { (ties (noted s h)).bond.lost kind with pepoch := e } := by rw [hties]
  refine ⟨_, exec_handoverDepartTaken hreach hdeparting hsent hkind oseq epoch, rfl, ?_, ?_, fun p hp => ?_⟩
  · rw [takeEpoch_tw, ← ties_departing, hlost]
    rfl
  · rw [takeEpoch_tw, ← ties_paired, hlost]
    rfl
  · rw [takeEpoch_zn] at hp
    have howner : p.2.owner ∈ (ties (departed (noted s h) kind)).owners := owner_mem_ties hp
    rw [hties] at howner
    exact surrender_owners _ _ howner

/-- Settles O53: a departure is read off the ties, which what ends with it leaves as the separation made them. -/
theorem handovers : Obligations.Handovers := by
  unfold Obligations.Handovers
  exact ⟨fun s h nsid oseq epoch n => handoverOffer_takes oseq epoch, fun s h nsid oseq epoch n hreach hn hown => exec_handoverOffer_unasked hreach hn hown oseq epoch,
    fun s h nsid oseq epoch n => handoverTaken_leaves oseq epoch, fun s h nsid oseq epoch hreach htransfer => exec_handoverTaken_unasked hreach htransfer oseq epoch,
    fun s h kind oseq epoch => handoverDepart_alone oseq epoch, fun s h kind oseq epoch => handoverDepartTaken_separates oseq epoch,
    fun s h kind oseq epoch hreach hdeparting => exec_handoverDepartTaken_unasked hreach hdeparting oseq epoch⟩

end Sys2Proof.Machine

namespace Sys2Proof.Machine

/-! SUPPORT. The pairing handshake (R308, R310 to R314): a refusal, the steps that messages take on, the commit. -/

/-! ### A refusal (R309, R310) -/

/-- The pairing under way in `s` is refused for a cause: the module is in Solo, the link down, content as it was. -/
structure Refused (s : State) (cause : Nat) (t : State) : Prop where
  mode : t.md.mode = .solo
  refuse : t.tw.refuse = cause
  link : t.tw.linkUp = false
  store : t.zn.store = s.zn.store

theorem refusePairing_refused {s : State} (hmode : s.md.mode = .pairing) (cause : Nat) : Refused s cause (refusePairing s cause) := by
  have hkept : Kept false true s (refusePairing s cause) := refusePairing_kept cause (Kept.refl s)
  have hstays (u : State) : (u.md.mode.operates && !Mode.solo.operates) = false := by simp [Mode.operates]
  refine ⟨?_, ?_, ?_, hkept.content rfl⟩ <;> unfold refusePairing <;> rw [if_neg (not_not_intro hmode)] <;> dsimp only
  · rw [raiseAll_mode_md, updateAna_mode_md, (toMode_entered (hstays _) 0 false).mode]
  · rw [raiseAll_tw, updateAna_tw, (toMode_entered (hstays _) 0 false).tw, record_tw]
  · rw [raiseAll_tw, updateAna_tw, (toMode_entered (hstays _) 0 false).tw, record_tw]

theorem refuseDiverged_refused {s : State} (hmode : s.md.mode = .pairing) : Refused s 9 (refuseDiverged s) := by
  obtain ⟨hsolo, hcause, hlink, hstore⟩ := refusePairing_refused
    (s := { s with zn := { s.zn with ns := KV.mapVals s.zn.ns (fun k n => { n with diverged := agree s k == .diverged }) } }) hmode 9
  exact ⟨hsolo, hcause, hlink, hstore⟩

/-! ### HELLO (R310 steps 2 and 3) -/

/-- The state in which the twin's HELLO is judged: it is kept. -/
def greeted (s : State) (b : Hello) : State := { s with tw := { s.tw with hello := some b } }

theorem exec_hello {s : State} {h : MsgHdr} (b : Hello) (hlink : s.tw.linkUp = true) (htyp : h.typ = 0x43) (hmode : s.md.mode = .pairing) (hstep : s.tw.step = 2) :
    exec (.hello h b) s = .next ((admission s b).elim (attest { greeted s b with tw := { (greeted s b).tw with step := 4 } }) (refusePairing (greeted s b))) := by
  have hsame : admission (greeted s b) b = admission s b := rfl
  show execHello h b s = _
  unfold execHello
  rw [if_neg (by simp [hlink, htyp, hmode, hstep]), ← hsame]
  dsimp only
  cases hjudged : admission (greeted s b) b with
  | none =>
    rw [show admission { s with tw := { s.tw with hello := some b } } b = none from hjudged]
    rfl
  | some c =>
    rw [show admission { s with tw := { s.tw with hello := some b } } b = some c from hjudged]
    rfl

theorem exec_hello_ignored {s : State} (h : MsgHdr) (b : Hello) (hout : s.tw.linkUp = false ∨ s.md.mode ≠ .pairing ∨ s.tw.step ≠ 2) : exec (.hello h b) s = .next s := by
  show execHello h b s = _
  unfold execHello
  rw [if_pos]
  rcases hout with hlink | hmode | hstep
  · exact .inl (by simp [hlink])
  · exact .inr (.inr (.inl hmode))
  · exact .inr (.inr (.inr hstep))

/-- The requests of step 4 change the link's part alone. -/
theorem attest_frame (s : State) : attest s = { s with tw := (attest s).tw } := by
  have hsent (t : Twin) (u : State) (c : Nat) : { send u 0x44 0 [c] with tw := t } = { u with tw := t } := by rw [send_link u rfl]
  refine Eq.trans (b := { attest s with tw := (attest s).tw }) rfl ?_
  exact foldl_field (fun u : State => { u with tw := (attest s).tw }) (fun s c => send s 0x44 0 [c]) (hsent _) _ s

theorem attest_tw_field {α : Type} (f : Twin → α) (hf : ∀ t : Twin, f { t.still with out := [], counters := [] } = f t) (s : State) : f (attest s).tw = f s.tw :=
  foldl_field (fun s : State => f s.tw) (fun s c => send s 0x44 0 [c]) (fun s _ => send_tw_field f hf s _ _ _) _ s

/-! ### Messages of the handshake (R310 steps 6 to 8) -/

/-- A message of a type arrives at a step of the handshake: the link and the rails are up, and its authentication verifies. -/
structure Handshake (s : State) (h : MsgHdr) (typ step : Nat) : Prop where
  mode : s.md.mode = .pairing
  link : s.tw.linkUp = true
  rails : s.sup.rails = true
  auth : h.authOk = true
  typ : h.typ = typ
  step : s.tw.step = step

theorem pairingMsg_handshake {s : State} {h : MsgHdr} {typ step : Nat} (hshake : Handshake s h typ step) (hstep : 6 ≤ step) (f : State → State) :
    pairingMsg s h [typ] f = .next (f (noted s h)) := by
  obtain ⟨hmode, hlink, hrails, hauth, htyp, hat⟩ := hshake
  have hlate : 6 ≤ (notePhase s (msgClass h.typ) h.phase).tw.step := hat ▸ hstep
  unfold pairingMsg
  rw [if_neg (not_not_intro hmode), if_neg (by simp [hlink, hrails]), if_neg (by simp [hauth])]
  dsimp only
  rw [if_neg (not_or.2 ⟨Nat.not_lt.2 hlate, by simp [htyp]⟩)]
  rfl

theorem exec_pairingTable_copy {s : State} {h : MsgHdr} (hshake : Handshake s h 0x0D 6) (c : Hello) (l : List PtEntry) :
    exec (.pairingTable h (some c) l none) s = .next (helloConfirmed (noted s h) c) := by
  show execPairingTable h (some c) l none s = _
  rw [execPairingTable, if_neg (not_not_intro hshake.mode), pairingMsg_handshake hshake (by decide)]

theorem exec_pairingTable_entries {s : State} {h : MsgHdr} (hshake : Handshake s h 0x0D 6) (l : List PtEntry) :
    exec (.pairingTable h none l none) s = .next (pairOn (setAcc { noted s h with tw := { (noted s h).tw with table := l } } 1)) := by
  show execPairingTable h none l none s = _
  rw [execPairingTable, if_neg (not_not_intro hshake.mode), pairingMsg_handshake hshake (by decide)]

theorem exec_pairingTable_result {s : State} {h : MsgHdr} (hshake : Handshake s h 0x0D 7) (l : List PtEntry) (ok : Bool) :
    exec (.pairingTable h none l (some ok)) s = .next (resultTaken (noted s h) ok) := by
  show execPairingTable h none l (some ok) s = _
  rw [execPairingTable, if_neg (not_not_intro hshake.mode), pairingMsg_handshake hshake (by decide)]

/-- A copy of the HELLO that is not the one received refuses (R310 step 6). -/
theorem helloConfirmed_differs {s : State} {c : Hello} (hstep : s.tw.step = 6) (hdiffers : s.tw.hello ≠ some c) : helloConfirmed s c = refusePairing s 7 := by
  unfold helloConfirmed
  rw [if_neg (not_not_intro hstep), if_pos hdiffers]

theorem resultTaken_diverged {s : State} (hstep : s.tw.step = 7) : resultTaken s false = refuseDiverged s := by
  unfold resultTaken
  rw [if_neg (not_not_intro hstep), if_pos Bool.not_false]

/-- The agreement waits for step 7. -/
theorem pairOn_before {s : State} (hstep : s.tw.step ≠ 7) : pairOn s = s := by
  unfold pairOn
  rw [if_pos (.inr (.inl hstep))]

/-! ### The commit (R263, R308, R310 step 8, R313) -/

/-- The pair of `s` with the twin of a HELLO is made: Service, under an epoch above both modules', no tombstones. -/
structure Committed (s : State) (b : Hello) (t : State) : Prop where
  mode : t.md.mode = .service
  paired : t.tw.paired = true
  twin : t.tw.twinSerial = b.serial
  step : t.tw.step = 0
  tombs : t.zn.tombs = []
  pepoch : t.jr.pepoch = BitVec.ofNat 32 (max s.jr.pepoch.toNat b.pepoch + 1)

theorem Committed.sendSummary {s t : State} {b : Hello} (h : Committed s b t) : Committed s b (sendSummary t) := by
  obtain ⟨hmode, hpaired, htwin, hstep, htombs, hpepoch⟩ := h
  unfold Machine.sendSummary
  split
  · exact ⟨hmode, hpaired, htwin, hstep, htombs, hpepoch⟩
  · constructor
    case mode => rw [send_md, hmode]
    case paired => exact (send_tw_field (·.paired) (fun _ => rfl) _ _ _ _).trans hpaired
    case twin => exact (send_tw_field (·.twinSerial) (fun _ => rfl) _ _ _ _).trans htwin
    case step => exact (send_tw_field (·.step) (fun _ => rfl) _ _ _ _).trans hstep
    case tombs => rw [send_zn, htombs]
    case pepoch => rw [send_jr, hpepoch]

theorem Committed.raiseAll {s t : State} {b : Hello} (h : Committed s b t) (typ info log : Nat) : Committed s b (raiseAll t typ info log) := by
  obtain ⟨hmode, hpaired, htwin, hstep, htombs, hpepoch⟩ := h
  constructor <;> simpa

theorem Committed.setFlags {s t : State} {b : Hello} (h : Committed s b t) : Committed s b (setFlags t fun m => { m with resyncing := true }) := by
  obtain ⟨hmode, hpaired, htwin, hstep, htombs, hpepoch⟩ := h
  constructor <;> simpa

/-- What the commit does with one namespace leaves the bond with the twin alone. -/
theorem commitNs_bond (s : State) (nsid : Nat) : (ties (commitNs s nsid)).bond = (ties s).bond := by
  unfold commitNs
  dsimp only
  split
  · exact deleteNs_bond s nsid
  · rw [setNs_bond]
    split
    · rw [emptyNs_ties]
    · rfl

theorem newPairId_ties (s : State) (b : Hello) : ties (newPairId s b).2 = ties s := by
  unfold newPairId
  split
  · rfl
  · split
    · rfl
    · exact drawFree_ties s

/-- Service is entered with the pair as it was made. -/
theorem Committed.entered {s u : State} {b : Hello} (hpaired : u.tw.paired = true) (htwin : u.tw.twinSerial = b.serial)
    (hstep : u.tw.step = 0) (htombs : u.zn.tombs = []) (hpepoch : u.jr.pepoch = BitVec.ofNat 32 (max s.jr.pepoch.toNat b.pepoch + 1)) (typ : Nat) (payload : List Nat) :
    Committed s b (toMode (record u typ payload) .service) := by
  have hentered := toMode_entered (s := record u typ payload) (m := .service) (by simp [Mode.operates]) 0 false
  constructor
  case mode => exact hentered.mode
  case paired => rw [hentered.tw, record_tw, hpaired]
  case twin => rw [hentered.tw, record_tw, htwin]
  case step => rw [hentered.tw, record_tw, hstep]
  case tombs => exact (congrArg Ties.tombs (hentered.ties.trans (record_ties u _ _ _ _ _))).trans htombs
  case pepoch => rw [hentered.jr, record_jr, hpepoch]

/-- The namespaces of both tables settled, the epoch is as it was. -/
theorem commitAll_pepoch {s u : State} (hties : ties u = ties s) : ((agreeIds u).foldl commitNs u).jr.pepoch = s.jr.pepoch := by
  rw [← ties_pepoch, bond_foldl commitNs_bond, hties, ties_pepoch]

theorem commit_committed {s : State} {b : Hello} (hhello : s.tw.hello = some b) : Committed s b (commit s) := by
  have hties : ties (if differs s = true then (drawFree (newPairId s b).2).2 else (newPairId s b).2) = ties s := by
    split <;> simp [newPairId_ties]
  unfold commit
  rw [hhello]
  dsimp only
  refine Committed.raiseAll (Committed.sendSummary ?_) 7 0xC3 0xC3
  generalize (if differs s = true then (drawFree (newPairId s b).2).2 else (newPairId s b).2) = u at hties
  have hpepoch := commitAll_pepoch hties
  generalize (agreeIds u).foldl commitNs u = v at hpepoch
  split
  · refine Committed.setFlags (Committed.entered ?_ ?_ ?_ ?_ ?_ _ _)
    iterate 4 rfl
    rw [hpepoch]
  · refine Committed.entered ?_ ?_ ?_ ?_ ?_ _ _
    iterate 4 rfl
    rw [hpepoch]

/-! ### The obligation -/

theorem hello_refused {s : State} {h : MsgHdr} {b : Hello} {c : Nat} (hlink : s.tw.linkUp = true) (htyp : h.typ = 0x43) (hmode : s.md.mode = .pairing) (hstep : s.tw.step = 2)
    (hrefused : admission s b = some c) : ∃ t, exec (.hello h b) s = .next t ∧ Refused s c t := by
  have hexec := exec_hello b hlink htyp hmode hstep
  rw [hrefused] at hexec
  obtain ⟨hsolo, hcause, hdown, hstore⟩ := refusePairing_refused (s := greeted s b) hmode c
  exact ⟨_, hexec, hsolo, hcause, hdown, hstore⟩

theorem hello_admitted {s : State} {h : MsgHdr} {b : Hello} (hlink : s.tw.linkUp = true) (htyp : h.typ = 0x43) (hmode : s.md.mode = .pairing) (hstep : s.tw.step = 2)
    (hadmitted : admission s b = none) : ∃ t, exec (.hello h b) s = .next t ∧ t.md = s.md ∧ t.tw.step = 4 ∧ t.tw.hello = some b ∧ t.tw.linkUp = true ∧ t = { s with tw := t.tw } := by
  have hexec := exec_hello b hlink htyp hmode hstep
  rw [hadmitted] at hexec
  have hframe := attest_frame { greeted s b with tw := { (greeted s b).tw with step := 4 } }
  refine ⟨_, hexec, ?_, attest_tw_field (·.step) (fun _ => rfl) _, attest_tw_field (·.hello) (fun _ => rfl) _, (attest_tw_field (·.linkUp) (fun _ => rfl) _).trans hlink, hframe⟩
  rw [Option.elim_none, hframe]
  rfl

theorem pairingTable_copyDiffers {s : State} {h : MsgHdr} {c : Hello} (l : List PtEntry) (hshake : Handshake s h 0x0D 6) (hdiffers : s.tw.hello ≠ some c) :
    ∃ t, exec (.pairingTable h (some c) l none) s = .next t ∧ Refused s 7 t := by
  have hexec := exec_pairingTable_copy hshake c l
  rw [helloConfirmed_differs (s := noted s h) hshake.step hdiffers] at hexec
  obtain ⟨hsolo, hcause, hdown, hstore⟩ := refusePairing_refused (s := noted s h) hshake.mode 7
  exact ⟨_, hexec, hsolo, hcause, hdown, hstore⟩

theorem pairingTable_entriesKept {s : State} {h : MsgHdr} (l : List PtEntry) (hshake : Handshake s h 0x0D 6) (hacc : 1 < s.tw.pairAcc.length) :
    ∃ t, exec (.pairingTable h none l none) s = .next t ∧ t.md = s.md ∧ t.tw.table = l ∧ t.tw.pairAcc.getD 1 false = true ∧ t.tw.step = 6 ∧ t.zn = s.zn := by
  have hstep : (setAcc { noted s h with tw := { (noted s h).tw with table := l } } 1).tw.step = 6 := hshake.step
  have hexec := exec_pairingTable_entries hshake l
  rw [pairOn_before (by rw [hstep]; decide)] at hexec
  refine ⟨_, hexec, rfl, rfl, ?_, hstep, rfl⟩
  show (modAt s.tw.pairAcc 1 fun _ => true).getD 1 false = true
  simp [modAt, hacc]

theorem pairingTable_diverged {s : State} {h : MsgHdr} (l : List PtEntry) (hshake : Handshake s h 0x0D 7) :
    ∃ t, exec (.pairingTable h none l (some false)) s = .next t ∧ Refused s 9 t := by
  have hexec := exec_pairingTable_result hshake l false
  rw [resultTaken_diverged (s := noted s h) hshake.step] at hexec
  obtain ⟨hsolo, hcause, hdown, hstore⟩ := refuseDiverged_refused (s := noted s h) hshake.mode
  exact ⟨_, hexec, hsolo, hcause, hdown, hstore⟩

theorem exec_noticePairingCommit {s : State} {h : MsgHdr} (hshake : Handshake s h 9 8) :
    exec (.noticePairingCommit h) s = .next (commit (if rank (noted s h) = 0 then noted s h else send (noted s h) 0x09 0 [4])) := by
  have hstep : (noted s h).tw.step = 8 := hshake.step
  show execNoticePairingCommit h s = _
  rw [execNoticePairingCommit, if_neg (not_not_intro hshake.mode), pairingMsg_handshake hshake (by decide), if_neg (not_not_intro hstep)]

theorem noticePairingCommit_commits {s : State} {h : MsgHdr} {b : Hello} (hshake : Handshake s h 9 8) (hhello : s.tw.hello = some b) :
    ∃ t, exec (.noticePairingCommit h) s = .next t ∧ Committed s b t := by
  refine ⟨_, exec_noticePairingCommit hshake, ?_⟩
  split
  · obtain ⟨hmode, hpaired, htwin, hstep, htombs, hpepoch⟩ := commit_committed (s := noted s h) hhello
    exact ⟨hmode, hpaired, htwin, hstep, htombs, hpepoch⟩
  · have hsent : (send (noted s h) 0x09 0 [4]).tw.hello = some b := (send_tw_field (·.hello) (fun _ => rfl) _ _ _ _).trans hhello
    obtain ⟨hmode, hpaired, htwin, hstep, htombs, hpepoch⟩ := commit_committed hsent
    rw [send_jr] at hpepoch
    exact ⟨hmode, hpaired, htwin, hstep, htombs, hpepoch⟩

theorem exec_noticePairingCommit_late {s : State} {h : MsgHdr} (hreach : Reaches s h 9) : exec (.noticePairingCommit h) s = .next (discard (noted s h) h) := by
  show execNoticePairingCommit h s = _
  rw [execNoticePairingCommit, if_pos (by rw [hreach.mode]; decide), peerMsg_discards hreach.link hreach.rails hreach.auth _ (.inr (.inr (by simp)))]

/-- Settles O54: each message of the handshake refuses, keeps what it brings, or commits, and what follows a refusal and the commit leaves the result. -/
theorem pairingHandshake : Obligations.PairingHandshake := by
  unfold Obligations.PairingHandshake
  refine ⟨?_, fun s h b => hello_admitted, fun s h b => exec_hello_ignored h b, ?_, ?_, ?_, ?_, fun s h => exec_noticePairingCommit_late⟩
  · intro s h b c hlink htyp hmode hstep hrefused
    obtain ⟨t, hexec, hsolo, hcause, hdown, hstore⟩ := hello_refused hlink htyp hmode hstep hrefused
    exact ⟨t, hexec, hsolo, hcause, hdown, hstore⟩
  · intro s h c l hmode hlink hrails hauth htyp hstep hdiffers
    obtain ⟨t, hexec, hsolo, hcause, hdown, hstore⟩ := pairingTable_copyDiffers l ⟨hmode, hlink, hrails, hauth, htyp, hstep⟩ hdiffers
    exact ⟨t, hexec, hsolo, hcause, hdown, hstore⟩
  · intro s h l hmode hlink hrails hauth htyp hstep hacc
    exact pairingTable_entriesKept l ⟨hmode, hlink, hrails, hauth, htyp, hstep⟩ hacc
  · intro s h l hmode hlink hrails hauth htyp hstep
    obtain ⟨t, hexec, hsolo, hcause, -, hstore⟩ := pairingTable_diverged l ⟨hmode, hlink, hrails, hauth, htyp, hstep⟩
    exact ⟨t, hexec, hsolo, hcause, hstore⟩
  · intro s h b hmode hlink hrails hauth htyp hstep hhello
    obtain ⟨t, hexec, hservice, hpaired, htwin, hdone, htombs, hpepoch⟩ := noticePairingCommit_commits ⟨hmode, hlink, hrails, hauth, htyp, hstep⟩ hhello
    exact ⟨t, hexec, hservice, hpaired, htwin, hdone, htombs, hpepoch⟩

end Sys2Proof.Machine

namespace Sys2Proof.Machine

/-! SUPPORT. The sense pair and the loss of the peer (R304 to R306, R310, R319, Table 10.12). -/

/-! ### A loss decision (R306, R319) -/

/-- A Holiday entry that is abandoned leaves no more of the pair than its loss settles (R46). -/
theorem abandonEntry_lost (s : State) (trigger : Mode) (kind : Nat) : (ties (abandonEntry s trigger)).bond.lost kind = (ties s).bond.lost kind := by
  unfold abandonEntry
  split
  · rfl
  · dsimp only
    split
    · rw [record_ties]
      rfl
    · cases s.md.ps4 with
      | none =>
        rw [Option.elim_none, record_ties]
        rfl
      | some x =>
        rw [Option.elim_some, completeFor_ties, record_ties]
        rfl

/-- The loss is counted, as a twin's or as the link's (log C3h). -/
def lossCounted (s : State) (kind : Nat) : State :=
  if kind != 2 then { s with tw := { s.tw with losses := min (s.tw.losses + 1) (2^32 - 1) } }
  else { s with tw := { s.tw with linkFaults := min (s.tw.linkFaults + 1) (2^32 - 1) } }

theorem lossCounted_ties (s : State) (kind : Nat) : ties (lossCounted s kind) = ties s := by
  unfold lossCounted
  split <;> rfl

theorem lossCounted_th (s : State) (kind : Nat) : (lossCounted s kind).th = s.th := by
  unfold lossCounted
  split <;> rfl

/-- The state separated from a twin that is lost, the loss counted and recorded, under the next epoch (R263, R306). -/
def lossRecorded (s : State) (kind : Nat) : State :=
  let u := lossCounted (separate (abandonEntry s .solo) kind) kind
  nextEpoch (record u 0x60 [kind, u.jr.pepoch.toNat])

/-- Every namespace becomes what Table 10.15 gives. -/
def loseAll (dead : Bool) (s : State) : State := s.zn.ns.foldl (fun s p => loseNs s p.1 p.2 dead) s

theorem loseTwin_eq (s : State) (kind : Nat) : loseTwin s kind =
    raiseAll (updateAna (endFetches (endAdminWait (endForTwin (loseAll (kind != 2) (dropPolicyChanges (toSolo (lossRecorded s kind)))))))) 7 0xC3 0xC3 := rfl

theorem lossRecorded_bond (s : State) (kind : Nat) :
    (ties (lossRecorded s kind)).bond = { (ties s).bond.lost kind with pepoch := s.jr.pepoch + 1 } := by
  have hbond : (ties (lossCounted (separate (abandonEntry s .solo) kind) kind)).bond = (ties s).bond.lost kind := by
    rw [lossCounted_ties, separate_bond, abandonEntry_lost]
  have hepoch : (lossCounted (separate (abandonEntry s .solo) kind) kind).jr.pepoch = s.jr.pepoch := by
    rw [← ties_pepoch, hbond]
    rfl
  unfold lossRecorded
  dsimp only
  rw [nextEpoch_ties, record_ties, record_jr, hbond, hepoch]

theorem lossRecorded_shut (s : State) (kind : Nat) : (lossRecorded s kind).th.shut = s.th.shut := by
  have hkept : Kept true true s (separate (abandonEntry s .solo) kind) := separate_kept kind (abandonEntry_kept _ (Kept.refl s))
  unfold lossRecorded nextEpoch
  dsimp only
  rw [record_th, lossCounted_th]
  exact (hkept.core rfl).shut

theorem loseNs_bond (s : State) (nsid : Nat) (n : Ns) (dead : Bool) : (ties (loseNs s nsid n dead)).bond = (ties s).bond := by
  unfold loseNs
  split
  · rw [ackAll_ties, setNs_bond]
  · split
    · dsimp only
      rw [ties_foldl fun (s : State) (p : Nat × Cmd) => takeOverCmd_ties s p.1 p.2, takeNs_bond, releaseAllHeld_ties]
    · dsimp only
      rw [ties_foldl fun (s : State) (p : Nat × Cmd) => endForwarded_ties s p.1 p.2]
      split
      · exact setNs_bond _ _ _
      · rfl

theorem loseAll_bond (dead : Bool) (s : State) : (ties (loseAll dead s)).bond = (ties s).bond :=
  bond_foldl (fun (s : State) (p : Nat × Ns) => loseNs_bond s p.1 p.2 dead) _ s

theorem loseAll_kept {c s : State} (dead : Bool) (h : Kept true false c s) : Kept true false c (loseAll dead s) := Kept.foldl h fun _ _ h => loseNs_kept _ _ _ h

/-- A loss decision loses the bond under the next epoch; what ends with it leaves the bond. -/
theorem loseTwin_bond (s : State) (kind : Nat) : (ties (loseTwin s kind)).bond = { (ties s).bond.lost kind with pepoch := s.jr.pepoch + 1 } := by
  rw [loseTwin_eq, raiseAll_ties, updateAna_ties, endFetches_ties, endAdminWait_bond, endForTwin_ties, loseAll_bond, dropPolicyChanges_ties, toSolo_ties, lossRecorded_bond]

theorem loseTwin_mode {s : State} (hshut : s.th.shut = 0) (kind : Nat) : (loseTwin s kind).md.mode = .solo := by
  have hkept : Kept true false (toSolo (lossRecorded s kind)) (loseTwin s kind) := by
    rw [loseTwin_eq]
    exact raiseAll_kept _ _ _ (updateAna_kept (endFetches_kept (endAdminWait_kept (endForTwin_kept (loseAll_kept _ (dropPolicyChanges_kept (Kept.refl _)))))))
  exact (hkept.core rfl).mode.trans (toSolo_mode ((lossRecorded_shut s kind).trans hshut))

theorem ties_linkUp (s : State) : (ties s).bond.linkUp = s.tw.linkUp := rfl
theorem ties_linkKeys (s : State) : (ties s).bond.linkKeys = s.keys.linkKeys := rfl

/-- The pair that stood in `s` is lost, the way `kind` says: the module is in Solo, under the next epoch, without link and keys (R263, R306). -/
structure Lost (s : State) (kind : Nat) (t : State) : Prop where
  mode : t.md.mode = .solo
  paired : t.tw.paired = false
  link : t.tw.linkUp = false
  pepoch : t.jr.pepoch = s.jr.pepoch + 1
  lossKind : t.tw.lossKind = kind
  linkKeys : t.keys.linkKeys = []

theorem loseTwin_lost {s : State} (hshut : s.th.shut = 0) (kind : Nat) : Lost s kind (loseTwin s kind) := by
  have hbond := loseTwin_bond s kind
  refine ⟨loseTwin_mode hshut kind, ?_, ?_, ?_, ?_, ?_⟩
  · rw [← ties_paired, hbond]
    rfl
  · rw [← ties_linkUp, hbond]
    rfl
  · rw [← ties_pepoch, hbond]
  · rw [← ties_lossKind, hbond]
    rfl
  · rw [← ties_linkKeys, hbond]
    rfl

/-! ### The sense pair (R305) -/

theorem senseFaultSet_raises {s : State} (hlink : s.tw.linkUp = true) (hclear : s.tw.senseFault = false) (hdiffer : s.tw.senseIn ≠ s.tw.peerSenseOut)
    (hlong : s.tw.senseAt + 10000 ≤ s.time.dtb) : ∃ t, exec .senseFaultSet s = .next t ∧ t.tw.senseFault = true ∧ t.tw.linkUp = true ∧
      t.zn.store = s.zn.store ∧ t.jr = s.jr ∧ Core s t := by
  have hexec : exec .senseFaultSet s = .next (raiseAll (record { s with tw := { s.tw with senseFault := true } } 0x62 [1]) 7 0xC3 0xC3) := by
    show execSenseFaultSet s = _
    rw [execSenseFaultSet, if_neg (by simp [hlink, hclear, hdiffer, Nat.not_lt.2 hlong])]
  have hkept := (execSenseFaultSet_kept (K := true) (J := true) (Kept.refl s)).next_kept _ hexec
  exact ⟨_, hexec, by simp, by simpa using hlink, hkept.content rfl, by simp, hkept.core rfl⟩

theorem senseFaultClear_clears {s : State} (hset : s.tw.senseFault = true) (hagree : s.tw.senseIn = s.tw.peerSenseOut) (hlong : s.tw.senseAt + 1000000000 ≤ s.time.dtb) :
    ∃ t, exec .senseFaultClear s = .next t ∧ t.tw.senseFault = false ∧ t.tw.linkUp = s.tw.linkUp ∧ t.zn.store = s.zn.store ∧ t.jr = s.jr ∧ Core s t := by
  have hexec : exec .senseFaultClear s = .next (raiseAll (record { s with tw := { s.tw with senseFault := false } } 0x62 [0]) 7 0xC3 0xC3) := by
    show execSenseFaultClear s = _
    rw [execSenseFaultClear, if_neg (by simp [hset, hagree, Nat.not_lt.2 hlong])]
  have hkept := (execSenseFaultClear_kept (K := true) (J := true) (Kept.refl s)).next_kept _ hexec
  exact ⟨_, hexec, by simp, by simp, hkept.content rfl, by simp, hkept.core rfl⟩

/-! ### The peer lost, and the sense check (R306) -/

theorem exec_peerLost_service {s : State} (hmode : s.md.mode = .service) (hsilent : s.tw.lastFlitAt + 16000 ≤ s.time.dtb) :
    exec .peerLost s = .next { s with tw := { s.tw with lostPending := true } } := by
  show execPeerLost s = _
  rw [execPeerLost, if_neg (Nat.not_lt.2 hsilent), if_pos hmode]

theorem exec_peerLost_pairing {s : State} (hmode : s.md.mode = .pairing) (hstep : 2 ≤ s.tw.step) (hsilent : s.tw.lastFlitAt + 16000 ≤ s.time.dtb) :
    exec .peerLost s = .next (refusePairing s 0x0A) := by
  show execPeerLost s = _
  rw [execPeerLost, if_neg (Nat.not_lt.2 hsilent), if_neg (by simp [hmode]), if_pos ⟨hmode, hstep⟩]

theorem exec_peerLost_early {s : State} (hheard : s.time.dtb < s.tw.lastFlitAt + 16000) : exec .peerLost s = .next s := by
  show execPeerLost s = _
  rw [execPeerLost, if_pos hheard]

theorem exec_lossDecision {s : State} {l : List Bool} (hmode : s.md.mode = .service) (hpending : s.tw.lostPending = true) (hsamples : l.length = 40)
    (hsilent : s.tw.lastFlitAt + 20000 ≤ s.time.dtb) : exec (.lossDecision l) s = .next (loseTwin s (senseDecision l s.tw.senseFault)) := by
  show execLossDecision l s = _
  rw [execLossDecision, if_neg (by simp [hmode, hpending, hsamples, hsilent])]

theorem exec_lossDecision_idle {s : State} (l : List Bool) (hout : s.md.mode ≠ .service ∨ s.tw.lostPending = false ∨ s.time.dtb < s.tw.lastFlitAt + 20000) :
    exec (.lossDecision l) s = .next s := by
  show execLossDecision l s = _
  rw [execLossDecision, if_pos]
  rcases hout with hmode | hpending | hheard
  · simp [hmode]
  · simp [hpending]
  · simp [hheard]

/-! ### A pairing step that overruns (R310) -/

theorem exec_pairingTimeout {s : State} (hmode : s.md.mode = .pairing) (hlate : stepEnd s.tw s.tw.step ≤ s.time.dtb) :
    exec (.pairingTimeout s.tw.step) s = .next (refusePairing s (stepCause s.tw.step)) := by
  show execPairingTimeout s.tw.step s = _
  rw [execPairingTimeout, if_neg (by simp [hmode, Nat.not_lt.2 hlate])]

theorem exec_pairingTimeout_idle {s : State} {k : Nat} (hout : s.md.mode ≠ .pairing ∨ k ≠ s.tw.step ∨ s.time.dtb < stepEnd s.tw k) :
    exec (.pairingTimeout k) s = .next s := by
  show execPairingTimeout k s = _
  rw [execPairingTimeout, if_pos hout]

/-! ### Notices of the twin's end, and of its reset (R65, R306, R326) -/

theorem noticeOfEnd_decides {s : State} {h : MsgHdr} (hreach : Reaches s h 9) (kind : Nat) : noticeOfEnd s h kind = .next (loseTwin (noted s h) kind) := by
  unfold noticeOfEnd
  rw [if_neg (by simp [hreach.link, hreach.rails]), if_neg (by simp [hreach.auth]), if_neg (by simp [hreach.mode]), peerMsg_reaches hreach]

theorem exec_noticeHarvest {s : State} {h : MsgHdr} (hreach : Reaches s h 9) : exec (.noticeHarvest h) s = .next (loseTwin (noted s h) 3) :=
  noticeOfEnd_decides hreach 3

theorem exec_noticeQuarantine {s : State} {h : MsgHdr} (hreach : Reaches s h 9) : exec (.noticeQuarantine h) s = .next (loseTwin (noted s h) 4) :=
  noticeOfEnd_decides hreach 4

theorem exec_noticeNvmSubsystemReset {s : State} {h : MsgHdr} (hreach : Reaches s h 9) :
    exec (.noticeNvmSubsystemReset h) s = .next (subsystemReset (noted s h)) := peerMsg_reaches hreach subsystemReset

/-- Settles O50: a loss decision is read off the bond, which what ends with the pair leaves as the separation made it. -/
theorem lossOfThePeer : Obligations.LossOfThePeer := by
  unfold Obligations.LossOfThePeer
  refine ⟨fun s => senseFaultSet_raises, fun s => senseFaultClear_clears, fun s => exec_peerLost_service, ?silent, fun s => exec_peerLost_early, ?check,
    fun s l => exec_lossDecision_idle l, ?overrun, fun s k => exec_pairingTimeout_idle, ?notices⟩
  case silent =>
    intro s hmode hstep hsilent
    obtain ⟨hsolo, hcause, hdown, hstore⟩ := refusePairing_refused hmode 0x0A
    exact ⟨_, exec_peerLost_pairing hmode hstep hsilent, hsolo, hcause, hdown, hstore⟩
  case check =>
    intro s l hmode hpending hsamples hsilent hshut
    obtain ⟨hsolo, hpaired, hdown, hepoch, hkind, hkeys⟩ := loseTwin_lost hshut (senseDecision l s.tw.senseFault)
    exact ⟨_, exec_lossDecision hmode hpending hsamples hsilent, hsolo, hpaired, hdown, hepoch, hkind, hkeys⟩
  case overrun =>
    rintro s _ hmode rfl hlate
    obtain ⟨hsolo, hcause, hdown, hstore⟩ := refusePairing_refused hmode (stepCause s.tw.step)
    exact ⟨_, exec_pairingTimeout hmode hlate, hsolo, hcause, hdown, hstore⟩
  case notices =>
    intro s h hreach hshut
    have hlost (kind : Nat) : Lost (noted s h) kind (loseTwin (noted s h) kind) := loseTwin_lost (s := noted s h) hshut kind
    refine ⟨⟨_, exec_noticeHarvest hreach, (hlost 3).mode, (hlost 3).lossKind, (hlost 3).paired, (hlost 3).pepoch⟩,
      ⟨_, exec_noticeQuarantine hreach, (hlost 4).mode, (hlost 4).lossKind, (hlost 4).paired, (hlost 4).pepoch⟩, ?_⟩
    have hreset := subsystemReset_wasReset (noted s h)
    have hkept : Kept true true s (subsystemReset (noted s h)) := subsystemReset_kept (noted_kept s h)
    exact ⟨_, exec_noticeNvmSubsystemReset hreach, (hkept.core rfl).mode.trans hreach.mode, hreset.rate, hreset.vfEnable, hreset.nssro, hkept.content rfl⟩

end Sys2Proof.Machine

namespace Sys2Proof.Machine

/-! SUPPORT. A subsystem's reset that is carried to the twin (R65, R326): every controller is disabled, and what had been sent stays sent. -/

/-! ### Every controller's CC is cleared (R65) -/

/-- What every reset of a controller gives and the end of commands leaves, a reset of them all gives each. -/
theorem foldl_resetCtrl_gives {P : Ctrl → Prop} {keepRegs : Bool} (hreset : ∀ c : Ctrl, P (c.afterReset keepRegs)) (hregs : ∀ c d : Ctrl, d.regs = c.regs → P c → P d)
    (f : Nat) (l : KV Ctrl) (s : State) (h : (∃ p ∈ l, p.1 = f) ∨ P (ctrl s f)) : P (ctrl (l.foldl (fun s p => resetCtrl s p.1 keepRegs) s) f) := by
  induction l generalizing s with
  | nil => simpa using h
  | cons p l ih =>
    refine ih _ ?_
    by_cases hp : p.1 = f
    · obtain ⟨c, hc, -⟩ := resetCtrl_self s p.1 keepRegs
      subst hp
      exact .inr (hc ▸ hreset c)
    · rcases h with ⟨q, hq, rfl⟩ | hheld
      · exact .inl ⟨q, (List.mem_cons.1 hq).resolve_left fun hqp => hp (hqp ▸ rfl), rfl⟩
      · exact .inr (hregs _ _ (resetCtrl_other s (Ne.symm hp) keepRegs) hheld)

/-- A controller whose CC is 0 and which is not ready. -/
def Ctrl.cleared (c : Ctrl) : Prop := c.cc = 0 ∧ c.rdy = false

theorem Ctrl.cleared_of_regs {c d : Ctrl} (h : d.regs = c.regs) (hc : c.cleared) : d.cleared :=
  ⟨(congrArg Ctrl.cc h).trans hc.1, (congrArg Ctrl.rdy h).trans hc.2⟩

/-- A controller that is not listed is as at power good. -/
theorem resetAll_cleared (s : State) (keepRegs : Bool) (f : Nat) : (ctrl (resetAll s keepRegs) f).cleared := by
  refine foldl_resetCtrl_gives (fun _ => ⟨rfl, rfl⟩) (fun _ _ => Ctrl.cleared_of_regs) f _ s ?_
  by_cases h : ∃ p ∈ s.port.ctrls, p.1 = f
  · exact .inl h
  · refine .inr ?_
    have hnone : KV.find s.port.ctrls f = none := KV.find_of_not_mem (fun p hp hpf => h ⟨p, hp, hpf⟩)
    rw [ctrl, KV.findD, hnone]
    exact ⟨rfl, rfl⟩

/-- The port reset and its zones closed, before NSSRO is set and the link retrains (R65). -/
def portReset (s : State) : State := closeZonesOf (clearVfs (resetAll s false)) (fun _ => true)

theorem subsystemReset_eq (s : State) : subsystemReset s = linkGone (withNssro (portReset s)) false true := rfl

theorem withNssro_cleared {s : State} {f : Nat} (h : (ctrl s f).cleared) : (ctrl (withNssro s) f).cleared :=
  foldl_setCtrl_keeps (P := Ctrl.cleared) (g := fun c => { c with nssro := true }) (fun _ h => h) f _ s h

theorem subsystemReset_cleared (s : State) (f : Nat) : (ctrl (subsystemReset s) f).cleared := by
  have hport : ctrl (portReset s) f = ctrl (resetAll s false) f := rfl
  rw [subsystemReset_eq, ctrl_linkGone]
  refine withNssro_cleared ?_
  rw [hport]
  exact resetAll_cleared s false f

theorem subsystemReset_training (s : State) : (subsystemReset s).port.training = true := rfl

/-! ### What was sent to the twin stays sent -/

/-- The twin's part without the flit sender, the messages sent and what is left to send (R254, R294, R302). -/
def Twin.unsent (t : Twin) : Twin := { t.still with out := [], counters := [], work := [], frames := [] }

/-- From `c` to `s` messages may have been sent to the twin, and a Reshape may have nothing left to send; no message is taken back, and the rest of the twin's part is as it was. -/
def SentOn (c s : State) : Prop := c.tw.out <+: s.tw.out ∧ s.tw.unsent = c.tw.unsent

theorem SentOn.out {c s : State} (h : SentOn c s) : c.tw.out <+: s.tw.out := h.1
theorem SentOn.rest {c s : State} (h : SentOn c s) : s.tw.unsent = c.tw.unsent := h.2

theorem SentOn.refl (s : State) : SentOn s s := ⟨List.prefix_rfl, rfl⟩

theorem SentOn.trans {a b c : State} (h : SentOn a b) (k : SentOn b c) : SentOn a c := ⟨h.out.trans k.out, k.rest.trans h.rest⟩

theorem SentOn.of_tw {c s : State} (h : s.tw = c.tw) : SentOn c s := by
  refine ⟨?_, congrArg Twin.unsent h⟩
  rw [h]

theorem SentOn.foldl {α : Type} {f : State → α → State} (h : ∀ s x, SentOn s (f s x)) (l : List α) (s : State) : SentOn s (l.foldl f s) := by
  induction l generalizing s with
  | nil => exact SentOn.refl s
  | cons x l ih => exact (h s x).trans (ih _)

/-- A field of the twin's part that sending does not touch. -/
theorem SentOn.field {α : Type} {c s : State} (h : SentOn c s) (f : Twin → α) (hf : ∀ t : Twin, f t.unsent = f t) : f s.tw = f c.tw :=
  ((hf _).symm.trans (congrArg f h.rest)).trans (hf _)

theorem PortIt.sentOn {c s : State} (h : PortIt c s) : SentOn c s := .of_tw (h.field (·.tw) fun _ _ => rfl)

theorem send_sentOn (s : State) (typ tag : Nat) (body : List Nat) : SentOn s (send s typ tag body) := by
  refine ⟨?_, send_tw_field Twin.unsent (fun _ => rfl) s typ tag body⟩
  cases hlink : s.tw.linkUp with
  | false => simp [send, hlink]
  | true => exact ⟨_, (send_out s typ tag body hlink).symm⟩

theorem missEvent_tw (s : State) (c : Cmd) (late : Nat) : (missEvent s c late).tw = s.tw := by
  unfold missEvent
  split
  · exact record_tw _ _ _ _ _ _
  · rfl

theorem withoutCmd_sentOn (s : State) (slot : Nat) (c : Cmd) : SentOn s (withoutCmd s slot c) :=
  PortIt.sentOn ((freeBufs_portIt s c).trans (c := withoutCmd s slot c) rfl)

theorem endCmd_sentOn (s : State) (slot : Nat) (st : Status) (dw0 dw1 : Nat) (data : List Nat) : SentOn s (endCmd s slot st dw0 dw1 data) := by
  cases hc : KV.find s.port.cmds slot with
  | none => exact .of_tw (by simp [endCmd, hc])
  | some c =>
    rw [endCmd_eq hc]
    refine (withoutCmd_sentOn s slot c).trans ?_
    split
    · exact .of_tw (missEvent_tw _ _ _)
    · split
      · exact send_sentOn _ _ _ _
      · exact .of_tw ((missEvent_tw _ _ _).trans (complete_tw _ _ _ _ _ _ _ _))

theorem wakeFlushes_sentOn (s : State) (slot : Nat) : SentOn s (wakeFlushes s slot) :=
  (SentOn.of_tw (by rfl)).trans (.foldl (fun s _ => endCmd_sentOn s _ _ _ _ _) _ _)

theorem endDelete_tw (s : State) (func sqid : Nat) : (endDelete s func sqid).tw = s.tw := by
  unfold endDelete
  repeat' split
  · rfl
  · rfl
  · rfl
  · exact complete_tw _ _ _ _ _ _ _ _

theorem endShutdown_tw (s : State) (func : Nat) : (endShutdown s func).tw = s.tw := by
  unfold endShutdown
  split <;> rfl

theorem tcgFor_tw (s : State) (owner cid result : Nat) : (tcgFor s owner cid result).tw = s.tw := by
  unfold tcgFor tcgResult
  split
  · exact complete_tw _ _ _ _ _ _ _ _
  · rfl

theorem endInjection_sentOn (s : State) (func cid : Nat) (ok : Bool) : SentOn s (endInjection s func cid ok) := by
  unfold endInjection
  split
  · exact send_sentOn _ _ _ _
  · exact .of_tw (tcgFor_tw _ _ _ _)

theorem inject_sentOn (s : State) (w : KeyWait) : SentOn s (inject s w) := by
  unfold inject
  split
  · exact endInjection_sentOn _ _ _ _
  · split
    · exact endInjection_sentOn _ _ _ _
    · split
      · exact SentOn.refl s
      · exact (SentOn.of_tw (by rfl)).trans (endInjection_sentOn _ _ _ _)

theorem settleKeys_sentOn (s : State) : SentOn s (settleKeys s) := by
  unfold settleKeys
  split
  · exact SentOn.refl s
  · exact (SentOn.of_tw (by rfl)).trans (.foldl inject_sentOn _ _)

theorem afterEnd_sentOn (s : State) (slot func sqid : Nat) : SentOn s (afterEnd s slot func sqid) :=
  (wakeFlushes_sentOn s slot).trans ((SentOn.of_tw ((endShutdown_tw _ _).trans (endDelete_tw _ _ _))).trans (settleKeys_sentOn _))

theorem finish_sentOn (s : State) (slot : Nat) (st : Status) (dw0 dw1 : Nat) (data : List Nat) : SentOn s (finish s slot st dw0 dw1 data) := by
  unfold finish
  split
  · exact SentOn.refl s
  · exact (endCmd_sentOn _ _ _ _ _ _).trans (afterEnd_sentOn _ _ _ _)

theorem disposeQuiet_sentOn (s : State) (slot : Nat) : SentOn s (disposeQuiet s slot) := by
  unfold disposeQuiet
  split
  · exact SentOn.refl s
  · exact (withoutCmd_sentOn s slot _).trans ((SentOn.of_tw (missEvent_tw _ _ _)).trans (afterEnd_sentOn _ _ _ _))

/-- A record that is removed drops its copy on the twin (R280). -/
theorem removeRec_sentOn (s : State) (seq : Nat) : SentOn s (removeRec s seq) := by
  unfold removeRec
  split
  · exact SentOn.refl s
  · dsimp only
    split <;> split
    · exact send_sentOn s _ _ _
    · exact SentOn.refl s
    · exact send_sentOn s _ _ _
    · exact SentOn.refl s

theorem dropWrite_sentOn (s : State) (seq : Nat) : SentOn s (dropWrite s seq) := by
  have hlater (u : State) (p : Nat × VRec) : SentOn u (match p.2.slot with | some sl => finish (removeRec u p.1) sl .zoneInvalidWrite | none => removeRec u p.1) := by
    split
    · exact (removeRec_sentOn u _).trans (finish_sentOn _ _ _ _ _ _)
    · exact removeRec_sentOn u _
  unfold dropWrite
  split
  · exact SentOn.refl s
  · refine (removeRec_sentOn s seq).trans ?_
    dsimp only
    split
    · exact SentOn.refl _
    · split
      · exact SentOn.refl _
      · exact SentOn.trans (.foldl hlater _ _) (.of_tw (by rfl))

theorem undo_sentOn (s : State) (slot : Nat) (c : Cmd) : SentOn s (undo s slot c) := by
  unfold undo
  dsimp only
  split
  · exact dropWrite_sentOn s _
  · exact dropWrite_sentOn s _
  · exact dropWrite_sentOn s _
  · exact SentOn.refl s

theorem disposeCmd_sentOn (s : State) (slot : Nat) : SentOn s (disposeCmd s slot) := by
  unfold disposeCmd
  split
  · exact SentOn.refl s
  · split
    · exact SentOn.refl s
    · exact SentOn.refl s
    · exact (send_sentOn _ _ _ _).trans (disposeQuiet_sentOn _ _)
    · exact (undo_sentOn _ _ _).trans (disposeQuiet_sentOn _ _)

theorem resetCtrl_sentOn (s : State) (f : Nat) (keepRegs : Bool) : SentOn s (resetCtrl s f keepRegs) :=
  (SentOn.of_tw (s := setCtrl s f fun c => { c with rdy := false }) rfl).trans
    ((SentOn.foldl disposeCmd_sentOn _ _).trans (SentOn.of_tw (s := resetCtrl s f keepRegs) rfl))

theorem resetAll_sentOn (s : State) (keepRegs : Bool) : SentOn s (resetAll s keepRegs) :=
  SentOn.foldl (fun (s : State) (p : Nat × Ctrl) => resetCtrl_sentOn s p.1 keepRegs) _ s

theorem linkGone_tw (s : State) (count training : Bool) : (linkGone s count training).tw = s.tw := rfl
theorem portReset_tw (s : State) : (portReset s).tw = (resetAll s false).tw := rfl
theorem withNssro_tw (s : State) : (withNssro s).tw = s.tw := by rw [withNssro_port]

theorem subsystemReset_sentOn (s : State) : SentOn s (subsystemReset s) := by
  refine (resetAll_sentOn s false).trans (.of_tw ?_)
  rw [subsystemReset_eq, linkGone_tw, withNssro_tw, portReset_tw]

/-! ### The commands -/

theorem exec_nvmSubsystemReset_service {s : State} {f : Nat} (hf : f < 128) (hmode : s.md.mode = .service) :
    exec (.nvmSubsystemReset f) s = .next (subsystemReset (send s 0x09 0 [3])) := by
  show execNvmSubsystemReset f s = _
  rw [execNvmSubsystemReset, if_neg (by simpa [funcs] using hf), if_pos hmode]

theorem exec_nvmSubsystemReset_alone {s : State} {f : Nat} (hf : f < 128) (hmode : s.md.mode ≠ .service) :
    exec (.nvmSubsystemReset f) s = .next (subsystemReset s) := by
  show execNvmSubsystemReset f s = _
  rw [execNvmSubsystemReset, if_neg (by simpa [funcs] using hf), if_neg hmode]

/-- Settles O59: the Notice goes out first, and a reset takes back nothing that was sent. -/
theorem subsystemResetReachesTheTwin : Obligations.SubsystemResetReachesTheTwin := by
  unfold Obligations.SubsystemResetReachesTheTwin
  refine ⟨?ordered, ?told, ?alone⟩
  case ordered =>
    intro s f hf hmode hlink
    have hreset := subsystemReset_wasReset (send s 0x09 0 [3])
    obtain ⟨l, hout⟩ := (subsystemReset_sentOn (send s 0x09 0 [3])).out
    rw [send_out s _ _ _ hlink, List.append_assoc] at hout
    exact ⟨_, _, l, exec_nvmSubsystemReset_service hf hmode, hout.symm, rfl, rfl, subsystemReset_cleared _, hreset.rate, subsystemReset_training _,
      hreset.core.mode.trans ((congrArg ModeSt.mode (send_md s _ _ _)).trans hmode)⟩
  case told =>
    intro s h hreach
    have hreset := subsystemReset_wasReset (noted s h)
    exact ⟨_, exec_noticeNvmSubsystemReset hreach, subsystemReset_cleared _, hreset.rate, subsystemReset_training _, hreset.core.mode.trans hreach.mode⟩
  case alone =>
    intro s f hf hmode
    have hreset := subsystemReset_wasReset s
    exact ⟨_, exec_nvmSubsystemReset_alone hf hmode, subsystemReset_cleared _, hreset.rate, subsystemReset_training _, hreset.core.mode⟩

end Sys2Proof.Machine

namespace Sys2Proof.Machine

/-! SUPPORT. Messages of another epoch (R263, R299). -/

/-! ### The event that stands for a discarded message (R421 to R424) -/

/-- An event raises the count of its type by one, whether it is written, lost or suppressed (R422). -/
theorem record_total (s : State) (typ : Nat) (payload : List Nat) (func : Option Nat) (nsid key : Nat) :
    (KV.findD (record s typ payload func nsid key).ev.types typ {}).total = min ((KV.findD s.ev.types typ {}).total + 1) (2^64 - 1) := by
  have hset (m : KV EvType) (t : EvType) : (KV.findD (KV.set m typ t) typ {}).total = t.total := by rw [KV.findD_set_self]
  unfold record
  dsimp only
  split
  case isTrue => exact hset _ _
  case isFalse =>
    split
    case isTrue =>
      split
      · rw [raiseAll_ev]
        exact hset _ _
      · exact hset _ _
    case isFalse =>
      split
      · rw [raiseAll_ev]
        refine (hset _ _).trans ?_
        split <;> rfl
      · refine (hset _ _).trans ?_
        split <;> rfl

/-- With a token in its type's bucket and room in the ring, an event is the ring's last entry (R421, R423, R424). -/
theorem record_written {s : State} {typ : Nat} (htoken : 0 < (KV.findD s.ev.types typ {}).bucket) (hroom : s.ev.ring.length < ringRoom) (payload : List Nat)
    (func : Option Nat) (nsid key : Nat) : ∃ e, (record s typ payload func nsid key).ev.ring = s.ev.ring ++ [e] ∧
      e.typ = typ ∧ e.payload = payload ∧ e.dtb = s.time.dtb := by
  unfold record
  dsimp only
  rw [if_neg (by simp [Nat.ne_of_gt htoken]), if_neg (Nat.not_le.2 hroom)]
  split
  · rw [raiseAll_ev]
    exact ⟨_, rfl, rfl, rfl, rfl⟩
  · exact ⟨_, rfl, rfl, rfl, rfl⟩

/-! ### Messages discarded (R299) -/

/-- A message that verifies reaches this module outside a pairing, and carries another epoch than the one in force. -/
structure Foreign (s : State) (h : MsgHdr) : Prop where
  link : s.tw.linkUp = true
  rails : s.sup.rails = true
  auth : h.authOk = true
  mode : s.md.mode ≠ .pairing
  epoch : h.pepoch ≠ s.jr.pepoch.toNat

section
variable {s : State} {h : MsgHdr}

theorem Foreign.peer (hforeign : Foreign s h) {o : Host.Outcome State Fault Refusal} {typs : List Nat} {f : State → State} (ho : o = peerMsg s h typs f) :
    o = .next (discard (noted s h) h) := ho.trans (peerMsg_discards hforeign.link hforeign.rails hforeign.auth f (.inr (.inl hforeign.epoch)))

theorem Foreign.pairing (hforeign : Foreign s h) {o : Host.Outcome State Fault Refusal} {typs : List Nat} {f : State → State} (ho : o = pairingMsg s h typs f) :
    o = .next (discard (noted s h) h) := by
  refine hforeign.peer (typs := typs) (f := f) (ho.trans ?_)
  unfold pairingMsg
  rw [if_pos hforeign.mode]

theorem Foreign.noticeOfEnd (hforeign : Foreign s h) (kind : Nat) : noticeOfEnd s h kind = .next (discard (noted s h) h) := by
  unfold Machine.noticeOfEnd
  rw [if_neg (by simp [hforeign.link, hforeign.rails]), if_neg (by simp [hforeign.auth]), if_neg hforeign.mode, hforeign.peer rfl]

theorem Foreign.noticePairingCommit (hforeign : Foreign s h) : exec (.noticePairingCommit h) s = .next (discard (noted s h) h) := by
  show execNoticePairingCommit h s = _
  rw [execNoticePairingCommit, if_pos hforeign.mode, hforeign.peer rfl]

theorem Foreign.pairingTable (hforeign : Foreign s h) (copy : Option Hello) (entries : List PtEntry) (result : Option Bool) :
    exec (.pairingTable h copy entries result) s = .next (discard (noted s h) h) := by
  show execPairingTable h copy entries result s = _
  rw [execPairingTable, if_pos hforeign.mode, hforeign.peer rfl]

end

theorem discard_noted_frame (s : State) (h : MsgHdr) : (discard (noted s h) h).zn = s.zn ∧ (discard (noted s h) h).jr = s.jr := by
  unfold discard
  rw [record_zn, record_jr]
  exact ⟨rfl, rfl⟩

/-! ### The obligation -/

/-- Settles O60: outside a pairing each message is judged by `peerMsg`, whose epoch check comes before its effect. -/
theorem messagesOfAnotherEpoch : Obligations.MessagesOfAnotherEpoch := by
  unfold Obligations.MessagesOfAnotherEpoch
  refine ⟨?discarded, ?written, ?counted, ?answered⟩
  case discarded =>
    intro s h hlink hrails hauth hmode hepoch
    have hforeign : Foreign s h := ⟨hlink, hrails, hauth, hmode, hepoch⟩
    exact ⟨fun _ => hforeign.peer (execMirrorRecord.eq_def ..), fun _ _ _ => hforeign.peer (execMirrorAcknowledgement.eq_def ..),
      fun _ _ _ => hforeign.peer (execShareUpdate.eq_def ..), fun _ => hforeign.peer (execDrop.eq_def ..),
      fun _ _ _ _ => hforeign.pairing (execForwardedCompletion.eq_def ..), fun _ _ => hforeign.peer (execZoneConfirmation.eq_def ..),
      fun _ _ => hforeign.peer (execAllotmentGrant.eq_def ..), fun _ => hforeign.peer (execDispose.eq_def ..),
      fun _ _ _ => hforeign.peer (execHandoverOffer.eq_def ..), fun _ oseq _ => hforeign.peer (execHandoverTaken.eq_def _ _ oseq _ _),
      fun _ oseq _ => hforeign.peer (execHandoverDepart.eq_def _ _ oseq _ _), fun _ oseq _ => hforeign.peer (execHandoverDepartTaken.eq_def _ _ oseq _ _),
      hforeign.noticeOfEnd 3, hforeign.noticeOfEnd 4, hforeign.peer (execNoticeNvmSubsystemReset.eq_def ..), hforeign.noticePairingCommit,
      fun _ _ _ => hforeign.pairing (execAdminSync.eq_def ..), hforeign.pairingTable, fun _ => hforeign.peer (execResyncFrame.eq_def ..),
      fun _ => hforeign.peer (execReshapeCopy.eq_def ..), fun _ _ _ _ => hforeign.peer (execFetchRequest.eq_def ..),
      fun _ => hforeign.peer (execFetchData.eq_def ..)⟩
  case written =>
    intro s h htoken hroom
    exact record_written (s := noted s h) htoken hroom _ _ _ _
  case counted =>
    intro s h
    obtain ⟨hzn, hjr⟩ := discard_noted_frame s h
    exact ⟨record_total (noted s h) _ _ _ _ _, hzn, hjr, (discard_noted_kept s h).core rfl⟩
  case answered =>
    intro s h op cls stamp deadline claim e all hlink hrails hauth htyp hepoch
    have hkept : Kept true true s (answerForward (noted s h) h .anaInaccessible) := answerForward_kept _ _ _ (noted_kept s h)
    exact ⟨_, _, exec_forwardedCommand_foreign hlink hrails hauth htyp (.inr hepoch), send_out (noted s h) _ _ _ hlink, rfl, rfl, rfl,
      send_zn _ _ _ _, send_jr _ _ _ _, send_port _ _ _ _, hkept.core rfl⟩

end Sys2Proof.Machine

namespace Sys2Proof.Machine

/-! SUPPORT. Pair Control (R318, R320, R324, Table 10.18). -/

/-! ### A namespace deleted sends at most messages (R97) -/

theorem completeFor_tw (s : State) (owner cid : Nat) (st : Status) (dw0 : Nat) (data : List Nat) : (completeFor s owner cid st dw0 data).tw = s.tw := by
  unfold completeFor
  split
  · exact complete_tw _ _ _ _ _ _ _ _
  · rfl

theorem endCancel_sentOn (s : State) (r : Reshape) : SentOn s (endCancel s r) := by
  have hlocal : SentOn s (r.cancelCid.elim s fun x => completeFor s x.1 x.2 .success) := by
    cases r.cancelCid with
    | none => exact SentOn.refl s
    | some x => exact .of_tw (completeFor_tw _ _ _ _ _ _)
  unfold endCancel
  dsimp only
  cases r.cancelTag with
  | none => exact hlocal
  | some t => exact hlocal.trans (send_sentOn _ _ _ _)

theorem endReshape_sentOn (s : State) (nsid : Nat) (st : Status) : SentOn s (endReshape s nsid st) := by
  have hdropped : SentOn s (setNs (dropReshapeWork s nsid) nsid fun n => { n with reshape := none }) := ⟨List.prefix_rfl, rfl⟩
  unfold endReshape
  split
  · exact SentOn.refl s
  · next r _ =>
    refine hdropped.trans ((endCancel_sentOn _ r).trans ?_)
    dsimp only
    split
    · exact send_sentOn _ _ _ _
    · exact .of_tw ((raiseAen_tw _ _ _ _ _).trans (record_tw _ _ _ _ _ _))

theorem noteNs_tw (s : State) (nsid : Nat) : (noteNs s nsid).tw = s.tw :=
  foldl_field State.tw (fun (s : State) f =>
    raiseAen (setCtrl s f (fun c => { c with changedNs := if c.changedNs.contains nsid then c.changedNs else c.changedNs ++ [nsid] })) f 2 0 4)
    (fun s f => raiseAen_tw (setCtrl s f _) f 2 0 4) _ s

theorem MediaOnly.tw {c s : State} (h : MediaOnly c s) : s.tw = c.tw := by rw [h]

theorem retire_tw (s : State) (q : Nat) : (retire s q).tw = s.tw := by
  unfold retire
  split <;> rfl

theorem dropData_tw (s : State) (nsid : Nat) : (eraseNsSets (dropMeta (dropNsWork s nsid) nsid) nsid).tw = s.tw := by
  have hwork : (dropNsWork s nsid).tw = s.tw := foldl_field State.tw (fun (s : State) (p : Nat × VRec) => retire s p.1) (fun s p => retire_tw s p.1) _ s
  have hmeta (u : State) : (dropMeta u nsid).tw = u.tw := (MediaOnly.foldl staleMeta_mediaOnly _ _).tw
  have hsets (u : State) : (eraseNsSets u nsid).tw = u.tw := foldl_field State.tw _ (fun s _ => (toErase_mediaOnly s _).tw) _ u
  rw [hsets, hmeta, hwork]

theorem zeroizeSlot_tw (s : State) (slot : Nat) : (zeroizeSlot s slot).tw = s.tw := by
  unfold zeroizeSlot
  dsimp only
  split
  · rfl
  · exact (MediaOnly.foldl toErase_mediaOnly _ _).tw

theorem nsRecord_tw (s : State) (nsid action arg key : Nat) : (nsRecord s nsid action arg key false).tw = s.tw :=
  formRecord_field State.tw (fun _ _ _ => rfl) s _ _

theorem deleteNs_sentOn (s : State) (nsid : Nat) : SentOn s (deleteNs s nsid) := by
  unfold deleteNs
  split
  · exact SentOn.refl s
  · next n _ =>
    refine (SentOn.foldl (fun s sl => finish_sentOn s sl .invalidNamespace 0 0 []) (openOn s nsid) s).trans ((endReshape_sentOn _ nsid .aborted).trans ?_)
    refine SentOn.trans (.of_tw ?_) (settleKeys_sentOn _)
    rw [nsRecord_tw]
    dsimp only
    rw [foldl_field State.tw zeroizeSlot zeroizeSlot_tw, foldl_field State.tw (fun (s : State) (p : Nat × VRec) => retire s p.1) fun s p => retire_tw s p.1, dropData_tw,
      noteNs_tw]

/-- A pair dissolved leaves no identifier and the module unpaired (R324). -/
theorem dissolve_unpaired (s : State) : (dissolve s).tw.unpaired = true ∧ (dissolve s).tw.pairId = 0 := by
  have hdropped : SentOn { s with tw := { s.tw with pairId := 0, unpaired := true } } (dissolve s) := by
    refine SentOn.foldl (fun (u : State) (p : Nat × Ns) => ?_) _ _
    split
    · exact SentOn.refl u
    · exact deleteNs_sentOn u p.1
  exact ⟨hdropped.field (·.unpaired) fun _ => rfl, hdropped.field (·.pairId) fun _ => rfl⟩

/-! ### Namespaces taken (R313, R320) -/

/-- A namespace owned here, no longer fenced, with CONT. -/
def Taken (s : State) (nsid : Nat) : Prop := ∃ m, nsOf s nsid = some m ∧ m.here = true ∧ m.fenced = false ∧ m.cont = true

theorem takeNs_taken {s : State} {nsid : Nat} {n : Ns} (hn : nsOf s nsid = some n) : Taken (takeNs s nsid true) nsid :=
  ⟨_, nsOf_setNs_self hn _, rfl, rfl, Bool.or_true _⟩

/-- A list that names one namespace alone, however often, takes it. -/
theorem foldl_takeNs_taken {nsid : Nat} {l : List Nat} (hsome : l ≠ []) (hone : ∀ i ∈ l, i = nsid) {s : State} {n : Ns} (hn : nsOf s nsid = some n) :
    Taken (l.foldl (fun s i => takeNs s i true) s) nsid := by
  induction l generalizing s n with
  | nil => exact absurd rfl hsome
  | cons i l ih =>
    obtain rfl := hone i List.mem_cons_self
    have htaken := takeNs_taken hn
    by_cases hlast : l = []
    · subst hlast
      exact htaken
    · obtain ⟨m, hm, -⟩ := htaken
      exact ih hlast (fun j hj => hone j (List.mem_cons_of_mem _ hj)) hm

theorem Taken.updateAna {s : State} {nsid : Nat} (h : Taken s nsid) : Taken (updateAna s) nsid := by
  obtain ⟨n, hn, hhere, hfenced, hcont⟩ := h
  obtain ⟨m, hm, hdescribed⟩ := nsOf_updateAna hn
  exact ⟨m, hm, (congrArg Ns.here hdescribed).trans hhere, (congrArg Ns.fenced hdescribed).trans hfenced, (congrArg Ns.cont hdescribed).trans hcont⟩

/-- The fenced namespaces that a take names (Table 10.18). -/
def fencedOf (s : State) (nsid : Nat) : List Nat := (s.zn.ns.filter (fun p => p.2.fenced && (nsid == 0xFFFFFFFF || p.1 == nsid))).map (fun p => p.1)

theorem fencedOf_one {s : State} {nsid : Nat} (hone : nsid ≠ 0xFFFFFFFF) : ∀ i ∈ fencedOf s nsid, i = nsid := by
  intro i hi
  obtain ⟨p, hp, rfl⟩ := List.mem_map.1 hi
  simpa [hone] using (Bool.and_eq_true_iff.1 (List.mem_filter.1 hp).2).2

theorem fencedOf_ne_nil {s : State} {nsid : Nat} {n : Ns} (hn : nsOf s nsid = some n) (hfenced : n.fenced = true) : fencedOf s nsid ≠ [] :=
  List.ne_nil_of_mem (List.mem_map.2 ⟨(nsid, n), List.mem_filter.2 ⟨KV.mem_of_find hn, by simp [hfenced]⟩, rfl⟩)

/-! ### A transfer begun (R318) -/

theorem tryOffer_offers {s : State} {nsid : Nat} (hmode : s.md.mode = .service) (htransfer : s.tw.transfer = some nsid) : tryOffer s = offer s nsid := by
  unfold tryOffer
  rw [if_neg (not_not_intro hmode), htransfer]

theorem offer_sentOn (s : State) (nsid : Nat) : SentOn s (offer s nsid) := by
  unfold offer
  split
  · exact send_sentOn _ _ _ _
  · exact SentOn.refl s

theorem offer_port (s : State) (nsid : Nat) : (offer s nsid).port = s.port := by
  unfold offer
  split
  · exact send_port _ _ _ _
  · rfl

/-! ### The commands -/

section
variable {s s1 : State} {e : Sqe} {st : Nat}

theorem exec_pairControlJoin_alone (hadm : Admitted s e true .pairControl st s1) (haction : fld e.cdw10 0 4 = 0) (hmode : s1.md.mode ≠ .service) :
    exec (.pairControlJoin e) s = .next (adminDone { s1 with tw := { s1.tw with
      unpaired := false, locked := false, holdTraining := false, wakes := s1.tw.wakes + (if s1.tw.twinDeparted then 1 else 0) } } e .success) := by
  have hwakes : s1.tw.wakes + (if s1.tw.twinDeparted then 1 else 0) = if s1.tw.twinDeparted then s1.tw.wakes + 1 else s1.tw.wakes := by split <;> rfl
  show execPairControlJoin e s = _
  rw [execPairControlJoin, adminCmd_admitted hadm (if_neg (not_not_intro haction)), if_neg hmode, hwakes]

theorem exec_pairControlJoin_service (hadm : Admitted s e true .pairControl st s1) (haction : fld e.cdw10 0 4 = 0) (hmode : s1.md.mode = .service) :
    exec (.pairControlJoin e) s = .next (adminDone s1 e .success) := by
  show execPairControlJoin e s = _
  rw [execPairControlJoin, adminCmd_admitted hadm (if_neg (not_not_intro haction)), if_pos hmode]

/-- The namespaces owned here as single ones (R324). -/
def singled (s : State) : State :=
  { s with zn := { s.zn with ns := KV.mapVals s.zn.ns (fun _ n =>
    if n.mirrored && n.here then { n with mirrored := false, cont := false, yielded := false, sepPepoch := 0 } else n) } }

theorem exec_pairControlUnpair_alone (hadm : Admitted s e true .pairControl st s1) (haction : fld e.cdw10 0 4 = 1) (hmode : s1.md.mode ≠ .service) :
    exec (.pairControlUnpair e) s = .next (adminDone (updateAna (dissolve (singled s1))) e .success) := by
  show execPairControlUnpair e s = _
  rw [execPairControlUnpair, adminCmd_admitted hadm (if_neg (not_not_intro haction)), if_neg hmode]
  rfl

theorem exec_pairControlYield {n : Ns} (hadm : Admitted s e true .pairControl st s1) (haction : fld e.cdw10 0 4 = 3) (hmode : s1.md.mode ≠ .service)
    (hn : nsOf s1 e.nsid = some n) (hmirrored : n.mirrored = true) :
    exec (.pairControlYield e) s = .next (adminDone (updateAna (setNs s1 e.nsid fun n => { n with yielded := true })) e .success) := by
  show execPairControlYield e s = _
  rw [execPairControlYield, adminCmd_admitted hadm (if_neg (not_not_intro haction)), if_neg (by simp [hmode, hn, hmirrored])]

theorem exec_pairControlTake (hadm : Admitted s e true .pairControl st s1) (haction : fld e.cdw10 0 4 = 4) (hmode : s1.md.mode ≠ .service)
    (hfenced : fencedOf s1 e.nsid ≠ []) :
    exec (.pairControlTake e) s = .next (adminDone (updateAna ((fencedOf s1 e.nsid).foldl (fun s i => takeNs s i true) s1)) e .success) := by
  show execPairControlTake e s = _
  rw [execPairControlTake, adminCmd_admitted hadm (if_neg (not_not_intro haction))]
  have hlisted : ¬(fencedOf s1 e.nsid).isEmpty = true := by simpa using hfenced
  exact congrArg Host.Outcome.next (if_neg (not_or.2 ⟨hmode, hlisted⟩))

theorem exec_pairControlTransfer {n : Ns} (hadm : Admitted s e true .pairControl st s1) (haction : fld e.cdw10 0 4 = 2) (hmode : s1.md.mode = .service)
    (hn : nsOf s1 e.nsid = some n) (hmirrored : n.mirrored = true) (hresync : (modeAt s1 st).resyncing = false) (htransfer : s1.tw.transfer = none) (hhere : n.here = true) :
    exec (.pairControlTransfer e) s =
      .next (offer (startTransfer { s1 with tw := { s1.tw with transferCmd := some (ownerOf s1 e.func, 0, e.cid) } } e.nsid) e.nsid) := by
  show execPairControlTransfer e s = _
  rw [execPairControlTransfer, adminCmdAt_admitted hadm (if_neg (not_not_intro haction)), if_neg (not_not_intro hmode), hn]
  dsimp only
  rw [if_neg (by simp [hmirrored]), if_neg (by simp [hresync]), if_neg (by simp [htransfer]), if_pos hhere]
  exact congrArg Host.Outcome.next (tryOffer_offers hmode rfl)

end

/-- Settles O29, each clause by what the command does once admitted. -/
theorem pairControl : Obligations.PairControl := by
  unfold Obligations.PairControl
  refine ⟨fun s s1 e st => exec_pairControlJoin_alone, fun s s1 e st => exec_pairControlJoin_service, ?unpair, ?yields, ?takes, ?transfers⟩
  case unpair =>
    intro s s1 e st hadm haction hmode
    have hkept : Kept true false s1 (updateAna (dissolve (singled s1))) := updateAna_kept (dissolve_kept (Kept.upd (Kept.refl s1) rfl rfl rfl))
    obtain ⟨hunpaired, hid⟩ := dissolve_unpaired (singled s1)
    exact ⟨_, exec_pairControlUnpair_alone hadm haction hmode, by rw [updateAna_tw, hunpaired], by rw [updateAna_tw, hid], hkept.core rfl⟩
  case yields =>
    intro s s1 e st n hadm haction hmode hn hmirrored
    have hkept : Kept true true s1 (updateAna (setNs s1 e.nsid fun n => { n with yielded := true })) := updateAna_kept (setNs_kept _ _ (Kept.refl s1))
    obtain ⟨m, hm, hdescribed⟩ := nsOf_updateAna (nsOf_setNs_self hn fun n => { n with yielded := true })
    exact ⟨_, m, exec_pairControlYield hadm haction hmode hn hmirrored, hm, congrArg Ns.yielded hdescribed, hkept.content rfl, hkept.core rfl⟩
  case takes =>
    intro s s1 e st n hadm haction hmode hone hn hfenced
    have hsome := fencedOf_ne_nil hn hfenced
    have hkept : Kept true true s1 (updateAna ((fencedOf s1 e.nsid).foldl (fun s i => takeNs s i true) s1)) :=
      updateAna_kept (Kept.foldl (Kept.refl s1) fun _ _ h => takeNs_kept _ _ h)
    obtain ⟨m, hm, hhere, hfree, hcont⟩ := (foldl_takeNs_taken hsome (fencedOf_one hone) hn).updateAna
    exact ⟨_, m, exec_pairControlTake hadm haction hmode hsome, hm, hhere, hfree, hcont, hkept.content rfl, hkept.core rfl⟩
  case transfers =>
    intro s s1 e st n hadm haction hmode hn hmirrored hresync htransfer hhere
    have hoffered := offer_sentOn (startTransfer { s1 with tw := { s1.tw with transferCmd := some (ownerOf s1 e.func, 0, e.cid) } } e.nsid) e.nsid
    have hkept : Kept true true s1 (offer (startTransfer { s1 with tw := { s1.tw with transferCmd := some (ownerOf s1 e.func, 0, e.cid) } } e.nsid) e.nsid) :=
      offer_kept _ (startTransfer_kept _ (Kept.upd (Kept.refl s1) rfl rfl rfl))
    exact ⟨_, exec_pairControlTransfer hadm haction hmode hn hmirrored hresync htransfer hhere, hoffered.field (·.transfer) fun _ => rfl,
      hoffered.field (·.transferCmd) fun _ => rfl, offer_port _ _, hkept.content rfl, hkept.core rfl⟩

end Sys2Proof.Machine

namespace Sys2Proof.Machine

/-! SUPPORT. What leaves the twin's part alone: data staged, a hold-up test abandoned, a mode change (R38, R258, R273, R335). -/

/-! ### Staging (R273, R274) -/

@[simp] theorem tw_foldl {α : Type} {f : State → α → State} (h : ∀ s x, (f s x).tw = s.tw) (l : List α) (s : State) : (l.foldl f s).tw = s.tw :=
  foldl_field State.tw f h l s

@[simp] theorem releaseRow_tw (s : State) (g : Nat) (ns : Option Nat) : (releaseRow s g ns).tw = s.tw := releaseRow_field State.tw (fun _ _ _ => rfl) s g ns

@[simp] theorem putUnit_tw (s : State) (g : Nat) (ns : Option Nat) (seq u : Nat) : (putUnit s g ns seq u).tw = s.tw := by
  unfold putUnit
  dsimp only
  split <;> simp

@[simp] theorem appendUnit_tw (nsid : Nat) (s : State) (u : Nat) : (appendUnit nsid s u).tw = s.tw := by
  unfold appendUnit
  split
  · rfl
  · simp

theorem freeLog_tw (s : State) (nsid : Nat) : (freeLog s nsid).tw = s.tw := by
  have hrecord (u : State) (typ action arg : Nat) : (moduleRecord u typ action arg).tw = u.tw := formRecord_field State.tw (fun _ _ _ => rfl) u _ _
  unfold freeLog
  split
  · rfl
  · split
    · rfl
    · rw [(staleMeta_mediaOnly _ _).tw]
      exact hrecord _ _ _ _

@[simp] theorem startMerge_tw (s : State) (nsid : Nat) : (startMerge s nsid).tw = s.tw := by
  unfold startMerge
  split
  · rfl
  · split
    · rfl
    · rw [freeLog_tw, (MediaOnly.foldl (mergeUnit_mediaOnly nsid) _ _).tw]
      rfl

@[simp] theorem stageRec_tw (s : State) (seq : Nat) : (stageRec s seq).tw = s.tw := by
  unfold stageRec
  split
  · rfl
  · split
    · rfl
    · next n _ =>
      dsimp only
      split
      · rfl
      · cases n.zoned <;> split <;> simp

theorem stageZone_tw (s : State) (nsid i : Nat) : (stageZone s nsid i).tw = s.tw := by
  unfold stageZone
  split
  · rfl
  · split
    · rfl
    · simp

theorem relieve_tw (k : Nat) (s : State) : (relieve k s).tw = s.tw := by
  induction k generalizing s with
  | zero => rfl
  | succ k ih =>
    unfold relieve
    split
    · rfl
    · split
      · rfl
      · rw [ih, stageZone_tw]

theorem checkRelief_tw (s : State) : (checkRelief s).tw = s.tw := by
  unfold checkRelief
  split
  · exact relieve_tw _ s
  · rfl

/-! ### A mode change (R38, R258, R335) -/

theorem sizeJournal_tw (s : State) : (sizeJournal s).tw = s.tw := by
  simp [sizeJournal, refreshCrit_tw, checkRelief_tw]

theorem setUsable_tw (s : State) (dj : Nat) : (setUsable s dj).tw = s.tw := sizeJournal_tw _

theorem endTest_tw (s : State) (r : HoldResult) : (endTest s r).tw = s.tw := by
  unfold endTest
  dsimp only
  rw [tw_foldl (fun s _ => completeFor_tw s _ _ _ _ _), record_tw]

theorem abandonTest_tw (s : State) : (abandonTest s).tw = s.tw :=
  abandonTest_of (P := fun t => t.tw = s.tw) (fun _ _ h => h) (fun _ _ h => (setUsable_tw _ _).trans h) (fun _ _ h => (endTest_tw _ _).trans h) rfl

theorem dropMoves_sentOn (s : State) (m : Mode) : SentOn s (dropMoves s m) := by
  unfold dropMoves
  split
  · exact SentOn.refl s
  · refine SentOn.foldl (fun (u : State) (p : Nat × Ns) => ?_) _ s
    split
    · exact endReshape_sentOn _ _ _
    · exact SentOn.refl u

theorem leftMode_sentOn (s : State) (m : Mode) : SentOn s (leftMode s m) := by
  unfold leftMode
  split
  · exact SentOn.trans (.of_tw (abandonTest_tw s)) (dropMoves_sentOn _ m)
  · exact SentOn.refl s

/-- A change to Pairing: the mode's own change after the old one is left, and the sense level, which is high. -/
theorem toMode_pairing (s : State) (serving : Bool) : toMode s .pairing 0 serving =
    { enterMode (leftMode s .pairing) .pairing 0 serving with tw := { (enterMode (leftMode s .pairing) .pairing 0 serving).tw with senseOut := true } } := by
  unfold toMode leftMode
  cases s.md.mode.operates <;> simp [Mode.operates]

/-! ### Training and the link's outcome (R287, R290, R309) -/

/-- The twin's part without what an entry into Pairing sets and sends (R45, R309). -/
def Twin.unpairing (t : Twin) : Twin := { t.unsent with step := 0, pairAt := 0, hello := none, table := [], pairAcc := [], senseOut := false }

/-- The steps of a pairing begin (R309). -/
def pairingBegun (s : State) : State :=
  { s with tw := { s.tw with step := 1, pairAt := s.time.dtb, hello := none, table := [], pairAcc := [false, false, false] } }

theorem toPairing_eq (s : State) (serving : Bool) : toPairing s serving = toMode (pairingBegun s) .pairing 0 serving := rfl

theorem toPairing_tw {α : Type} (f : Twin → α) (hf : ∀ t : Twin, f t.unpairing = f t) (s : State) (serving : Bool) : f (toPairing s serving).tw = f s.tw := by
  have hleft : (leftMode (pairingBegun s) .pairing).tw.unpairing = s.tw.unpairing :=
    (leftMode_sentOn (pairingBegun s) .pairing).field Twin.unpairing fun _ => rfl
  rw [toPairing_eq, toMode_pairing]
  dsimp only
  rw [enterMode_tw, ← hf, ← hf s.tw, ← hleft]
  rfl

theorem toPairing_md (s : State) (serving : Bool) : (toPairing s serving).md.mode = .pairing ∧ (toPairing s serving).md.pairServing = serving := by
  rw [toPairing_eq, toMode_pairing]
  dsimp only
  exact ⟨enterMode_mode_md _ _ _ _, enterMode_pairServing_md _ _ _ _⟩

end Sys2Proof.Machine

namespace Sys2Proof.Machine

/-! SUPPORT. The Deroft link: training, lanes, flits and their replay (R287, R290, R291, R294, R309). -/

/-! ### Training (R287, R290, R309) -/

theorem deroftTrainingAttempt_begins {s : State} (hdown : s.tw.linkUp = false) (hmay : mayTrain s = true)
    (hsolo : s.md.mode = .solo → s.tw.senseIn = true ∧ s.tw.holdTraining = false) : ∃ t, exec .deroftTrainingAttempt s = .next t ∧ t.tw.trainSets.length = 8 ∧
      t = { s with tw := { s.tw with trainStep := 1, trainSets := t.tw.trainSets }, free := t.free } := by
  have hfree : (s.tw.linkUp || !mayTrain s || (s.md.mode == .solo && (!s.tw.senseIn || s.tw.holdTraining))) = false := by
    by_cases hmode : s.md.mode = .solo
    · obtain ⟨hsense, hhold⟩ := hsolo hmode
      simp [hdown, hmay, hsense, hhold]
    · simp [hdown, hmay, hmode]
  rw [show exec .deroftTrainingAttempt s = execDeroftTrainingAttempt s from rfl, execDeroftTrainingAttempt, hfree, if_neg Bool.false_ne_true]
  exact ⟨_, rfl, by simp, rfl⟩

theorem exec_deroftTrainingAttempt_held {s : State} (hheld : mayTrain s = false ∨ (s.md.mode = .solo ∧ s.tw.senseIn = false)) :
    exec .deroftTrainingAttempt s = .next s := by
  show execDeroftTrainingAttempt s = _
  rw [execDeroftTrainingAttempt, if_pos]
  rcases hheld with hmay | ⟨hmode, hsense⟩
  · simp [hmay]
  · simp [hmode, hsense]

theorem exec_deroftTrainingStepTimeout {s : State} (hdown : s.tw.linkUp = false) (hstep : s.tw.trainStep ≠ 0) :
    exec .deroftTrainingStepTimeout s = .next { s with tw := { s.tw with trainStep := 1 } } := by
  show execDeroftTrainingStepTimeout s = _
  rw [execDeroftTrainingStepTimeout, if_neg (by simp [hdown, hstep])]

/-! ### The link comes up (R287, R290, R309) -/

section
variable {s : State} {sets : List (Nat × List (BitVec 8))} {a b c : Nat}

/-- The module in Pairing with its link up at an outcome: from Solo it enters Pairing and goes on serving (R45, R309). -/
def linkedUp (s : State) (sets : List (Nat × List (BitVec 8))) (o : Nat × Nat × Nat) : State :=
  let u : State := { s with tw := s.tw.up sets o s.time.dtb }
  if s.md.mode = .solo then toPairing u true else u

theorem exec_deroftLinkUp {o : Nat × Nat × Nat} (hdown : s.tw.linkUp = false) (hmay : mayTrain s = true) (houtcome : trainOutcome sets [a, b, c] = some o) :
    exec (.deroftLinkUp sets a b c) s = .next (send { linkedUp s sets o with tw := { (linkedUp s sets o).tw with step := 2 } } 0x43 0
      (helloFields (ownHello (linkedUp s sets o) (linkedUp s sets o).md.prev.code))) := by
  show execDeroftLinkUp sets a b c s = _
  rw [execDeroftLinkUp, if_neg (by simp [hdown, hmay]), houtcome]
  rfl

theorem exec_deroftLinkUp_fails (hdown : s.tw.linkUp = false) (hmay : mayTrain s = true) (houtcome : trainOutcome sets [a, b, c] = none) :
    exec (.deroftLinkUp sets a b c) s = .next { s with tw := { s.tw with trainStep := 1 } } := by
  show execDeroftLinkUp sets a b c s = _
  rw [execDeroftLinkUp, if_neg (by simp [hdown, hmay]), houtcome]

theorem exec_deroftLinkUp_held (hmay : mayTrain s = false) : exec (.deroftLinkUp sets a b c) s = .next s := by
  show execDeroftLinkUp sets a b c s = _
  rw [execDeroftLinkUp, if_pos (by simp [hmay])]

/-- The entry into Pairing leaves the link as the outcome brought it up. -/
theorem linkedUp_tw {α : Type} (f : Twin → α) (hf : ∀ t : Twin, f t.unpairing = f t) (o : Nat × Nat × Nat) : f (linkedUp s sets o).tw = f (s.tw.up sets o s.time.dtb) := by
  unfold linkedUp
  dsimp only
  split
  · exact toPairing_tw f hf _ true
  · rfl

theorem linkedUp_md (hmay : mayTrain s = true) (o : Nat × Nat × Nat) :
    (linkedUp s sets o).md.mode = .pairing ∧ (s.md.mode = .solo → (linkedUp s sets o).md.pairServing = true) := by
  unfold linkedUp
  dsimp only
  split
  · obtain ⟨hmode, hserving⟩ := toPairing_md { s with tw := s.tw.up sets o s.time.dtb } true
    exact ⟨hmode, fun _ => hserving⟩
  next hmode =>
    have hpairing : s.md.mode = .pairing := by
      simp only [mayTrain, Bool.and_eq_true, Bool.or_eq_true, beq_iff_eq] at hmay
      exact hmay.1.1.2.resolve_right hmode
    exact ⟨hpairing, fun hsolo => absurd hsolo hmode⟩

end

/-- With the link up the message is the last one out. -/
theorem send_getLast? (s : State) (typ tag : Nat) (body : List Nat) (h : s.tw.linkUp = true) : ∃ x, (send s typ tag body).tw.out.getLast? = some x ∧ x.hdr.typ = typ :=
  ⟨_, by rw [send_out s typ tag body h, List.getLast?_append_cons]; rfl, rfl⟩

theorem deroftLinkUp_greets {s : State} {sets : List (Nat × List (BitVec 8))} {a b c rate width lanes : Nat} (hdown : s.tw.linkUp = false) (hmay : mayTrain s = true)
    (houtcome : trainOutcome sets [a, b, c] = some (rate, width, lanes)) : ∃ t x, exec (.deroftLinkUp sets a b c) s = .next t ∧ t.tw.linkUp = true ∧
      t.tw.dRate = rate ∧ t.tw.dWidth = width ∧ t.tw.lanes = lanes ∧ t.tw.failedLanes = 0 ∧ t.md.mode = .pairing ∧ (s.md.mode = .solo → t.md.pairServing = true) ∧
      t.tw.step = 2 ∧ t.tw.out.getLast? = some x ∧ x.hdr.typ = 0x43 := by
  obtain ⟨hmode, hserving⟩ := linkedUp_md (sets := sets) hmay (rate, width, lanes)
  have hlink : (linkedUp s sets (rate, width, lanes)).tw.linkUp = true := linkedUp_tw (·.linkUp) (fun _ => rfl) _
  have hup {α : Type} (f : Twin → α) (hf : ∀ t : Twin, f t.unpairing = f t) (hsent : ∀ t : Twin, f { t.still with out := [], counters := [] } = f t) (body : List Nat) :
      f (send { linkedUp s sets (rate, width, lanes) with tw := { (linkedUp s sets (rate, width, lanes)).tw with step := 2 } } 0x43 0 body).tw =
        f (s.tw.up sets (rate, width, lanes) s.time.dtb) := by
    rw [send_tw_field f hsent, ← hf, ← linkedUp_tw f hf, ← hf (linkedUp s sets (rate, width, lanes)).tw]
    rfl
  obtain ⟨x, hx, htyp⟩ := send_getLast? { linkedUp s sets (rate, width, lanes) with tw := { (linkedUp s sets (rate, width, lanes)).tw with step := 2 } } 0x43 0
    (helloFields (ownHello (linkedUp s sets (rate, width, lanes)) (linkedUp s sets (rate, width, lanes)).md.prev.code)) hlink
  refine ⟨_, x, exec_deroftLinkUp hdown hmay houtcome, hup (·.linkUp) (fun _ => rfl) (fun _ => rfl) _, hup (·.dRate) (fun _ => rfl) (fun _ => rfl) _,
    hup (·.dWidth) (fun _ => rfl) (fun _ => rfl) _, hup (·.lanes) (fun _ => rfl) (fun _ => rfl) _, hup (·.failedLanes) (fun _ => rfl) (fun _ => rfl) _, ?_, ?_,
    send_tw_field (·.step) (fun _ => rfl) _ _ _ _, hx, htyp⟩
  · rw [send_md]
    exact hmode
  · rw [send_md]
    exact hserving

/-! ### Lanes that fail (R291) -/

theorem laneFailure_narrows {s : State} {lane w m : Nat} (hlink : s.tw.linkUp = true) (hlane : s.tw.lanes.testBit lane = true)
    (hgroup : groupOf 7 (s.tw.lanes ^^^ 2^lane) = some (w, m)) : ∃ t, exec (.laneFailure lane) s = .next t ∧ t.tw.linkUp = true ∧
      t.tw.failedLanes = s.tw.failedLanes ||| 2^lane ∧ t.tw.dWidth = w ∧ t.tw.lanes = m ∧ t.tw.quick = min (s.tw.quick + 1) (2^32 - 1) ∧
      t.zn.store = s.zn.store ∧ Core s t := by
  have hkept := (execLaneFailure_kept (K := true) (J := true) lane (Kept.refl s)).next_kept
  rw [show exec (.laneFailure lane) s = execLaneFailure lane s from rfl]
  rw [execLaneFailure, if_neg (by simp [hlink, hlane])] at hkept ⊢
  dsimp only at hkept ⊢
  rw [hgroup] at hkept ⊢
  exact ⟨_, rfl, by simpa using hlink, by simp, by simp, by simp, by simp, (hkept _ rfl).content rfl, (hkept _ rfl).core rfl⟩

theorem laneFailure_takesDown {s : State} {lane : Nat} (hlink : s.tw.linkUp = true) (hlane : s.tw.lanes.testBit lane = true)
    (hgroup : groupOf 7 (s.tw.lanes ^^^ 2^lane) = none) : ∃ t, exec (.laneFailure lane) s = .next t ∧ t.tw.linkUp = false ∧ t.tw.trainStep = 1 ∧
      t.tw.full = min (s.tw.full + 1) (2^32 - 1) ∧ t.zn.store = s.zn.store ∧ Core s t := by
  have hkept := (execLaneFailure_kept (K := true) (J := true) lane (Kept.refl s)).next_kept
  rw [show exec (.laneFailure lane) s = execLaneFailure lane s from rfl]
  rw [execLaneFailure, if_neg (by simp [hlink, hlane])] at hkept ⊢
  dsimp only at hkept ⊢
  rw [hgroup] at hkept ⊢
  exact ⟨_, rfl, rfl, rfl, by simp, (hkept _ rfl).content rfl, (hkept _ rfl).core rfl⟩

/-! ### Flits received (R293, R294) -/

/-- The 256 bytes of a flit after its correction, where FEC is in use (R293). -/
def corrected (s : State) (b : List (BitVec 8)) : List (BitVec 8) := if s.tw.fec then fecCorrect b else b

/-- What the control field of a valid flit tells, whatever the flit carries: a flit was heard, an acknowledgement, a replay asked for (R294). -/
def heard (s : State) (c : Nat) : Twin :=
  let t := ackFlits { noteSense s.tw s.tw.senseIn (ctlSense c) s.time.dtb with lastFlitAt := s.time.dtb, lostPending := false, peerMode := ctlMode c } (ctlAck c) s.time.dtb
  if ctlNak c then replayFlits t else t

/-- An acknowledgement changes the flit sender and what waits for acknowledgement alone. -/
theorem ackFlits_field {α : Type} (f : Twin → α) (hstill : ∀ t : Twin, f t.still = f t) (hf : ∀ (t : Twin) x y z, f { t with acked := x, ackAt := y, replay := z } = f t)
    (t : Twin) (a now : Nat) : f (ackFlits t a now) = f t := by
  unfold ackFlits pumpFlits
  split
  · rw [← hstill, sendFlits_still, hstill, hf]
  · rfl

theorem heard_frame (s : State) (c : Nat) : (heard s c).rxExpect = s.tw.rxExpect ∧ (heard s c).owePri = s.tw.owePri ∧ (heard s c).oweBulk = s.tw.oweBulk ∧
    (heard s c).lastFlitAt = s.time.dtb := by
  have hacked (t : Twin) (a now : Nat) := ackFlits_field (fun t : Twin => (t.rxExpect, t.owePri, t.oweBulk, t.lastFlitAt)) (fun _ => rfl) (fun _ _ _ _ => rfl) t a now
  have hfields : ((heard s c).rxExpect, (heard s c).owePri, (heard s c).oweBulk, (heard s c).lastFlitAt) = (s.tw.rxExpect, s.tw.owePri, s.tw.oweBulk, s.time.dtb) := by
    unfold heard
    dsimp only
    split
    · exact hacked _ _ _
    · exact hacked _ _ _
  simpa using hfields

section
variable {s : State} {b : List (BitVec 8)}

theorem exec_flitReceived_invalid (hinvalid : flitValid (corrected s b) = false) : exec (.flitReceived b) s = .next s := by
  show execFlitReceived b s = _
  unfold execFlitReceived
  dsimp only
  rw [if_pos]
  rw [show (if s.tw.fec = true then fecCorrect b else b) = corrected s b from rfl, hinvalid]
  simp

/-- A payload flit that leaves fewer than 32 credits owed of each class returns none (R297). -/
theorem exec_flitReceived {c : Nat} (hlink : s.tw.linkUp = true) (hc : flitControl (corrected s b) = c) (hvalid : flitValid (corrected s b) = true) (hkind : ctlKind c ≠ 3)
    (hpri : (takePayload (heard s c) c).owePri < 32) (hbulk : (takePayload (heard s c) c).oweBulk < 32) :
    exec (.flitReceived b) s = .next { s with tw := takePayload (heard s c) c } := by
  subst hc
  have hheld : (32 ≤ (takePayload (heard s (flitControl (corrected s b))) (flitControl (corrected s b))).owePri ||
      32 ≤ (takePayload (heard s (flitControl (corrected s b))) (flitControl (corrected s b))).oweBulk) = false := by simp [hpri, hbulk]
  show execFlitReceived b s = _
  unfold execFlitReceived
  dsimp only
  rw [show (if s.tw.fec = true then fecCorrect b else b) = corrected s b from rfl, if_neg (by simp [hlink, hvalid]), if_neg hkind]
  exact congrArg Host.Outcome.next (if_neg (by rw [Bool.not_eq_true]; exact hheld))

/-- The payload flit expected is accepted and owes its class a credit (R294). -/
theorem flitReceived_accepts {c : List (BitVec 8)} (hlink : s.tw.linkUp = true) (hc : c = corrected s b) (hvalid : flitValid c = true) (hkind : ctlKind (flitControl c) = 0)
    (hseq : ctlFseq (flitControl c) = s.tw.rxExpect) (hpri : s.tw.owePri < 31) (hbulk : s.tw.oweBulk < 32) : ∃ t, exec (.flitReceived b) s = .next t ∧
      t.tw.rxExpect = (s.tw.rxExpect + 1) % 1024 ∧ t.tw.owePri = s.tw.owePri + 1 ∧ t.tw.nakOwed = false ∧ t.tw.lastFlitAt = s.time.dtb ∧ t = { s with tw := t.tw } := by
  subst hc
  obtain ⟨hexpect, howePri, howeBulk, hat⟩ := heard_frame s (flitControl (corrected s b))
  have htaken : takePayload (heard s (flitControl (corrected s b))) (flitControl (corrected s b)) =
      { heard s (flitControl (corrected s b)) with rxExpect := (s.tw.rxExpect + 1) % 1024, nakOwed := false, owePri := s.tw.owePri + 1, oweBulk := s.tw.oweBulk } := by
    unfold takePayload
    rw [if_pos (hseq.trans hexpect.symm), hkind, hexpect, howePri, howeBulk]
    rfl
  refine ⟨_, exec_flitReceived hlink rfl hvalid (by rw [hkind]; decide) ?_ ?_, ?_⟩
  · rw [htaken]
    exact Nat.add_lt_add_right hpri 1
  · rw [htaken]
    exact hbulk
  · rw [htaken]
    exact ⟨rfl, rfl, rfl, hat, rfl⟩

/-- Another payload flit is discarded and asks for a replay (R294). -/
theorem flitReceived_asksReplay {c : List (BitVec 8)} (hlink : s.tw.linkUp = true) (hc : c = corrected s b) (hvalid : flitValid c = true) (hkind : ctlKind (flitControl c) ≠ 3)
    (hseq : ctlFseq (flitControl c) ≠ s.tw.rxExpect) (hpri : s.tw.owePri < 32) (hbulk : s.tw.oweBulk < 32) : ∃ t, exec (.flitReceived b) s = .next t ∧
      t.tw.rxExpect = s.tw.rxExpect ∧ t.tw.owePri = s.tw.owePri ∧ t.tw.oweBulk = s.tw.oweBulk ∧ t.tw.nakOwed = true ∧ t = { s with tw := t.tw } := by
  subst hc
  obtain ⟨hexpect, howePri, howeBulk, -⟩ := heard_frame s (flitControl (corrected s b))
  have htaken : takePayload (heard s (flitControl (corrected s b))) (flitControl (corrected s b)) = { heard s (flitControl (corrected s b)) with nakOwed := true } := by
    unfold takePayload
    rw [if_neg (by rw [hexpect]; exact hseq)]
  refine ⟨_, exec_flitReceived hlink rfl hvalid hkind ?_ ?_, ?_⟩
  · rw [htaken]
    exact howePri ▸ hpri
  · rw [htaken]
    exact howeBulk ▸ hbulk
  · rw [htaken]
    exact ⟨hexpect, howePri, howeBulk, rfl, rfl⟩

end

/-! ### Replay (R294) -/

theorem exec_replayTimeout {s : State} (hlink : s.tw.linkUp = true) (hsent : s.tw.replay ≠ []) (hlate : s.tw.ackAt + 2000 ≤ s.time.dtb) :
    exec .replayTimeout s = .next { s with tw := { s.tw with ackAt := s.time.dtb, replays := s.tw.replays + s.tw.replay.length } } := by
  show execReplayTimeout s = _
  rw [execReplayTimeout, if_neg (by simp [hlink, hsent, Nat.not_lt.2 hlate])]
  rfl

theorem exec_replayTimeout_idle {s : State} (hidle : s.tw.replay = [] ∨ s.time.dtb < s.tw.ackAt + 2000) : exec .replayTimeout s = .next s := by
  show execReplayTimeout s = _
  rw [execReplayTimeout, if_pos]
  rcases hidle with hnone | hearly
  · simp [hnone]
  · simp [hearly]

/-- Settles O48: training and the link's events change the twin's part alone, but for the entry into Pairing, which leaves the link as it came up. -/
theorem deroftLink : Obligations.DeroftLink := by
  unfold Obligations.DeroftLink
  exact ⟨fun s => deroftTrainingAttempt_begins, fun s => exec_deroftTrainingAttempt_held, fun s => exec_deroftTrainingStepTimeout,
    fun s sets a b c rate width lanes => deroftLinkUp_greets, fun s sets a b c => exec_deroftLinkUp_fails, fun s sets a b c => exec_deroftLinkUp_held,
    fun s lane w m => laneFailure_narrows, fun s lane => laneFailure_takesDown, fun s b => exec_flitReceived_invalid, fun s b c => flitReceived_accepts,
    fun s b c => flitReceived_asksReplay, fun s => exec_replayTimeout, fun s => exec_replayTimeout_idle⟩

end Sys2Proof.Machine

section
/-! SUPPORT. The SPDM responder (R302, R310, R372, R373, R466). -/

namespace Sys2Proof.Machine

/-! ### Answering (R372, R466) -/

section
variable {s : State} {t : Nat}

theorem spdmAnswer_busy (f : State → State) (hreached : spdmReached s t = true) (hbusy : s.md.mode = .measure ∨ coreRuns s 28 = false) :
    spdmAnswer s t f = .next (spdmError s t 3) := by
  rw [spdmAnswer, if_neg (by simp [hreached]), if_pos]
  rcases hbusy with hmode | hcore
  · simp [hmode]
  · simp [hcore]

theorem spdmAnswer_runs (f : State → State) (hreached : spdmReached s t = true) (hmode : s.md.mode ≠ .measure) (hcore : coreRuns s 28 = true) :
    spdmAnswer s t f = .next (f s) := by
  rw [spdmAnswer, if_neg (by simp [hreached]), if_neg (by simp [hmode, hcore])]

theorem spdmReply_host (ht : t ≤ 1) (s : State) (r : List Nat) : spdmReply s t r = { s with boot := { s.boot with spdmOut := s.boot.spdmOut ++ [(t, r)] } } :=
  if_neg (by omega)

theorem spdmReached_deroft (h : spdmReached s 2 = true) : s.tw.linkUp = true ∧ s.md.mode = .pairing := by
  simp only [spdmReached, Bool.and_eq_true, beq_iff_eq] at h
  exact ⟨h.2.1.1.1, h.2.1.1.2⟩

theorem afterCaps_agreed (f : State → State) (h : s.boot.spdmCaps.getD t false = true) : afterCaps s t f = f s := if_pos h
theorem afterAlgs_agreed (f : State → State) (h : s.boot.spdmAlgs.getD t false = true) : afterAlgs s t f = f s := if_pos h
theorem afterAlgs_early (f : State → State) (h : s.boot.spdmAlgs.getD t false = false) : afterAlgs s t f = spdmError s t 4 := if_neg (by rw [h]; decide)

/-- A value changed in place is read back (R372). -/
theorem getD_modAt_const {α : Type} {l : List α} {i : Nat} (h : i < l.length) (v d : α) : (modAt l i fun _ => v).getD i d = v := by
  simp [modAt, h]

/-- What was agreed is forgotten: the place reads false, or is not there. -/
theorem getD_modAt_false (l : List Bool) (i : Nat) : (modAt l i fun _ => false).getD i false = false := by
  cases h : l[i]? <;> simp [modAt, h]

/-! ### Version, capabilities, algorithms -/

theorem spdmGetVersion_forgets (ht : t ≤ 1) (hreached : spdmReached s t = true) (hmode : s.md.mode ≠ .measure) (hcore : coreRuns s 28 = true) :
    ∃ u, exec (.spdmGetVersion t) s = .next u ∧ u.boot.spdmOut = s.boot.spdmOut ++ [(t, [0x04, 2, 0x11, 0x12])] ∧ u.boot.spdmCaps.getD t false = false ∧
      u = { s with boot := u.boot } := by
  rw [show exec (.spdmGetVersion t) s = execSpdmGetVersion t s from rfl, execSpdmGetVersion, spdmAnswer_runs _ hreached hmode hcore]
  refine ⟨_, rfl, ?_⟩
  rw [spdmReply_host ht]
  exact ⟨rfl, getD_modAt_false _ _, rfl⟩

theorem spdmGetCapabilities_agrees {v : Nat} (ht : t ≤ 1) (hreached : spdmReached s t = true) (hmode : s.md.mode ≠ .measure) (hcore : coreRuns s 28 = true)
    (hv : v = 0x11 ∨ v = 0x12) (hvers : s.boot.spdmVer.length = 3) (hcaps : s.boot.spdmCaps.length = 3) : ∃ u, exec (.spdmGetCapabilities t v) s = .next u ∧
      verOf u t = v ∧ u.boot.spdmCaps.getD t false = true ∧ u.boot.spdmOut = s.boot.spdmOut ++ [(t, 0x61 :: v :: leBytes 4 (spdmFlags t))] ∧ u = { s with boot := u.boot } := by
  rw [show exec (.spdmGetCapabilities t v) s = execSpdmGetCapabilities t v s from rfl, execSpdmGetCapabilities, spdmAnswer_runs _ hreached hmode hcore]
  refine ⟨_, rfl, ?_⟩
  dsimp only
  rw [if_neg (by omega), if_neg (by omega), spdmReply_host ht]
  exact ⟨nth_modAt_self (by omega) _, getD_modAt_const (by omega) _ _, rfl, rfl⟩

theorem spdmGetCapabilities_refuses {v : Nat} (hreached : spdmReached s t = true) (hmode : s.md.mode ≠ .measure) (hcore : coreRuns s 28 = true) (h11 : v ≠ 0x11)
    (h12 : v ≠ 0x12) : exec (.spdmGetCapabilities t v) s = .next (spdmError s t 0x41) := by
  show execSpdmGetCapabilities t v s = _
  rw [execSpdmGetCapabilities, spdmAnswer_runs _ hreached hmode hcore]
  rw [if_pos ⟨h12, h11⟩]

theorem spdmNegotiateAlgorithms_agrees (ht : t ≤ 1) (hreached : spdmReached s t = true) (hmode : s.md.mode ≠ .measure) (hcore : coreRuns s 28 = true)
    (hcaps : s.boot.spdmCaps.getD t false = true) (halgs : s.boot.spdmAlgs.length = 3) : ∃ u, exec (.spdmNegotiateAlgorithms t true true) s = .next u ∧
      u.boot.spdmAlgs.getD t false = true ∧ u = { s with boot := u.boot } := by
  rw [show exec (.spdmNegotiateAlgorithms t true true) s = execSpdmNegotiateAlgorithms t true true s from rfl, execSpdmNegotiateAlgorithms, spdmAnswer_runs _ hreached hmode hcore]
  refine ⟨_, rfl, ?_⟩
  rw [afterCaps_agreed _ hcaps, if_neg (by decide), spdmReply_host ht]
  exact ⟨getD_modAt_const (by omega) _ _, rfl⟩

theorem spdmNegotiateAlgorithms_refuses (hreached : spdmReached s t = true) (hmode : s.md.mode ≠ .measure) (hcore : coreRuns s 28 = true)
    (hcaps : s.boot.spdmCaps.getD t false = true) : exec (.spdmNegotiateAlgorithms t false true) s = .next (spdmError s t 1) := by
  show execSpdmNegotiateAlgorithms t false true s = _
  rw [execSpdmNegotiateAlgorithms, spdmAnswer_runs _ hreached hmode hcore]
  rw [afterCaps_agreed _ hcaps, if_pos (by decide)]

/-! ### Digests, certificate, measurements, challenge (R372, R373) -/

section
variable (hreached : spdmReached s t = true) (hmode : s.md.mode ≠ .measure) (hcore : coreRuns s 28 = true)
include hreached hmode hcore

/-- A request that needs the algorithms is unexpected before they are agreed on. -/
theorem spdmAnswer_beforeAlgs (f : State → State) (halgs : s.boot.spdmAlgs.getD t false = false) : spdmAnswer s t (fun s => afterAlgs s t f) = .next (spdmError s t 4) := by
  rw [spdmAnswer_runs _ hreached hmode hcore, afterAlgs_early _ halgs]

theorem spdmAnswer_afterAlgs (f : State → State) (halgs : s.boot.spdmAlgs.getD t false = true) : spdmAnswer s t (fun s => afterAlgs s t f) = .next (f s) := by
  rw [spdmAnswer_runs _ hreached hmode hcore, afterAlgs_agreed _ halgs]

theorem exec_spdmGetCertificate {o l : Nat} (halgs : s.boot.spdmAlgs.getD t false = true) (ho : o < (chainOf s).length) : exec (.spdmGetCertificate t 0 o l) s =
    .next (spdmReply s t ([0x02, verOf s t, 0] ++ leBytes 2 ((chainOf s).drop o |>.take l).length ++
      leBytes 2 ((chainOf s).length - o - ((chainOf s).drop o |>.take l).length) ++ ((chainOf s).drop o |>.take l))) := by
  refine (spdmAnswer_afterAlgs hreached hmode hcore _ halgs).trans ?_
  dsimp only
  rw [if_neg (by omega)]

/-- A request on its own brings no evidence of the twin's. -/
theorem exec_spdmGetMeasurements (halgs : s.boot.spdmAlgs.getD t false = true) (i n : Nat) : exec (.spdmGetMeasurements t i n false none) s =
    .next (match askedBlocks s i with | none => spdmError s t 1 | some b => spdmReply s t ([0x60, verOf s t, i] ++ b)) := by
  show execSpdmGetMeasurements t i n false none s = _
  rw [execSpdmGetMeasurements, spdmAnswer_runs _ hreached hmode hcore]
  rw [ite_self]
  dsimp only
  rw [afterAlgs_agreed _ halgs]
  rfl

end

@[simp] theorem leBytes_length (n v : Nat) : (leBytes n v).length = n := by simp [leBytes]
@[simp] theorem beBytes_length (n v : Nat) : (beBytes n v).length = n := by simp [beBytes]

theorem signReply_host (ht : t ≤ 1) (s : State) (nonce : Nat) (r : State → List Nat → List Nat) : ∃ m sig, m.length = 32 ∧ sig.length = 96 ∧
    signReply s t nonce r = { s with free := s.free + 1, boot := { s.boot with spdmOut := s.boot.spdmOut ++ [(t, r { s with free := s.free + 1 } m ++ sig)] } } :=
  ⟨_, _, leBytes_length 32 _, beBytes_length 96 _, spdmReply_host ht _ _⟩

theorem spdmChallenge_signs {n : Nat} (ht : t ≤ 1) (hreached : spdmReached s t = true) (hmode : s.md.mode ≠ .measure) (hcore : coreRuns s 28 = true)
    (halgs : s.boot.spdmAlgs.getD t false = true) : ∃ u r, exec (.spdmChallenge t 0 0 n) s = .next u ∧ u.boot.spdmOut = s.boot.spdmOut ++ [(t, r)] ∧
      r.take 4 = [0x03, verOf s t, 0, 1] ∧ r.length = 4 + 48 + 32 + 96 ∧ Core s { u with boot := s.boot } ∧ u.zn = s.zn := by
  obtain ⟨m, sig, hm, hsig, hsigned⟩ := signReply_host ht s n fun s m => [0x03, verOf s t, 0, 1] ++ chainDigest s ++ m ++
    (if (0 : Nat) = 0 then [] else beBytes 48 (Config.sha384 (measureBlocks s (if (0 : Nat) = 1 then 7 else 10))))
  refine ⟨_, _, (spdmAnswer_afterAlgs hreached hmode hcore _ halgs).trans (congrArg Host.Outcome.next ((if_neg (by decide)).trans hsigned)), rfl, rfl, ?_, ⟨rfl, rfl, rfl, rfl, rfl⟩, rfl⟩
  simp [chainDigest, hm, hsig]

end

/-! ### Busy, and what is not offered (R302, R466) -/

theorem spdm_busy {s : State} {t : Nat} (hreached : spdmReached s t = true) (hbusy : s.md.mode = .measure ∨ coreRuns s 28 = false) :
    exec (.spdmGetVersion t) s = .next (spdmError s t 3) ∧ exec (.spdmGetDigests t) s = .next (spdmError s t 3) ∧ exec (.spdmPskExchange t) s = .next (spdmError s t 3) := by
  refine ⟨?_, ?_, ?_⟩
  · show execSpdmGetVersion t s = _
    exact spdmAnswer_busy _ hreached hbusy
  · show execSpdmGetDigests t s = _
    exact spdmAnswer_busy _ hreached hbusy
  · show execSpdmPskExchange t s = _
    exact spdmAnswer_busy _ hreached hbusy

theorem exec_spdmPskExchange {s : State} {t : Nat} (hreached : spdmReached s t = true) (hmode : s.md.mode ≠ .measure) (hcore : coreRuns s 28 = true) :
    exec (.spdmPskExchange t) s = .next (spdmError s t 7) := by
  show execSpdmPskExchange t s = _
  rw [execSpdmPskExchange, spdmAnswer_runs _ hreached hmode hcore]

/-! ### The session (R301, R302, R310) -/

section
variable {s : State} {t : Nat}

theorem spdmReached_notMeasure (h : spdmReached s 2 = true) : s.md.mode ≠ .measure := by
  rw [(spdmReached_deroft h).2]
  decide

/-- The session's commands exist on the Deroft link alone. -/
theorem spdmSession_unsupported (ht : t ≤ 1) (hreached : spdmReached s t = true) (hmode : s.md.mode ≠ .measure) (hcore : coreRuns s 28 = true) :
    (∀ ok, exec (.spdmKeyExchange t ok) s = .next (spdmError s t 7)) ∧ (∀ ok, exec (.spdmFinish t ok) s = .next (spdmError s t 7)) ∧
      exec (.spdmKeyUpdate t) s = .next (spdmError s t 7) := by
  have hhost : t ≠ 2 := by omega
  refine ⟨fun ok => ?_, fun ok => ?_, ?_⟩
  · show execSpdmKeyExchange t ok s = _
    rw [execSpdmKeyExchange, spdmAnswer_runs _ hreached hmode hcore, if_pos hhost]
  · show execSpdmFinish t ok s = _
    rw [execSpdmFinish, spdmAnswer_runs _ hreached hmode hcore, if_pos hhost]
  · show execSpdmKeyUpdate t s = _
    rw [execSpdmKeyUpdate, if_neg hhost, spdmAnswer_runs _ hreached hmode hcore]

theorem spdmKeyExchange_opens (hreached : spdmReached s 2 = true) (hcore : coreRuns s 28 = true) (hstep : s.tw.step = 5) :
    ∃ u, exec (.spdmKeyExchange 2 true) s = .next u ∧ u.boot.spdmSession = 1 ∧ u.tw.step = 5 ∧ u.md = s.md ∧ u.zn = s.zn := by
  rw [show exec (.spdmKeyExchange 2 true) s = execSpdmKeyExchange 2 true s from rfl, execSpdmKeyExchange,
    spdmAnswer_runs _ hreached (spdmReached_notMeasure hreached) hcore, if_neg (by decide), if_neg (by simp [hstep]), if_neg (by decide)]
  refine ⟨_, rfl, by rw [send_boot], ?_, send_md _ _ _ _, send_zn _ _ _ _⟩
  rw [send_tw_field (·.step) fun _ => rfl]
  exact hstep

/-! New keys leave the mode and the zones as they were; with the state taken apart the fields compare one by one. -/

@[simp] theorem renewKeys_md (s : State) : (renewKeys s).md = s.md := by cases s; rfl
@[simp] theorem renewKeys_zn (s : State) : (renewKeys s).zn = s.zn := by cases s; rfl
@[simp] theorem updateKeys_md (s : State) : (updateKeys s).md = s.md := renewKeys_md s
@[simp] theorem updateKeys_zn (s : State) : (updateKeys s).zn = s.zn := renewKeys_zn s
@[simp] theorem sessionKeys_md (s : State) : (sessionKeys s).md = s.md := renewKeys_md _
@[simp] theorem sessionKeys_zn (s : State) : (sessionKeys s).zn = s.zn := renewKeys_zn _

theorem exec_spdmFinish (hreached : spdmReached s 2 = true) (hcore : coreRuns s 28 = true) (hstep : s.tw.step = 5) (hsession : s.boot.spdmSession = 1) :
    ∃ (w u : State) (body : List Nat), w.md = s.md ∧ w.zn = s.zn ∧ u = sessionKeys { w with boot := { w.boot with spdmSession := 2 }, tw := { w.tw with step := 6 } } ∧
      exec (.spdmFinish 2 true) s = .next (send u 0x0D 0 body) := by
  rw [show exec (.spdmFinish 2 true) s = execSpdmFinish 2 true s from rfl, execSpdmFinish,
    spdmAnswer_runs _ hreached (spdmReached_notMeasure hreached) hcore, if_neg (by decide), if_neg (by simp [hstep, hsession]), if_neg (by decide)]
  refine ⟨_, _, _, ?_, ?_, rfl, rfl⟩
  · rw [apply_ite State.md, send_md, ite_self]
  · rw [apply_ite State.zn, send_zn, ite_self]

theorem spdmFinish_begins (hreached : spdmReached s 2 = true) (hcore : coreRuns s 28 = true) (hstep : s.tw.step = 5) (hsession : s.boot.spdmSession = 1) :
    ∃ u, exec (.spdmFinish 2 true) s = .next u ∧ u.boot.spdmSession = 2 ∧ u.tw.step = 6 ∧ u.keys.linkKeys.length = 4 ∧ u.keys.wrapKeys.length = 1 ∧
      u.tw.keyPhase = false ∧ u.md = s.md ∧ u.zn = s.zn := by
  obtain ⟨w, u, body, hmd, hzn, rfl, hexec⟩ := exec_spdmFinish hreached hcore hstep hsession
  refine ⟨_, hexec, by rw [send_boot]; rfl, ?_, by rw [send_keys]; rfl, by rw [send_keys]; rfl, ?_, by simp [hmd], by simp [hzn]⟩
  · rw [send_tw_field (·.step) fun _ => rfl]
    rfl
  · rw [send_tw_field (·.keyPhase) fun _ => rfl]
    rfl

theorem spdmKeyUpdate_renews (hlink : s.tw.linkUp = true) (hmode : s.md.mode = .service) (hrank : rank s ≠ 0) : ∃ u, exec (.spdmKeyUpdate 2) s = .next u ∧
    u.tw.keyPhase = !s.tw.keyPhase ∧ u.keys.linkKeys.length = 4 + min 4 s.keys.linkKeys.length ∧ u.md = s.md ∧ u.zn = s.zn := by
  rw [show exec (.spdmKeyUpdate 2) s = execSpdmKeyUpdate 2 s from rfl, execSpdmKeyUpdate, if_pos rfl, if_neg (by simp [hlink, hmode, hrank])]
  obtain ⟨l, hl, hkeys⟩ := updateKeys_linkKeys (send s 0x44 0 [0x69])
  refine ⟨_, rfl, ?_, by simp [hkeys, hl], by simp, by simp⟩
  rw [updateKeys_keyPhase, send_tw_field (·.keyPhase) fun _ => rfl]

end

/-- Settles O56: every request but the link's key update goes through `spdmAnswer`, whose two outcomes are Busy and the request's own answer. -/
theorem spdmResponder : Obligations.SpdmResponder := by
  unfold Obligations.SpdmResponder
  refine ⟨fun s t ht hreached hmeasure => spdm_busy hreached (.inl hmeasure), fun s t hreached hdown => ?_, fun s t ht hreached hmode hcore _ => spdmGetVersion_forgets ht hreached hmode hcore, fun s t v => spdmGetCapabilities_agrees,
    fun s t v => spdmGetCapabilities_refuses, fun s t ht hreached hmode hcore hcaps halgs =>
      ⟨spdmNegotiateAlgorithms_agrees ht hreached hmode hcore hcaps halgs, spdmNegotiateAlgorithms_refuses hreached hmode hcore hcaps⟩,
    fun s t hreached hmode hcore halgs => ⟨?_, fun slot o l => ?_, fun slot x n => ?_⟩, fun s t hreached hmode hcore halgs => ⟨?_, fun o l ho => ?_, fun i n b hb => ?_, fun i n hb => ?_⟩,
    fun s t n => spdmChallenge_signs, fun s t => spdmSession_unsupported, fun s t hreached hmode hcore => exec_spdmPskExchange hreached hmode hcore, fun s => spdmKeyExchange_opens, fun s => spdmFinish_begins,
    fun s => spdmKeyUpdate_renews⟩
  · obtain ⟨hversion, hdigests, -⟩ := spdm_busy hreached (.inr hdown)
    exact ⟨hversion, hdigests⟩
  · exact spdmAnswer_beforeAlgs hreached hmode hcore _ halgs
  · exact spdmAnswer_beforeAlgs hreached hmode hcore _ halgs
  · exact spdmAnswer_beforeAlgs hreached hmode hcore _ halgs
  · exact spdmAnswer_afterAlgs hreached hmode hcore _ halgs
  · exact exec_spdmGetCertificate hreached hmode hcore halgs ho
  · rw [exec_spdmGetMeasurements hreached hmode hcore halgs, hb]
  · rw [exec_spdmGetMeasurements hreached hmode hcore halgs, hb]

end Sys2Proof.Machine
end

section
/-! SUPPORT. The management endpoint on its two ports, and the pins that follow it (R304, R431 to R434, R493). -/

namespace Sys2Proof.Machine

section
variable {s : State} {p : Nat}

/-! ### Answering (R431) -/

theorem miReply_miOut (s : State) (p status : Nat) (d : List Nat) : (miReply s p status d).adm.miOut = s.adm.miOut ++ [p :: status :: d] := rfl

theorem miAnswer_reached (f : State → State) (h : miReached s p = true) : miAnswer s p f = .next (f s) := if_pos h
theorem miAnswer_unreached (f : State → State) (h : miReached s p = false) : miAnswer s p f = .next s := if_neg (by simp [h])

/-- A command that does not reach its port changes nothing. -/
theorem mi_unreached (h : miReached s p = false) : (∀ typ id, exec (.readNvmeMiDataStructure p typ id) s = .next s) ∧
    (∀ c, exec (.nvmSubsystemHealthStatusPoll p c) s = .next s) ∧ (∀ k, exec (.miReset p k) s = .next s) := by
  refine ⟨fun typ id => ?_, fun c => ?_, fun k => ?_⟩
  · show execReadNvmeMiDataStructure p typ id s = _
    exact miAnswer_unreached _ h
  · show execNvmSubsystemHealthStatusPoll p c s = _
    exact miAnswer_unreached _ h
  · show execMiReset p k s = _
    exact miAnswer_unreached _ h

theorem exec_readNvmeMiDataStructure (h : miReached s p = true) (typ id : Nat) :
    exec (.readNvmeMiDataStructure p typ id) s = .next ((miStructure s typ id).elim (miReply s p 4 []) (miReply s p 0)) := by
  show execReadNvmeMiDataStructure p typ id s = _
  rw [execReadNvmeMiDataStructure, miAnswer_reached _ h]
  cases miStructure s typ id with
  | none => rfl
  | some d => rfl

/-! ### Health (R434) -/

/-- Every bit of the Composite Controller Status goes at once. -/
theorem clearCcs_all (s : State) : (clearCcs s 0xFFFF).adm.ccs = 0 := by
  show s.adm.ccs &&& ~~~(0xFFFF : BitVec 16) = 0
  rw [show ~~~(0xFFFF : BitVec 16) = 0#16 from by decide, BitVec.and_zero]
  rfl

theorem nvmSubsystemHealthStatusPoll_reads (h : miReached s p = true) : ∃ t d, exec (.nvmSubsystemHealthStatusPoll p false) s = .next t ∧
    t.adm.miOut = s.adm.miOut ++ [p :: 0 :: d] ∧ d.length = 6 ∧ nth d 1 = 255 - s.adm.critWarn.toNat ∧ t.adm.ccs = s.adm.ccs ∧ t.zn = s.zn ∧ t.jr = s.jr ∧ Core s t := by
  rw [show exec (.nvmSubsystemHealthStatusPoll p false) s = execNvmSubsystemHealthStatusPoll p false s from rfl, execNvmSubsystemHealthStatusPoll, miAnswer_reached _ h]
  exact ⟨_, _, rfl, rfl, rfl, rfl, rfl, rfl, rfl, ⟨rfl, rfl, rfl, rfl, rfl⟩⟩

theorem nvmSubsystemHealthStatusPoll_clears (h : miReached s p = true) : ∃ t, exec (.nvmSubsystemHealthStatusPoll p true) s = .next t ∧ t.adm.ccs = 0 ∧ t.zn = s.zn ∧
    t.jr = s.jr ∧ Core s t := by
  rw [show exec (.nvmSubsystemHealthStatusPoll p true) s = execNvmSubsystemHealthStatusPoll p true s from rfl, execNvmSubsystemHealthStatusPoll, miAnswer_reached _ h]
  exact ⟨_, rfl, clearCcs_all _, rfl, rfl, ⟨rfl, rfl, rfl, rfl, rfl⟩⟩

theorem controllerHealthStatusPoll_reads (h : miReached s p = true) (start count : Nat) (clear : Bool) : ∃ t d, exec (.controllerHealthStatusPoll p start count clear) s = .next t ∧
    t.adm.miOut = s.adm.miOut ++ [p :: 0 :: d] ∧ nth d 0 ≤ count ∧ t.adm.ccs = (if clear then 0 else s.adm.ccs) ∧ t = { s with adm := t.adm } := by
  rw [show exec (.controllerHealthStatusPoll p start count clear) s = execControllerHealthStatusPoll p start count clear s from rfl, execControllerHealthStatusPoll,
    miAnswer_reached _ h]
  cases clear with
  | false => exact ⟨_, _, rfl, rfl, List.length_take_le _ _, rfl, rfl⟩
  | true => exact ⟨_, _, rfl, rfl, List.length_take_le _ _, clearCcs_all _, rfl⟩

/-! ### Configuration (R431, R434) -/

theorem configurationSet_frequency {v : Nat} (h : miReached s p = true) (hlow : 1 ≤ v) (hhigh : v ≤ 3) : ∃ t, exec (.configurationSet p 1 1 v) s = .next t ∧
    t.sup.smbusKhz = freqKhz v ∧ t = { s with adm := t.adm, sup := { s.sup with smbusKhz := t.sup.smbusKhz } } := by
  rw [show exec (.configurationSet p 1 1 v) s = execConfigurationSet p 1 1 v s from rfl, execConfigurationSet, miAnswer_reached _ h, if_pos rfl, if_pos ⟨rfl, hlow, hhigh⟩]
  exact ⟨_, rfl, rfl, rfl⟩

theorem exec_configurationSet_healthStatus (h : miReached s p = true) (v : Nat) :
    exec (.configurationSet p 2 0 v) s = .next (miReply (clearCcs s (BitVec.ofNat 16 v)) p 0 []) := by
  show execConfigurationSet p 2 0 v s = _
  rw [execConfigurationSet, miAnswer_reached _ h, if_neg (by decide), if_pos rfl]

theorem exec_configurationSet_unit {v : Nat} (h : miReached s p = true) (a : Nat) (hv : v ≠ 64) : exec (.configurationSet p 3 a v) s = .next (miReply s p 4 []) := by
  show execConfigurationSet p 3 a v s = _
  rw [execConfigurationSet, miAnswer_reached _ h, if_neg (by decide), if_neg (by decide), if_pos rfl, if_neg (by simp [hv])]

theorem exec_configurationGet_unit {a : Nat} (h : miReached s p = true) (ha : a < 2) : exec (.configurationGet p 3 a) s = .next (miReply s p 0 (leBytes 2 s.adm.mctpUnit)) := by
  show execConfigurationGet p 3 a s = _
  rw [execConfigurationGet, miAnswer_reached _ h, if_neg (by decide), if_neg (by decide), if_pos rfl, if_pos ha]

theorem configurationGet_frequency (h : miReached s p = true) (hkhz : s.sup.smbusKhz = 100 ∨ s.sup.smbusKhz = 400 ∨ s.sup.smbusKhz = 1000) :
    ∃ c, exec (.configurationGet p 1 1) s = .next (miReply s p 0 [c]) ∧ freqKhz c = s.sup.smbusKhz := by
  rw [show exec (.configurationGet p 1 1) s = execConfigurationGet p 1 1 s from rfl, execConfigurationGet, miAnswer_reached _ h, if_pos rfl, if_pos rfl]
  refine ⟨_, rfl, ?_⟩
  rcases hkhz with hkhz | hkhz | hkhz
  · rw [hkhz]
    rfl
  · rw [hkhz]
    rfl
  · rw [hkhz]
    rfl

/-! ### VPD and Reset (R65, R432) -/

@[simp] theorem vpdBytes_length (s : State) : (vpdBytes s).length = 256 := by
  rw [vpdBytes, List.length_take, List.length_append, List.length_replicate]
  omega

theorem vpdRead_portion {o l : Nat} (h : miReached s p = true) (hfits : o + l ≤ 256) : ∃ d, exec (.vpdRead p o l) s = .next (miReply s p 0 d) ∧
    d = ((vpdBytes s).drop o).take l ∧ d.length = l := by
  rw [show exec (.vpdRead p o l) s = execVpdRead p o l s from rfl, execVpdRead, miAnswer_reached _ h, if_neg (by omega)]
  refine ⟨_, rfl, rfl, ?_⟩
  rw [List.length_take, List.length_drop, vpdBytes_length]
  omega

theorem exec_vpdRead_beyond {o l : Nat} (h : miReached s p = true) (hbeyond : 256 < o + l) : exec (.vpdRead p o l) s = .next (miReply s p 4 []) := by
  show execVpdRead p o l s = _
  rw [execVpdRead, miAnswer_reached _ h, if_pos hbeyond]

theorem exec_miReset (h : miReached s p = true) :
    exec (.miReset p 0) s = .next (subsystemReset (miReply (if s.md.mode = .service then send s 0x09 0 [3] else s) p 0 [])) := by
  show execMiReset p 0 s = _
  rw [execMiReset, miAnswer_reached _ h, if_neg (by decide)]

theorem miReset_resets (h : miReached s p = true) : ∃ t, exec (.miReset p 0) s = .next t ∧ t.md.mode = s.md.mode ∧ t.port.rate = 0 ∧ t.port.vfEnable = false ∧
    t.zn.store = s.zn.store := by
  have hreset := subsystemReset_wasReset (miReply (if s.md.mode = .service then send s 0x09 0 [3] else s) p 0 [])
  have hkept := (execMiReset_kept (K := true) (J := true) p 0 (Kept.refl s)).next_kept _ (exec_miReset h)
  exact ⟨_, exec_miReset h, (hkept.core rfl).mode, hreset.rate, hreset.vfEnable, hkept.content rfl⟩

theorem exec_miReset_unknown {k : Nat} (h : miReached s p = true) (hk : k ≠ 0) : exec (.miReset p k) s = .next (miReply s p 4 []) := by
  show execMiReset p k s = _
  rw [execMiReset, miAnswer_reached _ h, if_pos hk]

/-! ### Tunnelled admin commands (R432, R433) -/

theorem exec_tunnelledAdminCommand_c4 (h : miReached s p = true) (op : Nat) (e : Sqe) (hmode : s.md.mode = .measure ∨ s.md.mode = .holiday ∨ s.md.mode = .harvest) :
    exec (.tunnelledAdminCommand p op e) s = .next (miReply s p 0 (leBytes 2 Status.c4.code ++ leBytes 4 s.md.mode.code ++ [])) := by
  show execTunnelledAdminCommand p op e s = _
  rw [execTunnelledAdminCommand, miAnswer_reached _ h, if_pos hmode]
  rfl

/-- What a tunnelled command's own run leaves, its judgement leaves. -/
theorem tunnelJudge_field {α : Type} (f : State → α) {field : Option Status} {row : Row} {run : State → Tunnelled} (hrun : f (run s).1 = f s) :
    f (tunnelJudge s field row run).1 = f s := by
  unfold tunnelJudge
  split
  · rfl
  · split
    · rfl
    · exact hrun

/-- A tunnelled command changes a free value, the events a log read clears, the power limit or the thermal offsets, and nothing else. -/
theorem tunnelRun_field {α : Type} (f : State → α) (hfree : ∀ s, f (nextFree s) = f s) (hclear : ∀ s e, f (clearEvent s e) = f s) (hlimit : ∀ s e, f (setLimit s e) = f s)
    (hoffsets : ∀ s e, f (setOffsets s e) = f s) (op : Nat) (e : Sqe) : f (tunnelRun s op e).1 = f s := by
  unfold tunnelRun
  split
  · refine tunnelJudge_field f ?_
    split
    · exact hfree s
    · rfl
  split
  · exact tunnelJudge_field f ((hfree _).trans (hclear s e))
  split
  · refine tunnelJudge_field f ?_
    split
    · exact hfree s
    · rfl
  split
  · split
    · exact tunnelJudge_field f (hlimit s e)
    · split
      · exact tunnelJudge_field f (hoffsets s e)
      · rfl
  split
  · exact tunnelJudge_field f rfl
  · rfl

@[simp] theorem setLimit_jr (s : State) (e : Sqe) : (setLimit s e).jr = s.jr := by
  rw [setLimit, apply_ite State.jr, ite_self]
  exact refreshPower_jr _

@[simp] theorem setLimit_adm (s : State) (e : Sqe) : (setLimit s e).adm = s.adm := by
  rw [setLimit, apply_ite State.adm, ite_self]
  exact refreshPower_adm _

@[simp] theorem clearEvent_miOut (s : State) (e : Sqe) : (clearEvent s e).adm.miOut = s.adm.miOut := by
  unfold clearEvent
  split
  · rfl
  dsimp only
  split
  · rfl
  split
  · rfl
  split
  · rfl
  · rfl

theorem tunnelRun_jr (op : Nat) (e : Sqe) : (tunnelRun s op e).1.jr = s.jr :=
  tunnelRun_field (·.jr) (fun _ => rfl) (fun s e => (clearEvent_logRead s e).jr) setLimit_jr (fun _ _ => rfl) op e

theorem tunnelRun_miOut (op : Nat) (e : Sqe) : (tunnelRun s op e).1.adm.miOut = s.adm.miOut :=
  tunnelRun_field (·.adm.miOut) (fun _ => rfl) clearEvent_miOut (fun s e => by rw [setLimit_adm]) (fun _ _ => rfl) op e

/-- Whatever a tunnelled command does, its answer holds its status and DW0 first (R432). -/
theorem tunnelledAdminCommand_answers (h : miReached s p = true) (op : Nat) (e : Sqe) : ∃ t d, exec (.tunnelledAdminCommand p op e) s = .next t ∧
    t.adm.miOut = s.adm.miOut ++ [p :: 0 :: d] ∧ 6 ≤ d.length ∧ t.zn.store = s.zn.store ∧ t.jr = s.jr ∧ t.md.mode = s.md.mode := by
  obtain ⟨r, hjr, hout, hexec⟩ : ∃ r : Tunnelled, r.1.jr = s.jr ∧ r.1.adm.miOut = s.adm.miOut ∧
      exec (.tunnelledAdminCommand p op e) s = .next (miReply r.1 p 0 (leBytes 2 r.2.1.code ++ leBytes 4 r.2.2.1 ++ r.2.2.2)) := by
    by_cases hmode : s.md.mode = .measure ∨ s.md.mode = .holiday ∨ s.md.mode = .harvest
    · exact ⟨tunnelFail s .c4 s.md.mode.code, rfl, rfl, exec_tunnelledAdminCommand_c4 h op e hmode⟩
    · refine ⟨tunnelRun s op { e with func := 0 }, tunnelRun_jr _ _, tunnelRun_miOut _ _, ?_⟩
      show execTunnelledAdminCommand p op e s = _
      rw [execTunnelledAdminCommand, miAnswer_reached _ h, if_neg hmode]
  have hkept := (execTunnelledAdminCommand_kept (K := true) (J := true) p op e (Kept.refl s)).next_kept _ hexec
  refine ⟨_, _, hexec, (miReply_miOut r.1 p 0 _).trans (by rw [hout]), ?_, hkept.content rfl, hjr, (hkept.core rfl).mode⟩
  simp only [List.length_append, leBytes_length]
  omega

/-! ### The basic management command and the pins (R304, R431, R434) -/

theorem basicManagementCommand_reads (hrails : s.sup.rails = true) :
    (∃ t d, exec (.basicManagementCommand 0) s = .next t ∧ t.adm.miOut = s.adm.miOut ++ [1 :: 0 :: 6 :: d] ∧ d.length = 6 ∧ t.zn = s.zn ∧ Core s t) ∧
      (∃ t d, exec (.basicManagementCommand 8) s = .next t ∧ t.adm.miOut = s.adm.miOut ++ [1 :: 0 :: 22 :: d] ∧ d.drop 2 = s.boot.serial ∧ t.zn = s.zn ∧ Core s t) := by
  constructor
  · rw [show exec (.basicManagementCommand 0) s = execBasicManagementCommand 0 s from rfl, execBasicManagementCommand, if_neg (by simp [hrails]), if_pos rfl]
    exact ⟨_, _, rfl, rfl, rfl, rfl, ⟨rfl, rfl, rfl, rfl, rfl⟩⟩
  · rw [show exec (.basicManagementCommand 8) s = execBasicManagementCommand 8 s from rfl, execBasicManagementCommand, if_neg (by simp [hrails]), if_neg (by decide)]
    exact ⟨_, _, rfl, rfl, rfl, rfl, ⟨rfl, rfl, rfl, rfl, rfl⟩⟩

theorem alertN_low_iff (s : State) : alertN s = false ↔ s.sup.rails = true ∧ (s.adm.ccs ≠ 0 ∨ s.md.mode = .harvest) := by
  rw [alertN, Bool.or_eq_false_iff, Bool.not_eq_false', Bool.not_eq_false', Bool.or_eq_true, bne_iff_ne, beq_iff_eq]

end

/-- Settles O57: `miAnswer` answers a command that reaches its port and drops another; what a tunnelled command changes is `tunnelRun_field`. -/
theorem managementEndpoint : Obligations.ManagementEndpoint := by
  unfold Obligations.ManagementEndpoint
  refine ⟨fun s p typ id d h hd => ?_, fun s p typ id h hnone => ?_, fun s p => mi_unreached, fun s p h => ⟨nvmSubsystemHealthStatusPoll_reads h, nvmSubsystemHealthStatusPoll_clears h⟩,
    fun s p start count clear h => controllerHealthStatusPoll_reads h start count clear, fun s p v => configurationSet_frequency,
    fun s p v h => exec_configurationSet_healthStatus h v, fun s p a v h => exec_configurationSet_unit h a, fun s p a => exec_configurationGet_unit,
    fun s p => configurationGet_frequency, fun s p o l => vpdRead_portion, fun s p o l => exec_vpdRead_beyond, fun s p => miReset_resets, fun s p k => exec_miReset_unknown,
    fun s p op e h => exec_tunnelledAdminCommand_c4 h op e, fun s p op e h => tunnelledAdminCommand_answers h op e, fun s => basicManagementCommand_reads, alertN_low_iff,
    fun s hrails => ?_⟩
  · rw [exec_readNvmeMiDataStructure h, hd]
    rfl
  · rw [exec_readNvmeMiDataStructure h, hnone]
    rfl
  · simp [pairsenseOut, hrails]

end Sys2Proof.Machine
end

section
/-! SUPPORT. The invariant and the roll-back protection of the whole machine (R357, R364, R378): what every command and the idle tick keep. -/

namespace Sys2Proof.Machine

/-- A step keeps what every command and the tick keep; of the queue it takes the command at the front. -/
theorem step_kept {s t : State} (h : step s = .next t) : Kept false false { s with pending := s.pending.tail } t := by
  cases hq : s.pending with
  | nil =>
    have hs : { s with pending := ([] : List Instr).tail } = s := by rw [List.tail_nil, ← hq]
    rw [hs]
    have ht : tick s = t := by simpa only [step, hq, Host.Outcome.next.injEq] using h
    exact ht ▸ tick_kept (Kept.refl s)
  | cons c rest =>
    rw [stepRunsTheFrontCommand s c rest hq] at h
    exact (exec_kept (Kept.refl _) c).next_kept t h

/-- Settles O5: the store and the registers are among what a step keeps. -/
theorem stepKeepsTheInvariant : Obligations.StepKeepsTheInvariant := by
  unfold Obligations.StepKeepsTheInvariant
  intro s t hinv hstep
  have hkept := step_kept hstep
  exact ⟨hkept.store hinv.store, hkept.regs hinv.regs⟩

/-- Settles O6: neither counter falls, by what a step keeps. -/
theorem stepNeverLowersSvnOrBoot : Obligations.StepNeverLowersSvnOrBoot := by
  unfold Obligations.StepNeverLowersSvnOrBoot
  intro s t hstep
  have hkept := step_kept hstep
  exact ⟨hkept.svn, hkept.boot⟩

theorem reset_store : State.reset.zn.store = [] := rfl
theorem reset_regs : State.reset.boot.regs = [] := rfl

/-- Settles O4: at reset the store is empty and nothing is measured. -/
theorem resetMeetsTheInvariant : Obligations.ResetMeetsTheInvariant := by
  unfold Obligations.ResetMeetsTheInvariant
  refine ⟨?_, ?_⟩
  · rw [reset_store]
    exact KV.canon_nil _
  · simp [reset_regs]

end Sys2Proof.Machine
end

section
/-! SUPPORT. The indicators and CLKREQ_N (R494). -/

namespace Sys2Proof.Machine

/-- Setting a controller leaves the commands in flight, the supply, the mode and the time alone, which are what LED_ACT_N shows. -/
theorem ledActN_setCtrl (s : State) (f : Nat) (g : Ctrl → Ctrl) : ledActN (setCtrl s f g) = ledActN s := rfl

theorem ledsReleased_eq_false_iff {s : State} : ledsReleased s = false ↔ s.sup.rails = true ∧ s.md.mode ≠ .holiday ∧ s.md.mode ≠ .harvest := by
  simp [ledsReleased, and_assoc]

theorem ledsReleased_eq_true_iff {s : State} : ledsReleased s = true ↔ s.sup.rails = false ∨ s.md.mode = .holiday ∨ s.md.mode = .harvest := by
  simp [ledsReleased, or_assoc]

/-- With the indicators not released, LED_ACT_N is low while a command is in flight or its 30 ms run. -/
theorem ledActN_low_iff {s : State} (h : ledsReleased s = false) :
    ledActN s = false ↔ s.port.cmds ≠ [] ∨ adminOpen s ≠ [] ∨ (s.port.ledActAt ≠ 0 ∧ s.time.dtb < s.port.ledActAt + 30000000) := by
  simp only [ledActN, h, Bool.false_or, Bool.and_eq_false_iff, Bool.or_eq_false_iff, List.isEmpty_eq_false_iff, beq_eq_false_iff_ne, decide_eq_false_iff_not, Nat.not_le,
    or_assoc]

/-- With the indicators not released, LED_FAULT_N is low in Quarantine, under a Critical Warning and, while rebuilding, in the first half of every 500 ms. -/
theorem ledFaultN_low_iff {s : State} (h : ledsReleased s = false) :
    ledFaultN s = false ↔ s.md.mode = .quarantine ∨ s.adm.critWarn ≠ 0 ∨ (s.md.rebuilding = true ∧ s.time.dtb % 500000000 < 250000000) := by
  simp only [ledFaultN, h, Bool.false_or, Bool.not_eq_false', Bool.or_eq_true, beq_iff_eq, bne_iff_ne, Bool.and_eq_true, decide_eq_true_eq, or_assoc]

/-- Settles O58: the pins are functions of the state, and each clause reads its pin. -/
theorem pinsFollowTheState : Obligations.PinsFollowTheState := by
  unfold Obligations.PinsFollowTheState
  refine ⟨fun s => by rw [clkreqN, Bool.not_eq_false'], fun s hrails hhol hhv => ledActN_low_iff (ledsReleased_eq_false_iff.2 ⟨hrails, hhol, hhv⟩), fun s f l => ledActN_setCtrl s f _,
    fun s hrails hhol hhv hfault => ?_, fun s hrails hhol hhv hq hwarn => ?_, fun s h => ?_⟩
  · exact (ledFaultN_low_iff (ledsReleased_eq_false_iff.2 ⟨hrails, hhol, hhv⟩)).2 (hfault.imp_right Or.inl)
  · rw [ledFaultN_low_iff (ledsReleased_eq_false_iff.2 ⟨hrails, hhol, hhv⟩), or_iff_right hq, or_iff_right (not_not_intro hwarn)]
  · have hreleased := ledsReleased_eq_true_iff.2 h
    simp [ledActN, ledFaultN, hreleased]

end Sys2Proof.Machine
end

section
/-! SUPPORT. The event journal (R419, R420, R423, R424). -/

namespace Sys2Proof.Machine

section
variable {s : State}

/-! ### The drain (R419, R424) -/

/-- The event journal's drain and writer are at work: the rails are on, neither Holiday nor Harvest, the area is mounted and core 27 runs. -/
structure JournalRuns (s : State) : Prop where
  rails : s.sup.rails = true
  holiday : s.md.mode ≠ .holiday
  harvest : s.md.mode ≠ .harvest
  mounted : areaMounted s = true
  core : coreRuns s 27 = true

/-- The state with the ring's entries moved behind the buffer's. -/
def drained (s : State) : State :=
  { s with ev := { s.ev with
    mounted := true, buf := s.ev.buf ++ s.ev.ring, ring := [], lossCount := 0
    firstUnwritten := s.ev.firstUnwritten.or (some s.time.dtb) } }

/-- A drain moves the ring's entries, and sums up what was lost meanwhile. -/
theorem exec_eventDrain (h : JournalRuns s) (hring : s.ev.ring ≠ []) :
    exec .eventDrain s = .next (if s.ev.lossCount = 0 then drained s else record (drained s) 1 [s.ev.lossCount, s.ev.lossFirst, s.ev.lossLast]) := by
  show execEventDrain s = _
  rw [execEventDrain, if_neg (by simp [h.rails, h.holiday, h.harvest, h.mounted, h.core, hring])]
  rfl

/-- An event of a type that no bucket limits is, with room in the ring, its last entry; the buffer and the count of losses are as they were. -/
theorem record_exempt {typ : Nat} (hexempt : evExempt typ = true) (hroom : s.ev.ring.length < ringRoom) (payload : List Nat) (func : Option Nat) (nsid key : Nat) :
    ∃ e, (record s typ payload func nsid key).ev.ring = s.ev.ring ++ [e] ∧ e.typ = typ ∧ e.payload = payload ∧
      (record s typ payload func nsid key).ev.buf = s.ev.buf ∧ (record s typ payload func nsid key).ev.lossCount = s.ev.lossCount := by
  unfold record
  dsimp only
  rw [if_neg (by simp [hexempt]), if_neg (Nat.not_le.2 hroom)]
  split
  · rw [raiseAll_ev]
    exact ⟨_, rfl, rfl, rfl, rfl, rfl⟩
  · exact ⟨_, rfl, rfl, rfl, rfl, rfl⟩

/-- A drain after losses leaves their summary alone in the ring (R424). -/
theorem eventDrain_sumsUp (h : JournalRuns s) (hring : s.ev.ring ≠ []) (hloss : s.ev.lossCount ≠ 0) :
    ∃ t x, exec .eventDrain s = .next t ∧ t.ev.buf = s.ev.buf ++ s.ev.ring ∧ t.ev.ring = [x] ∧ x.typ = 1 ∧
      x.payload = [s.ev.lossCount, s.ev.lossFirst, s.ev.lossLast] ∧ t.ev.lossCount = 0 := by
  obtain ⟨x, hx, htyp, hpayload, hbuf, hcount⟩ := record_exempt (s := drained s) (typ := 1) (by decide) (Nat.zero_lt_succ 1022)
    [s.ev.lossCount, s.ev.lossFirst, s.ev.lossLast] none 0 0
  refine ⟨_, x, ?_, hbuf, hx, htyp, hpayload, hcount⟩
  rw [exec_eventDrain h hring, if_neg hloss]

/-- With core 27 down, or before the area is mounted, nothing is drained and nothing written (R419, R466). -/
theorem eventJournal_waits (h : areaMounted s = false ∨ coreRuns s 27 = false) : exec .eventDrain s = .next s ∧ exec .eventJournalWrite s = .next s := by
  constructor
  · exact if_pos (by rcases h with h | h <;> simp [h])
  · exact if_pos (by rcases h with h | h <;> simp [h])

/-! ### The journal written (R420) -/

/-- The buffer's entries go behind the journal's, of which the newest stay. -/
theorem exec_eventJournalWrite (h : JournalRuns s) (hfull : 512 ≤ s.ev.buf.length) :
    exec .eventJournalWrite s = .next { s with ev := { s.ev with
      journal := (s.ev.journal ++ s.ev.buf).drop ((s.ev.journal ++ s.ev.buf).length - 262144), buf := [], firstUnwritten := none } } := by
  show execEventJournalWrite s = _
  rw [execEventJournalWrite, if_neg (by simp [h.rails, h.holiday, h.harvest, h.mounted, h.core, hfull])]

/-! ### The buckets (R423) -/

/-- An event leaves the buckets of the other types alone. -/
theorem record_types_other {typ j : Nat} (hj : j ≠ typ) (payload : List Nat) (func : Option Nat) (nsid key : Nat) :
    KV.findD (record s typ payload func nsid key).ev.types j {} = KV.findD s.ev.types j {} := by
  have hset (t : EvType) : KV.findD (KV.set s.ev.types typ t) j {} = KV.findD s.ev.types j {} := KV.findD_set_other _ _ _ hj
  unfold record
  dsimp only
  split
  case isTrue => exact hset _
  case isFalse =>
    split
    case isTrue =>
      split
      · rw [raiseAll_ev]
        exact hset _
      · exact hset _
    case isFalse =>
      split
      · rw [raiseAll_ev]
        exact hset _
      · exact hset _

/-- The state with one entry regained in the bucket of a type, and none counted suppressed. -/
def regained (s : State) (typ : Nat) : State :=
  { s with ev := { s.ev with types := KV.set s.ev.types typ { KV.findD s.ev.types typ {} with
    bucket := (KV.findD s.ev.types typ {}).bucket + 1, pend := 0, regainAt := (KV.findD s.ev.types typ {}).regainAt + bucketNs } } }

theorem regained_type (s : State) (typ : Nat) : KV.findD (regained s typ).ev.types typ {} = { KV.findD s.ev.types typ {} with
    bucket := (KV.findD s.ev.types typ {}).bucket + 1, pend := 0, regainAt := (KV.findD s.ev.types typ {}).regainAt + bucketNs } :=
  KV.findD_set_self _ _ _ _

/-- A bucket due regains one entry; the summary of what was suppressed goes to a type of its own. -/
theorem eventBucketRefill_regains {typ : Nat} (hrails : s.sup.rails = true) (hlimited : evExempt typ = false) (hroom : (KV.findD s.ev.types typ {}).bucket < 64)
    (hdue : (KV.findD s.ev.types typ {}).regainAt ≤ s.time.dtb) :
    ∃ t, exec (.eventBucketRefill typ) s = .next t ∧ KV.findD t.ev.types typ {} = KV.findD (regained s typ).ev.types typ {} ∧ t.jr = s.jr := by
  have hrun : exec (.eventBucketRefill typ) s = .next (if (KV.findD s.ev.types typ {}).bucket = 0 && (KV.findD s.ev.types typ {}).pend != 0 then
      record (regained s typ) 2 [typ, (KV.findD s.ev.types typ {}).pend, (KV.findD s.ev.types typ {}).pendFirst, (KV.findD s.ev.types typ {}).pendLast] else regained s typ) := by
    show execEventBucketRefill typ s = _
    simp only [execEventBucketRefill]
    rw [if_neg (by simp [hrails, hlimited, hroom, hdue])]
    rfl
  have hother : typ ≠ 2 := by
    rintro rfl
    exact absurd hlimited (by decide)
  refine ⟨_, hrun, ?_⟩
  split
  · exact ⟨record_types_other hother _ _ _ _, record_jr _ _ _ _ _ _⟩
  · exact ⟨rfl, rfl⟩

end

/-! ### The obligation -/

/-- Settles O46: a drain is `exec_eventDrain`, a summary of losses is never lost (`record_exempt`), and a bucket's refill leaves its type at `regained`. -/
theorem eventJournal : Obligations.EventJournal := by
  unfold Obligations.EventJournal
  refine ⟨fun s hrails hhol hhv hmnt hcore hring hloss => ?_, fun s hrails hhol hhv hmnt hcore hring hloss => eventDrain_sumsUp ⟨hrails, hhol, hhv, hmnt, hcore⟩ hring hloss,
    fun s h => eventJournal_waits h, fun s hrails hhol hhv hcore hmnt hfull => ?_, fun s typ hrails hlimited hroom hdue => ?_, fun s typ h => ?_⟩
  · refine ⟨drained s, ?_, rfl, rfl, rfl, rfl⟩
    rw [exec_eventDrain ⟨hrails, hhol, hhv, hmnt, hcore⟩ hring, if_pos hloss]
  · refine ⟨_, exec_eventJournalWrite ⟨hrails, hhol, hhv, hmnt, hcore⟩ hfull, rfl, by dsimp only, ?_, rfl⟩
    simp only [List.length_drop]
    omega
  · obtain ⟨t, hrun, htype, hjr⟩ := eventBucketRefill_regains hrails hlimited hroom hdue
    have hkept := (execEventBucketRefill_kept (K := true) (J := true) typ (Kept.refl s)).next_kept t hrun
    rw [regained_type] at htype
    exact ⟨t, hrun, by rw [htype], by rw [htype], hkept.content rfl, hjr, hkept.core rfl⟩
  · exact if_pos (by rcases h with h | h | h <;> simp [h])

end Sys2Proof.Machine
end

section
/-! SUPPORT. Measured boot (R357 to R362): a stage measured in its turn, and the end of Measure. -/

namespace Sys2Proof.Machine

/-! ### The boot state through a mode change and a die's failure -/

/-- The boot state without the instant the signing counts from. -/
abbrev Boot.still (b : Boot) : Boot := { b with firstReady := none }

/-- A mode that does not operate is entered with the boot state as it was, but for the instant the signing counts from (R368, R378). -/
theorem toMode_boot {s : State} {m : Mode} (hrests : m.operates = false) (qcause : Nat) (serving : Bool) : (toMode s m qcause serving).boot.still = s.boot.still := by
  have htest (u : State) : (abandonTest u).boot = u.boot := (abandonTest_course u).boot
  have hmoves (u : State) : (dropMoves u m).boot = u.boot := ((dropMoves_kept (K := true) (J := true) m (Kept.refl u)).core rfl).boot
  have hcond (p : Bool) (u : State) : (if p = true then abandonTest u else u).boot = u.boot := by
    split
    · exact htest u
    · rfl
  unfold toMode
  simp only [hrests, Bool.false_eq_true, if_false, Boot.still]
  rw [hcond, enterMode_boot]
  split
  · rw [hmoves]
    split
    · rfl
    · rw [htest]
  · rfl

/-- Quarantine leaves the boot state as it was, but for the instant the signing counts from. -/
theorem toQuarantine_boot (s : State) (cause : Nat) : (toQuarantine s cause).boot.still = s.boot.still := by
  have hkept {c t : State} (h : Kept true true c t) : t.boot = c.boot := (h.core rfl).boot
  have hleft (u : State) : (leavePair (toMode u .quarantine cause)).boot.still = u.boot.still := by
    rw [hkept (leavePair_kept (Kept.refl _)), toMode_boot rfl]
  have hcond (p : Prop) [Decidable p] {u v : State} (h : u.boot = v.boot) : (if p then u else v).boot = v.boot := by
    split
    · exact h
    · rfl
  unfold toQuarantine
  split
  · rw [record_boot]
  · dsimp only
    rw [hcond _ ((hkept (capture_kept 0x10 (raiseAll_kept 0 3 1 (Kept.refl _))))), hleft, hcond _ (hkept (endTransition_kept (Kept.refl _))),
      hcond _ (send_boot _ _ _ _), hkept (abandonEntry_kept .quarantine (Kept.refl _))]

/-- The boot state without the groups that hold the Almanac's body. -/
abbrev Boot.bodiless (b : Boot) : Boot := { b with bodyGroups := [] }

theorem moveBody_boot (s : State) (g : Nat) : (moveBody s g).boot.bodiless = s.boot.bodiless := by
  unfold moveBody
  split
  · rfl
  · split <;> rfl

theorem unfilled_boot (s : State) (g p : Nat) : (unfilled s g p).boot.bodiless = s.boot.bodiless := by
  have hcore {c t : State} (h : Kept true true c t) : t.boot = c.boot := (h.core rfl).boot
  unfold unfilled
  dsimp only
  split
  · rw [hcore (contractZones_kept g (record_kept 0x33 _ none 0 0 (moduleRecord_kept 0x21 3 g (setGrp_kept g _ (Kept.refl s)))))]
  · rw [hcore (retireGroupZones_kept g (record_kept 0x33 _ none 0 0 (moduleRecord_kept 0x21 4 g (Kept.refl _)))), moveBody_boot]
    rfl

theorem takeOver_boot (s : State) (g p old : Nat) : (takeOver s g p old).boot.bodiless = s.boot.bodiless := by
  have hcore {c t : State} (h : Kept true true c t) : t.boot = c.boot := (h.core rfl).boot
  unfold takeOver
  split
  · rw [hcore (refreshCrit_kept (Kept.refl _)), unfilled_boot]
  · next d _ =>
    rw [hcore (refreshCrit_kept (refreshRebuilding_kept (joinRebuild_kept g p d old (record_kept 0x31 _ none 0 0
      (setDie_kept d _ (moduleRecord_kept 0x21 1 g (Kept.refl s)))))))]

/-- A die's failure changes, of the boot state, at most the groups that hold the Almanac's body (R369). -/
theorem failDie_boot (s : State) (d cause : Nat) : (failDie s d cause).boot.bodiless = s.boot.bodiless := by
  by_cases h : (dieOf s d).state = .failed
  · rw [failDie, if_pos h]
  · have hmarked : (dieMarked (dieDropped s d cause) d cause).boot = s.boot :=
      ((setDie_kept (K := true) (J := true) d _ (dropDie_kept d (record_kept 0x30 _ none 0 0 (Kept.refl s)))).core rfl).boot
    have htaken (u : State) (g p : Nat) : (positionTaken u g p d).boot.bodiless = u.boot.bodiless := by
      rw [positionTaken, takeOver_boot, ((rebuildCut_kept u g p d _).core rfl).boot]
    have hmoved (u : State) (g p : Nat) (away : List Copy) : (workMoved u g p d away).boot = u.boot :=
      ((endRows_kept (K := true) (Kept.foldl (moveProgs_kept d _ (refreshRebuilding_kept (Kept.refl u))) (fun _ c hk => restartCopy_kept _ c hk))).core rfl).boot
    obtain hcase | ⟨g, p, away, hcase⟩ := failDie_cases h cause
    · rw [hcase, hmarked]
    · rw [hcase, hmoved, htaken, hmarked]

/-- Training fails dies alone: the mode stays, and the boot state but for the groups that hold the body (R190). -/
theorem trainChannels_kept_boot (s : State) (train : List (List (List ChanSetting))) :
    (trainChannels s train).md.mode = s.md.mode ∧ (trainChannels s train).boot.bodiless = s.boot.bodiless := by
  have hfold {α : Type} (l : List α) (f : State → α → State) (hf : ∀ u x, (f u x).md.mode = u.md.mode ∧ (f u x).boot.bodiless = u.boot.bodiless) (u : State) :
      (l.foldl f u).md.mode = u.md.mode ∧ (l.foldl f u).boot.bodiless = u.boot.bodiless := by
    induction l generalizing u with
    | nil => exact ⟨rfl, rfl⟩
    | cons x l ih => exact ⟨(ih _).1.trans (hf u x).1, (ih _).2.trans (hf u x).2⟩
  unfold trainChannels
  refine hfold _ _ (fun u c => ?_) s
  dsimp only
  split
  · exact ⟨rfl, rfl⟩
  · refine hfold _ _ (fun u i => ?_) _
    split
    · exact ⟨rfl, rfl⟩
    · exact ⟨(failDie_sameRun u _ 3).mode, failDie_boot u _ 3⟩

/-! ### A stage measured (R357, R361) -/

/-- The state in which a stage is measured: the slot that runs is chosen. -/
def withSlot (s : State) (slot : Nat) : State := { s with boot := { s.boot with slotRun := slot, fallback := slot != s.boot.slotSel } }

/-- The stage's digest is refused by an enforcing policy (R359). -/
def stageHeld (s : State) (k : Nat) : Bool := s.boot.policy.enforce && decide (k < 6) && !s.boot.policy.allows k (measureOf s k).digest

/-- The state after a stage: its record appended, the identifier extended, the first gate closed, the Almanac's present entry written. -/
def stageTaken (s : State) (k : Nat) : State :=
  setAlm { s with boot := { s.boot with
    regs := s.boot.regs ++ [measureOf s k], cdi := nextCdi s k (measureOf s k).digest, udsOpen := false
    verdict := if stageHeld s k then some 2 else s.boot.verdict } } (fun a => { a with stages := s.boot.regs ++ [measureOf s k] })

/-- The slot that runs a stage: chosen at the first (R360). -/
def stageSlot (s : State) (k : Nat) : Nat := if k = 0 then slotToRun s else s.boot.slotRun

section
variable {s : State} {k : Nat} (train : List (List (List ChanSetting))) (bad : List Nat)

theorem exec_stageMeasured_early (h : s.md.mode ≠ .measure ∨ k ≠ s.boot.regs.length) : exec (.stageMeasured k train bad) s = .next s :=
  if_pos (by rcases h with h | h <;> simp [h])

/-- With no slot that verifies Measure ends at once (R360). -/
theorem exec_stageMeasured_noSlot (hmode : s.md.mode = .measure) (hrails : s.sup.rails = true) (hregs : s.boot.regs.length = k) (hk : k ≤ 7)
    (hslot : stageSlot s k = 0) : exec (.stageMeasured k train bad) s = .next (endMeasure s 3 []) := by
  show execStageMeasured k train bad s = _
  rw [execStageMeasured, if_neg (by simp [hmode, hrails, hregs, hk])]
  exact if_pos hslot

theorem exec_stageMeasured (hmode : s.md.mode = .measure) (hrails : s.sup.rails = true) (hregs : s.boot.regs.length = k) (hk : k < 7)
    (hslot : stageSlot s k ≠ 0) : exec (.stageMeasured k train bad) s = .next (stageTaken (withSlot s (stageSlot s k)) k) := by
  show execStageMeasured k train bad s = _
  rw [execStageMeasured, if_neg (by simp [hmode, hrails, hregs, Nat.le_of_lt hk])]
  refine (if_neg hslot).trans ?_
  exact if_pos hk

/-- The state after the last stage: at a power good the channels are trained (R190). -/
def lastTaken (s : State) (train : List (List (List ChanSetting))) : State :=
  if s.boot.cause = 0 then trainChannels (stageTaken (withSlot s s.boot.slotRun) 7) train else stageTaken (withSlot s s.boot.slotRun) 7

theorem lastTaken_mode (s : State) (train : List (List (List ChanSetting))) : (lastTaken s train).md.mode = s.md.mode := by
  unfold lastTaken
  split
  · exact (trainChannels_kept_boot _ train).1
  · rfl

theorem lastTaken_boot (s : State) (train : List (List (List ChanSetting))) :
    (lastTaken s train).boot.bodiless = (stageTaken (withSlot s s.boot.slotRun) 7).boot.bodiless := by
  unfold lastTaken
  split
  · exact (trainChannels_kept_boot _ train).2
  · rfl

theorem lastTaken_verdict (s : State) (train : List (List (List ChanSetting))) : (lastTaken s train).boot.verdict = s.boot.verdict := by
  have hverdict := congrArg Boot.verdict (lastTaken_boot s train)
  refine hverdict.trans (if_neg ?_)
  simp [stageHeld]

theorem lastTaken_policy (s : State) (train : List (List (List ChanSetting))) : (lastTaken s train).boot.policy = s.boot.policy := by
  have hpolicy := congrArg Boot.policy (lastTaken_boot s train)
  exact hpolicy

theorem lastTaken_regs (s : State) (train : List (List (List ChanSetting))) : (lastTaken s train).boot.regs.length = s.boot.regs.length + 1 := by
  have hregs := congrArg (fun b => b.regs.length) (lastTaken_boot s train)
  exact hregs.trans (List.length_append ..)

theorem lastTaken_store {s : State} (hcause : s.boot.cause ≠ 0) (train : List (List (List ChanSetting))) : (lastTaken s train).zn.store = s.zn.store := by
  rw [lastTaken, if_neg hcause]
  rfl

/-- The last stage ends Measure, with the verdict already held or that of the policy (R359). -/
theorem exec_stageMeasured_last (hmode : s.md.mode = .measure) (hrails : s.sup.rails = true) (hregs : s.boot.regs.length = 7) (hslot : s.boot.slotRun ≠ 0) :
    exec (.stageMeasured 7 train bad) s = .next (endMeasure (lastTaken s train) (s.boot.verdict.getD (if s.boot.policy.enforce then 0 else 1)) bad) := by
  have hrun : exec (.stageMeasured 7 train bad) s =
      .next (endMeasure (lastTaken s train) ((lastTaken s train).boot.verdict.getD (if (lastTaken s train).boot.policy.enforce then 0 else 1)) bad) := by
    show execStageMeasured 7 train bad s = _
    rw [execStageMeasured, if_neg (by simp [hmode, hrails, hregs])]
    exact if_neg hslot
  rw [hrun, lastTaken_verdict, lastTaken_policy]

/-! ### The end of Measure (R359, R362) -/

/-- The present entry filled and endorsed, and the gates closed: what the end of Measure does before the mode changes. -/
theorem endMeasure_led (s : State) (verdict : Nat) :
    ∃ u, u.md.mode = s.md.mode ∧ u.boot.verdict = some verdict ∧ u.boot.regs = s.boot.regs ∧
      endMeasure s verdict bad = if verdict = 2 then toQuarantine u 2 else if verdict = 3 then toQuarantine { u with port := loaderPort u.port } 3
        else toMode (releaseKeys u bad) .recovery := by
  refine ⟨_, ?_, ?_, ?_, rfl⟩ <;> rfl

/-- The end of Measure keeps the registers and gives the verdict (R359). -/
theorem endMeasure_boot (s : State) (verdict : Nat) : (endMeasure s verdict bad).boot.verdict = some verdict ∧ (endMeasure s verdict bad).boot.regs = s.boot.regs := by
  obtain ⟨u, -, hverdict, hregs, hled⟩ := endMeasure_led bad s verdict
  have hboot : (endMeasure s verdict bad).boot.still = u.boot.still := by
    rw [hled]
    split
    · exact toQuarantine_boot u 2
    · split
      · exact toQuarantine_boot _ 3
      · rw [toMode_boot rfl, ((releaseKeys_kept (K := true) (J := true) bad (Kept.refl u)).core rfl).boot]
  exact ⟨(congrArg Boot.verdict hboot).trans hverdict, (congrArg Boot.regs hboot).trans hregs⟩

/-- Verdicts 2 and 3 lead to Quarantine with their number as its cause (R359, R360). -/
theorem endMeasure_quarantine (hmode : s.md.mode = .measure) {verdict : Nat} (h : verdict = 2 ∨ verdict = 3) :
    (endMeasure s verdict bad).md.mode = .quarantine ∧ (endMeasure s verdict bad).md.qcause = verdict := by
  obtain ⟨u, hu, -, -, hled⟩ := endMeasure_led bad s verdict
  have hnot : u.md.mode ≠ .quarantine := by simp [hu, hmode]
  rw [hled]
  rcases h with rfl | rfl
  · exact toQuarantine_entered hnot 2
  · exact toQuarantine_entered (s := { u with port := loaderPort u.port }) hnot 3

/-- Every other verdict leads to Recovery (R362). -/
theorem endMeasure_recovery (hmode : s.md.mode = .measure) {verdict : Nat} (h : verdict < 2) : (endMeasure s verdict bad).md.mode = .recovery := by
  obtain ⟨u, hu, -, -, hled⟩ := endMeasure_led bad s verdict
  have hreleased : (releaseKeys u bad).md.mode = .measure := ((releaseKeys_kept (K := true) (J := true) bad (Kept.refl u)).core rfl).mode.trans (hu.trans hmode)
  rw [hled, if_neg (by omega), if_neg (by omega), (toMode_idle (by rw [hreleased]; rfl) .recovery 0 false).1]
  exact enterMode_mode_md _ _ _ _

theorem endMeasure_store (s : State) (verdict : Nat) : (endMeasure s verdict bad).zn.store = s.zn.store :=
  (endMeasure_kept (J := true) verdict bad (Kept.refl s)).content rfl

end

/-! ### The obligation -/

/-- Settles O43: a stage in its turn is `stageTaken`, and the mode after the last follows from the verdict by `endMeasure`. -/
theorem measuredBoot : Obligations.MeasuredBoot := by
  unfold Obligations.MeasuredBoot
  refine ⟨fun s k train bad h => exec_stageMeasured_early train bad h, fun s k train bad hmode hrails hregs hpos hk hslot => ?_,
    fun s train bad hmode hrails hregs hslot => ?_, fun s train bad hmode hrails hregs hslot => ?_,
    fun s train bad hmode hrails hregs hslot hverdict => ?_, fun s train bad hmode hrails hregs hslot hverdict => ?_⟩
  · have hsame : stageSlot s k = s.boot.slotRun := if_neg (Nat.ne_of_gt hpos)
    refine ⟨_, exec_stageMeasured train bad hmode hrails hregs hk (by rwa [hsame]), rfl, ?_⟩
    rw [hsame]
    exact ⟨rfl, rfl, rfl, rfl, rfl⟩
  · refine ⟨_, exec_stageMeasured train bad hmode hrails (by rw [hregs]; rfl) (by decide) hslot, rfl, rfl, ?_, rfl⟩
    exact (congrArg (fun l => (l ++ [_]).length) hregs)
  · refine ⟨_, exec_stageMeasured_noSlot train bad hmode hrails (by rw [hregs]; rfl) (by decide) hslot, ?_⟩
    obtain ⟨hmode', hcause⟩ := endMeasure_quarantine [] hmode (.inr rfl)
    obtain ⟨hverdict, hkept⟩ := endMeasure_boot [] s 3
    exact ⟨hmode', hcause, hverdict, hkept.trans hregs, endMeasure_store [] s 3⟩
  · refine ⟨_, exec_stageMeasured_last train bad hmode hrails hregs hslot, ?_⟩
    rw [hverdict, Option.getD_none]
    have hmeasure := (lastTaken_mode s train).trans hmode
    obtain ⟨hgiven, hkept⟩ := endMeasure_boot bad (lastTaken s train) (if s.boot.policy.enforce then 0 else 1)
    refine ⟨endMeasure_recovery bad hmeasure (by split <;> decide), hgiven, by rw [hkept, lastTaken_regs, hregs], fun hcause => ?_⟩
    rw [endMeasure_store, lastTaken_store hcause]
  · refine ⟨_, exec_stageMeasured_last train bad hmode hrails hregs hslot, ?_⟩
    rw [hverdict, Option.getD_some]
    obtain ⟨hmode', hcause⟩ := endMeasure_quarantine bad ((lastTaken_mode s train).trans hmode) (.inl rfl)
    refine ⟨hmode', hcause, (endMeasure_boot bad _ 2).1, fun hc => ?_⟩
    rw [endMeasure_store, lastTaken_store hc]

end Sys2Proof.Machine
end

section
/-! SUPPORT. The hold-up bank and its test (R278, R331 to R335). -/

namespace Sys2Proof.Machine

/-! ### The journal sized by the usable energy (R277) -/

/-- The state with a usable energy taken and the size it gives, before the relief acts on it. -/
def energyTaken (s : State) (dj : Nat) : State :=
  setFlags { s with sup := { s.sup with usableDj := dj, vigil := sizeFor dj } } (fun m => { m with writeThrough := sizeFor dj == 0 })

theorem setUsable_core (s : State) (dj : Nat) : Core (energyTaken s dj) (setUsable s dj) :=
  (refreshCrit_kept (J := true) (checkRelief_kept (Kept.refl (energyTaken s dj)))).core rfl

/-- A usable energy taken sizes the journal by it; the supply is otherwise as it was. -/
theorem setUsable_sup (s : State) (dj : Nat) : (setUsable s dj).sup = { s.sup with usableDj := dj, vigil := sizeFor dj } :=
  (setUsable_core s dj).sup.trans (setFlags_sup _ _)

theorem Core.writeThrough {c s : State} (h : Core c s) : s.md.writeThrough = c.md.writeThrough := by
  have hmd := congrArg ModeSt.writeThrough h.md
  exact hmd

theorem setFlags_writeThrough (s : State) (b : Bool) : (setFlags s (fun m => { m with writeThrough := b })).md.writeThrough = b :=
  setFlags_md_field _ _ ModeSt.writeThrough (fun _ _ => rfl)

/-- Write-through is in force exactly where the journal has no size (R277). -/
theorem setUsable_writeThrough (s : State) (dj : Nat) : (setUsable s dj).md.writeThrough = true ↔ sizeFor dj = 0 := by
  rw [(setUsable_core s dj).writeThrough, energyTaken, setFlags_writeThrough, beq_iff_eq]

theorem setUsable_mode (s : State) (dj : Nat) : (setUsable s dj).md.mode = s.md.mode := (setUsable_course s dj).mode
theorem setUsable_boot (s : State) (dj : Nat) : (setUsable s dj).boot = s.boot := (setUsable_course s dj).boot

/-! ### The test -/

/-- The end of a test answers those who wait for it; the rest of the supply stays. -/
theorem endTest_sup (s : State) (r : HoldResult) : (endTest s r).sup = { s.sup with testWaiters := [] } := by
  unfold endTest
  exact ((Kept.foldl (K := true) (J := true) (record_kept _ _ _ _ _ (Kept.refl _)) (fun _ _ h => completeFor_kept _ _ _ _ _ h)).core rfl).sup

theorem tryTest_idle {s : State} (h : s.sup.test = .idle) : tryTest s = s := if_neg (by simp [h])

section
variable {s : State}

/-- A test that is due waits for the conditions of R333, and starts at once where they hold. -/
theorem exec_holdUpTestDue (hdue : 1440 ≤ s.sup.lastTest) (hidle : s.sup.test = .idle) (hrails : s.sup.rails = true) :
    exec .holdUpTestDue s = .next (tryTest { s with sup := { s.sup with test := .waiting } }) :=
  if_neg (by simp [hidle, hrails, Nat.not_lt.2 hdue])

theorem tryTest_waiting : tryTest { s with sup := { s.sup with test := .waiting } } =
    if testAllowed s = true then { s with sup := { s.sup with test := .falling, charger := false, testVigil := s.sup.vigil } }
    else { s with sup := { s.sup with test := .waiting } } := by
  unfold tryTest
  by_cases h : testAllowed s = true
  · rw [if_pos h, if_pos ⟨rfl, h⟩]
    rfl
  · rw [if_neg h, if_neg (fun hw => h hw.2)]

/-- The state at the stop voltage, C and ESR taken and the charger on (R334 steps 3 and 4). -/
def stopTaken (s : State) (us mv : Nat) : State :=
  { s with sup := { s.sup with
    test := .recharging, charger := true, bankMv := s.sup.vStopDv * 100, testTDis := us
    measured := true, capUf := us * 125 / (10 * max 1 (70000 - s.sup.vStopDv * 100)), esrMohm := mv / 2
    pendCap := if s.sup.measured then s.sup.capUf else 0, pendEsr := s.sup.esrMohm } }

/-- At the stop voltage U follows from C and ESR, and a result is kept (R334 step 5). -/
theorem exec_holdUpStopVoltage (htest : s.sup.test = .discharging) (us mv : Nat) :
    ∃ u r, u = setUsable (stopTaken s us mv) (energyDj (stopTaken s us mv).sup.capUf (stopTaken s us mv).sup.esrMohm 70000) ∧
      exec (.holdUpStopVoltage us mv) s = .next { u with sup := { u.sup with testResult := r } } :=
  ⟨_, _, rfl, if_neg (not_not_intro htest)⟩

/-! ### The bank's voltage (R278, R332) -/

/-- The state in which the bank is found at 70 V. -/
def bankFull (s : State) : State := { s with sup := { s.sup with bankMv := 70000, first70 := true, belowSixtySix := false } }

theorem exec_bankCharged (hrails : s.sup.rails = true) (hcharger : s.sup.charger = true) (hmode : s.md.mode ≠ .harvest) :
    exec .bankCharged s = .next (
      if s.sup.test = .recharging then
        endTest { bankFull s with sup := { (bankFull s).sup with test := .idle, lastTest := 0, lastResult := { s.sup.testResult with at_ := s.time.dtb } } }
          { s.sup.testResult with at_ := s.time.dtb }
      else if (!s.sup.first70 && s.sup.measured) = true then tryTest (setUsable (bankFull s) (energyDj s.sup.capUf s.sup.esrMohm 70000))
      else if (!s.sup.first70 && !s.sup.measured) = true then startTest (bankFull s) else tryTest (bankFull s)) := by
  show execBankCharged s = _
  rw [execBankCharged, if_neg (by simp [hrails, hcharger, hmode])]
  dsimp only
  repeat' split
  all_goals rfl

/-- The state with a bank voltage sensed, the charge level judged as `below`. -/
def bankSensed (s : State) (mv p : Nat) (below : Bool) : State := { s with sup := { s.sup with pIn := p % 4096, bankMv := mv, belowSixtySix := below } }

/-- Below 66.0 V the usable energy is that of the voltage; the fall is recorded once (R332). -/
theorem exec_bankVoltageCheck_low (hrails : s.sup.rails = true) (hmode : s.md.mode ≠ .harvest) (htest : s.sup.test = .idle) (hfirst : s.sup.first70 = true)
    (hmeasured : s.sup.measured = true) {mv : Nat} (hlow : mv < 66000) (p : Nat) :
    exec (.bankVoltageCheck mv p) s = .next (
      if (!s.sup.belowSixtySix) = true then record (setUsable (bankSensed s mv p true) (energyDj s.sup.capUf s.sup.esrMohm mv)) 0x41 [mv / 10]
      else setUsable (bankSensed s mv p true) (energyDj s.sup.capUf s.sup.esrMohm mv)) := by
  show execBankVoltageCheck mv p s = _
  rw [execBankVoltageCheck, if_neg (by simp [hrails, hmode])]
  dsimp only
  rw [if_neg (by simp [htest]), if_neg (by simp [hfirst]), if_pos hlow, if_pos hmeasured, bankSensed]

/-- From 69.5 V on the full energy is usable again (R332). -/
theorem exec_bankVoltageCheck_high (hrails : s.sup.rails = true) (hmode : s.md.mode ≠ .harvest) (htest : s.sup.test = .idle) (hfirst : s.sup.first70 = true)
    (hmeasured : s.sup.measured = true) (hbelow : s.sup.belowSixtySix = true) {mv : Nat} (hhigh : 69500 ≤ mv) (p : Nat) :
    exec (.bankVoltageCheck mv p) s = .next (setUsable (bankSensed s mv p false) (energyDj s.sup.capUf s.sup.esrMohm 70000)) := by
  have hnot : ¬ mv < 66000 := by omega
  have hidle : tryTest (setUsable (bankSensed s mv p false) (energyDj s.sup.capUf s.sup.esrMohm 70000)) =
      setUsable (bankSensed s mv p false) (energyDj s.sup.capUf s.sup.esrMohm 70000) := by
    refine tryTest_idle ?_
    rw [setUsable_sup]
    exact htest
  rw [← hidle]
  show execBankVoltageCheck mv p s = _
  rw [execBankVoltageCheck, if_neg (by simp [hrails, hmode])]
  dsimp only
  rw [if_neg (by simp [htest]), if_neg (by simp [hfirst]), if_neg hnot, if_pos (by simp [hbelow, hhigh]), if_pos hmeasured, bankSensed]

end

/-! ### The obligation -/

/-- Settles O15: every change of the usable energy is `setUsable`, the end of a test `endTest`. -/
theorem holdUpBank : Obligations.HoldUpBank := by
  unfold Obligations.HoldUpBank
  refine ⟨fun s hdue hidle hrails hallowed => ?_, fun s hdue hidle hrails hallowed => ?_, fun s us htest => if_neg (not_not_intro htest),
    fun s us mv htest hstop => ?_, fun s hrails hcharger hmode htest => ?_, fun s hrails hcharger hmode hfirst hmeasured hidle => ?_,
    fun s mv p hrails hmode hidle hfirst hmeasured hlow => ?_, fun s mv p hrails hmode hidle hfirst hmeasured hbelow hhigh => ?_⟩
  · rw [exec_holdUpTestDue hdue hidle hrails, tryTest_waiting, if_pos hallowed]
  · rw [exec_holdUpTestDue hdue hidle hrails, tryTest_waiting, if_neg (by simp [hallowed])]
  · obtain ⟨u, r, hu, hrun⟩ := exec_holdUpStopVoltage htest us mv
    have hpos : max 1 (70000 - s.sup.vStopDv * 100) = 70000 - s.sup.vStopDv * 100 := by omega
    have hcap : (stopTaken s us mv).sup.capUf = us * 125 / (10 * (70000 - s.sup.vStopDv * 100)) := by rw [← hpos]; rfl
    generalize henergy : energyDj (stopTaken s us mv).sup.capUf (stopTaken s us mv).sup.esrMohm 70000 = dj at hu
    have hsup : u.sup = { (stopTaken s us mv).sup with usableDj := dj, vigil := sizeFor dj } := hu ▸ setUsable_sup _ _
    have hwt : u.md.writeThrough = true ↔ sizeFor dj = 0 := hu ▸ setUsable_writeThrough _ _
    have hmode : u.md.mode = s.md.mode := hu ▸ setUsable_mode _ _
    have hboot : u.boot = s.boot := hu ▸ setUsable_boot _ _
    refine ⟨_, hrun, ?_⟩
    dsimp only
    rw [hsup]
    exact ⟨rfl, rfl, rfl, hcap, henergy.symm, rfl, hwt, hmode, hboot⟩
  · rw [exec_bankCharged hrails hcharger hmode, if_pos htest]
    refine ⟨_, rfl, ?_⟩
    rw [endTest_sup, (endTest_course _ _).mode, (endTest_course _ _).boot]
    exact ⟨rfl, rfl, rfl, rfl, rfl, rfl, rfl⟩
  · rw [exec_bankCharged hrails hcharger hmode, if_neg (by simp [hidle]), if_neg (by simp [hmeasured]), if_pos (by simp [hfirst, hmeasured])]
    exact ⟨_, rfl, rfl, rfl, rfl, rfl⟩
  · rw [exec_bankVoltageCheck_low hrails hmode hidle hfirst hmeasured hlow]
    refine ⟨_, rfl, ?_⟩
    split
    · rw [record_sup, record_writeThrough_md, record_mode_md, setUsable_sup, setUsable_writeThrough, setUsable_mode]
      exact ⟨rfl, rfl, rfl, rfl, rfl, Iff.rfl, rfl⟩
    · rw [setUsable_sup, setUsable_writeThrough, setUsable_mode]
      exact ⟨rfl, rfl, rfl, rfl, rfl, Iff.rfl, rfl⟩
  · refine ⟨_, exec_bankVoltageCheck_high hrails hmode hidle hfirst hmeasured hbelow hhigh p, ?_⟩
    rw [setUsable_sup, setUsable_mode]
    exact ⟨rfl, rfl, rfl, rfl, rfl⟩

end Sys2Proof.Machine
end

section
/-! SUPPORT. The Harvest and the seals (R329, R330, R338, R339, R341, R344, R345). -/

namespace Sys2Proof.Machine

/-! ### Seals (R341, R345) -/

theorem keepShifts_mediaOnly (s : State) (shifts : List Nat) (save : Bool) : MediaOnly s (keepShifts s shifts save) := by
  unfold keepShifts
  refine MediaOnly.foldl (fun u c => ?_) _ s
  rfl

theorem MediaOnly.jr {c s : State} (h : MediaOnly c s) : s.jr = c.jr := by rw [h]
theorem MediaOnly.md {c s : State} (h : MediaOnly c s) : s.md = c.md := by rw [h]
theorem MediaOnly.sup {c s : State} (h : MediaOnly c s) : s.sup = c.sup := by rw [h]
theorem MediaOnly.store {c s : State} (h : MediaOnly c s) : s.zn.store = c.zn.store := by rw [h]

/-- The map deltas' size is drawn; every other part stays (R339). -/
theorem deltaMib_frame (s : State) : (deltaMib s).2 = { s with free := s.free + 1 } := rfl

/-- Every live record named is landed (R339). -/
theorem landRecs_landed (s : State) {p : Nat → Bool} (hp : ∀ q, p q = true) : ∀ x ∈ (landRecs s p).jr.recs, x.2.landed = true := by
  intro x hx
  obtain ⟨y, -, rfl⟩ := List.mem_map.1 hx
  simp [hp]

/-- The seal record of a kind that `s` gives, with `d` MiB of map deltas (R341). -/
def sealOf (s : State) (kind d : Nat) : Seal :=
  { kind := kind, boot := s.boot.boot, ckpt := s.jr.ckpt, highSeq := s.jr.seq - 1, pepoch := s.jr.pepoch.toNat, rd := s.time.rd.toNat, at_ := s.time.dtb,
    records := s.jr.recs.length, landedMib := ceilDiv (liveBytes s) mib, deltaMib := d }

/-- What a seal makes of `s`: its record is written, every live record is landed, the session ends and the power-off is clean; the rest of the supply, the mode, the boot state and the content stay. -/
structure Sealed (s : State) (sl : Seal) (t : State) : Prop where
  sup : t.sup = { s.sup with sealRec := some sl, unsealed := none, missing := [] }
  mode : t.md.mode = s.md.mode
  cleanOff : t.md.cleanOff = true
  session : t.jr.session = false
  landed : ∀ p ∈ t.jr.recs, p.2.landed = true
  boot : t.boot = s.boot
  store : t.zn.store = s.zn.store

theorem makeSeal_sealed (s : State) (kind : Nat) (shifts : List Nat) (f : Seal → Seal) : Sealed s (f (sealOf s kind (deltaMib s).1)) (makeSeal s kind shifts f) := by
  have hlanded : Kept true true s (landRecs (deltaMib s).2 (fun _ => true)) := landRecs_kept _ (deltaMib_kept (Kept.refl s))
  have hshifts := keepShifts_mediaOnly (saveClock (landRecs (deltaMib s).2 (fun _ => true)) true) shifts true
  have hall := landRecs_landed (deltaMib s).2 (p := fun _ => true) (fun _ => rfl)
  constructor
  case sup => exact congrArg (fun p : Sup => { p with sealRec := some (f (sealOf s kind (deltaMib s).1)), unsealed := none, missing := [] }) (hshifts.sup.trans (hlanded.core rfl).sup)
  case mode => exact (congrArg ModeSt.mode hshifts.md).trans (hlanded.core rfl).mode
  case cleanOff => rfl
  case session => rfl
  case landed =>
    intro p hp
    have hrecs := congrArg Journal.recs hshifts.jr
    exact hall p ((hrecs :) ▸ hp)
  case boot => exact makeSeal_boot s kind shifts f
  case store => exact hshifts.store.trans (hlanded.content rfl)

/-! ### The end of a Harvest (R330, R341, R344) -/

theorem clearVolatile_mode (s : State) (powerGood : Bool) : (clearVolatile s powerGood).md.mode = s.md.mode := by
  have hended : Kept true true s (s.media.rebuilds.foldl dropPartial (resetDies s)) :=
    Kept.foldl (resetDies_kept (Kept.refl s)) (fun _ r h => dropPartial_kept r h)
  exact (hended.core rfl).mode

/-- A Measure entry from a mode that does not operate leaves the supply as it is (R358). -/
theorem enterMeasure_sup {s : State} (hidle : s.md.mode.operates = false) (cause : Nat) : (enterMeasure s cause).sup = s.sup := by
  have hreset : Kept true true s (hostReset s) := hostReset_kept (Kept.refl s)
  have hmode : (clearVolatile (hostReset s) false).md.mode = s.md.mode := (clearVolatile_mode _ false).trans (hreset.core rfl).mode
  obtain ⟨-, hsup, -, -⟩ := clearVolatile_parts (hostReset s) false
  unfold enterMeasure
  dsimp only
  rw [toMode_measure]
  dsimp only
  rw [enterMode_sup, leftMode, if_neg]
  · exact hsup.trans (hreset.core rfl).sup
  · simp [beginEntry, hmode, hidle]

theorem dropInjected_frame (s : State) : dropInjected s = { s with keys := (dropInjected s).keys } := rfl

/-- The seal record a Harvest writes (Table 11.9). -/
def harvestSeal (s : State) (vEnd d : Nat) : Seal :=
  { sealOf s 1 d with
    fromMode := s.sup.hvFrom, trigger := s.sup.hvTrigger, at_ := s.sup.hvAt, durationUs := (s.time.dtb - s.sup.hvAt) / 1000
    vStart := s.sup.hvVStart, vEnd := vEnd / 10, drained := s.sup.hvDrained, aborted := s.sup.hvAborted }

/-- The supply as sensed at a Harvest's seal. -/
def sealSensed (s : State) (vEnd a b : Nat) (pwrdis mated : Bool) : State :=
  setFeeds { s with sup := { s.sup with pwrdis := pwrdis, mated := mated, bankMv := vEnd, hvStep := 0 } } a b

/-- The state with the charger on. -/
def chargerOn (s : State) : State := { s with sup := { s.sup with charger := true } }

/-- A Harvest's seal is written, and the feeds and pins decide where it leads (R330). -/
theorem exec_harvestSeal {s : State} (hmode : s.md.mode = .harvest) (v a b : Nat) (pwrdis mated : Bool) (shifts : List Nat) :
    ∃ u, Sealed s (harvestSeal s v (deltaMib s).1) u ∧ exec (.harvestSeal v a b pwrdis mated shifts) s = .next (
      if ((decide (360 ≤ a) || decide (360 ≤ b)) && !pwrdis && mated) = true then
        enterMeasure (chargerOn (sealSensed u v a b pwrdis mated)) 2
      else railsOff { sealSensed u v a b pwrdis mated with sup := { (sealSensed u v a b pwrdis mated).sup with bankMv := 0 } }) := by
  obtain ⟨hsup, hmd, hclean, hsession, hlanded, hboot, hstore⟩ := makeSeal_sealed (dropInjected s) 1 shifts (fun x => { x with
      fromMode := s.sup.hvFrom, trigger := s.sup.hvTrigger, at_ := s.sup.hvAt, durationUs := (s.time.dtb - s.sup.hvAt) / 1000
      vStart := s.sup.hvVStart, vEnd := v / 10, drained := s.sup.hvDrained, aborted := s.sup.hvAborted })
  refine ⟨_, ⟨hsup, hmd, hclean, hsession, hlanded, hboot, hstore⟩, ?_⟩
  show execHarvestSeal v a b pwrdis mated shifts s = _
  rw [execHarvestSeal, if_neg (not_not_intro hmode)]
  dsimp only
  split <;> rfl

/-- With a feed present, PWRDIS deasserted and the mate there the module enters Measure (R330). -/
theorem harvestSeal_measures {s : State} (hmode : s.md.mode = .harvest) (v : Nat) {a b : Nat} (hfeed : 360 ≤ a ∨ 360 ≤ b) (shifts : List Nat) :
    ∃ t, exec (.harvestSeal v a b false true shifts) s = .next t ∧ MeasureEntered s 2 t ∧ t.sup.sealRec = some (harvestSeal s v (deltaMib s).1) := by
  obtain ⟨u, hsealed, hrun⟩ := exec_harvestSeal hmode v a b false true shifts
  rw [if_pos (by rcases hfeed with h | h <;> simp [h])] at hrun
  have hentered := enterMeasure_entered (chargerOn (sealSensed u v a b false true)) 2
  refine ⟨_, hrun, ⟨hentered.mode, hentered.cause, ?_, hentered.regs, ?_, hentered.cmds⟩, ?_⟩
  · exact hentered.boot.trans (congrArg (fun b : Boot => b.boot + 1) hsealed.boot)
  · exact hentered.minSvn.trans (congrArg Boot.minSvn hsealed.boot)
  · have hmode' : (chargerOn (sealSensed u v a b false true)).md.mode = .harvest := hsealed.mode.trans hmode
    rw [enterMeasure_sup (by rw [hmode']; rfl)]
    exact congrArg Sup.sealRec hsealed.sup

/-- Otherwise the rails fall, with the content as it was (R330). -/
theorem harvestSeal_falls {s : State} (hmode : s.md.mode = .harvest) (v a b : Nat) (pwrdis mated : Bool) (shifts : List Nat)
    (hoff : ¬ ((360 ≤ a ∨ 360 ≤ b) ∧ pwrdis = false ∧ mated = true)) :
    ∃ t, exec (.harvestSeal v a b pwrdis mated shifts) s = .next t ∧ t.sup.rails = false ∧ t.sup.bankMv = 0 ∧ t.md.cleanOff = true ∧
      (∀ p ∈ t.jr.recs, p.2.landed = true) ∧ t.boot = s.boot ∧ SameContent s t ∧ t.sup.sealRec = some (harvestSeal s v (deltaMib s).1) := by
  obtain ⟨u, hsealed, hrun⟩ := exec_harvestSeal hmode v a b pwrdis mated shifts
  rw [if_neg (by simpa [and_assoc] using hoff)] at hrun
  exact ⟨_, hrun, rfl, rfl, hsealed.cleanOff, hsealed.landed, hsealed.boot, sameContent_of_store hsealed.store, congrArg Sup.sealRec hsealed.sup⟩

/-! ### The bank exhausted (R344, R351) -/

/-- The state in which the records up to the place reached are landed, and the map deltas drawn. -/
def partlyLanded (s : State) (step landed : Nat) : State := (deltaMib (landRecs s (fun q => 5 ≤ step || (step == 4 && q ≤ landed)))).2

/-- The records not landed. -/
def unlanded (s : State) : KV VRec := s.jr.recs.filter (fun p => !p.2.landed)

/-- Where no manifest was landed the write pointers fall back to what is present (R351). -/
def fallenBack (s : State) (step : Nat) : State :=
  if decide (4 ≤ step) = true then s
  else fallBack s (((unlanded s).filter (fun p => p.2.completed && decide (1 ≤ p.2.typ) && decide (p.2.typ ≤ 3))).map (fun p => p.2))

theorem fallenBack_kept (s : State) (step : Nat) : Kept true false s (fallenBack s step) := by
  unfold fallenBack
  split
  · exact Kept.refl s
  · exact fallBack_kept _ (Kept.refl s)

theorem fallenBack_manifest (s : State) {step : Nat} (h : 4 ≤ step) : fallenBack s step = s := if_pos (decide_eq_true h)

/-- With the bank exhausted the rails fall over an unsealed Harvest (R344). -/
theorem exec_harvestBankExhausted {s : State} (hmode : s.md.mode = .harvest) (step landed : Nat) :
    ∃ t sl, exec (.harvestBankExhausted step landed) s = .next t ∧ t.sup.rails = false ∧ t.sup.bankMv = 0 ∧ t.md.cleanOff = false ∧
      t.sup.unsealed = some sl ∧ sl.sealed = false ∧ sl.manifest = decide (4 ≤ step) ∧ t.sup.sealRec = none ∧
      t.boot = (fallenBack (partlyLanded s step landed) step).boot ∧ t.zn = (fallenBack (partlyLanded s step landed) step).zn :=
  ⟨_, _, if_neg (not_not_intro hmode), rfl, rfl, rfl, rfl, rfl, rfl, rfl, rfl, rfl⟩

theorem partlyLanded_kept (s : State) (step landed : Nat) : Kept true true s (partlyLanded s step landed) :=
  deltaMib_kept (landRecs_kept _ (Kept.refl s))

/-- From step 4 on the content stays; in every step the boot state does (R344, R351). -/
theorem harvestBankExhausted_keeps {s : State} (hmode : s.md.mode = .harvest) (step landed : Nat) :
    ∃ t sl, exec (.harvestBankExhausted step landed) s = .next t ∧ t.sup.rails = false ∧ t.sup.bankMv = 0 ∧ t.md.cleanOff = false ∧
      t.sup.unsealed = some sl ∧ sl.sealed = false ∧ sl.manifest = decide (4 ≤ step) ∧ t.sup.sealRec = none ∧ t.boot = s.boot ∧ (4 ≤ step → SameContent s t) := by
  obtain ⟨t, sl, hrun, hrails, hbank, hclean, hsl, hsealed, hmanifest, hnone, hboot, hzn⟩ := exec_harvestBankExhausted hmode step landed
  have hlanded := partlyLanded_kept s step landed
  refine ⟨t, sl, hrun, hrails, hbank, hclean, hsl, hsealed, hmanifest, hnone, ?_, fun h => sameContent_of_store ?_⟩
  · rw [hboot, ((fallenBack_kept _ step).core rfl).boot, (hlanded.core rfl).boot]
  · rw [hzn, fallenBack_manifest _ h, hlanded.content rfl]

/-! ### The Harvest entered (R338, Table 11.5) -/

/-- The parts a Harvest's work on the dies and the records leaves: the mode, the boot state and the supply but for the counts of what was drained. -/
structure SameHarvest (c s : State) : Prop where
  mode : s.md.mode = c.md.mode
  boot : s.boot = c.boot
  sup : { s.sup with hvDrained := 0, hvAborted := 0 } = { c.sup with hvDrained := 0, hvAborted := 0 }

theorem SameHarvest.refl (s : State) : SameHarvest s s := ⟨rfl, rfl, rfl⟩

theorem SameHarvest.trans {a b c : State} (h : SameHarvest a b) (k : SameHarvest b c) : SameHarvest a c :=
  ⟨k.mode.trans h.mode, k.boot.trans h.boot, k.sup.trans h.sup⟩

theorem Kept.sameHarvest {J : Bool} {c s : State} (h : Kept true J c s) : SameHarvest c s :=
  ⟨(h.core rfl).mode, (h.core rfl).boot, by rw [(h.core rfl).sup]⟩

theorem SameHarvest.foldl {α : Type} {f : State → α → State} (h : ∀ s x, SameHarvest s (f s x)) (l : List α) (s : State) : SameHarvest s (l.foldl f s) := by
  induction l generalizing s with
  | nil => exact .refl s
  | cons x l ih => exact (h s x).trans (ih _)

/-- One more pass drained, or erase aborted, is counted and no more. -/
theorem SameHarvest.counted {c s : State} (h : SameHarvest c s) (drained aborted : Nat) :
    SameHarvest c { s with sup := { s.sup with hvDrained := drained, hvAborted := aborted } } := ⟨h.mode, h.boot, h.sup⟩

/-- A host command's pass on a die is driven to its end. -/
def claimDrained (s : State) (x : Nat × Die) : State :=
  x.2.claimOp.elim s (fun o =>
    let s := passDone (setDie s x.1 (fun d => { d with claimOp := none })) x.1 o
    { s with sup := { s.sup with hvDrained := s.sup.hvDrained + 1 } })

/-- A die's other operation is driven to its end, an erase aborted. -/
def opDrained (s : State) (x : Nat × Die) : State :=
  x.2.op.elim s (fun o =>
    let s := setDie s x.1 (fun d => { d with op := none })
    if o.kind = .erase then { s with sup := { s.sup with hvAborted := s.sup.hvAborted + 1 } }
    else
      let s := passDone s x.1 o
      { s with sup := { s.sup with hvDrained := s.sup.hvDrained + 1 } })

theorem drainDies_eq (s : State) : drainDies s = s.media.dies.foldl (fun s x => opDrained (claimDrained s x) x) s := rfl

theorem passDone_sameHarvest (s : State) (d : Nat) (o : DieOp) (g : Die → Die) : SameHarvest s (passDone (setDie s d g) d o) :=
  (passDone_kept (K := true) d o (setDie_kept d g (Kept.refl s))).sameHarvest

theorem claimDrained_sameHarvest (s : State) (x : Nat × Die) : SameHarvest s (claimDrained s x) := by
  unfold claimDrained
  cases x.2.claimOp with
  | none => exact .refl s
  | some o => exact (passDone_sameHarvest s x.1 o _).counted _ _

theorem opDrained_sameHarvest (s : State) (x : Nat × Die) : SameHarvest s (opDrained s x) := by
  unfold opDrained
  cases x.2.op with
  | none => exact .refl s
  | some o =>
    by_cases h : o.kind = .erase
    · simp only [Option.elim_some, if_pos h]
      exact (setDie_kept (J := true) x.1 _ (Kept.refl _)).sameHarvest.counted _ _
    · simp only [Option.elim_some, if_neg h]
      exact (passDone_sameHarvest _ x.1 o _).counted _ _

theorem drainDies_sameHarvest (s : State) : SameHarvest s (drainDies s) := by
  rw [drainDies_eq]
  exact SameHarvest.foldl (fun u x => (claimDrained_sameHarvest u x).trans (opDrained_sameHarvest _ x)) _ s

/-- A change to Harvest: the mode's own change, and a test that ran is abandoned after it, without a completion (R54, R335). -/
theorem toMode_harvest (s : State) : ∃ e, (e = enterMode s .harvest ∨ e = abandonTest (enterMode s .harvest)) ∧
    toMode s .harvest = { e with tw := { e.tw with senseOut := false } } := by
  unfold toMode
  cases hoperates : s.md.mode.operates
  · exact ⟨_, .inl rfl, by simp [Mode.operates]⟩
  · refine ⟨_, .inr rfl, ?_⟩
    simp [Mode.operates, dropMoves]

/-- The rails and the feeds of the supply. -/
def Sup.inputs (p : Sup) : Bool × Nat × Nat := (p.rails, p.feedA, p.feedB)

theorem setUsable_inputs (s : State) (dj : Nat) : (setUsable s dj).sup.inputs = s.sup.inputs := by
  rw [setUsable_sup]
  rfl

theorem abandonTest_inputs (s : State) : (abandonTest s).sup.inputs = s.sup.inputs := by
  unfold abandonTest
  split
  · rfl
  · rw [endTest_sup]
    generalize hu : (if s.sup.test = .recharging then
      setUsable { s with sup := { s.sup with measured := s.sup.pendCap != 0, capUf := s.sup.pendCap, esrMohm := s.sup.pendEsr } } (energyDj s.sup.pendCap s.sup.pendEsr 70000)
      else s) = u
    show u.sup.inputs = s.sup.inputs
    rw [← hu]
    split
    · rw [setUsable_inputs]
      rfl
    · rfl

theorem toMode_harvest_parts (s : State) : (toMode s .harvest).md.mode = .harvest ∧ (toMode s .harvest).boot = s.boot ∧
    (toMode s .harvest).sup.inputs = s.sup.inputs := by
  obtain ⟨e, he, hentered⟩ := toMode_harvest s
  rw [hentered]
  suffices h : e.md.mode = .harvest ∧ e.boot = s.boot ∧ e.sup.inputs = s.sup.inputs from h
  have hmode := enterMode_mode_md s .harvest 0 false
  have hboot := enterMode_boot s .harvest 0 false
  have hsup := enterMode_sup s .harvest 0 false
  generalize enterMode s .harvest 0 false = u at he hmode hboot hsup
  rcases he with rfl | rfl
  · exact ⟨hmode, hboot, by rw [hsup]⟩
  · have hcourse := abandonTest_course u
    exact ⟨hcourse.mode.trans hmode, hcourse.boot.trans hboot, by rw [abandonTest_inputs, hsup]⟩

/-- The boot state a Harvest leaves: the firmware write and the activation under way are dropped, and a signing one is dead. -/
def Boot.harvested (b : Boot) : Boot :=
  { b with signDead := b.signDead || b.signPending, pieces := [], staged := none, activating := none, alsoActivating := [], writing := [] }

/-- The state in which a Harvest begins its work on the dies and the records: the twin told, the mode changed, the links down, the charger off (steps 1 and 2). -/
def harvestBegun (s : State) (cause : Nat) : State :=
  let from_ := s.md.mode
  let u := leavePair (toMode (send (abandonEntry s .harvest) 0x09 0 [1]) .harvest)
  { u with
    port := { linkGone u false false with }.port
    tw := { u.tw with linkUp := false, paired := false, departing := none }
    cal := { u.cal with running := false, claims := [] }
    boot := u.boot.harvested
    th := { u.th with shut := 0 }
    sup := { u.sup with charger := false, hvFrom := from_.code, hvTrigger := triggerCode cause, hvAt := u.time.dtb, hvVStart := u.sup.bankMv / 10
                        hvDrained := 0, hvAborted := 0, hvStep := 4 } }

/-- The dies' and the records' work in a Harvest. -/
def harvestWork (s : State) : State := drainDies (dropUnformed (markHarvested s))

theorem enterHarvest_eq (s : State) (cause : Nat) : enterHarvest s cause =
    { harvestWork (harvestBegun s cause) with port := { (harvestWork (harvestBegun s cause)).port with cmds := [] }, cal := { (harvestWork (harvestBegun s cause)).cal with progs := [] } } := rfl

theorem harvestWork_sameHarvest (s : State) : SameHarvest s (harvestWork s) :=
  (dropUnformed_kept (K := true) (markHarvested_kept (Kept.refl s))).sameHarvest.trans (drainDies_sameHarvest _)

/-- What a Harvest begun is, of the mode, the boot state and the supply. -/
structure HarvestBegun (s : State) (cause : Nat) (t : State) : Prop where
  mode : t.md.mode = .harvest
  boot : t.boot = s.boot.harvested
  hvFrom : t.sup.hvFrom = s.md.mode.code
  hvTrigger : t.sup.hvTrigger = triggerCode cause
  charger : t.sup.charger = false
  inputs : t.sup.inputs = s.sup.inputs

theorem harvestBegun_begins (s : State) (cause : Nat) : HarvestBegun s cause (harvestBegun s cause) := by
  have hsent : Kept true true s (send (abandonEntry s .harvest) 0x09 0 [1]) := send_kept 0x09 0 [1] (abandonEntry_kept .harvest (Kept.refl s))
  obtain ⟨hmode, hboot, hinputs⟩ := toMode_harvest_parts (send (abandonEntry s .harvest) 0x09 0 [1])
  have hleft := (leavePair_kept (K := true) (J := true) (Kept.refl (toMode (send (abandonEntry s .harvest) 0x09 0 [1]) .harvest))).core rfl
  constructor
  case mode => exact hleft.mode.trans hmode
  case boot => exact congrArg Boot.harvested ((hleft.boot.trans hboot).trans (hsent.core rfl).boot)
  case hvFrom => rfl
  case hvTrigger => rfl
  case charger => rfl
  case inputs => exact ((congrArg Sup.inputs hleft.sup).trans hinputs).trans (congrArg Sup.inputs (hsent.core rfl).sup)

theorem HarvestBegun.work {s u t : State} {cause : Nat} (h : HarvestBegun s cause u) (k : SameHarvest u t) : HarvestBegun s cause t := by
  obtain ⟨hmode, hboot, hfrom, htrigger, hcharger, hinputs⟩ := h
  have hsup := k.sup
  constructor
  case mode => exact k.mode.trans hmode
  case boot => exact k.boot.trans hboot
  case hvFrom => exact (congrArg Sup.hvFrom hsup :).trans hfrom
  case hvTrigger => exact (congrArg Sup.hvTrigger hsup :).trans htrigger
  case charger => exact (congrArg Sup.charger hsup :).trans hcharger
  case inputs => exact (congrArg Sup.inputs hsup :).trans hinputs

/-- A Harvest leaves no command open and no program queued. -/
theorem enterHarvest_begins (s : State) (cause : Nat) :
    HarvestBegun s cause (enterHarvest s cause) ∧ (enterHarvest s cause).port.cmds = [] ∧ (enterHarvest s cause).cal.progs = [] := by
  have hwork := (harvestBegun_begins s cause).work (harvestWork_sameHarvest _)
  rw [enterHarvest_eq]
  exact ⟨⟨hwork.mode, hwork.boot, hwork.hvFrom, hwork.hvTrigger, hwork.charger, hwork.inputs⟩, rfl, rfl⟩

/-! ### The trigger (R329) -/

/-- The feeds and pins of the last sample taken. -/
def inputsTaken (s : State) (samples : List SupplySample) : State :=
  let x := samples.getLast?.getD {}
  let u := setFeeds s x.feedA x.feedB
  { u with sup := { u.sup with pwrdis := x.pwrdis, mated := u.sup.mated && !heldNow mateLost samples } }

/-- In Holiday time resumes and the DRAM's ranks wake (R441). -/
def awakened (s : State) (ticks : Nat) : State :=
  if s.md.mode = .holiday then setRanks (resumeTime { s with md := { s.md with waking := false } } ticks) .active else s

theorem awakened_parts (s : State) (ticks : Nat) : (awakened s ticks).md.mode = s.md.mode ∧ (awakened s ticks).boot = s.boot ∧ (awakened s ticks).sup = s.sup := by
  unfold awakened
  split
  · exact ⟨rfl, rfl, rfl⟩
  · exact ⟨rfl, rfl, rfl⟩

/-- A trigger that holds over its samples takes the module to Harvest, its feeds and pins taken and the event recorded. -/
theorem harvestTrigger_enters {s : State} (hrails : s.sup.rails = true) (hharvests : harvests s = true) (feeds : List (Nat × Nat)) (pwrdis : List Bool)
    (mateMv : List Nat) (ticks : Nat) {samples : List SupplySample} (hsamples : samples = supplySamples feeds pwrdis mateMv) (hcause : triggerCause samples ≠ 0) :
    ∃ payload, exec (.harvestTrigger feeds pwrdis mateMv ticks) s =
      .next (enterHarvest (record (awakened (inputsTaken s samples) ticks) 0x40 payload) (triggerCause samples)) := by
  subst hsamples
  refine ⟨_, if_neg ?_⟩
  simp [hrails, hharvests, hcause]

/-! ### The shutdown seal (R345) -/

theorem exec_shutdownSeal {s : State} (shifts : List Nat) (hmode : s.md.mode = .service ∨ s.md.mode = .solo ∨ s.md.mode = .pairing ∨ s.md.mode = .quarantine)
    (hsome : s.port.ctrls.filter (fun c => c.2.en) ≠ []) (hshut : ∀ c ∈ s.port.ctrls, c.2.en = true → c.2.shst = 2) :
    exec (.shutdownSeal shifts) s = .next (makeSeal (checkpoint s) 2 shifts id) := by
  have hall : (s.port.ctrls.filter (fun c => c.2.en)).any (fun c => c.2.shst != 2) = false := by
    rw [List.any_eq_false]
    intro c hc
    obtain ⟨hmem, hen⟩ := List.mem_filter.1 hc
    simp [hshut c hmem hen]
  have hserves : (s.md.mode.operates || s.md.mode == .pairing || s.md.mode == .quarantine) = true := by
    rcases hmode with h | h | h | h <;> simp [h, Mode.operates]
  show execShutdownSeal shifts s = _
  unfold execShutdownSeal
  dsimp only
  rw [if_neg]
  simp [hall, hserves, hsome]

/-! ### The obligation -/

/-- Settles O14: a trigger's work is `enterHarvest`, and every seal is `makeSeal`. -/
theorem harvestsAndSeals : Obligations.HarvestsAndSeals := by
  unfold Obligations.HarvestsAndSeals
  refine ⟨fun s feeds pwrdis mateMv samples ticks hrails hharvests hsamples hcause => ?_, fun s v a b shifts hmode hfeed => ?_,
    fun s v a b pwrdis mated shifts hmode hoff => ?_, fun s step landed hmode => ?_, fun s shifts hmode hsome hshut => ?_⟩
  · obtain ⟨payload, hrun⟩ := harvestTrigger_enters hrails hharvests feeds pwrdis mateMv ticks hsamples hcause
    obtain ⟨hawakeMode, hawakeBoot, hawakeSup⟩ := awakened_parts (inputsTaken s samples) ticks
    obtain ⟨⟨hmode, hboot, hfrom, htrigger, hcharger, hinputs⟩, hcmds, hprogs⟩ := enterHarvest_begins (record (awakened (inputsTaken s samples) ticks) 0x40 payload) (triggerCause samples)
    rw [record_mode_md, hawakeMode] at hfrom
    rw [record_boot, hawakeBoot] at hboot
    rw [record_sup, hawakeSup] at hinputs
    refine ⟨_, hrun, hmode, hfrom, htrigger, hcharger, ?_, ?_, ?_, hcmds, hprogs, hboot⟩
    · exact (congrArg Prod.fst hinputs).trans hrails
    · exact congrArg (fun x => x.2.1) hinputs
    · exact congrArg (fun x => x.2.2) hinputs
  · obtain ⟨t, hrun, hentered, hseal⟩ := harvestSeal_measures hmode v hfeed shifts
    exact ⟨t, _, hrun, hentered.mode, hentered.cause, hentered.boot, hseal, rfl, rfl, rfl, rfl, rfl, rfl, rfl⟩
  · obtain ⟨t, hrun, hrails, hbank, hclean, hlanded, hboot, hcontent, hseal⟩ := harvestSeal_falls hmode v a b pwrdis mated shifts hoff
    exact ⟨t, _, hrun, hrails, hbank, hclean, hlanded, hboot, hcontent, hseal, rfl, rfl, rfl, rfl, rfl, rfl⟩
  · exact harvestBankExhausted_keeps hmode step landed
  · obtain ⟨hsup, hmd, hclean, hsession, hlanded, hboot, -⟩ := makeSeal_sealed (checkpoint s) 2 shifts id
    have hkept := (checkpoint_kept (K := true) (J := true) (Kept.refl s)).core rfl
    exact ⟨_, _, exec_shutdownSeal shifts hmode hsome hshut, hclean, hsession, hlanded, congrArg Sup.sealRec hsup, rfl, rfl, hmd.trans hkept.mode, hboot.trans hkept.boot⟩

end Sys2Proof.Machine
end

section
/-! SUPPORT. Keys of tenants (R388 to R394, Table 13.2): what each method of an admitted Security Send does, and the security protocols. -/

namespace Sys2Proof.Machine

/-- A method comes under security protocol 01h. -/
theorem methodField_tcg {e : Sqe} (hp : secProtocol e = 1) (s : State) : methodField e s = none := by simp [methodField, hp]

/-- Protocols 00h and 01h are accepted. -/
theorem secField_known {e : Sqe} (hp : secProtocol e ≤ 1) (s : State) : secField e s = none := if_neg (by omega)

/-- The function of the owner that a function's command has. -/
theorem ownerFunc_ownerOf (s : State) {func : Nat} (hf : func < 128) : ownerFunc (ownerOf s func) = func := by
  unfold ownerFunc ownerOf
  omega

/-- A function's command lives as long as the function's controller lives through no reset. -/
theorem ownerLives_ownerOf (s : State) {func : Nat} (hf : func < 128) : ownerLives s (ownerOf s func) = true := by
  unfold ownerLives
  rw [ownerFunc_ownerOf s hf]
  unfold ownerOf
  simp
  omega

/-- An injection this module's own function asked for ends with its method's result. -/
theorem endInjection_own (s : State) {func : Nat} (hf : func < 128) (cid : Nat) :
    endInjection s (ownerOf s func) cid true = tcgResult s func cid 0 := by
  unfold endInjection tcgFor
  rw [if_neg (by unfold ownerOf; omega), ownerLives_ownerOf s hf, ownerFunc_ownerOf s hf]
  rfl

/-- A key goes into a tag at once while the tag's slot retires no other. -/
theorem inject_free {s : State} {w : KeyWait} {n : Ns} (hn : nsOf s w.nsid = some n) (htag : w.keyTag < n.kpio)
    (hfree : (KV.findD s.keys.slots (nth n.slots w.keyTag) {}).retiring = 0) :
    inject s w = endInjection (putInjected s (nth n.slots w.keyTag) w.key w.tenant) w.func w.cid true := by
  unfold inject
  simp only [hn]
  rw [if_neg (by omega), if_neg (by omega)]

/-- A module outside Service, holding the namespace, injects the key itself. -/
theorem execMediaKeyInjection_here {s s1 : State} {e : Sqe} {st tag kek key : Nat} {n : Ns} (h : Admitted s e false .security st s1) (hp : secProtocol e = 1)
    (hn : nsOf s1 e.nsid = some n) (hreach : reaches e.func n = true) (hf : e.func < 128) (htag : tag < n.kpio) (hkek : kekOf s1 e.func kek ≠ 0)
    (hmode : s1.md.mode ≠ .service) (hheld : n.held = true) (hfree : (KV.findD s1.keys.slots (nth n.slots tag) {}).retiring = 0) :
    execMediaKeyInjection e tag kek key true s = .next (tcgResult (putInjected s1 (nth n.slots tag) (key + 1) e.func) e.func e.cid 0) := by
  have hend := endInjection_own (putInjected s1 (nth n.slots tag) (key + 1) e.func) hf e.cid
  refine (adminCmd_admitted h (methodField_tcg hp s1) _).trans ?_
  simp only [hn]
  rw [if_neg (by simp [hreach, hkek]; omega), if_neg (by simp [hmode]), if_neg (by simp [hheld]), inject_free hn htag hfree]
  exact congrArg _ hend

/-- A key wrapped under no KEK of the tenant's is refused. -/
theorem execMediaKeyInjection_noKek {s s1 : State} {e : Sqe} {st tag kek key : Nat} {n : Ns} (h : Admitted s e false .security st s1) (hp : secProtocol e = 1)
    (hn : nsOf s1 e.nsid = some n) (hkek : kekOf s1 e.func kek = 0) :
    execMediaKeyInjection e tag kek key true s = .next (tcgResult s1 e.func e.cid 0x0C) := by
  refine (adminCmd_admitted h (methodField_tcg hp s1) _).trans ?_
  simp only [hn]
  rw [if_pos (by simp [hkek])]

/-- Outside Service a namespace held without data takes its slots and is enabled here alone. -/
theorem execKeyPerIoEnable_here {s s1 : State} {e : Sqe} {st tags : Nat} {n : Ns} (h : Admitted s e false .security st s1) (hp : secProtocol e = 1)
    (hn : nsOf s1 e.nsid = some n) (hreach : reaches e.func n = true) (hoff : n.kpio = 0) (hlow : 1 ≤ tags) (hhigh : tags ≤ 64) (hempty : n.noData = true)
    (hslots : n.slots.length ≤ 1) (hheld : n.held = true) (hfree : (freeDataSlots s1 tags).length = tags) (hmode : s1.md.mode ≠ .service) :
    execKeyPerIoEnable e tags s = .next (tcgResult (enableKpio (takeSlots s1 e.nsid tags) e.nsid tags) e.func e.cid 0) := by
  refine (adminCmd_admitted h (methodField_tcg hp s1) _).trans ?_
  simp only [hn]
  rw [if_neg (by simp [hreach, hoff, hempty]; omega), if_neg (by simp [hfree]), if_pos hheld]
  exact congrArg _ (if_neg hmode)

/-- Outside Service a namespace without data draws its key and is disabled here alone. -/
theorem execKeyPerIoDisable_here {s s1 : State} {e : Sqe} {st : Nat} {n : Ns} (h : Admitted s e false .security st s1) (hp : secProtocol e = 1)
    (hn : nsOf s1 e.nsid = some n) (hreach : reaches e.func n = true) (hon : n.kpio ≠ 0) (hempty : n.noData = true) (hmode : s1.md.mode ≠ .service) :
    execKeyPerIoDisable e s = .next (tcgResult (disableKpio (drawKey s1).2 e.nsid (drawKey s1).1) e.func e.cid 0) := by
  refine (adminCmd_admitted h (methodField_tcg hp s1) _).trans ?_
  simp only [hn]
  rw [if_neg (by simp [hreach, hon, hempty])]
  exact congrArg _ (if_neg hmode)

/-- What changes the media part alone leaves the keys. -/
theorem MediaOnly.keys {c s : State} (h : MediaOnly c s) : s.keys = c.keys := by
  unfold MediaOnly at h
  rw [h]

/-- Zeroizing a slot draws no key. -/
theorem zeroizeSlot_keyCtr (s : State) (slot : Nat) : (zeroizeSlot s slot).keys.keyCtr = s.keys.keyCtr := by
  unfold zeroizeSlot
  dsimp only
  split
  · rfl
  · rw [(MediaOnly.foldl toErase_mediaOnly _ _).keys]

/-- Disabling Key Per I/O uses the key drawn for it and draws no other. -/
theorem disableKpio_keyCtr (s : State) (nsid key : Nat) : (disableKpio s nsid key).keys.keyCtr = s.keys.keyCtr := by
  unfold disableKpio
  split
  · rfl
  next n _ =>
    have hzero : (n.slots.foldl zeroizeSlot s).keys.keyCtr = s.keys.keyCtr :=
      List.foldlRecOn (motive := fun t => t.keys.keyCtr = s.keys.keyCtr) _ zeroizeSlot rfl (fun t ht k _ => (zeroizeSlot_keyCtr t k).trans ht)
    exact List.foldlRecOn (motive := fun t : State => t.keys.keyCtr = s.keys.keyCtr) _ (fun t k => putGenerated t k key) hzero (fun t ht _ _ => ht)

/-- Settles O28: each method of an admitted command is its equation above. -/
theorem securityMethods : Obligations.SecurityMethods := by
  unfold Obligations.SecurityMethods
  refine ⟨?send, ?protocols, ?result, ?kek, ?mediaKey, ?noKek, ?enable, ?disable⟩
  case send =>
    intro s s1 e st h hp
    exact adminCmd_admitted h (secField_known hp s1) _
  case protocols =>
    intro s s1 e st h hp
    exact (adminCmd_admitted h (secField_known (by omega) s1) _).trans (congrArg _ (if_pos hp))
  case result =>
    intro s s1 e st r h hp hnot1 hnot2 hr
    refine (adminCmd_admitted h (secField_known (by omega) s1) _).trans ?_
    dsimp only
    rw [if_neg (by omega), if_neg hnot1, if_neg hnot2]
    simp only [hr]
  case kek =>
    intro s s1 e st kek key h hp hvf hkek
    refine (adminCmd_admitted h (methodField_tcg hp s1) _).trans ?_
    rw [if_neg (by simp [hvf]), if_neg (by omega)]
  case mediaKey =>
    intro s s1 e st tag kek key n h hp hn hreach hf htag hkek hmode hheld hfree
    exact execMediaKeyInjection_here h hp hn hreach hf htag hkek hmode hheld hfree
  case noKek =>
    intro s s1 e st tag kek key n h hp hn hkek
    exact execMediaKeyInjection_noKek h hp hn hkek
  case enable =>
    intro s s1 e st tags n h hp hn hreach hoff hlow hhigh hempty hslots hheld hfree hmode
    exact execKeyPerIoEnable_here h hp hn hreach hoff hlow hhigh hempty hslots hheld hfree hmode
  case disable =>
    intro s s1 e st n h hp hn hreach hon hempty hmode
    have hkept : Kept true true s1 (disableKpio (drawKey s1).2 e.nsid (drawKey s1).1) := disableKpio_kept _ _ (drawKey_kept (Kept.refl s1))
    exact ⟨_, execKeyPerIoDisable_here h hp hn hreach hon hempty hmode, disableKpio_keyCtr _ _ _, hkept.content rfl, hkept.core rfl⟩

end Sys2Proof.Machine
end

section
/-! SUPPORT. Erasures (R402 to R404): the acceptance of a Format and of a Sanitize, and the switch of a Format that replaces no key. -/

namespace Sys2Proof.Machine

/-! ### Acceptance -/

/-- A Format of a namespace ordered here is accepted: its I/O is fetched no more, and it waits. -/
theorem acceptFormat_here {s : State} {e : Sqe} {n : Ns} (crypto : Bool) (hn : nsOf s e.nsid = some n) (hpending : s.adm.sanitize.pending = false)
    (hrunning : s.adm.sanitize.running = false) (herasing : n.erasing = none) (hhere : n.here = true) :
    acceptFormat e s crypto = { setNs s e.nsid (fun n => { n with erasing := some false }) with adm := { s.adm with formats := s.adm.formats ++
      [{ nsid := e.nsid, crypto := crypto, func := ownerOf s e.func, cid := e.cid, flbas := fld e.cdw10 0 4, dps := fld e.cdw10 5 3 + 8 * fld e.cdw10 8 1 }] } } := by
  have hheld : n.held = true := by simp [Ns.held, hhere]
  unfold acceptFormat
  dsimp only
  rw [hn]
  dsimp only
  rw [if_neg (by simp [hpending, hrunning]), if_neg (by simp [herasing]), if_neg (by simp [hhere]), if_neg (by simp [hheld])]
  rfl

/-- An accepted Sanitize stops the fetching of every namespace held. -/
theorem acceptSanitize_stops (s : State) (cdw10 : Nat) (block : Bool) (cmd : Option (Nat × Nat)) (tag : Option Nat) (keys : List (Nat × Nat)) :
    ∀ p ∈ (acceptSanitize s cdw10 block cmd tag keys).zn.ns, p.2.held = true → p.2.erasing = some false ∧ p.2.sanitizing = true := by
  intro p hp hheld
  obtain ⟨q, -, rfl⟩ := List.mem_map.1 hp
  dsimp only at hheld ⊢
  by_cases hq : q.2.held = true
  · rw [if_pos hq]
    exact ⟨rfl, rfl⟩
  · rw [if_neg hq] at hheld
    exact absurd hheld hq

/-- A Sanitize is accepted while no erasure is under way. -/
theorem sanitizeCmd_accepted {s : State} {e : Sqe} (block : Bool) (hpending : s.adm.sanitize.pending = false) (hrunning : s.adm.sanitize.running = false)
    (hformats : s.adm.formats = []) : sanitizeCmd e s block = acceptSanitize s e.cdw10.toNat block (some (ownerOf s e.func, e.cid)) none [] := by
  unfold sanitizeCmd
  rw [if_neg (by simp [hpending, hrunning]), if_neg (by simp [hformats])]

/-- What an accepted Sanitize holds, and leaves. -/
theorem sanitizeCmd_effect {s : State} {e : Sqe} (block : Bool) (hpending : s.adm.sanitize.pending = false) (hrunning : s.adm.sanitize.running = false)
    (hformats : s.adm.formats = []) : ∃ t, sanitizeCmd e s block = t ∧ t.adm.sanitize.pending = true ∧ t.adm.sanitize.block = block ∧
      t.adm.sanitize.cmd = some (ownerOf s e.func, e.cid) ∧ (∀ p ∈ t.zn.ns, p.2.held = true → p.2.erasing = some false ∧ p.2.sanitizing = true) ∧
      t = { s with adm := t.adm, zn := { s.zn with ns := t.zn.ns } } :=
  ⟨_, sanitizeCmd_accepted block hpending hrunning hformats, rfl, rfl, rfl, acceptSanitize_stops s _ _ _ _ _, rfl⟩

/-! ### The switch of a Format that replaces no key -/

/-- What changes the media part alone leaves the admin part. -/
theorem MediaOnly.adm {c s : State} (h : MediaOnly c s) : s.adm = c.adm := by
  unfold MediaOnly at h
  rw [h]

theorem retire_adm (s : State) (q : Nat) : (retire s q).adm = s.adm := by
  unfold retire
  split <;> rfl

/-- Emptying a namespace is no admin command's doing. -/
theorem emptyNs_adm (s : State) (nsid : Nat) : (emptyNs s nsid).adm = s.adm := by
  have hwork : (dropNsWork s nsid).adm = s.adm := foldl_field State.adm (fun (s : State) (p : Nat × VRec) => retire s p.1) (fun s p => retire_adm s p.1) _ s
  have hmeta : (dropMeta (dropNsWork s nsid) nsid).adm = (dropNsWork s nsid).adm := (MediaOnly.foldl staleMeta_mediaOnly _ _).adm
  exact (MediaOnly.foldl (fun s (b : Nat × BSet) => toErase_mediaOnly s b.1) _ _).adm.trans (hmeta.trans hwork)

/-- Emptying a namespace changes no content but what goes with its planned work. -/
theorem emptyNs_kept_wiped (s : State) (nsid : Nat) : Kept false true (dropNsWork s nsid) (emptyNs s nsid) :=
  setNs_kept _ _ (eraseNsSets_kept nsid (dropMeta_kept nsid (Kept.refl _)))

/-- The switch without a new key empties the namespace. -/
theorem switchErase_kept_wiped {s : State} {nsid : Nat} {n : Ns} (hn : nsOf s nsid = some n) (key flbas dps : Nat) :
    Kept false true (dropNsWork s nsid) (switchErase s nsid false key flbas dps) := by
  unfold switchErase
  rw [hn]
  exact contNow_kept _ (setNs_kept _ _ (emptyNs_kept_wiped s nsid))

theorem contNow_adm (s : State) (nsid : Nat) : (contNow s nsid).adm = s.adm := by
  unfold contNow
  split <;> rfl

theorem switchErase_adm (s : State) (nsid key flbas dps : Nat) : (switchErase s nsid false key flbas dps).adm = s.adm := by
  unfold switchErase
  split
  · rfl
  · exact (contNow_adm _ _).trans (emptyNs_adm s nsid)

/-- A value whose key passes a test whatever the value stays, whatever the order of the table. -/
theorem find_keep_all {α : Type} (m : KV α) (p : Nat → α → Bool) (k : Nat) (h : ∀ v, p k v = true) : KV.find (KV.keep m p) k = KV.find m k := by
  unfold KV.keep
  induction m with
  | nil => rfl
  | cons x m ih =>
    obtain ⟨j, v⟩ := x
    by_cases hj : j = k
    · subst hj
      simp [List.filter, h v, KV.find]
    · cases hp : p j v <;> simp [List.filter, hp, KV.find, hj, ih]

/-- The planned work of one namespace holds no content of another. -/
theorem dropNsWork_other (s : State) {nsid other lba : Nat} (hne : other ≠ nsid) (hlba : lba < 2^64) : readLba (dropNsWork s nsid) other lba = readLba s other lba := by
  have hzn : ∀ l : List (Nat × VRec), (l.foldl (fun s p => retire s p.1) s).zn = s.zn :=
    fun l => foldl_field State.zn (fun (s : State) (p : Nat × VRec) => retire s p.1) (fun s p => retire_zn s p.1) l s
  unfold readLba KV.findD dropNsWork
  dsimp only
  rw [find_keep_all _ _ _ (fun _ => by rw [lbaKey_nsid hlba]; exact bne_iff_ne.2 hne), hzn]

/-! ### The start of a Format -/

/-- A Format without key replacement, started outside Service: its namespace erasing, the change recorded. -/
def formatRecorded (s : State) (f : Fmt) : State :=
  nsRecord (setNs s f.nsid (fun n => { n with erasing := some true })) f.nsid 3 (eraseArg f.crypto f.flbas f.dps) f.key true

/-- Outside Service the record of a change is this module's alone: the journal and the mode's flags see it. -/
theorem nsRecord_frame {s : State} (hmode : s.md.mode ≠ .service) (nsid action arg key : Nat) (carried : Bool) :
    nsRecord s nsid action arg key carried = { s with jr := (nsRecord s nsid action arg key carried).jr, md := (nsRecord s nsid action arg key carried).md } := by
  unfold nsRecord
  dsimp only
  rw [if_neg (by simp [hmode])]
  exact formRecord_frame _ _ _

theorem formatRecorded_frame {s : State} (hmode : s.md.mode ≠ .service) (f : Fmt) : formatRecorded s f =
    { setNs s f.nsid (fun n => { n with erasing := some true }) with jr := (formatRecorded s f).jr, md := (formatRecorded s f).md } :=
  nsRecord_frame (s := setNs s f.nsid (fun n => { n with erasing := some true })) hmode f.nsid 3 (eraseArg f.crypto f.flbas f.dps) f.key true

theorem formatRecorded_zn {s : State} (hmode : s.md.mode ≠ .service) (f : Fmt) :
    (formatRecorded s f).zn = (setNs s f.nsid (fun n => { n with erasing := some true })).zn := by
  rw [formatRecorded_frame hmode]

theorem formatRecorded_adm {s : State} (hmode : s.md.mode ≠ .service) (f : Fmt) : (formatRecorded s f).adm = s.adm := by
  rw [formatRecorded_frame hmode]
  rfl

/-- Outside Service a Format without key replacement ends as it starts. -/
theorem startFormat_plain {s : State} {f : Fmt} {n : Ns} (hmode : s.md.mode ≠ .service) (hcrypto : f.crypto = false) (hn : nsOf s f.nsid = some n) :
    startFormat s f = endFormat (formatRecorded s f) f := by
  have hset := nsOf_setNs_self hn (fun n => { n with erasing := some true })
  have hstay : (formatRecorded s f).md.mode = s.md.mode :=
    Core.mode ((nsRecord_kept (K := true) (J := true) f.nsid 3 (eraseArg f.crypto f.flbas f.dps) f.key true (setNs_kept f.nsid (fun n => { n with erasing := some true }) (Kept.refl s))).core rfl)
  have hoff : (n.mirrored && (formatRecorded s f).md.mode == .service) = false := by simp [hstay, hmode]
  unfold startFormat
  dsimp only
  rw [hset]
  dsimp only
  rw [if_pos (by simp [hcrypto])]
  unfold formatSwitch
  rw [hset]
  exact if_neg (Bool.eq_false_iff.1 hoff)

/-- What a Format without key replacement leaves once it is done: it is listed no more, and its namespace is emptied. -/
structure FormatDone (s : State) (f : Fmt) (t : State) : Prop where
  formats : t.adm.formats = s.adm.formats.filter (fun x => x.nsid != f.nsid)
  sanitize : t.adm.sanitize = s.adm.sanitize
  wiped : ∃ u, u.zn.store = s.zn.store ∧ t.zn.store = (dropNsWork u f.nsid).zn.store

/-- The completion of a command that went on after its step is its function's affair alone. -/
theorem completeFor_quiet (s : State) (owner cid : Nat) (st : Status) : Quiet s (completeFor s owner cid st) := by
  unfold completeFor
  split
  · exact complete_quiet (Quiet.refl s) _ _ _ _ _ _ _
  · exact Quiet.refl s

theorem startFormat_done {s : State} {f : Fmt} {n : Ns} (hmode : s.md.mode ≠ .service) (hcrypto : f.crypto = false) (htag : f.tag = none)
    (hn : nsOf s f.nsid = some n) : FormatDone s f (startFormat s f) := by
  have hzn := formatRecorded_zn hmode f
  have hrec : nsOf (formatRecorded s f) f.nsid = some { n with erasing := some true } :=
    (congrArg (fun z : Zn => KV.find z.ns f.nsid) hzn).trans (nsOf_setNs_self hn _)
  have hadm := (switchErase_adm (formatRecorded s f) f.nsid f.key f.flbas f.dps).trans (formatRecorded_adm hmode f)
  have hwiped := switchErase_kept_wiped hrec f.key f.flbas f.dps
  rw [startFormat_plain hmode hcrypto hn]
  unfold endFormat
  rw [hcrypto, htag]
  dsimp only
  have hquiet (u : State) := completeFor_quiet u f.func f.cid .success
  refine ⟨?_, ?_, formatRecorded s f, (congrArg Zn.store hzn).trans rfl, ?_⟩
  · rw [(hquiet _).adm]
    exact congrArg (fun a => a.formats.filter (fun x => x.nsid != f.nsid)) hadm
  · rw [(hquiet _).adm]
    exact (congrArg Admin.sanitize hadm :)
  · rw [(hquiet _).zn]
    exact hwiped.content rfl

/-- Outside Service the Format that alone waits, its namespace without open commands, is started and nothing else. -/
theorem execFormatSanitizeStart_format {s : State} {f : Fmt} {n : Ns} (hmode : s.md.mode = .solo) (hrails : s.sup.rails = true) (hformats : s.adm.formats = [f])
    (hcrypto : f.crypto = false) (htag : f.tag = none) (hn : nsOf s f.nsid = some n) (herasing : n.erasing = some false) (hopen : openOn s f.nsid = [])
    (hpending : s.adm.sanitize.pending = false) : execFormatSanitizeStart s = .next (startFormat s f) := by
  have hdone := startFormat_done (by simp [hmode]) hcrypto htag hn
  have hready : s.adm.formats.filter (fun f => (nsOf s f.nsid).any (fun n => n.erasing == some false) && (openOn s f.nsid).isEmpty) = [f] := by
    simp [hformats, hn, herasing, hopen]
  unfold execFormatSanitizeStart
  rw [if_neg (by simp [hmode, hrails]), hready]
  exact congrArg _ (if_neg (by simp [hdone.sanitize, hpending]))

/-- Settles O26: the acceptances are the equations above; the Format started ends with its namespace emptied and every other as it was. -/
theorem erasures : Obligations.Erasures := by
  unfold Obligations.Erasures
  refine ⟨?format, ?crypto, ?block, ?second, ?overwrite, ?leave, ?start⟩
  case format =>
    intro s s1 e st n h hfield hn hpending hrunning herasing hhere
    exact ⟨(adminCmd_admitted h hfield _).trans (congrArg _ (acceptFormat_here false hn hpending hrunning herasing hhere)),
      (adminCmd_admitted h hfield _).trans (congrArg _ (acceptFormat_here true hn hpending hrunning herasing hhere))⟩
  case crypto =>
    intro s s1 e st h hpending hrunning hformats
    obtain ⟨t, ht, heffect⟩ := sanitizeCmd_effect (e := e) false hpending hrunning hformats
    exact ⟨t, (adminCmd_admitted h (field := noField) rfl (fun s => sanitizeCmd e s false)).trans (congrArg _ ht), heffect⟩
  case block =>
    intro s s1 e st h hpending hrunning hformats
    obtain ⟨t, ht, heffect⟩ := sanitizeCmd_effect (e := e) true hpending hrunning hformats
    exact ⟨t, (adminCmd_admitted h (field := noField) rfl (fun s => sanitizeCmd e s true)).trans (congrArg _ ht), heffect⟩
  case second =>
    intro s s1 e st h hbusy
    exact (adminCmd_admitted h (field := noField) rfl (fun s => sanitizeCmd e s false)).trans (congrArg _ (if_pos hbusy))
  case overwrite =>
    intro s s1 e st h
    exact adminCmd_refused h (field := fun _ => some .invalidField) rfl id
  case leave =>
    intro s s1 e st h hpending hrunning
    refine (adminCmd_admitted h (field := noField) rfl _).trans ?_
    rw [if_neg (by simp [hpending, hrunning])]
  case start =>
    intro s f n hmode hrails hformats hcrypto htag hn herasing hopen hpending
    have hexec := execFormatSanitizeStart_format hmode hrails hformats hcrypto htag hn herasing hopen hpending
    obtain ⟨hlist, -, u, hu, hstore⟩ := startFormat_done (by simp [hmode]) hcrypto htag hn
    have hread (nsid lba : Nat) : readLba (startFormat s f) nsid lba = readLba (dropNsWork u f.nsid) nsid lba := by rw [readLba, hstore, ← readLba]
    refine ⟨_, hexec, by simp [hlist, hformats], fun lba hlba => (hread _ _).trans (dropNsWork_unwritten u f.nsid hlba), fun nsid lba hne hlba => ?_, ?_⟩
    · rw [hread, dropNsWork_other u hne hlba, readLba, hu, ← readLba]
    · exact ((execFormatSanitizeStart_kept (Kept.refl (K := true) s)).next_kept _ hexec).core rfl

end Sys2Proof.Machine
end

section
/-! SUPPORT. Temperature (R414, R443): the sample that brings a withdrawn offset's thresholds into force. -/

namespace Sys2Proof.Machine

/-- A module in Solo whose controller offset of 3 °C has been set back to 0 since the class was last sampled (R414): the offset in force is still 3, so that the controller's warn threshold still reads 97 °C. -/
def offsetWithdrawn : State := { md := { mode := .solo }, th := { ctrlUse := 3, ctrlOff := 0 } }

/-- The class's next sample brings the offset of 0 into force, and at 98 °C the controller is below the warn threshold of 100 °C. -/
theorem offsetWithdrawn_notOver : ∃ t, exec (.thermalSample 0 98 (List.replicate 11 98)) offsetWithdrawn = .next t ∧ (sensorOf t 0).over 1 = false :=
  ⟨_, rfl, by decide +kernel⟩

/-- Refutes O45: its first clause takes the thresholds in force before the sample, but an offset set since the class's latest sample comes into force with the sample (R414); with the offset set back from 3 to 0, readings of 98 °C reach the old warn threshold, 97 °C, and not the new one. -/
theorem not_thermalPolicy : ¬ Obligations.ThermalPolicy := by
  unfold Obligations.ThermalPolicy
  intro h
  obtain ⟨hsample, -⟩ := h
  obtain ⟨t, hexec, -, -, hover, -⟩ := hsample offsetWithdrawn 0 98 (List.replicate 11 98) _ rfl (by decide) (by decide) (by decide) (by decide) (by decide)
  obtain ⟨u, hu, hnot⟩ := offsetWithdrawn_notOver
  have hut : u = t := Host.Outcome.next.inj (hu.symm.trans hexec)
  have hreached := hover 1 97 (by decide) (by decide) rfl (by decide)
  rw [← hut, hnot] at hreached
  cases hreached

end Sys2Proof.Machine
end
